-- ==== Sys2Proof/Word.lean ====
section
/-! DEFINITION. The words of the AZ9216-A: 32-bit registers (R6), bytes, 64-byte ring entries (R66), and the
bit fields of a register (R6: `[msb:lsb]`). Field values are natural numbers, so that counts and indexes compare
without casts; a register itself stays a bit vector, so reserved bits survive. -/

namespace Sys2Proof

/-- A register (R6). -/
abbrev Word := BitVec 32

/-- A byte of host or package memory. -/
abbrev Byte := BitVec 8

/-- A 64-byte command ring entry (R66, R79); byte b bit i is bit 8b + i. -/
abbrev Entry := BitVec 512

/-- A 256-byte flow parameter block (R353); byte b bit i is bit 8b + i. -/
abbrev ParamBlock := BitVec 2048

/-- A bit field [lo + width - 1 : lo] of a register (R6). -/
structure Field where
  lo : Nat
  width : Nat
  deriving DecidableEq, Repr

/-- The field's value, read as a number. -/
def Field.get (f : Field) (w : Word) : Nat := w.toNat / 2 ^ f.lo % 2 ^ f.width

/-- The register with the field set to `n`, reduced to the field's width; every other bit as it was. -/
def Field.set (f : Field) (w : Word) (n : Nat) : Word :=
  BitVec.ofNat 32
    (w.toNat % 2 ^ f.lo + 2 ^ f.lo * (n % 2 ^ f.width)
      + 2 ^ (f.lo + f.width) * (w.toNat / 2 ^ (f.lo + f.width)))

/-- Bits [8b + lo, 8b + lo + w) of a wide little-endian record, as a number. -/
def bitsAt {n : Nat} (v : BitVec n) (byte lo w : Nat) : Nat := v.toNat / 2 ^ (8 * byte + lo) % 2 ^ w

/-- A two's-complement reading of the low `w` bits of `n`. -/
def signed (w n : Nat) : Int := if n % 2 ^ w < 2 ^ (w - 1) then (n % 2 ^ w : Nat) else (n % 2 ^ w : Nat) - (2 ^ w : Nat)

/-- Division rounded up; 0 for a zero divisor. -/
def ceilDiv (a b : Nat) : Nat := (a + b - 1) / b

/-- A sparse table by index, keys strictly rising; what an unlisted key holds is said where the table is read. -/
abbrev Tbl (α : Type) : Type := List (Nat × α)

end Sys2Proof
end

