-- ==== Sys2Proof/Syntax.lean ====
section
/-! DEFINITION. The commands the block takes: one constructor of `Instr` per row of spec/opcode_table.json, in the
table's order. An index is a `Fin n` or a `BitVec n` of exactly the range the spec gives the object, so that an index
out of range cannot be written. What a row reports from outside the block (a received frame, a measured offset, data
read from host memory) is an operand of the row. -/

namespace Sys2Proof

/-- Tenant TN0-TN1023 (R58). -/
abbrev Tenant := Fin 1024
/-- Ring of a tenant page, 0-15 (R66). -/
abbrev RingIx := Fin 16
/-- Command ring, 0-7 (R66). -/
abbrev CmdRing := Fin 8
/-- Source or destination track T0-T4095 (R30, R31). -/
abbrev Track := Fin 4096
/-- Media lane ML0-ML255. -/
abbrev Lane := Fin 256
/-- Bolben lane BL0-BL95 (R379). -/
abbrev BLane := Fin 96
/-- Bolben link L0-L11 (R379). -/
abbrev Link := Fin 12
/-- Trunk TR0-TR3 (R380). -/
abbrev Trunk := Fin 4
/-- Fabric node 0-3 (R54). -/
abbrev Node := Fin 4
/-- MAC port MP0-MP63. -/
abbrev Port := Fin 64
/-- Crosspoint plane PL0-PL16 (R168). -/
abbrev Plane := Fin 17
/-- Time base TB0-TB3. -/
abbrev Tb := Fin 4
/-- Canvas CV0-CV63. -/
abbrev Canvas := Fin 64
/-- Host DMA channel DC48 + n (R93). -/
abbrev HostCh := Fin 16
/-- Audio destination channel AD0-AD8191 (R424). -/
abbrev AudDst := Fin 8192
/-- De-embedder DE0-DE255 (R423). -/
abbrev DeEmb := Fin 256
/-- TDM port 0-7. -/
abbrev TdmPort := Fin 8
/-- Pulse output TPO0-TPO15. -/
abbrev Tpo := Fin 16
/-- Hedgerow source 0-511 (R525). -/
abbrev HdgSrc := Fin 512

/-- Where a host write goes: the PF's BAR0 (R62), or the page of tenant t (PF BAR2 for tenant 0, BAR0 of VF t, R63). -/
inductive RegSpace where
  | bar0
  | page (t : Tenant)
  deriving DecidableEq, Repr

/-- The three events of R109's second row. -/
inductive PfReset where
  | flr
  | hotReset
  | linkDown
  deriving DecidableEq, Repr

/-- Who met an uncorrectable memory word (R252). -/
inductive EccReader where
  /-- the synchroniser of a source, at a line of the frame it reads -/
  | synchroniser (src : Track) (line : BitVec 11)
  /-- a layer of a canvas, at a tile of its source -/
  | surface (c : Canvas) (layer : Fin 32) (tile : Nat)
  | dma (ch : Fin 64)
  deriving DecidableEq, Repr

/-- Reasons carried by REFUSE and CANCEL (R217). -/
inductive SalvoReason where
  | late
  | aborted
  | linkLost
  deriving DecidableEq, Repr

/-- What a loss of lock is declared for (R309): the CDR lost lock, four expected EAVs are missing or misplaced, or the received
structure or phase changed, with the lines filled until then (R310). -/
inductive LockLoss where
  | cdr
  | eav
  | changed (lines : Nat)
  deriving DecidableEq, Repr

/-- What the payload ID check of one frame found (R306, R313). `ok` carries the ST 352 bytes and the sampling,
transfer and colour they name. -/
inductive PidOutcome where
  | ok (pid : Word) (sampling transfer : BitVec 2) (colour : Bool)
  | absent
  | mismatch (pid : Word)
  | unsupported (pid : Word)
  | otherBond (pid : Word)
  | wrongLink (pid : Word)
  deriving DecidableEq, Repr

/-- What of a preemptable frame has been received (R336, R340): all of it, its first fragment, or a continuation. A frame has a
number, and so has each continuation. -/
inductive FrameFrag where
  | whole
  | first (frame : Fin 4)
  | next (frame count : Fin 4) (last : Bool)
  deriving DecidableEq, Repr

/-- A received Ethernet frame or fragment as the MAC judges it (R334, R335, R340): the length from destination address to FCS,
for a fragment what it adds to that. -/
structure RxFrame where
  len : Nat
  fcsOk : Bool
  pcsErr : Bool
  frag : FrameFrag
  express : Bool
  control : Bool
  space : Bool
  /-- ns from the instant at which its first bit after the start frame delimiter crossed the lane balls (R458) -/
  ago : BitVec 24
  /-- FEC codewords corrected while it was received (R347) -/
  corrected : Byte
  deriving DecidableEq, Repr

/-- What a frame to be sent is (R336): a packet of a transmit flow, a PTP event or general message, or another frame that firmware
builds. -/
inductive FrameKind where
  | essence (flow : Fin 4096)
  | ptpEvent
  | ptpGeneral
  | other
  deriving DecidableEq, Repr

/-- The kind of an unmatched frame (R356). -/
inductive PacketKind where
  | essence
  | ptp
  | igmp
  | mld
  | arp
  | ndp
  | other
  deriving DecidableEq, Repr

/-- What an ancillary data packet carries: ST 299-1 or -2 audio data or control, EDH, a payload ID, or anything else (R370). -/
inductive AncKind where
  | audio
  | edh
  | payloadId
  | other
  deriving DecidableEq, Repr

/-- An ancillary data packet, and the line it names (R370). -/
structure AncPacket where
  kind : AncKind
  line : BitVec 11
  words : List (BitVec 10)
  deriving DecidableEq, Repr

/-- A sample row data header of a TYPE 0 packet: whether its row lies in the second field or segment, the row there, the pixel
it begins at and its length in bytes (R358). -/
structure SrdHeader where
  second : Bool
  row : BitVec 15
  offset : BitVec 15
  length : BitVec 16
  deriving DecidableEq, Repr

/-- What ESS finds in a frame of the SDI that a TYPE 5 flow carries: raster and frame rate as measured, and its payload ID
(R312, R313, R350). -/
structure SdiFound where
  raster : Byte
  rate : Byte
  pid : PidOutcome
  deriving DecidableEq, Repr

/-- A valid frame on a port, as ESS sees it (R356, R358, R363, R370). -/
structure EssPacket where
  kind : PacketKind
  ipv6 : Bool
  dst : BitVec 128
  dport : BitVec 16
  vid : Option (BitVec 12)
  src : BitVec 128
  ssrc : Word
  version : BitVec 2
  pt : BitVec 7
  seq : Word
  rtpTime : Word
  marker : Bool
  /-- TYPE 0: its SRD headers -/
  srds : List SrdHeader
  /-- the RTP payload after its headers -/
  payload : List Byte
  /-- TYPE 4: its ancillary data packets -/
  anc : List AncPacket
  /-- the line, packet or frame that the data belongs to has already been released (R364, R370) -/
  afterRelease : Bool
  /-- the packet completes a frame of its flow (R350, R361) -/
  endsFrame : Bool
  /-- TYPE 5: what that frame carries -/
  sdi : Option SdiFound
  deriving DecidableEq, Repr

/-- What a link's far end reports in training (R401, R405, R406). -/
structure FarEnd where
  chipId : BitVec 64
  prio : Byte
  expNodes : BitVec 2
  trunk : BitVec 3
  /-- the state it sends (PHASE) -/
  phase : Fin 8
  /-- signal is present on every lane of the link -/
  signal : Bool
  /-- it reports RXLOCK on every lane, DONE on every lane, and 1,000 consecutive good blocks -/
  rxLock : Bool
  done : Bool
  good : Bool
  /-- skew between the link's lanes, and across the lanes of its trunk, in ps (R387) -/
  skewPs : BitVec 16
  trunkSkewPs : BitVec 16
  deriving DecidableEq, Repr

/-- A tap request of R402. -/
inductive TapReq where
  | hold
  | preInc
  | preDec
  | postInc
  | postDec
  | preset (p : Fin 8)
  /-- the receiver's search has ended with this eye margin -/
  | searchEnd (eye : Byte)
  deriving DecidableEq, Repr

/-- The request is no request but the end of the receiver's search. -/
def TapReq.endsSearch : TapReq → Bool
  | .searchEnd _ => true
  | _ => false

/-- A clock domain that stops when unused (R488). -/
inductive StopDomain where
  | mlg (g : Fin 16)
  | flg (f : Fin 4)
  | audm (n : Fin 8)
  | cmp (k : Fin 4)
  deriving DecidableEq, Repr

/-- A firmware image as its header gives it, with the outcome of the cryptographic checks of R583, whose
algorithms are other standards. -/
structure Image where
  magic : Word
  hdrFmt : Word
  version : Word
  svn : Nat
  cfgFmt : BitVec 16
  cfgRead : BitVec 16
  minPeer : Word
  length : Nat
  keyIdx : BitVec 2
  enc : Bool
  /-- SHA-384 of PUBKEY equals the OTP hash of slot KEYIDX -/
  keyHashOk : Bool
  /-- SIG verifies -/
  sigOk : Bool
  /-- the ciphertext decrypts with a matching TAG -/
  tagOk : Bool
  deriving DecidableEq, Repr

/-- A record of a configuration bank (R597). -/
inductive BankRecord where
  | regWrite (off : BitVec 26) (v : Word)
  | window (off : BitVec 26) (v : Word)
  | ptp
  | firmware (confTo : BitVec 16) (shadowFr : BitVec 8)
  | signature (verifies : Bool)
  | unknown
  deriving DecidableEq, Repr

/-- A configuration bank (R597). `checkOk` says that CHECK is the CRC-32C of bytes 0-27 and the body. -/
structure Bank where
  magic : Word
  cfgFmt : BitVec 16
  seq : Word
  len : Nat
  chipId : BitVec 64
  checkOk : Bool
  records : List BankRecord
  deriving DecidableEq, Repr

/-- A life-cycle or key token (R605), with whether PUBKEY hashes to a slot and the signature verifies. -/
structure Token where
  chipId : BitVec 64
  op : Byte
  arg : Byte
  slot : BitVec 2
  keyHashOk : Bool
  sigOk : Bool
  deriving DecidableEq, Repr

/-- A DMA read of a flow parameter block (R105, R155): the block, none where the last attempt failed too, and the attempts
that failed before that. -/
structure BlockRead where
  block : Option ParamBlock
  failed : Fin 16
  deriving DecidableEq, Repr

/-- A change the active chip mirrors (R571). -/
inductive MirrorRecord where
  /-- a register of the TEN block or a region's settings, as written -/
  | register (off : BitVec 26) (v : Word)
  /-- the owner of an object (R116) -/
  | owner (kind : BitVec 4) (index : Nat) (t : Tenant)
  /-- a dispatched command of tenant t, applied at its switch line, frame or instant -/
  | command (t : Tenant) (e : Entry) (pb : Option ParamBlock)
  /-- the RTP sequence state of a transmit flow, at SYNC -/
  | sequence (flow : Fin 4096) (seq : Word)
  /-- the last record of a snapshot (R572) -/
  | snapshotEnd
  /-- a still with its content -/
  | still (index : Fin 4096) (width height : BitVec 16) (sampling transfer : BitVec 2) (colour : Bool) (data : List Byte)
  deriving DecidableEq, Repr

/-- The results a start-up reports at READY (R499, R554, R585, R600). -/
structure StartReport where
  /-- failed units found by the full self-test, when one ran -/
  failedUnits : List (Fin 256)
  /-- rows of the line store that it found failing (R552, R553) -/
  failedRows : List (Fin 45840)
  /-- PCIe and the rest of start-up complete (false: no valid image, R585) -/
  complete : Bool
  /-- images that the board has programmed in slots 0, 1 and 2 (the recovery slot) of flash: a slot that the device has
  not written since holds the one listed, or none (R580, R585) -/
  board : List (Fin 3 × Image)
  deriving DecidableEq, Repr

/-- The commands of the block, one per row of spec/opcode_table.json. -/
inductive Instr where
  /-- R9, R59: a host write to a register that has no row of its own; `hi` is the upper word of an 8-byte write -/
  | registerWrite (sp : RegSpace) (off : BitVec 26) (v : Word) (hi : Option Word)
  | glbLockSetup (v : Word)
  | barAccessUnsupported (t : Tenant) (isWrite : Bool)
  | doorbell (t : Tenant) (r : RingIx) (index : BitVec 16)
  | commandFetch (t : Tenant) (r : CmdRing) (entries : List Entry)
  /-- R87; `pb` is the parameter block that the flow commands read by DMA (R155, R353), none when that read fails -/
  | commandDispatch (pb : BlockRead)
  | commandAged (t : Tenant) (r : CmdRing)
  | ringModTimerExpiry (t : Tenant) (r : RingIx)
  | msixUnmask (t : Tenant) (vec : BitVec 6)
  | ringCtrlWrite (t : Tenant) (r : RingIx) (v : Word)
  | ringBaseWrite (t : Tenant) (r : RingIx) (hi : Bool) (v : Word)
  | ringStatWrite (t : Tenant) (r : RingIx) (v : Word)
  | flrVf (n : Tenant)
  | pfFlr (k : PfReset)
  | dmaEnable (ch : HostCh) (v : Word)
  | dmaResume (ch : HostCh)
  | dmaAbort (ch : HostCh)
  | dmaPidxWrite (ch : HostCh) (v : Word)
  | dmaDescriptorFetch (ch : HostCh) (desc : BitVec 256)
  | dmaRequest (line : BitVec 7)
  | dmaBurstDone (ch : HostCh) (data : List Byte)
  /-- R105; on a command channel, the bytes of its transfer that had moved before the burst -/
  | dmaBurstFail (ch : Fin 64) (moved : Word)
  | dmaRetryTimer (ch : Fin 64)
  /-- R135: a command of tenant t from its command ring r, as its 64-byte entry -/
  | nop (t : Tenant) (r : CmdRing) (e : Entry)
  | route (t : Tenant) (r : CmdRing) (e : Entry)
  | unroute (t : Tenant) (r : CmdRing) (e : Entry)
  | salvoOpen (t : Tenant) (r : CmdRing) (e : Entry)
  | salvoCommit (t : Tenant) (r : CmdRing) (e : Entry)
  | salvoAbort (t : Tenant) (r : CmdRing) (e : Entry)
  | canvasDef (t : Tenant) (r : CmdRing) (e : Entry)
  | layerSet (t : Tenant) (r : CmdRing) (e : Entry)
  | sliceSet (t : Tenant) (r : CmdRing) (e : Entry)
  | stillLoad (t : Tenant) (r : CmdRing) (e : Entry)
  /-- R152: the host data that has been read -/
  | stillStored (still : Fin 4096) (data : List Byte)
  | audMap (t : Tenant) (r : CmdRing) (e : Entry)
  | audPort (t : Tenant) (r : CmdRing) (e : Entry)
  | flowRxDef (t : Tenant) (r : CmdRing) (e : Entry) (pb : BlockRead)
  | flowTxDef (t : Tenant) (r : CmdRing) (e : Entry) (pb : BlockRead)
  | frameGrab (t : Tenant) (r : CmdRing) (e : Entry)
  /-- R165: the frame's bytes as written, and how many ns ago its first active line began -/
  | frameCaptured (ch : Fin 48) (data : List Byte) (ago : Word)
  | migrate (t : Tenant) (r : CmdRing) (e : Entry)
  | timeArm (t : Tenant) (r : CmdRing) (e : Entry)
  | bistReq (t : Tenant) (r : CmdRing) (e : Entry)
  | query (t : Tenant) (r : CmdRing) (e : Entry)
  | tenCfgWrite (n : Tenant) (v : Word)
  | grant (kind : BitVec 4) (tenant : Tenant)
  | revoke (kind : BitVec 4) (tenant : Tenant)
  | grantDone
  | reservationWrite (n : Tenant) (code : Fin 5) (v : Word)
  /-- R201: the line whose end this is, the word slot of its cell from which the head runs (R173), and how many writes of
  an old surface epoch arrive (R250) -/
  | switchPoint (d : Track) (line : BitVec 11) (slot : Fin 4) (stale : Nat)
  | formatChangeBoundary (d : Track)
  /-- R180, R250: a frame of the destination begins; `data` is what a surface writer made of the one before, as its Sedge tiles -/
  | destFrameStart (d : Track) (data : List Byte)
  | salvoPrepareDone (t : Tenant) (slot : Fin 4)
  | salvoLocalDeadline (t : Tenant) (slot : Fin 4)
  /-- R217: PREPARE from the coordinator -/
  | prepare (src : Node) (group : Word) (tb : Tb) (time : Word) (nodes : BitVec 4) (f : Word)
  | ready (src : Node) (group : Word) (f : Word) (count : BitVec 13)
  | refuse (src : Node) (group : Word) (reason : SalvoReason)
  | commit (src : Node) (group : Word) (f : Word)
  | cancel (src : Node) (group : Word) (reason : SalvoReason)
  | salvoDecisionDeadline (group : Word)
  /-- R222, R223; `acked` names the nodes whose delivery acknowledgement of COMMIT has arrived -/
  | salvoApplyDeadline (group : Word) (acked : BitVec 4)
  | migrateOverlapStart (kind : Fin 3) (obj : Fin 4096)
  /-- R229; `late` results of the old placement arrive with the old epoch -/
  | migrateCommitBoundary (kind : Fin 3) (obj : Fin 4096) (late : Nat)
  /-- R169: the source tracks whose next cell is complete, each with the words of its stream that arrive meanwhile; per
  destination the symbol positions its cell has in error, each with the error's value; and how many results arrive with
  an old route-set epoch (R41) -/
  | schedulePeriod (words : List (Track × List (BitVec 20))) (errs : List (Track × List (Fin 16 × BitVec 6))) (stale : Nat)
  | rotationTimer
  | planeTestDone (pass : Bool)
  | rotationCopyStart
  | rotationReadsMove
  | rotationComplete
  | forceRot
  | xptClrcnt
  | xptRetireCmd (p : BitVec 5)
  | xptRtpar (d : Track) (both : Bool)
  | xptRtIdx (v : Word)
  | xptSuIdx (v : Word)
  /-- R232: the arrival instant less the reference instant, a - Rf, in ps -/
  | alignerAcquired (src : Track) (off : Int)
  /-- R247: where the stream arrives now, less Rf, in ps, and whether its phase jumped there -/
  | streamLeavesWindow (src : Track) (off : Int) (jump : Bool)
  /-- R244: the number of the newest frame whose last line was written at least a line period ago -/
  | syncFrameStart (src : Track) (newest : Nat)
  | erroredLine (src : Track) (line : Nat)
  | memoryStackFail (k : Fin 2)
  | fsaEccunc (r : EccReader)
  | fsaEccfix
  /-- R253: a request of a controller, its age in µs, and the controller's cycles since the last report, each with the
  real-time requesters that waited in it -/
  | backgroundRequestAged (ctl : Fin 2) (req : Nat) (age : Word) (cycles : List (List Nat))
  | fsaLspar
  | fsaAlIdx (v : Word)
  | fsaDlData (v : Word)
  | fsaClrcnt
  | canvasComposeStart (c : Canvas)
  /-- R289, R292: whether composition has finished, and the slices whose first packets missed the window (R291, R369) -/
  | canvasFrameOut (c : Canvas) (finished : Bool) (missed : List (Fin 4096))
  | cmpLtpar (c : Canvas) (layer : Fin 32)
  /-- R294: word k of the selected region's configuration: CFG, POS, SIZE, STILL, EXP0-EXP3 -/
  | cmpSrCfgWrite (k : Fin 8) (v : Word)
  | learn (lslot : Fin 4)
  | clear
  | cmpEnIdx (v : Word)
  | cmpCvIdx (v : Word)
  | cmpClrcnt
  | mlnCtrlWrite (n : Lane) (v : Word)
  | txfmtWrite (n : Lane) (v : Word)
  | mediaOutputFrameStart (n : Lane)
  | losSet (n : Lane)
  | losClear (n : Lane)
  | cdrLock (n : Lane) (rate : Fin 12)
  | framed (n : Lane)
  | lossOfLock (n : Lane) (c : LockLoss)
  | lolholdExpiry (n : Lane) (lines : Nat)
  | lolshort (n : Lane) (lines frames : Nat)
  /-- R312: raster and rate as measured (the family is the lane's), and whether the input is Level B-DL -/
  | descriptorPublish (n : Lane) (raster rate : Byte) (levelB : Bool)
  | payloadIdCheck (n : Lane) (o : PidOutcome)
  | lineCrcError (n : Lane)
  | edhCheck (n : Lane) (packet : Bool) (agree : Bool)
  | bondSkew (n : Lane) (ns : BitVec 9)
  /-- R307: at the upper end of its range -/
  | eqlimit (n : Lane) (top : Bool)
  | txfifo (n : Lane)
  | mlnGrppll (g : Fin 16)
  | groupPllRelock (g : Fin 16)
  | mlnClrcnt
  | mppCfgWrite (p : Port) (v : Word)
  | macLinkUp (p : Port)
  | verifyAttempt (p : Port) (ok : Bool)
  | autoNegotiationDone (p : Port) (fec : Fin 3)
  | macLinkdn (p : Port)
  | macFrameReceived (p : Port) (f : RxFrame)
  /-- R341: a frame from its destination address to its last payload byte, of which `buffered` bytes are in the buffer, and
  whether firmware marks it for a timestamp (R458) -/
  | macFrameOffered (p : Port) (kind : FrameKind) (data : List Byte) (buffered : Nat) (marked : Bool)
  /-- R338: an express frame, and how many bytes of the frame being sent have left; for a frame that firmware marks (R458), the ns
  until its first bit after the start frame delimiter -/
  | expressFrameReady (p : Port) (data : List Byte) (sent : Nat) (marked : Option (BitVec 16))
  /-- R339: the launch time of the next express frame that is scheduled, in the full time of the port's base, and how many bytes
  of the frame being sent have left -/
  | holdAdvance (p : Port) (launch : BitVec 64) (sent : Nat)
  /-- R342: how many bytes of the frame have left -/
  | macUnderrun (p : Port) (sent : Nat)
  | macFecunc (p : Port)
  /-- R345: destination address, EtherType and first 4 payload bytes as numbers in network order, and whether the FCS is correct -/
  | macWake (p : Port) (dst : BitVec 48) (etherType : BitVec 16) (id : Word) (fcsOk : Bool)
  | macSnap (v : Word)
  | macClrcnt
  | essPacketReceived (p : Port) (k : EssPacket)
  /-- R359, R360: the line of a video flow, and whether its data is complete at its release; of an audio flow the next packet -/
  | playoutRelease (fr : Fin 2048) (line : BitVec 11) (complete : Bool)
  | essRxlost (fr : Fin 2048)
  | legloss (fr : Fin 2048) (legB : Bool)
  | membershipReport (fr : Fin 2048) (legB : Bool)
  /-- R357: an IGMP query, or an MLD one -/
  | membershipQuery (p : Port) (mld : Bool)
  /-- R365, R367, R368, R370: whether the packet's data has left XPT, for TYPE 4 and 5 whether it belongs to the second field or
  segment, the sample data that the flow's track or channels give it, and the ancillary packets of its stream -/
  | txPacketInstant (ft : Fin 4096) (dataReady : Bool) (second : Bool) (data : List Byte) (anc : List AncPacket)
  | essFtpar (tx : Bool) (flow : Fin 4096)
  | essFrIdx (v : Word)
  | essFtIdx (v : Word)
  | essClrcnt
  /-- R386; `lines` names the track lines with a word of a block missed meanwhile (R391) -/
  | blockLock (j : BLane) (lines : List (Track × BitVec 11))
  | blockLockLoss (j : BLane) (los : Bool)
  | blockLockLossTimeout (j : BLane)
  /-- R382: the 1,600 line bits of a block in line order, the first in bit 0; `lines` names the track lines that hold one of its
  words (R391), `formats` the inbound tracks whose stream format (R26) is found with it (R235), and `out` is the multiplex that the
  lane's own transmitter has for the block that it sends meanwhile -/
  | blockReceived (j : BLane) (line : BitVec 1600) (out : BitVec 1536) (lines : List (Track × BitVec 11))
      (formats : List (Track × BitVec 64))
  | trainingAdvance (k : Link) (far : FarEnd)
  /-- R402: a request of this chip's receiver to the far transmitter, or `far` of the far receiver to this one -/
  | tapRequest (j : BLane) (q : TapReq) (far : Bool)
  | trainingPhaseTimeout (k : Link)
  | trainingBackoffExpiry (k : Link)
  | blkLinkCfgWrite (k : Link) (v : Word)
  | blkTrunkSlotWrite (t : Trunk) (inbound : Bool) (v : Word)
  /-- R393: the far end's ISLOT CNT, and whether its OSLOT CNT equals the CNT sent to it -/
  | trunkup (t : Trunk) (cnt : BitVec 11) (back : Bool)
  | flitReceived (k : Link) (f : BitVec 128)
  | flitAckTimeout (k : Link)
  | replayfail (k : Link)
  | rregWr (src : Node) (off : BitVec 26) (v : Word)
  | rdmaWr (src : Node) (off : BitVec 36) (data : List Byte)
  | rregRd (src : Node) (tag : Byte) (off : BitVec 26)
  | rdmaRd (src : Node) (tag : Byte) (off : BitVec 36) (len8 : Byte)
  | flush (src : Node) (tag : Byte)
  | cpl (src : Node) (tag : Byte) (rejected : Bool) (data : List Byte)
  /-- R407; `links` names the nodes to which the sender has ACTIVE links (R408; log entry 34) -/
  | fw (src : Node) (links : BitVec 4) (body : List Byte)
  | blkRtimeout (tag : Byte)
  | remoteRegRead
  | remoteRegWrite
  /-- R414: a tuple that arrives on a link -/
  | join (k : Link) (prio : Byte) (chip : BitVec 64)
  /-- R414-R416: the tuples by node number, (0, 0) for a number whose node has gone, and the root's superframe count -/
  | assign (order : List (Byte × BitVec 64)) (ftime : BitVec 48)
  | electionTimeout
  /-- R415: the tuples of the nodes that can still be reached -/
  | blkRootchg (reach : List (Byte × BitVec 64))
  | blkFtimeSnap
  | blkClrcnt
  | fabricTimeSend (b : Tb) (dst : Node)
  /-- R456, R457: offset of the follower from its source in ns, the source's rate in ppt, the mode of the source base -/
  | fabricTimeMsg (b : Tb) (srcMode : BitVec 2) (off : Int) (ppt : Int)
  | srclost (b : Tb)
  /-- R428: the old source's samples n - 1 and n, the new source's sample n, non-PCM and block-start flags -/
  | audMapChange (d : AudDst) (oldPrev oldCur new : BitVec 24) (oldNonPcm newNonPcm blockStart : Bool)
  | audZcto (d : AudDst)
  | audSlip (n : DeEmb)
  | audDeerr (n : DeEmb)
  | tdmLock (p : TdmPort) (ppm : BitVec 16)
  | audTdmunl (p : TdmPort)
  /-- R440, R441: the level of AMPFLTp as it has stood for 2 µs -/
  | audAmpflt (p : TdmPort) (high : Bool)
  | audMappar (d : AudDst)
  | audDeIdx (v : Word)
  | audMapIdx (v : Word)
  | audClrcnt
  | load (b : Tb)
  | snap (b : Tb)
  | snapAll
  | forceDom (b : Tb)
  | timAdjWrite (b : Tb) (v : Word)
  | timFreqWrite (b : Tb) (v : Word)
  | timTbCtrlWrite (b : Tb) (v : Word)
  | slewDone (b : Tb)
  /-- R453, R455: the domain measured (false DOMA), its offset in ns, the grandmaster's rate in ppt -/
  | servoUpdate (b : Tb) (domB : Bool) (off : Int) (ppt : Int)
  | timDomloss (b : Tb) (lossA lossB : Bool)
  | domainQualified (b : Tb) (domB : Bool)
  | revwaitExpiry (b : Tb)
  | pulseStart (k : Tpo)
  | pulseEnd (k : Tpo)
  /-- R460: an express frame with a launch time, how many bytes of the frame being sent have left, and whether it was ready in
  time -/
  | expressLaunch (p : Port) (data : List Byte) (sent : Nat) (ready : Bool)
  | timClrcnt
  | referenceEvaluation
  | referenceActivityLoss (code : BitVec 4)
  | referenceQualified (code : BitVec 4)
  | wtrExpiry
  | dpllLocked
  | dpllUnlock
  | realign (ralSrc : Bool) (tb : Tb)
  /-- R477; for the selected reference, the ns since its edge -/
  | frameTimingJump (raster rate : Byte) (ago : Word)
  /-- R479: the error of the edge against edge + OFFSET, in ns -/
  | alignPulseEdge (err : Int)
  | alignloss
  | clkPriWrite (k : Fin 8) (v : Word)
  | clkClrcnt
  | fallow
  | fallowReached
  | active
  | activeReached
  | shutdown (skipBst : Bool)
  | offready
  | warm
  | powerOn
  | porNLow
  | porNRise (straps : BitVec 3)
  | trstN
  | wakeTimerExpiry
  | temperatureUpdate (tj : BitVec 12)
  | pwrThermsd
  | coreRailFail
  | domainStop (d : StopDomain)
  | hdgEvent (n : HdgSrc)
  | hdgWindowClose (n : HdgSrc)
  | hdgReactionExpiry (n : HdgSrc)
  | hdgSelfpar
  | hdgAck (n : HdgSrc)
  | hdgClr (n : HdgSrc)
  | hdgFirstclr
  | force (n : HdgSrc)
  | hdgClrcnt
  | sliceStart
  /-- R549, R552: for the line store (unit 0x70), a failed row -/
  | sliceEnd (u : Byte) (pass : Bool)
  | patrolRead (k : Fin 2) (corrected uncorrectable : Nat)
  | fullTestEnd (u : Byte) (pass : Bool)
  | bstOosWrite (i : Fin 8) (v : Word)
  | bstUnitIdx (v : Word)
  | bstClrcnt
  | grantActive (covered force : Bool) (lease : BitVec 14)
  | grantReserve (covered force : Bool) (lease : BitVec 14)
  | grantRevoke
  | claim
  | release
  | yield (tb : Tb)
  | yieldInstant
  | resync
  | recover
  | fovClrcnt
  | ilkInFall
  | fovIlkconf
  | claimDelayExpiry
  | claimWindowEnd
  | fovLeaseexp
  | fovPlaneloss (n : Node)
  | mirrorRecord (m : MirrorRecord) (late : Bool)
  /-- R572: the digest the active chip computed, and the standby's -/
  | digestCompare (theirs ours : Word)
  | fovMirloss
  | fovSyncfail
  | loadimg (img : Image)
  | slotProgramDone (ok : Bool)
  /-- R590: what the named nodes answered -/
  | distrib (answer : Fin 4)
  | distribImageReceived (src : Node) (img : Image) (onward : BitVec 4) (retry : Bool)
  /-- R592: lowest VERSION running on a numbered peer or the mirror partner -/
  | handover (peerVersion : Word)
  | shadowEnd
  | svcUpdfail
  | confirm
  | revert
  | conftoExpiry
  | savecfg (b : Bank) (programOk : Bool)
  | lcadv (k : Token) (missed : Word) (missedState : Byte)
  | keyrev (k : Token)
  | svcCmdReserved (op : BitVec 4)
  | svcWdog (core : Fin 4)
  | serviceMoveDone (svc : Fin 4)
  | startUpComplete (r : StartReport)
  | ilkInRise
  /-- R563, R570: the partner's FOV state as its firmware answers -/
  | mirrorUp (partner : BitVec 4)
  | vaonLoss
  | controlStreamParity (k : Link)
  | hifAerunc
  deriving DecidableEq, Repr

end Sys2Proof
end

