-- ==== Sys2Proof/Decode.lean ====
section
/-! DEFINITION. The block has no instruction words: spec/opcode_table.json gives none of its rows any bits, so no word
spells a command (log entry 1). -/

namespace Sys2Proof

/-- The command that `nbits` bits `w` spell by the table's bits: no row gives bits. -/
def decodeTableWord (_nbits _w : Nat) : Option Instr := none

end Sys2Proof
end

