-- ==== Sys2Proof/Config.lean ====
section
/-! DEFINITION. What one implementation fixes and what the manual leaves open. A constant without a body is a free
value: nothing in Lean can evaluate it or prove a value of it. -/

namespace Sys2Proof

/-- Which of several choices the device takes where the manual gives no rule (R141, R240 and others): the n-th choice
among `m`, free, log entry 5. -/
opaque Config.freePick : Nat → Nat → Nat

/-- A free 32-bit value, the n-th one asked for (log entry 5). -/
opaque Config.freeWord : Nat → Word

/-- The ST 352 bytes that the device builds from bytes 4-7 of a descriptor for link `j` of its interface (R26, R316): the
layout is that of another standard (log entry 29). -/
opaque Config.payloadId : Nat → Nat → Word

/-- The body of a firmware message, which firmware defines, from the numbers that it carries (R407; log entry 34). -/
opaque Config.fwBody : List Nat → BitVec 2112

/-- PAYLOAD bits 768-1535 of a training block, from the fields that they carry: their places are not stated (R401; log entry 55). -/
opaque Config.trainingBits : List Nat → BitVec 768

end Sys2Proof
end

