-- ==== Sys2Proof/Machine/Regs.lean ====
section
/-! DEFINITION. The register map: the address, the fields, the access types and the reset value of every register of
the manual's register tables (R622-R626 and each chapter's tables), named as the manual names them. Addresses are BAR0
offsets; the page of tenant t (R63) stands at 0x1_0000_0000 + 0x1_0000 * t, beyond BAR0; the per-entry storage of the
de-embedder window (AUD_DE_CFG, R442) stands at 0x2_0000_0000. Reserved bits are in no field: they read 0 and ignore
writes (R8). -/

namespace Sys2Proof.Machine

open Sys2Proof

/-- The access types of R9. -/
inductive Access where
  | rw
  | ro
  | w1c
  | w1s
  | wo
  | rwL
  | wonce
  deriving DecidableEq, Repr

/-- A register of the map, or an indexed family of registers. -/
structure RegDesc where
  base : Nat
  /-- stride and count of the first and second index; count 1 where there is none -/
  stride1 : Nat
  count1 : Nat
  stride2 : Nat
  count2 : Nat
  fields : List (Field × Access)
  reset : Nat → Nat → Word

/-- The indexes of the register of the family at address `a`, where there is one. -/
def RegDesc.index (d : RegDesc) (a : Nat) : Option (Nat × Nat) :=
  if a < d.base then none
  else
    let o := a - d.base
    let i := o / d.stride1
    let q := o % d.stride1
    if i < d.count1 ∧ q % d.stride2 = 0 ∧ q / d.stride2 < d.count2 then some (i, q / d.stride2) else none


/-! ## PAGE -/

/-- spec/02_host_interface.md R65 -/
def TPG_STAT (t : Nat) : Nat := 0x100003000 + 0x10000 * t
def TPG_STAT_STATE : Field := ⟨0, 2⟩
def TPG_STAT_CLASS : Field := ⟨2, 2⟩
/-- spec/02_host_interface.md R65 -/
def TPG_FLR (t : Nat) : Nat := 0x100003004 + 0x10000 * t
def TPG_FLR_FLRCNT : Field := ⟨0, 16⟩
/-- spec/02_host_interface.md R70 -/
def TPG_DB (t r : Nat) : Nat := 0x100000000 + 0x10000 * t + 0x4 * r
def TPG_DB_INDEX : Field := ⟨0, 16⟩
/-- spec/02_host_interface.md R73 -/
def RING_BASE_LO (t r : Nat) : Nat := 0x100001000 + 0x10000 * t + 0x20 * r
def RING_BASE_LO_LOG2SIZE : Field := ⟨0, 5⟩
def RING_BASE_LO_BASE_LO : Field := ⟨12, 20⟩
/-- spec/02_host_interface.md R73 -/
def RING_BASE_HI (t r : Nat) : Nat := 0x100001004 + 0x10000 * t + 0x20 * r
def RING_BASE_HI_BASE_HI : Field := ⟨0, 32⟩
/-- spec/02_host_interface.md R74 -/
def RING_CTRL (t r : Nat) : Nat := 0x100001008 + 0x10000 * t + 0x20 * r
def RING_CTRL_EN : Field := ⟨0, 1⟩
def RING_CTRL_VEC : Field := ⟨8, 4⟩
def RING_CTRL_IEN : Field := ⟨12, 1⟩
/-- spec/02_host_interface.md R75 -/
def RING_MOD (t r : Nat) : Nat := 0x10000100C + 0x10000 * t + 0x20 * r
def RING_MOD_COUNT : Field := ⟨0, 16⟩
def RING_MOD_TIME : Field := ⟨16, 16⟩
/-- spec/02_host_interface.md R76 -/
def RING_HOST_IDX (t r : Nat) : Nat := 0x100001010 + 0x10000 * t + 0x20 * r
def RING_HOST_IDX_IDX : Field := ⟨0, 16⟩
/-- spec/02_host_interface.md R76 -/
def RING_DEV_IDX (t r : Nat) : Nat := 0x100001014 + 0x10000 * t + 0x20 * r
def RING_DEV_IDX_IDX : Field := ⟨0, 16⟩
/-- spec/02_host_interface.md R76 -/
def RING_STAT (t r : Nat) : Nat := 0x100001018 + 0x10000 * t + 0x20 * r
def RING_STAT_BADIDX : Field := ⟨0, 1⟩
def RING_STAT_CFGREJ : Field := ⟨1, 1⟩
def RING_STAT_FULL : Field := ⟨2, 1⟩
def RING_STAT_DROP : Field := ⟨3, 1⟩
def RING_STAT_DROPCNT : Field := ⟨16, 16⟩
/-- spec/22_register_index.md R626 -/
def MSIX_ADDR_LO (t v : Nat) : Nat := 0x100002000 + 0x10000 * t + 0x10 * v
def MSIX_ADDR_LO_ADDR : Field := ⟨0, 32⟩
/-- spec/22_register_index.md R626 -/
def MSIXP_ADDR_LO (v : Nat) : Nat := 0x100002100 + 0x10 * v
/-- spec/22_register_index.md R626 -/
def MSIX_ADDR_HI (t v : Nat) : Nat := 0x100002004 + 0x10000 * t + 0x10 * v
def MSIX_ADDR_HI_ADDR : Field := ⟨0, 32⟩
/-- spec/22_register_index.md R626 -/
def MSIXP_ADDR_HI (v : Nat) : Nat := 0x100002104 + 0x10 * v
/-- spec/22_register_index.md R626 -/
def MSIX_DATA (t v : Nat) : Nat := 0x100002008 + 0x10000 * t + 0x10 * v
def MSIX_DATA_DATA : Field := ⟨0, 32⟩
/-- spec/22_register_index.md R626 -/
def MSIXP_DATA (v : Nat) : Nat := 0x100002108 + 0x10 * v
/-- spec/22_register_index.md R626 -/
def MSIX_VCTRL (t v : Nat) : Nat := 0x10000200C + 0x10000 * t + 0x10 * v
def MSIX_VCTRL_MASK : Field := ⟨0, 1⟩
/-- spec/22_register_index.md R626 -/
def MSIXP_VCTRL (v : Nat) : Nat := 0x10000210C + 0x10 * v

/-! ## HIF -/

/-- spec/02_host_interface.md R102 -/
def HIF_DMA_CTRL (n : Nat) : Nat := 0x101000 + 0x40 * n
def HIF_DMA_CTRL_EN : Field := ⟨0, 1⟩
def HIF_DMA_CTRL_RESUME : Field := ⟨1, 1⟩
def HIF_DMA_CTRL_ABORT : Field := ⟨2, 1⟩
def HIF_DMA_CTRL_BURST : Field := ⟨4, 2⟩
def HIF_DMA_CTRL_REQSEL : Field := ⟨8, 7⟩
def HIF_DMA_CTRL_RETRY : Field := ⟨16, 4⟩
def HIF_DMA_CTRL_IENHALT : Field := ⟨20, 1⟩
/-- spec/02_host_interface.md R103 -/
def HIF_DMA_STAT (n : Nat) : Nat := 0x101004 + 0x40 * n
def HIF_DMA_STAT_STATE : Field := ⟨0, 2⟩
def HIF_DMA_STAT_CAUSE : Field := ⟨4, 3⟩
def HIF_DMA_STAT_TRIES : Field := ⟨8, 4⟩
def HIF_DMA_STAT_PENDREQ : Field := ⟨16, 8⟩
def HIF_DMA_STAT_REQOVF : Field := ⟨24, 1⟩
def HIF_DMA_STAT_DONE : Field := ⟨25, 1⟩
/-- spec/02_host_interface.md R104 -/
def HIF_DMA_RBASE_LO (n : Nat) : Nat := 0x101008 + 0x40 * n
def HIF_DMA_RBASE_LO_LOG2SIZE : Field := ⟨0, 5⟩
def HIF_DMA_RBASE_LO_BASE_LO : Field := ⟨12, 20⟩
/-- spec/02_host_interface.md R104 -/
def HIF_DMA_RBASE_HI (n : Nat) : Nat := 0x10100C + 0x40 * n
def HIF_DMA_RBASE_HI_BASE_HI : Field := ⟨0, 32⟩
/-- spec/02_host_interface.md R104 -/
def HIF_DMA_PIDX (n : Nat) : Nat := 0x101010 + 0x40 * n
def HIF_DMA_PIDX_IDX : Field := ⟨0, 16⟩
/-- spec/02_host_interface.md R104 -/
def HIF_DMA_CIDX (n : Nat) : Nat := 0x101014 + 0x40 * n
def HIF_DMA_CIDX_IDX : Field := ⟨0, 16⟩
/-- spec/02_host_interface.md R104 -/
def HIF_DMA_ERRADDR_LO (n : Nat) : Nat := 0x101018 + 0x40 * n
def HIF_DMA_ERRADDR_LO_ADDR : Field := ⟨0, 32⟩
/-- spec/02_host_interface.md R104 -/
def HIF_DMA_ERRADDR_HI (n : Nat) : Nat := 0x10101C + 0x40 * n
def HIF_DMA_ERRADDR_HI_ADDR : Field := ⟨0, 32⟩
/-- spec/02_host_interface.md R104 -/
def HIF_DMA_BYTES (n : Nat) : Nat := 0x101020 + 0x40 * n
def HIF_DMA_BYTES_COUNT : Field := ⟨0, 32⟩
/-- spec/02_host_interface.md R110 -/
def HIF_ID : Nat := 0x100000
def HIF_ID_ID : Field := ⟨0, 32⟩
/-- spec/02_host_interface.md R110 -/
def HIF_CMD_AGE : Nat := 0x100010
def HIF_CMD_AGE_AGE : Field := ⟨0, 16⟩
/-- spec/02_host_interface.md R110 -/
def HIF_INTN_EN : Nat := 0x100014
def HIF_INTN_EN_EN : Field := ⟨0, 6⟩

/-! ## TEN -/

/-- spec/03_tenants_commands.md R112 -/
def TEN_CFG (n : Nat) : Nat := 0x201000 + 0x4 * n
def TEN_CFG_STATE : Field := ⟨0, 2⟩
def TEN_CFG_CLASS : Field := ⟨2, 2⟩
/-- spec/03_tenants_commands.md R119 -/
def TEN_GRANT_OBJ : Nat := 0x200010
def TEN_GRANT_OBJ_FIRST : Field := ⟨0, 16⟩
def TEN_GRANT_OBJ_COUNT : Field := ⟨16, 16⟩
/-- spec/03_tenants_commands.md R119 -/
def TEN_GRANT_CMD : Nat := 0x200014
def TEN_GRANT_CMD_KIND : Field := ⟨0, 4⟩
def TEN_GRANT_CMD_OP : Field := ⟨4, 1⟩
def TEN_GRANT_CMD_TENANT : Field := ⟨16, 10⟩
def TEN_GRANT_CMD_GO : Field := ⟨31, 1⟩
/-- spec/03_tenants_commands.md R119 -/
def TEN_GRANT_STAT : Nat := 0x200018
def TEN_GRANT_STAT_BUSY : Field := ⟨0, 1⟩
def TEN_GRANT_STAT_OVR : Field := ⟨1, 1⟩
def TEN_GRANT_STAT_RESULT : Field := ⟨4, 4⟩
def TEN_GRANT_STAT_FAIL : Field := ⟨8, 16⟩
/-- spec/22_register_index.md R623 -/
def TEN_ID : Nat := 0x200000
def TEN_ID_ID : Field := ⟨0, 32⟩
/-- spec/03_tenants_commands.md R125 -/
def TEN_RSV (n c : Nat) : Nat := 0x204000 + 0x20 * n + 0x4 * c
def TEN_RSV_VALUE : Field := ⟨0, 16⟩
/-- spec/03_tenants_commands.md R125 -/
def TEN_USE (n c : Nat) : Nat := 0x224000 + 0x20 * n + 0x4 * c
def TEN_USE_VALUE : Field := ⟨0, 16⟩
/-- spec/03_tenants_commands.md R125 -/
def TEN_CAP (c : Nat) : Nat := 0x200040 + 0x4 * c
def TEN_CAP_VALUE : Field := ⟨0, 16⟩
/-- spec/03_tenants_commands.md R127 -/
def TEN_ERR : Nat := 0x20001C
def TEN_ERR_CFGREJ : Field := ⟨0, 1⟩
def TEN_ERR_RSVREJ : Field := ⟨1, 1⟩

/-! ## XPT -/

/-- spec/04_crosspoint.md R196 -/
def XPT_ID : Nat := 0x400000
def XPT_ID_ID : Field := ⟨0, 32⟩
/-- spec/04_crosspoint.md R196 -/
def XPT_CTRL : Nat := 0x400004
def XPT_CTRL_ROTEN : Field := ⟨0, 1⟩
def XPT_CTRL_FORCEROT : Field := ⟨1, 1⟩
def XPT_CTRL_CLRCNT : Field := ⟨2, 1⟩
def XPT_CTRL_AUTORETIRE : Field := ⟨3, 1⟩
def XPT_CTRL_ROTPER : Field := ⟨8, 8⟩
/-- spec/04_crosspoint.md R196 -/
def XPT_PLANE_STAT : Nat := 0x400008
def XPT_PLANE_STAT_TESTPL : Field := ⟨0, 5⟩
def XPT_PLANE_STAT_TESTDONE : Field := ⟨5, 1⟩
def XPT_PLANE_STAT_TESTPASS : Field := ⟨6, 1⟩
def XPT_PLANE_STAT_HEALTHY : Field := ⟨8, 5⟩
def XPT_PLANE_STAT_ROTSTOP : Field := ⟨13, 1⟩
def XPT_PLANE_STAT_PROT : Field := ⟨14, 2⟩
/-- spec/04_crosspoint.md R196 -/
def XPT_RETIRED : Nat := 0x40000C
def XPT_RETIRED_PLANES : Field := ⟨0, 17⟩
/-- spec/04_crosspoint.md R196 -/
def XPT_RETIRE_CMD : Nat := 0x400010
def XPT_RETIRE_CMD_PLANE : Field := ⟨0, 5⟩
def XPT_RETIRE_CMD_GO : Field := ⟨31, 1⟩
/-- spec/04_crosspoint.md R196 -/
def XPT_ERR : Nat := 0x400014
def XPT_ERR_RETREJ : Field := ⟨0, 1⟩
/-- spec/04_crosspoint.md R196 -/
def XPT_PMAP (s : Nat) : Nat := 0x400040 + 0x4 * s
def XPT_PMAP_PLANE : Field := ⟨0, 5⟩
/-- spec/04_crosspoint.md R197 -/
def XPT_RT_IDX : Nat := 0x400080
def XPT_RT_IDX_DST : Field := ⟨0, 12⟩
/-- spec/04_crosspoint.md R197 -/
def XPT_RT_DATA : Nat := 0x400084
def XPT_RT_DATA_SRC : Field := ⟨0, 12⟩
def XPT_RT_DATA_WIDTH : Field := ⟨12, 2⟩
def XPT_RT_DATA_ROUTED : Field := ⟨14, 1⟩
def XPT_RT_DATA_FALLOW : Field := ⟨15, 1⟩
def XPT_RT_DATA_PSRC : Field := ⟨16, 12⟩
def XPT_RT_DATA_PEND : Field := ⟨28, 1⟩
def XPT_RT_DATA_PUNROUTE : Field := ⟨29, 1⟩
def XPT_RT_DATA_HELD : Field := ⟨30, 1⟩
/-- spec/04_crosspoint.md R197 -/
def XPT_RT_EPOCH : Nat := 0x400088
def XPT_RT_EPOCH_EPOCH : Field := ⟨0, 16⟩
/-- spec/04_crosspoint.md R197 -/
def XPT_SU_IDX : Nat := 0x400090
def XPT_SU_IDX_SRC : Field := ⟨0, 12⟩
/-- spec/04_crosspoint.md R197 -/
def XPT_SU_DATA : Nat := 0x400094
def XPT_SU_DATA_FANOUT : Field := ⟨0, 13⟩
/-- spec/04_crosspoint.md R198 -/
def XPT_EPDISC : Nat := 0x4000A0
def XPT_EPDISC_COUNT : Field := ⟨0, 32⟩
/-- spec/04_crosspoint.md R198 -/
def XPT_UNCORR : Nat := 0x4000A4
def XPT_UNCORR_COUNT : Field := ⟨0, 32⟩
/-- spec/04_crosspoint.md R198 -/
def XPT_ROTCNT : Nat := 0x4000A8
def XPT_ROTCNT_COUNT : Field := ⟨0, 32⟩
/-- spec/04_crosspoint.md R198 -/
def XPT_RTFIX : Nat := 0x4000AC
def XPT_RTFIX_COUNT : Field := ⟨0, 32⟩
/-- spec/04_crosspoint.md R198 -/
def XPT_PLCNT (n : Nat) : Nat := 0x400100 + 0x4 * n
def XPT_PLCNT_COUNT : Field := ⟨0, 32⟩

/-! ## FSA -/

/-- spec/06_alignment_framestore.md R260 -/
def FSA_ID : Nat := 0x600000
def FSA_ID_ID : Field := ⟨0, 32⟩
/-- spec/06_alignment_framestore.md R260 -/
def FSA_CTRL : Nat := 0x600004
def FSA_CTRL_CONCEAL : Field := ⟨0, 1⟩
def FSA_CTRL_CONCMAX : Field := ⟨1, 4⟩
def FSA_CTRL_AUTOPROMO : Field := ⟨5, 1⟩
def FSA_CTRL_CLRCNT : Field := ⟨6, 1⟩
def FSA_CTRL_HOLDFR : Field := ⟨8, 8⟩
/-- spec/06_alignment_framestore.md R260 -/
def FSA_PHASE : Nat := 0x600008
def FSA_PHASE_AOFS_HD : Field := ⟨0, 6⟩
def FSA_PHASE_AOFS_UHD : Field := ⟨8, 4⟩
def FSA_PHASE_OUTLEAD : Field := ⟨12, 2⟩
def FSA_PHASE_HOP : Field := ⟨16, 9⟩
/-- spec/06_alignment_framestore.md R260 -/
def FSA_MEMCFG : Nat := 0x60000C
def FSA_MEMCFG_AGE : Field := ⟨0, 16⟩
/-- spec/06_alignment_framestore.md R260 -/
def FSA_MEMSTAT : Nat := 0x600010
def FSA_MEMSTAT_STK0 : Field := ⟨0, 1⟩
def FSA_MEMSTAT_STK1 : Field := ⟨1, 1⟩
def FSA_MEMSTAT_DEGRADED : Field := ⟨2, 1⟩
/-- spec/06_alignment_framestore.md R260 -/
def FSA_POOL : Nat := 0x600014
def FSA_POOL_USED : Field := ⟨0, 10⟩
def FSA_POOL_TOTAL : Field := ⟨16, 10⟩
/-- spec/06_alignment_framestore.md R261 -/
def FSA_AL_IDX : Nat := 0x600080
def FSA_AL_IDX_SRC : Field := ⟨0, 12⟩
/-- spec/06_alignment_framestore.md R261 -/
def FSA_AL_STAT : Nat := 0x600084
def FSA_AL_STAT_MODE : Field := ⟨0, 3⟩
def FSA_AL_STAT_HOPS : Field := ⟨3, 2⟩
def FSA_AL_STAT_PASS : Field := ⟨5, 1⟩
def FSA_AL_STAT_DELAY : Field := ⟨8, 19⟩
/-- spec/06_alignment_framestore.md R261 -/
def FSA_AL_SYNC : Nat := 0x600088
def FSA_AL_SYNC_SYNC : Field := ⟨0, 10⟩
def FSA_AL_SYNC_HOLDER : Field := ⟨16, 10⟩
def FSA_AL_SYNC_UNITS : Field := ⟨26, 4⟩
/-- spec/06_alignment_framestore.md R261 -/
def FSA_DL_IDX : Nat := 0x600090
def FSA_DL_IDX_DST : Field := ⟨0, 12⟩
/-- spec/06_alignment_framestore.md R261 -/
def FSA_DL_DATA : Nat := 0x600094
def FSA_DL_DATA_LEAD : Field := ⟨0, 2⟩
def FSA_DL_DATA_OVR : Field := ⟨2, 1⟩
/-- spec/06_alignment_framestore.md R262 -/
def FSA_EPDISC : Nat := 0x6000A0
def FSA_EPDISC_COUNT : Field := ⟨0, 32⟩
/-- spec/06_alignment_framestore.md R262 -/
def FSA_REPEAT : Nat := 0x6000A4
def FSA_REPEAT_COUNT : Field := ⟨0, 32⟩
/-- spec/06_alignment_framestore.md R262 -/
def FSA_DROP : Nat := 0x6000A8
def FSA_DROP_COUNT : Field := ⟨0, 32⟩
/-- spec/06_alignment_framestore.md R262 -/
def FSA_CONCEAL : Nat := 0x6000AC
def FSA_CONCEAL_COUNT : Field := ⟨0, 32⟩
/-- spec/06_alignment_framestore.md R262 -/
def FSA_LEADMISS : Nat := 0x6000B0
def FSA_LEADMISS_COUNT : Field := ⟨0, 32⟩
/-- spec/06_alignment_framestore.md R262 -/
def FSA_AGED : Nat := 0x6000B4
def FSA_AGED_COUNT : Field := ⟨0, 32⟩
/-- spec/06_alignment_framestore.md R262 -/
def FSA_ECCFIX : Nat := 0x6000B8
def FSA_ECCFIX_COUNT : Field := ⟨0, 32⟩
/-- spec/06_alignment_framestore.md R262 -/
def FSA_ECCUNC : Nat := 0x6000BC
def FSA_ECCUNC_COUNT : Field := ⟨0, 32⟩
/-- spec/06_alignment_framestore.md R262 -/
def FSA_PROMO : Nat := 0x6000C0
def FSA_PROMO_COUNT : Field := ⟨0, 32⟩
/-- spec/06_alignment_framestore.md R262 -/
def FSA_SEDGEERR : Nat := 0x6000C4
def FSA_SEDGEERR_COUNT : Field := ⟨0, 32⟩

/-! ## CMP -/

/-- spec/07_compositor.md R293 -/
def CMP_ID : Nat := 0x800000
def CMP_ID_ID : Field := ⟨0, 32⟩
/-- spec/07_compositor.md R293 -/
def CMP_CTRL : Nat := 0x800004
def CMP_CTRL_CLRCNT : Field := ⟨0, 1⟩
/-- spec/07_compositor.md R293 -/
def CMP_TM : Nat := 0x800008
def CMP_TM_TMPEAK : Field := ⟨0, 14⟩
def CMP_TM_KNEE : Field := ⟨16, 8⟩
/-- spec/07_compositor.md R293 -/
def CMP_TMREF : Nat := 0x80000C
def CMP_TMREF_REFWHITE : Field := ⟨0, 9⟩
def CMP_TMREF_HLGPEAK : Field := ⟨16, 14⟩
/-- spec/07_compositor.md R293 -/
def CMP_LKEY : Nat := 0x800010
def CMP_LKEY_CLIP : Field := ⟨0, 10⟩
def CMP_LKEY_GAIN : Field := ⟨16, 8⟩
/-- spec/07_compositor.md R293 -/
def CMP_EN_IDX : Nat := 0x800020
def CMP_EN_IDX_ENGINE : Field := ⟨0, 4⟩
/-- spec/07_compositor.md R293 -/
def CMP_EN_STAT : Nat := 0x800024
def CMP_EN_STAT_LOAD : Field := ⟨0, 15⟩
def CMP_EN_STAT_CANVASES : Field := ⟨16, 7⟩
/-- spec/07_compositor.md R293 -/
def CMP_CV_IDX : Nat := 0x800030
def CMP_CV_IDX_CANVAS : Field := ⟨0, 6⟩
/-- spec/07_compositor.md R293 -/
def CMP_CV_STAT : Nat := 0x800034
def CMP_CV_STAT_DEFINED : Field := ⟨0, 1⟩
def CMP_CV_STAT_ENGINE : Field := ⟨1, 4⟩
def CMP_CV_STAT_MIGRATING : Field := ⟨5, 1⟩
def CMP_CV_STAT_SUBST : Field := ⟨6, 1⟩
def CMP_CV_STAT_LAYERS : Field := ⟨7, 6⟩
def CMP_CV_STAT_EPOCH : Field := ⟨16, 16⟩
/-- spec/07_compositor.md R293 -/
def CMP_CV_LOAD : Nat := 0x800038
def CMP_CV_LOAD_PIX : Field := ⟨0, 14⟩
def CMP_CV_LOAD_MEMBW : Field := ⟨16, 12⟩
/-- spec/07_compositor.md R293 -/
def CMP_CV_SURF : Nat := 0x80003C
def CMP_CV_SURF_SURF : Field := ⟨0, 16⟩
/-- spec/07_compositor.md R294 -/
def CMP_SR_IDX : Nat := 0x800040
def CMP_SR_IDX_REGION : Field := ⟨0, 8⟩
/-- spec/07_compositor.md R294 -/
def CMP_SR_CFG : Nat := 0x800044
def CMP_SR_CFG_EN : Field := ⟨0, 1⟩
def CMP_SR_CFG_MODE : Field := ⟨1, 1⟩
def CMP_SR_CFG_LOCK : Field := ⟨2, 1⟩
def CMP_SR_CFG_CANVAS : Field := ⟨8, 6⟩
def CMP_SR_CFG_MISS : Field := ⟨16, 8⟩
def CMP_SR_CFG_RESTORE : Field := ⟨24, 8⟩
/-- spec/07_compositor.md R294 -/
def CMP_SR_POS : Nat := 0x800048
def CMP_SR_POS_X : Field := ⟨0, 16⟩
def CMP_SR_POS_Y : Field := ⟨16, 16⟩
/-- spec/07_compositor.md R294 -/
def CMP_SR_SIZE : Nat := 0x80004C
def CMP_SR_SIZE_W : Field := ⟨0, 16⟩
def CMP_SR_SIZE_H : Field := ⟨16, 16⟩
/-- spec/07_compositor.md R294 -/
def CMP_SR_STILL : Nat := 0x800050
def CMP_SR_STILL_STILL : Field := ⟨0, 12⟩
def CMP_SR_STILL_EXPN : Field := ⟨12, 3⟩
/-- spec/07_compositor.md R294 -/
def CMP_SR_EXP (k : Nat) : Nat := 0x800054 + 0x4 * k
def CMP_SR_EXP_CRC : Field := ⟨0, 32⟩
/-- spec/07_compositor.md R294 -/
def CMP_SR_CMD : Nat := 0x800064
def CMP_SR_CMD_LEARN : Field := ⟨0, 1⟩
def CMP_SR_CMD_LSLOT : Field := ⟨1, 2⟩
def CMP_SR_CMD_CLEAR : Field := ⟨3, 1⟩
/-- spec/07_compositor.md R294 -/
def CMP_SR_STAT : Nat := 0x800068
def CMP_SR_STAT_STATE : Field := ⟨0, 2⟩
def CMP_SR_STAT_RUN : Field := ⟨2, 8⟩
/-- spec/07_compositor.md R294 -/
def CMP_SR_CRC : Nat := 0x80006C
def CMP_SR_CRC_LAST : Field := ⟨0, 32⟩
/-- spec/07_compositor.md R295 -/
def CMP_EPDISC : Nat := 0x8000A0
def CMP_EPDISC_COUNT : Field := ⟨0, 32⟩
/-- spec/07_compositor.md R295 -/
def CMP_OVERRUN : Nat := 0x8000A4
def CMP_OVERRUN_COUNT : Field := ⟨0, 32⟩
/-- spec/07_compositor.md R295 -/
def CMP_SIGMISS : Nat := 0x8000A8
def CMP_SIGMISS_COUNT : Field := ⟨0, 32⟩
/-- spec/07_compositor.md R295 -/
def CMP_SUBST : Nat := 0x8000AC
def CMP_SUBST_COUNT : Field := ⟨0, 32⟩
/-- spec/07_compositor.md R295 -/
def CMP_SLICELATE : Nat := 0x8000B0
def CMP_SLICELATE_COUNT : Field := ⟨0, 32⟩

/-! ## MLN -/

/-- spec/08_media_lanes.md R325 -/
def ML_CTRL (n : Nat) : Nat := 0xA00000 + 0x400 * n
def ML_CTRL_MODE : Field := ⟨0, 3⟩
def ML_CTRL_RXEN : Field := ⟨3, 1⟩
def ML_CTRL_TXEN : Field := ⟨4, 1⟩
def ML_CTRL_BOND : Field := ⟨5, 2⟩
def ML_CTRL_LEVELB : Field := ⟨7, 1⟩
def ML_CTRL_RXRATE : Field := ⟨8, 4⟩
/-- spec/08_media_lanes.md R325 -/
def ML_TXFMT (n : Nat) : Nat := 0xA00004 + 0x400 * n
def ML_TXFMT_RASTER : Field := ⟨0, 8⟩
def ML_TXFMT_RATE : Field := ⟨8, 8⟩
def ML_TXFMT_B6 : Field := ⟨16, 8⟩
def ML_TXFMT_B7 : Field := ⟨24, 8⟩
/-- spec/08_media_lanes.md R325 -/
def ML_TXCFG (n : Nat) : Nat := 0xA00008 + 0x400 * n
def ML_TXCFG_SWING : Field := ⟨0, 3⟩
def ML_TXCFG_DEEMPH : Field := ⟨4, 4⟩
def ML_TXCFG_TXPOL : Field := ⟨8, 1⟩
/-- spec/08_media_lanes.md R325 -/
def ML_RXCFG (n : Nat) : Nat := 0xA0000C + 0x400 * n
def ML_RXCFG_PEAK : Field := ⟨0, 6⟩
def ML_RXCFG_ADAPT : Field := ⟨6, 2⟩
def ML_RXCFG_LOSTHR : Field := ⟨8, 2⟩
def ML_RXCFG_RXPOL : Field := ⟨10, 1⟩
/-- spec/08_media_lanes.md R325 -/
def ML_RXDEF (n : Nat) : Nat := 0xA00010 + 0x400 * n
def ML_RXDEF_SAMPLING : Field := ⟨0, 2⟩
def ML_RXDEF_TRANSFER : Field := ⟨2, 2⟩
def ML_RXDEF_COLOUR : Field := ⟨4, 1⟩
/-- spec/08_media_lanes.md R326 -/
def ML_STAT (n : Nat) : Nat := 0xA00020 + 0x400 * n
def ML_STAT_LOS : Field := ⟨0, 1⟩
def ML_STAT_LOCK : Field := ⟨1, 1⟩
def ML_STAT_FRAMED : Field := ⟨2, 1⟩
def ML_STAT_PIDOK : Field := ⟨3, 1⟩
def ML_STAT_PARTNER : Field := ⟨4, 1⟩
def ML_STAT_TXIDLE : Field := ⟨5, 1⟩
def ML_STAT_LEVELBIN : Field := ⟨6, 1⟩
def ML_STAT_HOLD : Field := ⟨7, 1⟩
def ML_STAT_RATE : Field := ⟨8, 4⟩
def ML_STAT_EQVAL : Field := ⟨12, 6⟩
/-- spec/08_media_lanes.md R326 -/
def ML_HIST (n : Nat) : Nat := 0xA00024 + 0x400 * n
def ML_HIST_LOS : Field := ⟨0, 1⟩
def ML_HIST_LOL : Field := ⟨1, 1⟩
def ML_HIST_LOLSHORT : Field := ⟨2, 1⟩
def ML_HIST_CRC : Field := ⟨3, 1⟩
def ML_HIST_EDH : Field := ⟨4, 1⟩
def ML_HIST_PIDMIS : Field := ⟨5, 1⟩
def ML_HIST_PIDUNS : Field := ⟨6, 1⟩
def ML_HIST_SKEW : Field := ⟨7, 1⟩
def ML_HIST_EQLIMIT : Field := ⟨8, 1⟩
def ML_HIST_TXFIFO : Field := ⟨9, 1⟩
def ML_HIST_CFGREJ : Field := ⟨10, 1⟩
def ML_HIST_FMTCHG : Field := ⟨11, 1⟩
/-- spec/08_media_lanes.md R326 -/
def ML_HDGEN (n : Nat) : Nat := 0xA00028 + 0x400 * n
def ML_HDGEN_EN : Field := ⟨0, 12⟩
/-- spec/08_media_lanes.md R326 -/
def ML_DET (n : Nat) : Nat := 0xA00030 + 0x400 * n
def ML_DET_DESC : Field := ⟨0, 32⟩
/-- spec/08_media_lanes.md R326 -/
def ML_DETPID (n : Nat) : Nat := 0xA00034 + 0x400 * n
def ML_DETPID_PID : Field := ⟨0, 32⟩
/-- spec/08_media_lanes.md R326 -/
def ML_SKEW (n : Nat) : Nat := 0xA00038 + 0x400 * n
def ML_SKEW_NS : Field := ⟨0, 9⟩
/-- spec/08_media_lanes.md R326 -/
def ML_CRCLN (n : Nat) : Nat := 0xA00040 + 0x400 * n
def ML_CRCLN_COUNT : Field := ⟨0, 32⟩
/-- spec/08_media_lanes.md R326 -/
def ML_EDHFLD (n : Nat) : Nat := 0xA00044 + 0x400 * n
def ML_EDHFLD_COUNT : Field := ⟨0, 32⟩
/-- spec/08_media_lanes.md R326 -/
def ML_FILLLN (n : Nat) : Nat := 0xA00048 + 0x400 * n
def ML_FILLLN_COUNT : Field := ⟨0, 32⟩
/-- spec/08_media_lanes.md R326 -/
def ML_ERRFRM (n : Nat) : Nat := 0xA0004C + 0x400 * n
def ML_ERRFRM_COUNT : Field := ⟨0, 32⟩
/-- spec/08_media_lanes.md R326 -/
def ML_LOLCNT (n : Nat) : Nat := 0xA00050 + 0x400 * n
def ML_LOLCNT_COUNT : Field := ⟨0, 32⟩
/-- spec/08_media_lanes.md R326 -/
def ML_LOSCNT (n : Nat) : Nat := 0xA00054 + 0x400 * n
def ML_LOSCNT_COUNT : Field := ⟨0, 32⟩
/-- spec/08_media_lanes.md R326 -/
def ML_PIDERR (n : Nat) : Nat := 0xA00058 + 0x400 * n
def ML_PIDERR_COUNT : Field := ⟨0, 32⟩
/-- spec/08_media_lanes.md R327 -/
def MLN_ID : Nat := 0xA40000
def MLN_ID_ID : Field := ⟨0, 32⟩
/-- spec/08_media_lanes.md R327 -/
def MLN_CTRL : Nat := 0xA40004
def MLN_CTRL_CLRCNT : Field := ⟨0, 1⟩
def MLN_CTRL_LOLHOLD : Field := ⟨8, 8⟩
/-- spec/08_media_lanes.md R327 -/
def MLN_GRPSTAT : Nat := 0xA40008
def MLN_GRPSTAT_LOCKED : Field := ⟨0, 16⟩
/-- spec/08_media_lanes.md R327 -/
def MLN_HISTSUM (i : Nat) : Nat := 0xA40010 + 0x4 * i
def MLN_HISTSUM_LANES : Field := ⟨0, 32⟩

/-! ## MAC -/

/-- spec/09_ethernet_macs.md R346 -/
def MP_CFG (p : Nat) : Nat := 0xC01000 + 0x100 * p
def MP_CFG_EN : Field := ⟨0, 1⟩
def MP_CFG_WIDE : Field := ⟨1, 1⟩
def MP_CFG_QUAD : Field := ⟨2, 1⟩
def MP_CFG_LANE : Field := ⟨3, 3⟩
def MP_CFG_FEC : Field := ⟨6, 2⟩
def MP_CFG_AN : Field := ⟨8, 1⟩
def MP_CFG_PREEN : Field := ⟨9, 1⟩
def MP_CFG_VERIFY : Field := ⟨10, 1⟩
def MP_CFG_ADDFRAG : Field := ⟨11, 2⟩
def MP_CFG_HOLDEN : Field := ⟨13, 1⟩
def MP_CFG_CUTTHRU : Field := ⟨14, 1⟩
def MP_CFG_WAKEEN : Field := ⟨15, 1⟩
def MP_CFG_TBSEL : Field := ⟨16, 2⟩
/-- spec/09_ethernet_macs.md R346 -/
def MP_MAXLEN (p : Nat) : Nat := 0xC01004 + 0x100 * p
def MP_MAXLEN_MAXLEN : Field := ⟨0, 14⟩
/-- spec/09_ethernet_macs.md R346 -/
def MP_STARTTH (p : Nat) : Nat := 0xC01008 + 0x100 * p
def MP_STARTTH_STARTTH : Field := ⟨0, 14⟩
def MP_STARTTH_STEP : Field := ⟨16, 8⟩
/-- spec/09_ethernet_macs.md R346 -/
def MP_ADDR_LO (p : Nat) : Nat := 0xC0100C + 0x100 * p
def MP_ADDR_LO_ADDR : Field := ⟨0, 32⟩
/-- spec/09_ethernet_macs.md R346 -/
def MP_ADDR_HI (p : Nat) : Nat := 0xC01010 + 0x100 * p
def MP_ADDR_HI_ADDR : Field := ⟨0, 16⟩
/-- spec/09_ethernet_macs.md R346 -/
def MP_HOLDADV (p : Nat) : Nat := 0xC01014 + 0x100 * p
def MP_HOLDADV_NS : Field := ⟨0, 16⟩
/-- spec/09_ethernet_macs.md R346 -/
def MP_WAKE (p : Nat) : Nat := 0xC01018 + 0x100 * p
def MP_WAKE_WAKEETYPE : Field := ⟨0, 16⟩
/-- spec/09_ethernet_macs.md R346 -/
def MP_WAKEID (p : Nat) : Nat := 0xC0101C + 0x100 * p
def MP_WAKEID_ID : Field := ⟨0, 32⟩
/-- spec/09_ethernet_macs.md R346 -/
def MP_STAT (p : Nat) : Nat := 0xC01020 + 0x100 * p
def MP_STAT_LINK : Field := ⟨0, 1⟩
def MP_STAT_ALIGN : Field := ⟨1, 1⟩
def MP_STAT_SPEED : Field := ⟨2, 2⟩
def MP_STAT_VERST : Field := ⟨4, 2⟩
def MP_STAT_HOLD : Field := ⟨6, 1⟩
def MP_STAT_FECRES : Field := ⟨7, 2⟩
/-- spec/09_ethernet_macs.md R346 -/
def MP_HIST (p : Nat) : Nat := 0xC01024 + 0x100 * p
def MP_HIST_LINKDN : Field := ⟨0, 1⟩
def MP_HIST_FCS : Field := ⟨1, 1⟩
def MP_HIST_RUNT : Field := ⟨2, 1⟩
def MP_HIST_OVERSIZE : Field := ⟨3, 1⟩
def MP_HIST_REASM : Field := ⟨4, 1⟩
def MP_HIST_UNDERRUN : Field := ⟨5, 1⟩
def MP_HIST_VERFAIL : Field := ⟨6, 1⟩
def MP_HIST_FECUNC : Field := ⟨7, 1⟩
def MP_HIST_CFGREJ : Field := ⟨8, 1⟩
def MP_HIST_RXOVF : Field := ⟨9, 1⟩
def MP_HIST_WAKE : Field := ⟨10, 1⟩
/-- spec/09_ethernet_macs.md R347 -/
def MAC_ID : Nat := 0xC00000
def MAC_ID_ID : Field := ⟨0, 32⟩
/-- spec/09_ethernet_macs.md R347 -/
def MAC_CTRL : Nat := 0xC00004
def MAC_CTRL_CLRCNT : Field := ⟨0, 1⟩
/-- spec/09_ethernet_macs.md R347 -/
def MAC_WAKESTAT : Nat := 0xC00008
def MAC_WAKESTAT_PORT : Field := ⟨0, 6⟩
def MAC_WAKESTAT_VALID : Field := ⟨6, 1⟩
/-- spec/09_ethernet_macs.md R347 -/
def MAC_SNAP : Nat := 0xC00010
def MAC_SNAP_PORT : Field := ⟨0, 6⟩
/-- spec/09_ethernet_macs.md R347 -/
def MAC_RXFRM : Nat := 0xC00100
def MAC_RXFRM_COUNT : Field := ⟨0, 32⟩
/-- spec/09_ethernet_macs.md R347 -/
def MAC_RXOCT_LO : Nat := 0xC00104
def MAC_RXOCT_LO_COUNT : Field := ⟨0, 32⟩
/-- spec/09_ethernet_macs.md R347 -/
def MAC_RXOCT_HI : Nat := 0xC00108
def MAC_RXOCT_HI_COUNT : Field := ⟨0, 32⟩
/-- spec/09_ethernet_macs.md R347 -/
def MAC_RXFCS : Nat := 0xC0010C
def MAC_RXFCS_COUNT : Field := ⟨0, 32⟩
/-- spec/09_ethernet_macs.md R347 -/
def MAC_RXRUNT : Nat := 0xC00110
def MAC_RXRUNT_COUNT : Field := ⟨0, 32⟩
/-- spec/09_ethernet_macs.md R347 -/
def MAC_RXOVR : Nat := 0xC00114
def MAC_RXOVR_COUNT : Field := ⟨0, 32⟩
/-- spec/09_ethernet_macs.md R347 -/
def MAC_RXREASM : Nat := 0xC00118
def MAC_RXREASM_COUNT : Field := ⟨0, 32⟩
/-- spec/09_ethernet_macs.md R347 -/
def MAC_RXDROP : Nat := 0xC0011C
def MAC_RXDROP_COUNT : Field := ⟨0, 32⟩
/-- spec/09_ethernet_macs.md R347 -/
def MAC_RXEXP : Nat := 0xC00120
def MAC_RXEXP_COUNT : Field := ⟨0, 32⟩
/-- spec/09_ethernet_macs.md R347 -/
def MAC_TXFRM : Nat := 0xC00124
def MAC_TXFRM_COUNT : Field := ⟨0, 32⟩
/-- spec/09_ethernet_macs.md R347 -/
def MAC_TXOCT_LO : Nat := 0xC00128
def MAC_TXOCT_LO_COUNT : Field := ⟨0, 32⟩
/-- spec/09_ethernet_macs.md R347 -/
def MAC_TXOCT_HI : Nat := 0xC0012C
def MAC_TXOCT_HI_COUNT : Field := ⟨0, 32⟩
/-- spec/09_ethernet_macs.md R347 -/
def MAC_TXEXP : Nat := 0xC00130
def MAC_TXEXP_COUNT : Field := ⟨0, 32⟩
/-- spec/09_ethernet_macs.md R347 -/
def MAC_TXPRE : Nat := 0xC00134
def MAC_TXPRE_COUNT : Field := ⟨0, 32⟩
/-- spec/09_ethernet_macs.md R347 -/
def MAC_TXUNDER : Nat := 0xC00138
def MAC_TXUNDER_COUNT : Field := ⟨0, 32⟩
/-- spec/09_ethernet_macs.md R347 -/
def MAC_TXDISC : Nat := 0xC0013C
def MAC_TXDISC_COUNT : Field := ⟨0, 32⟩
/-- spec/09_ethernet_macs.md R347 -/
def MAC_FECCOR : Nat := 0xC00140
def MAC_FECCOR_COUNT : Field := ⟨0, 32⟩
/-- spec/09_ethernet_macs.md R347 -/
def MAC_FECUNC : Nat := 0xC00144
def MAC_FECUNC_COUNT : Field := ⟨0, 32⟩

/-! ## ESS -/

/-- spec/10_essence_flows.md R375 -/
def ESS_ID : Nat := 0xD00000
def ESS_ID_ID : Field := ⟨0, 32⟩
/-- spec/10_essence_flows.md R375 -/
def ESS_CTRL : Nat := 0xD00004
def ESS_CTRL_CLRCNT : Field := ⟨0, 1⟩
/-- spec/10_essence_flows.md R375 -/
def ESS_RXBUF : Nat := 0xD00010
def ESS_RXBUF_USED : Field := ⟨0, 16⟩
def ESS_RXBUF_TOTAL : Field := ⟨16, 16⟩
/-- spec/10_essence_flows.md R375 -/
def ESS_RXBW : Nat := 0xD00014
def ESS_RXBW_USED : Field := ⟨0, 16⟩
def ESS_RXBW_TOTAL : Field := ⟨16, 16⟩
/-- spec/10_essence_flows.md R376 -/
def ESS_FR_IDX : Nat := 0xD00080
def ESS_FR_IDX_FLOW : Field := ⟨0, 11⟩
/-- spec/10_essence_flows.md R376 -/
def ESS_FR_STAT : Nat := 0xD00084
def ESS_FR_STAT_EN : Field := ⟨0, 1⟩
def ESS_FR_STAT_DUAL : Field := ⟨1, 1⟩
def ESS_FR_STAT_LEGA : Field := ⟨2, 1⟩
def ESS_FR_STAT_LEGB : Field := ⟨3, 1⟩
def ESS_FR_STAT_LOST : Field := ⟨4, 1⟩
def ESS_FR_STAT_JOINED : Field := ⟨5, 1⟩
def ESS_FR_STAT_EPOCH : Field := ⟨16, 16⟩
/-- spec/10_essence_flows.md R376 -/
def ESS_FR_PKT : Nat := 0xD00088
def ESS_FR_PKT_COUNT : Field := ⟨0, 32⟩
/-- spec/10_essence_flows.md R376 -/
def ESS_FR_MIS : Nat := 0xD0008C
def ESS_FR_MIS_COUNT : Field := ⟨0, 32⟩
/-- spec/10_essence_flows.md R376 -/
def ESS_FT_IDX : Nat := 0xD00090
def ESS_FT_IDX_FLOW : Field := ⟨0, 12⟩
/-- spec/10_essence_flows.md R376 -/
def ESS_FT_STAT : Nat := 0xD00094
def ESS_FT_STAT_EN : Field := ⟨0, 1⟩
def ESS_FT_STAT_DUAL : Field := ⟨1, 1⟩
def ESS_FT_STAT_SLICE : Field := ⟨2, 1⟩
def ESS_FT_STAT_PORTA : Field := ⟨8, 6⟩
def ESS_FT_STAT_PORTB : Field := ⟨16, 6⟩
/-- spec/10_essence_flows.md R376 -/
def ESS_FT_SEQ : Nat := 0xD00098
def ESS_FT_SEQ_SEQ : Field := ⟨0, 32⟩
/-- spec/10_essence_flows.md R376 -/
def ESS_FT_PKT : Nat := 0xD0009C
def ESS_FT_PKT_COUNT : Field := ⟨0, 32⟩
/-- spec/10_essence_flows.md R377 -/
def ESS_EPDISC : Nat := 0xD000A0
def ESS_EPDISC_COUNT : Field := ⟨0, 32⟩
/-- spec/10_essence_flows.md R377 -/
def ESS_NOMATCH : Nat := 0xD000A4
def ESS_NOMATCH_COUNT : Field := ⟨0, 32⟩
/-- spec/10_essence_flows.md R377 -/
def ESS_MISMATCH : Nat := 0xD000A8
def ESS_MISMATCH_COUNT : Field := ⟨0, 32⟩
/-- spec/10_essence_flows.md R377 -/
def ESS_PREFLATE : Nat := 0xD000AC
def ESS_PREFLATE_COUNT : Field := ⟨0, 32⟩
/-- spec/10_essence_flows.md R377 -/
def ESS_LEGLATE : Nat := 0xD000B0
def ESS_LEGLATE_COUNT : Field := ⟨0, 32⟩
/-- spec/10_essence_flows.md R377 -/
def ESS_LATE : Nat := 0xD000B4
def ESS_LATE_COUNT : Field := ⟨0, 32⟩
/-- spec/10_essence_flows.md R377 -/
def ESS_BADPKT : Nat := 0xD000B8
def ESS_BADPKT_COUNT : Field := ⟨0, 32⟩
/-- spec/10_essence_flows.md R377 -/
def ESS_TXLATE : Nat := 0xD000BC
def ESS_TXLATE_COUNT : Field := ⟨0, 32⟩
/-- spec/10_essence_flows.md R377 -/
def ESS_FMTMIS : Nat := 0xD000C0
def ESS_FMTMIS_COUNT : Field := ⟨0, 32⟩

/-! ## BLK -/

/-- spec/11_bolben_fabric.md R418 -/
def BLK_ID : Nat := 0xE00000
def BLK_ID_ID : Field := ⟨0, 32⟩
/-- spec/11_bolben_fabric.md R418 -/
def BLK_CTRL : Nat := 0xE00004
def BLK_CTRL_CLRCNT : Field := ⟨0, 1⟩
def BLK_CTRL_EYEMIN : Field := ⟨8, 8⟩
def BLK_CTRL_ELECTTO : Field := ⟨16, 16⟩
/-- spec/11_bolben_fabric.md R418 -/
def BLK_NODE : Nat := 0xE00008
def BLK_NODE_PRIO : Field := ⟨0, 8⟩
def BLK_NODE_EXPNODES : Field := ⟨8, 2⟩
def BLK_NODE_RACC : Field := ⟨10, 1⟩
def BLK_NODE_NODEID : Field := ⟨12, 2⟩
def BLK_NODE_ROOT : Field := ⟨14, 1⟩
def BLK_NODE_FSTATE : Field := ⟨16, 2⟩
/-- spec/11_bolben_fabric.md R418 -/
def BLK_RTO : Nat := 0xE0000C
def BLK_RTO_TIMEOUT : Field := ⟨0, 16⟩
/-- spec/11_bolben_fabric.md R418 -/
def BLK_CHIPID_LO : Nat := 0xE00010
def BLK_CHIPID_LO_ID : Field := ⟨0, 32⟩
/-- spec/11_bolben_fabric.md R418 -/
def BLK_CHIPID_HI : Nat := 0xE00014
def BLK_CHIPID_HI_ID : Field := ⟨0, 32⟩
/-- spec/11_bolben_fabric.md R418 -/
def BLK_ERR : Nat := 0xE00018
def BLK_ERR_CFGREJ : Field := ⟨0, 1⟩
/-- spec/11_bolben_fabric.md R418 -/
def BLK_FTIME_SNAP : Nat := 0xE00020
def BLK_FTIME_SNAP_SNAP : Field := ⟨0, 1⟩
/-- spec/11_bolben_fabric.md R418 -/
def BLK_FTIME_LO : Nat := 0xE00024
def BLK_FTIME_LO_COUNT : Field := ⟨0, 32⟩
/-- spec/11_bolben_fabric.md R418 -/
def BLK_FTIME_HI : Nat := 0xE00028
def BLK_FTIME_HI_COUNT : Field := ⟨0, 16⟩
/-- spec/11_bolben_fabric.md R418 -/
def BLK_RR_ADDR : Nat := 0xE00040
def BLK_RR_ADDR_ADDR : Field := ⟨0, 26⟩
def BLK_RR_ADDR_NODE : Field := ⟨28, 2⟩
/-- spec/11_bolben_fabric.md R418 -/
def BLK_RR_WDATA : Nat := 0xE00044
def BLK_RR_WDATA_DATA : Field := ⟨0, 32⟩
/-- spec/11_bolben_fabric.md R418 -/
def BLK_RR_CMD : Nat := 0xE00048
def BLK_RR_CMD_GO : Field := ⟨0, 1⟩
def BLK_RR_CMD_WR : Field := ⟨1, 1⟩
/-- spec/11_bolben_fabric.md R418 -/
def BLK_RR_STAT : Nat := 0xE0004C
def BLK_RR_STAT_BUSY : Field := ⟨0, 1⟩
def BLK_RR_STAT_STATUS : Field := ⟨1, 2⟩
/-- spec/11_bolben_fabric.md R418 -/
def BLK_RR_RDATA : Nat := 0xE00050
def BLK_RR_RDATA_DATA : Field := ⟨0, 32⟩
/-- spec/11_bolben_fabric.md R418 -/
def BLK_RTIMEOUT : Nat := 0xE000A0
def BLK_RTIMEOUT_COUNT : Field := ⟨0, 32⟩
/-- spec/11_bolben_fabric.md R418 -/
def BLK_LATECPL : Nat := 0xE000A4
def BLK_LATECPL_COUNT : Field := ⟨0, 32⟩
/-- spec/11_bolben_fabric.md R418 -/
def BLK_PWLOST : Nat := 0xE000A8
def BLK_PWLOST_COUNT : Field := ⟨0, 32⟩
/-- spec/11_bolben_fabric.md R418 -/
def BLK_MISROUTE : Nat := 0xE000AC
def BLK_MISROUTE_COUNT : Field := ⟨0, 32⟩
/-- spec/11_bolben_fabric.md R419 -/
def BLK_TR_OSLOT (t : Nat) : Nat := 0xE00800 + 0x10 * t
def BLK_TR_OSLOT_BASE : Field := ⟨0, 11⟩
def BLK_TR_OSLOT_CNT : Field := ⟨16, 11⟩
/-- spec/11_bolben_fabric.md R419 -/
def BLK_TR_ISLOT (t : Nat) : Nat := 0xE00804 + 0x10 * t
def BLK_TR_ISLOT_BASE : Field := ⟨0, 11⟩
def BLK_TR_ISLOT_CNT : Field := ⟨16, 11⟩
/-- spec/11_bolben_fabric.md R419 -/
def BLK_TR_STAT (t : Nat) : Nat := 0xE00808 + 0x10 * t
def BLK_TR_STAT_UP : Field := ⟨0, 1⟩
def BLK_TR_STAT_CAP : Field := ⟨2, 11⟩
def BLK_TR_STAT_LANES : Field := ⟨14, 7⟩
/-- spec/11_bolben_fabric.md R419 -/
def BLK_TR_LINES (t : Nat) : Nat := 0xE0080C + 0x10 * t
def BLK_TR_LINES_COUNT : Field := ⟨0, 32⟩
/-- spec/11_bolben_fabric.md R420 -/
def BLK_L_CFG (k : Nat) : Nat := 0xE01000 + 0x40 * k
def BLK_L_CFG_EN : Field := ⟨0, 1⟩
def BLK_L_CFG_TRUNK : Field := ⟨1, 3⟩
/-- spec/11_bolben_fabric.md R420 -/
def BLK_L_STAT (k : Nat) : Nat := 0xE01004 + 0x40 * k
def BLK_L_STAT_STATE : Field := ⟨0, 3⟩
def BLK_L_STAT_LANES : Field := ⟨3, 6⟩
def BLK_L_STAT_PEER : Field := ⟨9, 2⟩
def BLK_L_STAT_PEERVALID : Field := ⟨11, 1⟩
def BLK_L_STAT_BACKOFF : Field := ⟨12, 3⟩
/-- spec/11_bolben_fabric.md R420 -/
def BLK_L_PEERID_LO (k : Nat) : Nat := 0xE01008 + 0x40 * k
def BLK_L_PEERID_LO_ID : Field := ⟨0, 32⟩
/-- spec/11_bolben_fabric.md R420 -/
def BLK_L_PEERID_HI (k : Nat) : Nat := 0xE0100C + 0x40 * k
def BLK_L_PEERID_HI_ID : Field := ⟨0, 32⟩
/-- spec/11_bolben_fabric.md R420 -/
def BLK_L_HIST (k : Nat) : Nat := 0xE01010 + 0x40 * k
def BLK_L_HIST_TRFAIL : Field := ⟨0, 1⟩
def BLK_L_HIST_LINKDN : Field := ⟨1, 1⟩
def BLK_L_HIST_BLKERR : Field := ⟨2, 1⟩
def BLK_L_HIST_REPLAY : Field := ⟨3, 1⟩
def BLK_L_HIST_REPLAYFAIL : Field := ⟨4, 1⟩
def BLK_L_HIST_SLOTMIS : Field := ⟨5, 1⟩
def BLK_L_HIST_TRUNKMIS : Field := ⟨6, 1⟩
def BLK_L_HIST_SKEW : Field := ⟨7, 1⟩
def BLK_L_HIST_LOWEYE : Field := ⟨8, 1⟩
/-- spec/11_bolben_fabric.md R420 -/
def BLK_L_BLKERR (k : Nat) : Nat := 0xE01020 + 0x40 * k
def BLK_L_BLKERR_COUNT : Field := ⟨0, 32⟩
/-- spec/11_bolben_fabric.md R420 -/
def BLK_L_VOID (k : Nat) : Nat := 0xE01024 + 0x40 * k
def BLK_L_VOID_COUNT : Field := ⟨0, 32⟩
/-- spec/11_bolben_fabric.md R420 -/
def BLK_L_REPLAY (k : Nat) : Nat := 0xE01028 + 0x40 * k
def BLK_L_REPLAY_COUNT : Field := ⟨0, 32⟩
/-- spec/11_bolben_fabric.md R420 -/
def BLK_L_TRFAIL (k : Nat) : Nat := 0xE0102C + 0x40 * k
def BLK_L_TRFAIL_COUNT : Field := ⟨0, 32⟩
/-- spec/11_bolben_fabric.md R421 -/
def BLK_LANE_CFG (j : Nat) : Nat := 0xE02000 + 0x10 * j
def BLK_LANE_CFG_LINK : Field := ⟨0, 4⟩
def BLK_LANE_CFG_TXPOL : Field := ⟨4, 1⟩
def BLK_LANE_CFG_RXPOL : Field := ⟨5, 1⟩
def BLK_LANE_CFG_DEFPRESET : Field := ⟨8, 3⟩
/-- spec/11_bolben_fabric.md R421 -/
def BLK_LANE_STAT (j : Nat) : Nat := 0xE02004 + 0x10 * j
def BLK_LANE_STAT_LOS : Field := ⟨0, 1⟩
def BLK_LANE_STAT_CDR : Field := ⟨1, 1⟩
def BLK_LANE_STAT_BLOCK : Field := ⟨2, 1⟩
def BLK_LANE_STAT_POS : Field := ⟨3, 5⟩
def BLK_LANE_STAT_PRE : Field := ⟨8, 4⟩
def BLK_LANE_STAT_POST : Field := ⟨12, 5⟩
def BLK_LANE_STAT_EYE : Field := ⟨24, 8⟩

/-! ## AUD -/

/-- spec/12_audio.md R442 -/
def AUD_ID : Nat := 0x1000000
def AUD_ID_ID : Field := ⟨0, 32⟩
/-- spec/12_audio.md R442 -/
def AUD_CTRL : Nat := 0x1000004
def AUD_CTRL_CLRCNT : Field := ⟨0, 1⟩
def AUD_CTRL_ZCTHR : Field := ⟨8, 6⟩
def AUD_CTRL_ZCTO : Field := ⟨16, 16⟩
/-- spec/12_audio.md R442 -/
def AUD_DE_IDX : Nat := 0x1000020
def AUD_DE_IDX_DE : Field := ⟨0, 8⟩
/-- spec/12_audio.md R442 -/
def AUD_DE_CFG : Nat := 0x1000024
def AUD_DE_CFG_SRC : Field := ⟨0, 12⟩
def AUD_DE_CFG_EN : Field := ⟨12, 1⟩
/-- spec/12_audio.md R442 -/
def AUD_DE_STAT : Nat := 0x1000028
def AUD_DE_STAT_GROUPS : Field := ⟨0, 4⟩
def AUD_DE_STAT_ASYNC : Field := ⟨4, 1⟩
def AUD_DE_STAT_NOAUD : Field := ⟨5, 1⟩
/-- spec/12_audio.md R442 -/
def AUD_MAP_IDX : Nat := 0x1000030
def AUD_MAP_IDX_DST : Field := ⟨0, 13⟩
/-- spec/12_audio.md R442 -/
def AUD_MAP_DATA : Nat := 0x1000034
def AUD_MAP_DATA_SRC : Field := ⟨0, 13⟩
def AUD_MAP_DATA_MAPPED : Field := ⟨13, 1⟩
def AUD_MAP_DATA_PEND : Field := ⟨14, 1⟩
def AUD_MAP_DATA_PSRC : Field := ⟨16, 13⟩
/-- spec/12_audio.md R443 -/
def AUD_TDM_STAT (p : Nat) : Nat := 0x1000100 + 0x10 * p
def AUD_TDM_STAT_ENABLED : Field := ⟨0, 1⟩
def AUD_TDM_STAT_MASTER : Field := ⟨1, 1⟩
def AUD_TDM_STAT_LOCKED : Field := ⟨2, 1⟩
def AUD_TDM_STAT_MUTED : Field := ⟨3, 1⟩
def AUD_TDM_STAT_AMPFLT : Field := ⟨4, 1⟩
def AUD_TDM_STAT_PPM : Field := ⟨16, 16⟩
/-- spec/12_audio.md R443 -/
def AUD_PDM_CFG (i : Nat) : Nat := 0x1000200 + 0x4 * i
def AUD_PDM_CFG_EN : Field := ⟨0, 1⟩
def AUD_PDM_CFG_HPF : Field := ⟨1, 1⟩
def AUD_PDM_CFG_GAIN : Field := ⟨8, 5⟩
/-- spec/12_audio.md R444 -/
def AUD_ZCTO : Nat := 0x10000A0
def AUD_ZCTO_COUNT : Field := ⟨0, 32⟩
/-- spec/12_audio.md R444 -/
def AUD_SLIP : Nat := 0x10000A4
def AUD_SLIP_COUNT : Field := ⟨0, 32⟩
/-- spec/12_audio.md R444 -/
def AUD_DEERR : Nat := 0x10000A8
def AUD_DEERR_COUNT : Field := ⟨0, 32⟩
/-- spec/12_audio.md R444 -/
def AUD_AMPCNT : Nat := 0x10000AC
def AUD_AMPCNT_COUNT : Field := ⟨0, 32⟩

/-! ## TIM -/

/-- spec/13_time_bases.md R465 -/
def TIM_ID : Nat := 0x1100000
def TIM_ID_ID : Field := ⟨0, 32⟩
/-- spec/13_time_bases.md R465 -/
def TIM_CTRL : Nat := 0x1100004
def TIM_CTRL_CLRCNT : Field := ⟨0, 1⟩
/-- spec/13_time_bases.md R465 -/
def TIM_SNAPALL : Nat := 0x1100008
def TIM_SNAPALL_GO : Field := ⟨0, 1⟩
/-- spec/13_time_bases.md R465 -/
def TIM_ERR : Nat := 0x110000C
def TIM_ERR_CFGREJ : Field := ⟨0, 1⟩
/-- spec/13_time_bases.md R465 -/
def TIM_IEN : Nat := 0x1100010
def TIM_IEN_HISTEN : Field := ⟨0, 28⟩
def TIM_IEN_ERREN : Field := ⟨28, 1⟩
/-- spec/13_time_bases.md R465 -/
def TIM_TPOSKIP : Nat := 0x11000A0
def TIM_TPOSKIP_COUNT : Field := ⟨0, 32⟩
/-- spec/13_time_bases.md R465 -/
def TIM_SWITCHCNT : Nat := 0x11000A4
def TIM_SWITCHCNT_COUNT : Field := ⟨0, 32⟩
/-- spec/13_time_bases.md R465 -/
def TIM_STEPCNT : Nat := 0x11000A8
def TIM_STEPCNT_COUNT : Field := ⟨0, 32⟩
/-- spec/13_time_bases.md R465 -/
def TIM_LAUNCHLATE : Nat := 0x11000AC
def TIM_LAUNCHLATE_COUNT : Field := ⟨0, 32⟩
/-- spec/13_time_bases.md R466 -/
def TIM_TB_CTRL (n : Nat) : Nat := 0x1100100 + 0x80 * n
def TIM_TB_CTRL_MODE : Field := ⟨0, 2⟩
def TIM_TB_CTRL_SRCNODE : Field := ⟨2, 2⟩
def TIM_TB_CTRL_DOMBEN : Field := ⟨4, 1⟩
def TIM_TB_CTRL_REVERT : Field := ⟨5, 1⟩
def TIM_TB_CTRL_STEPEN : Field := ⟨6, 1⟩
def TIM_TB_CTRL_DOMA : Field := ⟨8, 8⟩
def TIM_TB_CTRL_DOMB : Field := ⟨16, 8⟩
/-- spec/13_time_bases.md R466 -/
def TIM_TB_SLEW (n : Nat) : Nat := 0x1100104 + 0x80 * n
def TIM_TB_SLEW_SLEWMAX : Field := ⟨0, 8⟩
def TIM_TB_SLEW_STEPTHR : Field := ⟨16, 16⟩
/-- spec/13_time_bases.md R466 -/
def TIM_TB_DOM (n : Nat) : Nat := 0x1100108 + 0x80 * n
def TIM_TB_DOM_DISAGREE : Field := ⟨0, 16⟩
def TIM_TB_DOM_REVWAIT : Field := ⟨16, 16⟩
/-- spec/13_time_bases.md R466 -/
def TIM_TB_LOCK (n : Nat) : Nat := 0x110010C + 0x80 * n
def TIM_TB_LOCK_LOCKTHR : Field := ⟨0, 16⟩
/-- spec/13_time_bases.md R466 -/
def TIM_TB_FREQ (n : Nat) : Nat := 0x1100110 + 0x80 * n
def TIM_TB_FREQ_PPT : Field := ⟨0, 32⟩
/-- spec/13_time_bases.md R466 -/
def TIM_TB_ADJ (n : Nat) : Nat := 0x1100114 + 0x80 * n
def TIM_TB_ADJ_NS : Field := ⟨0, 32⟩
/-- spec/13_time_bases.md R466 -/
def TIM_TB_SETSEC_LO (n : Nat) : Nat := 0x1100118 + 0x80 * n
def TIM_TB_SETSEC_LO_SEC : Field := ⟨0, 32⟩
/-- spec/13_time_bases.md R466 -/
def TIM_TB_SETSEC_HI (n : Nat) : Nat := 0x110011C + 0x80 * n
def TIM_TB_SETSEC_HI_SEC : Field := ⟨0, 16⟩
/-- spec/13_time_bases.md R466 -/
def TIM_TB_SETNS (n : Nat) : Nat := 0x1100120 + 0x80 * n
def TIM_TB_SETNS_NS : Field := ⟨0, 30⟩
/-- spec/13_time_bases.md R466 -/
def TIM_TB_CMD (n : Nat) : Nat := 0x1100124 + 0x80 * n
def TIM_TB_CMD_LOAD : Field := ⟨0, 1⟩
def TIM_TB_CMD_SNAP : Field := ⟨1, 1⟩
def TIM_TB_CMD_FORCEDOM : Field := ⟨2, 1⟩
/-- spec/13_time_bases.md R466 -/
def TIM_TB_SNAPSEC_LO (n : Nat) : Nat := 0x1100128 + 0x80 * n
def TIM_TB_SNAPSEC_LO_SEC : Field := ⟨0, 32⟩
/-- spec/13_time_bases.md R466 -/
def TIM_TB_SNAPSEC_HI (n : Nat) : Nat := 0x110012C + 0x80 * n
def TIM_TB_SNAPSEC_HI_SEC : Field := ⟨0, 16⟩
/-- spec/13_time_bases.md R466 -/
def TIM_TB_SNAPNS (n : Nat) : Nat := 0x1100130 + 0x80 * n
def TIM_TB_SNAPNS_NS : Field := ⟨0, 30⟩
/-- spec/13_time_bases.md R466 -/
def TIM_TB_SNAPTS (n : Nat) : Nat := 0x1100134 + 0x80 * n
def TIM_TB_SNAPTS_TS : Field := ⟨0, 32⟩
/-- spec/13_time_bases.md R466 -/
def TIM_TB_STAT (n : Nat) : Nat := 0x1100138 + 0x80 * n
def TIM_TB_STAT_STATE : Field := ⟨0, 3⟩
def TIM_TB_STAT_INUSE : Field := ⟨3, 1⟩
def TIM_TB_STAT_QUALA : Field := ⟨4, 1⟩
def TIM_TB_STAT_QUALB : Field := ⟨5, 1⟩
def TIM_TB_STAT_SLEWING : Field := ⟨6, 1⟩
/-- spec/13_time_bases.md R466 -/
def TIM_TB_DIFF (n : Nat) : Nat := 0x110013C + 0x80 * n
def TIM_TB_DIFF_NS : Field := ⟨0, 32⟩
/-- spec/13_time_bases.md R466 -/
def TIM_TB_HIST (n : Nat) : Nat := 0x1100140 + 0x80 * n
def TIM_TB_HIST_STEP : Field := ⟨0, 1⟩
def TIM_TB_HIST_HOLDOVER : Field := ⟨1, 1⟩
def TIM_TB_HIST_SWITCH : Field := ⟨2, 1⟩
def TIM_TB_HIST_DISAGREE : Field := ⟨3, 1⟩
def TIM_TB_HIST_LOSSA : Field := ⟨4, 1⟩
def TIM_TB_HIST_LOSSB : Field := ⟨5, 1⟩
def TIM_TB_HIST_SRCLOST : Field := ⟨6, 1⟩
/-- spec/13_time_bases.md R467 -/
def TIM_PORT_COR (p : Nat) : Nat := 0x1101000 + 0x10 * p
def TIM_PORT_COR_INGCOR : Field := ⟨0, 16⟩
def TIM_PORT_COR_EGRCOR : Field := ⟨16, 16⟩
/-- spec/13_time_bases.md R467 -/
def TIM_PORT_ASYM (p : Nat) : Nat := 0x1101004 + 0x10 * p
def TIM_PORT_ASYM_ASYM : Field := ⟨0, 32⟩
/-- spec/13_time_bases.md R467 -/
def TIM_TPO_CFG (k : Nat) : Nat := 0x1102000 + 0x10 * k
def TIM_TPO_CFG_POL : Field := ⟨0, 1⟩
def TIM_TPO_CFG_IDLEZ : Field := ⟨1, 1⟩
/-- spec/13_time_bases.md R467 -/
def TIM_TPO_STAT (k : Nat) : Nat := 0x1102004 + 0x10 * k
def TIM_TPO_STAT_ARMED : Field := ⟨0, 1⟩
def TIM_TPO_STAT_PERIODIC : Field := ⟨1, 1⟩
def TIM_TPO_STAT_TB : Field := ⟨2, 2⟩
/-- spec/13_time_bases.md R467 -/
def TIM_TPO_NEXT (k : Nat) : Nat := 0x1102008 + 0x10 * k
def TIM_TPO_NEXT_TS : Field := ⟨0, 32⟩
/-- spec/13_time_bases.md R467 -/
def TIM_TPO_LEFT (k : Nat) : Nat := 0x110200C + 0x10 * k
def TIM_TPO_LEFT_COUNT : Field := ⟨0, 32⟩

/-! ## CLK -/

/-- spec/14_reference_clocks.md R482 -/
def CLK_ID : Nat := 0x1180000
def CLK_ID_ID : Field := ⟨0, 32⟩
/-- spec/14_reference_clocks.md R482 -/
def CLK_CTRL : Nat := 0x1180004
def CLK_CTRL_CLRCNT : Field := ⟨0, 1⟩
def CLK_CTRL_REVERT : Field := ⟨1, 1⟩
def CLK_CTRL_GENFAM : Field := ⟨2, 1⟩
def CLK_CTRL_FORCE : Field := ⟨3, 1⟩
def CLK_CTRL_FORCEPRI : Field := ⟨4, 3⟩
def CLK_CTRL_WTR : Field := ⟨8, 8⟩
def CLK_CTRL_FSLOPE : Field := ⟨16, 8⟩
/-- spec/14_reference_clocks.md R482 -/
def CLK_STAT : Nat := 0x1180008
def CLK_STAT_STATE : Field := ⟨0, 2⟩
def CLK_STAT_ACTPRI : Field := ⟨4, 3⟩
def CLK_STAT_ACTSRC : Field := ⟨8, 4⟩
/-- spec/14_reference_clocks.md R482 -/
def CLK_QUAL : Nat := 0x118000C
def CLK_QUAL_Q : Field := ⟨0, 13⟩
/-- spec/14_reference_clocks.md R482 -/
def CLK_HIST : Nat := 0x1180010
def CLK_HIST_FREERUN : Field := ⟨0, 1⟩
def CLK_HIST_SWITCH : Field := ⟨1, 1⟩
def CLK_HIST_REFLOSS : Field := ⟨2, 1⟩
def CLK_HIST_UNLOCK : Field := ⟨3, 1⟩
def CLK_HIST_JUMP : Field := ⟨4, 1⟩
def CLK_HIST_ALIGNLOSS : Field := ⟨5, 1⟩
def CLK_HIST_FORCEFAIL : Field := ⟨6, 1⟩
def CLK_HIST_CFGREJ : Field := ⟨7, 1⟩
/-- spec/14_reference_clocks.md R482 -/
def CLK_QHIST : Nat := 0x1180014
def CLK_QHIST_LOST : Field := ⟨0, 13⟩
/-- spec/14_reference_clocks.md R482 -/
def CLK_IEN : Nat := 0x1180018
def CLK_IEN_EN : Field := ⟨0, 8⟩
/-- spec/14_reference_clocks.md R482 -/
def CLK_FREQ : Nat := 0x118001C
def CLK_FREQ_PPB : Field := ⟨0, 32⟩
/-- spec/14_reference_clocks.md R482 -/
def CLK_CMD : Nat := 0x1180020
def CLK_CMD_REALIGN : Field := ⟨0, 1⟩
def CLK_CMD_RALSRC : Field := ⟨1, 1⟩
def CLK_CMD_RALTB : Field := ⟨2, 2⟩
/-- spec/14_reference_clocks.md R482 -/
def CLK_ALIGN : Nat := 0x1180024
def CLK_ALIGN_OFFSET : Field := ⟨0, 26⟩
def CLK_ALIGN_ALIGNSRC : Field := ⟨26, 4⟩
/-- spec/14_reference_clocks.md R482 -/
def CLK_PULL : Nat := 0x1180028
def CLK_PULL_PULLWIN : Field := ⟨0, 16⟩
/-- spec/14_reference_clocks.md R482 -/
def CLK_SDILANE : Nat := 0x118002C
def CLK_SDILANE_LANE : Field := ⟨0, 8⟩
/-- spec/14_reference_clocks.md R482 -/
def CLK_QUALCFG : Nat := 0x1180030
def CLK_QUALCFG_QUALPPM : Field := ⟨0, 8⟩
def CLK_QUALCFG_QUALT : Field := ⟨8, 8⟩
/-- spec/14_reference_clocks.md R483 -/
def CLK_PRI (k : Nat) : Nat := 0x1180040 + 0x4 * k
def CLK_PRI_SRC : Field := ⟨0, 4⟩
def CLK_PRI_EN : Field := ⟨4, 1⟩
/-- spec/14_reference_clocks.md R483 -/
def CLK_REFIN_CFG (m : Nat) : Nat := 0x1180060 + 0x4 * m
def CLK_REFIN_CFG_RATE : Field := ⟨0, 8⟩
def CLK_REFIN_CFG_POL : Field := ⟨8, 1⟩
/-- spec/14_reference_clocks.md R483 -/
def CLK_GENOUT_CFG (k : Nat) : Nat := 0x1180080 + 0x8 * k
def CLK_GENOUT_CFG_EN : Field := ⟨0, 1⟩
def CLK_GENOUT_CFG_POL : Field := ⟨1, 1⟩
def CLK_GENOUT_CFG_KIND : Field := ⟨2, 2⟩
def CLK_GENOUT_CFG_TB : Field := ⟨4, 2⟩
def CLK_GENOUT_CFG_RATE : Field := ⟨8, 8⟩
def CLK_GENOUT_CFG_WIDTH : Field := ⟨16, 16⟩
/-- spec/14_reference_clocks.md R483 -/
def CLK_GENOUT_OFS (k : Nat) : Nat := 0x1180084 + 0x8 * k
def CLK_GENOUT_OFS_OFS : Field := ⟨0, 26⟩
/-- spec/14_reference_clocks.md R483 -/
def CLK_SWCNT : Nat := 0x11800A0
def CLK_SWCNT_COUNT : Field := ⟨0, 32⟩
/-- spec/14_reference_clocks.md R483 -/
def CLK_JUMPCNT : Nat := 0x11800A4
def CLK_JUMPCNT_COUNT : Field := ⟨0, 32⟩
/-- spec/14_reference_clocks.md R483 -/
def CLK_QLOSSCNT : Nat := 0x11800A8
def CLK_QLOSSCNT_COUNT : Field := ⟨0, 32⟩

/-! ## PWR -/

/-- spec/15_power_reset.md R504 -/
def PWR_ID : Nat := 0x1480000
def PWR_ID_ID : Field := ⟨0, 32⟩
/-- spec/15_power_reset.md R504 -/
def PWR_CTRL : Nat := 0x1480004
def PWR_CTRL_AUTOWAKE : Field := ⟨0, 1⟩
def PWR_CTRL_THERMWARN : Field := ⟨8, 8⟩
/-- spec/15_power_reset.md R504 -/
def PWR_CMD : Nat := 0x1480008
def PWR_CMD_FALLOW : Field := ⟨0, 1⟩
def PWR_CMD_ACTIVE : Field := ⟨1, 1⟩
def PWR_CMD_SHUTDOWN : Field := ⟨2, 1⟩
def PWR_CMD_SKIPBST : Field := ⟨3, 1⟩
def PWR_CMD_WARM : Field := ⟨4, 1⟩
/-- spec/15_power_reset.md R504 -/
def PWR_STAT : Nat := 0x148000C
def PWR_STAT_STATE : Field := ⟨0, 3⟩
def PWR_STAT_READY : Field := ⟨3, 1⟩
def PWR_STAT_OFFREADY : Field := ⟨4, 1⟩
def PWR_STAT_FULLTEST : Field := ⟨5, 1⟩
def PWR_STAT_HOT : Field := ⟨6, 1⟩
def PWR_STAT_BOOTBAD : Field := ⟨7, 1⟩
def PWR_STAT_BOOT : Field := ⟨8, 3⟩
/-- spec/15_power_reset.md R504 -/
def PWR_ERR : Nat := 0x1480010
def PWR_ERR_CFGREJ : Field := ⟨0, 1⟩
/-- spec/15_power_reset.md R504 -/
def PWR_DOMSTAT : Nat := 0x1480014
def PWR_DOMSTAT_MLG : Field := ⟨0, 16⟩
def PWR_DOMSTAT_FLG : Field := ⟨16, 4⟩
def PWR_DOMSTAT_CMP : Field := ⟨20, 4⟩
def PWR_DOMSTAT_AUDM : Field := ⟨24, 8⟩
/-- spec/15_power_reset.md R504 -/
def PWR_TEMP : Nat := 0x1480018
def PWR_TEMP_TJ : Field := ⟨0, 12⟩
/-- spec/15_power_reset.md R504 -/
def PWR_RSTCAUSE : Nat := 0x1480020
def PWR_RSTCAUSE_OFFUP : Field := ⟨0, 1⟩
def PWR_RSTCAUSE_DORMUP : Field := ⟨1, 1⟩
def PWR_RSTCAUSE_POR : Field := ⟨2, 1⟩
def PWR_RSTCAUSE_WARM : Field := ⟨3, 1⟩
def PWR_RSTCAUSE_THERM : Field := ⟨4, 1⟩
/-- spec/15_power_reset.md R504 -/
def PWR_WAKETMR : Nat := 0x1480024
def PWR_WAKETMR_SEC : Field := ⟨0, 32⟩
/-- spec/15_power_reset.md R504 -/
def PWR_RET (n : Nat) : Nat := 0x1480040 + 0x4 * n
def PWR_RET_DATA : Field := ⟨0, 32⟩

/-! ## HDG -/

/-- spec/17_hedgerow_faults.md R543 -/
def HDG_ID : Nat := 0x1200000
def HDG_ID_ID : Field := ⟨0, 32⟩
/-- spec/17_hedgerow_faults.md R543 -/
def HDG_CTRL : Nat := 0x1200004
def HDG_CTRL_TB : Field := ⟨0, 2⟩
def HDG_CTRL_MASKEN : Field := ⟨2, 1⟩
def HDG_CTRL_CLRCNT : Field := ⟨3, 1⟩
/-- spec/17_hedgerow_faults.md R543 -/
def HDG_STAT : Nat := 0x1200008
def HDG_STAT_SAFE : Field := ⟨0, 1⟩
def HDG_STAT_FAULT : Field := ⟨1, 1⟩
def HDG_STAT_SAFESRC : Field := ⟨16, 9⟩
/-- spec/17_hedgerow_faults.md R543 -/
def HDG_FIRST : Nat := 0x1200010
def HDG_FIRST_SRC : Field := ⟨0, 9⟩
def HDG_FIRST_SEV : Field := ⟨9, 2⟩
def HDG_FIRST_FORCED : Field := ⟨11, 1⟩
def HDG_FIRST_VALID : Field := ⟨12, 1⟩
/-- spec/17_hedgerow_faults.md R543 -/
def HDG_FIRSTSEV : Nat := 0x1200018
def HDG_FIRSTSEV_SRC : Field := ⟨0, 9⟩
def HDG_FIRSTSEV_SEV : Field := ⟨9, 2⟩
def HDG_FIRSTSEV_FORCED : Field := ⟨11, 1⟩
def HDG_FIRSTSEV_VALID : Field := ⟨12, 1⟩
/-- spec/17_hedgerow_faults.md R543 -/
def HDG_FIRSTTS : Nat := 0x1200014
def HDG_FIRSTTS_TS : Field := ⟨0, 32⟩
/-- spec/17_hedgerow_faults.md R543 -/
def HDG_FIRSTSEVTS : Nat := 0x120001C
def HDG_FIRSTSEVTS_TS : Field := ⟨0, 32⟩
/-- spec/17_hedgerow_faults.md R543 -/
def HDG_FIRSTCLR : Nat := 0x1200020
def HDG_FIRSTCLR_CLR : Field := ⟨0, 1⟩
/-- spec/17_hedgerow_faults.md R543 -/
def HDG_ACK : Nat := 0x1200024
def HDG_ACK_SRC : Field := ⟨0, 9⟩
def HDG_ACK_GO : Field := ⟨31, 1⟩
/-- spec/17_hedgerow_faults.md R543 -/
def HDG_CLR : Nat := 0x1200028
def HDG_CLR_SRC : Field := ⟨0, 9⟩
def HDG_CLR_GO : Field := ⟨31, 1⟩
/-- spec/17_hedgerow_faults.md R543 -/
def HDG_ERR : Nat := 0x120002C
def HDG_ERR_ACKREJ : Field := ⟨0, 1⟩
/-- spec/17_hedgerow_faults.md R543 -/
def HDG_RTIME (k : Nat) : Nat := 0x1200030 + 0x4 * k
def HDG_RTIME_US : Field := ⟨0, 24⟩
/-- spec/17_hedgerow_faults.md R543 -/
def HDG_STICKY (i : Nat) : Nat := 0x1200100 + 0x4 * i
def HDG_STICKY_SRC : Field := ⟨0, 32⟩
/-- spec/17_hedgerow_faults.md R543 -/
def HDG_SEV (i : Nat) : Nat := 0x1200140 + 0x4 * i
def HDG_SEV_SRC : Field := ⟨0, 32⟩
/-- spec/17_hedgerow_faults.md R544 -/
def HDG_SRC_CFG (n : Nat) : Nat := 0x1201000 + 0x10 * n
def HDG_SRC_CFG_EN : Field := ⟨0, 1⟩
def HDG_SRC_CFG_IEN : Field := ⟨1, 1⟩
def HDG_SRC_CFG_RSEL : Field := ⟨2, 2⟩
def HDG_SRC_CFG_ACTION : Field := ⟨4, 2⟩
def HDG_SRC_CFG_N : Field := ⟨8, 8⟩
def HDG_SRC_CFG_WINDOW : Field := ⟨16, 12⟩
/-- spec/17_hedgerow_faults.md R544 -/
def HDG_SRC_STAT (n : Nat) : Nat := 0x1201004 + 0x10 * n
def HDG_SRC_STAT_STATE : Field := ⟨0, 2⟩
def HDG_SRC_STAT_STICKY : Field := ⟨2, 1⟩
def HDG_SRC_STAT_ACKED : Field := ⟨3, 1⟩
def HDG_SRC_STAT_HELD : Field := ⟨4, 1⟩
def HDG_SRC_STAT_FIXED : Field := ⟨5, 1⟩
def HDG_SRC_STAT_PROMOTED : Field := ⟨6, 1⟩
def HDG_SRC_STAT_FORCED : Field := ⟨7, 1⟩
def HDG_SRC_STAT_WCOUNT : Field := ⟨8, 8⟩
/-- spec/17_hedgerow_faults.md R544 -/
def HDG_SRC_COUNT (n : Nat) : Nat := 0x1201008 + 0x10 * n
def HDG_SRC_COUNT_COUNT : Field := ⟨0, 32⟩
/-- spec/17_hedgerow_faults.md R544 -/
def HDG_SRC_CTL (n : Nat) : Nat := 0x120100C + 0x10 * n
def HDG_SRC_CTL_FORCE : Field := ⟨0, 1⟩
/-- spec/17_hedgerow_faults.md R545 -/
def HDG_MASK_A (m : Nat) : Nat := 0x1204000 + 0x8 * m
def HDG_MASK_A_CAUSE : Field := ⟨0, 9⟩
def HDG_MASK_A_EN : Field := ⟨15, 1⟩
/-- spec/17_hedgerow_faults.md R545 -/
def HDG_MASK_B (m : Nat) : Nat := 0x1204004 + 0x8 * m
def HDG_MASK_B_FIRST : Field := ⟨0, 9⟩
def HDG_MASK_B_LAST : Field := ⟨16, 9⟩

/-! ## BST -/

/-- spec/18_self_test.md R557 -/
def BST_ID : Nat := 0x1280000
def BST_ID_ID : Field := ⟨0, 32⟩
/-- spec/18_self_test.md R557 -/
def BST_CTRL : Nat := 0x1280004
def BST_CTRL_SLICEEN : Field := ⟨0, 1⟩
def BST_CTRL_CLRCNT : Field := ⟨1, 1⟩
def BST_CTRL_SLICEPER : Field := ⟨8, 8⟩
def BST_CTRL_PATROL : Field := ⟨16, 16⟩
/-- spec/18_self_test.md R557 -/
def BST_ERR : Nat := 0x1280008
def BST_ERR_CFGREJ : Field := ⟨0, 1⟩
/-- spec/18_self_test.md R557 -/
def BST_STAT : Nat := 0x128000C
def BST_STAT_FULLRUN : Field := ⟨0, 1⟩
def BST_STAT_LSSPARE : Field := ⟨12, 12⟩
/-- spec/18_self_test.md R557 -/
def BST_OOS (i : Nat) : Nat := 0x1280010 + 0x4 * i
def BST_OOS_UNIT : Field := ⟨0, 32⟩
/-- spec/18_self_test.md R557 -/
def BST_FAILED (i : Nat) : Nat := 0x1280030 + 0x4 * i
def BST_FAILED_UNIT : Field := ⟨0, 32⟩
/-- spec/18_self_test.md R557 -/
def BST_UNIT_IDX : Nat := 0x1280080
def BST_UNIT_IDX_UNIT : Field := ⟨0, 8⟩
/-- spec/18_self_test.md R557 -/
def BST_UNIT_STAT : Nat := 0x1280084
def BST_UNIT_STAT_STATE : Field := ⟨0, 2⟩
def BST_UNIT_STAT_TESTING : Field := ⟨2, 1⟩
def BST_UNIT_STAT_LASTPASS : Field := ⟨3, 1⟩
def BST_UNIT_STAT_SLICE : Field := ⟨16, 16⟩
/-- spec/18_self_test.md R557 -/
def BST_SLICES : Nat := 0x12800A0
def BST_SLICES_COUNT : Field := ⟨0, 32⟩
/-- spec/18_self_test.md R557 -/
def BST_ABANDON : Nat := 0x12800A4
def BST_ABANDON_COUNT : Field := ⟨0, 32⟩
/-- spec/18_self_test.md R557 -/
def BST_LSREP : Nat := 0x12800A8
def BST_LSREP_COUNT : Field := ⟨0, 32⟩

/-! ## FOV -/

/-- spec/19_redundancy.md R575 -/
def FOV_ID : Nat := 0x1300000
def FOV_ID_ID : Field := ⟨0, 32⟩
/-- spec/19_redundancy.md R575 -/
def FOV_CFG : Nat := 0x1300004
def FOV_CFG_PROT : Field := ⟨0, 1⟩
def FOV_CFG_ROLE : Field := ⟨1, 1⟩
def FOV_CFG_AUTOCLAIM : Field := ⟨2, 1⟩
def FOV_CFG_AUTOSYNC : Field := ⟨3, 1⟩
def FOV_CFG_FALLBACK : Field := ⟨4, 1⟩
def FOV_CFG_PLANEYIELD : Field := ⟨5, 1⟩
def FOV_CFG_MIRPORT : Field := ⟨8, 6⟩
def FOV_CFG_MIRBLK : Field := ⟨14, 1⟩
def FOV_CFG_MIRLINK : Field := ⟨16, 4⟩
/-- spec/19_redundancy.md R575 -/
def FOV_TIMING : Nat := 0x1300008
def FOV_TIMING_CLAIMDLY : Field := ⟨0, 16⟩
def FOV_TIMING_CLAIMWIN : Field := ⟨16, 16⟩
/-- spec/19_redundancy.md R575 -/
def FOV_REFFMT : Nat := 0x130000C
def FOV_REFFMT_RASTER : Field := ⟨0, 8⟩
def FOV_REFFMT_RATE : Field := ⟨8, 8⟩
/-- spec/19_redundancy.md R575 -/
def FOV_GRANT_SEQ : Nat := 0x1300014
def FOV_GRANT_SEQ_SEQ : Field := ⟨0, 32⟩
/-- spec/19_redundancy.md R575 -/
def FOV_GRANT_CTL : Nat := 0x1300018
def FOV_GRANT_CTL_KIND : Field := ⟨0, 2⟩
def FOV_GRANT_CTL_COVERED : Field := ⟨2, 1⟩
def FOV_GRANT_CTL_FORCE : Field := ⟨3, 1⟩
def FOV_GRANT_CTL_LEASE : Field := ⟨16, 14⟩
def FOV_GRANT_CTL_GO : Field := ⟨31, 1⟩
/-- spec/19_redundancy.md R575 -/
def FOV_CMD : Nat := 0x1300024
def FOV_CMD_CLAIM : Field := ⟨0, 1⟩
def FOV_CMD_RELEASE : Field := ⟨1, 1⟩
def FOV_CMD_YIELD : Field := ⟨2, 1⟩
def FOV_CMD_RESYNC : Field := ⟨3, 1⟩
def FOV_CMD_RECOVER : Field := ⟨4, 1⟩
def FOV_CMD_CLRCNT : Field := ⟨5, 1⟩
def FOV_CMD_TB : Field := ⟨8, 2⟩
/-- spec/19_redundancy.md R575 -/
def FOV_YIELDTIME : Nat := 0x1300028
def FOV_YIELDTIME_TIME : Field := ⟨0, 32⟩
/-- spec/19_redundancy.md R575 -/
def FOV_IEN : Nat := 0x1300030
def FOV_IEN_EN : Field := ⟨0, 10⟩
/-- spec/19_redundancy.md R576 -/
def FOV_STAT : Nat := 0x1300010
def FOV_STAT_STATE : Field := ⟨0, 4⟩
def FOV_STAT_ILKIN : Field := ⟨4, 1⟩
def FOV_STAT_ILKOUT : Field := ⟨5, 1⟩
def FOV_STAT_ACTIVE : Field := ⟨6, 1⟩
def FOV_STAT_LEASE : Field := ⟨7, 2⟩
def FOV_STAT_COVERED : Field := ⟨9, 1⟩
def FOV_STAT_MIRUP : Field := ⟨10, 1⟩
/-- spec/19_redundancy.md R576 -/
def FOV_LEASELEFT : Nat := 0x130001C
def FOV_LEASELEFT_MS : Field := ⟨0, 16⟩
/-- spec/19_redundancy.md R576 -/
def FOV_LASTSEQ : Nat := 0x1300020
def FOV_LASTSEQ_SEQ : Field := ⟨0, 32⟩
/-- spec/19_redundancy.md R576 -/
def FOV_HIST : Nat := 0x130002C
def FOV_HIST_TAKEOVER : Field := ⟨0, 1⟩
def FOV_HIST_YIELD : Field := ⟨1, 1⟩
def FOV_HIST_LEASEEXP : Field := ⟨2, 1⟩
def FOV_HIST_ILKCONF : Field := ⟨3, 1⟩
def FOV_HIST_MIRLOSS : Field := ⟨4, 1⟩
def FOV_HIST_DIGESTMIS : Field := ⟨5, 1⟩
def FOV_HIST_GRANTREJ : Field := ⟨6, 1⟩
def FOV_HIST_CLAIMSTALL : Field := ⟨7, 1⟩
def FOV_HIST_PLANELOSS : Field := ⟨8, 1⟩
def FOV_HIST_SYNCDONE : Field := ⟨9, 1⟩
/-- spec/19_redundancy.md R576 -/
def FOV_ERR : Nat := 0x1300034
def FOV_ERR_CFGREJ : Field := ⟨0, 1⟩
def FOV_ERR_GRANTREJ : Field := ⟨1, 1⟩
/-- spec/19_redundancy.md R576 -/
def FOV_TAKECNT : Nat := 0x13000A0
def FOV_TAKECNT_COUNT : Field := ⟨0, 32⟩
/-- spec/19_redundancy.md R576 -/
def FOV_YIELDCNT : Nat := 0x13000A4
def FOV_YIELDCNT_COUNT : Field := ⟨0, 32⟩
/-- spec/19_redundancy.md R576 -/
def FOV_LATEMIR : Nat := 0x13000A8
def FOV_LATEMIR_COUNT : Field := ⟨0, 32⟩
/-- spec/19_redundancy.md R576 -/
def FOV_DIGESTCNT : Nat := 0x13000AC
def FOV_DIGESTCNT_COUNT : Field := ⟨0, 32⟩

/-! ## SVC -/

/-- spec/20_firmware_lifecycle.md R606 -/
def SVC_ID : Nat := 0x1380000
def SVC_ID_ID : Field := ⟨0, 32⟩
/-- spec/20_firmware_lifecycle.md R606 -/
def SVC_CTRL : Nat := 0x1380004
def SVC_CTRL_SHADOWFR : Field := ⟨0, 8⟩
def SVC_CTRL_CONFTO : Field := ⟨16, 16⟩
/-- spec/20_firmware_lifecycle.md R606 -/
def SVC_CMD : Nat := 0x1380008
def SVC_CMD_OP : Field := ⟨0, 4⟩
def SVC_CMD_GO : Field := ⟨31, 1⟩
/-- spec/20_firmware_lifecycle.md R606 -/
def SVC_CMDSTAT : Nat := 0x138000C
def SVC_CMDSTAT_BUSY : Field := ⟨0, 1⟩
def SVC_CMDSTAT_SLOTERR : Field := ⟨1, 1⟩
def SVC_CMDSTAT_RESULT : Field := ⟨4, 4⟩
def SVC_CMDSTAT_OP : Field := ⟨8, 4⟩
/-- spec/20_firmware_lifecycle.md R606 -/
def SVC_XADDR_LO : Nat := 0x1380010
def SVC_XADDR_LO_ADDR : Field := ⟨0, 32⟩
/-- spec/20_firmware_lifecycle.md R606 -/
def SVC_XADDR_HI : Nat := 0x1380014
def SVC_XADDR_HI_ADDR : Field := ⟨0, 32⟩
/-- spec/20_firmware_lifecycle.md R606 -/
def SVC_XLEN : Nat := 0x1380018
def SVC_XLEN_LEN : Field := ⟨0, 32⟩
/-- spec/20_firmware_lifecycle.md R606 -/
def SVC_ARG : Nat := 0x138001C
def SVC_ARG_ARG : Field := ⟨0, 32⟩
/-- spec/20_firmware_lifecycle.md R606 -/
def SVC_FWVER : Nat := 0x1380020
def SVC_FWVER_VERSION : Field := ⟨0, 32⟩
/-- spec/20_firmware_lifecycle.md R606 -/
def SVC_SLOT : Nat := 0x1380024
def SVC_SLOT_BOOT : Field := ⟨0, 1⟩
def SVC_SLOT_RUN : Field := ⟨1, 1⟩
def SVC_SLOT_RECOVERY : Field := ⟨2, 1⟩
/-- spec/20_firmware_lifecycle.md R606 -/
def SVC_SLOTVER0 : Nat := 0x1380028
def SVC_SLOTVER0_VERSION : Field := ⟨0, 32⟩
/-- spec/20_firmware_lifecycle.md R606 -/
def SVC_SLOTVER1 : Nat := 0x138002C
def SVC_SLOTVER1_VERSION : Field := ⟨0, 32⟩
/-- spec/20_firmware_lifecycle.md R606 -/
def SVC_UPD : Nat := 0x1380030
def SVC_UPD_STATE : Field := ⟨0, 2⟩
def SVC_UPD_LEFT : Field := ⟨16, 16⟩
/-- spec/20_firmware_lifecycle.md R606 -/
def SVC_CFGSTAT : Nat := 0x1380034
def SVC_CFGSTAT_BANK : Field := ⟨0, 1⟩
def SVC_CFGSTAT_AVALID : Field := ⟨1, 1⟩
def SVC_CFGSTAT_BVALID : Field := ⟨2, 1⟩
def SVC_CFGSTAT_PROTECT : Field := ⟨3, 1⟩
def SVC_CFGSTAT_FMT : Field := ⟨16, 16⟩
/-- spec/20_firmware_lifecycle.md R606 -/
def SVC_CFGSEQ : Nat := 0x1380038
def SVC_CFGSEQ_SEQ : Field := ⟨0, 32⟩
/-- spec/20_firmware_lifecycle.md R606 -/
def SVC_CORE : Nat := 0x138003C
def SVC_CORE_MAP : Field := ⟨0, 8⟩
def SVC_CORE_INSVC : Field := ⟨8, 4⟩
/-- spec/20_firmware_lifecycle.md R606 -/
def SVC_HIST : Nat := 0x1380040
def SVC_HIST_DONE : Field := ⟨0, 1⟩
def SVC_HIST_IMGBAD : Field := ⟨1, 1⟩
def SVC_HIST_UPDFAIL : Field := ⟨2, 1⟩
def SVC_HIST_REVERT : Field := ⟨3, 1⟩
def SVC_HIST_CFGEQ : Field := ⟨4, 1⟩
def SVC_HIST_CFGBAD : Field := ⟨5, 1⟩
def SVC_HIST_WDOG : Field := ⟨6, 1⟩
def SVC_HIST_CHAIN : Field := ⟨7, 1⟩
/-- spec/20_firmware_lifecycle.md R606 -/
def SVC_IEN : Nat := 0x1380044
def SVC_IEN_EN : Field := ⟨0, 8⟩

/-! ## SEC -/

/-- spec/20_firmware_lifecycle.md R607 -/
def SEC_ID : Nat := 0x1400000
def SEC_ID_ID : Field := ⟨0, 32⟩
/-- spec/20_firmware_lifecycle.md R607 -/
def SEC_LC : Nat := 0x1400004
def SEC_LC_STATE : Field := ⟨0, 3⟩
def SEC_LC_ROLLFWD : Field := ⟨3, 1⟩
def SEC_LC_PENDING : Field := ⟨4, 1⟩
/-- spec/20_firmware_lifecycle.md R607 -/
def SEC_KEY : Nat := 0x1400008
def SEC_KEY_VALID : Field := ⟨0, 4⟩
def SEC_KEY_REVOKED : Field := ⟨4, 4⟩
def SEC_KEY_INUSE : Field := ⟨8, 2⟩
/-- spec/20_firmware_lifecycle.md R607 -/
def SEC_SVN : Nat := 0x140000C
def SEC_SVN_SVN : Field := ⟨0, 6⟩
/-- spec/20_firmware_lifecycle.md R607 -/
def SEC_POLICY : Nat := 0x1400010
def SEC_POLICY_CFGSIGN : Field := ⟨0, 1⟩
/-- spec/20_firmware_lifecycle.md R607 -/
def SEC_SIGFAIL : Nat := 0x14000A0
def SEC_SIGFAIL_COUNT : Field := ⟨0, 32⟩
/-- spec/20_firmware_lifecycle.md R607 -/
def SEC_DECFAIL : Nat := 0x14000A4
def SEC_DECFAIL_COUNT : Field := ⟨0, 32⟩
/-- spec/20_firmware_lifecycle.md R607 -/
def SEC_ROLLBACK : Nat := 0x14000A8
def SEC_ROLLBACK_COUNT : Field := ⟨0, 32⟩

/-! ## GLB -/

/-- spec/22_register_index.md R623 -/
def GLB_ID : Nat := 0x0
def GLB_ID_ID : Field := ⟨0, 32⟩
/-- spec/22_register_index.md R623 -/
def GLB_LOCK : Nat := 0x10
def GLB_LOCK_SETUP : Field := ⟨0, 1⟩

/-! ## WIN -/

/-- spec/22_register_index.md R624 -/
def FSA_DLW (d : Nat) : Nat := 0x2800000 + 0x4 * d
/-- spec/22_register_index.md R624 -/
def CMP_SRW_CFG (r : Nat) : Nat := 0x2C00000 + 0x40 * r
/-- spec/22_register_index.md R624 -/
def CMP_SRW_POS (r : Nat) : Nat := 0x2C00004 + 0x40 * r
/-- spec/22_register_index.md R624 -/
def CMP_SRW_SIZE (r : Nat) : Nat := 0x2C00008 + 0x40 * r
/-- spec/22_register_index.md R624 -/
def CMP_SRW_STILL (r : Nat) : Nat := 0x2C0000C + 0x40 * r
/-- spec/22_register_index.md R624 -/
def CMP_SRW_CMD (r : Nat) : Nat := 0x2C00020 + 0x40 * r
/-- spec/22_register_index.md R624 -/
def CMP_SRW_STAT (r : Nat) : Nat := 0x2C00024 + 0x40 * r
/-- spec/22_register_index.md R624 -/
def CMP_SRW_CRC (r : Nat) : Nat := 0x2C00028 + 0x40 * r
/-- spec/22_register_index.md R624 -/
def CMP_SRW_EXP (r k : Nat) : Nat := 0x2C00010 + 0x40 * r + 0x4 * k
/-- spec/12_audio.md R442 -/
def AUD_DEW_CFG (n : Nat) : Nat := 0x200000000 + 0x8 * n
/-- spec/12_audio.md R442 -/
def AUD_DEW_STAT (n : Nat) : Nat := 0x200000004 + 0x8 * n

/-! ## The tables -/

/-- The registers of block PAGE. -/
def regsPAGE : List RegDesc := [
  { base := 0x100003000, stride1 := 0x10000, count1 := 1024, stride2 := 0x10000, count2 := 1
    fields := [(TPG_STAT_STATE, .ro), (TPG_STAT_CLASS, .ro)]
    reset := fun t _ => if t = 0 then 1 else 0 },
  { base := 0x100003004, stride1 := 0x10000, count1 := 1024, stride2 := 0x10000, count2 := 1
    fields := [(TPG_FLR_FLRCNT, .ro)]
    reset := fun _ _ => 0x0 },
  { base := 0x100000000, stride1 := 0x10000, count1 := 1024, stride2 := 0x4, count2 := 16
    fields := [(TPG_DB_INDEX, .wo)]
    reset := fun _ _ => 0x0 },
  { base := 0x100001000, stride1 := 0x10000, count1 := 1024, stride2 := 0x20, count2 := 16
    fields := [(RING_BASE_LO_LOG2SIZE, .rw), (RING_BASE_LO_BASE_LO, .rw)]
    reset := fun _ _ => 0x0 },
  { base := 0x100001004, stride1 := 0x10000, count1 := 1024, stride2 := 0x20, count2 := 16
    fields := [(RING_BASE_HI_BASE_HI, .rw)]
    reset := fun _ _ => 0x0 },
  { base := 0x100001008, stride1 := 0x10000, count1 := 1024, stride2 := 0x20, count2 := 16
    fields := [(RING_CTRL_EN, .rw), (RING_CTRL_VEC, .rw), (RING_CTRL_IEN, .rw)]
    reset := fun _ _ => 0x0 },
  { base := 0x10000100C, stride1 := 0x10000, count1 := 1024, stride2 := 0x20, count2 := 16
    fields := [(RING_MOD_COUNT, .rw), (RING_MOD_TIME, .rw)]
    reset := fun _ _ => 0x1 },
  { base := 0x100001010, stride1 := 0x10000, count1 := 1024, stride2 := 0x20, count2 := 16
    fields := [(RING_HOST_IDX_IDX, .ro)]
    reset := fun _ _ => 0x0 },
  { base := 0x100001014, stride1 := 0x10000, count1 := 1024, stride2 := 0x20, count2 := 16
    fields := [(RING_DEV_IDX_IDX, .ro)]
    reset := fun _ _ => 0x0 },
  { base := 0x100001018, stride1 := 0x10000, count1 := 1024, stride2 := 0x20, count2 := 16
    fields := [(RING_STAT_BADIDX, .w1c), (RING_STAT_CFGREJ, .w1c), (RING_STAT_FULL, .ro), (RING_STAT_DROP, .w1c), (RING_STAT_DROPCNT, .ro)]
    reset := fun _ _ => 0x0 },
  { base := 0x100002000, stride1 := 0x10000, count1 := 1024, stride2 := 0x10, count2 := 16
    fields := [(MSIX_ADDR_LO_ADDR, .rw)]
    reset := fun _ _ => 0x0 },
  { base := 0x100002100, stride1 := 0x10, count1 := 48, stride2 := 0x10, count2 := 1
    fields := [(MSIX_ADDR_LO_ADDR, .rw)]
    reset := fun _ _ => 0x0 },
  { base := 0x100002004, stride1 := 0x10000, count1 := 1024, stride2 := 0x10, count2 := 16
    fields := [(MSIX_ADDR_HI_ADDR, .rw)]
    reset := fun _ _ => 0x0 },
  { base := 0x100002104, stride1 := 0x10, count1 := 48, stride2 := 0x10, count2 := 1
    fields := [(MSIX_ADDR_HI_ADDR, .rw)]
    reset := fun _ _ => 0x0 },
  { base := 0x100002008, stride1 := 0x10000, count1 := 1024, stride2 := 0x10, count2 := 16
    fields := [(MSIX_DATA_DATA, .rw)]
    reset := fun _ _ => 0x0 },
  { base := 0x100002108, stride1 := 0x10, count1 := 48, stride2 := 0x10, count2 := 1
    fields := [(MSIX_DATA_DATA, .rw)]
    reset := fun _ _ => 0x0 },
  { base := 0x10000200C, stride1 := 0x10000, count1 := 1024, stride2 := 0x10, count2 := 16
    fields := [(MSIX_VCTRL_MASK, .rw)]
    reset := fun _ _ => 0x1 },
  { base := 0x10000210C, stride1 := 0x10, count1 := 48, stride2 := 0x10, count2 := 1
    fields := [(MSIX_VCTRL_MASK, .rw)]
    reset := fun _ _ => 0x1 }]

/-- The registers of block HIF. -/
def regsHIF : List RegDesc := [
  { base := 0x101000, stride1 := 0x40, count1 := 64, stride2 := 0x40, count2 := 1
    fields := [(HIF_DMA_CTRL_EN, .rw), (HIF_DMA_CTRL_RESUME, .wo), (HIF_DMA_CTRL_ABORT, .wo), (HIF_DMA_CTRL_BURST, .rw), (HIF_DMA_CTRL_REQSEL, .rw), (HIF_DMA_CTRL_RETRY, .rw), (HIF_DMA_CTRL_IENHALT, .rw)]
    reset := fun _ _ => 0x130030 },
  { base := 0x101004, stride1 := 0x40, count1 := 64, stride2 := 0x40, count2 := 1
    fields := [(HIF_DMA_STAT_STATE, .ro), (HIF_DMA_STAT_CAUSE, .ro), (HIF_DMA_STAT_TRIES, .ro), (HIF_DMA_STAT_PENDREQ, .ro), (HIF_DMA_STAT_REQOVF, .w1c), (HIF_DMA_STAT_DONE, .w1c)]
    reset := fun _ _ => 0x0 },
  { base := 0x101008, stride1 := 0x40, count1 := 64, stride2 := 0x40, count2 := 1
    fields := [(HIF_DMA_RBASE_LO_LOG2SIZE, .rw), (HIF_DMA_RBASE_LO_BASE_LO, .rw)]
    reset := fun _ _ => 0x0 },
  { base := 0x10100C, stride1 := 0x40, count1 := 64, stride2 := 0x40, count2 := 1
    fields := [(HIF_DMA_RBASE_HI_BASE_HI, .rw)]
    reset := fun _ _ => 0x0 },
  { base := 0x101010, stride1 := 0x40, count1 := 64, stride2 := 0x40, count2 := 1
    fields := [(HIF_DMA_PIDX_IDX, .rw)]
    reset := fun _ _ => 0x0 },
  { base := 0x101014, stride1 := 0x40, count1 := 64, stride2 := 0x40, count2 := 1
    fields := [(HIF_DMA_CIDX_IDX, .ro)]
    reset := fun _ _ => 0x0 },
  { base := 0x101018, stride1 := 0x40, count1 := 64, stride2 := 0x40, count2 := 1
    fields := [(HIF_DMA_ERRADDR_LO_ADDR, .ro)]
    reset := fun _ _ => 0x0 },
  { base := 0x10101C, stride1 := 0x40, count1 := 64, stride2 := 0x40, count2 := 1
    fields := [(HIF_DMA_ERRADDR_HI_ADDR, .ro)]
    reset := fun _ _ => 0x0 },
  { base := 0x101020, stride1 := 0x40, count1 := 64, stride2 := 0x40, count2 := 1
    fields := [(HIF_DMA_BYTES_COUNT, .ro)]
    reset := fun _ _ => 0x0 },
  { base := 0x100000, stride1 := 0x4, count1 := 1, stride2 := 0x4, count2 := 1
    fields := [(HIF_ID_ID, .ro)]
    reset := fun _ _ => 0x92160001 },
  { base := 0x100010, stride1 := 0x4, count1 := 1, stride2 := 0x4, count2 := 1
    fields := [(HIF_CMD_AGE_AGE, .rw)]
    reset := fun _ _ => 0x7D0 },
  { base := 0x100014, stride1 := 0x4, count1 := 1, stride2 := 0x4, count2 := 1
    fields := [(HIF_INTN_EN_EN, .rw)]
    reset := fun _ _ => 0x0 }]

/-- The registers of block TEN. -/
def regsTEN : List RegDesc := [
  { base := 0x201000, stride1 := 0x4, count1 := 1024, stride2 := 0x4, count2 := 1
    fields := [(TEN_CFG_STATE, .rw), (TEN_CFG_CLASS, .rw)]
    reset := fun n _ => if n = 0 then 1 else 0 },
  { base := 0x200010, stride1 := 0x4, count1 := 1, stride2 := 0x4, count2 := 1
    fields := [(TEN_GRANT_OBJ_FIRST, .rw), (TEN_GRANT_OBJ_COUNT, .rw)]
    reset := fun _ _ => 0x0 },
  { base := 0x200014, stride1 := 0x4, count1 := 1, stride2 := 0x4, count2 := 1
    fields := [(TEN_GRANT_CMD_KIND, .rw), (TEN_GRANT_CMD_OP, .rw), (TEN_GRANT_CMD_TENANT, .rw), (TEN_GRANT_CMD_GO, .wo)]
    reset := fun _ _ => 0x0 },
  { base := 0x200018, stride1 := 0x4, count1 := 1, stride2 := 0x4, count2 := 1
    fields := [(TEN_GRANT_STAT_BUSY, .ro), (TEN_GRANT_STAT_OVR, .ro), (TEN_GRANT_STAT_RESULT, .ro), (TEN_GRANT_STAT_FAIL, .ro)]
    reset := fun _ _ => 0x0 },
  { base := 0x200000, stride1 := 0x4, count1 := 1, stride2 := 0x4, count2 := 1
    fields := [(TEN_ID_ID, .ro)]
    reset := fun _ _ => 0x92160001 },
  { base := 0x204000, stride1 := 0x20, count1 := 1024, stride2 := 0x4, count2 := 5
    fields := [(TEN_RSV_VALUE, .rw)]
    reset := fun _ _ => 0x0 },
  { base := 0x224000, stride1 := 0x20, count1 := 1024, stride2 := 0x4, count2 := 5
    fields := [(TEN_USE_VALUE, .ro)]
    reset := fun _ _ => 0x0 },
  { base := 0x200040, stride1 := 0x4, count1 := 5, stride2 := 0x4, count2 := 1
    fields := [(TEN_CAP_VALUE, .ro)]
    reset := fun c _ => if c = 0 then 512 else if c = 2 then 1776 else if c = 3 then 32000 else if c = 4 then 40960 else 0 },
  { base := 0x20001C, stride1 := 0x4, count1 := 1, stride2 := 0x4, count2 := 1
    fields := [(TEN_ERR_CFGREJ, .w1c), (TEN_ERR_RSVREJ, .w1c)]
    reset := fun _ _ => 0x0 }]

/-- The registers of block XPT. -/
def regsXPT : List RegDesc := [
  { base := 0x400000, stride1 := 0x4, count1 := 1, stride2 := 0x4, count2 := 1
    fields := [(XPT_ID_ID, .ro)]
    reset := fun _ _ => 0x92160001 },
  { base := 0x400004, stride1 := 0x4, count1 := 1, stride2 := 0x4, count2 := 1
    fields := [(XPT_CTRL_ROTEN, .rw), (XPT_CTRL_FORCEROT, .wo), (XPT_CTRL_CLRCNT, .wo), (XPT_CTRL_AUTORETIRE, .rwL), (XPT_CTRL_ROTPER, .rw)]
    reset := fun _ _ => 0xA09 },
  { base := 0x400008, stride1 := 0x4, count1 := 1, stride2 := 0x4, count2 := 1
    fields := [(XPT_PLANE_STAT_TESTPL, .ro), (XPT_PLANE_STAT_TESTDONE, .ro), (XPT_PLANE_STAT_TESTPASS, .ro), (XPT_PLANE_STAT_HEALTHY, .ro), (XPT_PLANE_STAT_ROTSTOP, .ro), (XPT_PLANE_STAT_PROT, .ro)]
    reset := fun _ _ => 0x1110 },
  { base := 0x40000C, stride1 := 0x4, count1 := 1, stride2 := 0x4, count2 := 1
    fields := [(XPT_RETIRED_PLANES, .ro)]
    reset := fun _ _ => 0x0 },
  { base := 0x400010, stride1 := 0x4, count1 := 1, stride2 := 0x4, count2 := 1
    fields := [(XPT_RETIRE_CMD_PLANE, .rw), (XPT_RETIRE_CMD_GO, .wo)]
    reset := fun _ _ => 0x0 },
  { base := 0x400014, stride1 := 0x4, count1 := 1, stride2 := 0x4, count2 := 1
    fields := [(XPT_ERR_RETREJ, .w1c)]
    reset := fun _ _ => 0x0 },
  { base := 0x400040, stride1 := 0x4, count1 := 16, stride2 := 0x4, count2 := 1
    fields := [(XPT_PMAP_PLANE, .ro)]
    reset := fun i _ => BitVec.ofNat 32 i },
  { base := 0x400080, stride1 := 0x4, count1 := 1, stride2 := 0x4, count2 := 1
    fields := [(XPT_RT_IDX_DST, .rw)]
    reset := fun _ _ => 0x0 },
  { base := 0x400084, stride1 := 0x4, count1 := 1, stride2 := 0x4, count2 := 1
    fields := [(XPT_RT_DATA_SRC, .ro), (XPT_RT_DATA_WIDTH, .ro), (XPT_RT_DATA_ROUTED, .ro), (XPT_RT_DATA_FALLOW, .ro), (XPT_RT_DATA_PSRC, .ro), (XPT_RT_DATA_PEND, .ro), (XPT_RT_DATA_PUNROUTE, .ro), (XPT_RT_DATA_HELD, .ro)]
    reset := fun _ _ => 0x0 },
  { base := 0x400088, stride1 := 0x4, count1 := 1, stride2 := 0x4, count2 := 1
    fields := [(XPT_RT_EPOCH_EPOCH, .ro)]
    reset := fun _ _ => 0x0 },
  { base := 0x400090, stride1 := 0x4, count1 := 1, stride2 := 0x4, count2 := 1
    fields := [(XPT_SU_IDX_SRC, .rw)]
    reset := fun _ _ => 0x0 },
  { base := 0x400094, stride1 := 0x4, count1 := 1, stride2 := 0x4, count2 := 1
    fields := [(XPT_SU_DATA_FANOUT, .ro)]
    reset := fun _ _ => 0x0 },
  { base := 0x4000A0, stride1 := 0x4, count1 := 1, stride2 := 0x4, count2 := 1
    fields := [(XPT_EPDISC_COUNT, .ro)]
    reset := fun _ _ => 0x0 },
  { base := 0x4000A4, stride1 := 0x4, count1 := 1, stride2 := 0x4, count2 := 1
    fields := [(XPT_UNCORR_COUNT, .ro)]
    reset := fun _ _ => 0x0 },
  { base := 0x4000A8, stride1 := 0x4, count1 := 1, stride2 := 0x4, count2 := 1
    fields := [(XPT_ROTCNT_COUNT, .ro)]
    reset := fun _ _ => 0x0 },
  { base := 0x4000AC, stride1 := 0x4, count1 := 1, stride2 := 0x4, count2 := 1
    fields := [(XPT_RTFIX_COUNT, .ro)]
    reset := fun _ _ => 0x0 },
  { base := 0x400100, stride1 := 0x4, count1 := 17, stride2 := 0x4, count2 := 1
    fields := [(XPT_PLCNT_COUNT, .ro)]
    reset := fun _ _ => 0x0 }]

/-- The registers of block FSA. -/
def regsFSA : List RegDesc := [
  { base := 0x600000, stride1 := 0x4, count1 := 1, stride2 := 0x4, count2 := 1
    fields := [(FSA_ID_ID, .ro)]
    reset := fun _ _ => 0x92160001 },
  { base := 0x600004, stride1 := 0x4, count1 := 1, stride2 := 0x4, count2 := 1
    fields := [(FSA_CTRL_CONCEAL, .rw), (FSA_CTRL_CONCMAX, .rw), (FSA_CTRL_AUTOPROMO, .rwL), (FSA_CTRL_CLRCNT, .wo), (FSA_CTRL_HOLDFR, .rw)]
    reset := fun _ _ => 0x31 },
  { base := 0x600008, stride1 := 0x4, count1 := 1, stride2 := 0x4, count2 := 1
    fields := [(FSA_PHASE_AOFS_HD, .rwL), (FSA_PHASE_AOFS_UHD, .rwL), (FSA_PHASE_OUTLEAD, .rwL), (FSA_PHASE_HOP, .rwL)]
    reset := fun _ _ => 0xC80410 },
  { base := 0x60000C, stride1 := 0x4, count1 := 1, stride2 := 0x4, count2 := 1
    fields := [(FSA_MEMCFG_AGE, .rw)]
    reset := fun _ _ => 0x7D0 },
  { base := 0x600010, stride1 := 0x4, count1 := 1, stride2 := 0x4, count2 := 1
    fields := [(FSA_MEMSTAT_STK0, .ro), (FSA_MEMSTAT_STK1, .ro), (FSA_MEMSTAT_DEGRADED, .ro)]
    reset := fun _ _ => 0x3 },
  { base := 0x600014, stride1 := 0x4, count1 := 1, stride2 := 0x4, count2 := 1
    fields := [(FSA_POOL_USED, .ro), (FSA_POOL_TOTAL, .ro)]
    reset := fun _ _ => 0x2000000 },
  { base := 0x600080, stride1 := 0x4, count1 := 1, stride2 := 0x4, count2 := 1
    fields := [(FSA_AL_IDX_SRC, .rw)]
    reset := fun _ _ => 0x0 },
  { base := 0x600084, stride1 := 0x4, count1 := 1, stride2 := 0x4, count2 := 1
    fields := [(FSA_AL_STAT_MODE, .ro), (FSA_AL_STAT_HOPS, .ro), (FSA_AL_STAT_PASS, .ro), (FSA_AL_STAT_DELAY, .ro)]
    reset := fun _ _ => 0x0 },
  { base := 0x600088, stride1 := 0x4, count1 := 1, stride2 := 0x4, count2 := 1
    fields := [(FSA_AL_SYNC_SYNC, .ro), (FSA_AL_SYNC_HOLDER, .ro), (FSA_AL_SYNC_UNITS, .ro)]
    reset := fun _ _ => 0x3FF },
  { base := 0x600090, stride1 := 0x4, count1 := 1, stride2 := 0x4, count2 := 1
    fields := [(FSA_DL_IDX_DST, .rw)]
    reset := fun _ _ => 0x0 },
  { base := 0x600094, stride1 := 0x4, count1 := 1, stride2 := 0x4, count2 := 1
    fields := [(FSA_DL_DATA_LEAD, .rwL), (FSA_DL_DATA_OVR, .rwL)]
    reset := fun _ _ => 0x0 },
  { base := 0x6000A0, stride1 := 0x4, count1 := 1, stride2 := 0x4, count2 := 1
    fields := [(FSA_EPDISC_COUNT, .ro)]
    reset := fun _ _ => 0x0 },
  { base := 0x6000A4, stride1 := 0x4, count1 := 1, stride2 := 0x4, count2 := 1
    fields := [(FSA_REPEAT_COUNT, .ro)]
    reset := fun _ _ => 0x0 },
  { base := 0x6000A8, stride1 := 0x4, count1 := 1, stride2 := 0x4, count2 := 1
    fields := [(FSA_DROP_COUNT, .ro)]
    reset := fun _ _ => 0x0 },
  { base := 0x6000AC, stride1 := 0x4, count1 := 1, stride2 := 0x4, count2 := 1
    fields := [(FSA_CONCEAL_COUNT, .ro)]
    reset := fun _ _ => 0x0 },
  { base := 0x6000B0, stride1 := 0x4, count1 := 1, stride2 := 0x4, count2 := 1
    fields := [(FSA_LEADMISS_COUNT, .ro)]
    reset := fun _ _ => 0x0 },
  { base := 0x6000B4, stride1 := 0x4, count1 := 1, stride2 := 0x4, count2 := 1
    fields := [(FSA_AGED_COUNT, .ro)]
    reset := fun _ _ => 0x0 },
  { base := 0x6000B8, stride1 := 0x4, count1 := 1, stride2 := 0x4, count2 := 1
    fields := [(FSA_ECCFIX_COUNT, .ro)]
    reset := fun _ _ => 0x0 },
  { base := 0x6000BC, stride1 := 0x4, count1 := 1, stride2 := 0x4, count2 := 1
    fields := [(FSA_ECCUNC_COUNT, .ro)]
    reset := fun _ _ => 0x0 },
  { base := 0x6000C0, stride1 := 0x4, count1 := 1, stride2 := 0x4, count2 := 1
    fields := [(FSA_PROMO_COUNT, .ro)]
    reset := fun _ _ => 0x0 },
  { base := 0x6000C4, stride1 := 0x4, count1 := 1, stride2 := 0x4, count2 := 1
    fields := [(FSA_SEDGEERR_COUNT, .ro)]
    reset := fun _ _ => 0x0 }]

/-- The registers of block CMP. -/
def regsCMP : List RegDesc := [
  { base := 0x800000, stride1 := 0x4, count1 := 1, stride2 := 0x4, count2 := 1
    fields := [(CMP_ID_ID, .ro)]
    reset := fun _ _ => 0x92160001 },
  { base := 0x800004, stride1 := 0x4, count1 := 1, stride2 := 0x4, count2 := 1
    fields := [(CMP_CTRL_CLRCNT, .wo)]
    reset := fun _ _ => 0x0 },
  { base := 0x800008, stride1 := 0x4, count1 := 1, stride2 := 0x4, count2 := 1
    fields := [(CMP_TM_TMPEAK, .rwL), (CMP_TM_KNEE, .rwL)]
    reset := fun _ _ => 0xCD03E8 },
  { base := 0x80000C, stride1 := 0x4, count1 := 1, stride2 := 0x4, count2 := 1
    fields := [(CMP_TMREF_REFWHITE, .rwL), (CMP_TMREF_HLGPEAK, .rwL)]
    reset := fun _ _ => 0x3E800CB },
  { base := 0x800010, stride1 := 0x4, count1 := 1, stride2 := 0x4, count2 := 1
    fields := [(CMP_LKEY_CLIP, .rw), (CMP_LKEY_GAIN, .rw)]
    reset := fun _ _ => 0x130040 },
  { base := 0x800020, stride1 := 0x4, count1 := 1, stride2 := 0x4, count2 := 1
    fields := [(CMP_EN_IDX_ENGINE, .rw)]
    reset := fun _ _ => 0x0 },
  { base := 0x800024, stride1 := 0x4, count1 := 1, stride2 := 0x4, count2 := 1
    fields := [(CMP_EN_STAT_LOAD, .ro), (CMP_EN_STAT_CANVASES, .ro)]
    reset := fun _ _ => 0x0 },
  { base := 0x800030, stride1 := 0x4, count1 := 1, stride2 := 0x4, count2 := 1
    fields := [(CMP_CV_IDX_CANVAS, .rw)]
    reset := fun _ _ => 0x0 },
  { base := 0x800034, stride1 := 0x4, count1 := 1, stride2 := 0x4, count2 := 1
    fields := [(CMP_CV_STAT_DEFINED, .ro), (CMP_CV_STAT_ENGINE, .ro), (CMP_CV_STAT_MIGRATING, .ro), (CMP_CV_STAT_SUBST, .ro), (CMP_CV_STAT_LAYERS, .ro), (CMP_CV_STAT_EPOCH, .ro)]
    reset := fun _ _ => 0x0 },
  { base := 0x800038, stride1 := 0x4, count1 := 1, stride2 := 0x4, count2 := 1
    fields := [(CMP_CV_LOAD_PIX, .ro), (CMP_CV_LOAD_MEMBW, .ro)]
    reset := fun _ _ => 0x0 },
  { base := 0x80003C, stride1 := 0x4, count1 := 1, stride2 := 0x4, count2 := 1
    fields := [(CMP_CV_SURF_SURF, .ro)]
    reset := fun _ _ => 0x0 },
  { base := 0x800040, stride1 := 0x4, count1 := 1, stride2 := 0x4, count2 := 1
    fields := [(CMP_SR_IDX_REGION, .rw)]
    reset := fun _ _ => 0x0 },
  { base := 0x800044, stride1 := 0x4, count1 := 1, stride2 := 0x4, count2 := 1
    fields := [(CMP_SR_CFG_EN, .rw), (CMP_SR_CFG_MODE, .rw), (CMP_SR_CFG_LOCK, .wonce), (CMP_SR_CFG_CANVAS, .rw), (CMP_SR_CFG_MISS, .rw), (CMP_SR_CFG_RESTORE, .rw)]
    reset := fun _ _ => 0x30000 },
  { base := 0x800048, stride1 := 0x4, count1 := 1, stride2 := 0x4, count2 := 1
    fields := [(CMP_SR_POS_X, .rw), (CMP_SR_POS_Y, .rw)]
    reset := fun _ _ => 0x0 },
  { base := 0x80004C, stride1 := 0x4, count1 := 1, stride2 := 0x4, count2 := 1
    fields := [(CMP_SR_SIZE_W, .rw), (CMP_SR_SIZE_H, .rw)]
    reset := fun _ _ => 0x0 },
  { base := 0x800050, stride1 := 0x4, count1 := 1, stride2 := 0x4, count2 := 1
    fields := [(CMP_SR_STILL_STILL, .rw), (CMP_SR_STILL_EXPN, .rw)]
    reset := fun _ _ => 0x0 },
  { base := 0x800054, stride1 := 0x4, count1 := 4, stride2 := 0x4, count2 := 1
    fields := [(CMP_SR_EXP_CRC, .rw)]
    reset := fun _ _ => 0x0 },
  { base := 0x800064, stride1 := 0x4, count1 := 1, stride2 := 0x4, count2 := 1
    fields := [(CMP_SR_CMD_LEARN, .wo), (CMP_SR_CMD_LSLOT, .wo), (CMP_SR_CMD_CLEAR, .wo)]
    reset := fun _ _ => 0x0 },
  { base := 0x800068, stride1 := 0x4, count1 := 1, stride2 := 0x4, count2 := 1
    fields := [(CMP_SR_STAT_STATE, .ro), (CMP_SR_STAT_RUN, .ro)]
    reset := fun _ _ => 0x0 },
  { base := 0x80006C, stride1 := 0x4, count1 := 1, stride2 := 0x4, count2 := 1
    fields := [(CMP_SR_CRC_LAST, .ro)]
    reset := fun _ _ => 0x0 },
  { base := 0x8000A0, stride1 := 0x4, count1 := 1, stride2 := 0x4, count2 := 1
    fields := [(CMP_EPDISC_COUNT, .ro)]
    reset := fun _ _ => 0x0 },
  { base := 0x8000A4, stride1 := 0x4, count1 := 1, stride2 := 0x4, count2 := 1
    fields := [(CMP_OVERRUN_COUNT, .ro)]
    reset := fun _ _ => 0x0 },
  { base := 0x8000A8, stride1 := 0x4, count1 := 1, stride2 := 0x4, count2 := 1
    fields := [(CMP_SIGMISS_COUNT, .ro)]
    reset := fun _ _ => 0x0 },
  { base := 0x8000AC, stride1 := 0x4, count1 := 1, stride2 := 0x4, count2 := 1
    fields := [(CMP_SUBST_COUNT, .ro)]
    reset := fun _ _ => 0x0 },
  { base := 0x8000B0, stride1 := 0x4, count1 := 1, stride2 := 0x4, count2 := 1
    fields := [(CMP_SLICELATE_COUNT, .ro)]
    reset := fun _ _ => 0x0 }]

/-- The registers of block MLN. -/
def regsMLN : List RegDesc := [
  { base := 0xA00000, stride1 := 0x400, count1 := 256, stride2 := 0x400, count2 := 1
    fields := [(ML_CTRL_MODE, .rw), (ML_CTRL_RXEN, .rw), (ML_CTRL_TXEN, .rw), (ML_CTRL_BOND, .rw), (ML_CTRL_LEVELB, .rw), (ML_CTRL_RXRATE, .rw)]
    reset := fun _ _ => 0x0 },
  { base := 0xA00004, stride1 := 0x400, count1 := 256, stride2 := 0x400, count2 := 1
    fields := [(ML_TXFMT_RASTER, .rw), (ML_TXFMT_RATE, .rw), (ML_TXFMT_B6, .rw), (ML_TXFMT_B7, .rw)]
    reset := fun _ _ => 0x0 },
  { base := 0xA00008, stride1 := 0x400, count1 := 256, stride2 := 0x400, count2 := 1
    fields := [(ML_TXCFG_SWING, .rw), (ML_TXCFG_DEEMPH, .rw), (ML_TXCFG_TXPOL, .rw)]
    reset := fun _ _ => 0x3 },
  { base := 0xA0000C, stride1 := 0x400, count1 := 256, stride2 := 0x400, count2 := 1
    fields := [(ML_RXCFG_PEAK, .rw), (ML_RXCFG_ADAPT, .rw), (ML_RXCFG_LOSTHR, .rw), (ML_RXCFG_RXPOL, .rw)]
    reset := fun _ _ => 0x150 },
  { base := 0xA00010, stride1 := 0x400, count1 := 256, stride2 := 0x400, count2 := 1
    fields := [(ML_RXDEF_SAMPLING, .rw), (ML_RXDEF_TRANSFER, .rw), (ML_RXDEF_COLOUR, .rw)]
    reset := fun _ _ => 0x0 },
  { base := 0xA00020, stride1 := 0x400, count1 := 256, stride2 := 0x400, count2 := 1
    fields := [(ML_STAT_LOS, .ro), (ML_STAT_LOCK, .ro), (ML_STAT_FRAMED, .ro), (ML_STAT_PIDOK, .ro), (ML_STAT_PARTNER, .ro), (ML_STAT_TXIDLE, .ro), (ML_STAT_LEVELBIN, .ro), (ML_STAT_HOLD, .ro), (ML_STAT_RATE, .ro), (ML_STAT_EQVAL, .ro)]
    reset := fun _ _ => 0x21 },
  { base := 0xA00024, stride1 := 0x400, count1 := 256, stride2 := 0x400, count2 := 1
    fields := [(ML_HIST_LOS, .w1c), (ML_HIST_LOL, .w1c), (ML_HIST_LOLSHORT, .w1c), (ML_HIST_CRC, .w1c), (ML_HIST_EDH, .w1c), (ML_HIST_PIDMIS, .w1c), (ML_HIST_PIDUNS, .w1c), (ML_HIST_SKEW, .w1c), (ML_HIST_EQLIMIT, .w1c), (ML_HIST_TXFIFO, .w1c), (ML_HIST_CFGREJ, .w1c), (ML_HIST_FMTCHG, .w1c)]
    reset := fun _ _ => 0x0 },
  { base := 0xA00028, stride1 := 0x400, count1 := 256, stride2 := 0x400, count2 := 1
    fields := [(ML_HDGEN_EN, .rw)]
    reset := fun _ _ => 0xFFF },
  { base := 0xA00030, stride1 := 0x400, count1 := 256, stride2 := 0x400, count2 := 1
    fields := [(ML_DET_DESC, .ro)]
    reset := fun _ _ => 0x0 },
  { base := 0xA00034, stride1 := 0x400, count1 := 256, stride2 := 0x400, count2 := 1
    fields := [(ML_DETPID_PID, .ro)]
    reset := fun _ _ => 0x0 },
  { base := 0xA00038, stride1 := 0x400, count1 := 256, stride2 := 0x400, count2 := 1
    fields := [(ML_SKEW_NS, .ro)]
    reset := fun _ _ => 0x0 },
  { base := 0xA00040, stride1 := 0x400, count1 := 256, stride2 := 0x400, count2 := 1
    fields := [(ML_CRCLN_COUNT, .ro)]
    reset := fun _ _ => 0x0 },
  { base := 0xA00044, stride1 := 0x400, count1 := 256, stride2 := 0x400, count2 := 1
    fields := [(ML_EDHFLD_COUNT, .ro)]
    reset := fun _ _ => 0x0 },
  { base := 0xA00048, stride1 := 0x400, count1 := 256, stride2 := 0x400, count2 := 1
    fields := [(ML_FILLLN_COUNT, .ro)]
    reset := fun _ _ => 0x0 },
  { base := 0xA0004C, stride1 := 0x400, count1 := 256, stride2 := 0x400, count2 := 1
    fields := [(ML_ERRFRM_COUNT, .ro)]
    reset := fun _ _ => 0x0 },
  { base := 0xA00050, stride1 := 0x400, count1 := 256, stride2 := 0x400, count2 := 1
    fields := [(ML_LOLCNT_COUNT, .ro)]
    reset := fun _ _ => 0x0 },
  { base := 0xA00054, stride1 := 0x400, count1 := 256, stride2 := 0x400, count2 := 1
    fields := [(ML_LOSCNT_COUNT, .ro)]
    reset := fun _ _ => 0x0 },
  { base := 0xA00058, stride1 := 0x400, count1 := 256, stride2 := 0x400, count2 := 1
    fields := [(ML_PIDERR_COUNT, .ro)]
    reset := fun _ _ => 0x0 },
  { base := 0xA40000, stride1 := 0x4, count1 := 1, stride2 := 0x4, count2 := 1
    fields := [(MLN_ID_ID, .ro)]
    reset := fun _ _ => 0x92160001 },
  { base := 0xA40004, stride1 := 0x4, count1 := 1, stride2 := 0x4, count2 := 1
    fields := [(MLN_CTRL_CLRCNT, .wo), (MLN_CTRL_LOLHOLD, .rw)]
    reset := fun _ _ => 0x200 },
  { base := 0xA40008, stride1 := 0x4, count1 := 1, stride2 := 0x4, count2 := 1
    fields := [(MLN_GRPSTAT_LOCKED, .ro)]
    reset := fun _ _ => 0x0 },
  { base := 0xA40010, stride1 := 0x4, count1 := 8, stride2 := 0x4, count2 := 1
    fields := [(MLN_HISTSUM_LANES, .ro)]
    reset := fun _ _ => 0x0 }]

/-- The registers of block MAC. -/
def regsMAC : List RegDesc := [
  -- MPp_CFG of the even ports, and of the odd ones, where WIDE and QUAD are reserved (R330)
  { base := 0xC01000, stride1 := 0x200, count1 := 32, stride2 := 0x200, count2 := 1
    fields := [(MP_CFG_EN, .rw), (MP_CFG_WIDE, .rw), (MP_CFG_QUAD, .rw), (MP_CFG_LANE, .rw), (MP_CFG_FEC, .rw), (MP_CFG_AN, .rw), (MP_CFG_PREEN, .rw), (MP_CFG_VERIFY, .rw), (MP_CFG_ADDFRAG, .rw), (MP_CFG_HOLDEN, .rw), (MP_CFG_CUTTHRU, .rw), (MP_CFG_WAKEEN, .rw), (MP_CFG_TBSEL, .rw)]
    reset := fun _ _ => 0x6600 },
  { base := 0xC01100, stride1 := 0x200, count1 := 32, stride2 := 0x200, count2 := 1
    fields := [(MP_CFG_EN, .rw), (MP_CFG_LANE, .rw), (MP_CFG_FEC, .rw), (MP_CFG_AN, .rw), (MP_CFG_PREEN, .rw), (MP_CFG_VERIFY, .rw), (MP_CFG_ADDFRAG, .rw), (MP_CFG_HOLDEN, .rw), (MP_CFG_CUTTHRU, .rw), (MP_CFG_WAKEEN, .rw), (MP_CFG_TBSEL, .rw)]
    reset := fun _ _ => 0x6600 },
  { base := 0xC01004, stride1 := 0x100, count1 := 64, stride2 := 0x100, count2 := 1
    fields := [(MP_MAXLEN_MAXLEN, .rw)]
    reset := fun _ _ => 0x5F2 },
  { base := 0xC01008, stride1 := 0x100, count1 := 64, stride2 := 0x100, count2 := 1
    fields := [(MP_STARTTH_STARTTH, .rw), (MP_STARTTH_STEP, .rw)]
    reset := fun _ _ => 0x40100 },
  { base := 0xC0100C, stride1 := 0x100, count1 := 64, stride2 := 0x100, count2 := 1
    fields := [(MP_ADDR_LO_ADDR, .rw)]
    reset := fun _ _ => 0x0 },
  { base := 0xC01010, stride1 := 0x100, count1 := 64, stride2 := 0x100, count2 := 1
    fields := [(MP_ADDR_HI_ADDR, .rw)]
    reset := fun _ _ => 0x0 },
  { base := 0xC01014, stride1 := 0x100, count1 := 64, stride2 := 0x100, count2 := 1
    fields := [(MP_HOLDADV_NS, .rw)]
    reset := fun _ _ => 0x1F4 },
  { base := 0xC01018, stride1 := 0x100, count1 := 64, stride2 := 0x100, count2 := 1
    fields := [(MP_WAKE_WAKEETYPE, .rw)]
    reset := fun _ _ => 0x88B5 },
  { base := 0xC0101C, stride1 := 0x100, count1 := 64, stride2 := 0x100, count2 := 1
    fields := [(MP_WAKEID_ID, .rw)]
    reset := fun _ _ => 0x0 },
  { base := 0xC01020, stride1 := 0x100, count1 := 64, stride2 := 0x100, count2 := 1
    fields := [(MP_STAT_LINK, .ro), (MP_STAT_ALIGN, .ro), (MP_STAT_SPEED, .ro), (MP_STAT_VERST, .ro), (MP_STAT_HOLD, .ro), (MP_STAT_FECRES, .ro)]
    reset := fun _ _ => 0x0 },
  { base := 0xC01024, stride1 := 0x100, count1 := 64, stride2 := 0x100, count2 := 1
    fields := [(MP_HIST_LINKDN, .w1c), (MP_HIST_FCS, .w1c), (MP_HIST_RUNT, .w1c), (MP_HIST_OVERSIZE, .w1c), (MP_HIST_REASM, .w1c), (MP_HIST_UNDERRUN, .w1c), (MP_HIST_VERFAIL, .w1c), (MP_HIST_FECUNC, .w1c), (MP_HIST_CFGREJ, .w1c), (MP_HIST_RXOVF, .w1c), (MP_HIST_WAKE, .w1c)]
    reset := fun _ _ => 0x0 },
  { base := 0xC00000, stride1 := 0x4, count1 := 1, stride2 := 0x4, count2 := 1
    fields := [(MAC_ID_ID, .ro)]
    reset := fun _ _ => 0x92160001 },
  { base := 0xC00004, stride1 := 0x4, count1 := 1, stride2 := 0x4, count2 := 1
    fields := [(MAC_CTRL_CLRCNT, .wo)]
    reset := fun _ _ => 0x0 },
  { base := 0xC00008, stride1 := 0x4, count1 := 1, stride2 := 0x4, count2 := 1
    fields := [(MAC_WAKESTAT_PORT, .ro), (MAC_WAKESTAT_VALID, .w1c)]
    reset := fun _ _ => 0x0 },
  { base := 0xC00010, stride1 := 0x4, count1 := 1, stride2 := 0x4, count2 := 1
    fields := [(MAC_SNAP_PORT, .rw)]
    reset := fun _ _ => 0x0 },
  { base := 0xC00100, stride1 := 0x4, count1 := 1, stride2 := 0x4, count2 := 1
    fields := [(MAC_RXFRM_COUNT, .ro)]
    reset := fun _ _ => 0x0 },
  { base := 0xC00104, stride1 := 0x4, count1 := 1, stride2 := 0x4, count2 := 1
    fields := [(MAC_RXOCT_LO_COUNT, .ro)]
    reset := fun _ _ => 0x0 },
  { base := 0xC00108, stride1 := 0x4, count1 := 1, stride2 := 0x4, count2 := 1
    fields := [(MAC_RXOCT_HI_COUNT, .ro)]
    reset := fun _ _ => 0x0 },
  { base := 0xC0010C, stride1 := 0x4, count1 := 1, stride2 := 0x4, count2 := 1
    fields := [(MAC_RXFCS_COUNT, .ro)]
    reset := fun _ _ => 0x0 },
  { base := 0xC00110, stride1 := 0x4, count1 := 1, stride2 := 0x4, count2 := 1
    fields := [(MAC_RXRUNT_COUNT, .ro)]
    reset := fun _ _ => 0x0 },
  { base := 0xC00114, stride1 := 0x4, count1 := 1, stride2 := 0x4, count2 := 1
    fields := [(MAC_RXOVR_COUNT, .ro)]
    reset := fun _ _ => 0x0 },
  { base := 0xC00118, stride1 := 0x4, count1 := 1, stride2 := 0x4, count2 := 1
    fields := [(MAC_RXREASM_COUNT, .ro)]
    reset := fun _ _ => 0x0 },
  { base := 0xC0011C, stride1 := 0x4, count1 := 1, stride2 := 0x4, count2 := 1
    fields := [(MAC_RXDROP_COUNT, .ro)]
    reset := fun _ _ => 0x0 },
  { base := 0xC00120, stride1 := 0x4, count1 := 1, stride2 := 0x4, count2 := 1
    fields := [(MAC_RXEXP_COUNT, .ro)]
    reset := fun _ _ => 0x0 },
  { base := 0xC00124, stride1 := 0x4, count1 := 1, stride2 := 0x4, count2 := 1
    fields := [(MAC_TXFRM_COUNT, .ro)]
    reset := fun _ _ => 0x0 },
  { base := 0xC00128, stride1 := 0x4, count1 := 1, stride2 := 0x4, count2 := 1
    fields := [(MAC_TXOCT_LO_COUNT, .ro)]
    reset := fun _ _ => 0x0 },
  { base := 0xC0012C, stride1 := 0x4, count1 := 1, stride2 := 0x4, count2 := 1
    fields := [(MAC_TXOCT_HI_COUNT, .ro)]
    reset := fun _ _ => 0x0 },
  { base := 0xC00130, stride1 := 0x4, count1 := 1, stride2 := 0x4, count2 := 1
    fields := [(MAC_TXEXP_COUNT, .ro)]
    reset := fun _ _ => 0x0 },
  { base := 0xC00134, stride1 := 0x4, count1 := 1, stride2 := 0x4, count2 := 1
    fields := [(MAC_TXPRE_COUNT, .ro)]
    reset := fun _ _ => 0x0 },
  { base := 0xC00138, stride1 := 0x4, count1 := 1, stride2 := 0x4, count2 := 1
    fields := [(MAC_TXUNDER_COUNT, .ro)]
    reset := fun _ _ => 0x0 },
  { base := 0xC0013C, stride1 := 0x4, count1 := 1, stride2 := 0x4, count2 := 1
    fields := [(MAC_TXDISC_COUNT, .ro)]
    reset := fun _ _ => 0x0 },
  { base := 0xC00140, stride1 := 0x4, count1 := 1, stride2 := 0x4, count2 := 1
    fields := [(MAC_FECCOR_COUNT, .ro)]
    reset := fun _ _ => 0x0 },
  { base := 0xC00144, stride1 := 0x4, count1 := 1, stride2 := 0x4, count2 := 1
    fields := [(MAC_FECUNC_COUNT, .ro)]
    reset := fun _ _ => 0x0 }]

/-- The registers of block ESS. -/
def regsESS : List RegDesc := [
  { base := 0xD00000, stride1 := 0x4, count1 := 1, stride2 := 0x4, count2 := 1
    fields := [(ESS_ID_ID, .ro)]
    reset := fun _ _ => 0x92160001 },
  { base := 0xD00004, stride1 := 0x4, count1 := 1, stride2 := 0x4, count2 := 1
    fields := [(ESS_CTRL_CLRCNT, .wo)]
    reset := fun _ _ => 0x0 },
  { base := 0xD00010, stride1 := 0x4, count1 := 1, stride2 := 0x4, count2 := 1
    fields := [(ESS_RXBUF_USED, .ro), (ESS_RXBUF_TOTAL, .ro)]
    reset := fun _ _ => 0x1800000 },
  { base := 0xD00014, stride1 := 0x4, count1 := 1, stride2 := 0x4, count2 := 1
    fields := [(ESS_RXBW_USED, .ro), (ESS_RXBW_TOTAL, .ro)]
    reset := fun _ _ => 0x960000 },
  { base := 0xD00080, stride1 := 0x4, count1 := 1, stride2 := 0x4, count2 := 1
    fields := [(ESS_FR_IDX_FLOW, .rw)]
    reset := fun _ _ => 0x0 },
  { base := 0xD00084, stride1 := 0x4, count1 := 1, stride2 := 0x4, count2 := 1
    fields := [(ESS_FR_STAT_EN, .ro), (ESS_FR_STAT_DUAL, .ro), (ESS_FR_STAT_LEGA, .ro), (ESS_FR_STAT_LEGB, .ro), (ESS_FR_STAT_LOST, .ro), (ESS_FR_STAT_JOINED, .ro), (ESS_FR_STAT_EPOCH, .ro)]
    reset := fun _ _ => 0x0 },
  { base := 0xD00088, stride1 := 0x4, count1 := 1, stride2 := 0x4, count2 := 1
    fields := [(ESS_FR_PKT_COUNT, .ro)]
    reset := fun _ _ => 0x0 },
  { base := 0xD0008C, stride1 := 0x4, count1 := 1, stride2 := 0x4, count2 := 1
    fields := [(ESS_FR_MIS_COUNT, .ro)]
    reset := fun _ _ => 0x0 },
  { base := 0xD00090, stride1 := 0x4, count1 := 1, stride2 := 0x4, count2 := 1
    fields := [(ESS_FT_IDX_FLOW, .rw)]
    reset := fun _ _ => 0x0 },
  { base := 0xD00094, stride1 := 0x4, count1 := 1, stride2 := 0x4, count2 := 1
    fields := [(ESS_FT_STAT_EN, .ro), (ESS_FT_STAT_DUAL, .ro), (ESS_FT_STAT_SLICE, .ro), (ESS_FT_STAT_PORTA, .ro), (ESS_FT_STAT_PORTB, .ro)]
    reset := fun _ _ => 0x0 },
  { base := 0xD00098, stride1 := 0x4, count1 := 1, stride2 := 0x4, count2 := 1
    fields := [(ESS_FT_SEQ_SEQ, .ro)]
    reset := fun _ _ => 0x0 },
  { base := 0xD0009C, stride1 := 0x4, count1 := 1, stride2 := 0x4, count2 := 1
    fields := [(ESS_FT_PKT_COUNT, .ro)]
    reset := fun _ _ => 0x0 },
  { base := 0xD000A0, stride1 := 0x4, count1 := 1, stride2 := 0x4, count2 := 1
    fields := [(ESS_EPDISC_COUNT, .ro)]
    reset := fun _ _ => 0x0 },
  { base := 0xD000A4, stride1 := 0x4, count1 := 1, stride2 := 0x4, count2 := 1
    fields := [(ESS_NOMATCH_COUNT, .ro)]
    reset := fun _ _ => 0x0 },
  { base := 0xD000A8, stride1 := 0x4, count1 := 1, stride2 := 0x4, count2 := 1
    fields := [(ESS_MISMATCH_COUNT, .ro)]
    reset := fun _ _ => 0x0 },
  { base := 0xD000AC, stride1 := 0x4, count1 := 1, stride2 := 0x4, count2 := 1
    fields := [(ESS_PREFLATE_COUNT, .ro)]
    reset := fun _ _ => 0x0 },
  { base := 0xD000B0, stride1 := 0x4, count1 := 1, stride2 := 0x4, count2 := 1
    fields := [(ESS_LEGLATE_COUNT, .ro)]
    reset := fun _ _ => 0x0 },
  { base := 0xD000B4, stride1 := 0x4, count1 := 1, stride2 := 0x4, count2 := 1
    fields := [(ESS_LATE_COUNT, .ro)]
    reset := fun _ _ => 0x0 },
  { base := 0xD000B8, stride1 := 0x4, count1 := 1, stride2 := 0x4, count2 := 1
    fields := [(ESS_BADPKT_COUNT, .ro)]
    reset := fun _ _ => 0x0 },
  { base := 0xD000BC, stride1 := 0x4, count1 := 1, stride2 := 0x4, count2 := 1
    fields := [(ESS_TXLATE_COUNT, .ro)]
    reset := fun _ _ => 0x0 },
  { base := 0xD000C0, stride1 := 0x4, count1 := 1, stride2 := 0x4, count2 := 1
    fields := [(ESS_FMTMIS_COUNT, .ro)]
    reset := fun _ _ => 0x0 }]

/-- The registers of block BLK. -/
def regsBLK : List RegDesc := [
  { base := 0xE00000, stride1 := 0x4, count1 := 1, stride2 := 0x4, count2 := 1
    fields := [(BLK_ID_ID, .ro)]
    reset := fun _ _ => 0x92160001 },
  { base := 0xE00004, stride1 := 0x4, count1 := 1, stride2 := 0x4, count2 := 1
    fields := [(BLK_CTRL_CLRCNT, .wo), (BLK_CTRL_EYEMIN, .rw), (BLK_CTRL_ELECTTO, .rwL)]
    reset := fun _ _ => 0x7D02000 },
  { base := 0xE00008, stride1 := 0x4, count1 := 1, stride2 := 0x4, count2 := 1
    fields := [(BLK_NODE_PRIO, .rwL), (BLK_NODE_EXPNODES, .rwL), (BLK_NODE_RACC, .rwL), (BLK_NODE_NODEID, .ro), (BLK_NODE_ROOT, .ro), (BLK_NODE_FSTATE, .ro)]
    reset := fun _ _ => 0x480 },
  { base := 0xE0000C, stride1 := 0x4, count1 := 1, stride2 := 0x4, count2 := 1
    fields := [(BLK_RTO_TIMEOUT, .rw)]
    reset := fun _ _ => 0x3E8 },
  { base := 0xE00010, stride1 := 0x4, count1 := 1, stride2 := 0x4, count2 := 1
    fields := [(BLK_CHIPID_LO_ID, .ro)]
    reset := fun _ _ => 0x0 },
  { base := 0xE00014, stride1 := 0x4, count1 := 1, stride2 := 0x4, count2 := 1
    fields := [(BLK_CHIPID_HI_ID, .ro)]
    reset := fun _ _ => 0x0 },
  { base := 0xE00018, stride1 := 0x4, count1 := 1, stride2 := 0x4, count2 := 1
    fields := [(BLK_ERR_CFGREJ, .w1c)]
    reset := fun _ _ => 0x0 },
  { base := 0xE00020, stride1 := 0x4, count1 := 1, stride2 := 0x4, count2 := 1
    fields := [(BLK_FTIME_SNAP_SNAP, .wo)]
    reset := fun _ _ => 0x0 },
  { base := 0xE00024, stride1 := 0x4, count1 := 1, stride2 := 0x4, count2 := 1
    fields := [(BLK_FTIME_LO_COUNT, .ro)]
    reset := fun _ _ => 0x0 },
  { base := 0xE00028, stride1 := 0x4, count1 := 1, stride2 := 0x4, count2 := 1
    fields := [(BLK_FTIME_HI_COUNT, .ro)]
    reset := fun _ _ => 0x0 },
  { base := 0xE00040, stride1 := 0x4, count1 := 1, stride2 := 0x4, count2 := 1
    fields := [(BLK_RR_ADDR_ADDR, .rw), (BLK_RR_ADDR_NODE, .rw)]
    reset := fun _ _ => 0x0 },
  { base := 0xE00044, stride1 := 0x4, count1 := 1, stride2 := 0x4, count2 := 1
    fields := [(BLK_RR_WDATA_DATA, .rw)]
    reset := fun _ _ => 0x0 },
  { base := 0xE00048, stride1 := 0x4, count1 := 1, stride2 := 0x4, count2 := 1
    fields := [(BLK_RR_CMD_GO, .wo), (BLK_RR_CMD_WR, .wo)]
    reset := fun _ _ => 0x0 },
  { base := 0xE0004C, stride1 := 0x4, count1 := 1, stride2 := 0x4, count2 := 1
    fields := [(BLK_RR_STAT_BUSY, .ro), (BLK_RR_STAT_STATUS, .ro)]
    reset := fun _ _ => 0x0 },
  { base := 0xE00050, stride1 := 0x4, count1 := 1, stride2 := 0x4, count2 := 1
    fields := [(BLK_RR_RDATA_DATA, .ro)]
    reset := fun _ _ => 0x0 },
  { base := 0xE000A0, stride1 := 0x4, count1 := 1, stride2 := 0x4, count2 := 1
    fields := [(BLK_RTIMEOUT_COUNT, .ro)]
    reset := fun _ _ => 0x0 },
  { base := 0xE000A4, stride1 := 0x4, count1 := 1, stride2 := 0x4, count2 := 1
    fields := [(BLK_LATECPL_COUNT, .ro)]
    reset := fun _ _ => 0x0 },
  { base := 0xE000A8, stride1 := 0x4, count1 := 1, stride2 := 0x4, count2 := 1
    fields := [(BLK_PWLOST_COUNT, .ro)]
    reset := fun _ _ => 0x0 },
  { base := 0xE000AC, stride1 := 0x4, count1 := 1, stride2 := 0x4, count2 := 1
    fields := [(BLK_MISROUTE_COUNT, .ro)]
    reset := fun _ _ => 0x0 },
  { base := 0xE00800, stride1 := 0x10, count1 := 4, stride2 := 0x10, count2 := 1
    fields := [(BLK_TR_OSLOT_BASE, .rw), (BLK_TR_OSLOT_CNT, .rw)]
    reset := fun _ _ => 0x0 },
  { base := 0xE00804, stride1 := 0x10, count1 := 4, stride2 := 0x10, count2 := 1
    fields := [(BLK_TR_ISLOT_BASE, .rw), (BLK_TR_ISLOT_CNT, .rw)]
    reset := fun _ _ => 0x0 },
  { base := 0xE00808, stride1 := 0x10, count1 := 4, stride2 := 0x10, count2 := 1
    fields := [(BLK_TR_STAT_UP, .ro), (BLK_TR_STAT_CAP, .ro), (BLK_TR_STAT_LANES, .ro)]
    reset := fun _ _ => 0x0 },
  { base := 0xE0080C, stride1 := 0x10, count1 := 4, stride2 := 0x10, count2 := 1
    fields := [(BLK_TR_LINES_COUNT, .ro)]
    reset := fun _ _ => 0x0 },
  { base := 0xE01000, stride1 := 0x40, count1 := 12, stride2 := 0x40, count2 := 1
    fields := [(BLK_L_CFG_EN, .rw), (BLK_L_CFG_TRUNK, .rw)]
    reset := fun _ _ => 0xE },
  { base := 0xE01004, stride1 := 0x40, count1 := 12, stride2 := 0x40, count2 := 1
    fields := [(BLK_L_STAT_STATE, .ro), (BLK_L_STAT_LANES, .ro), (BLK_L_STAT_PEER, .ro), (BLK_L_STAT_PEERVALID, .ro), (BLK_L_STAT_BACKOFF, .ro)]
    reset := fun _ _ => 0x0 },
  { base := 0xE01008, stride1 := 0x40, count1 := 12, stride2 := 0x40, count2 := 1
    fields := [(BLK_L_PEERID_LO_ID, .ro)]
    reset := fun _ _ => 0x0 },
  { base := 0xE0100C, stride1 := 0x40, count1 := 12, stride2 := 0x40, count2 := 1
    fields := [(BLK_L_PEERID_HI_ID, .ro)]
    reset := fun _ _ => 0x0 },
  { base := 0xE01010, stride1 := 0x40, count1 := 12, stride2 := 0x40, count2 := 1
    fields := [(BLK_L_HIST_TRFAIL, .w1c), (BLK_L_HIST_LINKDN, .w1c), (BLK_L_HIST_BLKERR, .w1c), (BLK_L_HIST_REPLAY, .w1c), (BLK_L_HIST_REPLAYFAIL, .w1c), (BLK_L_HIST_SLOTMIS, .w1c), (BLK_L_HIST_TRUNKMIS, .w1c), (BLK_L_HIST_SKEW, .w1c), (BLK_L_HIST_LOWEYE, .w1c)]
    reset := fun _ _ => 0x0 },
  { base := 0xE01020, stride1 := 0x40, count1 := 12, stride2 := 0x40, count2 := 1
    fields := [(BLK_L_BLKERR_COUNT, .ro)]
    reset := fun _ _ => 0x0 },
  { base := 0xE01024, stride1 := 0x40, count1 := 12, stride2 := 0x40, count2 := 1
    fields := [(BLK_L_VOID_COUNT, .ro)]
    reset := fun _ _ => 0x0 },
  { base := 0xE01028, stride1 := 0x40, count1 := 12, stride2 := 0x40, count2 := 1
    fields := [(BLK_L_REPLAY_COUNT, .ro)]
    reset := fun _ _ => 0x0 },
  { base := 0xE0102C, stride1 := 0x40, count1 := 12, stride2 := 0x40, count2 := 1
    fields := [(BLK_L_TRFAIL_COUNT, .ro)]
    reset := fun _ _ => 0x0 },
  { base := 0xE02000, stride1 := 0x10, count1 := 96, stride2 := 0x10, count2 := 1
    fields := [(BLK_LANE_CFG_LINK, .rw), (BLK_LANE_CFG_TXPOL, .rw), (BLK_LANE_CFG_RXPOL, .rw), (BLK_LANE_CFG_DEFPRESET, .rw)]
    reset := fun _ _ => 0x40F },
  { base := 0xE02004, stride1 := 0x10, count1 := 96, stride2 := 0x10, count2 := 1
    fields := [(BLK_LANE_STAT_LOS, .ro), (BLK_LANE_STAT_CDR, .ro), (BLK_LANE_STAT_BLOCK, .ro), (BLK_LANE_STAT_POS, .ro), (BLK_LANE_STAT_PRE, .ro), (BLK_LANE_STAT_POST, .ro), (BLK_LANE_STAT_EYE, .ro)]
    reset := fun _ _ => 0x1 }]

/-- The registers of block AUD. -/
def regsAUD : List RegDesc := [
  { base := 0x1000000, stride1 := 0x4, count1 := 1, stride2 := 0x4, count2 := 1
    fields := [(AUD_ID_ID, .ro)]
    reset := fun _ _ => 0x92160001 },
  { base := 0x1000004, stride1 := 0x4, count1 := 1, stride2 := 0x4, count2 := 1
    fields := [(AUD_CTRL_CLRCNT, .wo), (AUD_CTRL_ZCTHR, .rw), (AUD_CTRL_ZCTO, .rw)]
    reset := fun _ _ => 0x321E00 },
  { base := 0x1000020, stride1 := 0x4, count1 := 1, stride2 := 0x4, count2 := 1
    fields := [(AUD_DE_IDX_DE, .rw)]
    reset := fun _ _ => 0x0 },
  { base := 0x1000024, stride1 := 0x4, count1 := 1, stride2 := 0x4, count2 := 1
    fields := [(AUD_DE_CFG_SRC, .rw), (AUD_DE_CFG_EN, .rw)]
    reset := fun _ _ => 0x1000 },
  { base := 0x1000028, stride1 := 0x4, count1 := 1, stride2 := 0x4, count2 := 1
    fields := [(AUD_DE_STAT_GROUPS, .ro), (AUD_DE_STAT_ASYNC, .ro), (AUD_DE_STAT_NOAUD, .ro)]
    reset := fun _ _ => 0x0 },
  { base := 0x1000030, stride1 := 0x4, count1 := 1, stride2 := 0x4, count2 := 1
    fields := [(AUD_MAP_IDX_DST, .rw)]
    reset := fun _ _ => 0x0 },
  { base := 0x1000034, stride1 := 0x4, count1 := 1, stride2 := 0x4, count2 := 1
    fields := [(AUD_MAP_DATA_SRC, .ro), (AUD_MAP_DATA_MAPPED, .ro), (AUD_MAP_DATA_PEND, .ro), (AUD_MAP_DATA_PSRC, .ro)]
    reset := fun _ _ => 0x1FFF },
  { base := 0x1000100, stride1 := 0x10, count1 := 8, stride2 := 0x10, count2 := 1
    fields := [(AUD_TDM_STAT_ENABLED, .ro), (AUD_TDM_STAT_MASTER, .ro), (AUD_TDM_STAT_LOCKED, .ro), (AUD_TDM_STAT_MUTED, .ro), (AUD_TDM_STAT_AMPFLT, .ro), (AUD_TDM_STAT_PPM, .ro)]
    reset := fun _ _ => 0x0 },
  { base := 0x1000200, stride1 := 0x4, count1 := 8, stride2 := 0x4, count2 := 1
    fields := [(AUD_PDM_CFG_EN, .rw), (AUD_PDM_CFG_HPF, .rw), (AUD_PDM_CFG_GAIN, .rw)]
    reset := fun _ _ => 0x2 },
  { base := 0x10000A0, stride1 := 0x4, count1 := 1, stride2 := 0x4, count2 := 1
    fields := [(AUD_ZCTO_COUNT, .ro)]
    reset := fun _ _ => 0x0 },
  { base := 0x10000A4, stride1 := 0x4, count1 := 1, stride2 := 0x4, count2 := 1
    fields := [(AUD_SLIP_COUNT, .ro)]
    reset := fun _ _ => 0x0 },
  { base := 0x10000A8, stride1 := 0x4, count1 := 1, stride2 := 0x4, count2 := 1
    fields := [(AUD_DEERR_COUNT, .ro)]
    reset := fun _ _ => 0x0 },
  { base := 0x10000AC, stride1 := 0x4, count1 := 1, stride2 := 0x4, count2 := 1
    fields := [(AUD_AMPCNT_COUNT, .ro)]
    reset := fun _ _ => 0x0 }]

/-- The registers of block TIM. -/
def regsTIM : List RegDesc := [
  { base := 0x1100000, stride1 := 0x4, count1 := 1, stride2 := 0x4, count2 := 1
    fields := [(TIM_ID_ID, .ro)]
    reset := fun _ _ => 0x92160001 },
  { base := 0x1100004, stride1 := 0x4, count1 := 1, stride2 := 0x4, count2 := 1
    fields := [(TIM_CTRL_CLRCNT, .wo)]
    reset := fun _ _ => 0x0 },
  { base := 0x1100008, stride1 := 0x4, count1 := 1, stride2 := 0x4, count2 := 1
    fields := [(TIM_SNAPALL_GO, .wo)]
    reset := fun _ _ => 0x0 },
  { base := 0x110000C, stride1 := 0x4, count1 := 1, stride2 := 0x4, count2 := 1
    fields := [(TIM_ERR_CFGREJ, .w1c)]
    reset := fun _ _ => 0x0 },
  { base := 0x1100010, stride1 := 0x4, count1 := 1, stride2 := 0x4, count2 := 1
    fields := [(TIM_IEN_HISTEN, .rw), (TIM_IEN_ERREN, .rw)]
    reset := fun _ _ => 0x0 },
  { base := 0x11000A0, stride1 := 0x4, count1 := 1, stride2 := 0x4, count2 := 1
    fields := [(TIM_TPOSKIP_COUNT, .ro)]
    reset := fun _ _ => 0x0 },
  { base := 0x11000A4, stride1 := 0x4, count1 := 1, stride2 := 0x4, count2 := 1
    fields := [(TIM_SWITCHCNT_COUNT, .ro)]
    reset := fun _ _ => 0x0 },
  { base := 0x11000A8, stride1 := 0x4, count1 := 1, stride2 := 0x4, count2 := 1
    fields := [(TIM_STEPCNT_COUNT, .ro)]
    reset := fun _ _ => 0x0 },
  { base := 0x11000AC, stride1 := 0x4, count1 := 1, stride2 := 0x4, count2 := 1
    fields := [(TIM_LAUNCHLATE_COUNT, .ro)]
    reset := fun _ _ => 0x0 },
  { base := 0x1100100, stride1 := 0x80, count1 := 4, stride2 := 0x80, count2 := 1
    fields := [(TIM_TB_CTRL_MODE, .rw), (TIM_TB_CTRL_SRCNODE, .rw), (TIM_TB_CTRL_DOMBEN, .rw), (TIM_TB_CTRL_REVERT, .rw), (TIM_TB_CTRL_STEPEN, .rw), (TIM_TB_CTRL_DOMA, .rw), (TIM_TB_CTRL_DOMB, .rw)]
    reset := fun _ _ => 0x7E7F40 },
  { base := 0x1100104, stride1 := 0x80, count1 := 4, stride2 := 0x80, count2 := 1
    fields := [(TIM_TB_SLEW_SLEWMAX, .rw), (TIM_TB_SLEW_STEPTHR, .rw)]
    reset := fun _ _ => 0x3E8000A },
  { base := 0x1100108, stride1 := 0x80, count1 := 4, stride2 := 0x80, count2 := 1
    fields := [(TIM_TB_DOM_DISAGREE, .rw), (TIM_TB_DOM_REVWAIT, .rw)]
    reset := fun _ _ => 0x3C03E8 },
  { base := 0x110010C, stride1 := 0x80, count1 := 4, stride2 := 0x80, count2 := 1
    fields := [(TIM_TB_LOCK_LOCKTHR, .rw)]
    reset := fun _ _ => 0x64 },
  { base := 0x1100110, stride1 := 0x80, count1 := 4, stride2 := 0x80, count2 := 1
    fields := [(TIM_TB_FREQ_PPT, .rw)]
    reset := fun _ _ => 0x0 },
  { base := 0x1100114, stride1 := 0x80, count1 := 4, stride2 := 0x80, count2 := 1
    fields := [(TIM_TB_ADJ_NS, .wo)]
    reset := fun _ _ => 0x0 },
  { base := 0x1100118, stride1 := 0x80, count1 := 4, stride2 := 0x80, count2 := 1
    fields := [(TIM_TB_SETSEC_LO_SEC, .rw)]
    reset := fun _ _ => 0x0 },
  { base := 0x110011C, stride1 := 0x80, count1 := 4, stride2 := 0x80, count2 := 1
    fields := [(TIM_TB_SETSEC_HI_SEC, .rw)]
    reset := fun _ _ => 0x0 },
  { base := 0x1100120, stride1 := 0x80, count1 := 4, stride2 := 0x80, count2 := 1
    fields := [(TIM_TB_SETNS_NS, .rw)]
    reset := fun _ _ => 0x0 },
  { base := 0x1100124, stride1 := 0x80, count1 := 4, stride2 := 0x80, count2 := 1
    fields := [(TIM_TB_CMD_LOAD, .wo), (TIM_TB_CMD_SNAP, .wo), (TIM_TB_CMD_FORCEDOM, .wo)]
    reset := fun _ _ => 0x0 },
  { base := 0x1100128, stride1 := 0x80, count1 := 4, stride2 := 0x80, count2 := 1
    fields := [(TIM_TB_SNAPSEC_LO_SEC, .ro)]
    reset := fun _ _ => 0x0 },
  { base := 0x110012C, stride1 := 0x80, count1 := 4, stride2 := 0x80, count2 := 1
    fields := [(TIM_TB_SNAPSEC_HI_SEC, .ro)]
    reset := fun _ _ => 0x0 },
  { base := 0x1100130, stride1 := 0x80, count1 := 4, stride2 := 0x80, count2 := 1
    fields := [(TIM_TB_SNAPNS_NS, .ro)]
    reset := fun _ _ => 0x0 },
  { base := 0x1100134, stride1 := 0x80, count1 := 4, stride2 := 0x80, count2 := 1
    fields := [(TIM_TB_SNAPTS_TS, .ro)]
    reset := fun _ _ => 0x0 },
  { base := 0x1100138, stride1 := 0x80, count1 := 4, stride2 := 0x80, count2 := 1
    fields := [(TIM_TB_STAT_STATE, .ro), (TIM_TB_STAT_INUSE, .ro), (TIM_TB_STAT_QUALA, .ro), (TIM_TB_STAT_QUALB, .ro), (TIM_TB_STAT_SLEWING, .ro)]
    reset := fun _ _ => 0x0 },
  { base := 0x110013C, stride1 := 0x80, count1 := 4, stride2 := 0x80, count2 := 1
    fields := [(TIM_TB_DIFF_NS, .ro)]
    reset := fun _ _ => 0x0 },
  { base := 0x1100140, stride1 := 0x80, count1 := 4, stride2 := 0x80, count2 := 1
    fields := [(TIM_TB_HIST_STEP, .w1c), (TIM_TB_HIST_HOLDOVER, .w1c), (TIM_TB_HIST_SWITCH, .w1c), (TIM_TB_HIST_DISAGREE, .w1c), (TIM_TB_HIST_LOSSA, .w1c), (TIM_TB_HIST_LOSSB, .w1c), (TIM_TB_HIST_SRCLOST, .w1c)]
    reset := fun _ _ => 0x0 },
  { base := 0x1101000, stride1 := 0x10, count1 := 64, stride2 := 0x10, count2 := 1
    fields := [(TIM_PORT_COR_INGCOR, .rw), (TIM_PORT_COR_EGRCOR, .rw)]
    reset := fun _ _ => 0x0 },
  { base := 0x1101004, stride1 := 0x10, count1 := 64, stride2 := 0x10, count2 := 1
    fields := [(TIM_PORT_ASYM_ASYM, .rw)]
    reset := fun _ _ => 0x0 },
  { base := 0x1102000, stride1 := 0x10, count1 := 16, stride2 := 0x10, count2 := 1
    fields := [(TIM_TPO_CFG_POL, .rw), (TIM_TPO_CFG_IDLEZ, .rw)]
    reset := fun _ _ => 0x2 },
  { base := 0x1102004, stride1 := 0x10, count1 := 16, stride2 := 0x10, count2 := 1
    fields := [(TIM_TPO_STAT_ARMED, .ro), (TIM_TPO_STAT_PERIODIC, .ro), (TIM_TPO_STAT_TB, .ro)]
    reset := fun _ _ => 0x0 },
  { base := 0x1102008, stride1 := 0x10, count1 := 16, stride2 := 0x10, count2 := 1
    fields := [(TIM_TPO_NEXT_TS, .ro)]
    reset := fun _ _ => 0x0 },
  { base := 0x110200C, stride1 := 0x10, count1 := 16, stride2 := 0x10, count2 := 1
    fields := [(TIM_TPO_LEFT_COUNT, .ro)]
    reset := fun _ _ => 0x0 }]

/-- The registers of block CLK. -/
def regsCLK : List RegDesc := [
  { base := 0x1180000, stride1 := 0x4, count1 := 1, stride2 := 0x4, count2 := 1
    fields := [(CLK_ID_ID, .ro)]
    reset := fun _ _ => 0x92160001 },
  { base := 0x1180004, stride1 := 0x4, count1 := 1, stride2 := 0x4, count2 := 1
    fields := [(CLK_CTRL_CLRCNT, .wo), (CLK_CTRL_REVERT, .rw), (CLK_CTRL_GENFAM, .rwL), (CLK_CTRL_FORCE, .rw), (CLK_CTRL_FORCEPRI, .rw), (CLK_CTRL_WTR, .rw), (CLK_CTRL_FSLOPE, .rw)]
    reset := fun _ _ => 0x50A02 },
  { base := 0x1180008, stride1 := 0x4, count1 := 1, stride2 := 0x4, count2 := 1
    fields := [(CLK_STAT_STATE, .ro), (CLK_STAT_ACTPRI, .ro), (CLK_STAT_ACTSRC, .ro)]
    reset := fun _ _ => 0x0 },
  { base := 0x118000C, stride1 := 0x4, count1 := 1, stride2 := 0x4, count2 := 1
    fields := [(CLK_QUAL_Q, .ro)]
    reset := fun _ _ => 0x0 },
  { base := 0x1180010, stride1 := 0x4, count1 := 1, stride2 := 0x4, count2 := 1
    fields := [(CLK_HIST_FREERUN, .w1c), (CLK_HIST_SWITCH, .w1c), (CLK_HIST_REFLOSS, .w1c), (CLK_HIST_UNLOCK, .w1c), (CLK_HIST_JUMP, .w1c), (CLK_HIST_ALIGNLOSS, .w1c), (CLK_HIST_FORCEFAIL, .w1c), (CLK_HIST_CFGREJ, .w1c)]
    reset := fun _ _ => 0x0 },
  { base := 0x1180014, stride1 := 0x4, count1 := 1, stride2 := 0x4, count2 := 1
    fields := [(CLK_QHIST_LOST, .w1c)]
    reset := fun _ _ => 0x0 },
  { base := 0x1180018, stride1 := 0x4, count1 := 1, stride2 := 0x4, count2 := 1
    fields := [(CLK_IEN_EN, .rw)]
    reset := fun _ _ => 0x0 },
  { base := 0x118001C, stride1 := 0x4, count1 := 1, stride2 := 0x4, count2 := 1
    fields := [(CLK_FREQ_PPB, .ro)]
    reset := fun _ _ => 0x0 },
  { base := 0x1180020, stride1 := 0x4, count1 := 1, stride2 := 0x4, count2 := 1
    fields := [(CLK_CMD_REALIGN, .wo), (CLK_CMD_RALSRC, .wo), (CLK_CMD_RALTB, .wo)]
    reset := fun _ _ => 0x0 },
  { base := 0x1180024, stride1 := 0x4, count1 := 1, stride2 := 0x4, count2 := 1
    fields := [(CLK_ALIGN_OFFSET, .rwL), (CLK_ALIGN_ALIGNSRC, .rwL)]
    reset := fun _ _ => 0x4000000 },
  { base := 0x1180028, stride1 := 0x4, count1 := 1, stride2 := 0x4, count2 := 1
    fields := [(CLK_PULL_PULLWIN, .rw)]
    reset := fun _ _ => 0x3E8 },
  { base := 0x118002C, stride1 := 0x4, count1 := 1, stride2 := 0x4, count2 := 1
    fields := [(CLK_SDILANE_LANE, .rw)]
    reset := fun _ _ => 0x0 },
  { base := 0x1180030, stride1 := 0x4, count1 := 1, stride2 := 0x4, count2 := 1
    fields := [(CLK_QUALCFG_QUALPPM, .rw), (CLK_QUALCFG_QUALT, .rw)]
    reset := fun _ _ => 0x214 },
  { base := 0x1180040, stride1 := 0x4, count1 := 8, stride2 := 0x4, count2 := 1
    fields := [(CLK_PRI_SRC, .rw), (CLK_PRI_EN, .rw)]
    reset := fun _ _ => 0x0 },
  { base := 0x1180060, stride1 := 0x4, count1 := 4, stride2 := 0x4, count2 := 1
    fields := [(CLK_REFIN_CFG_RATE, .rw), (CLK_REFIN_CFG_POL, .rw)]
    reset := fun _ _ => 0x0 },
  { base := 0x1180080, stride1 := 0x8, count1 := 4, stride2 := 0x8, count2 := 1
    fields := [(CLK_GENOUT_CFG_EN, .rw), (CLK_GENOUT_CFG_POL, .rw), (CLK_GENOUT_CFG_KIND, .rw), (CLK_GENOUT_CFG_TB, .rw), (CLK_GENOUT_CFG_RATE, .rw), (CLK_GENOUT_CFG_WIDTH, .rw)]
    reset := fun _ _ => 0x640000 },
  { base := 0x1180084, stride1 := 0x8, count1 := 4, stride2 := 0x8, count2 := 1
    fields := [(CLK_GENOUT_OFS_OFS, .rw)]
    reset := fun _ _ => 0x0 },
  { base := 0x11800A0, stride1 := 0x4, count1 := 1, stride2 := 0x4, count2 := 1
    fields := [(CLK_SWCNT_COUNT, .ro)]
    reset := fun _ _ => 0x0 },
  { base := 0x11800A4, stride1 := 0x4, count1 := 1, stride2 := 0x4, count2 := 1
    fields := [(CLK_JUMPCNT_COUNT, .ro)]
    reset := fun _ _ => 0x0 },
  { base := 0x11800A8, stride1 := 0x4, count1 := 1, stride2 := 0x4, count2 := 1
    fields := [(CLK_QLOSSCNT_COUNT, .ro)]
    reset := fun _ _ => 0x0 }]

/-- The registers of block PWR. -/
def regsPWR : List RegDesc := [
  { base := 0x1480000, stride1 := 0x4, count1 := 1, stride2 := 0x4, count2 := 1
    fields := [(PWR_ID_ID, .ro)]
    reset := fun _ _ => 0x92160001 },
  { base := 0x1480004, stride1 := 0x4, count1 := 1, stride2 := 0x4, count2 := 1
    fields := [(PWR_CTRL_AUTOWAKE, .rw), (PWR_CTRL_THERMWARN, .rwL)]
    reset := fun _ _ => 0x7300 },
  { base := 0x1480008, stride1 := 0x4, count1 := 1, stride2 := 0x4, count2 := 1
    fields := [(PWR_CMD_FALLOW, .wo), (PWR_CMD_ACTIVE, .wo), (PWR_CMD_SHUTDOWN, .wo), (PWR_CMD_SKIPBST, .wo), (PWR_CMD_WARM, .wo)]
    reset := fun _ _ => 0x0 },
  { base := 0x148000C, stride1 := 0x4, count1 := 1, stride2 := 0x4, count2 := 1
    fields := [(PWR_STAT_STATE, .ro), (PWR_STAT_READY, .ro), (PWR_STAT_OFFREADY, .ro), (PWR_STAT_FULLTEST, .ro), (PWR_STAT_HOT, .ro), (PWR_STAT_BOOTBAD, .ro), (PWR_STAT_BOOT, .ro)]
    reset := fun _ _ => 0x0 },
  { base := 0x1480010, stride1 := 0x4, count1 := 1, stride2 := 0x4, count2 := 1
    fields := [(PWR_ERR_CFGREJ, .w1c)]
    reset := fun _ _ => 0x0 },
  { base := 0x1480014, stride1 := 0x4, count1 := 1, stride2 := 0x4, count2 := 1
    fields := [(PWR_DOMSTAT_MLG, .ro), (PWR_DOMSTAT_FLG, .ro), (PWR_DOMSTAT_CMP, .ro), (PWR_DOMSTAT_AUDM, .ro)]
    reset := fun _ _ => 0x0 },
  { base := 0x1480018, stride1 := 0x4, count1 := 1, stride2 := 0x4, count2 := 1
    fields := [(PWR_TEMP_TJ, .ro)]
    reset := fun _ _ => 0x0 },
  { base := 0x1480020, stride1 := 0x4, count1 := 1, stride2 := 0x4, count2 := 1
    fields := [(PWR_RSTCAUSE_OFFUP, .w1c), (PWR_RSTCAUSE_DORMUP, .w1c), (PWR_RSTCAUSE_POR, .w1c), (PWR_RSTCAUSE_WARM, .w1c), (PWR_RSTCAUSE_THERM, .w1c)]
    reset := fun _ _ => 0x1 },
  { base := 0x1480024, stride1 := 0x4, count1 := 1, stride2 := 0x4, count2 := 1
    fields := [(PWR_WAKETMR_SEC, .rw)]
    reset := fun _ _ => 0x0 },
  { base := 0x1480040, stride1 := 0x4, count1 := 8, stride2 := 0x4, count2 := 1
    fields := [(PWR_RET_DATA, .rw)]
    reset := fun _ _ => 0x0 }]

/-- The registers of block HDG. -/
def regsHDG : List RegDesc := [
  { base := 0x1200000, stride1 := 0x4, count1 := 1, stride2 := 0x4, count2 := 1
    fields := [(HDG_ID_ID, .ro)]
    reset := fun _ _ => 0x92160001 },
  { base := 0x1200004, stride1 := 0x4, count1 := 1, stride2 := 0x4, count2 := 1
    fields := [(HDG_CTRL_TB, .rwL), (HDG_CTRL_MASKEN, .rwL), (HDG_CTRL_CLRCNT, .wo)]
    reset := fun _ _ => 0x4 },
  { base := 0x1200008, stride1 := 0x4, count1 := 1, stride2 := 0x4, count2 := 1
    fields := [(HDG_STAT_SAFE, .ro), (HDG_STAT_FAULT, .ro), (HDG_STAT_SAFESRC, .ro)]
    reset := fun _ _ => 0x0 },
  { base := 0x1200010, stride1 := 0x4, count1 := 1, stride2 := 0x4, count2 := 1
    fields := [(HDG_FIRST_SRC, .ro), (HDG_FIRST_SEV, .ro), (HDG_FIRST_FORCED, .ro), (HDG_FIRST_VALID, .ro)]
    reset := fun _ _ => 0x0 },
  { base := 0x1200018, stride1 := 0x4, count1 := 1, stride2 := 0x4, count2 := 1
    fields := [(HDG_FIRSTSEV_SRC, .ro), (HDG_FIRSTSEV_SEV, .ro), (HDG_FIRSTSEV_FORCED, .ro), (HDG_FIRSTSEV_VALID, .ro)]
    reset := fun _ _ => 0x0 },
  { base := 0x1200014, stride1 := 0x4, count1 := 1, stride2 := 0x4, count2 := 1
    fields := [(HDG_FIRSTTS_TS, .ro)]
    reset := fun _ _ => 0x0 },
  { base := 0x120001C, stride1 := 0x4, count1 := 1, stride2 := 0x4, count2 := 1
    fields := [(HDG_FIRSTSEVTS_TS, .ro)]
    reset := fun _ _ => 0x0 },
  { base := 0x1200020, stride1 := 0x4, count1 := 1, stride2 := 0x4, count2 := 1
    fields := [(HDG_FIRSTCLR_CLR, .wo)]
    reset := fun _ _ => 0x0 },
  { base := 0x1200024, stride1 := 0x4, count1 := 1, stride2 := 0x4, count2 := 1
    fields := [(HDG_ACK_SRC, .wo), (HDG_ACK_GO, .wo)]
    reset := fun _ _ => 0x0 },
  { base := 0x1200028, stride1 := 0x4, count1 := 1, stride2 := 0x4, count2 := 1
    fields := [(HDG_CLR_SRC, .wo), (HDG_CLR_GO, .wo)]
    reset := fun _ _ => 0x0 },
  { base := 0x120002C, stride1 := 0x4, count1 := 1, stride2 := 0x4, count2 := 1
    fields := [(HDG_ERR_ACKREJ, .w1c)]
    reset := fun _ _ => 0x0 },
  { base := 0x1200030, stride1 := 0x4, count1 := 4, stride2 := 0x4, count2 := 1
    fields := [(HDG_RTIME_US, .rwL)]
    reset := fun k _ => if k = 0 then 0 else if k = 1 then 1000 else if k = 2 then 10000 else 100000 },
  { base := 0x1200100, stride1 := 0x4, count1 := 16, stride2 := 0x4, count2 := 1
    fields := [(HDG_STICKY_SRC, .ro)]
    reset := fun _ _ => 0x0 },
  { base := 0x1200140, stride1 := 0x4, count1 := 16, stride2 := 0x4, count2 := 1
    fields := [(HDG_SEV_SRC, .ro)]
    reset := fun _ _ => 0x0 },
  { base := 0x1201000, stride1 := 0x10, count1 := 512, stride2 := 0x10, count2 := 1
    fields := [(HDG_SRC_CFG_EN, .rwL), (HDG_SRC_CFG_IEN, .rwL), (HDG_SRC_CFG_RSEL, .rwL), (HDG_SRC_CFG_ACTION, .rwL), (HDG_SRC_CFG_N, .rwL), (HDG_SRC_CFG_WINDOW, .rwL)]
    reset := fun n _ => if n = 149 ∨ n = 511 then 0x00640823 else if n = 196 then 0x00640807 else 0x00640807 },
  { base := 0x1201004, stride1 := 0x10, count1 := 512, stride2 := 0x10, count2 := 1
    fields := [(HDG_SRC_STAT_STATE, .ro), (HDG_SRC_STAT_STICKY, .w1c), (HDG_SRC_STAT_ACKED, .ro), (HDG_SRC_STAT_HELD, .ro), (HDG_SRC_STAT_FIXED, .ro), (HDG_SRC_STAT_PROMOTED, .ro), (HDG_SRC_STAT_FORCED, .ro), (HDG_SRC_STAT_WCOUNT, .ro)]
    reset := fun n _ => if n = 149 ∨ n = 196 ∨ n = 511 then 0x20 else 0 },
  { base := 0x1201008, stride1 := 0x10, count1 := 512, stride2 := 0x10, count2 := 1
    fields := [(HDG_SRC_COUNT_COUNT, .ro)]
    reset := fun _ _ => 0x0 },
  { base := 0x120100C, stride1 := 0x10, count1 := 512, stride2 := 0x10, count2 := 1
    fields := [(HDG_SRC_CTL_FORCE, .wo)]
    reset := fun _ _ => 0x0 },
  { base := 0x1204000, stride1 := 0x8, count1 := 64, stride2 := 0x8, count2 := 1
    fields := [(HDG_MASK_A_CAUSE, .rwL), (HDG_MASK_A_EN, .rwL)]
    reset := fun _ _ => 0x0 },
  { base := 0x1204004, stride1 := 0x8, count1 := 64, stride2 := 0x8, count2 := 1
    fields := [(HDG_MASK_B_FIRST, .rwL), (HDG_MASK_B_LAST, .rwL)]
    reset := fun _ _ => 0x0 }]

/-- The registers of block BST. -/
def regsBST : List RegDesc := [
  { base := 0x1280000, stride1 := 0x4, count1 := 1, stride2 := 0x4, count2 := 1
    fields := [(BST_ID_ID, .ro)]
    reset := fun _ _ => 0x92160001 },
  { base := 0x1280004, stride1 := 0x4, count1 := 1, stride2 := 0x4, count2 := 1
    fields := [(BST_CTRL_SLICEEN, .rw), (BST_CTRL_CLRCNT, .wo), (BST_CTRL_SLICEPER, .rw), (BST_CTRL_PATROL, .rw)]
    reset := fun _ _ => 0x2580A01 },
  { base := 0x1280008, stride1 := 0x4, count1 := 1, stride2 := 0x4, count2 := 1
    fields := [(BST_ERR_CFGREJ, .w1c)]
    reset := fun _ _ => 0x0 },
  { base := 0x128000C, stride1 := 0x4, count1 := 1, stride2 := 0x4, count2 := 1
    fields := [(BST_STAT_FULLRUN, .ro), (BST_STAT_LSSPARE, .ro)]
    reset := fun _ _ => 0xCEF000 },
  { base := 0x1280010, stride1 := 0x4, count1 := 8, stride2 := 0x4, count2 := 1
    fields := [(BST_OOS_UNIT, .rw)]
    reset := fun _ _ => 0x0 },
  { base := 0x1280030, stride1 := 0x4, count1 := 8, stride2 := 0x4, count2 := 1
    fields := [(BST_FAILED_UNIT, .ro)]
    reset := fun _ _ => 0x0 },
  { base := 0x1280080, stride1 := 0x4, count1 := 1, stride2 := 0x4, count2 := 1
    fields := [(BST_UNIT_IDX_UNIT, .rw)]
    reset := fun _ _ => 0x0 },
  { base := 0x1280084, stride1 := 0x4, count1 := 1, stride2 := 0x4, count2 := 1
    fields := [(BST_UNIT_STAT_STATE, .ro), (BST_UNIT_STAT_TESTING, .ro), (BST_UNIT_STAT_LASTPASS, .ro), (BST_UNIT_STAT_SLICE, .ro)]
    reset := fun _ _ => 0x0 },
  { base := 0x12800A0, stride1 := 0x4, count1 := 1, stride2 := 0x4, count2 := 1
    fields := [(BST_SLICES_COUNT, .ro)]
    reset := fun _ _ => 0x0 },
  { base := 0x12800A4, stride1 := 0x4, count1 := 1, stride2 := 0x4, count2 := 1
    fields := [(BST_ABANDON_COUNT, .ro)]
    reset := fun _ _ => 0x0 },
  { base := 0x12800A8, stride1 := 0x4, count1 := 1, stride2 := 0x4, count2 := 1
    fields := [(BST_LSREP_COUNT, .ro)]
    reset := fun _ _ => 0x0 }]

/-- The registers of block FOV. -/
def regsFOV : List RegDesc := [
  { base := 0x1300000, stride1 := 0x4, count1 := 1, stride2 := 0x4, count2 := 1
    fields := [(FOV_ID_ID, .ro)]
    reset := fun _ _ => 0x92160001 },
  { base := 0x1300004, stride1 := 0x4, count1 := 1, stride2 := 0x4, count2 := 1
    fields := [(FOV_CFG_PROT, .rwL), (FOV_CFG_ROLE, .rwL), (FOV_CFG_AUTOCLAIM, .rwL), (FOV_CFG_AUTOSYNC, .rwL), (FOV_CFG_FALLBACK, .rwL), (FOV_CFG_PLANEYIELD, .rwL), (FOV_CFG_MIRPORT, .rwL), (FOV_CFG_MIRBLK, .rwL), (FOV_CFG_MIRLINK, .rwL)]
    reset := fun _ _ => 0x3C },
  { base := 0x1300008, stride1 := 0x4, count1 := 1, stride2 := 0x4, count2 := 1
    fields := [(FOV_TIMING_CLAIMDLY, .rwL), (FOV_TIMING_CLAIMWIN, .rwL)]
    reset := fun _ _ => 0xA01F4 },
  { base := 0x130000C, stride1 := 0x4, count1 := 1, stride2 := 0x4, count2 := 1
    fields := [(FOV_REFFMT_RASTER, .rw), (FOV_REFFMT_RATE, .rw)]
    reset := fun _ _ => 0x605 },
  { base := 0x1300014, stride1 := 0x4, count1 := 1, stride2 := 0x4, count2 := 1
    fields := [(FOV_GRANT_SEQ_SEQ, .rw)]
    reset := fun _ _ => 0x0 },
  { base := 0x1300018, stride1 := 0x4, count1 := 1, stride2 := 0x4, count2 := 1
    fields := [(FOV_GRANT_CTL_KIND, .rw), (FOV_GRANT_CTL_COVERED, .rw), (FOV_GRANT_CTL_FORCE, .rw), (FOV_GRANT_CTL_LEASE, .rw), (FOV_GRANT_CTL_GO, .wo)]
    reset := fun _ _ => 0x640000 },
  { base := 0x1300024, stride1 := 0x4, count1 := 1, stride2 := 0x4, count2 := 1
    fields := [(FOV_CMD_CLAIM, .wo), (FOV_CMD_RELEASE, .wo), (FOV_CMD_YIELD, .wo), (FOV_CMD_RESYNC, .wo), (FOV_CMD_RECOVER, .wo), (FOV_CMD_CLRCNT, .wo), (FOV_CMD_TB, .wo)]
    reset := fun _ _ => 0x0 },
  { base := 0x1300028, stride1 := 0x4, count1 := 1, stride2 := 0x4, count2 := 1
    fields := [(FOV_YIELDTIME_TIME, .rw)]
    reset := fun _ _ => 0x0 },
  { base := 0x1300030, stride1 := 0x4, count1 := 1, stride2 := 0x4, count2 := 1
    fields := [(FOV_IEN_EN, .rw)]
    reset := fun _ _ => 0x0 },
  { base := 0x1300010, stride1 := 0x4, count1 := 1, stride2 := 0x4, count2 := 1
    fields := [(FOV_STAT_STATE, .ro), (FOV_STAT_ILKIN, .ro), (FOV_STAT_ILKOUT, .ro), (FOV_STAT_ACTIVE, .ro), (FOV_STAT_LEASE, .ro), (FOV_STAT_COVERED, .ro), (FOV_STAT_MIRUP, .ro)]
    reset := fun _ _ => 0x0 },
  { base := 0x130001C, stride1 := 0x4, count1 := 1, stride2 := 0x4, count2 := 1
    fields := [(FOV_LEASELEFT_MS, .ro)]
    reset := fun _ _ => 0x0 },
  { base := 0x1300020, stride1 := 0x4, count1 := 1, stride2 := 0x4, count2 := 1
    fields := [(FOV_LASTSEQ_SEQ, .ro)]
    reset := fun _ _ => 0x0 },
  { base := 0x130002C, stride1 := 0x4, count1 := 1, stride2 := 0x4, count2 := 1
    fields := [(FOV_HIST_TAKEOVER, .w1c), (FOV_HIST_YIELD, .w1c), (FOV_HIST_LEASEEXP, .w1c), (FOV_HIST_ILKCONF, .w1c), (FOV_HIST_MIRLOSS, .w1c), (FOV_HIST_DIGESTMIS, .w1c), (FOV_HIST_GRANTREJ, .w1c), (FOV_HIST_CLAIMSTALL, .w1c), (FOV_HIST_PLANELOSS, .w1c), (FOV_HIST_SYNCDONE, .w1c)]
    reset := fun _ _ => 0x0 },
  { base := 0x1300034, stride1 := 0x4, count1 := 1, stride2 := 0x4, count2 := 1
    fields := [(FOV_ERR_CFGREJ, .w1c), (FOV_ERR_GRANTREJ, .w1c)]
    reset := fun _ _ => 0x0 },
  { base := 0x13000A0, stride1 := 0x4, count1 := 1, stride2 := 0x4, count2 := 1
    fields := [(FOV_TAKECNT_COUNT, .ro)]
    reset := fun _ _ => 0x0 },
  { base := 0x13000A4, stride1 := 0x4, count1 := 1, stride2 := 0x4, count2 := 1
    fields := [(FOV_YIELDCNT_COUNT, .ro)]
    reset := fun _ _ => 0x0 },
  { base := 0x13000A8, stride1 := 0x4, count1 := 1, stride2 := 0x4, count2 := 1
    fields := [(FOV_LATEMIR_COUNT, .ro)]
    reset := fun _ _ => 0x0 },
  { base := 0x13000AC, stride1 := 0x4, count1 := 1, stride2 := 0x4, count2 := 1
    fields := [(FOV_DIGESTCNT_COUNT, .ro)]
    reset := fun _ _ => 0x0 }]

/-- The registers of block SVC. -/
def regsSVC : List RegDesc := [
  { base := 0x1380000, stride1 := 0x4, count1 := 1, stride2 := 0x4, count2 := 1
    fields := [(SVC_ID_ID, .ro)]
    reset := fun _ _ => 0x92160001 },
  { base := 0x1380004, stride1 := 0x4, count1 := 1, stride2 := 0x4, count2 := 1
    fields := [(SVC_CTRL_SHADOWFR, .rw), (SVC_CTRL_CONFTO, .rw)]
    reset := fun _ _ => 0xA },
  { base := 0x1380008, stride1 := 0x4, count1 := 1, stride2 := 0x4, count2 := 1
    fields := [(SVC_CMD_OP, .wo), (SVC_CMD_GO, .wo)]
    reset := fun _ _ => 0x0 },
  { base := 0x138000C, stride1 := 0x4, count1 := 1, stride2 := 0x4, count2 := 1
    fields := [(SVC_CMDSTAT_BUSY, .ro), (SVC_CMDSTAT_SLOTERR, .ro), (SVC_CMDSTAT_RESULT, .ro), (SVC_CMDSTAT_OP, .ro)]
    reset := fun _ _ => 0x0 },
  { base := 0x1380010, stride1 := 0x4, count1 := 1, stride2 := 0x4, count2 := 1
    fields := [(SVC_XADDR_LO_ADDR, .rw)]
    reset := fun _ _ => 0x0 },
  { base := 0x1380014, stride1 := 0x4, count1 := 1, stride2 := 0x4, count2 := 1
    fields := [(SVC_XADDR_HI_ADDR, .rw)]
    reset := fun _ _ => 0x0 },
  { base := 0x1380018, stride1 := 0x4, count1 := 1, stride2 := 0x4, count2 := 1
    fields := [(SVC_XLEN_LEN, .rw)]
    reset := fun _ _ => 0x0 },
  { base := 0x138001C, stride1 := 0x4, count1 := 1, stride2 := 0x4, count2 := 1
    fields := [(SVC_ARG_ARG, .rw)]
    reset := fun _ _ => 0x0 },
  { base := 0x1380020, stride1 := 0x4, count1 := 1, stride2 := 0x4, count2 := 1
    fields := [(SVC_FWVER_VERSION, .ro)]
    reset := fun _ _ => 0x0 },
  { base := 0x1380024, stride1 := 0x4, count1 := 1, stride2 := 0x4, count2 := 1
    fields := [(SVC_SLOT_BOOT, .ro), (SVC_SLOT_RUN, .ro), (SVC_SLOT_RECOVERY, .ro)]
    reset := fun _ _ => 0x0 },
  { base := 0x1380028, stride1 := 0x4, count1 := 1, stride2 := 0x4, count2 := 1
    fields := [(SVC_SLOTVER0_VERSION, .ro)]
    reset := fun _ _ => 0x0 },
  { base := 0x138002C, stride1 := 0x4, count1 := 1, stride2 := 0x4, count2 := 1
    fields := [(SVC_SLOTVER1_VERSION, .ro)]
    reset := fun _ _ => 0x0 },
  { base := 0x1380030, stride1 := 0x4, count1 := 1, stride2 := 0x4, count2 := 1
    fields := [(SVC_UPD_STATE, .ro), (SVC_UPD_LEFT, .ro)]
    reset := fun _ _ => 0x0 },
  { base := 0x1380034, stride1 := 0x4, count1 := 1, stride2 := 0x4, count2 := 1
    fields := [(SVC_CFGSTAT_BANK, .ro), (SVC_CFGSTAT_AVALID, .ro), (SVC_CFGSTAT_BVALID, .ro), (SVC_CFGSTAT_PROTECT, .ro), (SVC_CFGSTAT_FMT, .ro)]
    reset := fun _ _ => 0x0 },
  { base := 0x1380038, stride1 := 0x4, count1 := 1, stride2 := 0x4, count2 := 1
    fields := [(SVC_CFGSEQ_SEQ, .ro)]
    reset := fun _ _ => 0x0 },
  { base := 0x138003C, stride1 := 0x4, count1 := 1, stride2 := 0x4, count2 := 1
    fields := [(SVC_CORE_MAP, .ro), (SVC_CORE_INSVC, .ro)]
    reset := fun _ _ => 0xFE4 },
  { base := 0x1380040, stride1 := 0x4, count1 := 1, stride2 := 0x4, count2 := 1
    fields := [(SVC_HIST_DONE, .w1c), (SVC_HIST_IMGBAD, .w1c), (SVC_HIST_UPDFAIL, .w1c), (SVC_HIST_REVERT, .w1c), (SVC_HIST_CFGEQ, .w1c), (SVC_HIST_CFGBAD, .w1c), (SVC_HIST_WDOG, .w1c), (SVC_HIST_CHAIN, .w1c)]
    reset := fun _ _ => 0x0 },
  { base := 0x1380044, stride1 := 0x4, count1 := 1, stride2 := 0x4, count2 := 1
    fields := [(SVC_IEN_EN, .rw)]
    reset := fun _ _ => 0x0 }]

/-- The registers of block SEC. -/
def regsSEC : List RegDesc := [
  { base := 0x1400000, stride1 := 0x4, count1 := 1, stride2 := 0x4, count2 := 1
    fields := [(SEC_ID_ID, .ro)]
    reset := fun _ _ => 0x92160001 },
  { base := 0x1400004, stride1 := 0x4, count1 := 1, stride2 := 0x4, count2 := 1
    fields := [(SEC_LC_STATE, .ro), (SEC_LC_ROLLFWD, .ro), (SEC_LC_PENDING, .ro)]
    reset := fun _ _ => 0x0 },
  { base := 0x1400008, stride1 := 0x4, count1 := 1, stride2 := 0x4, count2 := 1
    fields := [(SEC_KEY_VALID, .ro), (SEC_KEY_REVOKED, .ro), (SEC_KEY_INUSE, .ro)]
    reset := fun _ _ => 0x0 },
  { base := 0x140000C, stride1 := 0x4, count1 := 1, stride2 := 0x4, count2 := 1
    fields := [(SEC_SVN_SVN, .ro)]
    reset := fun _ _ => 0x0 },
  { base := 0x1400010, stride1 := 0x4, count1 := 1, stride2 := 0x4, count2 := 1
    fields := [(SEC_POLICY_CFGSIGN, .ro)]
    reset := fun _ _ => 0x0 },
  { base := 0x14000A0, stride1 := 0x4, count1 := 1, stride2 := 0x4, count2 := 1
    fields := [(SEC_SIGFAIL_COUNT, .ro)]
    reset := fun _ _ => 0x0 },
  { base := 0x14000A4, stride1 := 0x4, count1 := 1, stride2 := 0x4, count2 := 1
    fields := [(SEC_DECFAIL_COUNT, .ro)]
    reset := fun _ _ => 0x0 },
  { base := 0x14000A8, stride1 := 0x4, count1 := 1, stride2 := 0x4, count2 := 1
    fields := [(SEC_ROLLBACK_COUNT, .ro)]
    reset := fun _ _ => 0x0 }]

/-- The registers of block GLB. -/
def regsGLB : List RegDesc := [
  { base := 0x0, stride1 := 0x4, count1 := 1, stride2 := 0x4, count2 := 1
    fields := [(GLB_ID_ID, .ro)]
    reset := fun _ _ => 0x92160001 },
  { base := 0x10, stride1 := 0x4, count1 := 1, stride2 := 0x4, count2 := 1
    fields := [(GLB_LOCK_SETUP, .w1s)]
    reset := fun _ _ => 0x0 }]

/-- The registers of block WIN. -/
def regsWIN : List RegDesc := [
  { base := 0x2800000, stride1 := 0x4, count1 := 4096, stride2 := 0x4, count2 := 1
    fields := [(FSA_DL_DATA_LEAD, .rwL), (FSA_DL_DATA_OVR, .rwL)]
    reset := fun _ _ => 0x0 },
  { base := 0x2C00000, stride1 := 0x40, count1 := 256, stride2 := 0x40, count2 := 1
    fields := [(CMP_SR_CFG_EN, .rw), (CMP_SR_CFG_MODE, .rw), (CMP_SR_CFG_LOCK, .wonce), (CMP_SR_CFG_CANVAS, .rw), (CMP_SR_CFG_MISS, .rw), (CMP_SR_CFG_RESTORE, .rw)]
    reset := fun _ _ => 0x30000 },
  { base := 0x2C00004, stride1 := 0x40, count1 := 256, stride2 := 0x40, count2 := 1
    fields := [(CMP_SR_POS_X, .rw), (CMP_SR_POS_Y, .rw)]
    reset := fun _ _ => 0x0 },
  { base := 0x2C00008, stride1 := 0x40, count1 := 256, stride2 := 0x40, count2 := 1
    fields := [(CMP_SR_SIZE_W, .rw), (CMP_SR_SIZE_H, .rw)]
    reset := fun _ _ => 0x0 },
  { base := 0x2C0000C, stride1 := 0x40, count1 := 256, stride2 := 0x40, count2 := 1
    fields := [(CMP_SR_STILL_STILL, .rw), (CMP_SR_STILL_EXPN, .rw)]
    reset := fun _ _ => 0x0 },
  { base := 0x2C00020, stride1 := 0x40, count1 := 256, stride2 := 0x40, count2 := 1
    fields := [(CMP_SR_CMD_LEARN, .wo), (CMP_SR_CMD_LSLOT, .wo), (CMP_SR_CMD_CLEAR, .wo)]
    reset := fun _ _ => 0x0 },
  { base := 0x2C00024, stride1 := 0x40, count1 := 256, stride2 := 0x40, count2 := 1
    fields := [(CMP_SR_STAT_STATE, .ro), (CMP_SR_STAT_RUN, .ro)]
    reset := fun _ _ => 0x0 },
  { base := 0x2C00028, stride1 := 0x40, count1 := 256, stride2 := 0x40, count2 := 1
    fields := [(CMP_SR_CRC_LAST, .ro)]
    reset := fun _ _ => 0x0 },
  { base := 0x2C00010, stride1 := 0x40, count1 := 256, stride2 := 0x4, count2 := 4
    fields := [(CMP_SR_EXP_CRC, .rw)]
    reset := fun _ _ => 0x0 },
  { base := 0x200000000, stride1 := 0x8, count1 := 256, stride2 := 0x8, count2 := 1
    fields := [(AUD_DE_CFG_SRC, .rw), (AUD_DE_CFG_EN, .rw)]
    reset := fun i _ => BitVec.ofNat 32 (4096 + 4 * i) },
  { base := 0x200000004, stride1 := 0x8, count1 := 256, stride2 := 0x8, count2 := 1
    fields := [(AUD_DE_STAT_GROUPS, .ro), (AUD_DE_STAT_ASYNC, .ro), (AUD_DE_STAT_NOAUD, .ro)]
    reset := fun _ _ => 0x0 }]

/-- The registers of the block that holds address `a` (R622). -/
def blockRegs (a : Nat) : List RegDesc :=
  if a < 0x100000 then regsGLB else
  if a < 0x200000 then regsHIF else
  if a < 0x400000 then regsTEN else
  if a < 0x600000 then regsXPT else
  if a < 0x800000 then regsFSA else
  if a < 0xA00000 then regsCMP else
  if a < 0xC00000 then regsMLN else
  if a < 0xD00000 then regsMAC else
  if a < 0xE00000 then regsESS else
  if a < 0x1000000 then regsBLK else
  if a < 0x1100000 then regsAUD else
  if a < 0x1180000 then regsTIM else
  if a < 0x1200000 then regsCLK else
  if a < 0x1280000 then regsHDG else
  if a < 0x1300000 then regsBST else
  if a < 0x1380000 then regsFOV else
  if a < 0x1400000 then regsSVC else
  if a < 0x1480000 then regsSEC else
  if a < 0x1500000 then regsPWR else
  if a < 0x2000000 then [] else
  if a < 0x100000000 then regsWIN else
  if a < 0x200000000 then regsPAGE else regsWIN

/-- The first register of a list that stands at `a`, with its indexes. -/
def findIn (a : Nat) : List RegDesc → Option (RegDesc × Nat × Nat)
  | [] => none
  | d :: ds =>
    match d.index a with
    | some (i, j) => some (d, i, j)
    | none => findIn a ds

/-- The register at address `a`, with its indexes; none where no chapter names one (R622). -/
def findReg (a : Nat) : Option (RegDesc × Nat × Nat) := findIn a (blockRegs a)

/-- What address `a` holds after reset: the reset value the register tables give, 0 where no register stands. -/
def resetAt (a : Nat) : Word :=
  match findReg a with
  | some (d, i, j) => d.reset i j
  | none => 0

end Sys2Proof.Machine
end

