-- ==== Sys2Proof/Machine/State.lean ====
section
/-! DEFINITION. The state of the AZ9216-A as plain data. The registers of the manual stand in one sparse table
`regs` by address (Machine/Regs.lean gives the addresses, fields and reset values; an unlisted address holds its reset
value); everything else the chapters give the device stands in one record per subsystem. -/

namespace Sys2Proof.Machine

open Sys2Proof

/-! ## Host interface and commands -/

/-- The completion codes of R161. -/
inductive Status where
  | ok
  | rejOwner
  | rejCapacity
  | rejFormat
  | rejLocked
  | misaligned
  | late
  | aborted
  | linkLost
  | busy
  | shed
  deriving DecidableEq, Repr

/-- A completion entry (R80). -/
structure Completion where
  tag : Word
  sqHead : Nat
  sq : Nat
  status : Status
  result : Nat
  epoch : Nat
  phase : Bool
  deriving DecidableEq, Repr

/-- An event entry (R163); `data` is bytes 12-27 as four words. -/
structure Event where
  type : Nat
  ovf : Bool
  tb : Nat
  kind : Nat
  time : Nat
  object : Nat
  epoch : Nat
  data : List Nat
  phase : Bool
  deriving DecidableEq, Repr

/-- A capture entry (R165). -/
structure Capture where
  tag : Word
  frame : Nat
  status : Status
  coded : Bool
  last : Bool
  buffer : Nat
  len : Nat
  time : Nat
  tb : Nat
  format : BitVec 64
  crc : Word
  phase : Bool
  deriving DecidableEq, Repr

/-- An entry the device writes to a ring in host memory (R66). -/
inductive RingEntry where
  | completion (c : Completion)
  | event (e : Event)
  | capture (c : Capture)
  deriving DecidableEq, Repr

/-- What the device keeps of one ring beside its registers (R66-R90). -/
structure Ring where
  /-- the PHASE of the current pass (R69) -/
  phase : Bool
  /-- entries written since the ring's last message (R90) -/
  unsignalled : Nat
  /-- a dropped event has not been told yet (R85) -/
  ovf : Bool
  /-- completion ring: entries reserved for dispatched commands (R84) -/
  reserved : Nat
  /-- completion ring: completions that wait for the ring to be enabled again (R78) -/
  deferred : List Completion
  /-- command ring: entries fetched and not yet dispatched (R72) -/
  fetched : List Entry
  /-- command ring: the head command has waited longer than HIF_CMD_AGE (R87) -/
  aged : Bool
  deriving DecidableEq, Repr

/-- A command that has been dispatched and has not completed (R82). -/
structure Cmd where
  id : Nat
  tenant : Nat
  sq : Nat
  cq : Nat
  tag : Word
  nocomp : Bool
  /-- the function was reset since: the completion is discarded (R109) -/
  discard : Bool
  /-- the command DMA channel it holds (R94) -/
  channel : Option Nat
  /-- the command, and the parameter block it read: what the active chip mirrors once it is accepted (R571) -/
  entry : Entry
  block : BlockRead
  deriving DecidableEq, Repr

/-- A host-channel descriptor (R99). -/
structure Desc where
  haddr : Nat
  offset : Nat
  node : Nat
  remote : Bool
  len : Nat
  toHost : Bool
  irq : Bool
  user : Word
  deriving DecidableEq, Repr

/-- What a host DMA channel holds beside its registers (R96-R108). -/
structure Chan where
  /-- the descriptor in execution -/
  desc : Option Desc
  /-- bytes of it already moved -/
  moved : Nat
  /-- bytes of the burst on its way, 0 for none -/
  burst : Nat
  /-- the failed burst waits 10 µs for its reissue (R105) -/
  waiting : Bool
  /-- EN was cleared during a burst (R102) -/
  stopping : Bool
  /-- retries used on the present burst (R105) -/
  tries : Nat
  /-- the present burst has consumed its request (R96) -/
  paid : Bool
  deriving DecidableEq, Repr

structure Hif where
  /-- by 16 * tenant + ring -/
  rings : Tbl Ring
  inflight : List Cmd
  nextId : Nat
  /-- tenant last served, by guarantee class (R87) -/
  lastTenant : Tbl Nat
  /-- command ring last served, by tenant (R86) -/
  lastRing : Tbl Nat
  /-- dispatch slot, modulo 32 (R87) -/
  slot : Nat
  /-- rings whose head has aged, oldest first, as 16 * tenant + ring (R87) -/
  agedOrder : List Nat
  /-- rings whose head has FENCE and has come to its turn, as 16 * tenant + ring: their tenants dispatch nothing else
  (R83) -/
  fences : List Nat
  /-- rings whose head waits for a channel for a short transfer, oldest first, as 16 * tenant + ring (R618) -/
  shortWait : List Nat
  /-- vectors with their pending bit set (R91), as 64 * function + vector -/
  msixPending : List Nat
  numVfs : Nat
  /-- host channels, by channel number 48-63 -/
  chans : Tbl Chan
  deriving DecidableEq, Repr

/-! ## Tenants and capacity -/

/-- What an allocation carries (R124, R132). -/
inductive Holding where
  /-- the route of the destination stream that starts at track d: its fabric tracks or its compositor-input surface -/
  | route (d : Nat)
  /-- the synchroniser of source track s, charged on the route of destination d -/
  | sync (s d : Nat)
  | canvas (c : Nat)
  | still (i : Nat)
  /-- still i while STILL_LOAD stores it -/
  | stillLoad (i : Nat)
  /-- the charges of a pending immediate change of destination d -/
  | pending (d : Nat)
  /-- a change staged in salvo slot `slot` of tenant t, on destination d -/
  | staged (t slot d : Nat)
  deriving DecidableEq, Repr

/-- The five charges of one allocation (R124). -/
structure Charge where
  fsync : Nat
  fabric : Nat
  membw : Nat
  cmppix : Nat
  surf : Nat
  deriving DecidableEq, Repr

structure Alloc where
  owner : Nat
  holding : Holding
  charge : Charge
  deriving DecidableEq, Repr

/-- A grant or revoke in progress (R119-R122). -/
structure GrantOp where
  revoke : Bool
  kind : Nat
  tenant : Nat
  first : Nat
  count : Nat
  deriving DecidableEq, Repr

structure Ten where
  /-- owner of an object other than TN0, by kind * 65,536 + index (R116) -/
  owner : Tbl Nat
  /-- allocations, oldest first (R130) -/
  allocs : List Alloc
  grant : Option GrantOp
  deriving DecidableEq, Repr

/-! ## Time bases -/

structure TimeBase where
  /-- full time in units of 2^-32 ns (R446) -/
  time : Nat
  /-- correction outstanding, in units of 2^-32 ns / 10^6 (R452, R454) -/
  adj : Int
  /-- no correction has been made since MODE was set (R453) -/
  fresh : Bool
  /-- in ACQUIRE: entered from HOLDOVER (R453) -/
  fromHold : Bool
  /-- consecutive updates within LOCKTHR (R449) -/
  inRun : Nat
  /-- consecutive updates beyond 10 * LOCKTHR (R450) -/
  outRun : Nat
  /-- latest offsets by DOMA and DOMB in ns (R455) -/
  offA : Int
  offB : Int
  /-- the last comparison made while both were qualified agreed (R455) -/
  agreed : Bool
  deriving DecidableEq, Repr

/-- One arming of a pulse output (R461, R462). Instants are full times in ns. -/
structure Arming where
  tb : Nat
  periodic : Bool
  next : Nat
  period : Nat
  width : Nat
  /-- pulses remaining of a counted arming -/
  left : Option Nat
  /-- the TIME_ARM that completes when the one-shot pulse ends -/
  cmd : Option Nat
  /-- the one-shot's instant was stepped over (R463) -/
  stepped : Bool
  deriving DecidableEq, Repr

structure TpoState where
  arming : Option Arming
  /-- the end of the pulse in progress, with the base it is in -/
  pulse : Option (Nat × Nat)
  /-- what follows the pulse in progress: a new arming, or none to go idle (R463) -/
  next : Option (Option Arming)
  deriving DecidableEq, Repr

structure Tim where
  bases : Tbl TimeBase
  tpos : Tbl TpoState
  deriving DecidableEq, Repr

/-! ## Hedgerow -/

structure Hdg where
  /-- sources whose reaction timer runs; true where a promotion started it (R532, R541) -/
  timers : Tbl Bool
  /-- the ACTION of each ESCALATED source as it stood at its escalation (R533-R535) -/
  escalated : Tbl Nat
  deriving DecidableEq, Repr

/-! ## Redundancy -/

structure Fov where
  /-- withdrawals of a backup without an intervening claim (R563) -/
  withdrawals : Nat
  /-- AUTOCLAIM has stopped (R563) -/
  autoStopped : Bool
  /-- claim windows that have ended since CLAIMING was entered (R563) -/
  windows : Nat
  /-- armed yield: time base and full time in ns (R567) -/
  yieldAt : Option (Nat × Nat)
  /-- the snapshot has been applied in SYNC (R563, R572) -/
  snapshot : Bool
  /-- the partner's FOV state as its firmware last answered (R563, R570) -/
  partner : Nat
  /-- COVERED as the last accepted grant stored it (R565) -/
  covered : Bool
  /-- the mirror has been lost and the standby has not read STANDBY since (R573) -/
  uncovered : Bool
  /-- when the lease began, in ns of `now`, and its length in ms (R565) -/
  leaseStart : Nat
  leaseMs : Nat
  deriving DecidableEq, Repr

/-! ## Crosspoint planes -/

/-- A rotation or replacement in progress (R188, R191). -/
structure Rotation where
  /-- the symbol position that moves -/
  position : Nat
  out : Nat
  incoming : Nat
  /-- 0 decided, 1 copies run, 2 reads have moved -/
  stage : Nat
  /-- the outgoing plane is retired and leaves service instead of entering test -/
  retire : Bool
  deriving DecidableEq, Repr

structure Planes where
  rotation : Option Rotation
  /-- retired planes that carry their position until the plane under test has finished (R195) -/
  failing : List Nat
  /-- the interval has ended and the rotation waits for TESTDONE (R187) -/
  due : Bool
  /-- FORCEROT waits for TESTDONE (R195) -/
  force : Bool
  deriving DecidableEq, Repr

/-! ## Formats (R26) -/

structure Fmt where
  pid : Nat
  raster : Nat
  rate : Nat
  tracks : Nat
  sampling : Nat
  links : Nat
  transfer : Nat
  colour : Nat
  /-- reserved bits of bytes 6 and 7 -/
  reserved : Nat
  deriving DecidableEq, Repr

/-! ## Crosspoint routes -/

/-- The record of a routed stream, kept at its first destination track (R172). -/
structure Route where
  src : Nat
  width : Nat
  fmt : Fmt
  /-- place in the order in which routes took effect (R242) -/
  since : Nat
  fallow : Bool
  /-- the source differs from the route format, and the event of R180 has been sent -/
  differ : Bool
  /-- the source has k > L at this destination (R238) -/
  lead : Bool
  deriving DecidableEq, Repr

/-- The synchroniser that a ROUTE asks for (R240, R241). -/
structure SyncReq where
  units : Nat
  rate : Nat
  /-- it delivers the source's own RATE (R241) -/
  own : Bool
  deriving DecidableEq, Repr

/-- A change that has been checked and charged and has not taken effect (R138, R145). -/
structure Change where
  /-- none: an unroute -/
  route : Option Route
  /-- charges of the route itself, held until it takes effect -/
  charge : Charge
  /-- the synchroniser charged for it (R242) -/
  sync : Option SyncReq
  deriving DecidableEq, Repr

/-- An immediate change and the command that waits for it (R178, R203). -/
structure Pend where
  change : Change
  cmd : Nat
  /-- dispatch instant, in ns of `now` -/
  at_ : Nat
  deriving DecidableEq, Repr

/-- A format change sequence: the format the output still runs in, and the commands that complete at its end, each with
RESULT and EPOCH (R207). -/
structure FmtSeq where
  old : Fmt
  cmds : List (Nat × Nat × Nat)
  deriving DecidableEq, Repr

structure Xpt where
  /-- by first destination track -/
  routes : Tbl Route
  pending : Tbl Pend
  /-- format change sequences in progress (R207) -/
  seqs : Tbl FmtSeq
  /-- route-set epoch of a destination stream (R179) -/
  epochs : Tbl Nat
  /-- last route format of a destination stream (R176) -/
  lastFmt : Tbl Fmt
  /-- destination tracks whose entry failed parity in both copies, each with the first track of the stream it belonged
  to (R182) -/
  rtpar : Tbl Nat
  /-- routes that have taken effect so far -/
  order : Nat
  /-- the code word that each source track's cell of this schedule period stands in on the planes; an unlisted one is
  that of an empty cell (R167, R169) -/
  cells : Tbl (BitVec 96)
  /-- word slots that each source track has passed, modulo 22 (R21) -/
  slots : Tbl Nat
  /-- destination tracks whose route changes in the coming schedule period: the source track read until then (none: no
  route) and the word slot of the cell from which the new source is read (R173) -/
  turns : Tbl (Option Nat × Nat)
  /-- the cell that the output stage of each destination track decoded last (R194); where the entry has FALLOW the
  Fallow raster goes out in its place (R180) -/
  delivered : Tbl (BitVec 84)
  /-- words that stand in the retimer of a destination track, in its part of the line store, oldest first (R238, R239) -/
  retimers : Tbl (List (BitVec 20))
  /-- words that have left a destination track's retimer in this schedule period (R238) -/
  leaving : Tbl (List (BitVec 20))
  deriving DecidableEq, Repr

/-! ## Aligners, synchronisers and surfaces -/

structure Aligner where
  /-- as R235 -/
  mode : Nat
  hops : Nat
  /-- d in word slots (R261) -/
  delay : Nat
  /-- bytes 4-7 of the format that the block in front reports; RASTER 0 is none -/
  high : Nat
  /-- the stream lies within the window (R233, R236) -/
  inside : Bool
  /-- payload ID bytes of the descriptor (R26, R312) -/
  pid : Nat
  /-- the arrival instant a less Rf in ps, once it has been measured (R232); none where the stream's block places it -/
  off : Option Int
  /-- the last errored line and how many errored lines run up to it (R246) -/
  errLine : Nat
  errRun : Nat
  /-- lines of the frame now written or read that hold the line before them of the same field (R246, R252) -/
  substituted : List Nat
  deriving DecidableEq, Repr

/-- The synchroniser of a source, kept at the source's first track (R241). Its holder is the owner of its allocation. -/
structure SyncUnit where
  index : Nat
  units : Nat
  rate : Nat
  /-- it delivers the source's own RATE (R241) -/
  own : Bool
  /-- number of the frame read last (R244) -/
  last : Option Nat
  /-- output frames begun since the source lost its signal (R245) -/
  lost : Option Nat
  /-- its destinations carry the Fallow raster until its first frame (R247, R251) -/
  blank : Bool
  deriving DecidableEq, Repr

/-- A compositor-input surface, named by its first destination track (R250, R628). -/
structure Surface where
  fmt : Fmt
  epoch : Nat
  /-- frames of the writer begun since the change, up to 2; at 2 a complete buffer exists (R250) -/
  frames : Nat
  /-- what the three buffers hold, by buffer 0-2: the Sedge surface that the writer has put there; the buffer it fills now; and
  the newest complete one (R250) -/
  buffers : Tbl (List Byte)
  fill : Nat
  newest : Option Nat
  deriving DecidableEq, Repr

/-- A memory controller's turns (R253). -/
structure MemCtl where
  /-- aged background requests, oldest first; those after the 64th stall -/
  aged : List Nat
  /-- controller cycles passed, modulo 32; the last of the 32 is the reserved slot -/
  cycle : Nat
  /-- the real-time requester served last -/
  last : Nat
  deriving DecidableEq, Repr

structure Fsa where
  aligners : Tbl Aligner
  /-- by source track -/
  syncs : Tbl SyncUnit
  surfaces : Tbl Surface
  /-- the epoch a surface writer took last, by first destination track (R40, R250) -/
  surfEpochs : Tbl Nat
  /-- by memory controller (R253) -/
  ctls : Tbl MemCtl
  /-- words of a stream that stand in its aligner's part of the line store, oldest first, by source track (R234, R239) -/
  lines : Tbl (List (BitVec 20))
  deriving DecidableEq, Repr

/-! ## Compositor -/

/-- A rectangle in pixels; X and Y of a PLACE are signed (R276). -/
structure Rect where
  x : Int
  y : Int
  w : Nat
  h : Nat
  deriving DecidableEq, Repr

/-- A composed frame: its components' samples in raster order (Y, Cb, Cr at the widths of R254, or R, G, B), and the
samples of its alpha plane (R267). -/
structure Pic where
  width : Nat
  height : Nat
  sampling : Nat
  comps : List (List Nat)
  alpha : List Nat
  deriving DecidableEq, Repr

/-- A frame in a buffer of its canvas's surface (R267), with the transfer and colour that it is in (R271). Its bytes there are
those of `Pic.buffer`. -/
structure CanvasFrame where
  pic : Pic
  transfer : Nat
  colour : Nat
  deriving DecidableEq, Repr

/-- A layer as LAYER_SET gives it (R150). -/
structure LayerDef where
  kind : Nat
  idx : Nat
  crop : Rect
  place : Rect
  alpha : Nat
  key : Nat
  /-- bytes 8-63 of the LAYER_SET (R624) -/
  raw : BitVec 448
  deriving DecidableEq, Repr

/-- A canvas as CANVAS_DEF gives it (R149). -/
structure CanvasDef where
  engine : Nat
  width : Nat
  height : Nat
  rate : Nat
  transfer : Nat
  colour : Nat
  bgmode : Nat
  bg : Nat
  /-- all zeros: no track output -/
  out : Fmt
  deriving DecidableEq, Repr

/-- A slice as SLICE_SET gives it (R151). -/
structure SliceDef where
  canvas : Nat
  rect : Rect
  flow : Nat
  deriving DecidableEq, Repr

/-- What a command changes at a canvas's next frame. -/
inductive CanvasOp where
  | define (d : CanvasDef)
  | delete
  /-- none: ENABLE 0 -/
  | layer (i : Nat) (l : Option LayerDef)
  | slice (i : Nat) (d : Option SliceDef)
  deriving DecidableEq, Repr

/-- A dispatched command that waits for its canvas frame (R272, R280). -/
structure CanvasPend where
  op : CanvasOp
  cmd : Nat
  at_ : Nat
  /-- the frame that takes it is being composed; it completes at A(N) -/
  taken : Bool
  /-- the salvo it is an entry of, by 4 * tenant + slot; the layer and the canvas epoch that it took the place of (R216) -/
  slot : Option Nat
  old : Option LayerDef
  oldEpoch : Nat
  deriving DecidableEq, Repr

structure CanvasState where
  /-- the definition in effect -/
  now : Option CanvasDef
  layers : Tbl LayerDef
  /-- layers whose table entry failed parity (R279) -/
  ltpar : List Nat
  pend : List CanvasPend
  epoch : Nat
  /-- the instant of the last A(N), in ns of `now` -/
  lastOut : Option Nat
  /-- A(N) of the frame being composed, one frame period after its C(N), in ns of `now` (R270) -/
  outAt : Option Nat
  /-- the three buffers of the surface, by buffer 0-2; the one that the writer fills; whether it holds the frame that leaves
  next; and the newest complete one: what the track output, slices and reading canvases carry (R267, R271, R289) -/
  buffers : Tbl CanvasFrame
  fill : Nat
  making : Bool
  newest : Option Nat
  /-- the signature of each region of that next frame, with the eight words of its configuration as it was composed (R286,
  R288) -/
  sigs : List (Nat × Nat × List Word)
  /-- the definition whose frames the track output carries, and the frames that it still sends in the format before, while it
  changes format (R207, R272) -/
  sent : Option CanvasDef
  seq : Option (Fmt × Nat)
  /-- layer and tile of reads that met an uncorrectable word since the last C(N) (R252, R279) -/
  badTiles : List (Nat × Nat)
  deriving DecidableEq, Repr

/-- A still in package memory (R152). -/
structure Still where
  width : Nat
  height : Nat
  sampling : Nat
  transfer : Nat
  colour : Nat
  /-- its Sedge surface: directory and tile slots (R254) -/
  data : List Byte
  deriving DecidableEq, Repr

/-- A STILL_LOAD in progress. -/
structure StillLoad where
  still : Still
  coded : Bool
  cmd : Nat
  /-- where the host data stands, and its length (R152) -/
  haddr : Nat
  len : Nat
  deriving DecidableEq, Repr

/-- What a signature region holds beside its registers (R287, R288). -/
structure Region where
  /-- consecutive passing frames while substituting -/
  passes : Nat
  /-- LEARN waits for the next accepted frame -/
  learn : Option Nat
  /-- substitution begins or ends with the next frame -/
  arm : Bool
  disarm : Bool
  deriving DecidableEq, Repr

/-- A capture in progress (R157, R165). -/
structure Grab where
  cmd : Nat
  tenant : Nat
  ring : Nat
  tag : Word
  coded : Bool
  left : Nat
  frame : Nat
  buffer : Nat
  /-- what is grabbed: a canvas or a source track -/
  canvas : Bool
  src : Nat
  /-- its format when the grab was dispatched -/
  fmt : Fmt
  tb : Nat
  /-- the entry of a captured frame that waits for space in the ring (R611) -/
  owed : Option Capture
  deriving DecidableEq, Repr

structure Cmp where
  canvases : Tbl CanvasState
  stills : Tbl Still
  loads : Tbl StillLoad
  slices : Tbl SliceDef
  regions : Tbl Region
  /-- by command DMA channel -/
  grabs : Tbl Grab
  deriving DecidableEq, Repr

/-! ## Salvos and migrations -/

inductive SalvoItem where
  | route (c : Change)
  | layer (canvas i : Nat) (l : Option LayerDef)
  deriving DecidableEq, Repr

/-- One entry of a salvo: its destination track, or 4,096 + 32 * canvas + layer. -/
structure SalvoEntry where
  key : Nat
  item : SalvoItem
  deriving DecidableEq, Repr

/-- A salvo slot that is open or committing (R143-R148, R208-R225). -/
structure Salvo where
  nodes : Nat
  group : Word
  /-- 0 open, 1 committing with its prepare running, 2 prepared (coordinator: PREPARE sent; participant: READY sent),
  3 armed -/
  stage : Nat
  entries : List SalvoEntry
  /-- a charge held for an entry has been shed (R216) -/
  shed : Bool
  cmd : Nat
  coord : Bool
  tb : Nat
  time : Word
  /-- the commit time as a full time in ns -/
  due : Nat
  /-- acceptance of SALVO_COMMIT, as a full time in ns -/
  accepted : Nat
  /-- largest F known, in ns (R209, R218) -/
  f : Nat
  /-- F of the chip's own entries (R217) -/
  own : Nat
  /-- entry count at SALVO_COMMIT -/
  count : Nat
  readyFrom : List Nat
  /-- a step passed the commit time: entries apply at lines that begin from here on, in ns of `now` (R216) -/
  notBefore : Nat
  /-- epochs that the applied entries take (R214) -/
  epoch : Option Nat
  canvasEpoch : Option Nat
  /-- coordinator: participants whose acknowledgement was missing at the apply deadline, once that has passed (R223) -/
  missing : Option Nat
  /-- a participant of its own refusal waits for the coordinator's CANCEL, with its own reason -/
  refused : Option SalvoReason
  deriving DecidableEq, Repr

/-- A PREPARE, or the CANCEL that followed it, held for a GROUP (R219). -/
structure HeldPrepare where
  src : Nat
  group : Word
  tb : Nat
  time : Word
  nodes : Nat
  f : Nat
  cancel : Option SalvoReason
  deriving DecidableEq, Repr

/-- A MIGRATE in progress (R227-R231). -/
structure Mig where
  cmd : Nat
  tenant : Nat
  target : Nat
  tb : Nat
  /-- full time of TIME, none for the second boundary after acceptance -/
  due : Option Nat
  /-- the overlap frame has begun -/
  started : Bool
  deriving DecidableEq, Repr

structure Sal where
  /-- by 4 * tenant + slot -/
  slots : Tbl Salvo
  held : List HeldPrepare
  /-- by 4,096 * kind + object -/
  migs : Tbl Mig
  deriving DecidableEq, Repr

/-! ## Essence flows -/

/-- A flow as FLOW_RX_DEF or FLOW_TX_DEF and its parameter block give it (R155, R353). -/
structure Flow where
  dual : Bool
  /-- preferred leg: leg B -/
  prefB : Bool
  slice : Bool
  type : Nat
  track : Nat
  fmt : Fmt
  block : ParamBlock
  deriving DecidableEq, Repr

/-- The first copy of a packet, which waits for the other leg's (R363). -/
structure RxCopy where
  seq : Word
  crc : Word
  legB : Bool
  /-- arrival in ns of `now` -/
  at_ : Nat
  deriving DecidableEq, Repr

/-- A packet's data in place, until it is released (R359, R364). -/
structure RxData where
  seq : Word
  ts : Word
  payload : List Byte
  deriving DecidableEq, Repr

/-- The ancillary packets that a TYPE 4 flow inserts into a frame: the frame's timestamp, and by packet (R370). -/
structure AncFrame where
  ts : Word
  packets : List (Word × List AncPacket)
  deriving DecidableEq, Repr

/-- A multicast group that a leg joins: source-specific where it names a source (R357). -/
structure McGroup where
  ipv6 : Bool
  addr : Nat
  src : Option Nat
  deriving DecidableEq, Repr

structure FlowRx where
  /-- the definition in effect: none when stopped -/
  now : Option Flow
  /-- the definition that the next boundary brings (R372): none of none to stop -/
  next : Option (Option Flow)
  epoch : Nat
  legA : Bool
  legB : Bool
  lost : Bool
  joined : Bool
  /-- unsolicited membership reports sent on each leg (R357) -/
  reportsA : Nat
  reportsB : Nat
  /-- consecutive complete frames, up to 2 (R350, R361) -/
  frames : Nat
  /-- a flow-table entry failed parity (R374) -/
  par : Bool
  pkt : Nat
  mis : Nat
  copies : List RxCopy
  /-- the parameter block last accepted (R624) -/
  last : ParamBlock
  /-- number of the command that made it: later is more recent (R130, R374) -/
  since : Nat
  /-- the last boundary of its frames, in ns of `now` (R227) -/
  lastAt : Option Nat
  /-- the phase that its timestamps give, on the reference of the last measurement, and the consecutive frames that lay
  more than 2 ticks from it (R359) -/
  phase : Option Nat
  moved : Nat
  /-- when each leg delivered last, in ns of `now` (R361, R364) -/
  heardA : Option Nat
  heardB : Option Nat
  /-- the packets' data, newest first -/
  data : List RxData
  /-- the RTP timestamp of the audio packet that is released next (R359) -/
  due : Option Word
  /-- what was released last, the line or the RTP timestamp, and whether it was the flow's own data; else the Fallow raster's line
  or zero samples stood in its place (R360) -/
  played : Option (Nat × Bool)
  /-- TYPE 5 without FORMAT: bytes 4-7 and payload ID found in the last frame (R350) -/
  found : Option (Nat × Nat)
  anc : Option AncFrame
  deriving DecidableEq, Repr

structure FlowTx where
  now : Option Flow
  next : Option (Option Flow)
  epoch : Nat
  /-- extended sequence number of the last packet sent, plus 1; 0 before the first (R366) -/
  seq : Nat
  pkt : Nat
  par : Bool
  /-- the stream matches FORMAT in the current frame (R351) -/
  match_ : Bool
  last : ParamBlock
  /-- the last boundary of its frames, in ns of `now` (R227) -/
  lastAt : Option Nat
  /-- A(N) of the frame in progress, in ns of the full time of the flow's time base (R367), and the packets of it that have
  been sent (R365) -/
  frameAt : Int
  sent : Nat
  /-- when `next` was accepted, in ns of `now` (R374) -/
  asked : Nat
  deriving DecidableEq, Repr

structure Ess where
  rx : Tbl FlowRx
  tx : Tbl FlowTx
  deriving DecidableEq, Repr

/-! ## Self-test -/

/-- A BIST_REQ that waits (R556). -/
structure BistWait where
  cmd : Nat
  full : Bool
  /-- FULL 0: a sequence has begun since acceptance -/
  begun : Bool
  deriving DecidableEq, Repr

structure Bst where
  /-- units with a slice running -/
  slicing : List Nat
  /-- slices completed in the current sequence -/
  slices : Tbl Nat
  /-- units whose last complete test passed -/
  passed : List Nat
  waits : Tbl BistWait
  /-- the last unit tested in each class, by the class's first code; for the line store the row that comes next (R549) -/
  cursor : Tbl Nat
  /-- rows of the line store that stand in repair rows, in ascending order (R552, R553) -/
  repaired : List Nat
  deriving DecidableEq, Repr

/-! ## Fabric -/

/-- A remote request that waits for its completion (R398, R410). -/
structure Req where
  /-- 0 register read, 1 DMA read, 2 FLUSH, 3 one whose channel has given it up -/
  kind : Nat
  node : Nat
  /-- host channel, and host address and length of a DMA read -/
  ch : Nat
  haddr : Nat
  len : Nat
  deriving DecidableEq, Repr

/-- A flit that waits to be sent: its channel, its place in its message, its payload (R395). -/
structure OutFlit where
  vc : Nat
  first : Bool
  last : Bool
  payload : BitVec 96
  /-- it belongs to the register write that BLK_RR_CMD started (R409) -/
  rr : Bool
  deriving DecidableEq, Repr

/-- A link's training and control stream (R395-R403). -/
structure LinkCtl where
  /-- the back-off runs (R403) -/
  backoff : Bool
  /-- consecutive failures (R403) -/
  fails : Nat
  /-- lanes that have declared DONE (R402) -/
  doneLanes : List Nat
  /-- last sequence number received in order (R399) -/
  rxSeq : Nat
  /-- the phase last seen of the far end (R403) -/
  farPhase : Nat
  /-- flits sent and not acknowledged, oldest first (R399), and flits that wait for a credit or for room among the 128 (R397) -/
  unacked : List (BitVec 128)
  waiting : List OutFlit
  txSeq : Nat
  /-- a NAK has been sent and the replay has not arrived -/
  nak : Bool
  /-- credits held, and credits to return, by channel (R397) -/
  credits : Tbl Nat
  owed : Tbl Nat
  /-- payloads of a message received in part, by channel -/
  body : Tbl (List (BitVec 96))
  /-- the link that a message received in part is relayed on, by channel; 12 where it is dropped (R396, R408) -/
  relaying : Tbl Nat
  /-- consecutive good blocks (R401) -/
  good : Nat
  /-- CTRL fields of the block that arrives, by lane position, none for a failed one; and those of the flit that they continue,
  oldest first (R395) -/
  inFields : Tbl (Option (BitVec 16))
  inStream : List (Option (BitVec 16))
  /-- CTRL fields of the block that leaves, by lane position, and those of the flits after them (R395) -/
  outFields : Tbl (BitVec 16)
  outStream : List (BitVec 16)
  /-- PRIO and TRUNK of the far end, from PARAM (R401) -/
  farPrio : Nat
  farTrunk : Nat
  deriving DecidableEq, Repr

/-- The answer to a tap request (R402). -/
inductive TapAnswer where
  | updated
  | notUpdated
  | atLimit
  deriving DecidableEq, Repr

/-- What a fabric lane holds beside its registers (R382, R383, R402). -/
structure BLaneCtl where
  /-- the last 31 bits of the scrambler, the newest in bit 0; of the receiver, none until it is synchronised -/
  txScr : Nat
  rxScr : Option Nat
  /-- the index within the superframe of the next block that leaves -/
  block : Nat
  /-- pre- and post-cursor of this lane's own transmitter, and its answer to the far receiver -/
  taps : Nat × Nat
  answer : TapAnswer
  /-- what this lane's receiver asks for, and the far transmitter's answer -/
  asks : TapReq
  told : TapAnswer
  deriving DecidableEq, Repr

/-- The directions of a trunk (R393): the CNT that the far end last sent, and whether the outbound and the inbound direction are
up. -/
structure TrunkCtl where
  farCnt : Option Nat
  out : Bool
  inn : Bool
  deriving DecidableEq, Repr

structure Blk where
  links : Tbl LinkCtl
  /-- by tag -/
  reqs : Tbl Req
  nextTag : Nat
  /-- tuples seen in the election (R414) -/
  joins : List (Nat × BitVec 64)
  /-- tuples of the numbered nodes, by node (R414, R415) -/
  nodes : Tbl (Nat × BitVec 64)
  /-- node numbers given so far (R415) -/
  given : Nat
  /-- the superframe count, and the instant in ns of `now` at which it was loaded (R416) -/
  ftime : Nat
  ftimeAt : Nat
  /-- nodes to which each other node has ACTIVE links, as its firmware reported them (R408) -/
  peerLinks : Tbl Nat
  /-- lanes without block lock in an ACTIVE link, with the instant in ns of `now` at which they lost it (R386) -/
  lockLost : Tbl Nat
  lanes : Tbl BLaneCtl
  trunks : Tbl TrunkCtl
  /-- by track: the line counted last as errored, and the instant in ns of `now` (R391) -/
  badLines : Tbl (Nat × Nat)
  /-- BUSY stands for a register write whose flits have not all been sent (R409) -/
  rrWrite : Bool
  deriving DecidableEq, Repr

/-! ## Media lanes -/

/-- What a media lane holds beside its registers (R309-R313). -/
structure LaneCtl where
  /-- the loss in progress began with LOS (R309) -/
  byLos : Bool
  /-- consecutive frames with an agreeing payload ID, and without one, up to 2 (R313) -/
  okRun : Nat
  noneRun : Nat
  /-- the payload ID last found to agree, and the fields it names -/
  pid : Word
  sampling : Nat
  transfer : Nat
  colour : Nat
  /-- the last payload ID of this link names a format, an interface or a position that bars a descriptor (R306, R313) -/
  barred : Bool
  /-- the bond's skew exceeds 400 ns (R306) -/
  skewed : Bool
  /-- when EQVAL was set last, in ns of `now`: under ADAPT 2 it has tracked since (R307) -/
  eqAt : Nat
  deriving DecidableEq, Repr

structure Mln where
  lanes : Tbl LaneCtl
  /-- lanes whose Fallow format changes: bytes 4-7 still sent, and frame boundaries to go (R319) -/
  fallow : Tbl (Nat × Nat)
  deriving DecidableEq, Repr

/-! ## Ethernet MACs -/

/-- A frame being sent (R338, R341, R342). -/
structure TxFrame where
  /-- its bytes before the FCS, padded (R333) -/
  data : List Byte
  express : Bool
  /-- wholly buffered: it cannot run empty -/
  whole : Bool
  preempted : Bool
  /-- how many of its bytes have left in fragments; all of them once it has been sent -/
  sent : Nat
  deriving DecidableEq, Repr

/-- A frame that waits in a port's transmit queue (R336, R341). -/
structure Offered where
  kind : FrameKind
  data : List Byte
  buffered : Nat
  marked : Bool
  deriving DecidableEq, Repr

structure MacPort where
  /-- verify attempts that have failed since link-up (R337) -/
  attempts : Nat
  tx : Option TxFrame
  /-- counters, by the address of their shadow register (R347) -/
  counts : Tbl Nat
  /-- transmit flows whose first packets of a canvas frame go ahead of every preemptable frame, in slice order (R369) -/
  ahead : List Nat
  /-- the last timestamp delivered for a received frame, and for a marked transmitted one: full time in ns (R458) -/
  rxStamp : Option Int
  txStamp : Option Int
  /-- frames that wait to start, oldest first (R336) -/
  queue : List Offered
  /-- a preempted frame being reassembled: its number, the number of its next continuation and the bytes received (R340) -/
  reasm : Option (Nat × Nat × Nat)
  deriving DecidableEq, Repr

structure Mac where
  ports : Tbl MacPort
  deriving DecidableEq, Repr

/-! ## Audio -/

/-- A change of a destination's source that waits (R428-R430). -/
structure AudPend where
  /-- 8191 for silence -/
  src : Nat
  nowait : Bool
  /-- in ms (R429) -/
  timeout : Nat
  cmd : Nat
  /-- dispatch instant, in ns of `now` -/
  at_ : Nat
  deriving DecidableEq, Repr

/-- What AUD_PORT set beside the bits of AUD_TDMp_STAT (R154, R434). -/
structure TdmCfg where
  width : Nat
  fs : Nat
  deriving DecidableEq, Repr

structure Aud where
  /-- source of each destination; an unlisted one reads AS8191 (R427) -/
  maps : Tbl Nat
  pend : Tbl AudPend
  /-- destinations whose map-table entry failed parity (R430) -/
  par : List Nat
  ports : Tbl TdmCfg
  deriving DecidableEq, Repr

/-! ## Reference clocks -/

/-- A re-alignment of the frame timing that has been accepted (R477-R479). -/
structure Realign where
  /-- 0 selected reference, 1 time base, 2 alignment pulse -/
  kind : Nat
  /-- the new origin in ns of `now`, once it is fixed -/
  origin : Option Int
  /-- the origin until then -/
  before : Option Int
  /-- acceptance, in ns of `now` -/
  at_ : Nat
  /-- formats, as raster and rate, that have taken it -/
  taken : List (Nat × Nat)
  deriving DecidableEq, Repr

structure Clk where
  realign : Option Realign
  /-- the origin O in ns of `now`, none while nothing fixes it -/
  origin : Option Int
  deriving DecidableEq, Repr

/-! ## Power and start-up -/

structure Pwr where
  /-- POR_N is low (R497) -/
  porLow : Bool
  /-- the core rails are in their operating range (R516) -/
  core : Bool
  /-- the device stays in reset after a thermal shutdown until POR_N falls and rises (R503) -/
  held : Bool
  /-- a thermal shutdown is raised at the next start; in AON (R505) -/
  thermNext : Bool
  /-- THERM_N is asserted (R503) -/
  thermN : Bool
  /-- the wake timer asserts WAKE_N (R486) -/
  wakeN : Bool
  /-- when the core rails went down, in ns of `now`; the wake timer counts from there (R486) -/
  downAt : Option Nat
  /-- a wake or PWR_CMD.ACTIVE came during entry into Fallow (R494) -/
  wakeLatched : Bool
  /-- until READY, only PWR, SVC and SEC answer: a warm reset, strap code 2 (R496, R586) -/
  barred : Bool
  deriving DecidableEq, Repr

/-! ## Firmware, flash and OTP -/

/-- The fast-start record (R553): chip ID, firmware version, failed units, repaired rows of the line store. -/
structure FastRec where
  chip : BitVec 64
  fwver : Word
  failed : List Nat
  rows : List Nat
  consumed : Bool
  deriving DecidableEq, Repr

/-- What flash holds (R580, R581, R597). -/
structure Flash where
  /-- image slots 0 and 1, and 2 for the recovery slot: an unlisted slot is as the board programmed it (a start reads
  it), none holds no image -/
  slots : Tbl (Option Image)
  /-- the two slot-pointer records: SEQ and SLOT -/
  pointers : (Nat × Nat) × (Nat × Nat)
  bankA : Option Bank
  bankB : Option Bank
  fast : Option FastRec
  deriving DecidableEq, Repr

/-- What OTP holds (R418, R601, R604, R605, R607). -/
structure Otp where
  chipId : BitVec 64
  /-- the life-cycle state word (R601, R603) -/
  word : BitVec 8
  /-- the intent words, by target state (R601) -/
  intents : Tbl Word
  /-- the state that the last cold start resolved -/
  resolved : Option Nat
  /-- key slots programmed, one bit each -/
  keyValid : BitVec 4
  revoked : BitVec 4
  svn : Nat
  /-- banks must be signed (R599) -/
  cfgSign : Bool
  deriving DecidableEq, Repr

structure Svc where
  /-- the running image; none before a start, and where the board programmed it -/
  running : Option Image
  /-- the image of STAGED and SHADOW (R588) -/
  staged : Option Image
  /-- the image handed over from, in UNCONFIRMED, with SVC_SLOT, SVC_FWVER, SVC_CFGSTAT, SVC_CFGSEQ and SEC_KEY as they
  stood then, by address -/
  old : Option Image
  before : Tbl Word
  /-- the slot being programmed, and its image (R589) -/
  programming : Option (Nat × Image)
  /-- the slot of the staged image has been verified (R594) -/
  verified : Bool
  /-- the hand-back of R595 runs -/
  reverting : Bool
  /-- UNCONFIRMED was entered, in ns of `now` (R595) -/
  confAt : Nat
  /-- the last watchdog expiry of each core, in ns of `now` (R579) -/
  wdog : Tbl Nat
  /-- the operation that a write of SVC_CMD began and that waits for its bytes from host memory, or for what other chips
  answer (R587) -/
  started : Option Nat
  /-- the command DMA channel it holds (R93, R618) -/
  channel : Option Nat
  deriving DecidableEq, Repr

/-! ## What leaves the device -/

/-- A control message on the fabric (R217, R407, R414-R416, R456, R590). -/
inductive Msg where
  | prepare (group : Word) (tb : Nat) (time : Word) (nodes : Nat) (f : Nat)
  | ready (group : Word) (f : Nat) (count : Nat)
  | refuse (group : Word) (reason : SalvoReason)
  | commit (group : Word) (f : Nat)
  | cancel (group : Word) (reason : SalvoReason)
  | rregWr (off : Nat) (v : Word)
  | rdmaWr (off : Nat) (data : List Byte)
  | rregRd (tag : Nat) (off : Nat)
  | rdmaRd (tag : Nat) (off : Nat) (len8 : Nat)
  | flush (tag : Nat)
  | cpl (tag : Nat) (rejected : Bool) (data : List Byte)
  | join (prio : Nat) (chip : BitVec 64)
  | assign (order : List (Nat × BitVec 64)) (ftime : Nat)
  | time (tb : Nat) (mode : Nat) (full : Nat)
  | image (img : Image) (onward : Nat)
  /-- what becomes of it: 0 staged, 1 failed a second time, 2 a fresh copy is asked for, 3 the node is not in IDLE -/
  | imageAnswer (code : Nat)
  | trunkup (t cnt : Nat)
  deriving DecidableEq, Repr

/-- The output balls whose level the manual fixes by rules (R92, R345, R463, R486, R503, R535). -/
inductive Pin where
  | faultN
  | intN
  | activeN
  | wakeN
  | thermN
  /-- the clock of microphones 2n and 2n + 1 runs (R439) -/
  | pdmClk (n : Nat)
  deriving DecidableEq, Repr

/-- The header that ESS and the MAC give a packet on one leg: station addresses as 48-bit numbers, tag, IP addresses as
numbers over their bytes, UDP ports (R353). -/
structure LegHeader where
  port : Nat
  dmac : Nat
  smac : Nat
  tci : Option Nat
  ipv6 : Bool
  dst : Nat
  src : Nat
  dport : Nat
  sport : Nat
  dscp : Nat
  ttl : Nat
  deriving DecidableEq, Repr

/-- A sample row data header: row of the field or frame, first pixel, length in bytes (R365). -/
structure Srd where
  row : Nat
  pixel : Nat
  length : Nat
  deriving DecidableEq, Repr

/-- An RTP packet of a transmit flow: the same on every leg (R365-R367). -/
structure SentPacket where
  flow : Nat
  pt : Nat
  ssrc : Nat
  seq : Nat
  ts : Word
  marker : Bool
  srds : List Srd
  /-- payload length, where the flow fixes it -/
  length : Option Nat
  /-- the payload: a slice's from its canvas frame (R289), a relayed one as it came (R371) -/
  payload : List Byte
  /-- TYPE 4: its ancillary packets (R370) -/
  anc : List AncPacket
  deriving DecidableEq, Repr

/-- A frame that an SDI output begins to send (R316). -/
structure SentFrame where
  /-- its lane, the first of a bond, and the lanes that carry it (R302, R303) -/
  lane : Nat
  lanes : Nat
  /-- line rate code of each (R299, R301) -/
  rate : Nat
  fmt : Fmt
  /-- the source track whose picture it carries; none: the Fallow raster -/
  src : Option Nat
  /-- Level B-DL (R304) -/
  levelB : Bool
  /-- lines that carry TRS -/
  trs : Nat
  /-- lines that carry a line number and a line CRC; 0 on SD -/
  numbered : Nat
  /-- error flags of its EDH packets, on SD -/
  edh : Option Nat
  /-- payload ID bytes of each track's data stream, link by link, and the lines that carry them (R317) -/
  pids : List Word
  pidLines : List Nat
  /-- the source's audio packets are removed (R17) -/
  strip : Bool
  /-- groups of four channels that are inserted, with the source of each channel (R433) -/
  groups : List (Nat × List Nat)
  deriving DecidableEq, Repr

/-- The signal on a GENOUT ball (R480): a pulse at each frame start of RATE plus an offset in units of 1/3 ns; 10 MHz; a
pulse from each second of a base. Widths in ns. -/
inductive GenSignal where
  | framePulse (rate ofs width : Nat)
  | tenMhz
  | pps (tb width : Nat)
  deriving DecidableEq, Repr

/-- What a TDM port does with its output balls (R434, R435, R437, R440). -/
inductive TdmAct where
  /-- the device drives BCK at this many Hz, and FCK once in this many slots -/
  | clocks (bck slots : Nat)
  /-- outputs ramp to full gain, or to zero, over this many samples, beginning with this frame -/
  | ramp (up : Bool) (samples frame : Nat)
  /-- DOUT, and in master mode BCK and FCK, go to high impedance -/
  | floats
  deriving DecidableEq, Repr

/-- The mirrored tables that an active chip sends a partner in SYNC (R571, R572): the tenant and signature-region registers
and the tables of each subsystem. -/
structure Snapshot where
  regs : Tbl Word
  ten : Ten
  xpt : Xpt
  slots : Tbl Salvo
  canvases : Tbl CanvasState
  slices : Tbl SliceDef
  stills : Tbl Still
  rx : Tbl FlowRx
  tx : Tbl FlowTx
  maps : Tbl Nat
  ports : Tbl TdmCfg
  tpos : Tbl TpoState
  deriving DecidableEq, Repr

/-- What the device sends out of the package. -/
inductive Emission where
  /-- entry `e` of a ring, as the bytes written at `addr` (R80, R163, R165) -/
  | ringEntry (t r addr : Nat) (e : RingEntry) (bytes : List Byte)
  | msix (t v addr : Nat) (data : Word)
  | hostWrite (addr : Nat) (data : List Byte)
  /-- a read completed with Unsupported Request (R59) -/
  | unsupported (t : Nat)
  | msg (dst : Nat) (m : Msg)
  /-- a copy that node `via` relays (R221) -/
  | relay (via dst : Nat) (m : Msg)
  | mirror (m : MirrorRecord)
  | pin (p : Pin) (asserted : Bool)
  /-- ILK_OUT is driven high or low; none: high impedance (R562) -/
  | ilkOut (level : Option Bool)
  /-- the snapshot for a partner in SYNC, and the request of one (R572, R573) -/
  | snapshot (x : Snapshot)
  | mirrorRequest
  /-- a membership report that firmware sends on a port for a receive flow (R357) -/
  | report (port flow : Nat) (g : McGroup)
  /-- a leave that firmware sends on a port for a receive flow (R357, R372) -/
  | leave (port flow : Nat) (g : McGroup)
  /-- a packet of a transmit flow on a leg (R366, R368, R371) -/
  | packet (h : LegHeader) (p : SentPacket)
  /-- a frame or fragment on a port's wire, from its first byte after the start delimiter to its FCS (R333, R338, R342) -/
  | ether (port : Nat) (bytes : List Byte)
  /-- clause 73: the port advertises 25GBASE-KR/CR and requests a FEC (R331) -/
  | advertise (port fec : Nat)
  /-- a control flit joins the control stream of a link (R395) -/
  | flit (link : Nat) (f : BitVec 128)
  /-- the line bits of a block that a lane sends, in line order (R382-R385) -/
  | block (lane : Nat) (bits : List Bool)
  /-- cursors of a lane's transmitter: pre, main and post, in 1/48 of full swing (R402) -/
  | taps (lane pre main post : Nat)
  /-- TPOk is driven high or low; none: high impedance (R462, R467) -/
  | tpo (k : Nat) (level : Option Bool)
  /-- GENOUTk carries a signal, active low or high; none: high impedance (R480) -/
  | genout (k : Nat) (activeLow : Bool) (sig : Option GenSignal)
  | tdm (p : Nat) (a : TdmAct)
  /-- a frame of an SDI output (R316) -/
  | frame (f : SentFrame)
  /-- the payload ID that an SDI output inserts from here on in the frame it is sending, on each link (R204) -/
  | payloadId (lane : Nat) (pids : List Word) (lines : List Nat)
  /-- bytes that firmware or boot code programs at an offset of the flash (R553, R580, R581) -/
  | flash (off : Nat) (data : List Byte)
  /-- JOIN on a link, whose far node has no number yet (R414) -/
  | join (link prio : Nat) (chip : BitVec 64)
  deriving DecidableEq, Repr

/-! ## The machine -/

/-- The block's whole state. -/
structure State where
  /-- commands that wait, first in first out -/
  pending : List Instr
  /-- nanoseconds since reset, counted in TB cycles -/
  now : Nat
  /-- register values that differ from their reset values, by address -/
  regs : Tbl Word
  /-- package memory (R248) -/
  mem : List Host.Cell
  /-- what has left the device, newest first -/
  out : List Emission
  /-- index of the next free value -/
  freeCtr : Nat
  hif : Hif
  ten : Ten
  tim : Tim
  hdg : Hdg
  fov : Fov
  planes : Planes
  xpt : Xpt
  fsa : Fsa
  cmp : Cmp
  sal : Sal
  ess : Ess
  bst : Bst
  blk : Blk
  mln : Mln
  mac : Mac
  aud : Aud
  clk : Clk
  pwr : Pwr
  svc : Svc
  flash : Flash
  otp : Otp
  deriving DecidableEq, Repr

/-- Why a step stops with a fault. -/
inductive Fault where
  /-- raised by a remote DMA access whose address lies beyond the 48 GiB of package memory; safe -/
  | packageMemoryRange
  deriving DecidableEq, Repr

/-- Why a command has no meaning. -/
inductive Refusal where
  /-- raised by the arm of a command that the model does not cover yet; safe -/
  | notModelled (mnemonic : String)
  deriving DecidableEq, Repr

/-- The machine right after power-on reset: every register at its reset value, nothing in progress. -/
def State.reset : State where
  pending := []
  now := 0
  regs := []
  mem := []
  out := []
  freeCtr := 0
  hif := ⟨[], [], 0, [], [], 0, [], [], [], [], 0, []⟩
  ten := ⟨[], [], none⟩
  tim := ⟨[], []⟩
  hdg := ⟨[], []⟩
  fov := ⟨0, false, 0, none, false, 0, false, false, 0, 0⟩
  planes := ⟨none, [], false, false⟩
  xpt := ⟨[], [], [], [], [], [], 0, [], [], [], [], [], []⟩
  fsa := ⟨[], [], [], [], [], []⟩
  cmp := ⟨[], [], [], [], [], []⟩
  sal := ⟨[], [], []⟩
  ess := ⟨[], []⟩
  bst := ⟨[], [], [], [], [], []⟩
  blk := ⟨[], [], 0, [], [], 0, 0, 0, [], [], [], [], [], false⟩
  mln := ⟨[], []⟩
  mac := ⟨[]⟩
  aud := ⟨[], [], [], []⟩
  clk := ⟨none, none⟩
  pwr := ⟨true, true, false, false, false, false, none, false, false⟩
  svc := ⟨none, none, none, [], none, false, false, 0, [], none, none⟩
  flash := ⟨[], ((0, 0), (0, 0)), none, none, none⟩
  otp := ⟨0, 0, [], none, 0, 0, 0, false⟩

/-- What a byte of package memory that nothing has written reads as: the manual gives none (log entry 3). -/
def Memory.blank : Byte := 0

/-- Bytes of package memory: two stacks of 24 GiB (R248). -/
def Memory.size : Nat := 51539607552

/-- Keys strictly rising. -/
def Tbl.rising {α : Type} : Tbl α → Bool
  | [] => true
  | [_] => true
  | a :: b :: t => decide (a.1 < b.1) && Tbl.rising (b :: t)

/-- The canonical form of a memory: addresses strictly rising and inside the package, no byte equal to what an
unlisted address reads as. -/
def Memory.wf (m : List Host.Cell) : Bool :=
  Tbl.rising m && m.all (fun c => c.2 != Memory.blank && decide (c.1 < Memory.size))

end Sys2Proof.Machine
end

