-- ==== Sys2Proof/Machine/Ops.lean ====
section
/-! DEFINITION. The named operations over tables, registers, package memory, the record of what leaves the device and
the free values. -/

namespace Sys2Proof.Machine

open Sys2Proof

/-! ## Tables -/

/-- `f n`; evaluation finds n before it goes on. -/
def withNat {α : Type} (n : Nat) (f : Nat → α) : α :=
  match n with
  | 0 => f 0
  | k + 1 => f (k + 1)

def Tbl.find? {α : Type} : Tbl α → Nat → Option α
  | [], _ => none
  | (a, v) :: t, k => if a = k then some v else Tbl.find? t k

def Tbl.getD {α : Type} (t : Tbl α) (k : Nat) (d : α) : α := (Tbl.find? t k).getD d

/-- Set key `k`, keeping the keys rising. -/
def Tbl.put {α : Type} : Tbl α → Nat → α → Tbl α
  | [], k, v => [(k, v)]
  | (a, w) :: t, k, v =>
    if k < a then (k, v) :: (a, w) :: t
    else if k = a then (k, v) :: t
    else (a, w) :: Tbl.put t k v

/-- Remove key `k`. -/
def Tbl.del {α : Type} : Tbl α → Nat → Tbl α
  | [], _ => []
  | (a, w) :: t, k => if a = k then Tbl.del t k else (a, w) :: Tbl.del t k

/-- Set key `k` of a table in canonical form: a value equal to what an unlisted key holds is not listed. -/
def Tbl.putD {α : Type} [DecidableEq α] (t : Tbl α) (k : Nat) (v d : α) : Tbl α :=
  if v = d then Tbl.del t k else Tbl.put t k v

def Tbl.has {α : Type} (t : Tbl α) (k : Nat) : Bool := (Tbl.find? t k).isSome

/-! ## Registers (R6-R8) -/

/-- The register at address `a`. -/
def State.rd (s : State) (a : Nat) : Word := Tbl.getD s.regs a (resetAt a)

/-- Set the register at address `a`. -/
def State.wr (s : State) (a : Nat) (v : Word) : State := { s with regs := Tbl.putD s.regs a v (resetAt a) }

/-- A field of the register at `a`. -/
def State.fld (s : State) (a : Nat) (f : Field) : Nat := f.get (s.rd a)

/-- A one-bit field of the register at `a`. -/
def State.bit (s : State) (a : Nat) (f : Field) : Bool := s.fld a f != 0

/-- Set a field of the register at `a`, every other bit as it was. -/
def State.setFld (s : State) (a : Nat) (f : Field) (n : Nat) : State := s.wr a (f.set (s.rd a) n)

def State.setBit (s : State) (a : Nat) (f : Field) (b : Bool) : State := s.setFld a f (if b then 1 else 0)

/-- Add to a counter that saturates at its field's largest value. -/
def State.incBy (s : State) (a : Nat) (f : Field) (n : Nat) : State :=
  s.setFld a f (min (s.fld a f + n) (2 ^ f.width - 1))

def State.inc (s : State) (a : Nat) (f : Field) : State := s.incBy a f 1

/-- Return the register at `a` to its reset value. -/
def State.resetReg (s : State) (a : Nat) : State := { s with regs := Tbl.del s.regs a }

/-- Return every register with an address that satisfies `p` to its reset value. -/
def State.resetRegs (s : State) (p : Nat → Bool) : State := { s with regs := s.regs.filter (fun e => !p e.1) }

/-- Clear the registers in a list: the counters a CLRCNT names. -/
def State.clearAll (s : State) (l : List Nat) : State := l.foldl (fun s a => s.wr a 0) s

/-! ## Free values (log entry 5) -/

def State.freshWord (s : State) : Word × State :=
  (Config.freeWord s.freeCtr, { s with freeCtr := s.freeCtr + 1 })

/-- One of `m` choices (`m` not 0), taken freely. -/
def State.freshPick (s : State) (m : Nat) : Nat × State :=
  (Config.freePick s.freeCtr m % m, { s with freeCtr := s.freeCtr + 1 })

/-! ## Package memory (R248) -/

def Memory.read (m : List Host.Cell) (a : Nat) : Byte := Tbl.getD m a Memory.blank

def Memory.write (m : List Host.Cell) (a : Nat) (b : Byte) : List Host.Cell :=
  if a < Memory.size then Tbl.putD m a b Memory.blank else m

def Memory.writes : List Host.Cell → Nat → List Byte → List Host.Cell
  | m, _, [] => m
  | m, a, b :: bs => Memory.writes (Memory.write m a b) (a + 1) bs

def Memory.reads (m : List Host.Cell) (a n : Nat) : List Byte := (List.range n).map (fun i => Memory.read m (a + i))

/-! ## What leaves the device (log entry 4) -/

def State.emit (s : State) (e : Emission) : State := { s with out := e :: s.out }

def State.emitAll (s : State) (l : List Emission) : State := { s with out := l.reverse ++ s.out }

/-- Bytes as a number, the first the least significant (R6). -/
def ofBytes (l : List Byte) : Nat := l.foldr (fun b n => b.toNat + 256 * n) 0

/-- `n` as `k` bytes, least significant first (R6). -/
def leBytes (n k : Nat) : List Byte := (List.range k).map (fun i => BitVec.ofNat 8 (n / 256 ^ i))

/-! ## Lists -/

/-- Apply `f` to the state for each element in turn. -/
def State.each {α : Type} (s : State) (l : List α) (f : State → α → State) : State := l.foldl f s

/-- `f s` where `b` holds, else `s`. -/
def State.when (s : State) (b : Bool) (f : State → State) : State := if b then f s else s

/-- The first `some` over a list. -/
def firstSome {α β : Type} (f : α → Option β) : List α → Option β
  | [] => none
  | a :: t => match f a with
    | some b => some b
    | none => firstSome f t

/-- The lowest element of `0 .. n - 1` that satisfies `p`. -/
def lowest (n : Nat) (p : Nat → Bool) : Option Nat := (List.range n).find? p

/-! ## Reset defaults of the table entries -/

def Ring.idle : Ring := ⟨true, 0, false, 0, [], [], false⟩
def Chan.idle : Chan := ⟨none, 0, 0, false, false, 0, false⟩
def TimeBase.start : TimeBase := ⟨0, 0, true, false, 0, 0, 0, 0, false⟩
def TpoState.idle : TpoState := ⟨none, none, none⟩

/-! ## Time bases as every chapter reads them (R446, R447) -/

def State.base (s : State) (b : Nat) : TimeBase := Tbl.getD s.tim.bases b TimeBase.start

def State.setBase (s : State) (b : Nat) (x : TimeBase) : State :=
  { s with tim := { s.tim with bases := Tbl.put s.tim.bases b x } }

/-- Full time in whole nanoseconds (R446). -/
def State.fullTime (s : State) (b : Nat) : Nat := (s.base b).time / 2 ^ 32

/-- The 32-bit timestamp of the present instant (R447). -/
def State.stamp (s : State) (b : Nat) : Nat := s.fullTime b % 2 ^ 32

/-- The full time named by a 32-bit commit time under R43; none where it has already passed, which includes a base in
MODE 0 that stands at another count and so never reaches it (R43; log entry 12). -/
def State.dueTime (s : State) (b : Nat) (t : Nat) : Option Nat :=
  let d := (t + 2 ^ 32 - s.stamp b) % 2 ^ 32
  if d > 2 ^ 31 then none
  else if s.fld (TIM_TB_CTRL b) TIM_TB_CTRL_MODE = 0 ∧ d ≠ 0 then none
  else some (s.fullTime b + d)

end Sys2Proof.Machine
end

