-- ==== Sys2Proof/Machine/Formats.lean ====
section
/-! DEFINITION. Format descriptors (R26-R28, R302): fields, track counts, rasters and rates, and the lines of a raster
(R200). -/

namespace Sys2Proof.Machine

open Sys2Proof

/-! ## Format descriptors (R26) -/

/-- A descriptor from its 8 bytes. -/
def fmtOf (n : Nat) : Fmt :=
  let b := fun (i lo w : Nat) => n / 2 ^ (8 * i + lo) % 2 ^ w
  ⟨n % 2 ^ 32, b 4 0 8, b 5 0 8, b 6 0 2, b 6 2 2, b 6 4 2, b 7 0 2, b 7 2 1, b 6 6 2 + 4 * b 7 3 5⟩

/-- Bytes 4-7 of a descriptor, as a word. -/
def Fmt.high (f : Fmt) : Nat :=
  f.raster + 2 ^ 8 * f.rate + 2 ^ 16 * (f.tracks + 4 * f.sampling + 16 * f.links) + 2 ^ 24 * (f.transfer + 4 * f.colour)

/-- The descriptor from bytes 4-7 (as a detected descriptor register holds them) and a payload ID. -/
def fmtFrom (high pid : Nat) : Fmt := fmtOf (pid % 2 ^ 32 + 2 ^ 32 * (high % 2 ^ 32))

/-- The whole 8-byte descriptor, its reserved bits included. -/
def Fmt.bits (f : Fmt) : BitVec 64 :=
  BitVec.ofNat 64 (f.pid + 2 ^ 32 * (f.high + 2 ^ 22 * (f.reserved % 4) + 2 ^ 27 * (f.reserved / 4)))

def Fmt.zero : Fmt := ⟨0, 0, 0, 0, 0, 0, 0, 0, 0⟩

/-- Tracks the TRACKS code names. -/
def trackCount (code : Nat) : Nat := if code = 0 then 1 else if code = 1 then 2 else 4

def Fmt.count (f : Fmt) : Nat := trackCount f.tracks

/-- Base track count of R27, none where the combination is absent. -/
def baseTracks (raster rate : Nat) : Option Nat :=
  if raster = 1 then (if rate = 4 then some 1 else none)
  else if raster = 2 then (if rate = 3 then some 1 else none)
  else if raster = 3 then (if 1 ≤ rate ∧ rate ≤ 8 then some 1 else none)
  else if raster = 4 ∨ raster = 6 then (if 1 ≤ rate ∧ rate ≤ 5 then some 1 else none)
  else if raster = 5 then (if 1 ≤ rate ∧ rate ≤ 8 then some 1 else none)
  else if raster = 7 then
    (if 1 ≤ rate ∧ rate ≤ 5 then some 2 else if 6 ≤ rate ∧ rate ≤ 8 then some 4 else none)
  else if raster = 8 then (if 6 ≤ rate ∧ rate ≤ 8 then some 4 else none)
  else none

/-- Non-zero SAMPLING allowed (R27). -/
def samplingAllowed (raster rate : Nat) : Bool := raster == 5 || (raster == 7 && decide (rate ≤ 5))

/-- Track count of a raster, rate and sampling (R27). -/
def tracksOf (raster rate sampling : Nat) : Option Nat :=
  match baseTracks raster rate with
  | none => none
  | some n => if sampling = 0 then some n else if samplingAllowed raster rate then some (2 * n) else none

/-- A row of the interface table names TRACKS, LINKS and RASTER (R302). -/
def interfaceRow (count links raster : Nat) : Bool :=
  if raster = 8 then count == 4 && links == 0
  else if count = 1 then links == 0
  else if count = 2 then links == 0 || links == 1
  else links == 0 || links == 2

/-- R27, R28: the descriptor names a supported format and sets no reserved bit. -/
def Fmt.valid (f : Fmt) : Bool :=
  f.reserved == 0 && f.tracks != 3 && f.links != 3 && f.transfer != 3 &&
  (match tracksOf f.raster f.rate f.sampling with
   | none => false
   | some n => n == f.count && interfaceRow n f.links f.raster)

/-- The BOND the interface of a format needs (R302). -/
def Fmt.bond (f : Fmt) : Nat :=
  if f.raster = 8 then 2 else if f.links = 1 then 1 else if f.links = 2 then 2 else 0

/-- The lines that carry the payload ID (R317). -/
def pidLines (raster : Nat) : List Nat :=
  if raster = 1 then [13, 276] else if raster = 2 then [9, 322] else if raster = 4 ∨ raster = 6 then [10, 572] else [10]


/-- Lanes of a bond (R302, R305). -/
def bondLanes (bond : Nat) : Nat := if bond = 1 then 2 else if bond = 2 then 4 else 1

/-- Data streams on each link of a format's interface: one of its tracks each (R303, R317). -/
def Fmt.streams (f : Fmt) : Nat := if f.raster = 8 then 4 else f.count / bondLanes f.bond

/-- The payload ID bytes inserted on every link and every track's data stream, link by link: the descriptor's where they are
not zero, else built from its bytes 4-7 (R26, R29, R317). -/
def Fmt.payloadIds (f : Fmt) : List Word :=
  (List.range (bondLanes f.bond * f.streams)).map (fun j =>
    if f.pid = 0 then Config.payloadId f.high j else BitVec.ofNat 32 f.pid)

/-- The rate belongs to the 148.5/1.001 MHz family; SD never does (R22, R26). -/
def Fmt.fractional (f : Fmt) : Bool :=
  (f.raster != 1 && f.raster != 2) && (f.rate == 1 || f.rate == 4 || f.rate == 7)

/-- Line rate code of a format's interface (R299, R302): 270 Mb/s, 1.485, 2.97, 5.94 or 11.88 Gb/s, the last four with the
code before theirs in the 148.5/1.001 MHz family. -/
def Fmt.lineRate (f : Fmt) : Nat :=
  let full :=
    if f.links ≠ 0 then 5
    else if f.count = 4 then 9
    else if f.count = 2 then 7
    else if f.raster = 5 ∧ 6 ≤ f.rate then 5
    else 3
  if f.raster = 1 ∨ f.raster = 2 then 1 else if f.fractional then full - 1 else full

/-- Frame period in units of 1/3 ns: 1001/24, 1/24, 1/25, 1001/30, 1/30, 1/50, 1001/60 and 1/60 s of R26, rounded down
to the unit. -/
def framePeriod3 (rate : Nat) : Nat :=
  if rate = 1 then 125125000 else if rate = 2 then 125000000 else if rate = 3 then 120000000
  else if rate = 4 then 100100000 else if rate = 5 then 100000000 else if rate = 6 then 60000000
  else if rate = 7 then 50050000 else if rate = 8 then 50000000 else 0

/-- Frame rate in 1/1001 Hz. -/
def frameRate1001 (rate : Nat) : Nat :=
  if rate = 1 then 24000 else if rate = 2 then 24024 else if rate = 3 then 25025 else if rate = 4 then 30000
  else if rate = 5 then 30030 else if rate = 6 then 50050 else if rate = 7 then 60000 else if rate = 8 then 60060
  else 0

/-- Width and height of a raster (R26). -/
def rasterSize (raster : Nat) : Nat × Nat :=
  if raster = 1 then (720, 487) else if raster = 2 then (720, 576) else if raster = 3 then (1280, 720)
  else if raster = 4 ∨ raster = 5 ∨ raster = 6 then (1920, 1080)
  else if raster = 7 then (3840, 2160) else if raster = 8 then (3840, 2160) else (0, 0)

/-- The rasters R26 lists as interlaced. -/
def interlaced (raster : Nat) : Bool := raster == 1 || raster == 2 || raster == 4

/-- Lines of a frame of the structure carried on each track (R200, R233). -/
def linesOf (raster : Nat) : Nat := if raster = 1 then 525 else if raster = 2 then 625 else if raster = 3 then 750 else 1125

/-- The switch line of a raster (R200): the switch is made in the first field or segment, so line 273, 319 or 569 of the
second is never one. -/
def switchLine (raster : Nat) : Nat := if raster = 1 then 10 else if raster = 2 then 6 else 7

/-- Whether the line that ends is the switch line of an output in format `f`; one without a format has none to miss. -/
def atSwitchLine (f : Fmt) (line : Nat) : Bool := f.raster == 0 || line == switchLine f.raster

/-- The descriptor carries no format (RASTER 0x00). -/
def Fmt.none (f : Fmt) : Bool := f.raster == 0

/-- The format given by bytes 4-7 alone. -/
def highFmt (high : Nat) : Fmt := fmtFrom high 0

/-- Two formats equal in every field other than PID (R180, R206). -/
def Fmt.same (f g : Fmt) : Bool := f.high == g.high

/-- Two formats equal in every field other than RATE and PID (R140). -/
def Fmt.sameButRate (f g : Fmt) : Bool := { f with rate := 0 }.high == { g with rate := 0 }.high

/-- Tracks of a route of this format: 16 for RASTER 0x08 (R174). -/
def Fmt.width (f : Fmt) : Nat := if f.raster = 8 then 16 else f.count

/-- Frame period in ns, rounded up (R209). -/
def framePeriodNs (rate : Nat) : Nat := ceilDiv (framePeriod3 rate) 3

/-- Bits of one pixel, in quarters of a byte: 4:2:2 10 and 12 bit, RGB 10 and 12 bit (R243). -/
def pixelQuarters (sampling : Nat) : Nat :=
  if sampling = 0 then 10 else if sampling = 1 then 12 else if sampling = 2 then 15 else 18

end Sys2Proof.Machine
end

