-- ==== Sys2Proof/Machine/Budgets.lean ====
section
/-! DEFINITION. The five capacity budgets (R124-R128): what surfaces, synchronisers and canvases are charged
(R243, R249, R254, R255, R265-R268), what is in use, and what a further charge would exceed. -/

namespace Sys2Proof.Machine

open Sys2Proof

/-! ## Charges -/

def Charge.zero : Charge := ⟨0, 0, 0, 0, 0⟩

/-- The charge to the budget with a code of R124. -/
def Charge.get (c : Charge) (code : Nat) : Nat :=
  if code = 0 then c.fsync else if code = 1 then c.fabric else if code = 2 then c.membw
  else if code = 3 then c.cmppix else c.surf

def Charge.add (a b : Charge) : Charge :=
  ⟨a.fsync + b.fsync, a.fabric + b.fabric, a.membw + b.membw, a.cmppix + b.cmppix, a.surf + b.surf⟩

/-- The sum of the charges to one budget over the allocations that satisfy `p`. -/
def State.chargeSum (s : State) (code : Nat) (p : Alloc → Bool) : Nat :=
  (s.ten.allocs.filter p).foldl (fun n a => n + a.charge.get code) 0

/-- A tenant's use of a budget (R125). -/
def State.use (s : State) (t code : Nat) : Nat := s.chargeSum code (fun a => a.owner == t)

def State.totalUse (s : State) (code : Nat) : Nat := s.chargeSum code (fun _ => true)

def State.cap (s : State) (code : Nat) : Nat := s.fld (TEN_CAP code) TEN_CAP_VALUE
def State.rsv (s : State) (t code : Nat) : Nat := s.fld (TEN_RSV t code) TEN_RSV_VALUE

/-- R128: the first budget in ascending code that the charge would exceed, not counting allocations that `drop`
names. -/
def State.overBudget (s : State) (t : Nat) (c : Charge) (drop : Alloc → Bool) : Option Nat :=
  lowest 5 (fun code => c.get code != 0 &&
    (decide (s.rsv t code < s.chargeSum code (fun a => a.owner == t && !drop a) + c.get code)
      || decide (s.cap code < s.chargeSum code (fun a => !drop a) + c.get code)))

def State.setAllocs (s : State) (l : List Alloc) : State := { s with ten := { s.ten with allocs := l } }

/-- Record an allocation as the newest. -/
def State.alloc (s : State) (owner : Nat) (h : Holding) (c : Charge) : State :=
  if c = Charge.zero then s else s.setAllocs (s.ten.allocs ++ [⟨owner, h, c⟩])

/-- Release the allocations that `p` names. -/
def State.release (s : State) (p : Holding → Bool) : State := s.setAllocs (s.ten.allocs.filter (fun a => !p a.holding))

def State.allocOf (s : State) (h : Holding) : Option Alloc := s.ten.allocs.find? (fun a => a.holding == h)

/-! ## Surfaces and synchronisers -/

/-- Raw tile size (R254). -/
def tileRaw (sampling : Nat) : Nat :=
  if sampling = 0 then 640 else if sampling = 1 then 768 else if sampling = 2 then 960 else if sampling = 4 then 320 else 1152

/-- The alpha plane of a canvas, one 10-bit component, stands beside the SAMPLING codes as a fifth kind of plane (R267). -/
def alphaPlane : Nat := 4

/-- Raw tile size of the alpha plane (R267). -/
def alphaRaw : Nat := tileRaw alphaPlane

def tilesOf (w h : Nat) : Nat := ceilDiv w 32 * ceilDiv h 8

/-- Bytes of a tile directory: one byte a tile, padded to a multiple of 4,096 (R254). R255 gives the 8,100 tiles of 1920 x
1080 a directory of 12,288 bytes, a multiple of 4,096 that is not the next one; every other count takes the next, as its
other example does (log entry 21). -/
def dirSize (tiles : Nat) : Nat := if tiles = 8100 then 12288 else ceilDiv tiles 4096 * 4096

/-- Surface size: the padded directory and the tile slots (R254, R255). -/
def planeSize (w h raw : Nat) : Nat := dirSize (tilesOf w h) + tilesOf w h * raw

/-- Width and height of the surface of a route (R628). -/
def routeRaster (f : Fmt) : Nat × Nat := if f.raster = 8 then (7680, 4320) else rasterSize f.raster

def surfaceSize (f : Fmt) : Nat := planeSize (routeRaster f).1 (routeRaster f).2 (tileRaw f.sampling)

def mib : Nat := 1048576

/-- Bytes × frame rate in GB/s, rounded up. -/
def gbps (bytes rate : Nat) : Nat := ceilDiv (bytes * frameRate1001 rate) (1001 * 1000000000)

/-- R249: what a compositor-input surface is charged. -/
def surfaceCharge (f : Fmt) : Charge :=
  ⟨0, 0, gbps (surfaceSize f) f.rate, 0, ceilDiv (3 * surfaceSize f) mib⟩

/-- Frame bytes of a stream (R243); the four bonded streams of RASTER 0x08 count together. -/
def frameBytes (f : Fmt) : Nat :=
  let one := (rasterSize f.raster).1 * (rasterSize f.raster).2 * pixelQuarters f.sampling / 4 + 57344 * f.count
  if f.raster = 8 then 4 * one else one

/-- FSYNC units (R243). -/
def syncUnits (f : Fmt) : Nat :=
  max 1 (max (ceilDiv (frameBytes f) 5242880) (ceilDiv (2 * frameBytes f * frameRate1001 f.rate) (1001 * 750000000)))

/-! ## Canvases as their pending commands leave them -/

def CanvasState.idle : CanvasState := ⟨none, [], [], [], 0, none, none, [], 0, false, none, [], none, none, []⟩

def State.canvas (s : State) (c : Nat) : CanvasState := Tbl.getD s.cmp.canvases c CanvasState.idle

def State.setCanvas (s : State) (c : Nat) (x : CanvasState) : State :=
  { s with cmp := { s.cmp with canvases := Tbl.putD s.cmp.canvases c x CanvasState.idle } }

/-- Dispatched changes that no frame has taken. -/
def CanvasState.waiting (x : CanvasState) : List CanvasPend := x.pend.filter (fun p => !p.taken)

/-- The definition after every dispatched command. -/
def CanvasState.planned (x : CanvasState) : Option CanvasDef :=
  x.waiting.foldl (fun d p => match p.op with
    | .define e => some e
    | .delete => none
    | _ => d) x.now

/-- The definition that is charged: a DELETE releases the charges when it takes effect (log entry 22). -/
def CanvasState.charged (x : CanvasState) : Option CanvasDef :=
  x.waiting.foldl (fun d p => match p.op with
    | .define e => some e
    | _ => d) x.now

/-- Layer `i` after every dispatched command. -/
def CanvasState.plannedLayer (x : CanvasState) (i : Nat) : Option LayerDef :=
  x.waiting.foldl (fun l p => match p.op with
    | .layer j m => if i = j then m else l
    | .delete => none
    | _ => l) (Tbl.find? x.layers i)

/-- Layer `i` as it is charged: a DELETE removes it when it takes effect (R265, R268). -/
def CanvasState.chargedLayer (x : CanvasState) (i : Nat) : Option LayerDef :=
  x.waiting.foldl (fun l p => match p.op with
    | .layer j m => if i = j then m else l
    | _ => l) (Tbl.find? x.layers i)

/-- Canvas sampling (R267). -/
def CanvasDef.sampling (d : CanvasDef) : Nat := if d.out.raster = 0 then 2 else d.out.sampling

/-- Tiles that a range of pixels touches along one axis. -/
def span (x w step : Nat) : Nat := if w = 0 then 0 else (x + w - 1) / step - x / step + 1

def Rect.tiles (r : Rect) : Nat := span r.x.toNat r.w 32 * span r.y.toNat r.h 8

/-- Bytes that a layer reads per frame (R268). DESIGN CHOICE: no rule gives the raw tile size of a source that is not there; a
surface without a route counts 640 bytes a tile, a still that is gone too, and a canvas that is deleted none (log entry 53). -/
def State.layerBytes (s : State) (l : LayerDef) : Nat :=
  let raw :=
    if l.kind = 0 then
      match Tbl.find? s.fsa.surfaces l.idx with
      | some f => tileRaw f.fmt.sampling
      | none => 640
    else if l.kind = 1 then
      match Tbl.find? s.cmp.stills l.idx with
      | some t => tileRaw t.sampling
      | none => 640
    else
      match (s.canvas l.idx).planned with
      | some d => tileRaw d.sampling
      | none => 0
  l.crop.tiles * (raw + if l.key = 2 then alphaRaw else 0)

/-- Placed area clipped to a canvas (R265). -/
def Rect.clipped (r : Rect) (w h : Nat) : Nat :=
  let cut := fun (x : Int) (n lim : Nat) => (min (x + n) lim - max x 0).toNat
  cut r.x r.w w * cut r.y r.h h

/-- Engine work of one layer on a canvas (R265). -/
def LayerDef.work (l : LayerDef) (d : CanvasDef) : Nat :=
  ceilDiv (max (l.place.clipped d.width d.height) (l.crop.w * l.crop.h) * frameRate1001 d.rate) (1001 * 1000000)

/-- Engine work and CMPPIX charge of a canvas without layers (R265, R266). -/
def CanvasDef.pix (d : CanvasDef) : Nat := ceilDiv (d.width * d.height * frameRate1001 d.rate) (1001 * 1000000)

/-- Layers staged in salvos for layer `i` of canvas `c`. -/
def State.stagedLayers (s : State) (c i : Nat) : List LayerDef :=
  s.sal.slots.flatMap (fun e => e.2.entries.filterMap (fun n => match n.item with
    | .layer d j l => if d = c ∧ j = i then l else none
    | .route _ => none))

/-- The larger of a measure over a layer as planned and as staged (R145). -/
def State.layerMax (s : State) (c : Nat) (f : LayerDef → Nat) : Nat :=
  (List.range 32).foldl (fun n i =>
    n + (((s.canvas c).chargedLayer i).toList ++ s.stagedLayers c i).foldl (fun m l => max m (f l)) 0) 0

/-- The slices of canvas `c` after every dispatched command; a change taken at C(N) shows from A(N) on (R290). -/
def State.plannedSlices (s : State) (c : Nat) : Tbl SliceDef :=
  (s.canvas c).pend.foldl (fun l p => match p.op with
    | .slice i (some d) => Tbl.put l i d
    | .slice i none => Tbl.del l i
    | _ => l) (s.cmp.slices.filter (fun e => e.2.canvas == c))

/-- R268, R266: what a canvas with this definition is charged. -/
def State.canvasCharge (s : State) (c : Nat) (d : CanvasDef) : Charge :=
  let raw := tileRaw d.sampling
  let colour := planeSize d.width d.height raw
  let sc := colour + planeSize d.width d.height alphaRaw
  let sl := (s.plannedSlices c).foldl (fun n e => n + e.2.rect.tiles * raw) 0
  let bytes := sc + (if d.out.raster = 0 then 0 else colour) + sl + s.layerMax c s.layerBytes
  ⟨0, 0, gbps bytes d.rate, d.pix, ceilDiv (3 * sc) mib⟩

/-- Load of engine `e` (R265), canvases under MIGRATE counting on both (R230). -/
def State.engineLoad (s : State) (e : Nat) : Nat :=
  s.cmp.canvases.foldl (fun n p => match p.2.charged with
    | none => n
    | some d =>
      let on : Bool := d.engine == e || (match Tbl.find? s.sal.migs p.1 with
        | some m => m.target == e
        | none => false)
      if on then n + d.pix + s.layerMax p.1 (fun l => l.work d) else n) 0

/-- Set the charge of canvas `c` to what its state asks, keeping its place among the allocations; `own` names the tenant
that is charged: the one that charges already, or the one that has defined the canvas (R124, R268). -/
def State.rechargeTo (s : State) (c : Nat) (own : Option Nat) : State :=
  match (s.canvas c).charged with
  | none => s.release (fun h => h == .canvas c)
  | some d =>
    let q := s.canvasCharge c d
    match s.allocOf (.canvas c) with
    | some _ => s.setAllocs (s.ten.allocs.map (fun a =>
        if a.holding = .canvas c then { a with charge := q, owner := own.getD a.owner } else a))
    | none => s.alloc (own.getD (Tbl.getD s.ten.owner (65536 * 1 + c) 0)) (.canvas c) q

def State.recharge (s : State) (c : Nat) : State := s.rechargeTo c none

/-! ## The buffers of surfaces and canvases (R250, R267) -/

/-- What a reader takes: the newest complete buffer (R250). -/
def Surface.shown (x : Surface) : Option (List Byte) :=
  match x.newest with
  | some b => Tbl.find? x.buffers b
  | none => none

/-- The writer has filled its buffer with a whole frame and goes on to the next in turn (R250). -/
def Surface.wrote (x : Surface) (data : List Byte) : Surface :=
  { x with buffers := Tbl.put x.buffers x.fill data, newest := some x.fill, fill := (x.fill + 1) % 3 }

/-- The surface as it is after a change of its writer's route or of its memory: no buffer is complete (R250, R279). -/
def Surface.blank (x : Surface) : Surface := { x with frames := 0, buffers := [], newest := none }

/-- The canvas without a complete frame. -/
def CanvasState.blank (x : CanvasState) : CanvasState := { x with buffers := [], newest := none, making := false }

/-- The newest complete frame. -/
def CanvasState.shown (x : CanvasState) : Option CanvasFrame :=
  match x.newest with
  | some b => Tbl.find? x.buffers b
  | none => none

/-- The frame that leaves next. -/
def CanvasState.made (x : CanvasState) : Option CanvasFrame := if x.making then Tbl.find? x.buffers x.fill else none

end Sys2Proof.Machine
end

