-- ==== Sys2Proof/Machine/Rings.lean ====
section
/-! DEFINITION. MSI-X vectors, the rings the device writes and the completion of commands (R66-R92, R161). -/

namespace Sys2Proof.Machine

open Sys2Proof

/-! ## MSI-X (R89-R92) -/

/-- Vector `v` of function `t` is masked (vector control of the MSI-X table, R626). -/
def State.vecMasked (s : State) (t v : Nat) : Bool := s.bit (MSIX_VCTRL t v) MSIX_VCTRL_MASK

/-- The message of a vector as the MSI-X table gives it. -/
def State.vecMessage (s : State) (t v : Nat) : Emission :=
  .msix t v (2 ^ 32 * (s.rd (MSIX_ADDR_HI t v)).toNat + (s.rd (MSIX_ADDR_LO t v)).toNat) (s.rd (MSIX_DATA t v))

def State.setPending (s : State) (l : List Nat) : State := { s with hif := { s.hif with msixPending := l } }

/-- R91: a message for a masked vector sets its pending bit; at most one is pending. -/
def State.signal (s : State) (t v : Nat) : State :=
  if s.vecMasked t v then
    if s.hif.msixPending.contains (64 * t + v) then s else s.setPending (s.hif.msixPending ++ [64 * t + v])
  else s.emit (s.vecMessage t v)

/-- R91: the vector is unmasked, and its one pending message is sent. -/
def State.unmask (s : State) (t v : Nat) : State :=
  let s := s.setBit (MSIX_VCTRL t v) MSIX_VCTRL_MASK false
  if s.hif.msixPending.contains (64 * t + v) then
    (s.setPending (s.hif.msixPending.filter (· != 64 * t + v))).emit (s.vecMessage t v)
  else s

/-- The HIST bits of the four bases and TIM_ERR.CFGREJ, numbered as TIM_IEN enables them (R464, R465). -/
def State.timBits (s : State) : Word :=
  BitVec.ofNat 32 (s.fld (TIM_TB_HIST 0) ⟨0, 7⟩ + 2 ^ 7 * s.fld (TIM_TB_HIST 1) ⟨0, 7⟩
    + 2 ^ 14 * s.fld (TIM_TB_HIST 2) ⟨0, 7⟩ + 2 ^ 21 * s.fld (TIM_TB_HIST 3) ⟨0, 7⟩
    + 2 ^ 28 * s.fld TIM_ERR TIM_ERR_CFGREJ)

/-- The enabled cause bits of PF vectors 17-20: HIST bits under IEN (R464, R575, and the CLK and SVC chapters). -/
def State.causeBits (s : State) (v : Nat) : Word :=
  if v = 17 then s.rd FOV_HIST &&& s.rd FOV_IEN
  else if v = 18 then s.rd CLK_HIST &&& s.rd CLK_IEN
  else if v = 19 then s.timBits &&& s.rd TIM_IEN
  else if v = 20 then s.rd SVC_HIST &&& s.rd SVC_IEN
  else 0

/-- R92: the cause of PF vector 21. -/
def State.hifCause (s : State) : Bool :=
  (List.range 16).any (fun r => s.bit (RING_STAT 0 r) RING_STAT_BADIDX || s.bit (RING_STAT 0 r) RING_STAT_CFGREJ
    || s.bit (RING_STAT 0 r) RING_STAT_DROP)
  || (List.range 9).any (fun k => s.bit (HDG_SRC_STAT (320 + k)) HDG_SRC_STAT_STICKY)

/-- R533: the cause of PF vector 16. -/
def State.hdgCause (s : State) : Bool :=
  s.bit HDG_STAT HDG_STAT_SAFE ||
  (List.range 512).any (fun n =>
    (s.fld (HDG_SRC_STAT n) HDG_SRC_STAT_STATE == 2 && s.bit (HDG_SRC_CFG n) HDG_SRC_CFG_IEN
      && !s.bit (HDG_SRC_STAT n) HDG_SRC_STAT_ACKED)
    || s.fld (HDG_SRC_STAT n) HDG_SRC_STAT_STATE == 3)

/-- R92: INT_N is asserted while a cause of PF vectors 16-21 is pending and enabled in HIF_INTN_EN. -/
def State.intN (s : State) : Bool :=
  let en := s.fld HIF_INTN_EN HIF_INTN_EN_EN
  (List.range 6).any (fun k => en.testBit k &&
    (if k = 0 then s.hdgCause else if k = 5 then s.hifCause else s.causeBits (16 + k) != 0))

/-- Signal PF vectors 17-21 for what has become pending from `old` to `s`: for vectors 17, 18 and 20 a HIST bit under
its enable, for vector 19 a HIST or ERR bit that set while enabled (R464), for vector 21 its cause; INT_N follows its
causes (R92). -/
def State.signalEdges (old s : State) : State :=
  let rise (v : Nat) : Bool := (s.causeBits v &&& ~~~ (old.causeBits v)) != 0
  let timRise : Bool := (s.timBits &&& ~~~ old.timBits &&& s.rd TIM_IEN) != 0
  let s := s.when (rise 17) (fun s => s.signal 0 17)
  let s := s.when (rise 18) (fun s => s.signal 0 18)
  let s := s.when timRise (fun s => s.signal 0 19)
  let s := s.when (rise 20) (fun s => s.signal 0 20)
  let s := s.when (s.hifCause && !old.hifCause) (fun s => s.signal 0 21)
  s.when (s.intN != old.intN) (fun s => s.emit (.pin .intN s.intN))

/-- The answer of a command: the next state, with the vectors that its effect signals. -/
def done (old s : State) : Host.Outcome State Fault Refusal := .next (State.signalEdges old s)

/-- The answer of a write to BAR0 outside PWR, SVC and SEC: ignored while only these answer (R496, R586). -/
def doneBar (old s : State) : Host.Outcome State Fault Refusal := if old.pwr.barred then .next old else done old s

/-! ## Entries as their bytes (R69, R80, R161, R163, R165) -/

/-- The STATUS codes of R161. -/
def Status.code : Status → Nat
  | .ok => 0
  | .rejOwner => 1
  | .rejCapacity => 2
  | .rejFormat => 3
  | .rejLocked => 4
  | .misaligned => 5
  | .late => 6
  | .aborted => 7
  | .linkLost => 8
  | .busy => 9
  | .shed => 10

/-- The 16 bytes of a completion entry (R80). -/
def Completion.bytes (c : Completion) : List Byte :=
  leBytes c.tag.toNat 4 ++ leBytes c.sqHead 2 ++ leBytes (c.sq % 8) 1 ++ leBytes c.status.code 1 ++ leBytes c.result 4
    ++ leBytes c.epoch 2 ++ leBytes 0 1 ++ leBytes (if c.phase then 1 else 0) 1

/-- The 32 bytes of an event entry (R163). -/
def Event.bytes (e : Event) : List Byte :=
  leBytes e.type 2 ++ leBytes ((if e.ovf then 1 else 0) + 2 * (e.tb % 4)) 1 ++ leBytes (e.kind % 16) 1
    ++ leBytes e.time 4 ++ leBytes e.object 2 ++ leBytes e.epoch 2
    ++ (List.range 4).flatMap (fun i => leBytes (e.data.getD i 0) 4) ++ leBytes 0 3
    ++ leBytes (if e.phase then 1 else 0) 1

/-- The 64 bytes of a capture entry (R165). -/
def Capture.bytes (c : Capture) : List Byte :=
  leBytes c.tag.toNat 4 ++ leBytes c.frame 2 ++ leBytes c.status.code 1
    ++ leBytes ((if c.coded then 1 else 0) + (if c.last then 2 else 0)) 1 ++ leBytes c.buffer 8 ++ leBytes c.len 4
    ++ leBytes c.time 4 ++ leBytes (c.tb % 4) 1 ++ leBytes 0 7 ++ leBytes c.format.toNat 8 ++ leBytes c.crc.toNat 4
    ++ leBytes 0 19 ++ leBytes (if c.phase then 1 else 0) 1

def RingEntry.bytes : RingEntry → List Byte
  | .completion c => c.bytes
  | .event e => e.bytes
  | .capture c => c.bytes

/-! ## Rings the device writes (R66-R69, R85, R90) -/

def State.ring (s : State) (t r : Nat) : Ring := Tbl.getD s.hif.rings (16 * t + r) Ring.idle

def State.setRing (s : State) (t r : Nat) (x : Ring) : State :=
  { s with hif := { s.hif with rings := Tbl.put s.hif.rings (16 * t + r) x } }

def State.ringOn (s : State) (t r : Nat) : Bool := s.bit (RING_CTRL t r) RING_CTRL_EN

/-- Ring size in entries (R67). -/
def State.ringSize (s : State) (t r : Nat) : Nat := 2 ^ s.fld (RING_BASE_LO t r) RING_BASE_LO_LOG2SIZE

/-- LOG2SIZE lies in 6-16 (R67, R77). -/
def State.ringSizeOk (s : State) (t r : Nat) : Bool :=
  let n := s.fld (RING_BASE_LO t r) RING_BASE_LO_LOG2SIZE
  decide (6 ≤ n ∧ n ≤ 16)

def State.devIdx (s : State) (t r : Nat) : Nat := s.fld (RING_DEV_IDX t r) RING_DEV_IDX_IDX
def State.hostIdx (s : State) (t r : Nat) : Nat := s.fld (RING_HOST_IDX t r) RING_HOST_IDX_IDX

/-- Entry size in bytes (R66). -/
def entrySize (r : Nat) : Nat := if r < 8 then 64 else if r < 12 then 16 else if r < 14 then 32 else 64

/-- Where entry `i` of a ring stands in host memory (R67, R73). -/
def State.entryAddr (s : State) (t r i : Nat) : Nat :=
  2 ^ 32 * s.fld (RING_BASE_HI t r) RING_BASE_HI_BASE_HI + 4096 * s.fld (RING_BASE_LO t r) RING_BASE_LO_BASE_LO
    + entrySize r * i

/-- Entries of a device-written ring that the host has not returned (R68). -/
def State.ringUsed (s : State) (t r : Nat) : Nat :=
  (s.devIdx t r + s.ringSize t r - s.hostIdx t r) % s.ringSize t r

/-- R76: a device-written ring is full now: it holds size - 1 entries. -/
def State.ringFull (s : State) (t r : Nat) : Bool := decide (s.ringSize t r ≤ s.ringUsed t r + 1)

/-- Write an entry at the device's index: the index and the PHASE advance (R69), and the message of R90 is sent.
DESIGN CHOICE: the count of R90 is judged when an entry is written; setting IEN or lowering COUNT sends no message by
itself (log entry 41). -/
def State.ringWrite (s : State) (t r : Nat) (mk : Bool → RingEntry) : State :=
  let x := s.ring t r
  let i := s.devIdx t r
  let j := (i + 1) % s.ringSize t r
  let n := x.unsignalled + 1
  let fire : Bool := s.bit (RING_CTRL t r) RING_CTRL_IEN && decide (max 1 (s.fld (RING_MOD t r) RING_MOD_COUNT) ≤ n)
  let s := s.emit (.ringEntry t r (s.entryAddr t r i) (mk x.phase) (mk x.phase).bytes)
  let s := s.setFld (RING_DEV_IDX t r) RING_DEV_IDX_IDX j
  let s := s.setRing t r { x with phase := if j = 0 then !x.phase else x.phase, unsignalled := if fire then 0 else n }
  s.when fire (fun s => s.signal t (s.fld (RING_CTRL t r) RING_CTRL_VEC))

/-- R76, R85: an entry is dropped. -/
def State.ringDrop (s : State) (t r : Nat) : State :=
  let s := s.setBit (RING_STAT t r) RING_STAT_DROP true
  s.inc (RING_STAT t r) RING_STAT_DROPCNT

/-! ## Completions (R80-R84) -/

/-- Write a completion into its reserved entry, with the consumer index of its command ring as it then stands (R80); on
a disabled ring it waits until the ring is enabled (R78, R84). -/
def State.writeCompletion (s : State) (t cq : Nat) (c : Completion) : State :=
  let x := s.ring t (8 + cq)
  if s.ringOn t (8 + cq) then
    (s.setRing t (8 + cq) { x with reserved := x.reserved - 1 }).ringWrite t (8 + cq)
      (fun p => .completion { c with phase := p, sqHead := s.devIdx t c.sq })
  else s.setRing t (8 + cq) { x with deferred := x.deferred ++ [c] }

/-- Give back a reserved entry that is not written (R79 NOCOMP, R109). -/
def State.unreserve (s : State) (t cq : Nat) : State :=
  let x := s.ring t (8 + cq)
  s.setRing t (8 + cq) { x with reserved := x.reserved - 1 }

/-- The command's completion: it leaves flight, its DMA channel goes back to the pool (R94), and its entry is written
unless NOCOMP with OK (R79, R80) or its function was reset (R109). -/
def State.complete (s : State) (id : Nat) (st : Status) (result epoch : Nat) : State :=
  match s.hif.inflight.find? (fun c => c.id == id) with
  | none => s
  | some c =>
    let s : State := { s with hif := { s.hif with inflight := s.hif.inflight.filter (fun d => d.id != id) } }
    if c.discard then s
    else if c.nocomp && st == .ok then s.unreserve c.tenant c.cq
    else s.writeCompletion c.tenant c.cq
      ⟨c.tag, s.devIdx c.tenant c.sq, c.sq, st, result, epoch, false⟩

/-- Complete every command of a list with the same code. -/
def State.completeAll (s : State) (l : List Nat) (st : Status) : State := s.each l (fun s i => s.complete i st 0 0)

def State.inflightOf (s : State) (id : Nat) : Option Cmd := s.hif.inflight.find? (fun c => c.id == id)

/-- Command DMA channels DC0-DC47 in use, by commands and by firmware (R93, R94). -/
def State.channelsBusy (s : State) : List Nat := s.hif.inflight.filterMap (fun c => c.channel) ++ s.svc.channel.toList

/-- Opcodes that move data at length, and opcodes that read a parameter block (R94, R155, R618). -/
def longTransfer (op : Nat) : Bool := op == 0x13 || op == 0x40
def shortTransfer (op : Nat) : Bool := op == 0x30 || op == 0x31

/-- The free command channel for a transfer: DC40-DC47 carry only those of at most 4 KiB (R618). -/
def State.channelIn (s : State) (short : Bool) : Option Nat :=
  lowest (if short then 48 else 40) (fun n => !s.channelsBusy.contains n)

/-- The channels as they stand where a transfer takes channel `ch`: nothing of an earlier transfer is left on it (R105). -/
def State.freshChans (s : State) (ch : Option Nat) : Tbl Chan :=
  match ch with
  | some n => Tbl.del s.hif.chans n
  | none => s.hif.chans

/-- The command DMA channel a command takes: DC40-DC47 carry only short transfers (R94, R618). -/
def State.channelFor (s : State) (op : Nat) : Option Nat :=
  if longTransfer op then s.channelIn false else if shortTransfer op then s.channelIn true else none

end Sys2Proof.Machine
end

