-- ==== Sys2Proof/Machine/Faults.lean ====
section
/-! DEFINITION. Hedgerow: how an event on a source is counted, classified, held, recorded and acted on (R525-R545),
the safe state (R536), and the entries of the event rings (R85, R163, R164). -/

namespace Sys2Proof.Machine

open Sys2Proof

/-! ## Sources (R525-R531) -/

/-- The sources each chapter lists; every other source is reserved and never receives an event (R525). -/
def hdgSourceUsed (n : Nat) : Bool :=
  [(0, 12), (32, 45), (64, 74), (96, 104), (128, 151), (160, 169), (192, 198), (224, 229), (256, 263), (288, 294),
   (320, 328), (352, 362), (384, 384), (400, 409), (416, 425), (448, 452), (480, 486), (511, 511)].any
    (fun p => decide (p.1 ≤ n ∧ n ≤ p.2))

/-- R531: the fixed sources. -/
def hdgFixed (n : Nat) : Bool := n == 149 || n == 196 || n == 511

/-- R531: the sources whose ACTION is 2 and whose reaction time is 0. -/
def hdgFixedSafe (n : Nat) : Bool := n == 149 || n == 511

def State.hdgState (s : State) (n : Nat) : Nat := s.fld (HDG_SRC_STAT n) HDG_SRC_STAT_STATE

def State.hdgEn (s : State) (n : Nat) : Bool := hdgFixed n || s.bit (HDG_SRC_CFG n) HDG_SRC_CFG_EN

/-- Events that make a source severe (R529, R531, R544). -/
def State.hdgN (s : State) (n : Nat) : Nat :=
  if hdgFixed n then 1 else max 1 (s.fld (HDG_SRC_CFG n) HDG_SRC_CFG_N)

/-- R533: 3 acts as 2; R531. -/
def State.hdgAction (s : State) (n : Nat) : Nat :=
  if hdgFixedSafe n then 2 else min 2 (s.fld (HDG_SRC_CFG n) HDG_SRC_CFG_ACTION)

/-- The reaction time in µs (R533, R531). -/
def State.hdgReaction (s : State) (n : Nat) : Nat :=
  if hdgFixedSafe n then 0 else s.fld (HDG_RTIME (s.fld (HDG_SRC_CFG n) HDG_SRC_CFG_RSEL)) (HDG_RTIME_US)

/-! ## Root-cause masking (R540) -/

/-- The enabled entries of the mask table whose cause is not CLEAR: cause, first and last symptom. -/
def State.activeMasks (s : State) : List (Nat × Nat × Nat) :=
  (List.range 64).filterMap (fun m =>
    let c := s.fld (HDG_MASK_A m) HDG_MASK_A_CAUSE
    if s.bit (HDG_MASK_A m) HDG_MASK_A_EN && s.hdgState c != 0 then
      some (c, s.fld (HDG_MASK_B m) HDG_MASK_B_FIRST, s.fld (HDG_MASK_B m) HDG_MASK_B_LAST)
    else none)

/-- An entry names source `n` as a symptom; HDG_SELFPAR is none. -/
def masks (e : Nat × Nat × Nat) (n : Nat) : Bool := e.1 != n && n != 511 && decide (e.2.1 ≤ n ∧ n ≤ e.2.2)

/-- Source `c` is not held, where the causes in `h` are. -/
def freeCause (l : List (Nat × Nat × Nat)) (h : List Nat) (c : Nat) : Bool := l.all (fun e => !masks e c || h.contains e.1)

/-- The causes that other causes hold, worked out from those that nothing masks; causes that mask one another in a ring
hold nothing (DEDUCED, log entry 11). -/
def heldCauses (l : List (Nat × Nat × Nat)) : Nat → List Nat → List Nat
  | 0, h => h
  | k + 1, h => heldCauses l k ((l.map Prod.fst).filter (fun c => l.any (fun e => masks e c && freeCause l h e.1)))

/-- R540: the source is held; a held source is never a cause. -/
def State.held (s : State) (n : Nat) : Bool :=
  s.bit HDG_CTRL HDG_CTRL_MASKEN &&
    (let l := s.activeMasks
     l.any (fun e => masks e n && freeCause l (heldCauses l l.length []) e.1))

/-- Write a capture entry, or drop it on a full or disabled ring. -/
def State.writeCapture (s : State) (t r : Nat) (c : Capture) (dropped : State → State) : State :=
  if s.ringOn t r && !s.ringFull t r then s.ringWrite t r (fun p => .capture { c with phase := p })
  else dropped (s.ringDrop t r)

/-! ## The safe state (R536) -/

def State.safe (s : State) : Bool := s.bit HDG_STAT HDG_STAT_SAFE

def State.setHdgTimers (s : State) (t : Tbl Bool) : State := { s with hdg := { s.hdg with timers := t } }

/-- R535: drive FAULT_N. -/
def State.driveFault (s : State) (b : Bool) : State :=
  if s.bit HDG_STAT HDG_STAT_FAULT == b then s
  else (s.setBit HDG_STAT HDG_STAT_FAULT b).emit (.pin .faultN b)

/-- A host channel gives up its outstanding remote requests: their completions are discarded. -/
def State.dropReqs (s : State) (n : Nat) : State :=
  { s with blk := { s.blk with reqs := s.blk.reqs.map (fun e =>
    if e.2.kind ≠ 0 ∧ e.2.ch = n then (e.1, { e.2 with kind := 3 }) else e) } }

def State.chan (s : State) (n : Nat) : Chan := Tbl.getD s.hif.chans n Chan.idle

def State.setChan (s : State) (n : Nat) (x : Chan) : State :=
  { s with hif := { s.hif with chans := Tbl.putD s.hif.chans n x Chan.idle } }

/-- ERRADDR of channel `n` names host address `a` (R104). -/
def State.noteAddr (s : State) (n a : Nat) : State :=
  (s.wr (HIF_DMA_ERRADDR_LO n) (BitVec.ofNat 32 a)).wr (HIF_DMA_ERRADDR_HI n) (BitVec.ofNat 32 (a / 2 ^ 32))

/-- A host channel halts with a cause, and its vector fires when IENHALT is 1 (R102, R103, R105). Where a transfer was
under way ERRADDR names the host address at which it stands, from which RESUME goes on (R108). -/
def State.haltChannel (s : State) (n cause : Nat) : State :=
  let s := match (s.chan n).desc with
    | some d => s.noteAddr n (d.haddr + (s.chan n).moved)
    | none => s
  let s := s.dropReqs n
  let s := s.setFld (HIF_DMA_STAT n) HIF_DMA_STAT_STATE 2
  let s := s.setFld (HIF_DMA_STAT n) HIF_DMA_STAT_CAUSE cause
  s.when (s.bit (HIF_DMA_CTRL n) HIF_DMA_CTRL_IENHALT) (fun s => s.signal 0 (n - 16))

/-- Every command in progress completes with ABORTED (R536). -/
def State.abortCommands (s : State) : State := s.completeAll (s.hif.inflight.map (fun c => c.id)) .aborted

/-! ## Classification (R528-R533, R538) -/

/-- The first-fault records (R538): HDG_FIRST takes an event of a source that is enabled and not held, HDG_FIRSTSEV the
first source to reach SEVERE. -/
def State.record (s : State) (n sev : Nat) (promoted : Bool) : State :=
  let ts := BitVec.ofNat 32 (s.stamp (s.fld HDG_CTRL HDG_CTRL_TB))
  let forced := s.fld (HDG_SRC_STAT n) HDG_SRC_STAT_FORCED
  let rec_ := BitVec.ofNat 32 (n + 2 ^ 9 * sev + 2 ^ 11 * forced + 2 ^ 12)
  let live := s.hdgEn n && !s.held n
  let s := s.when (live && !s.bit HDG_FIRST HDG_FIRST_VALID) (fun s => (s.wr HDG_FIRST rec_).wr HDG_FIRSTTS ts)
  s.when ((live || promoted) && sev == 2 && !s.bit HDG_FIRSTSEV HDG_FIRSTSEV_VALID)
    (fun s => (s.wr HDG_FIRSTSEV rec_).wr HDG_FIRSTSEVTS ts)

/-- A source enters SEVERE (R529, R532, R533); `esc` is what its escalation does, at once where the reaction time
is 0. -/
def State.enterSevere (esc : State → Nat → State) (s : State) (n : Nat) (promoted : Bool) : State :=
  let s := s.setFld (HDG_SRC_STAT n) HDG_SRC_STAT_STATE 2
  let s := s.setBit (HDG_SRC_STAT n) HDG_SRC_STAT_ACKED false
  let s := s.when promoted (fun s => s.setBit (HDG_SRC_STAT n) HDG_SRC_STAT_PROMOTED true)
  let s := s.record n 2 promoted
  let s := s.when (s.bit (HDG_SRC_CFG n) HDG_SRC_CFG_IEN) (fun s => s.signal 0 16)
  if s.hdgAction n = 0 then s
  else if s.hdgReaction n = 0 then esc s n
  else s.setHdgTimers (Tbl.put s.hdg.timers n promoted)

/-- One event on a source (R527, R529-R531, R539, R540). -/
def State.hdgEvent (esc : State → Nat → State) (s : State) (n : Nat) (forced : Bool) : State :=
  if !hdgSourceUsed n then s
  else
    let s := s.inc (HDG_SRC_COUNT n) HDG_SRC_COUNT_COUNT
    let s := s.setBit (HDG_SRC_STAT n) HDG_SRC_STAT_STICKY true
    let s := s.setBit (HDG_SRC_STAT n) HDG_SRC_STAT_FORCED forced
    if s.held n || !s.hdgEn n then s
    else if s.hdgState n = 0 then
      let s := s.setFld (HDG_SRC_STAT n) HDG_SRC_STAT_WCOUNT 1
      if s.hdgN n ≤ 1 then s.enterSevere esc n false
      else (s.setFld (HDG_SRC_STAT n) HDG_SRC_STAT_STATE 1).record n 1 false
    else if s.hdgState n = 1 then
      let s := s.inc (HDG_SRC_STAT n) HDG_SRC_STAT_WCOUNT
      if s.hdgN n ≤ s.fld (HDG_SRC_STAT n) HDG_SRC_STAT_WCOUNT then s.enterSevere esc n false else s
    else s

/-- A source enters ESCALATED and signals vector 16 (R533). -/
def State.escQuiet (s : State) (n : Nat) : State :=
  let s := s.setFld (HDG_SRC_STAT n) HDG_SRC_STAT_STATE 3
  let s : State := { s with hdg :=
    { s.hdg with timers := Tbl.del s.hdg.timers n, escalated := Tbl.put s.hdg.escalated n (s.hdgAction n) } }
  s.signal 0 16

/-- R537: in the safe state an escalation takes no ACTION; HDG_ESCAL is raised (R526). -/
def State.escSafe (s : State) (n : Nat) : State :=
  let s := s.escQuiet n
  if n = 384 then s else s.hdgEvent State.escQuiet 384 false

/-! ## What stops in the safe state (R536, R556, R596) -/

/-- Media transmitters idle mid-frame; a MAC frame in progress ends as an underrun, STARTTH unchanged. Ports that report in
the one cycle make one event (R527). -/
def State.idleOutputs (s : State) : State :=
  let sending := s.mac.ports.filter (fun e => e.2.tx.isSome)
  let s := s.each (List.range 256) (fun s n => s.setBit (ML_STAT n) ML_STAT_TXIDLE true)
  let s := s.each sending (fun s e =>
    let n := min (Tbl.getD e.2.counts MAC_TXUNDER 0 + 1) (2 ^ 32 - 1)
    let x := { e.2 with tx := none, counts := Tbl.putD e.2.counts MAC_TXUNDER n 0 }
    let s : State := { s with mac := { s.mac with ports := Tbl.put s.mac.ports e.1 x } }
    s.setBit (MP_HIST e.1) ⟨5, 1⟩ true)
  s.when (!sending.isEmpty) (fun s => s.hdgEvent State.escSafe 69 false)

/-- Route changes that wait are dropped with their charges, and the synchronisers that only they needed are released. -/
def State.dropChanges (s : State) : State :=
  let s : State := { s with xpt := { s.xpt with pending := [], seqs := [] } }
  let s := s.release (fun h => match h with
    | .pending _ => true
    | _ => false)
  let unread := fun (src : Nat) => s.xpt.routes.all (fun r => r.2.src != src && r.2.src / 16 * 16 != src)
  let gone := (s.fsa.syncs.filter (fun e => unread e.1)).map Prod.fst
  let s := s.release (fun h => match h with
    | .sync src _ => gone.contains src
    | _ => false)
  { s with fsa := { s.fsa with
      syncs := s.fsa.syncs.filter (fun e => !gone.contains e.1)
      aligners := s.fsa.aligners.map (fun e =>
        if e.2.mode = 3 ∧ (gone.contains e.1 ∨ gone.contains (e.1 / 16 * 16)) then
          (e.1, { e.2 with mode := if e.2.high % 256 = 0 then 0 else if e.2.inside then 2 else if e.2.off.isNone then 1 else 4 })
        else e) } }

/-- Canvas changes that no frame has taken, stills being loaded and captures end. -/
def State.dropCanvasWork (s : State) : State :=
  let s : State := { s with cmp := { s.cmp with
    canvases := s.cmp.canvases.map (fun e => (e.1, { e.2 with pend := e.2.pend.filter (fun p => p.taken) }))
    loads := [] } }
  let s := s.release (fun h => match h with
    | .stillLoad _ => true
    | _ => false)
  let s := s.each (s.cmp.canvases.map Prod.fst) State.recharge
  let s := s.each s.cmp.grabs (fun s e =>
    let g := e.2
    s.writeCapture g.tenant g.ring
      ⟨g.tag, g.frame, .aborted, g.coded, true, g.buffer, 0, s.stamp g.tb, g.tb, g.fmt.bits, 0, false⟩
      (fun s => s.hdgEvent State.escSafe 322 false))
  { s with cmp := { s.cmp with grabs := [] } }

/-- Salvos that are committing end with the charges of their entries, in one event (R527); open ones stay. -/
def State.dropSalvos (s : State) : State :=
  let l := s.sal.slots.filter (fun e => e.2.stage != 0)
  let s : State := { s with sal := { s.sal with slots := s.sal.slots.filter (fun e => e.2.stage == 0), migs := [] } }
  let s := s.release (fun h => match h with
    | .staged t k _ => l.any (fun e => e.1 == 4 * t + k)
    | _ => false)
  let s := s.each (s.cmp.canvases.map Prod.fst) State.recharge
  s.when (!l.isEmpty) (fun s => s.hdgEvent State.escSafe 352 false)

/-! ## Operations of SVC_CMD (R587) -/

def State.setSvc (s : State) (x : Svc) : State := { s with svc := x }

def State.svcBusy (s : State) : Bool := s.bit SVC_CMDSTAT SVC_CMDSTAT_BUSY

/-- An operation completes: RESULT, HIST.DONE; its command channel is free again. -/
def State.svcEnd (s : State) (op result : Nat) : State :=
  let s := s.setSvc { s.svc with started := none, channel := none }
  let s := s.setBit SVC_CMDSTAT SVC_CMDSTAT_BUSY false
  let s := s.setFld SVC_CMDSTAT SVC_CMDSTAT_RESULT result
  let s := s.setFld SVC_CMDSTAT SVC_CMDSTAT_OP op
  s.setBit SVC_HIST SVC_HIST_DONE true

/-- An operation that goes on. -/
def State.svcStart (s : State) (op : Nat) : State :=
  (s.setBit SVC_CMDSTAT SVC_CMDSTAT_BUSY true).setFld SVC_CMDSTAT SVC_CMDSTAT_OP op

/-- The operation in progress ends ABORTED (R107, R596); R587 has no RESULT for it, and a free value stands there (log entry
39). -/
def State.svcAborted (s : State) : State :=
  let p := s.freshWord
  p.2.svcEnd (s.fld SVC_CMDSTAT SVC_CMDSTAT_OP) (p.1.toNat % 16)

/-- R596, R536: a shadow is abandoned, and an operation that waits for its bytes from host memory ends with its DMA
channel. -/
def State.abandonShadow (s : State) : State :=
  if s.fld SVC_UPD SVC_UPD_STATE = 2 then (s.setFld SVC_UPD SVC_UPD_STATE 1).svcAborted
  else if s.svc.channel.isSome then s.svcAborted
  else s

/-! ## Audio outputs (R434-R440, R490, R502) -/

def State.ampMuted (s : State) (p : Nat) : Bool := s.bit (AUD_TDM_STAT p) AUD_TDM_STAT_MUTED

/-- The port is enabled and locked. -/
def State.portLive (s : State) (p : Nat) : Bool :=
  s.bit (AUD_TDM_STAT p) AUD_TDM_STAT_ENABLED && s.bit (AUD_TDM_STAT p) AUD_TDM_STAT_LOCKED

/-- BCK in Hz and slots per frame of a port's settings (R434). -/
def TdmCfg.bck (c : TdmCfg) : Nat := if c.width = 0 then 12288000 else if c.width = 1 then 18432000 else 24576000
def TdmCfg.slots (c : TdmCfg) : Nat := if c.fs = 48000 then 16 else 8

def State.portCfg (s : State) (p : Nat) : TdmCfg := Tbl.getD s.aud.ports p ⟨0, 48000⟩

/-- The outputs of a port ramp over 1 ms, from frame `frame` on: 48 samples at 48 kHz and 96 at 96 kHz (R436, R437, R440). -/
def State.rampPort (s : State) (p : Nat) (up : Bool) (frame : Nat) : State :=
  s.emit (.tdm p (.ramp up ((s.portCfg p).fs / 1000) frame))

/-- The clock of microphones 2n and 2n + 1 runs while either is enabled (R439). -/
def State.pdmOn (s : State) (n : Nat) : Bool :=
  s.bit (AUD_PDM_CFG (2 * n)) AUD_PDM_CFG_EN || s.bit (AUD_PDM_CFG (2 * n + 1)) AUD_PDM_CFG_EN

/-- TDM outputs ramp to zero (R490, R536). -/
def State.muffle (s : State) : State :=
  s.each ((List.range 8).filter (fun p => s.portLive p && !s.ampMuted p)) (fun s p => s.rampPort p false 0)

/-- The balls of TDM ports and microphone clocks go to high impedance (R502). -/
def State.floatAudio (s : State) : State :=
  let s := s.each ((List.range 8).filter (fun p => s.bit (AUD_TDM_STAT p) AUD_TDM_STAT_ENABLED)) (fun s p => s.emit (.tdm p .floats))
  s.each ((List.range 4).filter s.pdmOn) (fun s n => s.emit (.pin (.pdmClk n) false))

/-! ## The balls of a protected chip (R562) -/

def State.fovState (s : State) : Nat := s.fld FOV_STAT FOV_STAT_STATE

/-- ACTIVE_N is asserted in a state. -/
def fovActive (x : Nat) : Bool := x == 3 || x == 6 || x == 8

/-- The level of ILK_OUT in a state; none: high impedance. -/
def fovIlk (x : Nat) : Option Bool := if x = 0 then none else some (x == 2 || x == 3 || x == 6)

/-- ACTIVE_N and ILK_OUT go from their levels in state `x` to those in state `y`. -/
def State.fovPins (s : State) (x y : Nat) : State :=
  let s := s.when (fovActive x != fovActive y) (fun s => s.emit (.pin .activeN (fovActive y)))
  s.when (fovIlk x != fovIlk y) (fun s => s.emit (.ilkOut (fovIlk y)))

/-- Enter a state: ACTIVE_N and ILK_OUT change with it (R562); a YIELD waits only while the chip is ACTIVE (R567). -/
def State.setFov (s : State) (x : Nat) : State :=
  let s : State := { s with fov := { s.fov with yieldAt := if x = 6 then s.fov.yieldAt else none } }
  let s := s.fovPins s.fovState x
  let s := s.setFld FOV_STAT FOV_STAT_STATE x
  let s := s.setBit FOV_STAT FOV_STAT_ACTIVE (fovActive x)
  s.setBit FOV_STAT FOV_STAT_ILKOUT (fovIlk x == some true)

/-! ## The safe state (R536) -/

/-- What stops with the transmitters and the dispatch in the safe state beside the commands themselves (R536). -/
def State.stopForSafe (s : State) : State :=
  let s := s.muffle.floatAudio.idleOutputs.dropChanges.dropCanvasWork.dropSalvos.abandonShadow
  { s with bst := { s.bst with waits := [] }, aud := { s.aud with pend := [] } }

/-- Entry into the safe state (R536); a command channel is idle again at once, with CAUSE ABORTED (R107). -/
def State.enterSafe (s : State) (n : Nat) : State :=
  let s := s.setBit HDG_STAT HDG_STAT_SAFE true
  let s := s.setFld HDG_STAT HDG_STAT_SAFESRC n
  let s := s.signal 0 16
  let s := s.driveFault true
  let s := (s.setFov 7).stopForSafe
  let s := s.abortCommands
  let s := s.each (List.range 48) (fun s n => s.setFld (HIF_DMA_STAT n) HIF_DMA_STAT_CAUSE 5)
  let s := s.each (List.range 16) (fun s k => s.haltChannel (48 + k) 5)
  s.hdgEvent State.escSafe 325 false

/-- The ACTION of a source whose reaction timer has expired (R533); none in the safe state (R537). -/
def State.takeAction (s : State) (n : Nat) : State :=
  if s.safe then s
  else if s.hdgAction n = 1 then s.driveFault true
  else if s.hdgAction n = 2 then s.enterSafe n
  else s

def State.escOwn (s : State) (n : Nat) : State := (s.escQuiet n).takeAction n

/-- R533, R526: escalation, which raises HDG_ESCAL unless it is HDG_ESCAL's own. -/
def State.escalate (s : State) (n : Nat) : State :=
  let s := (s.escQuiet n).takeAction n
  if n = 384 then s else s.hdgEvent State.escOwn 384 false

/-- A subsystem reports an event on source `n`. -/
def State.raise (s : State) (n : Nat) : State := s.hdgEvent State.escalate n false

/-- A forced event on source `n` (R539). -/
def State.raiseForced (s : State) (n : Nat) : State := s.hdgEvent State.escalate n true

/-- R532: a rule of another chapter makes the source severe. -/
def State.promote (s : State) (n : Nat) : State :=
  if s.hdgState n = 2 ∨ s.hdgState n = 3 then s else s.enterSevere State.escalate n true

/-! ## Events (R85, R163, R164) -/

/-- Owner of an object (R116). -/
def State.ownerOf (s : State) (kind i : Nat) : Nat := Tbl.getD s.ten.owner (65536 * kind + i) 0

/-- The base that stamps an event whose rule names none (R163). -/
def State.eventTb (s : State) : Nat := s.fld HDG_CTRL HDG_CTRL_TB

/-- Write an event entry on ring `r` of tenant `t`, or drop and count it when the ring is full or disabled. -/
def State.eventIn (s : State) (tb t r type kind object epoch : Nat) (data : List Nat) : State :=
  let x := s.ring t r
  if s.ringOn t r && !s.ringFull t r then
    (s.setRing t r { x with ovf := false }).ringWrite t r
      (fun p => .event ⟨type, x.ovf, tb, kind, s.stamp tb, object, epoch, data, p⟩)
  else ((s.setRing t r { x with ovf := true }).ringDrop t r).raise 322

/-- An event stamped in the base named by HDG_CTRL.TB. -/
def State.event (s : State) (t r type kind object epoch : Nat) (data : List Nat) : State :=
  s.eventIn s.eventTb t r type kind object epoch data

/-- R128, R164: an in-service total changes, and TN0 is told. -/
def State.setTotal (s : State) (code v : Nat) : State :=
  if s.fld (TEN_CAP code) TEN_CAP_VALUE = v then s
  else (s.setFld (TEN_CAP code) TEN_CAP_VALUE v).event 0 12 4 0 0 0 [code, v, 0, 0]

end Sys2Proof.Machine
end

