-- ==== Sys2Proof/Machine/Flags.lean ====
section
/-! DEFINITION. How a host write acts on the fields of a register under their access types (R8-R13), and the
refusal that LOCKWR counts (R10). -/

namespace Sys2Proof.Machine

open Sys2Proof

/-- One field under its access type (R9, R10): the register after the write, and whether the field refused it. -/
def writeField (locked : Bool) (v : Word) (acc : Word × Bool) (fa : Field × Access) : Word × Bool :=
  let old := acc.1
  let f := fa.1
  match fa.2 with
  | .rw => (f.set old (f.get v), acc.2)
  | .ro => acc
  | .w1c => (f.set old (f.get old &&& (2 ^ f.width - 1 - f.get v)), acc.2)
  | .w1s => (f.set old (f.get old ||| f.get v), acc.2)
  | .wo => acc
  | .rwL =>
    if f.get v = f.get old then acc
    else if locked then (old, true)
    else (f.set old (f.get v), acc.2)
  | .wonce =>
    if f.get v = f.get old then acc
    else if f.get old = 0 then (f.set old (f.get v), acc.2)
    else (old, true)

/-- A write of `v` to a register with the given fields: its new value, and whether some field refused the write. -/
def writeFields (locked : Bool) (fs : List (Field × Access)) (old v : Word) : Word × Bool :=
  fs.foldl (writeField locked v) (old, false)

/-- GLB_LOCK.SETUP (R10, R501). -/
def State.locked (s : State) : Bool := s.bit GLB_LOCK GLB_LOCK_SETUP

/-- What a write of `v` makes of the register at `a`; an address no chapter names ignores it (R622). -/
def State.written (s : State) (a : Nat) (v : Word) : Word × Bool :=
  match findReg a with
  | none => (s.rd a, false)
  | some (d, _, _) => writeFields s.locked d.fields (s.rd a) v

/-- R10: a write with a refused field counts once at LOCKWR. -/
def State.countLock (s : State) (a : Nat) (v : Word) : State :=
  s.when (s.written a v).2 (fun s => s.raise 480)

/-- A write takes effect field by field under the access types (R9, R10). -/
def State.fieldWrite (s : State) (a : Nat) (v : Word) : State :=
  let w := s.written a v
  (s.wr a w.1).when w.2 (fun s => s.raise 480)

end Sys2Proof.Machine
end

