-- ==== Sys2Proof/Machine/HostIf.lean ====
section
/-! DEFINITION. The host interface: doorbells, ring configuration, command fetch, MSI-X and the resets of functions
(R57-R92, R109-R111). -/

namespace Sys2Proof.Machine

open Sys2Proof

/-! ## Tenant state (R58, R65) -/

def State.tenState (s : State) (t : Nat) : Nat := s.fld (TEN_CFG t) TEN_CFG_STATE
def State.tenClass (s : State) (t : Nat) : Nat := s.fld (TEN_CFG t) TEN_CFG_CLASS
def State.tenOn (s : State) (t : Nat) : Bool := s.tenState t == 1

/-! ## BAR accesses and doorbells -/

/-- R59. -/
def opBarAccess (t : Nat) (isWrite : Bool) (s : State) : State :=
  let s := s.raise 326
  if isWrite then s else s.emit (.unsupported t)

/-! ## Captures (R157, R165, R611) -/

/-- The entry of a captured frame is written, and the grab goes on, or completes with its last frame; on a disabled ring the
entry is dropped (log entry 41). -/
def State.grabEntry (s : State) (ch : Nat) (g : Grab) (c : Capture) : State :=
  let s := s.writeCapture g.tenant g.ring c (fun s => s.raise 322)
  if c.last then
    State.complete { s with cmp := { s.cmp with grabs := Tbl.del s.cmp.grabs ch } } g.cmd .ok 0 0
  else
    let g := { g with owed := none, left := g.left - 1, frame := g.frame + 1, buffer := g.buffer + c.len }
    { s with cmp := { s.cmp with grabs := Tbl.put s.cmp.grabs ch g } }

/-- A capture ring of the tenant can take an entry; a disabled one drops it. -/
def State.captureSpace (s : State) (t r : Nat) : Bool := !(s.ringOn t r && s.ringFull t r)

/-- Space has appeared in ring `r` of tenant `t`: the grab that holds its channel for it goes on (R611). -/
def State.serveGrabs (s : State) (t r : Nat) : State :=
  s.each s.cmp.grabs (fun s e => match e.2.owed with
    | some c => if e.2.tenant = t ∧ e.2.ring = r ∧ s.captureSpace t r then s.grabEntry e.1 e.2 c else s
    | none => s)

/-! ## Doorbells and command fetch -/

/-- R58, R70, R71, R115. DESIGN CHOICE: a doorbell of a tenant that is not enabled is ignored before its INDEX is judged, so it
sets no BADIDX (log entry 52). -/
def opDoorbell (t r i : Nat) (s : State) : State :=
  let bad : Bool := s.ringSizeOk t r && decide (s.ringSize t r ≤ i)
  if !s.tenOn t then s.raise 320
  else if bad then (s.setBit (RING_STAT t r) RING_STAT_BADIDX true).raise 320
  else if !s.ringOn t r then s.raise 320
  else (s.setFld (RING_HOST_IDX t r) RING_HOST_IDX_IDX i).when (decide (14 ≤ r)) (fun s => s.serveGrabs t r)

/-- Entries of a command ring that the host has written and the device has not fetched (R68, R72). -/
def State.toFetch (s : State) (t r : Nat) : Nat :=
  (s.hostIdx t r + s.ringSize t r - s.devIdx t r) % s.ringSize t r - (s.ring t r).fetched.length

/-- R72: up to 16 entries per read request; R78, R115: none from a disabled ring or tenant. -/
def opCommandFetch (t r : Nat) (es : List Entry) (s : State) : State :=
  if s.tenOn t && s.ringOn t r then
    let x := s.ring t r
    s.setRing t r { x with fetched := x.fetched ++ es.take (min 16 (s.toFetch t r)) }
  else s

/-- R87: the head of a command ring has waited longer than HIF_CMD_AGE. -/
def opCommandAged (t r : Nat) (s : State) : State :=
  let x := s.ring t r
  if x.fetched.isEmpty || x.aged then s
  else
    let s := s.setRing t r { x with aged := true }
    { s with hif := { s.hif with agedOrder := s.hif.agedOrder ++ [16 * t + r] } }

/-- R90: the oldest entry not yet signalled is TIME µs old. -/
def opRingTimer (t r : Nat) (s : State) : State :=
  let x := s.ring t r
  if 8 ≤ r ∧ s.bit (RING_CTRL t r) RING_CTRL_IEN ∧ s.fld (RING_MOD t r) RING_MOD_TIME ≠ 0 ∧ x.unsignalled ≠ 0 then
    (s.setRing t r { x with unsignalled := 0 }).signal t (s.fld (RING_CTRL t r) RING_CTRL_VEC)
  else s

/-- Vectors of function `t` (R89). -/
def vectorsOf (t : Nat) : Nat := if t = 0 then 64 else 16

/-- R91. -/
def opMsixUnmask (t v : Nat) (s : State) : State := if v < vectorsOf t then s.unmask t v else s

/-! ## Ring configuration (R73-R78) -/

/-- A refused configuration write of a ring (R77). -/
def State.ringRefuse (s : State) (t r : Nat) : State :=
  (s.setBit (RING_STAT t r) RING_STAT_CFGREJ true).raise 321

/-- Write the completions that waited for the ring (R78). DESIGN CHOICE: where the ring comes back smaller than they need, they
are written all the same, over entries that the host has not read (log entry 52). -/
def State.writeDeferred (s : State) (t r : Nat) : State :=
  let x := s.ring t r
  (s.setRing t r { x with deferred := [] }).each x.deferred (fun s c => s.writeCompletion t (r - 8) c)

/-- EN changes from 0 to 1: both indices return to 0 and the expected PHASE to 1 (R77). -/
def State.ringEnable (s : State) (t r : Nat) : State :=
  let s := s.setFld (RING_HOST_IDX t r) RING_HOST_IDX_IDX 0
  let s := s.setFld (RING_DEV_IDX t r) RING_DEV_IDX_IDX 0
  let s := s.setRing t r { s.ring t r with phase := true, unsignalled := 0, fetched := [], aged := false }
  if 8 ≤ r ∧ r < 12 then s.writeDeferred t r else if 14 ≤ r then s.serveGrabs t r else s

/-- EN changes from 1 to 0: entries of a command ring not yet dispatched are not taken (R78). -/
def State.ringDisable (s : State) (t r : Nat) : State :=
  let s := s.setRing t r { s.ring t r with fetched := [], aged := false }
  { s with hif := { s.hif with
      agedOrder := s.hif.agedOrder.filter (· != 16 * t + r)
      shortWait := s.hif.shortWait.filter (· != 16 * t + r)
      fences := s.hif.fences.filter (· != 16 * t + r) } }

/-- R74, R77, R78. -/
def opRingCtrl (t r : Nat) (v : Word) (s : State) : State :=
  let was := s.ringOn t r
  let will : Bool := RING_CTRL_EN.get v != 0
  if will && !was && !s.ringSizeOk t r then s.ringRefuse t r
  else
    let s := s.fieldWrite (RING_CTRL t r) v
    if will && !was then s.ringEnable t r
    else if was && !will then s.ringDisable t r
    else s

/-- R73, R77. -/
def opRingBase (t r : Nat) (hi : Bool) (v : Word) (s : State) : State :=
  if s.ringOn t r then s.ringRefuse t r
  else s.fieldWrite (if hi then RING_BASE_HI t r else RING_BASE_LO t r) v

/-- R76: writing DROP also clears DROPCNT. -/
def opRingStat (t r : Nat) (v : Word) (s : State) : State :=
  let s := s.fieldWrite (RING_STAT t r) v
  if RING_STAT_DROP.get v = 0 then s else s.setFld (RING_STAT t r) RING_STAT_DROPCNT 0

/-! ## Function resets (R109) -/

/-- Address lies in the page of tenant `t`. -/
def inPage (t a : Nat) : Bool := decide (0x100000000 + 0x10000 * t ≤ a ∧ a < 0x100000000 + 0x10000 * (t + 1))

/-- The function-level reset of tenant `t`: page and rings return to reset values, FLRCNT excepted; completions of its
commands are discarded. Its captures, which transfer to its host memory, stop, their channels with CAUSE ABORTED (R103). -/
def State.functionReset (s : State) (t : Nat) : State :=
  let s := s.resetRegs (fun a => inPage t a && a != TPG_FLR t)
  let s := s.inc (TPG_FLR t) TPG_FLR_FLRCNT
  let grabbing := s.cmp.grabs.map (fun e => e.2.cmd)
  let s := s.each (s.cmp.grabs.filter (fun e => e.2.tenant == t)) (fun s e => s.setFld (HIF_DMA_STAT e.1) HIF_DMA_STAT_CAUSE 5)
  { s with
    hif := { s.hif with
      rings := s.hif.rings.filter (fun e => e.1 / 16 != t)
      agedOrder := s.hif.agedOrder.filter (fun k => k / 16 != t)
      shortWait := s.hif.shortWait.filter (fun k => k / 16 != t)
      fences := s.hif.fences.filter (fun k => k / 16 != t)
      msixPending := s.hif.msixPending.filter (fun k => k / 64 != t)
      inflight := (s.hif.inflight.filter (fun c => !(c.tenant == t && grabbing.contains c.id))).map
        (fun c => if c.tenant = t then { c with discard := true } else c) }
    cmp := { s.cmp with grabs := s.cmp.grabs.filter (fun e => e.2.tenant != t) } }

/-- R109, first row. -/
def opFlrVf (n : Nat) (s : State) : State := if n = 0 then s else s.functionReset n

/-- A host channel goes idle with CAUSE PCIE_DOWN; its registers other than STAT return to reset values. -/
def State.channelDown (s : State) (n : Nat) : State :=
  let st := HIF_DMA_STAT n
  let s := s.dropReqs n
  let s := s.setFld st HIF_DMA_STAT_STATE 0
  let s := s.setFld st HIF_DMA_STAT_CAUSE 6
  s.resetRegs (fun a => decide (HIF_DMA_CTRL n ≤ a ∧ a < HIF_DMA_CTRL n + 0x40) && a != st)

/-- R109, second row. -/
def State.pfReset (s : State) : State :=
  let s := s.each (List.range 1024) State.functionReset
  let s := s.each (List.range 16) (fun s k => s.channelDown (48 + k))
  let s := s.resetRegs (fun a => decide (HIF_DMA_CTRL 0 ≤ a ∧ a < HIF_DMA_CTRL 48) && a % 0x40 != 4)
  { s with hif := { s.hif with numVfs := 0, chans := s.hif.chans.filter (fun e => decide (e.1 < 48)) } }

/-- R109; R111: a link down is counted at HIF_LINKDN. -/
def opPfFlr (k : PfReset) (s : State) : State :=
  let s := s.pfReset
  if k = .linkDown then s.raise 327 else s

/-- R111. -/
def opAerunc (s : State) : State := s.raise 328

/-! ## The commands -/

def execBarAccessUnsupported (t : Tenant) (isWrite : Bool) (s : State) : Host.Outcome State Fault Refusal :=
  done s (opBarAccess t.val isWrite s)
def execDoorbell (t : Tenant) (r : RingIx) (i : BitVec 16) (s : State) : Host.Outcome State Fault Refusal :=
  done s (opDoorbell t.val r.val i.toNat s)
def execCommandFetch (t : Tenant) (r : CmdRing) (es : List Entry) (s : State) : Host.Outcome State Fault Refusal :=
  done s (opCommandFetch t.val r.val es s)
def execCommandAged (t : Tenant) (r : CmdRing) (s : State) : Host.Outcome State Fault Refusal :=
  done s (opCommandAged t.val r.val s)
def execRingModTimerExpiry (t : Tenant) (r : RingIx) (s : State) : Host.Outcome State Fault Refusal :=
  done s (opRingTimer t.val r.val s)
def execMsixUnmask (t : Tenant) (v : BitVec 6) (s : State) : Host.Outcome State Fault Refusal :=
  done s (opMsixUnmask t.val v.toNat s)
def execRingCtrlWrite (t : Tenant) (r : RingIx) (v : Word) (s : State) : Host.Outcome State Fault Refusal :=
  done s (opRingCtrl t.val r.val v s)
def execRingBaseWrite (t : Tenant) (r : RingIx) (hi : Bool) (v : Word) (s : State) :
    Host.Outcome State Fault Refusal :=
  done s (opRingBase t.val r.val hi v s)
def execRingStatWrite (t : Tenant) (r : RingIx) (v : Word) (s : State) : Host.Outcome State Fault Refusal :=
  done s (opRingStat t.val r.val v s)
def execFlrVf (n : Tenant) (s : State) : Host.Outcome State Fault Refusal := done s (opFlrVf n.val s)
def execPfFlr (k : PfReset) (s : State) : Host.Outcome State Fault Refusal := done s (opPfFlr k s)
def execHifAerunc (s : State) : Host.Outcome State Fault Refusal := done s (opAerunc s)

end Sys2Proof.Machine
end

