-- ==== Sys2Proof/Machine/Hedgerow.lean ====
section
/-! DEFINITION. The commands and timed events of Hedgerow beside the event itself (R529-R545). -/

namespace Sys2Proof.Machine

open Sys2Proof

/-- A source returns to CLEAR (R529, R534). -/
def State.hdgToClear (s : State) (n : Nat) : State :=
  let st := HDG_SRC_STAT n
  let s := s.setFld st HDG_SRC_STAT_STATE 0
  let s := s.setFld st HDG_SRC_STAT_WCOUNT 0
  let s := s.setBit st HDG_SRC_STAT_ACKED false
  let s := s.setBit st HDG_SRC_STAT_PROMOTED false
  { s with hdg := { s.hdg with timers := Tbl.del s.hdg.timers n, escalated := Tbl.del s.hdg.escalated n } }

/-- R535: FAULT_N follows the sources escalated with ACTION 1 and the safe state. -/
def State.refreshFault (s : State) : State :=
  s.driveFault (s.safe || s.hdg.escalated.any (fun e => e.2 == 1))

/-- R529, R541: the window closes below N; it is frozen while the source is held. -/
def opHdgWindowClose (n : Nat) (s : State) : State :=
  if s.hdgState n = 1 ∧ s.fld (HDG_SRC_CFG n) HDG_SRC_CFG_WINDOW ≠ 0 ∧ !s.held n then s.hdgToClear n else s

/-- R533, R537, R541: a running reaction timer expires; a hold freezes it unless a promotion started it. -/
def opHdgReactionExpiry (n : Nat) (s : State) : State :=
  match Tbl.find? s.hdg.timers n with
  | none => s
  | some promoted =>
    if s.hdgState n = 2 ∧ s.hdgAction n ≠ 0 ∧ (promoted ∨ !s.held n) then s.escalate n else s

def State.ackRefuse (s : State) : State := s.setBit HDG_ERR HDG_ERR_ACKREJ true

/-- R533, R534. -/
def opHdgAck (n : Nat) (s : State) : State :=
  if s.hdgState n = 2 then
    (s.setBit (HDG_SRC_STAT n) HDG_SRC_STAT_ACKED true).setHdgTimers (Tbl.del s.hdg.timers n)
  else s.ackRefuse

/-- R534, R535. -/
def opHdgClr (n : Nat) (s : State) : State :=
  let st := s.hdgState n
  if st = 1 ∨ (st = 2 ∧ s.bit (HDG_SRC_STAT n) HDG_SRC_STAT_ACKED)
      ∨ (st = 3 ∧ Tbl.getD s.hdg.escalated n 2 ≤ 1) then
    (s.hdgToClear n).refreshFault
  else s.ackRefuse

/-- R538. -/
def opHdgFirstclr (s : State) : State := s.clearAll [HDG_FIRST, HDG_FIRSTTS, HDG_FIRSTSEV, HDG_FIRSTSEVTS]

/-- R543: every COUNT. -/
def opHdgClrcnt (s : State) : State :=
  s.resetRegs (fun a => decide (HDG_SRC_COUNT 0 ≤ a ∧ a ≤ HDG_SRC_COUNT 511) && (a - HDG_SRC_COUNT 0) % 16 == 0)

def execHdgWindowClose (n : HdgSrc) (s : State) : Host.Outcome State Fault Refusal := done s (opHdgWindowClose n.val s)
def execHdgReactionExpiry (n : HdgSrc) (s : State) : Host.Outcome State Fault Refusal :=
  done s (opHdgReactionExpiry n.val s)
/-- R536, R542: a parity error in the collector is an event on HDG_SELFPAR, which enters the safe state at once. -/
def execHdgSelfpar (s : State) : Host.Outcome State Fault Refusal := done s (s.raise 511)
def execHdgAck (n : HdgSrc) (s : State) : Host.Outcome State Fault Refusal := doneBar s (opHdgAck n.val s)
def execHdgClr (n : HdgSrc) (s : State) : Host.Outcome State Fault Refusal := doneBar s (opHdgClr n.val s)
def execHdgFirstclr (s : State) : Host.Outcome State Fault Refusal := doneBar s (opHdgFirstclr s)
def execHdgClrcnt (s : State) : Host.Outcome State Fault Refusal := doneBar s (opHdgClrcnt s)

end Sys2Proof.Machine
end

