-- ==== Sys2Proof/Machine/Operands.lean ====
section
/-! DEFINITION. How a command entry is read (R79, R136), the format descriptor (R26-R28, R302), and what every command
goes through when it is taken: reservation, flight, the order of rejections (R84, R94, R162). -/

namespace Sys2Proof.Machine

open Sys2Proof

/-! ## Command entries (R79) -/

def opcodeOf (e : Entry) : Nat := bitsAt e 0 0 8
def cqOf (e : Entry) : Nat := bitsAt e 1 0 2
def fenceOf (e : Entry) : Bool := bitsAt e 1 2 1 == 1
def nocompOf (e : Entry) : Bool := bitsAt e 1 3 1 == 1
def tagOf (e : Entry) : Word := BitVec.ofNat 32 (bitsAt e 4 0 32)

/-- A bit field of an entry: byte, low bit, width. -/
def maskOf (l : List (Nat × Nat × Nat)) : Nat := l.foldl (fun m f => m ||| ((2 ^ f.2.2 - 1) * 2 ^ (8 * f.1 + f.2.1))) 0

/-- No bit outside the header and the named fields is set (R79, R136). -/
def onlyFields (e : Entry) (l : List (Nat × Nat × Nat)) : Bool :=
  let m := maskOf ([(0, 0, 8), (1, 0, 4), (4, 0, 32)] ++ l)
  e.toNat &&& m == e.toNat

/-! ## Taking a command (R78, R83, R84, R94) -/

/-- The opcodes that move data to or from host memory and need a command DMA channel (R94). DESIGN CHOICE: the opcode alone
decides, so a FLOW_RX_DEF or FLOW_TX_DEF with ENABLE 0, which reads no block, takes and waits for one too (log entry 52). -/
def needsChannel (op : Nat) : Bool := longTransfer op || shortTransfer op

/-- R84: an entry of the named completion ring can be reserved. -/
def State.canReserve (s : State) (t cq : Nat) : Bool :=
  s.ringOn t (8 + cq) && decide (s.ringUsed t (8 + cq) + (s.ring t (8 + cq)).reserved + 1 < s.ringSize t (8 + cq))

/-- R83: every command of the tenant that has been dispatched has completed. -/
def State.quiet (s : State) (t : Nat) : Bool := s.hif.inflight.all (fun c => c.tenant != t)

/-- R491: PWR_STAT.STATE ACTIVE, in which the command processor dispatches (encoding of the power chapter). -/
def State.powerActive (s : State) : Bool := s.fld PWR_STAT PWR_STAT_STATE == 0

/-- The command processor may dispatch at all for tenant `t` (R58, R115, R491, R536). -/
def State.mayDispatch (s : State) (t : Nat) : Bool := s.tenOn t && !s.safe && s.powerActive

/-- The command enters flight with its completion space reserved; its channel starts anew. -/
def State.take (s : State) (t r : Nat) (e : Entry) (pb : BlockRead) : State :=
  let x := s.ring t (8 + cqOf e)
  let c : Cmd := ⟨s.hif.nextId, t, r, cqOf e, tagOf e, nocompOf e, false, s.channelFor (opcodeOf e), e, pb⟩
  let s : State := { s with hif := { s.hif with
    inflight := s.hif.inflight ++ [c]
    nextId := s.hif.nextId + 1
    chans := s.freshChans c.channel } }
  s.setRing t (8 + cqOf e) { x with reserved := x.reserved + 1 }

/-! ## Arbitration (R83-R87) -/

def State.head (s : State) (t r : Nat) : Option Entry := (s.ring t r).fetched.head?

/-- The head of a ring is not waiting for completion space, and its tenant may dispatch. -/
def State.admits (s : State) (t r : Nat) (e : Entry) : Bool := s.mayDispatch t && s.ringOn t r && s.canReserve t (cqOf e)

/-- The ring whose fenced head keeps tenant `t` waiting (R83). -/
def State.fenceHold (s : State) (t : Nat) : Option Nat := (s.hif.fences.find? (fun k => k / 16 == t)).map (· % 16)

/-- Ring `r` of tenant `t` has a short transfer at its head and could go but for a channel. -/
def State.wantsShort (s : State) (t r : Nat) : Bool :=
  match s.head t r with
  | none => false
  | some e => s.admits t r e && shortTransfer (opcodeOf e) && (s.fenceHold t).all (fun k => k == r)

/-- The ring whose waiting short transfer takes the next channel: the oldest (R618). -/
def State.firstShort (s : State) : Option Nat := s.hif.shortWait.find? (fun k => s.wantsShort (k / 16) (k % 16))

/-- A channel for the head of a ring: none for a short transfer while an older one waits (R94, R618). -/
def State.channelOffer (s : State) (t r : Nat) (e : Entry) : Option Nat :=
  if shortTransfer (opcodeOf e) && s.firstShort.any (fun k => k != 16 * t + r) then none else s.channelFor (opcodeOf e)

/-- The head of a ring is not waiting for completion space or for a DMA channel, and its tenant may dispatch. -/
def State.considers (s : State) (t r : Nat) : Bool :=
  match s.head t r with
  | none => false
  | some e => s.admits t r e && (!needsChannel (opcodeOf e) || (s.channelOffer t r e).isSome)

/-- The head of a ring could be dispatched now. -/
def State.headReady (s : State) (t r : Nat) : Bool :=
  s.considers t r && (match s.head t r with
    | some e => !fenceOf e || s.quiet t
    | none => false)

/-- What a tenant's turn brings. -/
inductive Turn where
  | none
  /-- ring `r` is served -/
  | go (r : Nat)
  /-- the head of ring `r` has FENCE and waits, and the tenant with it -/
  | hold (r : Nat)
  deriving DecidableEq, Repr

/-- `0 .. n - 1` from the one after `last` on (R86, R87). -/
def roundFrom (n : Nat) (last : Option Nat) : List Nat :=
  match last with
  | none => List.range n
  | some k => (List.range n).map (fun i => (k + 1 + i) % n)

/-- R83, R86: the tenant's turn. -/
def State.turn (s : State) (t : Nat) : Turn :=
  match s.fenceHold t with
  | some r => if s.headReady t r then .go r else .none
  | none =>
    match (roundFrom 8 (Tbl.find? s.hif.lastRing t)).find? (fun r => s.considers t r) with
    | none => .none
    | some r => if s.headReady t r then .go r else .hold r

/-- Tenants that have a fetched command, rising. -/
def State.waitingTenants (s : State) : List Nat :=
  ((s.hif.rings.filter (fun e => e.1 % 16 < 8 && !e.2.fetched.isEmpty)).map (fun e => e.1 / 16)).eraseDups

/-- The order in which one class serves its tenants (R87). -/
def State.classOrder (s : State) (c : Nat) : List Nat :=
  let l := s.waitingTenants.filter (fun t => s.tenClass t == c)
  match Tbl.find? s.hif.lastTenant c with
  | none => l
  | some k => l.filter (fun t => decide (k < t)) ++ l.filter (fun t => decide (t ≤ k))

def State.setHif (s : State) (h : Hif) : State := { s with hif := h }

/-- The first tenant of a list whose turn serves a ring; a tenant met with a fenced head waits from then on. -/
def State.serve (s : State) : List Nat → State × Option (Nat × Nat)
  | [] => (s, none)
  | t :: l => match s.turn t with
    | .go r => (s, some (t, r))
    | .hold r => (s.setHif { s.hif with fences := s.hif.fences ++ [16 * t + r] }).serve l
    | .none => s.serve l

/-- R87: in the reserved slot, the oldest aged head that can go. DESIGN CHOICE: where no aged head can go, the slot
serves the ordinary order; slots are counted as commands are dispatched (log entry 41). -/
def State.agedHead (s : State) : Option (Nat × Nat) :=
  if s.hif.slot % 32 = 31 then
    (s.hif.agedOrder.find? (fun k =>
      s.headReady (k / 16) (k % 16) && (match s.fenceHold (k / 16) with
        | some r => r == k % 16
        | none => true))).map (fun k => (k / 16, k % 16))
  else none

/-- The rings whose short transfer finds no channel join those that wait for one (R618). -/
def State.queueShort (s : State) : State :=
  if (s.channelIn true).isSome then s
  else
    let l := s.waitingTenants.flatMap (fun t => ((List.range 8).filter (fun r => s.wantsShort t r)).map (fun r => 16 * t + r))
    s.setHif { s.hif with shortWait := s.hif.shortWait ++ l.filter (fun k => !s.hif.shortWait.contains k) }

/-- The ring that this slot serves. -/
def State.arbitrate (s : State) : State × Option (Nat × Nat) :=
  let s := s.queueShort
  match s.agedHead with
  | some x => (s, some x)
  | none => s.serve ((List.range 4).flatMap s.classOrder)

/-- The head leaves its ring: the consumer index advances (R82). -/
def State.popHead (s : State) (t r : Nat) : State :=
  let x := s.ring t r
  let s := s.setRing t r { x with fetched := x.fetched.tail, aged := false }
  let s := s.setFld (RING_DEV_IDX t r) RING_DEV_IDX_IDX ((s.devIdx t r + 1) % s.ringSize t r)
  let k := 16 * t + r
  s.setHif { s.hif with
    agedOrder := s.hif.agedOrder.filter (· != k)
    fences := s.hif.fences.filter (· != k)
    shortWait := s.hif.shortWait.filter (· != k)
    lastRing := Tbl.put s.hif.lastRing t r
    lastTenant := Tbl.put s.hif.lastTenant (s.tenClass t) t
    slot := (s.hif.slot + 1) % 32 }

/-- The head `e` of command ring `r` of tenant `t` leaves its ring and goes into flight; `body` is its effect, given
its number. -/
def State.dispatch (s : State) (t r : Nat) (e : Entry) (pb : BlockRead) (body : Nat → State → State) : State :=
  body s.hif.nextId ((s.popHead t r).take t r e pb)

/-! ## A command as a row of the table (log entry 8) -/

/-- Entry `e` stands at the head of the ring: fetched already, or fetched now as the next entry that the host has
written (R68, R72). -/
def State.offer (s : State) (t r : Nat) (e : Entry) : Option State :=
  match s.head t r with
  | some x => if x = e then some s else none
  | none =>
    if s.tenOn t && s.ringOn t r && s.toFetch t r != 0 then
      some (s.setRing t r { s.ring t r with fetched := [e] })
    else none

/-- The command with opcode `op` at the head of ring `r` of tenant `t` is the one that this dispatch slot serves: it is
carried out; in any other state it waits and nothing changes. -/
def State.commandWith (s : State) (op t r : Nat) (e : Entry) (pb : BlockRead) (body : Nat → State → State) :
    State :=
  if opcodeOf e ≠ op then s
  else match s.offer t r e with
    | none => s
    | some w => if w.arbitrate.2 = some (t, r) then w.arbitrate.1.dispatch t r e pb body else s

/-- A command without a parameter block. -/
def State.command (s : State) (op t r : Nat) (e : Entry) (body : Nat → State → State) : State :=
  s.commandWith op t r e ⟨none, 0⟩ body

/-! ## Mirroring (R571) -/

/-- R571: the active chip mirrors a change. -/
def State.mirror (s : State) (m : MirrorRecord) : State :=
  if s.fld FOV_STAT FOV_STAT_STATE = 6 ∧ s.bit FOV_STAT FOV_STAT_MIRUP then s.emit (.mirror m) else s

/-- The commands that R571 mirrors: STILL_LOAD is mirrored as a still, and NOP, QUERY, FRAME_GRAB and BIST_REQ change
no mirrored state. -/
def mirrored (op : Nat) : Bool :=
  [0x01, 0x02, 0x03, 0x04, 0x05, 0x10, 0x11, 0x12, 0x20, 0x21, 0x30, 0x31, 0x41, 0x50].contains op

/-- R571: the active chip mirrors a command that has been accepted, with the parameter block it read; a rejected one
has no effect to mirror (R162). -/
def State.mirrorCommand (s : State) (id : Nat) : State :=
  match s.inflightOf id with
  | some c =>
    if mirrored (opcodeOf c.entry) then
      s.mirror (.command ⟨c.tenant % 1024, Nat.mod_lt _ (by decide)⟩ c.entry c.block.block)
    else s
  | none => s

/-! ## Rejections (R162) -/

/-- The first condition that holds, with its code and RESULT; the list stands in the order of R162 and R128. -/
def firstReject : List (Bool × Status × Nat) → Option (Status × Nat)
  | [] => none
  | (b, st, r) :: l => if b then some (st, r) else firstReject l

/-- Complete with the first rejection that applies, or go on with the command as accepted; a command that breaks R95 counts at HIF_MISALIGN. -/
def State.checked (s : State) (id : Nat) (checks : List (Bool × Status × Nat)) (go : State → State) : State :=
  match firstReject checks with
  | some (st, r) => (s.when (st == .misaligned) (fun s => s.raise 323)).complete id st r 0
  | none => go (s.mirrorCommand id)

/-- R574: a chip in SYNC or STANDBY. -/
def State.standby (s : State) : Bool :=
  let x := s.fld FOV_STAT FOV_STAT_STATE
  x == 4 || x == 5

/-- R574 as a check: it stands last, as BUSY does in R162. -/
def State.standbyBusy (s : State) : Bool × Status × Nat := (s.standby, .busy, 0)

/-- R95: host address and length. -/
def hostOk (haddr len : Nat) : Bool := haddr % 64 == 0 && len % 64 == 0 && decide (64 ≤ len ∧ len ≤ 4294967232)

end Sys2Proof.Machine
end

