-- ==== Sys2Proof/Machine/Flits.lean ====
section
/-! DEFINITION. Links and trunks, the control stream's flits with their credits and retry, and the way of a control message to
another node (R379, R380, R395-R400, R407, R408). -/

namespace Sys2Proof.Machine

open Sys2Proof

/-! ## Lanes, links and trunks (R379, R380) -/

def LinkCtl.idle : LinkCtl := ⟨false, 0, [], 255, 0, [], [], 0, false, [], [], [], [], 0, [], [], [], [], 0, 0⟩

def State.link (s : State) (k : Nat) : LinkCtl := Tbl.getD s.blk.links k LinkCtl.idle
def State.setBlk (s : State) (b : Blk) : State := { s with blk := b }
def State.setLink (s : State) (k : Nat) (x : LinkCtl) : State :=
  s.setBlk { s.blk with links := Tbl.putD s.blk.links k x LinkCtl.idle }

def State.linkState (s : State) (k : Nat) : Nat := s.fld (BLK_L_STAT k) BLK_L_STAT_STATE
def State.linkActive (s : State) (k : Nat) : Bool := s.linkState k == 7
def State.linkEn (s : State) (k : Nat) : Bool := s.bit (BLK_L_CFG k) BLK_L_CFG_EN

/-- Links that are ACTIVE, in ascending number. -/
def State.activeLinks (s : State) : List Nat := (List.range 12).filter s.linkActive

/-- Lanes of a link in ascending number. -/
def State.linkLanes (s : State) (k : Nat) : List Nat :=
  (List.range 96).filter (fun j => s.fld (BLK_LANE_CFG j) BLK_LANE_CFG_LINK == k)

/-- R379: the position of a lane within its link. -/
def State.lanePosition (s : State) (k j : Nat) : Nat := ((s.linkLanes k).filter (fun i => decide (i < j))).length

/-- The link of a lane. -/
def State.laneLink (s : State) (j : Nat) : Option Nat :=
  let k := s.fld (BLK_LANE_CFG j) BLK_LANE_CFG_LINK
  if k < 12 then some k else none

def State.trunkLinks (s : State) (t : Nat) : List Nat :=
  (List.range 12).filter (fun k => s.fld (BLK_L_CFG k) BLK_L_CFG_TRUNK == t)

def State.trunkLanes (s : State) (t : Nat) : Nat :=
  (s.trunkLinks t).foldl (fun n k => n + (s.linkLanes k).length) 0

/-- A link HIST bit sets and raises its source (R420). -/
def State.blkHist (s : State) (k b : Nat) : State := (s.setBit (BLK_L_HIST k) ⟨b, 1⟩ true).raise (32 + b)

/-- The CHIP ID of a link's peer. -/
def State.peerId (s : State) (k : Nat) : BitVec 64 :=
  BitVec.ofNat 64 ((s.rd (BLK_L_PEERID_LO k)).toNat + 2 ^ 32 * (s.rd (BLK_L_PEERID_HI k)).toNat)

/-! ## The way to another node (R408, R416, R417) -/

/-- The lowest-numbered ACTIVE link to a node, whose peer is numbered (R408, R420). -/
def State.linkTo (s : State) (node : Nat) : Option Nat :=
  lowest 12 (fun k => s.linkActive k && s.bit (BLK_L_STAT k) BLK_L_STAT_PEERVALID
    && s.fld (BLK_L_STAT k) BLK_L_STAT_PEER == node)

/-- Own node number (R416). -/
def State.ownNode (s : State) : Nat := s.fld BLK_NODE BLK_NODE_NODEID

/-- The node is numbered (R417). -/
def State.numbered (s : State) (n : Nat) : Bool :=
  if s.fld BLK_NODE BLK_NODE_EXPNODES = 0 then n == 0 else Tbl.has s.blk.nodes n

def State.formed (s : State) : Bool :=
  s.fld BLK_NODE BLK_NODE_EXPNODES == 0 || decide (2 ≤ s.fld BLK_NODE BLK_NODE_FSTATE)

/-- Node `m` has an ACTIVE link to node `n`, as its firmware last reported it; one that has reported nothing has a link to
every node (R408; DESIGN CHOICE, log entry 34). -/
def State.relayReaches (s : State) (m n : Nat) : Bool := (Tbl.getD s.blk.peerLinks m 15).testBit n

/-- The link on which control traffic for node `n` leaves: the lowest-numbered direct one, or that to the lowest-numbered
node with ACTIVE links to both (R408). -/
def State.pathLink (s : State) (n : Nat) : Option Nat :=
  match s.linkTo n with
  | some k => some k
  | none => (List.range 4).findSome? (fun m =>
      if m != n && m != s.ownNode && s.numbered n && s.relayReaches m n then s.linkTo m else none)

/-- A control message has a path to the node (R408). -/
def State.hasPath (s : State) (n : Nat) : Bool := (s.pathLink n).isSome

/-! ## Flits (R395, R397, R399) -/

/-- The fields of a flit (R395); an idle flit has VALID 0 and carries ACK, NAK and credits only. -/
def flitBits (valid : Bool) (f : OutFlit) (nak : Bool) (seq ack cvc ccnt : Nat) : BitVec 128 :=
  BitVec.ofNat 128 (valid.toNat + 2 * f.vc + 16 * f.first.toNat + 32 * f.last.toNat + 64 * nak.toNat + 2 ^ 8 * seq
    + 2 ^ 16 * ack + 2 ^ 24 * cvc + 2 ^ 28 * ccnt + 2 ^ 32 * f.payload.toNat)

/-- The CTRL fields that carry a flit. -/
def flitFields (f : BitVec 128) : List (BitVec 16) := (List.range 8).map (fun i => BitVec.ofNat 16 (f.toNat / 2 ^ (16 * i)))

/-- The flit that CTRL fields carry. -/
def fieldsFlit (l : List (BitVec 16)) : BitVec 128 :=
  BitVec.ofNat 128 (l.foldr (fun c n => c.toNat + 2 ^ 16 * n) 0)

/-- The next credits to return: a channel and how many, up to 15 (R395, R397). -/
def LinkCtl.nextCredits (x : LinkCtl) : Nat × Nat :=
  match x.owed with
  | [] => (0, 0)
  | e :: _ => (e.1, min 15 e.2)

/-- A flit joins the control stream of a link. -/
def State.streamOut (s : State) (k : Nat) (f : BitVec 128) : State :=
  (s.setLink k { s.link k with outStream := (s.link k).outStream ++ flitFields f }).emit (.flit k f)

/-- A flit leaves on the link with the acknowledgement, and the credits, that wait. -/
def State.putFlit (s : State) (k : Nat) (valid : Bool) (f : OutFlit) (nak : Bool) : State :=
  let x := s.link k
  let c := x.nextCredits
  let bits := flitBits valid f nak (if valid then x.txSeq else 0) x.rxSeq c.1 c.2
  let x := { x with owed := Tbl.putD x.owed c.1 (Tbl.getD x.owed c.1 0 - c.2) 0 }
  let s := s.setLink k (if valid then
      { x with txSeq := (x.txSeq + 1) % 256, unacked := x.unacked ++ [bits]
               credits := Tbl.put x.credits f.vc (Tbl.getD x.credits f.vc 0 - 1) }
    else x)
  s.streamOut k bits

/-- An idle flit returns credits and the acknowledgement (R395, R397, R399). -/
def State.idleFlit (s : State) (k : Nat) : State := s.putFlit k false ⟨0, false, false, 0, false⟩ false

/-- A flit is lost or out of sequence: a NAK goes out once, until the replay arrives (R399). -/
def State.sendNak (s : State) (k : Nat) : State :=
  if (s.link k).nak then s
  else (s.setLink k { s.link k with nak := true }).putFlit k false ⟨0, false, false, 0, false⟩ true

/-- SEQ of a flit (R395). -/
def flitSeq (f : BitVec 128) : Nat := f.toNat / 2 ^ 8 % 256

/-- Acknowledge every flit up to sequence number `a` (R399). -/
def ackUpTo (a : Nat) (l : List (BitVec 128)) : List (BitVec 128) :=
  if l.any (fun f => flitSeq f == a) then (l.dropWhile (fun f => flitSeq f != a)).drop 1 else l

/-- Every unacknowledged flit is sent again: counted, and HIST.REPLAY set (R399). -/
def State.replay (s : State) (k : Nat) : State :=
  let l := (s.link k).unacked
  if l.isEmpty then s
  else ((s.each l (fun s f => s.streamOut k f)).incBy (BLK_L_REPLAY k) BLK_L_REPLAY_COUNT l.length).blkHist k 3

/-- Flits go out in order on each channel while it has a credit and fewer than 128 are unacknowledged (R397, R399); answers
those that wait on, `shut` naming the channels that one waits on. -/
def pumpFlits (k : Nat) : List OutFlit → List Nat → State → List OutFlit × State
  | [], _, s => ([], s)
  | f :: l, shut, s =>
    let x := s.link k
    if shut.contains f.vc || Tbl.getD x.credits f.vc 0 == 0 || decide (128 ≤ x.unacked.length) then
      let r := pumpFlits k l (f.vc :: shut) s
      (f :: r.1, r.2)
    else pumpFlits k l shut (s.putFlit k true f false)

def State.pumpLink (s : State) (k : Nat) : State :=
  let r := pumpFlits k (s.link k).waiting [] s
  r.2.setLink k { r.2.link k with waiting := r.1 }

/-- Flits of a message take their turn on link `k`. -/
def State.queueFlits (s : State) (k : Nat) (l : List OutFlit) : State :=
  (s.setLink k { s.link k with waiting := (s.link k).waiting ++ l }).pumpLink k

/-! ## Messages (R396, R407) -/

def reasonCode : SalvoReason → Nat
  | .late => 0
  | .aborted => 1
  | .linkLost => 2

/-- What a firmware message carries, as numbers. -/
def Msg.content : Msg → List Nat
  | .prepare g tb t n f => [1, g.toNat, tb, t.toNat, n, f]
  | .ready g f c => [2, g.toNat, f, c]
  | .refuse g r => [3, g.toNat, reasonCode r]
  | .commit g f => [4, g.toNat, f]
  | .cancel g r => [5, g.toNat, reasonCode r]
  | .join p c => [6, p, c.toNat]
  | .assign l t => [7, t] ++ l.flatMap (fun x => [x.1, x.2.toNat])
  | .time b m t => [8, b, m, t]
  | .image _ o => [9, o]
  | .imageAnswer c => [10, c]
  | .trunkup t c => [11, t, c]
  | _ => []

/-- Header fields and body of a message: KIND, TAG, LEN, STAT, and the body as a number (R407). A fixed body is as long as the bytes
up to its last named bit; that of a firmware message is firmware's, and DESIGN CHOICE has 8 bytes for each number it carries, 264 at
most (log entry 34). -/
def Msg.layout : Msg → Nat × Nat × Nat × Nat × Nat
  | .rregWr off v => (0, 0, 8, 0, off % 2 ^ 26 + 2 ^ 32 * v.toNat)
  | .rdmaWr off data => (1, 0, 8 + data.length, 0, off % 2 ^ 36 + 2 ^ 64 * ofBytes data)
  | .rregRd tag off => (2, tag, 4, 0, off % 2 ^ 26)
  | .rdmaRd tag off len8 => (3, tag, 6, 0, off % 2 ^ 36 + 2 ^ 40 * (len8 % 256))
  | .flush tag => (4, tag, 0, 0, 0)
  | .cpl tag rejected data => (5, tag, data.length, rejected.toNat, ofBytes data)
  | m => (6, 0, min 264 (8 * m.content.length), 0, (Config.fwBody m.content).toNat)

/-- The payloads of a message's flits: the first has the header in its low 32 bits and 64 bits of the body, each further one
96 bits (R395, R407). -/
def messagePayloads (dst src kind tag len stat body : Nat) : List (BitVec 96) :=
  let head := dst + 4 * src + 16 * kind + 2 ^ 8 * (tag % 256) + 2 ^ 16 * (len % 512) + 2 ^ 25 * stat
  BitVec.ofNat 96 (head + 2 ^ 32 * (body % 2 ^ 64)) ::
    (List.range (if 8 < len then ceilDiv (len - 8) 12 else 0)).map (fun i => BitVec.ofNat 96 (body / 2 ^ (64 + 96 * i)))

/-- The flits of a message to node `n` on VC `vc`. -/
def State.messageFlits (s : State) (n vc : Nat) (m : Msg) (rr : Bool) : List OutFlit :=
  let h := m.layout
  let l := messagePayloads n s.ownNode h.1 h.2.1 h.2.2.1 h.2.2.2.1 h.2.2.2.2
  l.zipIdx.map (fun p => ⟨vc, p.2 == 0, p.2 + 1 == l.length, p.1, rr⟩)

/-- A firmware message leaves on link `k`, on channel MSG (R396). -/
def State.sendOn (s : State) (k n : Nat) (m : Msg) : State := s.queueFlits k (s.messageFlits n 3 m false)

/-- A message of this chip to node `n` goes out on VC `vc` (R396, R407, R408). -/
def State.sendVia (s : State) (n vc : Nat) (m : Msg) (rr : Bool) : State :=
  match s.pathLink n with
  | some k => (s.emit (.msg n m)).queueFlits k (s.messageFlits n vc m rr)
  | none => s

def State.sendRemote (s : State) (n vc : Nat) (m : Msg) : State := s.sendVia n vc m false

/-- A firmware message, on MSG, where the node has a path. -/
def State.send (s : State) (n : Nat) (m : Msg) : State := s.sendVia n 3 m false

end Sys2Proof.Machine
end

