-- ==== Sys2Proof/Machine/Sedge.lean ====
section
/-! DEFINITION. Sedge tile coding: the samples of a tile, prediction and mapping, the coded and the raw bit stream, and
the errors of a coded tile (R254, R256-R259, R267). -/

namespace Sys2Proof.Machine

open Sys2Proof

/-- Bits of a sample of a SAMPLING code: 10 or 12 (R254); the alpha plane has 10 (R267). -/
def sedgeBits (sampling : Nat) : Nat := if sampling % 2 = 0 then 10 else 12

/-- Width of each component of a tile in samples, in the order of R254: Y, Cb, Cr of 4:2:2 and R, G, B of 4:4:4. A tile
is eight rows high, so a component holds 256 or 128 samples. -/
def sedgeWidths (sampling : Nat) : List Nat :=
  if sampling ≤ 1 then [32, 16, 16] else if sampling = alphaPlane then [32] else [32, 32, 32]

/-- Samples of a component `w` samples wide. -/
def sedgeCount (w : Nat) : Nat := 8 * w

/-- R254: the tile at column `c` and row `r` of a plane `pw` samples wide and `ph` lines high, for a component `w` samples
wide; the last column and the last row fill an edge tile out. Raster order (R256). -/
def sedgeTile (w c r pw ph : Nat) (plane : Nat → Nat → Nat) : List Nat :=
  (List.range (sedgeCount w)).map (fun i =>
    plane (min (w * c + i % w) (pw - 1)) (min (8 * r + i / w) (ph - 1)))

/-! ## Bits, least significant first (R256) -/

/-- The low `w` bits of `n`, least significant first. -/
def lsbBits : Nat → Nat → List Bool
  | 0, _ => []
  | w + 1, n => (n % 2 == 1) :: lsbBits w (n / 2)

/-- The number that a list of bits spells, least significant first. -/
def ofLsb : List Bool → Nat
  | [] => 0
  | b :: t => (if b then 1 else 0) + 2 * ofLsb t

/-- R256, R258: a bit stream in `n` consecutive bytes, padded with zero bits. -/
def packBits : Nat → List Bool → List Byte
  | 0, _ => []
  | n + 1, l => BitVec.ofNat 8 (ofLsb (l.take 8)) :: packBits n (l.drop 8)

def unpackBits (l : List Byte) : List Bool := l.flatMap (fun b => lsbBits 8 b.toNat)

/-! ## Prediction and mapping (R257) -/

/-- R257: the prediction from left `p`, above `q` and above-left `r`. -/
def sedgeMed (p q r : Nat) : Nat :=
  if max p q ≤ r then min p q else if r ≤ min p q then max p q else p + q - r

/-- R257: the prediction of the sample after `done`, the earlier samples of the component newest first, in a component `w`
samples wide. -/
def sedgePredict (b w : Nat) (done : List Nat) : Nat :=
  let i := done.length
  let left := done.getD 0 0
  let above := done.getD (w - 1) 0
  if i = 0 then 2 ^ (b - 1)
  else if i < w then left
  else if i % w = 0 then above
  else sedgeMed left above (done.getD w 0)

/-- R257: the residual wrapped modulo 2^b and mapped: 2e for e at least 0, -2e - 1 for e below 0. -/
def sedgeMap (b x pred : Nat) : Nat :=
  let d := (x + 2 ^ b - pred) % 2 ^ b
  if d < 2 ^ (b - 1) then 2 * d else 2 * (2 ^ b - d) - 1

/-- The sample that a mapped value and its prediction give. -/
def sedgeUnmap (b m pred : Nat) : Nat :=
  if m % 2 = 0 then (pred + m / 2) % 2 ^ b else (pred + 2 ^ b - (m + 1) / 2) % 2 ^ b

/-- The mapped values of a component's samples; `done` holds the samples already taken, newest first. -/
def sedgeMaps (b w : Nat) : List Nat → List Nat → List Nat
  | [], _ => []
  | x :: t, done => sedgeMap b x (sedgePredict b w done) :: sedgeMaps b w t (x :: done)

/-- The samples that mapped values give, in raster order. -/
def sedgeUnmaps (b w : Nat) : List Nat → List Nat → List Nat
  | [], _ => []
  | m :: t, done =>
    let x := sedgeUnmap b m (sedgePredict b w done)
    x :: sedgeUnmaps b w t (x :: done)

/-! ## The coded stream (R258) -/

/-- R258: one mapped value under parameter `k`. -/
def sedgeValue (b k m : Nat) : List Bool :=
  let q := m / 2 ^ k
  if q < 16 then List.replicate q true ++ false :: lsbBits k m
  else List.replicate 16 true ++ lsbBits b m

/-- Bits of a run of values under parameter `k`. -/
def sedgeCost (b k : Nat) (l : List Nat) : Nat := (l.map (fun m => (sedgeValue b k m).length)).sum

/-- R258: the parameter that gives the fewest bits, the lower one on a tie; `best` among those below `k`. -/
def sedgeBest (b : Nat) (l : List Nat) : Nat → Nat
  | 0 => 0
  | k + 1 => let j := sedgeBest b l k
    if sedgeCost b (k + 1) l < sedgeCost b j l then k + 1 else j

/-- R258: the parameter of a run, from 0 to 12. -/
def sedgeParam (b : Nat) (l : List Nat) : Nat := sedgeBest b l 12

/-- R258: a run of eight values behind its 4-bit parameter. -/
def sedgeRun (b : Nat) (l : List Nat) : List Bool :=
  let k := sedgeParam b l
  lsbBits 4 k ++ l.flatMap (sedgeValue b k)

/-- R258: the runs of a component, `n` of them. -/
def sedgeRuns (b : Nat) : Nat → List Nat → List Bool
  | 0, _ => []
  | n + 1, l => sedgeRun b (l.take 8) ++ sedgeRuns b n (l.drop 8)

/-- The coded bits of a tile: its components in order, each `(width, samples)`. -/
def sedgeCode (b : Nat) (comps : List (Nat × List Nat)) : List Bool :=
  comps.flatMap (fun c => sedgeRuns b c.1 (sedgeMaps b c.1 c.2 []))

/-- R256: the bits of a raw tile. -/
def sedgeRawBits (b : Nat) (comps : List (Nat × List Nat)) : List Bool :=
  comps.flatMap (fun c => c.2.flatMap (lsbBits b))

/-- The components of a tile with their widths. -/
def sedgeComps (sampling : Nat) (samples : List (List Nat)) : List (Nat × List Nat) :=
  (sedgeWidths sampling).zip samples

/-- R254, R258: the directory byte of a tile and the bytes its slot holds: coded and padded to a multiple of 64 bytes, or
raw where the coded tile would be as long as the raw tile or longer. -/
def sedgeStore (sampling : Nat) (samples : List (List Nat)) : Byte × List Byte :=
  let b := sedgeBits sampling
  let comps := sedgeComps sampling samples
  let bits := sedgeCode b comps
  let units := ceilDiv bits.length 512
  let raw := tileRaw sampling / 64
  if units < raw then (BitVec.ofNat 8 (128 + units), packBits (64 * units) bits)
  else (BitVec.ofNat 8 raw, packBits (64 * raw) (sedgeRawBits b comps))

/-! ## Reading a tile (R258, R259) -/

/-- The ones at the head of a stream, at most `n`, and what follows them. -/
def takeOnes : Nat → List Bool → Nat × List Bool
  | 0, l => (0, l)
  | _ + 1, [] => (0, [])
  | n + 1, true :: l => let r := takeOnes n l; (r.1 + 1, r.2)
  | _ + 1, false :: l => (0, false :: l)

/-- `w` bits at the head of a stream; none where the stream ends before them. -/
def takeBits (w : Nat) (l : List Bool) : Option (Nat × List Bool) :=
  if l.length < w then none else some (ofLsb (l.take w), l.drop w)

/-- One mapped value under parameter `k` (R258). -/
def sedgeReadValue (b k : Nat) (l : List Bool) : Option (Nat × List Bool) :=
  let r := takeOnes 16 l
  if r.1 = 16 then takeBits b r.2
  else match r.2 with
    | [] => none
    | _ :: t => (takeBits k t).map (fun v => (r.1 * 2 ^ k + v.1, v.2))

/-- `n` mapped values under parameter `k`. -/
def sedgeReadValues (b k : Nat) : Nat → List Bool → Option (List Nat × List Bool)
  | 0, l => some ([], l)
  | n + 1, l =>
    match sedgeReadValue b k l with
    | none => none
    | some (m, l) => (sedgeReadValues b k n l).map (fun r => (m :: r.1, r.2))

/-- `n` runs of eight values; none where a parameter exceeds 12 or the stream ends (R259). -/
def sedgeReadRuns (b : Nat) : Nat → List Bool → Option (List Nat × List Bool)
  | 0, l => some ([], l)
  | n + 1, l =>
    match takeBits 4 l with
    | none => none
    | some (k, l) =>
      if 12 < k then none
      else match sedgeReadValues b k 8 l with
        | none => none
        | some (ms, l) => (sedgeReadRuns b n l).map (fun r => (ms ++ r.1, r.2))

/-- The components of a coded tile. -/
def sedgeReadCode (b : Nat) : List Nat → List Bool → Option (List (List Nat))
  | [], _ => some []
  | w :: ws, l =>
    match sedgeReadRuns b w l with
    | none => none
    | some (ms, l) => (sedgeReadCode b ws l).map (fun r => sedgeUnmaps b w ms [] :: r)

/-- The components of a raw tile (R256). -/
def sedgeReadRaw (b : Nat) : List Nat → List Bool → List (List Nat)
  | [], _ => []
  | w :: ws, l =>
    (List.range (sedgeCount w)).map (fun i => ofLsb ((l.drop (b * i)).take b)) ::
      sedgeReadRaw b ws (l.drop (b * sedgeCount w))

/-- R259: the samples of a tile from its directory byte and its slot; none where the tile is in error, which a reader
treats as transparent: its LEN exceeds the raw size, a parameter exceeds 12, or it ends beyond LEN units. -/
def sedgeRead (sampling : Nat) (dir : Byte) (slot : List Byte) : Option (List (List Nat)) :=
  let len := dir.toNat % 32
  if tileRaw sampling / 64 < len then none
  else if dir.toNat.testBit 7 then
    sedgeReadCode (sedgeBits sampling) (sedgeWidths sampling) (unpackBits (slot.take (64 * len)))
  else some (sedgeReadRaw (sedgeBits sampling) (sedgeWidths sampling) (unpackBits slot))

/-! ## Places in a surface (R254) -/

/-- The tile that holds sample column `x` and line `y` of a surface `w` wide, in raster order. -/
def tileAt (w x y : Nat) : Nat := ceilDiv w 32 * (y / 8) + x / 32

/-- Offset of the slot of tile `t` in a surface of `w` by `h` samples. -/
def tileSlot (w h raw t : Nat) : Nat := dirSize (tilesOf w h) + t * raw

/-- The directory byte and the slot of tile `t` of a surface. -/
def surfaceTile (data : List Byte) (w h sampling t : Nat) : Byte × List Byte :=
  (data.getD t 0, (data.drop (tileSlot w h (tileRaw sampling) t)).take (tileRaw sampling))

/-- R258: a tile stored raw. -/
def sedgeRaw (sampling : Nat) (samples : List (List Nat)) : Byte × List Byte :=
  (BitVec.ofNat 8 (tileRaw sampling / 64),
   packBits (tileRaw sampling) (sedgeRawBits (sedgeBits sampling) (sedgeComps sampling samples)))

/-- `l` in `n` bytes, filled with zeros. -/
def padTo (n : Nat) (l : List Byte) : List Byte := (l ++ List.replicate (n - l.length) 0).take n

/-- The surface of the tiles of a plane, coded or raw (R254, R258). -/
def planeBytes (w h sampling : Nat) (coded : Bool) (tiles : List (List (List Nat))) : List Byte :=
  let l := tiles.map (fun x => if coded then sedgeStore sampling x else sedgeRaw sampling x)
  padTo (dirSize (tilesOf w h)) (l.map Prod.fst) ++ l.flatMap (fun x => padTo (tileRaw sampling) x.2)

end Sys2Proof.Machine
end

