-- ==== Sys2Proof/Machine/LineCode.lean ====
section
/-! DEFINITION. The line code and the stream multiplex of the fabric: scrambling, stuffing, void blocks and the fields of
a block in line order (R381-R385), what a lane sends in training (R401), and the place of every word of a position (R388,
R389). -/

namespace Sys2Proof.Machine

open Sys2Proof

/-! ## Scrambling (R383) -/

/-- The next bit of the scrambler x^31 + x^28 + 1, whose last 31 bits `r` holds, the newest in bit 0: the sum of the bits 28 and 31
places back (log entry 46). -/
def scramblerBit (r : Nat) : Bool := r.testBit 27 != r.testBit 30

def scramblerStep (r : Nat) : Nat := (2 * r + (scramblerBit r).toNat) % 2 ^ 31

/-- R383: the scrambler's bit is added to each bit; it advances one step for each. -/
def scramble : Nat → List Bool → List Bool
  | _, [] => []
  | r, b :: t => (b != scramblerBit r) :: withNat (scramblerStep r) (fun r => scramble r t)

/-- The scrambler after `n` scrambled bits. -/
def scramblerAfter : Nat → Nat → Nat
  | 0, r => r
  | n + 1, r => withNat (scramblerStep r) (fun r => scramblerAfter n r)

/-! ## Stuffing (R384) -/

/-- R384: after 31 equal bits a bit of the opposite value is inserted; `run` bits equal to `last` have been sent, stuff
bits counted. -/
def stuff : Bool → Nat → List Bool → List Bool
  | _, _, [] => []
  | last, run, b :: t =>
    let n := if b = last then run + 1 else 1
    if n = 31 then b :: (!b) :: stuff (!b) 1 t else b :: stuff b n t

/-- R384: the receiver removes the bit that follows any 31 equal bits. -/
def unstuff : Bool → Nat → List Bool → List Bool
  | _, _, [] => []
  | last, run, b :: t =>
    if run = 31 then unstuff b 1 t
    else b :: unstuff b (if b = last then run + 1 else 1) t

/-- Bits the stuffing of a block's content adds. -/
def stuffCount (content : List Bool) : Nat := (stuff false 0 content).length - content.length

/-- `n` alternating bits, the first the complement of the bit before them. -/
def alternate : Nat → Bool → List Bool
  | 0, _ => []
  | n + 1, last => (!last) :: alternate n (!last)

/-! ## Blocks (R382, R385) -/

/-- One bit, in line order, into the CRC-16 of R382, held with x^15 in bit 0 (log entry 34). -/
def crc16Bit (c : Nat) (b : Bool) : Nat := (if (c % 2 == 1) != b then 0x8408 else 0) ^^^ c / 2

/-- The CRC-16 of bits in line order. -/
def crc16Bits : Nat → List Bool → Nat
  | c, [] => c
  | c, b :: t => withNat (crc16Bit c b) (fun c => crc16Bits c t)

/-- The CRC of a block: HEADER, PAYLOAD and CTRL in line order, each least significant bit first. -/
def blockCrc (hdr : BitVec 13) (payload : BitVec 1536) (ctrl : BitVec 16) : Nat :=
  crc16Bits 0xFFFF (lsbBits 13 hdr.toNat ++ lsbBits 1536 payload.toNat ++ lsbBits 16 ctrl.toNat)

/-- R391: a block fails when its CRC does not match or it is void. -/
def blockFails (hdr : BitVec 13) (payload : BitVec 1536) (ctrl crc : BitVec 16) : Bool :=
  hdr.toNat.testBit 12 || blockCrc hdr payload ctrl != crc.toNat

/-- R382: the marker, which is not scrambled. -/
def marker : Nat := 0xE4B

/-- R382: HEADER of block `blk` of a superframe at lane position `pos`. -/
def blockHeader (blk pos : Nat) (void : Bool) : BitVec 13 :=
  BitVec.ofNat 13 (blk % 128 + 128 * (pos % 32) + (if void then 4096 else 0))

/-- The bits of a block that are scrambled, in line order: HEADER, PAYLOAD, CTRL and CRC, each least significant bit
first. -/
def blockContent (hdr : BitVec 13) (payload : BitVec 1536) (ctrl : BitVec 16) : List Bool :=
  lsbBits 13 hdr.toNat ++ lsbBits 1536 payload.toNat ++ lsbBits 16 ctrl.toNat ++
    lsbBits 16 (blockCrc hdr payload ctrl)

/-- FILL: alternating bits up to the length of a block. -/
def fillBlock (l : List Bool) : List Bool := l ++ alternate (1600 - l.length) (l.getLastD false)

/-- R382-R385: the 1,600 line bits of a block under the scrambler `reg`. Where its content would need more than 7 stuff
bits it is sent void: HEADER with VOID set, then 1,568 alternating bits that are neither scrambled nor stuffed (their first
bit is the complement of the bit before them, log entry 46). -/
def sendBlock (reg : Nat) (blk pos : Nat) (payload : BitVec 1536) (ctrl : BitVec 16) : List Bool :=
  let content := scramble reg (blockContent (blockHeader blk pos false) payload ctrl)
  let mark := lsbBits 12 marker
  if stuffCount content ≤ 7 then fillBlock (mark ++ stuff false 0 content)
  else fillBlock (mark ++ scramble reg (lsbBits 13 (blockHeader blk pos true).toNat))

/-- R385: the block is sent void, and counts in BLK_Lk_VOID. -/
def blockVoid (reg : Nat) (blk pos : Nat) (payload : BitVec 1536) (ctrl : BitVec 16) : Bool :=
  decide (7 < stuffCount (scramble reg (blockContent (blockHeader blk pos false) payload ctrl)))

/-- The receiver's content of a block: the marker taken off, stuff bits removed and the fields descrambled, FILL
dropped. -/
def receiveContent (reg : Nat) (line : List Bool) : List Bool :=
  scramble reg ((unstuff false 0 (line.drop 12)).take 1581)

/-- HEADER, PAYLOAD, CTRL and CRC of a received block. -/
def receiveBlock (reg : Nat) (line : List Bool) : BitVec 13 × BitVec 1536 × BitVec 16 × BitVec 16 :=
  withNat (ofLsb (receiveContent reg line)) (fun c =>
    (BitVec.ofNat 13 c, BitVec.ofNat 1536 (c / 2 ^ 13), BitVec.ofNat 16 (c / 2 ^ 1549), BitVec.ofNat 16 (c / 2 ^ 1565)))

/-- Bits of a block that are scrambled: HEADER, PAYLOAD, CTRL and CRC. -/
def scrambledBits : Nat := 1581

/-- R383: the receiver's scrambler after a training block, from its zero half: a zero bit arrives as the scrambler's own bit. -/
def syncScrambler (line : List Bool) : Nat :=
  scramblerAfter (scrambledBits - 44) (ofLsb (((unstuff false 0 (line.drop 12)).drop 13).take 31).reverse)

/-- R401: PAYLOAD of a training block: 768 zero bits, then the fields. -/
def trainingPayload (fields : List Nat) : BitVec 1536 := Config.trainingBits fields ++ 0#768

/-! ## Lane timing (R381) -/

/-- R381: line bits of a block, blocks of a superframe, and word-clock periods of a superframe. -/
def blockBits : Nat := 1600
def superframeBlocks : Nat := 125
def superframeWords : Nat := 528

/-! ## The stream multiplex (R388, R389) -/

/-- R389: the empty code. -/
def emptyCode : Nat := 0x00401

/-- R388: the word of the multiplex that carries word `j` of position `p`. -/
def muxWord (cnt j p : Nat) : Nat := j * cnt + p

/-- R388: position and index of multiplex word `w`; none where the word is beyond the positions in use. -/
def muxOwner (cnt w : Nat) : Option (Nat × Nat) := if w < 528 * cnt then some (w % cnt, w / cnt) else none

/-- R388: block, trunk lane and PAYLOAD bit of bit `b` of the sequence of a trunk of `n` lanes. -/
def muxPlace (n b : Nat) : Nat × Nat × Nat := (b / (1536 * n), b / 1536 % n, b % 1536)

/-- Where bit `i` of word `w` lies. -/
def muxWordBit (n w i : Nat) : Nat × Nat × Nat := muxPlace n (20 * w + i)

/-- R388, R389: what multiplex word `w` carries, `word p j` being the valid word j of position p's slot if it has one. -/
def muxContent (cnt : Nat) (word : Nat → Nat → Option Nat) (w : Nat) : Nat :=
  match muxOwner cnt w with
  | none => emptyCode
  | some (p, j) => (word p j).getD emptyCode

/-- R389, R393: PAYLOAD of lane `i` of `n` in block `blk` where every word is the empty code. -/
def emptyPayload (n blk i : Nat) : BitVec 1536 :=
  BitVec.ofNat 1536 ((List.range 79).foldl (fun x _ => 2 ^ 20 * x + emptyCode) 0 / 2 ^ (1536 * (blk * n + i) % 20))

/-- R389: the receiver delivers a slot that holds the empty code as invalid (R21). -/
def muxDeliver (w : Nat) : Option Nat := if w = emptyCode then none else some w

/-- R380: the link and lane of trunk lane `i`: the links of the trunk in ascending order, and within each its lanes in
ascending order. -/
def State.trunkLane (s : State) (t i : Nat) : Option (Nat × Nat) :=
  ((s.trunkLinks t).flatMap (fun k => (s.linkLanes k).map (fun j => (k, j))))[i]?

/-- R388, R392: where word `j` of destination track `d` is sent on trunk `t`: block, link, lane and the PAYLOAD bit of the
word's first bit; none where its slot is outside the window. -/
def State.wordPlace (s : State) (t d j : Nat) : Option (Nat × Nat × Nat × Nat) :=
  let base := s.fld (BLK_TR_OSLOT t) BLK_TR_OSLOT_BASE
  let cnt := s.fld (BLK_TR_OSLOT t) BLK_TR_OSLOT_CNT
  if d < 1024 + base ∨ 1024 + base + cnt ≤ d then none
  else
    let b := muxWordBit (s.trunkLanes t) (muxWord cnt j (d - 1024 - base)) 0
    (s.trunkLane t b.2.1).map (fun kj => (b.1, kj.1, kj.2, b.2.2))

end Sys2Proof.Machine
end

