-- ==== Sys2Proof/Machine/CellCode.lean ====
section
/-! DEFINITION. Cells and their code: which word slots of a track are valid (R21), how four slots make a cell (R166),
and the Reed-Solomon RS(16,14) code over GF(2^6) in which the planes hold it (R167). The manual gives no order of the
bits of a cell, no field polynomial and no generator: log entry 49. -/

namespace Sys2Proof.Machine

open Sys2Proof

/-! ## Word slots (R21, R166) -/

/-- Valid slots of 22 on each track of a stream: 1.485 Gb/s uses every second slot, 270 Mb/s two of eleven (R21). -/
def validSlots (f : Fmt) : Nat :=
  if f.raster = 1 ∨ f.raster = 2 then 4
  else if f.raster = 3 ∨ f.raster = 4 ∨ f.raster = 6 ∨ (f.raster = 5 ∧ f.rate ≤ 5 ∧ f.count = 1) then 11
  else 22

/-- Slot `n` (modulo 22) carries a word: the valid slots are spread evenly (R21). -/
def slotValid (f : Fmt) (n : Nat) : Bool := n * validSlots f / 22 != (n + 1) * validSlots f / 22

/-- Slot `i` of a cell: 20 data bits, and its valid flag (log entry 49). -/
def cellSlot (c : BitVec 84) (i : Nat) : BitVec 20 × Bool :=
  (BitVec.ofNat 20 (c.toNat / 2 ^ (20 * i)), c.getLsbD (80 + i))

/-- The cell of four slots. -/
def cellOf (l : List (BitVec 20 × Bool)) : BitVec 84 :=
  BitVec.ofNat 84 ((List.range 4).foldl (fun n i => match l[i]? with
    | some x => n + 2 ^ (20 * i) * x.1.toNat + (if x.2 then 2 ^ (80 + i) else 0)
    | none => n) 0)

/-- The next `k` slots of a track from slot `n` on: each valid slot takes the next word of the stream. -/
def fillSlots (f : Fmt) : Nat → Nat → List (BitVec 20) → List (BitVec 20 × Bool)
  | 0, _, _ => []
  | k + 1, n, ws =>
    if slotValid f n then match ws with
      | w :: t => (w, true) :: fillSlots f k ((n + 1) % 22) t
      | [] => (0, false) :: fillSlots f k ((n + 1) % 22) []
    else (0, false) :: fillSlots f k ((n + 1) % 22) ws

/-- A cell of the slots before `k` of `a`, and of the others of `b` (R173). -/
def cellMix (a b : BitVec 84) (k : Nat) : BitVec 84 :=
  cellOf ((List.range 4).map (fun i => if i < k then cellSlot a i else cellSlot b i))

/-! ## The field GF(2^6) -/

abbrev Sym := BitVec 6

/-- The field element times the primitive element, for the polynomial x^6 + x + 1 (log entry 49). -/
def gfDouble (a : Sym) : Sym := a.shiftLeft 1 ^^^ (if a.getLsbD 5 then 3#6 else 0#6)

/-- The field element times the n-th power of the primitive element. -/
def gfShift (a : Sym) : Nat → Sym
  | 0 => a
  | n + 1 => gfDouble (gfShift a n)

def gfMul (a b : Sym) : Sym :=
  (List.range 6).foldl (fun x i => if b.getLsbD i then x ^^^ gfShift a i else x) 0

/-- The inverse of a field element; 0 for 0. -/
def gfInv (a : Sym) : Sym :=
  match (List.range 64).find? (fun i => gfMul a (BitVec.ofNat 6 i) == 1) with
  | some i => BitVec.ofNat 6 i
  | none => 0

/-! ## The code (R167) -/

/-- Symbol `i` of a code word. -/
def sym (w : BitVec 96) (i : Nat) : Sym := BitVec.ofNat 6 (w.toNat / 2 ^ (6 * i))

def ofSyms (f : Nat → Sym) : BitVec 96 :=
  BitVec.ofNat 96 ((List.range 16).foldl (fun n i => n + 2 ^ (6 * i) * (f i).toNat) 0)

/-- The two syndromes of a word: the sum of its symbols, and that of each symbol times its place's power. -/
def syndrome (w : BitVec 96) : Sym × Sym :=
  (List.range 16).foldl (fun x i => (x.1 ^^^ sym w i, x.2 ^^^ gfShift (sym w i) i)) (0, 0)

/-- A word with symbol `p` changed by `v`. -/
def addSym (w : BitVec 96) (p : Nat) (v : Sym) : BitVec 96 := ofSyms (fun i => if i = p then sym w i ^^^ v else sym w i)

/-- The values of the two symbols at places `p` and `q` that take the syndromes `x` away. -/
def solveTwo (x : Sym × Sym) (p q : Nat) : Sym × Sym :=
  let b := gfMul (x.2 ^^^ gfShift x.1 p) (gfInv (gfShift 1 p ^^^ gfShift 1 q))
  (x.1 ^^^ b, b)

/-- The code word of a cell: S0-S13 carry its 84 bits, S14 and S15 are the check symbols. -/
def rsEncode (c : BitVec 84) : BitVec 96 :=
  let w : BitVec 96 := c.setWidth 96
  let v := solveTwo (syndrome w) 14 15
  addSym (addSym w 14 v.1) 15 v.2

/-- The word with the symbols at the places `l` cleared: an erased symbol is not known. -/
def eraseSyms (w : BitVec 96) (l : List Nat) : BitVec 96 := ofSyms (fun i => if l.contains i then 0 else sym w i)

/-- Decode a word whose symbols at the places `erased` are unknown: the decoder corrects one symbol in error, or
recovers up to two that are erased; none where it finds no code word. -/
def rsDecode (w : BitVec 96) (erased : List Nat) : Option (BitVec 84) :=
  let w := eraseSyms w erased
  let x := syndrome w
  match erased with
  | [] =>
    if x = (0, 0) then some (w.setWidth 84)
    else match (List.range 16).find? (fun i => x.1 != 0 && gfShift x.1 i == x.2) with
      | some i => some ((addSym w i x.1).setWidth 84)
      | none => none
  | [p] => if gfShift x.1 p = x.2 then some ((addSym w p x.1).setWidth 84) else none
  | [p, q] =>
    let v := solveTwo x p q
    some ((addSym (addSym w p v.1) q v.2).setWidth 84)
  | _ => none

end Sys2Proof.Machine
end

