-- ==== Sys2Proof/Machine/TimeBases.lean ====
section
/-! DEFINITION. The four time bases: the count, steps and slews, the PTP domains, following over the fabric, and the
pulse outputs (R446-R468). -/

namespace Sys2Proof.Machine

open Sys2Proof

/-! ## Fields of a base -/

def State.tbMode (s : State) (b : Nat) : Nat := s.fld (TIM_TB_CTRL b) TIM_TB_CTRL_MODE
def State.tbState (s : State) (b : Nat) : Nat := s.fld (TIM_TB_STAT b) TIM_TB_STAT_STATE
def State.setTbState (s : State) (b x : Nat) : State := s.setFld (TIM_TB_STAT b) TIM_TB_STAT_STATE x
def State.slewMax (s : State) (b : Nat) : Nat := min 200 (max 1 (s.fld (TIM_TB_SLEW b) TIM_TB_SLEW_SLEWMAX))

/-- FREQ in ppt, clamped to ±500,000,000 (R454). -/
def State.tbFreq (s : State) (b : Nat) : Int :=
  max (-500000000) (min 500000000 (signed 32 (s.rd (TIM_TB_FREQ b)).toNat))

/-- 1 ns in the units of an outstanding correction. -/
def adjNs : Int := 4294967296000000

/-- A refused TIM write (R451, R455). -/
def State.timRefuse (s : State) : State := (s.setBit TIM_ERR TIM_ERR_CFGREJ true).raise 263

/-! ## The count (R446, R454) -/

/-- One cycle of 4 ns of base `b`: nominal plus FREQ plus the slew, carried to 2^-32 ns; how an inexact sum is carried
is a free value (log entry 5). -/
def State.countBase (s : State) (b : Nat) : State :=
  if s.tbMode b = 0 then s
  else
    let x := s.base b
    let lim : Int := 4 * 4294967296 * (s.slewMax b : Nat)
    let slew : Int := if x.adj.natAbs < adjNs.natAbs then 0 else max (-lim) (min lim x.adj)
    let num : Int := 4 * 4294967296 * (1000000000000 + s.tbFreq b) + slew * 1000000
    let q := num / 1000000000000
    let p : Nat × State := if num % 1000000000000 = 0 then (0, s) else s.freshPick 2
    p.2.setBase b { x with time := x.time + (q + (p.1 : Nat)).toNat, adj := x.adj - slew }

/-- One tick of 4 ns (log entry 2). -/
def State.tick (s : State) : State :=
  ([0, 1, 2, 3] : List Nat).foldl State.countBase { s with now := s.now + 4 }

/-! ## Pulse outputs (R461-R463) -/

def State.tpo (s : State) (k : Nat) : TpoState := Tbl.getD s.tim.tpos k TpoState.idle

/-- The level of an output: active during a pulse, inactive while it is armed, high impedance or inactive while it is idle
(R462, R467). -/
def State.tpoLevel (s : State) (k : Nat) : Option Bool :=
  let low := s.bit (TIM_TPO_CFG k) TIM_TPO_CFG_POL
  if (s.tpo k).pulse.isSome then some !low
  else if (s.tpo k).arming.isSome || !s.bit (TIM_TPO_CFG k) TIM_TPO_CFG_IDLEZ then some low
  else none

/-- What the ball of an output shows after `f`, where that changes it. -/
def State.watchTpo (s : State) (k : Nat) (f : State → State) : State :=
  let n := f s
  n.when (n.tpoLevel k != s.tpoLevel k) (fun n => n.emit (.tpo k (n.tpoLevel k)))

/-- A write of TIM_TPOk_CFG. -/
def opTpoCfg (k : Nat) (v : Word) (s : State) : State := s.watchTpo k (fun s => s.fieldWrite (TIM_TPO_CFG k) v)

/-- Store an output, with its ball and its status registers (R467). -/
def State.setTpo (s : State) (k : Nat) (x : TpoState) : State :=
  let s := s.watchTpo k (fun s => { s with tim := { s.tim with tpos := Tbl.put s.tim.tpos k x } })
  match x.arming with
  | none =>
    ((s.wr (TIM_TPO_STAT k) 0).wr (TIM_TPO_NEXT k) 0).wr (TIM_TPO_LEFT k) 0
  | some a =>
    let s := s.setBit (TIM_TPO_STAT k) TIM_TPO_STAT_ARMED true
    let s := s.setBit (TIM_TPO_STAT k) TIM_TPO_STAT_PERIODIC a.periodic
    let s := s.setFld (TIM_TPO_STAT k) TIM_TPO_STAT_TB a.tb
    let s := s.setFld (TIM_TPO_NEXT k) TIM_TPO_NEXT_TS (a.next % 2 ^ 32)
    s.setFld (TIM_TPO_LEFT k) TIM_TPO_LEFT_COUNT (a.left.getD 0)

/-- The TIME_ARM of a pending one-shot completes with ABORTED (R463). -/
def State.abortArming (s : State) (a : Option Arming) : State :=
  match a with
  | some a => match a.cmd with
    | some id => s.complete id .aborted 0 0
    | none => s
  | none => s

/-- Replace the arming of an output, after any pulse in progress (R463). -/
def State.rearm (s : State) (k : Nat) (new : Option Arming) : State :=
  let x := s.tpo k
  match x.pulse with
  | none => (s.abortArming x.arming).setTpo k { x with arming := new, next := none }
  | some _ =>
    let s := match x.next with
      | some q => s.abortArming q
      | none => s
    s.setTpo k { x with next := some new }

/-- DISARM, a revoke, a shed, or MODE 0 of its base (R463). -/
def State.disarm (s : State) (k : Nat) : State := s.rearm k none

/-- What a forward step of base `b` to full time `new` (ns) does to one arming: the pulses stepped over, and the arming
after it (R463). -/
def Arming.overstep (a : Arming) (new : Nat) : Nat × Option Arming :=
  if new ≤ a.next then (0, some a)
  else if !a.periodic then (0, some { a with next := new, stepped := true })
  else
    let n := ceilDiv (new - a.next) a.period
    match a.left with
    | none => (n, some { a with next := a.next + n * a.period })
    | some l => if l ≤ n then (l, none) else (n, some { a with next := a.next + n * a.period, left := some (l - n) })

/-- A forward step of base `b` as it meets an arming, if there is one. -/
def oversteps (b new : Nat) (a : Option Arming) : Nat × Option Arming :=
  match a with
  | none => (0, none)
  | some a => if a.tb = b then a.overstep new else (0, some a)

/-- R463: the pulses that a step of base `b` skips, those of an arming that waits for a pulse to end among them. -/
def State.skipPulses (s : State) (b new : Nat) : State :=
  let r := (List.range 16).foldl (fun (acc : State × Nat) k =>
    let x := acc.1.tpo k
    let p := oversteps b new x.arming
    let q := x.next.map (oversteps b new)
    let y : TpoState := { x with arming := p.2, next := q.map Prod.snd }
    if y = x then acc else (acc.1.setTpo k y, acc.2 + p.1 + (q.map Prod.fst).getD 0)) (s, 0)
  if r.2 = 0 then r.1 else (r.1.incBy TIM_TPOSKIP TIM_TPOSKIP_COUNT r.2).raise 262

/-- A base steps its full time to `new`, in units of 2^-32 ns (R452, R453): the outstanding correction is discarded, and
the step is recorded and met by the pulses. -/
def State.stepBase (s : State) (b new : Nat) : State :=
  let old := s.fullTime b
  let s := s.setBase b { s.base b with time := new, adj := 0 }
  let s := s.setBit (TIM_TB_STAT b) TIM_TB_STAT_SLEWING false
  let s := s.setBit (TIM_TB_HIST b) TIM_TB_HIST_STEP true
  let s := (s.inc TIM_STEPCNT TIM_STEPCNT_COUNT).raise 259
  let s : State := { s with sal := { s.sal with slots := s.sal.slots.map (fun e =>
    if e.2.stage = 3 ∧ e.2.tb = b ∧ old < e.2.due ∧ e.2.due ≤ new / 2 ^ 32 then (e.1, { e.2 with notBefore := s.now })
    else e) } }
  if old < new / 2 ^ 32 then s.skipPulses b (new / 2 ^ 32) else s

/-- Add a correction in ns, applied by slewing (R452, R454). -/
def State.slewBy (s : State) (b : Nat) (ns : Int) : State :=
  let x := s.base b
  let adj := x.adj + ns * adjNs
  (s.setBase b { x with adj := adj }).setBit (TIM_TB_STAT b) TIM_TB_STAT_SLEWING (adj != 0)

/-- R454: the outstanding correction is below 1 ns and the slew ends. -/
def opSlewDone (b : Nat) (s : State) : State :=
  let x := s.base b
  if s.bit (TIM_TB_STAT b) TIM_TB_STAT_SLEWING && decide (x.adj.natAbs < adjNs.natAbs) then
    (s.setBase b { x with adj := 0 }).setBit (TIM_TB_STAT b) TIM_TB_STAT_SLEWING false
  else s

/-! ## Host control of a base (R448, R451, R452) -/

/-- MODE 2 or 3: the host's steering is refused (R451). -/
def State.tbHostLocked (s : State) (b : Nat) : Bool := decide (2 ≤ s.tbMode b)

/-- R452. -/
def opLoad (b : Nat) (s : State) : State :=
  if s.tbHostLocked b then s.timRefuse
  else
    let sec := s.fld (TIM_TB_SETSEC_LO b) TIM_TB_SETSEC_LO_SEC + 2 ^ 32 * s.fld (TIM_TB_SETSEC_HI b) TIM_TB_SETSEC_HI_SEC
    let ns := min 999999999 (s.fld (TIM_TB_SETNS b) TIM_TB_SETNS_NS)
    s.stepBase b ((sec * 1000000000 + ns) * 2 ^ 32)

/-- R448. -/
def opSnap (b : Nat) (s : State) : State :=
  let t := s.fullTime b
  let sec := t / 1000000000
  let s := s.setFld (TIM_TB_SNAPSEC_LO b) TIM_TB_SNAPSEC_LO_SEC sec
  let s := s.setFld (TIM_TB_SNAPSEC_HI b) TIM_TB_SNAPSEC_HI_SEC (sec / 2 ^ 32)
  let s := s.setFld (TIM_TB_SNAPNS b) TIM_TB_SNAPNS_NS (t % 1000000000)
  s.setFld (TIM_TB_SNAPTS b) TIM_TB_SNAPTS_TS (t % 2 ^ 32)

def opSnapAll (s : State) : State := ([0, 1, 2, 3] : List Nat).foldl (fun s b => opSnap b s) s

/-- R451, R452. -/
def opAdjWrite (b : Nat) (v : Word) (s : State) : State :=
  if s.tbHostLocked b then s.timRefuse else s.slewBy b v.toInt

/-- R451: the SET registers of LOAD. -/
def opTbGuarded (b a : Nat) (v : Word) (s : State) : State :=
  if s.tbHostLocked b then s.timRefuse else s.fieldWrite a v

/-- FREQ takes a rate offset in ppt, clamped (R451, R452, R454). -/
def State.setFreq (s : State) (b : Nat) (ppt : Int) : State :=
  s.wr (TIM_TB_FREQ b) (BitVec.ofInt 32 (max (-500000000) (min 500000000 ppt)))

def opFreq (b : Nat) (v : Word) (s : State) : State :=
  if s.tbHostLocked b then s.timRefuse else s.setFreq b v.toInt

/-- Entry to HOLDOVER (R449, R450): FREQ is held and no ADJ is applied. -/
def State.enterHoldover (s : State) (b : Nat) : State :=
  if s.tbState b = 4 then s
  else
    let s := s.setTbState b 4
    let s := s.setBase b { s.base b with adj := 0, inRun := 0, outRun := 0 }
    let s := s.setBit (TIM_TB_STAT b) TIM_TB_STAT_SLEWING false
    (s.setBit (TIM_TB_HIST b) TIM_TB_HIST_HOLDOVER true).raise 256

/-- ACQUIRE (R449). -/
def State.enterAcquire (s : State) (b : Nat) (fromHold : Bool) : State :=
  let s := s.setTbState b 2
  s.setBase b { s.base b with fromHold := fromHold, inRun := 0, outRun := 0 }

/-- The domain in use is qualified (R455): false DOMA, true DOMB. -/
def State.domQual (s : State) (b : Nat) (domB : Bool) : Bool :=
  if domB then s.bit (TIM_TB_STAT b) TIM_TB_STAT_QUALB else s.bit (TIM_TB_STAT b) TIM_TB_STAT_QUALA

def State.inUse (s : State) (b : Nat) : Bool := s.bit (TIM_TB_STAT b) TIM_TB_STAT_INUSE

/-- R457: the source of a follower base is lost. `loop` where SRCNODE names the own node or the source base is in
MODE 0 or 3. -/
def State.sourceLost (s : State) (b : Nat) (loop : Bool) : State :=
  let s := s.enterHoldover b
  let s := s.setBit (TIM_TB_HIST b) TIM_TB_HIST_SRCLOST true
  s.when loop (fun s => s.raise 261)

/-- The steering of the MODE a base has just been given takes over from the present full time and FREQ (R449, R451,
R455, R457). -/
def State.startMode (s : State) (b : Nat) : State :=
  let m := s.tbMode b
  if m = 0 then s.setTbState b 0
  else if m = 1 then s.setTbState b 1
  else if m = 2 then
    if s.domQual b (s.inUse b) then s.enterAcquire b false else (s.setTbState b 0).enterHoldover b
  else
    let src := s.fld (TIM_TB_CTRL b) TIM_TB_CTRL_SRCNODE
    if src = s.ownNode then (s.setTbState b 0).sourceLost b true
    else if (s.linkTo src).isNone then (s.setTbState b 0).sourceLost b false
    else s.enterAcquire b false

/-- SRCNODE of a base in MODE 3 names a node that cannot be its source: this one, or one without a link (R456, R457). -/
def State.reviewSrc (s : State) (b : Nat) : State :=
  let src := s.fld (TIM_TB_CTRL b) TIM_TB_CTRL_SRCNODE
  if src = s.ownNode then s.sourceLost b true else if (s.linkTo src).isNone then s.sourceLost b false else s

/-- What runs in base `b` on a pulse output is disarmed (R463). -/
def State.disarmBase (s : State) (b : Nat) : State :=
  s.each (List.range 16) (fun s k =>
    if ((s.tpo k).next.getD (s.tpo k).arming).map (fun a => a.tb) = some b then s.disarm k else s)

/-- A base begins in the MODE that has just been set. -/
def State.enterMode (s : State) (b : Nat) : State :=
  let s := s.setBase b { s.base b with adj := 0, fresh := true }
  let s := s.setBit (TIM_TB_STAT b) TIM_TB_STAT_SLEWING false
  let s := s.setBit (TIM_TB_STAT b) TIM_TB_STAT_QUALA false
  let s := s.setBit (TIM_TB_STAT b) TIM_TB_STAT_QUALB false
  let s := s.startMode b
  s.when (s.tbMode b == 0) (fun s => s.disarmBase b)

/-- R449, R451, R463. -/
def opTbCtrl (b : Nat) (v : Word) (s : State) : State :=
  let old := s.tbMode b
  let s := s.fieldWrite (TIM_TB_CTRL b) v
  if s.tbMode b = old then
    s.when (old == 3 && (s.tbState b == 2 || s.tbState b == 3)) (fun s => s.reviewSrc b)
  else s.enterMode b

/-! ## The servo (R449, R450, R453) -/

/-- A correction of `off` ns (base minus source): in ACQUIRE a step where R453 calls for one, else a slew. The first
correction is read as the first since MODE was set (log entry 13). -/
def State.correct (s : State) (b : Nat) (off : Int) : State :=
  let x := s.base b
  let thr := 1000 * s.fld (TIM_TB_SLEW b) TIM_TB_SLEW_STEPTHR
  let step : Bool := s.tbState b == 2 && decide (thr < off.natAbs) &&
    (x.fresh || (x.fromHold && s.bit (TIM_TB_CTRL b) TIM_TB_CTRL_STEPEN))
  let s := s.setBase b { x with fresh := false }
  if step then s.stepBase b ((x.time : Int) - off * 4294967296).toNat
  else
    let s := s.setBase b { s.base b with adj := 0 }
    s.slewBy b (-off)

/-- The state after an update whose offset is `off` (R449, R450). -/
def State.judge (s : State) (b : Nat) (off : Int) : State :=
  let thr := s.fld (TIM_TB_LOCK b) TIM_TB_LOCK_LOCKTHR
  let x := s.base b
  let inRun := if off.natAbs ≤ thr then x.inRun + 1 else 0
  let outRun := if 10 * thr < off.natAbs then x.outRun + 1 else 0
  let s := s.setBase b { x with inRun := inRun, outRun := outRun }
  if s.tbState b = 2 ∧ 16 ≤ inRun then
    (s.setTbState b 3).setBase b { s.base b with fromHold := false, outRun := 0 }
  else if s.tbState b = 3 ∧ 4 ≤ outRun then
    (s.setTbState b 2).setBase b { s.base b with fresh := false, fromHold := false, inRun := 0 }
  else s

/-- FREQ as firmware sets it to the source's rate (R453, R456). -/
def State.steerFreq (s : State) (b : Nat) (ppt : Int) : State := s.setFreq b ppt

/-- The DIFF comparison of R455. -/
def State.compareDomains (s : State) (b : Nat) : State :=
  if s.bit (TIM_TB_CTRL b) TIM_TB_CTRL_DOMBEN then
    let x := s.base b
    let d := x.offB - x.offA
    let s := s.wr (TIM_TB_DIFF b) (BitVec.ofInt 32 d)
    if s.domQual b false && s.domQual b true then
      let ok : Bool := decide (d.natAbs ≤ s.fld (TIM_TB_DOM b) TIM_TB_DOM_DISAGREE)
      let s := s.setBase b { s.base b with agreed := ok }
      if ok then s else (s.setBit (TIM_TB_HIST b) TIM_TB_HIST_DISAGREE true).raise 258
    else s
  else s

/-- R453, R455: a servo update of base `b` on one domain. -/
def opServoUpdate (b : Nat) (domB : Bool) (off ppt : Int) (s : State) : State :=
  if s.tbMode b ≠ 2 ∨ (domB ∧ !s.bit (TIM_TB_CTRL b) TIM_TB_CTRL_DOMBEN) then s
  else
    let x := s.base b
    let s := s.setBase b (if domB then { x with offB := off } else { x with offA := off })
    let s := s.compareDomains b
    if s.inUse b == domB && (s.tbState b == 2 || s.tbState b == 3) then
      let s := s.steerFreq b ppt
      (s.judge b off).correct b off
    else s

/-- The latest offset by the domain in use. -/
def State.inUseOff (s : State) (b : Nat) : Int := if s.inUse b then (s.base b).offB else (s.base b).offA

/-- R455: the base changes to its other domain. -/
def State.changeDomain (s : State) (b : Nat) : State :=
  let s := s.setBit (TIM_TB_STAT b) TIM_TB_STAT_INUSE (!s.inUse b)
  let s := s.setBit (TIM_TB_HIST b) TIM_TB_HIST_SWITCH true
  (s.inc TIM_SWITCHCNT TIM_SWITCHCNT_COUNT).raise 257

/-- The offset by the domain in use is removed by slew, in the place of what is outstanding (R454, R455). -/
def State.slewOff (s : State) (b : Nat) : State := (s.setBase b { s.base b with adj := 0 }).slewBy b (-s.inUseOff b)

/-- R455: a switch without a step; the difference is slewed out. -/
def State.switchDomain (s : State) (b : Nat) : State := (s.changeDomain b).slewOff b

/-- R450, R455: domains of base `b` lose qualification in one update. -/
def opDomLoss (b : Nat) (lossA lossB : Bool) (s : State) : State :=
  if s.tbMode b ≠ 2 then s
  else
    let la : Bool := lossA && s.domQual b false
    let lb : Bool := lossB && s.domQual b true
    if !la && !lb then s
    else
      let s := s.when la (fun s =>
        (s.setBit (TIM_TB_STAT b) TIM_TB_STAT_QUALA false).setBit (TIM_TB_HIST b) TIM_TB_HIST_LOSSA true)
      let s := s.when lb (fun s =>
        (s.setBit (TIM_TB_STAT b) TIM_TB_STAT_QUALB false).setBit (TIM_TB_HIST b) TIM_TB_HIST_LOSSB true)
      let s := s.raise 260
      let lost : Bool := if s.inUse b then lb else la
      if !lost || !(s.tbState b == 2 || s.tbState b == 3) then s
      else if s.bit (TIM_TB_CTRL b) TIM_TB_CTRL_DOMBEN && s.domQual b (!s.inUse b) then
        if (s.base b).agreed then s.switchDomain b
        else ((s.setBit (TIM_TB_HIST b) TIM_TB_HIST_DISAGREE true).raise 258).enterHoldover b
      else s.enterHoldover b

/-- R455: a domain qualifies; a base in HOLDOVER enters ACQUIRE on it. -/
def opDomainQualified (b : Nat) (domB : Bool) (s : State) : State :=
  if s.tbMode b ≠ 2 ∨ (domB ∧ !s.bit (TIM_TB_CTRL b) TIM_TB_CTRL_DOMBEN) then s
  else
    let s := s.setBit (TIM_TB_STAT b) (if domB then TIM_TB_STAT_QUALB else TIM_TB_STAT_QUALA) true
    if s.tbState b = 4 then
      (s.setBit (TIM_TB_STAT b) TIM_TB_STAT_INUSE domB).enterAcquire b true
    else s

/-- R455: FORCEDOM; a base in HOLDOVER enters ACQUIRE on the domain it is forced to (R450). -/
def opForceDom (b : Nat) (s : State) : State :=
  let other := !s.inUse b
  if s.tbMode b = 2 ∧ s.domQual b other ∧ (!other ∨ s.bit (TIM_TB_CTRL b) TIM_TB_CTRL_DOMBEN) then
    let s := s.changeDomain b
    let s := if s.tbState b = 4 then s.enterAcquire b true else s
    let off := s.inUseOff b
    let thr := 1000 * s.fld (TIM_TB_SLEW b) TIM_TB_SLEW_STEPTHR
    if decide (thr < off.natAbs) && s.bit (TIM_TB_CTRL b) TIM_TB_CTRL_STEPEN then
      s.stepBase b (((s.base b).time : Int) - off * 4294967296).toNat
    else s.slewOff b
  else s.setBit TIM_ERR TIM_ERR_CFGREJ true

/-- R455: REVERT, with DOMB in use and DOMA qualified and in agreement for REVWAIT s. -/
def opRevwait (b : Nat) (s : State) : State :=
  if s.tbMode b = 2 ∧ s.bit (TIM_TB_CTRL b) TIM_TB_CTRL_REVERT ∧ s.inUse b ∧ s.domQual b false ∧ (s.base b).agreed then
    s.switchDomain b
  else s

/-! ## Following over the fabric (R456, R457) -/

/-- R456: the source node sends the full time of a superframe start; nothing is sent without a direct ACTIVE link. -/
def opFabricTimeSend (b dst : Nat) (s : State) : State :=
  match s.linkTo dst with
  | some k =>
    let m := Msg.time b (s.tbMode b) (s.fullTime b)
    (s.emit (.msg dst m)).sendOn k dst m
  | none => s

/-- R456, R457. -/
def opFabricTimeMsg (b srcMode : Nat) (off ppt : Int) (s : State) : State :=
  if s.tbMode b ≠ 3 then s
  else
    let src := s.fld (TIM_TB_CTRL b) TIM_TB_CTRL_SRCNODE
    if src = s.ownNode ∨ srcMode = 0 ∨ srcMode = 3 then s.sourceLost b true
    else if (s.linkTo src).isNone then s.sourceLost b false
    else
      let s := if s.tbState b = 4 then s.enterAcquire b true else s
      let s := s.steerFreq b ppt
      (s.judge b off).correct b off

/-- R457: no time message for 4 periods. -/
def opSrclost (b : Nat) (s : State) : State :=
  if s.tbMode b = 3 ∧ (s.tbState b = 2 ∨ s.tbState b = 3) then s.sourceLost b false else s

/-! ## TIME_ARM (R156, R461, R462) -/

/-- First full time of the form `start` + k * `period` that is at least `from_`. -/
def firstFrom (start : Int) (period from_ : Nat) : Nat :=
  if (from_ : Int) ≤ start then start.toNat
  else (start + (ceilDiv ((from_ : Int) - start).toNat period * period : Nat)).toNat

def timeArmBody (t : Nat) (e : Entry) (id : Nat) (s : State) : State :=
  let k := bitsAt e 8 0 4
  let tb := bitsAt e 9 0 2
  let periodic : Bool := bitsAt e 10 0 1 == 1
  let disarm : Bool := bitsAt e 10 1 1 == 1
  let start := bitsAt e 12 0 32
  let period := bitsAt e 16 0 32
  let width := bitsAt e 20 0 32
  let count := bitsAt e 24 0 32
  let shape : Bool := decide (width < 8) || (periodic &&
    (decide (period < 100 ∨ 4000000000 < period) || decide (period < width + 8)))
  let due := s.dueTime tb start
  let now := s.fullTime tb
  let late : Bool := !periodic && (match due with
    | none => true
    | some d => decide (d < now + 1000))
  s.checked id
    [(!onlyFields e [(8, 0, 4), (9, 0, 2), (10, 0, 2), (12, 0, 32), (16, 0, 32), (20, 0, 32), (24, 0, 32)],
      .rejFormat, 0),
     (!disarm && shape, .rejFormat, 0),
     (s.ownerOf 7 k != t, .rejOwner, 0),
     (!disarm && s.tbMode tb == 0, .busy, 0),
     s.standbyBusy]
    fun s =>
      if disarm then (s.disarm k).complete id .ok 0 0
      else if late then s.complete id .late 0 0
      else if periodic then
        let d : Int := signed 32 ((start + 2 ^ 32 - s.stamp tb) % 2 ^ 32)
        let first := firstFrom ((now : Int) + d) period (now + 1000)
        let a : Arming := ⟨tb, true, first, period, width, if count = 0 then none else some count, none, false⟩
        (s.rearm k (some a)).complete id .ok (first % 2 ^ 32) 0
      else
        s.rearm k (some ⟨tb, false, due.getD now, 0, width, none, some id, false⟩)

/-- R462: the output's pulse starts at its instant; with TPO requests to paced DMA channels handled by the caller. -/
def State.startPulse (s : State) (k : Nat) : State :=
  let x := s.tpo k
  match x.arming, x.pulse with
  | some a, none =>
    if s.fullTime a.tb < a.next then s
    else
      if a.periodic then
        let left := a.left.map (· - 1)
        s.setTpo k { x with arming := some { a with next := a.next + a.period, left := left }
                            pulse := some (a.tb, a.next + a.width) }
      else s.setTpo k { x with pulse := some (a.tb, a.next + a.width) }
  | _, _ => s

/-- A pulse is due to start: the output is armed, idle, and its instant has come. -/
def State.pulseDue (s : State) (k : Nat) : Bool :=
  match (s.tpo k).arming, (s.tpo k).pulse with
  | some a, none => decide (a.next ≤ s.fullTime a.tb)
  | _, _ => false

/-- R462, R463: the pulse ends after WIDTH; a one-shot completes, a counted output stops, a replacement takes over. -/
def opPulseEnd (k : Nat) (s : State) : State :=
  let x := s.tpo k
  match x.pulse with
  | none => s
  | some (tb, stop) =>
    if s.fullTime tb < stop then s
    else
      let oneShot := match x.arming with
        | some a => !a.periodic
        | none => false
      let s := match x.arming with
        | some a => (match a.cmd with
          | some id => s.complete id .ok (if a.stepped then 1 else 0) 0
          | none => s)
        | none => s
      match x.next with
      | some new => s.setTpo k ⟨new, none, none⟩
      | none =>
        let spent := match x.arming with
          | some a => a.left == some 0
          | none => true
        s.setTpo k ⟨if oneShot || spent then none else x.arming, none, none⟩

/-! ## Launch times and counters (R460, R465) -/

/-- R460: an express frame that is not ready by its launch time leaves at once and is counted. -/
def opExpressLaunch (ready : Bool) (s : State) : State :=
  if ready then s else s.inc TIM_LAUNCHLATE TIM_LAUNCHLATE_COUNT

def opTimClrcnt (s : State) : State := s.clearAll [TIM_TPOSKIP, TIM_SWITCHCNT, TIM_STEPCNT, TIM_LAUNCHLATE]

/-! ## The commands -/

def execLoad (b : Tb) (s : State) : Host.Outcome State Fault Refusal := doneBar s (opLoad b.val s)
def execSnap (b : Tb) (s : State) : Host.Outcome State Fault Refusal := doneBar s (opSnap b.val s)
def execSnapAll (s : State) : Host.Outcome State Fault Refusal := doneBar s (opSnapAll s)
def execForceDom (b : Tb) (s : State) : Host.Outcome State Fault Refusal := doneBar s (opForceDom b.val s)
def execTimAdjWrite (b : Tb) (v : Word) (s : State) : Host.Outcome State Fault Refusal := doneBar s (opAdjWrite b.val v s)
def execTimFreqWrite (b : Tb) (v : Word) (s : State) : Host.Outcome State Fault Refusal :=
  doneBar s (opFreq b.val v s)
def execTimTbCtrlWrite (b : Tb) (v : Word) (s : State) : Host.Outcome State Fault Refusal := doneBar s (opTbCtrl b.val v s)
def execSlewDone (b : Tb) (s : State) : Host.Outcome State Fault Refusal := done s (opSlewDone b.val s)
def execServoUpdate (b : Tb) (domB : Bool) (off ppt : Int) (s : State) : Host.Outcome State Fault Refusal :=
  done s (opServoUpdate b.val domB off ppt s)
def execTimDomloss (b : Tb) (lossA lossB : Bool) (s : State) : Host.Outcome State Fault Refusal :=
  done s (opDomLoss b.val lossA lossB s)
def execDomainQualified (b : Tb) (domB : Bool) (s : State) : Host.Outcome State Fault Refusal :=
  done s (opDomainQualified b.val domB s)
def execRevwaitExpiry (b : Tb) (s : State) : Host.Outcome State Fault Refusal := done s (opRevwait b.val s)
def execFabricTimeSend (b : Tb) (dst : Node) (s : State) : Host.Outcome State Fault Refusal :=
  done s (opFabricTimeSend b.val dst.val s)
def execFabricTimeMsg (b : Tb) (srcMode : BitVec 2) (off ppt : Int) (s : State) : Host.Outcome State Fault Refusal :=
  done s (opFabricTimeMsg b.val srcMode.toNat off ppt s)
def execSrclost (b : Tb) (s : State) : Host.Outcome State Fault Refusal := done s (opSrclost b.val s)
def execTimeArm (t : Tenant) (r : CmdRing) (e : Entry) (s : State) : Host.Outcome State Fault Refusal :=
  done s (s.command 0x50 t.val r.val e (timeArmBody t.val e))
def execPulseEnd (k : Tpo) (s : State) : Host.Outcome State Fault Refusal := done s (opPulseEnd k.val s)
def execTimClrcnt (s : State) : Host.Outcome State Fault Refusal := doneBar s (opTimClrcnt s)

end Sys2Proof.Machine
end

