-- ==== Sys2Proof/Machine/Redundancy.lean ====
section
/-! DEFINITION. Redundancy and fail-over: the states of a protected chip, the interlock line, the Stile lease, the
switch-over and the state of the mirror (R559-R577). -/

namespace Sys2Proof.Machine

open Sys2Proof

def State.ilkIn (s : State) : Bool := s.bit FOV_STAT FOV_STAT_ILKIN
def State.fovLease (s : State) : Nat := s.fld FOV_STAT FOV_STAT_LEASE
def State.fovRole (s : State) : Bool := s.bit FOV_CFG FOV_CFG_ROLE

/-- STAT.COVERED reads COVERED in force (R573, R576). -/
def State.refreshCovered (s : State) : State :=
  s.setBit FOV_STAT FOV_STAT_COVERED (s.fov.covered && s.bit FOV_STAT FOV_STAT_MIRUP && !s.fov.uncovered)

/-- The lease ends. -/
def State.endLease (s : State) : State :=
  let s : State := { s with fov := { s.fov with covered := false, leaseMs := 0 } }
  ((s.setFld FOV_STAT FOV_STAT_LEASE 0).setFld FOV_LEASELEFT FOV_LEASELEFT_MS 0).refreshCovered

/-- A lease starts or restarts (R565). -/
def State.startLease (s : State) (kind ms : Nat) (covered : Bool) : State :=
  let ms := min 10000 (max 10 ms)
  let s : State := { s with fov := { s.fov with covered := covered, leaseStart := s.now, leaseMs := ms } }
  ((s.setFld FOV_STAT FOV_STAT_LEASE kind).setFld FOV_LEASELEFT FOV_LEASELEFT_MS ms).refreshCovered

/-- SYNC: any RESERVE ends, and the state is loaded from the partner, which is asked for it (R563, R566, R572, R573). -/
def State.askSnapshot (s : State) : State :=
  State.emit { s with fov := { s.fov with snapshot := false } } .mirrorRequest
def State.enterSync (s : State) : State := (s.endLease.setFov 4).askSnapshot

def State.enterClaiming (s : State) : State :=
  let s := s.setFov 2
  { s with fov := { s.fov with windows := 0 } }

/-- A command in FOV_CMD that the state does not allow (R575); in SAFE every one is refused with GRANTREJ (R563). -/
def State.fovRefuse (s : State) : State :=
  s.setBit FOV_ERR (if s.fovState = 7 then FOV_ERR_GRANTREJ else FOV_ERR_CFGREJ) true

def State.grantRefuse (s : State) : State :=
  ((s.setBit FOV_ERR FOV_ERR_GRANTREJ true).setBit FOV_HIST FOV_HIST_GRANTREJ true).raise 422

/-- FOV_GRANT_CTL as the write leaves it (R575). -/
def State.grantCtl (s : State) (kind : Nat) (covered force : Bool) (lease : Nat) : State :=
  let s := s.setFld FOV_GRANT_CTL FOV_GRANT_CTL_KIND kind
  let s := s.setBit FOV_GRANT_CTL FOV_GRANT_CTL_COVERED covered
  let s := s.setBit FOV_GRANT_CTL FOV_GRANT_CTL_FORCE force
  s.setFld FOV_GRANT_CTL FOV_GRANT_CTL_LEASE (min 10000 (max 10 lease))

/-- R565: a grant as FOV_GRANT_CTL presents it: refused outside its states, on an old SEQ, and an ACTIVE grant to a
STANDBY chip while ILK_IN is high without FORCE. -/
def State.grantTake (s : State) : State :=
  let kind := s.fld FOV_GRANT_CTL FOV_GRANT_CTL_KIND
  let covered := s.bit FOV_GRANT_CTL FOV_GRANT_CTL_COVERED
  let force := s.bit FOV_GRANT_CTL FOV_GRANT_CTL_FORCE
  let lease := s.fld FOV_GRANT_CTL FOV_GRANT_CTL_LEASE
  let x := s.fovState
  let seq := s.fld FOV_GRANT_SEQ FOV_GRANT_SEQ_SEQ
  let fresh : Bool := decide (s.fld FOV_LASTSEQ FOV_LASTSEQ_SEQ < seq)
  let ok : Bool := fresh && x != 7 &&
    (if kind = 1 then x == 3 || x == 6 || (x == 5 && (!s.ilkIn || force))
     else if kind = 2 then x == 5
     else kind == 3 && s.fovLease != 0)
  if !ok then s.grantRefuse
  else
    let s := s.setFld FOV_LASTSEQ FOV_LASTSEQ_SEQ seq
    if kind = 1 then (s.setFov 6).startLease 1 lease covered
    else if kind = 2 then s.startLease 2 lease covered
    else
      let s := s.endLease
      if x = 6 then s.setFov 5 else s

def opGrant (kind : Nat) (covered force : Bool) (lease : Nat) (s : State) : State :=
  (s.grantCtl kind covered force lease).grantTake

/-- R563: CLAIM. -/
def opClaim (s : State) : State :=
  if s.fovState = 1 ∧ !s.ilkIn then
    let s : State := { s with fov := { s.fov with withdrawals := 0, autoStopped := false } }
    s.enterClaiming
  else s.fovRefuse

def opRelease (s : State) : State := if s.fovState = 3 then s.setFov 1 else s.fovRefuse

def opResync (s : State) : State := if s.fovState = 1 then s.enterSync else s.fovRefuse

def opRecover (s : State) : State :=
  let x := s.fovState
  if x = 4 ∨ x = 5 then s.endLease.setFov 1
  else if x = 6 ∨ x = 3 then s.endLease.setFov 3
  else s.fovRefuse

/-- R567: YIELD arms the release. -/
def opYield (tb : Nat) (s : State) : State :=
  if s.fovState = 6 then
    let t := (s.dueTime tb (s.fld FOV_YIELDTIME FOV_YIELDTIME_TIME)).getD (s.fullTime tb)
    { s with fov := { s.fov with yieldAt := some (tb, t) } }
  else s.fovRefuse

/-- R563, R567: the chip leaves ACTIVE for STANDBY. -/
def State.leaveActive (s : State) : State := s.endLease.setFov 5

/-- R567: the first switch line of FOV_REFFMT at or after the yield time. -/
def opYieldInstant (s : State) : State :=
  match s.fov.yieldAt with
  | none => s
  | some (tb, t) =>
    if s.fovState = 6 ∧ t ≤ s.fullTime tb then
      let s := s.leaveActive.setBit FOV_HIST FOV_HIST_YIELD true
      (s.inc FOV_YIELDCNT FOV_YIELDCNT_COUNT).raise 417
    else s

def opFovClrcnt (s : State) : State :=
  if s.fovState = 7 then s.fovRefuse else s.clearAll [FOV_TAKECNT, FOV_YIELDCNT, FOV_LATEMIR, FOV_DIGESTCNT]

/-- R566: takeover. -/
def State.takeover (s : State) : State :=
  let told := s.bit FOV_IEN ⟨0, 1⟩ && !s.bit FOV_HIST FOV_HIST_TAKEOVER
  let s : State := { s with fov := { s.fov with covered := false } }
  let s := (s.setFov 6).setFld FOV_STAT FOV_STAT_LEASE 1
  let s := s.refreshCovered.setBit FOV_HIST FOV_HIST_TAKEOVER true
  let s := (s.inc FOV_TAKECNT FOV_TAKECNT_COUNT).raise 416
  if told then s else s.signal 0 17

/-- R563, R566: ILK_IN falls. -/
def opIlkFall (s : State) : State :=
  if !s.ilkIn then s
  else
    let s := s.setBit FOV_STAT FOV_STAT_ILKIN false
    if s.fovState = 5 ∧ s.fovLease = 2 then s.takeover
    else if s.fovState = 2 ∧ s.fov.windows ≠ 0 then s.setFov 3
    else s

/-- R563, R564: ILK_IN rises. -/
def opIlkRise (s : State) : State :=
  if s.ilkIn then s
  else
    let s := s.setBit FOV_STAT FOV_STAT_ILKIN true
    if s.fovState = 6 then (s.setBit FOV_HIST FOV_HIST_ILKCONF true).raise 419
    else if s.fovState = 3 ∧ s.fovRole then s.setFov 1
    else s

/-- R564. -/
def opIlkConf (s : State) : State := if s.fovState = 6 then opIlkRise s else s

/-- R563: a backup with AUTOCLAIM whose ILK_IN has been low for CLAIMDLY ms. -/
def opClaimDelay (s : State) : State :=
  if s.fovState = 1 ∧ s.fovRole ∧ s.bit FOV_CFG FOV_CFG_AUTOCLAIM ∧ !s.fov.autoStopped ∧ !s.ilkIn then s.enterClaiming
  else s

def State.claimStall (s : State) : State := (s.setBit FOV_HIST FOV_HIST_CLAIMSTALL true).raise 423

/-- R563: CLAIMWIN ends; a main chip whose ILK_IN stays high is met here again at each further window. -/
def opClaimWindowEnd (s : State) : State :=
  if s.fovState ≠ 2 then s
  else if !s.ilkIn then
    let s := s.setFov 3
    { s with fov := { s.fov with withdrawals := 0 } }
  else if s.fovRole then
    let s := s.setFov 1
    let w := s.fov.withdrawals + 1
    let s : State := { s with fov := { s.fov with withdrawals := w, autoStopped := s.fov.autoStopped || decide (3 ≤ w) } }
    if w = 3 then s.claimStall else s
  else
    let w := s.fov.windows + 1
    let s : State := { s with fov := { s.fov with windows := w } }
    if w = 10 then s.claimStall else s

/-- R563: a lease expires. -/
def opLeaseExpiry (s : State) : State :=
  if s.fovLease = 0 then s
  else
    let s := (s.endLease.setBit FOV_HIST FOV_HIST_LEASEEXP true).raise 418
    if s.fovState = 6 then s.setFov (if s.bit FOV_CFG FOV_CFG_FALLBACK then 3 else 5) else s

/-- Every lane of every ACTIVE link to node `n` has lost block lock, and there is such a link (R568). -/
def State.planeLost (s : State) (n : Nat) : Bool :=
  let links := (List.range 12).filter (fun k =>
    s.fld (BLK_L_STAT k) BLK_L_STAT_STATE == 7 && s.bit (BLK_L_STAT k) BLK_L_STAT_PEERVALID
      && s.fld (BLK_L_STAT k) BLK_L_STAT_PEER == n)
  !links.isEmpty && (List.range 96).all (fun j =>
    !(links.contains (s.fld (BLK_LANE_CFG j) BLK_LANE_CFG_LINK)) || !s.bit (BLK_LANE_STAT j) BLK_LANE_STAT_BLOCK)

/-- R568, in a frame of two or four chips. -/
def opPlaneLoss (n : Nat) (s : State) : State :=
  if s.fovState = 6 ∧ s.bit FOV_CFG FOV_CFG_PLANEYIELD ∧ s.bit FOV_STAT FOV_STAT_COVERED
      ∧ s.bit FOV_STAT FOV_STAT_MIRUP ∧ s.fld BLK_NODE BLK_NODE_EXPNODES ≠ 0 ∧ s.planeLost n then
    let s := s.leaveActive.setBit FOV_HIST FOV_HIST_PLANELOSS true
    ((s.inc FOV_YIELDCNT FOV_YIELDCNT_COUNT).raise 424).raise 417
  else s

/-! ## The mirror (R570-R573) -/

/-- R563: with AUTOSYNC a chip in ILK_STANDBY enters SYNC while the mirror is up and the partner is active. -/
def State.autoSync (s : State) : State :=
  if s.fovState = 1 ∧ s.bit FOV_CFG FOV_CFG_AUTOSYNC ∧ s.bit FOV_STAT FOV_STAT_MIRUP
      ∧ (s.fov.partner = 3 ∨ s.fov.partner = 6) then s.enterSync
  else s

/-- The mirror's port has LINK 1, or in a one-chip frame with MIRBLK its Bolben link is ACTIVE (R56, R570); in a frame of
more chips MIRBLK has no effect, for the mirror never uses the fabric of a plane (R55). -/
def State.mirrorPath (s : State) : Bool :=
  if s.bit FOV_CFG FOV_CFG_MIRBLK && s.fld BLK_NODE BLK_NODE_EXPNODES == 0 then
    let k := s.fld FOV_CFG FOV_CFG_MIRLINK
    decide (k < 12) && s.fld (BLK_L_STAT k) BLK_L_STAT_STATE == 7
  else s.bit (MP_STAT (s.fld FOV_CFG FOV_CFG_MIRPORT)) MP_STAT_LINK

/-- The mirrored tables (R571). -/
def State.mirrorTables (s : State) : Snapshot :=
  let kept := fun (a : Nat) => decide (TEN_CFG 0 ≤ a ∧ a ≤ TEN_CFG 1023) || decide (TEN_RSV 0 0 ≤ a ∧ a ≤ TEN_RSV 1023 7)
    || decide (CMP_SRW_CFG 0 ≤ a ∧ a < CMP_SRW_CFG 256)
  { regs := s.regs.filter (fun e => kept e.1)
    ten := s.ten
    xpt := s.xpt
    slots := s.sal.slots
    canvases := s.cmp.canvases
    slices := s.cmp.slices
    stills := s.cmp.stills
    rx := s.ess.rx
    tx := s.ess.tx
    maps := s.aud.maps
    ports := s.aud.ports
    tpos := s.tim.tpos }

/-- R572: an active chip whose partner has come to SYNC sends it the snapshot. -/
def State.sendSnapshot (s : State) (partner : Nat) : State :=
  if (s.fovState = 3 ∨ s.fovState = 6) ∧ partner = 4 ∧ s.fov.partner ≠ 4 then s.emit (.snapshot s.mirrorTables) else s

/-- R570, R573: the mirror comes up, or firmware of the partner answers again. -/
def opMirrorUp (partner : Nat) (s : State) : State :=
  if s.bit FOV_CFG FOV_CFG_PROT && s.mirrorPath then
    let s := (s.setBit FOV_STAT FOV_STAT_MIRUP true).sendSnapshot partner
    let s : State := { s with fov :=
      { s.fov with partner := partner, uncovered := s.fov.uncovered && partner != 5 } }
    s.refreshCovered.autoSync
  else s

/-- R573: the mirror goes down. -/
def opMirloss (s : State) : State :=
  if !s.bit FOV_STAT FOV_STAT_MIRUP then s
  else
    let s := s.setBit FOV_STAT FOV_STAT_MIRUP false
    let s : State := { s with fov := { s.fov with uncovered := true } }
    let s := (s.refreshCovered.setBit FOV_HIST FOV_HIST_MIRLOSS true).raise 420
    if s.fovState = 5 then s.enterSync else s

/-- R572, R573: the standby compares digests. -/
def opDigest (theirs ours : Word) (s : State) : State :=
  if s.fovState = 4 ∧ s.fov.snapshot ∧ theirs = ours then
    (s.setFov 5).setBit FOV_HIST FOV_HIST_SYNCDONE true
  else if s.fovState = 5 ∧ theirs ≠ ours then
    let s := s.setBit FOV_HIST FOV_HIST_DIGESTMIS true
    ((s.inc FOV_DIGESTCNT FOV_DIGESTCNT_COUNT).raise 421).enterSync
  else s

/-- R573: SYNC has not ended after 10 s; the snapshot is requested again. -/
def opSyncfail (s : State) : State :=
  if s.fovState = 4 then s.askSnapshot.raise 425
  else s

/-- R561, R563: the chip leaves OFFLINE at READY. -/
def State.fovReady (s : State) : State :=
  if s.fovState ≠ 0 then s
  else if !s.bit FOV_CFG FOV_CFG_PROT then s.setFov 8
  else
    let s := s.setFov 1
    if s.bit FOV_CFG FOV_CFG_AUTOCLAIM ∧ !s.fovRole ∧ !s.ilkIn then s.enterClaiming else s.autoSync

def execGrantActive (covered force : Bool) (lease : BitVec 14) (s : State) : Host.Outcome State Fault Refusal :=
  doneBar s (opGrant 1 covered force lease.toNat s)
def execGrantReserve (covered force : Bool) (lease : BitVec 14) (s : State) : Host.Outcome State Fault Refusal :=
  doneBar s (opGrant 2 covered force lease.toNat s)
/-- R565: a REVOKE writes FOV_GRANT_CTL with KIND 3 and its other fields as they stand. -/
def execGrantRevoke (s : State) : Host.Outcome State Fault Refusal :=
  doneBar s ((s.setFld FOV_GRANT_CTL FOV_GRANT_CTL_KIND 3).grantTake)
def execClaim (s : State) : Host.Outcome State Fault Refusal := doneBar s (opClaim s)
def execRelease (s : State) : Host.Outcome State Fault Refusal := doneBar s (opRelease s)
def execYield (tb : Tb) (s : State) : Host.Outcome State Fault Refusal := doneBar s (opYield tb.val s)
def execYieldInstant (s : State) : Host.Outcome State Fault Refusal := done s (opYieldInstant s)
def execResync (s : State) : Host.Outcome State Fault Refusal := doneBar s (opResync s)
def execRecover (s : State) : Host.Outcome State Fault Refusal := doneBar s (opRecover s)
def execFovClrcnt (s : State) : Host.Outcome State Fault Refusal := doneBar s (opFovClrcnt s)
def execIlkInFall (s : State) : Host.Outcome State Fault Refusal := done s (opIlkFall s)
def execIlkInRise (s : State) : Host.Outcome State Fault Refusal := done s (opIlkRise s)
def execFovIlkconf (s : State) : Host.Outcome State Fault Refusal := done s (opIlkConf s)
def execClaimDelayExpiry (s : State) : Host.Outcome State Fault Refusal := done s (opClaimDelay s)
def execClaimWindowEnd (s : State) : Host.Outcome State Fault Refusal := done s (opClaimWindowEnd s)
def execFovLeaseexp (s : State) : Host.Outcome State Fault Refusal := done s (opLeaseExpiry s)
def execFovPlaneloss (n : Node) (s : State) : Host.Outcome State Fault Refusal := done s (opPlaneLoss n.val s)
def execMirrorUp (partner : BitVec 4) (s : State) : Host.Outcome State Fault Refusal :=
  done s (opMirrorUp partner.toNat s)
def execFovMirloss (s : State) : Host.Outcome State Fault Refusal := done s (opMirloss s)
def execDigestCompare (theirs ours : Word) (s : State) : Host.Outcome State Fault Refusal :=
  done s (opDigest theirs ours s)
def execFovSyncfail (s : State) : Host.Outcome State Fault Refusal := done s (opSyncfail s)

end Sys2Proof.Machine
end

