-- ==== Sys2Proof/Machine/Planes.lean ====
section
/-! DEFINITION. The planes of the crosspoint: test, rotation, retirement and protection (R168, R186-R195). -/

namespace Sys2Proof.Machine

open Sys2Proof

def State.setPlanes (s : State) (p : Planes) : State := { s with planes := p }

def State.testPl (s : State) : Nat := s.fld XPT_PLANE_STAT XPT_PLANE_STAT_TESTPL
def State.testDone (s : State) : Bool := s.bit XPT_PLANE_STAT XPT_PLANE_STAT_TESTDONE
/-- The plane under test has passed in the current interval (R187, R191). -/
def State.testPassed (s : State) : Bool := s.testDone && s.bit XPT_PLANE_STAT XPT_PLANE_STAT_TESTPASS
def State.healthy (s : State) : Nat := s.fld XPT_PLANE_STAT XPT_PLANE_STAT_HEALTHY
def State.retired (s : State) (n : Nat) : Bool := (s.fld XPT_RETIRED XPT_RETIRED_PLANES).testBit n
def State.planeAt (s : State) (pos : Nat) : Nat := s.fld (XPT_PMAP pos) XPT_PMAP_PLANE

/-- The symbol position plane `n` carries. -/
def State.positionOf (s : State) (n : Nat) : Option Nat := lowest 16 (fun p => s.planeAt p == n)

/-- Positions marked erased (R191). -/
def State.erased (s : State) : Nat := ((List.range 16).filter (fun p => s.planeAt p == 31)).length

/-- A plane enters test: TESTDONE and TESTPASS clear (R188); 31 where there is none (R192). -/
def State.enterTest (s : State) (n : Nat) : State :=
  let s := s.setFld XPT_PLANE_STAT XPT_PLANE_STAT_TESTPL n
  let s := s.setBit XPT_PLANE_STAT XPT_PLANE_STAT_TESTDONE false
  let s := s.setBit XPT_PLANE_STAT XPT_PLANE_STAT_TESTPASS false
  s.when (n == 31) (fun s => s.setBit XPT_PLANE_STAT XPT_PLANE_STAT_ROTSTOP true)

def State.erase (s : State) (n : Nat) : State :=
  match s.positionOf n with
  | some p => s.setFld (XPT_PMAP p) XPT_PMAP_PLANE 31
  | none => s

/-- Start the sequence of R188 that gives plane `out`'s position to the plane under test. -/
def State.startRotation (s : State) (out : Nat) (retire : Bool) : State :=
  match s.positionOf out with
  | some p => s.setPlanes { s.planes with rotation := some ⟨p, out, s.testPl, 0, retire⟩, due := false, force := false }
  | none => s

/-- The lowest-numbered in-service plane above the plane under test, cyclically (R187). -/
def State.nextPlane (s : State) : Option Nat :=
  ((List.range 17).map (fun i => (s.testPl + 1 + i) % 17)).find?
    (fun n => n != s.testPl && (s.positionOf n).isSome && !s.retired n)

def State.rotateNow (s : State) : State :=
  match s.nextPlane with
  | some o => s.startRotation o false
  | none => s

/-- Protection state for a number of healthy planes (R193). -/
def protFor (healthy : Nat) : Nat := if 16 ≤ healthy then 0 else if healthy = 15 then 1 else if healthy = 14 then 2 else 3

/-- The decision to retire plane `n` (R190): its bit sets, HEALTHY falls, and the sources of R193 are raised. -/
def State.countRetired (s : State) (n : Nat) : State :=
  let s := s.setFld XPT_RETIRED XPT_RETIRED_PLANES (s.fld XPT_RETIRED XPT_RETIRED_PLANES ||| 2 ^ n)
  let h := s.healthy - 1
  let s := s.setFld XPT_PLANE_STAT XPT_PLANE_STAT_HEALTHY h
  let s := (s.setFld XPT_PLANE_STAT XPT_PLANE_STAT_PROT (protFor h)).raise 146
  let s : State := if protFor h = 3 then
    { s with xpt := { s.xpt with routes := s.xpt.routes.map (fun e => (e.1, { e.2 with fallow := true })) } } else s
  if h = 15 then s.raise 148
  else if h = 14 then (s.raise 148).promote 148
  else if h < 14 then s.raise 149
  else s

/-- Replace an in-service plane that has been retired (R191, R195). DEDUCED: the fourth row of R195 sends PLt to "the
third row", which speaks of PLt before R; the row that fits a plane under test that has not passed is the sixth, and
that is followed (log entry 20). -/
def State.replacePlane (s : State) (n : Nat) : State :=
  match s.planes.rotation with
  | some _ => s.setPlanes { s.planes with failing := s.planes.failing ++ [n] }
  | none =>
    if s.testPl = 31 then s.erase n
    else if s.testPassed then s.startRotation n true
    else s.setPlanes { s.planes with failing := s.planes.failing ++ [n] }

/-- Take up the retired planes that waited: by the spare when it has passed, else erased when no plane is under test
(R191, R195). -/
def State.serveFailing (s : State) : State :=
  let l := s.planes.failing
  if s.planes.rotation.isSome then s
  else if s.testPl = 31 then (s.setPlanes { s.planes with failing := [] }).each l State.erase
  else if s.testPassed then
    match lowest 17 (fun n => l.contains n) with
    | none => s
    | some n => (s.setPlanes { s.planes with failing := l.filter (· != n) }).startRotation n true
  else s

/-- A BIST_REQ that waits on plane `n` ends (R556). -/
def State.endPlaneWait (s : State) (n : Nat) (st : Status) (result : Nat) : State :=
  match Tbl.find? s.bst.waits n with
  | none => s
  | some w => ({ s with bst := { s.bst with waits := Tbl.del s.bst.waits n } } : State).complete w.cmd st result 0

/-- Plane `n` is retired (R190-R192, R195). -/
def State.retirePlane (s : State) (n : Nat) : State :=
  if s.retired n ∨ 16 < n then s
  else
    let s := (s.countRetired n).endPlaneWait n .aborted 0
    match s.planes.rotation with
    | some r =>
      if r.incoming = n ∧ r.stage < 2 then
        let s := s.setPlanes { s.planes with rotation := none
                                             failing := if r.retire then s.planes.failing ++ [r.out] else s.planes.failing }
        (s.enterTest 31).serveFailing
      else if r.out = n then s.setPlanes { s.planes with rotation := some { r with retire := true } }
      else s.replacePlane n
    | none =>
      if s.testPl = n then (s.enterTest 31).serveFailing
      else s.replacePlane n

/-! ## Events and commands -/

/-- What BST holds of a plane's test: LASTPASS, and the FAILED bit of a plane that fails (R555, R557). -/
def State.planeTested (s : State) (n : Nat) (pass : Bool) : State :=
  let l := s.bst.passed.filter (· != n)
  let s : State := { s with bst := { s.bst with passed := if pass then l ++ [n] else l } }
  s.when (!pass) (fun s => s.setBit (BST_FAILED 0) ⟨n, 1⟩ true)

/-- R186, R187, R192, R195: the test of the plane under test ends. -/
def opPlaneTestDone (pass : Bool) (s : State) : State :=
  if s.testPl = 31 ∨ s.testDone ∨ s.planes.rotation.isSome then s
  else if pass then
    let s := (s.planeTested s.testPl true).setBit XPT_PLANE_STAT XPT_PLANE_STAT_TESTDONE true
    let s := s.setBit XPT_PLANE_STAT XPT_PLANE_STAT_TESTPASS true
    let s := s.endPlaneWait s.testPl .ok 1
    if !s.planes.failing.isEmpty then s.serveFailing
    else if s.planes.force || (s.planes.due && s.bit XPT_CTRL XPT_CTRL_ROTEN) then s.rotateNow
    else s
  else
    let s := (s.planeTested s.testPl false).setPlanes { s.planes with force := false, due := false }
    let s := s.endPlaneWait s.testPl .ok 0
    (s.retirePlane s.testPl).raise 145

/-- R187. -/
def opRotationTimer (s : State) : State :=
  if !s.bit XPT_CTRL XPT_CTRL_ROTEN ∨ s.testPl = 31 ∨ s.planes.rotation.isSome then s
  else if s.testPassed then s.rotateNow
  else s.setPlanes { s.planes with due := true }

/-- R188: two periods before R. -/
def opRotationCopy (s : State) : State :=
  match s.planes.rotation with
  | some r => if r.stage = 0 then s.setPlanes { s.planes with rotation := some { r with stage := 1 } } else s
  | none => s

/-- R188: at R. -/
def opRotationReads (s : State) : State :=
  match s.planes.rotation with
  | some r =>
    if r.stage = 1 then
      (s.setPlanes { s.planes with rotation := some { r with stage := 2 } }).setFld
        (XPT_PMAP r.position) XPT_PMAP_PLANE r.incoming
    else s
  | none => s

/-- R188, R191, R195: one period after R. -/
def opRotationComplete (s : State) : State :=
  match s.planes.rotation with
  | some r =>
    if r.stage = 2 then
      let s := s.setPlanes { s.planes with rotation := none }
      let s := s.enterTest (if r.retire then 31 else r.out)
      (s.inc XPT_ROTCNT XPT_ROTCNT_COUNT).serveFailing
    else s
  | none => s

/-- R195: FORCEROT; during a rotation it has no effect. -/
def opForceRot (s : State) : State :=
  if s.planes.rotation.isSome ∨ s.testPl = 31 then s
  else if s.testPassed then s.rotateNow
  else s.setPlanes { s.planes with force := true }

/-- R190, R195: GO in XPT_RETIRE_CMD. -/
def opRetireCmd (p : Nat) (s : State) : State :=
  let s := s.setFld XPT_RETIRE_CMD XPT_RETIRE_CMD_PLANE p
  if 16 < p ∨ s.retired p ∨ s.healthy ≤ 14 then s.setBit XPT_ERR XPT_ERR_RETREJ true
  else s.retirePlane p

/-- An event on a source, with the retirement that R190 makes of a severe XPT_PLERRn under AUTORETIRE. -/
def State.withAutoRetire (ev : State → Nat → State) (s : State) (n : Nat) : State :=
  let before := s.hdgState n
  let s := ev s n
  if 128 ≤ n ∧ n ≤ 144 ∧ before < 2 ∧ 2 ≤ s.hdgState n ∧ s.bit XPT_CTRL XPT_CTRL_AUTORETIRE then
    s.retirePlane (n - 128)
  else s

/-- A corrected symbol on plane `n`; a retired plane that still carries its position adds nothing (R190, R198). -/
def State.plerr (s : State) (n count : Nat) : State :=
  if s.retired n then s else (s.incBy (XPT_PLCNT n) XPT_PLCNT_COUNT count).withAutoRetire State.raise (128 + n)

def opXptClrcnt (s : State) : State :=
  s.clearAll ([XPT_EPDISC, XPT_UNCORR, XPT_ROTCNT, XPT_RTFIX] ++ (List.range 17).map XPT_PLCNT)

def execPlaneTestDone (pass : Bool) (s : State) : Host.Outcome State Fault Refusal := done s (opPlaneTestDone pass s)
def execRotationTimer (s : State) : Host.Outcome State Fault Refusal := done s (opRotationTimer s)
def execRotationCopyStart (s : State) : Host.Outcome State Fault Refusal := done s (opRotationCopy s)
def execRotationReadsMove (s : State) : Host.Outcome State Fault Refusal := done s (opRotationReads s)
def execRotationComplete (s : State) : Host.Outcome State Fault Refusal := done s (opRotationComplete s)
def execForceRot (s : State) : Host.Outcome State Fault Refusal := doneBar s (opForceRot s)
def execXptRetireCmd (p : BitVec 5) (s : State) : Host.Outcome State Fault Refusal := doneBar s (opRetireCmd p.toNat s)
def execXptClrcnt (s : State) : Host.Outcome State Fault Refusal := doneBar s (opXptClrcnt s)
/-- R529: an event on a source. -/
def execHdgEvent (n : HdgSrc) (s : State) : Host.Outcome State Fault Refusal :=
  done s (s.withAutoRetire State.raise n.val)
/-- R539: FORCE injects one event. -/
def execForce (n : HdgSrc) (s : State) : Host.Outcome State Fault Refusal :=
  doneBar s (s.withAutoRetire State.raiseForced n.val)

end Sys2Proof.Machine
end

