-- ==== Sys2Proof/Machine/Tenants.lean ====
section
/-! DEFINITION. The tenant table, ownership, grants and reservations (R112-R129). -/

namespace Sys2Proof.Machine

open Sys2Proof

/-- Objects of a kind (R116); 0 for a reserved kind. -/
def kindSize (k : Nat) : Nat :=
  if k = 0 then 4096 else if k = 1 then 64 else if k = 2 then 2048 else if k = 3 then 4096 else if k = 4 then 8192
  else if k = 5 then 4096 else if k = 6 then 8 else if k = 7 then 16 else if k = 8 then 4096 else 0

def State.setOwner (s : State) (kind i t : Nat) : State :=
  { s with ten := { s.ten with owner := Tbl.putD s.ten.owner (65536 * kind + i) t 0 } }

/-- Tenant `t` owns `n` objects from `first` on (R118). -/
def State.ownsAll (s : State) (t kind first n : Nat) : Bool :=
  (List.range n).all (fun i => s.ownerOf kind (first + i) == t)

/-! ## TEN_CFGn (R112-R115) -/

/-- R574: a tenant or grant register write on a standby chip is refused. -/
def State.tenRefuse (s : State) : State := s.setBit TEN_ERR TEN_ERR_CFGREJ true

def opTenCfg (n : Nat) (v : Word) (s : State) : State :=
  if n = 0 then s
  else if s.standby then s.tenRefuse
  else
    let bad : Bool := TEN_CFG_STATE.get v == 3 || (TEN_CFG_CLASS.get v != s.tenClass n && s.tenState n != 0)
    if bad then s.setBit TEN_ERR TEN_ERR_CFGREJ true
    else (s.fieldWrite (TEN_CFG n) v).mirror (.register (BitVec.ofNat 26 (TEN_CFG n)) v)

/-! ## Reservations (R125, R126) -/

/-- Sum of a budget's reservations over all tenants. -/
def State.rsvSum (s : State) (code : Nat) : Nat := (List.range 1024).foldl (fun n t => n + s.rsv t code) 0

def opReservation (n code : Nat) (v : Word) (s : State) : State :=
  let new := TEN_RSV_VALUE.get v
  let old := s.rsv n code
  let excess : Bool := decide (old < new) && decide (s.cap code < s.rsvSum code - old + new)
  if s.standby then s.tenRefuse
  else if excess || decide (new < s.use n code) then s.setBit TEN_ERR TEN_ERR_RSVREJ true
  else (s.fieldWrite (TEN_RSV n code) v).mirror (.register (BitVec.ofNat 26 (TEN_RSV n code)) v)

/-! ## Grant and revoke (R119-R123) -/

/-- Width of the stream that an entry of a salvo changes. -/
def State.entryWidth (s : State) (e : SalvoEntry) : Nat :=
  match e.item with
  | .route c => match c.route with
    | some r => r.width
    | none => match Tbl.find? s.xpt.routes e.key with
      | some r => r.width
      | none => 1
  | .layer _ _ _ => 0

/-- Destination track `d` is held by an open or committing salvo that `p` admits (R146). -/
def State.trackHeld (s : State) (d : Nat) (p : Nat → Bool) : Bool :=
  s.sal.slots.any (fun x => p x.1 && x.2.entries.any (fun e => match e.item with
    | .route _ => decide (e.key ≤ d ∧ d < e.key + s.entryWidth e)
    | .layer _ _ _ => false))

/-- A layer entry that canvas `c` has taken at C(N) keeps its salvo committing until A(N) (R208, R280). -/
def State.takenEntry (s : State) (c : Nat) (p : Nat → Nat → Bool) : Bool :=
  (s.canvas c).pend.any (fun q => match q.slot, q.op with
    | some k, .layer j _ => p k j
    | _, _ => false)

/-- Layer `i` of canvas `c` is held by a salvo that `p` admits. -/
def State.layerHeld (s : State) (c i : Nat) (p : Nat → Bool) : Bool :=
  s.takenEntry c (fun k j => p k && j == i) || s.sal.slots.any (fun x => p x.1 && x.2.entries.any (fun e => match e.item with
    | .route _ => false
    | .layer d j _ => d == c && j == i))

/-- Some layer of canvas `c` is held by a salvo. -/
def State.canvasHeld (s : State) (c : Nat) : Bool :=
  s.takenEntry c (fun _ _ => true) || s.sal.slots.any (fun x => x.2.entries.any (fun e => match e.item with
    | .route _ => false
    | .layer d _ _ => d == c))

/-- The MIGRATE KIND of an object kind (R158): canvas 0, transmit flow 1, receive flow 2. -/
def migKind (kind : Nat) : Nat := if kind = 1 then 0 else if kind = 3 then 1 else 2

def State.migOf (s : State) (k i : Nat) : Option Mig := Tbl.find? s.sal.migs (4096 * k + i)

/-- R119 HELD: a member of an open or committing salvo or of a MIGRATE in progress. -/
def State.objectHeld (s : State) (kind i : Nat) : Bool :=
  if kind = 0 then s.trackHeld i (fun _ => true)
  else if kind = 1 then s.canvasHeld i || (s.migOf 0 i).isSome
  else if kind = 2 ∨ kind = 3 then (s.migOf (migKind kind) i).isSome
  else false

/-- The outcome of R119: RESULT and FAIL; the lowest object with a failure is the one named (log entry 25). -/
def State.grantOutcome (s : State) (g : GrantOp) : Nat × Nat :=
  if kindSize g.kind = 0 ∨ g.count = 0 ∨ kindSize g.kind < g.first + g.count ∨ g.tenant = 0 then (1, g.first)
  else
    let own := if g.revoke then g.tenant else 0
    match firstSome (fun i =>
        let k := g.first + i
        if s.ownerOf g.kind k ≠ own then some (2, k)
        else if s.objectHeld g.kind k then some (3, k)
        else none) (List.range g.count) with
    | some x => x
    | none => (0, 0)

/-- Tracks of the stream at `d` as the route in effect has it. -/
def State.routedWidth (s : State) (d : Nat) : Nat :=
  match Tbl.find? s.xpt.routes d with
  | some r => r.width
  | none => 1

/-- Tracks that a change at `d` takes. -/
def State.planWidth (s : State) (d : Nat) (c : Option Change) : Nat :=
  match c with
  | some ⟨some r, _, _⟩ => r.width
  | _ => s.routedWidth d

/-- The change that a salvo slot holds for destination `d`. -/
def State.stagedChange (s : State) (k d : Nat) : Option Change :=
  match Tbl.find? s.sal.slots k with
  | some x => firstSome (fun (e : SalvoEntry) => match e.item with
      | .route c => if e.key = d then some c else none
      | .layer _ _ _ => none) x.entries
  | none => none

/-- The allocation is charged on an object of the range (R123): a route on the tracks of the route in effect, a change
that waits on the tracks of that change, a synchroniser on those of either. -/
def State.chargedOn (s : State) (kind first count : Nat) (h : Holding) : Bool :=
  let inRange := fun (i n : Nat) => decide (i < first + count ∧ first < i + n)
  let track := fun (d w : Nat) => kind == 0 && inRange d w
  let waiting := fun (d : Nat) => s.planWidth d ((Tbl.find? s.xpt.pending d).map (fun p => p.change))
  match h with
  | .route d => track d (s.routedWidth d)
  | .sync _ d => track d (max (s.routedWidth d) (waiting d))
  | .pending d => track d (waiting d)
  | .staged t k d => track d (s.planWidth d (s.stagedChange (4 * t + k) d))
  | .canvas c => kind == 1 && inRange c 1
  | .still i => kind == 8 && inRange i 1
  | .stillLoad i => kind == 8 && inRange i 1

/-- R123: charges on revoked objects move to TN0's use whole. -/
def State.moveCharges (s : State) (kind first count : Nat) : State :=
  s.setAllocs (s.ten.allocs.map (fun a => if s.chargedOn kind first count a.holding then { a with owner := 0 } else a))

/-- The objects of the range change owner (R120); a pulse output that is revoked stops (R463). -/
def State.moveObjects (s : State) (g : GrantOp) : State :=
  let dest := if g.revoke then 0 else g.tenant
  let s := s.each (List.range g.count) (fun s i =>
    let s := s.setOwner g.kind (g.first + i) dest
    let s := s.mirror (.owner (BitVec.ofNat 4 g.kind) (g.first + i) ⟨dest % 1024, Nat.mod_lt _ (by decide)⟩)
    if g.revoke ∧ g.kind = 7 then s.disarm (g.first + i) else s)
  if g.revoke then s.moveCharges g.kind g.first g.count else s

/-- GO with OP 0 or 1 (R119): it starts, or is an overrun. -/
def opObjGrant (revoke : Bool) (kind tenant : Nat) (s : State) : State :=
  if s.standby then s.tenRefuse
  else
  let s := s.setFld TEN_GRANT_CMD TEN_GRANT_CMD_KIND kind
  let s := s.setBit TEN_GRANT_CMD TEN_GRANT_CMD_OP revoke
  let s := s.setFld TEN_GRANT_CMD TEN_GRANT_CMD_TENANT tenant
  match s.ten.grant with
  | some _ =>
    let s := s.setBit TEN_GRANT_STAT TEN_GRANT_STAT_OVR true
    s.setFld TEN_GRANT_STAT TEN_GRANT_STAT_RESULT 4
  | none =>
    let s := s.setBit TEN_GRANT_STAT TEN_GRANT_STAT_BUSY true
    let s := s.setBit TEN_GRANT_STAT TEN_GRANT_STAT_OVR false
    let g : GrantOp := ⟨revoke, kind, tenant, s.fld TEN_GRANT_OBJ TEN_GRANT_OBJ_FIRST,
      s.fld TEN_GRANT_OBJ TEN_GRANT_OBJ_COUNT⟩
    { s with ten := { s.ten with grant := some g } }

/-- The operation ends at one instant between two dispatches (R120-R122). -/
def opGrantDone (s : State) : State :=
  match s.ten.grant with
  | none => s
  | some g =>
    let r := s.grantOutcome g
    let s : State := { s with ten := { s.ten with grant := none } }
    let s := if r.1 = 0 then s.moveObjects g else s
    let s := s.setBit TEN_GRANT_STAT TEN_GRANT_STAT_BUSY false
    let s := s.setFld TEN_GRANT_STAT TEN_GRANT_STAT_RESULT r.1
    s.setFld TEN_GRANT_STAT TEN_GRANT_STAT_FAIL r.2

def execTenCfgWrite (n : Tenant) (v : Word) (s : State) : Host.Outcome State Fault Refusal := doneBar s (opTenCfg n.val v s)
def execGrant (kind : BitVec 4) (t : Tenant) (s : State) : Host.Outcome State Fault Refusal :=
  doneBar s (opObjGrant false kind.toNat t.val s)
def execRevoke (kind : BitVec 4) (t : Tenant) (s : State) : Host.Outcome State Fault Refusal :=
  doneBar s (opObjGrant true kind.toNat t.val s)
def execGrantDone (s : State) : Host.Outcome State Fault Refusal := done s (opGrantDone s)
def execReservationWrite (n : Tenant) (code : Fin 5) (v : Word) (s : State) : Host.Outcome State Fault Refusal :=
  doneBar s (opReservation n.val code.val v s)

end Sys2Proof.Machine
end

