-- ==== Sys2Proof/Machine/FrameStore.lean ====
section
/-! DEFINITION. Line aligners and frame synchronisers: the descriptor a source carries, the window, promotion, holders
and their handover, repeats, drops and concealment (R232-R247). -/

namespace Sys2Proof.Machine

open Sys2Proof

/-! ## Aligners and the descriptor of a source (R235) -/

def Aligner.idle : Aligner := ⟨0, 0, 0, 0, false, 0, none, 0, 0, []⟩

def State.aligner (s : State) (src : Nat) : Aligner := Tbl.getD s.fsa.aligners src Aligner.idle

def State.setAligner (s : State) (src : Nat) (a : Aligner) : State :=
  { s with fsa := { s.fsa with aligners := Tbl.putD s.fsa.aligners src a Aligner.idle } }

def State.sync? (s : State) (src : Nat) : Option SyncUnit := Tbl.find? s.fsa.syncs src

def State.setSync (s : State) (src : Nat) (u : SyncUnit) : State :=
  { s with fsa := { s.fsa with syncs := Tbl.put s.fsa.syncs src u } }

/-- The first tracks that share the synchroniser of a source: the four streams of RASTER 0x08 (R241). -/
def unitTracks (src : Nat) (raster : Nat) : List Nat := if raster = 8 then [src, src + 4, src + 8, src + 12] else [src]

/-- The track that holds the synchroniser of the stream at `src` (R241). -/
def State.syncHome (s : State) (src : Nat) : Nat :=
  if (highFmt (s.aligner src).high).raster = 8 ∨ (highFmt (s.aligner (src / 16 * 16)).high).raster = 8 then src / 16 * 16
  else src

def State.syncOf (s : State) (src : Nat) : Option SyncUnit := s.sync? (s.syncHome src)

def State.holdFr (s : State) : Nat := s.fld FSA_CTRL FSA_CTRL_HOLDFR

/-- The descriptor of the stream that starts at `src`; RASTER 0x00 while it carries none (R235, R241, R245). -/
def State.detected (s : State) (src : Nat) : Fmt :=
  let a := s.aligner src
  if a.mode = 2 then { highFmt a.high with pid := a.pid }
  else if a.mode = 3 then
    match s.syncOf src with
    | none => Fmt.zero
    | some u =>
      let gone : Bool := match u.lost with
        | some n => decide (s.holdFr < n)
        | none => false
      if gone || u.blank then Fmt.zero else { highFmt a.high with rate := u.rate, pid := a.pid }
  else Fmt.zero

/-- The first track of the stream that covers `src` (R175). -/
def State.streamOf (s : State) (src : Nat) : Option Nat :=
  [src, src / 2 * 2, src / 4 * 4].find? (fun b => !(s.detected b).none && decide (src < b + (s.detected b).count))

/-- The descriptor of the stream that track `src` belongs to. -/
def State.detectedAt (s : State) (src : Nat) : Fmt :=
  match s.streamOf src with
  | some b => s.detected b
  | none => Fmt.zero

/-- Routes in effect that read the stream at `src`, by destination (R242). -/
def State.readers (s : State) (src : Nat) : Tbl Route := s.xpt.routes.filter (fun e => e.2.src == src)

/-- The owner of a route: the tenant that owns all its destination tracks, TN0 where they are divided (R118, R123). -/
def State.routeOwner (s : State) (d w : Nat) : Nat :=
  let t := s.ownerOf 0 d
  if s.ownsAll t 0 d w then t else 0

/-! ## Synchronisers (R240-R243) -/

/-- FSYNC_ON (0x12) or FSYNC_OFF (0x13) to a tenant (R627). -/
def State.syncEvent (s : State) (on : Bool) (t d index src : Nat) : State :=
  s.event t 13 (if on then 0x12 else 0x13) 0 d 0 [index, src, 0, 0]

/-- The indexes of synchronisers in use. -/
def State.syncIndexes (s : State) : List Nat := s.fsa.syncs.map (fun e => e.2.index)

/-- A free synchroniser; which one is a free value (R141, log entry 23). -/
def State.pickSync (s : State) : Nat × State :=
  let free := (List.range 512).filter (fun i => !s.syncIndexes.contains i)
  let p := s.freshPick (max 1 free.length)
  (free.getD p.1 0, p.2)

def State.setModes (s : State) (tracks : List Nat) (mode : Nat) : State :=
  s.each tracks (fun s k => s.setAligner k { s.aligner k with mode := mode })

/-- T1024-T2815 come from the fabric (R30). -/
def fabricSource (src : Nat) : Bool := decide (1024 ≤ src ∧ src < 2816)

/-- T3840-T4095 are canvas outputs, which are never outside the window (R30, R237). -/
def canvasSource (src : Nat) : Bool := decide (3840 ≤ src)

/-- The hop count at which a synchroniser reads out a fabric stream that arrived outside the window: R236 gives it none,
so which of 1 and 2 it takes is a free value (log entry 23). -/
def State.hopsFor (s : State) (src : Nat) : State :=
  let a := s.aligner src
  if fabricSource src ∧ (a.hops = 0 ∨ a.hops = 3) then
    (s.freshPick 2).2.setAligner src { a with hops := 1 + (s.freshPick 2).1 }
  else s

/-- The source at `src` receives a synchroniser charged to tenant `t` on the route of destination `d` (R240, R242). -/
def State.attachSync (s : State) (src t d : Nat) (q : SyncReq) (blank : Bool) : State :=
  let p := s.pickSync
  let s := p.2.setSync src ⟨p.1, q.units, q.rate, q.own, none, none, blank⟩
  let s := s.each (unitTracks src (highFmt (s.aligner src).high).raster) State.hopsFor
  let s := s.setModes (unitTracks src (highFmt (s.aligner src).high).raster) 3
  let s := s.alloc t (.sync src d) ⟨q.units, 0, 0, 0, 0⟩
  let s := (s.inc FSA_PROMO FSA_PROMO_COUNT).raise 161
  s.syncEvent true t d p.1 src

def State.syncAlloc (s : State) (src : Nat) : Option Alloc :=
  s.ten.allocs.find? (fun a => match a.holding with
    | .sync k _ => k == src
    | _ => false)

def isSyncOf (src : Nat) (h : Holding) : Bool :=
  match h with
  | .sync k _ => k == src
  | _ => false

/-- The destination named in the allocation of a synchroniser. -/
def Alloc.dest (a : Alloc) : Nat :=
  match a.holding with
  | .sync _ d => d
  | _ => 0

/-- The mode of the aligner at `src` once its synchroniser has gone: IDLE without a signal, else ALIGN or OUTWIN as its
phase lies (R242); a stream whose phase was never measured is measured first (log entry 23). -/
def State.modeAfter (s : State) (src : Nat) (lost : Bool) : Aligner :=
  let a := s.aligner src
  if a.high % 256 = 0 || lost then Aligner.idle
  else if a.inside then { a with mode := 2 }
  else if a.off.isNone && (decide (src < 1024) || fabricSource src) then { a with mode := 1, hops := 0, delay := 0 }
  else { a with mode := 4 }

/-- The synchroniser leaves the source (R242). -/
def State.dropSync (s : State) (src : Nat) : State :=
  match s.sync? src with
  | none => s
  | some u =>
    let s := s.each (unitTracks src (highFmt (s.aligner src).high).raster)
      (fun s k => s.setAligner k (s.modeAfter k u.lost.isSome))
    let s : State := { s with fsa := { s.fsa with syncs := Tbl.del s.fsa.syncs src } }
    s.release (isSyncOf src)

/-- The holder of a synchroniser is told that it is released (R242). -/
def State.releaseSync (s : State) (src : Nat) : State :=
  match s.sync? src, s.syncAlloc src with
  | some u, some a => (s.dropSync src).syncEvent false a.owner a.dest u.index src
  | _, _ => s.dropSync src

/-- Readers of a source, longest-standing first (R242). -/
def State.readersByAge (s : State) (src : Nat) : List (Nat × Route) :=
  let l := s.readers src
  (List.range (s.xpt.order + 1)).flatMap (fun n => l.filter (fun e => e.2.since == n))

/-- The longest-standing reader whose owner can be charged `units` more, leaving the source's own charge out (R242). -/
def State.findHolder (s : State) (src units : Nat) : Option (Nat × Nat) :=
  firstSome (fun e =>
    let t := s.routeOwner e.1 e.2.width
    match s.overBudget t ⟨units, 0, 0, 0, 0⟩ (fun a => isSyncOf src a.holding) with
    | none => some (t, e.1)
    | some _ => none) (s.readersByAge src)

/-- Pass the charge of a synchroniser to tenant `t` on destination `d` (R242). -/
def State.passSync (s : State) (src t d units : Nat) : State :=
  s.setAllocs (s.ten.allocs.map (fun a =>
    if isSyncOf src a.holding then ⟨t, .sync src d, ⟨units, 0, 0, 0, 0⟩⟩ else a))

/-- The charge passes to tenant `t` on destination `d`, and where the holder changes both are told (R242). -/
def State.giveSync (s : State) (src t d units : Nat) : State :=
  match s.sync? src, s.syncAlloc src with
  | some u, some a =>
    let s := (s.passSync src t d units).setSync src { u with units := units }
    if t = a.owner then s
    else (s.syncEvent false a.owner a.dest u.index src).syncEvent true t d u.index src
  | _, _ => s

/-- The holder's last route is gone, or its room: hand the synchroniser over, or release it (R242, R247). -/
def State.handOver (s : State) (src units : Nat) : State :=
  match s.findHolder src units with
  | some (t, d) => s.giveSync src t d units
  | none => if (s.sync? src).isSome then (s.releaseSync src).raise 160 else s

/-- A pending immediate change at the holder's destination still needs the source (R240). -/
def State.awaited (s : State) (src : Nat) (a : Alloc) : Bool :=
  match Tbl.find? s.xpt.pending a.dest with
  | some p => match p.change.route with
    | some r => r.src == src
    | none => false
  | none => false

/-- After a route from `src` is gone: the synchroniser stays, passes on, or is released (R242). -/
def State.reviewSync (s : State) (src : Nat) : State :=
  match s.sync? src, s.syncAlloc src with
  | some u, some a =>
    let l := s.readers src
    if s.awaited src a then s
    else if l.isEmpty then s.releaseSync src
    else
      match (s.readersByAge src).find? (fun e => s.routeOwner e.1 e.2.width == a.owner) with
      | some e => if l.any (fun q => q.1 == a.dest) then s else s.passSync src a.owner e.1 u.units
      | none => s.handOver src u.units
  | _, _ => s

/-- The stream at `src` is outside its window and has no synchroniser: a fabric stream reads hop count 3 (R236, R247). -/
def State.setOutwin (s : State) (src : Nat) : State :=
  let a := s.aligner src
  s.setAligner src { a with mode := 4, hops := if fabricSource src then 3 else a.hops }

/-- Automatic promotion of a stream outside the window (R240, R242); the four streams of RASTER 0x08 share one
synchroniser, which one of them may already have (R241). -/
def State.autoPromote (s : State) (src : Nat) (blank : Bool) : State :=
  let f := highFmt (s.aligner src).high
  let units := syncUnits f
  let home := s.syncHome src
  if (s.sync? home).isSome then s.setModes [src] 3
  else if s.bit FSA_CTRL FSA_CTRL_AUTOPROMO && !(s.readers home).isEmpty then
    match s.findHolder home units with
    | some (t, d) => s.attachSync home t d ⟨units, f.rate, true⟩ blank
    | none => (s.setOutwin src).raise 160
  else s.setOutwin src

/-! ## What the blocks in front report (R235, R245, R247) -/

/-- The synchroniser of `src` takes another number of units: it stays with its holder where the budget has room. -/
def State.recount (s : State) (src units : Nat) : State :=
  match s.syncAlloc src with
  | none => s
  | some x =>
    match s.overBudget x.owner ⟨units, 0, 0, 0, 0⟩ (fun y => isSyncOf src y.holding) with
    | none => s.passSync src x.owner x.dest units
    | some _ => s.handOver src units

/-- The format of the stream at `src` as it is now reported, where it is synchronised: the synchroniser re-acquires (R247). -/
def State.reacquire (s : State) (src home high : Nat) (u : SyncUnit) : State :=
  let a := s.aligner src
  if high = a.high then (s.setAligner src { a with mode := 3 }).setSync home { u with lost := none }
  else
  let s := s.setAligner src { a with mode := 3, high := high, pid := 0, inside := false, delay := 0, off := none }
  if src ≠ home then s
  else
    let f := highFmt high
    let units := syncUnits f
    let gone := (unitTracks home (highFmt a.high).raster).filter (fun k => !(unitTracks home f.raster).contains k)
    let s := s.each gone (fun s k => s.setAligner k Aligner.idle)
    let s := s.setSync home
      { u with lost := none, last := none, blank := true, units := units, rate := if u.own then f.rate else u.rate }
    s.recount home units

/-- MLN, BLK, ESS or CMP reports the format of the stream at `src` (bytes 4-7), or none with RASTER 0. -/
def State.reportFormat (s : State) (src high : Nat) : State :=
  let a := s.aligner src
  let home := if high % 256 = 8 then src / 16 * 16 else s.syncHome src
  match s.sync? home with
  | some u =>
    if high % 256 ≠ 0 then s.reacquire src home high u
    else match u.lost with
      | some _ => s
      | none => s.setSync home { u with lost := some 0 }
  | none =>
    if high % 256 = 0 then s.setAligner src Aligner.idle
    else if high = a.high then s
    else s.setAligner src { Aligner.idle with mode := 1, high := high }

/-- The payload ID bytes of the descriptor at `src` (R26, R312). -/
def State.reportPid (s : State) (src pid : Nat) : State :=
  if (s.aligner src).high % 256 = 0 then s else s.setAligner src { s.aligner src with pid := pid }

/-- A canvas output, or a stream that its block has aligned, is in ALIGN mode at once (R237). -/
def State.reportAligned (s : State) (src high delay : Nat) : State :=
  let s := s.reportFormat src high
  let a := s.aligner src
  if a.mode = 1 then s.setAligner src { a with mode := 2, delay := delay, inside := true }
  else if a.mode = 2 then s.setAligner src { a with delay := delay }
  else s.setAligner src { a with inside := true }

/-! ## The window (R232, R233, R236) -/

/-- FSA_PHASE.HOP in ns, clamped (R260). -/
def State.hop (s : State) : Nat := min 400 (max 200 (s.fld FSA_PHASE FSA_PHASE_HOP))

/-- Depth of the window in lines (R233). -/
def windowLines (raster : Nat) : Nat := if raster = 7 ∨ raster = 8 then 8 else 32

/-- AOFS of a class in lines, clamped (R233, R260). -/
def State.aofs (s : State) (raster : Nat) : Nat :=
  if raster = 7 ∨ raster = 8 then min 8 (s.fld FSA_PHASE FSA_PHASE_AOFS_UHD)
  else min 32 (s.fld FSA_PHASE FSA_PHASE_AOFS_HD)

/-- a - A of a stream that arrives `off` ps after Rf, in units of 1/(3 × lines) ps: A lies AOFS lines after Rf (R232). -/
def State.lateness (s : State) (f : Fmt) (off : Int) : Int :=
  3 * off * (linesOf f.raster : Nat) - (s.aofs f.raster * (framePeriod3 f.rate * 1000) : Nat)

/-- `x`, in units of 1/(3 × lines) ps, in word slots of the stream's family, rounded to the nearest (R234, R261). -/
def slotsOf (f : Fmt) (x : Nat) : Nat :=
  let den := (if f.fractional then 3 * 10010000000 else 3 * 10000000) * linesOf f.raster
  let num := if f.fractional then x * 1485000 else x * 1485
  (2 * num + den) / (2 * den)

/-- The residue of `x` modulo `p` nearest to zero, above -p/2 (R233). -/
def centred (x : Int) (p : Nat) : Int := if (p : Int) < 2 * (x % p) then x % p - p else x % p

/-- Where a stream that arrives `off` ps after Rf stands: hop count and delay in word slots, none outside the window. -/
def State.window (s : State) (src : Nat) (f : Fmt) (off : Int) : Option (Nat × Nat) :=
  let period := framePeriod3 f.rate * 1000 * linesOf f.raster
  let d := centred (-s.lateness f off) period
  if fabricSource src then
    if 0 ≤ d then none
    else
      match [1, 2].find? (fun k => decide (-d ≤ (3 * k * s.hop * 1000 * linesOf f.raster : Nat))) with
      | some k => some (k, slotsOf f ((3 * k * s.hop * 1000 * linesOf f.raster : Nat) + d).toNat)
      | none => none
  else if 0 ≤ d ∧ d ≤ (windowLines f.raster * (framePeriod3 f.rate * 1000) : Nat) then some (0, slotsOf f d.toNat)
  else none

/-- The aligner at `src` with its arrival measured at `off` (R235, R236): in ALIGN within the window, in OUTWIN outside;
under a synchroniser only the phase is kept. -/
def State.placed (s : State) (src : Nat) (off : Int) : Aligner :=
  let a := { s.aligner src with off := some off }
  match s.window src (highFmt a.high) off with
  | some (k, d) => { a with mode := if a.mode = 3 then 3 else 2, hops := k, delay := d, inside := true }
  | none =>
    { a with mode := if a.mode = 3 then 3 else 4, inside := false, delay := 0
             hops := if a.mode = 3 ∨ !fabricSource src then a.hops else 3 }

/-- T2816-T3839 come from ESS (R30). -/
def essSource (src : Nat) : Bool := decide (2816 ≤ src ∧ src < 3840)

/-- R235, R236, R240: the phase of a stream has been measured: acquisition ends, a stream outside the window has come
back, or a synchroniser's source lies elsewhere. An ESS receive stream arrives where its timestamps put it (R359). -/
def opAlignerAcquired (src : Nat) (off : Int) (s : State) : State :=
  let a := s.aligner src
  let off := if essSource src then a.off.getD off else off
  if a.mode = 0 ∨ a.mode = 2 ∨ canvasSource src then s
  else
    let s := s.setAligner src (s.placed src off)
    s.when (a.mode == 1 && (s.aligner src).mode == 4) (fun s => s.autoPromote src true)

/-- R247: an aligned stream drifts or jumps out of the window; a canvas output never does (R237). A stream that drifts is
read out at the hop count it had. -/
def opLeavesWindow (src : Nat) (off : Int) (jump : Bool) (s : State) : State :=
  let a := s.aligner src
  if a.mode ≠ 2 ∨ canvasSource src ∨ (s.window src (highFmt a.high) off).isSome then s
  else
    let s := s.setAligner src { a with hops := if jump && fabricSource src then 3 else a.hops, delay := 0, inside := false
                                       off := some off }
    s.autoPromote src jump

/-- A measured stream is placed anew where it arrives at `off`; one that leaves its window is promoted as R240 says. -/
def State.place (s : State) (src : Nat) (off : Int) : State :=
  let was := (s.aligner src).mode
  if was = 2 ∨ was = 3 ∨ was = 4 then
    let s := s.setAligner src (s.placed src off)
    s.when ((s.aligner src).mode == 4 && was == 2) (fun s => s.autoPromote src true)
  else s

/-- R232, R260: the aligned point or HOP has moved with a write of FSA_PHASE, and every measured stream is placed anew. -/
def State.realignAll (s : State) : State :=
  s.each (s.fsa.aligners.map Prod.fst) (fun s src =>
    match (s.aligner src).off with
    | some off => s.place src off
    | none => s)

/-! ## Reading and concealment (R244-R246) -/

/-- R244, R245: an output frame start of a synchroniser. -/
def opSyncFrameStart (src newest : Nat) (s : State) : State :=
  match s.sync? src with
  | none => s
  | some u =>
    let s := s.each (unitTracks src (highFmt (s.aligner src).high).raster)
      (fun s k => s.setAligner k { s.aligner k with substituted := [] })
    match u.lost with
    | some n =>
      let s := s.setSync src { u with lost := some (min 256 (n + 1)) }
      s.when (decide (n < s.holdFr) && u.last.isSome) (fun s => s.inc FSA_REPEAT FSA_REPEAT_COUNT)
    | none =>
      match u.last with
      | none => s.setSync src { u with last := some newest, blank := false }
      | some l =>
        if newest = l then s.inc FSA_REPEAT FSA_REPEAT_COUNT
        else (s.setSync src { u with last := some newest }).incBy FSA_DROP FSA_DROP_COUNT (newest - l - 1)

/-- Line `line` of the frame of `src` holds the line before it of the same field (R246, R252). -/
def State.substituteLine (s : State) (src line : Nat) : State :=
  let a := s.aligner src
  if a.substituted.contains line then s else s.setAligner src { a with substituted := a.substituted ++ [line] }

/-- R246: MLN or BLK reports a line with an error. -/
def opErroredLine (src line : Nat) (s : State) : State :=
  let a := s.aligner src
  let raster := (highFmt a.high).raster
  if a.mode ≠ 3 ∨ !s.bit FSA_CTRL FSA_CTRL_CONCEAL ∨ raster = 1 ∨ raster = 2 then s
  else
    let run := if line = a.errLine + 1 ∧ a.errRun ≠ 0 then a.errRun + 1 else 1
    let lim := min 8 (s.fld FSA_CTRL FSA_CTRL_CONCMAX)
    let s := s.setAligner src { a with errLine := line, errRun := run }
    if run ≤ lim then (s.substituteLine src line).inc FSA_CONCEAL FSA_CONCEAL_COUNT
    else if run = lim + 1 then s.raise 162
    else s

/-! ## Memory errors and arbitration (R252, R253) -/

def opEccFix (s : State) : State := (s.inc FSA_ECCFIX FSA_ECCFIX_COUNT).raise 166

/-- FSA_MEMCFG.AGE in µs; below 100 it acts as 100 (R260). -/
def State.ageLimit (s : State) : Nat := max 100 (s.fld FSA_MEMCFG FSA_MEMCFG_AGE)

def MemCtl.idle : MemCtl := ⟨[], 0, 0⟩
/-- The real-time requester whose turn it is among those that wait: the next above the one served last, cyclically (R253). -/
def nextInTurn (last : Nat) (l : List Nat) : Option Nat :=
  match (l.filter (fun r => decide (last < r))).min? with
  | some r => some r
  | none => l.min?
/-- What a controller serves in one cycle while the real-time requesters `l` wait: in the reserved slot the oldest aged
request, else a real-time one; none where neither waits (a background request that has not aged is then served). -/
def MemCtl.serves (m : MemCtl) (l : List Nat) : Option (Bool × Nat) :=
  match (if m.cycle = 31 then m.aged.head? else none) with
  | some r => some (true, r)
  | none => (nextInTurn m.last l).map (fun r => (false, r))
/-- One cycle of a controller. -/
def MemCtl.turn (m : MemCtl) (l : List Nat) : MemCtl :=
  let m' := { m with cycle := (m.cycle + 1) % 32 }
  match m.serves l with
  | some (true, _) => { m' with aged := m.aged.tail }
  | some (false, r) => { m' with last := r }
  | none => m'
/-- The aged requests that wait for the reserved slot; a requester after the 64th stalls until one is served. -/
def MemCtl.waiting (m : MemCtl) : List Nat := m.aged.take 64
/-- R253: the controller has passed `cycles`, each with the real-time requesters that waited in it, and a request is now
older than AGE. -/
def opBackgroundAged (ctl req age : Nat) (cycles : List (List Nat)) (s : State) : State :=
  let m := Tbl.getD s.fsa.ctls ctl MemCtl.idle
  let n := cycles.foldl MemCtl.turn m
  let new := { n with aged := if s.ageLimit < age then n.aged ++ [req] else n.aged }
  let s : State := { s with fsa := { s.fsa with ctls := Tbl.putD s.fsa.ctls ctl new MemCtl.idle } }
  s.incBy FSA_AGED FSA_AGED_COUNT (m.aged.length - n.aged.length)

def opLspar (s : State) : State := s.raise 168

/-! ## Registers (R260-R262) -/

/-- Write IDX and take the snapshot of the aligner (R261). DESIGN CHOICE: UNITS cannot hold the 16 units of a RASTER 0x08
source and reads 15 there (log entry 53). -/
def opAlIdx (v : Word) (s : State) : State :=
  let s := s.fieldWrite FSA_AL_IDX v
  let src := s.fld FSA_AL_IDX FSA_AL_IDX_SRC
  let a := s.aligner src
  let s := s.setFld FSA_AL_STAT FSA_AL_STAT_MODE a.mode
  let s := s.setFld FSA_AL_STAT FSA_AL_STAT_HOPS (if fabricSource src ∧ a.hops = 0 then 3 else a.hops)
  let s := s.setBit FSA_AL_STAT FSA_AL_STAT_PASS (a.mode == 2 && a.delay == 0)
  let s := s.setFld FSA_AL_STAT FSA_AL_STAT_DELAY (if a.mode = 2 then a.delay else 0)
  match s.syncOf src with
  | none =>
    let s := s.setFld FSA_AL_SYNC FSA_AL_SYNC_SYNC 0x3FF
    let s := s.setFld FSA_AL_SYNC FSA_AL_SYNC_HOLDER 0
    s.setFld FSA_AL_SYNC FSA_AL_SYNC_UNITS 0
  | some u =>
    let s := s.setFld FSA_AL_SYNC FSA_AL_SYNC_SYNC u.index
    let s := s.setFld FSA_AL_SYNC FSA_AL_SYNC_HOLDER (match s.syncAlloc (s.syncHome src) with
      | some x => x.owner
      | none => 0)
    s.setFld FSA_AL_SYNC FSA_AL_SYNC_UNITS (min 15 u.units)

/-- R261: the lead of the destination named in FSA_DL_IDX. -/
def opDlData (v : Word) (s : State) : State := s.fieldWrite (FSA_DLW (s.fld FSA_DL_IDX FSA_DL_IDX_DST)) v

/-- Lead of a destination (R238, R260, R261). -/
def State.leadOf (s : State) (d : Nat) : Nat :=
  if s.bit (FSA_DLW d) FSA_DL_DATA_OVR then min 2 (s.fld (FSA_DLW d) FSA_DL_DATA_LEAD)
  else min 2 (s.fld FSA_PHASE FSA_PHASE_OUTLEAD)

def opFsaClrcnt (s : State) : State :=
  s.clearAll [FSA_EPDISC, FSA_REPEAT, FSA_DROP, FSA_CONCEAL, FSA_LEADMISS, FSA_AGED, FSA_ECCFIX, FSA_ECCUNC, FSA_PROMO,
    FSA_SEDGEERR]

def execAlignerAcquired (src : Track) (off : Int) (s : State) : Host.Outcome State Fault Refusal :=
  done s (opAlignerAcquired src.val off s)
def execStreamLeavesWindow (src : Track) (off : Int) (jump : Bool) (s : State) : Host.Outcome State Fault Refusal :=
  done s (opLeavesWindow src.val off jump s)
def execSyncFrameStart (src : Track) (newest : Nat) (s : State) : Host.Outcome State Fault Refusal :=
  done s (opSyncFrameStart src.val newest s)
def execErroredLine (src : Track) (line : Nat) (s : State) : Host.Outcome State Fault Refusal :=
  done s (opErroredLine src.val line s)
def execFsaEccfix (s : State) : Host.Outcome State Fault Refusal := done s (opEccFix s)
def execBackgroundRequestAged (ctl : Fin 2) (req : Nat) (age : Word) (cycles : List (List Nat)) (s : State) :
    Host.Outcome State Fault Refusal :=
  done s (opBackgroundAged ctl.val req age.toNat cycles s)
def execFsaLspar (s : State) : Host.Outcome State Fault Refusal := done s (opLspar s)
def execFsaAlIdx (v : Word) (s : State) : Host.Outcome State Fault Refusal := doneBar s (opAlIdx v s)
def execFsaDlData (v : Word) (s : State) : Host.Outcome State Fault Refusal := doneBar s (opDlData v s)
def execFsaClrcnt (s : State) : Host.Outcome State Fault Refusal := doneBar s (opFsaClrcnt s)

end Sys2Proof.Machine
end

