-- ==== Sys2Proof/Machine/LineStore.lean ====
section
/-! DEFINITION. The line store: its partition (R239), and the delay of aligners (R234) and output retimers (R238). -/

namespace Sys2Proof.Machine
open Sys2Proof

/-- What the line store is for: the aligners of the media lanes, those of the fabric-inbound tracks, and the output retimers
of the destination tracks. -/
inductive LineUse where
  | media
  | fabric
  | retimer
  deriving DecidableEq, Repr

/-- Lanes or tracks with an allocation of their own, and the 20-bit words of each (R239). -/
def LineUse.users (u : LineUse) : Nat :=
  match u with
  | .media => 256
  | .fabric => 1792
  | .retimer => 4096

def LineUse.words (u : LineUse) : Nat :=
  match u with
  | .media => 32 * 2200
  | .fabric => 128
  | .retimer => 128

/-- Bits of all allocations of a use. -/
def LineUse.bits (u : LineUse) : Nat := u.users * u.words * 20

/-- The first bit of a use in the line store. DESIGN CHOICE: the uses stand in the order of R239's table (log entry 54). -/
def LineUse.base (u : LineUse) : Nat :=
  match u with
  | .media => 0
  | .fabric => LineUse.media.bits
  | .retimer => LineUse.media.bits + LineUse.fabric.bits

def lineStoreBits : Nat := 402653184

/-- Bits of a row (R549). -/
def lineRowBits : Nat := 8192

/-- Rows in use, and the spare rows after them, of which one is the rotation spare (R239, R549, R552). -/
def lineRowsInUse : Nat := (LineUse.media.bits + LineUse.fabric.bits + LineUse.retimer.bits) / lineRowBits
def lineRowsSpare : Nat := lineStoreBits / lineRowBits - lineRowsInUse

/-- The bits of the line store that lane or track `n` of a use owns, from the first up to the one after the last (R239). -/
def LineUse.room (u : LineUse) (n : Nat) : Nat × Nat := (u.base + n * (u.words * 20), u.base + (n + 1) * (u.words * 20))

/-- The row of the line store in which word `i` of an allocation begins: a failed row is reported through it (R552). -/
def LineUse.row (u : LineUse) (n i : Nat) : Nat := ((u.room n).1 + i * 20) / lineRowBits

/-- The allocation that source track `k` waits in; an ESS flow and a canvas use none (R237, R239). -/
def lineUseOf (k : Nat) : Option (LineUse × Nat) :=
  if k < 1024 then some (.media, k / 4) else if fabricSource k then some (.fabric, k - 1024) else none

/-- `n` word slots of a stream hold this many of its words (R21). -/
def wordsIn (f : Fmt) (n : Nat) : Nat := n * validSlots f / 22

/-- A delay line that is to hold `held` words takes the words `new`: the words that leave it, and those that stay. While it
fills, fewer leave than come. -/
def delayLine (line new : List (BitVec 20)) (held : Nat) : List (BitVec 20) × List (BitVec 20) :=
  let all := line ++ new
  let n := all.length - held
  ((all.take n).drop (n - new.length), all.drop n)

/-- Words that the aligner of source track `k` holds back: d in ALIGN mode (R234), none in any other. PRESUMED: of a line
longer than 2,200 words the aligner stores 2,200 and keeps the time of the others (log entry 54). -/
def State.lineHeld (s : State) (k : Nat) : Nat :=
  match lineUseOf k, s.streamOf k with
  | some _, some b => if (s.aligner b).mode = 2 then wordsIn (s.detected b) (s.aligner b).delay else 0
  | _, _ => 0

/-- Source track `k` takes the words that arrive, and gives those that enter its cell (R234). -/
def State.alignWords (s : State) (k : Nat) (words : List (BitVec 20)) : List (BitVec 20) × State :=
  let p := delayLine (Tbl.getD s.fsa.lines k []) words (s.lineHeld k)
  (p.1, { s with fsa := { s.fsa with lines := Tbl.putD s.fsa.lines k p.2 [] } })

/-- Words that the retimer of destination track `d` holds back: (L - k) × HOP of its stream (R238). A fabric outbound slot is
never retimed. -/
def State.retimerHeld (s : State) (d : Nat) : Nat :=
  match s.xpt.routes.find? (fun e => decide (e.1 ≤ d ∧ d < e.1 + e.2.width)) with
  | none => 0
  | some (k, r) =>
    if 1024 ≤ d ∧ d < 2816 then 0
    else wordsIn r.fmt (slotsOf r.fmt
      (3 * ((s.leadOf k - (s.aligner r.src).hops) * s.hop * 1000) * linesOf r.fmt.raster))

/-- The words in the valid slots of a cell. -/
def cellWords (c : BitVec 84) : List (BitVec 20) :=
  (List.range 4).filterMap (fun i => if (cellSlot c i).2 then some (cellSlot c i).1 else none)

/-- The cell that destination track `d` has read goes through its retimer, and the words whose time has come leave (R238). -/
def State.retime (s : State) (d : Nat) : State :=
  let p := delayLine (Tbl.getD s.xpt.retimers d []) (cellWords (Tbl.getD s.xpt.delivered d 0)) (s.retimerHeld d)
  { s with xpt := { s.xpt with retimers := Tbl.putD s.xpt.retimers d p.2 []
                               leaving := Tbl.putD s.xpt.leaving d p.1 [] } }

end Sys2Proof.Machine
end

