-- ==== Sys2Proof/Machine/Crosspoint.lean ====
section
/-! DEFINITION. Routes: the checks and charges of ROUTE and UNROUTE, the switch point, the format change sequence, the
Fallow raster and the route-table windows (R138-R146, R169-R182, R197, R200-R207, R238). -/

namespace Sys2Proof.Machine

open Sys2Proof

/-! ## Destinations (R31) -/

def mediaDst (d : Nat) : Bool := decide (d < 1024)
def fabricDst (d : Nat) : Bool := decide (1024 ≤ d ∧ d < 2816)
def essDst (d : Nat) : Bool := decide (2816 ≤ d ∧ d < 3840)
def surfaceDst (d : Nat) : Bool := decide (3840 ≤ d)

/-- The range of R31 that a destination track lies in. -/
def dstRange (d : Nat) : Nat := if d < 1024 then 0 else if d < 2816 then 1 else if d < 3840 then 2 else 3

def State.route? (s : State) (d : Nat) : Option Route := Tbl.find? s.xpt.routes d
def State.pend? (s : State) (d : Nat) : Option Pend := Tbl.find? s.xpt.pending d
def State.xptEpoch (s : State) (d : Nat) : Nat := Tbl.getD s.xpt.epochs d 0

/-- R40: the epoch after `e`. -/
def nextEpoch (e : Nat) : Nat := if e = 65535 then 1 else e + 1

def State.setXpt (s : State) (x : Xpt) : State := { s with xpt := x }

/-- The routed stream that covers destination track `d`, with its first track (R172). -/
def State.streamAt (s : State) (d : Nat) : Option (Nat × Route) :=
  s.xpt.routes.find? (fun e => decide (e.1 ≤ d ∧ d < e.1 + e.2.width))

/-- The entry of destination track `d` failed parity in both copies (R182). -/
def State.lostEntry (s : State) (d : Nat) : Bool := Tbl.has s.xpt.rtpar d

/-- Every routed destination track with the source track it reads; a lost entry names none (R182). -/
def State.cellReads (s : State) : List (Nat × Nat) :=
  (s.xpt.routes.flatMap (fun r => (List.range r.2.width).map (fun i => (r.1 + i, r.2.src + i)))).filter
    (fun p => !s.lostEntry p.1)

/-- Destination tracks that read source track `k` (R181). -/
def State.fanout (s : State) (k : Nat) : Nat := (s.cellReads.filter (fun p => p.2 == k)).length

/-- TALLY events for the source tracks whose fan-out has moved since `old` (R164, R181, R578). DESIGN CHOICE: source tracks
have no owner, and the events go to TN0; OBJECT is the source track; what the tally bits say is a free value (log entry
20). -/
def State.tally (s old : State) : State :=
  let l := ((old.cellReads ++ s.cellReads).map Prod.snd).eraseDups
  s.each (l.filter (fun k => old.fanout k != s.fanout k)) (fun s k =>
    let p := s.freshWord
    p.2.event 0 13 0x10 0 k 0 [k, p.1.toNat, 0, 0])

/-- Ranges `a .. a + n - 1` and `b .. b + m - 1` have a track in common. -/
def meets (a n b m : Nat) : Bool := decide (0 < n ∧ 0 < m ∧ a < b + m ∧ b < a + n)

/-- Tracks of a change at destination `d`: those of its new route, or those of the stream it unroutes. -/
def State.changeWidth (s : State) (d : Nat) (c : Change) : Nat :=
  match c.route with
  | some r => r.width
  | none => match s.route? d with
    | some r => r.width
    | none => 1

/-- First tracks and widths of the streams, routed or pending, that have a track among `d .. d + w - 1`: a ROUTE there
takes the place of all of each (R177, R178). -/
def State.touched (s : State) (d w : Nat) : List (Nat × Nat) :=
  ((s.xpt.routes.map (fun e => (e.1, e.2.width))) ++ (s.xpt.pending.map (fun e => (e.1, s.changeWidth e.1 e.2.change)))).filter
    (fun x => meets d w x.1 x.2)

/-- The destination tracks a command on `d .. d + w - 1` acts on (R118). -/
def State.actedOn (s : State) (d w : Nat) : List (Nat × Nat) := (d, w) :: s.touched d w

/-! ## Checks of a ROUTE (R139, R140, R174, R175, R241, R320, R394) -/

/-- What a ROUTE asks for. -/
structure RouteReq where
  dst : Nat
  src : Nat
  fsync : Bool
  fmt : Fmt
  /-- FORMAT is all zeros -/
  zero : Bool
  deriving DecidableEq, Repr

def routeReq (e : Entry) : RouteReq :=
  ⟨bitsAt e 8 0 12, bitsAt e 10 0 12, bitsAt e 13 0 1 == 1, fmtOf (bitsAt e 16 0 64), bitsAt e 16 0 64 == 0⟩

/-- Routes from the source that an accepted immediate ROUTE is about to make: its synchroniser is attached already (R240). -/
def State.awaiting (s : State) (src : Nat) : Tbl Route :=
  s.xpt.pending.filterMap (fun e => match e.2.change.route with
    | some r => if r.src = src then some (e.1, r) else none
    | none => none)

/-- Routes that read the source, or are about to, beside the one at the ROUTE's own destination (R241). -/
def State.others (s : State) (q : RouteReq) : Tbl Route :=
  (s.readers q.src ++ s.awaiting q.src).filter (fun e => e.1 != q.dst)

/-- The source has a synchroniser that only the replaced route reads. -/
def State.ownOnly (s : State) (q : RouteReq) : Bool := (s.sync? q.src).isSome && (s.others q).isEmpty

/-- The route format (R174): FORMAT, or the source's own format without a synchroniser that counts as absent. -/
def State.routeFmt (s : State) (q : RouteReq) : Fmt :=
  let det := s.detectedAt q.src
  if !q.zero then q.fmt
  else if s.ownOnly q && !det.none then { det with rate := (highFmt (s.aligner q.src).high).rate }
  else det

/-- The source's own rate: that of the format its block reports, where it carries one. -/
def State.ownRate (s : State) (q : RouteReq) : Nat :=
  let f := highFmt (s.aligner q.src).high
  if f.none then (s.routeFmt q).rate else f.rate

/-- A rate conversion is needed (R140). -/
def State.converts (s : State) (q : RouteReq) : Bool :=
  !(s.detectedAt q.src).none && (s.routeFmt q).rate != s.ownRate q

/-- R241: another route reads the source at another rate, or the synchroniser delivers another rate. -/
def State.rateClash (s : State) (q : RouteReq) : Bool :=
  let r := (s.routeFmt q).rate
  (s.others q).any (fun e => e.2.fmt.rate != r)
    || (!(s.others q).isEmpty && (match s.sync? q.src with
      | some u => u.rate != r
      | none => false))

/-- SRC is not the first track of the source's current stream (R175, R32). -/
def State.notFirst (s : State) (src : Nat) : Bool :=
  ((decide (src < 1024) || decide (3840 ≤ src)) && src % 4 != 0)
    || (match s.streamOf src with
      | some b => b != src
      | none => false)

/-- The trunk whose OSLOT window holds outbound track `d`, when it is UP (R392, R394). -/
def State.slotUp (s : State) (d : Nat) : Bool :=
  (List.range 4).any (fun t =>
    let base := s.fld (BLK_TR_OSLOT t) BLK_TR_OSLOT_BASE
    decide (base ≤ d - 1024 ∧ d - 1024 < base + s.fld (BLK_TR_OSLOT t) BLK_TR_OSLOT_CNT)
      && s.bit (BLK_TR_STAT t) BLK_TR_STAT_UP)

/-- REJ_FORMAT conditions with their RESULT. DESIGN CHOICE: where several hold, the first of this list gives RESULT; the spec
only puts RESULT 0 before 8 (R320, log entry 53). -/
def State.routeFormatChecks (s : State) (q : RouteReq) : List (Bool × Status × Nat) :=
  let f := s.routeFmt q
  let det := s.detectedAt q.src
  let w := f.width
  let lane := q.dst / 4
  let mode := s.fld (ML_CTRL lane) ML_CTRL_MODE
  [ (!q.zero && !q.fmt.valid, .rejFormat, 0),
    (q.zero && det.none, .rejFormat, 1),
    (!q.zero && !det.none && !q.fmt.sameButRate det, .rejFormat, 0),
    (s.notFirst q.src, .rejFormat, 2),
    (dstRange q.dst != dstRange (q.dst + w - 1) || decide (4096 < q.dst + w), .rejFormat, 3),
    (mediaDst q.dst && q.dst % 4 != 0, .rejFormat, 4),
    (mediaDst q.dst && (mode == 2 || mode == 3 || s.bit (ML_STAT lane) ML_STAT_PARTNER), .rejFormat, 5),
    (q.dst % w != 0 || q.src % w != 0, .rejFormat, 0),
    (mediaDst q.dst && s.fld (ML_CTRL lane) ML_CTRL_BOND != f.bond, .rejFormat, 8),
    (s.rateClash q, .rejFormat, 6) ]

/-- What the route itself is charged: its fabric tracks or its surface (R124, R249, R628). -/
def routeCharge (d : Nat) (f : Fmt) : Charge :=
  if fabricDst d then ⟨0, f.width, 0, 0, 0⟩ else if surfaceDst d then surfaceCharge f else Charge.zero

/-- The synchroniser that a ROUTE asks for, none where it needs none or takes the one that stands (R240, R241): one that
only the replaced route reads is asked for anew where it delivers another rate. A staged ROUTE that needs one is charged for
it whether or not one stands now (R242). -/
def State.routeSync (s : State) (q : RouteReq) (staged : Bool) : Option SyncReq :=
  let a := s.aligner q.src
  let outside := (unitTracks q.src (highFmt a.high).raster).any (fun k => (s.aligner k).mode == 4)
  let need : Bool := q.fsync || outside || s.converts q
  let rate := if s.converts q then (s.routeFmt q).rate else s.ownRate q
  let units := syncUnits (if (highFmt a.high).none then s.routeFmt q else highFmt a.high)
  match s.sync? q.src with
  | none => if need then some ⟨units, rate, !s.converts q⟩ else none
  | some u => if (staged && need) || (s.ownOnly q && u.rate != rate) then some ⟨units, rate, !s.converts q⟩ else none

/-- FSYNC units that a change asks for. -/
def SyncReq.charge (q : Option SyncReq) : Charge :=
  ⟨match q with
    | some x => x.units
    | none => 0, 0, 0, 0, 0⟩

/-- R128, R394: the limit that a route's charges reach. -/
def State.routeOver (s : State) (t : Nat) (q : RouteReq) (st : Bool) (drop : Alloc → Bool) : Option Nat :=
  let f := s.routeFmt q
  let c := (routeCharge q.dst f).add (SyncReq.charge (s.routeSync q st))
  let b := s.overBudget t c drop
  let twoHops : Bool := fabricDst q.dst && fabricSource q.src && (s.aligner q.src).hops == 2
  let noSlot : Bool := fabricDst q.dst && (List.range f.width).any (fun i => !s.slotUp (q.dst + i))
  if twoHops then some 6
  else if noSlot && b != some 0 then some 1
  else b

def State.routeChange (s : State) (q : RouteReq) (st : Bool) : Change :=
  let f := s.routeFmt q
  ⟨some ⟨q.src, f.width, f, 0, false, false, false⟩, routeCharge q.dst f, s.routeSync q st⟩

/-! ## Staging (R145, R208) -/

def State.slot? (s : State) (t k : Nat) : Option Salvo := Tbl.find? s.sal.slots (4 * t + k)

def State.setSlot (s : State) (k : Nat) (x : Salvo) : State :=
  { s with sal := { s.sal with slots := Tbl.put s.sal.slots k x } }

/-- The slot is open for staging (log entry 26). -/
def State.slotOpen (s : State) (t k : Nat) : Bool :=
  match s.slot? t k with
  | some x => x.stage == 0
  | none => false

/-- A further entry would be the 4,097th. -/
def State.slotFull (s : State) (t k key : Nat) : Bool :=
  match s.slot? t k with
  | some x => decide (4096 ≤ x.entries.length) && !x.entries.any (fun e => e.key == key)
  | none => false

/-- Put an entry into an open slot, replacing one with the same destination or layer; answers the entry count. -/
def State.stage (s : State) (t k key : Nat) (i : SalvoItem) : State × Nat :=
  match s.slot? t k with
  | none => (s, 0)
  | some x =>
    let l := if x.entries.any (fun e => e.key == key)
      then x.entries.map (fun e => if e.key = key then ⟨key, i⟩ else e) else x.entries ++ [⟨key, i⟩]
    (s.setSlot (4 * t + k) { x with entries := l }, l.length)

def isStaged (t k d : Nat) (a : Alloc) : Bool := a.holding == .staged t k d

/-! ## ROUTE and UNROUTE at dispatch -/

/-- The pending change at first track `d` is replaced (R178). -/
def State.displaceAt (s : State) (d : Nat) : State :=
  match s.pend? d with
  | none => s
  | some p =>
    let s := s.setXpt { s.xpt with pending := Tbl.del s.xpt.pending d }
    let s := (s.release (fun h => h == .pending d)).complete p.cmd .aborted 0 0
    match p.change.route with
    | some r => s.reviewSync r.src
    | none => s

/-- An immediate change on `d .. d + w - 1` displaces those that are pending on any of these tracks (R178). -/
def State.displace (s : State) (d w : Nat) : State :=
  s.each ((s.xpt.pending.filter (fun e => meets d w e.1 (s.changeWidth e.1 e.2.change))).map Prod.fst) State.displaceAt

/-- An accepted immediate change waits for its switch line (R203). -/
def State.schedule (s : State) (t d id : Nat) (c : Change) : State :=
  let s := s.displace d (s.changeWidth d c)
  let p : State × Change := match c.route, c.sync with
    | some r, some q =>
      match s.sync? r.src with
      | none => (s.attachSync r.src t d q ((s.aligner r.src).mode != 2), { c with sync := none })
      | some _ => (s, c)
    | _, _ => (s, c)
  let s := p.1.alloc t (.pending d) (p.2.charge.add (SyncReq.charge p.2.sync))
  s.setXpt { s.xpt with pending := Tbl.put s.xpt.pending d ⟨p.2, id, s.now⟩ }

def routeFields : List (Nat × Nat × Nat) :=
  [(8, 0, 12), (10, 0, 12), (12, 0, 2), (12, 7, 1), (13, 0, 1), (16, 0, 64)]

def stagedBit (e : Entry) : Bool := bitsAt e 12 7 1 == 1
def salvoOf (e : Entry) : Nat := bitsAt e 12 0 2

/-- ROUTE (R138-R146, R162, R172-R179). -/
def routeBody (t : Nat) (e : Entry) (id : Nat) (s : State) : State :=
  let q := routeReq e
  let k := salvoOf e
  let st := stagedBit e
  let w := (s.routeFmt q).width
  let drop : Alloc → Bool := if st then isStaged t k q.dst else fun a => a.holding == .pending q.dst
  let excess := s.routeOver t q st drop
  let acted := s.actedOn q.dst w
  let held : Bool := acted.any (fun x => (List.range x.2).any (fun i =>
    s.trackHeld (x.1 + i) (fun x => !(st && x == 4 * t + k))))
  s.checked id (
    (!onlyFields e routeFields, .rejFormat, 0) :: s.routeFormatChecks q ++
    [ (!acted.all (fun x => s.ownsAll t 0 x.1 x.2), .rejOwner, 0),
      (held, .rejLocked, 0),
      (st && s.slotFull t k q.dst, .rejCapacity, 5),
      (excess.isSome, .rejCapacity, excess.getD 0),
      (st && !s.slotOpen t k, .busy, 0),
      s.standbyBusy ])
    (fun s =>
      let c := s.routeChange q st
      if st then
        let s := s.release (fun h => h == .staged t k q.dst)
        let s := s.alloc t (.staged t k q.dst) (c.charge.add (SyncReq.charge c.sync))
        let p := s.stage t k q.dst (.route c)
        p.1.complete id .ok p.2 0
      else s.schedule t q.dst id c)

def unrouteFields : List (Nat × Nat × Nat) := [(8, 0, 12), (12, 0, 2), (12, 7, 1)]

/-- UNROUTE (R142, R145, R146). -/
def unrouteBody (t : Nat) (e : Entry) (id : Nat) (s : State) : State :=
  let d := bitsAt e 8 0 12
  let k := salvoOf e
  let st := stagedBit e
  let w := match s.route? d with
    | some r => r.width
    | none => 1
  let inner : Bool := match s.streamAt d with
    | some x => x.1 != d
    | none => false
  let acted := s.actedOn d w
  let held : Bool := (List.range w).any (fun i => s.trackHeld (d + i) (fun x => !(st && x == 4 * t + k)))
  s.checked id
    [ (!onlyFields e unrouteFields, .rejFormat, 0),
      (inner, .rejFormat, 9),
      (!acted.all (fun x => s.ownsAll t 0 x.1 x.2), .rejOwner, 0),
      (held, .rejLocked, 0),
      (st && s.slotFull t k d, .rejCapacity, 5),
      (st && !s.slotOpen t k, .busy, 0),
      s.standbyBusy ]
    (fun s =>
      let c : Change := ⟨none, Charge.zero, none⟩
      if st then
        let s := s.release (fun h => h == .staged t k d)
        let p := s.stage t k d (.route c)
        p.1.complete id .ok p.2 0
      else if (s.touched d w).isEmpty ∧ !s.lostEntry d then s.complete id .ok 0 0
      else s.schedule t d id c)

/-! ## The switch point (R176, R177, R200-R207) -/

/-- The format that an unrouted media output is set to: while a Fallow-format change is under way, the old one
(R319). -/
def State.laneFmt (s : State) (n : Nat) : Fmt :=
  match Tbl.find? s.mln.fallow n with
  | some p => highFmt p.1
  | none => highFmt (s.rd (ML_TXFMT n)).toNat

/-- The format a destination runs in: during a format change sequence the old one (R207), else its route format, the
last one, the lane's TXFMT, or none. -/
def State.runFmt (s : State) (d : Nat) : Option Fmt :=
  match Tbl.find? s.xpt.seqs ((s.streamAt d).elim d Prod.fst), s.streamAt d with
  | some q, _ => some q.old
  | none, some x => some x.2.fmt
  | none, none => if mediaDst d then some (s.laneFmt (d / 4)) else Tbl.find? s.xpt.lastFmt d

/-- The format that times the switch line which has just ended. -/
def State.lineFmt (s : State) (d : Nat) (c : Change) : Fmt :=
  match s.runFmt d with
  | some f => f
  | none => match c.route with
    | some r => r.fmt
    | none => Fmt.zero

/-- The switch line that ends now began `lines × frame period` ago: an instant `x` (in ns, on a clock that now reads
`clock`) lies at or before its beginning (R202, R203). -/
def lineFrom (f : Fmt) (clock x : Nat) : Bool :=
  decide (framePeriod3 f.rate + 3 * x * linesOf f.raster ≤ 3 * clock * linesOf f.raster)

/-- R319: the transmitter's format follows the route format of a media output; a Fallow-format change ends. The new
source's payload ID goes out from its next line in the frame, which every raster has after its switch line (R204, R317). -/
def State.writeTxfmt (s : State) (d : Nat) (f : Fmt) : State :=
  if mediaDst d then
    let s : State := { s with mln := { s.mln with fallow := Tbl.del s.mln.fallow (d / 4) } }
    let s := s.wr (ML_TXFMT (d / 4)) (BitVec.ofNat 32 f.high)
    s.when (!s.bit (ML_STAT (d / 4)) ML_STAT_TXIDLE)
      (fun s => s.emit (.payloadId (d / 4) f.payloadIds (pidLines f.raster)))
  else s

/-- The tracks `d .. d + w - 1` change source at word slot `slot` of the cell in progress: what each read until then is
kept for the period's second read (R173). -/
def State.turnTracks (s : State) (d w slot : Nat) : State :=
  let reads := s.cellReads
  s.each (List.range w) (fun s i =>
    let old := (reads.find? (fun p => p.1 == d + i)).map Prod.snd
    s.setXpt { s.xpt with turns := Tbl.put s.xpt.turns (d + i) (old, slot) })

/-- The destination carries no route any more: its charges are released (R176, R142). -/
def State.removeRoute (s : State) (d : Nat) : State :=
  match s.route? d with
  | none => s.release (fun h => h == .route d)
  | some r =>
    let s := s.setXpt { s.xpt with
      routes := Tbl.del s.xpt.routes d
      lastFmt := Tbl.put s.xpt.lastFmt d r.fmt
      delivered := s.xpt.delivered.filter (fun e => !decide (d ≤ e.1 ∧ e.1 < d + r.width)) }
    let s : State := { s with fsa := { s.fsa with surfaces := Tbl.del s.fsa.surfaces d } }
    (s.release (fun h => h == .route d)).reviewSync r.src

/-- Sources whose synchroniser is charged on destination `d`: a lost entry no longer names them (R182). -/
def State.syncsOn (s : State) (d : Nat) : List Nat :=
  s.ten.allocs.filterMap (fun a => match a.holding with
    | .sync k x => if x = d then some k else none
    | _ => none)

/-- The parity errors of a stream's entries end when a change takes effect on it: those of its tracks, and those of the
tracks that the lost stream had beside them (R182, R177). -/
def State.clearPar (s : State) (d w : Nat) : State :=
  s.setXpt { s.xpt with rtpar := s.xpt.rtpar.filter (fun e =>
    !decide (d ≤ e.1 ∧ e.1 < d + w) && !decide (d ≤ e.2 ∧ e.2 < d + w)) }

/-- Charges held for a change become charges of the route at `d` (R145). -/
def State.claimCharge (s : State) (d : Nat) (h : Holding) (c : Charge) : State :=
  s.setAllocs ((s.ten.allocs.map (fun a => if a.holding = h then { a with holding := .route d, charge := c } else a)).filter
    (fun a => a.charge != Charge.zero))

/-- The surface of a writer after a route has taken effect on it (R206, R250). -/
def State.newSurface (s : State) (d : Nat) (f : Fmt) : State :=
  if !surfaceDst d then s
  else
    let x : Surface := match Tbl.find? s.fsa.surfaces d with
      | some x => if x.fmt.same f then x.blank else ⟨f, nextEpoch x.epoch, 0, [], 0, none⟩
      | none => ⟨f, nextEpoch (Tbl.getD s.fsa.surfEpochs d 0), 0, [], 0, none⟩
    { s with fsa := { s.fsa with surfaces := Tbl.put s.fsa.surfaces d x
                                 surfEpochs := Tbl.put s.fsa.surfEpochs d x.epoch } }

/-- The synchroniser of a change that takes effect: its tenant becomes the holder of a new one, or of one that only this
destination reads; else the charge is released and the holder stays (R241, R242). -/
def State.settleSync (s : State) (t d : Nat) (c : Change) : State :=
  match c.route, c.sync with
  | some r, some q =>
    match s.sync? r.src with
    | none => s.attachSync r.src t d q ((s.aligner r.src).mode != 2)
    | some _ =>
      if (s.readers r.src).all (fun e => e.1 == d) then
        let s := s.giveSync r.src t d q.units
        match s.sync? r.src with
        | some u => s.setSync r.src { u with rate := q.rate, own := q.own }
        | none => s
      else s
  | _, _ => s

/-- Unroute every other stream that the tracks `d .. d + w - 1` overlap (R177). -/
def State.clearOverlap (s : State) (d w : Nat) : State :=
  (s.xpt.routes.filter (fun e => e.1 != d && decide (e.1 < d + w ∧ d < e.1 + e.2.width))).foldl
    (fun s e => s.removeRoute e.1) s

/-- What keeps a routed source off its destination: its descriptor differs from the route format (R180), or its hop
count exceeds the lead (R238). -/
def State.misfit (s : State) (d : Nat) (r : Route) : Bool × Bool :=
  let differ : Bool := !(s.detected r.src).same r.fmt
  (differ, !differ && !fabricDst d && decide (s.leadOf d < (s.aligner r.src).hops))

/-- Fewer than 14 planes: every destination carries the Fallow raster (R193). -/
def State.noPlanes (s : State) : Bool := s.fld XPT_PLANE_STAT XPT_PLANE_STAT_PROT == 3

/-- Whether a destination carries the Fallow raster in the place of its source. -/
def State.fallowFor (s : State) (d : Nat) (r : Route) : Bool :=
  let m := s.misfit d r
  m.1 || m.2 || s.noPlanes

/-- A change takes effect at destination `d` from word slot `slot` with epoch `ep` (none: an immediate unroute keeps the
epoch); `h` names the charge held for it, `t` its tenant and `stale` the writes of an old surface epoch that arrive. Answers
true where the output goes through the format change sequence (R206, R207): a further change during one waits for its end
too. -/
def State.applyChange (s : State) (t d slot stale : Nat) (c : Change) (h : Holding) (ep : Option Nat) : State × Bool :=
  let old := s.runFmt d
  let running := (Tbl.find? s.xpt.seqs d).isSome
  let oldRoute := s.route? d
  let surf := Tbl.find? s.fsa.surfaces d
  let w := max (s.changeWidth d c) (match oldRoute with
    | some r => r.width
    | none => 1)
  let s := s.each (s.xpt.routes.filter (fun e => meets d w e.1 e.2.width)) (fun s e => s.turnTracks e.1 e.2.width slot)
  let s := s.turnTracks d w slot
  let s := s.each (s.xpt.routes.filter (fun e => meets d w e.1 e.2.width)) (fun s e => s.clearPar e.1 e.2.width)
  let s := s.clearPar d w
  let s := s.clearOverlap d (s.changeWidth d c)
  let s := match ep with
    | some e => s.setXpt { s.xpt with epochs := Tbl.put s.xpt.epochs d e }
    | none => s
  let lost := s.syncsOn d
  match c.route with
  | none =>
    let s := (s.removeRoute d).release (fun x => x == h)
    (s.each lost State.reviewSync, false)
  | some r =>
    let seq : Bool := !surfaceDst d && (running || (match old with
      | some f => !f.same r.fmt && !f.none
      | none => false))
    let s := s.release (fun x => x == .route d)
    let n := s.xpt.order + 1
    let s := s.setXpt { s.xpt with
      order := n
      routes := Tbl.put s.xpt.routes d { r with since := n }
      lastFmt := Tbl.put s.xpt.lastFmt d r.fmt
      delivered := s.xpt.delivered.filter (fun e => !decide (d + r.width ≤ e.1 ∧ e.1 < d + w)) }
    let s := s.claimCharge d h c.charge
    let s := s.settleSync t d c
    let s : State := { s with fsa := { s.fsa with surfaces := match surf with
      | some x => Tbl.put s.fsa.surfaces d x
      | none => s.fsa.surfaces } }
    let s := s.newSurface d r.fmt
    let s := s.when (match surf with
      | some x => !x.fmt.same r.fmt
      | none => false) (fun s => s.incBy FSA_EPDISC FSA_EPDISC_COUNT stale)
    let s := s.each ((oldRoute.map (fun r => r.src)).toList ++ lost) State.reviewSync
    let s := s.setXpt { s.xpt with
      routes := Tbl.put s.xpt.routes d { r with since := n, fallow := seq || s.fallowFor d r } }
    if seq then
      (s.setXpt { s.xpt with
        seqs := Tbl.put s.xpt.seqs d (match Tbl.find? s.xpt.seqs d with
          | some q => q
          | none => ⟨old.getD r.fmt, []⟩) }, true)
    else (s.writeTxfmt d r.fmt, false)

/-- RESULT of an immediate ROUTE that completes OK (R141). -/
def State.routeResult (s : State) (d : Nat) : Nat :=
  match s.route? d with
  | some r => match s.syncOf r.src with
    | some u => u.index
    | none => 0xFFFF
  | none => 0

/-- A command waits for the end of the format change sequence of destination `d` (R207). -/
def State.awaitSeq (s : State) (d id result epoch : Nat) : State :=
  match Tbl.find? s.xpt.seqs d with
  | some q => s.setXpt { s.xpt with seqs := Tbl.put s.xpt.seqs d { q with cmds := q.cmds ++ [(id, result, epoch)] } }
  | none => s

/-- An immediate change whose switch line began at least 2 µs after its dispatch takes effect (R200, R203). -/
def State.switchImmediate (s : State) (d line slot stale : Nat) : State :=
  match s.pend? d with
  | none => s
  | some p =>
    let f := s.lineFmt d p.change
    if !atSwitchLine f line || !lineFrom f s.now (p.at_ + 2000) then s
    else
      let s := s.setXpt { s.xpt with pending := Tbl.del s.xpt.pending d }
      let t := match s.inflightOf p.cmd with
        | some c => c.tenant
        | none => s.ownerOf 0 d
      let ep := match p.change.route with
        | some _ => some (nextEpoch (s.xptEpoch d))
        | none => none
      let x := s.applyChange t d slot stale p.change (.pending d) ep
      let s := x.1.tally s
      let res := s.routeResult d
      if x.2 then s.awaitSeq d p.cmd res (ep.getD 0) else s.complete p.cmd .ok res (ep.getD 0)

/-- R207: the first line of the first frame in the new format begins, and the commands of the sequence complete. DESIGN
CHOICE: where an UNROUTE has taken effect during the sequence, the output keeps the format it ran in as its last route
format, and the ROUTE completes OK here all the same (log entry 24). -/
def opFormatBoundary (d : Nat) (s : State) : State :=
  match Tbl.find? s.xpt.seqs d with
  | none => s
  | some q =>
    let s := s.setXpt { s.xpt with seqs := Tbl.del s.xpt.seqs d }
    let s := match s.route? d with
      | some r =>
        let s := s.setXpt { s.xpt with routes := Tbl.put s.xpt.routes d { r with fallow := s.fallowFor d r } }
        s.writeTxfmt d r.fmt
      | none => s.setXpt { s.xpt with lastFmt := Tbl.put s.xpt.lastFmt d q.old }
    s.each q.cmds (fun s x => s.complete x.1 .ok x.2.1 x.2.2)

/-! ## Destination frames (R180, R238, R250) -/

/-- A frame of a surface's writer begins; where the one before it began after the last change, its bytes `data` stand complete
in their buffer (R250). -/
def Surface.frame (x : Surface) (data : List Byte) : Surface :=
  let y := { x with frames := min 2 (x.frames + 1) }
  if x.frames = 0 then y else y.wrote data

/-- R180, R238, R250 at the start of a frame of destination `d`; `data` is what a surface writer made of the frame before. -/
def State.destFrame (s : State) (d : Nat) (data : List Byte) : State :=
  match s.route? d with
  | none => s
  | some r =>
    let whole : Bool := (List.range r.width).all (fun i => !s.lostEntry (d + i))
    let s : State := match (if whole then Tbl.find? s.fsa.surfaces d else none) with
      | some x => { s with fsa := { s.fsa with surfaces := Tbl.put s.fsa.surfaces d (x.frame data) } }
      | none => s
    if (Tbl.find? s.xpt.seqs d).isSome then s
    else
      let f := s.detected r.src
      let differ := (s.misfit d r).1
      let lead := (s.misfit d r).2
      let s := s.setXpt { s.xpt with
        routes := Tbl.put s.xpt.routes d { r with fallow := s.fallowFor d r, differ := differ, lead := lead } }
      let s := s.when lead (fun s => s.inc FSA_LEADMISS FSA_LEADMISS_COUNT)
      let s := s.when (lead && !r.lead) (fun s => s.raise 163)
      s.when (differ && !r.differ) (fun s =>
        (s.raise 150).event (s.routeOwner d r.width) 13 0x11 0 d (s.xptEpoch d) [f.high, 0, 0, 0])

/-! ## Cells (R166-R169, R173, R194) -/

/-- R167, R193: what becomes of a cell with `n` symbols in error while `e` positions are erased: 0 decoded, 1 not
decodable, 2 wrong without being detected. -/
def cellFate (e n : Nat) : Nat :=
  if 2 < e then 1 else if e = 2 then (if n = 0 then 0 else 2) else if e = 1 then (if n = 0 then 0 else 1)
  else if n ≤ 1 then 0 else 1

/-- The errors of a report that fall on symbols which a plane carries: an error value of 0 is none, and one of several at
a place counts. -/
def State.wrongAt (s : State) (l : List (Nat × Sym)) : List (Nat × Sym) :=
  (List.range 16).filterMap (fun p => (l.find? (fun x => x.1 == p && x.2 != 0)).bind
    (fun x => if s.planeAt p = 31 then none else some x))

/-- The positions marked erased (R191). -/
def State.erasedAt (s : State) : List Nat := (List.range 16).filter (fun p => s.planeAt p == 31)

/-- A free cell: with two erasures a further error is not detected (R193). -/
def State.freeCell (s : State) : BitVec 84 × State :=
  let a := s.freshWord
  let b := a.2.freshWord
  let c := b.2.freshWord
  (BitVec.ofNat 84 (a.1.toNat + 2 ^ 32 * b.1.toNat + 2 ^ 64 * c.1.toNat), c.2)

def State.deliver (s : State) (d : Nat) (cell : BitVec 84) : State :=
  s.setXpt { s.xpt with delivered := Tbl.putD s.xpt.delivered d cell 0 }

/-- The cell that the output stage decodes from the code word of source track `k` with the symbol errors `bad`, none where
it finds none (R167). -/
def State.decodeCell (s : State) (k : Nat) (bad : List (Nat × Sym)) : Option (BitVec 84) :=
  rsDecode (bad.foldl (fun w x => addSym w x.1 x.2) (Tbl.getD s.xpt.cells k 0)) s.erasedAt

/-- What a destination track decodes that reads source track `k`, or none (an unrouted one reads no cell). -/
def State.cellFrom (s : State) (k : Option Nat) (bad : List (Nat × Sym)) : Option (BitVec 84) :=
  match k with
  | some k => s.decodeCell k bad
  | none => some 0

/-- Destination track `d` reads source track `k`, and the old source's cell too while its route is changing (R169, R173);
`fate` as `cellFate` gives it (R193, R194). -/
def State.readCell (s : State) (fate : Nat) (bad : List (Nat × Sym)) (d : Nat) (k : Option Nat) : State :=
  if fate = 1 then s
  else if fate = 2 then s.freeCell.2.deliver d s.freeCell.1
  else
    match s.cellFrom k bad, Tbl.find? s.xpt.turns d with
    | some c, none => s.deliver d c
    | some c, some (old, slot) => s.deliver d (cellMix ((s.cellFrom old bad).getD 0) c slot)
    | none, _ => s

/-- The one wrong symbol of a cell is corrected and counted against its plane, a lower-numbered plane before a higher one
(R190, R195). -/
def State.countSymbols (s : State) (errs : List (Nat × List (Nat × Sym))) : State :=
  let hits := errs.filterMap (fun x => match s.wrongAt x.2 with
    | [p] => if s.cellReads.any (fun q => q.1 == x.1) then some (s.planeAt p.1) else none
    | _ => none)
  if s.erased ≠ 0 then s
  else s.each (List.range 17) (fun s n => s.each (hits.filter (· == n)) (fun s n => s.plerr n 1))

/-- The next cell of a source track: the words of its stream that leave its aligner, in its valid slots (R21, R166, R234); a track that carries no
stream takes none (R235). -/
def State.writeCell (s : State) (k : Nat) (words : List (BitVec 20)) : State :=
  let f := s.detectedAt k
  if f.none then s
  else
    let n := Tbl.getD s.xpt.slots k 0
    let p := s.alignWords k (words.take ((List.range 4).countP (fun i => slotValid f ((n + i) % 22))))
    let w := rsEncode (cellOf (fillSlots f 4 n p.1))
    let s := p.2
    s.setXpt { s.xpt with cells := Tbl.putD s.xpt.cells k w 0, slots := Tbl.putD s.xpt.slots k ((n + 4) % 22) 0 }

/-- One schedule period: a source track whose next cell is complete writes it, every other an empty one, and every routed
destination track reads its source's; a cell with more errors than the decoder can meet is replaced by the previous one.
DESIGN CHOICE: the cells of one period that cannot be decoded are one event on source 147, while each corrected symbol is
an event of its own (log entry 20). -/
def opSchedulePeriod (words : List (Nat × List (BitVec 20))) (errs : List (Nat × List (Nat × Sym))) (stale : Nat)
    (s : State) : State :=
  let e := s.erased
  let bad := fun (d : Nat) => s.wrongAt (((errs.find? (fun x => x.1 == d)).map Prod.snd).getD [])
  let fate := fun (d : Nat) => cellFate e (bad d).length
  let s := s.incBy XPT_EPDISC XPT_EPDISC_COUNT stale
  let s := s.setXpt { s.xpt with cells := [] }
  let s := s.each words (fun s c => s.writeCell c.1 c.2)
  let reads := s.cellReads.map (fun p => (p.1, some p.2))
    ++ (s.xpt.turns.filter (fun t => s.cellReads.all (fun p => p.1 != t.1))).map (fun t => (t.1, none))
  let s := s.setXpt { s.xpt with 
    delivered := s.xpt.delivered.filter (fun e => reads.any (fun p => p.1 == e.1))
    retimers := s.xpt.retimers.filter (fun e => reads.any (fun p => p.1 == e.1))
    leaving := [] }
  let lost := (reads.filter (fun p => fate p.1 == 1)).length
  let s := s.each reads (fun s p => (s.readCell (fate p.1) (bad p.1) p.1 p.2).retime p.1)
  let s := (s.setXpt { s.xpt with turns := [] }).countSymbols errs
  let s := s.incBy XPT_UNCORR XPT_UNCORR_COUNT lost
  s.when (lost != 0) (fun s => s.raise 147)

/-! ## The route table (R182, R197) -/

/-- R182: a parity error in one copy, or in both copies of an entry. -/
def opRtpar (d : Nat) (both : Bool) (s : State) : State :=
  if !both then s.inc XPT_RTFIX XPT_RTFIX_COUNT
  else
    -- the entry of a stream's first track holds the stream's record, and its other entries point to it (R172)
    let x := match s.streamAt d with
      | some (k, r) => if k = d then (d, (List.range r.width).map (d + ·)) else (k, [d])
      | none => (d, [d])
    let old := s
    let s := s.setXpt { s.xpt with
      rtpar := x.2.foldl (fun l k => if Tbl.has l k then l else Tbl.put l k x.1) s.xpt.rtpar
      delivered := s.xpt.delivered.filter (fun e => !x.2.contains e.1)
      routes := Tbl.del s.xpt.routes d }
    (s.tally old).raise 151

/-- WIDTH as R197 encodes it. -/
def widthCode (w : Nat) : Nat := if w = 1 then 0 else if w = 2 then 1 else if w = 4 then 2 else 3

/-- The change loaded into the pending fields of a track: an immediate one, or the entry of a committing salvo (R212). -/
def State.pendingAt (s : State) (d : Nat) : Option (Nat × Change) :=
  let cover := fun (k : Nat) (c : Change) => decide (k ≤ d ∧ d < k + s.changeWidth k c)
  match s.xpt.pending.find? (fun e => cover e.1 e.2.change) with
  | some e => some (e.1, e.2.change)
  | none => firstSome (fun (x : Nat × Salvo) =>
      if x.2.stage < 1 then none
      else firstSome (fun (e : SalvoEntry) => match e.item with
        | .route c => if cover e.key c then some (e.key, c) else none
        | .layer _ _ _ => none) x.2.entries) s.sal.slots

/-- The route-table entry of track `d` as it stands: source track, width, and whether FALLOW is set; none where it is
unrouted. A lost entry reads as routed with FALLOW and SRC 0 (R182). -/
def State.entryOf (s : State) (d : Nat) : Option (Nat × Nat × Bool) :=
  if s.lostEntry d then some (0, 1, true)
  else (s.streamAt d).map (fun x => (x.2.src + (d - x.1), x.2.width, x.2.fallow))

/-- XPT_RT_DATA of track `d` (R197). -/
def State.rtData (s : State) (d : Nat) : Word :=
  let now : Nat := match s.entryOf d with
    | some (k, w, f) => k + 2 ^ 12 * widthCode w + 2 ^ 14 + 2 ^ 15 * (if f then 1 else 0)
    | none => 0
  let pend : Nat := match s.pendingAt d with
    | none => 0
    | some (k, c) => match c.route with
      | some r => 2 ^ 16 * (r.src + (d - k)) + 2 ^ 28
      | none => 2 ^ 28 + 2 ^ 29
  BitVec.ofNat 32 (now + pend + 2 ^ 30 * (if s.trackHeld d (fun _ => true) then 1 else 0))

/-- The first track of the stream that covers `d`, or `d`. -/
def State.firstOf (s : State) (d : Nat) : Nat :=
  match s.streamAt d with
  | some x => x.1
  | none => d

def opRtIdx (v : Word) (s : State) : State :=
  let s := s.fieldWrite XPT_RT_IDX v
  let d := s.fld XPT_RT_IDX XPT_RT_IDX_DST
  (s.wr XPT_RT_DATA (s.rtData d)).setFld XPT_RT_EPOCH XPT_RT_EPOCH_EPOCH (s.xptEpoch (s.firstOf d))

def opSuIdx (v : Word) (s : State) : State :=
  let s := s.fieldWrite XPT_SU_IDX v
  s.setFld XPT_SU_DATA XPT_SU_DATA_FANOUT (s.fanout (s.fld XPT_SU_IDX XPT_SU_IDX_SRC))

def execRoute (t : Tenant) (r : CmdRing) (e : Entry) (s : State) : Host.Outcome State Fault Refusal :=
  done s (s.command 0x01 t.val r.val e (routeBody t.val e))
def execUnroute (t : Tenant) (r : CmdRing) (e : Entry) (s : State) : Host.Outcome State Fault Refusal :=
  done s (s.command 0x02 t.val r.val e (unrouteBody t.val e))
def execFormatChangeBoundary (d : Track) (s : State) : Host.Outcome State Fault Refusal := done s (opFormatBoundary d.val s)
def execSchedulePeriod (words : List (Track × List (BitVec 20))) (errs : List (Track × List (Fin 16 × BitVec 6)))
    (stale : Nat) (s : State) : Host.Outcome State Fault Refusal :=
  done s (opSchedulePeriod (words.map (fun c => (c.1.val, c.2)))
    (errs.map (fun x => (x.1.val, x.2.map (fun y => (y.1.val, y.2))))) stale s)
def execXptRtpar (d : Track) (both : Bool) (s : State) : Host.Outcome State Fault Refusal := done s (opRtpar d.val both s)
def execXptRtIdx (v : Word) (s : State) : Host.Outcome State Fault Refusal := doneBar s (opRtIdx v s)
def execXptSuIdx (v : Word) (s : State) : Host.Outcome State Fault Refusal := doneBar s (opSuIdx v s)

end Sys2Proof.Machine
end

