-- ==== Sys2Proof/Machine/Units.lean ====
section
/-! DEFINITION. The units of self-test as the other chapters meet them: fencing and abandoned slices (R546-R551). -/

namespace Sys2Proof.Machine

open Sys2Proof

def State.unitOos (s : State) (u : Nat) : Bool := (s.rd (BST_OOS (u / 32))).toNat.testBit (u % 32)
def State.unitFailed (s : State) (u : Nat) : Bool := (s.rd (BST_FAILED (u / 32))).toNat.testBit (u % 32)

/-- A full test of the unit is running. -/
def State.fullTesting (s : State) (u : Nat) : Bool :=
  match Tbl.find? s.bst.waits u with
  | some w => w.full
  | none => false

/-- R548: out of service, failed, or under a full test. -/
def State.fenced (s : State) (u : Nat) : Bool := s.unitOos u || s.unitFailed u || s.fullTesting u

def State.setBst (s : State) (b : Bst) : State := { s with bst := b }

/-- R551: work arrives for a unit during one of its slices. -/
def State.abandonSlice (s : State) (u : Nat) : State :=
  if s.bst.slicing.contains u then
    let s := s.setBst { s.bst with
      slicing := s.bst.slicing.filter (· != u), slices := Tbl.del s.bst.slices u }
    (s.inc BST_ABANDON BST_ABANDON_COUNT).raise 408
  else s

/-- Unit codes (R546). -/
def unitEngine (e : Nat) : Nat := 0x20 + e
def unitMlg (g : Nat) : Nat := 0x30 + g
def unitFlg (f : Nat) : Nat := 0x40 + f
def unitMac (i : Nat) : Nat := 0x50 + i

/-- R488: a gated clock domain starts when something uses it; `b` is its bit in PWR_DOMSTAT. -/
def State.startDomain (s : State) (b : Nat) : State := s.setBit PWR_DOMSTAT ⟨b, 1⟩ true

def domMlg (g : Nat) : Nat := g
def domFlg (f : Nat) : Nat := 16 + f
def domCmp (k : Nat) : Nat := 20 + k
def domAudm (n : Nat) : Nat := 24 + n

end Sys2Proof.Machine
end

