-- ==== Sys2Proof/Machine/Compositor.lean ====
section
/-! DEFINITION. The compositor's commands: canvases, layers, stills and captures, signature regions and the engine and
canvas windows (R149-R152, R157, R165, R264-R296). -/

namespace Sys2Proof.Machine

open Sys2Proof

def State.setCmp (s : State) (c : Cmp) : State := { s with cmp := c }

/-- A frame-rate code of R26. -/
def rateOk (r : Nat) : Bool := decide (1 ≤ r ∧ r ≤ 8)

/-- Canvases that canvas `c` reads, by its planned and staged layers. -/
def State.canvasReads (s : State) (c : Nat) : List Nat :=
  (List.range 32).flatMap (fun i =>
    ((((s.canvas c).plannedLayer i).toList ++ s.stagedLayers c i).filter (fun l => l.kind == 2)).map (fun l => l.idx))

/-- The canvases that read canvas `c`. -/
def State.canvasReaders (s : State) (c : Nat) : List Nat :=
  (s.cmp.canvases.map Prod.fst).filter (fun m => m != c && (s.canvasReads m).contains c)

/-- The change charges a canvas anew to the tenant that makes it. DEDUCED: a definition does; a change of a layer or slice adds
to the charge where it stands, so one that a revocation moved to TN0 stays there until the new owner defines the canvas (R123,
R124, R268; log entry 22). -/
def CanvasOp.defines : CanvasOp → Bool
  | .define _ => true
  | _ => false

/-- A dispatched change of tenant `t` waits for its canvas frame; the canvas is charged as it will be, and so are those that
read it, since its sampling gives what they read (R268). -/
def State.plan (s : State) (t c : Nat) (op : CanvasOp) (id : Nat) : State :=
  let x := s.canvas c
  let s := (s.setCanvas c { x with pend := x.pend ++ [⟨op, id, s.now, false, none, none, 0⟩] }).rechargeTo c
    (if op.defines then some t else none)
  if op.defines then s.each (s.canvasReaders c) State.recharge else s

/-- A canvas that reads canvas `c` would take its tenant's MEMBW, or the total, over its limit in state `s`, and more than in the
state `s0` before (R268). -/
def State.readersOver (s s0 : State) (c : Nat) : Bool :=
  (s.canvasReaders c).any (fun m => match s0.allocOf (.canvas m), s.allocOf (.canvas m) with
    | some a, some b => decide (a.charge.membw < b.charge.membw)
      && (decide (s.rsv b.owner 2 < s.use b.owner 2) || decide (s.cap 2 < s.totalUse 2))
    | _, _ => false)

/-- R128: the first compositor limit that the state after a change reaches for canvas `c`, judged against the state `s0` before
it: for a definition by tenant `t` the load and every budget (R269), for a layer or slice the load and the MEMBW of the tenant
that is charged (R275, R290). -/
def State.canvasOver (s0 : State) (t c : Nat) (whole : Bool) (s : State) : Option Nat :=
  match (s.canvas c).charged with
  | none => none
  | some d =>
    let q := s.canvasCharge c d
    let mine : Alloc → Bool := fun a => a.holding == .canvas c
    if 24000 < s.engineLoad d.engine then some 9
    else if whole then (if s.readersOver s0 c then some 2 else s0.overBudget t q mine)
    else
      let own := match s0.allocOf (.canvas c) with
        | some a => a.owner
        | none => t
      s0.overBudget own ⟨0, 0, q.membw, 0, 0⟩ mine

/-! ## CANVAS_DEF (R149, R269, R272) -/

def canvasFields : List (Nat × Nat × Nat) :=
  [(8, 0, 6), (9, 0, 4), (9, 7, 1), (10, 0, 16), (12, 0, 16), (14, 0, 8), (15, 0, 2), (15, 2, 1), (15, 4, 2),
   (16, 0, 30), (24, 0, 64)]

def canvasDefOf (e : Entry) : CanvasDef :=
  ⟨bitsAt e 9 0 4, bitsAt e 10 0 16, bitsAt e 12 0 16, bitsAt e 14 0 8, bitsAt e 15 0 2, bitsAt e 15 2 1,
   bitsAt e 15 4 2, bitsAt e 16 0 30, fmtOf (bitsAt e 24 0 64)⟩

/-- REJ_FORMAT conditions of R149 and R269. -/
def canvasFormatBad (c : Nat) (d : CanvasDef) : Bool :=
  d.width == 0 || d.height == 0 || d.width % 32 != 0 || d.height % 8 != 0 || decide (16384 < d.width)
    || decide (8192 < d.height) || !rateOk d.rate || d.transfer == 3 || d.bgmode == 3
    || (d.out.bits != 0 &&
      (!d.out.valid || routeRaster d.out != (d.width, d.height) || d.out.rate != d.rate || d.out.transfer != d.transfer
        || d.out.colour != d.colour || d.out.raster == 1 || d.out.raster == 2
        || (d.out.raster == 8 && c % 4 != 0)))

def State.canvasDefined (s : State) (c : Nat) : Bool := (s.canvas c).planned.isSome

/-- Canvas `c` is one of the three taken by a RASTER 0x08 canvas (R34, R269). -/
def State.canvasTaken (s : State) (c : Nat) : Bool :=
  c % 4 != 0 && (match (s.canvas (c / 4 * 4)).planned with
    | some d => d.out.raster == 8
    | none => false)

/-- A MIGRATE of the canvas is in progress. -/
def State.canvasMigrating (s : State) (c : Nat) : Bool := (s.migOf 0 c).isSome

def canvasDefBody (t : Nat) (e : Entry) (id : Nat) (s : State) : State :=
  let c := bitsAt e 8 0 6
  let del : Bool := bitsAt e 9 7 1 == 1
  let d := canvasDefOf e
  let big : Bool := d.out.raster == 8
  let old := (s.canvas c).planned
  let next := s.plan t c (.define d) id
  let excess := s.canvasOver t c true next
  let otherEngine : Bool := match old with
    | some x => x.engine != d.engine
    | none => false
  s.checked id
    [ (!onlyFields e canvasFields, .rejFormat, 0),
      (!del && canvasFormatBad c d, .rejFormat, 0),
      (d.out.bits != 0 && !d.out.valid, .rejFormat, 0),
      (!del && otherEngine, .rejFormat, 0),
      (!s.ownsAll t 1 c (if !del && big then 4 else 1), .rejOwner, 0),
      (s.canvasMigrating c || s.canvasHeld c, .rejLocked, 0),
      (!del && s.fenced (unitEngine d.engine), .rejCapacity, 11),
      (!del && (s.canvasTaken c || (big && (List.range 3).any (fun i => s.canvasDefined (c + 1 + i)))), .rejCapacity, 5),
      (!del && excess.isSome, .rejCapacity, excess.getD 0),
      s.standbyBusy ]
    (fun s =>
      if del then (if old.isNone then s.complete id .ok 0 (s.canvas c).epoch else s.plan t c .delete id)
      else ((s.abandonSlice (unitEngine d.engine)).startDomain (domCmp (d.engine / 4))).plan t c (.define d) id)

/-! ## LAYER_SET (R150, R275, R280) -/

def layerFields : List (Nat × Nat × Nat) :=
  [(8, 0, 6), (9, 0, 5), (10, 0, 2), (10, 7, 1), (11, 0, 1), (11, 4, 2), (12, 0, 12), (16, 0, 64), (24, 0, 64),
   (32, 0, 10), (34, 0, 2)]

def rectOf (e : Entry) (b : Nat) (sgn : Bool) : Rect :=
  let x := bitsAt e b 0 16
  let y := bitsAt e (b + 2) 0 16
  ⟨if sgn then signed 16 x else x, if sgn then signed 16 y else y, bitsAt e (b + 4) 0 16, bitsAt e (b + 6) 0 16⟩

def layerOf (e : Entry) : LayerDef :=
  ⟨bitsAt e 11 4 2, bitsAt e 12 0 12, rectOf e 16 false, rectOf e 24 true, bitsAt e 32 0 10, bitsAt e 34 0 2,
   BitVec.ofNat 448 (bitsAt e 8 0 448)⟩

/-- The size that bounds CROP (R275), none where the source does not exist. -/
def State.layerSize (s : State) (l : LayerDef) : Option (Nat × Nat) :=
  if l.kind = 0 then
    (if l.idx < 3840 then none
     else match s.streamAt l.idx with
      | some x => if x.1 = l.idx then some (16384, 8192) else none
      | none => some (16384, 8192))
  else if l.kind = 1 then (Tbl.find? s.cmp.stills l.idx).map (fun t => (t.width, t.height))
  else if l.kind = 2 then
    (if l.idx < 64 then (s.canvas l.idx).planned.map (fun d => (d.width, d.height)) else none)
  else none

/-- Depth of the chain that canvas `c` ends, counted to `fuel` (R271). -/
def State.chainDepth (s : State) : Nat → Nat → Nat
  | 0, _ => 0
  | n + 1, c => 1 + (s.canvasReads c).foldl (fun m k => max m (s.chainDepth n k)) 0

/-- Canvas `c` is read by `m`, directly or through others. -/
def State.canReach (s : State) (m c : Nat) : Bool :=
  ((List.range 64).foldl (fun l _ => (l ++ l.flatMap s.canvasReads).eraseDups) [m]).contains c

/-- REJ_FORMAT conditions of R150 and R275 on an enabled layer of canvas `c`. -/
def State.layerFormatBad (s : State) (c : Nat) (l : LayerDef) : Bool :=
  l.kind == 3 || l.key == 3 || (l.key == 2 && l.kind != 2)
    || l.crop.w == 0 || l.crop.h == 0 || l.place.w == 0 || l.place.h == 0
    || (match s.layerSize l with
      | none => true
      | some (w, h) => decide ((w : Int) < l.crop.x + l.crop.w) || decide ((h : Int) < l.crop.y + l.crop.h))
    || decide (8 * l.place.w < l.crop.w) || decide (32 * l.crop.w < l.place.w)
    || decide (8 * l.place.h < l.crop.h) || decide (32 * l.crop.h < l.place.h)
    || (l.kind == 2 && s.canReach l.idx c)

/-- Enabled layers of the device, as planned or staged (R38). -/
def State.layerCount (s : State) : Nat :=
  (List.range 64).foldl (fun n c => n + ((List.range 32).filter (fun i =>
    ((s.canvas c).plannedLayer i).isSome || !(s.stagedLayers c i).isEmpty)).length) 0

/-- A layer reads a still that the tenant does not own, or a canvas. -/
def State.layerSourceOwned (s : State) (t : Nat) (l : LayerDef) : Bool :=
  if l.kind = 1 then s.ownerOf 8 l.idx == t else if l.kind = 2 then s.ownerOf 1 l.idx == t else true

def layerBody (t : Nat) (e : Entry) (id : Nat) (s : State) : State :=
  let c := bitsAt e 8 0 6
  let i := bitsAt e 9 0 5
  let st : Bool := bitsAt e 10 7 1 == 1
  let k := bitsAt e 10 0 2
  let on : Bool := bitsAt e 11 0 1 == 1
  let l := layerOf e
  let new : Option LayerDef := if on then some l else none
  let key := 4096 + 32 * c + i
  let staged := s.stage t k key (.layer c i new)
  let next := if st then staged.1 else s.plan t c (.layer i new) id
  let excess := s.canvasOver t c false next
  s.checked id
    [ (!onlyFields e layerFields, .rejFormat, 0),
      (!s.canvasDefined c, .rejFormat, 0),
      (on && s.layerFormatBad c l, .rejFormat, 0),
      (s.ownerOf 1 c != t || (on && !s.layerSourceOwned t l), .rejOwner, 0),
      (s.canvasMigrating c, .rejLocked, 0),
      (s.layerHeld c i (fun x => !(st && x == 4 * t + k)), .rejLocked, 0),
      (st && s.slotFull t k key, .rejCapacity, 5),
      (on && decide (1024 < next.layerCount), .rejCapacity, 5),
      (on && (List.range 64).any (fun m => decide (4 < next.chainDepth 6 m)), .rejCapacity, 5),
      (on && excess.isSome, .rejCapacity, excess.getD 0),
      (st && !s.slotOpen t k, .busy, 0),
      s.standbyBusy ]
    (fun s =>
      if st then
        let p := s.stage t k key (.layer c i new)
        (p.1.recharge c).complete id .ok p.2 0
      else if !on ∧ ((s.canvas c).plannedLayer i).isNone then s.complete id .ok 0 0
      else s.plan t c (.layer i new) id)

/-! ## Stills (R152, R249, R259, R288) -/

def stillFields : List (Nat × Nat × Nat) :=
  [(8, 0, 12), (10, 0, 16), (12, 0, 16), (14, 0, 2), (14, 2, 2), (14, 4, 1), (14, 5, 1), (16, 0, 64), (24, 0, 32)]

def Still.size (x : Still) : Nat := planeSize x.width x.height (tileRaw x.sampling)

def Still.charge (x : Still) : Charge := ⟨0, 0, 0, 0, ceilDiv x.size mib⟩

/-- A layer in effect shows the still (R152). -/
def State.stillShown (s : State) (n : Nat) : Bool :=
  s.cmp.canvases.any (fun c => c.2.layers.any (fun l => l.2.kind == 1 && l.2.idx == n))

/-- An enabled region holds the still as its safe still (R288). -/
def State.stillSafe (s : State) (n : Nat) : Bool :=
  (List.range 256).any (fun r => s.bit (CMP_SRW_CFG r) CMP_SR_CFG_EN && s.fld (CMP_SRW_STILL r) CMP_SR_STILL_STILL == n)

def stillLoadBody (t : Nat) (e : Entry) (id : Nat) (s : State) : State :=
  let n := bitsAt e 8 0 12
  let x : Still := ⟨bitsAt e 10 0 16, bitsAt e 12 0 16, bitsAt e 14 0 2, bitsAt e 14 2 2, bitsAt e 14 4 1, []⟩
  let excess := s.overBudget t x.charge (fun _ => false)
  s.checked id
    [ (!onlyFields e stillFields, .rejFormat, 0),
      (x.transfer == 3 || x.width == 0 || x.height == 0, .rejFormat, 0),
      (s.ownerOf 8 n != t, .rejOwner, 0),
      (!hostOk (bitsAt e 16 0 64) (bitsAt e 24 0 32), .misaligned, 0),
      (s.stillShown n || s.stillSafe n, .rejLocked, 0),
      (excess.isSome, .rejCapacity, excess.getD 0),
      (Tbl.has s.cmp.loads n, .busy, 0),
      s.standbyBusy ]
    (fun s =>
      (s.alloc t (.stillLoad n) x.charge).setCmp { s.cmp with
        loads := Tbl.put s.cmp.loads n ⟨x, bitsAt e 14 5 1 == 1, id, bitsAt e 16 0 64, bitsAt e 24 0 32⟩ })

/-- A directory byte gives a LEN above the raw tile size (R259). -/
def dirBad (sampling : Nat) (dir : List Byte) : Bool := dir.any (fun b => decide (tileRaw sampling / 64 < b.toNat % 32))

/-- The surface that a still's host data makes: coded data as it stands, other data coded tile by tile (R254, R258; log
entry 26). -/
def StillLoad.surface (x : StillLoad) (data : List Byte) : List Byte :=
  let w := x.still.width
  let h := x.still.height
  let k := x.still.sampling
  if x.coded then padTo x.still.size data
  else planeBytes w h k true ((List.range (tilesOf w h)).map (fun t =>
    sedgeReadRaw (sedgeBits k) (sedgeWidths k) (unpackBits (padTo (tileRaw k) (surfaceTile data w h k t).2))))

/-- R104: `n` bytes more have moved on channel `ch`. -/
def State.countBytes (s : State) (ch n : Nat) : State :=
  s.wr (HIF_DMA_BYTES ch) (s.rd (HIF_DMA_BYTES ch) + BitVec.ofNat 32 n)

/-- The command channel of a command moves `n` bytes more (R94, R104). -/
def State.countCommand (s : State) (id n : Nat) : State :=
  match s.inflightOf id with
  | some c => match c.channel with
    | some ch => s.countBytes ch n
    | none => s
  | none => s

/-- R152, R259: the transfer of STILL_LOAD has ended. -/
def opStillStored (n : Nat) (data : List Byte) (s : State) : State :=
  match Tbl.find? s.cmp.loads n with
  | none => s
  | some x =>
    let s := s.countCommand x.cmd x.len
    let s := s.setCmp { s.cmp with loads := Tbl.del s.cmp.loads n }
    if x.coded && dirBad x.still.sampling (data.take (tilesOf x.still.width x.still.height)) then
      (s.release (fun h => h == .stillLoad n)).complete x.cmd .rejFormat 0 0
    else
      let s := s.release (fun h => h == .still n)
      let s := s.setAllocs (s.ten.allocs.map (fun a => if a.holding = .stillLoad n then { a with holding := .still n } else a))
      let s := s.setCmp { s.cmp with stills := Tbl.put s.cmp.stills n { x.still with data := x.surface data } }
      let s := s.mirror (.still ⟨n % 4096, Nat.mod_lt _ (by decide)⟩ (BitVec.ofNat 16 x.still.width)
        (BitVec.ofNat 16 x.still.height) (BitVec.ofNat 2 x.still.sampling) (BitVec.ofNat 2 x.still.transfer)
        (x.still.colour == 1) (x.surface data))
      s.complete x.cmd .ok (ceilDiv x.still.size 1024) 0

/-! ## CRC-32C (R286) -/

/-- One step of the CRC-32C of R286 over the low bit. -/
def crcBit (x : Nat) : Nat := if x % 2 = 1 then (x / 2) ^^^ 0x82F63B78 else x / 2

def crcByte (x b : Nat) : Nat := (List.range 8).foldl (fun y _ => crcBit y) (x ^^^ (b % 256))

/-- A byte string into the register. -/
def crcBytes : List Nat → Nat → Nat
  | [], x => x
  | b :: l, x => withNat (crcByte x b) (crcBytes l)

/-- CRC-32C of a byte string (R286). -/
def crc32c (l : List Nat) : Nat := crcBytes l 0xFFFFFFFF ^^^ 0xFFFFFFFF

/-! ## FRAME_GRAB (R157, R165) -/

def grabFields : List (Nat × Nat × Nat) :=
  [(8, 0, 12), (10, 0, 1), (10, 1, 1), (11, 0, 1), (12, 0, 16), (16, 0, 64), (24, 0, 32)]

/-- Size of one uncoded frame and its format, none where the source carries none. DESIGN CHOICE: a source track of RASTER
0x08 counts as the one 3,840 x 2,160 stream it carries, and a canvas without OUTFMT has the descriptor of zeros (log
entry 26). -/
def State.grabSource (s : State) (canvas : Bool) (i : Nat) : Option (Nat × Fmt) :=
  if canvas then
    (if i < 64 then (s.canvas i).now.map (fun d => (planeSize d.width d.height (tileRaw d.sampling), d.out)) else none)
  else
    let f := s.detectedAt i
    if f.none then none else some (planeSize (rasterSize f.raster).1 (rasterSize f.raster).2 (tileRaw f.sampling), f)

def frameGrabBody (t : Nat) (e : Entry) (id : Nat) (s : State) : State :=
  let i := bitsAt e 8 0 12
  let canvas : Bool := bitsAt e 10 0 1 == 1
  let count := bitsAt e 12 0 16
  let src := s.grabSource canvas i
  s.checked id
    [ (!onlyFields e grabFields, .rejFormat, 0),
      (count == 0 || src.isNone, .rejFormat, 0),
      (canvas && s.ownerOf 1 i != t, .rejOwner, 0),
      (!hostOk (bitsAt e 16 0 64) (bitsAt e 24 0 32), .misaligned, 0),
      (decide (bitsAt e 24 0 32 < count * (src.getD (0, Fmt.zero)).1), .rejCapacity, 10),
      (!s.ringOn t (14 + bitsAt e 11 0 1), .busy, 0) ]
    (fun s =>
      match s.inflightOf id with
      | some c => match c.channel with
        | some ch =>
          let g : Grab := ⟨id, t, 14 + bitsAt e 11 0 1, tagOf e, bitsAt e 10 1 1 == 1, count, 0, bitsAt e 16 0 64,
            canvas, i, (src.getD (0, Fmt.zero)).2, s.eventTb, none⟩
          s.setCmp { s.cmp with grabs := Tbl.put s.cmp.grabs ch g }
        | none => s
      | none => s)

/-- Write a capture entry, or drop it on a full or disabled ring. -/
def State.capture (s : State) (t r : Nat) (c : Capture) : State :=
  s.writeCapture t r c (fun s => s.raise 322)

/-- The descriptor of the frame that a grab has captured (R165). -/
def State.grabFmt (s : State) (g : Grab) : BitVec 64 := ((s.grabSource g.canvas g.src).getD (0, Fmt.zero)).2.bits

/-- The tiles of a plane `w` by `h`, given its samples in raster order at their components' widths (R254, R256). -/
def tilesFrom (w h sampling : Nat) (comps : List (List Nat)) : List (List (List Nat)) :=
  (List.range (tilesOf w h)).map (fun t =>
    (sedgeComps sampling comps).map (fun c =>
      let pw := w * c.1 / 32
      sedgeTile c.1 (t % ceilDiv w 32) (t / ceilDiv w 32) pw h (fun x y => c.2.getD (y * pw + x) 0)))

/-- The colour plane of a frame, then its alpha plane, as they stand in a buffer of its canvas (R267). -/
def Pic.colourPlane (p : Pic) (coded : Bool) : List Byte :=
  planeBytes p.width p.height p.sampling coded (tilesFrom p.width p.height p.sampling p.comps)
def Pic.buffer (p : Pic) : List Byte :=
  p.colourPlane true ++ planeBytes p.width p.height alphaPlane true (tilesFrom p.width p.height alphaPlane [p.alpha])

/-- CRC-32C over bytes (R165, R286). -/
def crcOf (l : List Byte) : Word := BitVec.ofNat 32 (crc32c (l.map BitVec.toNat))

/-- R165: a frame has been written to the host, `ago` ns after its first active line began: of a canvas its newest complete
frame, of a source track the bytes `data`. -/
def opFrameCaptured (ch : Nat) (data : List Byte) (ago : Nat) (s : State) : State :=
  match Tbl.find? s.cmp.grabs ch with
  | none => s
  | some g =>
    if g.owed.isSome then s else
    let last : Bool := decide (g.left ≤ 1)
    let bytes := if g.canvas then (match (s.canvas g.src).shown with
      | some p => p.pic.colourPlane g.coded
      | none => data) else data
    let s := (s.emit (.hostWrite g.buffer bytes)).countBytes ch bytes.length
    let c : Capture := ⟨g.tag, g.frame, .ok, g.coded, last, g.buffer, bytes.length, (s.fullTime g.tb - ago) % 2 ^ 32, g.tb,
      s.grabFmt g, crcOf bytes, false⟩
    if s.captureSpace g.tenant g.ring then s.grabEntry ch g c
    else s.setCmp { s.cmp with grabs := Tbl.put s.cmp.grabs ch { g with owed := some c } }

/-- R107: the command channel's command ends; a capture is told the code that ends it (R165), a still is not stored. -/
def State.failChannel (s : State) (ch : Nat) (st : Status) : State :=
  match s.hif.inflight.find? (fun c => c.channel == some ch) with
  | none => s
  | some c =>
    let s := match Tbl.find? s.cmp.grabs ch with
      | some g =>
        (s.setCmp { s.cmp with grabs := Tbl.del s.cmp.grabs ch }).capture g.tenant g.ring
          ⟨g.tag, g.frame, st, g.coded, true, g.buffer, 0, s.stamp g.tb, g.tb, g.fmt.bits, 0, false⟩
      | none => s
    let s := match s.cmp.loads.find? (fun x => x.2.cmd == c.id) with
      | some x => (s.setCmp { s.cmp with loads := Tbl.del s.cmp.loads x.1 }).release (fun h => h == Holding.stillLoad x.1)
      | none => s
    s.complete c.id st 0 0

/-! ## Signature regions (R285-R288) -/

def Region.idle : Region := ⟨0, none, false, false⟩
def State.region (s : State) (r : Nat) : Region := Tbl.getD s.cmp.regions r Region.idle
def State.setRegion (s : State) (r : Nat) (x : Region) : State :=
  s.setCmp { s.cmp with regions := Tbl.putD s.cmp.regions r x Region.idle }

def State.srState (s : State) (r : Nat) : Nat := s.fld (CMP_SRW_STAT r) CMP_SR_STAT_STATE
def State.srRun (s : State) (r : Nat) : Nat := s.fld (CMP_SRW_STAT r) CMP_SR_STAT_RUN
def State.srSet (s : State) (r st run : Nat) : State :=
  (s.setFld (CMP_SRW_STAT r) CMP_SR_STAT_STATE st).setFld (CMP_SRW_STAT r) CMP_SR_STAT_RUN (min 255 run)

/-- The signature of a region's samples, each as a 16-bit little-endian word (R286). -/
def signature (l : List Nat) : Nat := crc32c (l.flatMap (fun x => [x % 256, x / 256 % 256]))

/-- An event for the canvas owner and for TN0 (R164, R287). -/
def State.tellOwner (s : State) (t r type kind obj epoch : Nat) (data : List Nat) : State :=
  let s := s.event t r type kind obj epoch data
  s.when (t != 0) (fun s => s.event 0 r type kind obj epoch data)

/-- SIGFAIL (R287). -/
def State.sigFail (s : State) (c r : Nat) (safe : Bool) : State :=
  s.tellOwner (s.ownerOf 1 c) 12 2 1 c (s.canvas c).epoch [r + (if safe then 2 ^ 31 else 0), 0, 0, 0]

/-- What a change of its canvas, a new configuration, CLEAR or a full run brings to a region at the next frame. -/
def State.regionBegin (s : State) (c r : Nat) : State :=
  let en := s.bit (CMP_SRW_CFG r) CMP_SR_CFG_EN
  let x := s.region r
  if !en then (s.srSet r 0 0).setRegion r { Region.idle with learn := x.learn }
  else
    let s := if s.srState r = 0 then s.srSet r 1 0 else s
    if x.arm then
      let s := (s.setRegion r { x with arm := false, passes := 0 }).srSet r 3 (s.srRun r)
      let s := (s.inc CMP_SUBST CMP_SUBST_COUNT).raise 194
      let s := s.sigFail c r true
      s.when (!Tbl.has s.cmp.stills (s.fld (CMP_SRW_STILL r) CMP_SR_STILL_STILL)) (fun s => s.promote 196)
    else if x.disarm then (s.setRegion r { x with disarm := false, passes := 0 }).srSet r 1 0
    else s

/-- Word `k` of a region's eight configuration words: CFG, POS, SIZE, STILL, EXP0-EXP3 (R294). -/
def cfgWord (l : List Word) (k : Nat) : Word := l.getD k 0

/-- R287: the verdict on an accepted frame with signature `crc`, under the configuration `cfg` with which it was composed: one
written since acts from the next C(N) (R288). -/
def State.regionJudge (s : State) (c r crc : Nat) (cfg : List Word) : State :=
  let n := min 4 (CMP_SR_STILL_EXPN.get (cfgWord cfg 3))
  let pass : Bool := n == 0 || (List.range n).any (fun k => (cfgWord cfg (4 + k)).toNat == crc)
  let st := s.srState r
  let x := s.region r
  let s := s.wr (CMP_SRW_CRC r) (BitVec.ofNat 32 crc)
  let s := match x.learn with
    | some k => (s.wr (CMP_SRW_EXP r k) (BitVec.ofNat 32 crc)).setRegion r { x with learn := none }
    | none => s
  let x := s.region r
  if pass then
    if st = 3 then
      let restore := CMP_SR_CFG_RESTORE.get (cfgWord cfg 0)
      let p := x.passes + 1
      if restore ≠ 0 ∧ restore ≤ p then (s.setRegion r { x with passes := 0 }).srSet r 1 0
      else (s.setRegion r { x with passes := p }).srSet r 3 0
    else s.srSet r 1 0
  else
    let run := s.srRun r + 1
    let s := s.inc CMP_SIGMISS CMP_SIGMISS_COUNT
    if st = 3 then (s.setRegion r { x with passes := 0 }).srSet r 3 run
    else
      let s := s.srSet r 2 run
      let s := s.when (st == 1) (fun s => (s.sigFail c r false).raise 193)
      s.when (decide (max 1 (CMP_SR_CFG_MISS.get (cfgWord cfg 0)) ≤ run)) (fun s => s.setRegion r { x with arm := true })

/-- Regions of canvas `c` that are enabled or still run. -/
def State.regionsOf (s : State) (c : Nat) : List Nat :=
  (List.range 256).filter (fun r => s.fld (CMP_SRW_CFG r) CMP_SR_CFG_CANVAS == c
    && (s.bit (CMP_SRW_CFG r) CMP_SR_CFG_EN || s.srState r != 0))

/-- What C(N) brings to the regions of canvas `c`. -/
def State.regionsBegin (s : State) (c : Nat) : State := s.each (s.regionsOf c) (fun s r => s.regionBegin c r)

/-- The verdicts on the frame that the canvas writer accepts, given its regions' signatures (R285, R287). -/
def State.regionsJudge (s : State) (c : Nat) (sigs : List (Nat × Nat × List Word)) : State :=
  s.each sigs (fun s x => s.regionJudge c x.1 x.2.1 x.2.2)

/-- R288: the canvas is gone, or the region falls outside it. -/
def State.loseRegions (s : State) (c : Nat) (size : Option (Nat × Nat)) : State :=
  s.each ((List.range 256).filter (fun r => s.fld (CMP_SRW_CFG r) CMP_SR_CFG_CANVAS == c
      && s.bit (CMP_SRW_CFG r) CMP_SR_CFG_EN && (match size with
        | none => true
        | some (w, h) =>
          decide (w < s.fld (CMP_SRW_POS r) CMP_SR_POS_X + s.fld (CMP_SRW_SIZE r) CMP_SR_SIZE_W)
            || decide (h < s.fld (CMP_SRW_POS r) CMP_SR_POS_Y + s.fld (CMP_SRW_SIZE r) CMP_SR_SIZE_H)))) (fun s r =>
    (((s.setBit (CMP_SRW_CFG r) CMP_SR_CFG_EN false).srSet r 0 0).setRegion r Region.idle).raise 195)

/-- The eight configuration words of a region: CFG, POS, SIZE, STILL, EXP0-EXP3 (R294). -/
def srWord (r k : Nat) : Nat :=
  if k = 0 then CMP_SRW_CFG r else if k = 1 then CMP_SRW_POS r else if k = 2 then CMP_SRW_SIZE r
  else if k = 3 then CMP_SRW_STILL r else CMP_SRW_EXP r (k - 4)

/-- A configuration write to word `k` of region `r` (R288, R294). -/
def State.srWrite (s : State) (r k : Nat) (v : Word) : State :=
  let a := srWord r k
  if s.bit (CMP_SRW_CFG r) CMP_SR_CFG_LOCK then
    (let w := (writeFields false ((findReg a).elim [] (fun d => d.1.fields.map (fun f => (f.1, Access.rw)))) (s.rd a) v).1
     if w = s.rd a then s else s.raise 480)
  else
    let en := s.bit (CMP_SRW_CFG r) CMP_SR_CFG_EN
    let s := (s.fieldWrite a v).mirror (.register (BitVec.ofNat 26 a) v)
    s.when en (fun s => s.srSet r (if s.srState r = 2 then 1 else s.srState r) 0)

def State.srIdx (s : State) : Nat := s.fld CMP_SR_IDX CMP_SR_IDX_REGION

def opSrCfg (k : Nat) (v : Word) (s : State) : State := s.srWrite s.srIdx k v

/-- LEARN of region `r` (R288). -/
def State.srLearn (s : State) (r k : Nat) : State := s.setRegion r { s.region r with learn := some k }

/-- CLEAR of region `r`: substitution ends from the next frame (R287). -/
def State.srClear (s : State) (r : Nat) : State :=
  if s.srState r = 3 then s.setRegion r { s.region r with disarm := true } else s

/-! ## Windows and counters (R293, R295) -/

def opEnIdx (v : Word) (s : State) : State :=
  let s := s.fieldWrite CMP_EN_IDX v
  let e := s.fld CMP_EN_IDX CMP_EN_IDX_ENGINE
  let n := (s.cmp.canvases.filter (fun p => match p.2.charged with
    | some d => d.engine == e
    | none => false)).length
  (s.setFld CMP_EN_STAT CMP_EN_STAT_LOAD (s.engineLoad e)).setFld CMP_EN_STAT CMP_EN_STAT_CANVASES n

def opCvIdx (v : Word) (s : State) : State :=
  let s := s.fieldWrite CMP_CV_IDX v
  let c := s.fld CMP_CV_IDX CMP_CV_IDX_CANVAS
  let x := s.canvas c
  let q := match s.allocOf (.canvas c) with
    | some a => a.charge
    | none => Charge.zero
  let subst := (List.range 256).any (fun r => s.fld (CMP_SRW_CFG r) CMP_SR_CFG_CANVAS == c && s.srState r == 3)
  let s := s.setBit CMP_CV_STAT CMP_CV_STAT_DEFINED x.now.isSome
  let s := s.setFld CMP_CV_STAT CMP_CV_STAT_ENGINE (match x.now with
    | some d => d.engine
    | none => 0)
  let s := s.setBit CMP_CV_STAT CMP_CV_STAT_MIGRATING (s.canvasMigrating c)
  let s := s.setBit CMP_CV_STAT CMP_CV_STAT_SUBST subst
  let s := s.setFld CMP_CV_STAT CMP_CV_STAT_LAYERS x.layers.length
  let s := s.setFld CMP_CV_STAT CMP_CV_STAT_EPOCH x.epoch
  let s := s.setFld CMP_CV_LOAD CMP_CV_LOAD_PIX q.cmppix
  let s := s.setFld CMP_CV_LOAD CMP_CV_LOAD_MEMBW q.membw
  s.setFld CMP_CV_SURF CMP_CV_SURF_SURF q.surf

/-- R279: a layer-table entry fails parity. -/
def opLtpar (c i : Nat) (s : State) : State :=
  let x := s.canvas c
  let s := if Tbl.has x.layers i && !x.ltpar.contains i then s.setCanvas c { x with ltpar := x.ltpar ++ [i] } else s
  s.raise 198

def opCmpClrcnt (s : State) : State :=
  s.clearAll [CMP_EPDISC, CMP_OVERRUN, CMP_SIGMISS, CMP_SUBST, CMP_SLICELATE]

def execCanvasDef (t : Tenant) (r : CmdRing) (e : Entry) (s : State) : Host.Outcome State Fault Refusal :=
  done s (s.command 0x10 t.val r.val e (canvasDefBody t.val e))
def execLayerSet (t : Tenant) (r : CmdRing) (e : Entry) (s : State) : Host.Outcome State Fault Refusal :=
  done s (s.command 0x11 t.val r.val e (layerBody t.val e))
def execStillLoad (t : Tenant) (r : CmdRing) (e : Entry) (s : State) : Host.Outcome State Fault Refusal :=
  done s (s.command 0x13 t.val r.val e (stillLoadBody t.val e))
def execStillStored (n : Fin 4096) (data : List Byte) (s : State) : Host.Outcome State Fault Refusal :=
  done s (opStillStored n.val data s)
def execFrameGrab (t : Tenant) (r : CmdRing) (e : Entry) (s : State) : Host.Outcome State Fault Refusal :=
  done s (s.command 0x40 t.val r.val e (frameGrabBody t.val e))
def execFrameCaptured (ch : Fin 48) (data : List Byte) (ago : Word) (s : State) : Host.Outcome State Fault Refusal :=
  done s (opFrameCaptured ch.val data ago.toNat s)
def execCmpLtpar (c : Canvas) (i : Fin 32) (s : State) : Host.Outcome State Fault Refusal := done s (opLtpar c.val i.val s)
def execCmpSrCfgWrite (k : Fin 8) (v : Word) (s : State) : Host.Outcome State Fault Refusal := doneBar s (opSrCfg k.val v s)
def execLearn (k : Fin 4) (s : State) : Host.Outcome State Fault Refusal := doneBar s (s.srLearn s.srIdx k.val)
def execClear (s : State) : Host.Outcome State Fault Refusal := doneBar s (s.srClear s.srIdx)
def execCmpEnIdx (v : Word) (s : State) : Host.Outcome State Fault Refusal := doneBar s (opEnIdx v s)
def execCmpCvIdx (v : Word) (s : State) : Host.Outcome State Fault Refusal := doneBar s (opCvIdx v s)
def execCmpClrcnt (s : State) : Host.Outcome State Fault Refusal := doneBar s (opCmpClrcnt s)

end Sys2Proof.Machine
end

