-- ==== Sys2Proof/Machine/Picture.lean ====
section
/-! DEFINITION. The picture arithmetic of the compositor: codes and signals, up-sampling, matrices, transfers and the tone
map, the scaler, keys, alpha and blending, backgrounds and the canvas writer (R267, R274-R284). Signals are fixed-point
numbers with 32 bits below the point. The figures of the curves and matrices that the manual names without giving them,
and what it leaves open of the scaler and of chroma, are in log entry 50. -/

namespace Sys2Proof.Machine

open Sys2Proof

/-! ## Fixed-point arithmetic -/

/-- 1 in fixed point. -/
def fx : Nat := 4294967296

def fxMul (a b : Int) : Int := a * b / fx
def fxDiv (a b : Int) : Int := a * fx / b

/-- The nearest integer to `a / b` for positive `b`, upwards where two are as near. -/
def roundDiv (a b : Int) : Int := (2 * a + b) / (2 * b)

/-- The square root of a fixed-point number. -/
def fxSqrt (a : Nat) : Nat :=
  (List.range 34).foldl (fun r i => if (r + 2 ^ (33 - i)) ^ 2 ≤ a * fx then r + 2 ^ (33 - i) else r) 0

/-- `x` to the power `f / 2^n` below 1, by `n` square roots. -/
def fxRoot (x f : Nat) : Nat → Nat × Nat
  | 0 => (x, fx)
  | n + 1 =>
    let p := fxRoot x (f / 2) n
    let r := fxSqrt p.1
    (r, if f % 2 = 1 then p.2 * r / fx else p.2)

/-- `x` to a whole power. -/
def fxPow (x : Nat) : Nat → Nat
  | 0 => fx
  | n + 1 => fxPow x n * x / fx

/-- `x` to the power `k + f / 2^n`; a negative signal counts as 0. -/
def fxPower (x : Int) (k f n : Nat) : Int := ((fxPow x.toNat k * (fxRoot x.toNat f n).2 / fx : Nat) : Int)

/-- A signal clipped to 0-1 (R282). -/
def clip01 (v : Int) : Int := max 0 (min fx v)

/-! ## Codes and matrices (R274, R282) -/

/-- 12-bit codes are four times the 10-bit ones (R282). -/
def codeScale (bits : Nat) : Nat := if bits = 12 then 4 else 1

/-- The signal of a luma or RGB code: black at 64, white at 940 (R282). -/
def lumaSignal (bits : Nat) (c : Int) : Int := (c - 64 * codeScale bits) * fx / (876 * codeScale bits)

/-- The signal of a chroma code, zero at 512. -/
def chromaSignal (bits : Nat) (c : Int) : Int := (c - 512 * codeScale bits) * fx / (896 * codeScale bits)

/-- Codes in units of 2^-16 of a code, for a luma or RGB signal and for a chroma signal. -/
def lumaCode16 (bits : Nat) (v : Int) : Int := (64 * 65536 + v * (876 * 65536) / fx) * codeScale bits
def chromaCode16 (bits : Nat) (v : Int) : Int := (512 * 65536 + v * (896 * 65536) / fx) * codeScale bits

/-- Kr and Kb of a COLOUR, in 1/10,000 (log entry 50). -/
def matrixOf (colour : Nat) : Int × Int := if colour = 0 then (2126, 722) else (2627, 593)

/-- RGB from YCbCr signals (R282). -/
def toRgb (colour : Nat) (y cb cr : Int) : Int × Int × Int :=
  let k := matrixOf colour
  let r := y + 2 * (10000 - k.1) * cr / 10000
  let b := y + 2 * (10000 - k.2) * cb / 10000
  (r, (10000 * y - k.1 * r - k.2 * b) / (10000 - k.1 - k.2), b)

/-- Luma of an RGB signal. -/
def lumaOf (colour : Nat) (c : Int × Int × Int) : Int :=
  let k := matrixOf colour
  (k.1 * c.1 + (10000 - k.1 - k.2) * c.2.1 + k.2 * c.2.2) / 10000

/-- YCbCr from an RGB signal. -/
def toYcc (colour : Nat) (c : Int × Int × Int) : Int × Int × Int :=
  let k := matrixOf colour
  let y := lumaOf colour c
  (y, (c.2.2 - y) * 10000 / (2 * (10000 - k.2)), (c.1 - y) * 10000 / (2 * (10000 - k.1)))

/-- The lowest and highest code that the canvas writer gives (R274). -/
def codeMin (bits : Nat) : Int := if bits = 12 then 16 else 4
def codeMax (bits : Nat) : Int := if bits = 12 then 4079 else 1019

/-- R274: a sample rounded to the nearest code and clipped; `x` in units of 2^-16 of a code. -/
def writerCode (bits : Nat) (x : Int) : Nat := (max (codeMin bits) (min (codeMax bits) (roundDiv x 65536))).toNat

/-! ## Transfers and the tone map (R282, R283) -/

/-- REFWHITE, HLGPEAK and TMPEAK in cd/m², KNEE in 1/256, clamped (R293). -/
def State.refWhite (s : State) : Nat := max 100 (min 300 (s.fld CMP_TMREF CMP_TMREF_REFWHITE))
def State.hlgPeak (s : State) : Nat := max 400 (min 4000 (s.fld CMP_TMREF CMP_TMREF_HLGPEAK))
def State.tmPeak (s : State) : Nat := max 400 (min 10000 (s.fld CMP_TM CMP_TM_TMPEAK))
def State.kneeField (s : State) : Nat := max 128 (min 250 (s.fld CMP_TM CMP_TM_KNEE))

/-- R283: the tone map of `m` with knee `k` and peak `lw`. -/
def toneMap (k lw m : Int) : Int := if m ≤ k then m else k + fxDiv (fxMul (fx - k) (min m lw - k)) (lw - k)

/-- Apply a function to the three components. -/
def rgbMap (f : Int → Int) (c : Int × Int × Int) : Int × Int × Int := (f c.1, f c.2.1, f c.2.2)

/-- R283: all three components are scaled by m' / m, so the hue stays. -/
def toneMapRgb (k lw : Int) (c : Int × Int × Int) : Int × Int × Int :=
  let m := max c.1 (max c.2.1 c.2.2)
  if m ≤ 0 then c else rgbMap (fun v => v * toneMap k lw m / m) c

/-- ST 2084: light, as a part of 10,000 cd/m², of a signal, and back. -/
def pqEotf (v : Int) : Int :=
  let p := fxPower v 0 212791 24
  let d := 18 * fx + 109 * fx / 128 - 2392 * p / 128
  if d ≤ 0 then fx else min fx (fxPower (max 0 (fxDiv (p - 3424 * fx / 4096) d)) 6 4653910 24)

def pqInverse (l : Int) : Int :=
  let p := fxPower l 0 2610 14
  fxPower (fxDiv (3424 * fx / 4096 + 2413 * p / 128) (fx + 2392 * p / 128)) 78 27 5

/-- e to the power `y`, for `y` at least -1. -/
def fxExp (y : Int) : Int :=
  let z := (y + fx).toNat
  fxDiv (fxPower 11674931555 (z / fx) (z % fx / 256) 24) 11674931555

/-- HLG: scene light of a signal, and back by bisection. -/
def hlgInverseOetf (v : Int) : Int :=
  if 2 * v ≤ fx then fxMul v v / 3
  else (fxExp (fxDiv (v - 2404798274) 768080899) + 1222643700) / 12

def hlgOetf (e : Int) : Int :=
  (List.range 33).foldl (fun r i => if hlgInverseOetf (r + 2 ^ (32 - i)) ≤ e then r + 2 ^ (32 - i) else r) 0

/-- Displayed light, as a part of 10,000 cd/m², of an RGB signal in a transfer (R282): SDR, HLG, PQ. -/
def State.toLight (s : State) (transfer colour : Nat) (c : Int × Int × Int) : Int × Int × Int :=
  if transfer = 0 then rgbMap (fun v => fxPower v 2 6710886 24 * s.refWhite / 10000) c
  else if transfer = 1 then
    let e := rgbMap hlgInverseOetf c
    let g := fxPower (lumaOf colour e) 0 3355443 24
    rgbMap (fun v => fxMul v g * s.hlgPeak / 10000) e
  else rgbMap pqEotf c

/-- An RGB signal in a transfer of displayed light; `map` where the tone map applies (R282). -/
def State.fromLight (s : State) (transfer colour : Nat) (map : Bool) (c : Int × Int × Int) : Int × Int × Int :=
  if transfer = 0 then
    let l := rgbMap (fun v => v * 10000 / s.refWhite) c
    let l := if map then toneMapRgb (s.kneeField * fx / 256) (s.tmPeak * fx / s.refWhite) l else l
    rgbMap (fun v => clip01 (fxPower (clip01 v) 0 6990507 24)) l
  else if transfer = 1 then
    let peak : Int := s.hlgPeak * fx / 10000
    let f := rgbMap (fun v => fxDiv (max 0 (min peak v)) peak) c
    let y := fxPower (lumaOf colour f) 0 2796203 24
    if y ≤ 0 then (0, 0, 0) else rgbMap (fun v => clip01 (hlgOetf (clip01 (fxDiv v y)))) f
  else rgbMap (fun v => clip01 (pqInverse (clip01 v))) c

/-- Display linear light between BT.709 and BT.2020 (log entry 50). -/
def recolour (src dst : Nat) (c : Int × Int × Int) : Int × Int × Int :=
  let m := fun (a b d : Int) => (a * c.1 + b * c.2.1 + d * c.2.2) / 10000
  if src = dst then c
  else if dst = 1 then (m 6274 3293 433, m 691 9195 114, m 164 880 8956)
  else (m 16605 (-5876) (-728), m (-1246) 11329 (-83), m (-182) (-1006) 11187)

/-- R282: a layer's RGB signal in the canvas's transfer and colour. -/
def State.convert (s : State) (st sc dt dc : Nat) (c : Int × Int × Int) : Int × Int × Int :=
  if st = dt ∧ sc = dc then c
  else s.fromLight dt dc (dt == 0 && st != 0) (recolour sc dc (s.toLight st sc (rgbMap clip01 c)))

/-! ## The scaler (R276) -/

/-- sin(π x) by its series, for a fixed-point `x`. -/
def sinPi (x : Int) : Int :=
  let r := x % (2 * fx)
  let r := if (fx : Int) < r then r - 2 * fx else r
  let t := fxMul r 13493037705
  ((List.range 14).foldl (fun (p : Int × Int) i =>
    (p.1 + p.2, -fxMul (fxMul p.2 t) t / (((2 * i + 2) * (2 * i + 3) : Nat) : Int))) (0, t)).1

/-- sin(π x) / (π x). -/
def sinc (x : Int) : Int := if x = 0 then fx else fxDiv (sinPi x) (fxMul x 13493037705)

/-- The Lanczos tap of window `a` at a distance `t` in source samples; `cut` is the cut-off as a part of the source's
Nyquist frequency: the output's where that is lower. -/
def lanczos (a : Nat) (cut t : Int) : Int :=
  if (a * fx : Int) ≤ |t| then 0 else fxMul (sinc (fxMul t cut)) (sinc (t / a))

/-- The source samples, from the first of a CROP, and weights that make output sample `x` of an axis of `p` samples from
`c`: 2·a taps at one of 64 phases; at a ratio of 1 the axis bypasses the scaler (R276). -/
def scaleTaps (a c p x : Nat) : List (Int × Int) :=
  if c = p then [((x : Int), (fx : Int))]
  else
    -- the centre of the output sample, in 64ths of a source sample
    let u : Int := roundDiv ((2 * x + 1) * c * 64) (2 * p) - 32
    let i0 := u / 64
    let cut : Int := if p < c then p * fx / c else fx
    (List.range (2 * a)).map (fun k =>
      let i := i0 - (a - 1 : Nat) + k
      (i, lanczos a cut ((64 * i - u) * fx / 64)))

/-! ## Keys, alpha and blending (R278) -/

/-- Key alpha of a luma key, times 16, from the 10-bit luma of the source in its own coding (R278). -/
def lumaKey16 (clip gain luma : Int) : Int := max 0 (min (16 * 1023) ((luma - clip) * gain))

/-- The layer alpha a = ALPHA × k ÷ 1,023², at 16 bits; `k16` is the key alpha times 16. -/
def layerAlpha (alpha : Nat) (k16 : Int) : Int := roundDiv (alpha * k16 * 65536) (16 * 1023 * 1023)

/-- R278: blending of one component over the layers below, at 16-bit precision. -/
def blend (a layer below : Int) : Int := roundDiv (a * layer + (65536 - a) * below) 65536

/-- R278: the canvas alpha plane over the layers below, at 16 bits. -/
def alphaOver (a below : Int) : Int := a + roundDiv (below * (65536 - a)) 65536

/-! ## Placement (R276, R277) -/

/-- R276: column and row of the canvas are covered by a PLACE, whose X and Y are signed. -/
def covers (r : Rect) (x y : Int) : Bool :=
  decide (r.x ≤ x ∧ x < r.x + r.w ∧ r.y ≤ y ∧ y < r.y + r.h)

/-- R277: the layer passes bit-exact: both ratios 1, full alpha without a key, the source's sampling, transfer and colour
those of the canvas, and even columns in 4:2:2. -/
def passesBitExact (l : LayerDef) (d : CanvasDef) (sampling transfer colour : Nat) : Bool :=
  l.place.w == l.crop.w && l.place.h == l.crop.h && l.alpha == 1023 && l.key == 0 &&
  sampling == d.sampling && transfer == d.transfer && colour == d.colour &&
  (decide (2 ≤ sampling) || (l.crop.x % 2 == 0 && l.place.x % 2 == 0))

/-! ## Backgrounds (R281) -/

/-- Which of the eight bars of a canvas `w` wide column `x` lies in; the last takes any remainder. -/
def barOf (w x : Nat) : Nat := if w / 8 = 0 then 7 else min 7 (x / (w / 8))

/-- Red, green and blue of a bar, full or absent: white, yellow, cyan, green, magenta, red, blue, black. -/
def barColour (i : Nat) : Bool × Bool × Bool := (decide (i % 4 < 2), decide (i < 4), i % 2 == 0)

/-- The luma ramp's signal at column `x` of a canvas `w` wide: black at the left edge, white at the right. -/
def rampSignal (w x : Nat) : Int := if w ≤ 1 then 0 else (x * fx / (w - 1) : Nat)

/-- The background's RGB signal at a column (R281). -/
def CanvasDef.background (d : CanvasDef) (x : Nat) : Int × Int × Int :=
  if d.bgmode = 1 then
    let b := barColour (barOf d.width x)
    let v := fun (on : Bool) => if on then (3 * fx / 4 : Int) else 0
    (v b.1, v b.2.1, v b.2.2)
  else if d.bgmode = 2 then rgbMap (fun _ => rampSignal d.width x) (0, 0, 0)
  else toRgb d.colour (lumaSignal 10 (d.bg / 2 ^ 20 % 1024)) (chromaSignal 10 (d.bg / 2 ^ 10 % 1024))
    (chromaSignal 10 (d.bg % 1024))

end Sys2Proof.Machine
end

