-- ==== Sys2Proof/Machine/Compose.lean ====
section
/-! DEFINITION. How an engine composes a canvas frame: what each layer reads, its samples at a canvas pixel, the picture
that the canvas writer gives, and the signatures of its regions (R271, R274, R276-R281, R286-R288). -/

namespace Sys2Proof.Machine

open Sys2Proof

/-! ## Sources (R271, R279) -/

/-- What a layer reads: the tiles that its CROP touches, by number, none where a tile shows transparent; the alpha plane
of a canvas stands behind the colour components. -/
structure LayerSource where
  width : Nat
  height : Nat
  sampling : Nat
  transfer : Nat
  colour : Nat
  tiles : List (Nat × Option (List (List Nat)))

/-- The tiles that a rectangle touches on a raster `w` by `h` (R268, R279). -/
def Rect.tileList (r : Rect) (w h : Nat) : List Nat :=
  (List.range (tilesOf w h)).filter (fun t =>
    let x := 32 * (t % ceilDiv w 32)
    let y := 8 * (t / ceilDiv w 32)
    meets r.x.toNat r.w x 32 && meets r.y.toNat r.h y 8)

/-- The tiles of a Sedge surface that a layer reads (R259). -/
def readTiles (data : List Byte) (w h sampling : Nat) (l : List Nat) : List (Nat × Option (List (List Nat))) :=
  l.map (fun t => let x := surfaceTile data w h sampling t; (t, sedgeRead sampling x.1 x.2))

/-- The tiles of a canvas frame that a layer reads, with its alpha plane. -/
def Pic.tiles (p : Pic) (l : List Nat) : List (Nat × Option (List (List Nat))) :=
  let c := tilesFrom p.width p.height p.sampling p.comps
  let a := tilesFrom p.width p.height alphaPlane [p.alpha]
  l.map (fun t => (t, some (c.getD t [] ++ a.getD t [])))

/-- The source of layer `i` of canvas `c`, none where all of it shows transparent: a surface without a complete buffer, a
still or canvas that is gone, or a table entry that failed parity (R250, R271, R279). -/
def State.layerSource (s : State) (c i : Nat) (l : LayerDef) : Option LayerSource :=
  let cut := fun (x : LayerSource) => { x with tiles := x.tiles.map (fun t =>
    if (s.canvas c).badTiles.contains (i, t.1) then (t.1, none) else t) }
  if (s.canvas c).ltpar.contains i then none
  else if l.kind = 0 then
    (Tbl.find? s.fsa.surfaces l.idx).bind (fun f => f.shown.map (fun data =>
      let w := (routeRaster f.fmt).1
      let h := (routeRaster f.fmt).2
      cut ⟨w, h, f.fmt.sampling, f.fmt.transfer, f.fmt.colour, readTiles data w h f.fmt.sampling (l.crop.tileList w h)⟩))
  else if l.kind = 1 then
    (Tbl.find? s.cmp.stills l.idx).map (fun t => cut ⟨t.width, t.height, t.sampling, t.transfer, t.colour,
      readTiles t.data t.width t.height t.sampling (l.crop.tileList t.width t.height)⟩)
  else
    (s.canvas l.idx).shown.map (fun f => cut ⟨f.pic.width, f.pic.height, f.pic.sampling, f.transfer, f.colour,
      f.pic.tiles (l.crop.tileList f.pic.width f.pic.height)⟩)

/-- The samples at column `x` and line `y` of a source, in the order of its components: none outside it or in a tile that
shows transparent. -/
def LayerSource.samples (src : LayerSource) (x y : Int) : Option (List Nat) :=
  if x < 0 ∨ y < 0 ∨ (src.width : Int) ≤ x ∨ (src.height : Int) ≤ y then none
  else
    let x := x.toNat
    let y := y.toNat
    match src.tiles.find? (fun t => t.1 == tileAt src.width x y) with
    | some (_, some comps) =>
      some ((comps.zip (sedgeWidths src.sampling ++ [32])).map (fun c => c.1.getD (c.2 * (y % 8) + x % 32 * c.2 / 32) 0))
    | _ => none

/-! ## A layer's pixel (R274, R278) -/

/-- What a source gives at one of its pixels: the RGB signal in the canvas's transfer and colour, the 10-bit luma in its
own coding in units of 1/64, and the alpha sample in the same units. -/
structure Sample where
  rgb : Int × Int × Int
  luma : Int
  alpha : Int

/-- A deviation of a converted sample of at most two 10-bit codes (R284), the `n`-th free one. -/
def deviation (n : Nat) : Int := ((Config.freePick n 4097 % 4097 : Nat) - 2048 : Int) * fx / (876 * 1024)

/-- Stages 1 to 4 of R274 at a source pixel; `free` numbers its free values: the chroma of an odd column of 4:2:2, and the
deviation of R284 where the layer is converted. -/
def State.samplePixel (s : State) (src : LayerSource) (d : CanvasDef) (free : Nat) (x y : Int) : Option Sample :=
  (src.samples x y).map (fun v =>
    let bits := sedgeBits src.sampling
    let n := free + 8 * (16384 * y + x).toNat
    let chroma := fun (i : Nat) =>
      if x % 2 = 0 then v.getD i 0 else Config.freePick (n + i) (2 ^ bits) % 2 ^ bits
    let own : Int × Int × Int :=
      if src.sampling ≤ 1 then
        toRgb src.colour (lumaSignal bits (v.getD 0 0)) (chromaSignal bits (chroma 1)) (chromaSignal bits (chroma 2))
      else (lumaSignal bits (v.getD 0 0), lumaSignal bits (v.getD 1 0), lumaSignal bits (v.getD 2 0))
    let luma : Int :=
      if src.sampling ≤ 1 then 64 * (v.getD 0 0 : Nat) / (codeScale bits : Nat)
      else lumaCode16 10 (lumaOf src.colour own) / 1024
    let rgb :=
      if src.transfer = d.transfer ∧ src.colour = d.colour then own
      else
        let q := s.convert src.transfer src.colour d.transfer d.colour own
        (clip01 (q.1 + deviation (n + 3)), clip01 (q.2.1 + deviation (n + 4)), clip01 (q.2.2 + deviation (n + 5)))
    ⟨rgb, luma, 64 * (v.getD 3 1023 : Nat)⟩)

/-- A weighted sum over taps, each with a sample or the one at the centre. -/
def tapSum (l : List (Int × Sample)) (f : Sample → Int) : Int :=
  let w := l.foldl (fun n x => n + x.1) 0
  if w = 0 then 0 else l.foldl (fun n x => n + x.1 * f x.2) 0 / w

/-- Stage 5: a layer's sample at a canvas pixel that its PLACE covers, none where it shows transparent there; a tap beyond
the CROP takes its edge, and one in a transparent tile the centre's sample (log entry 50). -/
def State.layerPixel (s : State) (src : LayerSource) (l : LayerDef) (d : CanvasDef) (free : Nat) (x y : Int) :
    Option Sample :=
  let px := (x - l.place.x).toNat
  let py := (y - l.place.y).toNat
  match s.samplePixel src d free (l.crop.x + px * l.crop.w / l.place.w) (l.crop.y + py * l.crop.h / l.place.h) with
  | none => none
  | some mid =>
    let edge := fun (i : Int) (n : Nat) => max 0 (min (n - 1 : Int) i)
    let taps := (scaleTaps 3 l.crop.h l.place.h py).flatMap (fun v =>
      (scaleTaps 4 l.crop.w l.place.w px).map (fun h => (fxMul v.2 h.2,
        (s.samplePixel src d free (l.crop.x + edge h.1 l.crop.w) (l.crop.y + edge v.1 l.crop.h)).getD mid)))
    some ⟨(tapSum taps (fun q => q.rgb.1), tapSum taps (fun q => q.rgb.2.1), tapSum taps (fun q => q.rgb.2.2)),
      tapSum taps (fun q => q.luma), tapSum taps (fun q => q.alpha)⟩

/-- Key alpha of a layer at a sample, times 16 (R278). -/
def State.keyAlpha16 (s : State) (key : Nat) (q : Sample) : Int :=
  if key = 1 then
    lumaKey16 (s.fld CMP_LKEY CMP_LKEY_CLIP) (s.fld CMP_LKEY CMP_LKEY_GAIN) (roundDiv q.luma 64)
  else if key = 2 then q.alpha / 4
  else 16 * 1023

/-! ## A canvas pixel (R277, R278) -/

/-- What is drawn on a canvas, lowest first: a layer with its number and source, or the background colour in the place of a
safe still that is not there (R288). -/
inductive Drawn where
  | layer (i : Nat) (l : LayerDef) (src : LayerSource)
  | fill (r : Rect)

/-- Components at 16 bits: 64 steps to a 10-bit code (R278). -/
def to16 (v : Int) : Int := 4096 + roundDiv (v * (876 * 64)) fx
def from16 (n : Int) : Int := (n - 4096) * fx / (876 * 64)

/-- A pixel while it is composed: components and alpha plane at 16 bits, and where the topmost layer with non-zero alpha
passes bit-exact the samples of its source (R277). -/
structure Composed where
  rgb : Int × Int × Int
  alpha : Int
  exact : Option (List Nat)

/-- One layer over what lies below. -/
def State.drawPixel (s : State) (d : CanvasDef) (free : Nat) (x y : Nat) (p : Composed) (q : Drawn) : Composed :=
  match q with
  | .fill r =>
    if covers r x y then ⟨rgbMap to16 (({ d with bgmode := 0 } : CanvasDef).background x), 65536, none⟩ else p
  | .layer i l src =>
    if !covers l.place x y then p
    else
      match s.layerPixel src l d (free + 2 ^ 32 * i) x y with
      | none => p
      | some v =>
        let a := layerAlpha l.alpha (s.keyAlpha16 l.key v)
        if a = 0 then p
        else
          ⟨(blend a (to16 v.rgb.1) p.rgb.1, blend a (to16 v.rgb.2.1) p.rgb.2.1, blend a (to16 v.rgb.2.2) p.rgb.2.2),
           alphaOver a p.alpha,
           if passesBitExact l d src.sampling src.transfer src.colour then
             src.samples (l.crop.x + (x - l.place.x)) (l.crop.y + (y - l.place.y))
           else none⟩

/-- Pixel `x`, `y` of a canvas. -/
def State.composePixel (s : State) (d : CanvasDef) (free : Nat) (draw : List Drawn) (x y : Nat) : Composed :=
  draw.foldl (s.drawPixel d free x y) ⟨rgbMap to16 (d.background x), 0, none⟩

/-- The codes that the canvas writer gives a pixel, in the order of the canvas's components (R274). -/
def Composed.codes (p : Composed) (d : CanvasDef) : List Nat :=
  match p.exact with
  | some l => l.take 3
  | none =>
    let bits := sedgeBits d.sampling
    let c := rgbMap from16 p.rgb
    if d.sampling ≤ 1 then
      let q := toYcc d.colour c
      [writerCode bits (lumaCode16 bits q.1), writerCode bits (chromaCode16 bits q.2.1),
       writerCode bits (chromaCode16 bits q.2.2)]
    else [writerCode bits (lumaCode16 bits c.1), writerCode bits (lumaCode16 bits c.2.1),
      writerCode bits (lumaCode16 bits c.2.2)]

/-- The frame that the canvas writer makes of the layers of a list: chroma of 4:2:2 is that of the even columns (log entry
50). -/
def State.composePic (s : State) (d : CanvasDef) (free : Nat) (draw : List Drawn) : Pic :=
  let px := (List.range d.height).flatMap (fun y => (List.range d.width).map (fun x => s.composePixel d free draw x y))
  let codes := px.map (fun p => p.codes d)
  let comp := fun (i : Nat) => codes.map (fun l => l.getD i 0)
  let even := fun (l : List Nat) => (l.zipIdx.filter (fun x => x.2 % 2 == 0)).map Prod.fst
  ⟨d.width, d.height, d.sampling,
   if d.sampling ≤ 1 then [comp 0, even (comp 1), even (comp 2)] else [comp 0, comp 1, comp 2],
   px.map (fun p => (roundDiv (p.alpha * 1023) 65536).toNat)⟩

/-! ## A canvas frame -/

/-- The enabled layers of canvas `c` with what they read, lowest first. -/
def State.drawnLayers (s : State) (c : Nat) : List Drawn :=
  (s.canvas c).layers.filterMap (fun e => (s.layerSource c e.1 e.2).map (fun src => .layer e.1 e.2 src))

/-- Tiles that a layer, or a safe still in the place of a region, has read and found in error (R259). -/
def State.sedgeErrors (s : State) (c : Nat) (draw : List Drawn) : Nat :=
  draw.foldl (fun n q => match q with
    | .layer i _ src => n + (src.tiles.filter (fun t => t.2.isNone && !(s.canvas c).badTiles.contains (i, t.1))).length
    | .fill _ => n) 0

/-- The safe stills that the substituting regions of canvas `c` draw above every layer (R287, R288). -/
def State.safeStills (s : State) (c : Nat) (d : CanvasDef) : List Drawn :=
  ((s.regionsOf c).filter (fun r => s.srState r == 3)).map (fun r =>
    let place : Rect :=
      if s.bit (CMP_SRW_CFG r) CMP_SR_CFG_MODE then ⟨0, 0, d.width, d.height⟩
      else ⟨s.fld (CMP_SRW_POS r) CMP_SR_POS_X, s.fld (CMP_SRW_POS r) CMP_SR_POS_Y,
        s.fld (CMP_SRW_SIZE r) CMP_SR_SIZE_W, s.fld (CMP_SRW_SIZE r) CMP_SR_SIZE_H⟩
    match Tbl.find? s.cmp.stills (s.fld (CMP_SRW_STILL r) CMP_SR_STILL_STILL) with
    | some t =>
      let crop : Rect := ⟨0, 0, t.width, t.height⟩
      .layer (32 + r) ⟨1, 0, crop, place, 1023, 0, 0⟩ ⟨t.width, t.height, t.sampling, t.transfer, t.colour,
        readTiles t.data t.width t.height t.sampling (crop.tileList t.width t.height)⟩
    | none => .fill place)

/-- The samples of a rectangle of a frame in the order of R286: R, G, B a pixel, or Cb, Y, Cr, Y a pixel pair. -/
def Pic.region (p : Pic) (x0 y0 w h : Nat) : List Nat :=
  let c := fun (i pw x y : Nat) => (p.comps.getD i []).getD (y * pw + x) 0
  (List.range h).flatMap (fun j =>
    let y := y0 + j
    if p.sampling ≤ 1 then
      (List.range (w / 2)).flatMap (fun k =>
        let x := x0 + 2 * k
        [c 1 (p.width / 2) (x / 2) y, c 0 p.width x y, c 2 (p.width / 2) (x / 2) y, c 0 p.width (x + 1) y])
    else (List.range w).flatMap (fun k =>
      [c 0 p.width (x0 + k) y, c 1 p.width (x0 + k) y, c 2 p.width (x0 + k) y]))

/-- The eight configuration words of region `r`. -/
def State.regionWords (s : State) (r : Nat) : List Word := (List.range 8).map (fun k => s.rd (srWord r k))

/-- The signature of region `r` on a frame. A region lies wholly inside its canvas (R285); what one signs that was set to reach
beyond it is not given, and is a free value (DESIGN CHOICE; log entry 53). -/
def State.regionSig (s : State) (r free : Nat) (p : Pic) : Nat :=
  let x := s.fld (CMP_SRW_POS r) CMP_SR_POS_X
  let y := s.fld (CMP_SRW_POS r) CMP_SR_POS_Y
  let w := s.fld (CMP_SRW_SIZE r) CMP_SR_SIZE_W
  let h := s.fld (CMP_SRW_SIZE r) CMP_SR_SIZE_H
  if p.width < x + w ∨ p.height < y + h then (Config.freeWord (free + r)).toNat else signature (p.region x y w h)

/-- The signatures of the enabled regions of canvas `c` on a frame as composed, before any substitution (R286). -/
def State.frameSigs (s : State) (c free : Nat) (p : Pic) : List (Nat × Nat × List Word) :=
  ((s.regionsOf c).filter (fun r => s.bit (CMP_SRW_CFG r) CMP_SR_CFG_EN)).map (fun r => (r, s.regionSig r free p, s.regionWords r))

/-- The frame that canvas `c` makes now under definition `d` goes into the buffer that the writer fills (R267, R271, R274,
R287). -/
def State.makeFrame (s : State) (c : Nat) (d : CanvasDef) : State :=
  let free := s.freeCtr
  let draw := s.drawnLayers c
  let safe := s.safeStills c d
  let base := s.composePic d free draw
  let x := s.canvas c
  let pic := if safe.isEmpty then base else s.composePic d free (draw ++ safe)
  let s := s.setCanvas c { x with
    buffers := Tbl.put x.buffers x.fill ⟨pic, d.transfer, d.colour⟩, making := true
    sigs := s.frameSigs c free base, badTiles := [] }
  { s with freeCtr := free + 2 ^ 41 }

/-- Composition of a frame of canvas `c`: the tiles found in error are counted (R259). -/
def State.composeFrame (s : State) (c : Nat) (d : CanvasDef) : State :=
  let bad := s.sedgeErrors c (s.drawnLayers c ++ s.safeStills c d)
  let s := (s.makeFrame c d).incBy FSA_SEDGEERR FSA_SEDGEERR_COUNT bad
  s.each (List.range bad) (fun s _ => s.raise 169)

end Sys2Proof.Machine
end

