-- ==== Sys2Proof/Machine/Salvos.lean ====
section
/-! DEFINITION. Salvos: slots, the prepare and commit of one chip and of several, the deadlines, and how entries take
effect (R143-R148, R208-R225, R417). -/

namespace Sys2Proof.Machine

open Sys2Proof

/-! ## Slots -/

def State.delSlot (s : State) (k : Nat) : State :=
  { s with sal := { s.sal with slots := Tbl.del s.sal.slots k } }

def State.updSlot (s : State) (k : Nat) (f : Salvo → Salvo) : State :=
  match Tbl.find? s.sal.slots k with
  | some x => s.setSlot k (f x)
  | none => s

def isStagedIn (k : Nat) (h : Holding) : Bool :=
  match h with
  | .staged t j _ => 4 * t + j == k
  | _ => false

/-- Canvases that the entries name. -/
def Salvo.canvases (x : Salvo) : List Nat :=
  x.entries.filterMap (fun e => match e.item with
    | .layer c _ _ => some c
    | .route _ => none)

/-- The slot closes and the charges of entries that have not applied are released (R147). -/
def State.closeSlot (s : State) (k : Nat) (x : Salvo) : State :=
  ((s.delSlot k).release (isStagedIn k)).each x.canvases State.recharge

/-- A salvo ends with a code other than OK (R225). -/
def State.failSalvo (s : State) (k : Nat) (st : Status) : State :=
  match Tbl.find? s.sal.slots k with
  | none => s
  | some x => ((s.closeSlot k x).complete x.cmd st 0 0).raise 352

def salvoStatus : SalvoReason → Status
  | .late => .late
  | .aborted => .aborted
  | .linkLost => .linkLost

/-! ## Nodes and messages -/

/-- The other nodes of a NODES mask (R217). -/
def State.peersOf (s : State) (nodes : Nat) : List Nat :=
  (List.range 4).filter (fun n => nodes.testBit n && n != s.ownNode)

/-- COMMIT and CANCEL go on the direct link and, in a four-chip frame, through every other node (R221). -/
def State.sendDecision (s : State) (nodes : Nat) (m : Msg) : State :=
  s.each (s.peersOf nodes) (fun s n =>
    let s := match s.linkTo n with
      | some k => (s.emit (.msg n m)).sendOn k n m
      | none => s
    if s.fld BLK_NODE BLK_NODE_EXPNODES < 2 then s
    else s.each ((List.range 4).filter (fun v => v != n && v != s.ownNode)) (fun s v =>
      match s.linkTo v with
      | some k => (s.emit (.relay v n m)).sendOn k n m
      | none => s))

/-- The coordinator cancels (R220). -/
def State.cancelSalvo (s : State) (k : Nat) (r : SalvoReason) : State :=
  match Tbl.find? s.sal.slots k with
  | none => s
  | some x => (s.sendDecision x.nodes (.cancel x.group r)).failSalvo k (salvoStatus r)

/-- R216: the layer entries of slot `k` that a frame has taken and not sent yet do not apply: the layers stand as before, and the
frame is composed without them. -/
def State.undoEntries (s : State) (k : Nat) : State :=
  s.each (s.cmp.canvases.map Prod.fst) (fun s c =>
    let x := s.canvas c
    match x.pend.filter (fun p => p.slot == some k) with
    | [] => s
    | p :: l =>
      let layers := (p :: l).foldr (fun q t => match q.op, q.old with
        | .layer i _, some o => Tbl.put t i o
        | .layer i _, none => Tbl.del t i
        | _, _ => t) x.layers
      let s := s.setCanvas c { x with layers := layers, epoch := p.oldEpoch, pend := x.pend.filter (fun q => q.slot != some k) }
      let s := s.recharge c
      match x.making, x.now with
      | true, some d => s.makeFrame c d
      | _, _ => s)

/-- R216: a charge held for an entry is shed. An open slot keeps the fact until its SALVO_COMMIT; a committing salvo ends
SHED and tells the other chips ABORTED (log entry 28). -/
def State.shedSalvo (s : State) (k : Nat) : State :=
  match Tbl.find? s.sal.slots k with
  | none => s
  | some x =>
    if x.stage = 0 then s.setSlot k { x with shed := true }
    else
      let s :=
        if x.coord then (if x.stage < 3 then s.sendDecision x.nodes (.cancel x.group .aborted) else s)
        else match x.readyFrom with
          | src :: _ => s.send src (.refuse x.group .aborted)
          | [] => s
      (s.undoEntries k).failSalvo k .shed

/-- The slot that uses a GROUP (R208). -/
def State.groupSlot (s : State) (g : Word) : Option (Nat × Salvo) := s.sal.slots.find? (fun e => e.2.group == g)

def State.setHeld (s : State) (l : List HeldPrepare) : State := { s with sal := { s.sal with held := l } }

/-! ## Times (R209, R210, R218) -/

/-- Frame period that an entry counts with, in ns (R209); for a change of format the longer (log entry 28). -/
def State.entryPeriod (s : State) (e : SalvoEntry) : Nat :=
  match e.item with
  | .layer c _ _ => match (s.canvas c).planned with
    | some d => framePeriodNs d.rate
    | none => 0
  | .route c =>
    let new := match c.route with
      | some r => framePeriodNs r.fmt.rate
      | none => 0
    max new (match s.runFmt e.key with
      | some f => framePeriodNs f.rate
      | none => 0)

def State.salvoF (s : State) (x : Salvo) : Nat := x.entries.foldl (fun n e => max n (s.entryPeriod e)) 0

def Salvo.hasFabric (x : Salvo) : Bool := x.entries.any (fun e => fabricDst e.key)

/-- The earliest application instant E (R210). -/
def Salvo.earliest (x : Salvo) : Nat := if x.nodes ≠ 0 ∨ x.hasFabric then x.due - x.f else x.due

/-- The named base has not passed `E - lead`. -/
def State.before (s : State) (x : Salvo) (lead : Nat) : Bool := decide (s.fullTime x.tb + lead ≤ x.earliest)

/-! ## Completion (R214, R215) -/

/-- The last entry has taken effect; a coordinator with other participants also waits for the apply deadline, at which it
knows whose acknowledgement of COMMIT is missing: one event for all of them (R223, R527). -/
def State.salvoDone (s : State) (k : Nat) : State :=
  match Tbl.find? s.sal.slots k with
  | none => s
  | some x =>
    let waits : Bool := s.cmp.canvases.any (fun c => c.2.pend.any (fun p => p.slot == some k))
      || (x.coord && !(s.peersOf x.nodes).isEmpty && x.missing.isNone)
    if x.stage = 3 ∧ x.entries.isEmpty ∧ !waits then
      let ep := match x.epoch with
        | some e => e
        | none => x.canvasEpoch.getD 0
      let lost := x.missing.getD 0
      let s := s.when (lost != 0) (fun s => s.raise 353)
      (s.closeSlot k x).complete x.cmd .ok (x.count + if 0 < lost then 2 ^ 31 else 0) ep
    else s

/-- The entries are armed. -/
def State.arm (s : State) (k f : Nat) : State := (s.updSlot k (fun x => { x with stage := 3, f := f })).salvoDone k

/-! ## SALVO_OPEN (R143, R144, R208, R417) -/

/-- SALVO_OPEN. A slot counts among the 64 open salvos until it closes, a committing one included (DESIGN CHOICE, log entry
28). -/
def salvoOpenBody (t : Nat) (e : Entry) (id : Nat) (s : State) : State :=
  let k := bitsAt e 8 0 2
  let nodes := bitsAt e 9 0 4
  let g := BitVec.ofNat 32 (bitsAt e 12 0 32)
  let badNodes : Bool := nodes != 0 && (!nodes.testBit s.ownNode || !s.formed
    || (List.range 4).any (fun n => nodes.testBit n && !s.numbered n))
  s.checked id
    [ (!onlyFields e [(8, 0, 2), (9, 0, 4), (12, 0, 32)], .rejFormat, 0),
      (badNodes, .rejFormat, 0),
      (decide (64 ≤ s.sal.slots.length), .rejCapacity, 5),
      ((s.slot? t k).isSome, .busy, 0),
      ((s.groupSlot g).isSome, .busy, 0),
      s.standbyBusy ]
    (fun s =>
      (s.setSlot (4 * t + k)
        ⟨nodes, g, 0, [], false, 0, false, 0, 0, 0, 0, 0, 0, 0, [], 0, none, none, none, none⟩).complete id .ok 0 0)

/-! ## SALVO_COMMIT (R43, R45, R147, R209-R213, R219) -/

/-- The tenant owns every object of the salvo (R135): the tracks of every stream that an entry acts on, and the canvas and
the still or canvas source of every layer. -/
def State.ownsSalvo (s : State) (t : Nat) (x : Salvo) : Bool :=
  x.entries.all (fun e => match e.item with
    | .route _ => (s.actedOn e.key (s.entryWidth e)).all (fun x => s.ownsAll t 0 x.1 x.2)
    | .layer c _ l => s.ownerOf 1 c == t && (match l with
      | some l => s.layerSourceOwned t l
      | none => true))

/-- The participant refuses (R219). -/
def State.refuseSalvo (s : State) (k src : Nat) (g : Word) (r : SalvoReason) : State :=
  (s.updSlot k (fun x => { x with refused := some r, readyFrom := [src] })).send src (.refuse g r)

/-- The participant answers READY (R217). -/
def State.sendReady (s : State) (k src : Nat) : State :=
  match Tbl.find? s.sal.slots k with
  | some x => s.send src (.ready x.group x.own x.count)
  | none => s

/-- The checks of R219 on a PREPARE for the committed salvo in slot `k`. -/
def State.meetPrepare (s : State) (k : Nat) (p : HeldPrepare) : State :=
  match Tbl.find? s.sal.slots k with
  | none => s
  | some x =>
    match x.refused with
    | some r => s.refuseSalvo k p.src p.group r
    | none =>
      if x.due < x.accepted + 2 * x.own then s.refuseSalvo k p.src p.group .late
      else if p.tb ≠ x.tb ∨ p.time ≠ x.time ∨ p.nodes ≠ x.nodes then s.refuseSalvo k p.src p.group .aborted
      else
        let s := s.setSlot k { x with f := max x.f p.f, readyFrom := [p.src] }
        if x.stage = 2 then s.sendReady k p.src else s

/-- A held PREPARE that meets no committed participant of its GROUP is refused (R219, R220). -/
def State.refuseHeld (s : State) (h : Option HeldPrepare) (r : SalvoReason) : State :=
  match h with
  | some p => s.send p.src (.refuse p.group r)
  | none => s

def salvoCommitBody (t : Nat) (e : Entry) (id : Nat) (s : State) : State :=
  let k := 4 * t + bitsAt e 8 0 2
  match Tbl.find? s.sal.slots k with
  | none => s.checked id [(!onlyFields e [(8, 0, 2), (8, 4, 1), (9, 0, 2), (12, 0, 32)], .rejFormat, 0), (true, .busy, 0)]
      (fun s => s)
  | some x =>
    s.checked id
      [ (!onlyFields e [(8, 0, 2), (8, 4, 1), (9, 0, 2), (12, 0, 32)], .rejFormat, 0),
        (!s.ownsSalvo t x, .rejOwner, 0),
        (x.stage != 0, .busy, 0),
        s.standbyBusy ]
      (fun s =>
        let tb := bitsAt e 9 0 2
        let time := BitVec.ofNat 32 (bitsAt e 12 0 32)
        let at_ := s.dueTime tb time.toNat
        let f := s.salvoF x
        let due := at_.getD (s.fullTime tb)
        let y : Salvo := { x with stage := 1, cmd := id, coord := x.nodes != 0 && bitsAt e 8 4 1 == 1, tb := tb, time := time,
                                  due := due, accepted := s.fullTime tb, f := f, own := f, count := x.entries.length }
        let s := s.setSlot k y
        let lead : Bool := decide (y.accepted + 2 * f ≤ due) && at_.isSome
        let held := s.sal.held.find? (fun p => p.group == x.group)
        let s := s.setHeld (s.sal.held.filter (fun q => q.group != x.group))
        if x.shed then (s.refuseHeld held .aborted).shedSalvo k
        else if x.nodes = 0 then
          let s := s.refuseHeld held .aborted
          if at_.isNone then s.failSalvo k .late else s
        else if y.coord then
          if !lead then (s.refuseHeld held .late).cancelSalvo k .late
          else if held.isSome then (s.refuseHeld held .aborted).cancelSalvo k .aborted
          else if (s.peersOf x.nodes).any (fun n => !s.hasPath n) then s.cancelSalvo k .linkLost
          else s
        else
          let s := if lead then s else s.updSlot k (fun z => { z with refused := some .late })
          match held with
          | none => s
          | some p =>
            match p.cancel with
            | some r => s.failSalvo k (salvoStatus r)
            | none => s.meetPrepare k p)

/-! ## SALVO_ABORT (R148, R224) -/

def salvoAbortBody (t : Nat) (e : Entry) (id : Nat) (s : State) : State :=
  let k := 4 * t + bitsAt e 8 0 2
  let busy : Bool := match Tbl.find? s.sal.slots k with
    | none => false
    | some x => x.stage == 3 || (x.nodes != 0 && !x.coord && x.stage == 2 && !x.readyFrom.isEmpty && x.refused.isNone)
  s.checked id
    [ (!onlyFields e [(8, 0, 2)], .rejFormat, 0), (busy, .busy, 0), s.standbyBusy ]
    (fun s =>
      let s := match Tbl.find? s.sal.slots k with
        | none => s
        | some x =>
          if x.stage = 0 then s.closeSlot k x
          else if x.nodes = 0 then s.failSalvo k .aborted
          else if x.coord then s.cancelSalvo k .aborted
          else match x.readyFrom, x.refused with
            | src :: _, none => s.refuseSalvo k src x.group .aborted
            | [], none => s.setSlot k { x with refused := some .aborted }
            | _, some _ => s
      s.complete id .ok 0 0)

/-! ## Prepare and the deadlines (R212, R213, R218-R223) -/

/-- Every participant is ready: the coordinator commits (R220). -/
def State.decideSalvo (s : State) (k : Nat) : State :=
  match Tbl.find? s.sal.slots k with
  | none => s
  | some x =>
    if (s.peersOf x.nodes).all (fun n => x.readyFrom.contains n) then
      if s.before x 1000000 then (s.sendDecision x.nodes (.commit x.group x.f)).arm k x.f
      else s.cancelSalvo k .late
    else s

/-- A layer entry of a local salvo meets canvas `c` with its prepare completed less than 10 µs before C(N) of the frame to
which it applies, the first with A(N) at or after the commit time (R280); where the phase of the canvas's frames is not in the
state and decides, a free value (log entry 28). -/
def State.lateFor (s : State) (x : Salvo) (c : Nat) : Bool × State :=
  match (s.canvas c).now with
  | none => (false, s)
  | some d =>
    let p := framePeriod3 d.rate
    let due := 3 * (s.now + (x.due - s.fullTime x.tb))
    let now := 3 * (s.now + 10000)
    match (s.canvas c).outAt, (s.canvas c).lastOut with
    | some a, _ => (decide (3 * a + ceilDiv (due - 3 * a) (max 1 p) * p < now + p), s)
    | none, some a => (decide (3 * a + ceilDiv (due - 3 * a) (max 1 p) * p < now + p), s)
    | none, none =>
      if now + p ≤ due then (false, s) else ((s.freshPick 2).1 == 1, (s.freshPick 2).2)

/-- The prepare of a local salvo completes too late (R213, R280). -/
def State.prepareLate (s : State) (x : Salvo) : Bool × State :=
  if !s.before x 10000 then (true, s)
  else x.canvases.foldl (fun a c => let b := a.2.lateFor x c; (a.1 || b.1, b.2)) (false, s)

def opPrepareDone (k : Nat) (s : State) : State :=
  match Tbl.find? s.sal.slots k with
  | none => s
  | some x =>
    if x.stage ≠ 1 then s
    else if x.shed then s.shedSalvo k
    else if x.nodes = 0 then
      let p := s.prepareLate x
      if p.1 then p.2.failSalvo k .late else p.2.arm k x.f
    else if x.coord then
      if s.before x 1000000 then
        let s := s.setSlot k { x with stage := 2 }
        let s := s.each (s.peersOf x.nodes) (fun s n => s.send n (.prepare x.group x.tb x.time x.nodes x.f))
        s.decideSalvo k
      else s.cancelSalvo k .late
    else
      let s := s.setSlot k { x with stage := 2 }
      match x.readyFrom, x.refused with
      | src :: _, none => if s.before x 1000000 then s.sendReady k src else s.refuseSalvo k src x.group .late
      | _, _ => s

/-- R213, R280: a local salvo whose prepare has not completed in time. -/
def opLocalDeadline (k : Nat) (s : State) : State :=
  match Tbl.find? s.sal.slots k with
  | some x => if x.stage = 1 ∧ x.nodes = 0 then s.failSalvo k .late else s
  | none => s

/-- A PREPARE is held (R219). -/
def State.holdPrepare (s : State) (p : HeldPrepare) : State :=
  s.setHeld (s.sal.held.filter (fun q => q.group != p.group) ++ [p])

/-- R219, R220. -/
def opPrepare (p : HeldPrepare) (s : State) : State :=
  match s.groupSlot p.group with
  | some (k, x) =>
    if x.stage = 0 then s.holdPrepare p
    else if x.coord then
      let s := s.send p.src (.refuse p.group .aborted)
      if x.stage < 3 then s.cancelSalvo k .aborted else s
    else if x.nodes = 0 then s.send p.src (.refuse p.group .aborted)
    else s.meetPrepare k p
  | none =>
    if 64 ≤ (s.sal.held.filter (fun q => (s.groupSlot q.group).isNone)).length then s.send p.src (.refuse p.group .aborted)
    else s.holdPrepare p

/-- R220. -/
def opReady (src : Nat) (g : Word) (f : Nat) (s : State) : State :=
  match s.groupSlot g with
  | some (k, x) =>
    if x.coord ∧ x.stage = 2 ∧ x.nodes.testBit src then
      (s.setSlot k { x with readyFrom := if x.readyFrom.contains src then x.readyFrom else x.readyFrom ++ [src]
                            f := max x.f f }).decideSalvo k
    else s
  | none => s

/-- R220: LATE, or ABORTED for any other reason. -/
def opRefuse (g : Word) (r : SalvoReason) (s : State) : State :=
  match s.groupSlot g with
  | some (k, x) =>
    if x.coord ∧ 0 < x.stage ∧ x.stage < 3 then s.cancelSalvo k (if r = .late then .late else .aborted) else s
  | none => s

/-- R222. -/
def opCommit (g : Word) (f : Nat) (s : State) : State :=
  match s.groupSlot g with
  | some (k, x) =>
    if !x.coord ∧ x.nodes ≠ 0 ∧ x.stage = 2 ∧ x.refused.isNone then
      if s.before { x with f := f } 10000 then s.arm k f else s.failSalvo k .linkLost
    else s
  | none => s

/-- R222; a CANCEL that comes before the participant's own SALVO_COMMIT is kept for it (log entry 28). -/
def opCancel (src : Nat) (g : Word) (r : SalvoReason) (s : State) : State :=
  let keep := fun (s : State) => s.setHeld (s.sal.held.map (fun p =>
    if p.group = g ∧ p.src = src then { p with cancel := some r } else p))
  match s.groupSlot g with
  | some (k, x) =>
    if x.stage = 0 then keep s
    else if !x.coord ∧ x.nodes ≠ 0 ∧ x.stage < 3 then s.failSalvo k (salvoStatus r)
    else s
  | none => keep s

/-- R218-R222: a PREPARE still held for the GROUP meets no completed prepare and is refused LATE (R219). -/
def opDecisionDeadline (g : Word) (s : State) : State :=
  let s := match s.groupSlot g with
    | some (k, x) =>
      if x.stage = 0 ∨ x.stage = 3 ∨ x.nodes = 0 then s
      else if x.coord then s.cancelSalvo k .late
      else match x.readyFrom, x.refused with
        | [], _ => s.failSalvo k .late
        | _ :: _, some _ => s
        | src :: _, none => if x.stage = 1 then s.refuseSalvo k src g .late else s
    | none => s
  let s := s.refuseHeld (s.sal.held.find? (fun p => p.group == g && p.cancel.isNone)) .late
  s.setHeld (s.sal.held.filter (fun p => p.group != g))

/-- R222, R223. -/
def opApplyDeadline (g : Word) (acked : Nat) (s : State) : State :=
  match s.groupSlot g with
  | some (k, x) =>
    if x.stage = 0 ∨ x.nodes = 0 then s
    else if x.coord then
      (if x.stage = 3 ∧ x.missing.isNone then
        let lost := (s.peersOf x.nodes).filter (fun n => !acked.testBit n)
        (s.updSlot k (fun y => { y with missing := some lost.length })).salvoDone k
       else s)
    else if x.stage = 3 then s
    else match x.refused with
      | some r => s.failSalvo k (salvoStatus r)
      | none => s.failSalvo k .linkLost
  | none => s

/-- R220: the fabric path to a participant is lost before every READY has arrived. -/
def State.salvoPaths (s : State) : State :=
  s.each (s.sal.slots.map Prod.fst) (fun s k => match Tbl.find? s.sal.slots k with
    | some x =>
      if x.coord ∧ 0 < x.stage ∧ x.stage < 3 ∧ (s.peersOf x.nodes).any (fun n => !s.hasPath n) then s.cancelSalvo k .linkLost
      else s
    | none => s)

/-! ## Entries take effect (R206, R211, R214, R216) -/

/-- The epoch that the salvo's route entries take (R214). -/
def State.salvoEpoch (s : State) (k : Nat) (x : Salvo) : Nat × State :=
  match x.epoch with
  | some e => (e, s)
  | none =>
    let m := x.entries.foldl (fun n e => match e.item with
      | .route _ => max n (s.xptEpoch e.key)
      | .layer _ _ _ => n) 0
    (nextEpoch m, s.updSlot k (fun y => { y with epoch := some (nextEpoch m) }))

/-- Line `line` of destination `d`, which ends now, is its switch line and one on which the entry of slot `k` applies. -/
def State.entryDue (s : State) (x : Salvo) (d line : Nat) (c : Change) : Bool :=
  let f := s.lineFmt d c
  x.stage == 3 && atSwitchLine f line && lineFrom f (s.fullTime x.tb) (if fabricDst d then x.due - x.f else x.due)
    && (x.notBefore == 0 || lineFrom f s.now x.notBefore)

/-- Apply the entry of slot `k` for destination `d`; its charges become those of the route, and a salvo whose entry goes
through the format change sequence has taken effect with that sequence's beginning (log entry 28). DESIGN CHOICE: the
destination is held no longer from here on, whatever entries of the salvo still wait (R208; log entry 53). -/
def State.switchEntry (s : State) (d line slot stale k : Nat) : State :=
  match Tbl.find? s.sal.slots k with
  | none => s
  | some x =>
    match x.entries.find? (fun e => e.key == d) with
    | some ⟨_, .route c⟩ =>
      if s.entryDue x d line c then
        let p := s.salvoEpoch k x
        let s := p.2.updSlot k (fun y => { y with entries := y.entries.filter (fun e => e.key != d) })
        ((s.applyChange (k / 4) d slot stale c (.staged (k / 4) (k % 4) d) (some p.1)).1.tally s).salvoDone k
      else s
    | _ => s

/-- R201: line `line` of destination `d` ends, at word slot `slot` of a cell: an immediate change, then the entries of armed
salvos, take effect there where it is the switch line. `stale` surface writes of an old epoch are under way (R250). -/
def opSwitchPoint (d line slot stale : Nat) (s : State) : State :=
  (s.switchImmediate d line slot stale).each (s.sal.slots.map Prod.fst) (fun s k => s.switchEntry d line slot stale k)

def execSalvoOpen (t : Tenant) (r : CmdRing) (e : Entry) (s : State) : Host.Outcome State Fault Refusal :=
  done s (s.command 0x03 t.val r.val e (salvoOpenBody t.val e))
def execSalvoCommit (t : Tenant) (r : CmdRing) (e : Entry) (s : State) : Host.Outcome State Fault Refusal :=
  done s (s.command 0x04 t.val r.val e (salvoCommitBody t.val e))
def execSalvoAbort (t : Tenant) (r : CmdRing) (e : Entry) (s : State) : Host.Outcome State Fault Refusal :=
  done s (s.command 0x05 t.val r.val e (salvoAbortBody t.val e))
def execSwitchPoint (d : Track) (line : BitVec 11) (slot : Fin 4) (stale : Nat) (s : State) : Host.Outcome State Fault Refusal :=
  done s (opSwitchPoint d.val line.toNat slot.val stale s)
def execSalvoPrepareDone (t : Tenant) (k : Fin 4) (s : State) : Host.Outcome State Fault Refusal :=
  done s (opPrepareDone (4 * t.val + k.val) s)
def execSalvoLocalDeadline (t : Tenant) (k : Fin 4) (s : State) : Host.Outcome State Fault Refusal :=
  done s (opLocalDeadline (4 * t.val + k.val) s)
def execPrepare (src : Node) (g : Word) (tb : Tb) (time : Word) (nodes : BitVec 4) (f : Word) (s : State) :
    Host.Outcome State Fault Refusal :=
  done s (opPrepare ⟨src.val, g, tb.val, time, nodes.toNat, f.toNat, none⟩ s)
def execReady (src : Node) (g f : Word) (_ : BitVec 13) (s : State) : Host.Outcome State Fault Refusal :=
  done s (opReady src.val g f.toNat s)
def execRefuse (_ : Node) (g : Word) (r : SalvoReason) (s : State) : Host.Outcome State Fault Refusal :=
  done s (opRefuse g r s)
def execCommit (_ : Node) (g f : Word) (s : State) : Host.Outcome State Fault Refusal := done s (opCommit g f.toNat s)
def execCancel (src : Node) (g : Word) (r : SalvoReason) (s : State) : Host.Outcome State Fault Refusal :=
  done s (opCancel src.val g r s)
def execSalvoDecisionDeadline (g : Word) (s : State) : Host.Outcome State Fault Refusal := done s (opDecisionDeadline g s)
def execSalvoApplyDeadline (g : Word) (acked : BitVec 4) (s : State) : Host.Outcome State Fault Refusal :=
  done s (opApplyDeadline g acked.toNat s)

end Sys2Proof.Machine
end

