-- ==== Sys2Proof/Machine/Frames.lean ====
section
/-! DEFINITION. Canvas frames: what takes effect when composition of a frame starts, and what leaves at its aligned
point (R270-R273, R279-R281, R287-R292). -/

namespace Sys2Proof.Machine

open Sys2Proof

/-- The first track of a canvas's output (R30). -/
def canvasTrack (c : Nat) : Nat := 3840 + 4 * c

/-- The four streams of a RASTER 0x08 canvas, or the one of any other (R269). -/
def canvasTracks (c : Nat) (d : CanvasDef) : List Nat :=
  if d.out.raster = 8 then unitTracks (canvasTrack c) 8 else [canvasTrack c]

/-- The track output reports its format, or none (R237, R272). -/
def State.reportCanvas (s : State) (c : Nat) (d : CanvasDef) (on : Bool) : State :=
  if d.out.raster = 0 then s
  else s.each (canvasTracks c d) (fun s k => if on then (s.reportAligned k d.out.high 0).reportPid k d.out.pid else s.reportFormat k 0)

/-- A rectangle lies inside a canvas of this size. -/
def Rect.inside (r : Rect) (w h : Nat) : Bool := decide (r.x + r.w ≤ (w : Int)) && decide (r.y + r.h ≤ (h : Int))

/-- A rectangle cut to a canvas of this size (R272). -/
def Rect.cut (r : Rect) (w h : Nat) : Rect :=
  let x := max 0 r.x
  let y := max 0 r.y
  ⟨x, y, (min (r.x + r.w) w - x).toNat, (min (r.y + r.h) h - y).toNat⟩

/-- A dispatched change of canvas `c` takes effect on the frame that is composed next (R272, R280); what the outputs carry
changes with that frame's A(N). -/
def State.applyCanvas (s : State) (c : Nat) (op : CanvasOp) : State :=
  let x := s.canvas c
  match op with
  | .define d =>
    let s := s.setCanvas c { x with
      now := some d, epoch := nextEpoch x.epoch
      layers := x.layers.map (fun e => (e.1, { e.2 with place := e.2.place.cut d.width d.height })) }
    s.loseRegions c (some (d.width, d.height))
  | .delete => (s.setCanvas c { x with now := none, layers := [], ltpar := [], making := false }).loseRegions c none
  | .layer i l =>
    s.setCanvas c { x with
      layers := match l with
        | some l => Tbl.put x.layers i l
        | none => Tbl.del x.layers i
      ltpar := x.ltpar.filter (· != i) }
  | .slice _ _ => s

/-- A dispatched change of a slice of canvas `c` takes effect with its A(N) (R290), and so do a definition and a deletion on the
slices that they disable (R272). -/
def State.leaveSlices (s : State) (c : Nat) (op : CanvasOp) : State :=
  match op with
  | .define d => s.setCmp { s.cmp with
      slices := s.cmp.slices.filter (fun e => e.2.canvas != c || e.2.rect.inside d.width d.height) }
  | .delete => s.setCmp { s.cmp with slices := s.cmp.slices.filter (fun e => e.2.canvas != c) }
  | .layer _ _ => s
  | .slice i d =>
    let old := Tbl.find? s.cmp.slices i
    let s := s.setCmp { s.cmp with slices := match d with
      | some d => Tbl.put s.cmp.slices i d
      | none => Tbl.del s.cmp.slices i }
    match old with
    | some o => if o.canvas = c then s else s.recharge o.canvas
    | none => s

/-- The track output of canvas `c` at an A(N): it carries the definition in effect, after the sequence of R207 where the format
changes from one to another. DEDUCED: the sequence sends two frames in the old format, the one that begins here and a whole one
more (log entry 22). A canvas that is gone has no format and no frame. -/
def State.leaveTrack (s : State) (c : Nat) : State :=
  let x := s.canvas c
  match x.sent, x.now with
  | some o, none => (s.reportCanvas c o false).setCanvas c { x.blank with sent := none, seq := none }
  | none, none => s.setCanvas c { x.blank with seq := none }
  | o, some d =>
    let was := (x.seq.map Prod.fst).getD ((o.map (fun o => o.out)).getD Fmt.zero)
    let left := match x.seq with
      | some q => q.2 - 1
      | none => if was.none || d.out.none || was.same d.out then 0 else 2
    if left ≠ 0 then s.setCanvas c { x with sent := some d, seq := some (was, left) }
    else
      let s := s.setCanvas c { x with sent := some d, seq := none }
      let s := if was.none || was.same d.out then s else s.reportCanvas c { d with out := was } false
      s.reportCanvas c d true

/-- Changes dispatched at least 2 µs before C(N) are taken, in the order of dispatch (R272, R280). -/
def State.takeCanvas (s : State) (c : Nat) : State :=
  let due := (s.canvas c).pend.filter (fun p => !p.taken && decide (p.at_ + 2000 ≤ s.now))
  let s := s.each due (fun s p => s.applyCanvas c p.op)
  let x := s.canvas c
  (s.setCanvas c { x with pend := x.pend.map (fun p =>
    if !p.taken ∧ p.at_ + 2000 ≤ s.now then { p with taken := true } else p) }).recharge c

/-- The canvas epoch that the salvo's layer entries take (R214). -/
def State.salvoCanvasEpoch (s : State) (k : Nat) (x : Salvo) : Nat × State :=
  match x.canvasEpoch with
  | some e => (e, s)
  | none =>
    let m := x.canvases.foldl (fun n c => max n (s.canvas c).epoch) 0
    (nextEpoch m, s.updSlot k (fun y => { y with canvasEpoch := some (nextEpoch m) }))

/-- Layer entries of slot `k` for canvas `c`, when frame N of C(N) leaves at or after the commit time (R211, R216). -/
def State.takeSalvo (s : State) (c k : Nat) : State :=
  match Tbl.find? s.sal.slots k, (s.canvas c).now with
  | some x, some d =>
    let mine := x.entries.filter (fun e => match e.item with
      | .layer m _ _ => m == c
      | .route _ => false)
    if x.stage = 3 ∧ x.due ≤ s.fullTime x.tb + framePeriodNs d.rate ∧ x.notBefore ≤ s.now ∧ !mine.isEmpty then
      let p := s.salvoCanvasEpoch k x
      let s := p.2.updSlot k (fun y => { y with entries := y.entries.filter (fun e => !mine.any (fun m => m.key == e.key)) })
      let s := s.each mine (fun s e => match e.item with
        | .layer m i l =>
          let before := s.canvas m
          let s := s.applyCanvas m (.layer i l)
          let y := s.canvas m
          s.setCanvas m { y with
            epoch := p.1
            pend := y.pend ++ [⟨.layer i l, 0, s.now, true, some k, Tbl.find? before.layers i, before.epoch⟩] }
        | .route _ => s)
      s.recharge c
    else s
  | _, _ => s

/-- R270, R232: now is an aligned point of the canvas's output format, or of 1080p at its RATE: AOFS lines after a frame start of
the reference timing, to within a cycle; no point is missed while nothing fixes that timing. -/
def State.canvasPoint (s : State) (d : CanvasDef) : Bool :=
  match s.clk.origin with
  | none => true
  | some o =>
    let raster := if d.out.none then 5 else d.out.raster
    let p := framePeriod3 d.rate
    let r := (3 * ((s.now : Int) - o) - (s.aofs raster * p / linesOf raster : Nat)) % (max 1 p : Nat)
    decide (r < 12 ∨ (p : Int) < r + 12)

/-- What C(N) brings to canvas `c` before composition: the changes that are due, and the entries of salvos (R272, R280). -/
def State.takeChanges (s : State) (c : Nat) : State :=
  (s.takeCanvas c).each (s.sal.slots.map Prod.fst) (fun s k => s.takeSalvo c k)

/-- C(N): composition of frame N starts, at an aligned point one frame period before A(N), once the frame before it has left
(R270, R271, R287). -/
def opComposeStart (c : Nat) (s : State) : State :=
  let w := s.takeChanges c
  let x := w.canvas c
  if (s.canvas c).outAt.isSome then s
  else match x.now, (s.canvas c).now with
  | some d, _ =>
    if !s.canvasPoint d then s
    else ((w.setCanvas c { x with outAt := some (s.now + framePeriodNs d.rate) }).regionsBegin c).composeFrame c d
  | none, some d => w.setCanvas c { x with outAt := some (s.now + framePeriodNs d.rate) }
  | none, none => w

/-- The frame composed is complete and accepted: the regions judge it, and readers take it; the writer goes on to the next
buffer (R267, R271, R285, R289). -/
def State.acceptFrame (s : State) (c : Nat) : State :=
  let x := s.canvas c
  if x.making then
    (s.setCanvas c { x with making := false, newest := some x.fill, fill := (x.fill + 1) % 3, sigs := [] }).regionsJudge c x.sigs
  else s

/-- A(N): frame N leaves, and what took effect with it completes (R272, R280, R289, R291, R292). An unfinished frame is not
accepted: the frame before it is sent again. -/
def State.frameOut (s : State) (c : Nat) (finished : Bool) : State :=
  let x := s.canvas c
  let ended := x.pend.filter (fun p => p.taken)
  let s := s.setCanvas c { x with pend := x.waiting, lastOut := some s.now, outAt := none }
  let s := if finished then s.acceptFrame c
    else
      let y := s.canvas c
      s.setCanvas c { y with making := false, sigs := [] }
  let s := (s.each ended (fun s p => s.leaveSlices c p.op)).leaveTrack c
  let s := s.when (x.now.isSome && !finished) (fun s => (s.inc CMP_OVERRUN CMP_OVERRUN_COUNT).raise 192)
  let s := s.each ended (fun s p => match p.slot, p.op with
    | some k, _ => s.salvoDone k
    | none, .define _ => s.complete p.cmd .ok 0 x.epoch
    | none, .delete => s.complete p.cmd .ok 0 x.epoch
    | none, _ => s.complete p.cmd .ok 0 0)
  s.recharge c

/-- A(N) has come: it lies one frame period after C(N) (R270). -/
def State.frameDue (s : State) (c : Nat) : Bool :=
  match (s.canvas c).outAt with
  | some a => decide (a < s.now + 4)
  | none => false

/-- An interlaced or segmented-frame output sends the frame, which is composed as a progressive one, as two fields or segments:
its even lines and then its odd ones (R270). -/
def CanvasDef.fields (d : CanvasDef) (l : List Nat) : List (List Nat) :=
  if interlaced d.out.raster || d.out.raster == 6 then [l.filter (· % 2 == 0), l.filter (· % 2 == 1)] else [l]

def execCanvasComposeStart (c : Canvas) (s : State) : Host.Outcome State Fault Refusal := done s (opComposeStart c.val s)
end Sys2Proof.Machine
end

