-- ==== Sys2Proof/Machine/MediaLanes.lean ====
section
/-! DEFINITION. Media lanes: modes and bonds, the receiver, format detection and the payload ID, line checks, the
transmitter's states, and the group PLLs (R297-R328). -/

namespace Sys2Proof.Machine

open Sys2Proof

/-! ## Lanes, bonds and modes (R297, R303, R305) -/

/-- R297: MODE 4-7 acts as 0. -/
def modeOf (m : Nat) : Nat := if m ≤ 3 then m else 0

def State.bondField (s : State) (n : Nat) : Nat := s.fld (ML_CTRL n) ML_CTRL_BOND

/-- The first lane of the bond that holds lane `n`, itself where the lane is single (R305). -/
def State.bondFirst (s : State) (n : Nat) : Nat :=
  if s.bondField (n / 4 * 4) = 2 then n / 4 * 4
  else if s.bondField (n / 2 * 2) = 1 then n / 2 * 2
  else n

/-- The BOND that governs lane `n`. -/
def State.bondAt (s : State) (n : Nat) : Nat :=
  let b := s.bondField (s.bondFirst n)
  if b = 2 ∧ s.bondFirst n % 4 = 0 then 2 else if b = 1 ∧ s.bondFirst n % 2 = 0 then 1 else 0

/-- The lanes of the bond that holds lane `n`. -/
def State.bondSet (s : State) (n : Nat) : List Nat :=
  (List.range (bondLanes (s.bondAt n))).map (fun i => s.bondFirst n + i)

/-- R305: the first lane's MODE, RXEN, TXEN and RXRATE govern the partners. -/
def State.laneMode (s : State) (n : Nat) : Nat := modeOf (s.fld (ML_CTRL (s.bondFirst n)) ML_CTRL_MODE)
def State.laneRx (s : State) (n : Nat) : Bool := s.laneMode n != 0 && s.bit (ML_CTRL (s.bondFirst n)) ML_CTRL_RXEN
def State.laneTx (s : State) (n : Nat) : Bool := s.laneMode n != 0 && s.bit (ML_CTRL (s.bondFirst n)) ML_CTRL_TXEN

def LaneCtl.idle : LaneCtl := ⟨false, 0, 0, 0, 0, 0, 0, false, false, 0⟩

def State.lane (s : State) (n : Nat) : LaneCtl := Tbl.getD s.mln.lanes n LaneCtl.idle

def State.setMln (s : State) (m : Mln) : State := { s with mln := m }

def State.setLane (s : State) (n : Nat) (x : LaneCtl) : State :=
  s.setMln { s.mln with lanes := Tbl.putD s.mln.lanes n x LaneCtl.idle }

/-- R324: the group PLL of lane `n` is locked. -/
def State.pllUp (s : State) (n : Nat) : Bool := s.bit MLN_GRPSTAT ⟨n / 16, 1⟩

/-- R326: a HIST bit sets, and raises its source while its HDGEN bit is 1. -/
def State.mlnHist (s : State) (n k : Nat) : State :=
  let s := s.setBit (ML_HIST n) ⟨k, 1⟩ true
  s.when (s.bit (ML_HDGEN n) ⟨k, 1⟩) (fun s => s.raise (if k ≤ 10 then k else 12))

def State.statBit (s : State) (n : Nat) (f : Field) : Bool := s.bit (ML_STAT n) f

/-! ## The detected descriptor (R306, R312) -/

/-- A frame-rate code as measured, in the family of a lane rate code (R299, R312): SD has one family. -/
def familyRate (code rate : Nat) : Nat :=
  if code ≤ 1 then rate
  else if code % 2 = 0 then (if rate = 2 ∨ rate = 5 ∨ rate = 8 then rate - 1 else rate)
  else (if rate = 1 ∨ rate = 4 ∨ rate = 7 then rate + 1 else rate)

/-- LINKS of the R302 row that the input matches (R312). -/
def ifaceLinks (bond rate : Nat) : Nat := if bond = 1 then 1 else if bond = 2 ∧ rate ≤ 5 then 2 else 0

/-- Code of TRACKS for a track count. -/
def trackCode (n : Nat) : Nat := if n = 1 then 0 else if n = 2 then 1 else 2

/-- R306, R310: some link of the bond of `n` is in LOS or out of lock, or the flywheel runs on it. -/
def State.linksDown (s : State) (n : Nat) : Bool :=
  (s.bondSet n).any (fun k => s.statBit k ML_STAT_LOS || !s.statBit k ML_STAT_LOCK || s.statBit k ML_STAT_HOLD)

/-- Bytes 4-7 and payload ID of the descriptor that R312 builds from a measured raster and rate; a content that names no
format of R27 and R302, or not the interface and rate that every link has, is RASTER 0x00. -/
def State.buildDet (s : State) (n raster rate : Nat) : Nat × Word :=
  let x := s.lane n
  let ok := s.statBit n ML_STAT_PIDOK
  let bond := s.bondAt n
  let code := s.fld (ML_STAT n) ML_STAT_RATE
  let sampling := if ok then x.sampling else s.fld (ML_RXDEF n) ML_RXDEF_SAMPLING
  let transfer := if ok then x.transfer else s.fld (ML_RXDEF n) ML_RXDEF_TRANSFER
  let colour := if ok then x.colour else s.fld (ML_RXDEF n) ML_RXDEF_COLOUR
  let raster := if raster = 6 ∧ !ok then 4 else raster
  let rate := familyRate code rate
  let f : Fmt := ⟨0, raster, rate, trackCode ((tracksOf raster rate sampling).getD 0), sampling, ifaceLinks bond code,
    transfer, colour, 0⟩
  let links := s.bondSet n
  if f.valid && f.bond == bond && links.all (fun k => s.fld (ML_STAT k) ML_STAT_RATE == f.lineRate)
      && !links.any (fun k => (s.lane k).barred) && !x.skewed && !s.linksDown n then
    (f.high, if ok then x.pid else 0)
  else (0, 0)

/-- Tracks of the streams that start on lane `n` (R303). -/
def laneTracks (n raster : Nat) : List Nat := unitTracks (4 * n) raster

/-- The descriptor of first lane `n` becomes `high` with payload ID `pid`: each change sets HIST.FMTCHG, and FSA is told
(R235, R312). The four streams of RASTER 0x08 are reported together. -/
def State.setDet (s : State) (n high : Nat) (pid : Word) : State :=
  let old := s.fld (ML_DET n) ML_DET_DESC
  let changed : Bool := old != high || s.rd (ML_DETPID n) != pid
  let s := (s.setFld (ML_DET n) ML_DET_DESC high).wr (ML_DETPID n) pid
  let s := s.when changed (fun s => s.mlnHist n 11)
  let quad : Bool := old % 256 == 8 || high % 256 == 8
  let before := s.aligner (4 * n)
  let s := (s.reportFormat (4 * n) high).reportPid (4 * n) pid.toNat
  s.when (quad && old != high) (fun s => s.each [4 * n + 4, 4 * n + 8, 4 * n + 12] (fun s k =>
    let a := s.aligner (4 * n)
    if a.mode = before.mode ∧ a.high = before.high then s
    else s.setAligner k (if high % 256 = 8 ∨ a.mode = 3 then a else Aligner.idle)))

/-- RASTER 0x00 on the bond of lane `n` (R306, R310, R313). -/
def State.dropDet (s : State) (n : Nat) : State := s.setDet (s.bondFirst n) 0 0

/-! ## Loss and acquisition (R306-R312) -/

/-- The receiver of lane `n` starts again: its link, its payload ID and its descriptor are gone; with ADAPT 0 the equaliser
stands at PEAK (R307). A partner has no descriptor to change (R305). -/
def State.restartRx (s : State) (n : Nat) : State :=
  let keep := s.statBit n ML_STAT_PARTNER
  let idle := s.statBit n ML_STAT_TXIDLE
  let s := s.resetReg (ML_STAT n)
  let s := s.setBit (ML_STAT n) ML_STAT_PARTNER keep
  let s := s.setBit (ML_STAT n) ML_STAT_TXIDLE idle
  let s := s.when (s.laneRx n && s.fld (ML_RXCFG n) ML_RXCFG_ADAPT == 0)
    (fun s => s.setFld (ML_STAT n) ML_STAT_EQVAL (min 48 (s.fld (ML_RXCFG n) ML_RXCFG_PEAK)))
  let s := s.setLane n LaneCtl.idle
  if keep then (s.setFld (ML_DET n) ML_DET_DESC 0).wr (ML_DETPID n) 0 else s.setDet n 0 0

/-- PIDOK is 0 (R313). -/
def State.pidBad (s : State) (n : Nat) : State :=
  let s := s.setBit (ML_STAT n) ML_STAT_PIDOK false
  s.setLane n { s.lane n with okRun := 0, noneRun := 0 }

/-- A loss becomes long: HIST.LOL unless it began with LOS, and acquisition starts again (R299, R309, R310, R311). -/
def State.longLoss (s : State) (n : Nat) : State :=
  let byLos := (s.lane n).byLos
  let s := s.setBit (ML_STAT n) ML_STAT_HOLD false
  let s := s.setBit (ML_STAT n) ML_STAT_FRAMED false
  let s := if s.statBit n ML_STAT_LOCK then s else s.setFld (ML_STAT n) ML_STAT_RATE 0
  let s := (s.pidBad n).setBit (ML_STAT n) ML_STAT_LEVELBIN false
  let s := s.when (!byLos) (fun s => s.mlnHist n 1)
  s.dropDet n

/-- R310: a loss of lock begins, with `byLos` where LOS began it; `long` where it is long from its start, as it is
where no structure had been found for the flywheel to continue. -/
def State.beginLoss (s : State) (n : Nat) (byLos long : Bool) : State :=
  let s := s.setLane n { s.lane n with byLos := byLos }
  let s := s.setBit (ML_STAT n) ML_STAT_HOLD true
  let s := s.when (!byLos) (fun s => s.inc (ML_LOLCNT n) ML_LOLCNT_COUNT)
  let s := s.when (s.bondAt n != 0) (fun s => s.dropDet n)
  if long || !s.statBit n ML_STAT_FRAMED || s.fld MLN_CTRL MLN_CTRL_LOLHOLD == 0 then s.longLoss n else s

/-- R308, R309: LOS sets; a lane that was locked loses lock. -/
def opLosSet (n : Nat) (s : State) : State :=
  if s.statBit n ML_STAT_LOS || !s.laneRx n then s
  else
    let s := s.setBit (ML_STAT n) ML_STAT_LOS true
    let s := (s.inc (ML_LOSCNT n) ML_LOSCNT_COUNT).mlnHist n 0
    if s.statBit n ML_STAT_LOCK then
      let s := s.setBit (ML_STAT n) ML_STAT_LOCK false
      if s.statBit n ML_STAT_HOLD ∨ s.laneMode n ≠ 1 then s else s.beginLoss n true false
    else if s.bondAt n ≠ 0 then s.dropDet n
    else s

/-- R307, R308, R311: LOS clears and the equaliser adapts; an adapted code is a free value (log entry 29). -/
def opLosClear (n : Nat) (s : State) : State :=
  if !s.statBit n ML_STAT_LOS || !s.laneRx n then s
  else
    let s := s.setBit (ML_STAT n) ML_STAT_LOS false
    if s.fld (ML_RXCFG n) ML_RXCFG_ADAPT = 0 then
      s.setFld (ML_STAT n) ML_STAT_EQVAL (min 48 (s.fld (ML_RXCFG n) ML_RXCFG_PEAK))
    else
      let p := s.freshPick 49
      (p.2.setLane n { p.2.lane n with eqAt := s.now }).setFld (ML_STAT n) ML_STAT_EQVAL p.1

/-- R299, R300: a receiver in this mode with this RXRATE locks at a rate code. -/
def rateAllowed (mode rx code : Nat) : Bool :=
  if mode = 1 then decide (1 ≤ code ∧ code ≤ 9) && (rx == 0 || decide (10 ≤ rx) || rx == code)
  else if mode = 2 then code == 10
  else if mode = 3 then code == 11
  else false

/-- R300, R309, R311. -/
def opCdrLock (n code : Nat) (s : State) : State :=
  if s.laneRx n && !s.statBit n ML_STAT_LOS && s.pllUp n
      && rateAllowed (s.laneMode n) (s.fld (ML_CTRL (s.bondFirst n)) ML_CTRL_RXRATE) code then
    (s.setBit (ML_STAT n) ML_STAT_LOCK true).setFld (ML_STAT n) ML_STAT_RATE code
  else s

/-- R309: three consecutive EAVs at consistent positions. -/
def opFramed (n : Nat) (s : State) : State :=
  if s.laneMode n = 1 && s.statBit n ML_STAT_LOCK && !s.statBit n ML_STAT_HOLD then
    s.setBit (ML_STAT n) ML_STAT_FRAMED true
  else s

/-- R309, R310: loss of lock. LOCK follows the CDR; missing EAVs and a changed structure leave it locked. A changed structure
or phase is a long loss at once, and ends the flywheel where it runs. DESIGN CHOICE: a lane in Ethernet mode, which has no
EAVs and no flywheel, only loses LOCK and RATE with its CDR (log entry 29). -/
def opLossOfLock (n : Nat) (c : LockLoss) (s : State) : State :=
  let held := s.statBit n ML_STAT_HOLD
  if !s.statBit n ML_STAT_LOCK && !held then s
  else
    let s := s.when (c == .cdr) (fun s => s.setBit (ML_STAT n) ML_STAT_LOCK false)
    if s.laneMode n ≠ 1 then s.when (c == .cdr) (fun s => s.setFld (ML_STAT n) ML_STAT_RATE 0)
    else match c with
      | .changed lines =>
        if held then (s.incBy (ML_FILLLN n) ML_FILLLN_COUNT lines).longLoss n else s.beginLoss n false true
      | .cdr => if held then s else s.beginLoss n false false
      | .eav => if held then s else s.beginLoss n false false

/-- R310: LOLHOLD expires while the flywheel runs; `lines` lines were filled. -/
def opLolhold (n lines : Nat) (s : State) : State :=
  if s.statBit n ML_STAT_HOLD then
    let s := s.incBy (ML_FILLLN n) ML_FILLLN_COUNT lines
    s.longLoss n
  else s

/-- R310: the EAV returns at the flywheel position; a loss that began with LOS is recorded as LOS only (R309). -/
def opLolshort (n lines frames : Nat) (s : State) : State :=
  if s.statBit n ML_STAT_HOLD && !s.statBit n ML_STAT_LOS then
    let byLos := (s.lane n).byLos
    let s := s.incBy (ML_FILLLN n) ML_FILLLN_COUNT lines
    let s := s.setBit (ML_STAT n) ML_STAT_HOLD false
    let s := s.setBit (ML_STAT n) ML_STAT_LOCK true
    let s := s.setBit (ML_STAT n) ML_STAT_FRAMED true
    s.when (!byLos) (fun s => (s.incBy (ML_ERRFRM n) ML_ERRFRM_COUNT frames).mlnHist n 2)
  else s

/-- R304, R312: the measured content has been stable for two frames. -/
def opPublish (n raster rate : Nat) (levelB : Bool) (s : State) : State :=
  if s.bondFirst n ≠ n ∨ s.laneMode n ≠ 1 ∨ !s.statBit n ML_STAT_FRAMED then s
  else
    let d := s.buildDet n raster rate
    let s := s.setBit (ML_STAT n) ML_STAT_LEVELBIN (levelB && s.bondAt n == 0 && raster == 5 && decide (6 ≤ rate))
    s.setDet n d.1 d.2

/-! ## The payload ID (R306, R313) -/

/-- A frame with a payload ID mismatch is counted (R313). -/
def State.pidMiss (s : State) (n : Nat) : State := (s.inc (ML_PIDERR n) ML_PIDERR_COUNT).mlnHist n 5

/-- The bytes that a payload ID check received. -/
def pidBytes : PidOutcome → Word
  | .ok p _ _ _ => p
  | .absent => 0
  | .mismatch p => p
  | .unsupported p => p
  | .otherBond p => p
  | .wrongLink p => p

/-- A payload ID that bars the bond's descriptor while its link carries it (R306, R313). -/
def pidBars : PidOutcome → Bool
  | .ok _ _ _ _ => false
  | .absent => false
  | .mismatch _ => false
  | .unsupported _ => true
  | .otherBond _ => true
  | .wrongLink _ => true

/-- The check of link `k` of the bond with first lane `m`: an agreeing or absent payload ID counts on the first link, and what
is wrong with any link bears on the bond (R305, R306, R313). -/
def State.pidLink (s : State) (m k : Nat) (o : PidOutcome) : State :=
  let s := s.setLane k { s.lane k with barred := pidBars o }
  let x := s.lane m
  match o with
  | .ok pid sampling transfer colour =>
    if k ≠ m then s
    else
      let r := min 2 (x.okRun + 1)
      let s := s.setLane m { x with
        okRun := r, noneRun := 0, pid := pid, sampling := sampling.toNat, transfer := transfer.toNat
        colour := if colour then 1 else 0 }
      s.when (r == 2) (fun s => s.setBit (ML_STAT m) ML_STAT_PIDOK true)
  | .absent =>
    if k ≠ m then s
    else
      let r := min 2 (x.noneRun + 1)
      let s := s.setLane m { x with okRun := 0, noneRun := r }
      s.when (r == 2) (fun s => s.setBit (ML_STAT m) ML_STAT_PIDOK false)
  | .mismatch _ => ((s.pidBad m).pidMiss m).setDet m (s.fld (ML_DET m) ML_DET_DESC) 0
  | .unsupported _ => ((s.pidBad m).mlnHist m 6).setDet m 0 0
  | .otherBond _ => ((s.pidBad m).pidMiss m).setDet m 0 0
  | .wrongLink _ => ((s.pidBad m).mlnHist m 5).setDet m 0 0

/-- R305, R306, R313: a partner shows the payload ID of its link. -/
def opPidCheck (n : Nat) (o : PidOutcome) (s : State) : State :=
  if s.laneMode n ≠ 1 ∨ !s.statBit n ML_STAT_FRAMED then s
  else
    let m := s.bondFirst n
    (s.when (m != n) (fun s => s.wr (ML_DETPID n) (pidBytes o))).pidLink m n o

/-- R314: HD and higher rates. The line reaches FSA by ERRORED_LINE. -/
def opLineCrc (n : Nat) (s : State) : State :=
  if s.laneMode n = 1 && s.statBit n ML_STAT_LOCK && decide (2 ≤ s.fld (ML_STAT n) ML_STAT_RATE) then
    (s.inc (ML_CRCLN n) ML_CRCLN_COUNT).mlnHist n 3
  else s

/-- R315: SD. -/
def opEdh (n : Nat) (packet agree : Bool) (s : State) : State :=
  if s.laneMode n = 1 && s.statBit n ML_STAT_LOCK && s.fld (ML_STAT n) ML_STAT_RATE == 1 && packet && !agree then
    (s.inc (ML_EDHFLD n) ML_EDHFLD_COUNT).mlnHist n 4
  else s

/-- R306: the skew measured on a bond. -/
def opBondSkew (n ns : Nat) (s : State) : State :=
  if s.bondFirst n ≠ n ∨ s.bondAt n = 0 then s
  else
    let was := (s.lane n).skewed
    let bad : Bool := decide (400 < ns)
    let s := s.setFld (ML_SKEW n) ML_SKEW_NS ns
    let s := s.setLane n { s.lane n with skewed := bad }
    let s := s.when (bad && !was) (fun s => s.mlnHist n 7)
    s.when bad (fun s => s.setDet n 0 0)

/-- R307: the equaliser has stood at an end of its range for 100 ms while line CRC errors occurred; where it tracks (ADAPT 2),
`top` says at which end. -/
def opEqlimit (n : Nat) (top : Bool) (s : State) : State :=
  if s.laneMode n ≠ 1 ∨ !s.statBit n ML_STAT_LOCK then s
  else
    let s := s.when (s.fld (ML_RXCFG n) ML_RXCFG_ADAPT == 2)
      (fun s => s.setFld (ML_STAT n) ML_STAT_EQVAL (if top then 48 else 0))
    let v := s.fld (ML_STAT n) ML_STAT_EQVAL
    s.when (v == 0 || v == 48) (fun s => s.mlnHist n 8)

/-- R323: at most one line of words is lost, and the FIFO recentres at the next frame start. -/
def opTxfifo (n : Nat) (s : State) : State := s.mlnHist n 9

/-! ## MLn_CTRL (R297, R298, R305, R318, R548) -/

/-- Lane `n` is named by a port of R329 with this MPp_CFG. -/
def portLanes (p : Nat) (cfg : Word) : List Nat :=
  let m := p / 2
  if p % 2 = 0 ∧ MP_CFG_WIDE.get cfg = 1 then (List.range 4).map (fun i => 8 * m + 4 * MP_CFG_QUAD.get cfg + i)
  else [8 * m + MP_CFG_LANE.get cfg]

/-- R298: an enabled MAC instance uses the lane. -/
def State.macUses (s : State) (n : Nat) : Bool :=
  [n / 8 * 2, n / 8 * 2 + 1].any (fun p => s.bit (MP_CFG p) MP_CFG_EN && (portLanes p (s.rd (MP_CFG p))).contains n)

/-- A destination track of the lane is routed; a lost entry is (R182). -/
def State.laneRouted (s : State) (n : Nat) : Bool :=
  (List.range 4).any (fun i => (s.entryOf (4 * n + i)).isSome)

/-- A change waits on a destination track of the lane: an immediate one, or the entry of a committing salvo (R212). -/
def State.lanePending (s : State) (n : Nat) : Bool := (List.range 4).any (fun i => (s.pendingAt (4 * n + i)).isSome)

/-- A destination track of the lane is held by an open or committing salvo. -/
def State.laneHeld (s : State) (n : Nat) : Bool := (List.range 4).any (fun i => s.trackHeld (4 * n + i) (fun _ => true))

/-- R298, R305, R323, R548: what refuses a write of MLn_CTRL. -/
def State.laneRefuses (s : State) (n : Nat) (v : Word) : Bool :=
  let mode := ML_CTRL_MODE.get v
  let bond := ML_CTRL_BOND.get v
  let old := s.bondSet n
  let new := (List.range (bondLanes bond)).map (fun i => n + i)
  let modeBad := mode != s.fld (ML_CTRL n) ML_CTRL_MODE &&
    (s.laneRouted n || s.laneHeld n || s.bondAt n != 0 || s.macUses n
      || (modeOf mode != 0 && s.fenced (unitMlg (n / 16))))
  let bondBad := bond != s.bondField n &&
    (bond == 3 || (bond == 1 && n % 2 != 0) || (bond == 2 && n % 4 != 0) || s.bondFirst n != n
      || (new.drop 1).any (fun k => s.fld (ML_CTRL k) ML_CTRL_MODE != 1)
      || (old ++ new).any s.laneRouted)
  modeBad || bondBad

/-- PARTNER, and what a partner reports (R305). -/
def State.markPartner (s : State) (k : Nat) : State :=
  let part : Bool := s.bondFirst k != k
  let was := s.statBit k ML_STAT_PARTNER
  let s := s.setBit (ML_STAT k) ML_STAT_PARTNER part
  if part && !was then
    let s := s.setBit (ML_STAT k) ML_STAT_PIDOK false
    let s := s.setBit (ML_STAT k) ML_STAT_LEVELBIN false
    s.setDet k 0 0
  else s

/-- R318: transmitters that idle or run at once: MODE 0 idles, and so does an SDI output whose mode or bond has changed
(`fresh`) until its next frame boundary; an Ethernet lane follows TXEN and its group PLL. -/
def State.settleTx (s : State) (fresh : Bool) (k : Nat) : State :=
  let m := s.laneMode k
  if m = 0 then s.setBit (ML_STAT k) ML_STAT_TXIDLE true
  else if m = 1 then s.when fresh (fun s => s.setBit (ML_STAT k) ML_STAT_TXIDLE true)
  else s.setBit (ML_STAT k) ML_STAT_TXIDLE (!(s.laneTx k && s.pllUp k))

def opMlnCtrl (n : Nat) (v : Word) (s : State) : State :=
  if s.laneRefuses n v then s.mlnHist n 10
  else
    let old := s.rd (ML_CTRL n)
    let lanes := s.bondSet n
    let s := s.fieldWrite (ML_CTRL n) v
    let lanes := lanes ++ (s.bondSet n).filter (fun k => !lanes.contains k)
    let mode := modeOf (ML_CTRL_MODE.get v)
    let s := s.when (mode != 0 && modeOf (ML_CTRL_MODE.get old) == 0)
      (fun s => (s.abandonSlice (unitMlg (n / 16))).startDomain (domMlg (n / 16)))
    let s := s.each lanes State.markPartner
    let fresh : Bool := ML_CTRL_MODE.get v != ML_CTRL_MODE.get old || ML_CTRL_BOND.get v != ML_CTRL_BOND.get old
    -- a partner's own RXEN is ignored (R305)
    let restart : Bool := fresh || (s.bondFirst n == n && ML_CTRL_RXEN.get v != ML_CTRL_RXEN.get old)
    let s := s.each lanes (fun s k =>
      let lost : Bool := s.statBit k ML_STAT_LOCK
        && !rateAllowed (s.laneMode k) (ML_CTRL_RXRATE.get (s.rd (ML_CTRL (s.bondFirst k)))) (s.fld (ML_STAT k) ML_STAT_RATE)
      s.when (restart || lost) (fun s => s.restartRx k))
    s.each lanes (fun s k => s.settleTx fresh k)

/-! ## The transmitter (R318, R319, R324) -/

/-- R319: what refuses a write of MLn_TXFMT. -/
def State.txfmtRefuses (s : State) (n : Nat) (v : Word) : Bool :=
  let f := highFmt v.toNat
  s.laneRouted n || s.lanePending n || (Tbl.find? s.xpt.seqs (4 * n)).isSome
    || (Tbl.find? s.mln.fallow n).isSome
    || (!f.none && (!f.valid || f.bond != s.bondAt n))

/-- R305, R319: a partner's own TXFMT has no effect; it names a format of R27 all the same. -/
def opTxfmt (n : Nat) (v : Word) (s : State) : State :=
  let f := highFmt v.toNat
  if s.bondFirst n ≠ n then (if f.none || f.valid then s.fieldWrite (ML_TXFMT n) v else s.mlnHist n 10)
  else if s.txfmtRefuses n v then s.mlnHist n 10
  else
    let old := s.fld (ML_TXFMT n) ⟨0, 32⟩
    let s := s.fieldWrite (ML_TXFMT n) v
    if s.laneMode n = 1 && s.laneTx n && old % 256 != 0 then
      s.setMln { s.mln with fallow := Tbl.put s.mln.fallow n (old, 2) }
    else s

/-! ## Embedded audio (R17, R423, R427, R430, R433) -/

/-- Silence (R423). -/
def silence : Nat := 8191

/-- The source a destination's map names (R427). -/
def State.mapOf (s : State) (d : Nat) : Nat := Tbl.getD s.aud.maps d silence

/-- The source whose samples a destination carries: silence after a parity error (R430). -/
def State.audSource (s : State) (d : Nat) : Nat := if s.aud.par.contains d then silence else s.mapOf d

/-- The format of the words that the output of lane `n` carries (R176, R207, R318, R319). -/
def State.outFmt (s : State) (n : Nat) : Fmt := (s.runFmt (4 * n)).getD Fmt.zero

/-- Some channel of group `g` of embedder EM`n` is mapped. -/
def State.groupMapped (s : State) (n g : Nat) : Bool :=
  (List.range 4).any (fun i => s.mapOf (16 * n + 4 * g + i) != silence)

/-- The embedder of media lane `n` is active (R17, R433). -/
def State.embedding (s : State) (n : Nat) : Bool :=
  (List.range 4).any (s.groupMapped n) && decide (3 ≤ (s.outFmt n).raster) && s.bondFirst n == n

/-- The groups inserted on the output of lane `n`: those with a mapped channel where the embedder is active; group 1 as
silence on the Fallow raster of an HD or higher output (R433). -/
def State.embedded (s : State) (n : Nat) (src : Option Nat) : List (Nat × List Nat) :=
  if s.embedding n then
    ((List.range 4).filter (s.groupMapped n)).map (fun g =>
      (g + 1, (List.range 4).map (fun i => s.audSource (16 * n + 4 * g + i))))
  else if src.isNone && decide (3 ≤ (s.outFmt n).raster) then [(1, [silence, silence, silence, silence])]
  else []

/-! ## Output frames (R316-R319, R324) -/

/-- The source track whose picture the output of lane `n` carries, none for the Fallow raster (R180, R207, R318); an output with
a lost entry carries that (R182). -/
def State.outSource (s : State) (n : Nat) : Option Nat :=
  match s.entryOf (4 * n) with
  | some (k, w, fallow) =>
    if fallow || (Tbl.find? s.xpt.seqs (4 * n)).isSome || (List.range w).any (fun i => s.lostEntry (4 * n + i)) then none
    else some k
  | none => none

/-- The frame that the output of lane `n` sends (R301-R304, R316, R317, R433). -/
def State.sentFrame (s : State) (n : Nat) : SentFrame :=
  let f := s.outFmt n
  let src := s.outSource n
  let sd : Bool := f.raster == 1 || f.raster == 2
  let links := bondLanes f.bond
  { lane := n
    lanes := links
    rate := f.lineRate
    fmt := f
    src := src
    levelB := s.bit (ML_CTRL n) ML_CTRL_LEVELB && f.raster == 5 && f.count == 1 && decide (6 ≤ f.rate)
    trs := linesOf f.raster
    numbered := if sd then 0 else linesOf f.raster
    edh := if sd then some 0 else none
    pids := f.payloadIds
    pidLines := pidLines f.raster
    strip := s.embedding n
    groups := s.embedded n src }

/-- R316, R318, R319, R324: a frame of the output of lane `n` begins. -/
def opOutputFrame (n : Nat) (s : State) : State :=
  if s.bondFirst n ≠ n ∨ s.laneMode n ≠ 1 then s
  else
    let s := match Tbl.find? s.mln.fallow n with
      | none => s
      | some (old, k) => s.setMln { s.mln with
          fallow := if k ≤ 1 then Tbl.del s.mln.fallow n else Tbl.put s.mln.fallow n (old, k - 1) }
    let carries : Bool := (s.route? (4 * n)).isSome || !(s.laneFmt n).none
    let on : Bool := s.laneTx n && carries && s.powerActive && !s.safe
    let s := s.each (s.bondSet n) (fun s k => s.setBit (ML_STAT k) ML_STAT_TXIDLE (!(on && s.pllUp k)))
    s.when (on && s.pllUp n) (fun s => s.emit (.frame (s.sentFrame n)))

/-- What lanes of `l` report in the cycle in which `f` happens to them: the HIST bits that set in it raise each source once,
however many lanes report to it (R326, R527). -/
def State.reportTogether (s : State) (l : List Nat) (f : State → State) : State :=
  let t := f (s.each l (fun s n => (s.wr (ML_HIST n) 0).wr (ML_HDGEN n) 0))
  let told := l.map (fun n => t.rd (ML_HIST n) &&& s.rd (ML_HDGEN n))
  let t := t.each l (fun t n => (t.wr (ML_HIST n) (s.rd (ML_HIST n) ||| t.rd (ML_HIST n))).wr (ML_HDGEN n) (s.rd (ML_HDGEN n)))
  t.each ((List.range 12).filter (fun k => told.any (fun w => w.getLsbD k))) (fun t k => t.raise (if k ≤ 10 then k else 12))

/-- R324: the transmitters of the group idle and its receivers lose lock. -/
def opGrppll (g : Nat) (s : State) : State :=
  if !s.bit MLN_GRPSTAT ⟨g, 1⟩ then s
  else
    let s := s.setBit MLN_GRPSTAT ⟨g, 1⟩ false
    let s := s.raise 11
    let l := (List.range 16).map (fun i => 16 * g + i)
    s.reportTogether l (fun s => s.each l (fun s k =>
      let s := s.setBit (ML_STAT k) ML_STAT_TXIDLE true
      if s.statBit k ML_STAT_LOCK then
        let s := s.setBit (ML_STAT k) ML_STAT_LOCK false
        if s.laneMode k = 1 && !s.statBit k ML_STAT_HOLD then s.beginLoss k false false else s
      else s))

/-- R324, R488: the PLL of a group that runs relocks; SDI outputs resume at their next frame. -/
def opPllRelock (g : Nat) (s : State) : State :=
  if s.bit PWR_DOMSTAT ⟨domMlg g, 1⟩ then
    let s := s.setBit MLN_GRPSTAT ⟨g, 1⟩ true
    s.each ((List.range 16).map (fun i => 16 * g + i)) (fun s k => s.settleTx false k)
  else s

/-- R327. -/
def opMlnClrcnt (s : State) : State :=
  s.resetRegs (fun a => decide (ML_CTRL 0 ≤ a ∧ a < ML_CTRL 256) && decide (0x40 ≤ (a - ML_CTRL 0) % 0x400))

/-! ## The commands -/

def execMlnCtrlWrite (n : Lane) (v : Word) (s : State) : Host.Outcome State Fault Refusal :=
  doneBar s (opMlnCtrl n.val v s)
def execTxfmtWrite (n : Lane) (v : Word) (s : State) : Host.Outcome State Fault Refusal := doneBar s (opTxfmt n.val v s)
def execMediaOutputFrameStart (n : Lane) (s : State) : Host.Outcome State Fault Refusal :=
  done s (opOutputFrame n.val s)
def execLosSet (n : Lane) (s : State) : Host.Outcome State Fault Refusal := done s (opLosSet n.val s)
def execLosClear (n : Lane) (s : State) : Host.Outcome State Fault Refusal := done s (opLosClear n.val s)
def execCdrLock (n : Lane) (rate : Fin 12) (s : State) : Host.Outcome State Fault Refusal :=
  done s (opCdrLock n.val rate.val s)
def execFramed (n : Lane) (s : State) : Host.Outcome State Fault Refusal := done s (opFramed n.val s)
def execLossOfLock (n : Lane) (c : LockLoss) (s : State) : Host.Outcome State Fault Refusal :=
  done s (opLossOfLock n.val c s)
def execLolholdExpiry (n : Lane) (lines : Nat) (s : State) : Host.Outcome State Fault Refusal :=
  done s (opLolhold n.val lines s)
def execLolshort (n : Lane) (lines frames : Nat) (s : State) : Host.Outcome State Fault Refusal :=
  done s (opLolshort n.val lines frames s)
def execDescriptorPublish (n : Lane) (raster rate : Byte) (levelB : Bool) (s : State) :
    Host.Outcome State Fault Refusal :=
  done s (opPublish n.val raster.toNat rate.toNat levelB s)
def execPayloadIdCheck (n : Lane) (o : PidOutcome) (s : State) : Host.Outcome State Fault Refusal :=
  done s (opPidCheck n.val o s)
def execLineCrcError (n : Lane) (s : State) : Host.Outcome State Fault Refusal := done s (opLineCrc n.val s)
def execEdhCheck (n : Lane) (packet agree : Bool) (s : State) : Host.Outcome State Fault Refusal :=
  done s (opEdh n.val packet agree s)
def execBondSkew (n : Lane) (ns : BitVec 9) (s : State) : Host.Outcome State Fault Refusal :=
  done s (opBondSkew n.val ns.toNat s)
def execEqlimit (n : Lane) (top : Bool) (s : State) : Host.Outcome State Fault Refusal := done s (opEqlimit n.val top s)
def execTxfifo (n : Lane) (s : State) : Host.Outcome State Fault Refusal := done s (opTxfifo n.val s)
def execMlnGrppll (g : Fin 16) (s : State) : Host.Outcome State Fault Refusal := done s (opGrppll g.val s)
def execGroupPllRelock (g : Fin 16) (s : State) : Host.Outcome State Fault Refusal := done s (opPllRelock g.val s)
def execMlnClrcnt (s : State) : Host.Outcome State Fault Refusal := doneBar s (opMlnClrcnt s)

end Sys2Proof.Machine
end

