-- ==== Sys2Proof/Machine/Macs.lean ====
section
/-! DEFINITION. Ethernet MACs: port configuration, link-up and preemption verify, received frames and their verdicts,
transmission with cut-through and preemption, wake frames and counters (R329-R348). -/

namespace Sys2Proof.Machine

open Sys2Proof

/-! ## Ports (R329, R346-R348) -/

def MacPort.idle : MacPort := ⟨0, none, [], [], none, none, [], none⟩

def State.port (s : State) (p : Nat) : MacPort := Tbl.getD s.mac.ports p MacPort.idle

def State.setPort (s : State) (p : Nat) (x : MacPort) : State :=
  { s with mac := { s.mac with ports := Tbl.putD s.mac.ports p x MacPort.idle } }

/-- Add to a counter of port `p`, named by its shadow register: octet counters wrap at 64 bits, the others saturate
(R347). -/
def State.macCount (s : State) (p reg n : Nat) : State :=
  let x := s.port p
  let old := Tbl.getD x.counts reg 0
  let v := if reg = MAC_RXOCT_LO ∨ reg = MAC_TXOCT_LO then (old + n) % 2 ^ 64 else min (old + n) (2 ^ 32 - 1)
  s.setPort p { x with counts := Tbl.putD x.counts reg v 0 }

/-- A HIST bit sets and raises its source (R348). -/
def State.macHist (s : State) (p k : Nat) : State := (s.setBit (MP_HIST p) ⟨k, 1⟩ true).raise (64 + k)

def State.portOn (s : State) (p : Nat) : Bool := s.bit (MP_CFG p) MP_CFG_EN
def State.portUp (s : State) (p : Nat) : Bool := s.bit (MP_STAT p) MP_STAT_LINK

/-- The port runs 100GBASE-R; WIDE is reserved on an odd port (R329, R330). -/
def cfgWide (p : Nat) (v : Word) : Bool := p % 2 == 0 && MP_CFG_WIDE.get v == 1

/-- Speed code of STAT.SPEED that a configuration asks for: 0 where its lanes are in no Ethernet mode (R329, R346). -/
def State.cfgSpeed (s : State) (p : Nat) (v : Word) : Nat :=
  if cfgWide p v then 3
  else
    let m := (portLanes p v).foldl (fun _ k => modeOf (s.fld (ML_CTRL k) ML_CTRL_MODE)) 0
    if m = 2 then 1 else if m = 3 then 2 else 0

/-- MAXLEN clamped to 64-9,216 (R346). -/
def State.maxLen (s : State) (p : Nat) : Nat := min 9216 (max 64 (s.fld (MP_MAXLEN p) MP_MAXLEN_MAXLEN))

/-! ## MPp_CFG (R330, R344, R548) -/

/-- The lanes of R329 are in the mode that the port needs, with receiver and transmitter enabled. -/
def State.lanesReady (s : State) (p : Nat) (v : Word) : Bool :=
  (portLanes p v).all (fun k =>
    let m := s.fld (ML_CTRL k) ML_CTRL_MODE
    (if cfgWide p v then m == 3 else m == 2 || m == 3)
      && s.bit (ML_CTRL k) ML_CTRL_RXEN && s.bit (ML_CTRL k) ML_CTRL_TXEN)

def State.portRefuses (s : State) (p : Nat) (v : Word) : Bool :=
  let old := s.rd (MP_CFG p)
  let other := if p % 2 = 0 then p + 1 else p - 1
  let start := MP_CFG_EN.get v == 1 && MP_CFG_EN.get old == 0
  let speed := s.cfgSpeed p v
  let wake := MP_CFG_WAKEEN.get v == 1 && MP_CFG_WAKEEN.get old == 0
  (start && !s.lanesReady p v)
    || (start && s.portOn other && (cfgWide other (s.rd (MP_CFG other)) || cfgWide p v))
    || (start && s.portOn other && (portLanes p v).any (fun k => (portLanes other (s.rd (MP_CFG other))).contains k))
    || (start && s.fenced (unitMac (p / 2)))
    || (MP_CFG_FEC.get v == 2 && speed == 1)
    || (MP_CFG_AN.get v == 1 && (speed == 1 || speed == 3))
    || MP_CFG_FEC.get v == 3
    || (MP_CFG_EN.get old == 1 && ((s.written (MP_CFG p) v).1.toNat % 2 ^ 18) / 2 != (old.toNat % 2 ^ 18) / 2)
    || (wake && (speed == 3 || MP_CFG_FEC.get v == 2
        || decide (4 ≤ ((List.range 64).filter (fun q => s.bit (MP_CFG q) MP_CFG_WAKEEN)).length)))

/-- The port has nothing in progress: no verify attempt, no frame being sent or waiting, none being reassembled. -/
def MacPort.clear (x : MacPort) : MacPort := { x with attempts := 0, tx := none, ahead := [], queue := [], reasm := none }

/-- The link of a port is down: its status, its verify state and the frame being sent are gone, and those that wait are
discarded (R337, R343). -/
def State.portDown (s : State) (p : Nat) : State :=
  let fec := s.fld (MP_STAT p) MP_STAT_FECRES
  let s := (s.resetReg (MP_STAT p)).setFld (MP_STAT p) MP_STAT_FECRES fec
  let s := s.macCount p MAC_TXDISC (s.port p).queue.length
  s.setPort p (s.port p).clear

/-- In Fallow the MAC block is stopped but for the wake detectors (R344). -/
def State.macStopped (s : State) : Bool := s.fld PWR_STAT PWR_STAT_STATE == 2

/-- An enabled 25GBASE-R port with AN advertises 25GBASE-KR/CR, and requests the FEC of its FEC field (R331). -/
def State.advertise (s : State) (p : Nat) : State :=
  let v := s.rd (MP_CFG p)
  s.when (s.portOn p && MP_CFG_AN.get v == 1 && s.cfgSpeed p v == 2) (fun s => s.emit (.advertise p (MP_CFG_FEC.get v)))

def opMppCfg (p : Nat) (v : Word) (s : State) : State :=
  if s.portRefuses p v then s.macHist p 8
  else
    let was := s.portOn p
    let s := s.fieldWrite (MP_CFG p) v
    if !was && s.portOn p then (s.abandonSlice (unitMac (p / 2))).advertise p
    else if was && !s.portOn p then (s.portDown p).resetReg (MP_STAT p)
    else s

/-! ## Link and preemption (R331, R337, R339, R343) -/

/-- MPp_MAXLEN holds 64-9,216, and a value outside is clamped (R346). -/
def opMaxLen (p : Nat) (v : Word) (s : State) : State :=
  let s := s.fieldWrite (MP_MAXLEN p) v
  s.setFld (MP_MAXLEN p) MP_MAXLEN_MAXLEN (s.maxLen p)

/-- R331, R337, R346. -/
def opLinkUp (p : Nat) (s : State) : State :=
  if !s.portOn p || s.macStopped then s
  else
    let v := s.rd (MP_CFG p)
    let st := MP_STAT p
    let speed := s.cfgSpeed p v
    let s := s.setBit st MP_STAT_LINK true
    let s := s.setBit st MP_STAT_ALIGN (speed == 3)
    let s := s.setFld st MP_STAT_SPEED speed
    let s := if speed = 3 then s.setFld st MP_STAT_FECRES 3
      else if MP_CFG_AN.get v = 1 then s
      else s.setFld st MP_STAT_FECRES (MP_CFG_FEC.get v)
    let s := s.setFld st MP_STAT_VERST (if MP_CFG_PREEN.get v = 0 then 0 else if MP_CFG_VERIFY.get v = 1 then 1 else 2)
    s.setPort p (s.port p).clear

/-- R337: a 10 ms verify attempt ends; the third failure ends the procedure. -/
def opVerify (p : Nat) (ok : Bool) (s : State) : State :=
  if s.fld (MP_STAT p) MP_STAT_VERST ≠ 1 ∨ s.macStopped then s
  else if ok then s.setFld (MP_STAT p) MP_STAT_VERST 2
  else
    let x := s.port p
    if x.attempts < 2 then s.setPort p { x with attempts := x.attempts + 1 }
    else ((s.setPort p { x with attempts := 3 }).setFld (MP_STAT p) MP_STAT_VERST 3).macHist p 6

/-- R331: only a 25GBASE-R port negotiates. -/
def opAutoNeg (p fec : Nat) (s : State) : State :=
  let v := s.rd (MP_CFG p)
  if s.portOn p && !s.macStopped && MP_CFG_AN.get v == 1 && s.cfgSpeed p v == 2 then s.setFld (MP_STAT p) MP_STAT_FECRES fec else s

/-- R343: a frame in reception is invalid, and a port that negotiates begins again. -/
def opLinkDown (p : Nat) (s : State) : State :=
  if !s.portUp p || s.macStopped then s
  else
    let s := s.when (s.port p).reasm.isSome (fun s => (s.macCount p MAC_RXFCS 1).macHist p 1)
    ((s.portDown p).macHist p 0).advertise p

/-- R337: preemption is active. -/
def State.preempting (s : State) (p : Nat) : Bool := s.portUp p && s.fld (MP_STAT p) MP_STAT_VERST == 2

/-- The first counter of R334 that applies to an invalid frame, with its HIST bit; a frame that only a PCS or FEC error
makes invalid counts in the last. A frame that is not reassembled never gets here. -/
def State.verdict (s : State) (p : Nat) (f : RxFrame) : Option (Nat × Nat) :=
  if f.len < 64 then some (MAC_RXRUNT, 2)
  else if s.maxLen p < f.len then some (MAC_RXOVR, 3)
  else if !f.fcsOk || f.pcsErr || !s.portUp p then some (MAC_RXFCS, 1)
  else none

/-- 16-bit two's complement. -/
def signed16 (n : Nat) : Int := if n < 32768 then n else (n : Int) - 65536

/-- The full time in ns of the instant `ago` ns before now in the port's time base (MPp_CFG.TBSEL), with the correction `cor`
of its TIM_PORTp_COR; the value lies within the uncertainty of the port's speed, and where in it is a free value (R458; log
entry 30). -/
def State.portStamp (s : State) (p ago : Nat) (cor : Field) : Int × State :=
  let u := if s.fld (MP_STAT p) MP_STAT_SPEED = 1 then 4 else 2
  let f := s.freshPick (2 * u + 1)
  ((s.fullTime (s.fld (MP_CFG p) MP_CFG_TBSEL) : Int) - ago + signed16 (s.fld (TIM_PORT_COR p) cor) + f.1 - u, f.2)

/-- A valid frame's timestamp is delivered (R458). -/
def State.stampRx (s : State) (p ago : Nat) : State :=
  let t := s.portStamp p ago TIM_PORT_COR_INGCOR
  t.2.setPort p { t.2.port p with rxStamp := some t.1 }

/-- The timestamp of a transmitted frame that firmware marks; a later instant has a negative `ago`, given as `wait` (R458). -/
def State.stampTx (s : State) (p wait : Nat) : State :=
  let t := s.portStamp p 0 TIM_PORT_COR_EGRCOR
  t.2.setPort p { t.2.port p with txStamp := some (t.1 + wait) }

/-- The frame being reassembled ends as invalid (R334, R340). -/
def State.reasmFails (s : State) (p : Nat) : State :=
  (s.setPort p { s.port p with reasm := none } |>.macCount p MAC_RXREASM 1).macHist p 4

/-- A frame or fragment joins what the port has received of its frame (R340): the frame as a whole once it is complete. Express
frames are never in fragments. DESIGN CHOICE: a continuation with no start counts as one invalid frame, and so does a fragment
whose own check fails (log entry 30). -/
def State.reassemble (s : State) (p : Nat) (f : RxFrame) : State × Option RxFrame :=
  let x := s.port p
  if f.express then (s, some f)
  else
    match f.frag, x.reasm with
    | .whole, none => (s, some f)
    | .whole, some _ => (s.reasmFails p, some f)
    | .first n, r =>
      let s := s.when r.isSome (fun s => s.reasmFails p)
      if f.fcsOk then (s.setPort p { s.port p with reasm := some (n.val, 0, f.len) }, none) else (s.reasmFails p, none)
    | .next n c last, some (m, k, len) =>
      if n.val ≠ m ∨ c.val ≠ k then (s.reasmFails p, none)
      else if last then (s.setPort p { x with reasm := none }, some { f with len := len + f.len })
      else if f.fcsOk then (s.setPort p { x with reasm := some (m, (k + 1) % 4, len + f.len) }, none)
      else (s.reasmFails p, none)
    | .next _ _ _, none => (s.reasmFails p, none)

/-- R334, R335, R343, R458; in Fallow a frame that is no wake frame is dropped and not counted (R345). -/
def opFrameReceived (p : Nat) (f : RxFrame) (s : State) : State :=
  if !s.portOn p || s.macStopped then s
  else
    let r := (s.macCount p MAC_FECCOR f.corrected.toNat).reassemble p f
    let s := r.1
    match r.2 with
    | none => s
    | some f =>
      match s.verdict p f with
      | some (c, h) => (s.macCount p c 1).macHist p h
      | none =>
        let s := (s.macCount p MAC_RXFRM 1).macCount p MAC_RXOCT_LO f.len
        let s := s.when f.express (fun s => s.macCount p MAC_RXEXP 1)
        let s := s.stampRx p f.ago.toNat
        if f.control then s.macCount p MAC_RXDROP 1
        else if f.space then s
        else (s.macCount p MAC_RXDROP 1).macHist p 9

/-- R343. -/
def opFecUnc (p : Nat) (s : State) : State :=
  if s.portOn p && !s.macStopped then (s.macCount p MAC_FECUNC 1).macHist p 7 else s

/-! ## Transmit (R333, R336-R343) -/

/-- One step of the CRC-32 of IEEE 802.3 over the low bit (R333). -/
def crc32Bit (x : Nat) : Nat := if x % 2 = 1 then (x / 2) ^^^ 0xEDB88320 else x / 2

def crc32Byte (x b : Nat) : Nat := (List.range 8).foldl (fun y _ => crc32Bit y) (x ^^^ b)

def crc32Bytes : List Byte → Nat → Nat
  | [], x => x
  | b :: l, x => withNat (crc32Byte x b.toNat) (crc32Bytes l)

/-- The IEEE 802.3 CRC-32 of a frame's bytes. -/
def etherCrc (l : List Byte) : Nat := crc32Bytes l 0xFFFFFFFF ^^^ 0xFFFFFFFF

/-- A check sequence as it is sent: its low byte first. -/
def fcsBytes (n : Nat) : List Byte := (List.range 4).map (fun i => BitVec.ofNat 8 (n / 256 ^ i))

/-- A frame of fewer than 60 bytes is padded with zero bytes to 60 (R333). -/
def padded (l : List Byte) : List Byte := l ++ List.replicate (60 - l.length) 0

/-- The frame as it stands on the wire: padded, with its FCS (R333). -/
def wireFrame (l : List Byte) : List Byte := padded l ++ fcsBytes (etherCrc (padded l))

/-- PTP messages that firmware builds are express, every other frame is preemptable (R336). -/
def expressKind (k : FrameKind) : Bool :=
  match k with
  | .essence _ => false
  | .ptpEvent => true
  | .ptpGeneral => true
  | .other => false

/-- The transmit flow whose packet the frame is. -/
def kindFlow (k : FrameKind) : Option Nat :=
  match k with
  | .essence f => some f.val
  | .ptpEvent => none
  | .ptpGeneral => none
  | .other => none

/-- A frame of `len` bytes before its FCS has been sent whole and valid. -/
def State.frameSent (s : State) (p : Nat) (len : Nat) (express : Bool) : State :=
  let s := (s.macCount p MAC_TXFRM 1).macCount p MAC_TXOCT_LO (len + 4)
  s.when express (fun s => s.macCount p MAC_TXEXP 1)

/-- The rest of a frame, with its FCS, goes onto the wire: the whole of it where no fragment has left. -/
def State.emitRest (s : State) (p : Nat) (f : TxFrame) : State :=
  s.when (f.sent != f.data.length) (fun s => s.emit (.ether p (f.data.drop f.sent ++ fcsBytes (etherCrc f.data))))

/-- The frame that was being sent has ended before the next one starts (log entry 30). -/
def State.endTx (s : State) (p : Nat) : State :=
  let x := s.port p
  match x.tx with
  | none => s
  | some f =>
    let s := (s.setPort p { x with tx := none }).emitRest p f
    if f.whole then s else s.frameSent p f.data.length f.express

/-- R341: a frame of `len` bytes may start with `buffered` of them in the buffer. -/
def State.mayStart (s : State) (p len : Nat) (express : Bool) (buffered : Nat) : Bool :=
  decide (len ≤ buffered) ||
    (!express && s.bit (MP_CFG p) MP_CFG_CUTTHRU && decide (s.fld (MP_STARTTH p) MP_STARTTH_STARTTH ≤ buffered))

/-- The first packets of a canvas's slices that wait on the port stand ahead of this frame (R369). -/
def State.standsBack (s : State) (p : Nat) (express : Bool) (flow : Option Nat) : Bool :=
  !express && (match (s.port p).ahead with
    | [] => false
    | k :: _ => flow != some k)

/-- A waiting frame may start now: while hold is applied no preemptable frame does (R339, R341, R369). -/
def State.startable (s : State) (p : Nat) (q : Offered) : Bool :=
  let e := expressKind q.kind
  s.mayStart p q.data.length e q.buffered && (e || !s.bit (MP_STAT p) MP_STAT_HOLD) && !s.standsBack p e (kindFlow q.kind)

/-- The frame that starts next: the oldest express frame that may, else the oldest preemptable one, once it may; the first
packets of slices come before the other preemptable frames (R336, R369). -/
def State.nextOffered (s : State) (p : Nat) : Option Nat :=
  let q := (s.port p).queue
  match q.findIdx? (fun x => expressKind x.kind && s.startable p x) with
  | some i => some i
  | none =>
    match q.findIdx? (fun x => !expressKind x.kind && !s.standsBack p false (kindFlow x.kind)) with
    | none => none
    | some i => if (q[i]?).any (s.startable p) then some i else none

/-- Data bytes of the shortest non-final fragment, which its 4-byte check completes to 64 × (ADDFRAG + 1) (R338). -/
def State.minFragment (s : State) (p : Nat) : Nat := 64 * (s.fld (MP_CFG p) MP_CFG_ADDFRAG + 1) - 4

/-- An express frame, or hold, ends the fragment that is being sent, of whose frame `sent` bytes have left, at the first byte
where that fragment is long enough and the rest makes a final one of 64 bytes; else the frame is sent to its end (R338). The
continuation waits. PRESUMED: a fragment's check is the CRC so far with its low 16 bits inverted, as IEEE 802.3br has it (log
entry 30). -/
def State.interrupt (s : State) (p sent : Nat) : State :=
  let x := s.port p
  match x.tx with
  | none => s
  | some f =>
    let cut := max sent (f.sent + s.minFragment p)
    if f.express || f.sent == f.data.length || !s.preempting p || decide (f.data.length < cut + 60) then s.endTx p
    else
      let s := s.setPort p { x with tx := some { f with sent := cut, preempted := true } }
      let s := s.emit (.ether p ((f.data.take cut).drop f.sent ++ fcsBytes (etherCrc (f.data.take cut) ^^^ 0xFFFF)))
      s.when (!f.preempted) (fun s => s.macCount p MAC_TXPRE 1)

/-- A continuation that hold keeps back (R339). -/
def State.heldBack (s : State) (p : Nat) : Bool :=
  s.bit (MP_STAT p) MP_STAT_HOLD && (s.port p).tx.any (fun f => f.preempted)

/-- An express frame is sent, ahead of the rest of a preemptable frame where preemption is active (R338). -/
def State.sendExpress (s : State) (p : Nat) (data : List Byte) (sent : Nat) : State :=
  let s := if s.heldBack p then s else s.interrupt p sent
  (s.emit (.ether p (wireFrame data))).frameSent p (padded data).length true

/-- Frame `i` of the queue starts (R336, R341, R369); a whole frame that nothing can interrupt is sent at once. -/
def State.startFrame (s : State) (p i : Nat) : State :=
  let x := s.port p
  match x.queue[i]? with
  | none => s
  | some q =>
    let s := s.setPort p { x with queue := x.queue.eraseIdx i }
    let s := s.when q.marked (fun s => s.stampTx p 0)
    if expressKind q.kind then s.sendExpress p q.data 0
    else
      let s := s.endTx p
      let whole : Bool := decide (q.data.length ≤ q.buffered)
      let f : TxFrame := ⟨padded q.data, false, whole, false, 0⟩
      let now : Bool := whole && !s.preempting p
      let s := s.when now (fun s => s.emitRest p f)
      let y := s.port p
      let s := s.setPort p { y with
        tx := some { f with sent := if now then f.data.length else 0 }
        ahead := if (kindFlow q.kind).isSome && kindFlow q.kind == y.ahead.head? then y.ahead.tail else y.ahead }
      s.when whole (fun s => s.frameSent p f.data.length false)

/-- Every frame of the queue that may start does, in its turn. -/
def State.pump (s : State) (p : Nat) : State :=
  s.each (List.range (s.port p).queue.length) (fun s _ => match s.nextOffered p with
    | some i => s.startFrame p i
    | none => s)

/-- More of a frame has reached the buffer: of the one being sent, of one that waits, or of a new one. -/
def State.queueFrame (s : State) (p : Nat) (q : Offered) : State :=
  let x := s.port p
  let waits := x.queue.any (fun y => y.kind == q.kind && y.data == q.data)
  let queue := if waits then x.queue.map (fun y => if y.kind == q.kind && y.data == q.data then q else y)
    else x.queue ++ [q]
  let wait := s.setPort p { x with queue := queue }
  match x.tx with
  | some f =>
    if !f.whole ∧ f.data = padded q.data then
      s.when (decide (q.data.length ≤ q.buffered)) (fun s =>
        (s.setPort p { x with tx := some { f with whole := true } }).frameSent p f.data.length false)
    else wait
  | none => wait

/-- R336, R341, R343, R369: with the link down the frame is discarded. -/
def opFrameOffered (p : Nat) (q : Offered) (s : State) : State :=
  if s.macStopped then s
  else if !s.portUp p then s.macCount p MAC_TXDISC 1
  else (s.queueFrame p q).pump p

/-- Bytes sent in a second at the port's speed. -/
def State.byteRate (s : State) (p : Nat) : Nat :=
  let sp := s.fld (MP_STAT p) MP_STAT_SPEED
  125000000 * (if sp = 1 then 10 else if sp = 2 then 25 else 100)

/-- The longest wait of an express frame that becomes ready while a preemptable frame is being sent, to the end of its
preamble and start frame delimiter, in ns (R338). -/
def State.preemptWait (s : State) (p : Nat) : Nat :=
  (123 + 64 * s.fld (MP_CFG p) MP_CFG_ADDFRAG + 20 + 8) * 1000000000 / s.byteRate p

/-- R338: with preemption active the express frame interrupts the preemptable frame; otherwise it follows it. `mark` gives the
wait of a frame that firmware marks (R458). -/
def opExpressReady (p : Nat) (data : List Byte) (sent : Nat) (mark : Option Nat) (s : State) : State :=
  if s.macStopped then s
  else if !s.portUp p then s.macCount p MAC_TXDISC 1
  else
    let s := match mark with
      | some w => s.stampTx p (if s.preempting p then min w (s.preemptWait p) else w)
      | none => s
    s.sendExpress p data sent

/-- R339: HOLDADV before the launch time of a scheduled express frame, hold is applied, and the fragment being sent ends. -/
def opHoldAdvance (p launch sent : Nat) (s : State) : State :=
  let due : Bool := decide (launch ≤ s.fullTime (s.fld (MP_CFG p) MP_CFG_TBSEL) + s.fld (MP_HOLDADV p) MP_HOLDADV_NS)
  if s.macStopped || !s.bit (MP_CFG p) MP_CFG_HOLDEN || !s.portUp p || !due then s
  else
    let s := if s.heldBack p then s else s.when (s.preempting p) (fun s => s.interrupt p sent)
    s.setBit (MP_STAT p) MP_STAT_HOLD true

/-- R339, R343, R460: the scheduled express frame leaves, and the hold ends once its last byte has left. -/
def opExpress (p : Nat) (data : List Byte) (sent : Nat) (ready : Bool) (s : State) : State :=
  if s.macStopped then s
  else
    let s := opExpressLaunch ready s
    if !s.portUp p then s.macCount p MAC_TXDISC 1
    else ((s.sendExpress p data sent).setBit (MP_STAT p) MP_STAT_HOLD false).pump p

/-- R342: the buffer of the frame being sent runs empty. The frame, or its fragment, closes as a final one whose FCS is the
correct CRC inverted. -/
def opUnderrun (p sent : Nat) (s : State) : State :=
  let x := s.port p
  match x.tx with
  | none => s
  | some f =>
    if f.whole || s.macStopped then s
    else
      let cut := max f.sent (min sent f.data.length)
      let s := s.emit (.ether p ((f.data.take cut).drop f.sent ++ fcsBytes (etherCrc (f.data.take cut) ^^^ 0xFFFFFFFF)))
      let s := ((s.setPort p { x with tx := none }).macCount p MAC_TXUNDER 1).macHist p 5
      let th := s.fld (MP_STARTTH p) MP_STARTTH_STARTTH
      let step := s.fld (MP_STARTTH p) MP_STARTTH_STEP
      (s.setFld (MP_STARTTH p) MP_STARTTH_STARTTH (max th (min (s.maxLen p) (th + 64 * step)))).pump p

/-- The chip is in Fallow or on its way there (R494). -/
def State.inFallow (s : State) : Bool :=
  let x := s.fld PWR_STAT PWR_STAT_STATE
  x == 1 || x == 2

/-- R492, R494: an exit from Fallow begins, or is latched during entry. -/
def State.leaveFallow (s : State) : State :=
  if s.fld PWR_STAT PWR_STAT_STATE = 1 then { s with pwr := { s.pwr with wakeLatched := true } }
  else if s.fld PWR_STAT PWR_STAT_STATE = 2 then s.setFld PWR_STAT PWR_STAT_STATE 3
  else s

/-- The frame is a wake frame of port `p` (R345). -/
def State.isWake (s : State) (p dst etherType id : Nat) (fcsOk : Bool) : Bool :=
  fcsOk && dst == 2 ^ 32 * s.fld (MP_ADDR_HI p) MP_ADDR_HI_ADDR + (s.rd (MP_ADDR_LO p)).toNat
    && etherType == s.fld (MP_WAKE p) MP_WAKE_WAKEETYPE && id == (s.rd (MP_WAKEID p)).toNat

/-- R345, R494: a wake frame; any other frame is dropped. -/
def opMacWake (p dst etherType id : Nat) (fcsOk : Bool) (s : State) : State :=
  if !s.portOn p || !s.isWake p dst etherType id fcsOk then s
  else if !s.inFallow then s.setBit (MP_HIST p) MP_HIST_WAKE true
  else if !s.bit (MP_CFG p) MP_CFG_WAKEEN || s.bit MAC_WAKESTAT MAC_WAKESTAT_VALID then s
  else
    let s := s.emit (.pin .wakeN true)
    let s := s.setFld MAC_WAKESTAT MAC_WAKESTAT_PORT p
    let s := s.setBit MAC_WAKESTAT MAC_WAKESTAT_VALID true
    (s.macHist p 10).when (s.bit PWR_CTRL PWR_CTRL_AUTOWAKE) State.leaveFallow

/-! ## Counters (R347) -/

/-- The shadow registers, with the counter and the half each one shows. -/
def macShadows : List (Nat × Nat × Nat) :=
  [MAC_RXFRM, MAC_RXOCT_LO, MAC_RXFCS, MAC_RXRUNT, MAC_RXOVR, MAC_RXREASM, MAC_RXDROP, MAC_RXEXP, MAC_TXFRM,
    MAC_TXOCT_LO, MAC_TXEXP, MAC_TXPRE, MAC_TXUNDER, MAC_TXDISC, MAC_FECCOR, MAC_FECUNC].map (fun a => (a, a, 0))
    ++ [(MAC_RXOCT_HI, MAC_RXOCT_LO, 1), (MAC_TXOCT_HI, MAC_TXOCT_LO, 1)]

def opMacSnap (v : Word) (s : State) : State :=
  let s := s.fieldWrite MAC_SNAP v
  let x := s.port (s.fld MAC_SNAP MAC_SNAP_PORT)
  s.each macShadows (fun s e =>
    s.wr e.1 (BitVec.ofNat 32 (Tbl.getD x.counts e.2.1 0 / 2 ^ (32 * e.2.2))))

def opMacClrcnt (s : State) : State :=
  { s with mac := { s.mac with ports := s.mac.ports.map (fun e => (e.1, { e.2 with counts := [] })) } }

/-! ## The commands -/

def execMppCfgWrite (p : Port) (v : Word) (s : State) : Host.Outcome State Fault Refusal := doneBar s (opMppCfg p.val v s)
def execMacLinkUp (p : Port) (s : State) : Host.Outcome State Fault Refusal := done s (opLinkUp p.val s)
def execVerifyAttempt (p : Port) (ok : Bool) (s : State) : Host.Outcome State Fault Refusal :=
  done s (opVerify p.val ok s)
def execAutoNegotiationDone (p : Port) (fec : Fin 3) (s : State) : Host.Outcome State Fault Refusal :=
  done s (opAutoNeg p.val fec.val s)
def execMacLinkdn (p : Port) (s : State) : Host.Outcome State Fault Refusal := done s (opLinkDown p.val s)
def execMacFrameReceived (p : Port) (f : RxFrame) (s : State) : Host.Outcome State Fault Refusal :=
  done s (opFrameReceived p.val f s)
def execMacFrameOffered (p : Port) (kind : FrameKind) (data : List Byte) (buffered : Nat) (marked : Bool) (s : State) :
    Host.Outcome State Fault Refusal :=
  done s (opFrameOffered p.val ⟨kind, data, buffered, marked⟩ s)
def execExpressFrameReady (p : Port) (data : List Byte) (sent : Nat) (marked : Option (BitVec 16)) (s : State) :
    Host.Outcome State Fault Refusal :=
  done s (opExpressReady p.val data sent (marked.map BitVec.toNat) s)
def execHoldAdvance (p : Port) (launch : BitVec 64) (sent : Nat) (s : State) : Host.Outcome State Fault Refusal :=
  done s (opHoldAdvance p.val launch.toNat sent s)
def execExpressLaunch (p : Port) (data : List Byte) (sent : Nat) (ready : Bool) (s : State) :
    Host.Outcome State Fault Refusal :=
  done s (opExpress p.val data sent ready s)
def execMacUnderrun (p : Port) (sent : Nat) (s : State) : Host.Outcome State Fault Refusal :=
  done s (opUnderrun p.val sent s)
def execMacFecunc (p : Port) (s : State) : Host.Outcome State Fault Refusal := done s (opFecUnc p.val s)
def execMacWake (p : Port) (dst : BitVec 48) (etherType : BitVec 16) (id : Word) (fcsOk : Bool) (s : State) :
    Host.Outcome State Fault Refusal :=
  done s (opMacWake p.val dst.toNat etherType.toNat id.toNat fcsOk s)
def execMacSnap (v : Word) (s : State) : Host.Outcome State Fault Refusal := doneBar s (opMacSnap v s)
def execMacClrcnt (s : State) : Host.Outcome State Fault Refusal := doneBar s (opMacClrcnt s)

end Sys2Proof.Machine
end

