-- ==== Sys2Proof/Machine/Essence.lean ====
section
/-! DEFINITION. Essence flows: the parameter block and its checks, rates and the receive buffer, receive flows and the
ST 2022-7 merge, transmit flows, slices and the flow windows (R349-R378, R290, R151). -/

namespace Sys2Proof.Machine

open Sys2Proof

/-! ## The flow tables -/

def FlowRx.idle : FlowRx :=
  ⟨none, none, 0, false, false, false, false, 0, 0, 0, false, 0, 0, [], 0, 0, none, none, 0, none, none, [], none, none, none, none⟩
def FlowTx.idle : FlowTx := ⟨none, none, 0, 0, 0, false, false, 0, none, 0, 0, 0⟩

def State.rx (s : State) (k : Nat) : FlowRx := Tbl.getD s.ess.rx k FlowRx.idle
def State.tx (s : State) (k : Nat) : FlowTx := Tbl.getD s.ess.tx k FlowTx.idle
def State.setRx (s : State) (k : Nat) (x : FlowRx) : State :=
  { s with ess := { s.ess with rx := Tbl.putD s.ess.rx k x FlowRx.idle } }
def State.setTx (s : State) (k : Nat) (x : FlowTx) : State :=
  { s with ess := { s.ess with tx := Tbl.putD s.ess.tx k x FlowTx.idle } }

/-- The definition after every dispatched command. -/
def FlowRx.planned (x : FlowRx) : Option Flow := x.next.getD x.now
def FlowTx.planned (x : FlowTx) : Option Flow := x.next.getD x.now

/-- Enabled flows, with their definitions. -/
def State.rxFlows (s : State) : List (Nat × Flow) :=
  s.ess.rx.filterMap (fun e => e.2.planned.map (fun f => (e.1, f)))
def State.txFlows (s : State) : List (Nat × Flow) :=
  s.ess.tx.filterMap (fun e => e.2.planned.map (fun f => (e.1, f)))

/-! ## Fields of the parameter block (R353) -/

def blkPort (b : ParamBlock) (leg : Nat) : Nat := bitsAt b (64 * leg) 0 6
def blkIpv6 (b : ParamBlock) (leg : Nat) : Bool := bitsAt b (64 * leg) 6 1 == 1
def blkVlan (b : ParamBlock) (leg : Nat) : Bool := bitsAt b (64 * leg) 7 1 == 1
def blkSsm (b : ParamBlock) (leg : Nat) : Bool := bitsAt b (64 * leg + 1) 0 1 == 1
def blkVid (b : ParamBlock) (leg : Nat) : Nat := bitsAt b (64 * leg + 2) 0 12
def blkDport (b : ParamBlock) (leg : Nat) : Nat := bitsAt b (64 * leg + 12) 0 16
/-- Addresses as numbers over their bytes: 4 for IPv4, 16 for IPv6. -/
def blkDst (b : ParamBlock) (leg : Nat) : Nat := bitsAt b (64 * leg + 16) 0 (if blkIpv6 b leg then 128 else 32)
def blkSrc (b : ParamBlock) (leg : Nat) : Nat := bitsAt b (64 * leg + 32) 0 (if blkIpv6 b leg then 128 else 32)
def blkPt (b : ParamBlock) : Nat := bitsAt b 128 0 7
def blkBpm (b : ParamBlock) : Bool := bitsAt b 129 0 1 == 1
def blkSender (b : ParamBlock) : Nat := bitsAt b 129 1 2
def blkTb (b : ParamBlock) : Nat := bitsAt b 130 0 2
def blkL16 (b : ParamBlock) : Bool := bitsAt b 131 0 1 == 1
def blkPt125 (b : ParamBlock) : Bool := bitsAt b 131 1 1 == 1
def blkSsrcChk (b : ParamBlock) : Bool := bitsAt b 131 2 1 == 1
def blkSsrc (b : ParamBlock) : Nat := bitsAt b 132 0 32
def blkMaxPay (b : ParamBlock) : Nat := bitsAt b 136 0 14
def blkChannels (b : ParamBlock) : Nat := bitsAt b 138 0 7
def blkPlayDly (b : ParamBlock) : Nat := bitsAt b 144 0 32
def blkSkewMax (b : ParamBlock) : Nat := bitsAt b 148 0 14

def blkLegTo (b : ParamBlock) : Nat := bitsAt b 150 0 16
def blkTrofs (b : ParamBlock) : Nat := bitsAt b 140 0 32

def Flow.legs (f : Flow) : List Nat := if f.dual then [0, 1] else [0]
def Flow.port (f : Flow) (leg : Nat) : Nat := blkPort f.block leg
def Flow.audio (f : Flow) : Bool := f.type == 2 || f.type == 3
def Flow.video (f : Flow) : Bool := f.type == 0 || f.type == 5

/-- The address is multicast (R353, R357): 224.0.0.0/4 or ff00::/8. -/
def blkMulticast (b : ParamBlock) (leg : Nat) : Bool :=
  if blkIpv6 b leg then bitsAt b (64 * leg + 16) 0 8 == 0xFF else bitsAt b (64 * leg + 16) 4 4 == 0xE

/-! ## Rates (R332, R355, R362, R365) -/

/-- Bytes of a pgroup, by sampling. -/
def pgroup (sampling : Nat) : Nat :=
  if sampling = 0 then 5 else if sampling = 1 then 6 else if sampling = 2 then 15 else 9

/-- Sample data in one packet of a TYPE 0 flow (R365). -/
def videoPayload (b : ParamBlock) (sampling : Nat) : Nat :=
  let g := if blkBpm b then 180 else pgroup sampling
  blkMaxPay b / g * g

/-- Lines of each field or segment, or of the frame (R365, R367; log entry 31). -/
def fieldLines (f : Fmt) : List Nat :=
  let h := (routeRaster f).2
  if interlaced f.raster || f.raster == 6 then [h - h / 2, h / 2] else [h]

/-- Sample bytes, packets and further SRD headers of one frame: `lines` rows of `row` bytes a field, `pay` bytes a
packet. -/
def framePackets (lines : List Nat) (row pay : Nat) : Nat × Nat × Nat :=
  lines.foldl (fun a l =>
    let ends := (l - 1) - (l - 1) / (pay / Nat.gcd pay row)
    (a.1 + l * row, a.2.1 + ceilDiv (l * row) pay, a.2.2 + ends)) (0, 0, 0)

/-- Lane rate in b/s of a 1-track SDI format, times 1,001 (R302). -/
def sdiRate1001 (f : Fmt) : Nat :=
  let full := if f.raster = 1 ∨ f.raster = 2 then 270000000
    else if f.raster = 5 ∧ 6 ≤ f.rate then 2970000000
    else 1485000000
  full * (if f.fractional then 1000 else 1001)

/-- The most SRD headers beyond the first in a packet of `pay` bytes, where the fields of a frame have `lines` of `row` bytes: one
for each line end within the packet (R354, R365). Packets meet the lines in the same places again after a few lines. -/
def srdMost (lines : List Nat) (row pay : Nat) : Nat :=
  lines.foldl (fun m l =>
    (List.range (min (ceilDiv (l * row) pay) (row / Nat.gcd row pay + 1))).foldl (fun m i =>
      max m ((i * pay + min pay (l * row - i * pay) - 1) / row - i * pay / row)) m) 0

/-- Media bytes of one ST 2022-6 packet (log entry 31). -/
def hbrmtBytes : Nat := 1376

/-- What a flow sends in a second, times 1,001: payload bytes, and packets, each with the bytes that R355 adds to every
packet of its type, and further bytes. -/
structure FlowRate where
  payload : Nat
  packets : Nat
  perPacket : Nat
  extra : Nat
  deriving DecidableEq, Repr

/-- Lines of each field, bytes of a line and sampling of a TYPE 0 flow: those of FORMAT, or of the slice that feeds it; none
while a slice flow has no slice (R290, R365). -/
def State.flowDims (s : State) (k : Nat) (f : Flow) : Option (List Nat × Nat × Nat × Nat) :=
  if !f.slice then
    some (fieldLines f.fmt, (routeRaster f.fmt).1 * pixelQuarters f.fmt.sampling / 4, f.fmt.sampling, f.fmt.rate)
  else
    match s.cmp.canvases.flatMap (fun c => (s.plannedSlices c.1).filter (fun e => e.2.flow == k)) with
    | (_, sl) :: _ => (s.canvas sl.canvas).planned.map (fun d =>
        ([sl.rect.h], sl.rect.w * pixelQuarters d.sampling / 4, d.sampling, d.rate))
    | [] => none

/-- R355: what a flow's rate is counted over: its own FORMAT, or its slice and canvas. DESIGN CHOICE: an opaque TYPE 1 flow,
for which no rate is stated, counts 0, transmitted or received (log entry 31). -/
def State.flowRate (s : State) (rxSide : Bool) (k : Nat) (f : Flow) : FlowRate :=
  let b := f.block
  if f.type = 0 then
    match s.flowDims k f with
    | some (lines, row, sampling, rate) =>
      let n := framePackets lines row (max 1 (videoPayload b sampling))
      let r := frameRate1001 rate
      ⟨n.1 * r, n.2.1 * r, 86, 6 * n.2.2 * r⟩
    | none => ⟨0, 0, 86, 0⟩
  else if f.type = 1 then ⟨0, 0, 78, 0⟩
  else if f.audio then
    let bytes := if f.type = 2 then (if blkL16 b then 2 else 3) else 4
    let n := if blkPt125 b then 8000 else 1000
    ⟨blkChannels b * bytes * 48000 * 1001, n * 1001, 78, 0⟩
  else if f.type = 4 then
    let fmt :=
      if rxSide then
        match s.rxFlows.find? (fun e => e.2.type == 0 && e.2.track == f.track) with
        | some e => e.2.fmt
        | none => Fmt.zero
      else (s.runFmt f.track).getD Fmt.zero
    let n := 4 * (if interlaced fmt.raster then 2 else 1) * frameRate1001 fmt.rate
    ⟨n * blkMaxPay b, n, 86, 0⟩
  else
    let r := if f.fmt.none then 60060 else frameRate1001 f.fmt.rate
    let bits := if f.fmt.none then 2970000000 * 1001 else sdiRate1001 f.fmt
    let n := ceilDiv bits (8 * hbrmtBytes * r) * r
    ⟨n * hbrmtBytes, n, 86, 0⟩

/-- Overhead of a leg on every packet: tag and IPv6 (R355). -/
def legExtra (b : ParamBlock) (leg : Nat) : Nat := (if blkVlan b leg then 4 else 0) + if blkIpv6 b leg then 20 else 0

/-- Bits per second, times 1,001, of a flow on one leg's port. -/
def FlowRate.bits (r : FlowRate) (extra : Nat) : Nat := 8 * (r.payload + r.extra + r.packets * (r.perPacket + extra))

/-- Capacity of a port in b/s, times 1,001 (R332). -/
def State.portCapacity (s : State) (p : Nat) : Nat :=
  let sp := s.cfgSpeed p (s.rd (MP_CFG p))
  1001 * 1000000000 * (if sp = 1 then 10 else if sp = 2 then 25 else if sp = 3 then 100 else 0)

/-- Load of a port in one direction by the flows of a list (R354: each leg is counted on its own port). -/
def State.portLoad (s : State) (rxSide : Bool) (l : List (Nat × Flow)) (p : Nat) : Nat :=
  l.foldl (fun n e => e.2.legs.foldl (fun m leg =>
    if e.2.port leg = p then m + (s.flowRate rxSide e.1 e.2).bits (legExtra e.2.block leg) else m) n) 0

/-- Some leg's port would carry more than its capacity (R354). -/
def State.portOver (s : State) (rxSide : Bool) (l : List (Nat × Flow)) (f : Flow) : Bool :=
  f.legs.any (fun leg => decide (s.portCapacity (f.port leg) < s.portLoad rxSide l (f.port leg)))

/-- The raster and rate that bound a receive flow's window (R233, R362). -/
def State.rxFmt (s : State) (f : Flow) : Fmt :=
  if f.video then f.fmt
  else if f.type = 4 then
    match s.rxFlows.find? (fun e => e.2.type == 0 && e.2.track == f.track) with
    | some e => e.2.fmt
    | none => Fmt.zero
  else Fmt.zero

/-- Receive-buffer capacity of a flow in bytes (R362). -/
def State.rxCap (s : State) (k : Nat) (f : Flow) : Nat :=
  let r := (s.flowRate true k f).payload
  let fmt := s.rxFmt f
  let lines := linesOf fmt.raster
  let ns := blkPlayDly f.block + (if f.dual then 1000 * blkSkewMax f.block else 0) + 1000000
  let win := if fmt.none then 0 else windowLines fmt.raster * framePeriod3 fmt.rate
  max 65536 (ceilDiv (r * (3 * lines * ns + win)) (1001 * 3 * lines * 1000000000))

/-- Receive-buffer use: bytes, and bytes per second times 1,001 (R362). -/
def State.rxUse (s : State) (l : List (Nat × Flow)) : Nat × Nat :=
  l.foldl (fun a e => (a.1 + s.rxCap e.1 e.2, a.2 + 2 * (s.flowRate true e.1 e.2).payload)) (0, 0)

def State.rxOver (s : State) (l : List (Nat × Flow)) : Bool :=
  let u := s.rxUse l
  decide (s.fld ESS_RXBUF ESS_RXBUF_TOTAL * mib < u.1)
    || decide (s.fld ESS_RXBW ESS_RXBW_TOTAL * 1000000000 * 1001 < u.2)

/-- ESS_RXBUF and ESS_RXBW follow the enabled flows (R362, R375). -/
def State.refreshRx (s : State) : State :=
  let u := s.rxUse s.rxFlows
  (s.setFld ESS_RXBUF ESS_RXBUF_USED (ceilDiv u.1 mib)).setFld ESS_RXBW ESS_RXBW_USED (ceilDiv u.2 1001000000000)

/-! ## Checks of a definition (R155, R349-R356, R426) -/

/-- Reserved parts of a leg's 64 bytes: byte, low bit, width, within the leg (R136, R353). -/
def legReserved : List (Nat × Nat × Nat) := [(1, 1, 7), (10, 0, 16), (48, 6, 2), (50, 0, 112)]
/-- Reserved parts of bytes 128-255. -/
def commonReserved : List (Nat × Nat × Nat) :=
  [(128, 7, 1), (129, 3, 5), (130, 2, 6), (131, 3, 5), (137, 6, 2), (138, 7, 1), (139, 0, 8), (149, 6, 2), (152, 0, 832)]

/-- Byte offset of the first reserved byte that is not zero, in one reserved part. -/
def reservedByte (b : ParamBlock) (r : Nat × Nat × Nat) : Option Nat :=
  if bitsAt b r.1 r.2.1 r.2.2 = 0 then none
  else if r.2.2 ≤ 8 then some r.1
  else lowest 256 (fun i => decide (r.1 ≤ i ∧ i < r.1 + r.2.2 / 8) && bitsAt b i 0 8 != 0)

/-- Length of the longest packet of a flow from destination address to FCS (R333, R354, R355). DESIGN CHOICE: a slice flow that has
no slice yet counts one SRD header and 4:2:2 10-bit pgroups (log entry 31). -/
def State.longest (s : State) (k : Nat) (f : Flow) (leg : Nat) : Nat :=
  let b := f.block
  let x := legExtra b leg
  if f.type = 0 then
    match s.flowDims k f with
    | some (lines, row, sampling, _) =>
      let pay := max 1 (videoPayload b sampling)
      pay + 66 + 6 * srdMost lines row pay + x
    | none => videoPayload b 0 + 66 + x
  else if f.type = 1 then blkMaxPay b + 58 + x
  else if f.audio then
    blkChannels b * (if f.type = 2 then (if blkL16 b then 2 else 3) else 4) * (if blkPt125 b then 6 else 48) + 58 + x
  else if f.type = 4 then blkMaxPay b + 66 + x
  else hbrmtBytes + 66 + x

/-- Byte offset of the first field in error (R354). -/
def State.blockError (s : State) (rxSide : Bool) (k : Nat) (f : Flow) : Option Nat :=
  let b := f.block
  let ch := blkChannels b
  let found : List Nat :=
    (f.legs.filter (fun l => !s.portOn (f.port l))).map (fun l => 64 * l)
    ++ (f.legs.flatMap (fun l => legReserved.filterMap (fun r => reservedByte b (64 * l + r.1, r.2))))
    ++ commonReserved.filterMap (reservedByte b)
    ++ (if f.type = 0 ∧ blkSender b = 3 then [129] else [])
    ++ (if blkMaxPay b < 180 ∨ 8960 < blkMaxPay b then [136] else [])
    ++ (if (f.type = 2 ∧ (ch < 1 ∨ 64 < ch)) ∨ (f.type = 3 ∧ (ch < 2 ∨ 64 < ch ∨ ch % 2 = 1)) then [138] else [])
    ++ (if rxSide ∧ 50000000 < blkPlayDly b then [144] else [])
    ++ (if rxSide ∧ f.dual ∧ 10000 < blkSkewMax b then [148] else [])
    ++ (if f.legs.any (fun l => s.portOn (f.port l) && decide (s.maxLen (f.port l) < s.longest k f l)) then
          [if f.audio then 138 else 136] else [])
    ++ (if f.audio ∧ blkMaxPay b + 58 < s.longest k f 0 - legExtra b 0 then [136] else [])
  match found with
  | [] => none
  | a :: l => some (l.foldl min a)

def flowFields : List (Nat × Nat × Nat) :=
  [(8, 0, 12), (10, 0, 4), (11, 0, 3), (12, 0, 13), (16, 0, 64), (24, 0, 64)]

def flowOf (e : Entry) (b : ParamBlock) : Flow :=
  ⟨bitsAt e 10 1 1 == 1, bitsAt e 10 2 1 == 1, bitsAt e 10 3 1 == 1, bitsAt e 11 0 3, bitsAt e 12 0 13,
   fmtOf (bitsAt e 16 0 64), b⟩

/-- Tracks that a video or ancillary flow binds or is fed by. -/
def Flow.tracks (f : Flow) : Nat × Nat :=
  if f.slice || f.audio || f.type == 1 then (0, 0) else if f.type = 0 then (f.track, f.fmt.width) else (f.track, 1)

/-- The tracks lie in T2816-T3839 and follow R23. -/
def Flow.tracksOk (f : Flow) : Bool :=
  let t := f.tracks
  t.2 == 0 || (decide (2816 ≤ t.1 ∧ t.1 + t.2 ≤ 3840) && t.1 % t.2 == 0)

/-- FORMAT fits the TYPE (R155, R290, R349, R350). -/
def Flow.formatOk (f : Flow) (rxSide : Bool) : Bool :=
  if f.slice then !rxSide && f.type == 0 && f.fmt.bits == 0
  else if f.type = 0 then f.fmt.valid
  else if f.type = 5 then (rxSide && f.fmt.bits == 0) || (f.fmt.valid && f.fmt.count == 1)
  else f.fmt.bits == 0

/-- Another enabled receive flow that holds a track or an audio source channel of this one (R350, R426). -/
def State.rxHolder (s : State) (k : Nat) (f : Flow) : Option Nat :=
  (s.rxFlows.find? (fun e => e.1 != k &&
    ((f.video && e.2.video && meets f.tracks.1 f.tracks.2 e.2.tracks.1 e.2.tracks.2)
      || (f.audio && e.2.audio && meets f.track (blkChannels f.block) e.2.track (blkChannels e.2.block))))).map Prod.fst

/-- The match key of a leg (R356). -/
def Flow.key (f : Flow) (leg : Nat) : List Nat :=
  let b := f.block
  [f.port leg, if blkIpv6 b leg then 1 else 0, blkDst b leg, blkDport b leg, if blkVlan b leg then 1 + blkVid b leg else 0,
   if blkSsm b leg then 1 + blkSrc b leg else 0, if blkSsrcChk b then 1 + blkSsrc b else 0]

/-- The flow that has a leg of the same match key: another enabled receive flow, or the flow itself where its two legs are alike
(R356). -/
def State.keyHolder (s : State) (k : Nat) (f : Flow) : Option Nat :=
  if f.dual && f.key 0 == f.key 1 then some k
  else
  (s.rxFlows.find? (fun e => e.1 != k && f.legs.any (fun l => e.2.legs.any (fun m => f.key l == e.2.key m)))).map Prod.fst

/-- More than 8 transmit flows would be fed by one track or audio destination channel (R351, R426). -/
def State.txCrowded (s : State) (k : Nat) (f : Flow) : Bool :=
  let others := s.txFlows.filter (fun e => e.1 != k)
  let t := f.tracks
  (List.range t.2).any (fun i =>
    decide (8 ≤ (others.filter (fun e => meets (t.1 + i) 1 e.2.tracks.1 e.2.tracks.2)).length))
  || (f.audio && (List.range (blkChannels f.block)).any (fun i =>
    decide (8 ≤ (others.filter (fun e => e.2.audio && meets (f.track + i) 1 e.2.track (blkChannels e.2.block))).length)))

/-- The TRACK of a TYPE 1 or TYPE 4 flow names what it must (R349, R371). -/
def State.trackNames (s : State) (rxSide : Bool) (f : Flow) : Bool :=
  if f.type = 4 ∧ rxSide then s.rxFlows.any (fun e => e.2.type == 0 && e.2.track == f.track)
  else if f.type = 1 ∧ !rxSide then s.rxFlows.any (fun e => e.1 == f.track && e.2.type == 1)
  else true

/-- REJ_FORMAT conditions of an enabling entry, with RESULT; the block's own errors come last. -/
def State.flowFormatChecks (s : State) (rxSide : Bool) (k : Nat) (f : Flow) (pb : Option ParamBlock) :
    List (Bool × Status × Nat) :=
  let lo := 4096
  let err := match pb with
    | some _ => s.blockError rxSide k f
    | none => none
  let ch := if pb.isSome then blkChannels f.block else 0
  [ (decide (5 < f.type) || !f.formatOk rxSide || !f.tracksOk || !s.trackNames rxSide f, .rejFormat, 0),
    (f.audio && (decide (f.track < lo) || decide (7936 < f.track + ch)), .rejFormat, 0),
    (err.isSome, .rejFormat, err.getD 0) ]

/-- The FORMAT of a flow command that stops a flow breaks R27 or sets a reserved bit (R28); all zeros is no descriptor. -/
def stopFormatBad (e : Entry) : Bool :=
  let f := fmtOf (bitsAt e 16 0 64)
  f.bits != 0 && !f.valid

/-- The parameter block of command `id` is read from host address `a` (R155): its bytes count on the command's channel
(R104); an attempt that fails is reissued up to RETRY times before the command ends (R105, R107). -/
def State.blockRead (s : State) (id a : Nat) (pb : BlockRead) : State :=
  match s.inflightOf id with
  | none => s
  | some c => match c.channel with
    | none => s
    | some ch =>
      let most := s.fld (HIF_DMA_CTRL ch) HIF_DMA_CTRL_RETRY
      let k := if pb.block.isSome then min pb.failed.val most else most
      let s := s.when (k != 0 || pb.block.isNone) (fun s => s.setFld (HIF_DMA_STAT ch) HIF_DMA_STAT_TRIES k)
      let s := s.each (List.range k) (fun s _ => s.raise 324)
      if pb.block.isSome then s.countBytes ch 256
      else (s.setFld (HIF_DMA_STAT ch) HIF_DMA_STAT_CAUSE 3).noteAddr ch a

/-- The command reads its parameter block: it enables its flow, `own` finds no fault in the entry, and PARAM keeps R95. -/
def blockNeeded (e : Entry) (own : Bool) : Bool := bitsAt e 10 0 1 == 1 && bitsAt e 24 0 64 % 64 == 0 && !own

/-- The block that the checks of a flow command see: none where it has not been read. -/
def seenBlock (pb : BlockRead) (e : Entry) (own : Bool) : Option ParamBlock := if blockNeeded e own then pb.block else none

/-- The checks of a FLOW_RX_DEF or FLOW_TX_DEF, where `own` finds a fault of the entry alone; a block whose read fails ends the
command with ABORTED before any check that could need it (R107). DESIGN CHOICE: the block is read where the command enables
its flow and passes `own`, and before any other check (log entry 31). -/
def State.flowChecked (s : State) (id : Nat) (e : Entry) (pb : BlockRead) (own : Bool)
    (checks : List (Bool × Status × Nat)) (go : State → State) : State :=
  let reads := blockNeeded e own
  (s.when reads (fun s => s.blockRead id (bitsAt e 24 0 64) pb)).checked id
    ([(own, .rejFormat, 0), (reads && pb.block.isNone, .aborted, 0)] ++ checks) go

/-! ## FLOW_RX_DEF (R155, R350, R354, R362, R372) -/

/-- The stream of a receive flow is gone: the descriptor of its track, or of the four streams of RASTER 0x08, takes RASTER 0x00
(R361, R372). -/
def State.rxGone (s : State) (f : Flow) : State :=
  if f.video then s.each (unitTracks f.track f.fmt.raster) (fun s t => s.reportFormat t 0) else s

/-- The group that a leg joins on its port, none where its destination is unicast (R357). -/
def Flow.group (f : Flow) (leg : Nat) : Option McGroup :=
  let b := f.block
  if blkMulticast b leg then some ⟨blkIpv6 b leg, blkDst b leg, if blkSsm b leg then some (blkSrc b leg) else none⟩ else none

/-- The groups of a flow, each with its port. -/
def Flow.groups (f : Flow) : List (Nat × McGroup) := f.legs.filterMap (fun l => (f.group l).map (fun g => (f.port l, g)))

/-- Receive flow `k` leaves the groups of a definition that the next one does not join (R357, R372). -/
def State.leaveGroups (s : State) (k : Nat) (g : Flow) (next : Option Flow) : State :=
  let kept := match next with
    | some f => f.groups
    | none => []
  s.each (g.groups.filter (fun x => !kept.contains x)) (fun s x => s.emit (.leave x.1 k x.2))

/-- The definition that waits takes effect (R372). -/
def State.rxBoundary (s : State) (k : Nat) : State :=
  let x := s.rx k
  match x.next with
  | none => s
  | some f =>
    let s := match x.now with
      | some g => (s.rxGone g).leaveGroups k g f
      | none => s
    s.setRx k { x with
      now := f, next := none, legA := false, legB := false, lost := false, joined := false, reportsA := 0, reportsB := 0
      frames := 0, copies := [], phase := none, moved := 0, heardA := none, heardB := none, data := [], due := none
      found := none, anc := none }

/-- A definition, or a stop, is accepted: where nothing runs, or the flow has stopped or is lost, it takes effect at
once, else at the next boundary (R372). -/
def State.rxAccept (s : State) (k id : Nat) (f : Option Flow) : State :=
  let x := s.rx k
  let ep := nextEpoch x.epoch
  let idle : Bool := x.now.isNone || x.lost || x.par
  let s := s.setRx k { x with
    next := some f, epoch := ep, par := false, since := id
    last := match f with
      | some g => g.block
      | none => x.last }
  let s := s.when idle (fun s => s.rxBoundary k)
  s.refreshRx.complete id .ok 0 ep

def flowRxBody (t : Nat) (e : Entry) (pb : BlockRead) (id : Nat) (s : State) : State :=
  let k := bitsAt e 8 0 12
  let on : Bool := bitsAt e 10 0 1 == 1
  let bad : Bool := !onlyFields e flowFields || decide (2048 ≤ k)
  let seen := seenBlock pb e bad
  let f := flowOf e (seen.getD 0)
  let l := s.rxFlows.filter (fun x => x.1 != k) ++ [(k, f)]
  let holder := s.rxHolder k f
  let same := s.keyHolder k f
  let fmtBad := if on then s.flowFormatChecks true k f seen else [(stopFormatBad e, .rejFormat, 0)]
  s.flowChecked id e pb bad
    ([(on && f.slice, .rejFormat, 0)] ++ fmtBad ++
    [ (s.ownerOf 2 k != t, .rejOwner, 0),
      (on && bitsAt e 24 0 64 % 64 != 0, .misaligned, 0),
      ((s.migOf 2 k).isSome, .rejLocked, 0),
      (on && s.rxOver l, .rejCapacity, 7),
      (on && s.portOver true l f, .rejCapacity, 8),
      (on && holder.isSome, .busy, holder.getD 0),
      (on && same.isSome, .busy, same.getD 0),
      s.standbyBusy ])
    (fun s =>
      if on then s.rxAccept k id (some f)
      else if (s.rx k).planned.isNone then s.complete id .ok 0 0
      else s.rxAccept k id none)

/-! ## FLOW_TX_DEF (R155, R351, R354, R366, R372) -/

/-- The definition that waits takes effect; the sequence continues unless SSRC changes (R372). -/
def State.txBoundary (s : State) (k : Nat) : State :=
  let x := s.tx k
  match x.next with
  | none => s
  | some f =>
    let seq := match x.now, f with
      | some g, some h => if blkSsrc g.block = blkSsrc h.block then x.seq else 0
      | _, _ => x.seq
    s.setTx k { x with now := f, next := none, seq := seq, match_ := false }

/-- The slice that feeds a slice flow is enabled (R374). -/
def State.hasSlice (s : State) (k : Nat) : Bool := s.cmp.slices.any (fun e => e.2.flow == k)

/-- The definition that transmit flow `k` runs has no frame boundary ahead: an opaque flow, whose packets leave one by one, or a
slice flow without a slice (R371, R374). -/
def State.noBoundary (s : State) (k : Nat) : Bool :=
  match (s.tx k).now with
  | some f => f.type == 1 || (f.slice && !s.hasSlice k)
  | none => true

/-- A frame boundary of transmit flow `k`; a change that arrives in the same cycle takes the following one (R374). -/
def State.txTurn (s : State) (k : Nat) : State := if (s.tx k).asked = s.now then s else s.txBoundary k

/-- A definition, or a stop, is accepted: where nothing runs, or no boundary is ahead, it takes effect at once, else at the next
boundary (R372). -/
def State.txAccept (s : State) (k id : Nat) (f : Option Flow) : State :=
  let x := s.tx k
  let ep := nextEpoch x.epoch
  let idle : Bool := s.noBoundary k || x.par
  let s := s.setTx k { x with
    next := some f, epoch := ep, par := false, asked := s.now
    last := match f with
      | some g => g.block
      | none => x.last }
  (s.when idle (fun s => s.txBoundary k)).complete id .ok 0 ep

/-- Slices of every canvas after every dispatched command. -/
def State.allSlices (s : State) : Tbl SliceDef := s.cmp.canvases.flatMap (fun c => s.plannedSlices c.1)

/-- The time base of a slice's flow. -/
def State.sliceTb (s : State) (k : Nat) : Option Nat := (s.tx k).planned.map (fun f => blkTb f.block)

def flowTxBody (t : Nat) (e : Entry) (pb : BlockRead) (id : Nat) (s : State) : State :=
  let k := bitsAt e 8 0 12
  let on : Bool := bitsAt e 10 0 1 == 1
  let bad : Bool := !onlyFields e flowFields
  let seen := seenBlock pb e bad
  let f := flowOf e (seen.getD 0)
  let l := s.txFlows.filter (fun x => x.1 != k) ++ [(k, f)]
  let fmtBad := if on then s.flowFormatChecks false k f seen else [(stopFormatBad e, .rejFormat, 0)]
  let own := s.allSlices.find? (fun y => y.2.flow == k)
  -- DESIGN CHOICE: a slice flow that would leave the time base of its canvas's other slices is refused as SLICE_SET is (R37, R290;
  -- log entry 31)
  let badTb : Bool := on && f.slice && own.any (fun y => (s.plannedSlices y.2.canvas).any (fun z =>
    z.2.flow != k && s.sliceTb z.2.flow != some (blkTb f.block)))
  let foreign : Bool := s.ownerOf 3 k != t || (on && !s.ownsAll t 0 f.tracks.1 f.tracks.2)
  s.flowChecked id e pb bad
    (fmtBad ++
    [ (badTb, .rejFormat, 7),
      (foreign, .rejOwner, 0),
      (on && bitsAt e 24 0 64 % 64 != 0, .misaligned, 0),
      ((s.migOf 1 k).isSome, .rejLocked, 0),
      (on && s.txCrowded k f, .rejCapacity, 5),
      (on && s.portOver false l f, .rejCapacity, 8),
      s.standbyBusy ])
    (fun s =>
      if on then s.txAccept k id (some f)
      else if (s.tx k).planned.isNone then s.complete id .ok 0 0
      else s.txAccept k id none)

/-! ## SLICE_SET (R151, R290) -/

def sliceFields : List (Nat × Nat × Nat) := [(8, 0, 12), (10, 0, 6), (11, 0, 1), (12, 0, 64), (20, 0, 12)]

/-- SLICE_SET. With ENABLE 0 the canvas that counts is the one the slice is on, whatever CANVAS names, and RECT and FLOW are
not read (DESIGN CHOICE: no rule says which fields count; log entry 26). -/
def sliceBody (t : Nat) (e : Entry) (id : Nat) (s : State) : State :=
  let i := bitsAt e 8 0 12
  let named := bitsAt e 10 0 6
  let on : Bool := bitsAt e 11 0 1 == 1
  let k := bitsAt e 20 0 12
  let x : SliceDef := ⟨named, rectOf e 12 false, k⟩
  let old := (s.allSlices.find? (fun y => y.1 == i)).map Prod.snd
  let c := if on then named else (old.map (fun y => y.canvas)).getD named
  let d := (s.canvas c).planned
  let next := s.plan t c (.slice i (some x)) id
  let excess := s.canvasOver t c false next
  let badRect : Bool := match d with
    | none => true
    | some d => decide (x.rect.w < 8) || decide (x.rect.h < 8) || !x.rect.inside d.width d.height
        || (decide (d.sampling ≤ 1) && (x.rect.x % 2 != 0 || x.rect.w % 2 != 0))
  let badFlow : Bool := (match (s.tx k).planned with
    | some f => !f.slice
    | none => true) || (s.allSlices ++ s.cmp.slices).any (fun y => y.1 != i && y.2.flow == k)
  let badTb : Bool := (s.plannedSlices c).any (fun y => y.1 != i && s.sliceTb y.2.flow != s.sliceTb k)
  let flows := (if on then [k] else []) ++ (old.map (fun y => y.flow)).toList
  let canvases := c :: (old.map (fun y => y.canvas)).toList
  s.checked id
    [ (!onlyFields e sliceFields, .rejFormat, 0),
      (d.isNone, .rejFormat, 0),
      (on && (badRect || badFlow), .rejFormat, 0),
      (on && badTb, .rejFormat, 7),
      (s.ownerOf 5 i != t || s.ownerOf 1 c != t || flows.any (fun k => s.ownerOf 3 k != t), .rejOwner, 0),
      (canvases.any s.canvasHeld || canvases.any s.canvasMigrating, .rejLocked, 0),
      (on && excess.isSome, .rejCapacity, excess.getD 0),
      s.standbyBusy ]
    (fun s =>
      if on then s.plan t c (.slice i (some x)) id
      else if old.isSome then s.plan t c (.slice i none) id
      else s.complete id .ok 0 0)

/-! ## Receiving (R356-R364, R370) -/

/-- The port that leg A of a flow moves to (R373). -/
def State.migPort (s : State) (target : Nat) : Nat := if s.portOn (2 * target) then 2 * target else 2 * target + 1

/-- The flow with leg A on another port (R373). -/
def Flow.moved (f : Flow) (p : Nat) : Flow :=
  let b := f.block.toNat
  { f with block := BitVec.ofNat 2048 (b - b % 64 + p % 64) }

/-- A packet matches leg `leg` of a flow on port `p` (R356). -/
def Flow.matches (f : Flow) (p leg : Nat) (k : EssPacket) : Bool :=
  let b := f.block
  f.port leg == p && blkIpv6 b leg == k.ipv6 && blkDst b leg == k.dst.toNat && blkDport b leg == k.dport.toNat
    && (!blkVlan b leg || k.vid.map BitVec.toNat == some (blkVid b leg))
    && (!blkSsm b leg || blkSrc b leg == k.src.toNat)
    && (!blkSsrcChk b || blkSsrc b == k.ssrc.toNat)

/-- The flow and leg that take a packet. -/
def State.matchRx (s : State) (p : Nat) (k : EssPacket) : Option (Nat × Nat × Flow) :=
  firstSome (fun (e : Nat × FlowRx) => match e.2.now with
    | some f => if e.2.par then none else (f.legs.find? (fun l => f.matches p l k)).map (fun l => (e.1, l, f))
    | none => none) s.ess.rx

/-- The packet reaches the new placement of a flow whose migration overlaps: its results are not delivered yet (R229). -/
def State.matchMoved (s : State) (p : Nat) (k : EssPacket) : Bool :=
  s.ess.rx.any (fun e => match e.2.now, s.migOf 2 e.1 with
    | some f, some m => m.started && (f.moved (s.migPort m.target)).matches p 0 k
    | _, _ => false)

/-- An SRD lies in the raster of a TYPE 0 flow's FORMAT (R358). -/
def srdInside (fmt : Fmt) (h : SrdHeader) : Bool :=
  match (fieldLines fmt)[if h.second then 1 else 0]? with
  | some n => decide (h.row.toNat < n) &&
      decide (h.offset.toNat * pixelQuarters fmt.sampling + 4 * h.length.toNat ≤ (routeRaster fmt).1 * pixelQuarters fmt.sampling)
  | none => false

/-- Bytes of a sample of all channels of an audio flow. -/
def Flow.audioSample (f : Flow) : Nat :=
  blkChannels f.block * (if f.type = 2 then (if blkL16 f.block then 2 else 3) else 4)

/-- R358: what ESS drops. -/
def badPacket (f : Flow) (k : EssPacket) : Bool :=
  k.version.toNat != 2 || k.pt.toNat != blkPt f.block
    || (f.type == 0 && (!k.srds.all (srdInside f.fmt)
      || k.srds.any (fun h => h.length.toNat % pgroup f.fmt.sampling != 0) || k.payload.length % pgroup f.fmt.sampling != 0))
    || (f.audio && k.payload.length % f.audioSample != 0)

/-- The descriptor, as bytes 4-7 and payload ID, that R312 and R313 build from the SDI of a TYPE 5 flow, RASTER 0x00 where it is
no 1-track format. DESIGN CHOICE: where no payload ID gives them, SAMPLING, TRANSFER and COLOUR are 0, since a flow has no
MLn_RXDEF (log entry 31). -/
def sdiDescriptor (x : SdiFound) : Nat × Nat :=
  let make := fun (pid sampling transfer colour : Nat) =>
    let raster := if x.raster = 6 ∧ pid = 0 then 4 else x.raster.toNat
    let f : Fmt := ⟨0, raster, x.rate.toNat, trackCode ((tracksOf raster x.rate.toNat sampling).getD 0), sampling, 0, transfer,
      colour, 0⟩
    if f.valid && f.count == 1 then (f.high, pid) else (0, 0)
  match x.pid with
  | .ok p sampling transfer colour => make p.toNat sampling.toNat transfer.toNat (if colour then 1 else 0)
  | .absent => make 0 0 0 0
  | .mismatch _ => make 0 0 0 0
  | .unsupported _ => (0, 0)
  | .otherBond _ => (0, 0)
  | .wrongLink _ => (0, 0)

/-- The RTP clock of a TYPE in Hz (R367). -/
def rtpClock (type : Nat) : Nat := if type = 0 ∨ type = 4 then 90000 else if type = 5 then 27000000 else 48000

/-- T of R359: the instant of the tick that an RTP timestamp names, in ns of the full time of the flow's time base; of those it may
name the nearest to now. -/
def State.tickInstant (s : State) (f : Flow) (ts : Word) : Int :=
  let c := rtpClock f.type
  let ticks := s.fullTime (blkTb f.block) * c / 1000000000
  ((ticks : Int) + centred ((ts.toNat : Int) - ticks) (2 ^ 32)) * 1000000000 / (c : Nat)

/-- The arrival instant a = T + PLAYDLY of a frame, less Rf, in ps; none while nothing fixes the reference timing (R232, R359). -/
def State.essArrival (s : State) (f : Flow) (rate : Nat) (ts : Word) : Option Int :=
  s.clk.origin.map (fun o =>
    let a := s.tickInstant f ts + blkPlayDly f.block - s.fullTime (blkTb f.block) + s.now - o
    centred (3 * a) (max 1 (framePeriod3 rate)) * 1000 / 3)

/-- The descriptor of a receive flow: FORMAT, or what the SDI of a TYPE 5 flow carries (R350). -/
def State.rxDescriptor (s : State) (k : Nat) (f : Flow) : Option (Nat × Nat) :=
  if !f.video then none else if f.fmt.none then (s.rx k).found else some (f.fmt.high, f.fmt.pid)

/-- Two consecutive complete frames: the flow is there, and its descriptor is published on every stream that it carries (R350,
R361); acquisition takes the phase from the frame's timestamp (R359). -/
def State.rxPublish (s : State) (k : Nat) (f : Flow) (ts : Word) : State :=
  let s := s.setRx k { s.rx k with lost := false }
  match s.rxDescriptor k f with
  | none => s
  | some (high, pid) => s.each (unitTracks f.track (high % 256)) (fun s t =>
      let s := (s.reportFormat t high).reportPid t pid
      let a := s.aligner t
      if a.off.isNone then s.setAligner t { a with off := s.essArrival f (highFmt high).rate ts } else s)

/-- The sample that a stream's first words begin moves by `n / r` ticks of the flow's clock: the playout stage measures d again, as
after a phase jump (R247, R359). -/
def State.phaseJump (s : State) (track clock r : Nat) (n : Int) : State :=
  let a := s.aligner track
  match a.off with
  | none => s
  | some off =>
    let off := off + n * 1000000000000 / (clock * r : Nat)
    if a.mode = 2 ∧ (s.window track (highFmt a.high) off).isNone then opLeavesWindow track off true s
    else if a.mode = 2 ∨ a.mode = 3 ∨ a.mode = 4 then s.setAligner track (s.placed track off)
    else s

/-- R359: a frame with RTP timestamp `ts` against the phase measured at acquisition; the phase is kept in `1 / r` ticks, `r`
the frame rate in 1/1001 Hz. -/
def State.rxPhase (s : State) (k : Nat) (f : Flow) (ts : Nat) : State :=
  let c := rtpClock f.type
  let r := frameRate1001 ((s.rxDescriptor k f).elim 0 (fun d => (highFmt d.1).rate))
  let m := 2 ^ 32 * r
  let x := s.rx k
  if r == 0 then s
  else match x.phase with
    | none => s.setRx k { x with phase := some (ts * r), moved := 0 }
    | some p =>
      let e := centred (centred ((ts * r : Nat) - (p : Int)) m) (1001 * c)
      let q := (((ts * r : Nat) - e) % (m : Nat)).toNat
      if e.natAbs * 90000 ≤ 2 * r * c then s.setRx k { x with phase := some q, moved := 0 }
      else if x.moved = 0 then s.setRx k { x with phase := some q, moved := 1 }
      else
        let s := s.setRx k { x with phase := some (ts * r), moved := 0 }
        s.each (unitTracks f.track f.fmt.raster) (fun s t => s.phaseJump t c r e)

/-- The outputs run (R490, R536). -/
def State.sending (s : State) : Bool := s.powerActive && !s.safe

/-! ## What a transmit flow sends (R353, R365-R367, R371) -/

/-- `n` bytes of a parameter block from `off` as a number, the first byte the most significant. -/
def blkNet (b : ParamBlock) (off n : Nat) : Nat := (List.range n).foldl (fun x i => 256 * x + bitsAt b (off + i) 0 8) 0

/-- The station address a leg's packets go to: a multicast address maps by its IP version, to 01-00-5E and its low 23 bits
or to 33-33 and its low 32 bits (R353; PRESUMED, log entry 31). -/
def blkDmac (b : ParamBlock) (leg : Nat) : Nat :=
  let o := 64 * leg
  if !blkMulticast b leg then blkNet b (o + 4) 6
  else if blkIpv6 b leg then 0x333300000000 + blkNet b (o + 28) 4
  else 0x01005E000000 + blkNet b (o + 17) 3 % 2 ^ 23

/-- The header of a packet of flow `f` on a leg (R353, R366). -/
def State.legHeader (s : State) (f : Flow) (leg : Nat) : LegHeader :=
  let b := f.block
  let p := f.port leg
  let ttl := bitsAt b (64 * leg + 49) 0 8
  ⟨p, blkDmac b leg, 2 ^ 32 * s.fld (MP_ADDR_HI p) MP_ADDR_HI_ADDR + (s.rd (MP_ADDR_LO p)).toNat,
   if blkVlan b leg then some (bitsAt b (64 * leg + 2) 0 16) else none, blkIpv6 b leg, blkDst b leg, blkSrc b leg,
   blkDport b leg, bitsAt b (64 * leg + 14) 0 16, bitsAt b (64 * leg + 48) 0 6, if ttl = 0 then 64 else ttl⟩

/-- The RTP timestamp of the instant `t` ns (R367). -/
def rtpTs (clock : Nat) (t : Int) : Word := BitVec.ofInt 32 (t * (clock : Nat) / 1000000000)

/-- The line with which the second field or segment begins, after those of the first: the lines between the two switch lines
of R200 (DEDUCED; log entry 31). -/
def secondField (raster : Nat) : Nat :=
  if raster = 1 then 263 else if raster = 2 then 313 else if raster = 4 ∨ raster = 6 then 562 else 0

/-- The instant t of R367 for a packet that leaves now, of the second field or segment where `second`. -/
def State.rtpInstant (s : State) (f : Flow) (x : FlowTx) (fmt : Fmt) (second : Bool) : Int :=
  if f.audio then
    (s.fullTime (blkTb f.block) : Int) - (blkTrofs f.block : Nat) - (if blkPt125 f.block then 125000 else 1000000)
  else x.frameAt + (if second then framePeriod3 fmt.rate * secondField fmt.raster / (3 * linesOf fmt.raster) else 0 : Nat)

/-- How a TYPE 0 flow divides a frame: lines of each field, bytes of a line, payload of a packet, quarter bytes of a pixel;
its format; and the samples of its slice, in the order of the pgroups. -/
structure Packing where
  lines : List Nat
  row : Nat
  pay : Nat
  quarters : Nat
  fmt : Fmt
  bits : Nat
  samples : List Nat

def State.packing (s : State) (k : Nat) (f : Flow) : Option Packing :=
  if f.type ≠ 0 then none
  else if f.slice then
    match s.cmp.slices.find? (fun e => e.2.flow == k) with
    | none => none
    | some (_, sl) => (s.canvas sl.canvas).sent.map (fun d =>
        ⟨[sl.rect.h], sl.rect.w * pixelQuarters d.sampling / 4, max 1 (videoPayload f.block d.sampling),
         pixelQuarters d.sampling, Fmt.zero, sedgeBits d.sampling,
         match (s.canvas sl.canvas).shown with
         | some p => p.pic.region sl.rect.x.toNat sl.rect.y.toNat sl.rect.w sl.rect.h
         | none => []⟩)
  else some ⟨fieldLines f.fmt, (routeRaster f.fmt).1 * pixelQuarters f.fmt.sampling / 4,
    max 1 (videoPayload f.block f.fmt.sampling), pixelQuarters f.fmt.sampling, f.fmt, 0, []⟩

/-- Packet `n` of a frame whose fields have these lines: its field, its first byte and length there, and whether it is the
field's last (R365). -/
def packetOf (row pay : Nat) : List Nat → Nat → Nat → Option (Nat × Nat × Nat × Bool)
  | [], _, _ => none
  | l :: ls, i, n =>
    let total := l * row
    let count := ceilDiv total pay
    if n < count then some (i, n * pay, min pay (total - n * pay), n + 1 == count)
    else packetOf row pay ls (i + 1) (n - count)

/-- One SRD header per line that the bytes `start .. start + len - 1` of a field touch (R365). -/
def srdsOf (row quarters start len : Nat) : List Srd :=
  if row = 0 ∨ len = 0 then []
  else
    let first := start / row
    (List.range ((start + len - 1) / row - first + 1)).map (fun i =>
      let lo := max start ((first + i) * row)
      let hi := min (start + len) ((first + i + 1) * row)
      ⟨first + i, 4 * (lo % row) / quarters, hi - lo⟩)

/-- Samples as bytes, the most significant bit of each first. -/
def sampleBytes (bits : Nat) (l : List Nat) (n : Nat) : List Byte :=
  let all := l.flatMap (fun v => (List.range bits).map (fun i => v.testBit (bits - 1 - i)))
  (List.range n).map (fun i => BitVec.ofNat 8 (((all.drop (8 * i)).take 8).foldl (fun x b => 2 * x + b.toNat) 0))

/-- The ancillary packets that a TYPE 4 transmit flow carries (R370). -/
def ancSent (l : List AncPacket) : List AncPacket := l.filter (fun a => a.kind == .other)

/-- The packet that flow `k` sends next, none where every packet of the frame has been sent: the samples of its slice, or those of
its track or channels, `data`, and for TYPE 4 the ancillary packets among `anc`; the marker of TYPE 4 and TYPE 5, which is not
stated, is a free value (log entry 31). -/
def State.nextPacket (s : State) (k : Nat) (f : Flow) (second : Bool) (data : List Byte) (anc : List AncPacket) :
    Option SentPacket × State :=
  let x := s.tx k
  let b := f.block
  let n := x.seq % 2 ^ 32
  let make := fun (fmt : Fmt) (second marker : Bool) (srds : List Srd) (len : Option Nat) (data : List Byte)
      (anc : List AncPacket) =>
    (⟨k, blkPt b, blkSsrc b, if f.type = 0 then n else n % 65536, rtpTs (rtpClock f.type) (s.rtpInstant f x fmt second),
      marker, srds, len, data, anc⟩ : SentPacket)
  match s.packing k f with
  | some g =>
    ((packetOf g.row g.pay g.lines 0 x.sent).map (fun q =>
      make g.fmt (q.1 == 1) q.2.2.2 (srdsOf g.row g.quarters q.2.1 q.2.2.1) (some q.2.2.1)
        (if f.slice then (sampleBytes g.bits g.samples (g.row * g.lines.headD 0)).drop q.2.1 |>.take q.2.2.1
         else data.take q.2.2.1) []), s)
  | none =>
    if f.type = 0 then (none, s)
    else if f.audio then
      let len := f.audioSample * (if blkPt125 b then 6 else 48)
      (some (make Fmt.zero false false [] (some len) (data.take len) []), s)
    else
      let p := s.freshPick 2
      let fmt := (s.runFmt f.track).getD Fmt.zero
      (some (if f.type = 5 then make fmt second (p.1 == 1) [] (some hbrmtBytes) (data.take hbrmtBytes) []
        else make fmt second (p.1 == 1) [] none [] (ancSent anc)), p.2)

/-- Packet `p` of flow `k` leaves on every leg whose port is up; on one that is down it is discarded (R343, R366, R374). A chip in
SYNC or STANDBY only counts it (R574). -/
def State.sendPacket (s : State) (k : Nat) (f : Flow) (p : SentPacket) : State :=
  let x := s.tx k
  let quiet := s.standby
  let s := s.setTx k { x with
    seq := x.seq % 2 ^ 32 + 1, sent := x.sent + 1, pkt := if quiet then x.pkt else min (x.pkt + 1) (2 ^ 32 - 1) }
  if quiet then s
  else s.each f.legs (fun s l =>
    if s.portUp (f.port l) then s.emit (.packet (s.legHeader f l) p) else s.macCount (f.port l) MAC_TXDISC 1)

/-- A packet of a TYPE 1 flow is relayed by every transmit flow that names it, its payload and timestamp unchanged (R371). -/
def State.relayOf (s : State) (k : Nat) (q : EssPacket) : State :=
  s.each s.ess.tx (fun s e =>
    match (s.tx e.1).now with
    | some f =>
      if f.type = 1 ∧ f.track = k ∧ !(s.tx e.1).par ∧ s.sending then
        s.sendPacket e.1 f ⟨e.1, blkPt f.block, blkSsrc f.block, (s.tx e.1).seq % 65536, q.rtpTime, q.marker, [],
          some q.payload.length, q.payload, []⟩
      else s
    | none => s)

/-- The packet is used: it is counted, a TYPE 1 packet is relayed (R371), and a frame may end with it. -/
def State.rxUsed (s : State) (k : Nat) (f : Flow) (q : EssPacket) : State :=
  let x := s.rx k
  let s := s.setRx k { x with pkt := min (x.pkt + 1) (2 ^ 32 - 1) }
  let s := s.when (f.type == 1) (fun s => s.relayOf k q)
  if !q.endsFrame then s
  else
    let found := q.sdi.map sdiDescriptor
    -- what a TYPE 5 flow without FORMAT carries is published once two frames agree (R312, R350)
    let same : Bool := !(f.video && f.fmt.none) || (found.isSome && found == x.found)
    let n := min 2 (x.frames + 1)
    let s := s.setRx k { s.rx k with frames := n, lastAt := some s.now, found := found }
    let s := s.rxPhase k f q.rtpTime.toNat
    let s := s.when (n == 2 && same) (fun s => s.rxPublish k f q.rtpTime)
    s.rxBoundary k

/-- The bytes of a packet that its legs are compared by (R363): SRD headers, payload and ancillary words. -/
def packetBytes (k : EssPacket) : List Byte :=
  let two := fun (n : Nat) => [BitVec.ofNat 8 (n / 256), BitVec.ofNat 8 n]
  k.srds.flatMap (fun h => two h.length.toNat ++ two (h.row.toNat + if h.second then 32768 else 0) ++ two h.offset.toNat)
    ++ k.payload ++ k.anc.flatMap (fun a => two a.line.toNat ++ a.words.flatMap (fun w => two w.toNat))

/-- The CRC-32C of R363. -/
def packetCrc (k : EssPacket) : Word := crcOf (packetBytes k)

/-- The frame's ancillary packets, with those of packet `seq` put in (R370). -/
def AncFrame.put (o : Option AncFrame) (ts seq : Word) (l : List AncPacket) : AncFrame :=
  match o with
  | some a => if a.ts = ts then ⟨ts, a.packets.filter (fun e => e.1 != seq) ++ [(seq, l)]⟩ else ⟨ts, [(seq, l)]⟩
  | none => ⟨ts, [(seq, l)]⟩

/-- A TYPE 4 flow inserts its packets on the lines that they name; a payload ID packet is not inserted, and one that names a line
outside the raster is dropped and counted (R370). -/
def State.insertAnc (s : State) (n : Nat) (f : Flow) (k : EssPacket) : State :=
  let lines := linesOf (s.rxFmt f).raster
  let mine := k.anc.filter (fun a => a.kind != .payloadId)
  let inside := fun (a : AncPacket) => decide (1 ≤ a.line.toNat ∧ a.line.toNat ≤ lines)
  let s := s.incBy ESS_BADPKT ESS_BADPKT_COUNT (mine.filter (fun a => !inside a)).length
  s.setRx n { s.rx n with anc := some (AncFrame.put (s.rx n).anc k.rtpTime k.seq (mine.filter inside)) }

/-- The data of a packet is in place; the first audio packet sets the one that is released first (R359). -/
def State.storeData (s : State) (n : Nat) (f : Flow) (k : EssPacket) : State :=
  let x := s.rx n
  s.setRx n { x with
    data := ⟨k.seq, k.rtpTime, k.payload⟩ :: (x.data.filter (fun d => d.seq != k.seq)).take 32767
    due := if f.audio && x.due.isNone then some k.rtpTime else x.due }

/-- The data of a packet takes its place, as ancillary packets or samples; an opaque flow's passes on (R359, R370, R371). -/
def State.takeData (s : State) (n : Nat) (f : Flow) (k : EssPacket) : State :=
  if f.type = 4 then s.insertAnc n f k else if f.type = 1 then s else s.storeData n f k

/-- R363, R364: the second copy of a packet of a pair. One from the preferred leg takes the place of the first while its line or
packet has not been released. -/
def State.secondCopy (s : State) (n leg : Nat) (f : Flow) (c : RxCopy) (k : EssPacket) : State :=
  let x := s.rx n
  if c.at_ + 1000 * blkSkewMax f.block < s.now then s.inc ESS_LEGLATE ESS_LEGLATE_COUNT
  else
    let s := s.setRx n { x with copies := x.copies.filter (· != c) }
    if c.crc = packetCrc k then s
    else
      let preferred : Bool := f.prefB == (leg == 1)
      let s := s.inc ESS_MISMATCH ESS_MISMATCH_COUNT
      if k.afterRelease then s.when preferred (fun s => s.inc ESS_PREFLATE ESS_PREFLATE_COUNT)
      else
        let y := s.rx n
        let s := (s.setRx n { y with mis := min (y.mis + 1) (2 ^ 32 - 1) }).raise 98
        s.when preferred (fun s => s.takeData n f k)

/-- A leg delivers (R364). -/
def State.legUp (s : State) (n leg : Nat) : State :=
  let x := s.rx n
  s.setRx n (if leg = 0 then { x with legA := true, heardA := some s.now } else { x with legB := true, heardB := some s.now })

/-- The first copy of a packet: ancillary data for a frame that has been released is dropped and counted (R370). -/
def State.firstCopy (s : State) (n : Nat) (f : Flow) (k : EssPacket) : State :=
  if f.type = 4 ∧ k.afterRelease then s.inc ESS_LATE ESS_LATE_COUNT else (s.takeData n f k).rxUsed n f k

/-- A valid packet of leg `leg` of flow `n` (R363, R364, R370). -/
def State.rxAccepted (s : State) (n leg : Nat) (f : Flow) (k : EssPacket) : State :=
  let s := s.legUp n leg
  if !f.dual then s.firstCopy n f k
  else
    match (s.rx n).copies.find? (fun c => c.seq == k.seq) with
    | some c => if c.legB = (leg == 1) then s else s.secondCopy n leg f c k
    | none =>
      let x := s.rx n
      let s := s.setRx n { x with copies := ⟨k.seq, packetCrc k, leg == 1, s.now⟩ :: x.copies.take 32767 }
      s.firstCopy n f k

/-- R229, R356, R358. -/
def opEssPacket (p : Nat) (k : EssPacket) (s : State) : State :=
  match s.matchRx p k with
  | some (n, leg, f) =>
    if badPacket f k then (s.inc ESS_BADPKT ESS_BADPKT_COUNT).raise 100 else s.rxAccepted n leg f k
  | none =>
    if s.matchMoved p k then s
    else match k.kind with
      | .essence => s.inc ESS_NOMATCH ESS_NOMATCH_COUNT
      | .other => s.inc ESS_NOMATCH ESS_NOMATCH_COUNT
      | .ptp => s
      | .igmp => s
      | .mld => s
      | .arp => s
      | .ndp => s

/-- R360: data is incomplete at its release. -/
def State.essLate (s : State) : State := (s.inc ESS_LATE ESS_LATE_COUNT).raise 99

/-- A line of a video flow is released; an incomplete one goes out as the Fallow raster's and reaches FSA as an errored line (R246,
R360). -/
def State.playLine (s : State) (n : Nat) (f : Flow) (line : Nat) (complete : Bool) : State :=
  let s := s.setRx n { s.rx n with played := some (line, complete) }
  if complete then s else opErroredLine f.track line ((s.setRx n { s.rx n with frames := 0 }).essLate)

/-- The next packet of an audio flow is released at its timestamp's instant + PLAYDLY, with zero samples where it is not there; the
definition may change with it (R359, R360, R372). -/
def State.playAudio (s : State) (n : Nat) (f : Flow) : State :=
  let x := s.rx n
  match x.due with
  | none => s
  | some ts =>
    if (s.fullTime (blkTb f.block) : Int) < s.tickInstant f ts + blkPlayDly f.block then s
    else
      let here := x.data.any (fun d => d.ts == ts)
      let s := s.setRx n { x with
        due := some (ts + if blkPt125 f.block then 6 else 48), played := some (ts.toNat, here)
        data := x.data.filter (fun d => d.ts != ts) }
      let s := if here then s else (s.setRx n { s.rx n with frames := 0 }).essLate
      s.rxBoundary n

/-- R359, R360: a line or an audio packet is released. -/
def opPlayout (n line : Nat) (complete : Bool) (s : State) : State :=
  let x := s.rx n
  match x.now with
  | none => s
  | some f =>
    if x.lost || x.par then s
    else if f.audio then s.playAudio n f
    else if f.video then s.playLine n f line complete
    else s

/-- R361: the flow is lost. The legs of a pair are lost in their own time (R364). -/
def State.rxLose (s : State) (n : Nat) (f : Flow) : State :=
  let x := s.rx n
  let s := s.setRx n { x with
    lost := true, legA := x.legA && f.dual, frames := 0, phase := none, moved := 0, data := [], due := none, found := none }
  (s.raise 96).rxGone f

/-- The silence, in ns, after which a receive flow is lost, none where the length of its frames is not known (R361). -/
def State.lostAfter (s : State) (n : Nat) (f : Flow) : Option Nat :=
  if f.audio then some 2000000
  else
    let r := if f.video then (s.rxDescriptor n f).elim 0 (fun d => (highFmt d.1).rate) else (s.rxFmt f).rate
    if framePeriod3 r = 0 then none else some (2 * framePeriodNs r)

/-- No packet has come for that long. -/
def State.silent (s : State) (n : Nat) (f : Flow) : Bool :=
  let x := s.rx n
  match s.lostAfter n f, [x.heardA, x.heardB].filterMap id with
  | some t, a :: l => decide (l.foldl max a + t ≤ s.now)
  | _, _ => true

def opRxLost (n : Nat) (s : State) : State :=
  let x := s.rx n
  match x.now with
  | none => s
  | some f => if x.lost || !s.silent n f then s else (s.rxLose n f).rxBoundary n

/-- R353, R364: a leg of a pair has delivered nothing for LEGTO ms, of which 0 acts as 10. -/
def opLegLoss (n : Nat) (legB : Bool) (s : State) : State :=
  let x := s.rx n
  match x.now with
  | none => s
  | some f =>
    let heard := if legB then x.heardB else x.heardA
    let limit := if blkLegTo f.block = 0 then 10 else blkLegTo f.block
    let waited : Bool := match heard with
      | some a => decide (a + 1000000 * limit ≤ s.now)
      | none => true
    if !f.dual || !(if legB then x.legB else x.legA) || !waited then s
    else
      let s := s.setRx n (if legB then { x with legB := false } else { x with legA := false })
      (s.event (s.ownerOf 2 n) 12 5 2 n x.epoch [n + (if legB then 2 ^ 31 else 0), 0, 0, 0]).raise 97

/-- R357: an unsolicited report on an enabled leg with a multicast destination. -/
def opReport (n : Nat) (legB : Bool) (s : State) : State :=
  let x := s.rx n
  let leg := if legB then 1 else 0
  match x.now with
  | none => s
  | some f =>
    let sent := if legB then x.reportsB else x.reportsA
    match (if f.legs.contains leg then f.group leg else none) with
    | none => s
    | some g =>
      if 2 ≤ sent then s
      else
        let y := if legB then { x with reportsB := sent + 1 } else { x with reportsA := sent + 1 }
        (s.setRx n { y with joined := true }).emit (.report (f.port leg) n g)

/-- R357: an IGMP or MLD query on a port is answered for the enabled legs of that IP version. -/
def opQuery (p : Nat) (mld : Bool) (s : State) : State :=
  s.each s.ess.rx (fun s e => match e.2.now with
    | none => s
    | some f => s.each (f.groups.filter (fun x => x.1 == p && x.2.ipv6 == mld)) (fun s x =>
        (s.setRx e.1 { s.rx e.1 with joined := true }).emit (.report p e.1 x.2)))

/-- A packet of flow `f` can leave after its instant: a slice's data is there, a W sender has no instant to miss, and TROFS of a line
period or more rules it out for a track's (R368). -/
def State.mayBeLate (s : State) (f : Flow) : Bool :=
  let fmt := (s.runFmt f.track).getD Fmt.zero
  f.audio || (!f.slice && !(f.type == 0 && blkSender f.block == 2)
    && (fmt.none || decide (3 * blkTrofs f.block * linesOf fmt.raster < framePeriod3 fmt.rate)))

/-- R366-R368, R574: a packet's instant arrives. -/
def opTxPacket (k : Nat) (ready second : Bool) (data : List Byte) (anc : List AncPacket) (s : State) : State :=
  let s := match (s.tx k).now with
    | some f => if f.audio then s.txTurn k else s
    | none => s
  let x := s.tx k
  match x.now with
  | none => s
  | some f =>
    let fed : Bool := if f.slice then s.hasSlice k && x.sent != 0 else if f.video then x.match_ else f.type != 1
    if x.par || !fed || !s.sending then s
    else
      let p := s.nextPacket k f second data anc
      match p.1 with
      | none => s
      | some q => (p.2.sendPacket k f q).when (!ready && s.mayBeLate f) (fun s => (s.inc ESS_TXLATE ESS_TXLATE_COUNT).raise 101)

/-- R351, R367, R372: a frame of ESS destination `d` begins, L × HOP after A(N) (R238). -/
def State.txFrame (s : State) (d : Nat) : State :=
  s.each s.ess.tx (fun s e =>
    let on := fun (f : Option Flow) => match f with
      | some f => f.track == d && !f.slice && !f.audio && f.type != 1
      | none => false
    let s := s.when (on (s.tx e.1).now || ((s.tx e.1).now.isNone && on (s.tx e.1).planned)) (fun s => s.txTurn e.1)
    let s := match (s.tx e.1).now with
      | some f => s.when (on (some f)) (fun s => s.setTx e.1 { s.tx e.1 with
          lastAt := some s.now, frameAt := (s.fullTime (blkTb f.block) : Int) - (s.leadOf d * s.hop : Nat) })
      | none => s
    match (s.tx e.1).now with
    | some f =>
      if on (some f) && f.video then
        let ok : Bool := match s.runFmt d with
          | some g => f.fmt.same g
          | none => false
        let s := s.setTx e.1 { s.tx e.1 with match_ := ok, sent := 0 }
        s.when (!ok && !(s.tx e.1).par) (fun s => (s.inc ESS_FMTMIS ESS_FMTMIS_COUNT).raise 104)
      else s
    | none => s)

def opDestFrame (d : Nat) (data : List Byte) (s : State) : State :=
  let s := s.destFrame d data
  if essDst d then s.txFrame d else s

/-- Slice flows of a canvas take their new definitions at its frame boundary, and so do those that have just lost their slice
(R372), and A(N) is the instant of its frame's timestamp in each flow's base (R37, R291). -/
def State.sliceFrame (s : State) (c : Nat) : State :=
  let s := s.each s.ess.tx (fun s e => s.when (s.noBoundary e.1) (fun s => s.txTurn e.1))
  s.each (s.cmp.slices.filter (fun e => e.2.canvas == c)) (fun s e =>
    let k := e.2.flow
    let s := s.txTurn k
    match (s.tx k).now with
    | some f => s.setTx k { s.tx k with lastAt := some s.now, sent := 0, frameAt := (s.fullTime (blkTb f.block) : Int) }
    | none => s)

/-- The enabled slices of canvas `c` whose flows send, in slice-index order, with their flow and its first packet. -/
def State.firstPackets (s : State) (c : Nat) : List (Nat × Nat × Flow × SentPacket) :=
  (s.cmp.slices.filter (fun e => e.2.canvas == c)).filterMap (fun e =>
    match (s.tx e.2.flow).now with
    | none => none
    | some f =>
      if f.slice && !(s.tx e.2.flow).par && s.sending then
        (s.nextPacket e.2.flow f false [] []).1.map (fun p => (e.1, e.2.flow, f, p))
      else none)

/-- Bytes of a packet on a leg, counted as in R355. -/
def SentPacket.wire (p : SentPacket) (f : Flow) (leg : Nat) : Nat :=
  p.length.getD 0 + 86 + 6 * (p.srds.length - 1) + legExtra f.block leg

/-- The condition of R369 on port `p`: with it every first packet of these slices leaves within 20 µs of A(N), while the port
is up. -/
def State.windowMet (s : State) (l : List (Nat × Nat × Flow × SentPacket)) (p : Nat) : Bool :=
  let sum := l.foldl (fun n x => (x.2.2.1.legs.filter (fun g => x.2.2.1.port g == p)).foldl
    (fun n g => n + x.2.2.2.wire x.2.2.1 g) n) 0
  s.portUp p && decide (8 * (sum + s.maxLen p + 532) * 50000 * 1001 ≤ s.portCapacity p)

/-- A packet of transmit flow `k` waits on port `p` ahead of every preemptable frame that has not started (R369). -/
def State.putAhead (s : State) (k p : Nat) : State :=
  if s.portUp p then s.setPort p { s.port p with ahead := (s.port p).ahead ++ [k] } else s

/-- Slices whose first packets missed the window (R291). -/
def State.countLate (s : State) (n : Nat) : State :=
  s.when (n != 0) (fun s => (s.incBy CMP_SLICELATE CMP_SLICELATE_COUNT n).raise 197)

/-- A(N): the first packets of the canvas's slices, in slice-index order, ahead of every preemptable frame that has not
started (R369). Of the slices reported as late those count at which R369 does not rule it out (R291). -/
def State.sendFirst (s : State) (c : Nat) (missed : List Nat) : State :=
  let l := s.firstPackets c
  let late := (l.filter (fun x => missed.contains x.1 && x.2.2.1.legs.any (fun g => !s.windowMet l (x.2.2.1.port g)))).length
  let s := s.each l (fun s x =>
    let s := s.sendPacket x.2.1 x.2.2.1 x.2.2.2
    if s.standby then s
    else s.each x.2.2.1.legs (fun s g => s.putAhead x.2.1 (x.2.2.1.port g)))
  s.countLate late

/-- A(N) of canvas `c` (R289-R292). -/
def opFrameOut (c : Nat) (finished : Bool) (missed : List Nat) (s : State) : State :=
  if s.frameDue c then ((s.frameOut c finished).sliceFrame c).sendFirst c missed else s

/-! ## Parity, windows and counters (R374-R377) -/

def opFtpar (isTx : Bool) (k : Nat) (s : State) : State :=
  if isTx then
    let x := s.tx k
    (if x.now.isSome then s.setTx k { x with par := true } else s).raise 103
  else
    let x := s.rx k
    match x.now with
    | none => s.raise 103
    | some f =>
      let s := s.setRx k { x with par := true }
      let s := if x.lost then s else s.rxLose k f
      s.raise 103

def boolNat (b : Bool) : Nat := if b then 1 else 0

def opFrIdx (v : Word) (s : State) : State :=
  let s := s.fieldWrite ESS_FR_IDX v
  let x := s.rx (s.fld ESS_FR_IDX ESS_FR_IDX_FLOW)
  let s := s.wr ESS_FR_STAT 0
  let s := s.setBit ESS_FR_STAT ESS_FR_STAT_EN x.planned.isSome
  let s := s.setBit ESS_FR_STAT ESS_FR_STAT_DUAL (match x.planned with
    | some f => f.dual
    | none => false)
  let s := s.setBit ESS_FR_STAT ESS_FR_STAT_LEGA x.legA
  let s := s.setBit ESS_FR_STAT ESS_FR_STAT_LEGB x.legB
  let s := s.setBit ESS_FR_STAT ESS_FR_STAT_LOST x.lost
  let s := s.setBit ESS_FR_STAT ESS_FR_STAT_JOINED x.joined
  let s := s.setFld ESS_FR_STAT ESS_FR_STAT_EPOCH x.epoch
  (s.setFld ESS_FR_PKT ESS_FR_PKT_COUNT x.pkt).setFld ESS_FR_MIS ESS_FR_MIS_COUNT x.mis

def opFtIdx (v : Word) (s : State) : State :=
  let s := s.fieldWrite ESS_FT_IDX v
  let x := s.tx (s.fld ESS_FT_IDX ESS_FT_IDX_FLOW)
  let s := s.wr ESS_FT_STAT 0
  let s := match x.planned with
    | some f =>
      let s := s.setBit ESS_FT_STAT ESS_FT_STAT_EN true
      let s := s.setBit ESS_FT_STAT ESS_FT_STAT_DUAL f.dual
      let s := s.setBit ESS_FT_STAT ESS_FT_STAT_SLICE f.slice
      let s := s.setFld ESS_FT_STAT ESS_FT_STAT_PORTA (f.port 0)
      s.setFld ESS_FT_STAT ESS_FT_STAT_PORTB (if f.dual then f.port 1 else 0)
    | none => s
  (s.setFld ESS_FT_SEQ ESS_FT_SEQ_SEQ (x.seq - 1)).setFld ESS_FT_PKT ESS_FT_PKT_COUNT x.pkt

def opEssClrcnt (s : State) : State :=
  let s := s.clearAll [ESS_EPDISC, ESS_NOMATCH, ESS_MISMATCH, ESS_PREFLATE, ESS_LEGLATE, ESS_LATE, ESS_BADPKT, ESS_TXLATE,
    ESS_FMTMIS]
  { s with ess := { s.ess with
      rx := s.ess.rx.map (fun e => (e.1, { e.2 with pkt := 0, mis := 0 }))
      tx := s.ess.tx.map (fun e => (e.1, { e.2 with pkt := 0 })) } }

/-! ## The commands -/

def execFlowRxDef (t : Tenant) (r : CmdRing) (e : Entry) (pb : BlockRead) (s : State) :
    Host.Outcome State Fault Refusal :=
  done s (s.commandWith 0x30 t.val r.val e pb (flowRxBody t.val e pb))
def execFlowTxDef (t : Tenant) (r : CmdRing) (e : Entry) (pb : BlockRead) (s : State) :
    Host.Outcome State Fault Refusal :=
  done s (s.commandWith 0x31 t.val r.val e pb (flowTxBody t.val e pb))
def execSliceSet (t : Tenant) (r : CmdRing) (e : Entry) (s : State) : Host.Outcome State Fault Refusal :=
  done s (s.command 0x12 t.val r.val e (sliceBody t.val e))
def execDestFrameStart (d : Track) (data : List Byte) (s : State) : Host.Outcome State Fault Refusal :=
  done s (opDestFrame d.val data s)
def execCanvasFrameOut (c : Canvas) (finished : Bool) (missed : List (Fin 4096)) (s : State) : Host.Outcome State Fault Refusal :=
  done s (opFrameOut c.val finished (missed.map Fin.val) s)
def execEssPacketReceived (p : Port) (k : EssPacket) (s : State) : Host.Outcome State Fault Refusal :=
  done s (opEssPacket p.val k s)
def execPlayoutRelease (n : Fin 2048) (line : BitVec 11) (complete : Bool) (s : State) : Host.Outcome State Fault Refusal :=
  done s (opPlayout n.val line.toNat complete s)
def execEssRxlost (n : Fin 2048) (s : State) : Host.Outcome State Fault Refusal := done s (opRxLost n.val s)
def execLegloss (n : Fin 2048) (legB : Bool) (s : State) : Host.Outcome State Fault Refusal :=
  done s (opLegLoss n.val legB s)
def execMembershipReport (n : Fin 2048) (legB : Bool) (s : State) : Host.Outcome State Fault Refusal :=
  done s (opReport n.val legB s)
def execMembershipQuery (p : Port) (mld : Bool) (s : State) : Host.Outcome State Fault Refusal := done s (opQuery p.val mld s)
def execTxPacketInstant (k : Fin 4096) (ready second : Bool) (data : List Byte) (anc : List AncPacket) (s : State) :
    Host.Outcome State Fault Refusal :=
  done s (opTxPacket k.val ready second data anc s)
def execEssFtpar (isTx : Bool) (k : Fin 4096) (s : State) : Host.Outcome State Fault Refusal := done s (opFtpar isTx k.val s)
def execEssFrIdx (v : Word) (s : State) : Host.Outcome State Fault Refusal := doneBar s (opFrIdx v s)
def execEssFtIdx (v : Word) (s : State) : Host.Outcome State Fault Refusal := doneBar s (opFtIdx v s)
def execEssClrcnt (s : State) : Host.Outcome State Fault Refusal := doneBar s (opEssClrcnt s)

end Sys2Proof.Machine
end

