-- ==== Sys2Proof/Machine/Migrate.lean ====
section
/-! DEFINITION. MIGRATE with one frame of overlap (R158, R227-R231, R273, R373). -/

namespace Sys2Proof.Machine

open Sys2Proof

def migrateFields : List (Nat × Nat × Nat) := [(8, 0, 2), (9, 0, 5), (10, 0, 12), (12, 0, 2), (16, 0, 32)]

def State.setMigs (s : State) (l : Tbl Mig) : State := { s with sal := { s.sal with migs := l } }

/-- The flow that a MIGRATE of KIND 1 or 2 names. -/
def State.migFlow (s : State) (kind i : Nat) : Option Flow := if kind = 1 then (s.tx i).planned else (s.rx i).planned

/-- The object exists. -/
def State.migExists (s : State) (kind i : Nat) : Bool :=
  if kind = 0 then decide (i < 64) && s.canvasDefined i
  else if kind = 1 then (s.migFlow 1 i).isSome
  else kind == 2 && decide (i < 2048) && (s.migFlow 2 i).isSome

/-- The engine, or the MAC of leg A, that the object is on. -/
def State.migHome (s : State) (kind i : Nat) : Nat :=
  if kind = 0 then (match (s.canvas i).planned with
    | some d => d.engine
    | none => 0)
  else match s.migFlow kind i with
    | some f => f.port 0 / 2
    | none => 0

def State.migEpoch (s : State) (kind i : Nat) : Nat :=
  if kind = 0 then (s.canvas i).epoch else if kind = 1 then (s.tx i).epoch else (s.rx i).epoch

/-- The flows of a direction, each on its new port where its migration is under way: both placements count (R230). -/
def State.migMoves (s : State) (kind : Nat) (l : List (Nat × Flow)) : List (Nat × Flow) :=
  l.filterMap (fun e => (s.migOf kind e.1).map (fun m => (e.1, { e.2.moved (s.migPort m.target) with dual := false })))

/-- The engine or MAC has no room for the object beside its load, with the limit's code (R230). -/
def State.migOver (s : State) (kind i target : Nat) : Option Nat :=
  if kind = 0 then
    match (s.canvas i).planned with
    | some d => if 24000 < s.engineLoad target + d.pix + s.layerMax i (fun l => l.work d) then some 9 else none
    | none => none
  else
    match s.migFlow kind i with
    | none => none
    | some f =>
      let p := s.migPort target
      let g := f.moved p
      let l := if kind = 1 then s.txFlows else s.rxFlows
      if !s.portOn p || decide (s.portCapacity p <
          s.portLoad (kind == 2) ((i, { g with dual := false }) :: s.migMoves kind l ++ l) p) then some 8
      else none

/-- RATE of the frames of flow `i` (R227): its slice's canvas, the stream that feeds it, or the format it carries; 0 where it has
none. -/
def State.migRate (s : State) (kind i : Nat) (f : Flow) : Nat :=
  if f.slice then
    match s.allSlices.find? (fun e => e.2.flow == i) with
    | some e => (s.canvas e.2.canvas).planned.elim 0 CanvasDef.rate
    | none => 0
  else if f.type = 4 then (if kind = 1 then (s.runFmt f.track).elim 0 Fmt.rate else (s.rxFmt f).rate)
  else if kind = 1 then f.fmt.rate
  else (s.rxDescriptor i f).elim 0 (fun d => (highFmt d.1).rate)

/-- F of R227 in ns, and whether the boundaries lie on the 1 ms grid of the time base. DESIGN CHOICE: no rule gives an opaque TYPE 1
flow, or one whose format is not known yet, frames; with F = 0 it moves at any instant from TIME on (log entry 53). -/
def State.migPeriod (s : State) (kind i : Nat) : Nat × Bool :=
  if kind = 0 then (match (s.canvas i).planned with
    | some d => (framePeriodNs d.rate, false)
    | none => (0, false))
  else match s.migFlow kind i with
    | none => (0, false)
    | some f =>
      if f.audio then (1000000, true)
      else (framePeriodNs (s.migRate kind i f), false)

/-- An instant at which a frame of the object began or will begin, none while none is known. -/
def State.migPhase (s : State) (kind i : Nat) : Option Nat :=
  if kind = 0 then (s.canvas i).lastOut.orElse (fun _ => (s.canvas i).outAt)
  else if kind = 1 then (s.tx i).lastAt else (s.rx i).lastAt

/-- R228: the boundary Bc - F has already begun; none where the phase of the object's frames is not in the state. -/
def State.migPassed (s : State) (kind i tb t : Nat) : Option Bool :=
  if t = 0 then some false
  else
    match s.dueTime tb t with
    | none => some true
    | some due =>
      let now := s.fullTime tb
      let p := s.migPeriod kind i
      if p.2 then some (decide (ceilDiv due p.1 * p.1 ≤ now + p.1))
      else if p.1 = 0 ∨ now + p.1 < due then some false
      else
        (s.migPhase kind i).map (fun a =>
          let k := -(((a : Int) - (s.now + (due - now) : Nat)) / (p.1 : Int))
          decide ((a : Int) + (k - 1) * p.1 ≤ s.now))

/-- R228; where the phase is unknown, which of the two holds for a TIME within the next F is a free value (log entry
33). -/
def State.migLate (s : State) (kind i tb t : Nat) : Bool × State :=
  match s.migPassed kind i tb t with
  | some b => (b, s)
  | none => ((s.freshPick 2).1 == 1, (s.freshPick 2).2)

def migrateBody (t : Nat) (e : Entry) (id : Nat) (s : State) : State :=
  let kind := bitsAt e 8 0 2
  let target := bitsAt e 9 0 5
  let i := bitsAt e 10 0 12
  let owned := if kind = 0 then 1 else if kind = 1 then 3 else 2
  let same : Bool := s.migHome kind i == target
  let excess := s.migOver kind i target
  s.checked id
    [ (!onlyFields e migrateFields || kind == 3 || (kind == 0 && decide (16 ≤ target)), .rejFormat, 0),
      (!s.migExists kind i, .rejFormat, 0),
      (s.ownerOf owned i != t, .rejOwner, 0),
      ((s.migOf kind i).isSome || (kind == 0 && s.canvasHeld i), .rejLocked, 0),
      (!same && kind == 0 && s.fenced (unitEngine target), .rejCapacity, 11),
      (!same && excess.isSome, .rejCapacity, excess.getD 0),
      s.standbyBusy ]
    (fun s =>
      if same then s.complete id .ok 0 (s.migEpoch kind i)
      else
        let tb := bitsAt e 12 0 2
        let time := bitsAt e 16 0 32
        let l := s.migLate kind i tb time
        let s := l.2
        if l.1 then s.complete id .late 0 0
        else
          let s := s.when (kind == 0) (fun s =>
            (s.abandonSlice (unitEngine target)).startDomain (domCmp (target / 4)))
          s.setMigs (Tbl.put s.sal.migs (4096 * kind + i)
            ⟨id, t, target, tb, if time = 0 then none else s.dueTime tb time, false⟩))

/-- The frame boundary that begins now is Bc - F: Bc, one period later, is the first at or after TIME (R228, R229). -/
def State.migStarts (s : State) (kind i : Nat) (m : Mig) : Bool :=
  match m.due with
  | none => true
  | some due =>
    let now := s.fullTime m.tb
    let f := (s.migPeriod kind i).1
    f == 0 || decide (now < due ∧ due ≤ now + f)

/-- R229: the overlap frame begins; a receive flow's new MAC joins its groups. -/
def opMigStart (kind i : Nat) (s : State) : State :=
  match s.migOf kind i with
  | none => s
  | some m =>
    if m.started || !s.migStarts kind i m then s
    else
    let s := s.setMigs (Tbl.put s.sal.migs (4096 * kind + i) { m with started := true })
    match s.migFlow kind i with
    | some f =>
      if kind = 2 then (match f.group 0 with
        | some g => s.emit (.report (s.migPort m.target) i g)
        | none => s)
      else s
    | none => s

/-- A pending change of a canvas keeps the engine that the canvas has moved to. -/
def CanvasOp.onEngine (o : CanvasOp) (e : Nat) : CanvasOp :=
  match o with
  | .define d => .define { d with engine := e }
  | .delete => .delete
  | .layer i l => .layer i l
  | .slice i d => .slice i d

/-- TIME has come (R228). -/
def State.migReached (s : State) (m : Mig) : Bool :=
  match m.due with
  | none => true
  | some due => decide (due ≤ s.fullTime m.tb)

/-- R229, R273, R373: the consumer changes to the new placement; one canvas frame, or `late` results of a flow, of the old one
are discarded. -/
def opMigCommit (kind i late : Nat) (s : State) : State :=
  match s.migOf kind i with
  | none => s
  | some m =>
    if !m.started || !s.migReached m then s
    else
      let ep := nextEpoch (s.migEpoch kind i)
      let s := s.setMigs (Tbl.del s.sal.migs (4096 * kind + i))
      let s :=
        if kind = 0 then
          let x := s.canvas i
          let s := s.setCanvas i { x with
            now := x.now.map (fun d => { d with engine := m.target }), epoch := ep
            pend := x.pend.map (fun p => { p with op := p.op.onEngine m.target }) }
          (s.recharge i).inc CMP_EPDISC CMP_EPDISC_COUNT
        else
          let move := fun (f : Flow) => f.moved (s.migPort m.target)
          let s := if kind = 1 then
              let x := s.tx i
              s.setTx i { x with now := x.now.map move, next := x.next.map (fun o => o.map move), epoch := ep }
            else
              let x := s.rx i
              let s := match x.now with
                | some f => s.leaveGroups i f (some (move f))
                | none => s
              s.setRx i { x with now := x.now.map move, next := x.next.map (fun o => o.map move), epoch := ep }
          s.incBy ESS_EPDISC ESS_EPDISC_COUNT late
      s.complete m.cmd .ok 0 ep

/-- A migration ends without a change of placement: ABORTED when its target faults, SHED when its object is shed
(R231). -/
def State.endMig (s : State) (key : Nat) (st : Status) : State :=
  match Tbl.find? s.sal.migs key with
  | none => s
  | some m => (s.setMigs (Tbl.del s.sal.migs key)).complete m.cmd st 0 0

/-- The unit a migration moves its object to. -/
def Mig.unit (m : Mig) (key : Nat) : Nat := if key / 4096 = 0 then unitEngine m.target else unitMac m.target

/-- Unit `u` faults: migrations to it end ABORTED (R231). -/
def State.faultTarget (s : State) (u : Nat) : State :=
  s.each (s.sal.migs.filter (fun e => e.2.unit e.1 == u)) (fun s e => s.endMig e.1 .aborted)

def execMigrate (t : Tenant) (r : CmdRing) (e : Entry) (s : State) : Host.Outcome State Fault Refusal :=
  done s (s.command 0x41 t.val r.val e (migrateBody t.val e))
def execMigrateOverlapStart (kind : Fin 3) (i : Fin 4096) (s : State) : Host.Outcome State Fault Refusal :=
  done s (opMigStart kind.val i.val s)
def execMigrateCommitBoundary (kind : Fin 3) (i : Fin 4096) (late : Nat) (s : State) : Host.Outcome State Fault Refusal :=
  done s (opMigCommit kind.val i.val late s)

end Sys2Proof.Machine
end

