-- ==== Sys2Proof/Machine/Shed.lean ====
section
/-! DEFINITION. What is released and shed when a unit is lost (R130-R132, R374), and the failure of a memory stack
(R248, R251). -/

namespace Sys2Proof.Machine

open Sys2Proof

/-! ## The effect of shedding (R132) -/

/-- A SHED event to the owner and to TN0. -/
def State.shedEvent (s : State) (t code kind obj : Nat) : State := s.tellOwner t 12 1 kind obj 0 [code, 0, 0, 0]

/-- The object that a SHED event names: its kind and index (R627 for a synchroniser). -/
def Holding.object : Holding → Nat × Nat
  | .route d => (0, d)
  | .sync _ d => (0, d)
  | .canvas c => (1, c)
  | .still i => (8, i)
  | .stillLoad i => (8, i)
  | .pending d => (0, d)
  | .staged _ _ d => (0, d)

/-- The destination is unrouted, and a change that waits on it ends SHED (R132, R405). -/
def State.shedRoute (s : State) (d : Nat) : State :=
  let s := match Tbl.find? s.xpt.seqs d with
    | some q => (s.setXpt { s.xpt with seqs := Tbl.del s.xpt.seqs d }).each q.cmds (fun s x => s.complete x.1 .shed 0 0)
    | none => s
  (s.removeRoute d).tally s

def State.shedPending (s : State) (d : Nat) : State :=
  match s.pend? d with
  | none => s.release (fun h => h == .pending d)
  | some p =>
    let s := s.setXpt { s.xpt with pending := Tbl.del s.xpt.pending d }
    let s := (s.release (fun h => h == .pending d)).complete p.cmd .shed 0 0
    match p.change.route with
    | some r => s.reviewSync r.src
    | none => s

/-- The canvas is deleted at once, as by CANVAS_DEF with DELETE; what waits on it ends SHED, and so does a salvo with an entry
on it, also one that has begun to compose a frame and has not sent it (R216). -/
def State.shedCanvas (s : State) (c : Nat) : State :=
  let x := s.canvas c
  let slots := (s.sal.slots.filter (fun e => e.2.canvases.contains c || x.pend.any (fun p => p.slot == some e.1))).map Prod.fst
  let s := s.endMig c .shed
  let s := s.each (x.pend.filter (fun p => p.slot.isNone)) (fun s p => s.complete p.cmd .shed 0 0)
  let s := s.setCanvas c { x with pend := [] }
  let s := (((s.applyCanvas c .delete).leaveSlices c .delete).leaveTrack c).release (fun h => h == .canvas c)
  s.each slots State.shedSalvo

/-- A substituting region fills with still `i` (R287). -/
def State.stillSubstitutes (s : State) (i : Nat) : Bool :=
  (List.range 256).any (fun r => s.srState r == 3 && s.fld (CMP_SRW_STILL r) CMP_SR_STILL_STILL == i)

/-- The still is gone; where it stands in the place of a region, CMP_SAFEMISS is severe at once (R288). -/
def State.shedStill (s : State) (i : Nat) : State :=
  let s := s.when (s.stillSubstitutes i) (fun s => s.promote 196)
  (s.setCmp { s.cmp with stills := Tbl.del s.cmp.stills i }).release (fun h => h == .still i)

def State.shedLoad (s : State) (i : Nat) : State :=
  match Tbl.find? s.cmp.loads i with
  | none => s.release (fun h => h == .stillLoad i)
  | some l =>
    ((s.setCmp { s.cmp with loads := Tbl.del s.cmp.loads i }).release (fun h => h == .stillLoad i)).complete l.cmd .shed 0 0

/-- The synchroniser of source `k`, charged on destination `d`, is shed: with it the route that reads it, or the ROUTE that
waits to (R132). -/
def State.shedSync (s : State) (k d : Nat) : State :=
  if (s.route? d).any (fun r => s.syncHome r.src == k) then s.shedRoute d
  else match s.pend? d with
    | some p => if p.change.route.any (fun r => s.syncHome r.src == k) then s.shedPending d else s.shedRoute d
    | none => s.shedRoute d

/-- One allocation is shed or released: its effect, and its SHED events with the budget's code. -/
def State.shedOne (s : State) (a : Alloc) (code : Nat) : State :=
  let s := match a.holding with
    | .route d => s.shedRoute d
    | .sync k d => s.shedSync k d
    | .canvas c => s.shedCanvas c
    | .still i => s.shedStill i
    | .stillLoad i => s.shedLoad i
    | .pending d => s.shedPending d
    | .staged t k _ => s.shedSalvo (4 * t + k)
  let s := s.release (fun h => h == a.holding)
  s.shedEvent a.owner code a.holding.object.1 a.holding.object.2

/-! ## The order of shedding (R130, R131) -/

/-- Tenant `t` is shed before tenant `u`: by class from Scavenger to Protected, then by number from the highest. -/
def State.shedBefore (s : State) (t u : Nat) : Bool :=
  decide (s.tenClass u < s.tenClass t) || (s.tenClass t == s.tenClass u && decide (u < t))

/-- The allocation of a budget that is shed next. -/
def State.nextShed (s : State) (code : Nat) : Option Alloc :=
  s.ten.allocs.foldl (fun best a =>
    if a.charge.get code = 0 then best
    else match best with
      | none => some a
      | some b => if s.shedBefore b.owner a.owner then best else some a) none

/-- Shed one budget until use is within the total; `src` is the source that reported the loss. -/
def State.shedBudget : Nat → State → Nat → Nat → State
  | 0, s, _, _ => s
  | n + 1, s, code, src =>
    if s.totalUse code ≤ s.cap code then s
    else match s.nextShed code with
      | none => s
      | some a =>
        let s := s.when (s.tenClass a.owner == 0) (fun s => s.promote src)
        (s.shedOne a code).shedBudget n code src

/-- A budget's in-service total changes, with the shedding that follows a fall (R128, R130, R134). A shed synchroniser may
pass to another reader and be shed again there, so each route or pending change may take a round beside each allocation. -/
def State.changeTotal (s : State) (code v src : Nat) : State :=
  let s := s.setTotal code v
  s.shedBudget (s.ten.allocs.length + 2 * (s.xpt.routes.length + s.xpt.pending.length)) code src

/-! ## Receive flows (R374) -/

/-- A receive flow is disabled for want of buffer. -/
def State.shedFlow (s : State) (k : Nat) : State :=
  let x := s.rx k
  let s := s.endMig (4096 * 2 + k) .shed
  let s := s.setRx k { s.rx k with
    now := none, next := none, legA := false, legB := false, joined := false, frames := 0, copies := [], phase := none, data := []
    due := none, found := none, anc := none, heardA := none, heardB := none }
  let s := match x.now with
    | some f => (s.rxGone f).leaveGroups k f none
    | none => s
  (s.refreshRx.raise 102).shedEvent (s.ownerOf 2 k) 7 2 k

/-- The receive flow that is disabled next. -/
def State.nextFlow (s : State) : Option Nat :=
  s.rxFlows.foldl (fun best e =>
    match best with
    | none => some e.1
    | some k =>
      let t := s.ownerOf 2 k
      let u := s.ownerOf 2 e.1
      if t = u then (if (s.rx k).since < (s.rx e.1).since then some e.1 else best)
      else if s.shedBefore t u then best else some e.1) none

def State.shedFlows : Nat → State → State
  | 0, s => s
  | n + 1, s =>
    if !s.rxOver s.rxFlows then s
    else match s.nextFlow with
      | none => s
      | some k => (s.shedFlow k).shedFlows n

/-! ## A memory stack fails (R248, R251) -/

/-- Stacks in service. -/
def State.stacks (s : State) : Nat := s.fld FSA_MEMSTAT FSA_MEMSTAT_STK0 + s.fld FSA_MEMSTAT FSA_MEMSTAT_STK1

/-- Every synchroniser and surface that remains is re-homed: it has no complete frame. -/
def State.rehome (s : State) : State :=
  let s : State := { s with fsa := { s.fsa with
    syncs := s.fsa.syncs.map (fun e => (e.1, { e.2 with blank := true, last := none }))
    surfaces := s.fsa.surfaces.map (fun e => (e.1, e.2.blank)) } }
  s.setCmp { s.cmp with canvases := s.cmp.canvases.map (fun e => (e.1, e.2.blank)) }

/-- R248, R251. The totals fall in the order FSYNC, MEMBW, SURF and each is shed before the next falls (DESIGN CHOICE: the order
is not stated; log entry 51). -/
def opStackFail (k : Nat) (s : State) : State :=
  let f := if k = 0 then FSA_MEMSTAT_STK0 else FSA_MEMSTAT_STK1
  if !s.bit FSA_MEMSTAT f then s
  else
    let src := 164 + k
    let s := (s.setBit FSA_MEMSTAT f false).setBit FSA_MEMSTAT FSA_MEMSTAT_DEGRADED true
    let s := s.raise src
    let n := s.stacks
    let s := s.each (s.ten.allocs.filter (fun a => match a.holding with
      | .still _ => true
      | .stillLoad _ => true
      | _ => false)) (fun s a => s.shedOne a 4)
    let s := s.changeTotal 0 (256 * n) src
    let s := s.changeTotal 2 (888 * n) src
    let s := s.changeTotal 4 (20480 * n) src
    let s := s.setFld ESS_RXBUF ESS_RXBUF_TOTAL (192 * n)
    let s := s.setFld ESS_RXBW ESS_RXBW_TOTAL (75 * n)
    let s := s.shedFlows s.rxFlows.length
    s.rehome

def execMemoryStackFail (k : Fin 2) (s : State) : Host.Outcome State Fault Refusal := done s (opStackFail k.val s)

end Sys2Proof.Machine
end

