-- ==== Sys2Proof/Machine/Fabric.lean ====
section
/-! DEFINITION. Bolben fabric links: blocks and block lock, training, the control stream, trunks and slot windows, the
loss of a link, the election and the superframe count (R379-R422). -/

namespace Sys2Proof.Machine

open Sys2Proof

/-! ## Lanes and trunks (R383, R390, R393, R402) -/

/-- The scrambler of a lane that has sent nothing: no rule gives its start (DESIGN CHOICE, log entry 55). -/
def BLaneCtl.idle : BLaneCtl := ⟨2 ^ 31 - 1, none, 0, (0, 0), .notUpdated, .hold, .notUpdated⟩

def State.blane (s : State) (j : Nat) : BLaneCtl := Tbl.getD s.blk.lanes j BLaneCtl.idle
def State.setBlane (s : State) (j : Nat) (x : BLaneCtl) : State :=
  s.setBlk { s.blk with lanes := Tbl.putD s.blk.lanes j x BLaneCtl.idle }

def TrunkCtl.idle : TrunkCtl := ⟨none, false, false⟩

def State.trunk (s : State) (t : Nat) : TrunkCtl := Tbl.getD s.blk.trunks t TrunkCtl.idle
def State.setTrunk (s : State) (t : Nat) (x : TrunkCtl) : State :=
  s.setBlk { s.blk with trunks := Tbl.putD s.blk.trunks t x TrunkCtl.idle }

/-- Positions of a trunk (R390). -/
def State.trunkCap (s : State) (t : Nat) : Nat := s.trunkLanes t * 9600 / 528

def State.trunkUp (s : State) (t : Nat) : Bool := s.bit (BLK_TR_STAT t) BLK_TR_STAT_UP

/-- Fabric lane group of a lane: 24 lanes each. -/
def flgOf (j : Nat) : Nat := j / 24

/-- R418. -/
def State.blkRefuse (s : State) : State := (s.setBit BLK_ERR BLK_ERR_CFGREJ true).raise 43

/-- LANES and CAP follow the configuration (R419, R420). -/
def State.refreshLanes (s : State) : State :=
  let s := s.each (List.range 12) (fun s k => s.setFld (BLK_L_STAT k) BLK_L_STAT_LANES (s.linkLanes k).length)
  s.each (List.range 4) (fun s t =>
    (s.setFld (BLK_TR_STAT t) BLK_TR_STAT_CAP (s.trunkCap t)).setFld (BLK_TR_STAT t) BLK_TR_STAT_LANES (s.trunkLanes t))

/-- The FABRIC total is the sum over the trunks that are UP (R390). -/
def State.fabricTotal (s : State) : Nat :=
  (List.range 4).foldl (fun n t => if s.trunkUp t then n + s.trunkCap t else n) 0

/-- The FABRIC total follows a change of the configuration, from `n` before it (R390). -/
def State.retotal (s : State) (n : Nat) : State := s.when (s.fabricTotal != n) (fun s => s.changeTotal 1 s.fabricTotal 33)

/-! ## A link leaves ACTIVE (R404, R405, R411) -/

def inWindow (w : Word) (slot : Nat) : Bool :=
  let b := BLK_TR_OSLOT_BASE.get w
  decide (b ≤ slot ∧ slot < b + BLK_TR_OSLOT_CNT.get w)

/-- The allocations with an outbound slot of a trunk, whose window word is `o`; each holds as many tracks as it is charged
(R124). -/
def State.trunkAllocs (s : State) (o : Word) : List Alloc :=
  s.ten.allocs.filter (fun a => a.holding.object.1 == 0 &&
    (List.range a.charge.fabric).any (fun i => inWindow o (a.holding.object.2 - 1024 + i)))

/-- An allocation that is still held is released as by shedding. -/
def State.releaseHeld (s : State) (a : Alloc) : State := if s.ten.allocs.contains a then s.shedOne a 1 else s

/-- An inbound track becomes empty. -/
def State.emptyTrack (s : State) (k : Nat) : State := if (s.aligner k).mode = 0 then s else s.reportFormat k 0

/-- The trunk stops being UP: its outbound allocations are released, its inbound tracks are empty (R405). -/
def State.trunkDown (s : State) (t : Nat) : State :=
  if !s.trunkUp t then s
  else
    let o := s.rd (BLK_TR_OSLOT t)
    let i := s.rd (BLK_TR_ISLOT t)
    let s := s.setBit (BLK_TR_STAT t) BLK_TR_STAT_UP false
    let s := s.each (s.trunkAllocs o) State.releaseHeld
    let s := s.each ((List.range (BLK_TR_ISLOT_CNT.get i)).map (fun n => 1024 + BLK_TR_ISLOT_BASE.get i + n))
      State.emptyTrack
    s.changeTotal 1 s.fabricTotal 33

/-- The control stream of a link starts anew with the far end's credits (R397). -/
def fullCredits : Tbl Nat := [(0, 128), (1, 64), (2, 512), (3, 128), (4, 128), (5, 64), (6, 512), (7, 128)]

/-- A flit is the last of a posted write: channel PW, 0 or 4, with LAST (R395, R396). -/
def postedEnd (f : BitVec 128) : Bool := f.toNat / 2 % 4 == 0 && f.getLsbD 5

/-- Posted writes that are on the link whole, of which a flit has not been acknowledged (R411). -/
def LinkCtl.postedLeft (x : LinkCtl) : Nat :=
  (x.unacked.filter postedEnd).length + (x.waiting.filter (fun f => f.vc % 4 == 0 && f.last)).length

/-- Posted writes that are being relayed on link `k`, of which the last flit has not arrived (R411). -/
def State.postedRelays (s : State) (k : Nat) : Nat :=
  (s.blk.links.filter (fun e => Tbl.find? e.2.relaying 0 == some k)).length

/-- What is relayed on link `k` has lost its way: the rest of it is dropped. -/
def State.dropRelays (s : State) (k : Nat) : State :=
  s.setBlk { s.blk with links := s.blk.links.map (fun e =>
    (e.1, { e.2 with relaying := e.2.relaying.map (fun r => (r.1, if r.2 = k then 12 else r.2)) })) }

/-- Posted writes are lost in one cycle: each counts, and their reports merge into one event (R408, R411, R527). -/
def State.countLost (s : State) (n : Nat) : State :=
  if n = 0 then s else (s.incBy BLK_PWLOST BLK_PWLOST_COUNT n).raise 42

/-- BUSY of a remote register write clears when its flits have been sent (R409). -/
def State.settleRr (s : State) : State :=
  if s.blk.rrWrite && !s.blk.links.any (fun e => e.2.waiting.any (fun f => f.rr)) then
    (s.setBlk { s.blk with rrWrite := false }).setBit BLK_RR_STAT BLK_RR_STAT_BUSY false
  else s

/-- The receivers of a link's lanes synchronise their scramblers anew in the next ACQUIRE (R383). -/
def State.unsync (s : State) (k : Nat) : State :=
  s.each (s.linkLanes k) (fun s j => s.setBlane j { s.blane j with rxScr := none })

/-- After the election, a tuple whose node has gone may join again (R415). -/
def State.forgetGone (s : State) : State :=
  if s.fld BLK_NODE BLK_NODE_FSTATE < 2 then s
  else s.setBlk { s.blk with joins := s.blk.joins.filter (fun t =>
    s.blk.nodes.any (fun e => e.2 == t && (e.1 == s.ownNode || s.hasPath e.1)) || s.activeLinks.any (fun k => s.peerId k == t.2)) }

/-- R404, R411: the link leaves ACTIVE for state `st`. -/
def State.linkLeaves (s : State) (k st : Nat) : State :=
  if !s.linkActive k then s
  else
    let lost := (s.link k).postedLeft + s.postedRelays k
    let s := s.setFld (BLK_L_STAT k) BLK_L_STAT_STATE st
    let s := s.setFld (BLK_L_STAT k) BLK_L_STAT_BACKOFF 0
    let s := s.setBit (BLK_L_STAT k) BLK_L_STAT_PEERVALID false
    let s := ((s.setLink k LinkCtl.idle).dropRelays k).unsync k
    let s := s.setBlk { s.blk with lockLost := s.blk.lockLost.filter (fun e => s.laneLink e.1 != some k) }
    let s := ((s.blkHist k 1).countLost lost).settleRr
    let t := s.fld (BLK_L_CFG k) BLK_L_CFG_TRUNK
    let s := if t < 4 then (s.setTrunk t TrunkCtl.idle).trunkDown t else s
    s.forgetGone.salvoPaths

/-! ## Block lock and blocks (R382, R385, R386, R391) -/

/-- A track line that holds words of failed blocks is counted once at its trunk, and goes to FSA as errored (R391). DESIGN CHOICE:
words of one line arrive within 1 ms (log entry 34). -/
def State.badLine (s : State) (t : Nat) (x : Nat × Nat) : State :=
  let old : Bool := match Tbl.find? s.blk.badLines x.1 with
    | some (l, a) => l == x.2 && decide (s.now < a + 1000000)
    | none => false
  if old then s
  else
    let s := s.setBlk { s.blk with badLines := Tbl.put s.blk.badLines x.1 (x.2, s.now) }
    opErroredLine x.1 x.2 (s.inc (BLK_TR_LINES t) BLK_TR_LINES_COUNT)

/-- The track lines of failed blocks of a link. -/
def State.badLines (s : State) (k : Nat) (lines : List (Nat × Nat)) : State :=
  let t := s.fld (BLK_L_CFG k) BLK_L_CFG_TRUNK
  if 4 ≤ t then s else s.each lines (fun s x => s.badLine t x)

/-- R386: four markers in succession. Blocks missed in a short loss count as failed, and their flits are lost (R391, R399). -/
def opBlockLock (j : Nat) (lines : List (Nat × Nat)) (s : State) : State :=
  match s.laneLink j with
  | none => s
  | some k =>
    if !s.linkEn k then s
    else
      let s := s.setBit (BLK_LANE_STAT j) BLK_LANE_STAT_LOS false
      let s := s.setBit (BLK_LANE_STAT j) BLK_LANE_STAT_CDR true
      let s := s.setBit (BLK_LANE_STAT j) BLK_LANE_STAT_BLOCK true
      match Tbl.find? s.blk.lockLost j with
      | none => s
      | some a =>
        let missed := (s.now - a) * 9 / 256
        let s := s.setBlk { s.blk with lockLost := Tbl.del s.blk.lockLost j }
        let x := s.blane j
        let s := s.setBlane j { x with rxScr := x.rxScr.map (scramblerAfter (scrambledBits * missed)) }
        let s := s.incBy (BLK_L_BLKERR k) BLK_L_BLKERR_COUNT missed
        s.when (missed != 0) (fun s => ((s.blkHist k 2).badLines k lines).sendNak k)

/-- R386, R404: block lock is lost; LOS takes the link out of ACTIVE at once. -/
def opBlockLockLoss (j : Nat) (los : Bool) (s : State) : State :=
  match s.laneLink j with
  | none => s
  | some k =>
    if !los && !s.bit (BLK_LANE_STAT j) BLK_LANE_STAT_BLOCK then s
    else
      let s := s.setBit (BLK_LANE_STAT j) BLK_LANE_STAT_BLOCK false
      let s := s.when los (fun s =>
        (s.setBit (BLK_LANE_STAT j) BLK_LANE_STAT_LOS true).setBit (BLK_LANE_STAT j) BLK_LANE_STAT_CDR false)
      if !s.linkActive k then s
      else if los then s.linkLeaves k 1
      else s.setBlk { s.blk with lockLost := Tbl.put s.blk.lockLost j s.now }

/-- R386, R404: the loss has lasted more than 1 ms. -/
def opLockTimeout (j : Nat) (s : State) : State :=
  match s.laneLink j with
  | none => s
  | some k => if s.bit (BLK_LANE_STAT j) BLK_LANE_STAT_BLOCK then s else s.linkLeaves k 1

/-- BLK reports the format of the stream on an inbound track of an UP trunk (R235): bytes 0-3 are its payload ID. -/
def State.reportInbound (s : State) (t : Nat) (x : Nat × Nat) : State :=
  if s.trunkUp t && decide (1024 ≤ x.1 ∧ x.1 < 2816) && inWindow (s.rd (BLK_TR_ISLOT t)) (x.1 - 1024) then
    (s.reportFormat x.1 (x.2 / 2 ^ 32)).reportPid x.1 (x.2 % 2 ^ 32)
  else s

/-! ## Training (R401-R403, R406) -/

/-- Pre- and post-cursor of a preset (R402). -/
def presetTaps (p : Nat) : Nat × Nat :=
  [(0, 0), (0, 4), (0, 8), (0, 12), (2, 8), (2, 12), (4, 8), (4, 14)].getD p (0, 0)

/-- The main cursor of a transmitter (R402). -/
def mainCursor (t : Nat × Nat) : Nat := 48 - t.1 - t.2

/-- R402: a transmitter's cursors after a request, within 0-8 and 0-20 steps, and its answer. -/
def tapMove (t : Nat × Nat) : TapReq → (Nat × Nat) × TapAnswer
  | .hold => (t, .notUpdated)
  | .preInc => if t.1 < 8 then ((t.1 + 1, t.2), .updated) else (t, .atLimit)
  | .preDec => if 0 < t.1 then ((t.1 - 1, t.2), .updated) else (t, .atLimit)
  | .postInc => if t.2 < 20 then ((t.1, t.2 + 1), .updated) else (t, .atLimit)
  | .postDec => if 0 < t.2 then ((t.1, t.2 - 1), .updated) else (t, .atLimit)
  | .preset p => (presetTaps p.val, .updated)
  | .searchEnd _ => (t, .notUpdated)

/-- This lane's own transmitter takes its cursors (R402). -/
def State.ownTaps (s : State) (j : Nat) (t : Nat × Nat) (a : TapAnswer) : State :=
  (s.setBlane j { s.blane j with taps := t, answer := a }).emit (.taps j t.1 (mainCursor t) t.2)

/-- The cursors of the far transmitter. -/
def State.setTaps (s : State) (j : Nat) (t : Nat × Nat) : State :=
  (s.setFld (BLK_LANE_STAT j) BLK_LANE_STAT_PRE t.1).setFld (BLK_LANE_STAT j) BLK_LANE_STAT_POST t.2

/-- Every lane of the link returns to its default preset, at both ends. -/
def State.defaultTaps (s : State) (k : Nat) : State :=
  s.each (s.linkLanes k) (fun s j =>
    let t := presetTaps (s.fld (BLK_LANE_CFG j) BLK_LANE_CFG_DEFPRESET)
    (s.setTaps j t).ownTaps j t .notUpdated)

/-- A training failure (R403). -/
def State.trainFail (s : State) (k : Nat) : State :=
  let x := s.link k
  let s := s.setFld (BLK_L_STAT k) BLK_L_STAT_STATE 1
  let s := s.setFld (BLK_L_STAT k) BLK_L_STAT_BACKOFF (min 7 (x.fails + 1))
  let s := s.setLink k { x with backoff := true, fails := x.fails + 1, doneLanes := [], good := 0 }
  let s := (s.unsync k).defaultTaps k
  (s.inc (BLK_L_TRFAIL k) BLK_L_TRFAIL_COUNT).blkHist k 0

/-- EXPNODES, 3 acting as 2. -/
def expCode (x : Nat) : Nat := min x 2

/-- Expected node count (R413). -/
def State.expected (s : State) : Nat :=
  let x := expCode (s.fld BLK_NODE BLK_NODE_EXPNODES)
  if x = 0 then 1 else if x = 1 then 2 else 4

def State.chipId (s : State) : BitVec 64 := s.otp.chipId

/-- The chip's own tuple (R414). -/
def State.ownTuple (s : State) : Nat × BitVec 64 := (s.fld BLK_NODE BLK_NODE_PRIO, s.chipId)

def tupleLe (a b : Nat × BitVec 64) : Bool := decide (a.1 < b.1) || (a.1 == b.1 && decide (a.2.toNat ≤ b.2.toNat))

/-- JOIN leaves on a link, for a far node that may have no number yet (R414). -/
def State.sendJoin (s : State) (k : Nat) (t : Nat × BitVec 64) : State :=
  (s.emit (.join k t.1 t.2)).sendOn k 0 (.join t.1 t.2)

/-- An election starts when the first link reaches ACTIVE; the tuples seen go out on each link that does while it runs (R414). -/
def State.startElection (s : State) (k : Nat) : State :=
  if s.fld BLK_NODE BLK_NODE_EXPNODES = 0 ∨ 2 ≤ s.fld BLK_NODE BLK_NODE_FSTATE then s
  else
    let s := s.when (s.fld BLK_NODE BLK_NODE_FSTATE == 0) (fun s =>
      let s := s.setFld BLK_NODE BLK_NODE_FSTATE 1
      s.setBlk { s.blk with joins := [s.ownTuple] })
    s.each s.blk.joins (fun s t => s.sendJoin k t)

/-- Every link of trunk `t`, which has some, is ACTIVE (R393). -/
def State.trunkReady (s : State) (t : Nat) : Bool := !(s.trunkLinks t).isEmpty && (s.trunkLinks t).all s.linkActive

/-- The links of a trunk reach one peer (R393). -/
def State.samePeer (s : State) (t : Nat) : Bool :=
  match s.trunkLinks t with
  | k :: l => l.all (fun m => s.peerId m == s.peerId k)
  | [] => true

/-- A trunk that never becomes UP: of a frame of one chip, or, once the nodes are numbered, to a peer without a number (R413,
R415). -/
def State.trunkBarred (s : State) (t : Nat) : Bool :=
  s.fld BLK_NODE BLK_NODE_EXPNODES == 0 || (decide (2 ≤ s.fld BLK_NODE BLK_NODE_FSTATE)
    && (s.trunkLinks t).any (fun k => !s.bit (BLK_L_STAT k) BLK_L_STAT_PEERVALID))

/-- The receiving end of a trunk sends TRUNKUP with its ISLOT CNT (R393). -/
def State.offerTrunk (s : State) (t : Nat) : State :=
  if !s.trunkReady t || s.trunkBarred t then s
  else match s.trunkLinks t with
    | [] => s
    | k :: _ =>
      if s.samePeer t then
        let m := Msg.trunkup t (s.fld (BLK_TR_ISLOT t) BLK_TR_ISLOT_CNT)
        let n := s.fld (BLK_L_STAT k) BLK_L_STAT_PEER
        (s.emit (.msg n m)).sendOn k n m
      else s.each (s.trunkLinks t) (fun s m => s.blkHist m 6)

/-- A direction is up while the CNT that the far end sent equals OSLOT CNT; the trunk is UP while both are (R393). DESIGN CHOICE: it
is UP with the message, a superframe being no step of the model (log entry 34). -/
def State.settleTrunk (s : State) (t : Nat) : State :=
  let x := s.trunk t
  let out : Bool := s.trunkReady t && s.samePeer t && x.farCnt == some (s.fld (BLK_TR_OSLOT t) BLK_TR_OSLOT_CNT)
  let s := s.setTrunk t { x with out := out }
  if out && x.inn && !s.trunkBarred t then
    if s.trunkUp t then s
    else
      let s := s.setBit (BLK_TR_STAT t) BLK_TR_STAT_UP true
      s.changeTotal 1 s.fabricTotal 33
  else s.trunkDown t

/-- The most skew that the receiver absorbs, in ps (R387). -/
def skewLimit : Nat := 4000

/-- The far end is seen: signal on every lane, and a back-off ends early where it is in ACQUIRE (R403). -/
def State.seeFar (s : State) (k : Nat) (far : FarEnd) : State :=
  let s := s.when far.signal (fun s =>
    s.each (s.linkLanes k) (fun s j => s.setBit (BLK_LANE_STAT j) BLK_LANE_STAT_LOS false))
  let x := s.link k
  s.setLink k { x with farPhase := far.phase.val, backoff := x.backoff && far.phase.val != 2 }

/-- R401: the link's next training state, where the condition of its state is met. -/
def State.trainNext (s : State) (k : Nat) (far : FarEnd) : Bool :=
  let st := s.linkState k
  let lanes := s.linkLanes k
  if st = 1 then (far.signal && !(s.link k).backoff) || far.phase.val == 2
  else if st = 2 then
    far.rxLock && lanes.all (fun j => s.bit (BLK_LANE_STAT j) BLK_LANE_STAT_BLOCK && s.bit (BLK_LANE_STAT j) BLK_LANE_STAT_CDR
      && (s.blane j).rxScr.isSome)
  else if st = 3 then far.done && lanes.all (fun j => (s.link k).doneLanes.contains j)
  else if st = 4 then
    decide (far.skewPs.toNat ≤ skewLimit)
      && lanes.all (fun j => s.fld (BLK_LANE_STAT j) BLK_LANE_STAT_POS == s.lanePosition k j)
  else if st = 5 then
    far.chipId != s.chipId && expCode far.expNodes.toNat == expCode (s.fld BLK_NODE BLK_NODE_EXPNODES)
  else st == 6 && far.good && decide (1000 ≤ (s.link k).good)

/-- PEER and PEERVALID: the number of the node whose chip the link's PARAM named (R414, R420). -/
def State.numberPeer (s : State) (k : Nat) : State :=
  match s.blk.nodes.find? (fun e => e.2.2 == s.peerId k) with
  | some e => (s.setFld (BLK_L_STAT k) BLK_L_STAT_PEER e.1).setBit (BLK_L_STAT k) BLK_L_STAT_PEERVALID true
  | none => s.setBit (BLK_L_STAT k) BLK_L_STAT_PEERVALID false

/-- R401: a link advances where its condition is met; the far end returning to LISTENING is a failure (R403), PARAM fails at
once on a loopback or another EXPNODES (R406), and skew beyond the limit is reported (R387; that of a trunk does not keep it
from coming up, log entry 34). -/
def opTrainingAdvance (k : Nat) (far : FarEnd) (s : State) : State :=
  let was := (s.link k).farPhase
  let st := s.linkState k
  let s := if 1 ≤ st ∧ st ≤ 6 then s.seeFar k far else s
  let go := fun (s : State) (n : Nat) => s.setFld (BLK_L_STAT k) BLK_L_STAT_STATE n
  if 2 ≤ st ∧ st ≤ 6 ∧ 2 ≤ was ∧ far.phase.val = 1 then s.trainFail k
  else if st = 5 ∧ far.chipId = s.chipId then (s.blkHist k 6).trainFail k
  else if st = 5 ∧ !s.trainNext k far then s.trainFail k
  else if st = 4 ∧ skewLimit < far.skewPs.toNat then s.blkHist k 7
  else if !s.trainNext k far then s
  else if st = 1 then go (s.setLink k { s.link k with backoff := false, doneLanes := [] }) 2
  else if st = 5 then
    let s := s.wr (BLK_L_PEERID_LO k) (BitVec.ofNat 32 far.chipId.toNat)
    let s := s.wr (BLK_L_PEERID_HI k) (BitVec.ofNat 32 (far.chipId.toNat / 2 ^ 32))
    let s := s.setLink k { s.link k with farPrio := far.prio.toNat, farTrunk := far.trunk.toNat, good := 0 }
    go (s.numberPeer k) 6
  else if st = 6 then
    let s := s.setFld (BLK_L_STAT k) BLK_L_STAT_BACKOFF 0
    let x := s.link k
    let s := go (s.setLink k { LinkCtl.idle with credits := fullCredits, farPrio := x.farPrio, farTrunk := x.farTrunk }) 7
    let s := s.startElection k
    let t := s.fld (BLK_L_CFG k) BLK_L_CFG_TRUNK
    let s := if t < 4 then s.offerTrunk t else s
    s.when (decide (skewLimit < far.trunkSkewPs.toNat)) (fun s => s.blkHist k 7)
  else go s (st + 1)

/-- R402: a request that this lane's receiver makes is applied by the far transmitter, and one `far` makes by its own, within the
limits; a search that ends below EYEMIN fails the phase. -/
def opTapRequest (j : Nat) (q : TapReq) (far : Bool) (s : State) : State :=
  match s.laneLink j with
  | none => s
  | some k =>
    if s.linkState k ≠ 3 then s
    else if far then
      let r := tapMove (s.blane j).taps q
      s.ownTaps j r.1 r.2
    else match q with
      | .searchEnd eye =>
        let s := s.setFld (BLK_LANE_STAT j) BLK_LANE_STAT_EYE eye.toNat
        let x := s.link k
        if s.fld BLK_CTRL BLK_CTRL_EYEMIN ≤ eye.toNat then
          s.setLink k { x with doneLanes := if x.doneLanes.contains j then x.doneLanes else x.doneLanes ++ [j] }
        else (s.blkHist k 8).trainFail k
      | q =>
        let r := tapMove (s.fld (BLK_LANE_STAT j) BLK_LANE_STAT_PRE, s.fld (BLK_LANE_STAT j) BLK_LANE_STAT_POST) q
        (s.setBlane j { s.blane j with asks := q, told := r.2 }).setTaps j r.1

/-- R403: a phase limit; ACQUIRE to CONFIRM have one. -/
def opPhaseTimeout (k : Nat) (s : State) : State :=
  let st := s.linkState k
  if 2 ≤ st ∧ st ≤ 6 then s.trainFail k else s

def opBackoffExpiry (k : Nat) (s : State) : State := s.setLink k { s.link k with backoff := false }

/-! ## Configuration (R392, R404, R406, R418, R548) -/

def opLinkCfg (k : Nat) (v : Word) (s : State) : State :=
  let old := s.rd (BLK_L_CFG k)
  let was : Bool := BLK_L_CFG_EN.get old == 1
  let will : Bool := BLK_L_CFG_EN.get v == 1
  let lanes := s.linkLanes k
  let bad : Bool := (was && BLK_L_CFG_TRUNK.get v != BLK_L_CFG_TRUNK.get old)
    || (will && !was && (lanes.isEmpty || decide (32 < lanes.length)
        || lanes.any (fun j => s.fenced (unitFlg (flgOf j)))))
  if bad then s.blkRefuse
  else
    let n := s.fabricTotal
    let s := (s.fieldWrite (BLK_L_CFG k) v).refreshLanes.retotal n
    if will && !was then
      let s := s.each lanes (fun s j => (s.abandonSlice (unitFlg (flgOf j))).startDomain (domFlg (flgOf j)))
      let s := s.setLink k LinkCtl.idle
      let s := s.setFld (BLK_L_STAT k) BLK_L_STAT_BACKOFF 0
      (s.defaultTaps k).setFld (BLK_L_STAT k) BLK_L_STAT_STATE 1
    else if was && !will then
      let s := (s.linkLeaves k 0).unsync k
      let s := s.setLink k { LinkCtl.idle with fails := (s.link k).fails }
      s.setFld (BLK_L_STAT k) BLK_L_STAT_STATE 0
    else s

/-- R406: a write of BLK_LANEj_CFG; the link the lane leaves and the one it would join are both checked. -/
def opLaneCfg (j : Nat) (v : Word) (s : State) : State :=
  let on := fun k => decide (k < 12) && s.linkEn k
  if on (s.fld (BLK_LANE_CFG j) BLK_LANE_CFG_LINK) || on (BLK_LANE_CFG_LINK.get v) then s.blkRefuse
  else (s.fieldWrite (BLK_LANE_CFG j) v).refreshLanes.retotal s.fabricTotal

def opTrunkSlot (t : Nat) (inbound : Bool) (v : Word) (s : State) : State :=
  let reg := fun u => if inbound then BLK_TR_ISLOT u else BLK_TR_OSLOT u
  let b := BLK_TR_OSLOT_BASE.get v
  let n := BLK_TR_OSLOT_CNT.get v
  let bad : Bool := decide (1792 < b + n) || decide (s.trunkCap t < n) || s.trunkUp t
    || (List.range 4).any (fun u => u != t &&
        meets b n (s.fld (reg u) BLK_TR_OSLOT_BASE) (s.fld (reg u) BLK_TR_OSLOT_CNT))
  if bad then s.blkRefuse else ((s.fieldWrite (reg t) v).settleTrunk t).offerTrunk t

/-! ## Trunks come up (R390, R393, R413, R415) -/

/-- R393: TRUNKUP from the far end, with its ISLOT CNT, which is compared; `back` tells whether the other direction is up. -/
def opTrunkup (t cnt : Nat) (back : Bool) (s : State) : State :=
  if !s.trunkReady t || s.fld BLK_NODE BLK_NODE_EXPNODES == 0 then s
  else if !s.samePeer t then s.each (s.trunkLinks t) (fun s m => s.blkHist m 6)
  else
    let s := s.setTrunk t { s.trunk t with farCnt := some cnt, inn := back }
    let s := if s.fld (BLK_TR_OSLOT t) BLK_TR_OSLOT_CNT = cnt then s else s.each (s.trunkLinks t) (fun s m => s.blkHist m 5)
    s.settleTrunk t

/-! ## The control stream received (R395-R400, R407) -/

/-- `n` bytes of a number, the least significant first. -/
def natBytes (n x : Nat) : List Byte := (List.range n).map (fun i => BitVec.ofNat 8 (x / 256 ^ i))

/-- The body of a received message, in bytes: 64 bits of the first payload, then 96 of each (R407). -/
def bodyBytes : List (BitVec 96) → Nat → List Byte
  | [], _ => []
  | h :: l, n => (natBytes 8 (h.toNat / 2 ^ 32) ++ l.flatMap (fun p => natBytes 12 p.toNat)).take n

/-- The payloads of the message on channel `vc` of link `k` with a further flit. -/
def State.bodyWith (s : State) (k vc : Nat) (first : Bool) (pay : BitVec 96) : List (BitVec 96) :=
  if first then [pay] else Tbl.getD (s.link k).body vc [] ++ [pay]

/-- KIND of the message that payloads hold (R407). -/
def kindOf (body : List (BitVec 96)) : Nat := (body.headD 0).toNat / 16 % 16

/-- A flit of a message of this chip: the message is whole with its last one; a reserved KIND is dropped and counted (R407). -/
def State.ownFlit (s : State) (k vc : Nat) (first last : Bool) (pay : BitVec 96) : State :=
  let body := s.bodyWith k vc first pay
  let x := s.link k
  let s := s.setLink k { x with body := if last then Tbl.del x.body vc else Tbl.put x.body vc body }
  s.when (last && decide (7 ≤ kindOf body)) (fun s => s.inc BLK_MISROUTE BLK_MISROUTE_COUNT)

/-- Where the rest of a message on channel `vc` of link `k` is relayed. -/
def State.setRelay (s : State) (k vc m : Nat) (last : Bool) : State :=
  let x := s.link k
  s.setLink k { x with relaying := if last then Tbl.del x.relaying vc else Tbl.put x.relaying vc m }

/-- A first flit for another node: relayed on VC + 4; one that has been relayed already, and a posted write without a way, are
counted (R396, R408). -/
def State.relayFirst (s : State) (k vc dst : Nat) (last : Bool) (pay : BitVec 96) : State :=
  if 4 ≤ vc then (s.setRelay k vc 12 last).inc BLK_MISROUTE BLK_MISROUTE_COUNT
  else match s.linkTo dst with
    | some m => (s.setRelay k vc m last).queueFlits m [⟨vc + 4, true, last, pay, false⟩]
    | none => (s.setRelay k vc 12 last).when (vc == 0) (fun s => s.countLost 1)

/-- A message received whole: its header and its body (R407). -/
structure RxMsg where
  src : Nat
  kind : Nat
  tag : Nat
  stat : Nat
  body : List Byte
  deriving DecidableEq, Repr

/-- A valid flit that is next in sequence (R399). -/
def State.accepts (s : State) (k : Nat) (f : BitVec 128) : Bool :=
  s.linkActive k && f.getLsbD 0 && flitSeq f == ((s.link k).rxSeq + 1) % 256

/-- The message of this chip that flit `f` of link `k` makes whole (R407). -/
def State.flitMessage (s : State) (k : Nat) (f : BitVec 128) : Option RxMsg :=
  let vc := f.toNat / 2 % 8
  let first := f.getLsbD 4
  let pay : BitVec 96 := f.extractLsb' 32 96
  let own : Bool := if first then pay.toNat % 4 == s.ownNode else !Tbl.has (s.link k).relaying vc
  let body := s.bodyWith k vc first pay
  let h := (body.headD 0).toNat
  if s.accepts k f && f.getLsbD 5 && own && decide (kindOf body < 7) then
    some ⟨h / 4 % 4, kindOf body, h / 2 ^ 8 % 256, h / 2 ^ 25 % 8, bodyBytes body (h / 2 ^ 16 % 512)⟩
  else none

/-- An accepted flit goes to this chip's message, or on with the message that it belongs to (R396, R400). -/
def State.takeFlit (s : State) (k : Nat) (f : BitVec 128) : State :=
  let vc := f.toNat / 2 % 8
  let first := f.getLsbD 4
  let last := f.getLsbD 5
  let pay : BitVec 96 := f.extractLsb' 32 96
  let dst := pay.toNat % 4
  if first then
    if dst = s.ownNode then (s.setRelay k vc 12 true).ownFlit k vc true last pay else s.relayFirst k vc dst last pay
  else match Tbl.find? (s.link k).relaying vc with
    | none => s.ownFlit k vc false last pay
    | some m =>
      let s := s.setRelay k vc m last
      if m < 12 then s.queueFlits m [⟨vc + 4, false, last, pay, false⟩] else s

/-- R395, R397, R399: acknowledgement and credits; then a valid flit in sequence is taken and its buffer freed, and one out of
sequence is discarded. -/
def opFlit (k : Nat) (f : BitVec 128) (s : State) : State :=
  if !s.linkActive k then s
  else
    let x := s.link k
    let n := f.toNat
    let cvc := n / 2 ^ 24 % 8
    let s := s.setLink k { x with
      unacked := ackUpTo (n / 2 ^ 16 % 256) x.unacked
      credits := Tbl.put x.credits cvc (Tbl.getD x.credits cvc 0 + n / 2 ^ 28 % 16) }
    let s := s.when (f.getLsbD 6) (fun s => s.replay k)
    let s := s.pumpLink k
    let s := s.settleRr
    if !f.getLsbD 0 then s
    else
      let y := s.link k
      let vc := n / 2 % 8
      if s.accepts k f then
        (s.setLink k { y with
          rxSeq := flitSeq f, nak := false, owed := Tbl.put y.owed vc (Tbl.getD y.owed vc 0 + 1) }).takeFlit k f
      else s.sendNak k

/-- R399: a flit has waited 2 µs without acknowledgement, and everything unacknowledged is replayed. -/
def opFlitTimeout (k : Nat) (s : State) : State := if s.linkActive k then s.replay k else s

def opReplayfail (k : Nat) (s : State) : State :=
  if s.linkActive k then (s.blkHist k 4).linkLeaves k 1 else s

def opStreamParity (k : Nat) (s : State) : State := s.linkLeaves k 1

/-! ## Blocks (R382-R385, R391, R393, R395, R401) -/

/-- Fields of a training block of lane `j` of link `k` (R401): PHASE, POS, the tap request and the answer, DONE, RXLOCK, and from
PARAM on chip ID, PRIO, EXPNODES and TRUNK. -/
def State.trainingFields (s : State) (k j : Nat) : List Nat :=
  let x := s.blane j
  let st := s.linkState k
  let asks := match x.asks with
    | .hold => [0]
    | .preInc => [1]
    | .preDec => [2]
    | .postInc => [3]
    | .postDec => [4]
    | .preset p => [5, p.val]
    | .searchEnd _ => [0]
  let answer := match x.answer with
    | .updated => 0
    | .notUpdated => 1
    | .atLimit => 2
  [st, s.lanePosition k j] ++ asks ++
    [answer, ((s.link k).doneLanes.contains j).toNat, (s.bit (BLK_LANE_STAT j) BLK_LANE_STAT_BLOCK && x.rxScr.isSome).toNat] ++
    (if 5 ≤ st then
      [s.chipId.toNat, s.ownTuple.1, s.fld BLK_NODE BLK_NODE_EXPNODES, s.fld (BLK_L_CFG k) BLK_L_CFG_TRUNK] else [])

/-- The CTRL fields of the link's next block are drawn from its control stream, idle flits filling what is not there (R395). -/
def State.drawFields (s : State) (k : Nat) : State :=
  let n := (s.linkLanes k).length
  let s := s.each (List.range (ceilDiv (n - (s.link k).outStream.length) 8)) (fun s _ => s.idleFlit k)
  let x := s.link k
  s.setLink k { x with outFields := (List.range n).zip (x.outStream.take n), outStream := x.outStream.drop n }

/-- The CTRL field of lane position `p`, in CONFIRM and in ACTIVE; training blocks carry none (DESIGN CHOICE, log entry 55). -/
def State.nextField (s : State) (k p : Nat) : BitVec 16 × State :=
  if s.linkState k < 6 then (0, s)
  else
    let s := if Tbl.has (s.link k).outFields p then s else s.drawFields k
    let x := s.link k
    (Tbl.getD x.outFields p 0, s.setLink k { x with outFields := Tbl.del x.outFields p })

/-- PAYLOAD of lane `j`'s next block: training fields up to PARAM, and then the multiplex, empty while the trunk's outbound
direction is not up (R393, R401). -/
def State.nextPayload (s : State) (k j : Nat) (out : BitVec 1536) : BitVec 1536 :=
  let t := s.fld (BLK_L_CFG k) BLK_L_CFG_TRUNK
  if s.linkState k < 6 then trainingPayload (s.trainingFields k j)
  else if s.linkActive k && decide (t < 4) && (s.trunk t).out then out
  else emptyPayload (s.trunkLanes t) (s.blane j).block
    (match (s.trunkLinks t).flatMap s.linkLanes |>.findIdx? (· == j) with
    | some i => i
    | none => 0)

/-- Lane `j` of link `k` sends its next block, a void one being counted (R382-R385). DESIGN CHOICE: it sends one while one arrives
(log entry 55). -/
def State.sendLane (s : State) (k j : Nat) (out : BitVec 1536) : State :=
  if s.linkState k = 0 || !s.sending then s
  else
    let p := s.lanePosition k j
    let f := s.nextField k p
    let pay := s.nextPayload k j out
    let s := f.2
    let x := s.blane j
    let s := s.emit (.block j (sendBlock x.txScr x.block p pay f.1))
    let s := s.setBlane j { x with txScr := scramblerAfter scrambledBits x.txScr, block := (x.block + 1) % superframeBlocks }
    s.when (blockVoid x.txScr x.block p pay f.1) (fun s => s.inc (BLK_L_VOID k) BLK_L_VOID_COUNT)

/-- A CTRL field of lane position `p` of `n`, none where its block failed, joins the link's control stream: a block's fields in lane
position order, once each lane has one or a lane has its next; with the flits, of 8 fields each, that are whole (R395). -/
def LinkCtl.addField (x : LinkCtl) (n p : Nat) (c : Option (BitVec 16)) : LinkCtl × List (List (Option (BitVec 16))) :=
  let whole := fun (t : Tbl (Option (BitVec 16))) => (List.range n).map (fun i => (Tbl.find? t i).getD none)
  let a := if Tbl.has x.inFields p then (whole x.inFields, []) else ([], x.inFields)
  let t := Tbl.put a.2 p c
  let b := if t.length = n then (a.1 ++ whole t, []) else (a.1, t)
  let l := x.inStream ++ b.1
  ({ x with inFields := b.2, inStream := l.drop (l.length / 8 * 8) },
   (List.range (l.length / 8)).map (fun i => (l.drop (8 * i)).take 8))

/-- A lane's CTRL field arrives; answers the flits that are whole. A flit is lost where a block that carries part of it failed
(R395). -/
def State.ctrlField (s : State) (k n p : Nat) (c : Option (BitVec 16)) : List (BitVec 128) × State :=
  let r := (s.link k).addField n p c
  ((r.2.filter (fun g => g.all Option.isSome)).map (fun g => fieldsFlit (g.map (fun c => c.getD 0))), s.setLink k r.1)

/-- R391: a failed block is counted; in ACTIVE the lines that hold its words are reported, and its flits are lost, so that a NAK
goes out (R399). -/
def State.blockBad (s : State) (k j : Nat) (lines : List (Nat × Nat)) : List (BitVec 128) × State :=
  let s := (s.inc (BLK_L_BLKERR k) BLK_L_BLKERR_COUNT).blkHist k 2
  let s := s.setLink k { s.link k with good := 0 }
  if !s.linkActive k then ([], s)
  else ((s.badLines k lines).sendNak k).ctrlField k (s.linkLanes k).length (s.lanePosition k j) none

/-- A block that does not fail: POS, the formats of the streams that it carries, and in ACTIVE its CTRL field. -/
def State.blockGood (s : State) (k j : Nat) (hdr : BitVec 13) (ctrl : BitVec 16) (formats : List (Nat × Nat)) :
    List (BitVec 128) × State :=
  let s := s.setFld (BLK_LANE_STAT j) BLK_LANE_STAT_POS (hdr.toNat / 128 % 32)
  let s := s.setLink k { s.link k with good := (s.link k).good + 1 }
  if !s.linkActive k then ([], s)
  else
    let t := s.fld (BLK_L_CFG k) BLK_L_CFG_TRUNK
    let s := if t < 4 then s.each formats (fun s x => s.reportInbound t x) else s
    s.ctrlField k (s.linkLanes k).length (s.lanePosition k j) (some ctrl)

/-- A block arrives on a lane with block lock: in ACQUIRE the first one synchronises the receiver's scrambler (R383); then each is
descrambled, and fails or not (R391). -/
def State.takeBlock (s : State) (k j : Nat) (line : List Bool) (lines formats : List (Nat × Nat)) : List (BitVec 128) × State :=
  let x := s.blane j
  match x.rxScr with
  | none => ([], if s.linkState k = 2 then s.setBlane j { x with rxScr := some (syncScrambler line) } else s)
  | some r =>
    let b := receiveBlock r line
    let s := s.setBlane j { x with rxScr := some (scramblerAfter scrambledBits r) }
    if blockFails b.1 b.2.1 b.2.2.1 b.2.2.2 then s.blockBad k j lines else s.blockGood k j b.1 b.2.2.1 formats

/-- A block arrives; answers the flits that it makes whole. -/
def opBlockReceived (j : Nat) (line : BitVec 1600) (out : BitVec 1536) (lines formats : List (Nat × Nat)) (s : State) :
    List (BitVec 128) × State :=
  match s.laneLink j with
  | none => ([], s)
  | some k =>
    if !s.linkEn k then ([], s)
    else
      let s := s.sendLane k j out
      if s.bit (BLK_LANE_STAT j) BLK_LANE_STAT_BLOCK then s.takeBlock k j (lsbBits 1600 line.toNat) lines formats else ([], s)

/-! ## The election and the superframe count (R413-R416) -/

/-- The place in ASSIGN of a number whose node has gone. -/
def goneTuple : Nat × BitVec 64 := (0, 0)

/-- Numbers stand for the tuples of `order`, from 0 up. -/
def State.setNodes (s : State) (order : List (Nat × BitVec 64)) : State :=
  let l := (List.range (min order.length s.expected)).zip order
  s.setBlk { s.blk with
    nodes := l.foldl (fun t e => if e.2 = goneTuple then Tbl.del t e.1 else Tbl.put t e.1 e.2) s.blk.nodes
    given := max s.blk.given l.length }

/-- The superframe count now (R416): one superframe is 32,000/9 ns. DESIGN CHOICE: the value that the root seeds is not stated;
the model's root counts from 0 at its time 0, which no reset of the chip moves (R54; log entry 45). -/
def State.superframes (s : State) : Nat := (s.blk.ftime + (s.now - s.blk.ftimeAt) * 9 / 32000) % 2 ^ 48

/-- ASSIGN numbers the nodes (R414-R416): a node keeps its number, and loads the root's count. -/
def State.assignNodes (s : State) (order : List (Nat × BitVec 64)) (ftime : Nat) : State :=
  let fresh : Bool := decide (s.fld BLK_NODE BLK_NODE_FSTATE < 2)
  let s := s.setNodes order
  match (order.take s.expected).findIdx? (fun t => t == s.ownTuple) with
  | none => s
  | some i =>
    let s := s.when fresh (fun s =>
      let s := s.setFld BLK_NODE BLK_NODE_NODEID i
      let s := s.setBit BLK_NODE BLK_NODE_ROOT (i == 0)
      s.setBlk { s.blk with ftime := ftime, ftimeAt := s.now })
    let whole : Bool := decide (s.expected ≤ s.blk.nodes.length)
    let s := s.setFld BLK_NODE BLK_NODE_FSTATE (if whole then 2 else 3)
    let s := s.when (!whole) (fun s => s.raise 44)
    let s := s.each s.activeLinks State.numberPeer
    s.each (List.range 4) (fun s t => (s.settleTrunk t).offerTrunk t)

/-- Insert a tuple into an ascending list without repeats. -/
def insertTuple (t : Nat × BitVec 64) : List (Nat × BitVec 64) → List (Nat × BitVec 64)
  | [] => [t]
  | a :: l => if a = t then a :: l else if tupleLe t a then t :: a :: l else a :: insertTuple t l

/-- This node numbers the nodes, and sends ASSIGN to every other one (R414, R416). -/
def State.assignAll (s : State) (order : List (Nat × BitVec 64)) : State :=
  let m := Msg.assign order s.superframes
  let s := s.assignNodes order s.superframes
  s.each ((List.range order.length).filter (fun n => n != s.ownNode)) (fun s n =>
    let s := s.emit (.msg n m)
    match s.pathLink n with
    | some k => s.sendOn k n m
    | none => s)

/-- The node with the lowest tuple sends ASSIGN to every other node and applies it (R414). -/
def State.sendAssign (s : State) : State :=
  let order := s.blk.joins
  match order with
  | [] => s
  | t :: _ =>
    if t = s.ownTuple then s.assignAll (order.take s.expected) else s

/-- The root numbers a chip that joins after the election: the lowest number never yet assigned, if one is left; a chip that had a
number before its reset has lost it (R415). -/
def State.numberLate (s : State) (t : Nat × BitVec 64) : State :=
  if s.expected ≤ s.blk.given then s
  else
    s.assignAll ((List.range s.blk.given).map (fun i => match Tbl.find? s.blk.nodes i with
      | some u => if u = t then goneTuple else u
      | none => goneTuple) ++ [t])

/-- R414, R415: JOIN arrives on link `k`; a tuple not seen before goes on to every other link, since nodes that have no number are
reached by no other way (DEDUCED, log entry 34). -/
def opJoin (k prio : Nat) (chip : BitVec 64) (s : State) : State :=
  let t := (prio, chip)
  let st := s.fld BLK_NODE BLK_NODE_FSTATE
  if s.fld BLK_NODE BLK_NODE_EXPNODES = 0 ∨ st = 0 ∨ s.blk.joins.contains t then s
  else
    let s := s.setBlk { s.blk with joins := insertTuple t s.blk.joins }
    let s := s.each (s.activeLinks.filter (· != k)) (fun s m => s.sendJoin m t)
    if st = 1 then (if s.expected ≤ s.blk.joins.length then s.sendAssign else s)
    else if s.bit BLK_NODE BLK_NODE_ROOT then s.numberLate t
    else s

def opAssign (order : List (Nat × BitVec 64)) (ftime : Nat) (s : State) : State :=
  if s.fld BLK_NODE BLK_NODE_EXPNODES = 0 ∨ s.fld BLK_NODE BLK_NODE_FSTATE = 0 then s else s.assignNodes order ftime

/-- R414: ELECTTO ms since the first link reached ACTIVE. -/
def opElectionTimeout (s : State) : State := if s.fld BLK_NODE BLK_NODE_FSTATE = 1 then s.sendAssign else s

/-- R415, R416: the root can no longer be reached; the lowest tuple among the reachable nodes is root and continues the
count. -/
def opRootchg (reach : List (Nat × BitVec 64)) (s : State) : State :=
  if s.fld BLK_NODE BLK_NODE_FSTATE < 2 then s
  else (s.setBit BLK_NODE BLK_NODE_ROOT (reach.all (fun t => tupleLe s.ownTuple t))).raise 45

def opFtimeSnap (s : State) : State :=
  (s.wr BLK_FTIME_LO (BitVec.ofNat 32 s.superframes)).wr BLK_FTIME_HI (BitVec.ofNat 32 (s.superframes / 2 ^ 32))

def opBlkClrcnt (s : State) : State :=
  let s := s.clearAll [BLK_RTIMEOUT, BLK_LATECPL, BLK_PWLOST, BLK_MISROUTE]
  let s := s.clearAll ((List.range 4).map BLK_TR_LINES)
  s.clearAll ((List.range 12).flatMap (fun k => [BLK_L_BLKERR k, BLK_L_VOID k, BLK_L_REPLAY k, BLK_L_TRFAIL k]))

/-! ## The commands -/

def execBlockLock (j : BLane) (lines : List (Track × BitVec 11)) (s : State) : Host.Outcome State Fault Refusal :=
  done s (opBlockLock j.val (lines.map (fun x => (x.1.val, x.2.toNat))) s)
def execBlockLockLoss (j : BLane) (los : Bool) (s : State) : Host.Outcome State Fault Refusal :=
  done s (opBlockLockLoss j.val los s)
def execBlockLockLossTimeout (j : BLane) (s : State) : Host.Outcome State Fault Refusal := done s (opLockTimeout j.val s)
def execTrainingAdvance (k : Link) (far : FarEnd) (s : State) : Host.Outcome State Fault Refusal :=
  done s (opTrainingAdvance k.val far s)
def execTapRequest (j : BLane) (q : TapReq) (far : Bool) (s : State) : Host.Outcome State Fault Refusal :=
  done s (opTapRequest j.val q far s)
def execTrainingPhaseTimeout (k : Link) (s : State) : Host.Outcome State Fault Refusal := done s (opPhaseTimeout k.val s)
def execTrainingBackoffExpiry (k : Link) (s : State) : Host.Outcome State Fault Refusal := done s (opBackoffExpiry k.val s)
def execBlkLinkCfgWrite (k : Link) (v : Word) (s : State) : Host.Outcome State Fault Refusal := doneBar s (opLinkCfg k.val v s)
def execBlkTrunkSlotWrite (t : Trunk) (inbound : Bool) (v : Word) (s : State) : Host.Outcome State Fault Refusal :=
  doneBar s (opTrunkSlot t.val inbound v s)
def execTrunkup (t : Trunk) (cnt : BitVec 11) (back : Bool) (s : State) : Host.Outcome State Fault Refusal :=
  done s (opTrunkup t.val cnt.toNat back s)
def execFlitAckTimeout (k : Link) (s : State) : Host.Outcome State Fault Refusal := done s (opFlitTimeout k.val s)
def execReplayfail (k : Link) (s : State) : Host.Outcome State Fault Refusal := done s (opReplayfail k.val s)
def execControlStreamParity (k : Link) (s : State) : Host.Outcome State Fault Refusal := done s (opStreamParity k.val s)
/-- R407, R408: the body of a firmware message is defined by firmware; those of the salvo exchange, the election, TRUNKUP,
time and images have rows of their own. What it reports of the sender's links decides which nodes it can relay to, and a
coordinator whose path to a participant is gone cancels (R220). -/
def execFw (src : Node) (links : BitVec 4) (_ : List Byte) (s : State) : Host.Outcome State Fault Refusal :=
  done s (s.setBlk { s.blk with peerLinks := Tbl.put s.blk.peerLinks src.val links.toNat }).forgetGone.salvoPaths
def execJoin (k : Link) (prio : Byte) (chip : BitVec 64) (s : State) : Host.Outcome State Fault Refusal :=
  done s (opJoin k.val prio.toNat chip s)
def execAssign (order : List (Byte × BitVec 64)) (ftime : BitVec 48) (s : State) : Host.Outcome State Fault Refusal :=
  done s (opAssign (order.map (fun t => (t.1.toNat, t.2))) ftime.toNat s)
def execElectionTimeout (s : State) : Host.Outcome State Fault Refusal := done s (opElectionTimeout s)
def execBlkRootchg (reach : List (Byte × BitVec 64)) (s : State) : Host.Outcome State Fault Refusal :=
  done s (opRootchg (reach.map (fun t => (t.1.toNat, t.2))) s)
def execBlkFtimeSnap (s : State) : Host.Outcome State Fault Refusal := doneBar s (opFtimeSnap s)
def execBlkClrcnt (s : State) : Host.Outcome State Fault Refusal := doneBar s (opBlkClrcnt s)

end Sys2Proof.Machine
end

