-- ==== Sys2Proof/Machine/Dma.lean ====
section
/-! DEFINITION. The host DMA channels DC48-DC63 (R93-R108), remote requests and their completions (R398, R407-R412),
and the uncorrectable memory word that a transfer meets (R252). -/

namespace Sys2Proof.Machine

open Sys2Proof

/-! ## Channels -/

def State.chanState (s : State) (n : Nat) : Nat := s.fld (HIF_DMA_STAT n) HIF_DMA_STAT_STATE
def State.chanEn (s : State) (n : Nat) : Bool := s.bit (HIF_DMA_CTRL n) HIF_DMA_CTRL_EN
def State.reqsel (s : State) (n : Nat) : Nat := s.fld (HIF_DMA_CTRL n) HIF_DMA_CTRL_REQSEL

/-- Descriptors from CIDX to PIDX - 1. -/
def State.chanQueued (s : State) (n : Nat) : Nat :=
  let size := 2 ^ s.fld (HIF_DMA_RBASE_LO n) HIF_DMA_RBASE_LO_LOG2SIZE
  (s.fld (HIF_DMA_PIDX n) HIF_DMA_PIDX_IDX + size - s.fld (HIF_DMA_CIDX n) HIF_DMA_CIDX_IDX % size) % size

/-- Host address of descriptor `i` of the channel's ring. -/
def State.descAddr (s : State) (n i : Nat) : Nat :=
  2 ^ 32 * s.fld (HIF_DMA_RBASE_HI n) HIF_DMA_RBASE_HI_BASE_HI
    + 4096 * s.fld (HIF_DMA_RBASE_LO n) HIF_DMA_RBASE_LO_BASE_LO
    + 32 * (i % 2 ^ s.fld (HIF_DMA_RBASE_LO n) HIF_DMA_RBASE_LO_LOG2SIZE)

/-- Write STATUS back to descriptor `i` (R99). -/
def State.writeBack (s : State) (n i status : Nat) : State :=
  s.emit (.hostWrite (s.descAddr n i + 28) [BitVec.ofNat 8 status, 0, 0, 0x80])

/-- A running channel halts (R105), which HIF_DMAHALT counts. -/
def State.chanHalt (s : State) (n cause : Nat) : State := (s.haltChannel n cause).raise 325

/-- The descriptor in a ring entry (R99). -/
def descOf (e : BitVec 256) : Desc :=
  ⟨bitsAt e 0 0 64, bitsAt e 8 0 36, bitsAt e 8 60 2, bitsAt e 8 62 1 == 1, bitsAt e 16 0 32, bitsAt e 20 0 1 == 1,
   bitsAt e 20 1 1 == 1, BitVec.ofNat 32 (bitsAt e 24 0 32)⟩

/-- R95, R99: what makes a descriptor MISALIGNED. -/
def Desc.aligned (d : Desc) : Bool := hostOk d.haddr d.len && d.offset % 64 == 0

def burstBytes (code : Nat) : Nat := 64 * 2 ^ code

/-- Bytes of the next burst: at most BURST, ending at a 4 KiB boundary of the host address or with the descriptor
(R96). -/
def State.nextBurst (s : State) (n : Nat) (d : Desc) (moved : Nat) : Nat :=
  min (burstBytes (s.fld (HIF_DMA_CTRL n) HIF_DMA_CTRL_BURST)) (min (d.len - moved) (4096 - (d.haddr + moved) % 4096))

/-- R412: a range of package memory in messages of at most 256 bytes that cross no 256-byte boundary. -/
def messages : Nat → Nat → Nat → List (Nat × Nat)
  | 0, _, _ => []
  | k + 1, a, n => if n = 0 then [] else
    let m := min n (256 - a % 256)
    (a, m) :: messages k (a + m) (n - m)

/-! ## Remote requests (R398, R408) -/

/-- Another node that control traffic can reach; with EXPNODES 0 only FW messages travel (R408, R413). -/
def State.reach (s : State) (n : Nat) : Bool :=
  s.fld BLK_NODE BLK_NODE_EXPNODES != 0 && n != s.ownNode && s.hasPath n

def State.freeReqs (s : State) : Nat := 16 - s.blk.reqs.length

/-- A tag that no outstanding request uses. -/
def State.freeTag (s : State) : Nat :=
  match (List.range 256).find? (fun i => !Tbl.has s.blk.reqs ((s.blk.nextTag + i) % 256)) with
  | some i => (s.blk.nextTag + i) % 256
  | none => 0

/-- A non-posted request goes out with its tag. -/
def State.request (s : State) (r : Req) (m : Nat → Msg) : State :=
  let tag := s.freeTag
  let s := s.setBlk { s.blk with reqs := Tbl.put s.blk.reqs tag r, nextTag := (tag + 1) % 256 }
  s.sendRemote r.node 1 (m tag)

/-- A posted write goes out, or is counted where its node has no path (R408). -/
def State.posted (s : State) (node : Nat) (m : Msg) : State :=
  if s.reach node then s.sendRemote node 0 m else s.countLost 1

/-- The remote register read that BLK_RR_CMD started ends with LINK_LOST and all-ones data (R408, R410). -/
def State.rrLost (s : State) : State :=
  let s := s.setBit BLK_RR_STAT BLK_RR_STAT_BUSY false
  let s := s.setFld BLK_RR_STAT BLK_RR_STAT_STATUS 1
  s.wr BLK_RR_RDATA 0xFFFFFFFF#32

/-- Send the register read of BLK_RR_CMD as soon as fewer than 16 requests are outstanding. -/
def State.pumpRead (s : State) : State :=
  if !s.bit BLK_RR_STAT BLK_RR_STAT_BUSY || s.blk.rrWrite || s.blk.reqs.any (fun e => e.2.kind == 0) then s
  else
    let node := s.fld BLK_RR_ADDR BLK_RR_ADDR_NODE
    if !s.reach node then s.rrLost
    else if s.freeReqs = 0 then s
    else s.request ⟨0, node, 0, 0, 4⟩ (fun tag => .rregRd tag (s.fld BLK_RR_ADDR BLK_RR_ADDR_ADDR))

/-! ## Bursts (R96-R98, R412) -/

/-- The channel may move a burst: unpaced, its request already consumed, or one pending (R96, R97); a reserved REQSEL
starts nothing (R98). -/
def State.mayBurst (s : State) (n : Nat) : Bool :=
  decide (s.reqsel n ≤ 18)
    && (s.reqsel n == 0 || (s.chan n).paid || s.fld (HIF_DMA_STAT n) HIF_DMA_STAT_PENDREQ != 0)

/-- The burst of `b` bytes begins and consumes its request. -/
def State.beginBurst (s : State) (n b : Nat) : State :=
  let x := s.chan n
  let s := if s.reqsel n = 0 ∨ x.paid then s
    else s.setFld (HIF_DMA_STAT n) HIF_DMA_STAT_PENDREQ (s.fld (HIF_DMA_STAT n) HIF_DMA_STAT_PENDREQ - 1)
  s.setChan n { x with burst := b, paid := true, tries := 0 }

/-- Begin what the channel does next, where it can: a burst, or the FLUSH that ends a remote write. -/
def State.pumpChan (s : State) (n : Nat) : State :=
  let x := s.chan n
  if s.chanState n ≠ 1 || x.burst != 0 || x.stopping then s
  else match x.desc with
    | none => s
    | some d =>
      if d.remote && x.moved == d.len then
        if s.blk.reqs.any (fun e => e.2.kind == 2 && e.2.ch == n) then s
        else if !s.reach d.node then s.chanHalt n 4
        else if s.freeReqs = 0 then s
        else s.request ⟨2, d.node, n, 0, 0⟩ .flush
      else if !s.mayBurst n then s
      else
        let b := s.nextBurst n d x.moved
        if d.remote && d.toHost then
          let ms := messages 4 (d.offset + x.moved) b
          if !s.reach d.node then s.chanHalt n 4
          else if s.freeReqs < ms.length then s
          else (s.beginBurst n b).each ms (fun s m =>
            s.request ⟨1, d.node, n, d.haddr + (m.1 - d.offset), m.2⟩ (fun tag => .rdmaRd tag m.1 (m.2 / 8)))
        else s.beginBurst n b

/-- Requests that waited for one of the 16 outstanding ones go out. -/
def State.pumpAll (s : State) : State := s.pumpRead.each ((List.range 16).map (48 + ·)) State.pumpChan

/-- A channel with EN set and descriptors queued runs; a reserved REQSEL does not start (R98). -/
def State.chanStart (s : State) (n : Nat) : State :=
  if s.chanEn n && s.chanState n == 0 && decide (s.reqsel n ≤ 18) && s.chanQueued n != 0 then
    s.setFld (HIF_DMA_STAT n) HIF_DMA_STAT_STATE 1
  else s

/-- The descriptor ends: STATUS OK is written back, and CIDX goes on (R99, R104). -/
def State.endDesc (s : State) (n : Nat) (d : Desc) : State :=
  let i := s.fld (HIF_DMA_CIDX n) HIF_DMA_CIDX_IDX
  let s := s.writeBack n i 0
  let s := s.when d.irq (fun s => s.setBit (HIF_DMA_STAT n) HIF_DMA_STAT_DONE true)
  let s := s.setFld (HIF_DMA_CIDX n) HIF_DMA_CIDX_IDX ((i + 1) % 2 ^ s.fld (HIF_DMA_RBASE_LO n) HIF_DMA_RBASE_LO_LOG2SIZE)
  let s := s.setChan n Chan.idle
  if s.chanQueued n = 0 then s.setFld (HIF_DMA_STAT n) HIF_DMA_STAT_STATE 0 else s

/-- The burst on its way has ended: BYTES counts it, a channel that was disabled stops, and the channel goes on. -/
def State.endBurst (s : State) (n : Nat) (d : Desc) : State :=
  let x := s.chan n
  let s := s.wr (HIF_DMA_BYTES n) (s.rd (HIF_DMA_BYTES n) + BitVec.ofNat 32 x.burst)
  let moved := x.moved + x.burst
  if moved = d.len && !(d.remote && !d.toHost) then
    let s := s.endDesc n d
    if x.stopping then s.setFld (HIF_DMA_STAT n) HIF_DMA_STAT_STATE 0 else s
  else if x.stopping then (s.setChan n Chan.idle).setFld (HIF_DMA_STAT n) HIF_DMA_STAT_STATE 0
  else (s.setChan n { x with moved := moved, burst := 0, paid := false, tries := 0 }).pumpChan n

/-! ## Register writes (R102, R104, R108) -/

/-- R108: RESUME on a halted channel: the transfer goes on where ERRADDR says, or the descriptor is fetched anew after
MISALIGNED or RANGE. With EN 0 the burst is reissued and the channel then stops (R102); a reserved REQSEL does not start
(R98). -/
def State.chanResume (s : State) (n : Nat) : State :=
  if s.chanState n ≠ 2 ∨ 18 < s.reqsel n then s
  else
    let s := s.setFld (HIF_DMA_STAT n) HIF_DMA_STAT_TRIES 0
    let s := s.setChan n { s.chan n with burst := 0, waiting := false, stopping := false, tries := 0 }
    let s := (s.setFld (HIF_DMA_STAT n) HIF_DMA_STAT_STATE 1).pumpChan n
    if s.chanEn n || s.chanState n != 1 then s
    else if (s.chan n).burst = 0 then
      ((s.dropReqs n).setChan n Chan.idle).setFld (HIF_DMA_STAT n) HIF_DMA_STAT_STATE 0
    else s.setChan n { s.chan n with stopping := true }

/-- R108: ABORT. -/
def State.chanAbort (s : State) (n : Nat) : State :=
  let i := s.fld (HIF_DMA_CIDX n) HIF_DMA_CIDX_IDX
  let s := s.each (List.range (s.chanQueued n)) (fun s k => s.writeBack n (i + k) 5)
  let s := s.setFld (HIF_DMA_CIDX n) HIF_DMA_CIDX_IDX (s.fld (HIF_DMA_PIDX n) HIF_DMA_PIDX_IDX)
  let s := s.setFld (HIF_DMA_STAT n) HIF_DMA_STAT_STATE 0
  let s := s.setFld (HIF_DMA_STAT n) HIF_DMA_STAT_CAUSE 5
  (s.dropReqs n).setChan n Chan.idle

/-- A write of HIF_DMAn_CTRL: refused where it sets EN with LOG2SIZE outside 6-16 (R77, R104). -/
def opDmaCtrl (n : Nat) (v : Word) (s : State) : State :=
  let size := s.fld (HIF_DMA_RBASE_LO n) HIF_DMA_RBASE_LO_LOG2SIZE
  let was := s.chanEn n
  let will : Bool := HIF_DMA_CTRL_EN.get v != 0
  if will && !was && !decide (6 ≤ size ∧ size ≤ 16) then s.raise 321
  else
    let s := s.fieldWrite (HIF_DMA_CTRL n) v
    let s :=
      if was && !will && s.chanState n == 1 then
        if (s.chan n).burst = 0 then
          ((s.dropReqs n).setChan n Chan.idle).setFld (HIF_DMA_STAT n) HIF_DMA_STAT_STATE 0
        else s.setChan n { s.chan n with stopping := true }
      else if will then
        let s := s.setChan n { s.chan n with stopping := false }
        (s.chanStart n).pumpChan n
      else s
    if HIF_DMA_CTRL_ABORT.get v ≠ 0 then s.chanAbort n
    else if HIF_DMA_CTRL_RESUME.get v ≠ 0 then s.chanResume n
    else s

def opDmaPidx (n : Nat) (v : Word) (s : State) : State := (s.fieldWrite (HIF_DMA_PIDX n) v).chanStart n

/-- R104: RBASE is refused while EN is 1. -/
def opDmaRbase (n a : Nat) (v : Word) (s : State) : State := if s.chanEn n then s.raise 321 else s.fieldWrite a v

/-! ## Events (R99-R101, R105, R252) -/

/-- R99-R101. DESIGN CHOICE: a descriptor that breaks both R95 and R100 is written back MISALIGNED (log entry 52). -/
def opDescFetch (n : Nat) (e : BitVec 256) (s : State) : State :=
  let x := s.chan n
  if s.chanState n ≠ 1 || x.desc.isSome || s.chanQueued n == 0 then s
  else
    let d := descOf e
    let i := s.fld (HIF_DMA_CIDX n) HIF_DMA_CIDX_IDX
    let bad := if !d.aligned then 1 else if Memory.size < d.offset + d.len then 2 else 0
    if bad ≠ 0 then ((s.writeBack n i bad).raise 323).chanHalt n bad
    else (s.setChan n { Chan.idle with desc := some d }).pumpChan n

/-- R97, R98: a request on a line, for every host channel that selects it. -/
def opDmaRequest (line : Nat) (s : State) : State :=
  s.each ((List.range 16).map (48 + ·)) (fun s n =>
    if line = 0 ∨ 18 < line ∨ s.reqsel n ≠ line then s
    else if s.fld (HIF_DMA_STAT n) HIF_DMA_STAT_PENDREQ = 255 then s.setBit (HIF_DMA_STAT n) HIF_DMA_STAT_REQOVF true
    else (s.inc (HIF_DMA_STAT n) HIF_DMA_STAT_PENDREQ).pumpChan n)

/-- R96, R99, R412: the burst has been read from or written to host memory. -/
def opBurstDone (n : Nat) (data : List Byte) (s : State) : State :=
  let x := s.chan n
  match x.desc with
  | none => s
  | some d =>
    if s.chanState n ≠ 1 || x.burst == 0 || x.waiting then s
    else if d.remote && d.toHost then s
    else
      let a := d.offset + x.moved
      let s :=
        if d.toHost then s.emit (.hostWrite (d.haddr + x.moved) (Memory.reads s.mem a x.burst))
        else if d.remote then
          s.each (messages 4 a x.burst) (fun s m =>
            s.posted d.node (.rdmaWr m.1 ((data.drop (m.1 - a)).take m.2)))
        else { s with mem := Memory.writes s.mem a (data.take x.burst) }
      s.endBurst n d

/-! ## Command channels (R93-R95, R105-R107, R587, R618) -/

/-- The host address and length of an operation (R587). -/
def State.svcAddr (s : State) : Nat := s.fld SVC_XADDR_LO SVC_XADDR_LO_ADDR + 2 ^ 32 * s.fld SVC_XADDR_HI SVC_XADDR_HI_ADDR
def State.svcLen (s : State) : Nat := s.fld SVC_XLEN SVC_XLEN_LEN

/-- The channel of the operation that waits: the one it holds, or one that is free now. -/
def State.svcChannel (s : State) : Option Nat :=
  match s.svc.channel with
  | some ch => some ch
  | none => s.channelIn (decide (s.svcLen ≤ 4096))

/-- The load whose data command channel `n` reads. -/
def State.loadOn (s : State) (n : Nat) : Option (Nat × StillLoad) :=
  match s.hif.inflight.find? (fun c => c.channel == some n) with
  | some c => s.cmp.loads.find? (fun x => x.2.cmd == c.id)
  | none => none

/-- The host address of what command channel `n` reads: a still, or firmware's operand. -/
def State.commandReads (s : State) (n : Nat) : Option Nat :=
  if s.svc.channel = some n then some s.svcAddr else (s.loadOn n).map (fun l => l.2.haddr)

/-- A failed read of a command channel: the burst at `moved` is reissued up to RETRY times, and then the command ends
ABORTED and the channel is free again (R105, R107). A write to the host reports no error (R106). -/
def opCommandBurstFail (n moved : Nat) (s : State) : State :=
  match s.commandReads n with
  | none => s
  | some a =>
    let x := s.chan n
    let tries := if x.moved = moved then x.tries else 0
    if x.waiting then s
    else if tries < s.fld (HIF_DMA_CTRL n) HIF_DMA_CTRL_RETRY then
      let s := s.setChan n { Chan.idle with moved := moved, waiting := true, tries := tries + 1 }
      (s.setFld (HIF_DMA_STAT n) HIF_DMA_STAT_TRIES (tries + 1)).raise 324
    else
      let s := s.setFld (HIF_DMA_STAT n) HIF_DMA_STAT_TRIES tries
      let s := (s.setFld (HIF_DMA_STAT n) HIF_DMA_STAT_CAUSE 3).noteAddr n (a + moved)
      let s := (s.setChan n Chan.idle).countBytes n moved
      if s.svc.channel = some n then s.svcAborted else s.failChannel n .aborted

/-- R105-R107. -/
def opBurstFail (n moved : Nat) (s : State) : State :=
  if n < 48 then opCommandBurstFail n moved s
  else
    let x := s.chan n
    match x.desc with
    | none => s
    | some d =>
      if s.chanState n ≠ 1 || x.burst == 0 || x.waiting || d.toHost then s
      else if x.tries < s.fld (HIF_DMA_CTRL n) HIF_DMA_CTRL_RETRY then
        let s := s.setChan n { x with waiting := true, tries := x.tries + 1 }
        (s.setFld (HIF_DMA_STAT n) HIF_DMA_STAT_TRIES (x.tries + 1)).raise 324
      else (s.setFld (HIF_DMA_STAT n) HIF_DMA_STAT_TRIES x.tries).chanHalt n 3

/-- R105: 10 µs have passed, and the burst is reissued whole. -/
def opRetryTimer (n : Nat) (s : State) : State := s.setChan n { s.chan n with waiting := false }

/-- Command channel `n` meets an uncorrectable word: CAUSE says BUSERR, ERRADDR names the buffer that a capture fills, and the
command ends (R105, R107, R252). -/
def State.eccCommand (s : State) (n : Nat) : State :=
  if !s.channelsBusy.contains n then s
  else
    let s := s.setFld (HIF_DMA_STAT n) HIF_DMA_STAT_CAUSE 3
    let s := match Tbl.find? s.cmp.grabs n with
      | some g => s.noteAddr n g.buffer
      | none => s
    if s.svc.channel = some n then s.svcAborted else s.failChannel n .aborted

/-- R252: an uncorrectable word: a synchroniser shows the line before, a layer's tile shows transparent, a host channel halts where it reads package memory, a command channel fails (R107). -/
def opEccunc (r : EccReader) (s : State) : State :=
  let s := (s.inc FSA_ECCUNC FSA_ECCUNC_COUNT).raise 167
  match r with
  | .synchroniser src line => s.substituteLine src.val line.toNat
  | .surface c layer tile =>
    let x := s.canvas c.val
    s.setCanvas c.val { x with badTiles := x.badTiles ++ [(layer.val, tile)] }
  | .dma ch =>
    if ch.val < 48 then s.eccCommand ch.val
    else match (s.chan ch.val).desc with
      | none => s
      | some d => if s.chanState ch.val = 1 ∧ d.toHost ∧ !d.remote then s.chanHalt ch.val 3 else s

/-- R462, R98: the pulse, and one request per pulse. -/
def opPulseStart (k : Nat) (s : State) : State :=
  if s.pulseDue k then opDmaRequest (3 + k) (s.startPulse k) else s

/-! ## Remote accesses (R398, R407-R412) -/

/-- R409: GO with WR 0, ignored while BUSY. -/
def opRemoteRead (s : State) : State :=
  if s.bit BLK_RR_STAT BLK_RR_STAT_BUSY then s
  else (s.setBit BLK_RR_STAT BLK_RR_STAT_BUSY true).pumpRead

/-- R409: GO with WR 1, ignored while BUSY, which is 1 until the write's flits have been sent; without a path it is lost (R408). -/
def opRemoteWrite (s : State) : State :=
  if s.bit BLK_RR_STAT BLK_RR_STAT_BUSY then s
  else
    let n := s.fld BLK_RR_ADDR BLK_RR_ADDR_NODE
    let s := s.setFld BLK_RR_STAT BLK_RR_STAT_STATUS 0
    if s.reach n then
      let s := (s.setBlk { s.blk with rrWrite := true }).setBit BLK_RR_STAT BLK_RR_STAT_BUSY true
      (s.sendVia n 0 (.rregWr (s.fld BLK_RR_ADDR BLK_RR_ADDR_ADDR) (s.rd BLK_RR_WDATA)) true).settleRr
    else s.countLost 1

/-- The first four bytes, little-endian. -/
def wordOf (l : List Byte) : Word := BitVec.ofNat 32 (ofBytes (l.take 4))

/-- R407, R409, R410, R412. -/
def opCpl (src tag : Nat) (rejected : Bool) (data : List Byte) (s : State) : State :=
  match Tbl.find? s.blk.reqs tag with
  | none => s.inc BLK_LATECPL BLK_LATECPL_COUNT
  | some r =>
    if r.node ≠ src then s.inc BLK_LATECPL BLK_LATECPL_COUNT
    else
      let s := s.setBlk { s.blk with reqs := Tbl.del s.blk.reqs tag }
      let s :=
        if r.kind = 0 then
          let s := s.setBit BLK_RR_STAT BLK_RR_STAT_BUSY false
          let s := s.setFld BLK_RR_STAT BLK_RR_STAT_STATUS (if rejected then 2 else 0)
          s.wr BLK_RR_RDATA (if rejected then 0xFFFFFFFF#32 else wordOf data)
        else match (s.chan r.ch).desc with
          | none => s
          | some d =>
            if r.kind = 1 then
              let s := s.emit (.hostWrite r.haddr (data.take r.len))
              if s.blk.reqs.any (fun e => e.2.kind == 1 && e.2.ch == r.ch) then s else s.endBurst r.ch d
            else if r.kind = 2 then s.endDesc r.ch d
            else s
      s.pumpAll

/-- R410: no completion within BLK_RTO; a channel halts with LINK_LOST (R100, R412). -/
def opRtimeout (tag : Nat) (s : State) : State :=
  match Tbl.find? s.blk.reqs tag with
  | none => s
  | some r =>
    let s := s.setBlk { s.blk with reqs := Tbl.del s.blk.reqs tag }
    let s := (s.inc BLK_RTIMEOUT BLK_RTIMEOUT_COUNT).raise 41
    let s := if r.kind = 0 then s.rrLost else if r.kind = 3 then s else s.chanHalt r.ch 4
    s.pumpAll

/-- R407: a remote DMA write takes effect in package memory. -/
def opRdmaWr (off : Nat) (data : List Byte) (s : State) : State := { s with mem := Memory.writes s.mem off data }

/-- Answer a request with CPL (R407). -/
def State.answer (s : State) (src tag : Nat) (rejected : Bool) (data : List Byte) : State :=
  s.sendRemote src 2 (.cpl tag rejected data)

def execDmaEnable (n : HostCh) (v : Word) (s : State) : Host.Outcome State Fault Refusal :=
  doneBar s (opDmaCtrl (48 + n.val) v s)
def execDmaResume (n : HostCh) (s : State) : Host.Outcome State Fault Refusal := doneBar s (s.chanResume (48 + n.val))
def execDmaAbort (n : HostCh) (s : State) : Host.Outcome State Fault Refusal := doneBar s (s.chanAbort (48 + n.val))
def execDmaPidxWrite (n : HostCh) (v : Word) (s : State) : Host.Outcome State Fault Refusal :=
  doneBar s (opDmaPidx (48 + n.val) v s)
def execDmaDescriptorFetch (n : HostCh) (e : BitVec 256) (s : State) : Host.Outcome State Fault Refusal :=
  done s (opDescFetch (48 + n.val) e s)
def execDmaRequest (line : BitVec 7) (s : State) : Host.Outcome State Fault Refusal := done s (opDmaRequest line.toNat s)
def execDmaBurstDone (n : HostCh) (data : List Byte) (s : State) : Host.Outcome State Fault Refusal :=
  done s (opBurstDone (48 + n.val) data s)
def execDmaBurstFail (n : Fin 64) (moved : Word) (s : State) : Host.Outcome State Fault Refusal :=
  done s (opBurstFail n.val moved.toNat s)
def execDmaRetryTimer (n : Fin 64) (s : State) : Host.Outcome State Fault Refusal := done s (opRetryTimer n.val s)
def execFsaEccunc (r : EccReader) (s : State) : Host.Outcome State Fault Refusal := done s (opEccunc r s)
def execPulseStart (k : Tpo) (s : State) : Host.Outcome State Fault Refusal := done s (opPulseStart k.val s)
/-- A remote DMA access beyond the package memory names an address that does not exist. -/
def execRdmaWr (_ : Node) (off : BitVec 36) (data : List Byte) (s : State) : Host.Outcome State Fault Refusal :=
  if Memory.size < off.toNat + data.length then .fault .packageMemoryRange else done s (opRdmaWr off.toNat data s)
def execRdmaRd (src : Node) (tag : Byte) (off : BitVec 36) (len8 : Byte) (s : State) :
    Host.Outcome State Fault Refusal :=
  if Memory.size < off.toNat + 8 * len8.toNat then .fault .packageMemoryRange
  else done s (s.answer src.val tag.toNat false (Memory.reads s.mem off.toNat (8 * len8.toNat)))
def execFlush (src : Node) (tag : Byte) (s : State) : Host.Outcome State Fault Refusal :=
  done s (s.answer src.val tag.toNat false [])
def execCpl (src : Node) (tag : Byte) (rejected : Bool) (data : List Byte) (s : State) :
    Host.Outcome State Fault Refusal :=
  done s (opCpl src.val tag.toNat rejected data s)
def execBlkRtimeout (tag : Byte) (s : State) : Host.Outcome State Fault Refusal := done s (opRtimeout tag.toNat s)
def execRemoteRegRead (s : State) : Host.Outcome State Fault Refusal := doneBar s (opRemoteRead s)
def execRemoteRegWrite (s : State) : Host.Outcome State Fault Refusal := doneBar s (opRemoteWrite s)

end Sys2Proof.Machine
end

