-- ==== Sys2Proof/Machine/Audio.lean ====
section
/-! DEFINITION. Audio: the audio crosspoint and its maps, de-embedders, TDM ports and amplifier faults
(R153, R154, R423-R445). -/

namespace Sys2Proof.Machine

open Sys2Proof

def State.setAud (s : State) (a : Aud) : State := { s with aud := a }

/-! ## Sources (R423, R430, R431, R436, R439) -/

/-- The de-embedder's track carries no de-embedded audio: it is no first track of a stream, or the stream is SD
(R431). -/
def State.deNoAud (s : State) (n : Nat) : Bool :=
  let t := s.fld (AUD_DEW_CFG n) AUD_DE_CFG_SRC
  match s.streamOf t with
  | none => false
  | some b => b != t || (s.detected b).raster == 1 || (s.detected b).raster == 2

def State.deOn (s : State) (n : Nat) : Bool := s.bit (AUD_DEW_CFG n) AUD_DE_CFG_EN

/-- The source channel carries samples; the others carry silence. -/
def State.audLive (s : State) (a : Nat) : Bool :=
  if a < 4096 then
    let n := a / 16
    s.deOn n && (s.streamOf (s.fld (AUD_DEW_CFG n) AUD_DE_CFG_SRC)).isSome && !s.deNoAud n
  else if a < 7936 then
    s.ess.rx.any (fun e => !e.2.lost && match e.2.now with
      | none => false
      | some f => f.audio && decide (f.track ≤ a ∧ a < f.track + blkChannels f.block))
  else if a < 8064 then
    let p := (a - 7936) / 16
    s.bit (AUD_TDM_STAT p) AUD_TDM_STAT_ENABLED && s.bit (AUD_TDM_STAT p) AUD_TDM_STAT_LOCKED
      && ((Tbl.getD s.aud.ports p ⟨0, 48000⟩).fs == 48000 || decide (a % 16 < 8))
  else if a < 8072 then s.bit (AUD_PDM_CFG (a - 8064)) AUD_PDM_CFG_EN
  else a == 8190

/-! ## Maps (R153, R426-R430) -/

/-- The waiting change of `d` takes effect, and its command completes with RESULT `how` (R429). -/
def State.audApply (s : State) (d how : Nat) : State :=
  match Tbl.find? s.aud.pend d with
  | none => s
  | some p =>
    (s.setAud { s.aud with
      maps := Tbl.putD s.aud.maps d p.src silence, pend := Tbl.del s.aud.pend d
      par := s.aud.par.filter (· != d) }).complete p.cmd .ok how 0

/-- R428: magnitude at most 2^23 × 10^(-ZCTHR/20), both sides raised to the twentieth power. -/
def belowThreshold (zcthr : Nat) (x : Int) : Bool := decide (x.natAbs ^ 20 * 10 ^ zcthr ≤ 2 ^ 460)

/-- R428: the old source crosses zero. -/
def crosses (prev cur : Int) : Bool := cur == 0 || decide (cur < 0) != decide (prev < 0)

/-- R428, R429: one sample period of a destination whose change waits. -/
def opMapChange (d : Nat) (prev cur new : Int) (oldNonPcm newNonPcm blockStart : Bool) (s : State) : State :=
  match Tbl.find? s.aud.pend d with
  | none => s
  | some p =>
    if p.nowait then s.audApply d 2
    else
      let oldLive := s.audLive (s.audSource d)
      let newLive := s.audLive p.src
      if (oldLive && oldNonPcm) || (newLive && newNonPcm) then
        if blockStart then s.audApply d 1 else s
      else
        let crossed := !oldLive || crosses prev cur
        let quiet := !newLive || belowThreshold (s.fld AUD_CTRL AUD_CTRL_ZCTHR) new
        if crossed && quiet then s.audApply d 0 else s

/-- R429: TIMEOUT has passed. -/
def opZcto (d : Nat) (s : State) : State :=
  match Tbl.find? s.aud.pend d with
  | none => s
  | some p => if p.nowait then s else ((s.audApply d 3).inc AUD_ZCTO AUD_ZCTO_COUNT).raise 225

/-- R430: a parity error in a map-table entry. -/
def opMapPar (d : Nat) (s : State) : State :=
  (s.setAud { s.aud with par := if s.aud.par.contains d then s.aud.par else s.aud.par ++ [d] }).raise 229

def mapFields : List (Nat × Nat × Nat) := [(8, 0, 13), (10, 0, 13), (12, 0, 2), (14, 0, 16)]

/-- AUD_MAP (R153, R426-R430). -/
def audMapBody (t : Nat) (e : Entry) (id : Nat) (s : State) : State :=
  let d := bitsAt e 8 0 13
  let silent := bitsAt e 12 0 1 == 1
  let src := if silent then silence else bitsAt e 10 0 13
  let wait := bitsAt e 14 0 16
  let zcto := max 1 (s.fld AUD_CTRL AUD_CTRL_ZCTO)
  s.checked id
    [ (!onlyFields e mapFields, .rejFormat, 0),
      (decide (8064 ≤ d), .rejFormat, 0),
      (decide (8072 ≤ src ∧ src ≤ 8189), .rejFormat, 0),
      (s.ownerOf 4 d != t, .rejOwner, 0),
      s.standbyBusy ]
    (fun s =>
      let s := match Tbl.find? s.aud.pend d with
        | some p => (s.setAud { s.aud with pend := Tbl.del s.aud.pend d }).complete p.cmd .aborted 0 0
        | none => s
      if s.mapOf d = src ∧ !s.aud.par.contains d then s.complete id .ok 2 0
      else
        let p : AudPend := ⟨src, bitsAt e 12 1 1 == 1, if wait = 0 then zcto else wait, id, s.now⟩
        s.setAud { s.aud with pend := Tbl.put s.aud.pend d p })

/-! ## TDM ports (R154, R434-R437, R440, R441) -/

def portFields : List (Nat × Nat × Nat) := [(8, 0, 3), (9, 0, 3), (10, 0, 2), (12, 0, 32)]

/-- What the balls of a port show as it restarts (R435, R437): high impedance where it is disabled; a master drives its clocks,
and its outputs ramp up from the fourth frame; a follower's wait for lock. A muted port stays silent (R440). -/
def State.drivePort (s : State) (p : Nat) : State :=
  let c := s.portCfg p
  let master := s.bit (AUD_TDM_STAT p) AUD_TDM_STAT_MASTER
  if !s.bit (AUD_TDM_STAT p) AUD_TDM_STAT_ENABLED then s.emit (.tdm p .floats)
  else
    let s := s.when master (fun s => s.emit (.tdm p (.clocks c.bck c.slots)))
    s.when (master && !s.ampMuted p) (fun s => s.rampPort p true 4)

/-- The port restarts with new settings (R437): a master is locked while enabled, a follower has to lock. -/
def State.portStart (s : State) (p : Nat) (on master : Bool) (c : TdmCfg) : State :=
  let s := s.when (s.bit (AUD_TDM_STAT p) AUD_TDM_STAT_ENABLED && !s.ampMuted p) (fun s => s.rampPort p false 0)
  let s := s.setBit (AUD_TDM_STAT p) AUD_TDM_STAT_ENABLED on
  let s := s.setBit (AUD_TDM_STAT p) AUD_TDM_STAT_MASTER master
  let s := s.setBit (AUD_TDM_STAT p) AUD_TDM_STAT_LOCKED (on && master)
  let s := s.setFld (AUD_TDM_STAT p) AUD_TDM_STAT_PPM 0
  let s := s.setAud { s.aud with ports := Tbl.put s.aud.ports p c }
  (s.when on (fun s => s.startDomain (domAudm p))).drivePort p

/-- AUD_PORT (R154, R434-R437, R441). -/
def audPortBody (t : Nat) (e : Entry) (id : Nat) (s : State) : State :=
  let p := bitsAt e 8 0 3
  let on := bitsAt e 9 0 1 == 1
  let clr := bitsAt e 9 2 1 == 1
  let width := bitsAt e 10 0 2
  let fs := bitsAt e 12 0 32
  s.checked id
    [ (!onlyFields e portFields, .rejFormat, 0),
      (width == 3 || (fs != 48000 && fs != 96000), .rejFormat, 0),
      (s.ownerOf 6 p != t, .rejOwner, 0),
      (clr && s.bit (AUD_TDM_STAT p) AUD_TDM_STAT_AMPFLT, .busy, 0),
      s.standbyBusy ]
    (fun s =>
      let was := s.ampMuted p
      let s := s.portStart p on (bitsAt e 9 1 1 == 1) ⟨width, fs⟩
      let s := s.when clr (fun s => s.setBit (AUD_TDM_STAT p) AUD_TDM_STAT_MUTED false)
      let s := s.when (clr && was && s.portLive p) (fun s => s.rampPort p true 0)
      s.complete id .ok 0 0)

/-- An enabled port in follower mode. -/
def State.follower (s : State) (p : Nat) : Bool :=
  s.bit (AUD_TDM_STAT p) AUD_TDM_STAT_ENABLED && !s.bit (AUD_TDM_STAT p) AUD_TDM_STAT_MASTER

/-- R436: a follower locks within the steering's range of ±500 ppm. -/
def opTdmLock (p : Nat) (ppm : BitVec 16) (s : State) : State :=
  if s.follower p && decide (ppm.toInt.natAbs ≤ 500) then
    let was := s.bit (AUD_TDM_STAT p) AUD_TDM_STAT_LOCKED
    let s := (s.setBit (AUD_TDM_STAT p) AUD_TDM_STAT_LOCKED true).setFld (AUD_TDM_STAT p) AUD_TDM_STAT_PPM ppm.toNat
    s.when (!was && !s.ampMuted p && s.powerActive && !s.safe) (fun s => s.rampPort p true 0)
  else s

def opTdmUnlock (p : Nat) (s : State) : State :=
  if s.follower p && s.bit (AUD_TDM_STAT p) AUD_TDM_STAT_LOCKED then
    ((s.setBit (AUD_TDM_STAT p) AUD_TDM_STAT_LOCKED false).when (!s.ampMuted p) (fun s => s.rampPort p false 0)).raise 228
  else s

/-- R440: the mute is sticky; further assertions send no event. R441: the level falls. -/
def opAmpFlt (p : Nat) (high : Bool) (s : State) : State :=
  let s := s.setBit (AUD_TDM_STAT p) AUD_TDM_STAT_AMPFLT high
  if !high || s.ampMuted p then s
  else
    let s := s.when (s.portLive p) (fun s => s.rampPort p false 0)
    let s := s.setBit (AUD_TDM_STAT p) AUD_TDM_STAT_MUTED true
    let s := s.inc AUD_AMPCNT AUD_AMPCNT_COUNT
    (s.tellOwner (s.ownerOf 6 p) 12 3 6 p 0 [p, 0, 0, 0]).raise 224

/-- A write of AUD_PDMi_CFG (R439). -/
def opPdmCfg (i : Nat) (v : Word) (s : State) : State :=
  let was := s.pdmOn (i / 2)
  let s := s.fieldWrite (AUD_PDM_CFG i) v
  s.when (s.pdmOn (i / 2) != was && s.powerActive && !s.safe) (fun s => s.emit (.pin (.pdmClk (i / 2)) (s.pdmOn (i / 2))))

/-! ## De-embedders, windows and counters (R431, R432, R442, R444) -/

/-- R432: a slip happens only where the source is in SYNC mode. -/
def opSlip (n : Nat) (s : State) : State :=
  if s.deOn n && (s.aligner (s.fld (AUD_DEW_CFG n) AUD_DE_CFG_SRC)).mode == 3 then (s.inc AUD_SLIP AUD_SLIP_COUNT).raise 226
  else s

def opDeErr (n : Nat) (s : State) : State :=
  if s.deOn n then (s.inc AUD_DEERR AUD_DEERR_COUNT).raise 227 else s

/-- The snapshot of AUD_DE_STAT: what the received packets declare is a free value (log entry 36). -/
def opDeIdx (v : Word) (s : State) : State :=
  let s := s.fieldWrite AUD_DE_IDX v
  let n := s.fld AUD_DE_IDX AUD_DE_IDX_DE
  let live := s.audLive (16 * n)
  let p := s.freshWord
  let s := if live then p.2 else s
  let s := s.setFld AUD_DE_STAT AUD_DE_STAT_GROUPS (if live then p.1.toNat % 16 else 0)
  let s := s.setBit AUD_DE_STAT AUD_DE_STAT_ASYNC (live && p.1.getLsbD 4)
  s.setBit AUD_DE_STAT AUD_DE_STAT_NOAUD (s.deNoAud n)

def opMapIdx (v : Word) (s : State) : State :=
  let s := s.fieldWrite AUD_MAP_IDX v
  let d := s.fld AUD_MAP_IDX AUD_MAP_IDX_DST
  let p := Tbl.find? s.aud.pend d
  let s := s.setFld AUD_MAP_DATA AUD_MAP_DATA_SRC (s.mapOf d)
  let s := s.setBit AUD_MAP_DATA AUD_MAP_DATA_MAPPED (s.mapOf d != silence)
  let s := s.setBit AUD_MAP_DATA AUD_MAP_DATA_PEND p.isSome
  s.setFld AUD_MAP_DATA AUD_MAP_DATA_PSRC (match p with
    | some q => q.src
    | none => 0)

def opAudClrcnt (s : State) : State := s.clearAll [AUD_ZCTO, AUD_SLIP, AUD_DEERR, AUD_AMPCNT]

/-! ## The commands -/

def execAudMap (t : Tenant) (r : CmdRing) (e : Entry) (s : State) : Host.Outcome State Fault Refusal :=
  done s (s.command 0x20 t.val r.val e (audMapBody t.val e))
def execAudPort (t : Tenant) (r : CmdRing) (e : Entry) (s : State) : Host.Outcome State Fault Refusal :=
  done s (s.command 0x21 t.val r.val e (audPortBody t.val e))
def execAudMapChange (d : AudDst) (oldPrev oldCur new : BitVec 24) (oldNonPcm newNonPcm blockStart : Bool) (s : State) :
    Host.Outcome State Fault Refusal :=
  done s (opMapChange d.val oldPrev.toInt oldCur.toInt new.toInt oldNonPcm newNonPcm blockStart s)
def execAudZcto (d : AudDst) (s : State) : Host.Outcome State Fault Refusal := done s (opZcto d.val s)
def execAudSlip (n : DeEmb) (s : State) : Host.Outcome State Fault Refusal := done s (opSlip n.val s)
def execAudDeerr (n : DeEmb) (s : State) : Host.Outcome State Fault Refusal := done s (opDeErr n.val s)
def execTdmLock (p : TdmPort) (ppm : BitVec 16) (s : State) : Host.Outcome State Fault Refusal :=
  done s (opTdmLock p.val ppm s)
def execAudTdmunl (p : TdmPort) (s : State) : Host.Outcome State Fault Refusal := done s (opTdmUnlock p.val s)
def execAudAmpflt (p : TdmPort) (high : Bool) (s : State) : Host.Outcome State Fault Refusal :=
  done s (opAmpFlt p.val high s)
def execAudMappar (d : AudDst) (s : State) : Host.Outcome State Fault Refusal := done s (opMapPar d.val s)
def execAudDeIdx (v : Word) (s : State) : Host.Outcome State Fault Refusal := doneBar s (opDeIdx v s)
def execAudMapIdx (v : Word) (s : State) : Host.Outcome State Fault Refusal := doneBar s (opMapIdx v s)
def execAudClrcnt (s : State) : Host.Outcome State Fault Refusal := doneBar s (opAudClrcnt s)

end Sys2Proof.Machine
end

