-- ==== Sys2Proof/Machine/RefClock.lean ====
section
/-! DEFINITION. Reference selection and clock clean-up: qualification, the priority table, the DPLL and the alignment of
the frame timing (R469-R484). -/

namespace Sys2Proof.Machine

open Sys2Proof

def State.setClk (s : State) (c : Clk) : State := { s with clk := c }

/-- A CLK HIST bit that has a source of its own (R484): FREERUN, SWITCH, REFLOSS, UNLOCK, JUMP and ALIGNLOSS in the order
of sources 288-293. -/
def State.clkHist (s : State) (b : Nat) : State := (s.setBit CLK_HIST ⟨b, 1⟩ true).raise (288 + b)

/-- R481. -/
def State.clkRefuse (s : State) : State := (s.setBit CLK_HIST CLK_HIST_CFGREJ true).raise 294

/-! ## Entries (R469, R472) -/

def State.priSrc (s : State) (k : Nat) : Nat := s.fld (CLK_PRI k) CLK_PRI_SRC

/-- Source code `c` is qualified; 0 and 13-15 never are. -/
def State.srcQual (s : State) (c : Nat) : Bool :=
  decide (1 ≤ c ∧ c ≤ 12) && (s.fld CLK_QUAL CLK_QUAL_Q).testBit c

/-- Entry `k` is the lowest-numbered one that names its code. -/
def State.priCounts (s : State) (k : Nat) : Bool := (List.range k).all (fun j => s.priSrc j != s.priSrc k)

/-- Entry `k` can be selected. -/
def State.priOk (s : State) (k : Nat) : Bool :=
  s.bit (CLK_PRI k) CLK_PRI_EN && s.priCounts k && s.srcQual (s.priSrc k)

/-- The highest-priority entry that can be selected. -/
def State.bestPri (s : State) : Option Nat := lowest 8 s.priOk

def State.dpll (s : State) : Nat := s.fld CLK_STAT CLK_STAT_STATE

/-- The selected entry, none in FREERUN (R475). -/
def State.actPri (s : State) : Option Nat := if s.dpll = 0 then none else some (s.fld CLK_STAT CLK_STAT_ACTPRI)

/-- Entry `k` becomes the selected one: the DPLL acquires its input (R472, R475). -/
def State.selectPri (s : State) (k : Nat) : State :=
  let s := s.setFld CLK_STAT CLK_STAT_STATE 1
  let s := s.setFld CLK_STAT CLK_STAT_ACTPRI k
  s.setFld CLK_STAT CLK_STAT_ACTSRC (s.priSrc k)

/-- A switch from one entry to another: counted, and HIST.SWITCH set. -/
def State.switchTo (s : State) (k : Nat) : State := ((s.selectPri k).inc CLK_SWCNT CLK_SWCNT_COUNT).clkHist 1

/-- No entry is qualified: FREERUN (R475). -/
def State.freerun (s : State) : State := (s.wr CLK_STAT 0).clkHist 0

/-- FORCE is 1 and entry FORCEPRI can be selected. -/
def State.forcedPri (s : State) : Option Nat :=
  let k := s.fld CLK_CTRL CLK_CTRL_FORCEPRI
  if s.bit CLK_CTRL CLK_CTRL_FORCE && s.priOk k then some k else none

/-- The evaluation of R472; `lost`: the selected entry has lost its qualification or its code. -/
def State.evaluate (s : State) (lost : Bool) : State :=
  let s := s.when (s.bit CLK_CTRL CLK_CTRL_FORCE && s.forcedPri.isNone)
    (fun s => s.setBit CLK_HIST CLK_HIST_FORCEFAIL true)
  let pick := match s.forcedPri with
    | some k => some k
    | none => s.bestPri
  match s.actPri with
  | none => match pick with
    | some k => s.selectPri k
    | none => s
  | some a =>
    if lost || !s.priOk a then
      let s := s.clkHist 2
      match pick with
      | some k => s.switchTo k
      | none => s.freerun
    else match s.forcedPri with
      | some k => if k = a then s else s.switchTo k
      | none =>
        if s.bit CLK_CTRL CLK_CTRL_REVERT && s.fld CLK_CTRL CLK_CTRL_WTR == 0 then
          match s.bestPri with
          | some k => if k < a then s.switchTo k else s
          | none => s
        else s

/-! ## Qualification (R469-R471) -/

/-- The lowest-numbered ACTIVE link to the root, whose node number is 0, is there and its lanes hold block lock (R415,
R469, R471). -/
def State.fabricRef (s : State) : Bool :=
  match lowest 12 (fun k => s.linkActive k && s.bit (BLK_L_STAT k) BLK_L_STAT_PEERVALID && s.fld (BLK_L_STAT k) BLK_L_STAT_PEER == 0) with
  | some k => s.blk.lockLost.all (fun e => s.laneLink e.1 != some k)
  | none => false

/-- A condition of the state that forbids qualification: reserved codes, a base that is not LOCKED, FABRIC at the root
or without a good link to it, an SDI lane that is not locked and framed. -/
def State.refBarred (s : State) (c : Nat) : Bool :=
  if c = 0 ∨ 12 < c then true
  else if 7 ≤ c ∧ c ≤ 10 then s.tbState (c - 7) != 3
  else if c = 11 then s.bit BLK_NODE BLK_NODE_ROOT || s.fld BLK_NODE BLK_NODE_EXPNODES == 0
    || !s.fabricRef
  else if c = 12 then
    let n := s.fld CLK_SDILANE CLK_SDILANE_LANE
    !s.bit (ML_STAT n) ML_STAT_LOCK || !s.bit (ML_STAT n) ML_STAT_FRAMED || s.bit (ML_STAT n) ML_STAT_HOLD
  else false

def State.setQual (s : State) (c : Nat) (b : Bool) : State := s.setBit CLK_QUAL ⟨c, 1⟩ b

def opRefQualified (c : Nat) (s : State) : State :=
  if s.refBarred c || s.srcQual c then s else (s.setQual c true).evaluate false

def opRefLoss (c : Nat) (s : State) : State :=
  if !s.srcQual c then s
  else
    let s := s.setQual c false
    let s := s.setBit CLK_QHIST ⟨c, 1⟩ true
    (s.inc CLK_QLOSSCNT CLK_QLOSSCNT_COUNT).evaluate false

/-- The evaluation that comes every 1 ms; inputs whose activity the block's own state shows to have failed lose their
qualification at it (R469, R472). -/
def opEvaluation (s : State) : State :=
  (s.each ((List.range 13).filter s.refBarred) (fun s c => opRefLoss c s)).evaluate false

/-- R472: a higher-priority entry has been qualified for WTR seconds. -/
def opWtr (s : State) : State :=
  match s.actPri, s.bestPri with
  | some a, some k =>
    if s.bit CLK_CTRL CLK_CTRL_REVERT && s.forcedPri.isNone && decide (k < a) then s.switchTo k else s
  | _, _ => s

/-- R472: a write of CLK_PRIk; a new code of the selected entry, or its disabling, is a loss of qualification. -/
def opPriWrite (k : Nat) (v : Word) (s : State) : State :=
  let old := s.priSrc k
  let s := s.fieldWrite (CLK_PRI k) v
  if s.actPri = some k ∧ (s.priSrc k ≠ old ∨ !s.bit (CLK_PRI k) CLK_PRI_EN) then s.evaluate true else s

/-! ## The DPLL (R475) -/

def opDpllLocked (s : State) : State := if s.dpll = 1 then s.setFld CLK_STAT CLK_STAT_STATE 2 else s
def opDpllUnlock (s : State) : State := if s.dpll = 2 then (s.setFld CLK_STAT CLK_STAT_STATE 1).clkHist 3 else s

/-! ## Frame alignment (R477-R481) -/

/-- R477, R478, R481: REALIGN; it replaces one that has not taken effect. -/
def opRealign (ralSrc : Bool) (tb : Nat) (s : State) : State :=
  let src := s.fld CLK_STAT CLK_STAT_ACTSRC
  let refused : Bool := decide (2 ≤ s.fld BLK_NODE BLK_NODE_EXPNODES)
    || (if ralSrc then s.tbMode tb == 0 else s.dpll == 0 || !decide (1 ≤ src ∧ src ≤ 4))
  if refused then s.clkRefuse
  else
    let o : Option Int := if ralSrc then some ((s.now : Int) - s.fullTime tb) else none
    s.setClk { s.clk with realign := some ⟨if ralSrc then 1 else 0, o, s.clk.origin, s.now, []⟩ }

/-- The aligners of a format measure their delay again after its frames have moved by `shift` ns: an arrival that has been
measured lies as much earlier; where the old origin was not known the delay is a free value within the window (R478, R233). -/
def State.remeasure (s : State) (raster rate : Nat) (shift : Option Int) : State :=
  s.each (s.fsa.aligners.filter (fun e => decide (e.1 < 2816) && (highFmt e.2.high).raster == raster
      && (highFmt e.2.high).rate == rate))
    (fun s e =>
      match shift, e.2.off with
      | some x, some off => s.place e.1 (off - 1000 * x)
      | _, _ =>
        if e.2.mode ≠ 2 ∨ 1024 ≤ e.1 then s
        else
          let f := highFmt e.2.high
          let most := slotsOf f (framePeriod3 rate * 1000 * windowLines raster)
          let p := s.freshPick (most + 1)
          p.2.setAligner e.1 { e.2 with delay := p.1 })

/-- The origin that an edge `ago` ns past gives with CLK_ALIGN.OFFSET (R477). -/
def State.edgeOrigin (s : State) (ago : Nat) : Int :=
  (s.now : Int) - ago + s.fld CLK_ALIGN CLK_ALIGN_OFFSET

/-- R477, R478, R479: a format takes the new origin at its first frame start under it, at least 1 ms after a REALIGN; the
first format's jump fixes the origin and is counted, where the origin moves by more than a word slot (6.7 ns). -/
def opTimingJump (raster rate ago : Nat) (s : State) : State :=
  match s.clk.realign with
  | none => s
  | some r =>
    if r.taken.contains (raster, rate) || (r.kind != 2 && decide (s.now < r.at_ + 1000000)) then s
    else
      let new := match r.origin with
        | some o => o
        | none => s.edgeOrigin ago
      let shift := match r.before with
        | some o => some (new - o)
        | none => none
      let moved : Bool := match shift with
        | some x => decide (6 < x.natAbs)
        | none => true
      let s := s.setClk
        ⟨some { r with taken := r.taken ++ [(raster, rate)], origin := some new }, if moved then some new else s.clk.origin⟩
      if moved then
        let s := s.when r.taken.isEmpty (fun s => (s.inc CLK_JUMPCNT CLK_JUMPCNT_COUNT).clkHist 4)
        s.remeasure raster rate shift
      else s

/-- R479: an alignment pulse edge of a four-chip frame. Within PULLWIN its error is slewed out, and the frames follow the new
origin without a jump. -/
def opAlignEdge (err : Int) (s : State) : State :=
  if s.fld BLK_NODE BLK_NODE_EXPNODES < 2 then s
  else
    let o := s.edgeOrigin 0
    if err.natAbs ≤ s.fld CLK_PULL CLK_PULL_PULLWIN then s.setClk { s.clk with origin := some o }
    else s.setClk { s.clk with realign := some ⟨2, some o, s.clk.origin, s.now, []⟩ }

def opAlignLoss (s : State) : State := if s.fld BLK_NODE BLK_NODE_EXPNODES < 2 then s else s.clkHist 5

/-- R481: CLK_ALIGN takes only REFIN codes in ALIGNSRC. -/
def opClkAlign (v : Word) (s : State) : State :=
  let c := CLK_ALIGN_ALIGNSRC.get v
  if 1 ≤ c ∧ c ≤ 4 then s.fieldWrite CLK_ALIGN v else (s.countLock CLK_ALIGN v).clkRefuse

/-! ## GENOUT (R480) -/

/-- The signal of GENOUTk, none where it is high impedance. DESIGN CHOICE: so is a frame pulse of a RATE that names no
frame rate (log entry 37). -/
def State.genSignal (s : State) (k : Nat) : Option GenSignal :=
  let g := fun (f : Field) => s.fld (CLK_GENOUT_CFG k) f
  let width := 10 * max 1 (g CLK_GENOUT_CFG_WIDTH)
  let period := framePeriod3 (g CLK_GENOUT_CFG_RATE)
  if g CLK_GENOUT_CFG_EN = 0 then none
  else if g CLK_GENOUT_CFG_KIND = 0 then
    if period = 0 then none
    else some (.framePulse (g CLK_GENOUT_CFG_RATE) (3 * s.fld (CLK_GENOUT_OFS k) CLK_GENOUT_OFS_OFS % period) width)
  else if g CLK_GENOUT_CFG_KIND = 1 then some .tenMhz
  else if g CLK_GENOUT_CFG_KIND = 2 then some (.pps (g CLK_GENOUT_CFG_TB) width)
  else none

/-- The signal of GENOUTk as the power state leaves it: from FALLOW until ACTIVE only KIND 2 runs (R491). -/
def State.genDriven (s : State) (k : Nat) : Option GenSignal :=
  let idle : Bool := s.fld PWR_STAT PWR_STAT_STATE == 2 || s.fld PWR_STAT PWR_STAT_STATE == 3
  match s.genSignal k with
  | some (.pps b w) => some (.pps b w)
  | some x => if idle then none else some x
  | none => none

def State.emitGen (s : State) (k : Nat) : State :=
  s.emit (.genout k (s.bit (CLK_GENOUT_CFG k) CLK_GENOUT_CFG_POL) (s.genDriven k))

/-- The balls of the outputs whose signal the power state decides (R491). -/
def State.emitGens (s : State) : State :=
  s.each ((List.range 4).filter (fun k => (s.genSignal k).isSome)) State.emitGen

/-- A write of CLK_GENOUTk_CFG or CLK_GENOUTk_OFS. -/
def opGenout (k a : Nat) (v : Word) (s : State) : State := (s.fieldWrite a v).emitGen k

def opClkClrcnt (s : State) : State := s.clearAll [CLK_SWCNT, CLK_JUMPCNT, CLK_QLOSSCNT]

/-! ## The commands -/

def execReferenceEvaluation (s : State) : Host.Outcome State Fault Refusal := done s (opEvaluation s)
def execReferenceActivityLoss (c : BitVec 4) (s : State) : Host.Outcome State Fault Refusal := done s (opRefLoss c.toNat s)
def execReferenceQualified (c : BitVec 4) (s : State) : Host.Outcome State Fault Refusal :=
  done s (opRefQualified c.toNat s)
def execWtrExpiry (s : State) : Host.Outcome State Fault Refusal := done s (opWtr s)
def execDpllLocked (s : State) : Host.Outcome State Fault Refusal := done s (opDpllLocked s)
def execDpllUnlock (s : State) : Host.Outcome State Fault Refusal := done s (opDpllUnlock s)
def execRealign (ralSrc : Bool) (tb : Tb) (s : State) : Host.Outcome State Fault Refusal := doneBar s (opRealign ralSrc tb.val s)
def execFrameTimingJump (raster rate : Byte) (ago : Word) (s : State) : Host.Outcome State Fault Refusal :=
  done s (opTimingJump raster.toNat rate.toNat ago.toNat s)
def execAlignPulseEdge (err : Int) (s : State) : Host.Outcome State Fault Refusal := done s (opAlignEdge err s)
def execAlignloss (s : State) : Host.Outcome State Fault Refusal := done s (opAlignLoss s)
def execClkPriWrite (k : Fin 8) (v : Word) (s : State) : Host.Outcome State Fault Refusal := doneBar s (opPriWrite k.val v s)
def execClkClrcnt (s : State) : Host.Outcome State Fault Refusal := doneBar s (opClkClrcnt s)

end Sys2Proof.Machine
end

