-- ==== Sys2Proof/Machine/SelfTest.lean ====
section
/-! DEFINITION. Self-test: units, slices, the line store, patrol reads, full tests and BIST_REQ (R159, R546-R558). -/

namespace Sys2Proof.Machine

open Sys2Proof

/-! ## Units (R546) -/

/-- The codes of R546. -/
def unitValid (u : Nat) : Bool :=
  [(0x00, 0x10), (0x20, 0x2F), (0x30, 0x3F), (0x40, 0x43), (0x50, 0x74), (0x80, 0x83)].any
    (fun p => decide (p.1 ≤ u ∧ u ≤ p.2))

def unitPlane (u : Nat) : Bool := decide (u ≤ 0x10)
def unitCore (u : Nat) : Bool := decide (0x80 ≤ u ∧ u ≤ 0x83)

/-- In service always: the line store, the memory stacks, ESS and AUD. -/
def unitAlways (u : Nat) : Bool := decide (0x70 ≤ u ∧ u ≤ 0x74)

/-- The classes with slices: first code, units, slices per unit (R549) and HDG source (R558). -/
def sliceClasses : List (Nat × Nat × Nat × Nat) :=
  [(0x20, 16, 400, 400), (0x30, 16, 160, 401), (0x40, 4, 240, 402), (0x50, 32, 40, 403)]

/-- The class of a unit that has slices. -/
def sliceClass (u : Nat) : Option (Nat × Nat × Nat × Nat) := sliceClasses.find? (fun c => decide (c.1 ≤ u ∧ u < c.1 + c.2.1))

/-- The source of a unit's class (R555, R558). -/
def unitSource (u : Nat) : Option Nat :=
  match sliceClass u with
  | some c => some c.2.2.2
  | none => if u = 0x71 ∨ u = 0x72 then some 406 else if u = 0x73 ∨ u = 0x74 ∨ unitCore u then some 407 else none

/-- In service (R546); a service core is, unless it is out of service or failed. -/
def State.unitInService (s : State) (u : Nat) : Bool :=
  if unitPlane u then (s.positionOf u).isSome
  else if unitAlways u then true
  else if unitCore u then !s.unitOos u && !s.unitFailed u
  else if u < 0x30 then
    s.cmp.canvases.any (fun e => match e.2.charged with
      | some d => d.engine == u - 0x20
      | none => false)
    || s.sal.migs.any (fun e => decide (e.1 < 4096) && e.2.target == u - 0x20)
  else if u < 0x40 then (List.range 16).any (fun i => s.laneMode (16 * (u - 0x30) + i) != 0)
  else if u < 0x50 then
    (List.range 24).any (fun i => match s.laneLink (24 * (u - 0x40) + i) with
      | some k => s.linkEn k
      | none => false)
  else s.portOn (2 * (u - 0x50)) || s.portOn (2 * (u - 0x50) + 1)

/-- A write to the unit's domain starts its gated clock (R488, R549). -/
def State.startUnit (s : State) (u : Nat) : State :=
  if u < 0x20 then s
  else if u < 0x30 then s.startDomain (domCmp ((u - 0x20) / 4))
  else if u < 0x40 then s.startDomain (domMlg (u - 0x30))
  else if u < 0x44 then s.startDomain (domFlg (u - 0x40))
  else s

def setNth (w : Word) (b : Nat) (v : Bool) : Word := (⟨b, 1⟩ : Field).set w (if v then 1 else 0)

def State.setFailed (s : State) (u : Nat) (v : Bool) : State :=
  s.wr (BST_FAILED (u / 32)) (setNth (s.rd (BST_FAILED (u / 32))) (u % 32) v)

def State.setPassed (s : State) (u : Nat) (v : Bool) : State :=
  let l := s.bst.passed.filter (· != u)
  s.setBst { s.bst with passed := if v then l ++ [u] else l }

/-- Unit `u` fails (R231, R555). -/
def State.failUnit (s : State) (u : Nat) : State :=
  let s := (s.setFailed u true).setPassed u false
  let s := match unitSource u with
    | some n => s.raise n
    | none => if unitPlane u then (s.retirePlane u).raise 145 else s
  s.faultTarget u

/-- The BIST_REQ that waits on a unit ends. -/
def State.endWait (s : State) (u : Nat) (st : Status) (result : Nat) : State := s.endPlaneWait u st result

/-- Safe state or Fallow: every waiting BIST_REQ ends ABORTED (R556). -/
def State.abortWaits (s : State) : State := s.each s.bst.waits (fun s e => s.endWait e.1 .aborted 0)

/-! ## Slices (R549, R551, R552) -/

/-- The unit may run a slice now: spare or out of service, not failed, not under test. -/
def State.sliceable (s : State) (u : Nat) : Bool :=
  !s.unitInService u && !s.unitFailed u && !s.fullTesting u && !s.bst.slicing.contains u

/-- The next unit of a class in ascending code order, cyclically after the last one. -/
def State.nextUnit (s : State) (c : Nat × Nat × Nat × Nat) : Option Nat :=
  let last := Tbl.getD s.bst.cursor c.1 (c.1 + c.2.1 - 1)
  ((List.range c.2.1).map (fun i => c.1 + (last - c.1 + 1 + i) % c.2.1)).find? s.sliceable

/-- A slice starts on a unit. -/
def State.startSlice (s : State) (u : Nat) : State :=
  let w := match Tbl.find? s.bst.waits u with
    | some w => if Tbl.getD s.bst.slices u 0 = 0 then Tbl.put s.bst.waits u { w with begun := true } else s.bst.waits
    | none => s.bst.waits
  (s.setBst { s.bst with slicing := s.bst.slicing ++ [u], waits := w }).startUnit u

/-- One slice in each class that has a unit for it, and one row exchange of the line store. -/
def opSliceStart (s : State) : State :=
  if !s.bit BST_CTRL BST_CTRL_SLICEEN || !s.powerActive then s
  else
    let s := s.each sliceClasses (fun s c =>
      match s.nextUnit c with
      | some u => (s.setBst { s.bst with cursor := Tbl.put s.bst.cursor c.1 u }).startSlice u
      | none => s)
    if s.bst.slicing.contains 0x70 then s else s.startSlice 0x70

/-- A row into a list in ascending order. -/
def insertRow (r : Nat) : List Nat → List Nat
  | [] => [r]
  | x :: t => if r ≤ x then r :: x :: t else x :: insertRow r t

/-- R552: a row of the line store has failed. -/
def State.rowFailed (s : State) (r : Nat) : State :=
  let n := s.fld BST_STAT BST_STAT_LSSPARE
  if n = 0 then s.raise 405
  else
    let s := s.setBst { s.bst with repaired := insertRow r s.bst.repaired }
    ((s.setFld BST_STAT BST_STAT_LSSPARE (n - 1)).inc BST_LSREP BST_LSREP_COUNT).raise 404

/-- The row of the line store whose turn it is, and the rotation's next step over the 45,840 in-use rows (R549). DESIGN
CHOICE: the rotation takes the rows in ascending order from row 0 (log entry 38). -/
def State.rowTurn (s : State) : Nat := Tbl.getD s.bst.cursor 0x70 0
def State.turnRow (s : State) : State :=
  s.setBst { s.bst with cursor := Tbl.put s.bst.cursor 0x70 ((s.rowTurn + 1) % 45840) }

/-- A slice ends (R549, R555, R556). -/
def opSliceEnd (u : Nat) (pass : Bool) (s : State) : State :=
  if !s.bst.slicing.contains u then s
  else
    let s := s.setBst { s.bst with slicing := s.bst.slicing.filter (· != u) }
    let s := s.inc BST_SLICES BST_SLICES_COUNT
    match sliceClass u with
    | none => s.turnRow.when (!pass) (fun t => t.rowFailed s.rowTurn)
    | some c =>
      if !pass then
        ((s.setBst { s.bst with slices := Tbl.del s.bst.slices u }).failUnit u).endWait u .ok 0
      else
        let n := Tbl.getD s.bst.slices u 0 + 1
        if n < c.2.2.1 then s.setBst { s.bst with slices := Tbl.put s.bst.slices u n }
        else
          let s := (s.setBst { s.bst with slices := Tbl.del s.bst.slices u }).setPassed u true
          match Tbl.find? s.bst.waits u with
          | some w => if w.begun && !w.full then s.endWait u .ok 1 else s
          | none => s

/-- R550: corrected words are counted, and an uncorrectable one is handled under R252. -/
def opPatrol (k corrected uncorrectable : Nat) (s : State) : State :=
  let f := if k = 0 then FSA_MEMSTAT_STK0 else FSA_MEMSTAT_STK1
  if !s.bit FSA_MEMSTAT f then s
  else
    let s := s.incBy FSA_ECCFIX FSA_ECCFIX_COUNT corrected
    (s.incBy FSA_ECCUNC FSA_ECCUNC_COUNT uncorrectable).each (List.range uncorrectable) (fun s _ => s.raise 167)

/-! ## Full tests (R553, R556) -/

/-- A full test ends: one that BIST_REQ asked for, or one of the shut-down. -/
def opFullTestEnd (u : Nat) (pass : Bool) (s : State) : State :=
  if !unitValid u || !(s.fullTesting u || s.bit BST_STAT BST_STAT_FULLRUN) then s
  else
    let asked := s.fullTesting u
    let s := if pass then (s.setFailed u false).setPassed u true else s.failUnit u
    if asked then s.endWait u .ok (if pass then 1 else 0) else s

def bistFields : List (Nat × Nat × Nat) := [(8, 0, 8), (9, 0, 1)]

/-- A FULL 0 request that the unit can serve (R556). -/
def State.bistServes (s : State) (u : Nat) : Bool :=
  if unitPlane u then !s.retired u
  else (sliceClass u).isSome && !s.unitInService u && !s.unitFailed u

/-- A FULL 1 request that the unit can serve (R546, R556). -/
def State.bistFull (s : State) (u : Nat) : Bool :=
  !unitPlane u && !s.unitInService u

/-- BIST_REQ (R159, R556). -/
def bistReqBody (t : Nat) (e : Entry) (id : Nat) (s : State) : State :=
  let u := bitsAt e 8 0 8
  let full := bitsAt e 9 0 1 == 1
  s.checked id
    [ (!onlyFields e bistFields, .rejFormat, 0),
      (!unitValid u, .rejFormat, 0),
      (t != 0, .rejOwner, 0),
      (Tbl.has s.bst.waits u, .busy, 0),
      (!(if full then s.bistFull u else s.bistServes u), .busy, 0) ]
    (fun s =>
      let s := s.setBst { s.bst with waits := Tbl.put s.bst.waits u ⟨id, full, false⟩ }
      if full then
        (s.setBst { s.bst with
          slicing := s.bst.slicing.filter (· != u), slices := Tbl.del s.bst.slices u }).startUnit u
      else s)

/-! ## Out of service (R547), windows and counters (R557) -/

/-- Bits of a word that stand in `v` and not in `old`. -/
def newBits (old v : Word) : List Nat := (List.range 32).filter (fun b => v.getLsbD b && !old.getLsbD b)

/-- Service cores that a write of BST_OOS4 leaves out of service. -/
def coresOut (v : Word) : Nat := ((List.range 4).filter (fun b => v.getLsbD b)).length

def State.oosRefuses (s : State) (i : Nat) (v : Word) : Bool :=
  (newBits (s.rd (BST_OOS i)) v).any (fun b =>
    let u := 32 * i + b
    unitValid u && (if unitCore u then decide (1 < coresOut v) else s.unitInService u))

def opOosWrite (i : Nat) (v : Word) (s : State) : State :=
  if s.oosRefuses i v then (s.setBit BST_ERR BST_ERR_CFGREJ true).raise 409 else s.fieldWrite (BST_OOS i) v

/-- The state of a unit as BST_UNIT_STAT gives it. -/
def State.unitState (s : State) (u : Nat) : Nat :=
  if s.unitFailed u then 3 else if s.unitOos u then 2 else if s.unitInService u then 1 else 0

def opUnitIdx (v : Word) (s : State) : State :=
  let s := s.fieldWrite BST_UNIT_IDX v
  let u := s.fld BST_UNIT_IDX BST_UNIT_IDX_UNIT
  let s := s.setFld BST_UNIT_STAT BST_UNIT_STAT_STATE (if unitValid u then s.unitState u else 0)
  let s := s.setBit BST_UNIT_STAT BST_UNIT_STAT_TESTING
    (s.bst.slicing.contains u || s.fullTesting u || (unitValid u && s.bit BST_STAT BST_STAT_FULLRUN))
  let s := s.setBit BST_UNIT_STAT BST_UNIT_STAT_LASTPASS (s.bst.passed.contains u)
  s.setFld BST_UNIT_STAT BST_UNIT_STAT_SLICE (Tbl.getD s.bst.slices u 0)

def opBstClrcnt (s : State) : State := s.clearAll [BST_SLICES, BST_ABANDON, BST_LSREP]

/-! ## The commands -/

def execBistReq (t : Tenant) (r : CmdRing) (e : Entry) (s : State) : Host.Outcome State Fault Refusal :=
  done s (s.command 0x60 t.val r.val e (bistReqBody t.val e))
def execSliceStart (s : State) : Host.Outcome State Fault Refusal := done s (opSliceStart s)
def execSliceEnd (u : Byte) (pass : Bool) (s : State) : Host.Outcome State Fault Refusal := done s (opSliceEnd u.toNat pass s)
def execPatrolRead (k : Fin 2) (corrected uncorrectable : Nat) (s : State) : Host.Outcome State Fault Refusal :=
  done s (opPatrol k.val corrected uncorrectable s)
def execFullTestEnd (u : Byte) (pass : Bool) (s : State) : Host.Outcome State Fault Refusal :=
  done s (opFullTestEnd u.toNat pass s)
def execBstOosWrite (i : Fin 8) (v : Word) (s : State) : Host.Outcome State Fault Refusal := doneBar s (opOosWrite i.val v s)
def execBstUnitIdx (v : Word) (s : State) : Host.Outcome State Fault Refusal := doneBar s (opUnitIdx v s)
def execBstClrcnt (s : State) : Host.Outcome State Fault Refusal := doneBar s (opBstClrcnt s)

end Sys2Proof.Machine
end

