-- ==== Sys2Proof/Machine/Firmware.lean ====
section
/-! DEFINITION. Firmware: image checks, the SVC commands, hitless update, distribution, configuration banks, the life
cycle, watchdogs and service moves (R578-R608). -/

namespace Sys2Proof.Machine

open Sys2Proof

def State.setFlash (s : State) (x : Flash) : State := { s with flash := x }
def State.setOtp (s : State) (x : Otp) : State := { s with otp := x }

/-! ## OTP (R601-R605) -/

/-- The codes of R603. -/
def lifeCode (st : Nat) : Nat := [0x00, 0x01, 0x03, 0x07, 0x0F].getD st 0x0F

/-- R602: the state of a state word, and whether the word is one of the codes: otherwise the highest state whose code
bits are all set. -/
def lifeOf (w : Nat) : Nat × Bool :=
  match lowest 5 (fun st => lifeCode st == w) with
  | some st => (st, true)
  | none => (((List.range 5).filter (fun st => lifeCode st &&& w == lifeCode st)).foldl max 0, false)

/-- The intent word of a target (R601): TARGET, and the low 16 bits of the CRC-32C over the chip ID and the byte of
TARGET. -/
def intentWord (chip : BitVec 64) (target : Nat) : Word :=
  BitVec.ofNat 32 (target % 16 + 2 ^ 16 * (crc32c ((leBytes chip.toNat 8 ++ leBytes (target % 16) 1).map BitVec.toNat) % 65536))

/-- The target of a complete intent word (R601). -/
def intentOf (chip : BitVec 64) (w : Word) : Option Nat :=
  let t := w.toNat % 16
  if intentWord chip t = w then some t else none

/-- The targets of the complete intent words. -/
def Otp.targets (o : Otp) : List Nat := o.intents.filterMap (fun e => intentOf o.chipId e.2)

/-- An intent word is programmed; bits of `missed` do not take. Programmed bits never clear (R601). -/
def Otp.intend (o : Otp) (target : Nat) (missed : Word) : Otp :=
  let w := Tbl.getD o.intents target 0 ||| (intentWord o.chipId target &&& ~~~missed)
  { o with intents := Tbl.put o.intents target w }

/-- The state word as it stands in OTP. -/
def State.lifeWord (s : State) : Nat := s.otp.word.toNat

/-- The state word is programmed to a target, which only sets bits (R601); bits of `missed` do not take. -/
def Otp.program (o : Otp) (target : Nat) (missed : Byte) : Otp :=
  { o with word := o.word ||| (BitVec.ofNat 8 (lifeCode target) &&& ~~~missed) }

/-- The life-cycle state in force: the one the last cold start resolved. -/
def State.life (s : State) : Nat :=
  match s.otp.resolved with
  | some st => st
  | none => (lifeOf s.lifeWord).1

def State.keyValid (s : State) (k : Nat) : Bool := s.otp.keyValid.getLsbD k
def State.keyRevoked (s : State) (k : Nat) : Bool := s.otp.revoked.getLsbD k

/-- SEC_SVN (R594, R607). -/
def State.minSvn (s : State) : Nat := s.otp.svn

/-! ## Images (R582, R583) -/

inductive ImgFail where
  | malformed
  | signature
  | decryption
  | rollback
  deriving DecidableEq, Repr

/-- The header values of R582. -/
def imageFormed (i : Image) : Bool :=
  i.magic == 0x4657494D#32 && i.hdrFmt == 1 && decide (i.length % 64 = 0 ∧ 64 ≤ i.length ∧ i.length ≤ 8388096)

/-- The ENC and decryption check under the life-cycle state (R583, R603). -/
def imageDecrypts (i : Image) (life : Nat) : Bool :=
  if i.enc then life != 3 && i.tagOk else life != 2

/-- R583: what makes an image invalid, none for a valid one; SCRAPPED accepts none (R603). -/
def State.imageFail (s : State) (i : Image) : Option ImgFail :=
  if !imageFormed i || s.life == 4 then some .malformed
  else if !i.keyHashOk || s.keyRevoked i.keyIdx.toNat || !i.sigOk then some .signature
  else if !imageDecrypts i s.life then some .decryption
  else if s.life = 2 ∧ i.svn < s.minSvn then some .rollback
  else none

/-- A failure is counted and raised (R583, R608). -/
def State.countFail (s : State) (f : ImgFail) : State :=
  match f with
  | .malformed => s
  | .signature => (s.inc SEC_SIGFAIL SEC_SIGFAIL_COUNT).raise 481
  | .decryption => (s.inc SEC_DECFAIL SEC_DECFAIL_COUNT).raise 482
  | .rollback => (s.inc SEC_ROLLBACK SEC_ROLLBACK_COUNT).raise 483

/-! ## Commands (R587) -/

/-- GO: ignored while BUSY is 1. -/
def State.svcGo (s : State) (body : State → State) : State := if s.svcBusy then s else body s

/-- Operation `op` of SVC_CMD begins (R587): BUSY; one that reads host memory takes a command channel (R93, R618), or
waits for one (R94). -/
def State.svcBegin (s : State) (op : Nat) (reads : Bool) : State :=
  let ch := if reads then s.channelIn (decide (s.svcLen ≤ 4096)) else none
  ((s.svcStart op).setSvc { s.svc with started := some op, channel := ch }).setHif { s.hif with chans := s.freshChans ch }

/-- The operands of an operation that reads host memory keep R95; a break of it counts at HIF_MISALIGN. -/
def State.svcRead (s : State) (op : Nat) : State :=
  s.svcGo (fun s => if hostOk s.svcAddr s.svcLen then s.svcBegin op true else (s.raise 323).svcEnd op 7)

/-- The bytes that operation `op` reads have arrived: where a write of SVC_CMD has not begun it yet, it begins now. It goes on
only with a command channel (R93, R94). -/
def State.svcData (s : State) (op : Nat) (body : State → State) : State :=
  let s := if s.svc.started = some op then s else s.svcRead op
  if s.svc.started ≠ some op then s
  else match s.svcChannel with
    | none => s
    | some ch => body ((s.countBytes ch s.svcLen).setSvc { s.svc with started := none, channel := none })

/-- What other chips answer has arrived for operation `op`, which reads no host memory. -/
def State.svcAnswer (s : State) (op : Nat) (body : State → State) : State :=
  let s := if s.svc.started = some op then s else s.svcGo (fun s => s.svcBegin op false)
  if s.svc.started = some op then body (s.setSvc { s.svc with started := none }) else s

def State.updState (s : State) : Nat := s.fld SVC_UPD SVC_UPD_STATE
def State.setUpd (s : State) (n : Nat) : State := s.setFld SVC_UPD SVC_UPD_STATE n
def State.ready (s : State) : Bool := s.bit PWR_STAT PWR_STAT_READY
def State.bootCode (s : State) : Nat := s.fld PWR_STAT PWR_STAT_BOOT
def State.arg (s : State) : Nat := s.fld SVC_ARG SVC_ARG_ARG

/-! ## Slots (R581, R588, R589) -/

/-- The record that boot code takes: the higher SEQ, record 0 when equal (R581). -/
def Flash.second (f : Flash) : Bool := decide (f.pointers.1.1 < f.pointers.2.1)

/-- The slot that the boot header names. -/
def Flash.boot (f : Flash) : Nat := if f.second then f.pointers.2.2 else f.pointers.1.2

/-- Overwrite the lower record only (R581). -/
def Flash.point (f : Flash) (slot : Nat) : Flash :=
  if f.second then { f with pointers := ((f.pointers.2.1 + 1, slot), f.pointers.2) }
  else { f with pointers := (f.pointers.1, (f.pointers.1.1 + 1, slot)) }

/-- A slot-pointer record (R581). -/
def pointerBytes (p : Nat × Nat) : List Byte :=
  let l := leBytes p.1 4 ++ leBytes p.2 1 ++ leBytes 0 7
  l ++ leBytes (crc32c (l.map BitVec.toNat)) 4

/-- The boot header takes slot `k`: the lower record is overwritten, in its place of the header (R580, R581; log entry
39). -/
def State.pointSlot (s : State) (k : Nat) : State :=
  let f := s.flash.point k
  let first := s.flash.second
  (s.setFlash f).emit (.flash (if first then 0 else 16) (pointerBytes (if first then f.pointers.1 else f.pointers.2)))

def Flash.setSlot (f : Flash) (k : Nat) (i : Option Image) : Flash := { f with slots := Tbl.put f.slots k i }

def slotVer (k : Nat) : Nat := if k = 0 then SVC_SLOTVER0 else SVC_SLOTVER1

/-- A slot is erased and its programming starts. -/
def State.program (s : State) (k : Nat) (i : Image) : State :=
  let s := s.setFlash (s.flash.setSlot k none)
  let s := s.when (decide (k < 2)) (fun s => s.wr (slotVer k) 0)
  let s := s.setBit SVC_CMDSTAT SVC_CMDSTAT_SLOTERR false
  s.setSvc { s.svc with programming := some (k, i), verified := if k < 2 then false else s.svc.verified }

/-- A valid image is staged, and the inactive slot is programmed (R588, R589). -/
def State.stage_ (s : State) (i : Image) : State :=
  let s := s.setUpd 1
  let s := s.setSvc { s.svc with staged := some i }
  s.program (1 - s.flash.boot) i

/-- Start-up waits for an image from the host or a neighbour (R498, R586). -/
def State.awaits (s : State) (code : Nat) : Bool := !s.ready && s.bootCode == code

/-- LOADIMG (R587, R589). -/
def opLoadImg (i : Image) (s : State) : State :=
  s.svcData 1 (fun s =>
    if s.updState ≠ 0 || s.svc.programming.isSome then s.svcEnd 1 3
    else match s.imageFail i with
      | some f => (s.countFail f).svcEnd 1 (if f = .rollback then 2 else 1)
      | none =>
        if s.awaits 2 then (s.setSvc { s.svc with running := some i }).svcEnd 1 0
        else if s.arg % 2 = 1 then (s.program 2 i).svcEnd 1 0
        else (s.stage_ i).svcEnd 1 0)

/-- R589: the slot has been programmed and read back. -/
def opSlotDone (ok : Bool) (s : State) : State :=
  match s.svc.programming with
  | none => s
  | some (k, i) =>
    let s := s.setSvc { s.svc with programming := none }
    if ok then
      let s := s.setFlash (s.flash.setSlot k (some i))
      if k < 2 then (s.wr (slotVer k) i.version).setSvc { s.svc with verified := true } else s
    else
      let s := (s.setBit SVC_CMDSTAT SVC_CMDSTAT_SLOTERR true).raise 362
      if k < 2 then
        let shadow := s.updState == 2
        let s := (s.setUpd 0).setSvc { s.svc with staged := none }
        if shadow then s.svcEnd 3 4 else s
      else s

/-! ## Distribution (R590) -/

/-- Nodes of a 4-bit mask other than this one, in ascending order. -/
def State.maskNodes (s : State) (m : Nat) : List Nat := (List.range 4).filter (fun n => m.testBit n && n != s.ownNode)

def nodeMask (l : List Nat) : Nat := l.foldl (fun m n => m + 2 ^ n) 0

/-- Send an image to the first of a list of nodes, which sends it on to the rest. -/
def State.sendImage (s : State) (i : Image) (l : List Nat) : State :=
  match l with
  | [] => s
  | n :: rest => s.send n (.image i (nodeMask rest))

/-- DISTRIB; `answer`: 0 every node has staged the image, 1 a second check failed, 2 no answer, 3 a node not in IDLE. -/
def opDistrib (answer : Nat) (s : State) : State :=
  s.svcAnswer 2 (fun s =>
    match s.svc.staged with
    | none => s.svcEnd 2 5
    | some i =>
      if s.updState ≠ 1 then s.svcEnd 2 5
      else
        let l := s.maskNodes (s.arg % 16)
        if l.any (fun n => !s.hasPath n) then s.svcEnd 2 6
        else if l.isEmpty then s.svcEnd 2 0
        else (s.sendImage i l).svcEnd 2 (if answer = 1 then 1 else if answer = 2 then 6 else if answer = 3 then 3 else 0))

/-- A DISTRIB arrives from node `src`, which hears what becomes of it; a first failed check asks it once for a fresh copy, a
second one stops the chain (R590). -/
def opImageReceived (src : Nat) (i : Image) (onward : Nat) (retry : Bool) (s : State) : State :=
  if s.updState ≠ 0 || s.svc.programming.isSome then s.send src (.imageAnswer 3)
  else match s.imageFail i with
    | some f =>
      let s := s.countFail f
      if retry then ((s.setBit SVC_HIST SVC_HIST_CHAIN true).raise 361).send src (.imageAnswer 1)
      else s.send src (.imageAnswer 2)
    | none =>
      let s := if s.awaits 3 then s.setSvc { s.svc with running := some i } else s.stage_ i
      (s.sendImage i (s.maskNodes onward)).send src (.imageAnswer 0)

/-! ## Handover (R591-R596) -/

/-- HANDOVER; `peer`: the lowest VERSION running on a numbered peer or the mirror partner (R592). -/
def opHandover (peer : Word) (s : State) : State :=
  s.svcAnswer 3 (fun s =>
    match s.svc.staged with
    | none => s.svcEnd 3 5
    | some i =>
      if s.updState ≠ 1 || decide (peer.toNat < i.minPeer.toNat) || decide ((s.rd SVC_FWVER).toNat < i.minPeer.toNat) then
        s.svcEnd 3 5
      else (s.setUpd 2).svcStart 3)

/-- R592: what defers the boundary. -/
def State.deferred (s : State) : Bool :=
  s.sal.slots.any (fun e => e.2.stage != 0) || !s.sal.migs.isEmpty || s.svc.started == some 6 || s.fld FOV_STAT FOV_STAT_STATE == 4

/-- R598: a new configuration format: the bank in use is converted into the other bank. -/
def State.convertBank (s : State) (fmt : BitVec 16) : State :=
  if s.fld SVC_CFGSTAT SVC_CFGSTAT_FMT = fmt.toNat then s
  else
    let inB := s.bit SVC_CFGSTAT SVC_CFGSTAT_BANK
    let s := s.setFld SVC_CFGSTAT SVC_CFGSTAT_FMT fmt.toNat
    match if inB then s.flash.bankB else s.flash.bankA with
    | none => s
    | some b =>
      let c : Bank := { b with cfgFmt := fmt, seq := b.seq + 1 }
      let s := s.setFlash (if inB then { s.flash with bankA := some c } else { s.flash with bankB := some c })
      let s := s.setBit SVC_CFGSTAT (if inB then SVC_CFGSTAT_AVALID else SVC_CFGSTAT_BVALID) true
      let s := s.setBit SVC_CFGSTAT SVC_CFGSTAT_BANK (!inB)
      let s := s.setBit SVC_CFGSTAT SVC_CFGSTAT_PROTECT true
      s.wr SVC_CFGSEQ c.seq

/-- The new firmware takes over (R591). -/
def State.takeOver (s : State) (i : Image) : State :=
  let keep := [SVC_SLOT, SVC_FWVER, SVC_CFGSTAT, SVC_CFGSEQ, SEC_KEY].map (fun a => (a, s.rd a))
  let s := s.setSvc { s.svc with old := s.svc.running, before := keep, running := some i, confAt := s.now }
  let s := s.setUpd 3
  let s := s.wr SVC_FWVER i.version
  let s := s.setFld SVC_SLOT SVC_SLOT_RUN (1 - s.flash.boot)
  let s := s.setBit SVC_SLOT SVC_SLOT_RECOVERY false
  let s := s.setFld SEC_KEY SEC_KEY_INUSE i.keyIdx.toNat
  s.convertBank i.cfgFmt

/-- The old firmware takes over again (R595). -/
def State.handBack (s : State) : State :=
  let b := fun a => Tbl.getD s.svc.before a (s.rd a)
  let s := s.wr SVC_SLOT (b SVC_SLOT)
  let s := s.wr SVC_FWVER (b SVC_FWVER)
  let s := s.wr SVC_CFGSEQ (b SVC_CFGSEQ)
  let s := s.setFld SEC_KEY SEC_KEY_INUSE (SEC_KEY_INUSE.get (b SEC_KEY))
  let s := s.setFld SVC_CFGSTAT SVC_CFGSTAT_BANK (SVC_CFGSTAT_BANK.get (b SVC_CFGSTAT))
  let s := s.setFld SVC_CFGSTAT SVC_CFGSTAT_FMT (SVC_CFGSTAT_FMT.get (b SVC_CFGSTAT))
  let s := s.setBit SVC_CFGSTAT SVC_CFGSTAT_PROTECT false
  let s := s.setSvc { s.svc with running := s.svc.old, old := none, before := [], staged := none, reverting := false }
  let s := s.setUpd 0
  let s := (s.setBit SVC_HIST SVC_HIST_REVERT true).raise 356
  if s.svcBusy && s.fld SVC_CMDSTAT SVC_CMDSTAT_OP == 5 then s.svcEnd 5 0 else s

/-- R591, R592, R595: the first frame boundary after a successful shadow run; a deferred boundary changes nothing. -/
def opShadowEnd (s : State) : State :=
  if s.deferred then s
  else if s.svc.reverting then s.handBack
  else match s.svc.staged with
    | none => s
    | some i => if s.updState = 2 then (s.takeOver i).svcEnd 3 0 else s

/-- R593. -/
def opUpdFail (s : State) : State :=
  if s.svc.reverting || s.updState == 2 then
    let back := s.svc.reverting
    let s := (s.setBit SVC_HIST SVC_HIST_UPDFAIL true).raise 355
    if back then
      let s := s.setSvc { s.svc with reverting := false }
      if s.svcBusy then s.svcEnd 5 1 else s
    else (s.setUpd 1).svcEnd 3 1
  else s

/-- CONFIRM (R594). -/
def opConfirm (s : State) : State :=
  s.svcGo (fun s =>
    if s.updState ≠ 3 then s.svcEnd 4 5
    else if !s.svc.verified || s.svc.reverting then s.svcEnd 4 3
    else
      let slot := s.fld SVC_SLOT SVC_SLOT_RUN
      let s := s.pointSlot slot
      let s := s.setFld SVC_SLOT SVC_SLOT_BOOT slot
      let s := match s.svc.running with
        | some i => s.setOtp { s.otp with svn := max s.otp.svn i.svn }
        | none => s
      let s := s.setBit SVC_CFGSTAT SVC_CFGSTAT_PROTECT false
      let s := s.setSvc { s.svc with old := none, before := [], staged := none }
      (s.setUpd 0).svcEnd 4 0)

/-- REVERT (R595). -/
def opRevert (s : State) : State :=
  s.svcGo (fun s =>
    if s.updState ≠ 3 then s.svcEnd 5 5
    else if s.svc.reverting then s.svcEnd 5 3
    else (s.setSvc { s.svc with reverting := true }).svcStart 5)

/-- CONFTO seconds have passed without CONFIRM (R595). -/
def opConfto (s : State) : State :=
  if s.updState = 3 ∧ s.fld SVC_CTRL SVC_CTRL_CONFTO ≠ 0 then s.setSvc { s.svc with reverting := true } else s

/-! ## Configuration banks (R597-R599) -/

/-- The signature record that CFGSIGN asks for stands last and verifies. -/
def bankSigned (b : Bank) : Bool :=
  match b.records.getLast? with
  | some (.signature ok) => ok
  | _ => false

/-- R599, for a booting image's CFGREAD and CFGFMT. -/
def State.bankOk (s : State) (b : Bank) (read fmt : Nat) : Bool :=
  b.magic == 0x43464742#32 && b.checkOk && (b.chipId == 0 || b.chipId == s.chipId)
    && decide (read ≤ b.cfgFmt.toNat ∧ b.cfgFmt.toNat ≤ fmt) && decide (b.len ≤ 1048512)
    && !b.records.contains .unknown && (!s.otp.cfgSign || bankSigned b)

/-- SAVECFG (R598): the bank goes to the bank that is not in use. -/
def opSaveCfg (b : Bank) (programOk : Bool) (s : State) : State :=
  s.svcData 6 (fun s =>
    if s.updState = 3 then s.svcEnd 6 3
    else match s.svc.running with
      | none => s.svcEnd 6 5
      | some i =>
        if !s.bankOk b i.cfgRead.toNat i.cfgFmt.toNat then s.svcEnd 6 1
        else if !programOk then (s.raise 362).svcEnd 6 4
        else
          let inB := s.bit SVC_CFGSTAT SVC_CFGSTAT_BANK
          let s := s.setFlash (if inB then { s.flash with bankA := some b } else { s.flash with bankB := some b })
          (s.setBit SVC_CFGSTAT (if inB then SVC_CFGSTAT_AVALID else SVC_CFGSTAT_BVALID) true).svcEnd 6 0)

/-! ## Life cycle and keys (R604, R605) -/

/-- A token is accepted for a command. -/
def State.tokenOk (s : State) (k : Token) (op arg : Nat) : Bool :=
  k.keyHashOk && !s.keyRevoked k.slot.toNat && k.sigOk && k.chipId == s.chipId && k.op.toNat == op && k.arg.toNat == arg

/-- The current state, or the pending one. -/
def State.lifeReached (s : State) : Nat := max s.life (lifeOf s.lifeWord).1

/-- LCADV (R604): the intent word, then the state word, each read back; `missed` and `missedState` are the bits that do not
take in this attempt. -/
def opLcadv (k : Token) (missed : Word) (missedState : Byte) (s : State) : State :=
  s.svcData 7 (fun s =>
    let target := s.arg % 8
    if !s.tokenOk k 7 target then s.svcEnd 7 1
    else if target ≤ s.lifeReached ∨ 4 < target then s.svcEnd 7 5
    else
      let s := s.setOtp (s.otp.intend target missed)
      if Tbl.getD s.otp.intents target 0 ≠ intentWord s.otp.chipId target then (s.raise 485).svcEnd 7 4
      else
        let s := s.setOtp (s.otp.program target missedState)
        if s.otp.word ≠ BitVec.ofNat 8 (lifeCode target) then (s.raise 485).svcEnd 7 4
        else (s.setBit SEC_LC SEC_LC_PENDING true).svcEnd 7 0)

/-- KEYREV (R605). -/
def opKeyrev (k : Token) (s : State) : State :=
  s.svcData 8 (fun s =>
    let slot := s.arg % 4
    let others : Bool := (List.range 4).any (fun j => j != slot && s.keyValid j && !s.keyRevoked j)
    if !s.tokenOk k 8 slot then s.svcEnd 8 1
    else if k.slot.toNat = slot ∨ !others then s.svcEnd 8 5
    else ((s.setOtp { s.otp with revoked := s.otp.revoked ||| BitVec.ofNat 4 (2 ^ slot) }).raise 486).svcEnd 8 0)

/-- OP 0 and 9-15 (R587). -/
def opReserved (op : Nat) (s : State) : State :=
  s.svcGo (fun s => if 1 ≤ op ∧ op ≤ 8 then s else s.svcEnd op 5)

/-- GO with an operation (R587): one that needs bytes of host memory or an answer of other chips begins, and its row brings
them. -/
def opSvcGo (op : Nat) (s : State) : State :=
  if op = 4 then opConfirm s
  else if op = 5 then opRevert s
  else if op = 0 ∨ 9 ≤ op then opReserved op s
  else if op = 2 ∨ op = 3 then s.svcGo (fun s => s.svcBegin op false)
  else s.svcRead op

/-! ## Cores (R578, R579) -/

def State.coreOn (s : State) (c : Nat) : Bool := !s.unitOos (0x80 + c) && !s.unitFailed (0x80 + c)

/-- The core that runs a service: its default core, or the next in-service one, counted cyclically (R578). -/
def State.coreFor (s : State) (svc : Nat) : Nat :=
  match ((List.range 4).map (fun i => (svc + i) % 4)).find? s.coreOn with
  | some c => c
  | none => svc

/-- The move of a service ends: MAP names its core, and INSVC the cores that run services. -/
def opServiceMove (svc : Nat) (s : State) : State :=
  let s := s.setFld SVC_CORE ⟨2 * svc, 2⟩ (s.coreFor svc)
  let run := fun c => (List.range 4).any (fun v => s.fld SVC_CORE ⟨2 * v, 2⟩ == c)
  s.setFld SVC_CORE SVC_CORE_INSVC ((List.range 4).foldl (fun n c => n + if run c then 2 ^ c else 0) 0)

/-- R579: a watchdog expires; a second time within 10 s the core has failed. -/
def opWdog (c : Nat) (s : State) : State :=
  let again : Bool := match Tbl.find? s.svc.wdog c with
    | some t => decide (s.now < t + 10000000000)
    | none => false
  let s := s.setSvc { s.svc with wdog := Tbl.put s.svc.wdog c s.now }
  let s := (s.setBit SVC_HIST SVC_HIST_WDOG true).raise 360
  if again && !s.unitFailed (0x80 + c) then
    let s := s.setFailed (0x80 + c) true
    s.when (decide (2 ≤ ((List.range 4).filter (fun j => s.unitFailed (0x80 + j))).length)) (fun s => s.promote 360)
  else s

/-! ## The commands -/

def execLoadimg (i : Image) (s : State) : Host.Outcome State Fault Refusal := done s (opLoadImg i s)
def execSlotProgramDone (ok : Bool) (s : State) : Host.Outcome State Fault Refusal := done s (opSlotDone ok s)
def execDistrib (answer : Fin 4) (s : State) : Host.Outcome State Fault Refusal := done s (opDistrib answer.val s)
def execDistribImageReceived (src : Node) (i : Image) (onward : BitVec 4) (retry : Bool) (s : State) :
    Host.Outcome State Fault Refusal :=
  done s (opImageReceived src.val i onward.toNat retry s)
def execHandover (peer : Word) (s : State) : Host.Outcome State Fault Refusal := done s (opHandover peer s)
def execShadowEnd (s : State) : Host.Outcome State Fault Refusal := done s (opShadowEnd s)
def execSvcUpdfail (s : State) : Host.Outcome State Fault Refusal := done s (opUpdFail s)
def execConfirm (s : State) : Host.Outcome State Fault Refusal := done s (opConfirm s)
def execRevert (s : State) : Host.Outcome State Fault Refusal := done s (opRevert s)
def execConftoExpiry (s : State) : Host.Outcome State Fault Refusal := done s (opConfto s)
def execSavecfg (b : Bank) (programOk : Bool) (s : State) : Host.Outcome State Fault Refusal :=
  done s (opSaveCfg b programOk s)
def execLcadv (k : Token) (missed : Word) (missedState : Byte) (s : State) : Host.Outcome State Fault Refusal :=
  done s (opLcadv k missed missedState s)
def execKeyrev (k : Token) (s : State) : Host.Outcome State Fault Refusal := done s (opKeyrev k s)
def execSvcCmdReserved (op : BitVec 4) (s : State) : Host.Outcome State Fault Refusal := done s (opReserved op.toNat s)
def execSvcWdog (c : Fin 4) (s : State) : Host.Outcome State Fault Refusal := done s (opWdog c.val s)
def execServiceMoveDone (svc : Fin 4) (s : State) : Host.Outcome State Fault Refusal := done s (opServiceMove svc.val s)

end Sys2Proof.Machine
end

