-- ==== Sys2Proof/Machine/Power.lean ====
section
/-! DEFINITION. Power states, shut-down, resets, straps, temperature and the gated clock domains (R485-R505). -/

namespace Sys2Proof.Machine

open Sys2Proof

def State.setPwr (s : State) (x : Pwr) : State := { s with pwr := x }
def State.pwrState (s : State) : Nat := s.fld PWR_STAT PWR_STAT_STATE
def State.setPwrState (s : State) (n : Nat) : State := s.setFld PWR_STAT PWR_STAT_STATE n

/-- R489, R493: a refused PWR command. -/
def State.pwrRefuse (s : State) : State := (s.setBit PWR_ERR PWR_ERR_CFGREJ true).raise 452

/-- A shut-down is in progress or has ended: every further PWR_CMD write is refused (R493). -/
def State.shutting (s : State) : Bool := decide (4 ≤ s.pwrState)

/-! ## Fallow (R489-R494) -/

/-- What refuses entry into Fallow (R489, R596). -/
def State.fallowRefused (s : State) : Bool :=
  s.pwrState != 0 || s.bit BST_STAT BST_STAT_FULLRUN
    || (s.bit FOV_CFG FOV_CFG_PROT && s.bit FOV_STAT FOV_STAT_ACTIVE)
    || s.sal.slots.any (fun e => e.2.stage != 0) || !s.sal.migs.isEmpty || s.updState == 2

def opFallow (s : State) : State :=
  if s.fallowRefused then s.pwrRefuse
  else ((s.setPwr { s.pwr with wakeLatched := false }).abortWaits.setPwrState 1).muffle

/-- Media lanes of wake ports, which keep running (R344, R485). -/
def State.wakeLanes (s : State) : List Nat :=
  ((List.range 64).filter (fun p => s.portOn p && s.bit (MP_CFG p) MP_CFG_WAKEEN)).flatMap (fun p => portLanes p (s.rd (MP_CFG p)))

/-- A link leaves ACTIVE, or its training, for LISTENING (R404, R490, R492). -/
def State.stopLink (s : State) (k : Nat) : State :=
  if s.linkState k < 2 ∨ s.linkActive k then s.linkLeaves k 1
  else ((s.setFld (BLK_L_STAT k) BLK_L_STAT_STATE 1).setLink k { s.link k with doneLanes := [], good := 0 }).unsync k

/-- Media and fabric transmitters idle, and links leave ACTIVE (R490, R404, R405). -/
def State.stopOutputs (s : State) : State :=
  let s := s.each (List.range 256) (fun s n => s.setBit (ML_STAT n) ML_STAT_TXIDLE true)
  s.each (List.range 12) State.stopLink

/-- Receivers and group PLLs stop but for those of wake ports, and so do the other ports (R344, R485, R490). -/
def State.stopLanes (s : State) : State :=
  let keep := s.wakeLanes
  let s := s.each ((List.range 256).filter (fun n => !keep.contains n && s.laneMode n != 0)) State.restartRx
  let run := fun g => keep.any (fun n => n / 16 == g)
  let s := s.each ((List.range 16).filter (fun g => !run g)) (fun s g => s.setBit MLN_GRPSTAT ⟨g, 1⟩ false)
  let s := s.each ((List.range 64).filter (fun p => s.portOn p && !s.bit (MP_CFG p) MP_CFG_WAKEEN)) State.portDown
  s.wr PWR_DOMSTAT (BitVec.ofNat 32 (nodeMask ((List.range 16).filter run)))

/-- The one-shot of command `id` is armed on an output, or waits there. -/
def armedBy (id : Nat) (x : TpoState) : Bool :=
  let f := fun (a : Option Arming) => (a.bind (fun a => a.cmd)) == some id
  f x.arming || (match x.next with
    | some a => f a
    | none => false)

/-- A following base holds over. -/
def State.holdBase (s : State) (b : Nat) : State := if 2 ≤ s.tbMode b then s.enterHoldover b else s

/-- An exit that was latched during entry begins at once (R494). -/
def State.latchedExit (s : State) : State :=
  if s.pwr.wakeLatched then (s.setPwr { s.pwr with wakeLatched := false }).setPwrState 3 else s

/-- Commands that were dispatched have completed; a one-shot TIME_ARM may wait, as armed outputs keep pulsing (R491). -/
def State.quietForFallow (s : State) : Bool :=
  s.hif.inflight.all (fun c => s.tim.tpos.any (fun e => armedBy c.id e.2))

/-- R490, R491: STATE becomes FALLOW. -/
def opFallowReached (s : State) : State :=
  if s.pwrState ≠ 1 || !s.quietForFallow then s
  else ((s.stopOutputs.stopLanes.floatAudio.each (List.range 4) State.holdBase).setPwrState 2).emitGens.latchedExit

/-- PWR_CMD.ACTIVE (R492-R494). -/
def opActive (s : State) : State := if s.shutting then s.pwrRefuse else s.leaveFallow

/-- The domains that are in use start (R488). -/
def State.startUsed (s : State) : State :=
  let s := s.each ((List.range 36).map (0x20 + ·)) (fun s u => s.when (s.unitInService u) (fun s => s.startUnit u))
  s.each (List.range 8) (fun s p =>
    s.when (s.bit (AUD_TDM_STAT p) AUD_TDM_STAT_ENABLED) (fun s => s.startDomain (domAudm p)))

/-- R492: STATE becomes ACTIVE; memberships are reported again. -/
def opActiveReached (s : State) : State :=
  if s.pwrState ≠ 3 then s
  else
    let s := (s.setPwrState 0).startUsed.emitGens
    let s := s.each ((List.range 8).filter (fun p => s.bit (AUD_TDM_STAT p) AUD_TDM_STAT_ENABLED)) State.drivePort
    let s := s.each ((List.range 4).filter s.pdmOn) (fun s n => s.emit (.pin (.pdmClk n) true))
    -- R573: a standby that was in Fallow loads the active chip's state again
    let s := s.when (s.fovState == 5) State.enterSync
    { s with ess := { s.ess with rx := s.ess.rx.map (fun e =>
      (e.1, if e.2.now.isSome then { e.2 with reportsA := 0, reportsB := 0 } else e.2)) } }

/-! ## Shut-down (R493, R553) -/

def opShutdown (skipBst : Bool) (s : State) : State :=
  if s.pwrState = 0 ∨ s.pwrState = 2 then
    let s := ((s.setPwrState 4).when (s.pwrState == 0) (fun s => s.muffle.floatAudio)).stopOutputs.abortWaits
    s.setBit BST_STAT BST_STAT_FULLRUN (!skipBst)
  else s.pwrRefuse

/-- The units whose BST_FAILED bit is set. -/
def State.failedUnits (s : State) : List Nat := (List.range 256).filter s.unitFailed

/-- The bytes of a fast-start record (R553), whose CHECK is the CRC-32C over bytes 0-55 and REPMAP. -/
def FastRec.bytes (f : FastRec) : List Byte :=
  let head := leBytes 0x46535452 4 ++ leBytes 1 4 ++ leBytes f.chip.toNat 8 ++ leBytes f.fwver.toNat 4
    ++ leBytes ((f.failed.map (fun u => 2 ^ u)).sum) 32 ++ leBytes f.rows.length 4
  let map := f.rows.flatMap (fun r => leBytes r 2)
  head ++ leBytes (if f.consumed then 0 else 0xFFFFFFFF) 4 ++ leBytes 0 4 ++ map
    ++ leBytes (crc32c ((head ++ map).map BitVec.toNat)) 4

/-- The record that a shut-down writes (R553). -/
def State.fastRecord (s : State) : FastRec := ⟨s.otp.chipId, s.rd SVC_FWVER, s.failedUnits, s.bst.repaired, false⟩

/-- Shut-down ends: the fast-start record is written, and the core rails may be removed. -/
def opOffready (s : State) : State :=
  if s.pwrState ≠ 4 then s
  else
    let s := s.setBit BST_STAT BST_STAT_FULLRUN false
    let f := s.fastRecord
    let s := (s.setFlash { s.flash with fast := some f }).emit (.flash 0x10000 f.bytes)
    (s.setPwrState 5).setBit PWR_STAT PWR_STAT_OFFREADY true

/-! ## Resets (R495, R496, R502) -/

/-- The registers of the AON island (R486, R504). -/
def isAon (a : Nat) : Bool :=
  a == PWR_RSTCAUSE || a == PWR_WAKETMR || decide (PWR_RET 0 ≤ a ∧ a ≤ PWR_RET 7)

/-- Outputs that were driven go to the state of R502. -/
def State.releasePins (s : State) : State :=
  let s := (s.driveFault false).fovPins s.fovState 0
  let s := s.when (s.bit MAC_WAKESTAT MAC_WAKESTAT_VALID) (fun s => s.emit (.pin .wakeN false))
  let s := s.each ((List.range 16).filter (fun k => (s.tpoLevel k).isSome)) (fun s k => s.emit (.tpo k none))
  let s := s.each ((List.range 4).filter (fun k => (s.genDriven k).isSome)) (fun s k => s.emit (.genout k false none))
  s.floatAudio

/-- Every block but AON, OTP and flash returns to its reset state (R495). -/
def State.coldReset (s : State) : State :=
  let s := s.releasePins
  { State.reset with
    pending := s.pending, now := s.now, out := s.out, freeCtr := s.freeCtr, flash := s.flash, otp := s.otp
    regs := s.regs.filter (fun e => isAon e.1)
    pwr := { s.pwr with wakeLatched := false, barred := false } }

/-- The WONCE fields of a register, every other bit at its reset value (R11). -/
def onceFields (a : Nat) (v : Word) : Word :=
  match findReg a with
  | none => resetAt a
  | some (d, _, _) => d.fields.foldl (fun w f => if f.2 = .wonce then f.1.set w (f.1.get v) else w) (resetAt a)

/-- Registers that a warm reset keeps whole: AON, the Hedgerow records (R537), and the HIF block and tenant pages, which
a PF FLR has just returned to their values (R109). -/
def warmKeeps (a : Nat) : Bool :=
  isAon a || a == HDG_FIRST || a == HDG_FIRSTTS || a == HDG_FIRSTSEV || a == HDG_FIRSTSEVTS
    || decide (0x100000 ≤ a ∧ a < 0x200000) || decide (0x100000000 ≤ a ∧ a < 0x200000000)

/-- What a warm reset leaves of a register. -/
def warmValue (a : Nat) (v : Word) : Word :=
  if warmKeeps a then v
  else if a = HDG_STAT then HDG_STAT_SAFESRC.set (resetAt a) (HDG_STAT_SAFESRC.get v)
  else if a = PWR_STAT then
    PWR_STAT_BOOTBAD.set (PWR_STAT_BOOT.set (resetAt a) (PWR_STAT_BOOT.get v)) (PWR_STAT_BOOTBAD.get v)
  else if a = SEC_LC then SEC_LC_PENDING.set (resetAt a) (SEC_LC_PENDING.get v)
  else onceFields a v

/-- Strap code 3: boot code joins BL0-BL7 into link L0 (R586). -/
def State.bootFabric (s : State) : State :=
  if s.bootCode ≠ 3 then s
  else
    let s := s.each (List.range 8) (fun s j => s.setFld (BLK_LANE_CFG j) BLK_LANE_CFG_LINK 0)
    let s := (s.setBit (BLK_L_CFG 0) BLK_L_CFG_EN true).refreshLanes
    (s.startDomain (domFlg 0)).setFld (BLK_L_STAT 0) BLK_L_STAT_STATE 1

/-- The warm reset: HIF acts as for a PF FLR (R495, R496). -/
def State.warmReset (s : State) : State :=
  let s := s.releasePins.pfReset
  let regs := s.regs.foldl (fun t e => Tbl.putD t e.1 (warmValue e.1 e.2) (resetAt e.1)) []
  let n : State :=
    { State.reset with
      pending := s.pending, now := s.now, out := s.out, freeCtr := s.freeCtr, flash := s.flash, otp := s.otp
      regs := regs
      hif := { s.hif with inflight := [], lastTenant := [], lastRing := [], slot := 0 }
      pwr := { s.pwr with wakeLatched := false, barred := true } }
  (n.setBit PWR_RSTCAUSE PWR_RSTCAUSE_WARM true).bootFabric

def opWarm (s : State) : State := if s.shutting then s.pwrRefuse else s.warmReset

/-- VAON rises from Off: everything but OTP and flash (R495). -/
def opPowerOn (s : State) : State :=
  let s := s.releasePins
  { State.reset with
    pending := s.pending, now := s.now, out := s.out, freeCtr := s.freeCtr, flash := s.flash, otp := s.otp }

/-- POR_N falls (R495, R503). -/
def opPorLow (s : State) : State :=
  if s.pwr.porLow then s
  else
    let s := s.coldReset
    let s := s.setPwr { s.pwr with porLow := true, held := false }
    s.setBit PWR_RSTCAUSE PWR_RSTCAUSE_POR true

/-- The life-cycle state of a cold start (R602): complete intents above the state word's state roll forward. -/
def State.resolveLife (s : State) : State :=
  let base := (lifeOf s.lifeWord).1
  let top := s.otp.targets.foldl max base
  let rolled : Bool := decide (base < top)
  let s := s.setOtp { (if rolled then s.otp.program top 0 else s.otp) with resolved := some top }
  (s.setBit SEC_LC SEC_LC_ROLLFWD rolled).setBit SEC_LC SEC_LC_PENDING false

/-- The strap code in use (R498, R603). -/
def strapCode (raw life : Nat) : Nat :=
  if 6 ≤ raw then 0 else if raw = 5 ∧ (life = 2 ∨ life = 4) then 0 else raw

/-- What the wake timer has left when the core rails come back: it counted down once per second
    while they were down (R486). -/
def State.wakeCounted (s : State) : State :=
  match s.pwr.downAt with
  | none => s
  | some t => s.wr PWR_WAKETMR (BitVec.ofNat 32 ((s.rd PWR_WAKETMR).toNat - (s.now - t) / 1000000000))

/-- POR_N rises: straps, reset cause, life cycle (R498, R499, R504). -/
def opPorRise (raw : Nat) (s : State) : State :=
  if !s.pwr.porLow then s
  else
    let s := s.when (!s.pwr.core) (fun s => s.setBit PWR_RSTCAUSE PWR_RSTCAUSE_DORMUP true)
    let s := s.wakeCounted
    let s := s.when s.pwr.wakeN (fun s => s.emit (.pin .wakeN false))
    let s := s.resolveLife
    let code := strapCode raw s.life
    let s := s.setPwr { s.pwr with porLow := false, core := true, wakeN := false, downAt := none, barred := code == 2 || code == 5 || s.life == 4 }
    let s := s.setFld PWR_STAT PWR_STAT_BOOT code
    (s.setBit PWR_STAT PWR_STAT_BOOTBAD (decide (6 ≤ raw))).bootFabric

/-- A core rail leaves its range, and the board drives POR_N low (R516, R517). -/
def opRailFail (s : State) : State :=
  let s := if s.pwr.porLow then s else s.coldReset
  s.setPwr { s.pwr with
    porLow := true, held := false, core := false
    downAt := if s.pwr.core then some s.now else s.pwr.downAt }

/-- VAON is lost: AON content is gone, and the next start reports OFFUP (R517). -/
def opVaonLoss (s : State) : State :=
  let s := s.when s.pwr.wakeN (fun s => s.emit (.pin .wakeN false))
  (s.resetRegs isAon).setPwr { s.pwr with thermNext := false, wakeN := false }

/-- The wake timer reaches 0 while the core rails are down (R486). -/
def opWakeTimer (s : State) : State :=
  if s.pwr.core || s.rd PWR_WAKETMR == 0 then s
  else ((s.wr PWR_WAKETMR 0).setPwr { s.pwr with wakeN := true }).emit (.pin .wakeN true)

/-! ## Temperature (R503) -/

/-- Thermal shutdown: a cold reset, held until POR_N falls and rises. -/
def opThermsd (s : State) : State :=
  let s := s.coldReset
  let s := s.setPwr { s.pwr with held := true, thermNext := true }
  (s.setBit PWR_RSTCAUSE PWR_RSTCAUSE_THERM true).driveFault true

/-- THERMWARN in °C, clamped to 90-125 (R504). -/
def State.thermWarn (s : State) : Nat := min 125 (max 90 (s.fld PWR_CTRL PWR_CTRL_THERMWARN))

def opTemperature (tj : Nat) (s : State) : State :=
  let s := s.setFld PWR_TEMP PWR_TEMP_TJ tj
  let x := signed 12 tj
  let warn : Int := (8 * s.thermWarn : Nat)
  let s := s.when (decide (warn ≤ x) && !s.pwr.thermN) (fun s => (s.setPwr { s.pwr with thermN := true }).emit (.pin .thermN true))
  if 1080 ≤ x then opThermsd s
  else if warn ≤ x then
    if s.bit PWR_STAT PWR_STAT_HOT then s else (s.setBit PWR_STAT PWR_STAT_HOT true).raise 448
  else
    let s := s.setBit PWR_STAT PWR_STAT_HOT false
    s.when (s.pwr.thermN && decide (x < warn - 40))
      (fun s => (s.setPwr { s.pwr with thermN := false }).emit (.pin .thermN false))

/-! ## Gated domains (R488) -/

/-- The domain's bit in PWR_DOMSTAT and whether something uses it; a slice uses its unit's domain (R549). -/
def State.domainUse (s : State) : StopDomain → Nat × Bool
  | .mlg g => (domMlg g.val, s.unitInService (unitMlg g.val) || s.bst.slicing.contains (unitMlg g.val)
      || s.fullTesting (unitMlg g.val))
  | .flg f => (domFlg f.val, s.unitInService (unitFlg f.val) || s.bst.slicing.contains (unitFlg f.val)
      || s.fullTesting (unitFlg f.val))
  | .audm n => (domAudm n.val, s.bit (AUD_TDM_STAT n.val) AUD_TDM_STAT_ENABLED)
  | .cmp k => (domCmp k.val, (List.range 4).any (fun i =>
      let u := unitEngine (4 * k.val + i)
      s.unitInService u || s.bst.slicing.contains u || s.fullTesting u))

/-- 10 ms unused: the PLL stops, or the clock gate closes. -/
def opDomainStop (d : StopDomain) (s : State) : State :=
  let x := s.domainUse d
  if x.2 then s
  else
    let s := s.setBit PWR_DOMSTAT ⟨x.1, 1⟩ false
    match d with
    | .mlg g => s.setBit MLN_GRPSTAT ⟨g.val, 1⟩ false
    | _ => s

/-! ## The commands -/

def execFallow (s : State) : Host.Outcome State Fault Refusal := done s (opFallow s)
def execFallowReached (s : State) : Host.Outcome State Fault Refusal := done s (opFallowReached s)
def execActive (s : State) : Host.Outcome State Fault Refusal := done s (opActive s)
def execActiveReached (s : State) : Host.Outcome State Fault Refusal := done s (opActiveReached s)
def execShutdown (skipBst : Bool) (s : State) : Host.Outcome State Fault Refusal := done s (opShutdown skipBst s)
def execOffready (s : State) : Host.Outcome State Fault Refusal := done s (opOffready s)
def execWarm (s : State) : Host.Outcome State Fault Refusal := done s (opWarm s)
def execPowerOn (s : State) : Host.Outcome State Fault Refusal := done s (opPowerOn s)
def execPorNLow (s : State) : Host.Outcome State Fault Refusal := done s (opPorLow s)
def execPorNRise (straps : BitVec 3) (s : State) : Host.Outcome State Fault Refusal := done s (opPorRise straps.toNat s)
/-- R495: TRST_N resets the test logic only. -/
def execTrstN (s : State) : Host.Outcome State Fault Refusal := done s s
def execWakeTimerExpiry (s : State) : Host.Outcome State Fault Refusal := done s (opWakeTimer s)
def execTemperatureUpdate (tj : BitVec 12) (s : State) : Host.Outcome State Fault Refusal :=
  done s (opTemperature tj.toNat s)
def execPwrThermsd (s : State) : Host.Outcome State Fault Refusal := done s (opThermsd s)
def execCoreRailFail (s : State) : Host.Outcome State Fault Refusal := done s (opRailFail s)
def execDomainStop (d : StopDomain) (s : State) : Host.Outcome State Fault Refusal := done s (opDomainStop d s)
def execVaonLoss (s : State) : Host.Outcome State Fault Refusal := done s (opVaonLoss s)

end Sys2Proof.Machine
end

