-- ==== Sys2Proof/Machine/Commands.lean ====
section
/-! DEFINITION. The command processor: NOP and QUERY (R135, R160), arbitration among ring heads and dispatch (R82-R87,
R616-R618), and what a standby does with the changes that the active chip mirrors (R571-R573). -/

namespace Sys2Proof.Machine

open Sys2Proof

/-! ## NOP and QUERY -/

def nopBody (e : Entry) (id : Nat) (s : State) : State :=
  s.checked id [ (!onlyFields e [], .rejFormat, 0) ] (fun s => s.complete id .ok 0 0)

/-- The INDEX of a QUERY lies in the range of its WHAT (R160). -/
def queryRange (what i : Nat) : Bool :=
  if what ≤ 1 then decide (i < 4096)
  else if what = 2 then decide (i % 65536 < kindSize (i / 65536))
  else decide (what ≤ 4 ∧ i ≤ 4)

/-- RESULT and EPOCH of a QUERY of tenant `t` (R160). -/
def State.queryResult (s : State) (t what i : Nat) : Nat × Nat :=
  if what = 0 then
    (match s.entryOf i with
      | some x => x.1 + 2 ^ 31
      | none => 0, s.xptEpoch (s.firstOf i))
  else if what = 1 then ((s.detectedAt i).high, 0)
  else if what = 2 then (s.ownerOf (i / 65536) (i % 65536), 0)
  else if what = 3 then (s.use t i, 0)
  else (s.cap i, 0)

def queryBody (t : Nat) (e : Entry) (id : Nat) (s : State) : State :=
  let what := bitsAt e 8 0 8
  let i := bitsAt e 12 0 32
  s.checked id
    [ (!onlyFields e [(8, 0, 8), (12, 0, 32)], .rejFormat, 0), (!queryRange what i, .rejFormat, 0) ]
    (fun s => let q := s.queryResult t what i; s.complete id .ok q.1 q.2)

/-! ## The opcodes (R135) -/

/-- The effect of a command of tenant `t` by its opcode; an opcode that R135 does not list completes with
REJ_FORMAT. -/
def commandBody (t : Nat) (e : Entry) (pb : BlockRead) (id : Nat) (s : State) : State :=
  let op := opcodeOf e
  if op = 0x00 then nopBody e id s
  else if op = 0x01 then routeBody t e id s
  else if op = 0x02 then unrouteBody t e id s
  else if op = 0x03 then salvoOpenBody t e id s
  else if op = 0x04 then salvoCommitBody t e id s
  else if op = 0x05 then salvoAbortBody t e id s
  else if op = 0x10 then canvasDefBody t e id s
  else if op = 0x11 then layerBody t e id s
  else if op = 0x12 then sliceBody t e id s
  else if op = 0x13 then stillLoadBody t e id s
  else if op = 0x20 then audMapBody t e id s
  else if op = 0x21 then audPortBody t e id s
  else if op = 0x30 then flowRxBody t e pb id s
  else if op = 0x31 then flowTxBody t e pb id s
  else if op = 0x40 then frameGrabBody t e id s
  else if op = 0x41 then migrateBody t e id s
  else if op = 0x50 then timeArmBody t e id s
  else if op = 0x60 then bistReqBody t e id s
  else if op = 0x70 then queryBody t e id s
  else s.complete id .rejFormat 0 0

/-! ## Dispatch (R82-R87) -/

/-- R82-R87: one dispatch slot. -/
def opCommandDispatch (pb : BlockRead) (s : State) : State :=
  match s.arbitrate.2 with
  | none => s.arbitrate.1
  | some x => match s.head x.1 x.2 with
    | none => s.arbitrate.1
    | some e => s.arbitrate.1.dispatch x.1 x.2 e pb (commandBody x.1 e pb)

/-! ## Mirrored changes on the standby (R571-R573) -/

/-- Run a change in a state in which R574 does not refuse it. -/
def State.asMirror (s : State) (f : State → State) : State :=
  let x := s.fovState
  let s := f (s.setFld FOV_STAT FOV_STAT_STATE 3)
  if s.fovState = 3 then s.setFld FOV_STAT FOV_STAT_STATE x else s

/-- A number for a mirrored command: nothing completes for it here. -/
def State.ghostId (s : State) : State := s.setHif { s.hif with nextId := s.hif.nextId + 1 }

/-- An object changes owner as on the active chip; the charges of a revoked one go to TN0 (R123). -/
def State.mirrorOwner (s : State) (kind i t : Nat) : State :=
  let s := s.setOwner kind i t
  if t = 0 then (s.moveCharges kind i 1).when (kind == 7) (fun s => s.disarm i) else s

/-- A still stands in memory as on the active chip. -/
def State.mirrorStill (s : State) (n : Nat) (x : Still) : State :=
  let s := s.release (fun h => h == .still n)
  let s := s.alloc (s.ownerOf 8 n) (.still n) x.charge
  s.setCmp { s.cmp with stills := Tbl.put s.cmp.stills n x }

/-- The window of the signature regions (R624). -/
def regionWord (a : Nat) : Option (Nat × Nat) :=
  if 0x2C00000 ≤ a ∧ a < 0x2E00000 then some ((a - 0x2C00000) / 64, (a - 0x2C00000) % 64 / 4) else none

def State.applyMirror (s : State) : MirrorRecord → State
  | .register off v =>
    match regionWord off.toNat with
    | some (r, k) => s.srWrite r k v
    | none => s.fieldWrite off.toNat v
  | .owner kind i t => s.mirrorOwner kind.toNat i t.val
  | .command t e pb => s.ghostId.asMirror (commandBody t.val e ⟨pb, 0⟩ s.hif.nextId)
  | .sequence k q => s.setTx k.val { s.tx k.val with seq := q.toNat }
  | .snapshotEnd => { s with fov := { s.fov with snapshot := true } }
  | .still n w h sampling transfer colour data =>
    s.mirrorStill n.val ⟨w.toNat, h.toNat, sampling.toNat, transfer.toNat, if colour then 1 else 0, data⟩

/-- R572: a record arrives on a chip in SYNC or STANDBY; a late one counts and applies at the next such point. -/
def opMirrorRecord (m : MirrorRecord) (late : Bool) (s : State) : State :=
  if s.standby then (s.when late (fun s => s.inc FOV_LATEMIR FOV_LATEMIR_COUNT)).applyMirror m else s

/-! ## The commands -/

def execNop (t : Tenant) (r : CmdRing) (e : Entry) (s : State) : Host.Outcome State Fault Refusal :=
  done s (s.command 0x00 t.val r.val e (nopBody e))
def execQuery (t : Tenant) (r : CmdRing) (e : Entry) (s : State) : Host.Outcome State Fault Refusal :=
  done s (s.command 0x70 t.val r.val e (queryBody t.val e))
def execCommandDispatch (pb : BlockRead) (s : State) : Host.Outcome State Fault Refusal :=
  done s (opCommandDispatch pb s)
def execMirrorRecord (m : MirrorRecord) (late : Bool) (s : State) : Host.Outcome State Fault Refusal :=
  done s (opMirrorRecord m late s)

end Sys2Proof.Machine
end

