-- ==== Sys2Proof/Machine/RegWrite.lean ====
section
/-! DEFINITION. Register accesses over the whole map (R6-R13, R59-R64, R622-R626): what a write of a word does at each
address, what a read returns, and remote register accesses (R409). -/

namespace Sys2Proof.Machine

open Sys2Proof

/-! ## Reads -/

/-- Word `k` of a wide record. -/
def wordAt {n : Nat} (v : BitVec n) (k : Nat) : Nat := v.toNat / 2 ^ (32 * k) % 2 ^ 32

/-- 32 one-bit answers as a word. -/
def bitWord (f : Nat → Bool) : Nat := nodeMask ((List.range 32).filter f)

/-- The tables behind the windows (R624); the offset is counted from 0x0200_0000. -/
def State.window32 (s : State) (o : Nat) : Option Nat :=
  let e := o % 0x200000
  if o < 0x200000 then
    let own := fun (i : Nat) => if i % 65536 < kindSize (i / 65536) then s.ownerOf (i / 65536) (i % 65536) else 0
    some (own (e / 2) + 2 ^ 16 * own (e / 2 + 1))
  else if o < 0x400000 then
    let d := e / 16
    some (if 4096 ≤ d then 0 else if e % 16 = 0 then (s.rtData d).toNat
      else if e % 16 = 4 then s.xptEpoch (s.firstOf d) else 0)
  else if o < 0x600000 then some (if e / 4 < 4096 then s.fanout (e / 4) else 0)
  else if o < 0x800000 then
    let n := opAlIdx (BitVec.ofNat 32 (e / 8)) s
    some (if 4096 ≤ e / 8 then 0 else (n.rd (if e % 8 = 0 then FSA_AL_STAT else FSA_AL_SYNC)).toNat)
  else if 0xA00000 ≤ o ∧ o < 0xC00000 then
    let k := e / 64
    some (match Tbl.find? (s.canvas (k / 32)).layers (k % 32) with
      | some l => wordAt l.raw (e % 64 / 4)
      | none => 0)
  else if 0xE00000 ≤ o ∧ o < 0x1000000 then some (wordAt (s.rx (e / 256)).last (e % 256 / 4))
  else if 0x1000000 ≤ o ∧ o < 0x1200000 then some (wordAt (s.tx (e / 256)).last (e % 256 / 4))
  else if 0x1200000 ≤ o ∧ o < 0x1400000 then
    some (if e / 4 < 8192 then ((opMapIdx (BitVec.ofNat 32 (e / 4)) s).rd AUD_MAP_DATA).toNat else 0)
  else none

/-- Milliseconds of the lease that remain (R565, R576). -/
def State.leaseLeft (s : State) : Nat :=
  if s.fovLease = 0 then 0 else s.fov.leaseMs - (s.now - s.fov.leaseStart) / 1000000

/-- Seconds to the expiry of CONFTO (R595, R606). -/
def State.confLeft (s : State) : Nat :=
  let t := s.fld SVC_CTRL SVC_CTRL_CONFTO
  if s.updState = 3 ∧ t ≠ 0 then t - (s.now - s.svc.confAt) / 1000000000 else 0

/-- EQVAL as it reads: under ADAPT 2 the equaliser has tracked since it was set, by at most one step in 100 µs; where it stands is
a free value (R307, log entry 29). -/
def State.eqNow (s : State) (n : Nat) : Nat :=
  let v := s.fld (ML_STAT n) ML_STAT_EQVAL
  if s.fld (ML_RXCFG n) ML_RXCFG_ADAPT ≠ 2 ∨ !s.statBit n ML_STAT_LOCK then v
  else
    let d := (s.now - (s.lane n).eqAt) / 100000
    let lo := v - d
    lo + (Config.freeWord (2 ^ 62 + 256 * s.now + n)).toNat % (min 48 (v + d) - lo + 1)

/-- The registers whose value is a view of other state; `none` for those that hold their value themselves. -/
def State.viewOf (s : State) (base i j : Nat) : Option Word :=
  let w := fun (n : Nat) => some (BitVec.ofNat 32 n)
  if base = TPG_STAT 0 then w ((s.rd (TEN_CFG i)).toNat % 16)
  else if base = TEN_USE 0 0 then w (s.use i j)
  else if base = RING_STAT 0 0 then
    some (RING_STAT_FULL.set (s.rd (RING_STAT i j)) (if 8 ≤ j ∧ s.ringOn i j ∧ s.ringFull i j then 1 else 0))
  else if base = HIF_DMA_STAT 0 ∧ i < 48 then
    some (HIF_DMA_STAT_STATE.set (s.rd (HIF_DMA_STAT i)) (if s.channelsBusy.contains i then 1 else 0))
  else if base = FSA_POOL then w (s.totalUse 0 + 2 ^ 16 * s.cap 0)
  else if base = FSA_DL_DATA then some (s.rd (FSA_DLW (s.fld FSA_DL_IDX FSA_DL_IDX_DST)))
  else if base = CMP_SR_CFG then some (s.rd (srWord s.srIdx 0))
  else if base = CMP_SR_POS then some (s.rd (srWord s.srIdx 1))
  else if base = CMP_SR_SIZE then some (s.rd (srWord s.srIdx 2))
  else if base = CMP_SR_STILL then some (s.rd (srWord s.srIdx 3))
  else if base = CMP_SR_EXP 0 then some (s.rd (CMP_SRW_EXP s.srIdx i))
  else if base = CMP_SR_STAT then some (s.rd (CMP_SRW_STAT s.srIdx))
  else if base = CMP_SR_CRC then some (s.rd (CMP_SRW_CRC s.srIdx))
  else if base = ML_STAT 0 then some (ML_STAT_EQVAL.set (s.rd (ML_STAT i)) (s.eqNow i))
  else if base = MLN_HISTSUM 0 then
    w (bitWord (fun b => (s.rd (ML_HIST (32 * i + b)) &&& s.rd (ML_HDGEN (32 * i + b))) != 0))
  else if base = HDG_STICKY 0 then w (bitWord (fun b => s.bit (HDG_SRC_STAT (32 * i + b)) HDG_SRC_STAT_STICKY))
  else if base = HDG_SEV 0 then w (bitWord (fun b => decide (2 ≤ s.hdgState (32 * i + b))))
  else if base = HDG_SRC_STAT 0 then
    some (HDG_SRC_STAT_HELD.set (s.rd (HDG_SRC_STAT i)) (if s.held i then 1 else 0))
  else if base = BLK_NODE then
    some (if s.fld BLK_NODE BLK_NODE_EXPNODES = 0 then BLK_NODE_FSTATE.set (s.rd BLK_NODE) 2 else s.rd BLK_NODE)
  else if base = AUD_DE_CFG then some (s.rd (AUD_DEW_CFG (s.fld AUD_DE_IDX AUD_DE_IDX_DE)))
  else if base = CLK_FREQ then some (Config.freeWord s.freeCtr)
  else if base = FOV_LEASELEFT then w s.leaseLeft
  else if base = SVC_UPD then some (SVC_UPD_LEFT.set (s.rd SVC_UPD) s.confLeft)
  else if base = SEC_LC then some (SEC_LC_STATE.set (s.rd SEC_LC) s.life)
  else if base = SEC_KEY then
    some (SEC_KEY_REVOKED.set (SEC_KEY_VALID.set (s.rd SEC_KEY) s.otp.keyValid.toNat) s.otp.revoked.toNat)
  else if base = BLK_CHIPID_LO then w (s.otp.chipId.toNat % 2 ^ 32)
  else if base = BLK_CHIPID_HI then w (s.otp.chipId.toNat / 2 ^ 32)
  else if base = SEC_SVN then w s.minSvn
  else if base = SEC_POLICY then w (if s.otp.cfgSign then 1 else 0)
  else none

/-- The bits that always read 0: a WO field returns 0 (R9). -/
def readMask (d : RegDesc) (v : Word) : Word :=
  d.fields.foldl (fun w f => if f.2 = .wo then f.1.set w 0 else w) v

/-- R496, R586, R603: until READY only PWR, SVC and SEC answer. -/
def State.barredAt (s : State) (a : Nat) : Bool :=
  s.pwr.barred && decide (a < 0x100000000) && !decide (0x1380000 ≤ a ∧ a < 0x1500000)

/-- The pending-bit array of function `t` (R63, R91). -/
def State.pba (s : State) (t half : Nat) : Nat :=
  bitWord (fun b => s.hif.msixPending.contains (64 * t + 32 * half + b))

/-- What a 4-byte read of address `a` returns (R6-R9, R64, R622-R626). -/
def State.readReg (s : State) (a : Nat) : Word :=
  if s.barredAt a then 0
  else match findReg a with
    | some (d, i, j) => readMask d ((s.viewOf d.base i j).getD (s.rd a))
    | none =>
      if 0x2000000 ≤ a ∧ a < 0x4000000 then BitVec.ofNat 32 ((s.window32 (a - 0x2000000)).getD 0)
      else if 0x100000000 ≤ a ∧ a < 0x140000000 ∧ (a % 0x10000 = 0x2800 ∨ a % 0x10000 = 0x2804) then
        BitVec.ofNat 32 (s.pba ((a - 0x100000000) / 0x10000) (a % 0x10000 / 4 % 2))
      else 0

/-! ## Writes to single registers -/

/-- R91: a vector control word is written; clearing the mask sends the pending message. -/
def opVectorControl (t v a : Nat) (w : Word) (s : State) : State :=
  let was := s.vecMasked t v
  let s := s.fieldWrite a w
  if was && !s.vecMasked t v then s.unmask t v else s

/-- R531: the fields of the fixed sources that ignore writes; R530: with EN 0 a PENDING source is CLEAR at once. -/
def opSrcCfg (n : Nat) (v : Word) (s : State) : State :=
  let old := s.rd (HDG_SRC_CFG n)
  let keep := fun (f : Field) (w : Word) => f.set w (f.get old)
  let v := if hdgFixed n then keep HDG_SRC_CFG_EN v else v
  let v := if hdgFixedSafe n then keep HDG_SRC_CFG_ACTION (keep HDG_SRC_CFG_RSEL v) else v
  let s := s.fieldWrite (HDG_SRC_CFG n) v
  if s.hdgState n = 1 ∧ !s.bit (HDG_SRC_CFG n) HDG_SRC_CFG_EN then s.hdgToClear n else s

/-- R307: with ADAPT 0 the equaliser stands at PEAK. -/
def opRxCfg (n : Nat) (v : Word) (s : State) : State :=
  let s := s.fieldWrite (ML_RXCFG n) v
  s.when (s.fld (ML_RXCFG n) ML_RXCFG_ADAPT == 0)
    (fun s => s.setFld (ML_STAT n) ML_STAT_EQVAL (min 48 (s.fld (ML_RXCFG n) ML_RXCFG_PEAK)))

/-- R119: GO starts the operation; without it the fields are set. -/
def opGrantCmd (v : Word) (s : State) : State :=
  if TEN_GRANT_CMD_GO.get v = 1 then
    opObjGrant (TEN_GRANT_CMD_OP.get v == 1) (TEN_GRANT_CMD_KIND.get v) (TEN_GRANT_CMD_TENANT.get v) s
  else if s.standby then s.tenRefuse
  else s.fieldWrite TEN_GRANT_CMD v

/-- R565, R575. -/
def opGrantCtl (v : Word) (s : State) : State :=
  let s := s.grantCtl (FOV_GRANT_CTL_KIND.get v) (FOV_GRANT_CTL_COVERED.get v == 1) (FOV_GRANT_CTL_FORCE.get v == 1)
    (FOV_GRANT_CTL_LEASE.get v)
  s.when (FOV_GRANT_CTL_GO.get v == 1) State.grantTake

/-- R575: the commands of one write, in bit order. -/
def opFovCmd (v : Word) (s : State) : State :=
  let s := s.when (FOV_CMD_CLAIM.get v == 1) opClaim
  let s := s.when (FOV_CMD_RELEASE.get v == 1) opRelease
  let s := s.when (FOV_CMD_YIELD.get v == 1) (opYield (FOV_CMD_TB.get v))
  let s := s.when (FOV_CMD_RESYNC.get v == 1) opResync
  let s := s.when (FOV_CMD_RECOVER.get v == 1) opRecover
  s.when (FOV_CMD_CLRCNT.get v == 1) opFovClrcnt

/-- R489-R494: the commands of one write. -/
def opPwrCmd (v : Word) (s : State) : State :=
  let fallow : Bool := PWR_CMD_FALLOW.get v == 1
  let active : Bool := PWR_CMD_ACTIVE.get v == 1
  let shut : Bool := PWR_CMD_SHUTDOWN.get v == 1
  let warm : Bool := PWR_CMD_WARM.get v == 1
  if (fallow && active) || (warm && (fallow || active || shut)) then s.pwrRefuse
  else
    let s := s.when fallow opFallow
    let s := s.when active opActive
    let s := s.when shut (opShutdown (PWR_CMD_SKIPBST.get v == 1))
    s.when warm opWarm

/-- R587. -/
def opSvcCmd (v : Word) (s : State) : State := if SVC_CMD_GO.get v = 0 then s else opSvcGo (SVC_CMD_OP.get v) s

/-- R452, R448, R455: the commands of one write, in bit order. -/
def opTbCmd (b : Nat) (v : Word) (s : State) : State :=
  let s := s.when (TIM_TB_CMD_LOAD.get v == 1) (opLoad b)
  let s := s.when (TIM_TB_CMD_SNAP.get v == 1) (opSnap b)
  s.when (TIM_TB_CMD_FORCEDOM.get v == 1) (opForceDom b)

/-- R294. -/
def opSrCmd (r : Nat) (v : Word) (s : State) : State :=
  let s := s.when (CMP_SR_CMD_LEARN.get v == 1) (fun s => s.srLearn r (CMP_SR_CMD_LSLOT.get v))
  s.when (CMP_SR_CMD_CLEAR.get v == 1) (fun s => s.srClear r)

/-- R418. -/
def opRrCmd (v : Word) (s : State) : State :=
  if BLK_RR_CMD_GO.get v = 0 then s else if BLK_RR_CMD_WR.get v = 1 then opRemoteWrite s else opRemoteRead s

/-- The fields whose values outside a range are clamped: field, least and greatest value (R260, R293, R466, R482, R504). -/
def clampsOf (base : Nat) : List (Field × Nat × Nat) :=
  if base = FSA_PHASE then [(FSA_PHASE_HOP, 200, 400)]
  else if base = CMP_TM then [(CMP_TM_TMPEAK, 400, 10000), (CMP_TM_KNEE, 128, 250)]
  else if base = CMP_TMREF then [(CMP_TMREF_REFWHITE, 100, 300), (CMP_TMREF_HLGPEAK, 400, 4000)]
  else if base = TIM_TB_SLEW 0 then [(TIM_TB_SLEW_SLEWMAX, 1, 200)]
  else if base = CLK_CTRL then [(CLK_CTRL_FSLOPE, 1, 100)]
  else if base = PWR_CTRL then [(PWR_CTRL_THERMWARN, 90, 125)]
  else []

/-- The register at `a` as it holds its clamped fields after a write. -/
def State.clampAt (s : State) (base a : Nat) : State :=
  s.each (clampsOf base) (fun s c => s.setFld a c.1 (min c.2.2 (max c.2.1 (s.fld a c.1))))

/-- A control register with a CLRCNT bit. DESIGN CHOICE: the write's own LOCKWR count comes first, so CLRCNT of HDG_CTRL clears it
with the others (log entry 52). -/
def opCtrl (a : Nat) (f : Field) (v : Word) (clr : State → State) (s : State) : State :=
  (s.fieldWrite a v).when (f.get v == 1) clr

/-! ## Writes by block -/

def State.writePage (s : State) (base t r a : Nat) (v : Word) : State :=
  if base = TPG_DB 0 0 then opDoorbell t r (TPG_DB_INDEX.get v) s
  else if base = RING_BASE_LO 0 0 then opRingBase t r false v s
  else if base = RING_BASE_HI 0 0 then opRingBase t r true v s
  else if base = RING_CTRL 0 0 then opRingCtrl t r v s
  else if base = RING_STAT 0 0 then opRingStat t r v s
  else if base = MSIX_VCTRL 0 0 then opVectorControl t r a v s
  else if base = MSIX_VCTRL 0 16 then opVectorControl 0 (16 + t) a v s
  else s.fieldWrite a v

def State.writeHif (s : State) (base n a : Nat) (v : Word) : State :=
  if HIF_DMA_CTRL 0 ≤ base then
    if n < 48 then s
    else if base = HIF_DMA_CTRL 0 then opDmaCtrl n v s
    else if base = HIF_DMA_RBASE_LO 0 ∨ base = HIF_DMA_RBASE_HI 0 then opDmaRbase n a v s
    else if base = HIF_DMA_PIDX 0 then opDmaPidx n v s
    else s.fieldWrite a v
  else s.fieldWrite a v

def State.writeTen (s : State) (base i j a : Nat) (v : Word) : State :=
  if base = TEN_CFG 0 then opTenCfg i v s
  else if base = TEN_RSV 0 0 then opReservation i j v s
  else if base = TEN_GRANT_CMD then opGrantCmd v s
  else if base = TEN_GRANT_OBJ ∧ s.standby then s.tenRefuse
  else s.fieldWrite a v

/-- XPT_CTRL; while ROTEN is 0 no interval runs, and a write of 1 begins a new one (R187). -/
def opXptCtrl (v : Word) (s : State) : State :=
  let s := opCtrl XPT_CTRL XPT_CTRL_CLRCNT v opXptClrcnt s
  let s := if s.bit XPT_CTRL XPT_CTRL_ROTEN then s else s.setPlanes { s.planes with due := false }
  s.when (XPT_CTRL_FORCEROT.get v == 1) opForceRot

def State.writeXptFsa (s : State) (base a : Nat) (v : Word) : State :=
  if base = XPT_CTRL then opXptCtrl v s
  else if base = XPT_RETIRE_CMD then
    if XPT_RETIRE_CMD_GO.get v = 1 then opRetireCmd (XPT_RETIRE_CMD_PLANE.get v) s else s.fieldWrite a v
  else if base = XPT_RT_IDX then opRtIdx v s
  else if base = XPT_SU_IDX then opSuIdx v s
  else if base = FSA_CTRL then opCtrl a FSA_CTRL_CLRCNT v opFsaClrcnt s
  else if base = FSA_AL_IDX then opAlIdx v s
  else if base = FSA_PHASE then ((s.fieldWrite a v).clampAt base a).realignAll
  else if base = FSA_DL_DATA then opDlData v s
  else s.fieldWrite a v

def State.writeCmp (s : State) (base i a : Nat) (v : Word) : State :=
  if base = CMP_CTRL then opCtrl a CMP_CTRL_CLRCNT v opCmpClrcnt s
  else if base = CMP_EN_IDX then opEnIdx v s
  else if base = CMP_CV_IDX then opCvIdx v s
  else if base = CMP_SR_CFG then opSrCfg 0 v s
  else if base = CMP_SR_POS then opSrCfg 1 v s
  else if base = CMP_SR_SIZE then opSrCfg 2 v s
  else if base = CMP_SR_STILL then opSrCfg 3 v s
  else if base = CMP_SR_EXP 0 then opSrCfg (4 + i) v s
  else if base = CMP_SR_CMD then opSrCmd s.srIdx v s
  else (s.fieldWrite a v).clampAt base a

def State.writeMlnMac (s : State) (base n a : Nat) (v : Word) : State :=
  if base = ML_CTRL 0 then opMlnCtrl n v s
  else if base = ML_TXFMT 0 then opTxfmt n v s
  else if base = ML_RXCFG 0 then opRxCfg n v s
  else if base = MLN_CTRL then opCtrl a MLN_CTRL_CLRCNT v opMlnClrcnt s
  else if base = MP_CFG 0 then opMppCfg (2 * n) v s
  else if base = MP_CFG 1 then opMppCfg (2 * n + 1) v s
  else if base = MP_MAXLEN 0 then opMaxLen n v s
  else if base = MAC_SNAP then opMacSnap v s
  else if base = MAC_CTRL then opCtrl a MAC_CTRL_CLRCNT v opMacClrcnt s
  else s.fieldWrite a v

def State.writeEssBlk (s : State) (base n a : Nat) (v : Word) : State :=
  if base = ESS_CTRL then opCtrl a ESS_CTRL_CLRCNT v opEssClrcnt s
  else if base = ESS_FR_IDX then opFrIdx v s
  else if base = ESS_FT_IDX then opFtIdx v s
  else if base = BLK_CTRL then opCtrl a BLK_CTRL_CLRCNT v opBlkClrcnt s
  else if base = BLK_FTIME_SNAP then s.when (BLK_FTIME_SNAP_SNAP.get v == 1) opFtimeSnap
  else if base = BLK_RR_CMD then opRrCmd v s
  else if base = BLK_TR_OSLOT 0 then opTrunkSlot n false v s
  else if base = BLK_TR_ISLOT 0 then opTrunkSlot n true v s
  else if base = BLK_L_CFG 0 then opLinkCfg n v s
  else if base = BLK_LANE_CFG 0 then opLaneCfg n v s
  else s.fieldWrite a v

def State.writeAudTimClk (s : State) (base n a : Nat) (v : Word) : State :=
  if base = AUD_CTRL then opCtrl a AUD_CTRL_CLRCNT v opAudClrcnt s
  else if base = AUD_DE_IDX then opDeIdx v s
  else if base = AUD_DE_CFG then s.fieldWrite (AUD_DEW_CFG (s.fld AUD_DE_IDX AUD_DE_IDX_DE)) v
  else if base = AUD_MAP_IDX then opMapIdx v s
  else if base = TIM_CTRL then opCtrl a TIM_CTRL_CLRCNT v opTimClrcnt s
  else if base = TIM_SNAPALL then s.when (TIM_SNAPALL_GO.get v == 1) opSnapAll
  else if base = TIM_TB_CTRL 0 then opTbCtrl n v s
  else if base = TIM_TB_SLEW 0 then (s.fieldWrite a v).clampAt base a
  else if base = TIM_TB_FREQ 0 then opFreq n v s
  else if base = TIM_TB_SETSEC_LO 0 ∨ base = TIM_TB_SETSEC_HI 0 ∨ base = TIM_TB_SETNS 0 then
    opTbGuarded n a v s
  else if base = TIM_TB_ADJ 0 then opAdjWrite n v s
  else if base = TIM_TB_CMD 0 then opTbCmd n v s
  else if base = TIM_TPO_CFG 0 then opTpoCfg n v s
  else if base = CLK_CTRL then (opCtrl a CLK_CTRL_CLRCNT v opClkClrcnt s).clampAt base a
  else if base = CLK_CMD then
    s.when (CLK_CMD_REALIGN.get v == 1) (opRealign (CLK_CMD_RALSRC.get v == 1) (CLK_CMD_RALTB.get v))
  else if base = CLK_ALIGN then opClkAlign v s
  else if base = CLK_GENOUT_CFG 0 ∨ base = CLK_GENOUT_OFS 0 then opGenout n a v s
  else if base = AUD_PDM_CFG 0 then opPdmCfg n v s
  else if base = CLK_PRI 0 then opPriWrite n v s
  else s.fieldWrite a v

def State.writeHdgBst (s : State) (base n a : Nat) (v : Word) : State :=
  if base = HDG_CTRL then opCtrl a HDG_CTRL_CLRCNT v opHdgClrcnt s
  else if base = HDG_FIRSTCLR then s.when (HDG_FIRSTCLR_CLR.get v == 1) opHdgFirstclr
  else if base = HDG_ACK then s.when (HDG_ACK_GO.get v == 1) (opHdgAck (HDG_ACK_SRC.get v))
  else if base = HDG_CLR then s.when (HDG_CLR_GO.get v == 1) (opHdgClr (HDG_CLR_SRC.get v))
  else if base = HDG_SRC_CFG 0 then opSrcCfg n v s
  else if base = HDG_SRC_CTL 0 then
    s.when (HDG_SRC_CTL_FORCE.get v == 1) (fun s => s.withAutoRetire State.raiseForced n)
  else if base = BST_CTRL then opCtrl a BST_CTRL_CLRCNT v opBstClrcnt s
  else if base = BST_OOS 0 then opOosWrite n v s
  else if base = BST_UNIT_IDX then opUnitIdx v s
  else s.fieldWrite a v

/-- The signature-region window (R624): configuration words, command, and words that are RO. -/
def State.writeRegion (s : State) (r o a : Nat) (v : Word) : State :=
  if o < 0x20 then s.srWrite r (o / 4) v
  else if o = 0x20 then opSrCmd r v s
  else s.fieldWrite a v

/-- A 4-byte write of `v` at address `a` (R9, R622, R624); an address that no chapter names ignores it. -/
def State.hostWrite (s : State) (a : Nat) (v : Word) : State :=
  if s.barredAt a then s
  else match findReg a with
    | none => s
    | some (d, i, j) =>
      let b := d.base
      if 0x100000000 ≤ a then s.writePage b i j a v
      else if a < 0x100000 then s.fieldWrite a v
      else if a < 0x200000 then s.writeHif b i a v
      else if a < 0x400000 then s.writeTen b i j a v
      else if a < 0x800000 then s.writeXptFsa b a v
      else if a < 0xA00000 then s.writeCmp b i a v
      else if a < 0xD00000 then s.writeMlnMac b i a v
      else if a < 0x1000000 then s.writeEssBlk b i a v
      else if a < 0x1200000 then s.writeAudTimClk b i a v
      else if a < 0x1300000 then s.writeHdgBst b i a v
      else if a < 0x1380000 then
        if b = FOV_GRANT_CTL then opGrantCtl v s else if b = FOV_CMD then opFovCmd v s else s.fieldWrite a v
      else if a < 0x1480000 then if b = SVC_CMD then opSvcCmd v s else s.fieldWrite a v
      else if a < 0x1500000 then if b = PWR_CMD then opPwrCmd v s else (s.fieldWrite a v).clampAt b a
      else match regionWord a with
        | some (r, _) => s.writeRegion r (a % 64) a v
        | none => s.fieldWrite a v

/-- The address of an access to a BAR: BAR0 of the PF, or offset `off` of a 64 KiB tenant page (R62, R63). -/
def spaceAddr (sp : RegSpace) (off : Nat) : Option Nat :=
  match sp with
  | .bar0 => some off
  | .page t => if off < 0x10000 then some (0x100000000 + 0x10000 * t.val + off) else none

/-- R9, R59, R64: a write outside the page is ignored; a misaligned one is dropped and counted. An 8-byte write is a
write of the two registers, the lower address first. DESIGN CHOICE: so on the doorbell page it is two doorbells (log entry
52). -/
def opRegisterWrite (sp : RegSpace) (off : Nat) (v : Word) (hi : Option Word) (s : State) : State :=
  if off % (if hi.isSome then 8 else 4) ≠ 0 then s.raise 326
  else match spaceAddr sp off with
    | none => s
    | some a => match hi with
      | none => s.hostWrite a v
      | some w => (s.hostWrite a v).hostWrite (a + 4) w

/-- R59: an 8-byte read returns two consecutive registers, the lower address in the lower half. -/
def State.readWide (s : State) (a : Nat) : BitVec 64 := s.readReg (a + 4) ++ s.readReg a

/-! ## Remote register accesses (R409) -/

/-- R59 refuses a misaligned access; RACC 0 refuses every one. -/
def State.remoteOk (s : State) (off : Nat) : Bool := s.bit BLK_NODE BLK_NODE_RACC && off % 4 == 0

def State.countAccess (s : State) (off : Nat) : State :=
  s.when (s.bit BLK_NODE BLK_NODE_RACC && off % 4 != 0) (fun s => s.raise 326)

def opRregWr (off : Nat) (v : Word) (s : State) : State :=
  if s.remoteOk off then s.hostWrite off v else s.countAccess off

/-- The bytes of a word, little-endian. -/
def bytesOf (v : Word) : List Byte := natBytes 4 v.toNat

def opRregRd (src tag off : Nat) (s : State) : State :=
  if s.remoteOk off then
    let v := s.readReg off
    let s : State := if off = CLK_FREQ then { s with freeCtr := s.freeCtr + 1 } else s
    s.answer src tag false (bytesOf v)
  else (s.countAccess off).answer src tag true (List.replicate 4 0xFF#8)

/-! ## The commands -/

def execRegisterWrite (sp : RegSpace) (off : BitVec 26) (v : Word) (hi : Option Word) (s : State) :
    Host.Outcome State Fault Refusal :=
  done s (opRegisterWrite sp off.toNat v hi s)
/-- R501: SETUP is W1S. -/
def execGlbLockSetup (v : Word) (s : State) : Host.Outcome State Fault Refusal := doneBar s (s.fieldWrite GLB_LOCK v)
def execRregWr (_ : Node) (off : BitVec 26) (v : Word) (s : State) : Host.Outcome State Fault Refusal :=
  done s (opRregWr off.toNat v s)
def execRregRd (src : Node) (tag : Byte) (off : BitVec 26) (s : State) : Host.Outcome State Fault Refusal :=
  done s (opRregRd src.val tag.toNat off.toNat s)

end Sys2Proof.Machine
end

