-- ==== Sys2Proof/Machine/Boot.lean ====
section
/-! DEFINITION. The end of start-up: image, self-test results, configuration bank and READY (R496-R501, R553, R554,
R561, R585, R600, R602). -/

namespace Sys2Proof.Machine

open Sys2Proof

/-! ## Image (R585, R586) -/

/-- A slot of flash that the device has not written holds what the board programmed (R580). -/
def State.boardSlot (s : State) (board : List (Fin 3 × Image)) (k : Nat) : State :=
  if Tbl.has s.flash.slots k then s
  else s.setFlash { s.flash with slots := Tbl.put s.flash.slots k ((board.find? (fun e => e.1.val == k)).map (fun e => e.2)) }

def State.readFlash (s : State) (board : List (Fin 3 × Image)) : State := s.each [0, 1, 2] (fun s k => s.boardSlot board k)

/-- What flash slot `k` holds. -/
def State.slotImage (s : State) (k : Nat) : Option Image := (Tbl.find? s.flash.slots k).getD none

/-- The slots that boot code tries, in order (R498, R585). -/
def State.bootOrder (s : State) : List Nat := if s.bootCode = 4 then [2] else [s.flash.boot, 1 - s.flash.boot, 2]

/-- A valid image of a slot. -/
def State.slotValid (s : State) (k : Nat) : Option Image :=
  match s.slotImage k with
  | none => none
  | some i => if (s.imageFail i).isNone then some i else none

/-- A slot that fails is noted, and the failed check of an image is counted. -/
def State.slotFails (s : State) (k : Nat) : State :=
  let s := match s.slotImage k with
    | none => s
    | some i => match s.imageFail i with
      | none => s
      | some f => s.countFail f
  s.setBit SVC_HIST SVC_HIST_IMGBAD true

/-- The slots of a list that precede the first valid one fail; none: no image is valid. -/
def State.tryslots (s : State) : List Nat → State × Option (Nat × Image)
  | [] => (s, none)
  | k :: t => match s.slotValid k with
    | some i => (s, some (k, i))
    | none => (s.slotFails k).tryslots t

/-- The image that starts, with its slot; an image that the host or a neighbour delivered has none. -/
def State.bootImage (s : State) : State × Option (Option Nat × Image) :=
  if s.bootCode = 2 ∨ s.bootCode = 3 then (s, s.svc.running.map (fun i => (none, i)))
  else
    let p := s.tryslots s.bootOrder
    (p.1, p.2.map (fun e => (some e.1, e.2)))

/-- The registers that name the running image (R606, R607). -/
def State.nameImage (s : State) (slot : Option Nat) (i : Image) : State :=
  let s := s.setSvc { s.svc with running := some i }
  let s := s.wr SVC_FWVER i.version
  let s := s.setFld SVC_SLOT SVC_SLOT_BOOT s.flash.boot
  let s := s.setFld SVC_SLOT SVC_SLOT_RUN (if slot = some 1 then 1 else 0)
  let s := s.setBit SVC_SLOT SVC_SLOT_RECOVERY (slot == some 2)
  let ver := fun (k : Nat) => match s.slotValid k with
    | some x => x.version
    | none => 0
  let s := (s.wr SVC_SLOTVER0 (ver 0)).wr SVC_SLOTVER1 (ver 1)
  let s := s.setFld SVC_CFGSTAT SVC_CFGSTAT_FMT i.cfgFmt.toNat
  s.setFld SEC_KEY SEC_KEY_INUSE i.keyIdx.toNat

/-! ## Self-test (R500, R553, R554) -/

/-- The fast-start record that this start may use (R500). -/
def State.fastValid (s : State) (i : Image) : Option FastRec :=
  match s.flash.fast with
  | none => none
  | some f => if !f.consumed && f.chip == s.chipId && f.fwver == i.version then some f else none

/-- Failed units are fenced at once; Hedgerow hears of them at READY. -/
def State.holdFailures (s : State) (l : List Nat) : State :=
  s.each (l.filter unitValid) (fun s u => s.setFailed u true)

/-- R554: the results that were held are reported. -/
def State.reportFailures (s : State) (l : List Nat) : State :=
  s.each (l.filter unitValid) (fun s u =>
    let s := s.failUnit u
    if u = 0x71 then opStackFail 0 s else if u = 0x72 then opStackFail 1 s else s)

/-- The record is marked consumed (R500, R553). -/
def State.consumeRecord (s : State) : State :=
  match s.flash.fast with
  | some f => (s.setFlash { s.flash with fast := some { f with consumed := true } }).emit (.flash (0x10000 + 56) (leBytes 0 4))
  | none => s

/-- REPMAP of a fast start: its rows stand in repair rows (R554). -/
def State.loadRows (s : State) (rows : List Nat) : State :=
  (s.setBst { s.bst with repaired := rows }).setFld BST_STAT BST_STAT_LSSPARE (3311 - rows.length)

/-- The self-test of a start: the state with its results held, and the failed units. -/
def State.startTest (s : State) (i : Image) (found : List Nat) : State × List Nat :=
  let rec_ := s.fastValid i
  let full : Bool := s.bootCode == 1 || s.bootCode == 4 || rec_.isNone
  let s := s.consumeRecord
  let s := s.setBit PWR_STAT PWR_STAT_FULLTEST full
  let failed := if full then found else (rec_.map (fun f => f.failed)).getD []
  let s := s.loadRows (if full then [] else (rec_.map (fun f => f.rows)).getD [])
  let s := s.when full (fun s => s.setBst { s.bst with
    passed := (List.range 256).filter (fun u => unitValid u && !found.contains u) })
  (s.holdFailures failed, failed)

/-! ## Configuration bank (R597, R599, R600) -/

def State.applyRecord (s : State) (r : BankRecord) : State :=
  match r with
  | .regWrite off v => s.hostWrite off.toNat v
  | .window off v => s.hostWrite off.toNat v
  | .firmware confTo shadowFr =>
    (s.setFld SVC_CTRL SVC_CTRL_CONFTO confTo.toNat).setFld SVC_CTRL SVC_CTRL_SHADOWFR shadowFr.toNat
  | .ptp => s
  | .signature _ => s
  | .unknown => s

/-- A bank is in use: its records are applied in order. -/
def State.applyBank (s : State) (inB : Bool) (b : Bank) : State :=
  let s := s.setBit SVC_CFGSTAT SVC_CFGSTAT_BANK inB
  let s := s.wr SVC_CFGSEQ b.seq
  s.each b.records State.applyRecord

/-- The bank of the table of R600; a blank bank fails R599 (log entry 44). -/
def State.chooseBank (s : State) (i : Image) : State :=
  let ok := fun (b : Option Bank) => match b with
    | some x => s.bankOk x i.cfgRead.toNat i.cfgFmt.toNat
    | none => false
  let okA := ok s.flash.bankA
  let okB := ok s.flash.bankB
  let s := (s.setBit SVC_CFGSTAT SVC_CFGSTAT_AVALID okA).setBit SVC_CFGSTAT SVC_CFGSTAT_BVALID okB
  match okA, okB, s.flash.bankA, s.flash.bankB with
  | true, true, some a, some b =>
    if a.seq = b.seq then ((s.applyBank false a).setBit SVC_HIST SVC_HIST_CFGEQ true).raise 357
    else if b.seq.toNat < a.seq.toNat then s.applyBank false a
    else s.applyBank true b
  | true, _, some a, _ => ((s.applyBank false a).setBit SVC_HIST SVC_HIST_CFGBAD true).raise 359
  | _, true, _, some b => ((s.applyBank true b).setBit SVC_HIST SVC_HIST_CFGBAD true).raise 359
  | _, _, _, _ => (s.raise 358).promote 358

/-! ## READY (R499, R554, R585, R602) -/

/-- What is reported at READY; rows of the line store that a full self-test found failing are repaired (R552). -/
def State.reportStart (s : State) (failed rows : List Nat) (fastMiss : Bool) : State :=
  let s := s.reportFailures failed
  let s := s.each rows State.rowFailed
  let s := s.when (s.bit SVC_HIST SVC_HIST_IMGBAD) (fun s => s.raise 354)
  let s := s.when (s.bit PWR_STAT PWR_STAT_BOOTBAD) (fun s => s.raise 450)
  let s := s.when s.pwr.thermNext (fun s => (s.setPwr { s.pwr with thermNext := false }).raise 449)
  let s := s.when fastMiss (fun s => s.raise 451)
  let s := s.when (s.bit SEC_LC SEC_LC_ROLLFWD) (fun s => s.raise 484)
  s.when (!(lifeOf s.lifeWord).2) (fun s => s.raise 485)

/-- Start-up runs: reset is over, boot code has not stopped, and it has not ended yet (R498, R499, R503, R603). -/
def State.starting (s : State) : Bool :=
  !s.ready && !s.pwr.porLow && !s.pwr.held && s.life != 4 && s.bootCode != 5

def opStartUp (r : StartReport) (s : State) : State :=
  if !s.starting then s
  else
    let p := (s.readFlash r.board).bootImage
    match p.2 with
    | none => p.1
    | some (slot, i) =>
      if !r.complete then p.1
      else
        let s := p.1.setPwr { p.1.pwr with barred := false }
        let miss : Bool := (s.fastValid i).isNone
        let t := (s.nameImage slot i).startTest i (r.failedUnits.map (fun u => u.val))
        let s := t.1.chooseBank i
        let rows := if s.bit PWR_STAT PWR_STAT_FULLTEST then r.failedRows.map Fin.val else []
        let s := s.reportStart t.2 rows miss
        (s.setBit PWR_STAT PWR_STAT_READY true).fovReady

def execStartUpComplete (r : StartReport) (s : State) : Host.Outcome State Fault Refusal := done s (opStartUp r s)

end Sys2Proof.Machine
end

