-- ==== Sys2Proof/Machine/Messages.lean ====
section
/-! DEFINITION. Messages that arrive in flits and blocks take effect (R391, R399, R407). -/

namespace Sys2Proof.Machine

open Sys2Proof

/-- The effect of a message received whole: that of the row of its KIND (R407); a firmware message is firmware's. -/
def RxMsg.effect (m : RxMsg) (s : State) : Host.Outcome State Fault Refusal :=
  let src : Node := ⟨m.src % 4, by omega⟩
  let tag : Byte := BitVec.ofNat 8 m.tag
  let n := ofBytes m.body
  if m.kind = 0 then execRregWr src (BitVec.ofNat 26 n) (BitVec.ofNat 32 (n / 2 ^ 32)) s
  else if m.kind = 1 then execRdmaWr src (BitVec.ofNat 36 n) (m.body.drop 8) s
  else if m.kind = 2 then execRregRd src tag (BitVec.ofNat 26 n) s
  else if m.kind = 3 then execRdmaRd src tag (BitVec.ofNat 36 n) (BitVec.ofNat 8 (n / 2 ^ 40)) s
  else if m.kind = 4 then execFlush src tag s
  else if m.kind = 5 then execCpl src tag (m.stat == 1) m.body s
  else .next s

/-- A flit arrives, and with it the message that it makes whole. -/
def flitEffect (k : Nat) (f : BitVec 128) (s : State) : Host.Outcome State Fault Refusal :=
  match s.flitMessage k f with
  | none => done s (opFlit k f s)
  | some m => m.effect (State.signalEdges s (opFlit k f s))

/-- Flits take effect in the order in which they became whole (R400). -/
def flitEffects (k : Nat) : List (BitVec 128) → State → Host.Outcome State Fault Refusal
  | [], s => .next s
  | f :: l, s => match flitEffect k f s with
    | .next t => flitEffects k l t
    | o => o

def execFlitReceived (k : Link) (f : BitVec 128) (s : State) : Host.Outcome State Fault Refusal := flitEffect k.val f s
def execBlockReceived (j : BLane) (line : BitVec 1600) (out : BitVec 1536) (lines : List (Track × BitVec 11))
    (formats : List (Track × BitVec 64)) (s : State) : Host.Outcome State Fault Refusal :=
  let r := opBlockReceived j.val line out (lines.map (fun x => (x.1.val, x.2.toNat)))
    (formats.map (fun x => (x.1.val, x.2.toNat))) s
  flitEffects ((s.laneLink j.val).getD 0) r.1 (State.signalEdges s r.2)

end Sys2Proof.Machine
end

