-- ==== Sys2Proof/Machine/Dispatch.lean ====
section
/-! DEFINITION. What each command does: one arm per constructor of Instr, in the order of spec/opcode_table.json. -/

namespace Sys2Proof.Machine

open Sys2Proof

def exec (i : Instr) (s : State) : Host.Outcome State Fault Refusal :=
  match i with
  | .registerWrite sp off v hi => Sys2Proof.Machine.execRegisterWrite sp off v hi s
  | .glbLockSetup v => Sys2Proof.Machine.execGlbLockSetup v s
  | .barAccessUnsupported t isWrite => Sys2Proof.Machine.execBarAccessUnsupported t isWrite s
  | .doorbell t r index => Sys2Proof.Machine.execDoorbell t r index s
  | .commandFetch t r entries => Sys2Proof.Machine.execCommandFetch t r entries s
  | .commandDispatch pb => Sys2Proof.Machine.execCommandDispatch pb s
  | .commandAged t r => Sys2Proof.Machine.execCommandAged t r s
  | .ringModTimerExpiry t r => Sys2Proof.Machine.execRingModTimerExpiry t r s
  | .msixUnmask t vec => Sys2Proof.Machine.execMsixUnmask t vec s
  | .ringCtrlWrite t r v => Sys2Proof.Machine.execRingCtrlWrite t r v s
  | .ringBaseWrite t r hi v => Sys2Proof.Machine.execRingBaseWrite t r hi v s
  | .ringStatWrite t r v => Sys2Proof.Machine.execRingStatWrite t r v s
  | .flrVf n => Sys2Proof.Machine.execFlrVf n s
  | .pfFlr k => Sys2Proof.Machine.execPfFlr k s
  | .dmaEnable ch v => Sys2Proof.Machine.execDmaEnable ch v s
  | .dmaResume ch => Sys2Proof.Machine.execDmaResume ch s
  | .dmaAbort ch => Sys2Proof.Machine.execDmaAbort ch s
  | .dmaPidxWrite ch v => Sys2Proof.Machine.execDmaPidxWrite ch v s
  | .dmaDescriptorFetch ch desc => Sys2Proof.Machine.execDmaDescriptorFetch ch desc s
  | .dmaRequest line => Sys2Proof.Machine.execDmaRequest line s
  | .dmaBurstDone ch data => Sys2Proof.Machine.execDmaBurstDone ch data s
  | .dmaBurstFail ch moved => Sys2Proof.Machine.execDmaBurstFail ch moved s
  | .dmaRetryTimer ch => Sys2Proof.Machine.execDmaRetryTimer ch s
  | .nop t r e => Sys2Proof.Machine.execNop t r e s
  | .route t r e => Sys2Proof.Machine.execRoute t r e s
  | .unroute t r e => Sys2Proof.Machine.execUnroute t r e s
  | .salvoOpen t r e => Sys2Proof.Machine.execSalvoOpen t r e s
  | .salvoCommit t r e => Sys2Proof.Machine.execSalvoCommit t r e s
  | .salvoAbort t r e => Sys2Proof.Machine.execSalvoAbort t r e s
  | .canvasDef t r e => Sys2Proof.Machine.execCanvasDef t r e s
  | .layerSet t r e => Sys2Proof.Machine.execLayerSet t r e s
  | .sliceSet t r e => Sys2Proof.Machine.execSliceSet t r e s
  | .stillLoad t r e => Sys2Proof.Machine.execStillLoad t r e s
  | .stillStored still data => Sys2Proof.Machine.execStillStored still data s
  | .audMap t r e => Sys2Proof.Machine.execAudMap t r e s
  | .audPort t r e => Sys2Proof.Machine.execAudPort t r e s
  | .flowRxDef t r e pb => Sys2Proof.Machine.execFlowRxDef t r e pb s
  | .flowTxDef t r e pb => Sys2Proof.Machine.execFlowTxDef t r e pb s
  | .frameGrab t r e => Sys2Proof.Machine.execFrameGrab t r e s
  | .frameCaptured ch data ago => Sys2Proof.Machine.execFrameCaptured ch data ago s
  | .migrate t r e => Sys2Proof.Machine.execMigrate t r e s
  | .timeArm t r e => Sys2Proof.Machine.execTimeArm t r e s
  | .bistReq t r e => Sys2Proof.Machine.execBistReq t r e s
  | .query t r e => Sys2Proof.Machine.execQuery t r e s
  | .tenCfgWrite n v => Sys2Proof.Machine.execTenCfgWrite n v s
  | .grant kind tenant => Sys2Proof.Machine.execGrant kind tenant s
  | .revoke kind tenant => Sys2Proof.Machine.execRevoke kind tenant s
  | .grantDone => Sys2Proof.Machine.execGrantDone s
  | .reservationWrite n code v => Sys2Proof.Machine.execReservationWrite n code v s
  | .switchPoint d line slot stale => Sys2Proof.Machine.execSwitchPoint d line slot stale s
  | .formatChangeBoundary d => Sys2Proof.Machine.execFormatChangeBoundary d s
  | .destFrameStart d data => Sys2Proof.Machine.execDestFrameStart d data s
  | .salvoPrepareDone t slot => Sys2Proof.Machine.execSalvoPrepareDone t slot s
  | .salvoLocalDeadline t slot => Sys2Proof.Machine.execSalvoLocalDeadline t slot s
  | .prepare src group tb time nodes f => Sys2Proof.Machine.execPrepare src group tb time nodes f s
  | .ready src group f count => Sys2Proof.Machine.execReady src group f count s
  | .refuse src group reason => Sys2Proof.Machine.execRefuse src group reason s
  | .commit src group f => Sys2Proof.Machine.execCommit src group f s
  | .cancel src group reason => Sys2Proof.Machine.execCancel src group reason s
  | .salvoDecisionDeadline group => Sys2Proof.Machine.execSalvoDecisionDeadline group s
  | .salvoApplyDeadline group acked => Sys2Proof.Machine.execSalvoApplyDeadline group acked s
  | .migrateOverlapStart kind obj => Sys2Proof.Machine.execMigrateOverlapStart kind obj s
  | .migrateCommitBoundary kind obj late => Sys2Proof.Machine.execMigrateCommitBoundary kind obj late s
  | .schedulePeriod words errs stale => Sys2Proof.Machine.execSchedulePeriod words errs stale s
  | .rotationTimer => Sys2Proof.Machine.execRotationTimer s
  | .planeTestDone pass => Sys2Proof.Machine.execPlaneTestDone pass s
  | .rotationCopyStart => Sys2Proof.Machine.execRotationCopyStart s
  | .rotationReadsMove => Sys2Proof.Machine.execRotationReadsMove s
  | .rotationComplete => Sys2Proof.Machine.execRotationComplete s
  | .forceRot => Sys2Proof.Machine.execForceRot s
  | .xptClrcnt => Sys2Proof.Machine.execXptClrcnt s
  | .xptRetireCmd p => Sys2Proof.Machine.execXptRetireCmd p s
  | .xptRtpar d both => Sys2Proof.Machine.execXptRtpar d both s
  | .xptRtIdx v => Sys2Proof.Machine.execXptRtIdx v s
  | .xptSuIdx v => Sys2Proof.Machine.execXptSuIdx v s
  | .alignerAcquired src off => Sys2Proof.Machine.execAlignerAcquired src off s
  | .streamLeavesWindow src off jump => Sys2Proof.Machine.execStreamLeavesWindow src off jump s
  | .syncFrameStart src newest => Sys2Proof.Machine.execSyncFrameStart src newest s
  | .erroredLine src line => Sys2Proof.Machine.execErroredLine src line s
  | .memoryStackFail k => Sys2Proof.Machine.execMemoryStackFail k s
  | .fsaEccunc r => Sys2Proof.Machine.execFsaEccunc r s
  | .fsaEccfix => Sys2Proof.Machine.execFsaEccfix s
  | .backgroundRequestAged ctl req age cycles => Sys2Proof.Machine.execBackgroundRequestAged ctl req age cycles s
  | .fsaLspar => Sys2Proof.Machine.execFsaLspar s
  | .fsaAlIdx v => Sys2Proof.Machine.execFsaAlIdx v s
  | .fsaDlData v => Sys2Proof.Machine.execFsaDlData v s
  | .fsaClrcnt => Sys2Proof.Machine.execFsaClrcnt s
  | .canvasComposeStart c => Sys2Proof.Machine.execCanvasComposeStart c s
  | .canvasFrameOut c finished missed => Sys2Proof.Machine.execCanvasFrameOut c finished missed s
  | .cmpLtpar c layer => Sys2Proof.Machine.execCmpLtpar c layer s
  | .cmpSrCfgWrite k v => Sys2Proof.Machine.execCmpSrCfgWrite k v s
  | .learn lslot => Sys2Proof.Machine.execLearn lslot s
  | .clear => Sys2Proof.Machine.execClear s
  | .cmpEnIdx v => Sys2Proof.Machine.execCmpEnIdx v s
  | .cmpCvIdx v => Sys2Proof.Machine.execCmpCvIdx v s
  | .cmpClrcnt => Sys2Proof.Machine.execCmpClrcnt s
  | .mlnCtrlWrite n v => Sys2Proof.Machine.execMlnCtrlWrite n v s
  | .txfmtWrite n v => Sys2Proof.Machine.execTxfmtWrite n v s
  | .mediaOutputFrameStart n => Sys2Proof.Machine.execMediaOutputFrameStart n s
  | .losSet n => Sys2Proof.Machine.execLosSet n s
  | .losClear n => Sys2Proof.Machine.execLosClear n s
  | .cdrLock n rate => Sys2Proof.Machine.execCdrLock n rate s
  | .framed n => Sys2Proof.Machine.execFramed n s
  | .lossOfLock n c => Sys2Proof.Machine.execLossOfLock n c s
  | .lolholdExpiry n lines => Sys2Proof.Machine.execLolholdExpiry n lines s
  | .lolshort n lines frames => Sys2Proof.Machine.execLolshort n lines frames s
  | .descriptorPublish n raster rate levelB => Sys2Proof.Machine.execDescriptorPublish n raster rate levelB s
  | .payloadIdCheck n o => Sys2Proof.Machine.execPayloadIdCheck n o s
  | .lineCrcError n => Sys2Proof.Machine.execLineCrcError n s
  | .edhCheck n packet agree => Sys2Proof.Machine.execEdhCheck n packet agree s
  | .bondSkew n ns => Sys2Proof.Machine.execBondSkew n ns s
  | .eqlimit n top => Sys2Proof.Machine.execEqlimit n top s
  | .txfifo n => Sys2Proof.Machine.execTxfifo n s
  | .mlnGrppll g => Sys2Proof.Machine.execMlnGrppll g s
  | .groupPllRelock g => Sys2Proof.Machine.execGroupPllRelock g s
  | .mlnClrcnt => Sys2Proof.Machine.execMlnClrcnt s
  | .mppCfgWrite p v => Sys2Proof.Machine.execMppCfgWrite p v s
  | .macLinkUp p => Sys2Proof.Machine.execMacLinkUp p s
  | .verifyAttempt p ok => Sys2Proof.Machine.execVerifyAttempt p ok s
  | .autoNegotiationDone p fec => Sys2Proof.Machine.execAutoNegotiationDone p fec s
  | .macLinkdn p => Sys2Proof.Machine.execMacLinkdn p s
  | .macFrameReceived p f => Sys2Proof.Machine.execMacFrameReceived p f s
  | .macFrameOffered p kind data buffered marked => Sys2Proof.Machine.execMacFrameOffered p kind data buffered marked s
  | .expressFrameReady p data sent marked => Sys2Proof.Machine.execExpressFrameReady p data sent marked s
  | .holdAdvance p launch sent => Sys2Proof.Machine.execHoldAdvance p launch sent s
  | .macUnderrun p sent => Sys2Proof.Machine.execMacUnderrun p sent s
  | .macFecunc p => Sys2Proof.Machine.execMacFecunc p s
  | .macWake p dst etherType id fcsOk => Sys2Proof.Machine.execMacWake p dst etherType id fcsOk s
  | .macSnap v => Sys2Proof.Machine.execMacSnap v s
  | .macClrcnt => Sys2Proof.Machine.execMacClrcnt s
  | .essPacketReceived p k => Sys2Proof.Machine.execEssPacketReceived p k s
  | .playoutRelease fr line complete => Sys2Proof.Machine.execPlayoutRelease fr line complete s
  | .essRxlost fr => Sys2Proof.Machine.execEssRxlost fr s
  | .legloss fr legB => Sys2Proof.Machine.execLegloss fr legB s
  | .membershipReport fr legB => Sys2Proof.Machine.execMembershipReport fr legB s
  | .membershipQuery p mld => Sys2Proof.Machine.execMembershipQuery p mld s
  | .txPacketInstant ft dataReady second data anc => Sys2Proof.Machine.execTxPacketInstant ft dataReady second data anc s
  | .essFtpar tx flow => Sys2Proof.Machine.execEssFtpar tx flow s
  | .essFrIdx v => Sys2Proof.Machine.execEssFrIdx v s
  | .essFtIdx v => Sys2Proof.Machine.execEssFtIdx v s
  | .essClrcnt => Sys2Proof.Machine.execEssClrcnt s
  | .blockLock j lines => Sys2Proof.Machine.execBlockLock j lines s
  | .blockLockLoss j los => Sys2Proof.Machine.execBlockLockLoss j los s
  | .blockLockLossTimeout j => Sys2Proof.Machine.execBlockLockLossTimeout j s
  | .blockReceived j line out lines formats => Sys2Proof.Machine.execBlockReceived j line out lines formats s
  | .trainingAdvance k far => Sys2Proof.Machine.execTrainingAdvance k far s
  | .tapRequest j q far => Sys2Proof.Machine.execTapRequest j q far s
  | .trainingPhaseTimeout k => Sys2Proof.Machine.execTrainingPhaseTimeout k s
  | .trainingBackoffExpiry k => Sys2Proof.Machine.execTrainingBackoffExpiry k s
  | .blkLinkCfgWrite k v => Sys2Proof.Machine.execBlkLinkCfgWrite k v s
  | .blkTrunkSlotWrite t inbound v => Sys2Proof.Machine.execBlkTrunkSlotWrite t inbound v s
  | .trunkup t cnt back => Sys2Proof.Machine.execTrunkup t cnt back s
  | .flitReceived k f => Sys2Proof.Machine.execFlitReceived k f s
  | .flitAckTimeout k => Sys2Proof.Machine.execFlitAckTimeout k s
  | .replayfail k => Sys2Proof.Machine.execReplayfail k s
  | .rregWr src off v => Sys2Proof.Machine.execRregWr src off v s
  | .rdmaWr src off data => Sys2Proof.Machine.execRdmaWr src off data s
  | .rregRd src tag off => Sys2Proof.Machine.execRregRd src tag off s
  | .rdmaRd src tag off len8 => Sys2Proof.Machine.execRdmaRd src tag off len8 s
  | .flush src tag => Sys2Proof.Machine.execFlush src tag s
  | .cpl src tag rejected data => Sys2Proof.Machine.execCpl src tag rejected data s
  | .fw src links body => Sys2Proof.Machine.execFw src links body s
  | .blkRtimeout tag => Sys2Proof.Machine.execBlkRtimeout tag s
  | .remoteRegRead => Sys2Proof.Machine.execRemoteRegRead s
  | .remoteRegWrite => Sys2Proof.Machine.execRemoteRegWrite s
  | .join k prio chip => Sys2Proof.Machine.execJoin k prio chip s
  | .assign order ftime => Sys2Proof.Machine.execAssign order ftime s
  | .electionTimeout => Sys2Proof.Machine.execElectionTimeout s
  | .blkRootchg reach => Sys2Proof.Machine.execBlkRootchg reach s
  | .blkFtimeSnap => Sys2Proof.Machine.execBlkFtimeSnap s
  | .blkClrcnt => Sys2Proof.Machine.execBlkClrcnt s
  | .fabricTimeSend b dst => Sys2Proof.Machine.execFabricTimeSend b dst s
  | .fabricTimeMsg b srcMode off ppt => Sys2Proof.Machine.execFabricTimeMsg b srcMode off ppt s
  | .srclost b => Sys2Proof.Machine.execSrclost b s
  | .audMapChange d oldPrev oldCur new oldNonPcm newNonPcm blockStart => Sys2Proof.Machine.execAudMapChange d oldPrev oldCur new oldNonPcm newNonPcm blockStart s
  | .audZcto d => Sys2Proof.Machine.execAudZcto d s
  | .audSlip n => Sys2Proof.Machine.execAudSlip n s
  | .audDeerr n => Sys2Proof.Machine.execAudDeerr n s
  | .tdmLock p ppm => Sys2Proof.Machine.execTdmLock p ppm s
  | .audTdmunl p => Sys2Proof.Machine.execAudTdmunl p s
  | .audAmpflt p high => Sys2Proof.Machine.execAudAmpflt p high s
  | .audMappar d => Sys2Proof.Machine.execAudMappar d s
  | .audDeIdx v => Sys2Proof.Machine.execAudDeIdx v s
  | .audMapIdx v => Sys2Proof.Machine.execAudMapIdx v s
  | .audClrcnt => Sys2Proof.Machine.execAudClrcnt s
  | .load b => Sys2Proof.Machine.execLoad b s
  | .snap b => Sys2Proof.Machine.execSnap b s
  | .snapAll => Sys2Proof.Machine.execSnapAll s
  | .forceDom b => Sys2Proof.Machine.execForceDom b s
  | .timAdjWrite b v => Sys2Proof.Machine.execTimAdjWrite b v s
  | .timFreqWrite b v => Sys2Proof.Machine.execTimFreqWrite b v s
  | .timTbCtrlWrite b v => Sys2Proof.Machine.execTimTbCtrlWrite b v s
  | .slewDone b => Sys2Proof.Machine.execSlewDone b s
  | .servoUpdate b domB off ppt => Sys2Proof.Machine.execServoUpdate b domB off ppt s
  | .timDomloss b lossA lossB => Sys2Proof.Machine.execTimDomloss b lossA lossB s
  | .domainQualified b domB => Sys2Proof.Machine.execDomainQualified b domB s
  | .revwaitExpiry b => Sys2Proof.Machine.execRevwaitExpiry b s
  | .pulseStart k => Sys2Proof.Machine.execPulseStart k s
  | .pulseEnd k => Sys2Proof.Machine.execPulseEnd k s
  | .expressLaunch p data sent ready => Sys2Proof.Machine.execExpressLaunch p data sent ready s
  | .timClrcnt => Sys2Proof.Machine.execTimClrcnt s
  | .referenceEvaluation => Sys2Proof.Machine.execReferenceEvaluation s
  | .referenceActivityLoss code => Sys2Proof.Machine.execReferenceActivityLoss code s
  | .referenceQualified code => Sys2Proof.Machine.execReferenceQualified code s
  | .wtrExpiry => Sys2Proof.Machine.execWtrExpiry s
  | .dpllLocked => Sys2Proof.Machine.execDpllLocked s
  | .dpllUnlock => Sys2Proof.Machine.execDpllUnlock s
  | .realign ralSrc tb => Sys2Proof.Machine.execRealign ralSrc tb s
  | .frameTimingJump raster rate ago => Sys2Proof.Machine.execFrameTimingJump raster rate ago s
  | .alignPulseEdge err => Sys2Proof.Machine.execAlignPulseEdge err s
  | .alignloss => Sys2Proof.Machine.execAlignloss s
  | .clkPriWrite k v => Sys2Proof.Machine.execClkPriWrite k v s
  | .clkClrcnt => Sys2Proof.Machine.execClkClrcnt s
  | .fallow => Sys2Proof.Machine.execFallow s
  | .fallowReached => Sys2Proof.Machine.execFallowReached s
  | .active => Sys2Proof.Machine.execActive s
  | .activeReached => Sys2Proof.Machine.execActiveReached s
  | .shutdown skipBst => Sys2Proof.Machine.execShutdown skipBst s
  | .offready => Sys2Proof.Machine.execOffready s
  | .warm => Sys2Proof.Machine.execWarm s
  | .powerOn => Sys2Proof.Machine.execPowerOn s
  | .porNLow => Sys2Proof.Machine.execPorNLow s
  | .porNRise straps => Sys2Proof.Machine.execPorNRise straps s
  | .trstN => Sys2Proof.Machine.execTrstN s
  | .wakeTimerExpiry => Sys2Proof.Machine.execWakeTimerExpiry s
  | .temperatureUpdate tj => Sys2Proof.Machine.execTemperatureUpdate tj s
  | .pwrThermsd => Sys2Proof.Machine.execPwrThermsd s
  | .coreRailFail => Sys2Proof.Machine.execCoreRailFail s
  | .domainStop d => Sys2Proof.Machine.execDomainStop d s
  | .hdgEvent n => Sys2Proof.Machine.execHdgEvent n s
  | .hdgWindowClose n => Sys2Proof.Machine.execHdgWindowClose n s
  | .hdgReactionExpiry n => Sys2Proof.Machine.execHdgReactionExpiry n s
  | .hdgSelfpar => Sys2Proof.Machine.execHdgSelfpar s
  | .hdgAck n => Sys2Proof.Machine.execHdgAck n s
  | .hdgClr n => Sys2Proof.Machine.execHdgClr n s
  | .hdgFirstclr => Sys2Proof.Machine.execHdgFirstclr s
  | .force n => Sys2Proof.Machine.execForce n s
  | .hdgClrcnt => Sys2Proof.Machine.execHdgClrcnt s
  | .sliceStart => Sys2Proof.Machine.execSliceStart s
  | .sliceEnd u pass => Sys2Proof.Machine.execSliceEnd u pass s
  | .patrolRead k corrected uncorrectable => Sys2Proof.Machine.execPatrolRead k corrected uncorrectable s
  | .fullTestEnd u pass => Sys2Proof.Machine.execFullTestEnd u pass s
  | .bstOosWrite ix v => Sys2Proof.Machine.execBstOosWrite ix v s
  | .bstUnitIdx v => Sys2Proof.Machine.execBstUnitIdx v s
  | .bstClrcnt => Sys2Proof.Machine.execBstClrcnt s
  | .grantActive covered force lease => Sys2Proof.Machine.execGrantActive covered force lease s
  | .grantReserve covered force lease => Sys2Proof.Machine.execGrantReserve covered force lease s
  | .grantRevoke => Sys2Proof.Machine.execGrantRevoke s
  | .claim => Sys2Proof.Machine.execClaim s
  | .release => Sys2Proof.Machine.execRelease s
  | .yield tb => Sys2Proof.Machine.execYield tb s
  | .yieldInstant => Sys2Proof.Machine.execYieldInstant s
  | .resync => Sys2Proof.Machine.execResync s
  | .recover => Sys2Proof.Machine.execRecover s
  | .fovClrcnt => Sys2Proof.Machine.execFovClrcnt s
  | .ilkInFall => Sys2Proof.Machine.execIlkInFall s
  | .fovIlkconf => Sys2Proof.Machine.execFovIlkconf s
  | .claimDelayExpiry => Sys2Proof.Machine.execClaimDelayExpiry s
  | .claimWindowEnd => Sys2Proof.Machine.execClaimWindowEnd s
  | .fovLeaseexp => Sys2Proof.Machine.execFovLeaseexp s
  | .fovPlaneloss n => Sys2Proof.Machine.execFovPlaneloss n s
  | .mirrorRecord m late => Sys2Proof.Machine.execMirrorRecord m late s
  | .digestCompare theirs ours => Sys2Proof.Machine.execDigestCompare theirs ours s
  | .fovMirloss => Sys2Proof.Machine.execFovMirloss s
  | .fovSyncfail => Sys2Proof.Machine.execFovSyncfail s
  | .loadimg img => Sys2Proof.Machine.execLoadimg img s
  | .slotProgramDone ok => Sys2Proof.Machine.execSlotProgramDone ok s
  | .distrib answer => Sys2Proof.Machine.execDistrib answer s
  | .distribImageReceived src img onward retry => Sys2Proof.Machine.execDistribImageReceived src img onward retry s
  | .handover peerVersion => Sys2Proof.Machine.execHandover peerVersion s
  | .shadowEnd => Sys2Proof.Machine.execShadowEnd s
  | .svcUpdfail => Sys2Proof.Machine.execSvcUpdfail s
  | .confirm => Sys2Proof.Machine.execConfirm s
  | .revert => Sys2Proof.Machine.execRevert s
  | .conftoExpiry => Sys2Proof.Machine.execConftoExpiry s
  | .savecfg b programOk => Sys2Proof.Machine.execSavecfg b programOk s
  | .lcadv k missed missedState => Sys2Proof.Machine.execLcadv k missed missedState s
  | .keyrev k => Sys2Proof.Machine.execKeyrev k s
  | .svcCmdReserved op => Sys2Proof.Machine.execSvcCmdReserved op s
  | .svcWdog core => Sys2Proof.Machine.execSvcWdog core s
  | .serviceMoveDone svc => Sys2Proof.Machine.execServiceMoveDone svc s
  | .startUpComplete r => Sys2Proof.Machine.execStartUpComplete r s
  | .ilkInRise => Sys2Proof.Machine.execIlkInRise s
  | .mirrorUp partner => Sys2Proof.Machine.execMirrorUp partner s
  | .vaonLoss => Sys2Proof.Machine.execVaonLoss s
  | .controlStreamParity k => Sys2Proof.Machine.execControlStreamParity k s
  | .hifAerunc => Sys2Proof.Machine.execHifAerunc s

end Sys2Proof.Machine
end

