-- ==== Sys2Proof/Safety.lean ====
section
/-! DEFINITION. What counts as a safe run: every step answers a next state, so no fault and no refusal is met, and the
tables of the state keep their canonical form. -/

namespace Sys2Proof

/-- The commands that may write package memory, flash or OTP, or reset the device; a register write can reach PWR_CMD
and SVC_CMD. -/
def Instr.writesStores : Instr → Bool
  | .registerWrite .. | .rregWr .. | .dmaBurstDone .. | .rdmaWr .. => true
  | .offready | .warm | .powerOn | .porNLow | .porNRise .. | .temperatureUpdate .. | .pwrThermsd | .coreRailFail => true
  | .loadimg .. | .slotProgramDone .. | .distribImageReceived .. | .shadowEnd | .confirm | .savecfg .. => true
  | .lcadv .. | .keyrev .. | .startUpComplete .. => true
  | _ => false

/-- The command names no byte beyond the 48 GiB of package memory (R248); only remote DMA can name one (R407). -/
def Instr.inMemory : Instr → Bool
  | .rdmaWr _ off data => decide (off.toNat + data.length ≤ Machine.Memory.size)
  | .rdmaRd _ _ off n => decide (off.toNat + 8 * n.toNat ≤ Machine.Memory.size)
  | _ => true

end Sys2Proof

namespace Sys2Proof.Machine

open Sys2Proof

/-- Command `c` answers a next state, and `P` holds of it. -/
def Gives (c : Instr) (s : State) (P : State → Prop) : Prop := ∃ t, exec c s = .next t ∧ P t

/-- Command `c` answers the state `t`, with the interrupt messages that its new causes signal (R89-R92). -/
def Answers (c : Instr) (s t : State) : Prop := exec c s = .next (State.signalEdges s t)

/-- Every register outside `l` reads as before. -/
def SameRegs (l : List Nat) (s t : State) : Prop := ∀ a, a ∉ l → t.rd a = s.rd a

/-- Every byte of package memory reads as before. -/
def SameMem (s t : State) : Prop := ∀ a, Memory.read t.mem a = Memory.read s.mem a

/-- The parts of the state beside the registers and package memory (and beside what left the device and which messages
wait for an unmasking, which any cause may change). -/
inductive Part where
  | queue | time | rings | sched | chans | inflight | ten | tim | hdg | fov | planes | xpt | fsa | cmp | sal | ess | bst | blk | mln | mac
  | aud | clk | pwr | svc | flash | otp
  deriving DecidableEq, Repr

/-- A part stands as before. -/
def Part.Same (s t : State) : Part → Prop
  | .queue => t.pending = s.pending
  | .time => t.now = s.now
  | .rings => t.hif.rings = s.hif.rings
  | .sched => t.hif.nextId = s.hif.nextId ∧ t.hif.lastTenant = s.hif.lastTenant ∧ t.hif.lastRing = s.hif.lastRing
      ∧ t.hif.slot = s.hif.slot ∧ t.hif.agedOrder = s.hif.agedOrder ∧ t.hif.fences = s.hif.fences
      ∧ t.hif.shortWait = s.hif.shortWait ∧ t.hif.numVfs = s.hif.numVfs
  | .chans => t.hif.chans = s.hif.chans
  | .inflight => t.hif.inflight = s.hif.inflight
  | .ten => t.ten = s.ten
  | .tim => t.tim = s.tim
  | .hdg => t.hdg = s.hdg
  | .fov => t.fov = s.fov
  | .planes => t.planes = s.planes
  | .xpt => t.xpt = s.xpt
  | .fsa => t.fsa = s.fsa
  | .cmp => t.cmp = s.cmp
  | .sal => t.sal = s.sal
  | .ess => t.ess = s.ess
  | .bst => t.bst = s.bst
  | .blk => t.blk = s.blk
  | .mln => t.mln = s.mln
  | .mac => t.mac = s.mac
  | .aud => t.aud = s.aud
  | .clk => t.clk = s.clk
  | .pwr => t.pwr = s.pwr
  | .svc => t.svc = s.svc
  | .flash => t.flash = s.flash
  | .otp => t.otp = s.otp

/-- Every part outside `l` stands as before. -/
def SameParts (l : List Part) (s t : State) : Prop := ∀ p, p ∉ l → p.Same s t

/-- The frame of a command: only registers in `regs` and parts in `parts` may differ (and what signals the change to the
host); package memory stands. -/
def Frame (regs : List Nat) (parts : List Part) (s t : State) : Prop :=
  SameRegs regs s t ∧ SameMem s t ∧ SameParts parts s t

/-- Only the registers in `l` may differ. -/
def OnlyRegs (l : List Nat) (s t : State) : Prop := Frame l [] s t

/-- An outcome that is a next state. -/
def Completes (o : Host.Outcome State Fault Refusal) : Prop := ∃ t, o = .next t

/-- A register table in canonical form: addresses strictly rising, no entry at its reset value. -/
def Regs.wf (r : Tbl Word) : Bool := Tbl.rising r && r.all (fun e => e.2 != resetAt e.1)

/-- The canonical form of the two sparse maps that a later check compares: registers and package memory. -/
def State.Canonical (s : State) : Prop := Regs.wf s.regs = true ∧ Memory.wf s.mem = true

/-- The state in which the dispatch slot is decided for command `e` of ring `r` of tenant `t`: the entry stands at the
head of its ring, and the arbitration of R82-R87 has run. -/
def State.slot (s : State) (t r : Nat) (e : Entry) : State := ((s.offer t r e).getD s).arbitrate.1

/-- Command `e`, whose opcode is `op`, stands at the head of ring `r` of tenant `t` and is what this dispatch slot
serves (R82-R87, R94, R115, R491, R536). -/
def State.Takes (s : State) (op t r : Nat) (e : Entry) : Prop :=
  opcodeOf e = op ∧ ∃ w, s.offer t r e = some w ∧ w.arbitrate.2 = some (t, r)

/-- That command has been taken: it has left its ring and is in flight with its completion space held (R82-R84). Its
effect starts from this state, under the number `s.hif.nextId`. -/
def State.taken (s : State) (t r : Nat) (e : Entry) (pb : BlockRead) : State :=
  ((s.slot t r e).popHead t r).take t r e pb

/-- `n` steps from `s` all answer a next state. -/
def SafeFor : Nat → State → Prop
  | 0, _ => True
  | n + 1, s => ∃ t, step s = .next t ∧ SafeFor n t

end Sys2Proof.Machine
end

