-- ==== Sys2Proof/Certificates/Slice0/Obligations.lean ====
section
/-! DEFINITION. The statements about the model. Each docstring names the rules of spec/ it rests on, and says where a
clause is the model's own choice. -/

section

open Sys2Proof Sys2Proof.Machine

/-- For every state and every command c: with c at the front of the queue, step is exec of c on the state with the
queue's rest; with an empty queue step answers the state after one time-base cycle of 4 ns (the idle tick is the
model's choice, log entry 2). (95_what_each_step_holds) -/
def Obligations.StepRunsFrontCommand : Prop :=
  (∀ (c : Instr) (rest : List Instr) (s : State), step { s with pending := c :: rest } = exec c { s with pending := rest })
    ∧ ∀ s : State, step { s with pending := [] } = .next (State.tick { s with pending := [] })

/-- State.reset has its registers and package memory in canonical form and no command waits; every register reads as
its reset value and every byte of package memory as a byte that nothing has written. (The sparse form is the model's
own; what an unwritten byte reads as is log entry 3.) (00_scope) -/
def Obligations.ResetCanonical : Prop :=
  State.reset.Canonical ∧ State.reset.pending = []
    ∧ (∀ a, State.reset.rd a = resetAt a) ∧ ∀ a, Memory.read State.reset.mem a = Memory.blank

/-- For every state whose register table and package memory are in canonical form (keys strictly rising, no entry at
the value an unlisted key reads): if step answers a next state, that state's are too. It ranges over all commands,
resets included, and over the idle step. (00_scope, 06_alignment_framestore) -/
def Obligations.StepKeepsCanonical : Prop :=
  ∀ s t : State, s.Canonical → step s = .next t → t.Canonical

/-- For every command c and states s, t: if exec of c on s answers t, then t has the queue and the elapsed time of s.
A device reset also keeps both (the queue is the model's own, log entry 1). For every command other than the listed
ones (host and remote register writes, which can reach PWR_CMD and SVC_CMD; a DMA burst; RDMA_WR; the resets; what
programs flash or OTP; the end of a shut-down and of a start): whenever it answers a next state, every byte of package
memory reads as before, and flash and OTP are unchanged. (95_what_each_step_holds, 06_alignment_framestore,
15_power_reset, 20_firmware_lifecycle) -/
def Obligations.CommandsKeepQueueTimeAndStores : Prop :=
  (∀ (c : Instr) (s t : State), exec c s = .next t → t.pending = s.pending ∧ t.now = s.now)
    ∧ (∀ (c : Instr) (s t : State), c.writesStores = false → exec c s = .next t →
    SameMem s t ∧ t.flash = s.flash ∧ t.otp = s.otp)

/-- For every state and every command whose operands name no byte of package memory beyond its 48 GiB (only RDMA_WR
and RDMA_RD can name one): exec answers a next state, which has the queue and the elapsed time of the state before. An
RDMA_WR or RDMA_RD that does name one answers the fault packageMemoryRange. So no command is refused. (00_scope,
06_alignment_framestore, 11_bolben_fabric) -/
def Obligations.EveryCommandAnswers : Prop :=
  (∀ (c : Instr) (s : State), c.inMemory = true → ∃ t, exec c s = .next t ∧ t.pending = s.pending ∧ t.now = s.now)
    ∧ (∀ (src : Node) (off : BitVec 36) (data : List Byte) (s : State), Memory.size < off.toNat + data.length →
      exec (.rdmaWr src off data) s = .fault .packageMemoryRange)
    ∧ (∀ (src : Node) (tag : Byte) (off : BitVec 36) (n : Byte) (s : State), Memory.size < off.toNat + 8 * n.toNat →
      exec (.rdmaRd src tag off n) s = .fault .packageMemoryRange)

/-- For every field inside the register, old value, written value and lock state: RW takes the written value; RO and
WO keep theirs; W1C clears the bits written as 1; W1S sets them; RW-L takes the value while SETUP is 0 and keeps it,
refusing, while SETUP is 1 (a write of the present value is not refused); WONCE takes the first non-zero value and
then refuses another. No other field of the register changes, and a refusal is reported exactly where a change was
refused. (R9, R10) -/
def Obligations.FieldWriteTypes : Prop :=
  ∀ (locked : Bool) (v old : Word) (r : Bool) (f : Field), f.lo + f.width ≤ 32 →
    let w := fun (k : Access) => writeField locked v (old, r) (f, k)
    (∀ (k : Access) (g : Field), f.lo + f.width ≤ g.lo ∨ g.lo + g.width ≤ f.lo → g.get (w k).1 = g.get old)
    ∧ (f.get (w .rw).1 = f.get v ∧ (w .rw).2 = r)
    ∧ (w .ro = (old, r) ∧ w .wo = (old, r))
    ∧ (f.get (w .w1c).1 = f.get old &&& (2 ^ f.width - 1 - f.get v) ∧ (w .w1c).2 = r)
    ∧ (f.get (w .w1s).1 = f.get old ||| f.get v ∧ (w .w1s).2 = r)
    ∧ (locked = false → f.get (w .rwL).1 = f.get v ∧ (w .rwL).2 = r)
    ∧ (locked = true → f.get (w .rwL).1 = f.get old ∧ (w .rwL).2 = (r || f.get v != f.get old))
    ∧ (f.get old = 0 → f.get (w .wonce).1 = f.get v ∧ (w .wonce).2 = r)
    ∧ (f.get old ≠ 0 → f.get (w .wonce).1 = f.get old ∧ (w .wonce).2 = (r || f.get v != f.get old))

/-- REGISTER_WRITE of an aligned word to BAR0 has the effect of a write at that address, and to an offset inside a
tenant page that of a write to that page; an aligned 8-byte write is the writes of its two registers, the lower
address first. Beyond the page, at an address that no chapter names, and at a block other than PWR, SVC and SEC while
only these answer, nothing changes. A misaligned write of either size is dropped and raises HIF_ACCESS (326). While
all blocks answer, GLB_LOCK_SETUP sets SETUP where the word has a 1 and leaves it otherwise, and no other register
changes. (R59, R62, R64, R496, R586, R622) -/
def Obligations.RegisterWriteReaches : Prop :=
  ∀ (s : State) (v : Word),
    (∀ off : BitVec 26, off.toNat % 4 = 0 → Answers (.registerWrite .bar0 off v none) s (s.hostWrite off.toNat v))
    ∧ (∀ (off : BitVec 26) (w : Word), off.toNat % 8 = 0 →
        Answers (.registerWrite .bar0 off v (some w)) s ((s.hostWrite off.toNat v).hostWrite (off.toNat + 4) w))
    ∧ (∀ (t : Tenant) (off : BitVec 26), off.toNat % 4 = 0 → off.toNat < 0x10000 →
        Answers (.registerWrite (.page t) off v none) s (s.hostWrite (0x100000000 + 0x10000 * t.val + off.toNat) v))
    ∧ (∀ (t : Tenant) (off : BitVec 26) (w : Word), off.toNat % 8 = 0 → off.toNat < 0x10000 →
        let a := 0x100000000 + 0x10000 * t.val + off.toNat
        Answers (.registerWrite (.page t) off v (some w)) s ((s.hostWrite a v).hostWrite (a + 4) w))
    ∧ (∀ (t : Tenant) (off : BitVec 26), off.toNat % 4 = 0 → 0x10000 ≤ off.toNat →
        Gives (.registerWrite (.page t) off v none) s (OnlyRegs [] s))
    ∧ (∀ off : BitVec 26, off.toNat % 4 = 0 → findReg off.toNat = none →
        Gives (.registerWrite .bar0 off v none) s (OnlyRegs [] s))
    ∧ (∀ off : BitVec 26, off.toNat % 4 = 0 → s.pwr.barred = true →
        off.toNat < 0x1380000 ∨ 0x1500000 ≤ off.toNat → Gives (.registerWrite .bar0 off v none) s (OnlyRegs [] s))
    ∧ (∀ (sp : RegSpace) (off : BitVec 26), off.toNat % 4 ≠ 0 → Answers (.registerWrite sp off v none) s (s.raise 326))
    ∧ (∀ (sp : RegSpace) (off : BitVec 26) (w : Word), off.toNat % 8 ≠ 0 →
        Answers (.registerWrite sp off v (some w)) s (s.raise 326))
    ∧ (s.pwr.barred = false →
        Gives (.glbLockSetup v) s (fun u => u.locked = (s.locked || v.getLsbD 0) ∧ OnlyRegs [GLB_LOCK] s u))

/-- Doorbells take the index or are counted; fetching, ageing and the moderation timer act on their ring alone. (R68,
R70, R71, R611, R72, R78, R87, R90, R115) -/
def Obligations.DoorbellsAndFetch : Prop :=
  (∀ (t : Tenant) (r : RingIx) (i : BitVec 16) (s : State),
    let bad : Prop := s.ringSizeOk t r = true ∧ s.ringSize t r ≤ i.toNat
    (s.tenOn t = true → s.ringOn t r = true → ¬bad → r.val < 14 ∨ (∀ e, e ∈ s.cmp.grabs → e.2.owed = none) →
      Gives (.doorbell t r i) s (fun u => u.hostIdx t r = i.toNat ∧ OnlyRegs [RING_HOST_IDX t r] s u))
    ∧ (∀ (ch : Nat) (g : Grab) (c : Capture), s.tenOn t = true → s.ringOn t r = true → ¬bad → 14 ≤ r.val →
      s.cmp.grabs = [(ch, g)] → g.owed = some c → g.tenant = t.val → g.ring = r.val →
      let w := s.setFld (RING_HOST_IDX t r) RING_HOST_IDX_IDX i.toNat
      w.ringFull t r = false → Answers (.doorbell t r i) s (w.grabEntry ch g c))
    ∧ (s.tenOn t = false → Answers (.doorbell t r i) s (s.raise 320))
    ∧ (s.tenOn t = true → bad →
        Answers (.doorbell t r i) s ((s.setBit (RING_STAT t r) RING_STAT_BADIDX true).raise 320))
    ∧ (s.tenOn t = true → ¬bad → s.ringOn t r = false → Answers (.doorbell t r i) s (s.raise 320)))
    ∧ (∀ (t : Tenant) (s : State),
    let others := fun (r : Nat) (u : State) => ∀ k, k ≠ 16 * t.val + r → Tbl.find? u.hif.rings k = Tbl.find? s.hif.rings k
    (∀ (r : CmdRing) (es : List Entry), s.tenOn t = true → s.ringOn t r = true →
      Gives (.commandFetch t r es) s (fun u =>
        u.ring t r = { s.ring t r with fetched := (s.ring t r).fetched ++ es.take (min 16 (s.toFetch t r)) }
        ∧ others r u ∧ Frame [] [.rings] s u))
    ∧ (∀ (r : CmdRing) (es : List Entry), s.tenOn t = false ∨ s.ringOn t r = false →
      Gives (.commandFetch t r es) s (OnlyRegs [] s))
    ∧ (∀ r : CmdRing, (s.ring t r).fetched ≠ [] → (s.ring t r).aged = false →
      Gives (.commandAged t r) s (fun u => u.ring t r = { s.ring t r with aged := true }
        ∧ u.hif.agedOrder = s.hif.agedOrder ++ [16 * t.val + r.val] ∧ u.hif.slot = s.hif.slot ∧ u.hif.fences = s.hif.fences
        ∧ others r u ∧ Frame [] [.rings, .sched] s u))
    ∧ (∀ r : CmdRing, (s.ring t r).fetched = [] ∨ (s.ring t r).aged = true →
      Gives (.commandAged t r) s (OnlyRegs [] s))
    ∧ (∀ r : RingIx, 8 ≤ r.val → s.bit (RING_CTRL t r) RING_CTRL_IEN = true → s.fld (RING_MOD t r) RING_MOD_TIME ≠ 0 →
        (s.ring t r).unsignalled ≠ 0 →
        Answers (.ringModTimerExpiry t r) s
          ((s.setRing t r { s.ring t r with unsignalled := 0 }).signal t (s.fld (RING_CTRL t r) RING_CTRL_VEC)))
    ∧ (∀ r : RingIx, r.val < 8 ∨ s.bit (RING_CTRL t r) RING_CTRL_IEN = false ∨ s.fld (RING_MOD t r) RING_MOD_TIME = 0
        ∨ (s.ring t r).unsignalled = 0 → Gives (.ringModTimerExpiry t r) s (OnlyRegs [] s)))

/-- Signalling a masked vector makes it pending and sends nothing, and a second message leaves it pending once;
signalling an unmasked vector sends its message. MSIX_UNMASK of a vector of the function clears its mask, and where a
message was pending sends exactly that one and clears the pending bit. (R91) -/
def Obligations.MsixUnmaskSendsPending : Prop :=
  (∀ (s : State) (t v : Nat), s.vecMasked t v = true →
      (s.signal t v).out = s.out ∧ 64 * t + v ∈ (s.signal t v).hif.msixPending
      ∧ (s.signal t v).signal t v = s.signal t v)
    ∧ (∀ (s : State) (t v : Nat), s.vecMasked t v = false →
      (s.signal t v).out = s.vecMessage t v :: s.out ∧ (s.signal t v).hif = s.hif)
    ∧ (∀ (s : State) (t : Tenant) (v : BitVec 6), v.toNat < vectorsOf t → 64 * t.val + v.toNat ∈ s.hif.msixPending →
      ∃ w : State, Answers (.msixUnmask t v) s w ∧ w.vecMasked t v.toNat = false
        ∧ w.out = s.vecMessage t v.toNat :: s.out
        ∧ w.hif.msixPending = s.hif.msixPending.filter (· != 64 * t.val + v.toNat)
        ∧ SameRegs [MSIX_VCTRL t v.toNat] s w)
    ∧ (∀ (s : State) (t : Tenant) (v : BitVec 6), v.toNat < vectorsOf t → 64 * t.val + v.toNat ∉ s.hif.msixPending →
      Gives (.msixUnmask t v) s (fun u => u.vecMasked t v.toNat = false ∧ SameRegs [MSIX_VCTRL t v.toNat] s u))

/-- A write that would enable a ring with LOG2SIZE outside 6-16, and a write of the base of an enabled ring, leave the
register, set CFGREJ and raise HIF_RINGCFG (321). A base write on a disabled ring, and a RING_CTRL write that leaves
EN as it is, take effect field by field. Enabling a ring of a valid size for which nothing waits takes the word,
returns both indices to 0 and the PHASE to 1, empties what it had fetched and changes nothing else; enabling a
completion ring for which one completion waits also writes that completion into entry 0 with PHASE 1. Disabling a ring
takes the word, drops the entries it had fetched and takes it off the lists of rings that wait. A RING_STAT write
clears the flags written as 1, and with DROP also DROPCNT, and changes no other register. (R69, R73, R74, R76, R77,
R78, R80) -/
def Obligations.RingConfiguration : Prop :=
  ∀ (t : Tenant) (r : RingIx) (v : Word) (s : State),
    let ctrl := RING_CTRL t r
    let others := fun (u : State) => ∀ k, k ≠ 16 * t.val + r.val → Tbl.find? u.hif.rings k = Tbl.find? s.hif.rings k
    let taken := fun (u : State) => u.rd ctrl = (s.fieldWrite ctrl v).rd ctrl
    (RING_CTRL_EN.get v = 1 → s.ringOn t r = false → s.ringSizeOk t r = false →
      Answers (.ringCtrlWrite t r v) s ((s.setBit (RING_STAT t r) RING_STAT_CFGREJ true).raise 321))
    ∧ (∀ hi : Bool, s.ringOn t r = true →
      Answers (.ringBaseWrite t r hi v) s ((s.setBit (RING_STAT t r) RING_STAT_CFGREJ true).raise 321))
    ∧ (∀ hi : Bool, s.ringOn t r = false →
      Gives (.ringBaseWrite t r hi v) s (fun u =>
        let a := if hi then RING_BASE_HI t r else RING_BASE_LO t r
        (hi = true → u.fld a RING_BASE_HI_BASE_HI = RING_BASE_HI_BASE_HI.get v)
        ∧ (hi = false → u.fld a RING_BASE_LO_LOG2SIZE = RING_BASE_LO_LOG2SIZE.get v
            ∧ u.fld a RING_BASE_LO_BASE_LO = RING_BASE_LO_BASE_LO.get v)
        ∧ OnlyRegs [a] s u))
    ∧ (RING_CTRL_EN.get v = (if s.ringOn t r then 1 else 0) →
      Gives (.ringCtrlWrite t r v) s (fun u => taken u ∧ u.fld ctrl RING_CTRL_VEC = RING_CTRL_VEC.get v
        ∧ u.bit ctrl RING_CTRL_IEN = (RING_CTRL_IEN.get v != 0) ∧ OnlyRegs [ctrl] s u))
    ∧ (RING_CTRL_EN.get v = 1 → s.ringOn t r = false → s.ringSizeOk t r = true → (s.ring t r).deferred = [] →
      (∀ e, e ∈ s.cmp.grabs → e.2.owed = none) →
      Gives (.ringCtrlWrite t r v) s (fun u => taken u ∧ u.ringOn t r = true ∧ u.hostIdx t r = 0 ∧ u.devIdx t r = 0
        ∧ u.ring t r = { s.ring t r with phase := true, unsignalled := 0, fetched := [], aged := false } ∧ others u
        ∧ Frame [ctrl, RING_HOST_IDX t r, RING_DEV_IDX t r] [.rings] s u))
    ∧ (∀ c : Completion, RING_CTRL_EN.get v = 1 → s.ringOn t r = false → s.ringSizeOk t r = true →
      8 ≤ r.val ∧ r.val < 12 → (s.ring t r).deferred = [c] → c.sq < 8 →
      Gives (.ringCtrlWrite t r v) s (fun u => taken u ∧ u.hostIdx t r = 0 ∧ u.devIdx t r = 1
        ∧ (let d := { c with phase := true, sqHead := s.devIdx t c.sq }
           .ringEntry t r (s.entryAddr t r 0) (.completion d) d.bytes ∈ u.out)
        ∧ (u.ring t r).deferred = [] ∧ (u.ring t r).reserved = (s.ring t r).reserved - 1 ∧ others u
        ∧ Frame [ctrl, RING_HOST_IDX t r, RING_DEV_IDX t r] [.rings] s u))
    ∧ (RING_CTRL_EN.get v = 0 → s.ringOn t r = true →
      Gives (.ringCtrlWrite t r v) s (fun u => taken u ∧ u.ringOn t r = false
        ∧ u.ring t r = { s.ring t r with fetched := [], aged := false } ∧ others u
        ∧ (let k := 16 * t.val + r.val
          u.hif.agedOrder = s.hif.agedOrder.filter (· != k) ∧ u.hif.fences = s.hif.fences.filter (· != k)
            ∧ u.hif.shortWait = s.hif.shortWait.filter (· != k) ∧ u.hif.slot = s.hif.slot)
        ∧ Frame [ctrl] [.rings, .sched] s u))
    ∧ Gives (.ringStatWrite t r v) s (fun u =>
        u.bit (RING_STAT t r) RING_STAT_BADIDX = (s.bit (RING_STAT t r) RING_STAT_BADIDX && RING_STAT_BADIDX.get v == 0)
        ∧ u.bit (RING_STAT t r) RING_STAT_CFGREJ = (s.bit (RING_STAT t r) RING_STAT_CFGREJ && RING_STAT_CFGREJ.get v == 0)
        ∧ u.bit (RING_STAT t r) RING_STAT_DROP = (s.bit (RING_STAT t r) RING_STAT_DROP && RING_STAT_DROP.get v == 0)
        ∧ u.fld (RING_STAT t r) RING_STAT_DROPCNT =
          (if RING_STAT_DROP.get v = 1 then 0 else s.fld (RING_STAT t r) RING_STAT_DROPCNT)
        ∧ OnlyRegs [RING_STAT t r] s u)

/-- FLR of VF n: every register of tenant n's page but TPG_FLR returns to its reset value, FLRCNT increments
(saturating), the registers outside the page keep theirs, its rings are idle and those of other tenants stay, its
captures (channels 0-47) end with CAUSE 5 in their HIF_DMA_STAT, and its other commands in flight are marked so that
their completions are discarded. A PF FLR, hot reset or link down does that for every tenant, makes NumVFs 0, and
takes every host channel to IDLE with CAUSE PCIE_DOWN and its other registers to their reset values; link down also
raises HIF_LINKDN (327). A reset named for VF 0, which is no VF, changes nothing. An AER error raises HIF_AERUNC
(328). An access that R59 does not allow raises HIF_ACCESS (326), and a read is answered as unsupported. (R65, R109,
R111, R59) -/
def Obligations.FunctionResets : Prop :=
  let quietPart := [Part.rings, .sched, .chans, .inflight, .cmp, .blk]
  (∀ (n : Tenant) (s : State), n.val ≠ 0 → (∀ e ∈ s.cmp.grabs, e.1 < 48) →
      Gives (.flrVf n) s (fun u =>
        (∀ a, inPage n a = true → a ≠ TPG_FLR n → u.rd a = resetAt a)
        ∧ u.fld (TPG_FLR n) TPG_FLR_FLRCNT = min (s.fld (TPG_FLR n) TPG_FLR_FLRCNT + 1) 65535
        ∧ (∀ e ∈ s.cmp.grabs, e.2.tenant = n.val → u.fld (HIF_DMA_STAT e.1) HIF_DMA_STAT_CAUSE = 5)
        ∧ (∀ a, inPage n a = false → (∀ e ∈ s.cmp.grabs, e.2.tenant = n.val → a ≠ HIF_DMA_STAT e.1) → u.rd a = s.rd a)
        ∧ (∀ t r : Nat, r < 16 → u.ring t r = if t = n.val then Ring.idle else s.ring t r)
        ∧ (∀ c ∈ u.hif.inflight, c.tenant = n.val → c.discard = true)
        ∧ u.cmp = { s.cmp with grabs := s.cmp.grabs.filter (fun e => e.2.tenant != n.val) }
        ∧ u.hif.numVfs = s.hif.numVfs ∧ SameMem s u ∧ SameParts [.rings, .sched, .inflight, .cmp] s u))
    ∧ (∀ s : State, Gives (.flrVf 0) s (OnlyRegs [] s))
    ∧ (∀ s : State, (∀ e ∈ s.cmp.grabs, e.1 < 48) → let u := s.pfReset
      Answers (.pfFlr .flr) s u ∧ Answers (.pfFlr .hotReset) s u ∧ Answers (.pfFlr .linkDown) s (u.raise 327)
        ∧ u.hif.numVfs = 0 ∧ (∀ t r : Nat, t < 1024 → r < 16 → u.ring t r = Ring.idle)
        ∧ (∀ (t : Tenant) (a : Nat), inPage t a = true → a ≠ TPG_FLR t → u.rd a = resetAt a)
        ∧ (∀ t : Tenant, u.fld (TPG_FLR t) TPG_FLR_FLRCNT = min (s.fld (TPG_FLR t) TPG_FLR_FLRCNT + 1) 65535)
        ∧ (∀ c : HostCh, u.chan (48 + c.val) = Chan.idle ∧ u.chanState (48 + c.val) = 0
          ∧ u.fld (HIF_DMA_STAT (48 + c.val)) HIF_DMA_STAT_CAUSE = 6
          ∧ ∀ a, HIF_DMA_CTRL (48 + c.val) ≤ a → a < HIF_DMA_CTRL (48 + c.val) + 0x40 → a ≠ HIF_DMA_STAT (48 + c.val) →
            u.rd a = resetAt a)
        ∧ u.hif.inflight.all (fun c => decide (1024 ≤ c.tenant) || c.discard) = true
        ∧ u.cmp.grabs.all (fun e => decide (1024 ≤ e.2.tenant)) = true
        ∧ SameMem s u ∧ SameParts quietPart s u)
    ∧ (∀ s : State, Answers .hifAerunc s (s.raise 328))
    ∧ (∀ (t : Tenant) (s : State), Answers (.barAccessUnsupported t true) s (s.raise 326))
    ∧ (∀ (t : Tenant) (s : State), Answers (.barAccessUnsupported t false) s ((s.raise 326).emit (.unsupported t)))

/-- Writes of a host channel: enabling and disabling it, PIDX, RESUME and ABORT. (R77, R97, R98, R102, R103, R104,
R108) -/
def Obligations.DmaChannelControl : Prop :=
  ∀ (n : HostCh) (v : Word) (s : State), s.pwr.barred = false →
    let k := 48 + n.val
    let ctrl := HIF_DMA_CTRL k
    let stat := HIF_DMA_STAT k
    let x := s.chan k
    let size := s.fld (HIF_DMA_RBASE_LO k) HIF_DMA_RBASE_LO_LOG2SIZE
    let plain : Prop := HIF_DMA_CTRL_RESUME.get v = 0 ∧ HIF_DMA_CTRL_ABORT.get v = 0
    let taken := fun (u : State) => u.rd ctrl = (s.fieldWrite ctrl v).rd ctrl
    (HIF_DMA_CTRL_EN.get v = 1 → s.chanEn k = false → ¬(6 ≤ size ∧ size ≤ 16) →
      Answers (.dmaEnable n v) s (s.raise 321))
    ∧ (HIF_DMA_CTRL_EN.get v = 1 → plain → (6 ≤ size ∧ size ≤ 16) ∨ s.chanEn k = true → x.desc = none →
      Gives (.dmaEnable n v) s (fun u => taken u
        ∧ u.chanState k = (if s.chanState k = 0 ∧ HIF_DMA_CTRL_REQSEL.get v ≤ 18 ∧ s.chanQueued k ≠ 0 then 1 else s.chanState k)
        ∧ u.chan k = { x with stopping := false } ∧ Frame [ctrl, stat] [.chans] s u))
    ∧ (HIF_DMA_CTRL_EN.get v = 0 → plain → s.chanEn k = false ∨ s.chanState k ≠ 1 →
      Gives (.dmaEnable n v) s (fun u => taken u ∧ OnlyRegs [ctrl] s u))
    ∧ (HIF_DMA_CTRL_EN.get v = 0 → plain → s.chanEn k = true → s.chanState k = 1 → x.burst = 0 →
      Gives (.dmaEnable n v) s (fun u => taken u ∧ u.chanState k = 0 ∧ u.chan k = Chan.idle
        ∧ Frame [ctrl, stat] [.chans, .blk] s u))
    ∧ (let t := s.fieldWrite (HIF_DMA_PIDX k) v
      let go : Prop := t.chanEn k = true ∧ t.chanState k = 0 ∧ t.reqsel k ≤ 18 ∧ t.chanQueued k ≠ 0
      t.fld (HIF_DMA_PIDX k) HIF_DMA_PIDX_IDX = HIF_DMA_PIDX_IDX.get v
      ∧ OnlyRegs [HIF_DMA_PIDX k] s t
      ∧ (go → Answers (.dmaPidxWrite n v) s (t.setFld stat HIF_DMA_STAT_STATE 1))
      ∧ (¬go → Answers (.dmaPidxWrite n v) s t))
    ∧ (s.chanState k ≠ 2 ∨ 18 < s.reqsel k → Gives (.dmaResume n) s (OnlyRegs [] s))
    ∧ (s.chanState k = 2 → s.reqsel k ≤ 18 → s.chanEn k = true → x.desc = none →
      Gives (.dmaResume n) s (fun u => u.chanState k = 1 ∧ u.fld stat HIF_DMA_STAT_TRIES = 0
        ∧ (u.chan k).desc = none ∧ (u.chan k).burst = 0 ∧ Frame [stat] [.chans] s u))
    ∧ (∀ d : Desc, s.chanState k = 2 → s.reqsel k = 0 → s.chanEn k = true → x.desc = some d → d.remote = false →
      Gives (.dmaResume n) s (fun u => u.chanState k = 1 ∧ u.fld stat HIF_DMA_STAT_TRIES = 0
        ∧ (u.chan k).desc = some d ∧ (u.chan k).moved = x.moved ∧ (u.chan k).burst = s.nextBurst k d x.moved
        ∧ (u.chan k).waiting = false ∧ Frame [stat] [.chans] s u))
    ∧ (s.chanState k = 2 → s.reqsel k ≤ 18 → s.chanEn k = false → x.desc = none →
      Gives (.dmaResume n) s (fun u => u.chanState k = 0 ∧ u.fld stat HIF_DMA_STAT_TRIES = 0
        ∧ u.chan k = Chan.idle ∧ Frame [stat] [.chans, .blk] s u))
    ∧ Gives (.dmaAbort n) s (fun u => u.chanState k = 0 ∧ u.fld stat HIF_DMA_STAT_CAUSE = 5
        ∧ u.fld (HIF_DMA_CIDX k) HIF_DMA_CIDX_IDX = s.fld (HIF_DMA_PIDX k) HIF_DMA_PIDX_IDX ∧ u.chan k = Chan.idle
        ∧ (∀ i, i < s.chanQueued k →
          .hostWrite (s.descAddr k (s.fld (HIF_DMA_CIDX k) HIF_DMA_CIDX_IDX + i) + 28) [5, 0, 0, 0x80] ∈ u.out)
        ∧ Frame [stat, HIF_DMA_CIDX k] [.chans, .blk] s u)

/-- What a descriptor, a request, a burst and a failed burst do. (R95, R96, R97, R98, R99, R101, R104, R105, R106,
R107) -/
def Obligations.DmaTransfers : Prop :=
  (∀ (n : HostCh) (s : State),
    let k := 48 + n.val
    let x := s.chan k
    let stat := HIF_DMA_STAT k
    let i := s.fld (HIF_DMA_CIDX k) HIF_DMA_CIDX_IDX
    let next := (i + 1) % 2 ^ s.fld (HIF_DMA_RBASE_LO k) HIF_DMA_RBASE_LO_LOG2SIZE
    let a := fun (d : Desc) => d.haddr + x.moved
    (∀ e : BitVec 256, s.chanState k = 1 → x.desc = none → s.chanQueued k ≠ 0 →
      let d := descOf e
      (d.aligned = false → Answers (.dmaDescriptorFetch n e) s (((s.writeBack k i 1).raise 323).chanHalt k 1))
      ∧ (d.aligned = true → Memory.size < d.offset + d.len →
        Answers (.dmaDescriptorFetch n e) s (((s.writeBack k i 2).raise 323).chanHalt k 2))
      ∧ (d.aligned = true → d.offset + d.len ≤ Memory.size → d.remote = false → s.reqsel k = 0 →
        Gives (.dmaDescriptorFetch n e) s (fun u =>
          u.chan k = { Chan.idle with desc := some d, burst := s.nextBurst k d 0, paid := true } ∧ Frame [] [.chans] s u))
      ∧ (d.aligned = true → d.offset + d.len ≤ Memory.size → d.remote = false → s.reqsel k ≠ 0 →
        s.fld stat HIF_DMA_STAT_PENDREQ = 0 → Gives (.dmaDescriptorFetch n e) s (fun u =>
          u.chan k = { Chan.idle with desc := some d } ∧ Frame [] [.chans] s u)))
    ∧ (∀ e : BitVec 256, s.chanState k ≠ 1 ∨ x.desc ≠ none ∨ s.chanQueued k = 0 →
      Gives (.dmaDescriptorFetch n e) s (OnlyRegs [] s))
    ∧ (∀ (d : Desc) (data : List Byte), s.chanState k = 1 → x.desc = some d → x.burst ≠ 0 → x.waiting = false →
      x.stopping = false → d.remote = false → x.moved + x.burst < d.len →
      let goes := fun (u : State) => u.rd (HIF_DMA_BYTES k) = s.rd (HIF_DMA_BYTES k) + BitVec.ofNat 32 x.burst
        ∧ (u.chan k).moved = x.moved + x.burst ∧ (u.chan k).desc = some d
      (d.toHost = false → Gives (.dmaBurstDone n data) s (fun u => goes u
        ∧ u.mem = Memory.writes s.mem (d.offset + x.moved) (data.take x.burst)
        ∧ SameRegs [HIF_DMA_BYTES k, stat] s u ∧ SameParts [.chans] s u))
      ∧ (d.toHost = true → Gives (.dmaBurstDone n data) s (fun u => goes u
        ∧ .hostWrite (a d) (Memory.reads s.mem (d.offset + x.moved) x.burst) ∈ u.out
        ∧ Frame [HIF_DMA_BYTES k, stat] [.chans] s u)))
    ∧ (∀ (d : Desc) (data : List Byte), s.chanState k = 1 → x.desc = some d → x.burst ≠ 0 → x.waiting = false →
      d.remote = false → d.toHost = false → x.moved + x.burst = d.len →
      Gives (.dmaBurstDone n data) s (fun u =>
        u.mem = Memory.writes s.mem (d.offset + x.moved) (data.take x.burst)
        ∧ u.rd (HIF_DMA_BYTES k) = s.rd (HIF_DMA_BYTES k) + BitVec.ofNat 32 x.burst
        ∧ .hostWrite (s.descAddr k i + 28) [0, 0, 0, 0x80] ∈ u.out
        ∧ u.fld (HIF_DMA_CIDX k) HIF_DMA_CIDX_IDX = next % 65536 ∧ u.chan k = Chan.idle
        ∧ (d.irq = true → u.bit stat HIF_DMA_STAT_DONE = true)
        ∧ SameRegs [HIF_DMA_BYTES k, HIF_DMA_CIDX k, stat] s u ∧ SameParts [.chans] s u))
    ∧ (∀ (d : Desc) (mv : Word), s.chanState k = 1 → x.desc = some d → x.burst ≠ 0 → x.waiting = false →
      (d.toHost = true → Gives (.dmaBurstFail ⟨k, by omega⟩ mv) s (OnlyRegs [] s))
      ∧ (d.toHost = false → x.tries < s.fld (HIF_DMA_CTRL k) HIF_DMA_CTRL_RETRY →
        Answers (.dmaBurstFail ⟨k, by omega⟩ mv) s
          (((s.setChan k { x with waiting := true, tries := x.tries + 1 }).setFld stat HIF_DMA_STAT_TRIES
            (x.tries + 1)).raise 324))
      ∧ (d.toHost = false → s.fld (HIF_DMA_CTRL k) HIF_DMA_CTRL_RETRY ≤ x.tries →
        ∃ t, Answers (.dmaBurstFail ⟨k, by omega⟩ mv) s (t.raise 325)
          ∧ t.chanState k = 2 ∧ t.fld stat HIF_DMA_STAT_CAUSE = 3
          ∧ t.rd (HIF_DMA_ERRADDR_LO k) = BitVec.ofNat 32 (a d)
          ∧ t.rd (HIF_DMA_ERRADDR_HI k) = BitVec.ofNat 32 (a d / 2 ^ 32)
          ∧ Frame [stat, HIF_DMA_ERRADDR_LO k, HIF_DMA_ERRADDR_HI k] [.blk] s t))
    ∧ Gives (.dmaRetryTimer ⟨k, by omega⟩) s (fun u => u.chan k = { x with waiting := false }
        ∧ (∀ m, m ≠ k → u.chan m = s.chan m) ∧ Frame [] [.chans] s u))
    ∧ (∀ (line : BitVec 7) (s : State), line.toNat = 0 ∨ 18 < line.toNat → Gives (.dmaRequest line) s (OnlyRegs [] s))
    ∧ (∀ (line : BitVec 7) (s : State), 1 ≤ line.toNat → line.toNat ≤ 18 →
      (∀ c : HostCh, s.reqsel (48 + c.val) = line.toNat → (s.chan (48 + c.val)).desc = none) →
      Gives (.dmaRequest line) s (fun u =>
        (∀ c : HostCh, s.reqsel (48 + c.val) = line.toNat → let p := s.fld (HIF_DMA_STAT (48 + c.val)) HIF_DMA_STAT_PENDREQ
          u.fld (HIF_DMA_STAT (48 + c.val)) HIF_DMA_STAT_PENDREQ = min 255 (p + 1)
          ∧ (p = 255 → u.bit (HIF_DMA_STAT (48 + c.val)) HIF_DMA_STAT_REQOVF = true))
        ∧ (∀ c : HostCh, s.reqsel (48 + c.val) ≠ line.toNat →
          u.rd (HIF_DMA_STAT (48 + c.val)) = s.rd (HIF_DMA_STAT (48 + c.val)))
        ∧ OnlyRegs ((List.range 16).map (fun c => HIF_DMA_STAT (48 + c))) s u))
    ∧ (∀ (c : Fin 48) (mv : Word) (s : State),
      let n : Fin 64 := ⟨c.val, by omega⟩
      let x := s.chan c
      let tries := if x.moved = mv.toNat then x.tries else 0
      (s.commandReads c = none → Gives (.dmaBurstFail n mv) s (OnlyRegs [] s))
      ∧ (∀ a : Nat, s.commandReads c = some a → x.waiting = false →
        (tries < s.fld (HIF_DMA_CTRL c) HIF_DMA_CTRL_RETRY →
          Answers (.dmaBurstFail n mv) s
            (((s.setChan c { Chan.idle with moved := mv.toNat, waiting := true, tries := tries + 1 }).setFld
              (HIF_DMA_STAT c) HIF_DMA_STAT_TRIES (tries + 1)).raise 324))
        ∧ (s.fld (HIF_DMA_CTRL c) HIF_DMA_CTRL_RETRY ≤ tries → s.svc.channel ≠ some c.val →
          ∃ t, Answers (.dmaBurstFail n mv) s (t.failChannel c .aborted)
            ∧ t.fld (HIF_DMA_STAT c) HIF_DMA_STAT_CAUSE = 3 ∧ t.fld (HIF_DMA_STAT c) HIF_DMA_STAT_TRIES = tries % 16
            ∧ t.chan c = Chan.idle ∧ t.rd (HIF_DMA_BYTES c) = s.rd (HIF_DMA_BYTES c) + mv
            ∧ t.rd (HIF_DMA_ERRADDR_LO c) = BitVec.ofNat 32 (a + mv.toNat)
            ∧ Frame [HIF_DMA_STAT c, HIF_DMA_ERRADDR_LO c, HIF_DMA_ERRADDR_HI c, HIF_DMA_BYTES c] [.chans] s t)))

/-- FSA_ECCFIX counts the word (saturating) and raises FSA_ECCFIX (166). FSA_ECCUNC counts it and raises FSA_ECCUNC
(167); then, when a synchroniser read it, the line is noted as showing the line before it; when a layer read it, the
tile is noted as transparent; when a command channel that a command holds read it, CAUSE is BUS_ERROR, ERRADDR names
the buffer of a capture, and the command fails with ABORTED (the firmware load as its own abort); when a host channel
was reading package memory for a local transfer to the host, it halts with BUS_ERROR; a host channel without a
descriptor is left as it is. (R107, R252) -/
def Obligations.PackageMemoryErrors : Prop :=
  ∀ s : State,
    let t := (s.inc FSA_ECCUNC FSA_ECCUNC_COUNT).raise 167
    (∀ (k : Track) (l : BitVec 11), (t.aligner k).substituted.contains l.toNat = false →
      ∃ u, Answers (.fsaEccunc (.synchroniser k l)) s u
        ∧ u.aligner k = { t.aligner k with substituted := (t.aligner k).substituted ++ [l.toNat] } ∧ Frame [] [.fsa] t u)
    ∧ (∀ (c : Canvas) (i : Fin 32) (tile : Nat), ∃ u, Answers (.fsaEccunc (.surface c i tile)) s u
        ∧ u.canvas c.val = { t.canvas c.val with badTiles := (t.canvas c.val).badTiles ++ [(i.val, tile)] }
        ∧ Frame [] [.cmp] t u)
    ∧ (∀ c : Fin 64, c.val < 48 →
      (s.channelsBusy.contains c.val = false → Answers (.fsaEccunc (.dma c)) s t)
      ∧ (s.channelsBusy.contains c.val = true → ∃ w,
        Answers (.fsaEccunc (.dma c)) s (if w.svc.channel = some c.val then w.svcAborted else w.failChannel c.val .aborted)
        ∧ w.fld (HIF_DMA_STAT c.val) HIF_DMA_STAT_CAUSE = 3
        ∧ (∀ g : Grab, Tbl.find? s.cmp.grabs c.val = some g →
          w.rd (HIF_DMA_ERRADDR_LO c.val) = BitVec.ofNat 32 g.buffer
          ∧ w.rd (HIF_DMA_ERRADDR_HI c.val) = BitVec.ofNat 32 (g.buffer / 2 ^ 32))
        ∧ OnlyRegs [HIF_DMA_STAT c.val, HIF_DMA_ERRADDR_LO c.val, HIF_DMA_ERRADDR_HI c.val] t w))
    ∧ (∀ (c : Fin 64) (d : Desc), 48 ≤ c.val → (t.chan c.val).desc = some d → t.chanState c.val = 1 → d.toHost = true →
      d.remote = false → Answers (.fsaEccunc (.dma c)) s (t.chanHalt c.val 3))
    ∧ (∀ c : Fin 64, 48 ≤ c.val → (t.chan c.val).desc = none → Answers (.fsaEccunc (.dma c)) s t)
    ∧ Answers .fsaEccfix s ((s.inc FSA_ECCFIX FSA_ECCFIX_COUNT).raise 166)

/-- RDMA_WR whose bytes lie in package memory writes data byte i to offset + i and leaves every other byte, every
register and every other part of the state. RDMA_RD and FLUSH answer a sender that can be reached with a CPL (the
bytes read, or none) and change no register, no memory and nothing but the control stream. FW notes which links its
sender has; with no salvo open it changes nothing else, but that after the election a tuple of the JOIN list whose
node has gone may leave it. (R220, R407, R408, R412) -/
def Obligations.RemoteDmaAndMessages : Prop :=
  ∀ (src : Node) (s : State),
    (∀ (off : BitVec 36) (data : List Byte), off.toNat + data.length ≤ Memory.size →
      Gives (.rdmaWr src off data) s (fun u =>
        (∀ i, i < data.length → Memory.read u.mem (off.toNat + i) = data.getD i 0)
        ∧ (∀ a, a < off.toNat ∨ off.toNat + data.length ≤ a → Memory.read u.mem a = Memory.read s.mem a)
        ∧ SameRegs [] s u ∧ SameParts [] s u))
    ∧ (∀ (tag : Byte) (off : BitVec 36) (n : Byte), off.toNat + 8 * n.toNat ≤ Memory.size →
      Gives (.rdmaRd src tag off n) s (fun u => Frame [] [.blk] s u
        ∧ (∀ k, s.pathLink src.val = some k →
          .msg src.val (.cpl tag.toNat false (Memory.reads s.mem off.toNat (8 * n.toNat))) ∈ u.out)))
    ∧ (∀ tag : Byte, Gives (.flush src tag) s (fun u => Frame [] [.blk] s u
        ∧ (∀ k, s.pathLink src.val = some k → .msg src.val (.cpl tag.toNat false []) ∈ u.out)))
    ∧ (∀ (links : BitVec 4) (body : List Byte), s.sal.slots = [] → Gives (.fw src links body) s (fun u =>
        u.blk.peerLinks = Tbl.put s.blk.peerLinks src.val links.toNat
        ∧ { u.blk with peerLinks := [], joins := [] } = { s.blk with peerLinks := [], joins := [] }
        ∧ (s.fld BLK_NODE BLK_NODE_FSTATE < 2 → u.blk.joins = s.blk.joins)
        ∧ (∀ x, x ∈ s.blk.joins → (∃ e ∈ s.blk.nodes, e.2 = x ∧ e.1 = s.ownNode) → x ∈ u.blk.joins)
        ∧ (∀ x, x ∈ u.blk.joins → x ∈ s.blk.joins) ∧ Frame [] [.blk] s u))

/-- Remote register access: what starts it, what a completion, a late one and a timeout do. (R398, R407, R408, R409,
R410) -/
def Obligations.RemoteRegisterAccess : Prop :=
  ∀ s : State,
    let node := s.fld BLK_RR_ADDR BLK_RR_ADDR_NODE
    (s.pwr.barred = false → s.bit BLK_RR_STAT BLK_RR_STAT_BUSY = true →
      Gives .remoteRegRead s (OnlyRegs [] s) ∧ Gives .remoteRegWrite s (OnlyRegs [] s))
    ∧ (s.pwr.barred = false → s.bit BLK_RR_STAT BLK_RR_STAT_BUSY = false →
      s.blk.reqs.any (fun e => e.2.kind == 0) = false → s.blk.rrWrite = false →
      (s.reach node = true → s.freeReqs ≠ 0 → Gives .remoteRegRead s (fun u => u.bit BLK_RR_STAT BLK_RR_STAT_BUSY = true
        ∧ Tbl.find? u.blk.reqs s.freeTag = some ⟨0, node, 0, 0, 4⟩
        ∧ .msg node (.rregRd s.freeTag (s.fld BLK_RR_ADDR BLK_RR_ADDR_ADDR)) ∈ u.out
        ∧ Frame [BLK_RR_STAT] [.blk] s u))
      ∧ (s.reach node = false → Gives .remoteRegRead s (fun u => u.bit BLK_RR_STAT BLK_RR_STAT_BUSY = false
        ∧ u.fld BLK_RR_STAT BLK_RR_STAT_STATUS = 1 ∧ u.rd BLK_RR_RDATA = 0xFFFFFFFF#32
        ∧ OnlyRegs [BLK_RR_STAT, BLK_RR_RDATA] s u)))
    ∧ (s.pwr.barred = false → s.bit BLK_RR_STAT BLK_RR_STAT_BUSY = false →
      (s.reach node = true → Gives .remoteRegWrite s (fun u => u.fld BLK_RR_STAT BLK_RR_STAT_STATUS = 0
        ∧ u.bit BLK_RR_STAT BLK_RR_STAT_BUSY = u.blk.rrWrite
        ∧ u.blk.rrWrite = u.blk.links.any (fun e => e.2.waiting.any (fun f => f.rr))
        ∧ .msg node (.rregWr (s.fld BLK_RR_ADDR BLK_RR_ADDR_ADDR) (s.rd BLK_RR_WDATA)) ∈ u.out
        ∧ Frame [BLK_RR_STAT] [.blk] s u))
      ∧ (s.reach node = false → Answers .remoteRegWrite s
        (((s.setFld BLK_RR_STAT BLK_RR_STAT_STATUS 0).incBy BLK_PWLOST BLK_PWLOST_COUNT 1).raise 42)))
    ∧ (∀ (src : Node) (tag : Byte) (rej : Bool) (data : List Byte),
      (∀ r, Tbl.find? s.blk.reqs tag.toNat = some r → r.node ≠ src.val) →
      Gives (.cpl src tag rej data) s (fun u =>
        u.fld BLK_LATECPL BLK_LATECPL_COUNT = min (s.fld BLK_LATECPL BLK_LATECPL_COUNT + 1) (2 ^ 32 - 1)
        ∧ OnlyRegs [BLK_LATECPL] s u))
    ∧ (∀ (src : Node) (tag : Byte) (rej : Bool) (data : List Byte) (r : Req),
      Tbl.find? s.blk.reqs tag.toNat = some r → r.node = src.val → r.kind = 0 →
      (∀ c : HostCh, s.chanState (48 + c.val) ≠ 1) →
      Gives (.cpl src tag rej data) s (fun u => u.bit BLK_RR_STAT BLK_RR_STAT_BUSY = false
        ∧ u.fld BLK_RR_STAT BLK_RR_STAT_STATUS = (if rej then 2 else 0)
        ∧ u.rd BLK_RR_RDATA = (if rej then 0xFFFFFFFF#32 else wordOf data)
        ∧ u.blk = { s.blk with reqs := Tbl.del s.blk.reqs tag.toNat } ∧ Frame [BLK_RR_STAT, BLK_RR_RDATA] [.blk] s u))
    ∧ (∀ tag : Byte, Tbl.find? s.blk.reqs tag.toNat = none → Gives (.blkRtimeout tag) s (OnlyRegs [] s))
    ∧ (∀ (tag : Byte) (r : Req), Tbl.find? s.blk.reqs tag.toNat = some r → r.kind = 0 →
      Answers (.blkRtimeout tag) s
        ((((s.setBlk { s.blk with reqs := Tbl.del s.blk.reqs tag.toNat }).inc BLK_RTIMEOUT BLK_RTIMEOUT_COUNT).raise
          41).rrLost.pumpAll))
    ∧ (∀ (src : Node) (off : BitVec 26) (v : Word),
      (s.remoteOk off.toNat = true → Answers (.rregWr src off v) s (s.hostWrite off.toNat v))
      ∧ (s.remoteOk off.toNat = false → Answers (.rregWr src off v) s (s.countAccess off.toNat)))
    ∧ (∀ (src : Node) (tag : Byte) (off : BitVec 26), s.remoteOk off.toNat = true →
      Gives (.rregRd src tag off) s (fun u => Frame [] [.blk] s u
        ∧ (∀ k, s.pathLink src.val = some k → .msg src.val (.cpl tag.toNat false (bytesOf (s.readReg off.toNat))) ∈ u.out)))

/-- Configuration writes of links and trunks: what is refused and what is taken; CLRCNT and the superframe snapshot.
(R379, R380, R390, R392, R404, R406, R416, R418) -/
def Obligations.BolbenLinkConfiguration : Prop :=
  ∀ (s : State), s.pwr.barred = false →
    let status := (List.range 12).map BLK_L_STAT ++ (List.range 4).map BLK_TR_STAT ++ (List.range 96).map BLK_LANE_STAT
    (∀ (k : Link) (v : Word),
      let cfg := BLK_L_CFG k.val
      let lanes := s.linkLanes k.val
      let taken := fun (u : State) => u.rd cfg = (s.fieldWrite cfg v).rd cfg
      (s.linkEn k.val = true → BLK_L_CFG_TRUNK.get v ≠ s.fld cfg BLK_L_CFG_TRUNK →
        Answers (.blkLinkCfgWrite k v) s ((s.setBit BLK_ERR BLK_ERR_CFGREJ true).raise 43))
      ∧ (s.linkEn k.val = false → BLK_L_CFG_EN.get v = 1 →
        (lanes = [] ∨ 32 < lanes.length ∨ (∃ j, j ∈ lanes ∧ s.fenced (unitFlg (flgOf j)) = true)) →
        Answers (.blkLinkCfgWrite k v) s ((s.setBit BLK_ERR BLK_ERR_CFGREJ true).raise 43))
      ∧ (s.linkEn k.val = false → BLK_L_CFG_EN.get v = 1 → lanes ≠ [] → lanes.length ≤ 32 →
        (∀ j, j ∈ lanes → s.fenced (unitFlg (flgOf j)) = false ∧ unitFlg (flgOf j) ∉ s.bst.slicing) →
        ∃ w : State, taken w ∧ OnlyRegs (cfg :: status) s w ∧ Gives (.blkLinkCfgWrite k v) s (fun u =>
          u.linkState k.val = 1 ∧ u.link k.val = LinkCtl.idle ∧ u.fld (BLK_L_STAT k.val) BLK_L_STAT_BACKOFF = 0
          ∧ (∀ j, j ∈ lanes → u.bit PWR_DOMSTAT ⟨domFlg (flgOf j), 1⟩ = true)
          ∧ Frame (PWR_DOMSTAT :: status) [.blk] (w.retotal s.fabricTotal) u))
      ∧ (s.linkEn k.val = true → BLK_L_CFG_EN.get v = 0 → BLK_L_CFG_TRUNK.get v = s.fld cfg BLK_L_CFG_TRUNK →
        s.linkActive k.val = false →
        ∃ w : State, taken w ∧ OnlyRegs (cfg :: status) s w ∧ Gives (.blkLinkCfgWrite k v) s (fun u =>
          u.linkState k.val = 0 ∧ u.link k.val = { LinkCtl.idle with fails := (s.link k.val).fails }
          ∧ Frame status [.blk] (w.retotal s.fabricTotal) u))
      ∧ (BLK_L_CFG_EN.get v = (if s.linkEn k.val then 1 else 0) →
        (s.linkEn k.val = true → BLK_L_CFG_TRUNK.get v = s.fld cfg BLK_L_CFG_TRUNK) →
        ∃ w : State, taken w ∧ w.linkState k.val = s.linkState k.val ∧ OnlyRegs (cfg :: status) s w
          ∧ Answers (.blkLinkCfgWrite k v) s (w.retotal s.fabricTotal)))
    ∧ (∀ (w : State) (n : Nat), (w.fabricTotal = n → w.retotal n = w)
      ∧ (w.fabricTotal ≠ n → w.retotal n = w.changeTotal 1 w.fabricTotal 33))
    ∧ (∀ (t : Trunk) (inb : Bool) (v : Word),
      let reg := fun (u : Nat) => if inb then BLK_TR_ISLOT u else BLK_TR_OSLOT u
      let b := BLK_TR_OSLOT_BASE.get v
      let n := BLK_TR_OSLOT_CNT.get v
      let meetsOne : Prop := ∃ u : Nat, u < 4 ∧ u ≠ t.val
        ∧ meets b n (s.fld (reg u) BLK_TR_OSLOT_BASE) (s.fld (reg u) BLK_TR_OSLOT_CNT) = true
      let bad : Prop := 1792 < b + n ∨ s.trunkCap t.val < n ∨ s.trunkUp t.val = true ∨ meetsOne
      (bad → Answers (.blkTrunkSlotWrite t inb v) s ((s.setBit BLK_ERR BLK_ERR_CFGREJ true).raise 43))
      ∧ (¬bad → ∃ w : State, w.fld (reg t.val) BLK_TR_OSLOT_BASE = b ∧ w.fld (reg t.val) BLK_TR_OSLOT_CNT = n
        ∧ OnlyRegs [reg t.val] s w ∧ Answers (.blkTrunkSlotWrite t inb v) s ((w.settleTrunk t.val).offerTrunk t.val))
      ∧ (¬bad → s.trunkReady t.val = false → Gives (.blkTrunkSlotWrite t inb v) s (fun u =>
        u.fld (reg t.val) BLK_TR_OSLOT_BASE = b ∧ u.fld (reg t.val) BLK_TR_OSLOT_CNT = n ∧ Frame [reg t.val] [.blk] s u)))
    ∧ (let l := [BLK_RTIMEOUT, BLK_LATECPL, BLK_PWLOST, BLK_MISROUTE] ++ (List.range 4).map BLK_TR_LINES
          ++ (List.range 12).flatMap (fun k => [BLK_L_BLKERR k, BLK_L_VOID k, BLK_L_REPLAY k, BLK_L_TRFAIL k])
      Gives .blkClrcnt s (fun u => (∀ a, a ∈ l → u.rd a = 0) ∧ OnlyRegs l s u))
    ∧ Gives .blkFtimeSnap s (fun u =>
        u.rd BLK_FTIME_LO = BitVec.ofNat 32 s.superframes ∧ u.rd BLK_FTIME_HI = BitVec.ofNat 32 (s.superframes / 2 ^ 32)
        ∧ OnlyRegs [BLK_FTIME_LO, BLK_FTIME_HI] s u)

/-- Block lock, its loss, and what a block received does. (R235, R382, R383, R385, R386, R391, R395, R399, R404) -/
def Obligations.BlockLockAndBlocks : Prop :=
  (∀ (j : BLane) (s : State), s.laneLink j.val = none ∨ (∃ k, s.laneLink j.val = some k ∧ s.linkEn k = false) →
      (∀ l, Gives (.blockLock j l) s (OnlyRegs [] s))
      ∧ ∀ line out l fm, Gives (.blockReceived j line out l fm) s (OnlyRegs [] s))
    ∧ (∀ (j : BLane) (s : State) (k : Nat), s.laneLink j.val = some k →
    let st := BLK_LANE_STAT j.val
    let pairs := fun (l : List (Track × BitVec 11)) => l.map (fun x => (x.1.val, x.2.toNat))
    let locked := fun (u : State) => u.bit st BLK_LANE_STAT_BLOCK = true ∧ u.bit st BLK_LANE_STAT_CDR = true
      ∧ u.bit st BLK_LANE_STAT_LOS = false
    (∀ l : List (Track × BitVec 11), s.linkEn k = true → Tbl.find? s.blk.lockLost j.val = none →
      Gives (.blockLock j l) s (fun u => locked u ∧ OnlyRegs [st] s u))
    ∧ (∀ (l : List (Track × BitVec 11)) (a : Nat), s.linkEn k = true → Tbl.find? s.blk.lockLost j.val = some a →
      let n := (s.now - a) * 9 / 256
      (n = 0 → Gives (.blockLock j l) s (fun u => locked u ∧ Tbl.find? u.blk.lockLost j.val = none ∧ Frame [st] [.blk] s u))
      ∧ (n ≠ 0 →
      ∃ t, Answers (.blockLock j l) s (((t.blkHist k 2).badLines k (pairs l)).sendNak k) ∧ locked t
        ∧ t.fld (BLK_L_BLKERR k) BLK_L_BLKERR_COUNT = min (s.fld (BLK_L_BLKERR k) BLK_L_BLKERR_COUNT + n) (2 ^ 32 - 1)
        ∧ t.blk = { s.blk with lockLost := Tbl.del s.blk.lockLost j.val, lanes := t.blk.lanes }
        ∧ t.blane j.val = { s.blane j.val with rxScr := (s.blane j.val).rxScr.map (scramblerAfter (1581 * n)) }
        ∧ Frame [st, BLK_L_BLKERR k] [.blk] s t))
    ∧ (s.bit st BLK_LANE_STAT_BLOCK = false → Gives (.blockLockLoss j false) s (OnlyRegs [] s))
    ∧ (∀ los : Bool, los = true ∨ s.bit st BLK_LANE_STAT_BLOCK = true →
      let lost := fun (u : State) => u.bit st BLK_LANE_STAT_BLOCK = false
        ∧ u.bit st BLK_LANE_STAT_LOS = (los || s.bit st BLK_LANE_STAT_LOS)
        ∧ u.bit st BLK_LANE_STAT_CDR = (!los && s.bit st BLK_LANE_STAT_CDR)
      (s.linkActive k = false → Gives (.blockLockLoss j los) s (fun u => lost u ∧ OnlyRegs [st] s u))
      ∧ (s.linkActive k = true → los = false → Gives (.blockLockLoss j los) s (fun u => lost u
        ∧ u.blk = { s.blk with lockLost := Tbl.put s.blk.lockLost j.val s.now } ∧ Frame [st] [.blk] s u))
      ∧ (s.linkActive k = true → los = true → ∃ t, Answers (.blockLockLoss j los) s (t.linkLeaves k 1) ∧ lost t
        ∧ OnlyRegs [st] s t))
    ∧ (s.bit st BLK_LANE_STAT_BLOCK = true → Gives (.blockLockLossTimeout j) s (OnlyRegs [] s))
    ∧ (s.bit st BLK_LANE_STAT_BLOCK = false → Answers (.blockLockLossTimeout j) s (s.linkLeaves k 1))
    ∧ (∀ (line : BitVec 1600) (out : BitVec 1536) (l : List (Track × BitVec 11)) (fm : List (Track × BitVec 64)),
      s.linkEn k = true →
      let c := Instr.blockReceived j line out l fm
      let t := s.sendLane k j.val out
      let with' := fun (r : Nat) => t.setBlane j.val { t.blane j.val with rxScr := some r }
      let n := (s.linkLanes k).length
      let trunk := s.fld (BLK_L_CFG k) BLK_L_CFG_TRUNK
      (s.bit st BLK_LANE_STAT_BLOCK = false → Answers c s t)
      ∧ (s.bit st BLK_LANE_STAT_BLOCK = true → (s.blane j.val).rxScr = none →
        (s.linkState k = 2 → Answers c s (with' (syncScrambler (lsbBits 1600 line.toNat))))
        ∧ (s.linkState k ≠ 2 → Answers c s t))
      ∧ (∀ r : Nat, s.bit st BLK_LANE_STAT_BLOCK = true → (s.blane j.val).rxScr = some r →
        let b := receiveBlock r (lsbBits 1600 line.toNat)
        let w := with' (scramblerAfter 1581 r)
        let bad := (w.inc (BLK_L_BLKERR k) BLK_L_BLKERR_COUNT).blkHist k 2
        let bad := bad.setLink k { bad.link k with good := 0 }
        let good := w.setFld st BLK_LANE_STAT_POS (b.1.toNat / 128 % 32)
        let good := good.setLink k { good.link k with good := (good.link k).good + 1 }
        let taken := fun (u : State) (x : Option (BitVec 16)) =>
          let r := u.ctrlField k n (s.lanePosition k j.val) x
          exec c s = flitEffects k r.1 (State.signalEdges s r.2)
            ∧ ((s.link k).inStream.length + 2 * n < 8 → Answers c s r.2)
        let fails := b.1.getLsbD 12 = true ∨ blockCrc b.1 b.2.1 b.2.2.1 ≠ b.2.2.2.toNat
        (fails → (s.linkActive k = false → Answers c s bad)
          ∧ (s.linkActive k = true → taken ((bad.badLines k (pairs l)).sendNak k) none))
        ∧ (¬fails → (s.linkActive k = false → Answers c s good)
          ∧ (s.linkActive k = true → 4 ≤ trunk → taken good (some b.2.2.1))
          ∧ (s.linkActive k = true → trunk < 4 →
            taken (good.each fm (fun u x => u.reportInbound trunk (x.1.val, x.2.toNat))) (some b.2.2.1))))))
    ∧ (∀ (r blk pos : Nat) (pay : BitVec 1536) (ctrl : BitVec 16), blockVoid r blk pos pay ctrl = false →
      let hdr := blockHeader blk pos false
      receiveBlock r (sendBlock r blk pos pay ctrl) = (hdr, pay, ctrl, BitVec.ofNat 16 (blockCrc hdr pay ctrl))
      ∧ blockFails hdr pay ctrl (BitVec.ofNat 16 (blockCrc hdr pay ctrl)) = false)
    ∧ ∀ (r blk pos : Nat) (t : BitVec 768), blockVoid r blk pos (t ++ 0#768) 0 = false →
      syncScrambler (sendBlock r blk pos (t ++ 0#768) 0) = scramblerAfter 1581 r

/-- Training: each state goes on where its condition holds, and each failure returns to LOS. (R387, R401, R402, R403,
R404, R406, R414) -/
def Obligations.LinkTraining : Prop :=
  ∀ (k : Link) (far : FarEnd) (s : State),
    let st := BLK_L_STAT k.val
    let lanes := s.linkLanes k.val
    let laneSt := lanes.map BLK_LANE_STAT
    let calm : Prop := ¬(2 ≤ (s.link k.val).farPhase ∧ far.phase.val = 1)
    let seen := s.seeFar k.val far
    let to' := fun (n : Nat) => Gives (.trainingAdvance k far) s (fun u => u.linkState k.val = n
      ∧ (u.link k.val).farPhase = far.phase.val ∧ Frame (st :: laneSt) [.blk] s u)
    (s.linkState k.val = 1 →
      ((far.signal = true ∧ (s.link k.val).backoff = false) ∨ far.phase.val = 2 → to' 2)
      ∧ (¬((far.signal = true ∧ (s.link k.val).backoff = false) ∨ far.phase.val = 2) → to' 1))
    ∧ (s.linkState k.val = 2 → calm →
      let met : Prop := far.rxLock = true ∧ ∀ j, j ∈ lanes →
        s.bit (BLK_LANE_STAT j) BLK_LANE_STAT_BLOCK = true ∧ s.bit (BLK_LANE_STAT j) BLK_LANE_STAT_CDR = true
          ∧ (s.blane j).rxScr ≠ none
      (met → to' 3) ∧ (¬met → to' 2))
    ∧ (s.linkState k.val = 3 → calm →
      let met : Prop := far.done = true ∧ ∀ j, j ∈ lanes → j ∈ (s.link k.val).doneLanes
      (met → to' 4) ∧ (¬met → to' 3))
    ∧ (s.linkState k.val = 4 → calm →
      let met : Prop := ∀ j, j ∈ lanes → s.fld (BLK_LANE_STAT j) BLK_LANE_STAT_POS = s.lanePosition k.val j
      (far.skewPs.toNat ≤ 4000 → (met → to' 5) ∧ (¬met → to' 4))
      ∧ (4000 < far.skewPs.toNat →
        Answers (.trainingAdvance k far) s ((seen.setBit (BLK_L_HIST k.val) ⟨7, 1⟩ true).raise 39)))
    ∧ (s.linkState k.val = 5 → calm →
      let same : Prop := expCode far.expNodes.toNat = expCode (s.fld BLK_NODE BLK_NODE_EXPNODES)
      (far.chipId ≠ s.chipId → same → Gives (.trainingAdvance k far) s (fun u => u.linkState k.val = 6
        ∧ u.bit st BLK_L_STAT_PEERVALID = s.blk.nodes.any (fun e => e.2.2 == far.chipId)
        ∧ (∀ e, s.blk.nodes.find? (fun e => e.2.2 == far.chipId) = some e →
          u.fld st BLK_L_STAT_PEER = e.1 % 2 ^ BLK_L_STAT_PEER.width)
        ∧ (u.link k.val).farPrio = far.prio.toNat ∧ (u.link k.val).farTrunk = far.trunk.toNat ∧ (u.link k.val).good = 0
        ∧ u.rd (BLK_L_PEERID_LO k.val) = BitVec.ofNat 32 far.chipId.toNat
        ∧ u.rd (BLK_L_PEERID_HI k.val) = BitVec.ofNat 32 (far.chipId.toNat / 2 ^ 32)
        ∧ Frame (st :: BLK_L_PEERID_LO k.val :: BLK_L_PEERID_HI k.val :: laneSt) [.blk] s u))
      ∧ (far.chipId = s.chipId → Answers (.trainingAdvance k far) s
          (((seen.setBit (BLK_L_HIST k.val) ⟨6, 1⟩ true).raise 38).trainFail k.val))
      ∧ (far.chipId ≠ s.chipId → ¬same → Answers (.trainingAdvance k far) s (seen.trainFail k.val)))
    ∧ (s.linkState k.val = 6 → calm → (far.good = false ∨ (s.link k.val).good < 1000 → to' 6)
      ∧ (far.good = true → 1000 ≤ (s.link k.val).good →
        let trunk := s.fld (BLK_L_CFG k.val) BLK_L_CFG_TRUNK
        let x := s.link k.val
        let up := fun (u : State) => u.linkState k.val = 7 ∧ u.fld st BLK_L_STAT_BACKOFF = 0
        let new := { LinkCtl.idle with credits := fullCredits, farPrio := x.farPrio, farTrunk := x.farTrunk }
        (∃ w : State, up w ∧ w.link k.val = new ∧ Frame (st :: laneSt) [.blk] s w ∧ Answers (.trainingAdvance k far) s
          (let v := w.startElection k.val
          let v := if trunk < 4 then v.offerTrunk trunk else v
          if 4000 < far.trunkSkewPs.toNat then v.blkHist k.val 7 else v))
        ∧ (far.trunkSkewPs.toNat ≤ 4000 → 4 ≤ trunk →
          (s.fld BLK_NODE BLK_NODE_EXPNODES = 0 → Gives (.trainingAdvance k far) s (fun u => up u ∧ u.link k.val = new
            ∧ Frame (st :: laneSt) [.blk] s u))
          ∧ (s.fld BLK_NODE BLK_NODE_EXPNODES ≠ 0 → s.fld BLK_NODE BLK_NODE_FSTATE = 0 →
            Gives (.trainingAdvance k far) s (fun u => up u ∧ u.fld BLK_NODE BLK_NODE_FSTATE = 1
              ∧ u.blk.joins = [s.ownTuple] ∧ .join k.val s.ownTuple.1 s.ownTuple.2 ∈ u.out
              ∧ Frame (st :: BLK_NODE :: laneSt) [.blk] s u)))))
    ∧ (∀ (j : BLane) (q : TapReq) (far : Bool), s.laneLink j.val = some k.val → s.linkState k.val ≠ 3 →
      Gives (.tapRequest j q far) s (OnlyRegs [] s))
    ∧ (∀ (j : BLane), s.laneLink j.val = some k.val → s.linkState k.val = 3 →
      let a := BLK_LANE_STAT j.val
      let moves := fun (q : TapReq) (go : Nat × Nat → (Nat × Nat) × TapAnswer) =>
        (let r := go (s.fld a BLK_LANE_STAT_PRE, s.fld a BLK_LANE_STAT_POST)
        Gives (.tapRequest j q false) s (fun u => u.fld a BLK_LANE_STAT_PRE = r.1.1 ∧ u.fld a BLK_LANE_STAT_POST = r.1.2
          ∧ (u.blane j.val).asks = q ∧ (u.blane j.val).told = r.2 ∧ Frame [a] [.blk] s u))
        ∧ (let r := go (s.blane j.val).taps
        Gives (.tapRequest j q true) s (fun u => (u.blane j.val).taps = r.1 ∧ (u.blane j.val).answer = r.2
          ∧ .taps j.val r.1.1 (48 - r.1.1 - r.1.2) r.1.2 ∈ u.out ∧ Frame [] [.blk] s u))
      moves .hold (fun t => (t, .notUpdated))
      ∧ moves .preInc (fun t => if t.1 < 8 then ((t.1 + 1, t.2), .updated) else (t, .atLimit))
      ∧ moves .preDec (fun t => if t.1 ≠ 0 then ((t.1 - 1, t.2), .updated) else (t, .atLimit))
      ∧ moves .postInc (fun t => if t.2 < 20 then ((t.1, t.2 + 1), .updated) else (t, .atLimit))
      ∧ moves .postDec (fun t => if t.2 ≠ 0 then ((t.1, t.2 - 1), .updated) else (t, .atLimit))
      ∧ (∀ p, moves (.preset p) (fun _ => (presetTaps p.val, .updated)))
      ∧ (∀ e : Byte, s.fld BLK_CTRL BLK_CTRL_EYEMIN ≤ e.toNat → Gives (.tapRequest j (.searchEnd e) false) s (fun u =>
          u.fld a BLK_LANE_STAT_EYE = e.toNat ∧ j.val ∈ (u.link k.val).doneLanes ∧ Frame [a] [.blk] s u))
      ∧ (∀ e : Byte, e.toNat < s.fld BLK_CTRL BLK_CTRL_EYEMIN → ∃ t : State, t.fld a BLK_LANE_STAT_EYE = e.toNat
          ∧ OnlyRegs [a] s t ∧ Answers (.tapRequest j (.searchEnd e) false) s
          (((t.setBit (BLK_L_HIST k.val) ⟨8, 1⟩ true).raise 40).trainFail k.val)))
    ∧ (2 ≤ s.linkState k.val ∧ s.linkState k.val ≤ 6 → ∃ t, Answers (.trainingPhaseTimeout k) s
        ((t.setBit (BLK_L_HIST k.val) ⟨0, 1⟩ true).raise 32)
      ∧ t.linkState k.val = 1 ∧ t.fld st BLK_L_STAT_BACKOFF = min 7 ((s.link k.val).fails + 1)
      ∧ t.link k.val = { s.link k.val with backoff := true, fails := (s.link k.val).fails + 1, doneLanes := [], good := 0 }
      ∧ (∀ j, j ∈ lanes → (t.blane j).rxScr = none)
      ∧ t.fld (BLK_L_TRFAIL k.val) BLK_L_TRFAIL_COUNT
        = min (s.fld (BLK_L_TRFAIL k.val) BLK_L_TRFAIL_COUNT + 1) (2 ^ BLK_L_TRFAIL_COUNT.width - 1)
      ∧ Frame (st :: BLK_L_TRFAIL k.val :: laneSt) [.blk] s t)
    ∧ (¬(2 ≤ s.linkState k.val ∧ s.linkState k.val ≤ 6) → Gives (.trainingPhaseTimeout k) s (OnlyRegs [] s))
    ∧ Gives (.trainingBackoffExpiry k) s (fun u => u.link k.val = { s.link k.val with backoff := false }
        ∧ Frame [] [.blk] s u)

/-- The control stream accepts flits in sequence, counts replays and gives up; a message received whole takes effect.
(R395, R396, R397, R399, R400, R404, R407, R411) -/
def Obligations.FlitsAndRetry : Prop :=
  (∀ (k : Link) (s : State),
    let x := s.link k.val
    (s.linkActive k.val = false → (∀ f : BitVec 128, Gives (.flitReceived k f) s (OnlyRegs [] s))
      ∧ Gives (.flitAckTimeout k) s (OnlyRegs [] s) ∧ Gives (.replayfail k) s (OnlyRegs [] s)
      ∧ Gives (.controlStreamParity k) s (OnlyRegs [] s))
    ∧ (∀ f : BitVec 128, s.linkActive k.val = true → x.waiting = [] → f.getLsbD 6 = false → s.blk.rrWrite = false →
      let n := f.toNat
      let ch := n / 2 ^ 24 % 8
      let vc := n / 2 % 8
      let head := n / 2 ^ 32
      let back := fun (u : State) => (u.link k.val).unacked = ackUpTo (n / 2 ^ 16 % 256) x.unacked
        ∧ Tbl.getD (u.link k.val).credits ch 0 = Tbl.getD x.credits ch 0 + n / 2 ^ 28 % 16
      let accepted := fun (u : State) => back u ∧ (u.link k.val).rxSeq = flitSeq f ∧ (u.link k.val).nak = false
        ∧ Tbl.getD (u.link k.val).owed vc 0 = Tbl.getD x.owed vc 0 + 1
      (f.getLsbD 0 = false → Gives (.flitReceived k f) s (fun u => back u ∧ (u.link k.val).rxSeq = x.rxSeq
        ∧ (u.link k.val).nak = x.nak ∧ (u.link k.val).body = x.body ∧ Frame [] [.blk] s u))
      ∧ (f.getLsbD 0 = true → flitSeq f ≠ (x.rxSeq + 1) % 256 → Gives (.flitReceived k f) s (fun u => back u
        ∧ (u.link k.val).nak = true ∧ (u.link k.val).rxSeq = x.rxSeq ∧ (u.link k.val).body = x.body
        ∧ (x.nak = false → ∃ g : BitVec 128, .flit k.val g ∈ u.out ∧ g.getLsbD 6 = true ∧ g.getLsbD 0 = false)
        ∧ Frame [] [.blk] s u))
      ∧ (f.getLsbD 0 = true → flitSeq f = (x.rxSeq + 1) % 256 → f.getLsbD 4 = true → f.getLsbD 5 = true →
        head % 4 = s.ownNode →
        (head / 16 % 16 < 7 → ∃ w, accepted w ∧ Frame [] [.blk] s w ∧ exec (.flitReceived k f) s
          = RxMsg.effect ⟨head / 4 % 4, head / 16 % 16, head / 2 ^ 8 % 256, head / 2 ^ 25 % 8,
              bodyBytes [BitVec.ofNat 96 head] (head / 2 ^ 16 % 512)⟩ (State.signalEdges s w))
        ∧ (head / 16 % 16 = 6 → Gives (.flitReceived k f) s (fun u => accepted u ∧ Frame [] [.blk] s u))
        ∧ (7 ≤ head / 16 % 16 → Gives (.flitReceived k f) s (fun u => accepted u
          ∧ u.fld BLK_MISROUTE BLK_MISROUTE_COUNT
            = min (s.fld BLK_MISROUTE BLK_MISROUTE_COUNT + 1) (2 ^ BLK_MISROUTE_COUNT.width - 1)
          ∧ Frame [BLK_MISROUTE] [.blk] s u))))
    ∧ (s.linkActive k.val = true →
      (x.unacked = [] → Gives (.flitAckTimeout k) s (OnlyRegs [] s))
      ∧ (x.unacked ≠ [] → ∃ t, Answers (.flitAckTimeout k) s (t.raise 35)
        ∧ t.out = (x.unacked.map (fun f => .flit k.val f)).reverse ++ s.out
        ∧ t.link k.val = { x with outStream := x.outStream ++ x.unacked.flatMap flitFields }
        ∧ t.fld (BLK_L_REPLAY k.val) BLK_L_REPLAY_COUNT
          = min (s.fld (BLK_L_REPLAY k.val) BLK_L_REPLAY_COUNT + x.unacked.length) (2 ^ 32 - 1)
        ∧ t.bit (BLK_L_HIST k.val) ⟨3, 1⟩ = true ∧ Frame [BLK_L_REPLAY k.val, BLK_L_HIST k.val] [.blk] s t))
    ∧ (s.linkActive k.val = true →
      Answers (.replayfail k) s (((s.setBit (BLK_L_HIST k.val) ⟨4, 1⟩ true).raise 36).linkLeaves k.val 1)
      ∧ Answers (.controlStreamParity k) s (s.linkLeaves k.val 1)
      ∧ (s.linkLeaves k.val 1).linkState k.val = 1 ∧ (s.linkLeaves k.val 1).link k.val = LinkCtl.idle
      ∧ (s.linkLeaves k.val 1).bit (BLK_L_HIST k.val) ⟨1, 1⟩ = true))
    ∧ ∀ (m : RxMsg) (s : State), m.src < 4 →
      let src : Node := ⟨m.src % 4, by omega⟩
      let tag : Byte := BitVec.ofNat 8 m.tag
      let n := ofBytes m.body
      (m.kind = 0 → m.effect s = exec (.rregWr src (BitVec.ofNat 26 n) (BitVec.ofNat 32 (n / 2 ^ 32))) s)
      ∧ (m.kind = 1 → m.effect s = exec (.rdmaWr src (BitVec.ofNat 36 n) (m.body.drop 8)) s)
      ∧ (m.kind = 2 → m.effect s = exec (.rregRd src tag (BitVec.ofNat 26 n)) s)
      ∧ (m.kind = 3 → m.effect s = exec (.rdmaRd src tag (BitVec.ofNat 36 n) (BitVec.ofNat 8 (n / 2 ^ 40))) s)
      ∧ (m.kind = 4 → m.effect s = exec (.flush src tag) s)
      ∧ (m.kind = 5 → m.effect s = exec (.cpl src tag (m.stat == 1) m.body) s)
      ∧ (m.kind = 6 → m.effect s = .next s)

/-- TRUNKUP, the election and the node numbers. (R390, R393, R413, R414, R415, R416) -/
def Obligations.TrunksAndElection : Prop :=
  ∀ (s : State),
    let calm : Prop := ∀ t : Nat, t < 4 → s.trunkReady t = false ∧ s.trunkUp t = false
    (∀ (t : Trunk) (cnt : BitVec 11) (back : Bool),
      s.trunkLinks t.val = [] ∨ (s.trunkLinks t.val).all s.linkActive = false ∨ s.fld BLK_NODE BLK_NODE_EXPNODES = 0 →
      Gives (.trunkup t cnt back) s (OnlyRegs [] s))
    ∧ (∀ (t : Trunk) (cnt : BitVec 11) (back : Bool), s.trunkReady t.val = true → s.fld BLK_NODE BLK_NODE_EXPNODES ≠ 0 →
      s.samePeer t.val = false →
      Answers (.trunkup t cnt back) s (s.each (s.trunkLinks t.val) (fun u m => (u.setBit (BLK_L_HIST m) ⟨6, 1⟩ true).raise 38)))
    ∧ (∀ (t : Trunk) (cnt : BitVec 11) (k : Nat), k ∈ s.trunkLinks t.val →
      (∀ m, m ∈ s.trunkLinks t.val → s.linkActive m = true ∧ s.rd (BLK_L_PEERID_LO m) = s.rd (BLK_L_PEERID_LO k)
        ∧ s.rd (BLK_L_PEERID_HI m) = s.rd (BLK_L_PEERID_HI k)) → s.fld BLK_NODE BLK_NODE_EXPNODES ≠ 0 →
      let holds := fun (w : State) (o i : Bool) => w.trunk t.val = ⟨some cnt.toNat, o, i⟩ ∧ Frame [] [.blk] s w
      (s.fld (BLK_TR_OSLOT t.val) BLK_TR_OSLOT_CNT = cnt.toNat →
        (s.trunkUp t.val = false → Gives (.trunkup t cnt false) s (fun u => holds u true false))
        ∧ (s.trunkUp t.val = true → ∃ w, holds w true false ∧ Answers (.trunkup t cnt false) s (w.trunkDown t.val))
        ∧ (s.trunkUp t.val = true → s.trunkBarred t.val = false → Gives (.trunkup t cnt true) s (fun u => holds u true true))
        ∧ (s.trunkUp t.val = false → s.trunkBarred t.val = false → ∃ w, holds w true true ∧ Answers (.trunkup t cnt true) s
          (let u := w.setBit (BLK_TR_STAT t.val) BLK_TR_STAT_UP true
          u.changeTotal 1 u.fabricTotal 33)))
      ∧ (s.fld (BLK_TR_OSLOT t.val) BLK_TR_OSLOT_CNT ≠ cnt.toNat → ∀ back : Bool, s.trunkUp t.val = false →
        Gives (.trunkup t cnt back) s (fun u => u.trunk t.val = ⟨some cnt.toNat, false, back⟩ ∧ u.trunkUp t.val = false
          ∧ ∀ m, m ∈ s.trunkLinks t.val → u.bit (BLK_L_HIST m) ⟨5, 1⟩ = true)))
    ∧ (∀ (k : Link) (p : Byte) (c : BitVec 64), s.fld BLK_NODE BLK_NODE_EXPNODES = 0 ∨ (p.toNat, c) ∈ s.blk.joins →
      Gives (.join k p c) s (OnlyRegs [] s))
    ∧ (∀ (l : List (Byte × BitVec 64)) (f : BitVec 48), s.fld BLK_NODE BLK_NODE_EXPNODES = 0 →
      Gives (.assign l f) s (OnlyRegs [] s))
    ∧ (∀ (k : Link) (p : Byte) (c : BitVec 64), s.fld BLK_NODE BLK_NODE_EXPNODES ≠ 0 → s.fld BLK_NODE BLK_NODE_FSTATE = 1 →
      (p.toNat, c) ∉ s.blk.joins → (insertTuple (p.toNat, c) s.blk.joins).length < s.expected →
      Gives (.join k p c) s (fun u => u.blk.joins = insertTuple (p.toNat, c) s.blk.joins
        ∧ (∀ m, m ∈ s.activeLinks → m ≠ k.val → .join m p.toNat c ∈ u.out) ∧ Frame [] [.blk] s u))
    ∧ (s.fld BLK_NODE BLK_NODE_FSTATE ≠ 1 → Gives .electionTimeout s (OnlyRegs [] s))
    ∧ (∀ rest, s.fld BLK_NODE BLK_NODE_FSTATE = 1 → s.blk.joins = s.ownTuple :: rest → rest.length + 1 = s.expected →
      (0, 0) ∉ s.blk.joins → s.blk.nodes = [] → calm → Gives .electionTimeout s (fun u =>
        u.fld BLK_NODE BLK_NODE_NODEID = 0
        ∧ u.bit BLK_NODE BLK_NODE_ROOT = true ∧ u.fld BLK_NODE BLK_NODE_FSTATE = 2
        ∧ Tbl.find? u.blk.nodes 0 = some s.ownTuple
        ∧ (∀ n, 0 < n → n < s.expected → .msg n (.assign s.blk.joins s.superframes) ∈ u.out)
        ∧ Frame (BLK_NODE :: (List.range 12).map BLK_L_STAT) [.blk] s u))
    ∧ (∀ (l : List (Byte × BitVec 64)) (f : BitVec 48) (i : Nat), s.fld BLK_NODE BLK_NODE_EXPNODES ≠ 0 →
      s.fld BLK_NODE BLK_NODE_FSTATE = 1 → s.blk.nodes = [] → l.length = s.expected → (0, 0) ∉ l → calm →
      (l.map (fun t => (t.1.toNat, t.2))).findIdx? (fun t => t == s.ownTuple) = some i →
      Gives (.assign l f) s (fun u => u.fld BLK_NODE BLK_NODE_NODEID = i ∧ u.bit BLK_NODE BLK_NODE_ROOT = (i == 0)
        ∧ u.fld BLK_NODE BLK_NODE_FSTATE = 2 ∧ u.blk.ftime = f.toNat ∧ u.blk.ftimeAt = s.now
        ∧ Frame (BLK_NODE :: (List.range 12).map BLK_L_STAT) [.blk] s u))
    ∧ (∀ (l : List (Byte × BitVec 64)) (f : BitVec 48), (∀ t, t ∈ l → (t.1.toNat, t.2) ≠ s.ownTuple) →
      Gives (.assign l f) s (fun u => Frame [] [.blk] s u))
    ∧ (∀ l : List (Byte × BitVec 64), 2 ≤ s.fld BLK_NODE BLK_NODE_FSTATE →
      Answers (.blkRootchg l) s
        ((s.setBit BLK_NODE BLK_NODE_ROOT (l.all (fun t => tupleLe s.ownTuple (t.1.toNat, t.2)))).raise 45))
    ∧ (∀ l : List (Byte × BitVec 64), s.fld BLK_NODE BLK_NODE_FSTATE < 2 → Gives (.blkRootchg l) s (OnlyRegs [] s))

/-- A source that no chapter lists receives no event. On a listed source an event (a subsystem's, or one forced by
FORCE) adds 1 to COUNT, saturating, sets STICKY and makes FORCED tell whether it was forced. On a source that is
disabled, held, SEVERE or ESCALATED nothing else changes. On an enabled source that is not held: in CLEAR with N above
1 it makes the source PENDING with WCOUNT 1, and in PENDING below N it only counts in WCOUNT; where WCOUNT reaches N
the source is SEVERE and not ACKED, with ACTION 0 without a timer, and with another ACTION and a reaction time above 0
with its reaction timer started (a crosspoint plane under AUTORETIRE apart). With masking off, the first-fault records
that are not valid take it. A parity error in the collector is an event on source 511. CLRCNT returns every COUNT to
its reset value and FIRSTCLR clears the four first-fault registers. (R525, R527, R529, R530, R538, R539) -/
def Obligations.HedgerowEvents : Prop :=
  ∀ (n : HdgSrc) (s : State),
    let st := HDG_SRC_STAT n.val
    let cnt := HDG_SRC_COUNT n.val
    let first := [HDG_FIRST, HDG_FIRSTTS]
    let both := fun (P : Bool → State → Prop) => Gives (.hdgEvent n) s (P false)
      ∧ (s.pwr.barred = false → Gives (.force n) s (P true))
    let counts := fun (forced : Bool) (u : State) =>
      u.fld cnt HDG_SRC_COUNT_COUNT = min (s.fld cnt HDG_SRC_COUNT_COUNT + 1) (2 ^ HDG_SRC_COUNT_COUNT.width - 1)
      ∧ u.bit st HDG_SRC_STAT_STICKY = true ∧ u.bit st HDG_SRC_STAT_FORCED = forced
    let first_ := fun (u : State) => (s.bit HDG_FIRST HDG_FIRST_VALID = true → u.rd HDG_FIRST = s.rd HDG_FIRST)
    let wc := min (s.fld st HDG_SRC_STAT_WCOUNT + 1) (2 ^ HDG_SRC_STAT_WCOUNT.width - 1)
    let live : Prop := hdgSourceUsed n.val = true ∧ s.hdgEn n.val = true ∧ s.held n.val = false
    (hdgSourceUsed n.val = false → both (fun _ u => OnlyRegs [] s u))
    ∧ (hdgSourceUsed n.val = true → s.hdgEn n.val = false ∨ s.held n.val = true ∨ 2 ≤ s.hdgState n.val →
      both (fun f u => counts f u ∧ u.hdgState n.val = s.hdgState n.val ∧ OnlyRegs [cnt, st] s u))
    ∧ (live → s.hdgState n.val = 0 → 1 < s.hdgN n.val →
      both (fun f u => counts f u ∧ u.hdgState n.val = 1 ∧ u.fld st HDG_SRC_STAT_WCOUNT = 1 ∧ first_ u
        ∧ (s.bit HDG_CTRL HDG_CTRL_MASKEN = false → s.bit HDG_FIRST HDG_FIRST_VALID = false →
          u.fld HDG_FIRST HDG_FIRST_SRC = n.val ∧ u.fld HDG_FIRST HDG_FIRST_SEV = 1
          ∧ u.bit HDG_FIRST HDG_FIRST_FORCED = f ∧ u.bit HDG_FIRST HDG_FIRST_VALID = true)
        ∧ OnlyRegs (cnt :: st :: first) s u))
    ∧ (live → s.hdgState n.val = 1 → wc < s.hdgN n.val →
      both (fun f u => counts f u ∧ u.hdgState n.val = 1 ∧ u.fld st HDG_SRC_STAT_WCOUNT = wc ∧ OnlyRegs [cnt, st] s u))
    ∧ (live → (s.hdgState n.val = 0 ∧ s.hdgN n.val ≤ 1) ∨ (s.hdgState n.val = 1 ∧ s.hdgN n.val ≤ wc) →
      n.val < 128 ∨ 144 < n.val ∨ s.bit XPT_CTRL XPT_CTRL_AUTORETIRE = false →
      s.hdgAction n.val = 0 ∨ s.hdgReaction n.val ≠ 0 →
      both (fun f u => counts f u ∧ u.hdgState n.val = 2 ∧ u.bit st HDG_SRC_STAT_ACKED = false ∧ first_ u
        ∧ (s.bit HDG_CTRL HDG_CTRL_MASKEN = false → s.bit HDG_FIRSTSEV HDG_FIRSTSEV_VALID = false →
          u.fld HDG_FIRSTSEV HDG_FIRSTSEV_SRC = n.val ∧ u.bit HDG_FIRSTSEV HDG_FIRSTSEV_VALID = true)
        ∧ (s.hdgAction n.val = 0 → u.hdg = s.hdg)
        ∧ (s.hdgAction n.val ≠ 0 → Tbl.find? u.hdg.timers n.val = some false ∧ u.hdg.escalated = s.hdg.escalated)
        ∧ Frame (cnt :: st :: HDG_FIRSTSEV :: HDG_FIRSTSEVTS :: first) [.hdg] s u))
    ∧ Answers .hdgSelfpar s (s.raise 511)
    ∧ (s.pwr.barred = false →
      Gives .hdgFirstclr s (fun u => u.rd HDG_FIRST = 0 ∧ u.rd HDG_FIRSTTS = 0 ∧ u.rd HDG_FIRSTSEV = 0
        ∧ u.rd HDG_FIRSTSEVTS = 0 ∧ OnlyRegs [HDG_FIRST, HDG_FIRSTTS, HDG_FIRSTSEV, HDG_FIRSTSEVTS] s u)
      ∧ Gives .hdgClrcnt s (fun u => (∀ m, m < 512 → u.rd (HDG_SRC_COUNT m) = resetAt (HDG_SRC_COUNT m))
        ∧ OnlyRegs ((List.range 512).map HDG_SRC_COUNT) s u))

/-- Window close, acknowledge, clear and the expiry of a reaction timer. (R526, R529, R533, R534, R535, R541) -/
def Obligations.HedgerowHandling : Prop :=
  ∀ (n : HdgSrc) (s : State),
    let st := HDG_SRC_STAT n.val
    let cleared := fun (u : State) => u.hdgState n.val = 0 ∧ u.fld st HDG_SRC_STAT_WCOUNT = 0
      ∧ u.bit st HDG_SRC_STAT_ACKED = false ∧ u.bit st HDG_SRC_STAT_PROMOTED = false
      ∧ Tbl.find? u.hdg.timers n.val = none
    let refused := fun (c : Instr) => Gives c s (fun u => u.bit HDG_ERR HDG_ERR_ACKREJ = true ∧ OnlyRegs [HDG_ERR] s u)
    (s.hdgState n.val = 1 → s.fld (HDG_SRC_CFG n.val) HDG_SRC_CFG_WINDOW ≠ 0 → s.held n.val = false →
      Gives (.hdgWindowClose n) s (fun u => cleared u ∧ Frame [st] [.hdg] s u))
    ∧ (s.hdgState n.val ≠ 1 ∨ s.fld (HDG_SRC_CFG n.val) HDG_SRC_CFG_WINDOW = 0 ∨ s.held n.val = true →
      Gives (.hdgWindowClose n) s (OnlyRegs [] s))
    ∧ (s.pwr.barred = false → s.hdgState n.val = 2 →
      Gives (.hdgAck n) s (fun u => u.bit st HDG_SRC_STAT_ACKED = true ∧ u.hdgState n.val = 2
        ∧ u.hdg = { s.hdg with timers := Tbl.del s.hdg.timers n.val } ∧ Frame [st] [.hdg] s u))
    ∧ (s.pwr.barred = false → s.hdgState n.val ≠ 2 → refused (.hdgAck n))
    ∧ (s.pwr.barred = false → (s.hdgState n.val = 1 ∨ (s.hdgState n.val = 2 ∧ s.bit st HDG_SRC_STAT_ACKED = true)
        ∨ (s.hdgState n.val = 3 ∧ Tbl.getD s.hdg.escalated n.val 2 ≤ 1)) →
      Gives (.hdgClr n) s (fun u => cleared u
        ∧ u.bit HDG_STAT HDG_STAT_FAULT = (s.safe || (Tbl.del s.hdg.escalated n.val).any (fun e => e.2 == 1))
        ∧ Frame [st, HDG_STAT] [.hdg] s u))
    ∧ (s.pwr.barred = false →
      (s.hdgState n.val = 0 ∨ (s.hdgState n.val = 2 ∧ s.bit st HDG_SRC_STAT_ACKED = false)
        ∨ (s.hdgState n.val = 3 ∧ Tbl.getD s.hdg.escalated n.val 2 = 2)) → refused (.hdgClr n))
    ∧ (Tbl.find? s.hdg.timers n.val = none → Gives (.hdgReactionExpiry n) s (OnlyRegs [] s))
    ∧ (∀ p : Bool, Tbl.find? s.hdg.timers n.val = some p → s.hdgState n.val = 2 → p = true ∨ s.held n.val = false →
      s.hdgEn 384 = false → s.hdgAction n.val = 1 ∨ (s.hdgAction n.val ≠ 0 ∧ s.safe = true) →
      Gives (.hdgReactionExpiry n) s (fun u => u.hdgState n.val = 3
        ∧ u.hdg.escalated = Tbl.put s.hdg.escalated n.val (s.hdgAction n.val)
        ∧ u.bit HDG_STAT HDG_STAT_FAULT = (!s.safe || s.bit HDG_STAT HDG_STAT_FAULT)
        ∧ (n.val ≠ 384 → u.fld (HDG_SRC_COUNT 384) HDG_SRC_COUNT_COUNT =
            min (s.fld (HDG_SRC_COUNT 384) HDG_SRC_COUNT_COUNT + 1) (2 ^ HDG_SRC_COUNT_COUNT.width - 1))
        ∧ (n.val = 384 → u.rd (HDG_SRC_COUNT 384) = s.rd (HDG_SRC_COUNT 384))
        ∧ Frame [st, HDG_STAT, HDG_SRC_COUNT 384, HDG_SRC_STAT 384] [.hdg] s u))

/-- From every state that is not the safe state and whose source 511 is CLEAR, HDG_SELFPAR answers a state with SAFE
and FAULT set, SAFESRC 511, source 511 ESCALATED, the redundancy state SAFE with ACTIVE_N and ILK_OUT released, every
host channel HALTED, no command in flight, no route change waiting, no capture, still load, migration or committing
salvo left, and every media transmitter idle. (R526, R531, R533, R535, R536, R562, R563) -/
def Obligations.SafeStateIsEntered : Prop :=
  ∀ s : State, s.safe = false → s.hdgState 511 = 0 →
    Gives .hdgSelfpar s (fun u => u.safe = true ∧ u.bit HDG_STAT HDG_STAT_FAULT = true
      ∧ u.fld HDG_STAT HDG_STAT_SAFESRC = 511 ∧ u.hdgState 511 = 3
      ∧ u.fld FOV_STAT FOV_STAT_STATE = 7 ∧ u.bit FOV_STAT FOV_STAT_ACTIVE = false
      ∧ u.bit FOV_STAT FOV_STAT_ILKOUT = false
      ∧ (∀ c : HostCh, u.fld (HIF_DMA_STAT (48 + c.val)) HIF_DMA_STAT_STATE = 2)
      ∧ u.hif.inflight = [] ∧ u.xpt.pending = [] ∧ u.xpt.seqs = [] ∧ u.cmp.grabs = [] ∧ u.cmp.loads = [] ∧ u.sal.migs = []
      ∧ (∀ e, e ∈ u.sal.slots → e.2.stage = 0)
      ∧ (∀ n : Nat, n < 256 → u.bit (ML_STAT n) ML_STAT_TXIDLE = true)
      ∧ SameMem s u)

/-- The interlock: CLAIM, RELEASE, the line, the claim window and its delay move the state machine as stated. (R561,
R562, R563, R564, R566, R575) -/
def Obligations.InterlockTransitions : Prop :=
  ∀ s : State,
    let x := s.fovState
    let stands := fun (u : State) (to' : Nat) => u.fovState = to'
      ∧ u.bit FOV_STAT FOV_STAT_ACTIVE = (to' == 3 || to' == 6 || to' == 8)
      ∧ u.bit FOV_STAT FOV_STAT_ILKOUT = (to' == 2 || to' == 3 || to' == 6)
    let enters := fun (c : Instr) (to' : Nat) => Gives c s (fun u => stands u to'
      ∧ Frame [FOV_STAT, FOV_LEASELEFT] [.fov] s u)
    let nothing := fun (c : Instr) => Gives c s (OnlyRegs [] s)
    let level := fun (c : Instr) (b : Bool) => Gives c s (fun u => u.ilkIn = b ∧ u.fovState = x ∧ OnlyRegs [FOV_STAT] s u)
    let refused := fun (c : Instr) => Gives c s (fun u =>
      u.bit FOV_ERR (if x = 7 then FOV_ERR_GRANTREJ else FOV_ERR_CFGREJ) = true ∧ OnlyRegs [FOV_ERR] s u)
    (s.pwr.barred = false →
      (x = 1 → s.ilkIn = false → enters .claim 2) ∧ (x ≠ 1 ∨ s.ilkIn = true → refused .claim)
      ∧ (x = 3 → enters .release 1) ∧ (x ≠ 3 → refused .release)
      ∧ (x = 1 → enters .resync 4) ∧ (x ≠ 1 → refused .resync)
      ∧ (x = 4 ∨ x = 5 → enters .recover 1) ∧ (x = 6 ∨ x = 3 → enters .recover 3)
      ∧ (x = 0 ∨ x = 1 ∨ x = 2 ∨ x = 7 ∨ x = 8 → refused .recover)
      ∧ (x = 7 → refused .fovClrcnt)
      ∧ (x ≠ 7 → Gives .fovClrcnt s (fun u => u.rd FOV_TAKECNT = 0 ∧ u.rd FOV_YIELDCNT = 0 ∧ u.rd FOV_LATEMIR = 0
          ∧ u.rd FOV_DIGESTCNT = 0 ∧ OnlyRegs [FOV_TAKECNT, FOV_YIELDCNT, FOV_LATEMIR, FOV_DIGESTCNT] s u)))
    ∧ (x = 1 → s.fovRole = true → s.bit FOV_CFG FOV_CFG_AUTOCLAIM = true → s.fov.autoStopped = false → s.ilkIn = false →
      enters .claimDelayExpiry 2)
    ∧ (x ≠ 1 ∨ s.fovRole = false ∨ s.bit FOV_CFG FOV_CFG_AUTOCLAIM = false ∨ s.fov.autoStopped = true ∨ s.ilkIn = true →
      nothing .claimDelayExpiry)
    ∧ (x = 2 → s.ilkIn = false → enters .claimWindowEnd 3) ∧ (x ≠ 2 → nothing .claimWindowEnd)
    ∧ (x = 2 → s.ilkIn = true → s.fovRole = true → s.fov.withdrawals ≠ 2 → enters .claimWindowEnd 1)
    ∧ (x = 2 → s.ilkIn = true → s.fovRole = true → s.fov.withdrawals = 2 →
      ∃ t, Answers .claimWindowEnd s (t.raise 423) ∧ stands t 1 ∧ t.fov.autoStopped = true
        ∧ t.bit FOV_HIST FOV_HIST_CLAIMSTALL = true ∧ Frame [FOV_STAT, FOV_HIST] [.fov] s t)
    ∧ (x = 2 → s.ilkIn = true → s.fovRole = false → s.fov.windows ≠ 9 → Gives .claimWindowEnd s (fun u =>
        u.fov = { s.fov with windows := s.fov.windows + 1 } ∧ Frame [] [.fov] s u))
    ∧ (x = 2 → s.ilkIn = true → s.fovRole = false → s.fov.windows = 9 →
      ∃ t, Answers .claimWindowEnd s (t.raise 423) ∧ t.fov = { s.fov with windows := 10 }
        ∧ t.bit FOV_HIST FOV_HIST_CLAIMSTALL = true ∧ Frame [FOV_HIST] [.fov] s t)
    ∧ (s.ilkIn = true → nothing .ilkInRise ∧ nothing .fovIlkconf)
    ∧ (s.ilkIn = false → x = 3 → s.fovRole = true → enters .ilkInRise 1)
    ∧ (s.ilkIn = false → x ≠ 6 → ¬(x = 3 ∧ s.fovRole = true) → level .ilkInRise true)
    ∧ (s.ilkIn = false → x = 6 → ∃ t, Answers .ilkInRise s (t.raise 419) ∧ Answers .fovIlkconf s (t.raise 419)
        ∧ t.fovState = 6 ∧ t.ilkIn = true ∧ t.bit FOV_HIST FOV_HIST_ILKCONF = true ∧ OnlyRegs [FOV_STAT, FOV_HIST] s t)
    ∧ (x ≠ 6 → nothing .fovIlkconf)
    ∧ (s.ilkIn = false → nothing .ilkInFall)
    ∧ (s.ilkIn = true → x = 2 → s.fov.windows ≠ 0 → enters .ilkInFall 3)
    ∧ (s.ilkIn = true → ¬(x = 2 ∧ s.fov.windows ≠ 0) → ¬(x = 5 ∧ s.fovLease = 2) → level .ilkInFall false)
    ∧ (s.ilkIn = true → x = 5 → s.fovLease = 2 → ∃ t, stands t 6 ∧ t.fovLease = 1 ∧ t.ilkIn = false
        ∧ t.bit FOV_HIST FOV_HIST_TAKEOVER = true ∧ Frame [FOV_STAT, FOV_HIST, FOV_TAKECNT] [.fov] s t
        ∧ t.fld FOV_TAKECNT FOV_TAKECNT_COUNT
          = min (s.fld FOV_TAKECNT FOV_TAKECNT_COUNT + 1) (2 ^ FOV_TAKECNT_COUNT.width - 1)
        ∧ Answers .ilkInFall s (if s.bit FOV_IEN ⟨0, 1⟩ && !s.bit FOV_HIST FOV_HIST_TAKEOVER then t.raise 416
            else (t.raise 416).signal 0 17))

/-- Stile grants, leases and the yield. (R562, R565, R567, R575) -/
def Obligations.LeasesAndYield : Prop :=
  ∀ s : State,
    let x := s.fovState
    let seq := s.fld FOV_GRANT_SEQ FOV_GRANT_SEQ_SEQ
    let fresh : Prop := s.fld FOV_LASTSEQ FOV_LASTSEQ_SEQ < seq
    let grant := [FOV_GRANT_CTL, FOV_STAT, FOV_LASTSEQ, FOV_LEASELEFT]
    let refused := fun (c : Instr) => ∃ t, Answers c s (t.raise 422) ∧ t.bit FOV_ERR FOV_ERR_GRANTREJ = true
      ∧ t.bit FOV_HIST FOV_HIST_GRANTREJ = true ∧ OnlyRegs [FOV_GRANT_CTL, FOV_ERR, FOV_HIST] s t
    (∀ (cov force : Bool) (lease : BitVec 14), s.pwr.barred = false →
      let runs := fun (u : State) (kind : Nat) => u.fovLease = kind ∧ u.fld FOV_LASTSEQ FOV_LASTSEQ_SEQ = seq
        ∧ u.fov.leaseMs = min 10000 (max 10 lease.toNat) ∧ u.fov.leaseStart = s.now ∧ u.fov.covered = cov
        ∧ Frame grant [.fov] s u
      let may : Prop := x = 3 ∨ x = 6 ∨ (x = 5 ∧ (s.ilkIn = false ∨ force = true))
      (fresh → may → Gives (.grantActive cov force lease) s (fun u => u.fovState = 6
          ∧ u.bit FOV_STAT FOV_STAT_ACTIVE = true ∧ u.bit FOV_STAT FOV_STAT_ILKOUT = true ∧ runs u 1))
      ∧ (¬fresh ∨ ¬may → refused (.grantActive cov force lease))
      ∧ (fresh → x = 5 → Gives (.grantReserve cov force lease) s (fun u => u.fovState = 5 ∧ runs u 2))
      ∧ (¬fresh ∨ x ≠ 5 → refused (.grantReserve cov force lease)))
    ∧ (s.pwr.barred = false → fresh → x ≠ 7 → s.fovLease ≠ 0 → Gives .grantRevoke s (fun u =>
        u.fovState = (if x = 6 then 5 else x) ∧ u.fovLease = 0 ∧ u.fld FOV_LASTSEQ FOV_LASTSEQ_SEQ = seq
        ∧ (x = 6 → u.bit FOV_STAT FOV_STAT_ACTIVE = false) ∧ Frame grant [.fov] s u))
    ∧ (s.pwr.barred = false → ¬fresh ∨ x = 7 ∨ s.fovLease = 0 → refused .grantRevoke)
    ∧ (∀ tb : Tb, s.pwr.barred = false →
      (x = 6 → Gives (.yield tb) s (fun u => u.fov = { s.fov with
          yieldAt := some (tb.val, (s.dueTime tb.val (s.fld FOV_YIELDTIME FOV_YIELDTIME_TIME)).getD (s.fullTime tb.val)) }
        ∧ Frame [] [.fov] s u))
      ∧ (x ≠ 6 → Gives (.yield tb) s (fun u =>
        u.bit FOV_ERR (if x = 7 then FOV_ERR_GRANTREJ else FOV_ERR_CFGREJ) = true ∧ OnlyRegs [FOV_ERR] s u)))
    ∧ (s.fov.yieldAt = none → Gives .yieldInstant s (OnlyRegs [] s))
    ∧ (∀ tb t : Nat, s.fov.yieldAt = some (tb, t) → x = 6 → t ≤ s.fullTime tb →
      ∃ w, Answers .yieldInstant s (w.raise 417) ∧ w.fovState = 5 ∧ w.fovLease = 0 ∧ w.fov.yieldAt = none
        ∧ w.bit FOV_STAT FOV_STAT_ACTIVE = false ∧ w.bit FOV_HIST FOV_HIST_YIELD = true
        ∧ w.fld FOV_YIELDCNT FOV_YIELDCNT_COUNT
          = min (s.fld FOV_YIELDCNT FOV_YIELDCNT_COUNT + 1) (2 ^ FOV_YIELDCNT_COUNT.width - 1)
        ∧ Frame [FOV_STAT, FOV_LEASELEFT, FOV_HIST, FOV_YIELDCNT] [.fov] s w)
    ∧ (s.fovLease = 0 → Gives .fovLeaseexp s (OnlyRegs [] s))
    ∧ (s.fovLease ≠ 0 → ∃ w, w.fovLease = 0 ∧ w.fovState = x ∧ w.bit FOV_HIST FOV_HIST_LEASEEXP = true
        ∧ Frame [FOV_STAT, FOV_LEASELEFT, FOV_HIST] [.fov] s w
        ∧ (x ≠ 6 → (w.raise 418).fovState ≠ 6 → Answers .fovLeaseexp s (w.raise 418))
        ∧ ((w.raise 418).fovState = 6 → Answers .fovLeaseexp s
          ((w.raise 418).setFov (if (w.raise 418).bit FOV_CFG FOV_CFG_FALLBACK then 3 else 5))))

/-- The mirror, the digest of a standby, and the loss of the chip's own plane. (R55, R56, R563, R568, R570, R572,
R573) -/
def Obligations.MirrorAndPlaneLoss : Prop :=
  ∀ s : State,
    let x := s.fovState
    let nothing := fun (c : Instr) => Gives c s (OnlyRegs [] s)
    let autoSync : Prop := x = 1 ∧ s.bit FOV_CFG FOV_CFG_AUTOSYNC = true
    (∀ p : BitVec 4, s.bit FOV_CFG FOV_CFG_PROT = false ∨ s.mirrorPath = false → nothing (.mirrorUp p))
    ∧ (∀ p : BitVec 4, s.bit FOV_CFG FOV_CFG_PROT = true → s.mirrorPath = true →
      Gives (.mirrorUp p) s (fun u => u.bit FOV_STAT FOV_STAT_MIRUP = true ∧ u.fov.partner = p.toNat
        ∧ Frame [FOV_STAT, FOV_LEASELEFT] [.fov] s u
        ∧ (¬(autoSync ∧ (p.toNat = 3 ∨ p.toNat = 6)) → u.fovState = x)
        ∧ (autoSync → p.toNat = 3 ∨ p.toNat = 6 → u.fovState = 4 ∧ u.fovLease = 0 ∧ .mirrorRequest ∈ u.out)
        ∧ (x = 3 ∨ x = 6 → p.toNat = 4 → s.fov.partner ≠ 4 →
          .snapshot (s.setBit FOV_STAT FOV_STAT_MIRUP true).mirrorTables ∈ u.out)))
    ∧ (s.bit FOV_STAT FOV_STAT_MIRUP = false → nothing .fovMirloss)
    ∧ (s.bit FOV_STAT FOV_STAT_MIRUP = true →
      ∃ w, w.bit FOV_STAT FOV_STAT_MIRUP = false ∧ w.bit FOV_STAT FOV_STAT_COVERED = false ∧ w.fovState = x
        ∧ w.bit FOV_HIST FOV_HIST_MIRLOSS = true ∧ Frame [FOV_STAT, FOV_HIST] [.fov] s w
        ∧ ((w.raise 420).fovState = 5 → Answers .fovMirloss s (w.raise 420).enterSync)
        ∧ ((w.raise 420).fovState ≠ 5 → Answers .fovMirloss s (w.raise 420)))
    ∧ (∀ a b : Word,
      (x = 4 → s.fov.snapshot = true → a = b → Gives (.digestCompare a b) s (fun u => u.fovState = 5
        ∧ u.bit FOV_HIST FOV_HIST_SYNCDONE = true ∧ Frame [FOV_STAT, FOV_HIST] [.fov] s u))
      ∧ (x = 4 → s.fov.snapshot = false ∨ a ≠ b → nothing (.digestCompare a b))
      ∧ (x = 5 → a ≠ b → ∃ w, Answers (.digestCompare a b) s (w.raise 421).enterSync
        ∧ w.bit FOV_HIST FOV_HIST_DIGESTMIS = true
        ∧ w.fld FOV_DIGESTCNT FOV_DIGESTCNT_COUNT
          = min (s.fld FOV_DIGESTCNT FOV_DIGESTCNT_COUNT + 1) (2 ^ FOV_DIGESTCNT_COUNT.width - 1)
        ∧ OnlyRegs [FOV_HIST, FOV_DIGESTCNT] s w
        ∧ (w.raise 421).enterSync.fovState = 4 ∧ (w.raise 421).enterSync.fov.snapshot = false)
      ∧ (x = 5 → a = b → nothing (.digestCompare a b)) ∧ (x ≠ 4 → x ≠ 5 → nothing (.digestCompare a b)))
    ∧ (x ≠ 4 → nothing .fovSyncfail)
    ∧ (x = 4 → ∃ t, Answers .fovSyncfail s (t.raise 425) ∧ t.fov = { s.fov with snapshot := false }
        ∧ t.out = .mirrorRequest :: s.out ∧ Frame [] [.fov] s t)
    ∧ (∀ n : Node,
      let yields : Prop := x = 6 ∧ s.bit FOV_CFG FOV_CFG_PLANEYIELD = true ∧ s.bit FOV_STAT FOV_STAT_COVERED = true
        ∧ s.bit FOV_STAT FOV_STAT_MIRUP = true ∧ s.fld BLK_NODE BLK_NODE_EXPNODES ≠ 0 ∧ s.planeLost n.val = true
      (¬yields → nothing (.fovPlaneloss n))
      ∧ (yields → ∃ w, Answers (.fovPlaneloss n) s ((w.raise 424).raise 417)
        ∧ w.fovState = 5 ∧ w.fovLease = 0 ∧ w.bit FOV_STAT FOV_STAT_ACTIVE = false ∧ w.bit FOV_HIST FOV_HIST_PLANELOSS = true
        ∧ w.fld FOV_YIELDCNT FOV_YIELDCNT_COUNT
          = min (s.fld FOV_YIELDCNT FOV_YIELDCNT_COUNT + 1) (2 ^ FOV_YIELDCNT_COUNT.width - 1)
        ∧ Frame [FOV_STAT, FOV_LEASELEFT, FOV_HIST, FOV_YIELDCNT] [.fov] s w))

/-- Fallow, Active and the shut-down: what is accepted, what is refused, what each end leaves. (R488, R489, R490,
R491, R492, R493, R494, R553) -/
def Obligations.PowerStates : Prop :=
  ∀ s : State,
    let nothing := fun (c : Instr) => Gives c s (OnlyRegs [] s)
    let refused := fun (c : Instr) => ∃ t, Answers c s (t.raise 452) ∧ t.bit PWR_ERR PWR_ERR_CFGREJ = true
      ∧ OnlyRegs [PWR_ERR] s t
    (s.fallowRefused = true → refused .fallow)
    ∧ (s.fallowRefused = false → s.bst.waits = [] → Gives .fallow s (fun u => u.pwrState = 1
        ∧ u.pwr = { s.pwr with wakeLatched := false } ∧ Frame [PWR_STAT] [.pwr] s u))
    ∧ (s.pwrState ≠ 1 ∨ s.quietForFallow = false → nothing .fallowReached)
    ∧ (s.pwrState = 1 → s.quietForFallow = true → Gives .fallowReached s (fun u =>
        u.pwrState = if s.pwr.wakeLatched then 3 else 2))
    ∧ (4 ≤ s.pwrState → refused .active)
    ∧ (s.pwrState = 2 → Gives .active s (fun u => u.pwrState = 3 ∧ OnlyRegs [PWR_STAT] s u))
    ∧ (s.pwrState = 1 → Gives .active s (fun u => u.pwr = { s.pwr with wakeLatched := true } ∧ Frame [] [.pwr] s u))
    ∧ (s.pwrState = 0 ∨ s.pwrState = 3 → nothing .active)
    ∧ (s.pwrState ≠ 3 → nothing .activeReached)
    ∧ (s.pwrState = 3 → s.fovState ≠ 5 → Gives .activeReached s (fun u => u.pwrState = 0
        ∧ (∀ e, e ∈ u.ess.rx → e.2.now.isSome = true → e.2.reportsA = 0 ∧ e.2.reportsB = 0)
        ∧ Frame [PWR_STAT, PWR_DOMSTAT, MLN_GRPSTAT] [.ess] s u))
    ∧ (∀ b : Bool, s.pwrState ≠ 0 → s.pwrState ≠ 2 → refused (.shutdown b))
    ∧ (∀ b : Bool, s.pwrState = 0 ∨ s.pwrState = 2 → Gives (.shutdown b) s (fun u => u.pwrState = 4
        ∧ u.bit BST_STAT BST_STAT_FULLRUN = !b ∧ SameMem s u))
    ∧ (s.pwrState ≠ 4 → nothing .offready)
    ∧ (s.pwrState = 4 → Gives .offready s (fun u => u.pwrState = 5 ∧ u.bit PWR_STAT PWR_STAT_OFFREADY = true
        ∧ u.bit BST_STAT BST_STAT_FULLRUN = false
        ∧ s.fastRecord = ⟨s.otp.chipId, s.rd SVC_FWVER, s.failedUnits, s.bst.repaired, false⟩
        ∧ u.flash = { s.flash with fast := some s.fastRecord } ∧ .flash 0x10000 s.fastRecord.bytes ∈ u.out
        ∧ Frame [BST_STAT, PWR_STAT] [.flash] s u))

/-- POWER_ON returns every register to its reset value and every unit to its state after reset, and keeps OTP and
flash. POR_N_LOW outside a reset, PWR_THERMSD and, outside a reset, CORE_RAIL_FAIL return every register but those of
the AON island and the ones they set (RSTCAUSE.POR, RSTCAUSE.THERM, HDG_STAT for FAULT_N) to their reset values and
every unit to its state after reset; they keep OTP and flash. WARM outside a shut-down, with a strap code other than 3
and the registers in canonical form (an invariant), returns every unit but the host interface and PWR to its state
after reset, sets RSTCAUSE.WARM, ends the safe state, and keeps SAFESRC, the Hedgerow records, the wake timer, OTP and
flash; during a shut-down it is refused (CFGREJ, 452). TRST_N changes nothing. VAON_LOSS returns the AON registers to
their reset values and changes no other register, unit or byte of package memory. (R486, R495, R496, R503, R516, R517,
R602) -/
def Obligations.ResetScopes : Prop :=
  ∀ s : State,
    let fresh := fun (u : State) => u.ten = State.reset.ten ∧ u.tim = State.reset.tim ∧ u.hdg = State.reset.hdg
      ∧ u.fov = State.reset.fov ∧ u.planes = State.reset.planes ∧ u.xpt = State.reset.xpt ∧ u.fsa = State.reset.fsa
      ∧ u.cmp = State.reset.cmp ∧ u.sal = State.reset.sal ∧ u.ess = State.reset.ess ∧ u.bst = State.reset.bst
      ∧ u.blk = State.reset.blk ∧ u.mln = State.reset.mln ∧ u.mac = State.reset.mac ∧ u.aud = State.reset.aud
      ∧ u.clk = State.reset.clk ∧ u.svc = State.reset.svc ∧ u.mem = State.reset.mem ∧ u.flash = s.flash ∧ u.otp = s.otp
    Gives .powerOn s (fun u => fresh u ∧ u.hif = State.reset.hif ∧ u.pwr = State.reset.pwr ∧ ∀ a, u.rd a = resetAt a)
    ∧ (s.pwr.porLow = false → Gives .porNLow s (fun u => fresh u ∧ u.hif = State.reset.hif ∧ u.pwr.porLow = true
        ∧ u.bit PWR_RSTCAUSE PWR_RSTCAUSE_POR = true
        ∧ (∀ a, a ≠ PWR_RSTCAUSE → u.rd a = if isAon a then s.rd a else resetAt a)))
    ∧ (s.pwr.porLow = true → Gives .porNLow s (OnlyRegs [] s))
    ∧ Gives .pwrThermsd s (fun u => fresh u ∧ u.pwr.held = true ∧ u.pwr.thermNext = true
        ∧ u.bit PWR_RSTCAUSE PWR_RSTCAUSE_THERM = true ∧ u.bit HDG_STAT HDG_STAT_FAULT = true
        ∧ (∀ a, a ≠ PWR_RSTCAUSE → a ≠ HDG_STAT → u.rd a = if isAon a then s.rd a else resetAt a))
    ∧ (s.pwr.porLow = false → Gives .coreRailFail s (fun u => fresh u ∧ u.pwr.porLow = true ∧ u.pwr.core = false
        ∧ (s.pwr.core = true → u.pwr.downAt = some s.now)
        ∧ (∀ a, u.rd a = if isAon a then s.rd a else resetAt a)))
    ∧ (s.shutting = true → ∃ t, Answers .warm s (t.raise 452) ∧ t.bit PWR_ERR PWR_ERR_CFGREJ = true ∧ OnlyRegs [PWR_ERR] s t)
    ∧ (s.shutting = false → s.bootCode ≠ 3 → Regs.wf s.regs = true → Gives .warm s (fun u => fresh u ∧ u.pwr.barred = true
        ∧ u.bit PWR_RSTCAUSE PWR_RSTCAUSE_WARM = true ∧ u.hif.numVfs = 0
        ∧ (∀ a, a = HDG_FIRST ∨ a = HDG_FIRSTSEV ∨ a = HDG_FIRSTTS ∨ a = HDG_FIRSTSEVTS ∨ a = PWR_WAKETMR →
            u.rd a = s.rd a)
        ∧ u.fld HDG_STAT HDG_STAT_SAFESRC = s.fld HDG_STAT HDG_STAT_SAFESRC ∧ u.safe = false))
    ∧ Gives .trstN s (OnlyRegs [] s)
    ∧ Gives .vaonLoss s (fun u => (∀ a, u.rd a = if isAon a then resetAt a else s.rd a) ∧ u.pwr.thermNext = false
        ∧ SameMem s u ∧ SameParts [.pwr] s u)

/-- With POR_N low, its rise releases the reset, puts the straps' code in use (6 and 7 as 0 with BOOTBAD, 5 as 0 in
the states that bar it), resolves the life-cycle state and touches no flash, and the wake timer has counted down by
the seconds for which the core rails were down (DEDUCED: log entry 40); with POR_N high it does nothing. The wake
timer, while the core rails are down and it is not 0, reaches 0 and asserts WAKE_N; otherwise nothing. A temperature
below THERMWARN with THERM_N released only updates TJ and clears HOT; more than 5 degrees below it releases THERM_N;
one at or above it asserts THERM_N, and with HOT 0 sets HOT and raises PWR_THERMWARN (448); at 135 degrees it is the
thermal shutdown. A domain that something uses keeps running; an unused one loses its bit. (R486, R488, R498, R499,
R503, R603) -/
def Obligations.StrapsTimerAndTemperature : Prop :=
  ∀ s : State,
    (∀ raw : BitVec 3, s.pwr.porLow = false → Gives (.porNRise raw) s (OnlyRegs [] s))
    ∧ (∀ raw : BitVec 3, s.pwr.porLow = true → Gives (.porNRise raw) s (fun u => u.pwr.porLow = false
        ∧ u.pwr.core = true ∧ u.bootCode = strapCode raw.toNat u.life ∧ u.otp.resolved = some u.life
        ∧ u.bit PWR_STAT PWR_STAT_BOOTBAD = decide (6 ≤ raw.toNat)
        ∧ u.bit PWR_RSTCAUSE PWR_RSTCAUSE_DORMUP = (!s.pwr.core || s.bit PWR_RSTCAUSE PWR_RSTCAUSE_DORMUP)
        ∧ (u.bootCode ≠ 3 → SameRegs [PWR_STAT, PWR_RSTCAUSE, SEC_LC, PWR_WAKETMR] s u
          ∧ u.rd PWR_WAKETMR = match s.pwr.downAt with
            | none => s.rd PWR_WAKETMR
            | some t => BitVec.ofNat 32 ((s.rd PWR_WAKETMR).toNat - (s.now - t) / 1000000000))
        ∧ SameMem s u ∧ SameParts [.pwr, .otp] s u))
    ∧ (s.pwr.core = true ∨ s.rd PWR_WAKETMR = 0 → Gives .wakeTimerExpiry s (OnlyRegs [] s))
    ∧ (s.pwr.core = false → s.rd PWR_WAKETMR ≠ 0 → Gives .wakeTimerExpiry s (fun u => u.rd PWR_WAKETMR = 0
        ∧ u.pwr = { s.pwr with wakeN := true } ∧ .pin .wakeN true ∈ u.out ∧ Frame [PWR_WAKETMR] [.pwr] s u))
    ∧ (∀ tj : BitVec 12,
      let x := signed 12 tj.toNat
      let warn : Int := (8 * s.thermWarn : Nat)
      let read := fun (u : State) => u.fld PWR_TEMP PWR_TEMP_TJ = tj.toNat
      (x < warn → s.pwr.thermN = false ∨ warn - 40 ≤ x → Gives (.temperatureUpdate tj) s (fun u => read u
        ∧ u.bit PWR_STAT PWR_STAT_HOT = false ∧ OnlyRegs [PWR_TEMP, PWR_STAT] s u))
      ∧ (x < warn - 40 → s.pwr.thermN = true → Gives (.temperatureUpdate tj) s (fun u => read u
        ∧ u.bit PWR_STAT PWR_STAT_HOT = false ∧ u.pwr = { s.pwr with thermN := false } ∧ .pin .thermN false ∈ u.out
        ∧ Frame [PWR_TEMP, PWR_STAT] [.pwr] s u))
      ∧ (x < 1080 → warn ≤ x → s.bit PWR_STAT PWR_STAT_HOT = true → Gives (.temperatureUpdate tj) s (fun u => read u
        ∧ u.pwr = { s.pwr with thermN := true } ∧ Frame [PWR_TEMP] [.pwr] s u))
      ∧ (x < 1080 → warn ≤ x → s.bit PWR_STAT PWR_STAT_HOT = false →
        ∃ t, Answers (.temperatureUpdate tj) s (t.raise 448) ∧ read t ∧ t.bit PWR_STAT PWR_STAT_HOT = true
          ∧ t.pwr = { s.pwr with thermN := true } ∧ Frame [PWR_TEMP, PWR_STAT] [.pwr] s t)
      ∧ (1080 ≤ x → ∃ t, Answers (.temperatureUpdate tj) s (opThermsd t) ∧ read t
          ∧ t.pwr = { s.pwr with thermN := true } ∧ Frame [PWR_TEMP] [.pwr] s t))
    ∧ (∀ d : StopDomain, (s.domainUse d).2 = true → Gives (.domainStop d) s (OnlyRegs [] s))
    ∧ (∀ d : StopDomain, (s.domainUse d).2 = false → Gives (.domainStop d) s (fun u =>
        u.bit PWR_DOMSTAT ⟨(s.domainUse d).1, 1⟩ = false ∧ OnlyRegs [PWR_DOMSTAT, MLN_GRPSTAT] s u))

/-- Slices, patrol reads, full tests and the unit registers of the self-test. (R546, R547, R549, R550, R552, R553,
R555, R557) -/
def Obligations.SelfTestSlices : Prop :=
  ∀ s : State,
    let nothing := fun (c : Instr) => Gives c s (OnlyRegs [] s)
    let counted := fun (u : State) => u.fld BST_SLICES BST_SLICES_COUNT
      = min (s.fld BST_SLICES BST_SLICES_COUNT + 1) (2 ^ BST_SLICES_COUNT.width - 1)
    let turned := { s.bst with slicing := s.bst.slicing.filter (· != 0x70)
                               cursor := Tbl.put s.bst.cursor 0x70 ((s.rowTurn + 1) % 45840) }
    (s.bit BST_CTRL BST_CTRL_SLICEEN = false ∨ s.powerActive = false → nothing .sliceStart)
    ∧ (s.bit BST_CTRL BST_CTRL_SLICEEN = true → s.powerActive = true →
      Gives .sliceStart s (fun u => 0x70 ∈ u.bst.slicing ∧ (∀ x, x ∈ s.bst.slicing → x ∈ u.bst.slicing)
        ∧ Frame [PWR_DOMSTAT] [.bst] s u))
    ∧ (∀ (u : Byte) (p : Bool), u.toNat ∉ s.bst.slicing → nothing (.sliceEnd u p))
    ∧ (0x70 ∈ s.bst.slicing → Gives (.sliceEnd 0x70 true) s (fun u => u.bst = turned ∧ counted u
        ∧ Frame [BST_SLICES] [.bst] s u))
    ∧ (0x70 ∈ s.bst.slicing → s.fld BST_STAT BST_STAT_LSSPARE = 0 → ∃ t, Answers (.sliceEnd 0x70 false) s (t.raise 405)
        ∧ t.bst = turned ∧ counted t ∧ Frame [BST_SLICES] [.bst] s t)
    ∧ (0x70 ∈ s.bst.slicing → s.fld BST_STAT BST_STAT_LSSPARE ≠ 0 → ∃ t, Answers (.sliceEnd 0x70 false) s (t.raise 404)
        ∧ t.fld BST_STAT BST_STAT_LSSPARE = s.fld BST_STAT BST_STAT_LSSPARE - 1
        ∧ t.fld BST_LSREP BST_LSREP_COUNT = min (s.fld BST_LSREP BST_LSREP_COUNT + 1) (2 ^ BST_LSREP_COUNT.width - 1)
        ∧ t.bst = { turned with repaired := insertRow s.rowTurn s.bst.repaired } ∧ counted t
        ∧ Frame [BST_SLICES, BST_STAT, BST_LSREP] [.bst] s t)
    ∧ (∀ (u : Byte) (c : Nat × Nat × Nat × Nat), u.toNat ∈ s.bst.slicing → sliceClass u.toNat = some c →
      Tbl.getD s.bst.slices u.toNat 0 + 1 < c.2.2.1 → Gives (.sliceEnd u true) s (fun w => counted w
        ∧ w.bst = { s.bst with slicing := s.bst.slicing.filter (· != u.toNat)
                               slices := Tbl.put s.bst.slices u.toNat (Tbl.getD s.bst.slices u.toNat 0 + 1) }
        ∧ Frame [BST_SLICES] [.bst] s w))
    ∧ (∀ (k : Fin 2) (c e : Nat), s.bit FSA_MEMSTAT (if k = 0 then FSA_MEMSTAT_STK0 else FSA_MEMSTAT_STK1) = false →
      nothing (.patrolRead k c e))
    ∧ (∀ (k : Fin 2) (c : Nat), s.bit FSA_MEMSTAT (if k = 0 then FSA_MEMSTAT_STK0 else FSA_MEMSTAT_STK1) = true →
      Gives (.patrolRead k c 0) s (fun u => u.fld FSA_ECCFIX FSA_ECCFIX_COUNT =
          min (s.fld FSA_ECCFIX FSA_ECCFIX_COUNT + c) (2 ^ FSA_ECCFIX_COUNT.width - 1)
        ∧ u.fld FSA_ECCUNC FSA_ECCUNC_COUNT = s.fld FSA_ECCUNC FSA_ECCUNC_COUNT ∧ OnlyRegs [FSA_ECCFIX, FSA_ECCUNC] s u))
    ∧ (∀ (u : Byte) (p : Bool), unitValid u.toNat = false
        ∨ (s.fullTesting u.toNat = false ∧ s.bit BST_STAT BST_STAT_FULLRUN = false) → nothing (.fullTestEnd u p))
    ∧ (∀ u : Byte, unitValid u.toNat = true → s.fullTesting u.toNat = false → s.bit BST_STAT BST_STAT_FULLRUN = true →
      Gives (.fullTestEnd u true) s (fun w => w.unitFailed u.toNat = false ∧ u.toNat ∈ w.bst.passed
        ∧ (∀ x, x ≠ u.toNat → x < 256 → w.unitFailed x = s.unitFailed x)
        ∧ Frame [BST_FAILED (u.toNat / 32)] [.bst] s w))
    ∧ (∀ (i : Fin 8) (v : Word), s.pwr.barred = false →
      (s.oosRefuses i.val v = true → ∃ t, Answers (.bstOosWrite i v) s (t.raise 409)
        ∧ t.bit BST_ERR BST_ERR_CFGREJ = true ∧ OnlyRegs [BST_ERR] s t)
      ∧ (s.oosRefuses i.val v = false → Gives (.bstOosWrite i v) s (fun u =>
        u.rd (BST_OOS i.val) = v ∧ OnlyRegs [BST_OOS i.val] s u)))
    ∧ (∀ v : Word, s.pwr.barred = false → Gives (.bstUnitIdx v) s (fun w =>
        let u := w.fld BST_UNIT_IDX BST_UNIT_IDX_UNIT
        u = BST_UNIT_IDX_UNIT.get v
        ∧ w.bit BST_UNIT_STAT BST_UNIT_STAT_LASTPASS = s.bst.passed.contains u
        ∧ w.fld BST_UNIT_STAT BST_UNIT_STAT_STATE = (if unitValid u then s.unitState u else 0)
        ∧ w.fld BST_UNIT_STAT BST_UNIT_STAT_SLICE = Tbl.getD s.bst.slices u 0 % 2 ^ BST_UNIT_STAT_SLICE.width
        ∧ OnlyRegs [BST_UNIT_IDX, BST_UNIT_STAT] s w))
    ∧ (s.pwr.barred = false → Gives .bstClrcnt s (fun u => u.rd BST_SLICES = 0 ∧ u.rd BST_ABANDON = 0 ∧ u.rd BST_LSREP = 0
        ∧ OnlyRegs [BST_SLICES, BST_ABANDON, BST_LSREP] s u))

/-- LOADIMG, the end of slot programming, DISTRIB and the image it brings. (R93, R95, R583, R587, R588, R589, R590) -/
def Obligations.ImagesAndSlots : Prop :=
  ∀ s : State,
    let ok : Prop := hostOk s.svcAddr s.svcLen = true
    let ends := fun (op r : Nat) (u : State) => u.svcBusy = false ∧ u.fld SVC_CMDSTAT SVC_CMDSTAT_RESULT = r
      ∧ u.fld SVC_CMDSTAT SVC_CMDSTAT_OP = op ∧ u.bit SVC_HIST SVC_HIST_DONE = true
      ∧ u.svc.started = none ∧ u.svc.channel = none
    let goes := fun (op ch : Nat) => ch < 48 ∧ ((s.svc.started = some op ∧ s.svcChannel = some ch)
      ∨ (s.svc.started ≠ some op ∧ s.svcBusy = false ∧ ok ∧ s.channelIn (decide (s.svcLen ≤ 4096)) = some ch))
    let moved := fun (ch : Nat) (u : State) =>
      u.rd (HIF_DMA_BYTES ch) = s.rd (HIF_DMA_BYTES ch) + BitVec.ofNat 32 s.svcLen
    let only := fun (op r ch : Nat) (u : State) => ends op r u ∧ moved ch u
      ∧ Frame [HIF_DMA_BYTES ch, SVC_CMDSTAT, SVC_HIST] [.svc] s u
    let slots := [SVC_CMDSTAT, SVC_UPD, SVC_SLOTVER0, SVC_SLOTVER1]
    let idle : Prop := s.updState = 0 ∧ s.svc.programming = none
    let answers := fun (op : Nat) => s.svc.started = some op ∨ s.svcBusy = false
    let result := fun (a : Fin 4) => if a.val = 1 then 1 else if a.val = 2 then 6 else if a.val = 3 then 3 else 0
    (∀ i a, s.svcBusy = true →
      (s.svc.started ≠ some 1 → Gives (.loadimg i) s (OnlyRegs [] s))
      ∧ (s.svc.started ≠ some 2 → Gives (.distrib a) s (OnlyRegs [] s)))
    ∧ (∀ i : Image, s.svcBusy = false → s.svc.started ≠ some 1 →
      (¬ok → Answers (.loadimg i) s ((s.raise 323).svcEnd 1 7))
      ∧ (ok → s.channelIn (decide (s.svcLen ≤ 4096)) = none → Gives (.loadimg i) s (fun u => u.svcBusy = true
        ∧ u.fld SVC_CMDSTAT SVC_CMDSTAT_OP = 1 ∧ u.svc = { s.svc with started := some 1, channel := none }
        ∧ Frame [SVC_CMDSTAT] [.svc] s u)))
    ∧ (∀ (i : Image) (ch : Nat), goes 1 ch → idle → s.imageFail i = none →
      (s.ready = true → s.arg % 2 = 0 → Gives (.loadimg i) s (fun u => ends 1 0 u ∧ moved ch u ∧ u.updState = 1
        ∧ u.svc.staged = some i ∧ u.svc.programming = some (1 - s.flash.boot, i) ∧ u.svc.verified = false
        ∧ u.svc.running = s.svc.running ∧ u.flash = s.flash.setSlot (1 - s.flash.boot) none
        ∧ Frame (HIF_DMA_BYTES ch :: SVC_HIST :: slots) [.svc, .flash] s u))
      ∧ (s.ready = true → s.arg % 2 = 1 → Gives (.loadimg i) s (fun u => ends 1 0 u ∧ moved ch u
        ∧ u.svc.staged = s.svc.staged ∧ u.svc.programming = some (2, i) ∧ u.flash = s.flash.setSlot 2 none
        ∧ Frame [HIF_DMA_BYTES ch, SVC_CMDSTAT, SVC_HIST] [.svc, .flash] s u)))
    ∧ (∀ (i : Image) (ch : Nat), goes 1 ch → idle → s.imageFail i = some .signature →
      ∃ t, Answers (.loadimg i) s ((t.raise 481).svcEnd 1 1) ∧ moved ch t
        ∧ t.fld SEC_SIGFAIL SEC_SIGFAIL_COUNT
          = min (s.fld SEC_SIGFAIL SEC_SIGFAIL_COUNT + 1) (2 ^ SEC_SIGFAIL_COUNT.width - 1)
        ∧ Frame [HIF_DMA_BYTES ch, SVC_CMDSTAT, SEC_SIGFAIL] [.svc] s t)
    ∧ (∀ (i : Image) (ch : Nat), goes 1 ch → ¬idle → Gives (.loadimg i) s (only 1 3 ch))
    ∧ (∀ b : Bool, s.svc.programming = none → Gives (.slotProgramDone b) s (OnlyRegs [] s))
    ∧ (∀ (k : Nat) (i : Image), s.svc.programming = some (k, i) →
      (k < 2 → Gives (.slotProgramDone true) s (fun u => u.flash = s.flash.setSlot k (some i)
        ∧ u.svc = { s.svc with programming := none, verified := true } ∧ u.rd (slotVer k) = i.version
        ∧ Frame [slotVer k] [.svc, .flash] s u))
      ∧ (2 ≤ k → Gives (.slotProgramDone true) s (fun u => u.flash = s.flash.setSlot k (some i)
        ∧ u.svc = { s.svc with programming := none } ∧ Frame [] [.svc, .flash] s u))
      ∧ ∃ t, t.bit SVC_CMDSTAT SVC_CMDSTAT_SLOTERR = true ∧ t.svc = { s.svc with programming := none }
        ∧ Frame [SVC_CMDSTAT] [.svc] s t
        ∧ (2 ≤ k → Answers (.slotProgramDone false) s (t.raise 362))
        ∧ (k < 2 → Answers (.slotProgramDone false) s
          (let w := (t.raise 362).setUpd 0
          let u := w.setSvc { w.svc with staged := none }
          if (t.raise 362).updState = 2 then u.svcEnd 3 4 else u)))
    ∧ (∀ a, answers 2 →
      (s.svc.staged = none ∨ s.updState ≠ 1 → Gives (.distrib a) s (fun u => ends 2 5 u
        ∧ Frame [SVC_CMDSTAT, SVC_HIST] [.svc] s u))
      ∧ (∀ i : Image, s.svc.staged = some i → s.updState = 1 →
        (∀ n, n ∈ s.maskNodes (s.arg % 16) → s.hasPath n = true) →
        (∀ n rest, s.maskNodes (s.arg % 16) = n :: rest → Gives (.distrib a) s (fun u => ends 2 (result a) u
          ∧ .msg n (.image i (nodeMask rest)) ∈ u.out ∧ Frame [SVC_CMDSTAT, SVC_HIST] [.svc] s u))
        ∧ (s.maskNodes (s.arg % 16) = [] → Gives (.distrib a) s (fun u => ends 2 0 u
          ∧ Frame [SVC_CMDSTAT, SVC_HIST] [.svc] s u)))
      ∧ (∀ n, s.svc.staged ≠ none → s.updState = 1 → n ∈ s.maskNodes (s.arg % 16) → s.hasPath n = false →
        Gives (.distrib a) s (fun u => ends 2 6 u ∧ Frame [SVC_CMDSTAT, SVC_HIST] [.svc] s u)))
    ∧ (∀ (n : Node) (i : Image) (m : BitVec 4) (r : Bool),
      (¬idle → Gives (.distribImageReceived n i m r) s (fun u =>
        (s.hasPath n.val = true → .msg n.val (.imageAnswer 3) ∈ u.out) ∧ OnlyRegs [] s u))
      ∧ (idle → s.imageFail i = none → s.ready = true → Gives (.distribImageReceived n i m r) s (fun u => u.updState = 1
        ∧ u.svc.staged = some i ∧ u.svc.programming = some (1 - s.flash.boot, i) ∧ u.svc.verified = false
        ∧ u.flash = s.flash.setSlot (1 - s.flash.boot) none
        ∧ (s.hasPath n.val = true → .msg n.val (.imageAnswer 0) ∈ u.out)
        ∧ (∀ v rest, s.maskNodes m.toNat = v :: rest → s.hasPath v = true → .msg v (.image i (nodeMask rest)) ∈ u.out)
        ∧ Frame slots [.svc, .flash] s u))
      ∧ (idle → s.imageFail i = some .signature → r = false →
        ∃ t, Answers (.distribImageReceived n i m r) s ((t.raise 481).send n.val (.imageAnswer 2))
          ∧ t.fld SEC_SIGFAIL SEC_SIGFAIL_COUNT
            = min (s.fld SEC_SIGFAIL SEC_SIGFAIL_COUNT + 1) (2 ^ SEC_SIGFAIL_COUNT.width - 1)
          ∧ OnlyRegs [SEC_SIGFAIL] s t))

/-- HANDOVER, the end of the shadow run, CONFIRM, REVERT and the watchdog. (R578, R579, R587, R591, R592, R594, R595)
-/
def Obligations.HandoverAndConfirm : Prop :=
  ∀ s : State,
    let ends := fun (op r : Nat) (u : State) => u.svcBusy = false ∧ u.fld SVC_CMDSTAT SVC_CMDSTAT_RESULT = r
      ∧ u.fld SVC_CMDSTAT SVC_CMDSTAT_OP = op ∧ u.bit SVC_HIST SVC_HIST_DONE = true
      ∧ u.svc.started = none ∧ u.svc.channel = none
    let only := fun (op r : Nat) (u : State) => ends op r u ∧ Frame [SVC_CMDSTAT, SVC_HIST] [.svc] s u
    let answers := s.svc.started = some 3 ∨ s.svcBusy = false
    (s.svcBusy = true → (∀ p, s.svc.started ≠ some 3 → Gives (.handover p) s (OnlyRegs [] s))
      ∧ Gives .confirm s (OnlyRegs [] s) ∧ Gives .revert s (OnlyRegs [] s))
    ∧ (∀ p : Word, answers →
      (s.svc.staged = none → Gives (.handover p) s (only 3 5))
      ∧ (∀ i : Image, s.svc.staged = some i →
        let may : Prop := s.updState = 1 ∧ i.minPeer.toNat ≤ p.toNat ∧ i.minPeer.toNat ≤ (s.rd SVC_FWVER).toNat
        (may → Gives (.handover p) s (fun u => u.updState = 2 ∧ u.svcBusy = true ∧ u.fld SVC_CMDSTAT SVC_CMDSTAT_OP = 3
          ∧ Frame [SVC_UPD, SVC_CMDSTAT] [.svc] s u))
        ∧ (¬may → Gives (.handover p) s (only 3 5))))
    ∧ (s.deferred = true → Gives .shadowEnd s (OnlyRegs [] s))
    ∧ (s.deferred = false → s.svc.reverting = false → s.svc.staged = none ∨ s.updState ≠ 2 →
      Gives .shadowEnd s (OnlyRegs [] s))
    ∧ (∀ i : Image, s.deferred = false → s.svc.reverting = false → s.svc.staged = some i → s.updState = 2 →
      s.fld SVC_CFGSTAT SVC_CFGSTAT_FMT = i.cfgFmt.toNat →
      Gives .shadowEnd s (fun u => ends 3 0 u ∧ u.updState = 3 ∧ u.svc.running = some i ∧ u.svc.old = s.svc.running
        ∧ u.svc.confAt = s.now ∧ u.rd SVC_FWVER = i.version ∧ u.fld SVC_SLOT SVC_SLOT_RUN = 1 - s.flash.boot
        ∧ u.bit SVC_SLOT SVC_SLOT_RECOVERY = false
        ∧ Frame [SVC_CMDSTAT, SVC_HIST, SVC_UPD, SVC_FWVER, SVC_SLOT, SEC_KEY] [.svc] s u))
    ∧ (s.deferred = false → s.svc.reverting = true → ∃ t, t.updState = 0 ∧ t.svc.running = s.svc.old
        ∧ t.svc.reverting = false ∧ t.svc.staged = none ∧ t.bit SVC_HIST SVC_HIST_REVERT = true
        ∧ Frame [SVC_SLOT, SVC_FWVER, SVC_CFGSEQ, SEC_KEY, SVC_CFGSTAT, SVC_UPD, SVC_HIST] [.svc] s t
        ∧ Answers .shadowEnd s (if (t.raise 356).svcBusy && (t.raise 356).fld SVC_CMDSTAT SVC_CMDSTAT_OP == 5 then
            (t.raise 356).svcEnd 5 0 else t.raise 356))
    ∧ (∀ i : Image, s.svcBusy = false → s.updState = 3 → s.svc.verified = true → s.svc.reverting = false →
      s.svc.running = some i →
      Gives .confirm s (fun u => ends 4 0 u ∧ u.updState = 0 ∧ u.otp = { s.otp with svn := max s.otp.svn i.svn }
        ∧ u.flash = s.flash.point (s.fld SVC_SLOT SVC_SLOT_RUN)
        ∧ u.fld SVC_SLOT SVC_SLOT_BOOT = s.fld SVC_SLOT SVC_SLOT_RUN
        ∧ u.bit SVC_CFGSTAT SVC_CFGSTAT_PROTECT = false ∧ u.svc.staged = none ∧ u.svc.old = none
        ∧ Frame [SVC_CMDSTAT, SVC_HIST, SVC_UPD, SVC_SLOT, SVC_CFGSTAT] [.svc, .flash, .otp] s u))
    ∧ (s.svcBusy = false → s.updState = 3 → s.svc.verified = false ∨ s.svc.reverting = true →
      Gives .confirm s (only 4 3))
    ∧ (s.svcBusy = false → s.updState ≠ 3 → Gives .confirm s (only 4 5) ∧ Gives .revert s (only 5 5))
    ∧ (s.svcBusy = false → s.updState = 3 → s.svc.reverting = true → Gives .revert s (only 5 3))
    ∧ (s.svcBusy = false → s.updState = 3 → s.svc.reverting = false →
      Gives .revert s (fun u => u.svc = { s.svc with reverting := true } ∧ u.svcBusy = true
        ∧ u.fld SVC_CMDSTAT SVC_CMDSTAT_OP = 5 ∧ Frame [SVC_CMDSTAT] [.svc] s u))
    ∧ (s.updState = 3 → s.fld SVC_CTRL SVC_CTRL_CONFTO ≠ 0 →
      Gives .conftoExpiry s (fun u => u.svc = { s.svc with reverting := true } ∧ Frame [] [.svc] s u))
    ∧ (s.updState ≠ 3 ∨ s.fld SVC_CTRL SVC_CTRL_CONFTO = 0 → Gives .conftoExpiry s (OnlyRegs [] s))
    ∧ (∀ c : Fin 4, ∃ t, t.svc = { s.svc with wdog := Tbl.put s.svc.wdog c.val s.now }
        ∧ t.bit SVC_HIST SVC_HIST_WDOG = true ∧ Frame [SVC_HIST] [.svc] s t
        ∧ ((∀ at_, Tbl.find? s.svc.wdog c.val = some at_ → at_ + 10000000000 ≤ s.now) →
          Answers (.svcWdog c) s (t.raise 360))
        ∧ (∀ at_, Tbl.find? s.svc.wdog c.val = some at_ → s.now < at_ + 10000000000 →
          (∀ j, j < 4 → (t.raise 360).unitFailed (0x80 + j) = false) →
          Answers (.svcWdog c) s ((t.raise 360).setFailed (0x80 + c.val) true)))
    ∧ (∀ v : Fin 4, Gives (.serviceMoveDone v) s (fun u => u.fld SVC_CORE ⟨2 * v.val, 2⟩ = s.coreFor v.val
        ∧ OnlyRegs [SVC_CORE] s u))

/-- SVC_UPDFAIL in SHADOW, with no hand-back in progress, answers the state in which HIST.UPDFAIL is set, source
SVC_UPDFAIL (355) has been raised, UPD reads STAGED and HANDOVER has completed with RESULT BADIMG (1); the running
image, the staged image, flash and OTP are those of before. Outside a shadow run it changes nothing. (R593) -/
def Obligations.ShadowFailure : Prop :=
  ∀ s : State,
    (s.svc.reverting = false → s.updState = 2 →
      Answers .svcUpdfail s ((((s.setBit SVC_HIST SVC_HIST_UPDFAIL true).raise 355).setUpd 1).svcEnd 3 1)
      ∧ (s.setBit SVC_HIST SVC_HIST_UPDFAIL true).bit SVC_HIST SVC_HIST_UPDFAIL = true
      ∧ Gives .svcUpdfail s (fun u => u.updState = 1 ∧ u.svcBusy = false
        ∧ u.fld SVC_CMDSTAT SVC_CMDSTAT_RESULT = 1 ∧ u.fld SVC_CMDSTAT SVC_CMDSTAT_OP = 3
        ∧ u.svc.running = s.svc.running ∧ u.svc.staged = s.svc.staged
        ∧ u.flash = s.flash ∧ u.otp = s.otp))
    ∧ (s.svc.reverting = false → s.updState ≠ 2 → Gives .svcUpdfail s (OnlyRegs [] s))

/-- SAVECFG, LCADV, KEYREV, the reserved operations and the end of start-up. (R499, R500, R587, R598, R601, R602,
R603, R604, R605) -/
def Obligations.ConfigurationAndLifeCycle : Prop :=
  ∀ s : State,
    let ok : Prop := hostOk s.svcAddr s.svcLen = true
    let ends := fun (op r : Nat) (u : State) => u.svcBusy = false ∧ u.fld SVC_CMDSTAT SVC_CMDSTAT_RESULT = r
      ∧ u.fld SVC_CMDSTAT SVC_CMDSTAT_OP = op ∧ u.bit SVC_HIST SVC_HIST_DONE = true
      ∧ u.svc.started = none ∧ u.svc.channel = none
    let goes := fun (op ch : Nat) => ch < 48 ∧ ((s.svc.started = some op ∧ s.svcChannel = some ch)
      ∨ (s.svc.started ≠ some op ∧ s.svcBusy = false ∧ ok ∧ s.channelIn (decide (s.svcLen ≤ 4096)) = some ch))
    let moved := fun (ch : Nat) (u : State) =>
      u.rd (HIF_DMA_BYTES ch) = s.rd (HIF_DMA_BYTES ch) + BitVec.ofNat 32 s.svcLen
    let only := fun (op r ch : Nat) (u : State) => ends op r u ∧ moved ch u
      ∧ Frame [HIF_DMA_BYTES ch, SVC_CMDSTAT, SVC_HIST] [.svc] s u
    (∀ op : BitVec 4, op.toNat = 0 ∨ 8 < op.toNat →
      (s.svcBusy = false → Gives (.svcCmdReserved op) s (fun u => ends op.toNat 5 u
        ∧ Frame [SVC_CMDSTAT, SVC_HIST] [.svc] s u))
      ∧ (s.svcBusy = true → Gives (.svcCmdReserved op) s (OnlyRegs [] s)))
    ∧ (∀ (b : Bank) (p : Bool) (ch : Nat), goes 6 ch → s.updState = 3 → Gives (.savecfg b p) s (only 6 3 ch))
    ∧ (∀ (b : Bank) (p : Bool) (i : Image) (ch : Nat), goes 6 ch → s.updState ≠ 3 → s.svc.running = some i →
      (s.bankOk b i.cfgRead.toNat i.cfgFmt.toNat = false → Gives (.savecfg b p) s (only 6 1 ch))
      ∧ (s.bankOk b i.cfgRead.toNat i.cfgFmt.toNat = true →
        (p = true → Gives (.savecfg b p) s (fun u => ends 6 0 u ∧ moved ch u
          ∧ u.flash = (if s.bit SVC_CFGSTAT SVC_CFGSTAT_BANK then { s.flash with bankA := some b }
              else { s.flash with bankB := some b })
          ∧ u.bit SVC_CFGSTAT SVC_CFGSTAT_BANK = s.bit SVC_CFGSTAT SVC_CFGSTAT_BANK
          ∧ Frame [HIF_DMA_BYTES ch, SVC_CMDSTAT, SVC_HIST, SVC_CFGSTAT] [.svc, .flash] s u))
        ∧ (p = false → ∃ t, Answers (.savecfg b p) s ((t.raise 362).svcEnd 6 4) ∧ moved ch t
          ∧ Frame [HIF_DMA_BYTES ch, SVC_CMDSTAT] [.svc] s t)))
    ∧ (∀ (k : Token) (m : Word) (ms : Byte) (ch : Nat), goes 7 ch →
      let target := s.arg % 8
      let o := s.otp.intend target m
      (s.tokenOk k 7 target = false → Gives (.lcadv k m ms) s (only 7 1 ch))
      ∧ (s.tokenOk k 7 target = true → target ≤ s.lifeReached ∨ 4 < target → Gives (.lcadv k m ms) s (only 7 5 ch))
      ∧ (s.tokenOk k 7 target = true → s.lifeReached < target → target ≤ 4 →
        (Tbl.getD o.intents target 0 = intentWord s.otp.chipId target →
          (o.program target ms).word = BitVec.ofNat 8 (lifeCode target) →
          Gives (.lcadv k m ms) s (fun u => ends 7 0 u ∧ moved ch u ∧ u.otp = o.program target ms
            ∧ u.bit SEC_LC SEC_LC_PENDING = true
            ∧ Frame [HIF_DMA_BYTES ch, SVC_CMDSTAT, SVC_HIST, SEC_LC] [.svc, .otp] s u))
        ∧ (Tbl.getD o.intents target 0 ≠ intentWord s.otp.chipId target →
          ∃ t, Answers (.lcadv k m ms) s ((t.raise 485).svcEnd 7 4) ∧ moved ch t ∧ t.otp = o ∧ o.word = s.otp.word
            ∧ Frame [HIF_DMA_BYTES ch, SVC_CMDSTAT] [.svc, .otp] s t)))
    ∧ (∀ (k : Token) (ch : Nat), goes 8 ch →
      let slot := s.arg % 4
      let others : Prop := ∃ j, j < 4 ∧ j ≠ slot ∧ s.keyValid j = true ∧ s.keyRevoked j = false
      (s.tokenOk k 8 slot = false → Gives (.keyrev k) s (only 8 1 ch))
      ∧ (s.tokenOk k 8 slot = true → k.slot.toNat = slot ∨ ¬others → Gives (.keyrev k) s (only 8 5 ch))
      ∧ (s.tokenOk k 8 slot = true → k.slot.toNat ≠ slot → others →
        ∃ t, Answers (.keyrev k) s ((t.raise 486).svcEnd 8 0) ∧ moved ch t
          ∧ t.otp = { s.otp with revoked := s.otp.revoked ||| BitVec.ofNat 4 (2 ^ slot) }
          ∧ Frame [HIF_DMA_BYTES ch, SVC_CMDSTAT] [.svc, .otp] s t))
    ∧ (∀ r : StartReport, s.starting = false → Gives (.startUpComplete r) s (OnlyRegs [] s))
    ∧ (∀ r : StartReport, s.starting = true → (s.readFlash r.board).bootImage.2 = none ∨ r.complete = false →
      Answers (.startUpComplete r) s (s.readFlash r.board).bootImage.1)
    ∧ (∀ r : StartReport, s.starting = true → (s.readFlash r.board).bootImage.2 ≠ none → r.complete = true →
      Gives (.startUpComplete r) s (fun u => u.ready = true))

/-- The plane test, the stages of a rotation and the commands of the planes. (R168, R186, R187, R188, R190, R191,
R192, R195) -/
def Obligations.PlaneRotation : Prop :=
  ∀ s : State,
    let nothing := fun (c : Instr) => Gives c s (OnlyRegs [] s)
    let idle : Prop := s.planes.rotation = none ∧ s.testPl ≠ 31
    (∀ p : Bool, s.testPl = 31 ∨ s.testDone = true ∨ s.planes.rotation ≠ none → nothing (.planeTestDone p))
    ∧ (s.testPl ≠ 31 → s.testDone = false → s.planes.rotation = none → s.planes.failing = [] → s.planes.force = false →
      s.planes.due = false → Tbl.find? s.bst.waits s.testPl = none →
      Gives (.planeTestDone true) s (fun u => u.testDone = true ∧ u.testPassed = true ∧ u.testPl = s.testPl
        ∧ u.bst = { s.bst with passed := s.bst.passed.filter (· != s.testPl) ++ [s.testPl] }
        ∧ Frame [XPT_PLANE_STAT] [.bst] s u))
    ∧ (s.testPl ≠ 31 → s.testDone = false → s.planes.rotation = none → Tbl.find? s.bst.waits s.testPl = none →
      ∃ t, Answers (.planeTestDone false) s ((t.retirePlane s.testPl).raise 145) ∧ t.unitFailed s.testPl = true
        ∧ t.planes = { s.planes with force := false, due := false }
        ∧ t.bst = { s.bst with passed := s.bst.passed.filter (· != s.testPl) }
        ∧ Frame [BST_FAILED 0] [.bst, .planes] s t)
    ∧ (s.bit XPT_CTRL XPT_CTRL_ROTEN = false ∨ ¬idle → nothing .rotationTimer)
    ∧ (s.pwr.barred = false → ¬idle → nothing .forceRot)
    ∧ (idle → s.testPassed = false →
      (s.bit XPT_CTRL XPT_CTRL_ROTEN = true → Gives .rotationTimer s (fun u =>
        u.planes = { s.planes with due := true } ∧ Frame [] [.planes] s u))
      ∧ (s.pwr.barred = false → Gives .forceRot s (fun u =>
        u.planes = { s.planes with force := true } ∧ Frame [] [.planes] s u)))
    ∧ (∀ (o p : Nat), idle → s.testPassed = true → s.nextPlane = some o → s.positionOf o = some p →
      let starts := fun (u : State) => Frame [] [.planes] s u
        ∧ u.planes = { s.planes with rotation := some ⟨p, o, s.testPl, 0, false⟩, due := false, force := false }
      (s.bit XPT_CTRL XPT_CTRL_ROTEN = true → Gives .rotationTimer s starts)
      ∧ (s.pwr.barred = false → Gives .forceRot s starts))
    ∧ (s.planes.rotation = none → nothing .rotationCopyStart ∧ nothing .rotationReadsMove ∧ nothing .rotationComplete)
    ∧ (∀ r : Rotation, s.planes.rotation = some r →
      (r.stage ≠ 0 → nothing .rotationCopyStart) ∧ (r.stage ≠ 1 → nothing .rotationReadsMove)
      ∧ (r.stage ≠ 2 → nothing .rotationComplete)
      ∧ (r.stage = 0 → Gives .rotationCopyStart s (fun u =>
          u.planes = { s.planes with rotation := some { r with stage := 1 } } ∧ Frame [] [.planes] s u))
      ∧ (r.stage = 1 → r.incoming < 32 → Gives .rotationReadsMove s (fun u =>
          u.planes = { s.planes with rotation := some { r with stage := 2 } } ∧ u.planeAt r.position = r.incoming
          ∧ Frame [XPT_PMAP r.position] [.planes] s u))
      ∧ (r.stage = 2 → r.out < 17 → s.planes.failing = [] → Gives .rotationComplete s (fun u =>
          u.planes = { s.planes with rotation := none } ∧ u.testPl = (if r.retire then 31 else r.out)
          ∧ u.testDone = false ∧ u.testPassed = false
          ∧ u.fld XPT_ROTCNT XPT_ROTCNT_COUNT =
            min (s.fld XPT_ROTCNT XPT_ROTCNT_COUNT + 1) (2 ^ XPT_ROTCNT_COUNT.width - 1)
          ∧ Frame [XPT_PLANE_STAT, XPT_ROTCNT] [.planes] s u)))
    ∧ (∀ p : BitVec 5, s.pwr.barred = false →
      let bad : Prop := 16 < p.toNat ∨ s.retired p.toNat = true ∨ s.healthy ≤ 14
      (bad → Gives (.xptRetireCmd p) s (fun u => u.bit XPT_ERR XPT_ERR_RETREJ = true
        ∧ OnlyRegs [XPT_RETIRE_CMD, XPT_ERR] s u))
      ∧ (¬bad → Gives (.xptRetireCmd p) s (fun u => u.retired p.toNat = true ∧ u.healthy = s.healthy - 1
        ∧ u.fld XPT_PLANE_STAT XPT_PLANE_STAT_PROT = protFor (s.healthy - 1) ∧ SameMem s u)))
    ∧ (s.pwr.barred = false →
      let l := [XPT_EPDISC, XPT_UNCORR, XPT_ROTCNT, XPT_RTFIX] ++ (List.range 17).map XPT_PLCNT
      Gives .xptClrcnt s (fun u => (∀ a, a ∈ l → u.rd a = 0) ∧ OnlyRegs l s u))

/-- LOAD, SNAP, ADJ, FREQ and the other commands of the time bases. (R339, R446, R448, R451, R452, R454, R455, R456,
R460, R465) -/
def Obligations.TimeBaseCommands : Prop :=
  ∀ (b : Tb) (s : State),
    let refused := fun (c : Instr) => ∃ t, Answers c s (t.raise 263) ∧ t.bit TIM_ERR TIM_ERR_CFGREJ = true
      ∧ OnlyRegs [TIM_ERR] s t
    let stat := TIM_TB_STAT b.val
    let snaps := fun (k : Nat) => [TIM_TB_SNAPSEC_LO k, TIM_TB_SNAPSEC_HI k, TIM_TB_SNAPNS k, TIM_TB_SNAPTS k]
    let snapped := fun (k : Nat) (u : State) =>
      let t := s.fullTime k
      u.fld (TIM_TB_SNAPSEC_LO k) TIM_TB_SNAPSEC_LO_SEC = t / 1000000000 % 2 ^ 32
      ∧ u.fld (TIM_TB_SNAPSEC_HI k) TIM_TB_SNAPSEC_HI_SEC
        = t / 1000000000 / 2 ^ 32 % 2 ^ TIM_TB_SNAPSEC_HI_SEC.width
      ∧ u.fld (TIM_TB_SNAPNS k) TIM_TB_SNAPNS_NS = t % 1000000000
      ∧ u.fld (TIM_TB_SNAPTS k) TIM_TB_SNAPTS_TS = t % 2 ^ 32
    let other := !s.inUse b.val
    let may : Prop := s.tbMode b.val = 2 ∧ s.domQual b.val other = true
      ∧ (other = false ∨ s.bit (TIM_TB_CTRL b.val) TIM_TB_CTRL_DOMBEN = true)
    let slewing := s.bit stat TIM_TB_STAT_SLEWING
    (s.pwr.barred = false →
      (∀ v : Word, 2 ≤ s.tbMode b.val → refused (.load b) ∧ refused (.timAdjWrite b v) ∧ refused (.timFreqWrite b v))
      ∧ (s.tbMode b.val < 2 → Gives (.load b) s (fun u => (u.base b.val).adj = 0
          ∧ (u.base b.val).time = ((s.fld (TIM_TB_SETSEC_LO b.val) TIM_TB_SETSEC_LO_SEC
              + 2 ^ 32 * s.fld (TIM_TB_SETSEC_HI b.val) TIM_TB_SETSEC_HI_SEC) * 1000000000
            + min 999999999 (s.fld (TIM_TB_SETNS b.val) TIM_TB_SETNS_NS)) * 2 ^ 32 ∧ SameMem s u))
      ∧ (∀ v : Word, s.tbMode b.val < 2 → Gives (.timAdjWrite b v) s (fun u =>
          (u.base b.val).adj = (s.base b.val).adj + v.toInt * 4294967296000000
          ∧ (u.base b.val).time = (s.base b.val).time
          ∧ u.bit stat TIM_TB_STAT_SLEWING = ((u.base b.val).adj != 0) ∧ Frame [stat] [.tim] s u))
      ∧ (∀ v : Word, s.tbMode b.val < 2 → Gives (.timFreqWrite b v) s (fun u =>
          u.rd (TIM_TB_FREQ b.val) = BitVec.ofInt 32 (max (-500000000) (min 500000000 v.toInt)) ∧ OnlyRegs [TIM_TB_FREQ b.val] s u))
      ∧ Gives (.snap b) s (fun u => snapped b.val u ∧ OnlyRegs (snaps b.val) s u)
      ∧ Gives .snapAll s (fun u => (∀ k : Tb, snapped k.val u) ∧ OnlyRegs ((List.range 4).flatMap snaps) s u)
      ∧ (¬may → Gives (.forceDom b) s (fun u => u.bit TIM_ERR TIM_ERR_CFGREJ = true ∧ OnlyRegs [TIM_ERR] s u))
      ∧ (may → Gives (.forceDom b) s (fun u => u.inUse b.val = other
          ∧ u.bit (TIM_TB_HIST b.val) TIM_TB_HIST_SWITCH = true
          ∧ u.fld TIM_SWITCHCNT TIM_SWITCHCNT_COUNT =
            min (s.fld TIM_SWITCHCNT TIM_SWITCHCNT_COUNT + 1) (2 ^ TIM_SWITCHCNT_COUNT.width - 1) ∧ SameMem s u))
      ∧ Gives .timClrcnt s (fun u => u.rd TIM_TPOSKIP = 0 ∧ u.rd TIM_SWITCHCNT = 0 ∧ u.rd TIM_STEPCNT = 0
          ∧ u.rd TIM_LAUNCHLATE = 0 ∧ OnlyRegs [TIM_TPOSKIP, TIM_SWITCHCNT, TIM_STEPCNT, TIM_LAUNCHLATE] s u))
    ∧ (slewing = true → (s.base b.val).adj.natAbs < 4294967296000000 →
      Gives (.slewDone b) s (fun u => u.bit stat TIM_TB_STAT_SLEWING = false
        ∧ u.base b.val = { s.base b.val with adj := 0 } ∧ Frame [stat] [.tim] s u))
    ∧ (slewing = false ∨ 4294967296000000 ≤ (s.base b.val).adj.natAbs → Gives (.slewDone b) s (OnlyRegs [] s))
    ∧ (∀ n : Node, (s.linkTo n.val).isSome = true → Gives (.fabricTimeSend b n) s (fun u =>
        .msg n.val (.time b.val (s.tbMode b.val) (s.fullTime b.val)) ∈ u.out ∧ Frame [] [.blk] s u))
    ∧ (∀ n : Node, s.linkTo n.val = none → Gives (.fabricTimeSend b n) s (OnlyRegs [] s))
    ∧ (∀ (p : Port) (d : List Byte) (n : Nat) (ready : Bool),
      let launch := Instr.expressLaunch p d n ready
      let live : Prop := s.fld PWR_STAT PWR_STAT_STATE ≠ 2
      let port := s.port p.val
      let w := if ready then s else s.inc TIM_LAUNCHLATE TIM_LAUNCHLATE_COUNT
      let late := fun (u : State) => u.fld TIM_LAUNCHLATE TIM_LAUNCHLATE_COUNT = if ready then
          s.fld TIM_LAUNCHLATE TIM_LAUNCHLATE_COUNT
        else min (s.fld TIM_LAUNCHLATE TIM_LAUNCHLATE_COUNT + 1) (2 ^ TIM_LAUNCHLATE_COUNT.width - 1)
      (¬live → Gives launch s (OnlyRegs [] s))
      ∧ (live → s.portUp p.val = false → Gives launch s (fun u => late u ∧ Frame [TIM_LAUNCHLATE] [.mac] s u
          ∧ (Tbl.getD port.counts MAC_TXDISC 0 < 2 ^ 32 - 1 →
            Tbl.getD (u.port p.val).counts MAC_TXDISC 0 = Tbl.getD port.counts MAC_TXDISC 0 + 1)))
      ∧ (live → s.portUp p.val = true →
        Answers launch s (((w.sendExpress p.val d n).setBit (MP_STAT p.val) MP_STAT_HOLD false).pump p.val)
        ∧ (port.tx = none → port.queue = [] → Gives launch s (fun u => late u ∧ .ether p.val (wireFrame d) ∈ u.out
          ∧ u.bit (MP_STAT p.val) MP_STAT_HOLD = false ∧ Frame [MP_STAT p.val, TIM_LAUNCHLATE] [.mac] s u))))

/-- Mode, qualification, holdover and following of a time base. (R449, R450, R453, R454, R455, R456, R457) -/
def Obligations.TimeBaseFollowing : Prop :=
  ∀ (b : Tb) (s : State),
    let nothing := fun (c : Instr) => Gives c s (OnlyRegs [] s)
    let ctrl := TIM_TB_CTRL b.val
    let stat := TIM_TB_STAT b.val
    let hist := TIM_TB_HIST b.val
    let small := fun (off : Int) => off.natAbs ≤ 1000 * s.fld (TIM_TB_SLEW b.val) TIM_TB_SLEW_STEPTHR
    let steers := fun (off ppt : Int) (u : State) =>
      u.rd (TIM_TB_FREQ b.val) = BitVec.ofInt 32 (max (-500000000) (min 500000000 ppt))
      ∧ (u.base b.val).adj = -off * 4294967296000000 ∧ (u.base b.val).time = (s.base b.val).time
      ∧ Frame [TIM_TB_FREQ b.val, stat] [.tim] s u
    let domben := s.bit ctrl TIM_TB_CTRL_DOMBEN
    (∀ v : Word, s.pwr.barred = false → TIM_TB_CTRL_MODE.get v = s.tbMode b.val → s.tbMode b.val ≠ 3 →
      Gives (.timTbCtrlWrite b v) s (fun u => u.fld ctrl TIM_TB_CTRL_SRCNODE = TIM_TB_CTRL_SRCNODE.get v
        ∧ u.fld ctrl TIM_TB_CTRL_DOMBEN = TIM_TB_CTRL_DOMBEN.get v ∧ u.tbMode b.val = s.tbMode b.val
        ∧ OnlyRegs [ctrl] s u))
    ∧ (∀ v : Word, s.pwr.barred = false → s.tbMode b.val = 0 → TIM_TB_CTRL_MODE.get v = 1 →
      Gives (.timTbCtrlWrite b v) s (fun u => u.tbMode b.val = 1 ∧ u.tbState b.val = 1
        ∧ u.base b.val = { s.base b.val with adj := 0, fresh := true } ∧ Frame [ctrl, stat] [.tim] s u))
    ∧ (∀ (d : Bool) (off ppt : Int), s.tbMode b.val ≠ 2 ∨ (d = true ∧ domben = false) → nothing (.servoUpdate b d off ppt))
    ∧ (∀ off ppt : Int, s.tbMode b.val = 2 → domben = false →
      let live : Prop := s.inUse b.val = false ∧ (s.tbState b.val = 2 ∨ s.tbState b.val = 3)
      (¬live → Gives (.servoUpdate b false off ppt) s (fun u => u.base b.val = { s.base b.val with offA := off }
        ∧ Frame [] [.tim] s u))
      ∧ (live → small off → Gives (.servoUpdate b false off ppt) s (fun u => (u.base b.val).offA = off ∧ steers off ppt u)))
    ∧ (∀ la lb : Bool, s.tbMode b.val ≠ 2 ∨ ((la && s.domQual b.val false) = false ∧ (lb && s.domQual b.val true) = false) →
      nothing (.timDomloss b la lb))
    ∧ (s.tbMode b.val = 2 → s.domQual b.val true = true →
      ∃ t, t.domQual b.val true = false ∧ t.bit hist TIM_TB_HIST_LOSSB = true ∧ OnlyRegs [stat, hist] s t
        ∧ ((t.raise 260).inUse b.val = false → Answers (.timDomloss b false true) s (t.raise 260)))
    ∧ (∀ d : Bool, s.tbMode b.val ≠ 2 ∨ (d = true ∧ domben = false) → nothing (.domainQualified b d))
    ∧ (∀ d : Bool, s.tbMode b.val = 2 → d = false ∨ domben = true →
      (s.tbState b.val ≠ 4 → Gives (.domainQualified b d) s (fun u =>
        u.domQual b.val d = true ∧ u.tbState b.val = s.tbState b.val ∧ OnlyRegs [stat] s u))
      ∧ (s.tbState b.val = 4 → Gives (.domainQualified b d) s (fun u =>
        u.domQual b.val d = true ∧ u.inUse b.val = d ∧ u.tbState b.val = 2
        ∧ u.base b.val = { s.base b.val with fromHold := true, inRun := 0, outRun := 0 } ∧ Frame [stat] [.tim] s u)))
    ∧ (let back : Prop := s.tbMode b.val = 2 ∧ s.bit ctrl TIM_TB_CTRL_REVERT = true ∧ s.inUse b.val = true
        ∧ s.domQual b.val false = true ∧ (s.base b.val).agreed = true
      (¬back → nothing (.revwaitExpiry b))
      ∧ (back → Gives (.revwaitExpiry b) s (fun u => u.inUse b.val = false ∧ u.bit hist TIM_TB_HIST_SWITCH = true
        ∧ (u.base b.val).adj = -(s.base b.val).offA * 4294967296000000
        ∧ (u.base b.val).time = (s.base b.val).time ∧ SameMem s u)))
    ∧ (∀ (m : BitVec 2) (off ppt : Int),
      let src := s.fld ctrl TIM_TB_CTRL_SRCNODE
      let loop : Prop := src = s.ownNode ∨ m.toNat = 0 ∨ m.toNat = 3
      (s.tbMode b.val ≠ 3 → nothing (.fabricTimeMsg b m off ppt))
      ∧ (s.tbMode b.val = 3 → loop → s.tbState b.val = 4 → ∃ t, Answers (.fabricTimeMsg b m off ppt) s (t.raise 261)
        ∧ t.bit hist TIM_TB_HIST_SRCLOST = true ∧ OnlyRegs [hist] s t)
      ∧ (s.tbMode b.val = 3 → ¬loop → (s.linkTo src).isSome = true → small off →
        Gives (.fabricTimeMsg b m off ppt) s (fun u => steers off ppt u ∧ (s.tbState b.val = 4 → u.tbState b.val = 2))))
    ∧ (s.tbMode b.val ≠ 3 ∨ (s.tbState b.val ≠ 2 ∧ s.tbState b.val ≠ 3) → nothing (.srclost b))
    ∧ (s.tbMode b.val = 3 → s.tbState b.val = 2 ∨ s.tbState b.val = 3 →
      ∃ t, Answers (.srclost b) s ((t.raise 256).setBit hist TIM_TB_HIST_SRCLOST true)
        ∧ t.tbState b.val = 4 ∧ t.bit hist TIM_TB_HIST_HOLDOVER = true
        ∧ t.base b.val = { s.base b.val with adj := 0, inRun := 0, outRun := 0 } ∧ Frame [stat, hist] [.tim] s t)

/-- Before its instant, without an arming or during a pulse, PULSE_START does nothing; at its instant the output goes
to its active level, a periodic arming moves to its next instant with one pulse fewer left, and the request line of
the output reaches the paced channels. PULSE_END before the end of the pulse, or without one, does nothing; at its end
the output leaves its active level, an arming that has pulses left stays, one that was replaced gives way to what
follows, and a one-shot's TIME_ARM completes OK, with RESULT 1 where its instant was stepped over. (R461, R462, R463,
R467) -/
def Obligations.PulseOutputs : Prop :=
  ∀ (k : Tpo) (s : State),
    let x := s.tpo k.val
    let low := s.bit (TIM_TPO_CFG k.val) TIM_TPO_CFG_POL
    let regs := [TIM_TPO_STAT k.val, TIM_TPO_NEXT k.val, TIM_TPO_LEFT k.val]
    (s.pulseDue k.val = false → Gives (.pulseStart k) s (OnlyRegs [] s))
    ∧ (∀ a : Arming, x.arming = some a → x.pulse = none → a.next ≤ s.fullTime a.tb →
      let b := if a.periodic then { a with next := a.next + a.period, left := a.left.map (· - 1) } else a
      let starts := fun (u : State) => u.tpo k.val = { x with arming := some b, pulse := some (a.tb, a.next + a.width) }
        ∧ .tpo k.val (some !low) ∈ u.out
      (∃ t, Answers (.pulseStart k) s (opDmaRequest (3 + k.val) t) ∧ starts t ∧ Frame regs [.tim] s t)
      ∧ ((∀ c : HostCh, s.reqsel (48 + c.val) ≠ 3 + k.val) → Gives (.pulseStart k) s (fun u => starts u
        ∧ Frame regs [.tim] s u)))
    ∧ (x.pulse = none → Gives (.pulseEnd k) s (OnlyRegs [] s))
    ∧ (∀ tb stop : Nat, x.pulse = some (tb, stop) →
      let falls := fun (u : State) => u.tpoLevel k.val ≠ some !low ∧ .tpo k.val (u.tpoLevel k.val) ∈ u.out
        ∧ Frame regs [.tim] s u
      (s.fullTime tb < stop → Gives (.pulseEnd k) s (OnlyRegs [] s))
      ∧ (∀ (id : Nat) (a : Arming), stop ≤ s.fullTime tb → x.arming = some a → a.periodic = false → a.cmd = some id →
        x.next = none →
        Answers (.pulseEnd k) s ((s.complete id .ok (if a.stepped then 1 else 0) 0).setTpo k.val ⟨none, none, none⟩))
      ∧ (∀ a : Arming, stop ≤ s.fullTime tb → x.arming = some a → a.periodic = true → a.cmd = none → x.next = none →
        Gives (.pulseEnd k) s (fun u => u.tpo k.val = ⟨if a.left = some 0 then none else some a, none, none⟩ ∧ falls u))
      ∧ (∀ (a : Arming) (q : Option Arming), stop ≤ s.fullTime tb → x.arming = some a → a.cmd = none → x.next = some q →
        Gives (.pulseEnd k) s (fun u => u.tpo k.val = ⟨q, none, none⟩ ∧ falls u)))

/-- Signal, lock and error reports of a media lane. (R299, R300, R307, R308, R309, R310, R314, R315, R323, R324, R326,
R327) -/
def Obligations.MediaLaneSignals : Prop :=
  ∀ (n : Lane) (s : State),
    let st := ML_STAT n.val
    let nothing := fun (c : Instr) => Gives c s (OnlyRegs [] s)
    let marks := fun (c : Instr) (k : Nat) (P : State → Prop) =>
      ∃ t, Answers c s (if s.bit (ML_HDGEN n.val) ⟨k, 1⟩ then t.raise (if k ≤ 10 then k else 12) else t)
        ∧ t.bit (ML_HIST n.val) ⟨k, 1⟩ = true ∧ P t
    let counts := fun (a : Nat) (u : State) => u.fld a ⟨0, 32⟩ = min (s.fld a ⟨0, 32⟩ + 1) (2 ^ 32 - 1)
    let lock := s.statBit n.val ML_STAT_LOCK
    let hold := s.statBit n.val ML_STAT_HOLD
    let los := s.statBit n.val ML_STAT_LOS
    let sdi : Prop := s.laneMode n.val = 1
    (los = true ∨ s.laneRx n.val = false → nothing (.losSet n))
    ∧ (los = false → s.laneRx n.val = true → lock = false → s.bondAt n.val = 0 → marks (.losSet n) 0 (fun u =>
        u.statBit n.val ML_STAT_LOS = true ∧ counts (ML_LOSCNT n.val) u
        ∧ OnlyRegs [st, ML_LOSCNT n.val, ML_HIST n.val] s u))
    ∧ (los = true → s.laneRx n.val = true → s.fld (ML_RXCFG n.val) ML_RXCFG_ADAPT = 0 →
      Gives (.losClear n) s (fun u => u.statBit n.val ML_STAT_LOS = false
        ∧ u.fld st ML_STAT_EQVAL = min 48 (s.fld (ML_RXCFG n.val) ML_RXCFG_PEAK) ∧ OnlyRegs [st] s u))
    ∧ (los = true → s.laneRx n.val = true → s.fld (ML_RXCFG n.val) ML_RXCFG_ADAPT ≠ 0 →
      Gives (.losClear n) s (fun u => u.statBit n.val ML_STAT_LOS = false ∧ u.fld st ML_STAT_EQVAL ≤ 48
        ∧ u.lane n.val = { s.lane n.val with eqAt := s.now } ∧ Frame [st] [.mln] s u))
    ∧ (los = false ∨ s.laneRx n.val = false → nothing (.losClear n))
    ∧ (∀ r : Fin 12,
      let may := s.laneRx n.val && !los && s.pllUp n.val
        && rateAllowed (s.laneMode n.val) (s.fld (ML_CTRL (s.bondFirst n.val)) ML_CTRL_RXRATE) r.val
      (may = true → Gives (.cdrLock n r) s (fun u => u.statBit n.val ML_STAT_LOCK = true
        ∧ u.fld st ML_STAT_RATE = r.val ∧ OnlyRegs [st] s u))
      ∧ (may = false → nothing (.cdrLock n r)))
    ∧ (sdi → lock = true → hold = false →
      Gives (.framed n) s (fun u => u.statBit n.val ML_STAT_FRAMED = true ∧ OnlyRegs [st] s u))
    ∧ (¬sdi ∨ lock = false ∨ hold = true → nothing (.framed n))
    ∧ (∀ c : LockLoss, (lock = false ∧ hold = false) ∨ (¬sdi ∧ c ≠ .cdr) → nothing (.lossOfLock n c))
    ∧ (¬sdi → lock = true → Gives (.lossOfLock n .cdr) s (fun u => u.statBit n.val ML_STAT_LOCK = false
        ∧ u.fld st ML_STAT_RATE = 0 ∧ OnlyRegs [st] s u))
    ∧ (sdi → hold = true → nothing (.lossOfLock n .eav) ∧ Gives (.lossOfLock n .cdr) s (fun u =>
        u.statBit n.val ML_STAT_LOCK = false ∧ u.statBit n.val ML_STAT_HOLD = true ∧ OnlyRegs [st] s u)
      ∧ ∀ l : Nat, Gives (.lossOfLock n (.changed l)) s (fun u => u.statBit n.val ML_STAT_HOLD = false
        ∧ u.statBit n.val ML_STAT_FRAMED = false ∧ u.statBit n.val ML_STAT_LOCK = lock
        ∧ u.fld (ML_DET (s.bondFirst n.val)) ML_DET_DESC = 0 ∧ u.fld (ML_FILLLN n.val) ML_FILLLN_COUNT
          = min (s.fld (ML_FILLLN n.val) ML_FILLLN_COUNT + l) (2 ^ ML_FILLLN_COUNT.width - 1)))
    ∧ (∀ c : LockLoss, c = .cdr ∨ c = .eav → sdi → lock = true → hold = false → s.statBit n.val ML_STAT_FRAMED = true →
      s.bondAt n.val = 0 → s.fld MLN_CTRL MLN_CTRL_LOLHOLD ≠ 0 → Gives (.lossOfLock n c) s (fun u =>
        u.statBit n.val ML_STAT_LOCK = (c == .eav)
        ∧ u.statBit n.val ML_STAT_HOLD = true ∧ u.statBit n.val ML_STAT_FRAMED = true ∧ counts (ML_LOLCNT n.val) u
        ∧ u.lane n.val = { s.lane n.val with byLos := false } ∧ Frame [st, ML_LOLCNT n.val] [.mln] s u))
    ∧ (∀ l : Nat, sdi → lock = true → hold = false → Gives (.lossOfLock n (.changed l)) s (fun u =>
        u.statBit n.val ML_STAT_LOCK = true ∧ u.statBit n.val ML_STAT_HOLD = false
        ∧ u.statBit n.val ML_STAT_FRAMED = false ∧ u.fld (ML_DET (s.bondFirst n.val)) ML_DET_DESC = 0
        ∧ counts (ML_LOLCNT n.val) u))
    ∧ (∀ l f : Nat, hold = false → nothing (.lolholdExpiry n l) ∧ nothing (.lolshort n l f))
    ∧ (∀ l : Nat, hold = true → Gives (.lolholdExpiry n l) s (fun u => u.statBit n.val ML_STAT_HOLD = false
        ∧ u.statBit n.val ML_STAT_FRAMED = false ∧ u.fld (ML_DET (s.bondFirst n.val)) ML_DET_DESC = 0
        ∧ u.fld (ML_FILLLN n.val) ML_FILLLN_COUNT
          = min (s.fld (ML_FILLLN n.val) ML_FILLLN_COUNT + l) (2 ^ ML_FILLLN_COUNT.width - 1)))
    ∧ (∀ l f : Nat, hold = true → los = false →
      let back := fun (u : State) => u.statBit n.val ML_STAT_HOLD = false ∧ u.statBit n.val ML_STAT_LOCK = true
        ∧ u.statBit n.val ML_STAT_FRAMED = true
        ∧ u.fld (ML_FILLLN n.val) ML_FILLLN_COUNT
          = min (s.fld (ML_FILLLN n.val) ML_FILLLN_COUNT + l) (2 ^ ML_FILLLN_COUNT.width - 1)
      ((s.lane n.val).byLos = true → Gives (.lolshort n l f) s (fun u => back u ∧ OnlyRegs [st, ML_FILLLN n.val] s u))
      ∧ ((s.lane n.val).byLos = false → marks (.lolshort n l f) 2 (fun u => back u
        ∧ u.fld (ML_ERRFRM n.val) ML_ERRFRM_COUNT
          = min (s.fld (ML_ERRFRM n.val) ML_ERRFRM_COUNT + f) (2 ^ ML_ERRFRM_COUNT.width - 1)
        ∧ OnlyRegs [st, ML_FILLLN n.val, ML_ERRFRM n.val, ML_HIST n.val] s u)))
    ∧ (sdi → lock = true → 2 ≤ s.fld st ML_STAT_RATE → marks (.lineCrcError n) 3 (fun u =>
        counts (ML_CRCLN n.val) u ∧ OnlyRegs [ML_CRCLN n.val, ML_HIST n.val] s u))
    ∧ (¬sdi ∨ lock = false ∨ s.fld st ML_STAT_RATE < 2 → nothing (.lineCrcError n))
    ∧ (∀ p a : Bool, p = false ∨ a = true → nothing (.edhCheck n p a))
    ∧ (sdi → lock = true → s.fld st ML_STAT_RATE = 1 → marks (.edhCheck n true false) 4 (fun u =>
        counts (ML_EDHFLD n.val) u ∧ OnlyRegs [ML_EDHFLD n.val, ML_HIST n.val] s u))
    ∧ (∀ top : Bool, ¬sdi ∨ lock = false → nothing (.eqlimit n top))
    ∧ (∀ top : Bool, sdi → lock = true → s.fld (ML_RXCFG n.val) ML_RXCFG_ADAPT = 2 → marks (.eqlimit n top) 8 (fun u =>
        u.fld st ML_STAT_EQVAL = (if top then 48 else 0) ∧ OnlyRegs [st, ML_HIST n.val] s u))
    ∧ (∀ top : Bool, sdi → lock = true → s.fld (ML_RXCFG n.val) ML_RXCFG_ADAPT ≠ 2 →
      let ends : Prop := s.fld st ML_STAT_EQVAL = 0 ∨ s.fld st ML_STAT_EQVAL = 48
      (ends → marks (.eqlimit n top) 8 (fun u => OnlyRegs [ML_HIST n.val] s u)) ∧ (¬ends → nothing (.eqlimit n top)))
    ∧ marks (.txfifo n) 9 (OnlyRegs [ML_HIST n.val] s)
    ∧ (∀ g : Fin 16,
      let up := s.bit MLN_GRPSTAT ⟨g.val, 1⟩
      (up = false → nothing (.mlnGrppll g))
      ∧ (up = true → Gives (.mlnGrppll g) s (fun u => u.bit MLN_GRPSTAT ⟨g.val, 1⟩ = false
        ∧ ∀ i, i < 16 → u.statBit (16 * g.val + i) ML_STAT_TXIDLE = true ∧ u.statBit (16 * g.val + i) ML_STAT_LOCK = false))
      ∧ (s.bit PWR_DOMSTAT ⟨g.val, 1⟩ = false → nothing (.groupPllRelock g))
      ∧ (s.bit PWR_DOMSTAT ⟨g.val, 1⟩ = true → Gives (.groupPllRelock g) s (fun u => u.bit MLN_GRPSTAT ⟨g.val, 1⟩ = true
        ∧ OnlyRegs (MLN_GRPSTAT :: (List.range 16).map (fun i => ML_STAT (16 * g.val + i))) s u)))
    ∧ (s.pwr.barred = false → Gives .mlnClrcnt s (fun u => (∀ m : Lane, u.rd (ML_LOSCNT m.val) = resetAt (ML_LOSCNT m.val)
        ∧ u.rd (ML_CRCLN m.val) = resetAt (ML_CRCLN m.val) ∧ u.rd (ML_FILLLN m.val) = resetAt (ML_FILLLN m.val)
        ∧ u.rd (ML_CTRL m.val) = s.rd (ML_CTRL m.val) ∧ u.rd (ML_STAT m.val) = s.rd (ML_STAT m.val))
        ∧ SameMem s u ∧ SameParts [] s u))

/-- Writes of a lane's CTRL and TXFMT, the published descriptor, the payload ID and the output frame. (R297, R298,
R304, R305, R306, R312, R313, R316, R318, R319) -/
def Obligations.MediaLaneConfiguration : Prop :=
  ∀ (n : Lane) (s : State),
    let nothing := fun (c : Instr) => Gives c s (OnlyRegs [] s)
    let rejects := fun (c : Instr) =>
      ∃ t, Answers c s (if s.bit (ML_HDGEN n.val) ⟨10, 1⟩ then t.raise 10 else t)
        ∧ t.bit (ML_HIST n.val) ⟨10, 1⟩ = true ∧ OnlyRegs [ML_HIST n.val] s t
    let own : Prop := s.bondFirst n.val = n.val
    let sdi : Prop := s.laneMode n.val = 1
    let st := ML_STAT n.val
    let framed := s.statBit n.val ML_STAT_FRAMED
    (∀ v : Word, s.pwr.barred = false → s.laneRefuses n.val v = true → rejects (.mlnCtrlWrite n v))
    ∧ (∀ v : Word, s.pwr.barred = false → s.laneRefuses n.val v = false → Gives (.mlnCtrlWrite n v) s (fun u =>
        u.rd (ML_CTRL n.val) = (s.fieldWrite (ML_CTRL n.val) v).rd (ML_CTRL n.val)
        ∧ ∀ k, k ∈ u.bondSet n.val → u.statBit k ML_STAT_PARTNER = (u.bondFirst k != k)))
    ∧ (∀ v : Word, s.pwr.barred = false → s.laneRefuses n.val v = false → own → s.bondAt n.val = 0 →
      ML_CTRL_BOND.get v = s.fld (ML_CTRL n.val) ML_CTRL_BOND → s.statBit n.val ML_STAT_PARTNER = false →
      let mode := ML_CTRL_MODE.get v
      let takes := fun (u : State) => u.fld (ML_CTRL n.val) ML_CTRL_MODE = mode
        ∧ u.fld (ML_CTRL n.val) ML_CTRL_RXEN = ML_CTRL_RXEN.get v ∧ u.fld (ML_CTRL n.val) ML_CTRL_TXEN = ML_CTRL_TXEN.get v
        ∧ u.fld (ML_CTRL n.val) ML_CTRL_RXRATE = ML_CTRL_RXRATE.get v
      (mode = s.fld (ML_CTRL n.val) ML_CTRL_MODE → ML_CTRL_RXEN.get v = s.fld (ML_CTRL n.val) ML_CTRL_RXEN →
        s.statBit n.val ML_STAT_LOCK = false → Gives (.mlnCtrlWrite n v) s (fun u => takes u
          ∧ (mode = 0 → u.statBit n.val ML_STAT_TXIDLE = true) ∧ OnlyRegs [ML_CTRL n.val, st] s u))
      ∧ (mode = 1 → s.fld (ML_CTRL n.val) ML_CTRL_MODE = 0 → Gives (.mlnCtrlWrite n v) s (fun u => takes u
          ∧ u.laneMode n.val = 1 ∧ u.bit PWR_DOMSTAT ⟨domMlg (n.val / 16), 1⟩ = true
          ∧ u.statBit n.val ML_STAT_LOCK = false ∧ u.statBit n.val ML_STAT_FRAMED = false
          ∧ u.fld (ML_DET n.val) ML_DET_DESC = 0)))
    ∧ (∀ v : Word, s.pwr.barred = false →
      let takes := fun (u : State) => u.rd (ML_TXFMT n.val) = v
      let f := highFmt v.toNat
      (¬own → f.none = true ∨ f.valid = true → Gives (.txfmtWrite n v) s (fun u => takes u ∧ OnlyRegs [ML_TXFMT n.val] s u))
      ∧ (¬own → f.none = false → f.valid = false → rejects (.txfmtWrite n v))
      ∧ (own → s.txfmtRefuses n.val v = true → rejects (.txfmtWrite n v))
      ∧ (own → s.txfmtRefuses n.val v = false →
        let old := s.fld (ML_TXFMT n.val) ⟨0, 32⟩
        let sends := sdi ∧ s.laneTx n.val = true ∧ old % 256 ≠ 0
        (¬sends → Gives (.txfmtWrite n v) s (fun u => takes u ∧ OnlyRegs [ML_TXFMT n.val] s u))
        ∧ (sends → Gives (.txfmtWrite n v) s (fun u => takes u
          ∧ u.mln = { s.mln with fallow := Tbl.put s.mln.fallow n.val (old, 2) } ∧ Frame [ML_TXFMT n.val] [.mln] s u))))
    ∧ (∀ (raster rate : Byte) (l : Bool), ¬own ∨ ¬sdi ∨ framed = false → nothing (.descriptorPublish n raster rate l))
    ∧ (∀ (raster rate : Byte) (l : Bool), own → sdi → framed = true →
      let d := s.buildDet n.val raster.toNat rate.toNat
      Gives (.descriptorPublish n raster rate l) s (fun u => u.statBit n.val ML_STAT_LEVELBIN
          = (l && s.bondAt n.val == 0 && raster.toNat == 5 && decide (6 ≤ rate.toNat))
        ∧ u.fld (ML_DET n.val) ML_DET_DESC = d.1 % 2 ^ 32 ∧ u.rd (ML_DETPID n.val) = d.2))
    ∧ (∀ o : PidOutcome, ¬sdi ∨ framed = false → nothing (.payloadIdCheck n o))
    ∧ (∀ (pid : Word) (a b : BitVec 2) (c : Bool), sdi → framed = true →
      (own → 1 ≤ (s.lane n.val).okRun → Gives (.payloadIdCheck n (.ok pid a b c)) s (fun u =>
        u.statBit n.val ML_STAT_PIDOK = true ∧ (u.lane n.val).pid = pid ∧ (u.lane n.val).sampling = a.toNat
        ∧ (u.lane n.val).transfer = b.toNat ∧ Frame [st] [.mln] s u))
      ∧ (¬own → Gives (.payloadIdCheck n (.ok pid a b c)) s (fun u => u.rd (ML_DETPID n.val) = pid
        ∧ (u.lane n.val).barred = false ∧ Frame [ML_DETPID n.val] [.mln] s u)))
    ∧ (∀ pid : Word, sdi → framed = true →
      let m := s.bondFirst n.val
      let bad := fun (o : PidOutcome) (P : State → Prop) => Gives (.payloadIdCheck n o) s (fun u =>
        u.statBit m ML_STAT_PIDOK = false ∧ (u.lane m).okRun = 0 ∧ (¬own → u.rd (ML_DETPID n.val) = pid) ∧ P u)
      let miss := fun (u : State) => u.fld (ML_PIDERR m) ML_PIDERR_COUNT
        = min (s.fld (ML_PIDERR m) ML_PIDERR_COUNT + 1) (2 ^ ML_PIDERR_COUNT.width - 1)
      let drop := fun (u : State) => u.fld (ML_DET m) ML_DET_DESC = 0 ∧ (u.lane n.val).barred = true
      bad (.mismatch pid) (fun u => miss u ∧ u.fld (ML_DET m) ML_DET_DESC = s.fld (ML_DET m) ML_DET_DESC)
      ∧ bad (.unsupported pid) drop ∧ bad (.otherBond pid) (fun u => miss u ∧ drop u) ∧ bad (.wrongLink pid) drop)
    ∧ (sdi → framed = true → own → 1 ≤ (s.lane n.val).noneRun → Gives (.payloadIdCheck n .absent) s (fun u =>
        u.statBit n.val ML_STAT_PIDOK = false ∧ Frame [st] [.mln] s u))
    ∧ (∀ ns : BitVec 9, ¬own ∨ s.bondAt n.val = 0 → nothing (.bondSkew n ns))
    ∧ (∀ ns : BitVec 9, own → s.bondAt n.val ≠ 0 → ns.toNat ≤ 400 → Gives (.bondSkew n ns) s (fun u =>
        u.fld (ML_SKEW n.val) ML_SKEW_NS = ns.toNat ∧ (u.lane n.val).skewed = false ∧ Frame [ML_SKEW n.val] [.mln] s u))
    ∧ (∀ ns : BitVec 9, own → s.bondAt n.val ≠ 0 → 400 < ns.toNat → Gives (.bondSkew n ns) s (fun u =>
        u.fld (ML_SKEW n.val) ML_SKEW_NS = ns.toNat ∧ (u.lane n.val).skewed = true ∧ u.fld (ML_DET n.val) ML_DET_DESC = 0
        ∧ u.bit (ML_HIST n.val) ⟨7, 1⟩ = (!(s.lane n.val).skewed || s.bit (ML_HIST n.val) ⟨7, 1⟩)))
    ∧ (¬own ∨ ¬sdi → nothing (.mediaOutputFrameStart n))
    ∧ (own → sdi →
      let regs := (s.bondSet n.val).map ML_STAT
      let may : Prop := s.laneTx n.val = true ∧ ((s.route? (4 * n.val)).isSome = true ∨ (s.laneFmt n.val).none = false)
        ∧ s.powerActive = true ∧ s.safe = false
      (¬may → Gives (.mediaOutputFrameStart n) s (fun u =>
        (∀ k, k ∈ s.bondSet n.val → u.statBit k ML_STAT_TXIDLE = true) ∧ Frame regs [.mln] s u))
      ∧ (may → s.pllUp n.val = true → Tbl.find? s.mln.fallow n.val = none →
        Gives (.mediaOutputFrameStart n) s (fun u =>
          (∀ k, k ∈ s.bondSet n.val → u.statBit k ML_STAT_TXIDLE = !s.pllUp k)
          ∧ .frame (s.sentFrame n.val) ∈ u.out ∧ OnlyRegs regs s u)))

/-- The link of a MAC port: configuration, link up and down, verification, hold and wake. (R331, R337, R339, R343,
R345, R346, R347, R348, R492, R494) -/
def Obligations.PortLink : Prop :=
  ∀ (p : Port) (s : State),
    let st := MP_STAT p.val
    let cfg := MP_CFG p.val
    let now := s.rd cfg
    let nothing := fun (c : Instr) => Gives c s (OnlyRegs [] s)
    let port := s.port p.val
    let live : Prop := s.fld PWR_STAT PWR_STAT_STATE ≠ 2
    let cnt := fun (u : State) (r : Nat) => Tbl.getD (u.port p.val).counts r 0
    let up := fun (r n : Nat) (u : State) => cnt s r < 2 ^ 32 → cnt u r = min (cnt s r + n) (2 ^ 32 - 1)
    let cleared := fun (u : State) => u.port p.val = { port.clear with counts := (u.port p.val).counts }
    (∀ v : Word, s.pwr.barred = false →
      let on := MP_CFG_EN.get v
      let takes := fun (u : State) => u.rd cfg = (s.written cfg v).1
      (s.portRefuses p.val v = true → ∃ t, Answers (.mppCfgWrite p v) s (t.raise 72)
        ∧ t.bit (MP_HIST p.val) ⟨8, 1⟩ = true ∧ OnlyRegs [MP_HIST p.val] s t)
      ∧ (s.portRefuses p.val v = false →
        (s.portOn p.val = false → on = 0 → Gives (.mppCfgWrite p v) s (fun u => takes u ∧ OnlyRegs [cfg] s u))
        ∧ (s.portOn p.val = false → on = 1 → unitMac (p.val / 2) ∉ s.bst.slicing →
          Gives (.mppCfgWrite p v) s (fun u => takes u ∧ u.portOn p.val = true
            ∧ (MP_CFG_AN.get v = 1 → s.cfgSpeed p.val v = 2 → .advertise p.val (MP_CFG_FEC.get v) ∈ u.out)
            ∧ OnlyRegs [cfg] s u))
        ∧ (s.portOn p.val = true → on = 0 → Gives (.mppCfgWrite p v) s (fun u => takes u ∧ u.portOn p.val = false
          ∧ u.rd st = resetAt st ∧ cleared u ∧ up MAC_TXDISC port.queue.length u
          ∧ Frame [cfg, st] [.mac] s u))))
    ∧ (s.portOn p.val = false ∨ ¬live → nothing (.macLinkUp p))
    ∧ (s.portOn p.val = true → live → Gives (.macLinkUp p) s (fun u => u.portUp p.val = true
        ∧ u.fld st MP_STAT_SPEED = s.cfgSpeed p.val now
        ∧ u.fld st MP_STAT_VERST = (if MP_CFG_PREEN.get now = 0 then 0 else if MP_CFG_VERIFY.get now = 1 then 1 else 2)
        ∧ u.port p.val = port.clear ∧ Frame [st] [.mac] s u))
    ∧ (∀ ok : Bool, s.fld st MP_STAT_VERST ≠ 1 ∨ ¬live → nothing (.verifyAttempt p ok))
    ∧ (s.fld st MP_STAT_VERST = 1 → live →
      Gives (.verifyAttempt p true) s (fun u => u.fld st MP_STAT_VERST = 2 ∧ OnlyRegs [st] s u)
      ∧ (port.attempts < 2 → Gives (.verifyAttempt p false) s (fun u =>
          u.port p.val = { port with attempts := port.attempts + 1 } ∧ Frame [] [.mac] s u))
      ∧ (2 ≤ port.attempts → ∃ t, Answers (.verifyAttempt p false) s (t.raise 70)
          ∧ t.fld st MP_STAT_VERST = 3 ∧ t.bit (MP_HIST p.val) ⟨6, 1⟩ = true ∧ Frame [st, MP_HIST p.val] [.mac] s t))
    ∧ (∀ f : Fin 3,
      let asks : Prop := s.portOn p.val = true ∧ live ∧ MP_CFG_AN.get now = 1 ∧ s.cfgSpeed p.val now = 2
      (¬asks → nothing (.autoNegotiationDone p f))
      ∧ (asks → Gives (.autoNegotiationDone p f) s (fun u => u.fld st MP_STAT_FECRES = f.val ∧ OnlyRegs [st] s u)))
    ∧ (s.portUp p.val = false ∨ ¬live → nothing (.macLinkdn p))
    ∧ (s.portUp p.val = true → live →
      let down := fun (u : State) => u.portUp p.val = false ∧ cleared u ∧ up MAC_TXDISC port.queue.length u
        ∧ u.fld st MP_STAT_FECRES = s.fld st MP_STAT_FECRES ∧ u.bit (MP_HIST p.val) ⟨0, 1⟩ = true
      (port.reasm = none → ∃ t, Answers (.macLinkdn p) s ((t.raise 64).advertise p.val) ∧ down t
        ∧ Frame [st, MP_HIST p.val] [.mac] s t)
      ∧ (port.reasm ≠ none → Gives (.macLinkdn p) s (fun u => down u ∧ up MAC_RXFCS 1 u
        ∧ u.bit (MP_HIST p.val) ⟨1, 1⟩ = true)))
    ∧ (∀ (launch : BitVec 64) (sent : Nat),
      let due : Prop := launch.toNat ≤ s.fullTime (MP_CFG_TBSEL.get now) + s.fld (MP_HOLDADV p.val) MP_HOLDADV_NS
      let asks : Prop := live ∧ s.bit cfg MP_CFG_HOLDEN = true ∧ s.portUp p.val = true ∧ due
      (¬asks → nothing (.holdAdvance p launch sent))
      ∧ (asks → port.tx = none ∨ s.preempting p.val = false → Gives (.holdAdvance p launch sent) s (fun u =>
        u.bit st MP_STAT_HOLD = true ∧ OnlyRegs [st] s u))
      ∧ (asks → s.preempting p.val = true → s.heldBack p.val = false → Answers (.holdAdvance p launch sent) s
        ((s.interrupt p.val sent).setBit st MP_STAT_HOLD true)))
    ∧ (∀ (dst : BitVec 48) (ty : BitVec 16) (id : Word) (ok : Bool),
      let wakes : Prop := s.portOn p.val = true ∧ s.isWake p.val dst.toNat ty.toNat id.toNat ok = true
      (¬wakes → nothing (.macWake p dst ty id ok))
      ∧ (wakes → s.inFallow = false → Gives (.macWake p dst ty id ok) s (fun u =>
        u.bit (MP_HIST p.val) MP_HIST_WAKE = true ∧ OnlyRegs [MP_HIST p.val] s u))
      ∧ (wakes → s.inFallow = true → s.bit cfg MP_CFG_WAKEEN = true → s.bit MAC_WAKESTAT MAC_WAKESTAT_VALID = false →
        ∃ t, Answers (.macWake p dst ty id ok) s
            (if s.bit PWR_CTRL PWR_CTRL_AUTOWAKE then (t.raise 74).leaveFallow else t.raise 74)
          ∧ .pin .wakeN true ∈ t.out ∧ t.fld MAC_WAKESTAT MAC_WAKESTAT_PORT = p.val
          ∧ t.bit MAC_WAKESTAT MAC_WAKESTAT_VALID = true ∧ OnlyRegs [MAC_WAKESTAT, MP_HIST p.val] s t))
    ∧ (s.pwr.barred = false → Gives .macClrcnt s (fun u => u.port p.val = { port with counts := [] } ∧ Frame [] [.mac] s u))
    ∧ (∀ v : Word, s.pwr.barred = false → Gives (.macSnap v) s (fun u =>
        let x := s.port (MAC_SNAP_PORT.get v)
        (∀ e, e ∈ macShadows → u.rd e.1 = BitVec.ofNat 32 (Tbl.getD x.counts e.2.1 0 / 2 ^ (32 * e.2.2)))
        ∧ OnlyRegs (MAC_SNAP :: macShadows.map Prod.fst) s u))

/-- Frames received, offered and sent on a MAC port are counted as stated. (R333, R334, R335, R336, R338, R339, R340,
R341, R342, R343, R347, R458) -/
def Obligations.FramesOnAPort : Prop :=
  ∀ (p : Port) (s : State),
    let nothing := fun (c : Instr) => Gives c s (OnlyRegs [] s)
    let port := s.port p.val
    let cnt := fun (u : State) (r : Nat) => Tbl.getD (u.port p.val).counts r 0
    let up := fun (r n : Nat) (u : State) => cnt s r < 2 ^ 32 → cnt u r = min (cnt s r + n) (2 ^ 32 - 1)
    let octets := fun (r n : Nat) (u : State) => cnt u r = (cnt s r + n) % 2 ^ 64
    let only := fun (u : State) => Frame [] [.mac] s u
    let live : Prop := s.fld PWR_STAT PWR_STAT_STATE ≠ 2
    let taken : Prop := s.portOn p.val = true ∧ live
    let err : Int := if s.fld (MP_STAT p.val) MP_STAT_SPEED = 1 then 4 else 2
    (∀ f : RxFrame, (¬taken → nothing (.macFrameReceived p f))
      ∧ (taken → f.express = true ∨ (f.frag = .whole ∧ port.reasm = none) →
        (∀ c h : Nat, s.verdict p.val f = some (c, h) → ∃ t, Answers (.macFrameReceived p f) s (t.raise (64 + h))
          ∧ up c 1 t ∧ up MAC_FECCOR f.corrected.toNat t ∧ t.bit (MP_HIST p.val) ⟨h, 1⟩ = true
          ∧ Frame [MP_HIST p.val] [.mac] s t)
        ∧ (s.verdict p.val f = none → f.control = true ∨ f.space = true → Gives (.macFrameReceived p f) s (fun u =>
          up MAC_RXFRM 1 u ∧ octets MAC_RXOCT_LO f.len u ∧ up MAC_RXEXP (if f.express then 1 else 0) u
          ∧ up MAC_RXDROP (if f.control then 1 else 0) u ∧ up MAC_FECCOR f.corrected.toNat u
          ∧ (∃ x : Int, (u.port p.val).rxStamp = some x
            ∧ (x - ((s.fullTime (s.fld (MP_CFG p.val) MP_CFG_TBSEL) : Int) - f.ago.toNat
                + signed16 (s.fld (TIM_PORT_COR p.val) TIM_PORT_COR_INGCOR))).natAbs ≤ err)
          ∧ only u)))
      ∧ (taken → f.express = false →
        let fails := ∃ t, Answers (.macFrameReceived p f) s (t.raise 68) ∧ up MAC_RXREASM 1 t
          ∧ (t.port p.val).reasm = none ∧ t.bit (MP_HIST p.val) ⟨4, 1⟩ = true ∧ Frame [MP_HIST p.val] [.mac] s t
        let holds := fun (x : Nat × Nat × Nat) => Gives (.macFrameReceived p f) s (fun u =>
          (u.port p.val).reasm = some x ∧ up MAC_FECCOR f.corrected.toNat u ∧ up MAC_RXFRM 0 u ∧ only u)
        (∀ n, f.frag = .first n → port.reasm = none → (f.fcsOk = true → holds (n.val, 0, f.len)) ∧ (f.fcsOk = false → fails))
        ∧ (∀ n, f.frag = .first n ∨ f.frag = .whole → port.reasm ≠ none → Gives (.macFrameReceived p f) s (fun u =>
          u.bit (MP_HIST p.val) ⟨4, 1⟩ = true ∧ cnt s MAC_RXREASM ≤ cnt u MAC_RXREASM
          ∧ (f.frag = .first n → f.fcsOk = true → (u.port p.val).reasm = some (n.val, 0, f.len))
          ∧ (f.frag = .whole → (u.port p.val).reasm = none)))
        ∧ (∀ n c l, f.frag = .next n c l → port.reasm = none → fails)
        ∧ (∀ n c l m k len, f.frag = .next n c l → port.reasm = some (m, k, len) →
          (n.val ≠ m ∨ c.val ≠ k → fails)
          ∧ (n.val = m → c.val = k → l = false → f.fcsOk = true → holds (m, (k + 1) % 4, len + f.len))
          ∧ (n.val = m → c.val = k → l = false → f.fcsOk = false → fails)
          ∧ (n.val = m → c.val = k → l = true → s.verdict p.val { f with len := len + f.len } = none →
            f.control = true ∨ f.space = true → Gives (.macFrameReceived p f) s (fun u => (u.port p.val).reasm = none
              ∧ up MAC_RXFRM 1 u ∧ octets MAC_RXOCT_LO (len + f.len) u ∧ only u)))))
    ∧ (∀ (kind : FrameKind) (d : List Byte) (b : Nat) (m : Bool),
      let offered := Instr.macFrameOffered p kind d b m
      let e := expressKind kind
      let q : Offered := ⟨kind, d, b, m⟩
      let first : Prop := port.ahead = [] ∨ kindFlow kind = port.ahead.head?
      let goes : Prop := s.mayStart p.val d.length e b = true
        ∧ (e = true ∨ (s.bit (MP_STAT p.val) MP_STAT_HOLD = false ∧ first))
      let whole := fun (u : State) => up MAC_TXFRM 1 u ∧ octets MAC_TXOCT_LO (max 60 d.length + 4) u
      (¬live → nothing offered)
      ∧ (live → s.portUp p.val = false → Gives offered s (fun u => up MAC_TXDISC 1 u ∧ only u))
      ∧ (live → s.portUp p.val = true → Answers offered s ((s.queueFrame p.val q).pump p.val))
      ∧ (live → s.portUp p.val = true → port.tx = none → port.queue = [] →
        (¬goes → Gives offered s (fun u => u.port p.val = { port with queue := [q] } ∧ only u))
        ∧ (goes → e = true → Gives offered s (fun u => whole u ∧ up MAC_TXEXP 1 u ∧ (u.port p.val).queue = []
          ∧ .ether p.val (wireFrame d) ∈ u.out ∧ only u))
        ∧ (goes → e = false → d.length ≤ b → Gives offered s (fun u => whole u ∧ up MAC_TXEXP 0 u
          ∧ (u.port p.val).tx = some ⟨padded d, false, true, false, if s.preempting p.val then 0 else (padded d).length⟩
          ∧ (s.preempting p.val = false → .ether p.val (wireFrame d) ∈ u.out)
          ∧ (u.port p.val).queue = [] ∧ (u.port p.val).ahead = port.ahead.tail ∧ only u))
        ∧ (goes → e = false → b < d.length → Gives offered s (fun u => up MAC_TXFRM 0 u
          ∧ (u.port p.val).tx = some ⟨padded d, false, false, false, 0⟩ ∧ (u.port p.val).queue = [] ∧ only u))))
    ∧ (∀ (d : List Byte) (cut : Nat) (m : Option (BitVec 16)),
      let ready := Instr.expressFrameReady p d cut m
      let sent := fun (u : State) => .ether p.val (wireFrame d) ∈ u.out ∧ only u
      let one := fun (u : State) => up MAC_TXFRM 1 u ∧ up MAC_TXEXP 1 u ∧ octets MAC_TXOCT_LO (max 60 d.length + 4) u
      (¬live → nothing ready)
      ∧ (live → s.portUp p.val = false → Gives ready s (fun u => up MAC_TXDISC 1 u ∧ only u))
      ∧ (live → s.portUp p.val = true → port.tx = none → Gives ready s (fun u => sent u ∧ one u))
      ∧ (∀ f : TxFrame, live → s.portUp p.val = true → s.heldBack p.val = false → port.tx = some f → f.express = false →
        let at_ := max cut (f.sent + s.minFragment p.val)
        let cuts : Prop := s.preempting p.val = true ∧ f.sent ≠ f.data.length ∧ at_ + 60 ≤ f.data.length
        (cuts → Gives ready s (fun u => up MAC_TXPRE (if f.preempted then 0 else 1) u
          ∧ (u.port p.val).tx = some { f with sent := at_, preempted := true }
          ∧ .ether p.val ((f.data.take at_).drop f.sent ++ fcsBytes (etherCrc (f.data.take at_) ^^^ 0xFFFF)) ∈ u.out
          ∧ sent u ∧ one u))
        ∧ (¬cuts → Gives ready s (fun u => (u.port p.val).tx = none ∧ sent u ∧ (f.whole = true → one u)
          ∧ (f.sent ≠ f.data.length →
            .ether p.val (f.data.drop f.sent ++ fcsBytes (etherCrc f.data)) ∈ u.out)))))
    ∧ (∀ n : Nat,
      (¬live ∨ (∀ f, port.tx = some f → f.whole = true) → nothing (.macUnderrun p n))
      ∧ (∀ f, live → port.tx = some f → f.whole = false → ∃ t, up MAC_TXUNDER 1 t ∧ (t.port p.val).tx = none
        ∧ (let c := max f.sent (min n f.data.length)
          .ether p.val ((f.data.take c).drop f.sent ++ fcsBytes (etherCrc (f.data.take c) ^^^ 0xFFFFFFFF)) ∈ t.out)
        ∧ t.bit (MP_HIST p.val) ⟨5, 1⟩ = true ∧ Frame [MP_HIST p.val] [.mac] s t
        ∧ Answers (.macUnderrun p n) s
          (let w := t.raise 69
          let th := w.fld (MP_STARTTH p.val) MP_STARTTH_STARTTH
          (w.setFld (MP_STARTTH p.val) MP_STARTTH_STARTTH
            (max th (min (w.maxLen p.val) (th + 64 * w.fld (MP_STARTTH p.val) MP_STARTTH_STEP)))).pump p.val)))
    ∧ (¬taken → nothing (.macFecunc p))
    ∧ (taken → ∃ t, Answers (.macFecunc p) s (t.raise 71) ∧ up MAC_FECUNC 1 t
        ∧ t.bit (MP_HIST p.val) ⟨7, 1⟩ = true ∧ Frame [MP_HIST p.val] [.mac] s t)

/-- Selection of the reference, and the origin of frame timing. (R469, R472, R475, R481, R482, R484, R477, R478, R479)
-/
def Obligations.ReferencesAndFrameTiming : Prop :=
  (∀ s : State,
    let nothing := fun (c : Instr) => Gives c s (OnlyRegs [] s)
    let act := fun (u : State) => u.fld CLK_STAT CLK_STAT_ACTPRI
    let chosen := fun (u : State) (k : Nat) => u.dpll = 1 ∧ act u = k ∧ u.fld CLK_STAT CLK_STAT_ACTSRC = s.priSrc k
    let selects := fun (c : Instr) (q : State) (P : State → Prop) (l : List Nat) =>
      (s.dpll = 0 → q.bestPri = none → Gives c s (fun u => P u ∧ u.dpll = 0 ∧ OnlyRegs l s u))
      ∧ (∀ k, s.dpll = 0 → q.bestPri = some k → Gives c s (fun u => P u ∧ chosen u k ∧ OnlyRegs (CLK_STAT :: l) s u))
      ∧ (s.dpll ≠ 0 → q.priOk (act s) = true → s.bit CLK_CTRL CLK_CTRL_REVERT = false →
        Gives c s (fun u => P u ∧ u.rd CLK_STAT = s.rd CLK_STAT ∧ OnlyRegs l s u))
      ∧ (s.dpll ≠ 0 → q.priOk (act s) = false →
        (q.bestPri = none → Gives c s (fun u => P u ∧ u.dpll = 0 ∧ u.bit CLK_HIST ⟨2, 1⟩ = true))
        ∧ (∀ k, q.bestPri = some k → Gives c s (fun u => P u ∧ chosen u k ∧ u.bit CLK_HIST ⟨2, 1⟩ = true)))
    let free : Prop := s.bit CLK_CTRL CLK_CTRL_FORCE = false
    (free → (∀ c, c < 13 → s.srcQual c = true → s.refBarred c = false) → selects .referenceEvaluation s (fun _ => True) [])
    ∧ (∀ c, c < 13 → s.srcQual c = true → s.refBarred c = true →
      (∀ d, d < 13 → d ≠ c → s.srcQual d = true → s.refBarred d = false) →
      free → Gives .referenceEvaluation s (fun u => u.srcQual c = false ∧ u.bit CLK_QHIST ⟨c, 1⟩ = true))
    ∧ (∀ c : BitVec 4, s.refBarred c.toNat = true ∨ s.srcQual c.toNat = true → nothing (.referenceQualified c))
    ∧ (∀ c : BitVec 4, s.refBarred c.toNat = false → s.srcQual c.toNat = false → free →
      selects (.referenceQualified c) (s.setQual c.toNat true) (fun u => u.srcQual c.toNat = true) [CLK_QUAL])
    ∧ (∀ c : BitVec 4, s.srcQual c.toNat = false → nothing (.referenceActivityLoss c))
    ∧ (∀ c : BitVec 4, s.srcQual c.toNat = true → free →
      selects (.referenceActivityLoss c) (s.setQual c.toNat false) (fun u => u.srcQual c.toNat = false
        ∧ u.bit CLK_QHIST ⟨c.toNat, 1⟩ = true
        ∧ u.fld CLK_QLOSSCNT CLK_QLOSSCNT_COUNT =
          min (s.fld CLK_QLOSSCNT CLK_QLOSSCNT_COUNT + 1) (2 ^ CLK_QLOSSCNT_COUNT.width - 1))
        [CLK_QUAL, CLK_QHIST, CLK_QLOSSCNT])
    ∧ (s.dpll = 0 ∨ s.bit CLK_CTRL CLK_CTRL_REVERT = false ∨ s.forcedPri ≠ none ∨ s.bestPri = none → nothing .wtrExpiry)
    ∧ (∀ k, s.dpll ≠ 0 → s.bestPri = some k → act s ≤ k → nothing .wtrExpiry)
    ∧ (∀ k, s.dpll ≠ 0 → s.bestPri = some k → s.bit CLK_CTRL CLK_CTRL_REVERT = true → s.forcedPri = none → k < act s →
      ∃ t, Answers .wtrExpiry s (t.raise 289) ∧ chosen t k ∧ t.bit CLK_HIST ⟨1, 1⟩ = true
        ∧ t.fld CLK_SWCNT CLK_SWCNT_COUNT = min (s.fld CLK_SWCNT CLK_SWCNT_COUNT + 1) (2 ^ CLK_SWCNT_COUNT.width - 1)
        ∧ OnlyRegs [CLK_STAT, CLK_SWCNT, CLK_HIST] s t)
    ∧ (s.dpll = 1 → Gives .dpllLocked s (fun u => u.dpll = 2 ∧ OnlyRegs [CLK_STAT] s u))
    ∧ (s.dpll ≠ 1 → nothing .dpllLocked) ∧ (s.dpll ≠ 2 → nothing .dpllUnlock)
    ∧ (s.dpll = 2 → ∃ t, Answers .dpllUnlock s (t.raise 291) ∧ t.dpll = 1 ∧ t.bit CLK_HIST ⟨3, 1⟩ = true
        ∧ OnlyRegs [CLK_STAT, CLK_HIST] s t)
    ∧ (∀ (k : Fin 8) (v : Word), s.pwr.barred = false →
      s.actPri ≠ some k.val ∨ (CLK_PRI_SRC.get v = s.priSrc k.val ∧ CLK_PRI_EN.get v = 1) →
      Gives (.clkPriWrite k v) s (fun u => u.priSrc k.val = CLK_PRI_SRC.get v
        ∧ u.fld (CLK_PRI k.val) CLK_PRI_EN = CLK_PRI_EN.get v ∧ OnlyRegs [CLK_PRI k.val] s u))
    ∧ (s.pwr.barred = false → Gives .clkClrcnt s (fun u => u.rd CLK_SWCNT = 0 ∧ u.rd CLK_JUMPCNT = 0
        ∧ u.rd CLK_QLOSSCNT = 0 ∧ OnlyRegs [CLK_SWCNT, CLK_JUMPCNT, CLK_QLOSSCNT] s u)))
    ∧ (∀ s : State,
    let nothing := fun (c : Instr) => Gives c s (OnlyRegs [] s)
    let four : Prop := 2 ≤ s.fld BLK_NODE BLK_NODE_EXPNODES
    let src := s.fld CLK_STAT CLK_STAT_ACTSRC
    let refin : Prop := s.dpll ≠ 0 ∧ 1 ≤ src ∧ src ≤ 4
    let refused := fun (c : Instr) => ∃ t, Answers c s (t.raise 294) ∧ t.bit CLK_HIST CLK_HIST_CFGREJ = true
      ∧ OnlyRegs [CLK_HIST] s t
    (∀ (r : Bool) (b : Tb), s.pwr.barred = false →
      (four ∨ (r = true ∧ s.tbMode b.val = 0) ∨ (r = false ∧ ¬refin) → refused (.realign r b))
      ∧ (¬four → r = true → s.tbMode b.val ≠ 0 → Gives (.realign r b) s (fun u =>
        u.clk = { s.clk with realign := some ⟨1, some ((s.now : Int) - s.fullTime b.val), s.clk.origin, s.now, []⟩ }
        ∧ Frame [] [.clk] s u))
      ∧ (¬four → r = false → refin → Gives (.realign r b) s (fun u =>
        u.clk = { s.clk with realign := some ⟨0, none, s.clk.origin, s.now, []⟩ } ∧ Frame [] [.clk] s u)))
    ∧ (∀ (ra rt : Byte) (ago : Word),
      (s.clk.realign = none → nothing (.frameTimingJump ra rt ago))
      ∧ (∀ r : Realign, s.clk.realign = some r →
        let done : Prop := (ra.toNat, rt.toNat) ∈ r.taken ∨ (r.kind ≠ 2 ∧ s.now < r.at_ + 1000000)
        let new := r.origin.getD (s.edgeOrigin ago.toNat)
        let still : Prop := ∃ o, r.before = some o ∧ (new - o).natAbs ≤ 6
        let next := fun (o : Option Int) (u : State) => u.clk.origin = o ∧ u.clk.realign =
          some { r with taken := r.taken ++ [(ra.toNat, rt.toNat)], origin := some new }
        (done → nothing (.frameTimingJump ra rt ago))
        ∧ (¬done → still → Gives (.frameTimingJump ra rt ago) s (fun u => next s.clk.origin u ∧ Frame [] [.clk] s u))
        ∧ (¬done → ¬still → r.taken ≠ [] → Gives (.frameTimingJump ra rt ago) s (fun u => next (some new) u
          ∧ Frame [] [.clk, .fsa] s u))
        ∧ (¬done → ¬still → r.taken = [] → Gives (.frameTimingJump ra rt ago) s (fun u => next (some new) u
          ∧ u.bit CLK_HIST ⟨4, 1⟩ = true ∧ u.fld CLK_JUMPCNT CLK_JUMPCNT_COUNT =
            min (s.fld CLK_JUMPCNT CLK_JUMPCNT_COUNT + 1) (2 ^ CLK_JUMPCNT_COUNT.width - 1)))))
    ∧ (∀ e : Int, (¬four → nothing (.alignPulseEdge e))
      ∧ (four → e.natAbs ≤ s.fld CLK_PULL CLK_PULL_PULLWIN → Gives (.alignPulseEdge e) s (fun u =>
        u.clk = { s.clk with origin := some (s.edgeOrigin 0) } ∧ Frame [] [.clk] s u))
      ∧ (four → s.fld CLK_PULL CLK_PULL_PULLWIN < e.natAbs → Gives (.alignPulseEdge e) s (fun u =>
        u.clk = { s.clk with realign := some ⟨2, some (s.edgeOrigin 0), s.clk.origin, s.now, []⟩ }
        ∧ Frame [] [.clk] s u)))
    ∧ (¬four → nothing .alignloss)
    ∧ (four → ∃ t, Answers .alignloss s (t.raise 293) ∧ t.bit CLK_HIST ⟨5, 1⟩ = true ∧ OnlyRegs [CLK_HIST] s t))

/-- Taking and completing a ring command; NOP, QUERY, TIME_ARM and BIST_REQ. (R79, R80, R82, R83, R84, R94, R159,
R160, R161, R461, R547, R571) -/
def Obligations.RingCommandsAndSimpleEffects : Prop :=
  ((∀ (t : Tenant) (r : CmdRing) (e : Entry) (pb : BlockRead) (s : State),
      ∀ x ∈ ([(0x00, .nop t r e), (0x01, .route t r e), (0x02, .unroute t r e), (0x03, .salvoOpen t r e),
        (0x04, .salvoCommit t r e), (0x05, .salvoAbort t r e), (0x10, .canvasDef t r e), (0x11, .layerSet t r e),
        (0x12, .sliceSet t r e), (0x13, .stillLoad t r e), (0x20, .audMap t r e), (0x21, .audPort t r e),
        (0x30, .flowRxDef t r e pb), (0x31, .flowTxDef t r e pb), (0x40, .frameGrab t r e), (0x41, .migrate t r e),
        (0x50, .timeArm t r e), (0x60, .bistReq t r e), (0x70, .query t r e)] : List (Nat × Instr)),
      ¬s.Takes x.1 t r e → Gives x.2 s (OnlyRegs [] s))
    ∧ (∀ (t : Tenant) (r : CmdRing) (e : Entry) (pb : BlockRead) (s : State),
      let w := s.taken t r e pb
      w.hif.inflight = s.hif.inflight ++ [⟨s.hif.nextId, t, r, cqOf e, tagOf e, nocompOf e, false,
          s.channelFor (opcodeOf e), e, pb⟩]
        ∧ w.hif.nextId = s.hif.nextId + 1 ∧ (w.ring t (8 + cqOf e)).reserved = (s.ring t (8 + cqOf e)).reserved + 1
        ∧ (w.ring t r).fetched = (s.ring t r).fetched.tail
        ∧ (s.ringSizeOk t r = true → w.devIdx t r = (s.devIdx t r + 1) % s.ringSize t r)
        ∧ Frame [RING_DEV_IDX t r] [.rings, .sched, .inflight] s w)
    ∧ (∀ (x : State) (id : Nat) (c : Cmd) (st : Status) (res ep : Nat), x.inflightOf id = some c → c.discard = false →
      let q := 8 + c.cq
      let y := x.complete id st res ep
      y.inflightOf id = none
        ∧ (x.ringOn c.tenant q = true → x.ringSizeOk c.tenant q = true → c.nocomp = false ∨ st ≠ .ok →
          let entry : Completion := ⟨c.tag, x.devIdx c.tenant c.sq, c.sq, st, res, ep, (x.ring c.tenant q).phase⟩
          .ringEntry c.tenant q (x.entryAddr c.tenant q (x.devIdx c.tenant q)) (.completion entry) entry.bytes ∈ y.out
            ∧ y.devIdx c.tenant q = (x.devIdx c.tenant q + 1) % x.ringSize c.tenant q
            ∧ (y.ring c.tenant q).reserved = (x.ring c.tenant q).reserved - 1
            ∧ Frame [RING_DEV_IDX c.tenant q] [.rings, .inflight] x y)
        ∧ (c.nocomp = true → st = .ok → y.out = x.out ∧ Frame [] [.rings, .inflight] x y
            ∧ (y.ring c.tenant q).reserved = (x.ring c.tenant q).reserved - 1)))
    ∧ (∀ (t : Tenant) (r : CmdRing) (e : Entry) (s : State),
    let w := s.taken t r e ⟨none, 0⟩
    let id := s.hif.nextId
    let m := w.mirrorCommand id
    let rejects := fun (c : Instr) (st : Status) => Answers c s (w.complete id st 0 0)
    (s.Takes 0x00 t r e →
      (onlyFields e [] = true → Answers (.nop t r e) s (m.complete id .ok 0 0))
      ∧ (onlyFields e [] = false → rejects (.nop t r e) .rejFormat))
    ∧ (s.Takes 0x70 t r e →
      let what := bitsAt e 8 0 8
      let i := bitsAt e 12 0 32
      let ok := onlyFields e [(8, 0, 8), (12, 0, 32)] && queryRange what i
      (ok = false → rejects (.query t r e) .rejFormat)
      ∧ (ok = true →
        Answers (.query t r e) s (m.complete id .ok (m.queryResult t what i).1 (m.queryResult t what i).2)
        ∧ (what = 2 → Answers (.query t r e) s (m.complete id .ok (s.ownerOf (i / 65536) (i % 65536)) 0))
        ∧ (what = 3 → Answers (.query t r e) s (m.complete id .ok (s.use t i) 0))
        ∧ (what = 4 → Answers (.query t r e) s (m.complete id .ok (s.cap i) 0))))
    ∧ (s.Takes 0x50 t r e →
      let c := Instr.timeArm t r e
      let k := bitsAt e 8 0 4
      let tb := bitsAt e 9 0 2
      let width := bitsAt e 20 0 32
      let ok := onlyFields e [(8, 0, 4), (9, 0, 2), (10, 0, 2), (12, 0, 32), (16, 0, 32), (20, 0, 32), (24, 0, 32)]
      (ok = false → rejects c .rejFormat)
      ∧ (ok = true → bitsAt e 10 1 1 = 1 → s.ownerOf 7 k ≠ t → rejects c .rejOwner)
      ∧ (ok = true → bitsAt e 10 1 1 = 1 → s.ownerOf 7 k = t → s.standby = false →
        Answers c s ((m.disarm k).complete id .ok 0 0))
      ∧ (ok = true → bitsAt e 10 0 2 = 0 → 8 ≤ width → s.ownerOf 7 k = t → s.tbMode tb ≠ 0 → s.standby = false →
        (∀ d, s.dueTime tb (bitsAt e 12 0 32) = some d → s.fullTime tb + 1000 ≤ d →
          Answers c s (m.rearm k (some ⟨tb, false, d, 0, width, none, some id, false⟩)))
        ∧ (s.dueTime tb (bitsAt e 12 0 32) = none → Answers c s (m.complete id .late 0 0))))
    ∧ (s.Takes 0x60 t r e →
      let c := Instr.bistReq t r e
      let u := bitsAt e 8 0 8
      let ok := onlyFields e bistFields && unitValid u
      (ok = false → rejects c .rejFormat)
      ∧ (ok = true → t.val ≠ 0 → rejects c .rejOwner)
      ∧ (ok = true → t.val = 0 → Tbl.has s.bst.waits u = true → rejects c .busy)
      ∧ (ok = true → t.val = 0 → Tbl.has s.bst.waits u = false → bitsAt e 9 0 1 = 0 → s.bistServes u = true →
        Gives c s (fun x => x.bst = { s.bst with waits := Tbl.put s.bst.waits u ⟨id, false, false⟩ }
          ∧ Frame [] [.bst] w x))))

/-- COMMAND_DISPATCH with no fetched command changes no register, ring or command, and neither does one with none
ready. With a ring chosen, its head leaves the ring, the consumer index advances by one, the command goes into flight
and its effect follows. Where no aged head is served, while a tenant of class 0 has a ready turn, the tenant served
has class 0. (R82, R83, R86, R87) -/
def Obligations.DispatchSlot : Prop :=
  ∀ (pb : BlockRead) (s : State),
    (s.hif.rings = [] → Gives (.commandDispatch pb) s (fun u => Frame [] [.sched] s u))
    ∧ (s.arbitrate.2 = none → Gives (.commandDispatch pb) s (fun u => Frame [] [.sched] s u))
    ∧ (∀ (t r : Nat) (e : Entry), s.arbitrate.2 = some (t, r) → s.head t r = some e →
        let p := s.arbitrate.1.popHead t r
        Answers (.commandDispatch pb) s (commandBody t e pb s.hif.nextId (p.take t r e pb))
          ∧ (p.ring t r).fetched = (s.ring t r).fetched.tail
          ∧ (s.ringSizeOk t r = true → p.devIdx t r = (s.devIdx t r + 1) % s.ringSize t r)
          ∧ Frame [RING_DEV_IDX t r] [.rings, .sched] s p)
    ∧ (let q := s.queueShort
      q.agedHead = none → (∃ t ∈ q.classOrder 0, ∃ r, q.turn t = .go r) →
        ∃ x, s.arbitrate.2 = some x ∧ s.tenClass x.1 = 0)

/-- An accepted write of TEN_CFG (no standby chip, CLASS unchanged or the tenant disabled) with STATE 0 or 2:
afterwards the tenant is not enabled, no command of its rings can be taken and COMMAND_FETCH reads none of them; its
objects, routes, canvases, flows, allocations, maps, synchronisers and surfaces, and every other register and all
package memory, stay as they are, and a route or an output goes on from the same state. (R115) -/
def Obligations.IntakeStops : Prop :=
  ∀ (n : Tenant) (v : Word) (s : State), s.pwr.barred = false → s.standby = false → n.val ≠ 0 →
    TEN_CFG_STATE.get v = 0 ∨ TEN_CFG_STATE.get v = 2 → TEN_CFG_CLASS.get v = s.tenClass n ∨ s.tenState n = 0 →
    Gives (.tenCfgWrite n v) s (fun u =>
      u.tenState n = TEN_CFG_STATE.get v ∧ u.tenOn n = false ∧ (∀ (op : Nat) (r : CmdRing) (e : Entry), ¬u.Takes op n r e)
      ∧ (∀ (r : CmdRing) (es : List Entry), Gives (.commandFetch n r es) u (OnlyRegs [] u))
      ∧ OnlyRegs [TEN_CFG n] s u)

/-- Tenant enables, grants, revokes and reservations: what is accepted, what moves, what is refused. (R113, R114,
R119, R120, R121, R123, R126, R574) -/
def Obligations.TenantsGrantsAndReservations : Prop :=
  ∀ s : State, s.pwr.barred = false →
    let nothing := fun (c : Instr) => Gives c s (OnlyRegs [] s)
    let refused := fun (c : Instr) (f : Field) => Gives c s (fun u => u.bit TEN_ERR f = true ∧ OnlyRegs [TEN_ERR] s u)
    (s.standby = true → ∀ (n : Tenant) (k : BitVec 4) (b : Fin 5) (v : Word),
      (n.val ≠ 0 → refused (.tenCfgWrite n v) TEN_ERR_CFGREJ) ∧ refused (.grant k n) TEN_ERR_CFGREJ
        ∧ refused (.revoke k n) TEN_ERR_CFGREJ ∧ refused (.reservationWrite n b v) TEN_ERR_CFGREJ)
    ∧ (∀ v : Word, nothing (.tenCfgWrite 0 v))
    ∧ (s.standby = false → ∀ (n : Tenant) (v : Word), n.val ≠ 0 →
      (TEN_CFG_STATE.get v = 3 ∨ (TEN_CFG_CLASS.get v ≠ s.tenClass n ∧ s.tenState n ≠ 0) →
        refused (.tenCfgWrite n v) TEN_ERR_CFGREJ)
      ∧ (TEN_CFG_STATE.get v ≠ 3 → TEN_CFG_CLASS.get v = s.tenClass n ∨ s.tenState n = 0 →
        Gives (.tenCfgWrite n v) s (fun u => u.tenState n = TEN_CFG_STATE.get v ∧ u.tenClass n = TEN_CFG_CLASS.get v
          ∧ OnlyRegs [TEN_CFG n] s u)))
    ∧ (s.standby = false → s.ten.grant = none → ∀ (k : BitVec 4) (n : Tenant),
      let starts := fun (c : Instr) (rev : Bool) => Gives c s (fun u =>
        u.ten.grant = some ⟨rev, k.toNat, n.val, s.fld TEN_GRANT_OBJ TEN_GRANT_OBJ_FIRST,
            s.fld TEN_GRANT_OBJ TEN_GRANT_OBJ_COUNT⟩
          ∧ u.bit TEN_GRANT_STAT TEN_GRANT_STAT_BUSY = true ∧ u.bit TEN_GRANT_STAT TEN_GRANT_STAT_OVR = false
          ∧ u.ten.owner = s.ten.owner ∧ u.ten.allocs = s.ten.allocs
          ∧ Frame [TEN_GRANT_CMD, TEN_GRANT_STAT] [.ten] s u)
      starts (.grant k n) false ∧ starts (.revoke k n) true)
    ∧ (s.standby = false → s.ten.grant ≠ none → ∀ (k : BitVec 4) (n : Tenant),
      let overruns := fun (c : Instr) => Gives c s (fun u =>
        u.bit TEN_GRANT_STAT TEN_GRANT_STAT_OVR = true ∧ u.fld TEN_GRANT_STAT TEN_GRANT_STAT_RESULT = 4
          ∧ OnlyRegs [TEN_GRANT_CMD, TEN_GRANT_STAT] s u)
      overruns (.grant k n) ∧ overruns (.revoke k n))
    ∧ (s.ten.grant = none → nothing .grantDone)
    ∧ (∀ g : GrantOp, s.ten.grant = some g →
      let inRange : Prop := g.count ≠ 0 ∧ g.first + g.count ≤ kindSize g.kind ∧ g.tenant ≠ 0
      let source := if g.revoke then g.tenant else 0
      let movable := fun (i : Nat) => s.ownerOf g.kind i = source ∧ s.objectHeld g.kind i = false
      let ends := fun (res fail : Nat) (u : State) => u.ten.grant = none ∧ u.bit TEN_GRANT_STAT TEN_GRANT_STAT_BUSY = false
        ∧ u.fld TEN_GRANT_STAT TEN_GRANT_STAT_RESULT = res ∧ u.fld TEN_GRANT_STAT TEN_GRANT_STAT_FAIL = fail % 65536
      let fails := fun (res fail : Nat) => Gives .grantDone s (fun u => ends res fail u
        ∧ u.ten.owner = s.ten.owner ∧ u.ten.allocs = s.ten.allocs ∧ Frame [TEN_GRANT_STAT] [.ten] s u)
      (inRange → (∀ i, g.first ≤ i → i < g.first + g.count → movable i) → Gives .grantDone s (fun u => ends 0 0 u
        ∧ (∀ k i : Nat, i < 65536 → u.ownerOf k i =
            if k = g.kind ∧ g.first ≤ i ∧ i < g.first + g.count then (if g.revoke then 0 else g.tenant) else s.ownerOf k i)
        ∧ (∀ code, u.totalUse code = s.totalUse code) ∧ (g.revoke = false → u.ten.allocs = s.ten.allocs)
        ∧ (g.revoke = true → u.ten.allocs = s.ten.allocs.map (fun a =>
          if s.chargedOn g.kind g.first g.count a.holding then { a with owner := 0 } else a))
        ∧ (g.revoke = false ∨ g.kind ≠ 7 → Frame [TEN_GRANT_STAT] [.ten] s u)))
      ∧ (¬inRange → fails 1 g.first)
      ∧ (∀ i, inRange → g.first ≤ i → i < g.first + g.count → (∀ j, g.first ≤ j → j < i → movable j) →
        (s.ownerOf g.kind i ≠ source → fails 2 i)
        ∧ (s.ownerOf g.kind i = source → s.objectHeld g.kind i = true → fails 3 i)))
    ∧ (s.standby = false → ∀ (n : Tenant) (b : Fin 5) (v : Word), let new := TEN_RSV_VALUE.get v
      (new < s.use n b → refused (.reservationWrite n b v) TEN_ERR_RSVREJ)
      ∧ (s.rsv n b < new → s.cap b < s.rsvSum b - s.rsv n b + new → refused (.reservationWrite n b v) TEN_ERR_RSVREJ)
      ∧ (s.use n b ≤ new → new ≤ s.rsv n b ∨ s.rsvSum b - s.rsv n b + new ≤ s.cap b →
        Gives (.reservationWrite n b v) s (fun u => u.rsv n b = new ∧ OnlyRegs [TEN_RSV n b] s u)))

/-- On a chip in neither SYNC nor STANDBY a record does nothing. On one that is: a register record writes the
register, a signature region's record writes the region's word, an owner record gives the object its owner, a command
record has the effect of that command under a new number with no completion here, a sequence record sets the flow's
next number, a still record puts the still with its content, and the end of the snapshot is remembered. A late record
increments FOV_LATEMIR (saturating) and applies likewise (stated for an owner and the end of the snapshot). (R123,
R571, R572, R574) -/
def Obligations.MirroredRecords : Prop :=
  ∀ (s : State) (m : MirrorRecord),
    let up := fun (u : State) => u.fld FOV_LATEMIR FOV_LATEMIR_COUNT =
      min (s.fld FOV_LATEMIR FOV_LATEMIR_COUNT + 1) (2 ^ FOV_LATEMIR_COUNT.width - 1)
    (∀ late : Bool, s.standby = false → Gives (.mirrorRecord m late) s (OnlyRegs [] s))
    ∧ (s.standby = true →
      (∀ (off : BitVec 26) (v : Word), regionWord off.toNat = none →
        Answers (.mirrorRecord (.register off v) false) s (s.fieldWrite off.toNat v))
      ∧ (∀ (off : BitVec 26) (v : Word) (r k : Nat), regionWord off.toNat = some (r, k) →
        Answers (.mirrorRecord (.register off v) false) s (s.srWrite r k v))
      ∧ (∀ (kind : BitVec 4) (i : Nat) (t : Tenant),
        Gives (.mirrorRecord (.owner kind i t) false) s (fun u => u.ownerOf kind.toNat i = t.val
          ∧ (t.val ≠ 0 → u.ten.allocs = s.ten.allocs ∧ Frame [] [.ten] s u))
        ∧ Gives (.mirrorRecord (.owner kind i t) true) s (fun u => u.ownerOf kind.toNat i = t.val ∧ up u
          ∧ (t.val ≠ 0 → u.ten.allocs = s.ten.allocs ∧ Frame [FOV_LATEMIR] [.ten] s u)))
      ∧ (∀ (t : Tenant) (e : Entry) (pb : Option ParamBlock), Answers (.mirrorRecord (.command t e pb) false) s
        (s.ghostId.asMirror (commandBody t.val e ⟨pb, 0⟩ s.hif.nextId)))
      ∧ (∀ (k : Fin 4096) (q : Word), Gives (.mirrorRecord (.sequence k q) false) s (fun u => (u.tx k).seq = q.toNat
          ∧ (∀ j, j ≠ k.val → u.tx j = s.tx j) ∧ Frame [] [.ess] s u))
      ∧ Gives (.mirrorRecord .snapshotEnd false) s (fun u => u.fov = { s.fov with snapshot := true }
          ∧ Frame [] [.fov] s u)
      ∧ Gives (.mirrorRecord .snapshotEnd true) s (fun u => u.fov = { s.fov with snapshot := true } ∧ up u
          ∧ Frame [FOV_LATEMIR] [.fov] s u)
      ∧ (∀ (n : Fin 4096) (w h : BitVec 16) (sm tr : BitVec 2) (c : Bool) (data : List Byte),
        Gives (.mirrorRecord (.still n w h sm tr c data) false) s (fun u =>
          Tbl.find? u.cmp.stills n = some ⟨w.toNat, h.toNat, sm.toNat, tr.toNat, if c then 1 else 0, data⟩
            ∧ (∀ j, j ≠ n.val → Tbl.find? u.cmp.stills j = Tbl.find? s.cmp.stills j) ∧ Frame [] [.cmp, .ten] s u)))

/-- ROUTE and UNROUTE are checked in order, wait for their switch line, and take effect there. (R138, R141, R142,
R146, R162, R175, R178, R180, R200, R203, R207, R319) -/
def Obligations.RoutesAndSwitchPoints : Prop :=
  (∀ (t : Tenant) (r : CmdRing) (e : Entry) (s : State), s.Takes 0x01 t r e →
      let w := s.taken t r e ⟨none, 0⟩
      let id := s.hif.nextId
      let m := w.mirrorCommand id
      let go := Instr.route t r e
      let q := routeReq e
      let f := w.routeFmt q
      let k := salvoOf e
      let c := w.routeChange q (stagedBit e)
      let acted := w.actedOn q.dst f.width
      let ok : Prop := onlyFields e routeFields = true ∧ (∀ c ∈ w.routeFormatChecks q, c.1 = false)
      let owned : Prop := ∀ x ∈ acted, w.ownsAll t 0 x.1 x.2 = true
      let free := fun (mine : Nat → Bool) => ∀ x ∈ acted, ∀ i < x.2, w.trackHeld (x.1 + i) mine = false
      let meeting := w.xpt.pending.filter (fun x => meets q.dst f.width x.1 (w.changeWidth x.1 x.2.change))
      (onlyFields e routeFields = false → Answers go s (w.complete id .rejFormat 0 0))
      ∧ (∀ (pre post : List (Bool × Status × Nat)) (st : Status) (res : Nat), onlyFields e routeFields = true →
        w.routeFormatChecks q = pre ++ (true, st, res) :: post → (∀ c ∈ pre, c.1 = false) →
        Answers go s (w.complete id st res 0))
      ∧ (ok → ¬owned → Answers go s (w.complete id .rejOwner 0 0))
      ∧ (ok → owned → stagedBit e = false → ¬free (fun _ => true) → Answers go s (w.complete id .rejLocked 0 0))
      ∧ (ok → owned → w.standby = false → stagedBit e = false → free (fun _ => true) →
        w.routeOver t q false (fun a => a.holding == .pending q.dst) = none →
        (c.sync = none → Gives go s (fun u => u.pend? q.dst = some ⟨c, id, s.now⟩
          ∧ u.xpt.routes = s.xpt.routes
          ∧ (∀ x p, x ∈ meeting → w.pend? x.1 = some p → u.inflightOf p.cmd = none)
          ∧ (meeting = [] → u.ten.allocs = (w.alloc t (.pending q.dst) (c.charge.add (SyncReq.charge none))).ten.allocs
              ∧ Frame [] [.xpt, .ten] w u)))
        ∧ (∀ y : SyncReq, c.sync = some y → w.sync? q.src = none → meeting = [] → Gives go s (fun u =>
          u.pend? q.dst = some ⟨{ c with sync := none }, id, s.now⟩ ∧ u.xpt.routes = s.xpt.routes
            ∧ (∃ x, u.sync? q.src = some x ∧ x.units = y.units ∧ x.rate = y.rate) ∧ (u.aligner q.src).mode = 3
            ∧ ⟨t, .sync q.src q.dst, ⟨y.units, 0, 0, 0, 0⟩⟩ ∈ u.ten.allocs
            ∧ u.fld FSA_PROMO FSA_PROMO_COUNT = min (s.fld FSA_PROMO FSA_PROMO_COUNT + 1) (2 ^ 32 - 1))))
      ∧ (ok → owned → w.standby = false → stagedBit e = true → w.slotOpen t k = true → w.slotFull t k q.dst = false →
        free (fun x => x != 4 * t + k) → w.routeOver t q true (isStaged t k q.dst) = none →
        let z := ((m.release (fun h => h == .staged t k q.dst)).alloc t (.staged t k q.dst)
          (c.charge.add (SyncReq.charge c.sync))).stage t k q.dst (.route c)
        Answers go s (z.1.complete id .ok z.2 0)))
    ∧ (∀ (t : Tenant) (r : CmdRing) (e : Entry) (s : State), s.Takes 0x02 t r e →
      let w := s.taken t r e ⟨none, 0⟩
      let id := s.hif.nextId
      let m := w.mirrorCommand id
      let go := Instr.unroute t r e
      let d := bitsAt e 8 0 12
      (onlyFields e unrouteFields = false → Answers go s (w.complete id .rejFormat 0 0))
      ∧ (onlyFields e unrouteFields = true → ∀ x, w.streamAt d = some x → x.1 ≠ d →
        Answers go s (w.complete id .rejFormat 9 0))
      ∧ (onlyFields e unrouteFields = true → w.streamAt d = none → w.route? d = none → w.touched d 1 = [] →
        (w.ownerOf 0 d ≠ t → Answers go s (w.complete id .rejOwner 0 0))
        ∧ (w.ownerOf 0 d = t → stagedBit e = false → w.lostEntry d = false → w.trackHeld d (fun _ => true) = false →
          w.standby = false → Answers go s (m.complete id .ok 0 0)))
      ∧ (onlyFields e unrouteFields = true → ∀ x : Route, w.route? d = some x → w.streamAt d = some (d, x) →
        w.touched d x.width = [(d, x.width)] → w.ownsAll t 0 d x.width = true →
        (∀ i < x.width, w.trackHeld (d + i) (fun _ => true) = false) → stagedBit e = false → w.standby = false →
        Gives go s (fun u => u.pend? d = some ⟨⟨none, Charge.zero, none⟩, id, s.now⟩
          ∧ u.xpt.routes = s.xpt.routes ∧ u.ten.allocs = s.ten.allocs ∧ Frame [] [.xpt] w u)))
    ∧ (∀ (d : Track) (line : BitVec 11) (slot : Fin 4) (stale : Nat) (s : State), s.sal.slots = [] →
      let go := Instr.switchPoint d line slot stale
      let keeps := fun (u : State) => SameMem s u ∧ SameParts [.rings, .inflight, .ten, .xpt, .fsa, .mln] s u
        ∧ u.pend? d = none ∧ (∀ j, j ≠ d.val → u.pend? j = s.pend? j)
      (s.pend? d = none → Gives go s (OnlyRegs [] s))
      ∧ (∀ p : Pend, s.pend? d = some p →
        let f := s.lineFmt d p.change
        (atSwitchLine f line.toNat = false ∨ lineFrom f s.now (p.at_ + 2000) = false → Gives go s (OnlyRegs [] s))
        ∧ (atSwitchLine f line.toNat = true → lineFrom f s.now (p.at_ + 2000) = true →
          (∀ n : Route, p.change.route = some n → ∃ u, Answers go s u ∧ keeps u
            ∧ u.xptEpoch d = nextEpoch (s.xptEpoch d)
            ∧ (∃ x, u.route? d = some x ∧ x.src = n.src ∧ x.width = n.width ∧ x.fmt = n.fmt
              ∧ (∀ g, s.runFmt d = some g → surfaceDst d = false → g.none = false → g.same n.fmt = false → x.fallow = true
                  ∧ ∃ y, Tbl.find? u.xpt.seqs d = some y ∧ ∃ res, (p.cmd, res, nextEpoch (s.xptEpoch d)) ∈ y.cmds))
            ∧ (Tbl.find? s.xpt.seqs d = none →
              (∀ g, s.runFmt d = some g → surfaceDst d = true ∨ g.none = true ∨ g.same n.fmt = true) →
              u.inflightOf p.cmd = none ∧ (d.val < 1024 → u.rd (ML_TXFMT (d / 4)) = BitVec.ofNat 32 n.fmt.high)))
          ∧ (p.change.route = none → ∃ u, Answers go s u ∧ keeps u ∧ u.route? d = none
            ∧ u.xptEpoch d = s.xptEpoch d ∧ u.inflightOf p.cmd = none))))
    ∧ (∀ (d : Track) (s : State),
      (Tbl.find? s.xpt.seqs d = none → Gives (.formatChangeBoundary d) s (OnlyRegs [] s))
      ∧ (∀ q : FmtSeq, Tbl.find? s.xpt.seqs d = some q → ∃ u, Answers (.formatChangeBoundary d) s u
        ∧ Tbl.find? u.xpt.seqs d = none ∧ (∀ x ∈ q.cmds, u.inflightOf x.1 = none)
        ∧ (∀ r : Route, s.route? d = some r → u.route? d = some { r with fallow := s.fallowFor d r }
          ∧ (d.val < 1024 → u.rd (ML_TXFMT (d / 4)) = BitVec.ofNat 32 r.fmt.high))
        ∧ (s.route? d = none → Tbl.find? u.xpt.lastFmt d = some q.old)
        ∧ SameMem s u ∧ SameParts [.rings, .inflight, .xpt, .mln] s u))
    ∧ (∀ (d : Track) (data : List Byte) (s : State), essDst d = false →
      (s.route? d = none → Gives (.destFrameStart d data) s (OnlyRegs [] s))
      ∧ (∀ r : Route, s.route? d = some r → Tbl.find? s.xpt.seqs d = none → s.misfit d r = (false, false) →
        Gives (.destFrameStart d data) s (fun u =>
          u.route? d = some { r with fallow := s.noPlanes, differ := false, lead := false }
          ∧ (∀ j, j ≠ d.val → u.route? j = s.route? j)
          ∧ (∀ x : Surface, Tbl.find? s.fsa.surfaces d = some x → (∀ i < r.width, s.lostEntry (d + i) = false) →
            Tbl.find? u.fsa.surfaces d = some (x.frame data))
          ∧ (Tbl.find? s.fsa.surfaces d = none → Frame [] [.xpt] s u) ∧ Frame [] [.xpt, .fsa] s u)))

/-- Cells of a schedule period, parity errors of the route table, the indexed views of the crosspoint, and the line
store. (R21, R166, R167, R169, R181, R182, R190, R193, R194, R197, R238, R239) -/
def Obligations.CrosspointReadsAndViews : Prop :=
  ∀ s : State,
    (∀ (words : List (Track × List (BitVec 20))) (stale : Nat), s.erased ≤ 2 → s.xpt.turns = [] →
      Gives (.schedulePeriod words [] stale) s (fun u =>
        (∀ d k : Nat, s.cellReads.filter (fun p => p.1 == d) = [(d, k)] →
          let f := s.detectedAt k
          let n := Tbl.getD s.xpt.slots k 0
          (∀ x, words.filter (fun c => c.1.val == k) = [x] → f.none = false →
            let took := delayLine (Tbl.getD s.fsa.lines k [])
              (x.2.take ((List.range 4).countP (fun i => slotValid f ((n + i) % 22)))) (s.lineHeld k)
            Tbl.getD u.xpt.delivered d 0 = (rsDecode (rsEncode (cellOf (fillSlots f 4 n took.1))) s.erasedAt).getD
                (Tbl.getD s.xpt.delivered d 0)
              ∧ Tbl.getD u.fsa.lines k [] = took.2 ∧ Tbl.getD u.xpt.slots k 0 = (n + 4) % 22)
          ∧ (words.filter (fun c => c.1.val == k) = [] ∨ f.none = true →
            Tbl.getD u.xpt.delivered d 0 = 0 ∧ Tbl.getD u.xpt.slots k 0 = n)
          ∧ (let out := delayLine (Tbl.getD s.xpt.retimers d []) (cellWords (Tbl.getD u.xpt.delivered d 0)) (s.retimerHeld d)
            Tbl.getD u.xpt.leaving d [] = out.1 ∧ Tbl.getD u.xpt.retimers d [] = out.2))
        ∧ u.fld XPT_EPDISC XPT_EPDISC_COUNT = min (s.fld XPT_EPDISC XPT_EPDISC_COUNT + stale) (2 ^ 32 - 1)
        ∧ u.xpt.routes = s.xpt.routes ∧ Frame [XPT_EPDISC] [.xpt, .fsa] s u))
    ∧ (∀ (words : List (Track × List (BitVec 20))) (stale : Nat), 2 < s.erased → s.xpt.turns = [] → s.cellReads ≠ [] →
      ∃ t, Answers (.schedulePeriod words [] stale) s (t.raise 147)
        ∧ (∀ p ∈ s.cellReads, Tbl.getD t.xpt.delivered p.1 0 = Tbl.getD s.xpt.delivered p.1 0)
        ∧ t.fld XPT_UNCORR XPT_UNCORR_COUNT =
          min (s.fld XPT_UNCORR XPT_UNCORR_COUNT + s.cellReads.length) (2 ^ 32 - 1)
        ∧ Frame [XPT_EPDISC, XPT_UNCORR] [.xpt, .fsa] s t)
    ∧ (∀ (words : List (Track × List (BitVec 20))) (d : Track) (k n : Nat) (p : Fin 16) (v : BitVec 6),
      s.erased = 0 → s.xpt.turns = [] → s.cellReads = [(d.val, k)] → v ≠ 0 → s.planeAt p = n → n < 17 →
      s.retired n = false →
      Gives (.schedulePeriod words [(d, [(p, v)])] 0) s (fun u => u.fld (XPT_PLCNT n) XPT_PLCNT_COUNT =
        min (s.fld (XPT_PLCNT n) XPT_PLCNT_COUNT + 1) (2 ^ XPT_PLCNT_COUNT.width - 1)
          ∧ u.rd XPT_UNCORR = s.rd XPT_UNCORR))
    ∧ (∀ d : Track, Gives (.xptRtpar d false) s (fun u =>
        u.fld XPT_RTFIX XPT_RTFIX_COUNT = min (s.fld XPT_RTFIX XPT_RTFIX_COUNT + 1) (2 ^ 32 - 1)
          ∧ OnlyRegs [XPT_RTFIX] s u)
      ∧ ∃ t, Answers (.xptRtpar d true) s ((t.tally s).raise 151) ∧ t.lostEntry d = true
          ∧ (∀ r : Route, s.streamAt d = some (d.val, r) → t.route? d = none
              ∧ ∀ i < r.width, t.lostEntry (d + i) = true ∧ Tbl.find? t.xpt.delivered (d + i) = none)
          ∧ (∀ j, j ≠ d.val → t.route? j = s.route? j) ∧ Frame [] [.xpt] s t)
    ∧ (∀ v : Word, s.pwr.barred = false → let d := XPT_RT_IDX_DST.get v
      let held := s.trackHeld d (fun _ => true)
      Gives (.xptRtIdx v) s (fun u => u.fld XPT_RT_IDX XPT_RT_IDX_DST = d
        ∧ u.fld XPT_RT_EPOCH XPT_RT_EPOCH_EPOCH = s.xptEpoch (s.firstOf d) % 65536
        ∧ (∀ (k : Nat) (r : Route), s.streamAt d = some (k, r) → s.lostEntry d = false → s.pendingAt d = none →
          r.src + (d - k) < 4096 → u.fld XPT_RT_DATA XPT_RT_DATA_SRC = r.src + (d - k)
            ∧ u.bit XPT_RT_DATA XPT_RT_DATA_ROUTED = true ∧ u.bit XPT_RT_DATA XPT_RT_DATA_FALLOW = r.fallow
            ∧ u.bit XPT_RT_DATA XPT_RT_DATA_PEND = false ∧ u.bit XPT_RT_DATA XPT_RT_DATA_PUNROUTE = false)
        ∧ (s.lostEntry d = true → s.pendingAt d = none → u.fld XPT_RT_DATA XPT_RT_DATA_SRC = 0
            ∧ u.bit XPT_RT_DATA XPT_RT_DATA_ROUTED = true ∧ u.bit XPT_RT_DATA XPT_RT_DATA_FALLOW = true)
        ∧ (s.streamAt d = none → s.lostEntry d = false → s.pendingAt d = none → held = false → u.rd XPT_RT_DATA = 0)
        ∧ OnlyRegs [XPT_RT_IDX, XPT_RT_DATA, XPT_RT_EPOCH] s u)
      ∧ Gives (.xptSuIdx v) s (fun u =>
          u.fld XPT_SU_DATA XPT_SU_DATA_FANOUT = s.fanout (XPT_SU_IDX_SRC.get v) % 8192
          ∧ OnlyRegs [XPT_SU_IDX, XPT_SU_DATA] s u))
    ∧ (∀ (x y : LineUse) (n m : Nat), n < x.users → m < y.users → (x.room n).2 ≤ lineStoreBits
      ∧ ((x, n) ≠ (y, m) → (x.room n).2 ≤ (y.room m).1 ∨ (y.room m).2 ≤ (x.room n).1))
    ∧ lineRowsInUse = 45840 ∧ lineRowsSpare = 3312

/-- Acquisition, leaving the window, promotion, synchroniser frames, concealment, leads and the views of FSA. (R235,
R236, R240, R241, R242, R244, R245, R246, R247, R238, R253, R261) -/
def Obligations.AlignersAndSynchronisers : Prop :=
  ∀ s : State,
    let nothing := fun (c : Instr) => Gives c s (OnlyRegs [] s)
    let inc := fun (u : State) (a n : Nat) (f : Field) => u.fld a f = min (s.fld a f + n) (2 ^ 32 - 1)
    let auto := s.bit FSA_CTRL FSA_CTRL_AUTOPROMO
    let unitsOf := fun (k : Nat) => syncUnits (highFmt (s.aligner k).high)
    let promotes := fun (c : Instr) (k : Nat) => let home := s.syncHome k
      auto = true → s.sync? home = none → s.readers home ≠ [] →
      (∀ t d, s.findHolder home (unitsOf k) = some (t, d) → Gives c s (fun u => (home = k → (u.aligner k).mode = 3)
        ∧ (∃ x, u.sync? home = some x ∧ x.units = unitsOf k ∧ x.rate = (highFmt (s.aligner k).high).rate)
        ∧ (0 < unitsOf k → ⟨t, .sync home d, ⟨unitsOf k, 0, 0, 0, 0⟩⟩ ∈ u.ten.allocs)
        ∧ u.fld FSA_PROMO FSA_PROMO_COUNT = min (s.fld FSA_PROMO FSA_PROMO_COUNT + 1) (2 ^ 32 - 1)))
      ∧ (s.findHolder home (unitsOf k) = none → ∃ t, Answers c s (t.raise 160) ∧ (t.aligner k).mode = 4
        ∧ (fabricSource k = true → (t.aligner k).hops = 3) ∧ t.fsa.syncs = s.fsa.syncs ∧ Frame [] [.fsa] s t)
    (∀ (k : Track) (off : Int), (s.aligner k).mode = 0 ∨ (s.aligner k).mode = 2 ∨ canvasSource k = true →
      nothing (.alignerAcquired k off))
    ∧ (∀ (k : Track) (at_ : Int), (s.aligner k).mode ≠ 0 → (s.aligner k).mode ≠ 2 → canvasSource k = false →
      let c := Instr.alignerAcquired k at_
      let a := s.aligner k
      let off := if essSource k then a.off.getD at_ else at_
      let w := s.window k (highFmt a.high) off
      let gets := fun (b : Aligner) => Gives c s (fun u => u.aligner k = b
        ∧ (∀ j, j ≠ k.val → u.aligner j = s.aligner j) ∧ u.fsa.syncs = s.fsa.syncs ∧ Frame [] [.fsa] s u)
      let out := { a with mode := 4, inside := false, delay := 0, off := some off, hops := if fabricSource k then 3 else a.hops }
      (∀ h d, w = some (h, d) →
        gets { a with mode := if a.mode = 3 then 3 else 2, hops := h, delay := d, inside := true, off := some off })
      ∧ (w = none → a.mode = 3 → gets { a with inside := false, delay := 0, off := some off })
      ∧ (w = none → a.mode = 1 → s.sync? (s.syncHome k) ≠ none → gets { out with mode := 3 })
      ∧ (w = none → a.mode ≠ 3 → a.mode ≠ 1 ∨ (s.sync? (s.syncHome k) = none
        ∧ (auto = false ∨ s.readers (s.syncHome k) = [])) → gets out)
      ∧ (w = none → a.mode = 1 → promotes c k))
    ∧ (∀ (k : Track) (off : Int) (j : Bool), let w := s.window k (highFmt (s.aligner k).high) off
      let c := Instr.streamLeavesWindow k off j
      ((s.aligner k).mode ≠ 2 ∨ canvasSource k = true ∨ w ≠ none → nothing c)
      ∧ ((s.aligner k).mode = 2 → canvasSource k = false → w = none →
        (s.sync? (s.syncHome k) ≠ none → Gives c s (fun u => (u.aligner k).mode = 3 ∧ (u.aligner k).off = some off
          ∧ u.fsa.syncs = s.fsa.syncs ∧ Frame [] [.fsa] s u))
        ∧ (s.sync? (s.syncHome k) = none → auto = false ∨ s.readers (s.syncHome k) = [] →
          Gives c s (fun u => (u.aligner k).mode = 4 ∧ (u.aligner k).inside = false ∧ (u.aligner k).off = some off
            ∧ (fabricSource k = true → (u.aligner k).hops = 3) ∧ u.fsa.syncs = s.fsa.syncs ∧ Frame [] [.fsa] s u))
        ∧ promotes c k
        ∧ (∀ x, auto = true → s.syncHome k = k → s.sync? k = none → s.readers k ≠ [] →
          s.findHolder k (unitsOf k) = some x → j = false → (s.aligner k).hops ≠ 0 → (s.aligner k).hops ≠ 3 →
          Gives c s (fun u => (u.aligner k).hops = (s.aligner k).hops))))
    ∧ (∀ (k : Track) (n : Nat), s.sync? k = none → nothing (.syncFrameStart k n))
    ∧ (∀ (k : Track) (n : Nat) (x : SyncUnit), s.sync? k = some x → let go := Instr.syncFrameStart k n
      (∀ i, x.lost = some i → Gives go s (fun u =>
        u.sync? k = some { x with lost := some (min 256 (i + 1)) }
          ∧ inc u FSA_REPEAT (if i < s.holdFr ∧ x.last ≠ none then 1 else 0) FSA_REPEAT_COUNT
          ∧ (u.aligner k).substituted = [] ∧ Frame [FSA_REPEAT] [.fsa] s u))
      ∧ (x.lost = none → x.last = none → Gives go s (fun u =>
        u.sync? k = some { x with last := some n, blank := false } ∧ Frame [] [.fsa] s u))
      ∧ (x.lost = none → x.last = some n → Gives go s (fun u =>
        u.sync? k = some x ∧ inc u FSA_REPEAT 1 FSA_REPEAT_COUNT ∧ Frame [FSA_REPEAT] [.fsa] s u))
      ∧ (∀ l, x.lost = none → x.last = some l → l ≠ n → Gives go s (fun u =>
        u.sync? k = some { x with last := some n } ∧ inc u FSA_DROP (n - l - 1) FSA_DROP_COUNT
          ∧ (u.aligner k).substituted = [] ∧ Frame [FSA_DROP] [.fsa] s u)))
    ∧ (∀ (k : Track) (n : Nat), let a := s.aligner k
      let raster := (highFmt a.high).raster
      let acts : Prop := a.mode = 3 ∧ s.bit FSA_CTRL FSA_CTRL_CONCEAL = true ∧ raster ≠ 1 ∧ raster ≠ 2
      let run := if n = a.errLine + 1 ∧ a.errRun ≠ 0 then a.errRun + 1 else 1
      let lim := min 8 (s.fld FSA_CTRL FSA_CTRL_CONCMAX)
      (¬acts → nothing (.erroredLine k n))
      ∧ (acts → run ≤ lim → Gives (.erroredLine k n) s (fun u => inc u FSA_CONCEAL 1 FSA_CONCEAL_COUNT
          ∧ n ∈ (u.aligner k).substituted ∧ (u.aligner k).errLine = n ∧ (u.aligner k).errRun = run
          ∧ (∀ j, j ≠ k.val → u.aligner j = s.aligner j) ∧ Frame [FSA_CONCEAL] [.fsa] s u))
      ∧ (acts → run = lim + 1 → ∃ t, Answers (.erroredLine k n) s (t.raise 162)
          ∧ t.aligner k = { a with errLine := n, errRun := run } ∧ Frame [] [.fsa] s t)
      ∧ (acts → lim + 1 < run → Gives (.erroredLine k n) s (fun u =>
          u.aligner k = { a with errLine := n, errRun := run } ∧ Frame [] [.fsa] s u)))
    ∧ (∀ (k : Fin 2) (req : Nat) (age : Word) (cycles : List (List Nat)),
      let m := Tbl.getD s.fsa.ctls k MemCtl.idle
      let n := cycles.foldl MemCtl.turn m
      Gives (.backgroundRequestAged k req age cycles) s (fun u =>
        inc u FSA_AGED (m.aged.length - n.aged.length) FSA_AGED_COUNT
        ∧ Tbl.getD u.fsa.ctls k MemCtl.idle = { n with aged := n.aged ++ (if s.ageLimit < age.toNat then [req] else []) }
        ∧ (∀ j, j ≠ k.val → Tbl.find? u.fsa.ctls j = Tbl.find? s.fsa.ctls j) ∧ Frame [FSA_AGED] [.fsa] s u))
    ∧ (∀ (m : MemCtl) (l : List Nat), let n := m.turn l
      n.cycle = (m.cycle + 1) % 32
      ∧ (∀ r q, m.cycle = 31 → m.aged = r :: q → n.aged = q ∧ n.last = m.last)
      ∧ (m.cycle ≠ 31 ∨ m.aged = [] → n.aged = m.aged ∧ (l = [] → n.last = m.last) ∧ (l ≠ [] → n.last ∈ l
        ∧ ∀ r, r ∈ l → (m.last < r → m.last < n.last ∧ n.last ≤ r) ∧ (n.last ≤ m.last → n.last ≤ r))))
    ∧ Answers .fsaLspar s (s.raise 168)
    ∧ (s.pwr.barred = false → ∀ v : Word, let k := FSA_AL_IDX_SRC.get v
      let a := s.aligner k
      Gives (.fsaAlIdx v) s (fun u => u.fld FSA_AL_STAT FSA_AL_STAT_MODE = a.mode % 8
        ∧ u.fld FSA_AL_STAT FSA_AL_STAT_HOPS = (if fabricSource k = true ∧ a.hops = 0 then 3 else a.hops) % 4
        ∧ u.bit FSA_AL_STAT FSA_AL_STAT_PASS = (a.mode == 2 && a.delay == 0)
        ∧ u.fld FSA_AL_STAT FSA_AL_STAT_DELAY = (if a.mode = 2 then a.delay else 0) % 2 ^ 19
        ∧ (s.syncOf k = none → u.fld FSA_AL_SYNC FSA_AL_SYNC_SYNC = 0x3FF ∧ u.fld FSA_AL_SYNC FSA_AL_SYNC_UNITS = 0)
        ∧ (∀ x, s.syncOf k = some x → u.fld FSA_AL_SYNC FSA_AL_SYNC_SYNC = x.index % 1024
          ∧ u.fld FSA_AL_SYNC FSA_AL_SYNC_UNITS = min 15 x.units
          ∧ ∀ y, s.syncAlloc (s.syncHome k) = some y → u.fld FSA_AL_SYNC FSA_AL_SYNC_HOLDER = y.owner % 1024)
        ∧ OnlyRegs [FSA_AL_IDX, FSA_AL_STAT, FSA_AL_SYNC] s u))
    ∧ (s.pwr.barred = false → ∀ v : Word, let d := s.fld FSA_DL_IDX FSA_DL_IDX_DST
      Gives (.fsaDlData v) s (fun u => u.fld (FSA_DLW d) FSA_DL_DATA_LEAD = FSA_DL_DATA_LEAD.get v
        ∧ u.bit (FSA_DLW d) FSA_DL_DATA_OVR = (FSA_DL_DATA_OVR.get v != 0)
        ∧ u.leadOf d = (if FSA_DL_DATA_OVR.get v = 1 then min 2 (FSA_DL_DATA_LEAD.get v)
            else min 2 (s.fld FSA_PHASE FSA_PHASE_OUTLEAD))
        ∧ OnlyRegs [FSA_DLW d] s u))
    ∧ (s.pwr.barred = false →
      let l := [FSA_EPDISC, FSA_REPEAT, FSA_DROP, FSA_CONCEAL, FSA_LEADMISS, FSA_AGED, FSA_ECCFIX, FSA_ECCUNC, FSA_PROMO,
        FSA_SEDGEERR]
      Gives .fsaClrcnt s (fun u => (∀ a, a ∈ l → u.rd a = 0) ∧ OnlyRegs l s u))

/-- FSA_STACK_FAIL of a stack already out of service does nothing. Of one in service: the stack is marked out of
service, DEGRADED is set, 164 + k is raised, stills go, the totals fall to 256, 888 and 20,480 a stack in service (in
the order FSYNC, MEMBW, SURF, the model's choice: log entry 51), the receive buffer to 192 MiB and 75 GB/s, and what
remains is re-homed. Shedding one budget stops at once where the use is within the total, and otherwise takes the
allocation of the lowest class first, in it of the highest-numbered tenant, in it the newest. (R128, R130, R134, R248,
R251) -/
def Obligations.MemoryStackFailure : Prop :=
  (∀ (k : Fin 2) (s : State), s.bit FSA_MEMSTAT (if k.val = 0 then FSA_MEMSTAT_STK0 else FSA_MEMSTAT_STK1) = false →
      Gives (.memoryStackFail k) s (OnlyRegs [] s))
    ∧ (∀ (k : Fin 2) (s : State), let f := if k.val = 0 then FSA_MEMSTAT_STK0 else FSA_MEMSTAT_STK1
      s.bit FSA_MEMSTAT f = true → ∃ t : State, t.bit FSA_MEMSTAT f = false
        ∧ t.bit FSA_MEMSTAT FSA_MEMSTAT_DEGRADED = true ∧ Frame [FSA_MEMSTAT] [] s t
        ∧ (let w := t.raise (164 + k)
           let n := w.stacks
           let y := w.each (w.ten.allocs.filter (fun a => match a.holding with
             | .still _ => true
             | .stillLoad _ => true
             | _ => false)) (fun s a => s.shedOne a 4)
           let z := ((y.changeTotal 0 (256 * n) (164 + k)).changeTotal 2 (888 * n) (164 + k)).changeTotal 4 (20480 * n) (164 + k)
           let x := (z.setFld ESS_RXBUF ESS_RXBUF_TOTAL (192 * n)).setFld ESS_RXBW ESS_RXBW_TOTAL (75 * n)
           Answers (.memoryStackFail k) s (x.shedFlows x.rxFlows.length).rehome))
    ∧ (∀ (s : State) (code src n : Nat), s.totalUse code ≤ s.cap code → s.shedBudget n code src = s)
    ∧ (∀ (s : State) (code : Nat) (a : Alloc), s.nextShed code = some a → a ∈ s.ten.allocs ∧ a.charge.get code ≠ 0
        ∧ (∀ b ∈ s.ten.allocs, b.charge.get code ≠ 0 → s.tenClass b.owner ≤ s.tenClass a.owner
          ∧ (s.tenClass b.owner = s.tenClass a.owner → b.owner ≤ a.owner))
        ∧ ∃ l m, s.ten.allocs = l ++ a :: m ∧ ∀ b ∈ m, b.charge.get code ≠ 0 →
            s.tenClass b.owner ≠ s.tenClass a.owner ∨ b.owner ≠ a.owner)

/-- CANVAS_DEF, LAYER_SET, SLICE_SET, STILL_LOAD and FRAME_GRAB: what each leaves waiting once it is taken. (R149,
R150, R151, R152, R157, R162, R165, R269, R272, R275, R290, R292) -/
def Obligations.CanvasAndStillCommands : Prop :=
  (∀ (t : Tenant) (r : CmdRing) (e : Entry) (s : State),
      let w := s.taken t r e ⟨none, 0⟩
      let id := s.hif.nextId
      let m := w.mirrorCommand id
      let c := bitsAt e 8 0 6
      let i := bitsAt e 9 0 5
      let bad := fun (op : Nat) (go : Instr) (l : List (Nat × Nat × Nat)) => s.Takes op t r e →
        onlyFields e l = false → Answers go s (w.complete id .rejFormat 0 0)
      let waits := fun (k : Nat) (o : CanvasOp) (u : State) =>
        (u.canvas k).pend = (s.canvas k).pend ++ [⟨o, id, s.now, false, none, none, 0⟩] ∧ (u.canvas k).now = (s.canvas k).now
          ∧ (u.canvas k).layers = (s.canvas k).layers ∧ (∀ j, j ≠ k → u.canvas j = s.canvas j)
          ∧ u.cmp.slices = s.cmp.slices
      bad 0x10 (.canvasDef t r e) canvasFields ∧ bad 0x11 (.layerSet t r e) layerFields
      ∧ bad 0x12 (.sliceSet t r e) sliceFields ∧ bad 0x13 (.stillLoad t r e) stillFields
      ∧ bad 0x40 (.frameGrab t r e) grabFields
      ∧ (s.Takes 0x10 t r e → onlyFields e canvasFields = true → w.standby = false → w.canvasMigrating c = false →
        w.canvasHeld c = false → let go := Instr.canvasDef t r e
        let out := (canvasDefOf e).out
        let plain : Prop := out.bits = 0 ∨ out.valid = true
        (bitsAt e 9 7 1 = 1 → ¬plain → Answers go s (w.complete id .rejFormat 0 0))
        ∧ (bitsAt e 9 7 1 = 1 → plain → s.ownerOf 1 c = t → (w.canvas c).planned = none →
          Answers go s (m.complete id .ok 0 (s.canvas c).epoch))
        ∧ (bitsAt e 9 7 1 = 1 → plain → s.ownerOf 1 c = t → (w.canvas c).planned ≠ none →
          Gives go s (fun u => waits c .delete u ∧ Frame [] [.cmp, .ten] w u))
        ∧ (bitsAt e 9 7 1 = 0 → let d := canvasDefOf e
          canvasFormatBad c d = false → d.out.raster ≠ 8 → (∀ x, (w.canvas c).planned = some x → x.engine = d.engine) →
          (s.ownerOf 1 c ≠ t → Answers go s (w.complete id .rejOwner 0 0))
          ∧ (s.ownerOf 1 c = t → w.fenced (unitEngine d.engine) = false → w.canvasTaken c = false →
            (∀ x, w.canvasOver t c true (w.plan t c (.define d) id) = some x → Answers go s (w.complete id .rejCapacity x 0))
            ∧ (w.canvasOver t c true (w.plan t c (.define d) id) = none → unitEngine d.engine ∉ s.bst.slicing →
              Gives go s (fun u => waits c (.define d) u ∧ Frame [PWR_DOMSTAT] [.cmp, .ten] w u)))))
      ∧ (s.Takes 0x11 t r e → onlyFields e layerFields = true → w.standby = false → w.canvasMigrating c = false →
        w.canvasDefined c = true → s.ownerOf 1 c = t → w.layerHeld c i (fun _ => true) = false → bitsAt e 10 7 1 = 0 →
        let go := Instr.layerSet t r e
        (bitsAt e 11 0 1 = 0 →
          ((w.canvas c).plannedLayer i = none → Answers go s (m.complete id .ok 0 0))
          ∧ ((w.canvas c).plannedLayer i ≠ none → Gives go s (fun u => waits c (.layer i none) u
            ∧ Frame [] [.cmp, .ten] w u)))
        ∧ (bitsAt e 11 0 1 = 1 → let l := layerOf e
          let next := w.plan t c (.layer i (some l)) id
          (w.layerFormatBad c l = true → Answers go s (w.complete id .rejFormat 0 0))
          ∧ (w.layerFormatBad c l = false → w.layerSourceOwned t l = true → next.layerCount ≤ 1024 →
            (∀ m < 64, next.chainDepth 6 m ≤ 4) → w.canvasOver t c false next = none →
            Gives go s (fun u => waits c (.layer i (some l)) u ∧ Frame [] [.cmp, .ten] w u))))
      ∧ (s.Takes 0x12 t r e → onlyFields e sliceFields = true → w.standby = false → let n := bitsAt e 8 0 12
        let k := bitsAt e 10 0 6
        let old := w.allSlices.find? (fun y => y.1 == n)
        let go := Instr.sliceSet t r e
        let quiet := fun (k : Nat) => w.canvasMigrating k = false ∧ w.canvasHeld k = false
        s.ownerOf 5 n = t →
        (bitsAt e 11 0 1 = 0 → old = none → (w.canvas k).planned ≠ none → s.ownerOf 1 k = t → quiet k →
          Answers go s (m.complete id .ok 0 0))
        ∧ (∀ y, bitsAt e 11 0 1 = 0 → old = some y → let k := y.2.canvas
          (w.canvas k).planned ≠ none → s.ownerOf 1 k = t → s.ownerOf 3 y.2.flow = t → quiet k →
          Gives go s (fun u => waits k (.slice n none) u ∧ Frame [] [.cmp, .ten] w u))
        ∧ (bitsAt e 11 0 1 = 1 → old = none → ∀ (d : CanvasDef) (f : Flow), let g := bitsAt e 20 0 12
          let x := rectOf e 12 false
          (w.canvas k).planned = some d → (w.tx g).planned = some f → f.slice = true → 8 ≤ x.w → 8 ≤ x.h →
          x.inside d.width d.height = true → 1 < d.sampling ∨ (x.x % 2 = 0 ∧ x.w % 2 = 0) →
          (∀ y ∈ w.allSlices ++ w.cmp.slices, y.1 ≠ n → y.2.flow ≠ g) →
          (∀ y ∈ w.plannedSlices k, y.1 ≠ n → w.sliceTb y.2.flow = w.sliceTb g) →
          s.ownerOf 1 k = t → s.ownerOf 3 g = t → quiet k → w.canvasOver t k false (w.plan t k (.slice n (some ⟨k, x, g⟩)) id) = none →
          Gives go s (fun u => waits k (.slice n (some ⟨k, x, g⟩)) u ∧ Frame [] [.cmp, .ten] w u)))
      ∧ (s.Takes 0x13 t r e → onlyFields e stillFields = true → w.standby = false → let n := bitsAt e 8 0 12
        let x : Still := ⟨bitsAt e 10 0 16, bitsAt e 12 0 16, bitsAt e 14 0 2, bitsAt e 14 2 2, bitsAt e 14 4 1, []⟩
        x.transfer ≠ 3 → x.width ≠ 0 → x.height ≠ 0 → s.ownerOf 8 n = t →
        hostOk (bitsAt e 16 0 64) (bitsAt e 24 0 32) = true → w.stillShown n = false → w.stillSafe n = false →
        w.overBudget t x.charge (fun _ => false) = none → Tbl.has s.cmp.loads n = false →
        Gives (.stillLoad t r e) s (fun u =>
          Tbl.find? u.cmp.loads n = some ⟨x, bitsAt e 14 5 1 == 1, id, bitsAt e 16 0 64, bitsAt e 24 0 32⟩
          ∧ u.ten.allocs = (s.alloc t (.stillLoad n) x.charge).ten.allocs ∧ u.cmp.stills = s.cmp.stills
          ∧ Frame [] [.cmp, .ten] w u))
      ∧ (s.Takes 0x40 t r e → onlyFields e grabFields = true → let n := bitsAt e 8 0 12
        let k := bitsAt e 12 0 16
        let cv := bitsAt e 10 0 1 == 1
        let q := 14 + bitsAt e 11 0 1
        let go := Instr.frameGrab t r e
        ∀ (size : Nat) (f : Fmt), w.grabSource cv n = some (size, f) → k ≠ 0 →
        (cv = true → s.ownerOf 1 n = t) → hostOk (bitsAt e 16 0 64) (bitsAt e 24 0 32) = true →
        (bitsAt e 24 0 32 < k * size → Answers go s (w.complete id .rejCapacity 10 0))
        ∧ (k * size ≤ bitsAt e 24 0 32 → s.ringOn t q = false → Answers go s (w.complete id .busy 0 0))
        ∧ (k * size ≤ bitsAt e 24 0 32 → s.ringOn t q = true → ∀ (x : Cmd) (ch : Nat), w.inflightOf id = some x →
          x.channel = some ch → Gives go s (fun u => Tbl.find? u.cmp.grabs ch = some ⟨id, t, q, tagOf e,
            bitsAt e 10 1 1 == 1, k, 0, bitsAt e 16 0 64, cv, n, f, s.eventTb, none⟩ ∧ Frame [] [.cmp] w u))))
    ∧ (∀ (n : Fin 4096) (data : List Byte) (s : State),
      (Tbl.find? s.cmp.loads n = none → Gives (.stillStored n data) s (OnlyRegs [] s))
      ∧ (∀ (x : StillLoad) (c : Cmd) (ch : Nat), Tbl.find? s.cmp.loads n = some x → s.inflightOf x.cmd = some c →
        c.channel = some ch →
        let fails : Bool := x.coded && dirBad x.still.sampling (data.take (tilesOf x.still.width x.still.height))
        let moved := fun (u : State) => Tbl.find? u.cmp.loads n = none
          ∧ u.rd (HIF_DMA_BYTES ch) = s.rd (HIF_DMA_BYTES ch) + BitVec.ofNat 32 x.len
          ∧ Frame [HIF_DMA_BYTES ch] [.cmp, .ten] s u
        (fails = true → ∃ u, Answers (.stillStored n data) s (u.complete x.cmd .rejFormat 0 0)
          ∧ u.cmp.stills = s.cmp.stills ∧ moved u)
        ∧ (fails = false → ∃ u, Answers (.stillStored n data) s (u.complete x.cmd .ok (ceilDiv x.still.size 1024) 0)
          ∧ Tbl.find? u.cmp.stills n = some { x.still with data := x.surface data } ∧ moved u)))
    ∧ (∀ (ch : Fin 48) (data : List Byte) (ago : Word) (s : State),
      let go := Instr.frameCaptured ch data ago
      (Tbl.find? s.cmp.grabs ch = none → Gives go s (OnlyRegs [] s))
      ∧ (∀ g : Grab, Tbl.find? s.cmp.grabs ch = some g →
        let bytes := if g.canvas then (match (s.canvas g.src).shown with
          | some p => p.pic.colourPlane g.coded
          | none => data) else data
        let entry : Capture := ⟨g.tag, g.frame, .ok, g.coded, decide (g.left ≤ 1), g.buffer, bytes.length,
          (s.fullTime g.tb - ago.toNat) % 2 ^ 32, g.tb, s.grabFmt g, crcOf bytes, false⟩
        (g.owed ≠ none → Gives go s (OnlyRegs [] s))
        ∧ (g.owed = none → s.ringOn g.tenant g.ring = true → s.ringFull g.tenant g.ring = false →
          let x : Capture := { entry with phase := (s.ring g.tenant g.ring).phase }
          ∃ u, Answers go s u ∧ .hostWrite g.buffer bytes ∈ u.out
            ∧ .ringEntry g.tenant g.ring (s.entryAddr g.tenant g.ring (s.devIdx g.tenant g.ring)) (.capture x) x.bytes ∈ u.out
            ∧ Tbl.find? u.cmp.grabs ch = (if g.left ≤ 1 then none
                else some { g with left := g.left - 1, frame := g.frame + 1, buffer := g.buffer + bytes.length })
            ∧ (g.left ≤ 1 → u.inflightOf g.cmd = none))
        ∧ (g.owed = none → s.ringOn g.tenant g.ring = true → s.ringFull g.tenant g.ring = true →
          Gives go s (fun u => .hostWrite g.buffer bytes ∈ u.out
            ∧ Tbl.find? u.cmp.grabs ch = some { g with owed := some entry } ∧ Frame [HIF_DMA_BYTES ch] [.cmp] s u))))

/-- Canvas frames take the waiting changes, and signature regions judge, learn, clear and are configured. (R259, R267,
R270, R271, R272, R274, R279, R286, R287, R288, R289, R294) -/
def Obligations.CanvasFramesAndRegions : Prop :=
  ∀ s : State,
    let quiet := fun (c : Nat) => s.sal.slots = []
      ∧ ∀ r < 256, s.fld (CMP_SRW_CFG r) CMP_SR_CFG_CANVAS = c → s.bit (CMP_SRW_CFG r) CMP_SR_CFG_EN = false ∧ s.srState r = 0
    let inc := fun (u : State) (a : Nat) (f : Field) => u.fld a f = min (s.fld a f + 1) (2 ^ 32 - 1)
    let nothing := fun (i : Instr) => Gives i s (OnlyRegs [] s)
    (∀ c : Canvas,
      let go := Instr.canvasComposeStart c
      let x := s.canvas c
      let w := s.takeChanges c
      let y := w.canvas c
      let timed := fun (d : CanvasDef) => w.setCanvas c { y with outAt := some (s.now + framePeriodNs d.rate) }
      (x.outAt ≠ none → nothing go)
      ∧ (∀ d : CanvasDef, x.outAt = none → y.now = some d →
        (s.canvasPoint d = false → nothing go)
        ∧ (s.canvasPoint d = true → Answers go s (((timed d).regionsBegin c).composeFrame c d)))
      ∧ (∀ d : CanvasDef, x.outAt = none → y.now = none → x.now = some d → Answers go s (timed d))
      ∧ (x.outAt = none → y.now = none → x.now = none → Answers go s w)
      ∧ (x.outAt = none → quiet c → x.now = none → x.pend = [] →
        Gives go s (fun u => u.canvas c = x ∧ Frame [] [.cmp, .ten] s u))
      ∧ (∀ d : CanvasDef, x.outAt = none → quiet c → s.canvasPoint d = true → x.now = some d → x.layers = [] →
        (∀ p ∈ x.pend, p.taken = true ∨ s.now < p.at_ + 2000) → Gives go s (fun u => (u.canvas c).pend = x.pend
          ∧ (u.canvas c).now = some d ∧ (u.canvas c).layers = [] ∧ (u.canvas c).making = true
          ∧ (u.canvas c).outAt = some (s.now + framePeriodNs d.rate)
          ∧ Tbl.find? (u.canvas c).buffers x.fill = some ⟨s.composePic d s.freeCtr [], d.transfer, d.colour⟩
          ∧ (u.canvas c).newest = x.newest ∧ Frame [] [.cmp, .ten] s u))
      ∧ (∀ (d : CanvasDef) (i id t0 : Nat) (l : Option LayerDef), x.outAt = none → quiet c → s.canvasPoint d = true →
        x.now = some d → x.pend = [⟨.layer i l, id, t0, false, none, none, 0⟩] → t0 + 2000 ≤ s.now →
        Gives go s (fun u => Tbl.find? (u.canvas c).layers i = l
          ∧ (∀ j, j ≠ i → Tbl.find? (u.canvas c).layers j = Tbl.find? x.layers j)
          ∧ (u.canvas c).pend = [⟨.layer i l, id, t0, true, none, none, 0⟩]
          ∧ (u.canvas c).outAt = some (s.now + framePeriodNs d.rate) ∧ SameMem s u))
      ∧ (∀ (d : CanvasDef) (id t0 : Nat), x.outAt = none → quiet c → s.canvasPoint d = true → x.now = none →
        x.pend = [⟨.define d, id, t0, false, none, none, 0⟩] → t0 + 2000 ≤ s.now →
        Gives go s (fun u => (u.canvas c).now = some d ∧ (u.canvas c).epoch = nextEpoch x.epoch
          ∧ (u.canvas c).outAt = some (s.now + framePeriodNs d.rate) ∧ SameMem s u)))
    ∧ (∀ (c : Canvas) (missed : List (Fin 4096)), let x := s.canvas c
      (∀ fin : Bool, let out := Instr.canvasFrameOut c fin missed
        (s.frameDue c = false → nothing out)
        ∧ (s.frameDue c = true →
          Answers out s (((s.frameOut c fin).sliceFrame c).sendFirst c (missed.map Fin.val))))
      ∧ (∀ d : CanvasDef, x.now = some d → d.out.raster = 0 → x.sent = some d → x.seq = none → x.pend = [] → x.sigs = [] →
        (x.making = true → let u := s.frameOut c true
          (u.canvas c).newest = some x.fill ∧ (u.canvas c).fill = (x.fill + 1) % 3 ∧ (u.canvas c).buffers = x.buffers
          ∧ (u.canvas c).making = false ∧ (u.canvas c).outAt = none ∧ (u.canvas c).lastOut = some s.now
          ∧ (u.canvas c).now = some d ∧ Frame [] [.cmp, .ten] s u)
        ∧ (∃ t : State, s.frameOut c false = (t.raise 192).recharge c ∧ inc t CMP_OVERRUN CMP_OVERRUN_COUNT
          ∧ (t.canvas c).newest = x.newest ∧ (t.canvas c).buffers = x.buffers ∧ (t.canvas c).making = false
          ∧ (t.canvas c).outAt = none ∧ (t.canvas c).lastOut = some s.now ∧ Frame [CMP_OVERRUN] [.cmp] s t)))
    ∧ (∀ (c : Canvas) (r crc : Nat) (cfg : List Word), r < 256 → crc < 2 ^ 32 → (s.region r).learn = none →
      s.srState r = 1 →
      let n := min 4 (CMP_SR_STILL_EXPN.get (cfgWord cfg 3))
      let found : Prop := ∃ k, k < n ∧ (cfgWord cfg (4 + k)).toNat = crc
      let u := s.regionJudge c r crc cfg
      (n = 0 ∨ found → u.srState r = 1 ∧ u.srRun r = 0 ∧ (u.rd (CMP_SRW_CRC r)).toNat = crc
        ∧ Frame [CMP_SRW_CRC r, CMP_SRW_STAT r] [] s u)
      ∧ (n ≠ 0 → ¬found → u.srState r = 2 ∧ u.srRun r = min 255 (s.srRun r + 1) ∧ inc u CMP_SIGMISS CMP_SIGMISS_COUNT
        ∧ (u.rd (CMP_SRW_CRC r)).toNat = crc
        ∧ (max 1 (CMP_SR_CFG_MISS.get (cfgWord cfg 0)) ≤ s.srRun r + 1 → (u.region r).arm = true)))
    ∧ (∀ (c : Canvas) (r : Nat), r < 256 → s.bit (CMP_SRW_CFG r) CMP_SR_CFG_EN = true → (s.region r).arm = true →
      let u := s.regionBegin c r
      u.srState r = 3 ∧ (u.region r).arm = false ∧ inc u CMP_SUBST CMP_SUBST_COUNT)
    ∧ (∀ (c : Canvas) (i : Fin 32), ∃ t, Answers (.cmpLtpar c i) s (t.raise 198) ∧ Frame [] [.cmp] s t
        ∧ (Tbl.has (s.canvas c).layers i = true → i.val ∈ (t.canvas c).ltpar)
        ∧ (Tbl.has (s.canvas c).layers i = false → t = s))
    ∧ (s.pwr.barred = false →
      (∀ (k : Fin 8) (v : Word), let r := s.srIdx
        let a := srWord r k
        let write := Instr.cmpSrCfgWrite k v
        let wrote := (s.fieldWrite a v).mirror (.register (BitVec.ofNat 26 a) v)
        let locked := s.bit (CMP_SRW_CFG r) CMP_SR_CFG_LOCK
        let on := s.bit (CMP_SRW_CFG r) CMP_SR_CFG_EN
        let new := (writeFields false ((findReg a).elim [] (fun d => d.1.fields.map (fun f => (f.1, Access.rw)))) (s.rd a) v).1
        (locked = false → on = false → Answers write s wrote)
        ∧ (locked = false → on = true →
          Answers write s (wrote.srSet r (if wrote.srState r = 2 then 1 else wrote.srState r) 0))
        ∧ (locked = true → (new = s.rd a → nothing write) ∧ (new ≠ s.rd a → Answers write s (s.raise 480)))
        ∧ (locked = true → 3 < k.val → new = v))
      ∧ (∀ k : Fin 4, Gives (.learn k) s (fun u => (u.region s.srIdx).learn = some k.val
          ∧ (∀ r, r ≠ s.srIdx → u.region r = s.region r) ∧ Frame [] [.cmp] s u))
      ∧ (s.srState s.srIdx = 3 → Gives .clear s (fun u => u.region s.srIdx = { s.region s.srIdx with disarm := true }
          ∧ Frame [] [.cmp] s u))
      ∧ (s.srState s.srIdx ≠ 3 → nothing .clear)
      ∧ (∀ v : Word, let n := CMP_EN_IDX_ENGINE.get v
        Gives (.cmpEnIdx v) s (fun u => u.fld CMP_EN_STAT CMP_EN_STAT_LOAD = s.engineLoad n % 2 ^ 15
          ∧ u.fld CMP_EN_STAT CMP_EN_STAT_CANVASES = (s.cmp.canvases.filter (fun p =>
              p.2.charged.any (fun d => d.engine == n))).length % 2 ^ CMP_EN_STAT_CANVASES.width
          ∧ OnlyRegs [CMP_EN_IDX, CMP_EN_STAT] s u))
      ∧ (∀ v : Word, let c := CMP_CV_IDX_CANVAS.get v
        let q := ((s.allocOf (.canvas c)).map (fun a => a.charge)).getD Charge.zero
        Gives (.cmpCvIdx v) s (fun u => u.bit CMP_CV_STAT CMP_CV_STAT_DEFINED = (s.canvas c).now.isSome
          ∧ u.fld CMP_CV_STAT CMP_CV_STAT_ENGINE = ((s.canvas c).now.elim 0 (fun d => d.engine)) % 16
          ∧ u.bit CMP_CV_STAT CMP_CV_STAT_MIGRATING = s.canvasMigrating c
          ∧ (u.bit CMP_CV_STAT CMP_CV_STAT_SUBST = true ↔
            ∃ r < 256, s.fld (CMP_SRW_CFG r) CMP_SR_CFG_CANVAS = c ∧ s.srState r = 3)
          ∧ u.fld CMP_CV_STAT CMP_CV_STAT_LAYERS = (s.canvas c).layers.length % 64
          ∧ u.fld CMP_CV_STAT CMP_CV_STAT_EPOCH = (s.canvas c).epoch % 65536
          ∧ u.fld CMP_CV_LOAD CMP_CV_LOAD_PIX = q.cmppix % 2 ^ 14 ∧ u.fld CMP_CV_LOAD CMP_CV_LOAD_MEMBW = q.membw % 2 ^ 12
          ∧ u.fld CMP_CV_SURF CMP_CV_SURF_SURF = q.surf % 65536
          ∧ OnlyRegs [CMP_CV_IDX, CMP_CV_STAT, CMP_CV_LOAD, CMP_CV_SURF] s u))
      ∧ (let l := [CMP_EPDISC, CMP_OVERRUN, CMP_SIGMISS, CMP_SUBST, CMP_SLICELATE]
        Gives .cmpClrcnt s (fun u => (∀ a, a ∈ l → u.rd a = 0) ∧ OnlyRegs l s u)))

/-- FLOW_RX_DEF and FLOW_TX_DEF: rejections, a stop, a first definition and a change of a running flow. (R28, R104,
R107, R155, R162, R349, R353, R354, R356, R372, R374) -/
def Obligations.FlowDefinitions : Prop :=
  ∀ (t : Tenant) (r : CmdRing) (e : Entry) (pb : BlockRead) (s : State),
    let w := s.taken t r e pb
    let id := s.hif.nextId
    let m := w.mirrorCommand id
    let k := bitsAt e 8 0 12
    let on := bitsAt e 10 0 1
    let f := flowOf e (pb.block.getD 0)
    let g0 := flowOf e 0
    let b := w.blockRead id (bitsAt e 24 0 64) pb
    let aligned : Prop := bitsAt e 24 0 64 % 64 = 0
    (s.Takes 0x30 t r e →
      let go := Instr.flowRxDef t r e pb
      let x := s.rx k
      let ep := nextEpoch x.epoch
      let l := w.rxFlows.filter (fun x => x.1 != k) ++ [(k, f)]
      let checks := w.flowFormatChecks true k f pb.block
      (onlyFields e flowFields = false ∨ 2048 ≤ k → Answers go s (w.complete id .rejFormat 0 0))
      ∧ (onlyFields e flowFields = true → k < 2048 →
        (on = 0 → stopFormatBad e = true → Answers go s (w.complete id .rejFormat 0 0))
        ∧ (on = 0 → stopFormatBad e = false → s.ownerOf 2 k ≠ t → Answers go s (w.complete id .rejOwner 0 0))
        ∧ (on = 0 → stopFormatBad e = false → s.ownerOf 2 k = t → s.migOf 2 k = none → s.standby = false →
          (x.planned = none → Answers go s (m.complete id .ok 0 0))
          ∧ (∀ g, x.now = some g → x.next = none → x.lost = false → x.par = false →
            ∃ u, Answers go s (u.complete id .ok 0 ep) ∧ (u.rx k).now = some g ∧ (u.rx k).next = some none
              ∧ (u.rx k).epoch = ep ∧ (∀ j, j ≠ k → u.rx j = s.rx j) ∧ Frame [ESS_RXBUF, ESS_RXBW] [.ess] w u))
        ∧ (on = 1 → ¬aligned → g0.slice = false → (∀ c ∈ w.flowFormatChecks true k g0 none, c.1 = false) →
          s.ownerOf 2 k = t → Answers go s ((w.raise 323).complete id .misaligned 0 0))
        ∧ (on = 1 → aligned → pb.block = none → Answers go s (b.complete id .aborted 0 0))
        ∧ (on = 1 → aligned → pb.block ≠ none →
          (f.slice = true → Answers go s (b.complete id .rejFormat 0 0))
          ∧ (∀ (pre post : List (Bool × Status × Nat)) (st : Status) (res : Nat), f.slice = false →
            checks = pre ++ (true, st, res) :: post → (∀ c ∈ pre, c.1 = false) → Answers go s (b.complete id st res 0))
          ∧ (f.slice = false → (∀ c ∈ checks, c.1 = false) → s.ownerOf 2 k = t → s.migOf 2 k = none →
            (w.rxOver l = true → Answers go s (b.complete id .rejCapacity 7 0))
            ∧ (w.rxOver l = false → w.portOver true l f = false → w.rxHolder k f = none → w.keyHolder k f = none →
              s.standby = false → ∃ u, Answers go s (u.complete id .ok 0 ep) ∧ (u.rx k).epoch = ep
                ∧ (u.rx k).last = f.block ∧ (∀ j, j ≠ k → u.rx j = s.rx j)
                ∧ (x.now = none → (u.rx k).now = some f ∧ (u.rx k).next = none)
                ∧ (x.now ≠ none → x.lost = false → x.par = false →
                  (u.rx k).now = x.now ∧ (u.rx k).next = some (some f))
                ∧ (x.now = none ∨ (x.lost = false ∧ x.par = false) → Frame [ESS_RXBUF, ESS_RXBW] [.ess] b u))))))
    ∧ (s.Takes 0x31 t r e →
      let go := Instr.flowTxDef t r e pb
      let x := s.tx k
      let ep := nextEpoch x.epoch
      let checks := w.flowFormatChecks false k f pb.block
      let sameBase : Prop := f.slice = true → ∀ y, w.allSlices.find? (fun y => y.2.flow == k) = some y →
        ∀ z ∈ w.plannedSlices y.2.canvas, z.2.flow ≠ k → w.sliceTb z.2.flow = some (blkTb f.block)
      (onlyFields e flowFields = false → Answers go s (w.complete id .rejFormat 0 0))
      ∧ (onlyFields e flowFields = true →
        (on = 0 → stopFormatBad e = true → Answers go s (w.complete id .rejFormat 0 0))
        ∧ (on = 0 → stopFormatBad e = false → s.ownerOf 3 k ≠ t → Answers go s (w.complete id .rejOwner 0 0))
        ∧ (on = 0 → stopFormatBad e = false → s.ownerOf 3 k = t → s.migOf 1 k = none → s.standby = false →
          (x.planned = none → Answers go s (m.complete id .ok 0 0))
          ∧ (∀ g, x.now = some g → x.next = none → x.par = false → ∃ u, Answers go s (u.complete id .ok 0 ep)
            ∧ (s.noBoundary k = false → (u.tx k).now = some g ∧ (u.tx k).next = some none)
            ∧ (s.noBoundary k = true → (u.tx k).now = none ∧ (u.tx k).next = none) ∧ (u.tx k).epoch = ep
            ∧ (∀ j, j ≠ k → u.tx j = s.tx j) ∧ Frame [] [.ess] w u))
        ∧ (on = 1 → ¬aligned → (∀ c ∈ w.flowFormatChecks false k g0 none, c.1 = false) → g0.slice = false →
          s.ownerOf 3 k = t → s.ownsAll t 0 g0.tracks.1 g0.tracks.2 = true →
          Answers go s ((w.raise 323).complete id .misaligned 0 0))
        ∧ (on = 1 → aligned → pb.block = none → Answers go s (b.complete id .aborted 0 0))
        ∧ (on = 1 → aligned → pb.block ≠ none →
          (∀ (pre post : List (Bool × Status × Nat)) (st : Status) (res : Nat), checks = pre ++ (true, st, res) :: post →
            (∀ c ∈ pre, c.1 = false) → Answers go s (b.complete id st res 0))
          ∧ ((∀ c ∈ checks, c.1 = false) → ¬sameBase → Answers go s (b.complete id .rejFormat 7 0))
          ∧ ((∀ c ∈ checks, c.1 = false) → sameBase → s.ownerOf 3 k = t →
            s.ownsAll t 0 f.tracks.1 f.tracks.2 = true → s.migOf 1 k = none → w.txCrowded k f = false →
            w.portOver false (w.txFlows.filter (fun x => x.1 != k) ++ [(k, f)]) f = false → s.standby = false →
            ∃ u, Answers go s (u.complete id .ok 0 ep) ∧ (u.tx k).epoch = ep ∧ (u.tx k).last = f.block
              ∧ (∀ j, j ≠ k → u.tx j = s.tx j) ∧ Frame [] [.ess] b u
              ∧ (s.noBoundary k = true → (u.tx k).now = some f ∧ (u.tx k).next = none)
              ∧ (s.noBoundary k = false → x.par = false → (u.tx k).now = x.now ∧ (u.tx k).next = some (some f))))))

/-- Packets received and sent, playout, loss, membership and the views of the essence flows. (R350, R356, R357, R358,
R359, R360, R361, R363, R364, R366, R367, R368) -/
def Obligations.FlowPacketsAndLoss : Prop :=
  ∀ s : State,
    let nothing := fun (c : Instr) => Gives c s (OnlyRegs [] s)
    let inc := fun (u : State) (a : Nat) (f : Field) => u.fld a f = min (s.fld a f + 1) (2 ^ 32 - 1)
    (∀ (p : Port) (k : EssPacket), s.matchRx p k = none → let go := Instr.essPacketReceived p k
      let counts : Prop := s.matchMoved p k = false ∧ (k.kind = .essence ∨ k.kind = .other)
      (counts → Gives go s (fun u => inc u ESS_NOMATCH ESS_NOMATCH_COUNT ∧ OnlyRegs [ESS_NOMATCH] s u))
      ∧ (¬counts → nothing go))
    ∧ (∀ (p : Port) (k : EssPacket) (n leg : Nat) (f : Flow), s.matchRx p k = some (n, leg, f) →
      let go := Instr.essPacketReceived p k
      let x := s.rx n
      let counted := fun (u : State) => (u.rx n).pkt = min (x.pkt + 1) (2 ^ 32 - 1)
      let first := x.copies.find? (fun c => c.seq == k.seq)
      (badPacket f k = true → ∃ t, Answers go s (t.raise 100) ∧ inc t ESS_BADPKT ESS_BADPKT_COUNT
        ∧ OnlyRegs [ESS_BADPKT] s t)
      ∧ (badPacket f k = false → Answers go s (s.rxAccepted n leg f k))
      ∧ (badPacket f k = false → f.dual = false → f.type ≠ 1 → f.type ≠ 4 → k.endsFrame = false → leg = 0 →
        Gives go s (fun u => (u.rx n).legA = true ∧ (u.rx n).heardA = some s.now ∧ counted u ∧ (u.rx n).now = x.now
          ∧ (u.rx n).data.head? = some ⟨k.seq, k.rtpTime, k.payload⟩
          ∧ (∀ j, j ≠ n → u.rx j = s.rx j) ∧ Frame [] [.ess] s u))
      ∧ (badPacket f k = false → f.dual = false → f.type = 0 → f.fmt.high % 256 ≠ 0 → k.endsFrame = true → x.frames = 1 →
        x.phase = none → x.next = none → s.aligner f.track = Aligner.idle → s.fsa.syncs = [] → Gives go s (fun u =>
          (u.rx n).frames = 2 ∧ (u.rx n).lost = false ∧ (u.aligner f.track).mode = 1
          ∧ (u.aligner f.track).high = f.fmt.high ∧ Frame [] [.ess, .fsa] s u))
      ∧ (badPacket f k = false → f.dual = true → f.type ≠ 1 → f.type ≠ 4 →
        (first = none → k.endsFrame = false → Gives go s (fun u => counted u
          ∧ (u.rx n).copies.head? = some ⟨k.seq, packetCrc k, leg == 1, s.now⟩ ∧ Frame [] [.ess] s u))
        ∧ (∀ c, first = some c → c.legB ≠ (leg == 1) →
          (c.at_ + 1000 * blkSkewMax f.block < s.now → Gives go s (fun u => inc u ESS_LEGLATE ESS_LEGLATE_COUNT
            ∧ (u.rx n).pkt = x.pkt ∧ Frame [ESS_LEGLATE] [.ess] s u))
          ∧ (s.now ≤ c.at_ + 1000 * blkSkewMax f.block →
            (c.crc = packetCrc k → Gives go s (fun u => (u.rx n).pkt = x.pkt ∧ c ∉ (u.rx n).copies ∧ Frame [] [.ess] s u))
            ∧ (c.crc ≠ packetCrc k → Gives go s (fun u => inc u ESS_MISMATCH ESS_MISMATCH_COUNT
              ∧ (u.rx n).pkt = x.pkt ∧ c ∉ (u.rx n).copies ∧ SameMem s u))))))
    ∧ (∀ (n : Fin 2048) (b : Bool) (line : BitVec 11), (s.rx n).now = none → nothing (.playoutRelease n line b)
      ∧ nothing (.essRxlost n) ∧ nothing (.legloss n b) ∧ nothing (.membershipReport n b))
    ∧ (∀ (n : Fin 2048) (f : Flow), (s.rx n).now = some f → let x := s.rx n
      (∀ (line : BitVec 11) (whole : Bool), let play := Instr.playoutRelease n line whole
        (x.lost = true ∨ x.par = true → nothing play)
        ∧ (x.lost = false → x.par = false →
          (f.video = true → f.audio = false →
            (whole = true → Gives play s (fun u => u.rx n = { x with played := some (line.toNat, true) }
              ∧ Frame [] [.ess] s u))
            ∧ (whole = false → ∃ t, Answers play s (opErroredLine f.track line.toNat (t.raise 99))
              ∧ inc t ESS_LATE ESS_LATE_COUNT
              ∧ t.rx n = { x with played := some (line.toNat, false), frames := 0 } ∧ Frame [ESS_LATE] [.ess] s t))
          ∧ (f.video = false → f.audio = false → nothing play)
          ∧ (f.audio = true → Answers play s (s.playAudio n f)
            ∧ (x.due = none → nothing play)
            ∧ (∀ ts, x.due = some ts → let leaves := s.tickInstant f ts + blkPlayDly f.block
              (s.fullTime (blkTb f.block) < leaves → nothing play)
              ∧ (leaves ≤ s.fullTime (blkTb f.block) → x.next = none → x.data.any (fun d => d.ts == ts) = true →
                Gives play s (fun u => (u.rx n).played = some (ts.toNat, true)
                  ∧ (u.rx n).due = some (ts + if blkPt125 f.block then 6 else 48)
                  ∧ (u.rx n).data = x.data.filter (fun d => d.ts != ts) ∧ (u.rx n).now = some f ∧ Frame [] [.ess] s u))
              ∧ (leaves ≤ s.fullTime (blkTb f.block) → x.next = none → x.data.any (fun d => d.ts == ts) = false →
                ∃ t, Answers play s (t.raise 99) ∧ inc t ESS_LATE ESS_LATE_COUNT ∧ (t.rx n).played = some (ts.toNat, false)
                  ∧ (t.rx n).due = some (ts + if blkPt125 f.block then 6 else 48) ∧ Frame [ESS_LATE] [.ess] s t)))))
      ∧ (x.lost = true ∨ s.silent n f = false → nothing (.essRxlost n))
      ∧ (x.lost = false → s.silent n f = true → ∃ t, Answers (.essRxlost n) s (((t.raise 96).rxGone f).rxBoundary n)
        ∧ (t.rx n).lost = true ∧ (t.rx n).frames = 0 ∧ (f.dual = false → (t.rx n).legA = false) ∧ Frame [] [.ess] s t)
      ∧ (∀ b : Bool, let heard := if b then x.heardB else x.heardA
        let up := if b then x.legB else x.legA
        let waited : Prop := ∀ a, heard = some a →
          a + 1000000 * (if blkLegTo f.block = 0 then 10 else blkLegTo f.block) ≤ s.now
        (f.dual = false ∨ up = false ∨ ¬waited → nothing (.legloss n b))
        ∧ (f.dual = true → up = true → waited → ∃ t, Answers (.legloss n b) s
            ((t.event (s.ownerOf 2 n) 12 5 2 n x.epoch [n + (if b then 2 ^ 31 else 0), 0, 0, 0]).raise 97)
          ∧ (if b then (t.rx n).legB else (t.rx n).legA) = false ∧ Frame [] [.ess] s t))
      ∧ (∀ b : Bool, let leg := if b then 1 else 0
        let sent := if b then x.reportsB else x.reportsA
        (∀ g, leg ∈ f.legs → f.group leg = some g → sent < 2 → Gives (.membershipReport n b) s (fun u =>
          (u.rx n).joined = true ∧ (if b then (u.rx n).reportsB else (u.rx n).reportsA) = sent + 1
            ∧ .report (f.port leg) n g ∈ u.out ∧ Frame [] [.ess] s u))
        ∧ (leg ∉ f.legs ∨ f.group leg = none ∨ 2 ≤ sent → nothing (.membershipReport n b)))
      ∧ (∀ (p : Port) (g : McGroup), (p.val, g) ∈ f.groups → Gives (.membershipQuery p g.ipv6) s (fun u =>
        .report p n g ∈ u.out ∧ (u.rx n).joined = true)))
    ∧ (∀ (p : Port) (mld : Bool), Gives (.membershipQuery p mld) s (Frame [] [.ess] s))
    ∧ (∀ k : Fin 4096, let lostBy := Instr.essFtpar
      ((s.rx k).now = none → Answers (lostBy false k) s (s.raise 103))
      ∧ ((s.rx k).now ≠ none → ∃ t : State, Answers (lostBy false k) s (t.raise 103) ∧ (t.rx k).par = true ∧ (t.rx k).lost = true)
      ∧ ((s.tx k).now = none → Answers (lostBy true k) s (s.raise 103))
      ∧ ((s.tx k).now ≠ none → ∃ t : State, Answers (lostBy true k) s (t.raise 103) ∧ (t.tx k).par = true ∧ Frame [] [.ess] s t))
    ∧ (∀ (k : Fin 4096) (ready second : Bool) (data : List Byte) (anc : List AncPacket), let x := s.tx k
      let go := Instr.txPacketInstant k ready second data anc
      (x.now = none → nothing go)
      ∧ (∀ f : Flow, x.now = some f → f.audio = false ∨ x.next = none →
        let fed : Bool := if f.slice then s.hasSlice k && x.sent != 0 else if f.video then x.match_ else f.type != 1
        let p := s.nextPacket k f second data anc
        let up := fun (l : Nat) => s.portUp (f.port l) = true
        (x.par = true ∨ fed = false ∨ s.sending = false ∨ p.1 = none → nothing go)
        ∧ (∀ q, x.par = false → fed = true → s.sending = true → p.1 = some q →
          (f.type = 0 → q.seq = x.seq % 2 ^ 32
            ∧ (f.slice = false → q.payload = data.take (q.length.getD 0))
            ∧ (x.sent = 0 → q.ts = BitVec.ofInt 32 (x.frameAt * 90000 / 1000000000)))
          ∧ (f.audio = true → f.slice = false →
            q.ts = BitVec.ofInt 32 (((s.fullTime (blkTb f.block) : Int) - blkTrofs f.block
              - (if blkPt125 f.block then 125000 else 1000000)) * 48000 / 1000000000))
          ∧ Gives go s (fun u => (u.tx k).seq = x.seq % 2 ^ 32 + 1 ∧ (u.tx k).sent = x.sent + 1
            ∧ (∀ j, j ≠ k.val → u.tx j = s.tx j)
            ∧ (s.standby = true → (u.tx k).pkt = x.pkt)
            ∧ (s.standby = false → (u.tx k).pkt = min (x.pkt + 1) (2 ^ 32 - 1)
              ∧ ∀ l ∈ f.legs, up l → .packet (s.legHeader f l) q ∈ u.out)
            ∧ (ready = true ∨ s.mayBeLate f = false → Frame [] [.ess, .mac] s u
              ∧ ((∀ l ∈ f.legs, up l) → Frame [] [.ess] s u))
            ∧ (ready = false → s.mayBeLate f = true → inc u ESS_TXLATE ESS_TXLATE_COUNT)))))
    ∧ (∀ (c i k : Nat) (f : Flow) (q : SentPacket) (missed : List Nat), s.firstPackets c = [(i, k, f, q)] → f.dual = false →
      s.standby = false → s.portUp (f.port 0) = true →
      let u := s.sendFirst c missed
      k ∈ (u.port (f.port 0)).ahead ∧ .packet (s.legHeader f 0) q ∈ u.out
        ∧ (i ∉ missed ∨ s.windowMet [(i, k, f, q)] (f.port 0) = true → Frame [] [.ess, .mac] s u)
        ∧ (i ∈ missed → s.windowMet [(i, k, f, q)] (f.port 0) = false → inc u CMP_SLICELATE CMP_SLICELATE_COUNT))
    ∧ (s.pwr.barred = false →
      (∀ v : Word, let x := s.rx (ESS_FR_IDX_FLOW.get v)
        Gives (.essFrIdx v) s (fun u => u.bit ESS_FR_STAT ESS_FR_STAT_EN = x.planned.isSome
          ∧ u.bit ESS_FR_STAT ESS_FR_STAT_DUAL = x.planned.any (fun f => f.dual)
          ∧ u.bit ESS_FR_STAT ESS_FR_STAT_LEGA = x.legA ∧ u.bit ESS_FR_STAT ESS_FR_STAT_LEGB = x.legB
          ∧ u.bit ESS_FR_STAT ESS_FR_STAT_LOST = x.lost ∧ u.bit ESS_FR_STAT ESS_FR_STAT_JOINED = x.joined
          ∧ u.fld ESS_FR_STAT ESS_FR_STAT_EPOCH = x.epoch % 65536 ∧ u.fld ESS_FR_PKT ESS_FR_PKT_COUNT = x.pkt % 2 ^ 32
          ∧ u.fld ESS_FR_MIS ESS_FR_MIS_COUNT = x.mis % 2 ^ 32
          ∧ OnlyRegs [ESS_FR_IDX, ESS_FR_STAT, ESS_FR_PKT, ESS_FR_MIS] s u))
      ∧ (∀ v : Word, let x := s.tx (ESS_FT_IDX_FLOW.get v)
        Gives (.essFtIdx v) s (fun u => u.bit ESS_FT_STAT ESS_FT_STAT_EN = x.planned.isSome
          ∧ u.fld ESS_FT_PKT ESS_FT_PKT_COUNT = x.pkt % 2 ^ 32 ∧ u.fld ESS_FT_SEQ ESS_FT_SEQ_SEQ = (x.seq - 1) % 2 ^ 32
          ∧ (∀ f : Flow, x.planned = some f → u.bit ESS_FT_STAT ESS_FT_STAT_DUAL = f.dual
              ∧ u.bit ESS_FT_STAT ESS_FT_STAT_SLICE = f.slice ∧ u.fld ESS_FT_STAT ESS_FT_STAT_PORTA = f.port 0 % 64
              ∧ u.fld ESS_FT_STAT ESS_FT_STAT_PORTB = (if f.dual then f.port 1 else 0) % 64)
          ∧ OnlyRegs [ESS_FT_IDX, ESS_FT_STAT, ESS_FT_SEQ, ESS_FT_PKT] s u))
      ∧ (let l := [ESS_EPDISC, ESS_NOMATCH, ESS_MISMATCH, ESS_PREFLATE, ESS_LEGLATE, ESS_LATE, ESS_BADPKT, ESS_TXLATE,
          ESS_FMTMIS]
        Gives .essClrcnt s (fun u => (∀ a, a ∈ l → u.rd a = 0) ∧ (∀ k, (u.rx k).pkt = 0 ∧ (u.rx k).mis = 0
          ∧ (u.rx k).now = (s.rx k).now ∧ (u.tx k).pkt = 0 ∧ (u.tx k).seq = (s.tx k).seq) ∧ Frame l [.ess] s u)))

/-- Audio maps wait for their sample, ports restart, mutes stick, and the audio views and counters. (R153, R154, R162,
R426, R428, R429, R430, R432, R436, R437, R440, R441) -/
def Obligations.AudioMapsAndPorts : Prop :=
  (∀ (t : Tenant) (r : CmdRing) (e : Entry) (s : State),
      let w := s.taken t r e ⟨none, 0⟩
      let id := s.hif.nextId
      let m := w.mirrorCommand id
      let map := Instr.audMap t r e
      let port := Instr.audPort t r e
      let d := bitsAt e 8 0 13
      let src := if bitsAt e 12 0 1 = 1 then silence else bitsAt e 10 0 13
      let wait := if bitsAt e 14 0 16 = 0 then max 1 (s.fld AUD_CTRL AUD_CTRL_ZCTO) else bitsAt e 14 0 16
      let p := bitsAt e 8 0 3
      (s.Takes 0x20 t r e →
        (onlyFields e mapFields = false ∨ 8064 ≤ d ∨ (8072 ≤ src ∧ src ≤ 8189) → Answers map s (w.complete id .rejFormat 0 0))
        ∧ (onlyFields e mapFields = true → d < 8064 → src < 8072 ∨ 8189 < src →
          (s.ownerOf 4 d ≠ t → Answers map s (w.complete id .rejOwner 0 0))
          ∧ (s.ownerOf 4 d = t → s.standby = false →
            (Tbl.find? s.aud.pend d = none → s.mapOf d = src → d ∉ s.aud.par → Answers map s (m.complete id .ok 2 0))
            ∧ (∀ x, Tbl.find? s.aud.pend d = some x → s.mapOf d = src → d ∉ s.aud.par → ∃ u : State,
              Answers map s (u.complete id .ok 2 0) ∧ Tbl.find? u.aud.pend d = none ∧ u.inflightOf x.cmd = none
                ∧ u.mapOf d = src)
            ∧ (s.mapOf d ≠ src ∨ d ∈ s.aud.par → Gives map s (fun u =>
              Tbl.find? u.aud.pend d = some ⟨src, bitsAt e 12 1 1 == 1, wait, id, s.now⟩ ∧ u.mapOf d = s.mapOf d
                ∧ (∀ x, Tbl.find? s.aud.pend d = some x → u.inflightOf x.cmd = none)
                ∧ (Tbl.find? s.aud.pend d = none → Frame [] [.aud] w u))))))
      ∧ (s.Takes 0x21 t r e → let fs := bitsAt e 12 0 32
        let st := AUD_TDM_STAT p
        let good : Prop := onlyFields e portFields = true ∧ bitsAt e 10 0 2 ≠ 3 ∧ (fs = 48000 ∨ fs = 96000)
        (¬good → Answers port s (w.complete id .rejFormat 0 0))
        ∧ (good → s.ownerOf 6 p ≠ t → Answers port s (w.complete id .rejOwner 0 0))
        ∧ (good → s.ownerOf 6 p = t → bitsAt e 9 2 1 = 1 → s.bit st AUD_TDM_STAT_AMPFLT = true →
          Answers port s (w.complete id .busy 0 0))
        ∧ (good → s.ownerOf 6 p = t → bitsAt e 9 2 1 = 0 ∨ s.bit st AUD_TDM_STAT_AMPFLT = false → s.standby = false →
          ∃ u, Answers port s (u.complete id .ok 0 0)
            ∧ u.bit st AUD_TDM_STAT_ENABLED = (bitsAt e 9 0 1 == 1)
            ∧ u.bit st AUD_TDM_STAT_MASTER = (bitsAt e 9 1 1 == 1)
            ∧ u.bit st AUD_TDM_STAT_LOCKED = (bitsAt e 9 0 1 == 1 && bitsAt e 9 1 1 == 1)
            ∧ u.bit st AUD_TDM_STAT_MUTED = (bitsAt e 9 2 1 == 0 && s.bit st AUD_TDM_STAT_MUTED)
            ∧ Tbl.find? u.aud.ports p = some ⟨bitsAt e 10 0 2, fs⟩ ∧ u.aud.maps = s.aud.maps
            ∧ (bitsAt e 9 0 1 = 0 → .tdm p .floats ∈ u.out)
            ∧ (bitsAt e 9 0 1 = 1 → bitsAt e 9 1 1 = 1 → let c : TdmCfg := ⟨bitsAt e 10 0 2, fs⟩
              .tdm p (.clocks c.bck c.slots) ∈ u.out)
            ∧ Frame [st, PWR_DOMSTAT] [.aud] w u)))
    ∧ (∀ s : State, let nothing := fun (c : Instr) => Gives c s (OnlyRegs [] s)
      let inc := fun (u : State) (a : Nat) (f : Field) => u.fld a f = min (s.fld a f + 1) (2 ^ 32 - 1)
      let applied := fun (d : Nat) (x : AudPend) (u : State) => u.mapOf d = x.src ∧ Tbl.find? u.aud.pend d = none
        ∧ (∀ j, j ≠ d → u.mapOf j = s.mapOf j) ∧ Frame [] [.aud] s u
      (∀ (d : AudDst) (a b c : BitVec 24) (x y z : Bool), Tbl.find? s.aud.pend d = none →
        nothing (.audMapChange d a b c x y z) ∧ nothing (.audZcto d))
      ∧ (∀ (d : AudDst) (x : AudPend), Tbl.find? s.aud.pend d = some x →
        (x.nowait = true → nothing (.audZcto d) ∧ ∀ (a b c : BitVec 24) (i j k : Bool), ∃ u,
          Answers (.audMapChange d a b c i j k) s (u.complete x.cmd .ok 2 0) ∧ applied d x u)
        ∧ (x.nowait = false → ∀ (a b c : BitVec 24) (i j k : Bool),
          let oldLive := s.audLive (s.audSource d)
          let newLive := s.audLive x.src
          let data : Prop := (oldLive = true ∧ i = true) ∨ (newLive = true ∧ j = true)
          let good : Bool := (!oldLive || crosses a.toInt b.toInt)
            && (!newLive || belowThreshold (s.fld AUD_CTRL AUD_CTRL_ZCTHR) c.toInt)
          let change := Instr.audMapChange d a b c i j k
          (data → k = true → ∃ u, Answers change s (u.complete x.cmd .ok 1 0) ∧ applied d x u)
          ∧ (data → k = false → nothing change)
          ∧ (¬data → good = false → nothing change)
          ∧ (¬data → good = true → ∃ u, Answers change s (u.complete x.cmd .ok 0 0) ∧ applied d x u))
        ∧ (x.nowait = false → ∃ u, Answers (.audZcto d) s
            (((u.complete x.cmd .ok 3 0).inc AUD_ZCTO AUD_ZCTO_COUNT).raise 225) ∧ applied d x u))
      ∧ (∀ n : DeEmb, s.deOn n = false → nothing (.audSlip n) ∧ nothing (.audDeerr n))
      ∧ (∀ n : DeEmb, s.deOn n = true →
        ((s.aligner (s.fld (AUD_DEW_CFG n) AUD_DE_CFG_SRC)).mode = 3 → ∃ t, Answers (.audSlip n) s (t.raise 226)
          ∧ inc t AUD_SLIP AUD_SLIP_COUNT ∧ OnlyRegs [AUD_SLIP] s t)
        ∧ ((s.aligner (s.fld (AUD_DEW_CFG n) AUD_DE_CFG_SRC)).mode ≠ 3 → nothing (.audSlip n))
        ∧ ∃ t, Answers (.audDeerr n) s (t.raise 227) ∧ inc t AUD_DEERR AUD_DEERR_COUNT ∧ OnlyRegs [AUD_DEERR] s t)
      ∧ (∀ (p : TdmPort) (q : BitVec 16), let st := AUD_TDM_STAT p
        (s.follower p = false → nothing (.tdmLock p q) ∧ nothing (.audTdmunl p))
        ∧ (500 < q.toInt.natAbs → nothing (.tdmLock p q))
        ∧ (s.follower p = true → q.toInt.natAbs ≤ 500 → Gives (.tdmLock p q) s (fun u => u.bit st AUD_TDM_STAT_LOCKED = true
          ∧ u.fld st AUD_TDM_STAT_PPM = q.toNat ∧ OnlyRegs [st] s u))
        ∧ (s.follower p = true → s.bit st AUD_TDM_STAT_LOCKED = false → nothing (.audTdmunl p))
        ∧ (s.follower p = true → s.bit st AUD_TDM_STAT_LOCKED = true → ∃ t, Answers (.audTdmunl p) s (t.raise 228)
          ∧ t.bit st AUD_TDM_STAT_LOCKED = false ∧ OnlyRegs [st] s t)
        ∧ Gives (.audAmpflt p false) s (fun u => u.bit st AUD_TDM_STAT_AMPFLT = false
          ∧ u.bit st AUD_TDM_STAT_MUTED = s.bit st AUD_TDM_STAT_MUTED ∧ OnlyRegs [st] s u)
        ∧ (s.ampMuted p = true → Gives (.audAmpflt p true) s (fun u => u.bit st AUD_TDM_STAT_AMPFLT = true
          ∧ u.bit st AUD_TDM_STAT_MUTED = true ∧ OnlyRegs [st] s u))
        ∧ (s.ampMuted p = false → ∃ t, Answers (.audAmpflt p true) s
            ((t.tellOwner (s.ownerOf 6 p) 12 3 6 p 0 [p, 0, 0, 0]).raise 224)
          ∧ t.bit st AUD_TDM_STAT_MUTED = true ∧ t.bit st AUD_TDM_STAT_AMPFLT = true ∧ inc t AUD_AMPCNT AUD_AMPCNT_COUNT
          ∧ OnlyRegs [st, AUD_AMPCNT] s t))
      ∧ (∀ d : AudDst, ∃ t, Answers (.audMappar d) s (t.raise 229) ∧ t.audSource d = silence ∧ t.mapOf d = s.mapOf d
        ∧ Frame [] [.aud] s t)
      ∧ (s.pwr.barred = false → ∀ v : Word, let d := AUD_MAP_IDX_DST.get v
        Gives (.audMapIdx v) s (fun u => u.fld AUD_MAP_DATA AUD_MAP_DATA_SRC = s.mapOf d % 8192
          ∧ u.bit AUD_MAP_DATA AUD_MAP_DATA_MAPPED = (s.mapOf d != silence)
          ∧ u.bit AUD_MAP_DATA AUD_MAP_DATA_PEND = (Tbl.find? s.aud.pend d).isSome
          ∧ u.fld AUD_MAP_DATA AUD_MAP_DATA_PSRC = ((Tbl.find? s.aud.pend d).elim 0 (fun x => x.src)) % 8192
          ∧ OnlyRegs [AUD_MAP_IDX, AUD_MAP_DATA] s u)
        ∧ Gives (.audDeIdx v) s (fun u => let n := AUD_DE_IDX_DE.get v
          u.bit AUD_DE_STAT AUD_DE_STAT_NOAUD = s.deNoAud n
          ∧ (s.audLive (16 * n) = false → u.fld AUD_DE_STAT AUD_DE_STAT_GROUPS = 0
              ∧ u.bit AUD_DE_STAT AUD_DE_STAT_ASYNC = false)
          ∧ OnlyRegs [AUD_DE_IDX, AUD_DE_STAT] s u))
      ∧ (s.pwr.barred = false → let l := [AUD_ZCTO, AUD_SLIP, AUD_DEERR, AUD_AMPCNT]
        Gives .audClrcnt s (fun u => (∀ a, a ∈ l → u.rd a = 0) ∧ OnlyRegs l s u)))

/-- SALVO_OPEN of a free slot and GROUP with NODES 0 opens an empty slot and completes OK; an occupied slot or GROUP
is BUSY, the 65th salvo REJ_CAPACITY 5 (a committing one counts: the model's choice, log entry 28). SALVO_COMMIT of a
slot that is not open is BUSY, with an entry on another tenant's object REJ_OWNER; of an open one of NODES 0 with no
PREPARE held it starts preparing with its base, time and number, or where the time has passed fails LATE. SALVO_ABORT
of a slot that is not there completes OK, of an open one closes it, of one that prepares ends it ABORTED too, of an
armed one is BUSY. When preparation ends in time the entries are armed (stated without layer entries), else the salvo
fails LATE, as at the local deadline; a failure closes the slot, completes the command and raises 352. Deadlines of a
group that no slot uses only forget its held PREPARE, refused LATE. (R147, R148, R162, R208, R209, R213, R214, R215,
R216, R223, R225) -/
def Obligations.SalvosOfOneChip : Prop :=
  (∀ (t : Tenant) (r : CmdRing) (e : Entry) (s : State),
      let w := s.taken t r e ⟨none, 0⟩
      let id := s.hif.nextId
      let m := w.mirrorCommand id
      let k := 4 * t.val + bitsAt e 8 0 2
      let g := BitVec.ofNat 32 (bitsAt e 12 0 32)
      let slot := Tbl.find? s.sal.slots k
      let openFields : List (Nat × Nat × Nat) := [(8, 0, 2), (9, 0, 4), (12, 0, 32)]
      let commitFields : List (Nat × Nat × Nat) := [(8, 0, 2), (8, 4, 1), (9, 0, 2), (12, 0, 32)]
      (s.Takes 0x03 t r e → let go := Instr.salvoOpen t r e
        (onlyFields e openFields = false → Answers go s (w.complete id .rejFormat 0 0))
        ∧ (onlyFields e openFields = true → bitsAt e 9 0 4 = 0 →
          (64 ≤ s.sal.slots.length → Answers go s (w.complete id .rejCapacity 5 0))
          ∧ (s.sal.slots.length < 64 → slot ≠ none ∨ s.groupSlot g ≠ none → Answers go s (w.complete id .busy 0 0))
          ∧ (s.sal.slots.length < 64 → slot = none → s.groupSlot g = none → s.standby = false →
            ∃ u, Answers go s (u.complete id .ok 0 0)
              ∧ (∃ x, Tbl.find? u.sal.slots k = some x ∧ x.stage = 0 ∧ x.entries = [] ∧ x.group = g ∧ x.nodes = 0)
              ∧ (∀ j, j ≠ k → Tbl.find? u.sal.slots j = Tbl.find? s.sal.slots j) ∧ Frame [] [.sal] w u)))
      ∧ (s.Takes 0x04 t r e → let go := Instr.salvoCommit t r e
        (onlyFields e commitFields = false → Answers go s (w.complete id .rejFormat 0 0))
        ∧ (onlyFields e commitFields = true → slot = none → Answers go s (w.complete id .busy 0 0))
        ∧ (onlyFields e commitFields = true → ∀ x : Salvo, slot = some x →
          (w.ownsSalvo t x = false → Answers go s (w.complete id .rejOwner 0 0))
          ∧ (w.ownsSalvo t x = true → x.stage ≠ 0 → Answers go s (w.complete id .busy 0 0))
          ∧ (w.ownsSalvo t x = true → x.stage = 0 → s.standby = false → x.shed = false → x.nodes = 0 → s.sal.held = [] →
            (∀ due, s.dueTime (bitsAt e 9 0 2) (bitsAt e 12 0 32) = some due → Gives go s (fun u =>
              ∃ y, Tbl.find? u.sal.slots k = some y ∧ y.stage = 1 ∧ y.cmd = id ∧ y.due = due ∧ y.tb = bitsAt e 9 0 2
                ∧ y.entries = x.entries ∧ y.count = x.entries.length ∧ Frame [] [.sal] w u))
            ∧ (s.dueTime (bitsAt e 9 0 2) (bitsAt e 12 0 32) = none → ∃ u, Answers go s (u.failSalvo k .late)
              ∧ Frame [] [.sal] w u))))
      ∧ (s.Takes 0x05 t r e → let go := Instr.salvoAbort t r e
        (onlyFields e [(8, 0, 2)] = false → Answers go s (w.complete id .rejFormat 0 0))
        ∧ (onlyFields e [(8, 0, 2)] = true → s.standby = false →
          (slot = none → Answers go s (m.complete id .ok 0 0))
          ∧ (∀ x : Salvo, slot = some x →
            (x.stage = 3 → Answers go s (w.complete id .busy 0 0))
            ∧ (x.stage = 0 → Answers go s ((m.closeSlot k x).complete id .ok 0 0)
              ∧ Tbl.find? (m.closeSlot k x).sal.slots k = none)
            ∧ (x.stage = 1 → x.nodes = 0 → Answers go s ((m.failSalvo k .aborted).complete id .ok 0 0))))))
    ∧ (∀ (t : Tenant) (j : Fin 4) (s : State), let k := 4 * t.val + j.val
      let done := Instr.salvoPrepareDone t j
      let deadline := Instr.salvoLocalDeadline t j
      (Tbl.find? s.sal.slots k = none → Gives done s (OnlyRegs [] s) ∧ Gives deadline s (OnlyRegs [] s))
      ∧ (∀ x : Salvo, Tbl.find? s.sal.slots k = some x →
        (x.stage ≠ 1 → Gives done s (OnlyRegs [] s) ∧ Gives deadline s (OnlyRegs [] s))
        ∧ (x.stage = 1 → x.nodes ≠ 0 → Gives deadline s (OnlyRegs [] s))
        ∧ (x.stage = 1 → x.shed = true → Answers done s (s.shedSalvo k))
        ∧ (x.stage = 1 → x.nodes = 0 → Answers deadline s (s.failSalvo k .late)
          ∧ (x.shed = false →
            (s.before x 10000 = true → x.entries ≠ [] → x.canvases = [] → Gives done s (fun u =>
              Tbl.find? u.sal.slots k = some { x with stage := 3 } ∧ Frame [] [.sal] s u))
            ∧ (s.before x 10000 = false → Answers done s (s.failSalvo k .late))))))
    ∧ (∀ (k : Nat) (x : Salvo) (st : Status) (s : State), Tbl.find? s.sal.slots k = some x →
      ∃ u : State, s.failSalvo k st = (u.complete x.cmd st 0 0).raise 352 ∧ Tbl.find? u.sal.slots k = none
        ∧ (∀ j, j ≠ k → Tbl.find? u.sal.slots j = Tbl.find? s.sal.slots j) ∧ Frame [] [.sal, .ten] s u)
    ∧ (∀ (g : Word) (a : BitVec 4) (s : State), s.groupSlot g = none →
      Gives (.salvoDecisionDeadline g) s (fun u => u.sal.held = s.sal.held.filter (fun p => p.group != g)
        ∧ u.sal.slots = s.sal.slots ∧ Frame [] [.sal, .blk] s u
        ∧ (∀ p, s.sal.held = [p] → p.group = g → p.cancel = none → s.hasPath p.src = true →
          .msg p.src (.refuse g .late) ∈ u.out))
      ∧ Gives (.salvoApplyDeadline g a) s (OnlyRegs [] s))

/-- Messages of a cross-chip salvo, and the stages of a migration. (R217, R218, R219, R220, R222, R223, R227, R228,
R229, R230, R231, R273) -/
def Obligations.SalvosAcrossNodesAndMigration : Prop :=
  (∀ (n : Node) (g time f : Word) (tb : Tb) (nodes : BitVec 4) (s : State), s.groupSlot g = none →
      let go := Instr.prepare n g tb time nodes f
      let open_ := s.sal.held.filter (fun q => (s.groupSlot q.group).isNone)
      (open_.length < 64 → Gives go s (fun u =>
        u.sal.held = s.sal.held.filter (fun q => q.group != g) ++ [⟨n, g, tb, time, nodes.toNat, f.toNat, none⟩]
          ∧ u.sal.slots = s.sal.slots ∧ Frame [] [.sal] s u))
      ∧ (64 ≤ open_.length → Answers go s (s.send n (.refuse g .aborted)))
      ∧ (∀ (c : BitVec 13) (r : SalvoReason), Gives (.ready n g f c) s (OnlyRegs [] s) ∧ Gives (.refuse n g r) s (OnlyRegs [] s)
        ∧ Gives (.commit n g f) s (OnlyRegs [] s)))
    ∧ (∀ (g : Word) (k : Nat) (x : Salvo) (s : State), s.groupSlot g = some (k, x) → Tbl.find? s.sal.slots k = some x →
      (∀ (n : Node) (f : Word) (c : BitVec 13),
        (x.coord = false ∨ x.stage ≠ 2 ∨ x.nodes.testBit n = false → Gives (.ready n g f c) s (OnlyRegs [] s))
        ∧ (x.coord = true → x.stage = 2 → x.nodes.testBit n = true →
          (∃ m, m ∈ s.peersOf x.nodes ∧ m ∉ x.readyFrom ∧ m ≠ n) → Gives (.ready n g f c) s (fun u =>
            (∃ y, Tbl.find? u.sal.slots k = some y ∧ n.val ∈ y.readyFrom ∧ y.f = max x.f f.toNat ∧ y.stage = 2)
            ∧ Frame [] [.sal] s u))
        ∧ (x.coord = true → x.stage = 2 → x.nodes.testBit n = true → n.val ∉ x.readyFrom →
          (∀ m ∈ s.peersOf x.nodes, m ∈ x.readyFrom ∨ m = n) → s.before { x with f := max x.f f.toNat } 1000000 = true →
          x.entries ≠ [] → Gives (.ready n g f c) s (fun u =>
            (∃ y, Tbl.find? u.sal.slots k = some y ∧ y.stage = 3 ∧ y.entries = x.entries) ∧ Frame [] [.sal] s u)))
      ∧ (∀ (n : Node) (r : SalvoReason),
        (x.coord = false ∨ x.stage = 0 ∨ 3 ≤ x.stage → Gives (.refuse n g r) s (OnlyRegs [] s))
        ∧ (x.coord = true → x.stage = 1 ∨ x.stage = 2 →
          Answers (.refuse n g r) s (s.cancelSalvo k (if r = .late then .late else .aborted)))
        ∧ (x.coord = false → x.nodes ≠ 0 → x.stage = 1 ∨ x.stage = 2 →
          Answers (.cancel n g r) s (s.failSalvo k (salvoStatus r)))
        ∧ (x.stage = 3 → Gives (.cancel n g r) s (OnlyRegs [] s)))
      ∧ (∀ (n : Node) (f : Word),
        (x.coord = true ∨ x.nodes = 0 ∨ x.stage ≠ 2 ∨ x.refused ≠ none → Gives (.commit n g f) s (OnlyRegs [] s))
        ∧ (x.coord = false → x.nodes ≠ 0 → x.stage = 2 → x.refused = none →
          (s.before { x with f := f.toNat } 10000 = false → Answers (.commit n g f) s (s.failSalvo k .linkLost))
          ∧ (s.before { x with f := f.toNat } 10000 = true → x.entries ≠ [] → Gives (.commit n g f) s (fun u =>
            Tbl.find? u.sal.slots k = some { x with stage := 3, f := f.toNat } ∧ Frame [] [.sal] s u))))
      ∧ (x.coord = false → x.nodes ≠ 0 → x.stage = 2 → x.refused = none → ∀ a : BitVec 4,
          Answers (.salvoApplyDeadline g a) s (s.failSalvo k .linkLost))
      ∧ (x.coord = true → x.nodes ≠ 0 → x.stage = 3 → x.missing = none → x.entries ≠ [] → ∀ a : BitVec 4,
          Gives (.salvoApplyDeadline g a) s (fun u => Tbl.find? u.sal.slots k = some { x with
            missing := some ((s.peersOf x.nodes).filter (fun n => !a.toNat.testBit n)).length } ∧ Frame [] [.sal] s u))
      ∧ (x.coord = true → x.stage = 1 ∨ x.stage = 2 → x.nodes ≠ 0 → (∀ p ∈ s.sal.held, p.group ≠ g) →
          let u := s.cancelSalvo k .late
          Answers (.salvoDecisionDeadline g) s (u.setHeld (u.sal.held.filter (fun p => p.group != g)))))
    ∧ (∀ (t : Tenant) (r : CmdRing) (e : Entry) (s : State), s.Takes 0x41 t r e →
      let w := s.taken t r e ⟨none, 0⟩
      let id := s.hif.nextId
      let m := w.mirrorCommand id
      let go := Instr.migrate t r e
      let kind := bitsAt e 8 0 2
      let target := bitsAt e 9 0 5
      let i := bitsAt e 10 0 12
      let time := bitsAt e 16 0 32
      (onlyFields e migrateFields = false ∨ kind = 3 → Answers go s (w.complete id .rejFormat 0 0))
      ∧ (onlyFields e migrateFields = true → kind = 0 → target < 16 → w.migExists 0 i = true →
        (s.ownerOf 1 i ≠ t → Answers go s (w.complete id .rejOwner 0 0))
        ∧ (s.ownerOf 1 i = t → s.migOf 0 i ≠ none ∨ w.canvasHeld i = true → Answers go s (w.complete id .rejLocked 0 0))
        ∧ (s.ownerOf 1 i = t → s.migOf 0 i = none → w.canvasHeld i = false →
          (w.migHome 0 i = target → s.standby = false → Answers go s (m.complete id .ok 0 (w.migEpoch 0 i)))
          ∧ (∀ x, w.migHome 0 i ≠ target → w.fenced (unitEngine target) = false → w.migOver 0 i target = some x →
            Answers go s (w.complete id .rejCapacity x 0))
          ∧ (w.migHome 0 i ≠ target → w.fenced (unitEngine target) = false → w.migOver 0 i target = none →
            unitEngine target ∉ s.bst.slicing → s.standby = false →
            (time = 0 → Gives go s (fun u => u.migOf 0 i = some ⟨id, t, target, bitsAt e 12 0 2, none, false⟩
                ∧ u.canvas i = s.canvas i ∧ Frame [PWR_DOMSTAT] [.sal] w u))
            ∧ (time ≠ 0 → s.dueTime (bitsAt e 12 0 2) time = none → Answers go s (m.complete id .late 0 0))))))
    ∧ (∀ (kind : Fin 3) (i : Fin 4096) (n : Nat) (s : State),
      let begin_ := Instr.migrateOverlapStart kind i
      let commit := Instr.migrateCommitBoundary kind i n
      (s.migOf kind i = none → Gives begin_ s (OnlyRegs [] s) ∧ Gives commit s (OnlyRegs [] s))
      ∧ (∀ m : Mig, s.migOf kind i = some m →
        (m.started = true ∨ s.migStarts kind i m = false → Gives begin_ s (OnlyRegs [] s))
        ∧ (m.started = false → s.migStarts kind i m = true → Gives begin_ s (fun u =>
          u.migOf kind i = some { m with started := true } ∧ Frame [] [.sal] s u
          ∧ (∀ f g, kind.val = 2 → s.migFlow 2 i = some f → f.group 0 = some g →
            .report (s.migPort m.target) i g ∈ u.out)))
        ∧ (m.started = false ∨ s.migReached m = false → Gives commit s (OnlyRegs [] s))
        ∧ (m.started = true → s.migReached m = true →
          (kind.val = 0 → ∃ u, Answers commit s (u.complete m.cmd .ok 0 (nextEpoch (s.canvas i).epoch))
            ∧ u.migOf kind i = none ∧ (u.canvas i).epoch = nextEpoch (s.canvas i).epoch
            ∧ (∀ d, (s.canvas i).now = some d → (u.canvas i).now = some { d with engine := m.target })
            ∧ u.fld CMP_EPDISC CMP_EPDISC_COUNT = min (s.fld CMP_EPDISC CMP_EPDISC_COUNT + 1) (2 ^ 32 - 1)
            ∧ Frame [CMP_EPDISC] [.sal, .cmp, .ten] s u)
          ∧ (∀ f, kind.val = 1 → (s.tx i).now = some f →
            ∃ u, Answers commit s (u.complete m.cmd .ok 0 (nextEpoch (s.tx i).epoch)) ∧ u.migOf kind i = none
              ∧ (u.tx i).now = some (f.moved (s.migPort m.target)) ∧ (u.tx i).epoch = nextEpoch (s.tx i).epoch
              ∧ u.fld ESS_EPDISC ESS_EPDISC_COUNT = min (s.fld ESS_EPDISC ESS_EPDISC_COUNT + n) (2 ^ 32 - 1)
              ∧ Frame [ESS_EPDISC] [.sal, .ess] s u)
          ∧ (∀ f, kind.val = 2 → (s.rx i).now = some f →
            ∃ u, Answers commit s (u.complete m.cmd .ok 0 (nextEpoch (s.rx i).epoch)) ∧ u.migOf kind i = none
              ∧ (u.rx i).now = some (f.moved (s.migPort m.target)) ∧ (u.rx i).epoch = nextEpoch (s.rx i).epoch
              ∧ Frame [ESS_EPDISC] [.sal, .ess] s u))))

end
end

