-- ==== Sys2Proof/Laws/Tables.lean ====
section
/-! SUPPORT. Reading a table after an update, and the canonical form of tables, registers and package memory. -/

namespace Sys2Proof.Machine

open Sys2Proof

variable {α : Type}

@[simp] theorem withNat_eq (n : Nat) (f : Nat → α) : withNat n f = f n := by cases n <;> rfl

/-! ## Reads -/

@[simp] theorem Tbl.find?_put_same (t : Tbl α) (k : Nat) (v : α) : Tbl.find? (Tbl.put t k v) k = some v := by
  induction t with
  | nil => simp [Tbl.put, Tbl.find?]
  | cons a t ih =>
    simp only [Tbl.put]
    split
    · simp [Tbl.find?]
    · split
      · simp [Tbl.find?]
      · rename_i h
        simp only [Tbl.find?, ih, ite_eq_right_iff]
        exact fun e => absurd e.symm h

theorem Tbl.find?_put_other (t : Tbl α) {k j : Nat} (v : α) (h : j ≠ k) :
    Tbl.find? (Tbl.put t k v) j = Tbl.find? t j := by
  induction t with
  | nil => simp [Tbl.put, Tbl.find?, Ne.symm h]
  | cons a t ih =>
    simp only [Tbl.put]
    split
    · simp [Tbl.find?, Ne.symm h]
    · split
      · rename_i e
        subst e
        simp [Tbl.find?, Ne.symm h]
      · simp [Tbl.find?, ih]

@[simp] theorem Tbl.find?_del_same (t : Tbl α) (k : Nat) : Tbl.find? (Tbl.del t k) k = none := by
  induction t with
  | nil => rfl
  | cons a t ih =>
    simp only [Tbl.del]
    split
    · exact ih
    · rename_i h
      simp [Tbl.find?, h, ih]

theorem Tbl.find?_del_other (t : Tbl α) {k j : Nat} (h : j ≠ k) : Tbl.find? (Tbl.del t k) j = Tbl.find? t j := by
  induction t with
  | nil => rfl
  | cons a t ih =>
    simp only [Tbl.del]
    split
    · rename_i e
      simp [Tbl.find?, ih, e, Ne.symm h]
    · simp [Tbl.find?, ih]

@[simp] theorem Tbl.getD_put_same (t : Tbl α) (k : Nat) (v d : α) : Tbl.getD (Tbl.put t k v) k d = v := by
  simp [Tbl.getD]

theorem Tbl.getD_put_other (t : Tbl α) {k j : Nat} (v d : α) (h : j ≠ k) :
    Tbl.getD (Tbl.put t k v) j d = Tbl.getD t j d := by
  simp [Tbl.getD, Tbl.find?_put_other t v h]

@[simp] theorem Tbl.getD_putD_same [DecidableEq α] (t : Tbl α) (k : Nat) (v d : α) :
    Tbl.getD (Tbl.putD t k v d) k d = v := by
  unfold Tbl.putD
  split
  · rename_i h
    simp [Tbl.getD, h]
  · simp

theorem Tbl.getD_putD_other [DecidableEq α] (t : Tbl α) {k j : Nat} (v d d' : α) (h : j ≠ k) :
    Tbl.getD (Tbl.putD t k v d) j d' = Tbl.getD t j d' := by
  unfold Tbl.putD
  split
  · simp [Tbl.getD, Tbl.find?_del_other t h]
  · simp [Tbl.getD, Tbl.find?_put_other t v h]

theorem Tbl.find?_filter (t : Tbl α) (p : Nat → Bool) (k : Nat) :
    Tbl.find? (t.filter (fun e => p e.1)) k = if p k then Tbl.find? t k else none := by
  induction t with
  | nil => simp [Tbl.find?]
  | cons a t ih =>
    simp only [List.filter_cons]
    split
    · rename_i h
      simp only [Tbl.find?, ih]
      by_cases e : a.1 = k
      · subst e
        simp [h]
      · simp [e]
    · rename_i h
      rw [ih]
      by_cases e : a.1 = k
      · subst e
        simp [h]
      · simp [Tbl.find?, e]

/-! ## Canonical form -/

/-- Every key of the table is above `k`. -/
def Tbl.above (k : Nat) (t : Tbl α) : Prop := ∀ e ∈ t, k < e.1

theorem Tbl.rising_cons {a : Nat × α} {t : Tbl α} : Tbl.rising (a :: t) = true ↔ Tbl.above a.1 t ∧ Tbl.rising t = true := by
  induction t generalizing a with
  | nil => simp [Tbl.rising, Tbl.above]
  | cons b t ih =>
    simp only [Tbl.rising, Bool.and_eq_true, decide_eq_true_eq, ih]
    constructor
    · rintro ⟨h, hb, ht⟩
      refine ⟨?_, hb, ht⟩
      intro e he
      rcases List.mem_cons.1 he with rfl | he
      · exact h
      · exact Nat.lt_trans h (hb e he)
    · rintro ⟨h, hb, ht⟩
      exact ⟨h b (List.mem_cons_self ..), hb, ht⟩

theorem Tbl.mem_put {t : Tbl α} {k : Nat} {v : α} {e : Nat × α} (h : e ∈ Tbl.put t k v) : e = (k, v) ∨ e ∈ t := by
  induction t with
  | nil => simpa [Tbl.put] using h
  | cons a t ih =>
    simp only [Tbl.put] at h
    split at h
    · simpa using h
    · split at h
      · rcases List.mem_cons.1 h with h | h
        · exact .inl h
        · exact .inr (List.mem_cons_of_mem _ h)
      · rcases List.mem_cons.1 h with h | h
        · exact .inr (h ▸ List.mem_cons_self ..)
        · rcases ih h with h | h
          · exact .inl h
          · exact .inr (List.mem_cons_of_mem _ h)

theorem Tbl.rising_put {t : Tbl α} (k : Nat) (v : α) (h : Tbl.rising t = true) : Tbl.rising (Tbl.put t k v) = true := by
  induction t with
  | nil => rfl
  | cons a t ih =>
    obtain ⟨ha, ht⟩ := Tbl.rising_cons.1 h
    simp only [Tbl.put]
    split
    · rename_i hk
      refine Tbl.rising_cons.2 ⟨?_, h⟩
      intro e he
      rcases List.mem_cons.1 he with rfl | he
      · exact hk
      · exact Nat.lt_trans hk (ha e he)
    · split
      · rename_i e
        subst e
        exact Tbl.rising_cons.2 ⟨ha, ht⟩
      · refine Tbl.rising_cons.2 ⟨?_, ih ht⟩
        intro e he
        rcases Tbl.mem_put he with rfl | he
        · simp only
          omega
        · exact ha e he

theorem Tbl.mem_del {t : Tbl α} {k : Nat} {e : Nat × α} (h : e ∈ Tbl.del t k) : e ∈ t := by
  induction t with
  | nil => exact h
  | cons a t ih =>
    simp only [Tbl.del] at h
    split at h
    · exact List.mem_cons_of_mem _ (ih h)
    · rcases List.mem_cons.1 h with h | h
      · exact h ▸ List.mem_cons_self ..
      · exact List.mem_cons_of_mem _ (ih h)

theorem Tbl.rising_del {t : Tbl α} (k : Nat) (h : Tbl.rising t = true) : Tbl.rising (Tbl.del t k) = true := by
  induction t with
  | nil => rfl
  | cons a t ih =>
    obtain ⟨ha, ht⟩ := Tbl.rising_cons.1 h
    simp only [Tbl.del]
    split
    · exact ih ht
    · exact Tbl.rising_cons.2 ⟨fun e he => ha e (Tbl.mem_del he), ih ht⟩

theorem Tbl.rising_filter {t : Tbl α} (p : Nat × α → Bool) (h : Tbl.rising t = true) :
    Tbl.rising (t.filter p) = true := by
  induction t with
  | nil => rfl
  | cons a t ih =>
    obtain ⟨ha, ht⟩ := Tbl.rising_cons.1 h
    simp only [List.filter_cons]
    split
    · exact Tbl.rising_cons.2 ⟨fun e he => ha e (List.mem_filter.1 he).1, ih ht⟩
    · exact ih ht

/-! ## Package memory (R248) -/

theorem Memory.wf_nil : Memory.wf [] = true := rfl

/-- A byte written keeps the canonical form. -/
theorem Memory.wf_write {m : List Host.Cell} (a : Nat) (b : Byte) (h : Memory.wf m = true) :
    Memory.wf (Memory.write m a b) = true := by
  unfold Memory.write
  split
  · rename_i ha
    simp only [Memory.wf, Bool.and_eq_true, List.all_eq_true, bne_iff_ne, decide_eq_true_eq] at h ⊢
    unfold Tbl.putD
    split
    · exact ⟨Tbl.rising_del a h.1, fun e he => h.2 e (Tbl.mem_del he)⟩
    · rename_i hb
      refine ⟨Tbl.rising_put a b h.1, fun e he => ?_⟩
      rcases Tbl.mem_put he with rfl | he
      · exact ⟨hb, ha⟩
      · exact h.2 e he
  · exact h

/-- Bytes written keep the canonical form. -/
theorem Memory.wf_writes {m : List Host.Cell} (a : Nat) (l : List Byte) (h : Memory.wf m = true) :
    Memory.wf (Memory.writes m a l) = true := by
  induction l generalizing m a with
  | nil => exact h
  | cons b l ih => exact ih (a + 1) (Memory.wf_write a b h)

theorem Memory.read_write_same (m : List Host.Cell) {a : Nat} (b : Byte) (h : a < Memory.size) :
    Memory.read (Memory.write m a b) a = b := by
  simp [Memory.read, Memory.write, h]

theorem Memory.read_write_other (m : List Host.Cell) {a c : Nat} (b : Byte) (h : c ≠ a) :
    Memory.read (Memory.write m a b) c = Memory.read m c := by
  unfold Memory.write
  split
  · exact Tbl.getD_putD_other m b _ _ h
  · rfl

/-- Bytes outside those written read as before. -/
theorem Memory.read_writes_outside (m : List Host.Cell) (a : Nat) (l : List Byte) {c : Nat}
    (h : c < a ∨ a + l.length ≤ c) : Memory.read (Memory.writes m a l) c = Memory.read m c := by
  induction l generalizing m a with
  | nil => rfl
  | cons b l ih =>
    simp only [List.length_cons] at h
    simp only [Memory.writes]
    rw [ih _ _ (by omega), Memory.read_write_other m b (by omega)]

/-- A byte written reads back. -/
theorem Memory.read_writes_inside (m : List Host.Cell) (a : Nat) (l : List Byte) {i : Nat} (h : i < l.length)
    (hs : a + l.length ≤ Memory.size) : Memory.read (Memory.writes m a l) (a + i) = l[i] := by
  induction l generalizing m a i with
  | nil => simp at h
  | cons b l ih =>
    simp only [List.length_cons] at h hs
    simp only [Memory.writes]
    cases i with
    | zero =>
      rw [Memory.read_writes_outside _ _ _ (.inl (by omega)), Nat.add_zero, Memory.read_write_same m b (by omega)]
      rfl
    | succ i =>
      have e := ih (Memory.write m a b) (a + 1) (i := i) (by omega) (by omega)
      rw [show a + (i + 1) = a + 1 + i by omega, e]
      rfl

end Sys2Proof.Machine
end

