-- ==== Sys2Proof/Laws/Registers.lean ====
section
/-! SUPPORT. Reading a register or a field after a write (R6-R8). -/

namespace Sys2Proof.Machine

open Sys2Proof

/-! ## Fields -/

theorem Field.get_lt (f : Field) (w : Word) : f.get w < 2 ^ f.width := Nat.mod_lt _ (Nat.two_pow_pos _)

/-- The number that a written register holds before it is cut to 32 bits. -/
theorem Field.set_toNat (f : Field) (w : Word) (n : Nat) (h : f.lo + f.width ≤ 32) :
    (f.set w n).toNat = w.toNat % 2 ^ f.lo + 2 ^ f.lo * (n % 2 ^ f.width)
      + 2 ^ (f.lo + f.width) * (w.toNat / 2 ^ (f.lo + f.width)) := by
  unfold Field.set
  rw [BitVec.toNat_ofNat, Nat.mod_eq_of_lt]
  have h1 : w.toNat < 2 ^ 32 := w.isLt
  have h2 : w.toNat / 2 ^ (f.lo + f.width) < 2 ^ (32 - (f.lo + f.width)) := by
    rw [Nat.div_lt_iff_lt_mul (Nat.two_pow_pos _), ← Nat.pow_add]
    rwa [Nat.sub_add_cancel h]
  have h3 : w.toNat % 2 ^ f.lo < 2 ^ f.lo := Nat.mod_lt _ (Nat.two_pow_pos _)
  have h4 : n % 2 ^ f.width < 2 ^ f.width := Nat.mod_lt _ (Nat.two_pow_pos _)
  have h5 : 2 ^ f.lo * (n % 2 ^ f.width) + 2 ^ f.lo ≤ 2 ^ (f.lo + f.width) := by
    rw [Nat.pow_add, ← Nat.mul_succ]
    exact Nat.mul_le_mul_left _ h4
  have h6 : 2 ^ (f.lo + f.width) * (w.toNat / 2 ^ (f.lo + f.width)) + 2 ^ (f.lo + f.width) ≤ 2 ^ 32 := by
    rw [← Nat.mul_succ]
    calc 2 ^ (f.lo + f.width) * (w.toNat / 2 ^ (f.lo + f.width)).succ
        ≤ 2 ^ (f.lo + f.width) * 2 ^ (32 - (f.lo + f.width)) := Nat.mul_le_mul_left _ h2
      _ = 2 ^ 32 := by rw [← Nat.pow_add, Nat.add_sub_cancel' h]
  omega

/-- A field reads back what was written to it, cut to its width. -/
theorem Field.get_set (f : Field) (w : Word) (n : Nat) (h : f.lo + f.width ≤ 32) :
    f.get (f.set w n) = n % 2 ^ f.width := by
  unfold Field.get
  rw [Field.set_toNat f w n h, Nat.pow_add, Nat.mul_assoc, Nat.add_assoc, ← Nat.mul_add,
    Nat.add_mul_div_left _ _ (Nat.two_pow_pos _), Nat.div_eq_of_lt (Nat.mod_lt _ (Nat.two_pow_pos _)), Nat.zero_add,
    Nat.add_mul_mod_self_left, Nat.mod_mod]

/-- A write of one field leaves a field above it. -/
theorem Field.get_set_above (f g : Field) (w : Word) (n : Nat) (h : f.lo + f.width ≤ 32) (hg : f.lo + f.width ≤ g.lo) :
    g.get (f.set w n) = g.get w := by
  unfold Field.get
  congr 1
  rw [Field.set_toNat f w n h]
  obtain ⟨d, hd⟩ := Nat.exists_eq_add_of_le hg
  have h3 : w.toNat % 2 ^ f.lo < 2 ^ f.lo := Nat.mod_lt _ (Nat.two_pow_pos _)
  have h4 : n % 2 ^ f.width < 2 ^ f.width := Nat.mod_lt _ (Nat.two_pow_pos _)
  have h5 : 2 ^ f.lo * (n % 2 ^ f.width) + 2 ^ f.lo ≤ 2 ^ (f.lo + f.width) := by
    rw [Nat.pow_add, ← Nat.mul_succ]
    exact Nat.mul_le_mul_left _ h4
  have h6 : w.toNat % 2 ^ f.lo + 2 ^ f.lo * (n % 2 ^ f.width) < 2 ^ (f.lo + f.width) := by omega
  rw [hd, Nat.pow_add 2 (f.lo + f.width) d, ← Nat.div_div_eq_div_mul, ← Nat.div_div_eq_div_mul,
    Nat.add_mul_div_left _ _ (Nat.two_pow_pos _), Nat.div_eq_of_lt h6, Nat.zero_add]

/-- A write of one field leaves a field below it. -/
theorem Field.get_set_below (f g : Field) (w : Word) (n : Nat) (h : f.lo + f.width ≤ 32) (hg : g.lo + g.width ≤ f.lo) :
    g.get (f.set w n) = g.get w := by
  have key : (f.set w n).toNat % 2 ^ f.lo = w.toNat % 2 ^ f.lo := by
    rw [Field.set_toNat f w n h, Nat.pow_add, Nat.mul_assoc, Nat.add_assoc, ← Nat.mul_add, Nat.add_mul_mod_self_left,
      Nat.mod_mod]
  have cut : ∀ x : Nat, x / 2 ^ g.lo % 2 ^ g.width = x % 2 ^ f.lo / 2 ^ g.lo % 2 ^ g.width := by
    intro x
    obtain ⟨d, hd⟩ := Nat.exists_eq_add_of_le hg
    rw [← Nat.mod_mul_right_div_self, ← Nat.mod_mul_right_div_self, ← Nat.pow_add, Nat.mod_mod_of_dvd]
    exact ⟨2 ^ d, by rw [hd, Nat.pow_add]⟩
  unfold Field.get
  rw [cut (f.set w n).toNat, key, ← cut]

/-- Two fields do not overlap. -/
def fieldsApart (f g : Field) : Prop := f.lo + f.width ≤ g.lo ∨ g.lo + g.width ≤ f.lo

theorem Field.get_set_apart (f g : Field) (w : Word) (n : Nat) (h : f.lo + f.width ≤ 32) (hg : fieldsApart f g) :
    g.get (f.set w n) = g.get w := by
  rcases hg with hg | hg
  · exact Field.get_set_above f g w n h hg
  · exact Field.get_set_below f g w n h hg

/-! ## Registers -/

@[simp] theorem State.rd_wr (s : State) (a : Nat) (v : Word) : (s.wr a v).rd a = v := by
  simp [State.rd, State.wr]

theorem State.rd_wr_other (s : State) {a b : Nat} (v : Word) (h : b ≠ a) : (s.wr a v).rd b = s.rd b := by
  simp [State.rd, State.wr, Tbl.getD_putD_other s.regs v _ _ h]

@[simp] theorem State.rd_resetReg (s : State) (a : Nat) : (s.resetReg a).rd a = resetAt a := by
  simp [State.rd, State.resetReg, Tbl.getD]

theorem State.rd_resetRegs (s : State) (p : Nat → Bool) (a : Nat) :
    (s.resetRegs p).rd a = if p a then resetAt a else s.rd a := by
  unfold State.rd State.resetRegs Tbl.getD
  rw [Tbl.find?_filter s.regs (fun a => !p a) a]
  cases p a <;> simp

theorem State.rd_setFld_other (s : State) {a b : Nat} (f : Field) (n : Nat) (h : b ≠ a) :
    (s.setFld a f n).rd b = s.rd b :=
  State.rd_wr_other s _ h

theorem State.rd_setBit_other (s : State) {a b : Nat} (f : Field) (x : Bool) (h : b ≠ a) :
    (s.setBit a f x).rd b = s.rd b :=
  State.rd_wr_other s _ h

theorem State.rd_inc_other (s : State) {a b : Nat} (f : Field) (h : b ≠ a) : (s.inc a f).rd b = s.rd b :=
  State.rd_wr_other s _ h

theorem State.fld_setFld (s : State) (a : Nat) (f : Field) (n : Nat) (h : f.lo + f.width ≤ 32) :
    (s.setFld a f n).fld a f = n % 2 ^ f.width := by
  simp [State.fld, State.setFld, Field.get_set f _ n h]

theorem State.fld_setFld_apart (s : State) (a : Nat) (f g : Field) (n : Nat) (h : f.lo + f.width ≤ 32)
    (hg : fieldsApart f g) : (s.setFld a f n).fld a g = s.fld a g := by
  simp [State.fld, State.setFld, Field.get_set_apart f g _ n h hg]

theorem State.fld_setFld_other (s : State) {a b : Nat} (f g : Field) (n : Nat) (h : b ≠ a) :
    (s.setFld a f n).fld b g = s.fld b g := by
  simp [State.fld, State.rd_setFld_other s f n h]

theorem State.bit_setBit (s : State) (a : Nat) (f : Field) (x : Bool) (h : f.lo + f.width ≤ 32) (hw : 0 < f.width) :
    (s.setBit a f x).bit a f = x := by
  have h2 : 1 < 2 ^ f.width := Nat.one_lt_two_pow (by omega)
  cases x <;> simp [State.bit, State.setBit, State.fld_setFld _ _ _ _ h, Nat.mod_eq_of_lt h2]

/-- A saturating count. -/
theorem State.fld_incBy (s : State) (a : Nat) (f : Field) (n : Nat) (h : f.lo + f.width ≤ 32) :
    (s.incBy a f n).fld a f = min (s.fld a f + n) (2 ^ f.width - 1) := by
  unfold State.incBy
  rw [State.fld_setFld _ _ _ _ h, Nat.mod_eq_of_lt]
  have := Nat.two_pow_pos f.width
  omega

end Sys2Proof.Machine
end

