-- ==== Sys2Proof/Laws/State.lean ====
section
/-! SUPPORT. What each single update leaves and sets, field by field. -/

namespace Sys2Proof.Machine

open Sys2Proof

@[simp] theorem State.wr_pending (s : State) (a : Nat) (v : Word) :
    (s.wr a v).pending = s.pending := rfl
@[simp] theorem State.wr_now (s : State) (a : Nat) (v : Word) :
    (s.wr a v).now = s.now := rfl
@[simp] theorem State.wr_mem (s : State) (a : Nat) (v : Word) :
    (s.wr a v).mem = s.mem := rfl
@[simp] theorem State.wr_out (s : State) (a : Nat) (v : Word) :
    (s.wr a v).out = s.out := rfl
@[simp] theorem State.wr_freeCtr (s : State) (a : Nat) (v : Word) :
    (s.wr a v).freeCtr = s.freeCtr := rfl
@[simp] theorem State.wr_hif (s : State) (a : Nat) (v : Word) :
    (s.wr a v).hif = s.hif := rfl
@[simp] theorem State.wr_ten (s : State) (a : Nat) (v : Word) :
    (s.wr a v).ten = s.ten := rfl
@[simp] theorem State.wr_tim (s : State) (a : Nat) (v : Word) :
    (s.wr a v).tim = s.tim := rfl
@[simp] theorem State.wr_hdg (s : State) (a : Nat) (v : Word) :
    (s.wr a v).hdg = s.hdg := rfl
@[simp] theorem State.wr_fov (s : State) (a : Nat) (v : Word) :
    (s.wr a v).fov = s.fov := rfl
@[simp] theorem State.wr_planes (s : State) (a : Nat) (v : Word) :
    (s.wr a v).planes = s.planes := rfl
@[simp] theorem State.wr_xpt (s : State) (a : Nat) (v : Word) :
    (s.wr a v).xpt = s.xpt := rfl
@[simp] theorem State.wr_fsa (s : State) (a : Nat) (v : Word) :
    (s.wr a v).fsa = s.fsa := rfl
@[simp] theorem State.wr_cmp (s : State) (a : Nat) (v : Word) :
    (s.wr a v).cmp = s.cmp := rfl
@[simp] theorem State.wr_sal (s : State) (a : Nat) (v : Word) :
    (s.wr a v).sal = s.sal := rfl
@[simp] theorem State.wr_ess (s : State) (a : Nat) (v : Word) :
    (s.wr a v).ess = s.ess := rfl
@[simp] theorem State.wr_bst (s : State) (a : Nat) (v : Word) :
    (s.wr a v).bst = s.bst := rfl
@[simp] theorem State.wr_blk (s : State) (a : Nat) (v : Word) :
    (s.wr a v).blk = s.blk := rfl
@[simp] theorem State.wr_mln (s : State) (a : Nat) (v : Word) :
    (s.wr a v).mln = s.mln := rfl
@[simp] theorem State.wr_mac (s : State) (a : Nat) (v : Word) :
    (s.wr a v).mac = s.mac := rfl
@[simp] theorem State.wr_aud (s : State) (a : Nat) (v : Word) :
    (s.wr a v).aud = s.aud := rfl
@[simp] theorem State.wr_clk (s : State) (a : Nat) (v : Word) :
    (s.wr a v).clk = s.clk := rfl
@[simp] theorem State.wr_pwr (s : State) (a : Nat) (v : Word) :
    (s.wr a v).pwr = s.pwr := rfl
@[simp] theorem State.wr_svc (s : State) (a : Nat) (v : Word) :
    (s.wr a v).svc = s.svc := rfl
@[simp] theorem State.wr_flash (s : State) (a : Nat) (v : Word) :
    (s.wr a v).flash = s.flash := rfl
@[simp] theorem State.wr_otp (s : State) (a : Nat) (v : Word) :
    (s.wr a v).otp = s.otp := rfl
@[simp] theorem State.wr_regs (s : State) (a : Nat) (v : Word) :
    (s.wr a v).regs = Tbl.putD s.regs a v (resetAt a) := rfl
@[simp] theorem State.resetReg_pending (s : State) (a : Nat) :
    (s.resetReg a).pending = s.pending := rfl
@[simp] theorem State.resetReg_now (s : State) (a : Nat) :
    (s.resetReg a).now = s.now := rfl
@[simp] theorem State.resetReg_mem (s : State) (a : Nat) :
    (s.resetReg a).mem = s.mem := rfl
@[simp] theorem State.resetReg_out (s : State) (a : Nat) :
    (s.resetReg a).out = s.out := rfl
@[simp] theorem State.resetReg_freeCtr (s : State) (a : Nat) :
    (s.resetReg a).freeCtr = s.freeCtr := rfl
@[simp] theorem State.resetReg_hif (s : State) (a : Nat) :
    (s.resetReg a).hif = s.hif := rfl
@[simp] theorem State.resetReg_ten (s : State) (a : Nat) :
    (s.resetReg a).ten = s.ten := rfl
@[simp] theorem State.resetReg_tim (s : State) (a : Nat) :
    (s.resetReg a).tim = s.tim := rfl
@[simp] theorem State.resetReg_hdg (s : State) (a : Nat) :
    (s.resetReg a).hdg = s.hdg := rfl
@[simp] theorem State.resetReg_fov (s : State) (a : Nat) :
    (s.resetReg a).fov = s.fov := rfl
@[simp] theorem State.resetReg_planes (s : State) (a : Nat) :
    (s.resetReg a).planes = s.planes := rfl
@[simp] theorem State.resetReg_xpt (s : State) (a : Nat) :
    (s.resetReg a).xpt = s.xpt := rfl
@[simp] theorem State.resetReg_fsa (s : State) (a : Nat) :
    (s.resetReg a).fsa = s.fsa := rfl
@[simp] theorem State.resetReg_cmp (s : State) (a : Nat) :
    (s.resetReg a).cmp = s.cmp := rfl
@[simp] theorem State.resetReg_sal (s : State) (a : Nat) :
    (s.resetReg a).sal = s.sal := rfl
@[simp] theorem State.resetReg_ess (s : State) (a : Nat) :
    (s.resetReg a).ess = s.ess := rfl
@[simp] theorem State.resetReg_bst (s : State) (a : Nat) :
    (s.resetReg a).bst = s.bst := rfl
@[simp] theorem State.resetReg_blk (s : State) (a : Nat) :
    (s.resetReg a).blk = s.blk := rfl
@[simp] theorem State.resetReg_mln (s : State) (a : Nat) :
    (s.resetReg a).mln = s.mln := rfl
@[simp] theorem State.resetReg_mac (s : State) (a : Nat) :
    (s.resetReg a).mac = s.mac := rfl
@[simp] theorem State.resetReg_aud (s : State) (a : Nat) :
    (s.resetReg a).aud = s.aud := rfl
@[simp] theorem State.resetReg_clk (s : State) (a : Nat) :
    (s.resetReg a).clk = s.clk := rfl
@[simp] theorem State.resetReg_pwr (s : State) (a : Nat) :
    (s.resetReg a).pwr = s.pwr := rfl
@[simp] theorem State.resetReg_svc (s : State) (a : Nat) :
    (s.resetReg a).svc = s.svc := rfl
@[simp] theorem State.resetReg_flash (s : State) (a : Nat) :
    (s.resetReg a).flash = s.flash := rfl
@[simp] theorem State.resetReg_otp (s : State) (a : Nat) :
    (s.resetReg a).otp = s.otp := rfl
@[simp] theorem State.resetReg_regs (s : State) (a : Nat) :
    (s.resetReg a).regs = Tbl.del s.regs a := rfl
@[simp] theorem State.resetRegs_pending (s : State) (p : Nat → Bool) :
    (s.resetRegs p).pending = s.pending := rfl
@[simp] theorem State.resetRegs_now (s : State) (p : Nat → Bool) :
    (s.resetRegs p).now = s.now := rfl
@[simp] theorem State.resetRegs_mem (s : State) (p : Nat → Bool) :
    (s.resetRegs p).mem = s.mem := rfl
@[simp] theorem State.resetRegs_out (s : State) (p : Nat → Bool) :
    (s.resetRegs p).out = s.out := rfl
@[simp] theorem State.resetRegs_freeCtr (s : State) (p : Nat → Bool) :
    (s.resetRegs p).freeCtr = s.freeCtr := rfl
@[simp] theorem State.resetRegs_hif (s : State) (p : Nat → Bool) :
    (s.resetRegs p).hif = s.hif := rfl
@[simp] theorem State.resetRegs_ten (s : State) (p : Nat → Bool) :
    (s.resetRegs p).ten = s.ten := rfl
@[simp] theorem State.resetRegs_tim (s : State) (p : Nat → Bool) :
    (s.resetRegs p).tim = s.tim := rfl
@[simp] theorem State.resetRegs_hdg (s : State) (p : Nat → Bool) :
    (s.resetRegs p).hdg = s.hdg := rfl
@[simp] theorem State.resetRegs_fov (s : State) (p : Nat → Bool) :
    (s.resetRegs p).fov = s.fov := rfl
@[simp] theorem State.resetRegs_planes (s : State) (p : Nat → Bool) :
    (s.resetRegs p).planes = s.planes := rfl
@[simp] theorem State.resetRegs_xpt (s : State) (p : Nat → Bool) :
    (s.resetRegs p).xpt = s.xpt := rfl
@[simp] theorem State.resetRegs_fsa (s : State) (p : Nat → Bool) :
    (s.resetRegs p).fsa = s.fsa := rfl
@[simp] theorem State.resetRegs_cmp (s : State) (p : Nat → Bool) :
    (s.resetRegs p).cmp = s.cmp := rfl
@[simp] theorem State.resetRegs_sal (s : State) (p : Nat → Bool) :
    (s.resetRegs p).sal = s.sal := rfl
@[simp] theorem State.resetRegs_ess (s : State) (p : Nat → Bool) :
    (s.resetRegs p).ess = s.ess := rfl
@[simp] theorem State.resetRegs_bst (s : State) (p : Nat → Bool) :
    (s.resetRegs p).bst = s.bst := rfl
@[simp] theorem State.resetRegs_blk (s : State) (p : Nat → Bool) :
    (s.resetRegs p).blk = s.blk := rfl
@[simp] theorem State.resetRegs_mln (s : State) (p : Nat → Bool) :
    (s.resetRegs p).mln = s.mln := rfl
@[simp] theorem State.resetRegs_mac (s : State) (p : Nat → Bool) :
    (s.resetRegs p).mac = s.mac := rfl
@[simp] theorem State.resetRegs_aud (s : State) (p : Nat → Bool) :
    (s.resetRegs p).aud = s.aud := rfl
@[simp] theorem State.resetRegs_clk (s : State) (p : Nat → Bool) :
    (s.resetRegs p).clk = s.clk := rfl
@[simp] theorem State.resetRegs_pwr (s : State) (p : Nat → Bool) :
    (s.resetRegs p).pwr = s.pwr := rfl
@[simp] theorem State.resetRegs_svc (s : State) (p : Nat → Bool) :
    (s.resetRegs p).svc = s.svc := rfl
@[simp] theorem State.resetRegs_flash (s : State) (p : Nat → Bool) :
    (s.resetRegs p).flash = s.flash := rfl
@[simp] theorem State.resetRegs_otp (s : State) (p : Nat → Bool) :
    (s.resetRegs p).otp = s.otp := rfl
@[simp] theorem State.resetRegs_regs (s : State) (p : Nat → Bool) :
    (s.resetRegs p).regs = s.regs.filter (fun e => !p e.1) := rfl
@[simp] theorem State.emit_pending (s : State) (e : Emission) :
    (s.emit e).pending = s.pending := rfl
@[simp] theorem State.emit_now (s : State) (e : Emission) :
    (s.emit e).now = s.now := rfl
@[simp] theorem State.emit_regs (s : State) (e : Emission) :
    (s.emit e).regs = s.regs := rfl
@[simp] theorem State.emit_mem (s : State) (e : Emission) :
    (s.emit e).mem = s.mem := rfl
@[simp] theorem State.emit_freeCtr (s : State) (e : Emission) :
    (s.emit e).freeCtr = s.freeCtr := rfl
@[simp] theorem State.emit_hif (s : State) (e : Emission) :
    (s.emit e).hif = s.hif := rfl
@[simp] theorem State.emit_ten (s : State) (e : Emission) :
    (s.emit e).ten = s.ten := rfl
@[simp] theorem State.emit_tim (s : State) (e : Emission) :
    (s.emit e).tim = s.tim := rfl
@[simp] theorem State.emit_hdg (s : State) (e : Emission) :
    (s.emit e).hdg = s.hdg := rfl
@[simp] theorem State.emit_fov (s : State) (e : Emission) :
    (s.emit e).fov = s.fov := rfl
@[simp] theorem State.emit_planes (s : State) (e : Emission) :
    (s.emit e).planes = s.planes := rfl
@[simp] theorem State.emit_xpt (s : State) (e : Emission) :
    (s.emit e).xpt = s.xpt := rfl
@[simp] theorem State.emit_fsa (s : State) (e : Emission) :
    (s.emit e).fsa = s.fsa := rfl
@[simp] theorem State.emit_cmp (s : State) (e : Emission) :
    (s.emit e).cmp = s.cmp := rfl
@[simp] theorem State.emit_sal (s : State) (e : Emission) :
    (s.emit e).sal = s.sal := rfl
@[simp] theorem State.emit_ess (s : State) (e : Emission) :
    (s.emit e).ess = s.ess := rfl
@[simp] theorem State.emit_bst (s : State) (e : Emission) :
    (s.emit e).bst = s.bst := rfl
@[simp] theorem State.emit_blk (s : State) (e : Emission) :
    (s.emit e).blk = s.blk := rfl
@[simp] theorem State.emit_mln (s : State) (e : Emission) :
    (s.emit e).mln = s.mln := rfl
@[simp] theorem State.emit_mac (s : State) (e : Emission) :
    (s.emit e).mac = s.mac := rfl
@[simp] theorem State.emit_aud (s : State) (e : Emission) :
    (s.emit e).aud = s.aud := rfl
@[simp] theorem State.emit_clk (s : State) (e : Emission) :
    (s.emit e).clk = s.clk := rfl
@[simp] theorem State.emit_pwr (s : State) (e : Emission) :
    (s.emit e).pwr = s.pwr := rfl
@[simp] theorem State.emit_svc (s : State) (e : Emission) :
    (s.emit e).svc = s.svc := rfl
@[simp] theorem State.emit_flash (s : State) (e : Emission) :
    (s.emit e).flash = s.flash := rfl
@[simp] theorem State.emit_otp (s : State) (e : Emission) :
    (s.emit e).otp = s.otp := rfl
@[simp] theorem State.emit_out (s : State) (e : Emission) :
    (s.emit e).out = e :: s.out := rfl
@[simp] theorem State.emitAll_pending (s : State) (l : List Emission) :
    (s.emitAll l).pending = s.pending := rfl
@[simp] theorem State.emitAll_now (s : State) (l : List Emission) :
    (s.emitAll l).now = s.now := rfl
@[simp] theorem State.emitAll_regs (s : State) (l : List Emission) :
    (s.emitAll l).regs = s.regs := rfl
@[simp] theorem State.emitAll_mem (s : State) (l : List Emission) :
    (s.emitAll l).mem = s.mem := rfl
@[simp] theorem State.emitAll_freeCtr (s : State) (l : List Emission) :
    (s.emitAll l).freeCtr = s.freeCtr := rfl
@[simp] theorem State.emitAll_hif (s : State) (l : List Emission) :
    (s.emitAll l).hif = s.hif := rfl
@[simp] theorem State.emitAll_ten (s : State) (l : List Emission) :
    (s.emitAll l).ten = s.ten := rfl
@[simp] theorem State.emitAll_tim (s : State) (l : List Emission) :
    (s.emitAll l).tim = s.tim := rfl
@[simp] theorem State.emitAll_hdg (s : State) (l : List Emission) :
    (s.emitAll l).hdg = s.hdg := rfl
@[simp] theorem State.emitAll_fov (s : State) (l : List Emission) :
    (s.emitAll l).fov = s.fov := rfl
@[simp] theorem State.emitAll_planes (s : State) (l : List Emission) :
    (s.emitAll l).planes = s.planes := rfl
@[simp] theorem State.emitAll_xpt (s : State) (l : List Emission) :
    (s.emitAll l).xpt = s.xpt := rfl
@[simp] theorem State.emitAll_fsa (s : State) (l : List Emission) :
    (s.emitAll l).fsa = s.fsa := rfl
@[simp] theorem State.emitAll_cmp (s : State) (l : List Emission) :
    (s.emitAll l).cmp = s.cmp := rfl
@[simp] theorem State.emitAll_sal (s : State) (l : List Emission) :
    (s.emitAll l).sal = s.sal := rfl
@[simp] theorem State.emitAll_ess (s : State) (l : List Emission) :
    (s.emitAll l).ess = s.ess := rfl
@[simp] theorem State.emitAll_bst (s : State) (l : List Emission) :
    (s.emitAll l).bst = s.bst := rfl
@[simp] theorem State.emitAll_blk (s : State) (l : List Emission) :
    (s.emitAll l).blk = s.blk := rfl
@[simp] theorem State.emitAll_mln (s : State) (l : List Emission) :
    (s.emitAll l).mln = s.mln := rfl
@[simp] theorem State.emitAll_mac (s : State) (l : List Emission) :
    (s.emitAll l).mac = s.mac := rfl
@[simp] theorem State.emitAll_aud (s : State) (l : List Emission) :
    (s.emitAll l).aud = s.aud := rfl
@[simp] theorem State.emitAll_clk (s : State) (l : List Emission) :
    (s.emitAll l).clk = s.clk := rfl
@[simp] theorem State.emitAll_pwr (s : State) (l : List Emission) :
    (s.emitAll l).pwr = s.pwr := rfl
@[simp] theorem State.emitAll_svc (s : State) (l : List Emission) :
    (s.emitAll l).svc = s.svc := rfl
@[simp] theorem State.emitAll_flash (s : State) (l : List Emission) :
    (s.emitAll l).flash = s.flash := rfl
@[simp] theorem State.emitAll_otp (s : State) (l : List Emission) :
    (s.emitAll l).otp = s.otp := rfl
@[simp] theorem State.emitAll_out (s : State) (l : List Emission) :
    (s.emitAll l).out = l.reverse ++ s.out := rfl
@[simp] theorem State.setBase_pending (s : State) (b : Nat) (x : TimeBase) :
    (s.setBase b x).pending = s.pending := rfl
@[simp] theorem State.setBase_now (s : State) (b : Nat) (x : TimeBase) :
    (s.setBase b x).now = s.now := rfl
@[simp] theorem State.setBase_regs (s : State) (b : Nat) (x : TimeBase) :
    (s.setBase b x).regs = s.regs := rfl
@[simp] theorem State.setBase_mem (s : State) (b : Nat) (x : TimeBase) :
    (s.setBase b x).mem = s.mem := rfl
@[simp] theorem State.setBase_out (s : State) (b : Nat) (x : TimeBase) :
    (s.setBase b x).out = s.out := rfl
@[simp] theorem State.setBase_freeCtr (s : State) (b : Nat) (x : TimeBase) :
    (s.setBase b x).freeCtr = s.freeCtr := rfl
@[simp] theorem State.setBase_hif (s : State) (b : Nat) (x : TimeBase) :
    (s.setBase b x).hif = s.hif := rfl
@[simp] theorem State.setBase_ten (s : State) (b : Nat) (x : TimeBase) :
    (s.setBase b x).ten = s.ten := rfl
@[simp] theorem State.setBase_hdg (s : State) (b : Nat) (x : TimeBase) :
    (s.setBase b x).hdg = s.hdg := rfl
@[simp] theorem State.setBase_fov (s : State) (b : Nat) (x : TimeBase) :
    (s.setBase b x).fov = s.fov := rfl
@[simp] theorem State.setBase_planes (s : State) (b : Nat) (x : TimeBase) :
    (s.setBase b x).planes = s.planes := rfl
@[simp] theorem State.setBase_xpt (s : State) (b : Nat) (x : TimeBase) :
    (s.setBase b x).xpt = s.xpt := rfl
@[simp] theorem State.setBase_fsa (s : State) (b : Nat) (x : TimeBase) :
    (s.setBase b x).fsa = s.fsa := rfl
@[simp] theorem State.setBase_cmp (s : State) (b : Nat) (x : TimeBase) :
    (s.setBase b x).cmp = s.cmp := rfl
@[simp] theorem State.setBase_sal (s : State) (b : Nat) (x : TimeBase) :
    (s.setBase b x).sal = s.sal := rfl
@[simp] theorem State.setBase_ess (s : State) (b : Nat) (x : TimeBase) :
    (s.setBase b x).ess = s.ess := rfl
@[simp] theorem State.setBase_bst (s : State) (b : Nat) (x : TimeBase) :
    (s.setBase b x).bst = s.bst := rfl
@[simp] theorem State.setBase_blk (s : State) (b : Nat) (x : TimeBase) :
    (s.setBase b x).blk = s.blk := rfl
@[simp] theorem State.setBase_mln (s : State) (b : Nat) (x : TimeBase) :
    (s.setBase b x).mln = s.mln := rfl
@[simp] theorem State.setBase_mac (s : State) (b : Nat) (x : TimeBase) :
    (s.setBase b x).mac = s.mac := rfl
@[simp] theorem State.setBase_aud (s : State) (b : Nat) (x : TimeBase) :
    (s.setBase b x).aud = s.aud := rfl
@[simp] theorem State.setBase_clk (s : State) (b : Nat) (x : TimeBase) :
    (s.setBase b x).clk = s.clk := rfl
@[simp] theorem State.setBase_pwr (s : State) (b : Nat) (x : TimeBase) :
    (s.setBase b x).pwr = s.pwr := rfl
@[simp] theorem State.setBase_svc (s : State) (b : Nat) (x : TimeBase) :
    (s.setBase b x).svc = s.svc := rfl
@[simp] theorem State.setBase_flash (s : State) (b : Nat) (x : TimeBase) :
    (s.setBase b x).flash = s.flash := rfl
@[simp] theorem State.setBase_otp (s : State) (b : Nat) (x : TimeBase) :
    (s.setBase b x).otp = s.otp := rfl
@[simp] theorem State.setBase_tim (s : State) (b : Nat) (x : TimeBase) :
    (s.setBase b x).tim = { s.tim with bases := Tbl.put s.tim.bases b x } := rfl
@[simp] theorem State.setAllocs_pending (s : State) (l : List Alloc) :
    (s.setAllocs l).pending = s.pending := rfl
@[simp] theorem State.setAllocs_now (s : State) (l : List Alloc) :
    (s.setAllocs l).now = s.now := rfl
@[simp] theorem State.setAllocs_regs (s : State) (l : List Alloc) :
    (s.setAllocs l).regs = s.regs := rfl
@[simp] theorem State.setAllocs_mem (s : State) (l : List Alloc) :
    (s.setAllocs l).mem = s.mem := rfl
@[simp] theorem State.setAllocs_out (s : State) (l : List Alloc) :
    (s.setAllocs l).out = s.out := rfl
@[simp] theorem State.setAllocs_freeCtr (s : State) (l : List Alloc) :
    (s.setAllocs l).freeCtr = s.freeCtr := rfl
@[simp] theorem State.setAllocs_hif (s : State) (l : List Alloc) :
    (s.setAllocs l).hif = s.hif := rfl
@[simp] theorem State.setAllocs_tim (s : State) (l : List Alloc) :
    (s.setAllocs l).tim = s.tim := rfl
@[simp] theorem State.setAllocs_hdg (s : State) (l : List Alloc) :
    (s.setAllocs l).hdg = s.hdg := rfl
@[simp] theorem State.setAllocs_fov (s : State) (l : List Alloc) :
    (s.setAllocs l).fov = s.fov := rfl
@[simp] theorem State.setAllocs_planes (s : State) (l : List Alloc) :
    (s.setAllocs l).planes = s.planes := rfl
@[simp] theorem State.setAllocs_xpt (s : State) (l : List Alloc) :
    (s.setAllocs l).xpt = s.xpt := rfl
@[simp] theorem State.setAllocs_fsa (s : State) (l : List Alloc) :
    (s.setAllocs l).fsa = s.fsa := rfl
@[simp] theorem State.setAllocs_cmp (s : State) (l : List Alloc) :
    (s.setAllocs l).cmp = s.cmp := rfl
@[simp] theorem State.setAllocs_sal (s : State) (l : List Alloc) :
    (s.setAllocs l).sal = s.sal := rfl
@[simp] theorem State.setAllocs_ess (s : State) (l : List Alloc) :
    (s.setAllocs l).ess = s.ess := rfl
@[simp] theorem State.setAllocs_bst (s : State) (l : List Alloc) :
    (s.setAllocs l).bst = s.bst := rfl
@[simp] theorem State.setAllocs_blk (s : State) (l : List Alloc) :
    (s.setAllocs l).blk = s.blk := rfl
@[simp] theorem State.setAllocs_mln (s : State) (l : List Alloc) :
    (s.setAllocs l).mln = s.mln := rfl
@[simp] theorem State.setAllocs_mac (s : State) (l : List Alloc) :
    (s.setAllocs l).mac = s.mac := rfl
@[simp] theorem State.setAllocs_aud (s : State) (l : List Alloc) :
    (s.setAllocs l).aud = s.aud := rfl
@[simp] theorem State.setAllocs_clk (s : State) (l : List Alloc) :
    (s.setAllocs l).clk = s.clk := rfl
@[simp] theorem State.setAllocs_pwr (s : State) (l : List Alloc) :
    (s.setAllocs l).pwr = s.pwr := rfl
@[simp] theorem State.setAllocs_svc (s : State) (l : List Alloc) :
    (s.setAllocs l).svc = s.svc := rfl
@[simp] theorem State.setAllocs_flash (s : State) (l : List Alloc) :
    (s.setAllocs l).flash = s.flash := rfl
@[simp] theorem State.setAllocs_otp (s : State) (l : List Alloc) :
    (s.setAllocs l).otp = s.otp := rfl
@[simp] theorem State.setAllocs_ten (s : State) (l : List Alloc) :
    (s.setAllocs l).ten = { s.ten with allocs := l } := rfl
@[simp] theorem State.setCanvas_pending (s : State) (c : Nat) (x : CanvasState) :
    (s.setCanvas c x).pending = s.pending := rfl
@[simp] theorem State.setCanvas_now (s : State) (c : Nat) (x : CanvasState) :
    (s.setCanvas c x).now = s.now := rfl
@[simp] theorem State.setCanvas_regs (s : State) (c : Nat) (x : CanvasState) :
    (s.setCanvas c x).regs = s.regs := rfl
@[simp] theorem State.setCanvas_mem (s : State) (c : Nat) (x : CanvasState) :
    (s.setCanvas c x).mem = s.mem := rfl
@[simp] theorem State.setCanvas_out (s : State) (c : Nat) (x : CanvasState) :
    (s.setCanvas c x).out = s.out := rfl
@[simp] theorem State.setCanvas_freeCtr (s : State) (c : Nat) (x : CanvasState) :
    (s.setCanvas c x).freeCtr = s.freeCtr := rfl
@[simp] theorem State.setCanvas_hif (s : State) (c : Nat) (x : CanvasState) :
    (s.setCanvas c x).hif = s.hif := rfl
@[simp] theorem State.setCanvas_ten (s : State) (c : Nat) (x : CanvasState) :
    (s.setCanvas c x).ten = s.ten := rfl
@[simp] theorem State.setCanvas_tim (s : State) (c : Nat) (x : CanvasState) :
    (s.setCanvas c x).tim = s.tim := rfl
@[simp] theorem State.setCanvas_hdg (s : State) (c : Nat) (x : CanvasState) :
    (s.setCanvas c x).hdg = s.hdg := rfl
@[simp] theorem State.setCanvas_fov (s : State) (c : Nat) (x : CanvasState) :
    (s.setCanvas c x).fov = s.fov := rfl
@[simp] theorem State.setCanvas_planes (s : State) (c : Nat) (x : CanvasState) :
    (s.setCanvas c x).planes = s.planes := rfl
@[simp] theorem State.setCanvas_xpt (s : State) (c : Nat) (x : CanvasState) :
    (s.setCanvas c x).xpt = s.xpt := rfl
@[simp] theorem State.setCanvas_fsa (s : State) (c : Nat) (x : CanvasState) :
    (s.setCanvas c x).fsa = s.fsa := rfl
@[simp] theorem State.setCanvas_sal (s : State) (c : Nat) (x : CanvasState) :
    (s.setCanvas c x).sal = s.sal := rfl
@[simp] theorem State.setCanvas_ess (s : State) (c : Nat) (x : CanvasState) :
    (s.setCanvas c x).ess = s.ess := rfl
@[simp] theorem State.setCanvas_bst (s : State) (c : Nat) (x : CanvasState) :
    (s.setCanvas c x).bst = s.bst := rfl
@[simp] theorem State.setCanvas_blk (s : State) (c : Nat) (x : CanvasState) :
    (s.setCanvas c x).blk = s.blk := rfl
@[simp] theorem State.setCanvas_mln (s : State) (c : Nat) (x : CanvasState) :
    (s.setCanvas c x).mln = s.mln := rfl
@[simp] theorem State.setCanvas_mac (s : State) (c : Nat) (x : CanvasState) :
    (s.setCanvas c x).mac = s.mac := rfl
@[simp] theorem State.setCanvas_aud (s : State) (c : Nat) (x : CanvasState) :
    (s.setCanvas c x).aud = s.aud := rfl
@[simp] theorem State.setCanvas_clk (s : State) (c : Nat) (x : CanvasState) :
    (s.setCanvas c x).clk = s.clk := rfl
@[simp] theorem State.setCanvas_pwr (s : State) (c : Nat) (x : CanvasState) :
    (s.setCanvas c x).pwr = s.pwr := rfl
@[simp] theorem State.setCanvas_svc (s : State) (c : Nat) (x : CanvasState) :
    (s.setCanvas c x).svc = s.svc := rfl
@[simp] theorem State.setCanvas_flash (s : State) (c : Nat) (x : CanvasState) :
    (s.setCanvas c x).flash = s.flash := rfl
@[simp] theorem State.setCanvas_otp (s : State) (c : Nat) (x : CanvasState) :
    (s.setCanvas c x).otp = s.otp := rfl
@[simp] theorem State.setCanvas_cmp (s : State) (c : Nat) (x : CanvasState) :
    (s.setCanvas c x).cmp = { s.cmp with canvases := Tbl.putD s.cmp.canvases c x CanvasState.idle } := rfl
@[simp] theorem State.setPending_pending (s : State) (l : List Nat) :
    (s.setPending l).pending = s.pending := rfl
@[simp] theorem State.setPending_now (s : State) (l : List Nat) :
    (s.setPending l).now = s.now := rfl
@[simp] theorem State.setPending_regs (s : State) (l : List Nat) :
    (s.setPending l).regs = s.regs := rfl
@[simp] theorem State.setPending_mem (s : State) (l : List Nat) :
    (s.setPending l).mem = s.mem := rfl
@[simp] theorem State.setPending_out (s : State) (l : List Nat) :
    (s.setPending l).out = s.out := rfl
@[simp] theorem State.setPending_freeCtr (s : State) (l : List Nat) :
    (s.setPending l).freeCtr = s.freeCtr := rfl
@[simp] theorem State.setPending_ten (s : State) (l : List Nat) :
    (s.setPending l).ten = s.ten := rfl
@[simp] theorem State.setPending_tim (s : State) (l : List Nat) :
    (s.setPending l).tim = s.tim := rfl
@[simp] theorem State.setPending_hdg (s : State) (l : List Nat) :
    (s.setPending l).hdg = s.hdg := rfl
@[simp] theorem State.setPending_fov (s : State) (l : List Nat) :
    (s.setPending l).fov = s.fov := rfl
@[simp] theorem State.setPending_planes (s : State) (l : List Nat) :
    (s.setPending l).planes = s.planes := rfl
@[simp] theorem State.setPending_xpt (s : State) (l : List Nat) :
    (s.setPending l).xpt = s.xpt := rfl
@[simp] theorem State.setPending_fsa (s : State) (l : List Nat) :
    (s.setPending l).fsa = s.fsa := rfl
@[simp] theorem State.setPending_cmp (s : State) (l : List Nat) :
    (s.setPending l).cmp = s.cmp := rfl
@[simp] theorem State.setPending_sal (s : State) (l : List Nat) :
    (s.setPending l).sal = s.sal := rfl
@[simp] theorem State.setPending_ess (s : State) (l : List Nat) :
    (s.setPending l).ess = s.ess := rfl
@[simp] theorem State.setPending_bst (s : State) (l : List Nat) :
    (s.setPending l).bst = s.bst := rfl
@[simp] theorem State.setPending_blk (s : State) (l : List Nat) :
    (s.setPending l).blk = s.blk := rfl
@[simp] theorem State.setPending_mln (s : State) (l : List Nat) :
    (s.setPending l).mln = s.mln := rfl
@[simp] theorem State.setPending_mac (s : State) (l : List Nat) :
    (s.setPending l).mac = s.mac := rfl
@[simp] theorem State.setPending_aud (s : State) (l : List Nat) :
    (s.setPending l).aud = s.aud := rfl
@[simp] theorem State.setPending_clk (s : State) (l : List Nat) :
    (s.setPending l).clk = s.clk := rfl
@[simp] theorem State.setPending_pwr (s : State) (l : List Nat) :
    (s.setPending l).pwr = s.pwr := rfl
@[simp] theorem State.setPending_svc (s : State) (l : List Nat) :
    (s.setPending l).svc = s.svc := rfl
@[simp] theorem State.setPending_flash (s : State) (l : List Nat) :
    (s.setPending l).flash = s.flash := rfl
@[simp] theorem State.setPending_otp (s : State) (l : List Nat) :
    (s.setPending l).otp = s.otp := rfl
@[simp] theorem State.setPending_hif (s : State) (l : List Nat) :
    (s.setPending l).hif = { s.hif with msixPending := l } := rfl
@[simp] theorem State.setRing_pending (s : State) (t r : Nat) (x : Ring) :
    (s.setRing t r x).pending = s.pending := rfl
@[simp] theorem State.setRing_now (s : State) (t r : Nat) (x : Ring) :
    (s.setRing t r x).now = s.now := rfl
@[simp] theorem State.setRing_regs (s : State) (t r : Nat) (x : Ring) :
    (s.setRing t r x).regs = s.regs := rfl
@[simp] theorem State.setRing_mem (s : State) (t r : Nat) (x : Ring) :
    (s.setRing t r x).mem = s.mem := rfl
@[simp] theorem State.setRing_out (s : State) (t r : Nat) (x : Ring) :
    (s.setRing t r x).out = s.out := rfl
@[simp] theorem State.setRing_freeCtr (s : State) (t r : Nat) (x : Ring) :
    (s.setRing t r x).freeCtr = s.freeCtr := rfl
@[simp] theorem State.setRing_ten (s : State) (t r : Nat) (x : Ring) :
    (s.setRing t r x).ten = s.ten := rfl
@[simp] theorem State.setRing_tim (s : State) (t r : Nat) (x : Ring) :
    (s.setRing t r x).tim = s.tim := rfl
@[simp] theorem State.setRing_hdg (s : State) (t r : Nat) (x : Ring) :
    (s.setRing t r x).hdg = s.hdg := rfl
@[simp] theorem State.setRing_fov (s : State) (t r : Nat) (x : Ring) :
    (s.setRing t r x).fov = s.fov := rfl
@[simp] theorem State.setRing_planes (s : State) (t r : Nat) (x : Ring) :
    (s.setRing t r x).planes = s.planes := rfl
@[simp] theorem State.setRing_xpt (s : State) (t r : Nat) (x : Ring) :
    (s.setRing t r x).xpt = s.xpt := rfl
@[simp] theorem State.setRing_fsa (s : State) (t r : Nat) (x : Ring) :
    (s.setRing t r x).fsa = s.fsa := rfl
@[simp] theorem State.setRing_cmp (s : State) (t r : Nat) (x : Ring) :
    (s.setRing t r x).cmp = s.cmp := rfl
@[simp] theorem State.setRing_sal (s : State) (t r : Nat) (x : Ring) :
    (s.setRing t r x).sal = s.sal := rfl
@[simp] theorem State.setRing_ess (s : State) (t r : Nat) (x : Ring) :
    (s.setRing t r x).ess = s.ess := rfl
@[simp] theorem State.setRing_bst (s : State) (t r : Nat) (x : Ring) :
    (s.setRing t r x).bst = s.bst := rfl
@[simp] theorem State.setRing_blk (s : State) (t r : Nat) (x : Ring) :
    (s.setRing t r x).blk = s.blk := rfl
@[simp] theorem State.setRing_mln (s : State) (t r : Nat) (x : Ring) :
    (s.setRing t r x).mln = s.mln := rfl
@[simp] theorem State.setRing_mac (s : State) (t r : Nat) (x : Ring) :
    (s.setRing t r x).mac = s.mac := rfl
@[simp] theorem State.setRing_aud (s : State) (t r : Nat) (x : Ring) :
    (s.setRing t r x).aud = s.aud := rfl
@[simp] theorem State.setRing_clk (s : State) (t r : Nat) (x : Ring) :
    (s.setRing t r x).clk = s.clk := rfl
@[simp] theorem State.setRing_pwr (s : State) (t r : Nat) (x : Ring) :
    (s.setRing t r x).pwr = s.pwr := rfl
@[simp] theorem State.setRing_svc (s : State) (t r : Nat) (x : Ring) :
    (s.setRing t r x).svc = s.svc := rfl
@[simp] theorem State.setRing_flash (s : State) (t r : Nat) (x : Ring) :
    (s.setRing t r x).flash = s.flash := rfl
@[simp] theorem State.setRing_otp (s : State) (t r : Nat) (x : Ring) :
    (s.setRing t r x).otp = s.otp := rfl
@[simp] theorem State.setRing_hif (s : State) (t r : Nat) (x : Ring) :
    (s.setRing t r x).hif = { s.hif with rings := Tbl.put s.hif.rings (16 * t + r) x } := rfl
@[simp] theorem State.setHdgTimers_pending (s : State) (t : Tbl Bool) :
    (s.setHdgTimers t).pending = s.pending := rfl
@[simp] theorem State.setHdgTimers_now (s : State) (t : Tbl Bool) :
    (s.setHdgTimers t).now = s.now := rfl
@[simp] theorem State.setHdgTimers_regs (s : State) (t : Tbl Bool) :
    (s.setHdgTimers t).regs = s.regs := rfl
@[simp] theorem State.setHdgTimers_mem (s : State) (t : Tbl Bool) :
    (s.setHdgTimers t).mem = s.mem := rfl
@[simp] theorem State.setHdgTimers_out (s : State) (t : Tbl Bool) :
    (s.setHdgTimers t).out = s.out := rfl
@[simp] theorem State.setHdgTimers_freeCtr (s : State) (t : Tbl Bool) :
    (s.setHdgTimers t).freeCtr = s.freeCtr := rfl
@[simp] theorem State.setHdgTimers_hif (s : State) (t : Tbl Bool) :
    (s.setHdgTimers t).hif = s.hif := rfl
@[simp] theorem State.setHdgTimers_ten (s : State) (t : Tbl Bool) :
    (s.setHdgTimers t).ten = s.ten := rfl
@[simp] theorem State.setHdgTimers_tim (s : State) (t : Tbl Bool) :
    (s.setHdgTimers t).tim = s.tim := rfl
@[simp] theorem State.setHdgTimers_fov (s : State) (t : Tbl Bool) :
    (s.setHdgTimers t).fov = s.fov := rfl
@[simp] theorem State.setHdgTimers_planes (s : State) (t : Tbl Bool) :
    (s.setHdgTimers t).planes = s.planes := rfl
@[simp] theorem State.setHdgTimers_xpt (s : State) (t : Tbl Bool) :
    (s.setHdgTimers t).xpt = s.xpt := rfl
@[simp] theorem State.setHdgTimers_fsa (s : State) (t : Tbl Bool) :
    (s.setHdgTimers t).fsa = s.fsa := rfl
@[simp] theorem State.setHdgTimers_cmp (s : State) (t : Tbl Bool) :
    (s.setHdgTimers t).cmp = s.cmp := rfl
@[simp] theorem State.setHdgTimers_sal (s : State) (t : Tbl Bool) :
    (s.setHdgTimers t).sal = s.sal := rfl
@[simp] theorem State.setHdgTimers_ess (s : State) (t : Tbl Bool) :
    (s.setHdgTimers t).ess = s.ess := rfl
@[simp] theorem State.setHdgTimers_bst (s : State) (t : Tbl Bool) :
    (s.setHdgTimers t).bst = s.bst := rfl
@[simp] theorem State.setHdgTimers_blk (s : State) (t : Tbl Bool) :
    (s.setHdgTimers t).blk = s.blk := rfl
@[simp] theorem State.setHdgTimers_mln (s : State) (t : Tbl Bool) :
    (s.setHdgTimers t).mln = s.mln := rfl
@[simp] theorem State.setHdgTimers_mac (s : State) (t : Tbl Bool) :
    (s.setHdgTimers t).mac = s.mac := rfl
@[simp] theorem State.setHdgTimers_aud (s : State) (t : Tbl Bool) :
    (s.setHdgTimers t).aud = s.aud := rfl
@[simp] theorem State.setHdgTimers_clk (s : State) (t : Tbl Bool) :
    (s.setHdgTimers t).clk = s.clk := rfl
@[simp] theorem State.setHdgTimers_pwr (s : State) (t : Tbl Bool) :
    (s.setHdgTimers t).pwr = s.pwr := rfl
@[simp] theorem State.setHdgTimers_svc (s : State) (t : Tbl Bool) :
    (s.setHdgTimers t).svc = s.svc := rfl
@[simp] theorem State.setHdgTimers_flash (s : State) (t : Tbl Bool) :
    (s.setHdgTimers t).flash = s.flash := rfl
@[simp] theorem State.setHdgTimers_otp (s : State) (t : Tbl Bool) :
    (s.setHdgTimers t).otp = s.otp := rfl
@[simp] theorem State.setHdgTimers_hdg (s : State) (t : Tbl Bool) :
    (s.setHdgTimers t).hdg = { s.hdg with timers := t } := rfl
@[simp] theorem State.setChan_pending (s : State) (n : Nat) (x : Chan) :
    (s.setChan n x).pending = s.pending := rfl
@[simp] theorem State.setChan_now (s : State) (n : Nat) (x : Chan) :
    (s.setChan n x).now = s.now := rfl
@[simp] theorem State.setChan_regs (s : State) (n : Nat) (x : Chan) :
    (s.setChan n x).regs = s.regs := rfl
@[simp] theorem State.setChan_mem (s : State) (n : Nat) (x : Chan) :
    (s.setChan n x).mem = s.mem := rfl
@[simp] theorem State.setChan_out (s : State) (n : Nat) (x : Chan) :
    (s.setChan n x).out = s.out := rfl
@[simp] theorem State.setChan_freeCtr (s : State) (n : Nat) (x : Chan) :
    (s.setChan n x).freeCtr = s.freeCtr := rfl
@[simp] theorem State.setChan_ten (s : State) (n : Nat) (x : Chan) :
    (s.setChan n x).ten = s.ten := rfl
@[simp] theorem State.setChan_tim (s : State) (n : Nat) (x : Chan) :
    (s.setChan n x).tim = s.tim := rfl
@[simp] theorem State.setChan_hdg (s : State) (n : Nat) (x : Chan) :
    (s.setChan n x).hdg = s.hdg := rfl
@[simp] theorem State.setChan_fov (s : State) (n : Nat) (x : Chan) :
    (s.setChan n x).fov = s.fov := rfl
@[simp] theorem State.setChan_planes (s : State) (n : Nat) (x : Chan) :
    (s.setChan n x).planes = s.planes := rfl
@[simp] theorem State.setChan_xpt (s : State) (n : Nat) (x : Chan) :
    (s.setChan n x).xpt = s.xpt := rfl
@[simp] theorem State.setChan_fsa (s : State) (n : Nat) (x : Chan) :
    (s.setChan n x).fsa = s.fsa := rfl
@[simp] theorem State.setChan_cmp (s : State) (n : Nat) (x : Chan) :
    (s.setChan n x).cmp = s.cmp := rfl
@[simp] theorem State.setChan_sal (s : State) (n : Nat) (x : Chan) :
    (s.setChan n x).sal = s.sal := rfl
@[simp] theorem State.setChan_ess (s : State) (n : Nat) (x : Chan) :
    (s.setChan n x).ess = s.ess := rfl
@[simp] theorem State.setChan_bst (s : State) (n : Nat) (x : Chan) :
    (s.setChan n x).bst = s.bst := rfl
@[simp] theorem State.setChan_blk (s : State) (n : Nat) (x : Chan) :
    (s.setChan n x).blk = s.blk := rfl
@[simp] theorem State.setChan_mln (s : State) (n : Nat) (x : Chan) :
    (s.setChan n x).mln = s.mln := rfl
@[simp] theorem State.setChan_mac (s : State) (n : Nat) (x : Chan) :
    (s.setChan n x).mac = s.mac := rfl
@[simp] theorem State.setChan_aud (s : State) (n : Nat) (x : Chan) :
    (s.setChan n x).aud = s.aud := rfl
@[simp] theorem State.setChan_clk (s : State) (n : Nat) (x : Chan) :
    (s.setChan n x).clk = s.clk := rfl
@[simp] theorem State.setChan_pwr (s : State) (n : Nat) (x : Chan) :
    (s.setChan n x).pwr = s.pwr := rfl
@[simp] theorem State.setChan_svc (s : State) (n : Nat) (x : Chan) :
    (s.setChan n x).svc = s.svc := rfl
@[simp] theorem State.setChan_flash (s : State) (n : Nat) (x : Chan) :
    (s.setChan n x).flash = s.flash := rfl
@[simp] theorem State.setChan_otp (s : State) (n : Nat) (x : Chan) :
    (s.setChan n x).otp = s.otp := rfl
@[simp] theorem State.setChan_hif (s : State) (n : Nat) (x : Chan) :
    (s.setChan n x).hif = { s.hif with chans := Tbl.putD s.hif.chans n x Chan.idle } := rfl
@[simp] theorem State.setSvc_pending (s : State) (x : Svc) :
    (s.setSvc x).pending = s.pending := rfl
@[simp] theorem State.setSvc_now (s : State) (x : Svc) :
    (s.setSvc x).now = s.now := rfl
@[simp] theorem State.setSvc_regs (s : State) (x : Svc) :
    (s.setSvc x).regs = s.regs := rfl
@[simp] theorem State.setSvc_mem (s : State) (x : Svc) :
    (s.setSvc x).mem = s.mem := rfl
@[simp] theorem State.setSvc_out (s : State) (x : Svc) :
    (s.setSvc x).out = s.out := rfl
@[simp] theorem State.setSvc_freeCtr (s : State) (x : Svc) :
    (s.setSvc x).freeCtr = s.freeCtr := rfl
@[simp] theorem State.setSvc_hif (s : State) (x : Svc) :
    (s.setSvc x).hif = s.hif := rfl
@[simp] theorem State.setSvc_ten (s : State) (x : Svc) :
    (s.setSvc x).ten = s.ten := rfl
@[simp] theorem State.setSvc_tim (s : State) (x : Svc) :
    (s.setSvc x).tim = s.tim := rfl
@[simp] theorem State.setSvc_hdg (s : State) (x : Svc) :
    (s.setSvc x).hdg = s.hdg := rfl
@[simp] theorem State.setSvc_fov (s : State) (x : Svc) :
    (s.setSvc x).fov = s.fov := rfl
@[simp] theorem State.setSvc_planes (s : State) (x : Svc) :
    (s.setSvc x).planes = s.planes := rfl
@[simp] theorem State.setSvc_xpt (s : State) (x : Svc) :
    (s.setSvc x).xpt = s.xpt := rfl
@[simp] theorem State.setSvc_fsa (s : State) (x : Svc) :
    (s.setSvc x).fsa = s.fsa := rfl
@[simp] theorem State.setSvc_cmp (s : State) (x : Svc) :
    (s.setSvc x).cmp = s.cmp := rfl
@[simp] theorem State.setSvc_sal (s : State) (x : Svc) :
    (s.setSvc x).sal = s.sal := rfl
@[simp] theorem State.setSvc_ess (s : State) (x : Svc) :
    (s.setSvc x).ess = s.ess := rfl
@[simp] theorem State.setSvc_bst (s : State) (x : Svc) :
    (s.setSvc x).bst = s.bst := rfl
@[simp] theorem State.setSvc_blk (s : State) (x : Svc) :
    (s.setSvc x).blk = s.blk := rfl
@[simp] theorem State.setSvc_mln (s : State) (x : Svc) :
    (s.setSvc x).mln = s.mln := rfl
@[simp] theorem State.setSvc_mac (s : State) (x : Svc) :
    (s.setSvc x).mac = s.mac := rfl
@[simp] theorem State.setSvc_aud (s : State) (x : Svc) :
    (s.setSvc x).aud = s.aud := rfl
@[simp] theorem State.setSvc_clk (s : State) (x : Svc) :
    (s.setSvc x).clk = s.clk := rfl
@[simp] theorem State.setSvc_pwr (s : State) (x : Svc) :
    (s.setSvc x).pwr = s.pwr := rfl
@[simp] theorem State.setSvc_flash (s : State) (x : Svc) :
    (s.setSvc x).flash = s.flash := rfl
@[simp] theorem State.setSvc_otp (s : State) (x : Svc) :
    (s.setSvc x).otp = s.otp := rfl
@[simp] theorem State.setSvc_svc (s : State) (x : Svc) :
    (s.setSvc x).svc = x := rfl
@[simp] theorem State.setHif_pending (s : State) (h : Hif) :
    (s.setHif h).pending = s.pending := rfl
@[simp] theorem State.setHif_now (s : State) (h : Hif) :
    (s.setHif h).now = s.now := rfl
@[simp] theorem State.setHif_regs (s : State) (h : Hif) :
    (s.setHif h).regs = s.regs := rfl
@[simp] theorem State.setHif_mem (s : State) (h : Hif) :
    (s.setHif h).mem = s.mem := rfl
@[simp] theorem State.setHif_out (s : State) (h : Hif) :
    (s.setHif h).out = s.out := rfl
@[simp] theorem State.setHif_freeCtr (s : State) (h : Hif) :
    (s.setHif h).freeCtr = s.freeCtr := rfl
@[simp] theorem State.setHif_ten (s : State) (h : Hif) :
    (s.setHif h).ten = s.ten := rfl
@[simp] theorem State.setHif_tim (s : State) (h : Hif) :
    (s.setHif h).tim = s.tim := rfl
@[simp] theorem State.setHif_hdg (s : State) (h : Hif) :
    (s.setHif h).hdg = s.hdg := rfl
@[simp] theorem State.setHif_fov (s : State) (h : Hif) :
    (s.setHif h).fov = s.fov := rfl
@[simp] theorem State.setHif_planes (s : State) (h : Hif) :
    (s.setHif h).planes = s.planes := rfl
@[simp] theorem State.setHif_xpt (s : State) (h : Hif) :
    (s.setHif h).xpt = s.xpt := rfl
@[simp] theorem State.setHif_fsa (s : State) (h : Hif) :
    (s.setHif h).fsa = s.fsa := rfl
@[simp] theorem State.setHif_cmp (s : State) (h : Hif) :
    (s.setHif h).cmp = s.cmp := rfl
@[simp] theorem State.setHif_sal (s : State) (h : Hif) :
    (s.setHif h).sal = s.sal := rfl
@[simp] theorem State.setHif_ess (s : State) (h : Hif) :
    (s.setHif h).ess = s.ess := rfl
@[simp] theorem State.setHif_bst (s : State) (h : Hif) :
    (s.setHif h).bst = s.bst := rfl
@[simp] theorem State.setHif_blk (s : State) (h : Hif) :
    (s.setHif h).blk = s.blk := rfl
@[simp] theorem State.setHif_mln (s : State) (h : Hif) :
    (s.setHif h).mln = s.mln := rfl
@[simp] theorem State.setHif_mac (s : State) (h : Hif) :
    (s.setHif h).mac = s.mac := rfl
@[simp] theorem State.setHif_aud (s : State) (h : Hif) :
    (s.setHif h).aud = s.aud := rfl
@[simp] theorem State.setHif_clk (s : State) (h : Hif) :
    (s.setHif h).clk = s.clk := rfl
@[simp] theorem State.setHif_pwr (s : State) (h : Hif) :
    (s.setHif h).pwr = s.pwr := rfl
@[simp] theorem State.setHif_svc (s : State) (h : Hif) :
    (s.setHif h).svc = s.svc := rfl
@[simp] theorem State.setHif_flash (s : State) (h : Hif) :
    (s.setHif h).flash = s.flash := rfl
@[simp] theorem State.setHif_otp (s : State) (h : Hif) :
    (s.setHif h).otp = s.otp := rfl
@[simp] theorem State.setHif_hif (s : State) (h : Hif) :
    (s.setHif h).hif = h := rfl
@[simp] theorem State.setBlk_pending (s : State) (b : Blk) :
    (s.setBlk b).pending = s.pending := rfl
@[simp] theorem State.setBlk_now (s : State) (b : Blk) :
    (s.setBlk b).now = s.now := rfl
@[simp] theorem State.setBlk_regs (s : State) (b : Blk) :
    (s.setBlk b).regs = s.regs := rfl
@[simp] theorem State.setBlk_mem (s : State) (b : Blk) :
    (s.setBlk b).mem = s.mem := rfl
@[simp] theorem State.setBlk_out (s : State) (b : Blk) :
    (s.setBlk b).out = s.out := rfl
@[simp] theorem State.setBlk_freeCtr (s : State) (b : Blk) :
    (s.setBlk b).freeCtr = s.freeCtr := rfl
@[simp] theorem State.setBlk_hif (s : State) (b : Blk) :
    (s.setBlk b).hif = s.hif := rfl
@[simp] theorem State.setBlk_ten (s : State) (b : Blk) :
    (s.setBlk b).ten = s.ten := rfl
@[simp] theorem State.setBlk_tim (s : State) (b : Blk) :
    (s.setBlk b).tim = s.tim := rfl
@[simp] theorem State.setBlk_hdg (s : State) (b : Blk) :
    (s.setBlk b).hdg = s.hdg := rfl
@[simp] theorem State.setBlk_fov (s : State) (b : Blk) :
    (s.setBlk b).fov = s.fov := rfl
@[simp] theorem State.setBlk_planes (s : State) (b : Blk) :
    (s.setBlk b).planes = s.planes := rfl
@[simp] theorem State.setBlk_xpt (s : State) (b : Blk) :
    (s.setBlk b).xpt = s.xpt := rfl
@[simp] theorem State.setBlk_fsa (s : State) (b : Blk) :
    (s.setBlk b).fsa = s.fsa := rfl
@[simp] theorem State.setBlk_cmp (s : State) (b : Blk) :
    (s.setBlk b).cmp = s.cmp := rfl
@[simp] theorem State.setBlk_sal (s : State) (b : Blk) :
    (s.setBlk b).sal = s.sal := rfl
@[simp] theorem State.setBlk_ess (s : State) (b : Blk) :
    (s.setBlk b).ess = s.ess := rfl
@[simp] theorem State.setBlk_bst (s : State) (b : Blk) :
    (s.setBlk b).bst = s.bst := rfl
@[simp] theorem State.setBlk_mln (s : State) (b : Blk) :
    (s.setBlk b).mln = s.mln := rfl
@[simp] theorem State.setBlk_mac (s : State) (b : Blk) :
    (s.setBlk b).mac = s.mac := rfl
@[simp] theorem State.setBlk_aud (s : State) (b : Blk) :
    (s.setBlk b).aud = s.aud := rfl
@[simp] theorem State.setBlk_clk (s : State) (b : Blk) :
    (s.setBlk b).clk = s.clk := rfl
@[simp] theorem State.setBlk_pwr (s : State) (b : Blk) :
    (s.setBlk b).pwr = s.pwr := rfl
@[simp] theorem State.setBlk_svc (s : State) (b : Blk) :
    (s.setBlk b).svc = s.svc := rfl
@[simp] theorem State.setBlk_flash (s : State) (b : Blk) :
    (s.setBlk b).flash = s.flash := rfl
@[simp] theorem State.setBlk_otp (s : State) (b : Blk) :
    (s.setBlk b).otp = s.otp := rfl
@[simp] theorem State.setBlk_blk (s : State) (b : Blk) :
    (s.setBlk b).blk = b := rfl
@[simp] theorem State.setPlanes_pending (s : State) (p : Planes) :
    (s.setPlanes p).pending = s.pending := rfl
@[simp] theorem State.setPlanes_now (s : State) (p : Planes) :
    (s.setPlanes p).now = s.now := rfl
@[simp] theorem State.setPlanes_regs (s : State) (p : Planes) :
    (s.setPlanes p).regs = s.regs := rfl
@[simp] theorem State.setPlanes_mem (s : State) (p : Planes) :
    (s.setPlanes p).mem = s.mem := rfl
@[simp] theorem State.setPlanes_out (s : State) (p : Planes) :
    (s.setPlanes p).out = s.out := rfl
@[simp] theorem State.setPlanes_freeCtr (s : State) (p : Planes) :
    (s.setPlanes p).freeCtr = s.freeCtr := rfl
@[simp] theorem State.setPlanes_hif (s : State) (p : Planes) :
    (s.setPlanes p).hif = s.hif := rfl
@[simp] theorem State.setPlanes_ten (s : State) (p : Planes) :
    (s.setPlanes p).ten = s.ten := rfl
@[simp] theorem State.setPlanes_tim (s : State) (p : Planes) :
    (s.setPlanes p).tim = s.tim := rfl
@[simp] theorem State.setPlanes_hdg (s : State) (p : Planes) :
    (s.setPlanes p).hdg = s.hdg := rfl
@[simp] theorem State.setPlanes_fov (s : State) (p : Planes) :
    (s.setPlanes p).fov = s.fov := rfl
@[simp] theorem State.setPlanes_xpt (s : State) (p : Planes) :
    (s.setPlanes p).xpt = s.xpt := rfl
@[simp] theorem State.setPlanes_fsa (s : State) (p : Planes) :
    (s.setPlanes p).fsa = s.fsa := rfl
@[simp] theorem State.setPlanes_cmp (s : State) (p : Planes) :
    (s.setPlanes p).cmp = s.cmp := rfl
@[simp] theorem State.setPlanes_sal (s : State) (p : Planes) :
    (s.setPlanes p).sal = s.sal := rfl
@[simp] theorem State.setPlanes_ess (s : State) (p : Planes) :
    (s.setPlanes p).ess = s.ess := rfl
@[simp] theorem State.setPlanes_bst (s : State) (p : Planes) :
    (s.setPlanes p).bst = s.bst := rfl
@[simp] theorem State.setPlanes_blk (s : State) (p : Planes) :
    (s.setPlanes p).blk = s.blk := rfl
@[simp] theorem State.setPlanes_mln (s : State) (p : Planes) :
    (s.setPlanes p).mln = s.mln := rfl
@[simp] theorem State.setPlanes_mac (s : State) (p : Planes) :
    (s.setPlanes p).mac = s.mac := rfl
@[simp] theorem State.setPlanes_aud (s : State) (p : Planes) :
    (s.setPlanes p).aud = s.aud := rfl
@[simp] theorem State.setPlanes_clk (s : State) (p : Planes) :
    (s.setPlanes p).clk = s.clk := rfl
@[simp] theorem State.setPlanes_pwr (s : State) (p : Planes) :
    (s.setPlanes p).pwr = s.pwr := rfl
@[simp] theorem State.setPlanes_svc (s : State) (p : Planes) :
    (s.setPlanes p).svc = s.svc := rfl
@[simp] theorem State.setPlanes_flash (s : State) (p : Planes) :
    (s.setPlanes p).flash = s.flash := rfl
@[simp] theorem State.setPlanes_otp (s : State) (p : Planes) :
    (s.setPlanes p).otp = s.otp := rfl
@[simp] theorem State.setPlanes_planes (s : State) (p : Planes) :
    (s.setPlanes p).planes = p := rfl
@[simp] theorem State.setOwner_pending (s : State) (kind i t : Nat) :
    (s.setOwner kind i t).pending = s.pending := rfl
@[simp] theorem State.setOwner_now (s : State) (kind i t : Nat) :
    (s.setOwner kind i t).now = s.now := rfl
@[simp] theorem State.setOwner_regs (s : State) (kind i t : Nat) :
    (s.setOwner kind i t).regs = s.regs := rfl
@[simp] theorem State.setOwner_mem (s : State) (kind i t : Nat) :
    (s.setOwner kind i t).mem = s.mem := rfl
@[simp] theorem State.setOwner_out (s : State) (kind i t : Nat) :
    (s.setOwner kind i t).out = s.out := rfl
@[simp] theorem State.setOwner_freeCtr (s : State) (kind i t : Nat) :
    (s.setOwner kind i t).freeCtr = s.freeCtr := rfl
@[simp] theorem State.setOwner_hif (s : State) (kind i t : Nat) :
    (s.setOwner kind i t).hif = s.hif := rfl
@[simp] theorem State.setOwner_tim (s : State) (kind i t : Nat) :
    (s.setOwner kind i t).tim = s.tim := rfl
@[simp] theorem State.setOwner_hdg (s : State) (kind i t : Nat) :
    (s.setOwner kind i t).hdg = s.hdg := rfl
@[simp] theorem State.setOwner_fov (s : State) (kind i t : Nat) :
    (s.setOwner kind i t).fov = s.fov := rfl
@[simp] theorem State.setOwner_planes (s : State) (kind i t : Nat) :
    (s.setOwner kind i t).planes = s.planes := rfl
@[simp] theorem State.setOwner_xpt (s : State) (kind i t : Nat) :
    (s.setOwner kind i t).xpt = s.xpt := rfl
@[simp] theorem State.setOwner_fsa (s : State) (kind i t : Nat) :
    (s.setOwner kind i t).fsa = s.fsa := rfl
@[simp] theorem State.setOwner_cmp (s : State) (kind i t : Nat) :
    (s.setOwner kind i t).cmp = s.cmp := rfl
@[simp] theorem State.setOwner_sal (s : State) (kind i t : Nat) :
    (s.setOwner kind i t).sal = s.sal := rfl
@[simp] theorem State.setOwner_ess (s : State) (kind i t : Nat) :
    (s.setOwner kind i t).ess = s.ess := rfl
@[simp] theorem State.setOwner_bst (s : State) (kind i t : Nat) :
    (s.setOwner kind i t).bst = s.bst := rfl
@[simp] theorem State.setOwner_blk (s : State) (kind i t : Nat) :
    (s.setOwner kind i t).blk = s.blk := rfl
@[simp] theorem State.setOwner_mln (s : State) (kind i t : Nat) :
    (s.setOwner kind i t).mln = s.mln := rfl
@[simp] theorem State.setOwner_mac (s : State) (kind i t : Nat) :
    (s.setOwner kind i t).mac = s.mac := rfl
@[simp] theorem State.setOwner_aud (s : State) (kind i t : Nat) :
    (s.setOwner kind i t).aud = s.aud := rfl
@[simp] theorem State.setOwner_clk (s : State) (kind i t : Nat) :
    (s.setOwner kind i t).clk = s.clk := rfl
@[simp] theorem State.setOwner_pwr (s : State) (kind i t : Nat) :
    (s.setOwner kind i t).pwr = s.pwr := rfl
@[simp] theorem State.setOwner_svc (s : State) (kind i t : Nat) :
    (s.setOwner kind i t).svc = s.svc := rfl
@[simp] theorem State.setOwner_flash (s : State) (kind i t : Nat) :
    (s.setOwner kind i t).flash = s.flash := rfl
@[simp] theorem State.setOwner_otp (s : State) (kind i t : Nat) :
    (s.setOwner kind i t).otp = s.otp := rfl
@[simp] theorem State.setOwner_ten (s : State) (kind i t : Nat) :
    (s.setOwner kind i t).ten = { s.ten with owner := Tbl.putD s.ten.owner (65536 * kind + i) t 0 } := rfl
@[simp] theorem State.setAligner_pending (s : State) (src : Nat) (a : Aligner) :
    (s.setAligner src a).pending = s.pending := rfl
@[simp] theorem State.setAligner_now (s : State) (src : Nat) (a : Aligner) :
    (s.setAligner src a).now = s.now := rfl
@[simp] theorem State.setAligner_regs (s : State) (src : Nat) (a : Aligner) :
    (s.setAligner src a).regs = s.regs := rfl
@[simp] theorem State.setAligner_mem (s : State) (src : Nat) (a : Aligner) :
    (s.setAligner src a).mem = s.mem := rfl
@[simp] theorem State.setAligner_out (s : State) (src : Nat) (a : Aligner) :
    (s.setAligner src a).out = s.out := rfl
@[simp] theorem State.setAligner_freeCtr (s : State) (src : Nat) (a : Aligner) :
    (s.setAligner src a).freeCtr = s.freeCtr := rfl
@[simp] theorem State.setAligner_hif (s : State) (src : Nat) (a : Aligner) :
    (s.setAligner src a).hif = s.hif := rfl
@[simp] theorem State.setAligner_ten (s : State) (src : Nat) (a : Aligner) :
    (s.setAligner src a).ten = s.ten := rfl
@[simp] theorem State.setAligner_tim (s : State) (src : Nat) (a : Aligner) :
    (s.setAligner src a).tim = s.tim := rfl
@[simp] theorem State.setAligner_hdg (s : State) (src : Nat) (a : Aligner) :
    (s.setAligner src a).hdg = s.hdg := rfl
@[simp] theorem State.setAligner_fov (s : State) (src : Nat) (a : Aligner) :
    (s.setAligner src a).fov = s.fov := rfl
@[simp] theorem State.setAligner_planes (s : State) (src : Nat) (a : Aligner) :
    (s.setAligner src a).planes = s.planes := rfl
@[simp] theorem State.setAligner_xpt (s : State) (src : Nat) (a : Aligner) :
    (s.setAligner src a).xpt = s.xpt := rfl
@[simp] theorem State.setAligner_cmp (s : State) (src : Nat) (a : Aligner) :
    (s.setAligner src a).cmp = s.cmp := rfl
@[simp] theorem State.setAligner_sal (s : State) (src : Nat) (a : Aligner) :
    (s.setAligner src a).sal = s.sal := rfl
@[simp] theorem State.setAligner_ess (s : State) (src : Nat) (a : Aligner) :
    (s.setAligner src a).ess = s.ess := rfl
@[simp] theorem State.setAligner_bst (s : State) (src : Nat) (a : Aligner) :
    (s.setAligner src a).bst = s.bst := rfl
@[simp] theorem State.setAligner_blk (s : State) (src : Nat) (a : Aligner) :
    (s.setAligner src a).blk = s.blk := rfl
@[simp] theorem State.setAligner_mln (s : State) (src : Nat) (a : Aligner) :
    (s.setAligner src a).mln = s.mln := rfl
@[simp] theorem State.setAligner_mac (s : State) (src : Nat) (a : Aligner) :
    (s.setAligner src a).mac = s.mac := rfl
@[simp] theorem State.setAligner_aud (s : State) (src : Nat) (a : Aligner) :
    (s.setAligner src a).aud = s.aud := rfl
@[simp] theorem State.setAligner_clk (s : State) (src : Nat) (a : Aligner) :
    (s.setAligner src a).clk = s.clk := rfl
@[simp] theorem State.setAligner_pwr (s : State) (src : Nat) (a : Aligner) :
    (s.setAligner src a).pwr = s.pwr := rfl
@[simp] theorem State.setAligner_svc (s : State) (src : Nat) (a : Aligner) :
    (s.setAligner src a).svc = s.svc := rfl
@[simp] theorem State.setAligner_flash (s : State) (src : Nat) (a : Aligner) :
    (s.setAligner src a).flash = s.flash := rfl
@[simp] theorem State.setAligner_otp (s : State) (src : Nat) (a : Aligner) :
    (s.setAligner src a).otp = s.otp := rfl
@[simp] theorem State.setAligner_fsa (s : State) (src : Nat) (a : Aligner) :
    (s.setAligner src a).fsa = { s.fsa with aligners := Tbl.putD s.fsa.aligners src a Aligner.idle } := rfl
@[simp] theorem State.setSync_pending (s : State) (src : Nat) (u : SyncUnit) :
    (s.setSync src u).pending = s.pending := rfl
@[simp] theorem State.setSync_now (s : State) (src : Nat) (u : SyncUnit) :
    (s.setSync src u).now = s.now := rfl
@[simp] theorem State.setSync_regs (s : State) (src : Nat) (u : SyncUnit) :
    (s.setSync src u).regs = s.regs := rfl
@[simp] theorem State.setSync_mem (s : State) (src : Nat) (u : SyncUnit) :
    (s.setSync src u).mem = s.mem := rfl
@[simp] theorem State.setSync_out (s : State) (src : Nat) (u : SyncUnit) :
    (s.setSync src u).out = s.out := rfl
@[simp] theorem State.setSync_freeCtr (s : State) (src : Nat) (u : SyncUnit) :
    (s.setSync src u).freeCtr = s.freeCtr := rfl
@[simp] theorem State.setSync_hif (s : State) (src : Nat) (u : SyncUnit) :
    (s.setSync src u).hif = s.hif := rfl
@[simp] theorem State.setSync_ten (s : State) (src : Nat) (u : SyncUnit) :
    (s.setSync src u).ten = s.ten := rfl
@[simp] theorem State.setSync_tim (s : State) (src : Nat) (u : SyncUnit) :
    (s.setSync src u).tim = s.tim := rfl
@[simp] theorem State.setSync_hdg (s : State) (src : Nat) (u : SyncUnit) :
    (s.setSync src u).hdg = s.hdg := rfl
@[simp] theorem State.setSync_fov (s : State) (src : Nat) (u : SyncUnit) :
    (s.setSync src u).fov = s.fov := rfl
@[simp] theorem State.setSync_planes (s : State) (src : Nat) (u : SyncUnit) :
    (s.setSync src u).planes = s.planes := rfl
@[simp] theorem State.setSync_xpt (s : State) (src : Nat) (u : SyncUnit) :
    (s.setSync src u).xpt = s.xpt := rfl
@[simp] theorem State.setSync_cmp (s : State) (src : Nat) (u : SyncUnit) :
    (s.setSync src u).cmp = s.cmp := rfl
@[simp] theorem State.setSync_sal (s : State) (src : Nat) (u : SyncUnit) :
    (s.setSync src u).sal = s.sal := rfl
@[simp] theorem State.setSync_ess (s : State) (src : Nat) (u : SyncUnit) :
    (s.setSync src u).ess = s.ess := rfl
@[simp] theorem State.setSync_bst (s : State) (src : Nat) (u : SyncUnit) :
    (s.setSync src u).bst = s.bst := rfl
@[simp] theorem State.setSync_blk (s : State) (src : Nat) (u : SyncUnit) :
    (s.setSync src u).blk = s.blk := rfl
@[simp] theorem State.setSync_mln (s : State) (src : Nat) (u : SyncUnit) :
    (s.setSync src u).mln = s.mln := rfl
@[simp] theorem State.setSync_mac (s : State) (src : Nat) (u : SyncUnit) :
    (s.setSync src u).mac = s.mac := rfl
@[simp] theorem State.setSync_aud (s : State) (src : Nat) (u : SyncUnit) :
    (s.setSync src u).aud = s.aud := rfl
@[simp] theorem State.setSync_clk (s : State) (src : Nat) (u : SyncUnit) :
    (s.setSync src u).clk = s.clk := rfl
@[simp] theorem State.setSync_pwr (s : State) (src : Nat) (u : SyncUnit) :
    (s.setSync src u).pwr = s.pwr := rfl
@[simp] theorem State.setSync_svc (s : State) (src : Nat) (u : SyncUnit) :
    (s.setSync src u).svc = s.svc := rfl
@[simp] theorem State.setSync_flash (s : State) (src : Nat) (u : SyncUnit) :
    (s.setSync src u).flash = s.flash := rfl
@[simp] theorem State.setSync_otp (s : State) (src : Nat) (u : SyncUnit) :
    (s.setSync src u).otp = s.otp := rfl
@[simp] theorem State.setSync_fsa (s : State) (src : Nat) (u : SyncUnit) :
    (s.setSync src u).fsa = { s.fsa with syncs := Tbl.put s.fsa.syncs src u } := rfl
@[simp] theorem State.setXpt_pending (s : State) (x : Xpt) :
    (s.setXpt x).pending = s.pending := rfl
@[simp] theorem State.setXpt_now (s : State) (x : Xpt) :
    (s.setXpt x).now = s.now := rfl
@[simp] theorem State.setXpt_regs (s : State) (x : Xpt) :
    (s.setXpt x).regs = s.regs := rfl
@[simp] theorem State.setXpt_mem (s : State) (x : Xpt) :
    (s.setXpt x).mem = s.mem := rfl
@[simp] theorem State.setXpt_out (s : State) (x : Xpt) :
    (s.setXpt x).out = s.out := rfl
@[simp] theorem State.setXpt_freeCtr (s : State) (x : Xpt) :
    (s.setXpt x).freeCtr = s.freeCtr := rfl
@[simp] theorem State.setXpt_hif (s : State) (x : Xpt) :
    (s.setXpt x).hif = s.hif := rfl
@[simp] theorem State.setXpt_ten (s : State) (x : Xpt) :
    (s.setXpt x).ten = s.ten := rfl
@[simp] theorem State.setXpt_tim (s : State) (x : Xpt) :
    (s.setXpt x).tim = s.tim := rfl
@[simp] theorem State.setXpt_hdg (s : State) (x : Xpt) :
    (s.setXpt x).hdg = s.hdg := rfl
@[simp] theorem State.setXpt_fov (s : State) (x : Xpt) :
    (s.setXpt x).fov = s.fov := rfl
@[simp] theorem State.setXpt_planes (s : State) (x : Xpt) :
    (s.setXpt x).planes = s.planes := rfl
@[simp] theorem State.setXpt_fsa (s : State) (x : Xpt) :
    (s.setXpt x).fsa = s.fsa := rfl
@[simp] theorem State.setXpt_cmp (s : State) (x : Xpt) :
    (s.setXpt x).cmp = s.cmp := rfl
@[simp] theorem State.setXpt_sal (s : State) (x : Xpt) :
    (s.setXpt x).sal = s.sal := rfl
@[simp] theorem State.setXpt_ess (s : State) (x : Xpt) :
    (s.setXpt x).ess = s.ess := rfl
@[simp] theorem State.setXpt_bst (s : State) (x : Xpt) :
    (s.setXpt x).bst = s.bst := rfl
@[simp] theorem State.setXpt_blk (s : State) (x : Xpt) :
    (s.setXpt x).blk = s.blk := rfl
@[simp] theorem State.setXpt_mln (s : State) (x : Xpt) :
    (s.setXpt x).mln = s.mln := rfl
@[simp] theorem State.setXpt_mac (s : State) (x : Xpt) :
    (s.setXpt x).mac = s.mac := rfl
@[simp] theorem State.setXpt_aud (s : State) (x : Xpt) :
    (s.setXpt x).aud = s.aud := rfl
@[simp] theorem State.setXpt_clk (s : State) (x : Xpt) :
    (s.setXpt x).clk = s.clk := rfl
@[simp] theorem State.setXpt_pwr (s : State) (x : Xpt) :
    (s.setXpt x).pwr = s.pwr := rfl
@[simp] theorem State.setXpt_svc (s : State) (x : Xpt) :
    (s.setXpt x).svc = s.svc := rfl
@[simp] theorem State.setXpt_flash (s : State) (x : Xpt) :
    (s.setXpt x).flash = s.flash := rfl
@[simp] theorem State.setXpt_otp (s : State) (x : Xpt) :
    (s.setXpt x).otp = s.otp := rfl
@[simp] theorem State.setXpt_xpt (s : State) (x : Xpt) :
    (s.setXpt x).xpt = x := rfl
@[simp] theorem State.setSlot_pending (s : State) (k : Nat) (x : Salvo) :
    (s.setSlot k x).pending = s.pending := rfl
@[simp] theorem State.setSlot_now (s : State) (k : Nat) (x : Salvo) :
    (s.setSlot k x).now = s.now := rfl
@[simp] theorem State.setSlot_regs (s : State) (k : Nat) (x : Salvo) :
    (s.setSlot k x).regs = s.regs := rfl
@[simp] theorem State.setSlot_mem (s : State) (k : Nat) (x : Salvo) :
    (s.setSlot k x).mem = s.mem := rfl
@[simp] theorem State.setSlot_out (s : State) (k : Nat) (x : Salvo) :
    (s.setSlot k x).out = s.out := rfl
@[simp] theorem State.setSlot_freeCtr (s : State) (k : Nat) (x : Salvo) :
    (s.setSlot k x).freeCtr = s.freeCtr := rfl
@[simp] theorem State.setSlot_hif (s : State) (k : Nat) (x : Salvo) :
    (s.setSlot k x).hif = s.hif := rfl
@[simp] theorem State.setSlot_ten (s : State) (k : Nat) (x : Salvo) :
    (s.setSlot k x).ten = s.ten := rfl
@[simp] theorem State.setSlot_tim (s : State) (k : Nat) (x : Salvo) :
    (s.setSlot k x).tim = s.tim := rfl
@[simp] theorem State.setSlot_hdg (s : State) (k : Nat) (x : Salvo) :
    (s.setSlot k x).hdg = s.hdg := rfl
@[simp] theorem State.setSlot_fov (s : State) (k : Nat) (x : Salvo) :
    (s.setSlot k x).fov = s.fov := rfl
@[simp] theorem State.setSlot_planes (s : State) (k : Nat) (x : Salvo) :
    (s.setSlot k x).planes = s.planes := rfl
@[simp] theorem State.setSlot_xpt (s : State) (k : Nat) (x : Salvo) :
    (s.setSlot k x).xpt = s.xpt := rfl
@[simp] theorem State.setSlot_fsa (s : State) (k : Nat) (x : Salvo) :
    (s.setSlot k x).fsa = s.fsa := rfl
@[simp] theorem State.setSlot_cmp (s : State) (k : Nat) (x : Salvo) :
    (s.setSlot k x).cmp = s.cmp := rfl
@[simp] theorem State.setSlot_ess (s : State) (k : Nat) (x : Salvo) :
    (s.setSlot k x).ess = s.ess := rfl
@[simp] theorem State.setSlot_bst (s : State) (k : Nat) (x : Salvo) :
    (s.setSlot k x).bst = s.bst := rfl
@[simp] theorem State.setSlot_blk (s : State) (k : Nat) (x : Salvo) :
    (s.setSlot k x).blk = s.blk := rfl
@[simp] theorem State.setSlot_mln (s : State) (k : Nat) (x : Salvo) :
    (s.setSlot k x).mln = s.mln := rfl
@[simp] theorem State.setSlot_mac (s : State) (k : Nat) (x : Salvo) :
    (s.setSlot k x).mac = s.mac := rfl
@[simp] theorem State.setSlot_aud (s : State) (k : Nat) (x : Salvo) :
    (s.setSlot k x).aud = s.aud := rfl
@[simp] theorem State.setSlot_clk (s : State) (k : Nat) (x : Salvo) :
    (s.setSlot k x).clk = s.clk := rfl
@[simp] theorem State.setSlot_pwr (s : State) (k : Nat) (x : Salvo) :
    (s.setSlot k x).pwr = s.pwr := rfl
@[simp] theorem State.setSlot_svc (s : State) (k : Nat) (x : Salvo) :
    (s.setSlot k x).svc = s.svc := rfl
@[simp] theorem State.setSlot_flash (s : State) (k : Nat) (x : Salvo) :
    (s.setSlot k x).flash = s.flash := rfl
@[simp] theorem State.setSlot_otp (s : State) (k : Nat) (x : Salvo) :
    (s.setSlot k x).otp = s.otp := rfl
@[simp] theorem State.setSlot_sal (s : State) (k : Nat) (x : Salvo) :
    (s.setSlot k x).sal = { s.sal with slots := Tbl.put s.sal.slots k x } := rfl
@[simp] theorem State.setBst_pending (s : State) (b : Bst) :
    (s.setBst b).pending = s.pending := rfl
@[simp] theorem State.setBst_now (s : State) (b : Bst) :
    (s.setBst b).now = s.now := rfl
@[simp] theorem State.setBst_regs (s : State) (b : Bst) :
    (s.setBst b).regs = s.regs := rfl
@[simp] theorem State.setBst_mem (s : State) (b : Bst) :
    (s.setBst b).mem = s.mem := rfl
@[simp] theorem State.setBst_out (s : State) (b : Bst) :
    (s.setBst b).out = s.out := rfl
@[simp] theorem State.setBst_freeCtr (s : State) (b : Bst) :
    (s.setBst b).freeCtr = s.freeCtr := rfl
@[simp] theorem State.setBst_hif (s : State) (b : Bst) :
    (s.setBst b).hif = s.hif := rfl
@[simp] theorem State.setBst_ten (s : State) (b : Bst) :
    (s.setBst b).ten = s.ten := rfl
@[simp] theorem State.setBst_tim (s : State) (b : Bst) :
    (s.setBst b).tim = s.tim := rfl
@[simp] theorem State.setBst_hdg (s : State) (b : Bst) :
    (s.setBst b).hdg = s.hdg := rfl
@[simp] theorem State.setBst_fov (s : State) (b : Bst) :
    (s.setBst b).fov = s.fov := rfl
@[simp] theorem State.setBst_planes (s : State) (b : Bst) :
    (s.setBst b).planes = s.planes := rfl
@[simp] theorem State.setBst_xpt (s : State) (b : Bst) :
    (s.setBst b).xpt = s.xpt := rfl
@[simp] theorem State.setBst_fsa (s : State) (b : Bst) :
    (s.setBst b).fsa = s.fsa := rfl
@[simp] theorem State.setBst_cmp (s : State) (b : Bst) :
    (s.setBst b).cmp = s.cmp := rfl
@[simp] theorem State.setBst_sal (s : State) (b : Bst) :
    (s.setBst b).sal = s.sal := rfl
@[simp] theorem State.setBst_ess (s : State) (b : Bst) :
    (s.setBst b).ess = s.ess := rfl
@[simp] theorem State.setBst_blk (s : State) (b : Bst) :
    (s.setBst b).blk = s.blk := rfl
@[simp] theorem State.setBst_mln (s : State) (b : Bst) :
    (s.setBst b).mln = s.mln := rfl
@[simp] theorem State.setBst_mac (s : State) (b : Bst) :
    (s.setBst b).mac = s.mac := rfl
@[simp] theorem State.setBst_aud (s : State) (b : Bst) :
    (s.setBst b).aud = s.aud := rfl
@[simp] theorem State.setBst_clk (s : State) (b : Bst) :
    (s.setBst b).clk = s.clk := rfl
@[simp] theorem State.setBst_pwr (s : State) (b : Bst) :
    (s.setBst b).pwr = s.pwr := rfl
@[simp] theorem State.setBst_svc (s : State) (b : Bst) :
    (s.setBst b).svc = s.svc := rfl
@[simp] theorem State.setBst_flash (s : State) (b : Bst) :
    (s.setBst b).flash = s.flash := rfl
@[simp] theorem State.setBst_otp (s : State) (b : Bst) :
    (s.setBst b).otp = s.otp := rfl
@[simp] theorem State.setBst_bst (s : State) (b : Bst) :
    (s.setBst b).bst = b := rfl
@[simp] theorem State.setCmp_pending (s : State) (c : Cmp) :
    (s.setCmp c).pending = s.pending := rfl
@[simp] theorem State.setCmp_now (s : State) (c : Cmp) :
    (s.setCmp c).now = s.now := rfl
@[simp] theorem State.setCmp_regs (s : State) (c : Cmp) :
    (s.setCmp c).regs = s.regs := rfl
@[simp] theorem State.setCmp_mem (s : State) (c : Cmp) :
    (s.setCmp c).mem = s.mem := rfl
@[simp] theorem State.setCmp_out (s : State) (c : Cmp) :
    (s.setCmp c).out = s.out := rfl
@[simp] theorem State.setCmp_freeCtr (s : State) (c : Cmp) :
    (s.setCmp c).freeCtr = s.freeCtr := rfl
@[simp] theorem State.setCmp_hif (s : State) (c : Cmp) :
    (s.setCmp c).hif = s.hif := rfl
@[simp] theorem State.setCmp_ten (s : State) (c : Cmp) :
    (s.setCmp c).ten = s.ten := rfl
@[simp] theorem State.setCmp_tim (s : State) (c : Cmp) :
    (s.setCmp c).tim = s.tim := rfl
@[simp] theorem State.setCmp_hdg (s : State) (c : Cmp) :
    (s.setCmp c).hdg = s.hdg := rfl
@[simp] theorem State.setCmp_fov (s : State) (c : Cmp) :
    (s.setCmp c).fov = s.fov := rfl
@[simp] theorem State.setCmp_planes (s : State) (c : Cmp) :
    (s.setCmp c).planes = s.planes := rfl
@[simp] theorem State.setCmp_xpt (s : State) (c : Cmp) :
    (s.setCmp c).xpt = s.xpt := rfl
@[simp] theorem State.setCmp_fsa (s : State) (c : Cmp) :
    (s.setCmp c).fsa = s.fsa := rfl
@[simp] theorem State.setCmp_sal (s : State) (c : Cmp) :
    (s.setCmp c).sal = s.sal := rfl
@[simp] theorem State.setCmp_ess (s : State) (c : Cmp) :
    (s.setCmp c).ess = s.ess := rfl
@[simp] theorem State.setCmp_bst (s : State) (c : Cmp) :
    (s.setCmp c).bst = s.bst := rfl
@[simp] theorem State.setCmp_blk (s : State) (c : Cmp) :
    (s.setCmp c).blk = s.blk := rfl
@[simp] theorem State.setCmp_mln (s : State) (c : Cmp) :
    (s.setCmp c).mln = s.mln := rfl
@[simp] theorem State.setCmp_mac (s : State) (c : Cmp) :
    (s.setCmp c).mac = s.mac := rfl
@[simp] theorem State.setCmp_aud (s : State) (c : Cmp) :
    (s.setCmp c).aud = s.aud := rfl
@[simp] theorem State.setCmp_clk (s : State) (c : Cmp) :
    (s.setCmp c).clk = s.clk := rfl
@[simp] theorem State.setCmp_pwr (s : State) (c : Cmp) :
    (s.setCmp c).pwr = s.pwr := rfl
@[simp] theorem State.setCmp_svc (s : State) (c : Cmp) :
    (s.setCmp c).svc = s.svc := rfl
@[simp] theorem State.setCmp_flash (s : State) (c : Cmp) :
    (s.setCmp c).flash = s.flash := rfl
@[simp] theorem State.setCmp_otp (s : State) (c : Cmp) :
    (s.setCmp c).otp = s.otp := rfl
@[simp] theorem State.setCmp_cmp (s : State) (c : Cmp) :
    (s.setCmp c).cmp = c := rfl
@[simp] theorem State.delSlot_pending (s : State) (k : Nat) :
    (s.delSlot k).pending = s.pending := rfl
@[simp] theorem State.delSlot_now (s : State) (k : Nat) :
    (s.delSlot k).now = s.now := rfl
@[simp] theorem State.delSlot_regs (s : State) (k : Nat) :
    (s.delSlot k).regs = s.regs := rfl
@[simp] theorem State.delSlot_mem (s : State) (k : Nat) :
    (s.delSlot k).mem = s.mem := rfl
@[simp] theorem State.delSlot_out (s : State) (k : Nat) :
    (s.delSlot k).out = s.out := rfl
@[simp] theorem State.delSlot_freeCtr (s : State) (k : Nat) :
    (s.delSlot k).freeCtr = s.freeCtr := rfl
@[simp] theorem State.delSlot_hif (s : State) (k : Nat) :
    (s.delSlot k).hif = s.hif := rfl
@[simp] theorem State.delSlot_ten (s : State) (k : Nat) :
    (s.delSlot k).ten = s.ten := rfl
@[simp] theorem State.delSlot_tim (s : State) (k : Nat) :
    (s.delSlot k).tim = s.tim := rfl
@[simp] theorem State.delSlot_hdg (s : State) (k : Nat) :
    (s.delSlot k).hdg = s.hdg := rfl
@[simp] theorem State.delSlot_fov (s : State) (k : Nat) :
    (s.delSlot k).fov = s.fov := rfl
@[simp] theorem State.delSlot_planes (s : State) (k : Nat) :
    (s.delSlot k).planes = s.planes := rfl
@[simp] theorem State.delSlot_xpt (s : State) (k : Nat) :
    (s.delSlot k).xpt = s.xpt := rfl
@[simp] theorem State.delSlot_fsa (s : State) (k : Nat) :
    (s.delSlot k).fsa = s.fsa := rfl
@[simp] theorem State.delSlot_cmp (s : State) (k : Nat) :
    (s.delSlot k).cmp = s.cmp := rfl
@[simp] theorem State.delSlot_ess (s : State) (k : Nat) :
    (s.delSlot k).ess = s.ess := rfl
@[simp] theorem State.delSlot_bst (s : State) (k : Nat) :
    (s.delSlot k).bst = s.bst := rfl
@[simp] theorem State.delSlot_blk (s : State) (k : Nat) :
    (s.delSlot k).blk = s.blk := rfl
@[simp] theorem State.delSlot_mln (s : State) (k : Nat) :
    (s.delSlot k).mln = s.mln := rfl
@[simp] theorem State.delSlot_mac (s : State) (k : Nat) :
    (s.delSlot k).mac = s.mac := rfl
@[simp] theorem State.delSlot_aud (s : State) (k : Nat) :
    (s.delSlot k).aud = s.aud := rfl
@[simp] theorem State.delSlot_clk (s : State) (k : Nat) :
    (s.delSlot k).clk = s.clk := rfl
@[simp] theorem State.delSlot_pwr (s : State) (k : Nat) :
    (s.delSlot k).pwr = s.pwr := rfl
@[simp] theorem State.delSlot_svc (s : State) (k : Nat) :
    (s.delSlot k).svc = s.svc := rfl
@[simp] theorem State.delSlot_flash (s : State) (k : Nat) :
    (s.delSlot k).flash = s.flash := rfl
@[simp] theorem State.delSlot_otp (s : State) (k : Nat) :
    (s.delSlot k).otp = s.otp := rfl
@[simp] theorem State.delSlot_sal (s : State) (k : Nat) :
    (s.delSlot k).sal = { s.sal with slots := Tbl.del s.sal.slots k } := rfl
@[simp] theorem State.setHeld_pending (s : State) (l : List HeldPrepare) :
    (s.setHeld l).pending = s.pending := rfl
@[simp] theorem State.setHeld_now (s : State) (l : List HeldPrepare) :
    (s.setHeld l).now = s.now := rfl
@[simp] theorem State.setHeld_regs (s : State) (l : List HeldPrepare) :
    (s.setHeld l).regs = s.regs := rfl
@[simp] theorem State.setHeld_mem (s : State) (l : List HeldPrepare) :
    (s.setHeld l).mem = s.mem := rfl
@[simp] theorem State.setHeld_out (s : State) (l : List HeldPrepare) :
    (s.setHeld l).out = s.out := rfl
@[simp] theorem State.setHeld_freeCtr (s : State) (l : List HeldPrepare) :
    (s.setHeld l).freeCtr = s.freeCtr := rfl
@[simp] theorem State.setHeld_hif (s : State) (l : List HeldPrepare) :
    (s.setHeld l).hif = s.hif := rfl
@[simp] theorem State.setHeld_ten (s : State) (l : List HeldPrepare) :
    (s.setHeld l).ten = s.ten := rfl
@[simp] theorem State.setHeld_tim (s : State) (l : List HeldPrepare) :
    (s.setHeld l).tim = s.tim := rfl
@[simp] theorem State.setHeld_hdg (s : State) (l : List HeldPrepare) :
    (s.setHeld l).hdg = s.hdg := rfl
@[simp] theorem State.setHeld_fov (s : State) (l : List HeldPrepare) :
    (s.setHeld l).fov = s.fov := rfl
@[simp] theorem State.setHeld_planes (s : State) (l : List HeldPrepare) :
    (s.setHeld l).planes = s.planes := rfl
@[simp] theorem State.setHeld_xpt (s : State) (l : List HeldPrepare) :
    (s.setHeld l).xpt = s.xpt := rfl
@[simp] theorem State.setHeld_fsa (s : State) (l : List HeldPrepare) :
    (s.setHeld l).fsa = s.fsa := rfl
@[simp] theorem State.setHeld_cmp (s : State) (l : List HeldPrepare) :
    (s.setHeld l).cmp = s.cmp := rfl
@[simp] theorem State.setHeld_ess (s : State) (l : List HeldPrepare) :
    (s.setHeld l).ess = s.ess := rfl
@[simp] theorem State.setHeld_bst (s : State) (l : List HeldPrepare) :
    (s.setHeld l).bst = s.bst := rfl
@[simp] theorem State.setHeld_blk (s : State) (l : List HeldPrepare) :
    (s.setHeld l).blk = s.blk := rfl
@[simp] theorem State.setHeld_mln (s : State) (l : List HeldPrepare) :
    (s.setHeld l).mln = s.mln := rfl
@[simp] theorem State.setHeld_mac (s : State) (l : List HeldPrepare) :
    (s.setHeld l).mac = s.mac := rfl
@[simp] theorem State.setHeld_aud (s : State) (l : List HeldPrepare) :
    (s.setHeld l).aud = s.aud := rfl
@[simp] theorem State.setHeld_clk (s : State) (l : List HeldPrepare) :
    (s.setHeld l).clk = s.clk := rfl
@[simp] theorem State.setHeld_pwr (s : State) (l : List HeldPrepare) :
    (s.setHeld l).pwr = s.pwr := rfl
@[simp] theorem State.setHeld_svc (s : State) (l : List HeldPrepare) :
    (s.setHeld l).svc = s.svc := rfl
@[simp] theorem State.setHeld_flash (s : State) (l : List HeldPrepare) :
    (s.setHeld l).flash = s.flash := rfl
@[simp] theorem State.setHeld_otp (s : State) (l : List HeldPrepare) :
    (s.setHeld l).otp = s.otp := rfl
@[simp] theorem State.setHeld_sal (s : State) (l : List HeldPrepare) :
    (s.setHeld l).sal = { s.sal with held := l } := rfl
@[simp] theorem State.setMln_pending (s : State) (m : Mln) :
    (s.setMln m).pending = s.pending := rfl
@[simp] theorem State.setMln_now (s : State) (m : Mln) :
    (s.setMln m).now = s.now := rfl
@[simp] theorem State.setMln_regs (s : State) (m : Mln) :
    (s.setMln m).regs = s.regs := rfl
@[simp] theorem State.setMln_mem (s : State) (m : Mln) :
    (s.setMln m).mem = s.mem := rfl
@[simp] theorem State.setMln_out (s : State) (m : Mln) :
    (s.setMln m).out = s.out := rfl
@[simp] theorem State.setMln_freeCtr (s : State) (m : Mln) :
    (s.setMln m).freeCtr = s.freeCtr := rfl
@[simp] theorem State.setMln_hif (s : State) (m : Mln) :
    (s.setMln m).hif = s.hif := rfl
@[simp] theorem State.setMln_ten (s : State) (m : Mln) :
    (s.setMln m).ten = s.ten := rfl
@[simp] theorem State.setMln_tim (s : State) (m : Mln) :
    (s.setMln m).tim = s.tim := rfl
@[simp] theorem State.setMln_hdg (s : State) (m : Mln) :
    (s.setMln m).hdg = s.hdg := rfl
@[simp] theorem State.setMln_fov (s : State) (m : Mln) :
    (s.setMln m).fov = s.fov := rfl
@[simp] theorem State.setMln_planes (s : State) (m : Mln) :
    (s.setMln m).planes = s.planes := rfl
@[simp] theorem State.setMln_xpt (s : State) (m : Mln) :
    (s.setMln m).xpt = s.xpt := rfl
@[simp] theorem State.setMln_fsa (s : State) (m : Mln) :
    (s.setMln m).fsa = s.fsa := rfl
@[simp] theorem State.setMln_cmp (s : State) (m : Mln) :
    (s.setMln m).cmp = s.cmp := rfl
@[simp] theorem State.setMln_sal (s : State) (m : Mln) :
    (s.setMln m).sal = s.sal := rfl
@[simp] theorem State.setMln_ess (s : State) (m : Mln) :
    (s.setMln m).ess = s.ess := rfl
@[simp] theorem State.setMln_bst (s : State) (m : Mln) :
    (s.setMln m).bst = s.bst := rfl
@[simp] theorem State.setMln_blk (s : State) (m : Mln) :
    (s.setMln m).blk = s.blk := rfl
@[simp] theorem State.setMln_mac (s : State) (m : Mln) :
    (s.setMln m).mac = s.mac := rfl
@[simp] theorem State.setMln_aud (s : State) (m : Mln) :
    (s.setMln m).aud = s.aud := rfl
@[simp] theorem State.setMln_clk (s : State) (m : Mln) :
    (s.setMln m).clk = s.clk := rfl
@[simp] theorem State.setMln_pwr (s : State) (m : Mln) :
    (s.setMln m).pwr = s.pwr := rfl
@[simp] theorem State.setMln_svc (s : State) (m : Mln) :
    (s.setMln m).svc = s.svc := rfl
@[simp] theorem State.setMln_flash (s : State) (m : Mln) :
    (s.setMln m).flash = s.flash := rfl
@[simp] theorem State.setMln_otp (s : State) (m : Mln) :
    (s.setMln m).otp = s.otp := rfl
@[simp] theorem State.setMln_mln (s : State) (m : Mln) :
    (s.setMln m).mln = m := rfl
@[simp] theorem State.setPort_pending (s : State) (p : Nat) (x : MacPort) :
    (s.setPort p x).pending = s.pending := rfl
@[simp] theorem State.setPort_now (s : State) (p : Nat) (x : MacPort) :
    (s.setPort p x).now = s.now := rfl
@[simp] theorem State.setPort_regs (s : State) (p : Nat) (x : MacPort) :
    (s.setPort p x).regs = s.regs := rfl
@[simp] theorem State.setPort_mem (s : State) (p : Nat) (x : MacPort) :
    (s.setPort p x).mem = s.mem := rfl
@[simp] theorem State.setPort_out (s : State) (p : Nat) (x : MacPort) :
    (s.setPort p x).out = s.out := rfl
@[simp] theorem State.setPort_freeCtr (s : State) (p : Nat) (x : MacPort) :
    (s.setPort p x).freeCtr = s.freeCtr := rfl
@[simp] theorem State.setPort_hif (s : State) (p : Nat) (x : MacPort) :
    (s.setPort p x).hif = s.hif := rfl
@[simp] theorem State.setPort_ten (s : State) (p : Nat) (x : MacPort) :
    (s.setPort p x).ten = s.ten := rfl
@[simp] theorem State.setPort_tim (s : State) (p : Nat) (x : MacPort) :
    (s.setPort p x).tim = s.tim := rfl
@[simp] theorem State.setPort_hdg (s : State) (p : Nat) (x : MacPort) :
    (s.setPort p x).hdg = s.hdg := rfl
@[simp] theorem State.setPort_fov (s : State) (p : Nat) (x : MacPort) :
    (s.setPort p x).fov = s.fov := rfl
@[simp] theorem State.setPort_planes (s : State) (p : Nat) (x : MacPort) :
    (s.setPort p x).planes = s.planes := rfl
@[simp] theorem State.setPort_xpt (s : State) (p : Nat) (x : MacPort) :
    (s.setPort p x).xpt = s.xpt := rfl
@[simp] theorem State.setPort_fsa (s : State) (p : Nat) (x : MacPort) :
    (s.setPort p x).fsa = s.fsa := rfl
@[simp] theorem State.setPort_cmp (s : State) (p : Nat) (x : MacPort) :
    (s.setPort p x).cmp = s.cmp := rfl
@[simp] theorem State.setPort_sal (s : State) (p : Nat) (x : MacPort) :
    (s.setPort p x).sal = s.sal := rfl
@[simp] theorem State.setPort_ess (s : State) (p : Nat) (x : MacPort) :
    (s.setPort p x).ess = s.ess := rfl
@[simp] theorem State.setPort_bst (s : State) (p : Nat) (x : MacPort) :
    (s.setPort p x).bst = s.bst := rfl
@[simp] theorem State.setPort_blk (s : State) (p : Nat) (x : MacPort) :
    (s.setPort p x).blk = s.blk := rfl
@[simp] theorem State.setPort_mln (s : State) (p : Nat) (x : MacPort) :
    (s.setPort p x).mln = s.mln := rfl
@[simp] theorem State.setPort_aud (s : State) (p : Nat) (x : MacPort) :
    (s.setPort p x).aud = s.aud := rfl
@[simp] theorem State.setPort_clk (s : State) (p : Nat) (x : MacPort) :
    (s.setPort p x).clk = s.clk := rfl
@[simp] theorem State.setPort_pwr (s : State) (p : Nat) (x : MacPort) :
    (s.setPort p x).pwr = s.pwr := rfl
@[simp] theorem State.setPort_svc (s : State) (p : Nat) (x : MacPort) :
    (s.setPort p x).svc = s.svc := rfl
@[simp] theorem State.setPort_flash (s : State) (p : Nat) (x : MacPort) :
    (s.setPort p x).flash = s.flash := rfl
@[simp] theorem State.setPort_otp (s : State) (p : Nat) (x : MacPort) :
    (s.setPort p x).otp = s.otp := rfl
@[simp] theorem State.setPort_mac (s : State) (p : Nat) (x : MacPort) :
    (s.setPort p x).mac = { s.mac with ports := Tbl.putD s.mac.ports p x MacPort.idle } := rfl
@[simp] theorem State.setRx_pending (s : State) (k : Nat) (x : FlowRx) :
    (s.setRx k x).pending = s.pending := rfl
@[simp] theorem State.setRx_now (s : State) (k : Nat) (x : FlowRx) :
    (s.setRx k x).now = s.now := rfl
@[simp] theorem State.setRx_regs (s : State) (k : Nat) (x : FlowRx) :
    (s.setRx k x).regs = s.regs := rfl
@[simp] theorem State.setRx_mem (s : State) (k : Nat) (x : FlowRx) :
    (s.setRx k x).mem = s.mem := rfl
@[simp] theorem State.setRx_out (s : State) (k : Nat) (x : FlowRx) :
    (s.setRx k x).out = s.out := rfl
@[simp] theorem State.setRx_freeCtr (s : State) (k : Nat) (x : FlowRx) :
    (s.setRx k x).freeCtr = s.freeCtr := rfl
@[simp] theorem State.setRx_hif (s : State) (k : Nat) (x : FlowRx) :
    (s.setRx k x).hif = s.hif := rfl
@[simp] theorem State.setRx_ten (s : State) (k : Nat) (x : FlowRx) :
    (s.setRx k x).ten = s.ten := rfl
@[simp] theorem State.setRx_tim (s : State) (k : Nat) (x : FlowRx) :
    (s.setRx k x).tim = s.tim := rfl
@[simp] theorem State.setRx_hdg (s : State) (k : Nat) (x : FlowRx) :
    (s.setRx k x).hdg = s.hdg := rfl
@[simp] theorem State.setRx_fov (s : State) (k : Nat) (x : FlowRx) :
    (s.setRx k x).fov = s.fov := rfl
@[simp] theorem State.setRx_planes (s : State) (k : Nat) (x : FlowRx) :
    (s.setRx k x).planes = s.planes := rfl
@[simp] theorem State.setRx_xpt (s : State) (k : Nat) (x : FlowRx) :
    (s.setRx k x).xpt = s.xpt := rfl
@[simp] theorem State.setRx_fsa (s : State) (k : Nat) (x : FlowRx) :
    (s.setRx k x).fsa = s.fsa := rfl
@[simp] theorem State.setRx_cmp (s : State) (k : Nat) (x : FlowRx) :
    (s.setRx k x).cmp = s.cmp := rfl
@[simp] theorem State.setRx_sal (s : State) (k : Nat) (x : FlowRx) :
    (s.setRx k x).sal = s.sal := rfl
@[simp] theorem State.setRx_bst (s : State) (k : Nat) (x : FlowRx) :
    (s.setRx k x).bst = s.bst := rfl
@[simp] theorem State.setRx_blk (s : State) (k : Nat) (x : FlowRx) :
    (s.setRx k x).blk = s.blk := rfl
@[simp] theorem State.setRx_mln (s : State) (k : Nat) (x : FlowRx) :
    (s.setRx k x).mln = s.mln := rfl
@[simp] theorem State.setRx_mac (s : State) (k : Nat) (x : FlowRx) :
    (s.setRx k x).mac = s.mac := rfl
@[simp] theorem State.setRx_aud (s : State) (k : Nat) (x : FlowRx) :
    (s.setRx k x).aud = s.aud := rfl
@[simp] theorem State.setRx_clk (s : State) (k : Nat) (x : FlowRx) :
    (s.setRx k x).clk = s.clk := rfl
@[simp] theorem State.setRx_pwr (s : State) (k : Nat) (x : FlowRx) :
    (s.setRx k x).pwr = s.pwr := rfl
@[simp] theorem State.setRx_svc (s : State) (k : Nat) (x : FlowRx) :
    (s.setRx k x).svc = s.svc := rfl
@[simp] theorem State.setRx_flash (s : State) (k : Nat) (x : FlowRx) :
    (s.setRx k x).flash = s.flash := rfl
@[simp] theorem State.setRx_otp (s : State) (k : Nat) (x : FlowRx) :
    (s.setRx k x).otp = s.otp := rfl
@[simp] theorem State.setRx_ess (s : State) (k : Nat) (x : FlowRx) :
    (s.setRx k x).ess = { s.ess with rx := Tbl.putD s.ess.rx k x FlowRx.idle } := rfl
@[simp] theorem State.setTx_pending (s : State) (k : Nat) (x : FlowTx) :
    (s.setTx k x).pending = s.pending := rfl
@[simp] theorem State.setTx_now (s : State) (k : Nat) (x : FlowTx) :
    (s.setTx k x).now = s.now := rfl
@[simp] theorem State.setTx_regs (s : State) (k : Nat) (x : FlowTx) :
    (s.setTx k x).regs = s.regs := rfl
@[simp] theorem State.setTx_mem (s : State) (k : Nat) (x : FlowTx) :
    (s.setTx k x).mem = s.mem := rfl
@[simp] theorem State.setTx_out (s : State) (k : Nat) (x : FlowTx) :
    (s.setTx k x).out = s.out := rfl
@[simp] theorem State.setTx_freeCtr (s : State) (k : Nat) (x : FlowTx) :
    (s.setTx k x).freeCtr = s.freeCtr := rfl
@[simp] theorem State.setTx_hif (s : State) (k : Nat) (x : FlowTx) :
    (s.setTx k x).hif = s.hif := rfl
@[simp] theorem State.setTx_ten (s : State) (k : Nat) (x : FlowTx) :
    (s.setTx k x).ten = s.ten := rfl
@[simp] theorem State.setTx_tim (s : State) (k : Nat) (x : FlowTx) :
    (s.setTx k x).tim = s.tim := rfl
@[simp] theorem State.setTx_hdg (s : State) (k : Nat) (x : FlowTx) :
    (s.setTx k x).hdg = s.hdg := rfl
@[simp] theorem State.setTx_fov (s : State) (k : Nat) (x : FlowTx) :
    (s.setTx k x).fov = s.fov := rfl
@[simp] theorem State.setTx_planes (s : State) (k : Nat) (x : FlowTx) :
    (s.setTx k x).planes = s.planes := rfl
@[simp] theorem State.setTx_xpt (s : State) (k : Nat) (x : FlowTx) :
    (s.setTx k x).xpt = s.xpt := rfl
@[simp] theorem State.setTx_fsa (s : State) (k : Nat) (x : FlowTx) :
    (s.setTx k x).fsa = s.fsa := rfl
@[simp] theorem State.setTx_cmp (s : State) (k : Nat) (x : FlowTx) :
    (s.setTx k x).cmp = s.cmp := rfl
@[simp] theorem State.setTx_sal (s : State) (k : Nat) (x : FlowTx) :
    (s.setTx k x).sal = s.sal := rfl
@[simp] theorem State.setTx_bst (s : State) (k : Nat) (x : FlowTx) :
    (s.setTx k x).bst = s.bst := rfl
@[simp] theorem State.setTx_blk (s : State) (k : Nat) (x : FlowTx) :
    (s.setTx k x).blk = s.blk := rfl
@[simp] theorem State.setTx_mln (s : State) (k : Nat) (x : FlowTx) :
    (s.setTx k x).mln = s.mln := rfl
@[simp] theorem State.setTx_mac (s : State) (k : Nat) (x : FlowTx) :
    (s.setTx k x).mac = s.mac := rfl
@[simp] theorem State.setTx_aud (s : State) (k : Nat) (x : FlowTx) :
    (s.setTx k x).aud = s.aud := rfl
@[simp] theorem State.setTx_clk (s : State) (k : Nat) (x : FlowTx) :
    (s.setTx k x).clk = s.clk := rfl
@[simp] theorem State.setTx_pwr (s : State) (k : Nat) (x : FlowTx) :
    (s.setTx k x).pwr = s.pwr := rfl
@[simp] theorem State.setTx_svc (s : State) (k : Nat) (x : FlowTx) :
    (s.setTx k x).svc = s.svc := rfl
@[simp] theorem State.setTx_flash (s : State) (k : Nat) (x : FlowTx) :
    (s.setTx k x).flash = s.flash := rfl
@[simp] theorem State.setTx_otp (s : State) (k : Nat) (x : FlowTx) :
    (s.setTx k x).otp = s.otp := rfl
@[simp] theorem State.setTx_ess (s : State) (k : Nat) (x : FlowTx) :
    (s.setTx k x).ess = { s.ess with tx := Tbl.putD s.ess.tx k x FlowTx.idle } := rfl
@[simp] theorem State.setMigs_pending (s : State) (l : Tbl Mig) :
    (s.setMigs l).pending = s.pending := rfl
@[simp] theorem State.setMigs_now (s : State) (l : Tbl Mig) :
    (s.setMigs l).now = s.now := rfl
@[simp] theorem State.setMigs_regs (s : State) (l : Tbl Mig) :
    (s.setMigs l).regs = s.regs := rfl
@[simp] theorem State.setMigs_mem (s : State) (l : Tbl Mig) :
    (s.setMigs l).mem = s.mem := rfl
@[simp] theorem State.setMigs_out (s : State) (l : Tbl Mig) :
    (s.setMigs l).out = s.out := rfl
@[simp] theorem State.setMigs_freeCtr (s : State) (l : Tbl Mig) :
    (s.setMigs l).freeCtr = s.freeCtr := rfl
@[simp] theorem State.setMigs_hif (s : State) (l : Tbl Mig) :
    (s.setMigs l).hif = s.hif := rfl
@[simp] theorem State.setMigs_ten (s : State) (l : Tbl Mig) :
    (s.setMigs l).ten = s.ten := rfl
@[simp] theorem State.setMigs_tim (s : State) (l : Tbl Mig) :
    (s.setMigs l).tim = s.tim := rfl
@[simp] theorem State.setMigs_hdg (s : State) (l : Tbl Mig) :
    (s.setMigs l).hdg = s.hdg := rfl
@[simp] theorem State.setMigs_fov (s : State) (l : Tbl Mig) :
    (s.setMigs l).fov = s.fov := rfl
@[simp] theorem State.setMigs_planes (s : State) (l : Tbl Mig) :
    (s.setMigs l).planes = s.planes := rfl
@[simp] theorem State.setMigs_xpt (s : State) (l : Tbl Mig) :
    (s.setMigs l).xpt = s.xpt := rfl
@[simp] theorem State.setMigs_fsa (s : State) (l : Tbl Mig) :
    (s.setMigs l).fsa = s.fsa := rfl
@[simp] theorem State.setMigs_cmp (s : State) (l : Tbl Mig) :
    (s.setMigs l).cmp = s.cmp := rfl
@[simp] theorem State.setMigs_ess (s : State) (l : Tbl Mig) :
    (s.setMigs l).ess = s.ess := rfl
@[simp] theorem State.setMigs_bst (s : State) (l : Tbl Mig) :
    (s.setMigs l).bst = s.bst := rfl
@[simp] theorem State.setMigs_blk (s : State) (l : Tbl Mig) :
    (s.setMigs l).blk = s.blk := rfl
@[simp] theorem State.setMigs_mln (s : State) (l : Tbl Mig) :
    (s.setMigs l).mln = s.mln := rfl
@[simp] theorem State.setMigs_mac (s : State) (l : Tbl Mig) :
    (s.setMigs l).mac = s.mac := rfl
@[simp] theorem State.setMigs_aud (s : State) (l : Tbl Mig) :
    (s.setMigs l).aud = s.aud := rfl
@[simp] theorem State.setMigs_clk (s : State) (l : Tbl Mig) :
    (s.setMigs l).clk = s.clk := rfl
@[simp] theorem State.setMigs_pwr (s : State) (l : Tbl Mig) :
    (s.setMigs l).pwr = s.pwr := rfl
@[simp] theorem State.setMigs_svc (s : State) (l : Tbl Mig) :
    (s.setMigs l).svc = s.svc := rfl
@[simp] theorem State.setMigs_flash (s : State) (l : Tbl Mig) :
    (s.setMigs l).flash = s.flash := rfl
@[simp] theorem State.setMigs_otp (s : State) (l : Tbl Mig) :
    (s.setMigs l).otp = s.otp := rfl
@[simp] theorem State.setMigs_sal (s : State) (l : Tbl Mig) :
    (s.setMigs l).sal = { s.sal with migs := l } := rfl
@[simp] theorem State.setAud_pending (s : State) (a : Aud) :
    (s.setAud a).pending = s.pending := rfl
@[simp] theorem State.setAud_now (s : State) (a : Aud) :
    (s.setAud a).now = s.now := rfl
@[simp] theorem State.setAud_regs (s : State) (a : Aud) :
    (s.setAud a).regs = s.regs := rfl
@[simp] theorem State.setAud_mem (s : State) (a : Aud) :
    (s.setAud a).mem = s.mem := rfl
@[simp] theorem State.setAud_out (s : State) (a : Aud) :
    (s.setAud a).out = s.out := rfl
@[simp] theorem State.setAud_freeCtr (s : State) (a : Aud) :
    (s.setAud a).freeCtr = s.freeCtr := rfl
@[simp] theorem State.setAud_hif (s : State) (a : Aud) :
    (s.setAud a).hif = s.hif := rfl
@[simp] theorem State.setAud_ten (s : State) (a : Aud) :
    (s.setAud a).ten = s.ten := rfl
@[simp] theorem State.setAud_tim (s : State) (a : Aud) :
    (s.setAud a).tim = s.tim := rfl
@[simp] theorem State.setAud_hdg (s : State) (a : Aud) :
    (s.setAud a).hdg = s.hdg := rfl
@[simp] theorem State.setAud_fov (s : State) (a : Aud) :
    (s.setAud a).fov = s.fov := rfl
@[simp] theorem State.setAud_planes (s : State) (a : Aud) :
    (s.setAud a).planes = s.planes := rfl
@[simp] theorem State.setAud_xpt (s : State) (a : Aud) :
    (s.setAud a).xpt = s.xpt := rfl
@[simp] theorem State.setAud_fsa (s : State) (a : Aud) :
    (s.setAud a).fsa = s.fsa := rfl
@[simp] theorem State.setAud_cmp (s : State) (a : Aud) :
    (s.setAud a).cmp = s.cmp := rfl
@[simp] theorem State.setAud_sal (s : State) (a : Aud) :
    (s.setAud a).sal = s.sal := rfl
@[simp] theorem State.setAud_ess (s : State) (a : Aud) :
    (s.setAud a).ess = s.ess := rfl
@[simp] theorem State.setAud_bst (s : State) (a : Aud) :
    (s.setAud a).bst = s.bst := rfl
@[simp] theorem State.setAud_blk (s : State) (a : Aud) :
    (s.setAud a).blk = s.blk := rfl
@[simp] theorem State.setAud_mln (s : State) (a : Aud) :
    (s.setAud a).mln = s.mln := rfl
@[simp] theorem State.setAud_mac (s : State) (a : Aud) :
    (s.setAud a).mac = s.mac := rfl
@[simp] theorem State.setAud_clk (s : State) (a : Aud) :
    (s.setAud a).clk = s.clk := rfl
@[simp] theorem State.setAud_pwr (s : State) (a : Aud) :
    (s.setAud a).pwr = s.pwr := rfl
@[simp] theorem State.setAud_svc (s : State) (a : Aud) :
    (s.setAud a).svc = s.svc := rfl
@[simp] theorem State.setAud_flash (s : State) (a : Aud) :
    (s.setAud a).flash = s.flash := rfl
@[simp] theorem State.setAud_otp (s : State) (a : Aud) :
    (s.setAud a).otp = s.otp := rfl
@[simp] theorem State.setAud_aud (s : State) (a : Aud) :
    (s.setAud a).aud = a := rfl
@[simp] theorem State.setClk_pending (s : State) (c : Clk) :
    (s.setClk c).pending = s.pending := rfl
@[simp] theorem State.setClk_now (s : State) (c : Clk) :
    (s.setClk c).now = s.now := rfl
@[simp] theorem State.setClk_regs (s : State) (c : Clk) :
    (s.setClk c).regs = s.regs := rfl
@[simp] theorem State.setClk_mem (s : State) (c : Clk) :
    (s.setClk c).mem = s.mem := rfl
@[simp] theorem State.setClk_out (s : State) (c : Clk) :
    (s.setClk c).out = s.out := rfl
@[simp] theorem State.setClk_freeCtr (s : State) (c : Clk) :
    (s.setClk c).freeCtr = s.freeCtr := rfl
@[simp] theorem State.setClk_hif (s : State) (c : Clk) :
    (s.setClk c).hif = s.hif := rfl
@[simp] theorem State.setClk_ten (s : State) (c : Clk) :
    (s.setClk c).ten = s.ten := rfl
@[simp] theorem State.setClk_tim (s : State) (c : Clk) :
    (s.setClk c).tim = s.tim := rfl
@[simp] theorem State.setClk_hdg (s : State) (c : Clk) :
    (s.setClk c).hdg = s.hdg := rfl
@[simp] theorem State.setClk_fov (s : State) (c : Clk) :
    (s.setClk c).fov = s.fov := rfl
@[simp] theorem State.setClk_planes (s : State) (c : Clk) :
    (s.setClk c).planes = s.planes := rfl
@[simp] theorem State.setClk_xpt (s : State) (c : Clk) :
    (s.setClk c).xpt = s.xpt := rfl
@[simp] theorem State.setClk_fsa (s : State) (c : Clk) :
    (s.setClk c).fsa = s.fsa := rfl
@[simp] theorem State.setClk_cmp (s : State) (c : Clk) :
    (s.setClk c).cmp = s.cmp := rfl
@[simp] theorem State.setClk_sal (s : State) (c : Clk) :
    (s.setClk c).sal = s.sal := rfl
@[simp] theorem State.setClk_ess (s : State) (c : Clk) :
    (s.setClk c).ess = s.ess := rfl
@[simp] theorem State.setClk_bst (s : State) (c : Clk) :
    (s.setClk c).bst = s.bst := rfl
@[simp] theorem State.setClk_blk (s : State) (c : Clk) :
    (s.setClk c).blk = s.blk := rfl
@[simp] theorem State.setClk_mln (s : State) (c : Clk) :
    (s.setClk c).mln = s.mln := rfl
@[simp] theorem State.setClk_mac (s : State) (c : Clk) :
    (s.setClk c).mac = s.mac := rfl
@[simp] theorem State.setClk_aud (s : State) (c : Clk) :
    (s.setClk c).aud = s.aud := rfl
@[simp] theorem State.setClk_pwr (s : State) (c : Clk) :
    (s.setClk c).pwr = s.pwr := rfl
@[simp] theorem State.setClk_svc (s : State) (c : Clk) :
    (s.setClk c).svc = s.svc := rfl
@[simp] theorem State.setClk_flash (s : State) (c : Clk) :
    (s.setClk c).flash = s.flash := rfl
@[simp] theorem State.setClk_otp (s : State) (c : Clk) :
    (s.setClk c).otp = s.otp := rfl
@[simp] theorem State.setClk_clk (s : State) (c : Clk) :
    (s.setClk c).clk = c := rfl
@[simp] theorem State.setFlash_pending (s : State) (x : Flash) :
    (s.setFlash x).pending = s.pending := rfl
@[simp] theorem State.setFlash_now (s : State) (x : Flash) :
    (s.setFlash x).now = s.now := rfl
@[simp] theorem State.setFlash_regs (s : State) (x : Flash) :
    (s.setFlash x).regs = s.regs := rfl
@[simp] theorem State.setFlash_mem (s : State) (x : Flash) :
    (s.setFlash x).mem = s.mem := rfl
@[simp] theorem State.setFlash_out (s : State) (x : Flash) :
    (s.setFlash x).out = s.out := rfl
@[simp] theorem State.setFlash_freeCtr (s : State) (x : Flash) :
    (s.setFlash x).freeCtr = s.freeCtr := rfl
@[simp] theorem State.setFlash_hif (s : State) (x : Flash) :
    (s.setFlash x).hif = s.hif := rfl
@[simp] theorem State.setFlash_ten (s : State) (x : Flash) :
    (s.setFlash x).ten = s.ten := rfl
@[simp] theorem State.setFlash_tim (s : State) (x : Flash) :
    (s.setFlash x).tim = s.tim := rfl
@[simp] theorem State.setFlash_hdg (s : State) (x : Flash) :
    (s.setFlash x).hdg = s.hdg := rfl
@[simp] theorem State.setFlash_fov (s : State) (x : Flash) :
    (s.setFlash x).fov = s.fov := rfl
@[simp] theorem State.setFlash_planes (s : State) (x : Flash) :
    (s.setFlash x).planes = s.planes := rfl
@[simp] theorem State.setFlash_xpt (s : State) (x : Flash) :
    (s.setFlash x).xpt = s.xpt := rfl
@[simp] theorem State.setFlash_fsa (s : State) (x : Flash) :
    (s.setFlash x).fsa = s.fsa := rfl
@[simp] theorem State.setFlash_cmp (s : State) (x : Flash) :
    (s.setFlash x).cmp = s.cmp := rfl
@[simp] theorem State.setFlash_sal (s : State) (x : Flash) :
    (s.setFlash x).sal = s.sal := rfl
@[simp] theorem State.setFlash_ess (s : State) (x : Flash) :
    (s.setFlash x).ess = s.ess := rfl
@[simp] theorem State.setFlash_bst (s : State) (x : Flash) :
    (s.setFlash x).bst = s.bst := rfl
@[simp] theorem State.setFlash_blk (s : State) (x : Flash) :
    (s.setFlash x).blk = s.blk := rfl
@[simp] theorem State.setFlash_mln (s : State) (x : Flash) :
    (s.setFlash x).mln = s.mln := rfl
@[simp] theorem State.setFlash_mac (s : State) (x : Flash) :
    (s.setFlash x).mac = s.mac := rfl
@[simp] theorem State.setFlash_aud (s : State) (x : Flash) :
    (s.setFlash x).aud = s.aud := rfl
@[simp] theorem State.setFlash_clk (s : State) (x : Flash) :
    (s.setFlash x).clk = s.clk := rfl
@[simp] theorem State.setFlash_pwr (s : State) (x : Flash) :
    (s.setFlash x).pwr = s.pwr := rfl
@[simp] theorem State.setFlash_svc (s : State) (x : Flash) :
    (s.setFlash x).svc = s.svc := rfl
@[simp] theorem State.setFlash_otp (s : State) (x : Flash) :
    (s.setFlash x).otp = s.otp := rfl
@[simp] theorem State.setFlash_flash (s : State) (x : Flash) :
    (s.setFlash x).flash = x := rfl
@[simp] theorem State.setOtp_pending (s : State) (x : Otp) :
    (s.setOtp x).pending = s.pending := rfl
@[simp] theorem State.setOtp_now (s : State) (x : Otp) :
    (s.setOtp x).now = s.now := rfl
@[simp] theorem State.setOtp_regs (s : State) (x : Otp) :
    (s.setOtp x).regs = s.regs := rfl
@[simp] theorem State.setOtp_mem (s : State) (x : Otp) :
    (s.setOtp x).mem = s.mem := rfl
@[simp] theorem State.setOtp_out (s : State) (x : Otp) :
    (s.setOtp x).out = s.out := rfl
@[simp] theorem State.setOtp_freeCtr (s : State) (x : Otp) :
    (s.setOtp x).freeCtr = s.freeCtr := rfl
@[simp] theorem State.setOtp_hif (s : State) (x : Otp) :
    (s.setOtp x).hif = s.hif := rfl
@[simp] theorem State.setOtp_ten (s : State) (x : Otp) :
    (s.setOtp x).ten = s.ten := rfl
@[simp] theorem State.setOtp_tim (s : State) (x : Otp) :
    (s.setOtp x).tim = s.tim := rfl
@[simp] theorem State.setOtp_hdg (s : State) (x : Otp) :
    (s.setOtp x).hdg = s.hdg := rfl
@[simp] theorem State.setOtp_fov (s : State) (x : Otp) :
    (s.setOtp x).fov = s.fov := rfl
@[simp] theorem State.setOtp_planes (s : State) (x : Otp) :
    (s.setOtp x).planes = s.planes := rfl
@[simp] theorem State.setOtp_xpt (s : State) (x : Otp) :
    (s.setOtp x).xpt = s.xpt := rfl
@[simp] theorem State.setOtp_fsa (s : State) (x : Otp) :
    (s.setOtp x).fsa = s.fsa := rfl
@[simp] theorem State.setOtp_cmp (s : State) (x : Otp) :
    (s.setOtp x).cmp = s.cmp := rfl
@[simp] theorem State.setOtp_sal (s : State) (x : Otp) :
    (s.setOtp x).sal = s.sal := rfl
@[simp] theorem State.setOtp_ess (s : State) (x : Otp) :
    (s.setOtp x).ess = s.ess := rfl
@[simp] theorem State.setOtp_bst (s : State) (x : Otp) :
    (s.setOtp x).bst = s.bst := rfl
@[simp] theorem State.setOtp_blk (s : State) (x : Otp) :
    (s.setOtp x).blk = s.blk := rfl
@[simp] theorem State.setOtp_mln (s : State) (x : Otp) :
    (s.setOtp x).mln = s.mln := rfl
@[simp] theorem State.setOtp_mac (s : State) (x : Otp) :
    (s.setOtp x).mac = s.mac := rfl
@[simp] theorem State.setOtp_aud (s : State) (x : Otp) :
    (s.setOtp x).aud = s.aud := rfl
@[simp] theorem State.setOtp_clk (s : State) (x : Otp) :
    (s.setOtp x).clk = s.clk := rfl
@[simp] theorem State.setOtp_pwr (s : State) (x : Otp) :
    (s.setOtp x).pwr = s.pwr := rfl
@[simp] theorem State.setOtp_svc (s : State) (x : Otp) :
    (s.setOtp x).svc = s.svc := rfl
@[simp] theorem State.setOtp_flash (s : State) (x : Otp) :
    (s.setOtp x).flash = s.flash := rfl
@[simp] theorem State.setOtp_otp (s : State) (x : Otp) :
    (s.setOtp x).otp = x := rfl
@[simp] theorem State.setPwr_pending (s : State) (x : Pwr) :
    (s.setPwr x).pending = s.pending := rfl
@[simp] theorem State.setPwr_now (s : State) (x : Pwr) :
    (s.setPwr x).now = s.now := rfl
@[simp] theorem State.setPwr_regs (s : State) (x : Pwr) :
    (s.setPwr x).regs = s.regs := rfl
@[simp] theorem State.setPwr_mem (s : State) (x : Pwr) :
    (s.setPwr x).mem = s.mem := rfl
@[simp] theorem State.setPwr_out (s : State) (x : Pwr) :
    (s.setPwr x).out = s.out := rfl
@[simp] theorem State.setPwr_freeCtr (s : State) (x : Pwr) :
    (s.setPwr x).freeCtr = s.freeCtr := rfl
@[simp] theorem State.setPwr_hif (s : State) (x : Pwr) :
    (s.setPwr x).hif = s.hif := rfl
@[simp] theorem State.setPwr_ten (s : State) (x : Pwr) :
    (s.setPwr x).ten = s.ten := rfl
@[simp] theorem State.setPwr_tim (s : State) (x : Pwr) :
    (s.setPwr x).tim = s.tim := rfl
@[simp] theorem State.setPwr_hdg (s : State) (x : Pwr) :
    (s.setPwr x).hdg = s.hdg := rfl
@[simp] theorem State.setPwr_fov (s : State) (x : Pwr) :
    (s.setPwr x).fov = s.fov := rfl
@[simp] theorem State.setPwr_planes (s : State) (x : Pwr) :
    (s.setPwr x).planes = s.planes := rfl
@[simp] theorem State.setPwr_xpt (s : State) (x : Pwr) :
    (s.setPwr x).xpt = s.xpt := rfl
@[simp] theorem State.setPwr_fsa (s : State) (x : Pwr) :
    (s.setPwr x).fsa = s.fsa := rfl
@[simp] theorem State.setPwr_cmp (s : State) (x : Pwr) :
    (s.setPwr x).cmp = s.cmp := rfl
@[simp] theorem State.setPwr_sal (s : State) (x : Pwr) :
    (s.setPwr x).sal = s.sal := rfl
@[simp] theorem State.setPwr_ess (s : State) (x : Pwr) :
    (s.setPwr x).ess = s.ess := rfl
@[simp] theorem State.setPwr_bst (s : State) (x : Pwr) :
    (s.setPwr x).bst = s.bst := rfl
@[simp] theorem State.setPwr_blk (s : State) (x : Pwr) :
    (s.setPwr x).blk = s.blk := rfl
@[simp] theorem State.setPwr_mln (s : State) (x : Pwr) :
    (s.setPwr x).mln = s.mln := rfl
@[simp] theorem State.setPwr_mac (s : State) (x : Pwr) :
    (s.setPwr x).mac = s.mac := rfl
@[simp] theorem State.setPwr_aud (s : State) (x : Pwr) :
    (s.setPwr x).aud = s.aud := rfl
@[simp] theorem State.setPwr_clk (s : State) (x : Pwr) :
    (s.setPwr x).clk = s.clk := rfl
@[simp] theorem State.setPwr_svc (s : State) (x : Pwr) :
    (s.setPwr x).svc = s.svc := rfl
@[simp] theorem State.setPwr_flash (s : State) (x : Pwr) :
    (s.setPwr x).flash = s.flash := rfl
@[simp] theorem State.setPwr_otp (s : State) (x : Pwr) :
    (s.setPwr x).otp = s.otp := rfl
@[simp] theorem State.setPwr_pwr (s : State) (x : Pwr) :
    (s.setPwr x).pwr = x := rfl
@[simp] theorem State.setFld_pending (s : State) (a : Nat) (f : Field) (n : Nat) :
    (s.setFld a f n).pending = s.pending := rfl
@[simp] theorem State.setFld_now (s : State) (a : Nat) (f : Field) (n : Nat) :
    (s.setFld a f n).now = s.now := rfl
@[simp] theorem State.setFld_mem (s : State) (a : Nat) (f : Field) (n : Nat) :
    (s.setFld a f n).mem = s.mem := rfl
@[simp] theorem State.setFld_out (s : State) (a : Nat) (f : Field) (n : Nat) :
    (s.setFld a f n).out = s.out := rfl
@[simp] theorem State.setFld_freeCtr (s : State) (a : Nat) (f : Field) (n : Nat) :
    (s.setFld a f n).freeCtr = s.freeCtr := rfl
@[simp] theorem State.setFld_hif (s : State) (a : Nat) (f : Field) (n : Nat) :
    (s.setFld a f n).hif = s.hif := rfl
@[simp] theorem State.setFld_ten (s : State) (a : Nat) (f : Field) (n : Nat) :
    (s.setFld a f n).ten = s.ten := rfl
@[simp] theorem State.setFld_tim (s : State) (a : Nat) (f : Field) (n : Nat) :
    (s.setFld a f n).tim = s.tim := rfl
@[simp] theorem State.setFld_hdg (s : State) (a : Nat) (f : Field) (n : Nat) :
    (s.setFld a f n).hdg = s.hdg := rfl
@[simp] theorem State.setFld_fov (s : State) (a : Nat) (f : Field) (n : Nat) :
    (s.setFld a f n).fov = s.fov := rfl
@[simp] theorem State.setFld_planes (s : State) (a : Nat) (f : Field) (n : Nat) :
    (s.setFld a f n).planes = s.planes := rfl
@[simp] theorem State.setFld_xpt (s : State) (a : Nat) (f : Field) (n : Nat) :
    (s.setFld a f n).xpt = s.xpt := rfl
@[simp] theorem State.setFld_fsa (s : State) (a : Nat) (f : Field) (n : Nat) :
    (s.setFld a f n).fsa = s.fsa := rfl
@[simp] theorem State.setFld_cmp (s : State) (a : Nat) (f : Field) (n : Nat) :
    (s.setFld a f n).cmp = s.cmp := rfl
@[simp] theorem State.setFld_sal (s : State) (a : Nat) (f : Field) (n : Nat) :
    (s.setFld a f n).sal = s.sal := rfl
@[simp] theorem State.setFld_ess (s : State) (a : Nat) (f : Field) (n : Nat) :
    (s.setFld a f n).ess = s.ess := rfl
@[simp] theorem State.setFld_bst (s : State) (a : Nat) (f : Field) (n : Nat) :
    (s.setFld a f n).bst = s.bst := rfl
@[simp] theorem State.setFld_blk (s : State) (a : Nat) (f : Field) (n : Nat) :
    (s.setFld a f n).blk = s.blk := rfl
@[simp] theorem State.setFld_mln (s : State) (a : Nat) (f : Field) (n : Nat) :
    (s.setFld a f n).mln = s.mln := rfl
@[simp] theorem State.setFld_mac (s : State) (a : Nat) (f : Field) (n : Nat) :
    (s.setFld a f n).mac = s.mac := rfl
@[simp] theorem State.setFld_aud (s : State) (a : Nat) (f : Field) (n : Nat) :
    (s.setFld a f n).aud = s.aud := rfl
@[simp] theorem State.setFld_clk (s : State) (a : Nat) (f : Field) (n : Nat) :
    (s.setFld a f n).clk = s.clk := rfl
@[simp] theorem State.setFld_pwr (s : State) (a : Nat) (f : Field) (n : Nat) :
    (s.setFld a f n).pwr = s.pwr := rfl
@[simp] theorem State.setFld_svc (s : State) (a : Nat) (f : Field) (n : Nat) :
    (s.setFld a f n).svc = s.svc := rfl
@[simp] theorem State.setFld_flash (s : State) (a : Nat) (f : Field) (n : Nat) :
    (s.setFld a f n).flash = s.flash := rfl
@[simp] theorem State.setFld_otp (s : State) (a : Nat) (f : Field) (n : Nat) :
    (s.setFld a f n).otp = s.otp := rfl
@[simp] theorem State.setBit_pending (s : State) (a : Nat) (f : Field) (b : Bool) :
    (s.setBit a f b).pending = s.pending := rfl
@[simp] theorem State.setBit_now (s : State) (a : Nat) (f : Field) (b : Bool) :
    (s.setBit a f b).now = s.now := rfl
@[simp] theorem State.setBit_mem (s : State) (a : Nat) (f : Field) (b : Bool) :
    (s.setBit a f b).mem = s.mem := rfl
@[simp] theorem State.setBit_out (s : State) (a : Nat) (f : Field) (b : Bool) :
    (s.setBit a f b).out = s.out := rfl
@[simp] theorem State.setBit_freeCtr (s : State) (a : Nat) (f : Field) (b : Bool) :
    (s.setBit a f b).freeCtr = s.freeCtr := rfl
@[simp] theorem State.setBit_hif (s : State) (a : Nat) (f : Field) (b : Bool) :
    (s.setBit a f b).hif = s.hif := rfl
@[simp] theorem State.setBit_ten (s : State) (a : Nat) (f : Field) (b : Bool) :
    (s.setBit a f b).ten = s.ten := rfl
@[simp] theorem State.setBit_tim (s : State) (a : Nat) (f : Field) (b : Bool) :
    (s.setBit a f b).tim = s.tim := rfl
@[simp] theorem State.setBit_hdg (s : State) (a : Nat) (f : Field) (b : Bool) :
    (s.setBit a f b).hdg = s.hdg := rfl
@[simp] theorem State.setBit_fov (s : State) (a : Nat) (f : Field) (b : Bool) :
    (s.setBit a f b).fov = s.fov := rfl
@[simp] theorem State.setBit_planes (s : State) (a : Nat) (f : Field) (b : Bool) :
    (s.setBit a f b).planes = s.planes := rfl
@[simp] theorem State.setBit_xpt (s : State) (a : Nat) (f : Field) (b : Bool) :
    (s.setBit a f b).xpt = s.xpt := rfl
@[simp] theorem State.setBit_fsa (s : State) (a : Nat) (f : Field) (b : Bool) :
    (s.setBit a f b).fsa = s.fsa := rfl
@[simp] theorem State.setBit_cmp (s : State) (a : Nat) (f : Field) (b : Bool) :
    (s.setBit a f b).cmp = s.cmp := rfl
@[simp] theorem State.setBit_sal (s : State) (a : Nat) (f : Field) (b : Bool) :
    (s.setBit a f b).sal = s.sal := rfl
@[simp] theorem State.setBit_ess (s : State) (a : Nat) (f : Field) (b : Bool) :
    (s.setBit a f b).ess = s.ess := rfl
@[simp] theorem State.setBit_bst (s : State) (a : Nat) (f : Field) (b : Bool) :
    (s.setBit a f b).bst = s.bst := rfl
@[simp] theorem State.setBit_blk (s : State) (a : Nat) (f : Field) (b : Bool) :
    (s.setBit a f b).blk = s.blk := rfl
@[simp] theorem State.setBit_mln (s : State) (a : Nat) (f : Field) (b : Bool) :
    (s.setBit a f b).mln = s.mln := rfl
@[simp] theorem State.setBit_mac (s : State) (a : Nat) (f : Field) (b : Bool) :
    (s.setBit a f b).mac = s.mac := rfl
@[simp] theorem State.setBit_aud (s : State) (a : Nat) (f : Field) (b : Bool) :
    (s.setBit a f b).aud = s.aud := rfl
@[simp] theorem State.setBit_clk (s : State) (a : Nat) (f : Field) (b : Bool) :
    (s.setBit a f b).clk = s.clk := rfl
@[simp] theorem State.setBit_pwr (s : State) (a : Nat) (f : Field) (b : Bool) :
    (s.setBit a f b).pwr = s.pwr := rfl
@[simp] theorem State.setBit_svc (s : State) (a : Nat) (f : Field) (b : Bool) :
    (s.setBit a f b).svc = s.svc := rfl
@[simp] theorem State.setBit_flash (s : State) (a : Nat) (f : Field) (b : Bool) :
    (s.setBit a f b).flash = s.flash := rfl
@[simp] theorem State.setBit_otp (s : State) (a : Nat) (f : Field) (b : Bool) :
    (s.setBit a f b).otp = s.otp := rfl
@[simp] theorem State.incBy_pending (s : State) (a : Nat) (f : Field) (n : Nat) :
    (s.incBy a f n).pending = s.pending := rfl
@[simp] theorem State.incBy_now (s : State) (a : Nat) (f : Field) (n : Nat) :
    (s.incBy a f n).now = s.now := rfl
@[simp] theorem State.incBy_mem (s : State) (a : Nat) (f : Field) (n : Nat) :
    (s.incBy a f n).mem = s.mem := rfl
@[simp] theorem State.incBy_out (s : State) (a : Nat) (f : Field) (n : Nat) :
    (s.incBy a f n).out = s.out := rfl
@[simp] theorem State.incBy_freeCtr (s : State) (a : Nat) (f : Field) (n : Nat) :
    (s.incBy a f n).freeCtr = s.freeCtr := rfl
@[simp] theorem State.incBy_hif (s : State) (a : Nat) (f : Field) (n : Nat) :
    (s.incBy a f n).hif = s.hif := rfl
@[simp] theorem State.incBy_ten (s : State) (a : Nat) (f : Field) (n : Nat) :
    (s.incBy a f n).ten = s.ten := rfl
@[simp] theorem State.incBy_tim (s : State) (a : Nat) (f : Field) (n : Nat) :
    (s.incBy a f n).tim = s.tim := rfl
@[simp] theorem State.incBy_hdg (s : State) (a : Nat) (f : Field) (n : Nat) :
    (s.incBy a f n).hdg = s.hdg := rfl
@[simp] theorem State.incBy_fov (s : State) (a : Nat) (f : Field) (n : Nat) :
    (s.incBy a f n).fov = s.fov := rfl
@[simp] theorem State.incBy_planes (s : State) (a : Nat) (f : Field) (n : Nat) :
    (s.incBy a f n).planes = s.planes := rfl
@[simp] theorem State.incBy_xpt (s : State) (a : Nat) (f : Field) (n : Nat) :
    (s.incBy a f n).xpt = s.xpt := rfl
@[simp] theorem State.incBy_fsa (s : State) (a : Nat) (f : Field) (n : Nat) :
    (s.incBy a f n).fsa = s.fsa := rfl
@[simp] theorem State.incBy_cmp (s : State) (a : Nat) (f : Field) (n : Nat) :
    (s.incBy a f n).cmp = s.cmp := rfl
@[simp] theorem State.incBy_sal (s : State) (a : Nat) (f : Field) (n : Nat) :
    (s.incBy a f n).sal = s.sal := rfl
@[simp] theorem State.incBy_ess (s : State) (a : Nat) (f : Field) (n : Nat) :
    (s.incBy a f n).ess = s.ess := rfl
@[simp] theorem State.incBy_bst (s : State) (a : Nat) (f : Field) (n : Nat) :
    (s.incBy a f n).bst = s.bst := rfl
@[simp] theorem State.incBy_blk (s : State) (a : Nat) (f : Field) (n : Nat) :
    (s.incBy a f n).blk = s.blk := rfl
@[simp] theorem State.incBy_mln (s : State) (a : Nat) (f : Field) (n : Nat) :
    (s.incBy a f n).mln = s.mln := rfl
@[simp] theorem State.incBy_mac (s : State) (a : Nat) (f : Field) (n : Nat) :
    (s.incBy a f n).mac = s.mac := rfl
@[simp] theorem State.incBy_aud (s : State) (a : Nat) (f : Field) (n : Nat) :
    (s.incBy a f n).aud = s.aud := rfl
@[simp] theorem State.incBy_clk (s : State) (a : Nat) (f : Field) (n : Nat) :
    (s.incBy a f n).clk = s.clk := rfl
@[simp] theorem State.incBy_pwr (s : State) (a : Nat) (f : Field) (n : Nat) :
    (s.incBy a f n).pwr = s.pwr := rfl
@[simp] theorem State.incBy_svc (s : State) (a : Nat) (f : Field) (n : Nat) :
    (s.incBy a f n).svc = s.svc := rfl
@[simp] theorem State.incBy_flash (s : State) (a : Nat) (f : Field) (n : Nat) :
    (s.incBy a f n).flash = s.flash := rfl
@[simp] theorem State.incBy_otp (s : State) (a : Nat) (f : Field) (n : Nat) :
    (s.incBy a f n).otp = s.otp := rfl
@[simp] theorem State.inc_pending (s : State) (a : Nat) (f : Field) :
    (s.inc a f).pending = s.pending := rfl
@[simp] theorem State.inc_now (s : State) (a : Nat) (f : Field) :
    (s.inc a f).now = s.now := rfl
@[simp] theorem State.inc_mem (s : State) (a : Nat) (f : Field) :
    (s.inc a f).mem = s.mem := rfl
@[simp] theorem State.inc_out (s : State) (a : Nat) (f : Field) :
    (s.inc a f).out = s.out := rfl
@[simp] theorem State.inc_freeCtr (s : State) (a : Nat) (f : Field) :
    (s.inc a f).freeCtr = s.freeCtr := rfl
@[simp] theorem State.inc_hif (s : State) (a : Nat) (f : Field) :
    (s.inc a f).hif = s.hif := rfl
@[simp] theorem State.inc_ten (s : State) (a : Nat) (f : Field) :
    (s.inc a f).ten = s.ten := rfl
@[simp] theorem State.inc_tim (s : State) (a : Nat) (f : Field) :
    (s.inc a f).tim = s.tim := rfl
@[simp] theorem State.inc_hdg (s : State) (a : Nat) (f : Field) :
    (s.inc a f).hdg = s.hdg := rfl
@[simp] theorem State.inc_fov (s : State) (a : Nat) (f : Field) :
    (s.inc a f).fov = s.fov := rfl
@[simp] theorem State.inc_planes (s : State) (a : Nat) (f : Field) :
    (s.inc a f).planes = s.planes := rfl
@[simp] theorem State.inc_xpt (s : State) (a : Nat) (f : Field) :
    (s.inc a f).xpt = s.xpt := rfl
@[simp] theorem State.inc_fsa (s : State) (a : Nat) (f : Field) :
    (s.inc a f).fsa = s.fsa := rfl
@[simp] theorem State.inc_cmp (s : State) (a : Nat) (f : Field) :
    (s.inc a f).cmp = s.cmp := rfl
@[simp] theorem State.inc_sal (s : State) (a : Nat) (f : Field) :
    (s.inc a f).sal = s.sal := rfl
@[simp] theorem State.inc_ess (s : State) (a : Nat) (f : Field) :
    (s.inc a f).ess = s.ess := rfl
@[simp] theorem State.inc_bst (s : State) (a : Nat) (f : Field) :
    (s.inc a f).bst = s.bst := rfl
@[simp] theorem State.inc_blk (s : State) (a : Nat) (f : Field) :
    (s.inc a f).blk = s.blk := rfl
@[simp] theorem State.inc_mln (s : State) (a : Nat) (f : Field) :
    (s.inc a f).mln = s.mln := rfl
@[simp] theorem State.inc_mac (s : State) (a : Nat) (f : Field) :
    (s.inc a f).mac = s.mac := rfl
@[simp] theorem State.inc_aud (s : State) (a : Nat) (f : Field) :
    (s.inc a f).aud = s.aud := rfl
@[simp] theorem State.inc_clk (s : State) (a : Nat) (f : Field) :
    (s.inc a f).clk = s.clk := rfl
@[simp] theorem State.inc_pwr (s : State) (a : Nat) (f : Field) :
    (s.inc a f).pwr = s.pwr := rfl
@[simp] theorem State.inc_svc (s : State) (a : Nat) (f : Field) :
    (s.inc a f).svc = s.svc := rfl
@[simp] theorem State.inc_flash (s : State) (a : Nat) (f : Field) :
    (s.inc a f).flash = s.flash := rfl
@[simp] theorem State.inc_otp (s : State) (a : Nat) (f : Field) :
    (s.inc a f).otp = s.otp := rfl

end Sys2Proof.Machine
end

