-- ==== Sys2Proof/Laws/Edges.lean ====
section
/-! SUPPORT. Interrupt messages change nothing but the record of what left the device and the pending bits (R89-R92). -/

namespace Sys2Proof.Machine

open Sys2Proof

/-- `t` is `s` but for what left the device and the pending bits of masked vectors. -/
def Signalled (s t : State) : Prop := ∃ o p, t = { s with out := o, hif := { s.hif with msixPending := p } }

theorem Signalled.refl (s : State) : Signalled s s := ⟨s.out, s.hif.msixPending, rfl⟩

theorem Signalled.trans {s t u : State} (h : Signalled s t) (g : Signalled t u) : Signalled s u := by
  obtain ⟨o, p, rfl⟩ := h
  obtain ⟨o', p', rfl⟩ := g
  exact ⟨o', p', rfl⟩

theorem Signalled.signal (s : State) (t v : Nat) : Signalled s (s.signal t v) := by
  unfold State.signal
  split
  · split
    · exact Signalled.refl s
    · exact ⟨s.out, _, rfl⟩
  · exact ⟨_, s.hif.msixPending, rfl⟩

theorem Signalled.when {s t : State} (h : Signalled s t) (b : Bool) {f : State → State}
    (hf : ∀ u, Signalled u (f u)) : Signalled s (t.when b f) := by
  unfold State.when
  split
  · exact h.trans (hf t)
  · exact h

theorem Signalled.emit (s : State) (e : Emission) : Signalled s (s.emit e) := ⟨_, s.hif.msixPending, rfl⟩

/-- Everything that the interrupt messages of a command can change. -/
theorem signalEdges_signalled (old s : State) : Signalled s (State.signalEdges old s) := by
  have hs : ∀ v u, Signalled u (State.signal u 0 v) := fun v u => Signalled.signal u 0 v
  unfold State.signalEdges
  extract_lets rise timRise s1 s2 s3 s4 s5
  have h1 : Signalled s s1 := (Signalled.refl s).when _ (hs 17)
  have h2 : Signalled s s2 := h1.when _ (hs 18)
  have h3 : Signalled s s3 := h2.when _ (hs 19)
  have h4 : Signalled s s4 := h3.when _ (hs 20)
  have h5 : Signalled s s5 := h4.when _ (hs 21)
  exact h5.when _ (fun u => Signalled.emit u _)

theorem Signalled.rd {s t : State} (h : Signalled s t) (a : Nat) : t.rd a = s.rd a := by
  obtain ⟨o, p, rfl⟩ := h
  rfl

theorem Signalled.onlyRegs {s t : State} (h : Signalled s t) : OnlyRegs [] s t := by
  obtain ⟨o, p, rfl⟩ := h
  exact ⟨fun _ _ => rfl, fun _ => rfl, fun q _ => by cases q <;> simp [Part.Same]⟩

/-- A command whose effect is `t` gives what `t` gives. -/
theorem gives_of_done {c : Instr} {s t : State} {P : State → Prop} (h : exec c s = done s t)
    (hP : ∀ u, Signalled t u → P u) : Gives c s P :=
  ⟨_, h, hP _ (signalEdges_signalled s t)⟩

theorem gives_of_doneBar {c : Instr} {s t : State} {P : State → Prop} (hb : s.pwr.barred = false)
    (h : exec c s = doneBar s t) (hP : ∀ u, Signalled t u → P u) : Gives c s P := by
  refine gives_of_done (t := t) ?_ hP
  rw [h]
  simp [doneBar, hb]

theorem answers_of_done {c : Instr} {s t : State} (h : exec c s = done s t) : Answers c s t := h

theorem answers_of_doneBar {c : Instr} {s t : State} (hb : s.pwr.barred = false) (h : exec c s = doneBar s t) :
    Answers c s t := by
  unfold Answers
  rw [h]
  simp [doneBar, hb, done]

end Sys2Proof.Machine
end

