-- ==== Sys2Proof/Laws/Keep.lean ====
section
/-! SUPPORT. One closure property, from which the laws "operation f keeps P" of Laws/Keep*.lean follow for every
operation of the model at once: a property of queue, time, registers, package memory, flash and OTP that each single
write keeps is kept by every operation. -/

namespace Sys2Proof.Machine

open Sys2Proof

/-- `P` does not see what an operation changes beside registers, and every register write keeps it. -/
structure Keep (P : State → Prop) : Prop where
  rest : ∀ {s : State} {out freeCtr hif ten tim hdg fov planes xpt fsa cmp sal ess bst blk mln mac aud clk pwr svc},
    P s → P ⟨s.pending, s.now, s.regs, s.mem, out, freeCtr, hif, ten, tim, hdg, fov, planes, xpt, fsa, cmp, sal, ess,
      bst, blk, mln, mac, aud, clk, pwr, svc, s.flash, s.otp⟩
  wr : ∀ {s : State} {a : Nat} {v : Word}, P s → P (s.wr a v)
  resetReg : ∀ {s : State} {a : Nat}, P s → P (s.resetReg a)
  resetRegs : ∀ {s : State} {p : Nat → Bool}, P s → P (s.resetRegs p)

theorem ite_keep {P : State → Prop} {c : Prop} [Decidable c] {x y : State} (hx : P x) (hy : P y) :
    P (if c then x else y) := by
  split <;> assumption

theorem foldl_keep {P : State → Prop} {α : Type} {f : State → α → State} (hf : ∀ s a, P s → P (f s a)) (l : List α)
    {s : State} (h : P s) : P (l.foldl f s) := by
  induction l generalizing s with
  | nil => exact h
  | cons a t ih => exact ih (hf s a h)

theorem foldl_keep_fst {P : State → Prop} {α β : Type} {f : State × β → α → State × β}
    (hf : ∀ s a, P s.1 → P (f s a).1) (l : List α) {s : State × β} (h : P s.1) : P (l.foldl f s).1 := by
  induction l generalizing s with
  | nil => exact h
  | cons a t ih => exact ih (hf s a h)

theorem foldl_keep_snd {P : State → Prop} {α β : Type} {f : β × State → α → β × State}
    (hf : ∀ s a, P s.2 → P (f s a).2) (l : List α) {s : β × State} (h : P s.2) : P (l.foldl f s).2 := by
  induction l generalizing s with
  | nil => exact h
  | cons a t ih => exact ih (hf s a h)

end Sys2Proof.Machine
end

