-- ==== Sys2Proof/Laws/KeepAll.lean ====
section
/-! SUPPORT. The closure property for the operations that also write package memory, flash or OTP, or reset the device. -/

namespace Sys2Proof.Machine

open Sys2Proof

/-- `P` is kept also by writes of package memory, flash and OTP and by the device resets. -/
structure KeepAll (P : State → Prop) : Prop where
  toKeep : Keep P
  flash : ∀ {s : State} {x : Flash}, P s → P { s with flash := x }
  otp : ∀ {s : State} {x : Otp}, P s → P { s with otp := x }
  mem : ∀ {s : State} {a : Nat} {l : List Byte}, P s → P { s with mem := Memory.writes s.mem a l }
  coldReset : ∀ {s : State}, P s → P s.coldReset
  warmReset : ∀ {s : State}, P s → P s.warmReset
  opPowerOn : ∀ {s : State}, P s → P (opPowerOn s)

end Sys2Proof.Machine
end

