-- ==== Sys2Proof/Laws/KeepOps.lean ====
section
/-! SUPPORT. The operations of Machine/Ops.lean keep every property that single writes keep. -/

namespace Sys2Proof.Machine

open Sys2Proof

theorem Keep.setFld {P : State → Prop} (kp : Keep P) {s : State} {a : Nat} {f : Field} {n : Nat} (h_s : P s) :
    P (State.setFld s a f n) := by
  unfold Sys2Proof.Machine.State.setFld
  repeat' first
    | (with_reducible first | assumption | apply ite_keep | apply kp.wr)
    | intro _ | dsimp only | split | with_reducible apply kp.rest

theorem Keep.setBit {P : State → Prop} (kp : Keep P) {s : State} {a : Nat} {f : Field} {b : Bool} (h_s : P s) :
    P (State.setBit s a f b) := by
  unfold Sys2Proof.Machine.State.setBit
  repeat' first
    | (with_reducible first | assumption | apply ite_keep | apply kp.setFld)
    | intro _ | dsimp only | split | with_reducible apply kp.rest

theorem Keep.incBy {P : State → Prop} (kp : Keep P) {s : State} {a : Nat} {f : Field} {n : Nat} (h_s : P s) :
    P (State.incBy s a f n) := by
  unfold Sys2Proof.Machine.State.incBy
  repeat' first
    | (with_reducible first | assumption | apply ite_keep | apply kp.setFld)
    | intro _ | dsimp only | split | with_reducible apply kp.rest

theorem Keep.inc {P : State → Prop} (kp : Keep P) {s : State} {a : Nat} {f : Field} (h_s : P s) :
    P (State.inc s a f) := by
  unfold Sys2Proof.Machine.State.inc
  repeat' first
    | (with_reducible first | assumption | apply ite_keep | apply kp.incBy)
    | intro _ | dsimp only | split | with_reducible apply kp.rest

theorem Keep.clearAll {P : State → Prop} (kp : Keep P) {s : State} {l : List Nat} (h_s : P s) :
    P (State.clearAll s l) := by
  unfold Sys2Proof.Machine.State.clearAll
  repeat' first
    | (with_reducible first | assumption | apply ite_keep | apply kp.wr | apply foldl_keep | apply foldl_keep_fst
                            | apply foldl_keep_snd)
    | intro _ | dsimp only | split | with_reducible apply kp.rest

theorem Keep.freshWord {P : State → Prop} (kp : Keep P) {s : State} (h_s : P s) :
    P (State.freshWord s).2 := by
  unfold Sys2Proof.Machine.State.freshWord
  repeat' first
    | (with_reducible first | assumption | apply ite_keep)
    | intro _ | dsimp only | split | with_reducible apply kp.rest

theorem Keep.freshPick {P : State → Prop} (kp : Keep P) {s : State} {m : Nat} (h_s : P s) :
    P (State.freshPick s m).2 := by
  unfold Sys2Proof.Machine.State.freshPick
  repeat' first
    | (with_reducible first | assumption | apply ite_keep)
    | intro _ | dsimp only | split | with_reducible apply kp.rest

theorem Keep.emit {P : State → Prop} (kp : Keep P) {s : State} {e : Emission} (h_s : P s) :
    P (State.emit s e) := by
  unfold Sys2Proof.Machine.State.emit
  repeat' first
    | (with_reducible first | assumption | apply ite_keep)
    | intro _ | dsimp only | split | with_reducible apply kp.rest

theorem Keep.emitAll {P : State → Prop} (kp : Keep P) {s : State} {l : List Emission} (h_s : P s) :
    P (State.emitAll s l) := by
  unfold Sys2Proof.Machine.State.emitAll
  repeat' first
    | (with_reducible first | assumption | apply ite_keep)
    | intro _ | dsimp only | split | with_reducible apply kp.rest

theorem Keep.each {P : State → Prop} (kp : Keep P) {α : Type} {s : State} {l : List α} {f : State → α → State} (h_s : P s) (h_f : ∀ (y0 : State) (y1 : α), P y0 → P (f y0 y1)) :
    P (State.each s l f) := by
  unfold Sys2Proof.Machine.State.each
  repeat' first
    | (with_reducible first | assumption | apply ite_keep | apply foldl_keep | apply foldl_keep_fst
                            | apply foldl_keep_snd | apply h_f)
    | intro _ | dsimp only | split | with_reducible apply kp.rest

theorem Keep.when {P : State → Prop} (kp : Keep P) {s : State} {b : Bool} {f : State → State} (h_s : P s) (h_f : ∀ (y0 : State), P y0 → P (f y0)) :
    P (State.when s b f) := by
  unfold Sys2Proof.Machine.State.when
  repeat' first
    | (with_reducible first | assumption | apply ite_keep | apply h_f)
    | intro _ | dsimp only | split | with_reducible apply kp.rest

theorem Keep.setBase {P : State → Prop} (kp : Keep P) {s : State} {b : Nat} {x : TimeBase} (h_s : P s) :
    P (State.setBase s b x) := by
  unfold Sys2Proof.Machine.State.setBase
  repeat' first
    | (with_reducible first | assumption | apply ite_keep)
    | intro _ | dsimp only | split | with_reducible apply kp.rest

end Sys2Proof.Machine
end

