-- ==== Sys2Proof/Laws/KeepBudgets.lean ====
section
/-! SUPPORT. The operations of Machine/Budgets.lean keep every property that single writes keep. -/

namespace Sys2Proof.Machine

open Sys2Proof

theorem Keep.setAllocs {P : State → Prop} (kp : Keep P) {s : State} {l : List Alloc} (h_s : P s) :
    P (State.setAllocs s l) := by
  unfold Sys2Proof.Machine.State.setAllocs
  repeat' first
    | (with_reducible first | assumption | apply ite_keep)
    | intro _ | dsimp only | split | with_reducible apply kp.rest

theorem Keep.alloc {P : State → Prop} (kp : Keep P) {s : State} {owner : Nat} {h : Holding} {c : Charge} (h_s : P s) :
    P (State.alloc s owner h c) := by
  unfold Sys2Proof.Machine.State.alloc
  repeat' first
    | (with_reducible first | assumption | apply ite_keep | apply kp.setAllocs)
    | intro _ | dsimp only | split | with_reducible apply kp.rest

theorem Keep.release {P : State → Prop} (kp : Keep P) {s : State} {p : Holding → Bool} (h_s : P s) :
    P (State.release s p) := by
  unfold Sys2Proof.Machine.State.release
  repeat' first
    | (with_reducible first | assumption | apply ite_keep | apply kp.setAllocs)
    | intro _ | dsimp only | split | with_reducible apply kp.rest

theorem Keep.setCanvas {P : State → Prop} (kp : Keep P) {s : State} {c : Nat} {x : CanvasState} (h_s : P s) :
    P (State.setCanvas s c x) := by
  unfold Sys2Proof.Machine.State.setCanvas
  repeat' first
    | (with_reducible first | assumption | apply ite_keep)
    | intro _ | dsimp only | split | with_reducible apply kp.rest

theorem Keep.rechargeTo {P : State → Prop} (kp : Keep P) {s : State} {c : Nat} {own : Option Nat} (h_s : P s) :
    P (State.rechargeTo s c own) := by
  unfold Sys2Proof.Machine.State.rechargeTo
  repeat' first
    | (with_reducible first | assumption | apply ite_keep | apply kp.release | apply kp.alloc | apply kp.setAllocs)
    | intro _ | dsimp only | split | with_reducible apply kp.rest

theorem Keep.recharge {P : State → Prop} (kp : Keep P) {s : State} {c : Nat} (h_s : P s) :
    P (State.recharge s c) := by
  unfold Sys2Proof.Machine.State.recharge
  repeat' first
    | (with_reducible first | assumption | apply ite_keep | apply kp.rechargeTo)
    | intro _ | dsimp only | split | with_reducible apply kp.rest

end Sys2Proof.Machine
end

