-- ==== Sys2Proof/Laws/KeepRings.lean ====
section
/-! SUPPORT. The operations of Machine/Rings.lean keep every property that single writes keep. -/

namespace Sys2Proof.Machine

open Sys2Proof

theorem Keep.setPending {P : State → Prop} (kp : Keep P) {s : State} {l : List Nat} (h_s : P s) :
    P (State.setPending s l) := by
  unfold Sys2Proof.Machine.State.setPending
  repeat' first
    | (with_reducible first | assumption | apply ite_keep)
    | intro _ | dsimp only | split | with_reducible apply kp.rest

theorem Keep.signal {P : State → Prop} (kp : Keep P) {s : State} {t : Nat} {v : Nat} (h_s : P s) :
    P (State.signal s t v) := by
  unfold Sys2Proof.Machine.State.signal
  repeat' first
    | (with_reducible first | assumption | apply ite_keep | apply kp.setPending | apply kp.emit)
    | intro _ | dsimp only | split | with_reducible apply kp.rest

theorem Keep.unmask {P : State → Prop} (kp : Keep P) {s : State} {t : Nat} {v : Nat} (h_s : P s) :
    P (State.unmask s t v) := by
  unfold Sys2Proof.Machine.State.unmask
  repeat' first
    | (with_reducible first | assumption | apply ite_keep | apply kp.setPending | apply kp.emit | apply kp.setBit)
    | intro _ | dsimp only | split | with_reducible apply kp.rest

theorem Keep.signalEdges {P : State → Prop} (kp : Keep P) {old : State} {s : State} (h_old : P old) (h_s : P s) :
    P (State.signalEdges old s) := by
  unfold Sys2Proof.Machine.State.signalEdges
  repeat' first
    | (with_reducible first | assumption | apply ite_keep | apply kp.signal | apply kp.when | apply kp.emit)
    | intro _ | dsimp only | split | with_reducible apply kp.rest

theorem Keep.setRing {P : State → Prop} (kp : Keep P) {s : State} {t : Nat} {r : Nat} {x : Ring} (h_s : P s) :
    P (State.setRing s t r x) := by
  unfold Sys2Proof.Machine.State.setRing
  repeat' first
    | (with_reducible first | assumption | apply ite_keep)
    | intro _ | dsimp only | split | with_reducible apply kp.rest

theorem Keep.ringWrite {P : State → Prop} (kp : Keep P) {s : State} {t : Nat} {r : Nat} {mk : Bool → RingEntry} (h_s : P s) :
    P (State.ringWrite s t r mk) := by
  unfold Sys2Proof.Machine.State.ringWrite
  repeat' first
    | (with_reducible first | assumption | apply ite_keep | apply kp.setRing | apply kp.signal | apply kp.when
                            | apply kp.emit | apply kp.setFld)
    | intro _ | dsimp only | split | with_reducible apply kp.rest

theorem Keep.ringDrop {P : State → Prop} (kp : Keep P) {s : State} {t : Nat} {r : Nat} (h_s : P s) :
    P (State.ringDrop s t r) := by
  unfold Sys2Proof.Machine.State.ringDrop
  repeat' first
    | (with_reducible first | assumption | apply ite_keep | apply kp.inc | apply kp.setBit)
    | intro _ | dsimp only | split | with_reducible apply kp.rest

theorem Keep.writeCompletion {P : State → Prop} (kp : Keep P) {s : State} {t : Nat} {cq : Nat} {c : Completion} (h_s : P s) :
    P (State.writeCompletion s t cq c) := by
  unfold Sys2Proof.Machine.State.writeCompletion
  repeat' first
    | (with_reducible first | assumption | apply ite_keep | apply kp.ringWrite | apply kp.setRing)
    | intro _ | dsimp only | split | with_reducible apply kp.rest

theorem Keep.unreserve {P : State → Prop} (kp : Keep P) {s : State} {t : Nat} {cq : Nat} (h_s : P s) :
    P (State.unreserve s t cq) := by
  unfold Sys2Proof.Machine.State.unreserve
  repeat' first
    | (with_reducible first | assumption | apply ite_keep | apply kp.setRing)
    | intro _ | dsimp only | split | with_reducible apply kp.rest

theorem Keep.complete {P : State → Prop} (kp : Keep P) {s : State} {id : Nat} {st : Status} {result : Nat} {epoch : Nat} (h_s : P s) :
    P (State.complete s id st result epoch) := by
  unfold Sys2Proof.Machine.State.complete
  repeat' first
    | (with_reducible first | assumption | apply ite_keep | apply kp.unreserve | apply kp.writeCompletion)
    | intro _ | dsimp only | split | with_reducible apply kp.rest

theorem Keep.completeAll {P : State → Prop} (kp : Keep P) {s : State} {l : List Nat} {st : Status} (h_s : P s) :
    P (State.completeAll s l st) := by
  unfold Sys2Proof.Machine.State.completeAll
  repeat' first
    | (with_reducible first | assumption | apply ite_keep | apply kp.complete | apply kp.each)
    | intro _ | dsimp only | split | with_reducible apply kp.rest

end Sys2Proof.Machine
end

