-- ==== Sys2Proof/Laws/KeepFaults.lean ====
section
/-! SUPPORT. The operations of Machine/Faults.lean keep every property that single writes keep. -/

namespace Sys2Proof.Machine

open Sys2Proof

theorem Keep.writeCapture {P : State → Prop} (kp : Keep P) {s : State} {t : Nat} {r : Nat} {c : Capture} {dropped : State → State} (h_s : P s) (h_dropped : ∀ (y0 : State), P y0 → P (dropped y0)) :
    P (State.writeCapture s t r c dropped) := by
  unfold Sys2Proof.Machine.State.writeCapture
  repeat' first
    | (with_reducible first | assumption | apply ite_keep | apply kp.ringDrop | apply kp.ringWrite | apply h_dropped)
    | intro _ | dsimp only | split | with_reducible apply kp.rest

theorem Keep.setHdgTimers {P : State → Prop} (kp : Keep P) {s : State} {t : Tbl Bool} (h_s : P s) :
    P (State.setHdgTimers s t) := by
  unfold Sys2Proof.Machine.State.setHdgTimers
  repeat' first
    | (with_reducible first | assumption | apply ite_keep)
    | intro _ | dsimp only | split | with_reducible apply kp.rest

theorem Keep.driveFault {P : State → Prop} (kp : Keep P) {s : State} {b : Bool} (h_s : P s) :
    P (State.driveFault s b) := by
  unfold Sys2Proof.Machine.State.driveFault
  repeat' first
    | (with_reducible first | assumption | apply ite_keep | apply kp.emit | apply kp.setBit)
    | intro _ | dsimp only | split | with_reducible apply kp.rest

theorem Keep.dropReqs {P : State → Prop} (kp : Keep P) {s : State} {n : Nat} (h_s : P s) :
    P (State.dropReqs s n) := by
  unfold Sys2Proof.Machine.State.dropReqs
  repeat' first
    | (with_reducible first | assumption | apply ite_keep)
    | intro _ | dsimp only | split | with_reducible apply kp.rest

theorem Keep.setChan {P : State → Prop} (kp : Keep P) {s : State} {n : Nat} {x : Chan} (h_s : P s) :
    P (State.setChan s n x) := by
  unfold Sys2Proof.Machine.State.setChan
  repeat' first
    | (with_reducible first | assumption | apply ite_keep)
    | intro _ | dsimp only | split | with_reducible apply kp.rest

theorem Keep.noteAddr {P : State → Prop} (kp : Keep P) {s : State} {n : Nat} {a : Nat} (h_s : P s) :
    P (State.noteAddr s n a) := by
  unfold Sys2Proof.Machine.State.noteAddr
  repeat' first
    | (with_reducible first | assumption | apply ite_keep | apply kp.wr)
    | intro _ | dsimp only | split | with_reducible apply kp.rest

theorem Keep.haltChannel {P : State → Prop} (kp : Keep P) {s : State} {n : Nat} {cause : Nat} (h_s : P s) :
    P (State.haltChannel s n cause) := by
  unfold Sys2Proof.Machine.State.haltChannel
  repeat' first
    | (with_reducible first | assumption | apply ite_keep | apply kp.noteAddr | apply kp.dropReqs | apply kp.signal
                            | apply kp.when | apply kp.setFld)
    | intro _ | dsimp only | split | with_reducible apply kp.rest

theorem Keep.abortCommands {P : State → Prop} (kp : Keep P) {s : State} (h_s : P s) :
    P (State.abortCommands s) := by
  unfold Sys2Proof.Machine.State.abortCommands
  repeat' first
    | (with_reducible first | assumption | apply ite_keep | apply kp.completeAll)
    | intro _ | dsimp only | split | with_reducible apply kp.rest

theorem Keep.record {P : State → Prop} (kp : Keep P) {s : State} {n : Nat} {sev : Nat} {promoted : Bool} (h_s : P s) :
    P (State.record s n sev promoted) := by
  unfold Sys2Proof.Machine.State.record
  repeat' first
    | (with_reducible first | assumption | apply ite_keep | apply kp.when | apply kp.wr)
    | intro _ | dsimp only | split | with_reducible apply kp.rest

theorem Keep.enterSevere {P : State → Prop} (kp : Keep P) {esc : State → Nat → State} {s : State} {n : Nat} {promoted : Bool} (h_esc : ∀ (y0 : State) (y1 : Nat), P y0 → P (esc y0 y1)) (h_s : P s) :
    P (State.enterSevere esc s n promoted) := by
  unfold Sys2Proof.Machine.State.enterSevere
  repeat' first
    | (with_reducible first | assumption | apply ite_keep | apply kp.record | apply kp.setHdgTimers | apply kp.signal
                            | apply kp.when | apply kp.setBit | apply kp.setFld | apply h_esc)
    | intro _ | dsimp only | split | with_reducible apply kp.rest

theorem Keep.hdgEvent {P : State → Prop} (kp : Keep P) {esc : State → Nat → State} {s : State} {n : Nat} {forced : Bool} (h_esc : ∀ (y0 : State) (y1 : Nat), P y0 → P (esc y0 y1)) (h_s : P s) :
    P (State.hdgEvent esc s n forced) := by
  unfold Sys2Proof.Machine.State.hdgEvent
  repeat' first
    | (with_reducible first | assumption | apply ite_keep | apply kp.enterSevere | apply kp.record | apply kp.inc
                            | apply kp.setBit | apply kp.setFld | apply h_esc)
    | intro _ | dsimp only | split | with_reducible apply kp.rest

theorem Keep.escQuiet {P : State → Prop} (kp : Keep P) {s : State} {n : Nat} (h_s : P s) :
    P (State.escQuiet s n) := by
  unfold Sys2Proof.Machine.State.escQuiet
  repeat' first
    | (with_reducible first | assumption | apply ite_keep | apply kp.signal | apply kp.setFld)
    | intro _ | dsimp only | split | with_reducible apply kp.rest

theorem Keep.escSafe {P : State → Prop} (kp : Keep P) {s : State} {n : Nat} (h_s : P s) :
    P (State.escSafe s n) := by
  unfold Sys2Proof.Machine.State.escSafe
  repeat' first
    | (with_reducible first | assumption | apply ite_keep | apply kp.escQuiet | apply kp.hdgEvent)
    | intro _ | dsimp only | split | with_reducible apply kp.rest

theorem Keep.idleOutputs {P : State → Prop} (kp : Keep P) {s : State} (h_s : P s) :
    P (State.idleOutputs s) := by
  unfold Sys2Proof.Machine.State.idleOutputs
  repeat' first
    | (with_reducible first | assumption | apply ite_keep | apply kp.escSafe | apply kp.hdgEvent | apply kp.when
                            | apply kp.each | apply kp.setBit)
    | intro _ | dsimp only | split | with_reducible apply kp.rest

theorem Keep.dropChanges {P : State → Prop} (kp : Keep P) {s : State} (h_s : P s) :
    P (State.dropChanges s) := by
  unfold Sys2Proof.Machine.State.dropChanges
  repeat' first
    | (with_reducible first | assumption | apply ite_keep | apply kp.release)
    | intro _ | dsimp only | split | with_reducible apply kp.rest

theorem Keep.dropCanvasWork {P : State → Prop} (kp : Keep P) {s : State} (h_s : P s) :
    P (State.dropCanvasWork s) := by
  unfold Sys2Proof.Machine.State.dropCanvasWork
  repeat' first
    | (with_reducible first | assumption | apply ite_keep | apply kp.escSafe | apply kp.hdgEvent
                            | apply kp.writeCapture | apply kp.recharge | apply kp.release | apply kp.each)
    | intro _ | dsimp only | split | with_reducible apply kp.rest

theorem Keep.dropSalvos {P : State → Prop} (kp : Keep P) {s : State} (h_s : P s) :
    P (State.dropSalvos s) := by
  unfold Sys2Proof.Machine.State.dropSalvos
  repeat' first
    | (with_reducible first | assumption | apply ite_keep | apply kp.escSafe | apply kp.hdgEvent | apply kp.recharge
                            | apply kp.release | apply kp.when | apply kp.each)
    | intro _ | dsimp only | split | with_reducible apply kp.rest

theorem Keep.setSvc {P : State → Prop} (kp : Keep P) {s : State} {x : Svc} (h_s : P s) :
    P (State.setSvc s x) := by
  unfold Sys2Proof.Machine.State.setSvc
  repeat' first
    | (with_reducible first | assumption | apply ite_keep)
    | intro _ | dsimp only | split | with_reducible apply kp.rest

theorem Keep.svcEnd {P : State → Prop} (kp : Keep P) {s : State} {op : Nat} {result : Nat} (h_s : P s) :
    P (State.svcEnd s op result) := by
  unfold Sys2Proof.Machine.State.svcEnd
  repeat' first
    | (with_reducible first | assumption | apply ite_keep | apply kp.setSvc | apply kp.setBit | apply kp.setFld)
    | intro _ | dsimp only | split | with_reducible apply kp.rest

theorem Keep.svcStart {P : State → Prop} (kp : Keep P) {s : State} {op : Nat} (h_s : P s) :
    P (State.svcStart s op) := by
  unfold Sys2Proof.Machine.State.svcStart
  repeat' first
    | (with_reducible first | assumption | apply ite_keep | apply kp.setBit | apply kp.setFld)
    | intro _ | dsimp only | split | with_reducible apply kp.rest

theorem Keep.svcAborted {P : State → Prop} (kp : Keep P) {s : State} (h_s : P s) :
    P (State.svcAborted s) := by
  unfold Sys2Proof.Machine.State.svcAborted
  repeat' first
    | (with_reducible first | assumption | apply ite_keep | apply kp.svcEnd | apply kp.freshWord)
    | intro _ | dsimp only | split | with_reducible apply kp.rest

theorem Keep.abandonShadow {P : State → Prop} (kp : Keep P) {s : State} (h_s : P s) :
    P (State.abandonShadow s) := by
  unfold Sys2Proof.Machine.State.abandonShadow
  repeat' first
    | (with_reducible first | assumption | apply ite_keep | apply kp.svcAborted | apply kp.setFld)
    | intro _ | dsimp only | split | with_reducible apply kp.rest

theorem Keep.rampPort {P : State → Prop} (kp : Keep P) {s : State} {p : Nat} {up : Bool} {frame : Nat} (h_s : P s) :
    P (State.rampPort s p up frame) := by
  unfold Sys2Proof.Machine.State.rampPort
  repeat' first
    | (with_reducible first | assumption | apply ite_keep | apply kp.emit)
    | intro _ | dsimp only | split | with_reducible apply kp.rest

theorem Keep.muffle {P : State → Prop} (kp : Keep P) {s : State} (h_s : P s) :
    P (State.muffle s) := by
  unfold Sys2Proof.Machine.State.muffle
  repeat' first
    | (with_reducible first | assumption | apply ite_keep | apply kp.rampPort | apply kp.each)
    | intro _ | dsimp only | split | with_reducible apply kp.rest

theorem Keep.floatAudio {P : State → Prop} (kp : Keep P) {s : State} (h_s : P s) :
    P (State.floatAudio s) := by
  unfold Sys2Proof.Machine.State.floatAudio
  repeat' first
    | (with_reducible first | assumption | apply ite_keep | apply kp.each | apply kp.emit)
    | intro _ | dsimp only | split | with_reducible apply kp.rest

theorem Keep.fovPins {P : State → Prop} (kp : Keep P) {s : State} {x : Nat} {y : Nat} (h_s : P s) :
    P (State.fovPins s x y) := by
  unfold Sys2Proof.Machine.State.fovPins
  repeat' first
    | (with_reducible first | assumption | apply ite_keep | apply kp.when | apply kp.emit)
    | intro _ | dsimp only | split | with_reducible apply kp.rest

theorem Keep.setFov {P : State → Prop} (kp : Keep P) {s : State} {x : Nat} (h_s : P s) :
    P (State.setFov s x) := by
  unfold Sys2Proof.Machine.State.setFov
  repeat' first
    | (with_reducible first | assumption | apply ite_keep | apply kp.fovPins | apply kp.setBit | apply kp.setFld)
    | intro _ | dsimp only | split | with_reducible apply kp.rest

theorem Keep.stopForSafe {P : State → Prop} (kp : Keep P) {s : State} (h_s : P s) :
    P (State.stopForSafe s) := by
  unfold Sys2Proof.Machine.State.stopForSafe
  repeat' first
    | (with_reducible first | assumption | apply ite_keep | apply kp.floatAudio | apply kp.muffle
                            | apply kp.abandonShadow | apply kp.dropSalvos | apply kp.dropCanvasWork
                            | apply kp.dropChanges | apply kp.idleOutputs)
    | intro _ | dsimp only | split | with_reducible apply kp.rest

theorem Keep.enterSafe {P : State → Prop} (kp : Keep P) {s : State} {n : Nat} (h_s : P s) :
    P (State.enterSafe s n) := by
  unfold Sys2Proof.Machine.State.enterSafe
  repeat' first
    | (with_reducible first | assumption | apply ite_keep | apply kp.stopForSafe | apply kp.setFov | apply kp.escSafe
                            | apply kp.hdgEvent | apply kp.abortCommands | apply kp.haltChannel | apply kp.driveFault
                            | apply kp.signal | apply kp.each | apply kp.setBit | apply kp.setFld)
    | intro _ | dsimp only | split | with_reducible apply kp.rest

theorem Keep.takeAction {P : State → Prop} (kp : Keep P) {s : State} {n : Nat} (h_s : P s) :
    P (State.takeAction s n) := by
  unfold Sys2Proof.Machine.State.takeAction
  repeat' first
    | (with_reducible first | assumption | apply ite_keep | apply kp.enterSafe | apply kp.driveFault)
    | intro _ | dsimp only | split | with_reducible apply kp.rest

theorem Keep.escOwn {P : State → Prop} (kp : Keep P) {s : State} {n : Nat} (h_s : P s) :
    P (State.escOwn s n) := by
  unfold Sys2Proof.Machine.State.escOwn
  repeat' first
    | (with_reducible first | assumption | apply ite_keep | apply kp.takeAction | apply kp.escQuiet)
    | intro _ | dsimp only | split | with_reducible apply kp.rest

theorem Keep.escalate {P : State → Prop} (kp : Keep P) {s : State} {n : Nat} (h_s : P s) :
    P (State.escalate s n) := by
  unfold Sys2Proof.Machine.State.escalate
  repeat' first
    | (with_reducible first | assumption | apply ite_keep | apply kp.escOwn | apply kp.takeAction | apply kp.escQuiet
                            | apply kp.hdgEvent)
    | intro _ | dsimp only | split | with_reducible apply kp.rest

theorem Keep.raise {P : State → Prop} (kp : Keep P) {s : State} {n : Nat} (h_s : P s) :
    P (State.raise s n) := by
  unfold Sys2Proof.Machine.State.raise
  repeat' first
    | (with_reducible first | assumption | apply ite_keep | apply kp.escalate | apply kp.hdgEvent)
    | intro _ | dsimp only | split | with_reducible apply kp.rest

theorem Keep.raiseForced {P : State → Prop} (kp : Keep P) {s : State} {n : Nat} (h_s : P s) :
    P (State.raiseForced s n) := by
  unfold Sys2Proof.Machine.State.raiseForced
  repeat' first
    | (with_reducible first | assumption | apply ite_keep | apply kp.escalate | apply kp.hdgEvent)
    | intro _ | dsimp only | split | with_reducible apply kp.rest

theorem Keep.promote {P : State → Prop} (kp : Keep P) {s : State} {n : Nat} (h_s : P s) :
    P (State.promote s n) := by
  unfold Sys2Proof.Machine.State.promote
  repeat' first
    | (with_reducible first | assumption | apply ite_keep | apply kp.escalate | apply kp.enterSevere)
    | intro _ | dsimp only | split | with_reducible apply kp.rest

theorem Keep.eventIn {P : State → Prop} (kp : Keep P) {s : State} {tb : Nat} {t : Nat} {r : Nat} {type : Nat} {kind : Nat} {object : Nat} {epoch : Nat} {data : List Nat} (h_s : P s) :
    P (State.eventIn s tb t r type kind object epoch data) := by
  unfold Sys2Proof.Machine.State.eventIn
  repeat' first
    | (with_reducible first | assumption | apply ite_keep | apply kp.raise | apply kp.ringDrop | apply kp.ringWrite
                            | apply kp.setRing)
    | intro _ | dsimp only | split | with_reducible apply kp.rest

theorem Keep.event {P : State → Prop} (kp : Keep P) {s : State} {t : Nat} {r : Nat} {type : Nat} {kind : Nat} {object : Nat} {epoch : Nat} {data : List Nat} (h_s : P s) :
    P (State.event s t r type kind object epoch data) := by
  unfold Sys2Proof.Machine.State.event
  repeat' first
    | (with_reducible first | assumption | apply ite_keep | apply kp.eventIn)
    | intro _ | dsimp only | split | with_reducible apply kp.rest

theorem Keep.setTotal {P : State → Prop} (kp : Keep P) {s : State} {code : Nat} {v : Nat} (h_s : P s) :
    P (State.setTotal s code v) := by
  unfold Sys2Proof.Machine.State.setTotal
  repeat' first
    | (with_reducible first | assumption | apply ite_keep | apply kp.event | apply kp.setFld)
    | intro _ | dsimp only | split | with_reducible apply kp.rest

end Sys2Proof.Machine
end

