-- ==== Sys2Proof/Laws/KeepFlags.lean ====
section
/-! SUPPORT. The operations of Machine/Flags.lean keep every property that single writes keep. -/

namespace Sys2Proof.Machine

open Sys2Proof

theorem Keep.countLock {P : State → Prop} (kp : Keep P) {s : State} {a : Nat} {v : Word} (h_s : P s) :
    P (State.countLock s a v) := by
  unfold Sys2Proof.Machine.State.countLock
  repeat' first
    | (with_reducible first | assumption | apply ite_keep | apply kp.raise | apply kp.when)
    | intro _ | dsimp only | split | with_reducible apply kp.rest

theorem Keep.fieldWrite {P : State → Prop} (kp : Keep P) {s : State} {a : Nat} {v : Word} (h_s : P s) :
    P (State.fieldWrite s a v) := by
  unfold Sys2Proof.Machine.State.fieldWrite
  repeat' first
    | (with_reducible first | assumption | apply ite_keep | apply kp.raise | apply kp.when | apply kp.wr)
    | intro _ | dsimp only | split | with_reducible apply kp.rest

end Sys2Proof.Machine
end

