-- ==== Sys2Proof/Laws/KeepHostIf.lean ====
section
/-! SUPPORT. The operations of Machine/HostIf.lean keep every property that single writes keep. -/

namespace Sys2Proof.Machine

open Sys2Proof

theorem Keep.opBarAccess {P : State → Prop} (kp : Keep P) {t : Nat} {isWrite : Bool} {s : State} (h_s : P s) :
    P (opBarAccess t isWrite s) := by
  unfold Sys2Proof.Machine.opBarAccess
  repeat' first
    | (with_reducible first | assumption | apply ite_keep | apply kp.raise | apply kp.emit)
    | intro _ | dsimp only | split | with_reducible apply kp.rest

theorem Keep.grabEntry {P : State → Prop} (kp : Keep P) {s : State} {ch : Nat} {g : Grab} {c : Capture} (h_s : P s) :
    P (State.grabEntry s ch g c) := by
  unfold Sys2Proof.Machine.State.grabEntry
  repeat' first
    | (with_reducible first | assumption | apply ite_keep | apply kp.raise | apply kp.writeCapture | apply kp.complete)
    | intro _ | dsimp only | split | with_reducible apply kp.rest

theorem Keep.serveGrabs {P : State → Prop} (kp : Keep P) {s : State} {t : Nat} {r : Nat} (h_s : P s) :
    P (State.serveGrabs s t r) := by
  unfold Sys2Proof.Machine.State.serveGrabs
  repeat' first
    | (with_reducible first | assumption | apply ite_keep | apply kp.grabEntry | apply kp.each)
    | intro _ | dsimp only | split | with_reducible apply kp.rest

theorem Keep.opDoorbell {P : State → Prop} (kp : Keep P) {t : Nat} {r : Nat} {i : Nat} {s : State} (h_s : P s) :
    P (opDoorbell t r i s) := by
  unfold Sys2Proof.Machine.opDoorbell
  repeat' first
    | (with_reducible first | assumption | apply ite_keep | apply kp.serveGrabs | apply kp.raise | apply kp.when
                            | apply kp.setBit | apply kp.setFld)
    | intro _ | dsimp only | split | with_reducible apply kp.rest

theorem Keep.opCommandFetch {P : State → Prop} (kp : Keep P) {t : Nat} {r : Nat} {es : List Entry} {s : State} (h_s : P s) :
    P (opCommandFetch t r es s) := by
  unfold Sys2Proof.Machine.opCommandFetch
  repeat' first
    | (with_reducible first | assumption | apply ite_keep | apply kp.setRing)
    | intro _ | dsimp only | split | with_reducible apply kp.rest

theorem Keep.opCommandAged {P : State → Prop} (kp : Keep P) {t : Nat} {r : Nat} {s : State} (h_s : P s) :
    P (opCommandAged t r s) := by
  unfold Sys2Proof.Machine.opCommandAged
  repeat' first
    | (with_reducible first | assumption | apply ite_keep | apply kp.setRing)
    | intro _ | dsimp only | split | with_reducible apply kp.rest

theorem Keep.opRingTimer {P : State → Prop} (kp : Keep P) {t : Nat} {r : Nat} {s : State} (h_s : P s) :
    P (opRingTimer t r s) := by
  unfold Sys2Proof.Machine.opRingTimer
  repeat' first
    | (with_reducible first | assumption | apply ite_keep | apply kp.setRing | apply kp.signal)
    | intro _ | dsimp only | split | with_reducible apply kp.rest

theorem Keep.opMsixUnmask {P : State → Prop} (kp : Keep P) {t : Nat} {v : Nat} {s : State} (h_s : P s) :
    P (opMsixUnmask t v s) := by
  unfold Sys2Proof.Machine.opMsixUnmask
  repeat' first
    | (with_reducible first | assumption | apply ite_keep | apply kp.unmask)
    | intro _ | dsimp only | split | with_reducible apply kp.rest

theorem Keep.ringRefuse {P : State → Prop} (kp : Keep P) {s : State} {t : Nat} {r : Nat} (h_s : P s) :
    P (State.ringRefuse s t r) := by
  unfold Sys2Proof.Machine.State.ringRefuse
  repeat' first
    | (with_reducible first | assumption | apply ite_keep | apply kp.raise | apply kp.setBit)
    | intro _ | dsimp only | split | with_reducible apply kp.rest

theorem Keep.writeDeferred {P : State → Prop} (kp : Keep P) {s : State} {t : Nat} {r : Nat} (h_s : P s) :
    P (State.writeDeferred s t r) := by
  unfold Sys2Proof.Machine.State.writeDeferred
  repeat' first
    | (with_reducible first | assumption | apply ite_keep | apply kp.writeCompletion | apply kp.setRing
                            | apply kp.each)
    | intro _ | dsimp only | split | with_reducible apply kp.rest

theorem Keep.ringEnable {P : State → Prop} (kp : Keep P) {s : State} {t : Nat} {r : Nat} (h_s : P s) :
    P (State.ringEnable s t r) := by
  unfold Sys2Proof.Machine.State.ringEnable
  repeat' first
    | (with_reducible first | assumption | apply ite_keep | apply kp.writeDeferred | apply kp.serveGrabs
                            | apply kp.setRing | apply kp.setFld)
    | intro _ | dsimp only | split | with_reducible apply kp.rest

theorem Keep.ringDisable {P : State → Prop} (kp : Keep P) {s : State} {t : Nat} {r : Nat} (h_s : P s) :
    P (State.ringDisable s t r) := by
  unfold Sys2Proof.Machine.State.ringDisable
  repeat' first
    | (with_reducible first | assumption | apply ite_keep | apply kp.setRing)
    | intro _ | dsimp only | split | with_reducible apply kp.rest

theorem Keep.opRingCtrl {P : State → Prop} (kp : Keep P) {t : Nat} {r : Nat} {v : Word} {s : State} (h_s : P s) :
    P (opRingCtrl t r v s) := by
  unfold Sys2Proof.Machine.opRingCtrl
  repeat' first
    | (with_reducible first | assumption | apply ite_keep | apply kp.ringDisable | apply kp.ringEnable
                            | apply kp.ringRefuse | apply kp.fieldWrite)
    | intro _ | dsimp only | split | with_reducible apply kp.rest

theorem Keep.opRingBase {P : State → Prop} (kp : Keep P) {t : Nat} {r : Nat} {hi : Bool} {v : Word} {s : State} (h_s : P s) :
    P (opRingBase t r hi v s) := by
  unfold Sys2Proof.Machine.opRingBase
  repeat' first
    | (with_reducible first | assumption | apply ite_keep | apply kp.ringRefuse | apply kp.fieldWrite)
    | intro _ | dsimp only | split | with_reducible apply kp.rest

theorem Keep.opRingStat {P : State → Prop} (kp : Keep P) {t : Nat} {r : Nat} {v : Word} {s : State} (h_s : P s) :
    P (opRingStat t r v s) := by
  unfold Sys2Proof.Machine.opRingStat
  repeat' first
    | (with_reducible first | assumption | apply ite_keep | apply kp.fieldWrite | apply kp.setFld)
    | intro _ | dsimp only | split | with_reducible apply kp.rest

theorem Keep.functionReset {P : State → Prop} (kp : Keep P) {s : State} {t : Nat} (h_s : P s) :
    P (State.functionReset s t) := by
  unfold Sys2Proof.Machine.State.functionReset
  repeat' first
    | (with_reducible first | assumption | apply ite_keep | apply kp.each | apply kp.resetRegs | apply kp.inc
                            | apply kp.setFld)
    | intro _ | dsimp only | split | with_reducible apply kp.rest

theorem Keep.opFlrVf {P : State → Prop} (kp : Keep P) {n : Nat} {s : State} (h_s : P s) :
    P (opFlrVf n s) := by
  unfold Sys2Proof.Machine.opFlrVf
  repeat' first
    | (with_reducible first | assumption | apply ite_keep | apply kp.functionReset)
    | intro _ | dsimp only | split | with_reducible apply kp.rest

theorem Keep.channelDown {P : State → Prop} (kp : Keep P) {s : State} {n : Nat} (h_s : P s) :
    P (State.channelDown s n) := by
  unfold Sys2Proof.Machine.State.channelDown
  repeat' first
    | (with_reducible first | assumption | apply ite_keep | apply kp.dropReqs | apply kp.resetRegs | apply kp.setFld)
    | intro _ | dsimp only | split | with_reducible apply kp.rest

theorem Keep.pfReset {P : State → Prop} (kp : Keep P) {s : State} (h_s : P s) :
    P (State.pfReset s) := by
  unfold Sys2Proof.Machine.State.pfReset
  repeat' first
    | (with_reducible first | assumption | apply ite_keep | apply kp.channelDown | apply kp.functionReset
                            | apply kp.each | apply kp.resetRegs)
    | intro _ | dsimp only | split | with_reducible apply kp.rest

theorem Keep.opPfFlr {P : State → Prop} (kp : Keep P) {k : PfReset} {s : State} (h_s : P s) :
    P (opPfFlr k s) := by
  unfold Sys2Proof.Machine.opPfFlr
  repeat' first
    | (with_reducible first | assumption | apply ite_keep | apply kp.pfReset | apply kp.raise)
    | intro _ | dsimp only | split | with_reducible apply kp.rest

theorem Keep.opAerunc {P : State → Prop} (kp : Keep P) {s : State} (h_s : P s) :
    P (opAerunc s) := by
  unfold Sys2Proof.Machine.opAerunc
  repeat' first
    | (with_reducible first | assumption | apply ite_keep | apply kp.raise)
    | intro _ | dsimp only | split | with_reducible apply kp.rest

end Sys2Proof.Machine
end

