-- ==== Sys2Proof/Laws/KeepHedgerow.lean ====
section
/-! SUPPORT. The operations of Machine/Hedgerow.lean keep every property that single writes keep. -/

namespace Sys2Proof.Machine

open Sys2Proof

theorem Keep.hdgToClear {P : State → Prop} (kp : Keep P) {s : State} {n : Nat} (h_s : P s) :
    P (State.hdgToClear s n) := by
  unfold Sys2Proof.Machine.State.hdgToClear
  repeat' first
    | (with_reducible first | assumption | apply ite_keep | apply kp.setBit | apply kp.setFld)
    | intro _ | dsimp only | split | with_reducible apply kp.rest

theorem Keep.refreshFault {P : State → Prop} (kp : Keep P) {s : State} (h_s : P s) :
    P (State.refreshFault s) := by
  unfold Sys2Proof.Machine.State.refreshFault
  repeat' first
    | (with_reducible first | assumption | apply ite_keep | apply kp.driveFault)
    | intro _ | dsimp only | split | with_reducible apply kp.rest

theorem Keep.opHdgWindowClose {P : State → Prop} (kp : Keep P) {n : Nat} {s : State} (h_s : P s) :
    P (opHdgWindowClose n s) := by
  unfold Sys2Proof.Machine.opHdgWindowClose
  repeat' first
    | (with_reducible first | assumption | apply ite_keep | apply kp.hdgToClear)
    | intro _ | dsimp only | split | with_reducible apply kp.rest

theorem Keep.opHdgReactionExpiry {P : State → Prop} (kp : Keep P) {n : Nat} {s : State} (h_s : P s) :
    P (opHdgReactionExpiry n s) := by
  unfold Sys2Proof.Machine.opHdgReactionExpiry
  repeat' first
    | (with_reducible first | assumption | apply ite_keep | apply kp.escalate)
    | intro _ | dsimp only | split | with_reducible apply kp.rest

theorem Keep.ackRefuse {P : State → Prop} (kp : Keep P) {s : State} (h_s : P s) :
    P (State.ackRefuse s) := by
  unfold Sys2Proof.Machine.State.ackRefuse
  repeat' first
    | (with_reducible first | assumption | apply ite_keep | apply kp.setBit)
    | intro _ | dsimp only | split | with_reducible apply kp.rest

theorem Keep.opHdgAck {P : State → Prop} (kp : Keep P) {n : Nat} {s : State} (h_s : P s) :
    P (opHdgAck n s) := by
  unfold Sys2Proof.Machine.opHdgAck
  repeat' first
    | (with_reducible first | assumption | apply ite_keep | apply kp.ackRefuse | apply kp.setHdgTimers
                            | apply kp.setBit)
    | intro _ | dsimp only | split | with_reducible apply kp.rest

theorem Keep.opHdgClr {P : State → Prop} (kp : Keep P) {n : Nat} {s : State} (h_s : P s) :
    P (opHdgClr n s) := by
  unfold Sys2Proof.Machine.opHdgClr
  repeat' first
    | (with_reducible first | assumption | apply ite_keep | apply kp.ackRefuse | apply kp.refreshFault
                            | apply kp.hdgToClear)
    | intro _ | dsimp only | split | with_reducible apply kp.rest

theorem Keep.opHdgFirstclr {P : State → Prop} (kp : Keep P) {s : State} (h_s : P s) :
    P (opHdgFirstclr s) := by
  unfold Sys2Proof.Machine.opHdgFirstclr
  repeat' first
    | (with_reducible first | assumption | apply ite_keep | apply kp.clearAll)
    | intro _ | dsimp only | split | with_reducible apply kp.rest

theorem Keep.opHdgClrcnt {P : State → Prop} (kp : Keep P) {s : State} (h_s : P s) :
    P (opHdgClrcnt s) := by
  unfold Sys2Proof.Machine.opHdgClrcnt
  repeat' first
    | (with_reducible first | assumption | apply ite_keep | apply kp.resetRegs)
    | intro _ | dsimp only | split | with_reducible apply kp.rest

end Sys2Proof.Machine
end

