-- ==== Sys2Proof/Laws/KeepOperands.lean ====
section
/-! SUPPORT. The operations of Machine/Operands.lean keep every property that single writes keep. -/

namespace Sys2Proof.Machine

open Sys2Proof

theorem Keep.take {P : State → Prop} (kp : Keep P) {s : State} {t : Nat} {r : Nat} {e : Entry} {pb : BlockRead} (h_s : P s) :
    P (State.take s t r e pb) := by
  unfold Sys2Proof.Machine.State.take
  repeat' first
    | (with_reducible first | assumption | apply ite_keep | apply kp.setRing)
    | intro _ | dsimp only | split | with_reducible apply kp.rest

theorem Keep.setHif {P : State → Prop} (kp : Keep P) {s : State} {h : Hif} (h_s : P s) :
    P (State.setHif s h) := by
  unfold Sys2Proof.Machine.State.setHif
  repeat' first
    | (with_reducible first | assumption | apply ite_keep)
    | intro _ | dsimp only | split | with_reducible apply kp.rest

theorem Keep.serve {P : State → Prop} (kp : Keep P) {s : State} {x0 : List Nat} (h_s : P s) :
    P (State.serve s x0).1 := by
  induction x0 generalizing s with
  | nil => exact h_s
  | cons a t ih =>
    unfold Sys2Proof.Machine.State.serve
    split
    · exact h_s
    · exact ih (kp.setHif h_s)
    · exact ih h_s

theorem Keep.queueShort {P : State → Prop} (kp : Keep P) {s : State} (h_s : P s) :
    P (State.queueShort s) := by
  unfold Sys2Proof.Machine.State.queueShort
  repeat' first
    | (with_reducible first | assumption | apply ite_keep | apply kp.setHif)
    | intro _ | dsimp only | split | with_reducible apply kp.rest

theorem Keep.arbitrate {P : State → Prop} (kp : Keep P) {s : State} (h_s : P s) :
    P (State.arbitrate s).1 := by
  unfold Sys2Proof.Machine.State.arbitrate
  repeat' first
    | (with_reducible first | assumption | apply ite_keep | apply kp.queueShort | apply kp.serve)
    | intro _ | dsimp only | split | with_reducible apply kp.rest

theorem Keep.popHead {P : State → Prop} (kp : Keep P) {s : State} {t : Nat} {r : Nat} (h_s : P s) :
    P (State.popHead s t r) := by
  unfold Sys2Proof.Machine.State.popHead
  repeat' first
    | (with_reducible first | assumption | apply ite_keep | apply kp.setHif | apply kp.setRing | apply kp.setFld)
    | intro _ | dsimp only | split | with_reducible apply kp.rest

theorem Keep.dispatch {P : State → Prop} (kp : Keep P) {s : State} {t : Nat} {r : Nat} {e : Entry} {pb : BlockRead} {body : Nat → State → State} (h_s : P s) (h_body : ∀ (y0 : Nat) (y1 : State), P y1 → P (body y0 y1)) :
    P (State.dispatch s t r e pb body) := by
  unfold Sys2Proof.Machine.State.dispatch
  repeat' first
    | (with_reducible first | assumption | apply ite_keep | apply kp.popHead | apply kp.take | apply h_body)
    | intro _ | dsimp only | split | with_reducible apply kp.rest

theorem Keep.commandWith {P : State → Prop} (kp : Keep P) {s : State} {op : Nat} {t : Nat} {r : Nat} {e : Entry} {pb : BlockRead} {body : Nat → State → State} (h_s : P s) (h_body : ∀ (y0 : Nat) (y1 : State), P y1 → P (body y0 y1)) :
    P (State.commandWith s op t r e pb body) := by
  unfold Sys2Proof.Machine.State.commandWith
  apply ite_keep h_s
  split
  · exact h_s
  · rename_i w hw
    have hP : P w := by
      unfold State.offer at hw
      repeat' split at hw
      · cases hw; exact h_s
      · cases hw
      · cases hw; exact kp.setRing h_s
      · cases hw
    exact ite_keep (kp.dispatch (kp.arbitrate hP) h_body) h_s

theorem Keep.command {P : State → Prop} (kp : Keep P) {s : State} {op : Nat} {t : Nat} {r : Nat} {e : Entry} {body : Nat → State → State} (h_s : P s) (h_body : ∀ (y0 : Nat) (y1 : State), P y1 → P (body y0 y1)) :
    P (State.command s op t r e body) := by
  unfold Sys2Proof.Machine.State.command
  repeat' first
    | (with_reducible first | assumption | apply ite_keep | apply kp.commandWith | apply h_body)
    | intro _ | dsimp only | split | with_reducible apply kp.rest

theorem Keep.mirror {P : State → Prop} (kp : Keep P) {s : State} {m : MirrorRecord} (h_s : P s) :
    P (State.mirror s m) := by
  unfold Sys2Proof.Machine.State.mirror
  repeat' first
    | (with_reducible first | assumption | apply ite_keep | apply kp.emit)
    | intro _ | dsimp only | split | with_reducible apply kp.rest

theorem Keep.mirrorCommand {P : State → Prop} (kp : Keep P) {s : State} {id : Nat} (h_s : P s) :
    P (State.mirrorCommand s id) := by
  unfold Sys2Proof.Machine.State.mirrorCommand
  repeat' first
    | (with_reducible first | assumption | apply ite_keep | apply kp.mirror | apply kp.command)
    | intro _ | dsimp only | split | with_reducible apply kp.rest

theorem Keep.checked {P : State → Prop} (kp : Keep P) {s : State} {id : Nat} {checks : List (Bool × Status × Nat)} {go : State → State} (h_s : P s) (h_go : ∀ (y0 : State), P y0 → P (go y0)) :
    P (State.checked s id checks go) := by
  unfold Sys2Proof.Machine.State.checked
  repeat' first
    | (with_reducible first | assumption | apply ite_keep | apply kp.mirrorCommand | apply kp.raise
                            | apply kp.complete | apply kp.when | apply h_go)
    | intro _ | dsimp only | split | with_reducible apply kp.rest

end Sys2Proof.Machine
end

