-- ==== Sys2Proof/Laws/KeepFlits.lean ====
section
/-! SUPPORT. The operations of Machine/Flits.lean keep every property that single writes keep. -/

namespace Sys2Proof.Machine

open Sys2Proof

theorem Keep.setBlk {P : State → Prop} (kp : Keep P) {s : State} {b : Blk} (h_s : P s) :
    P (State.setBlk s b) := by
  unfold Sys2Proof.Machine.State.setBlk
  repeat' first
    | (with_reducible first | assumption | apply ite_keep)
    | intro _ | dsimp only | split | with_reducible apply kp.rest

theorem Keep.setLink {P : State → Prop} (kp : Keep P) {s : State} {k : Nat} {x : LinkCtl} (h_s : P s) :
    P (State.setLink s k x) := by
  unfold Sys2Proof.Machine.State.setLink
  repeat' first
    | (with_reducible first | assumption | apply ite_keep | apply kp.setBlk)
    | intro _ | dsimp only | split | with_reducible apply kp.rest

theorem Keep.blkHist {P : State → Prop} (kp : Keep P) {s : State} {k : Nat} {b : Nat} (h_s : P s) :
    P (State.blkHist s k b) := by
  unfold Sys2Proof.Machine.State.blkHist
  repeat' first
    | (with_reducible first | assumption | apply ite_keep | apply kp.raise | apply kp.setBit)
    | intro _ | dsimp only | split | with_reducible apply kp.rest

theorem Keep.streamOut {P : State → Prop} (kp : Keep P) {s : State} {k : Nat} {f : BitVec 128} (h_s : P s) :
    P (State.streamOut s k f) := by
  unfold Sys2Proof.Machine.State.streamOut
  repeat' first
    | (with_reducible first | assumption | apply ite_keep | apply kp.setLink | apply kp.emit)
    | intro _ | dsimp only | split | with_reducible apply kp.rest

theorem Keep.putFlit {P : State → Prop} (kp : Keep P) {s : State} {k : Nat} {valid : Bool} {f : OutFlit} {nak : Bool} (h_s : P s) :
    P (State.putFlit s k valid f nak) := by
  unfold Sys2Proof.Machine.State.putFlit
  repeat' first
    | (with_reducible first | assumption | apply ite_keep | apply kp.streamOut | apply kp.setLink)
    | intro _ | dsimp only | split | with_reducible apply kp.rest

theorem Keep.idleFlit {P : State → Prop} (kp : Keep P) {s : State} {k : Nat} (h_s : P s) :
    P (State.idleFlit s k) := by
  unfold Sys2Proof.Machine.State.idleFlit
  repeat' first
    | (with_reducible first | assumption | apply ite_keep | apply kp.putFlit)
    | intro _ | dsimp only | split | with_reducible apply kp.rest

theorem Keep.sendNak {P : State → Prop} (kp : Keep P) {s : State} {k : Nat} (h_s : P s) :
    P (State.sendNak s k) := by
  unfold Sys2Proof.Machine.State.sendNak
  repeat' first
    | (with_reducible first | assumption | apply ite_keep | apply kp.putFlit | apply kp.setLink)
    | intro _ | dsimp only | split | with_reducible apply kp.rest

theorem Keep.replay {P : State → Prop} (kp : Keep P) {s : State} {k : Nat} (h_s : P s) :
    P (State.replay s k) := by
  unfold Sys2Proof.Machine.State.replay
  repeat' first
    | (with_reducible first | assumption | apply ite_keep | apply kp.streamOut | apply kp.blkHist | apply kp.each
                            | apply kp.incBy)
    | intro _ | dsimp only | split | with_reducible apply kp.rest

theorem Keep.pumpFlits {P : State → Prop} (kp : Keep P) {k : Nat} {x0 : List OutFlit} {x1 : List Nat} {x2 : State} (h_x2 : P x2) :
    P (pumpFlits k x0 x1 x2).2 := by
  induction x0 generalizing x1 x2 with
  | nil => exact h_x2
  | cons f l ih =>
    unfold Sys2Proof.Machine.pumpFlits
    dsimp only
    split
    · exact ih h_x2
    · exact ih (kp.putFlit h_x2)

theorem Keep.pumpLink {P : State → Prop} (kp : Keep P) {s : State} {k : Nat} (h_s : P s) :
    P (State.pumpLink s k) := by
  unfold Sys2Proof.Machine.State.pumpLink
  repeat' first
    | (with_reducible first | assumption | apply ite_keep | apply kp.pumpFlits | apply kp.setLink)
    | intro _ | dsimp only | split | with_reducible apply kp.rest

theorem Keep.queueFlits {P : State → Prop} (kp : Keep P) {s : State} {k : Nat} {l : List OutFlit} (h_s : P s) :
    P (State.queueFlits s k l) := by
  unfold Sys2Proof.Machine.State.queueFlits
  repeat' first
    | (with_reducible first | assumption | apply ite_keep | apply kp.pumpLink | apply kp.setLink)
    | intro _ | dsimp only | split | with_reducible apply kp.rest

theorem Keep.sendOn {P : State → Prop} (kp : Keep P) {s : State} {k : Nat} {n : Nat} {m : Msg} (h_s : P s) :
    P (State.sendOn s k n m) := by
  unfold Sys2Proof.Machine.State.sendOn
  repeat' first
    | (with_reducible first | assumption | apply ite_keep | apply kp.queueFlits)
    | intro _ | dsimp only | split | with_reducible apply kp.rest

theorem Keep.sendVia {P : State → Prop} (kp : Keep P) {s : State} {n : Nat} {vc : Nat} {m : Msg} {rr : Bool} (h_s : P s) :
    P (State.sendVia s n vc m rr) := by
  unfold Sys2Proof.Machine.State.sendVia
  repeat' first
    | (with_reducible first | assumption | apply ite_keep | apply kp.queueFlits | apply kp.emit)
    | intro _ | dsimp only | split | with_reducible apply kp.rest

theorem Keep.sendRemote {P : State → Prop} (kp : Keep P) {s : State} {n : Nat} {vc : Nat} {m : Msg} (h_s : P s) :
    P (State.sendRemote s n vc m) := by
  unfold Sys2Proof.Machine.State.sendRemote
  repeat' first
    | (with_reducible first | assumption | apply ite_keep | apply kp.sendVia)
    | intro _ | dsimp only | split | with_reducible apply kp.rest

theorem Keep.send {P : State → Prop} (kp : Keep P) {s : State} {n : Nat} {m : Msg} (h_s : P s) :
    P (State.send s n m) := by
  unfold Sys2Proof.Machine.State.send
  repeat' first
    | (with_reducible first | assumption | apply ite_keep | apply kp.sendVia)
    | intro _ | dsimp only | split | with_reducible apply kp.rest

end Sys2Proof.Machine
end

