-- ==== Sys2Proof/Laws/KeepTimeBases.lean ====
section
/-! SUPPORT. The operations of Machine/TimeBases.lean keep every property that single writes keep. -/

namespace Sys2Proof.Machine

open Sys2Proof

theorem Keep.setTbState {P : State → Prop} (kp : Keep P) {s : State} {b : Nat} {x : Nat} (h_s : P s) :
    P (State.setTbState s b x) := by
  unfold Sys2Proof.Machine.State.setTbState
  repeat' first
    | (with_reducible first | assumption | apply ite_keep | apply kp.setFld)
    | intro _ | dsimp only | split | with_reducible apply kp.rest

theorem Keep.timRefuse {P : State → Prop} (kp : Keep P) {s : State} (h_s : P s) :
    P (State.timRefuse s) := by
  unfold Sys2Proof.Machine.State.timRefuse
  repeat' first
    | (with_reducible first | assumption | apply ite_keep | apply kp.raise | apply kp.setBit)
    | intro _ | dsimp only | split | with_reducible apply kp.rest

theorem Keep.countBase {P : State → Prop} (kp : Keep P) {s : State} {b : Nat} (h_s : P s) :
    P (State.countBase s b) := by
  unfold Sys2Proof.Machine.State.countBase
  repeat' first
    | (with_reducible first | assumption | apply ite_keep | apply kp.setBase | apply kp.freshPick)
    | intro _ | dsimp only | split | with_reducible apply kp.rest

theorem Keep.watchTpo {P : State → Prop} (kp : Keep P) {s : State} {k : Nat} {f : State → State} (h_s : P s) (h_f : ∀ (y0 : State), P y0 → P (f y0)) :
    P (State.watchTpo s k f) := by
  unfold Sys2Proof.Machine.State.watchTpo
  repeat' first
    | (with_reducible first | assumption | apply ite_keep | apply kp.when | apply kp.emit | apply h_f)
    | intro _ | dsimp only | split | with_reducible apply kp.rest

theorem Keep.opTpoCfg {P : State → Prop} (kp : Keep P) {k : Nat} {v : Word} {s : State} (h_s : P s) :
    P (opTpoCfg k v s) := by
  unfold Sys2Proof.Machine.opTpoCfg
  repeat' first
    | (with_reducible first | assumption | apply ite_keep | apply kp.watchTpo | apply kp.fieldWrite)
    | intro _ | dsimp only | split | with_reducible apply kp.rest

theorem Keep.setTpo {P : State → Prop} (kp : Keep P) {s : State} {k : Nat} {x : TpoState} (h_s : P s) :
    P (State.setTpo s k x) := by
  unfold Sys2Proof.Machine.State.setTpo
  repeat' first
    | (with_reducible first | assumption | apply ite_keep | apply kp.watchTpo | apply kp.setBit | apply kp.setFld
                            | apply kp.wr)
    | intro _ | dsimp only | split | with_reducible apply kp.rest

theorem Keep.abortArming {P : State → Prop} (kp : Keep P) {s : State} {a : Option Arming} (h_s : P s) :
    P (State.abortArming s a) := by
  unfold Sys2Proof.Machine.State.abortArming
  repeat' first
    | (with_reducible first | assumption | apply ite_keep | apply kp.complete)
    | intro _ | dsimp only | split | with_reducible apply kp.rest

theorem Keep.rearm {P : State → Prop} (kp : Keep P) {s : State} {k : Nat} {new : Option Arming} (h_s : P s) :
    P (State.rearm s k new) := by
  unfold Sys2Proof.Machine.State.rearm
  repeat' first
    | (with_reducible first | assumption | apply ite_keep | apply kp.abortArming | apply kp.setTpo)
    | intro _ | dsimp only | split | with_reducible apply kp.rest

theorem Keep.disarm {P : State → Prop} (kp : Keep P) {s : State} {k : Nat} (h_s : P s) :
    P (State.disarm s k) := by
  unfold Sys2Proof.Machine.State.disarm
  repeat' first
    | (with_reducible first | assumption | apply ite_keep | apply kp.rearm)
    | intro _ | dsimp only | split | with_reducible apply kp.rest

theorem Keep.skipPulses {P : State → Prop} (kp : Keep P) {s : State} {b : Nat} {new : Nat} (h_s : P s) :
    P (State.skipPulses s b new) := by
  unfold Sys2Proof.Machine.State.skipPulses
  repeat' first
    | (with_reducible first | assumption | apply ite_keep | apply kp.setTpo | apply kp.raise | apply kp.incBy
                            | apply foldl_keep | apply foldl_keep_fst | apply foldl_keep_snd)
    | intro _ | dsimp only | split | with_reducible apply kp.rest

theorem Keep.stepBase {P : State → Prop} (kp : Keep P) {s : State} {b : Nat} {new : Nat} (h_s : P s) :
    P (State.stepBase s b new) := by
  unfold Sys2Proof.Machine.State.stepBase
  repeat' first
    | (with_reducible first | assumption | apply ite_keep | apply kp.skipPulses | apply kp.raise | apply kp.setBase
                            | apply kp.inc | apply kp.setBit)
    | intro _ | dsimp only | split | with_reducible apply kp.rest

theorem Keep.slewBy {P : State → Prop} (kp : Keep P) {s : State} {b : Nat} {ns : Int} (h_s : P s) :
    P (State.slewBy s b ns) := by
  unfold Sys2Proof.Machine.State.slewBy
  repeat' first
    | (with_reducible first | assumption | apply ite_keep | apply kp.setBase | apply kp.setBit)
    | intro _ | dsimp only | split | with_reducible apply kp.rest

theorem Keep.opSlewDone {P : State → Prop} (kp : Keep P) {b : Nat} {s : State} (h_s : P s) :
    P (opSlewDone b s) := by
  unfold Sys2Proof.Machine.opSlewDone
  repeat' first
    | (with_reducible first | assumption | apply ite_keep | apply kp.setBase | apply kp.setBit)
    | intro _ | dsimp only | split | with_reducible apply kp.rest

theorem Keep.opLoad {P : State → Prop} (kp : Keep P) {b : Nat} {s : State} (h_s : P s) :
    P (opLoad b s) := by
  unfold Sys2Proof.Machine.opLoad
  repeat' first
    | (with_reducible first | assumption | apply ite_keep | apply kp.stepBase | apply kp.timRefuse)
    | intro _ | dsimp only | split | with_reducible apply kp.rest

theorem Keep.opSnap {P : State → Prop} (kp : Keep P) {b : Nat} {s : State} (h_s : P s) :
    P (opSnap b s) := by
  unfold Sys2Proof.Machine.opSnap
  repeat' first
    | (with_reducible first | assumption | apply ite_keep | apply kp.setFld)
    | intro _ | dsimp only | split | with_reducible apply kp.rest

theorem Keep.opSnapAll {P : State → Prop} (kp : Keep P) {s : State} (h_s : P s) :
    P (opSnapAll s) := by
  unfold Sys2Proof.Machine.opSnapAll
  repeat' first
    | (with_reducible first | assumption | apply ite_keep | apply kp.opSnap | apply foldl_keep | apply foldl_keep_fst
                            | apply foldl_keep_snd)
    | intro _ | dsimp only | split | with_reducible apply kp.rest

theorem Keep.opAdjWrite {P : State → Prop} (kp : Keep P) {b : Nat} {v : Word} {s : State} (h_s : P s) :
    P (opAdjWrite b v s) := by
  unfold Sys2Proof.Machine.opAdjWrite
  repeat' first
    | (with_reducible first | assumption | apply ite_keep | apply kp.slewBy | apply kp.timRefuse)
    | intro _ | dsimp only | split | with_reducible apply kp.rest

theorem Keep.opTbGuarded {P : State → Prop} (kp : Keep P) {b : Nat} {a : Nat} {v : Word} {s : State} (h_s : P s) :
    P (opTbGuarded b a v s) := by
  unfold Sys2Proof.Machine.opTbGuarded
  repeat' first
    | (with_reducible first | assumption | apply ite_keep | apply kp.timRefuse | apply kp.fieldWrite)
    | intro _ | dsimp only | split | with_reducible apply kp.rest

theorem Keep.setFreq {P : State → Prop} (kp : Keep P) {s : State} {b : Nat} {ppt : Int} (h_s : P s) :
    P (State.setFreq s b ppt) := by
  unfold Sys2Proof.Machine.State.setFreq
  repeat' first
    | (with_reducible first | assumption | apply ite_keep | apply kp.wr)
    | intro _ | dsimp only | split | with_reducible apply kp.rest

theorem Keep.opFreq {P : State → Prop} (kp : Keep P) {b : Nat} {v : Word} {s : State} (h_s : P s) :
    P (opFreq b v s) := by
  unfold Sys2Proof.Machine.opFreq
  repeat' first
    | (with_reducible first | assumption | apply ite_keep | apply kp.setFreq | apply kp.timRefuse)
    | intro _ | dsimp only | split | with_reducible apply kp.rest

theorem Keep.enterHoldover {P : State → Prop} (kp : Keep P) {s : State} {b : Nat} (h_s : P s) :
    P (State.enterHoldover s b) := by
  unfold Sys2Proof.Machine.State.enterHoldover
  repeat' first
    | (with_reducible first | assumption | apply ite_keep | apply kp.setTbState | apply kp.raise | apply kp.setBase
                            | apply kp.setBit)
    | intro _ | dsimp only | split | with_reducible apply kp.rest

theorem Keep.enterAcquire {P : State → Prop} (kp : Keep P) {s : State} {b : Nat} {fromHold : Bool} (h_s : P s) :
    P (State.enterAcquire s b fromHold) := by
  unfold Sys2Proof.Machine.State.enterAcquire
  repeat' first
    | (with_reducible first | assumption | apply ite_keep | apply kp.setTbState | apply kp.setBase)
    | intro _ | dsimp only | split | with_reducible apply kp.rest

theorem Keep.sourceLost {P : State → Prop} (kp : Keep P) {s : State} {b : Nat} {loop : Bool} (h_s : P s) :
    P (State.sourceLost s b loop) := by
  unfold Sys2Proof.Machine.State.sourceLost
  repeat' first
    | (with_reducible first | assumption | apply ite_keep | apply kp.enterHoldover | apply kp.raise | apply kp.when
                            | apply kp.setBit)
    | intro _ | dsimp only | split | with_reducible apply kp.rest

theorem Keep.startMode {P : State → Prop} (kp : Keep P) {s : State} {b : Nat} (h_s : P s) :
    P (State.startMode s b) := by
  unfold Sys2Proof.Machine.State.startMode
  repeat' first
    | (with_reducible first | assumption | apply ite_keep | apply kp.sourceLost | apply kp.enterAcquire
                            | apply kp.enterHoldover | apply kp.setTbState)
    | intro _ | dsimp only | split | with_reducible apply kp.rest

theorem Keep.reviewSrc {P : State → Prop} (kp : Keep P) {s : State} {b : Nat} (h_s : P s) :
    P (State.reviewSrc s b) := by
  unfold Sys2Proof.Machine.State.reviewSrc
  repeat' first
    | (with_reducible first | assumption | apply ite_keep | apply kp.sourceLost)
    | intro _ | dsimp only | split | with_reducible apply kp.rest

theorem Keep.disarmBase {P : State → Prop} (kp : Keep P) {s : State} {b : Nat} (h_s : P s) :
    P (State.disarmBase s b) := by
  unfold Sys2Proof.Machine.State.disarmBase
  refine kp.each h_s (fun s k h => ?_)
  split
  · exact kp.disarm h
  · exact h

theorem Keep.enterMode {P : State → Prop} (kp : Keep P) {s : State} {b : Nat} (h_s : P s) :
    P (State.enterMode s b) := by
  unfold Sys2Proof.Machine.State.enterMode
  repeat' first
    | (with_reducible first | assumption | apply ite_keep | apply kp.disarmBase | apply kp.startMode
                            | apply kp.setBase | apply kp.when | apply kp.setBit)
    | intro _ | dsimp only | split | with_reducible apply kp.rest

theorem Keep.opTbCtrl {P : State → Prop} (kp : Keep P) {b : Nat} {v : Word} {s : State} (h_s : P s) :
    P (opTbCtrl b v s) := by
  unfold Sys2Proof.Machine.opTbCtrl
  repeat' first
    | (with_reducible first | assumption | apply ite_keep | apply kp.enterMode | apply kp.reviewSrc
                            | apply kp.fieldWrite | apply kp.when)
    | intro _ | dsimp only | split | with_reducible apply kp.rest

theorem Keep.correct {P : State → Prop} (kp : Keep P) {s : State} {b : Nat} {off : Int} (h_s : P s) :
    P (State.correct s b off) := by
  unfold Sys2Proof.Machine.State.correct
  repeat' first
    | (with_reducible first | assumption | apply ite_keep | apply kp.slewBy | apply kp.stepBase | apply kp.setBase)
    | intro _ | dsimp only | split | with_reducible apply kp.rest

theorem Keep.judge {P : State → Prop} (kp : Keep P) {s : State} {b : Nat} {off : Int} (h_s : P s) :
    P (State.judge s b off) := by
  unfold Sys2Proof.Machine.State.judge
  repeat' first
    | (with_reducible first | assumption | apply ite_keep | apply kp.setTbState | apply kp.setBase)
    | intro _ | dsimp only | split | with_reducible apply kp.rest

theorem Keep.steerFreq {P : State → Prop} (kp : Keep P) {s : State} {b : Nat} {ppt : Int} (h_s : P s) :
    P (State.steerFreq s b ppt) := by
  unfold Sys2Proof.Machine.State.steerFreq
  repeat' first
    | (with_reducible first | assumption | apply ite_keep | apply kp.setFreq)
    | intro _ | dsimp only | split | with_reducible apply kp.rest

theorem Keep.compareDomains {P : State → Prop} (kp : Keep P) {s : State} {b : Nat} (h_s : P s) :
    P (State.compareDomains s b) := by
  unfold Sys2Proof.Machine.State.compareDomains
  repeat' first
    | (with_reducible first | assumption | apply ite_keep | apply kp.raise | apply kp.setBase | apply kp.setBit
                            | apply kp.wr)
    | intro _ | dsimp only | split | with_reducible apply kp.rest

theorem Keep.opServoUpdate {P : State → Prop} (kp : Keep P) {b : Nat} {domB : Bool} {off : Int} {ppt : Int} {s : State} (h_s : P s) :
    P (opServoUpdate b domB off ppt s) := by
  unfold Sys2Proof.Machine.opServoUpdate
  repeat' first
    | (with_reducible first | assumption | apply ite_keep | apply kp.compareDomains | apply kp.steerFreq
                            | apply kp.judge | apply kp.correct | apply kp.setBase)
    | intro _ | dsimp only | split | with_reducible apply kp.rest

theorem Keep.changeDomain {P : State → Prop} (kp : Keep P) {s : State} {b : Nat} (h_s : P s) :
    P (State.changeDomain s b) := by
  unfold Sys2Proof.Machine.State.changeDomain
  repeat' first
    | (with_reducible first | assumption | apply ite_keep | apply kp.raise | apply kp.inc | apply kp.setBit)
    | intro _ | dsimp only | split | with_reducible apply kp.rest

theorem Keep.slewOff {P : State → Prop} (kp : Keep P) {s : State} {b : Nat} (h_s : P s) :
    P (State.slewOff s b) := by
  unfold Sys2Proof.Machine.State.slewOff
  repeat' first
    | (with_reducible first | assumption | apply ite_keep | apply kp.slewBy | apply kp.setBase)
    | intro _ | dsimp only | split | with_reducible apply kp.rest

theorem Keep.switchDomain {P : State → Prop} (kp : Keep P) {s : State} {b : Nat} (h_s : P s) :
    P (State.switchDomain s b) := by
  unfold Sys2Proof.Machine.State.switchDomain
  repeat' first
    | (with_reducible first | assumption | apply ite_keep | apply kp.slewOff | apply kp.changeDomain)
    | intro _ | dsimp only | split | with_reducible apply kp.rest

theorem Keep.opDomLoss {P : State → Prop} (kp : Keep P) {b : Nat} {lossA : Bool} {lossB : Bool} {s : State} (h_s : P s) :
    P (opDomLoss b lossA lossB s) := by
  unfold Sys2Proof.Machine.opDomLoss
  repeat' first
    | (with_reducible first | assumption | apply ite_keep | apply kp.switchDomain | apply kp.enterHoldover
                            | apply kp.raise | apply kp.when | apply kp.setBit)
    | intro _ | dsimp only | split | with_reducible apply kp.rest

theorem Keep.opDomainQualified {P : State → Prop} (kp : Keep P) {b : Nat} {domB : Bool} {s : State} (h_s : P s) :
    P (opDomainQualified b domB s) := by
  unfold Sys2Proof.Machine.opDomainQualified
  repeat' first
    | (with_reducible first | assumption | apply ite_keep | apply kp.enterAcquire | apply kp.setBit)
    | intro _ | dsimp only | split | with_reducible apply kp.rest

theorem Keep.opForceDom {P : State → Prop} (kp : Keep P) {b : Nat} {s : State} (h_s : P s) :
    P (opForceDom b s) := by
  unfold Sys2Proof.Machine.opForceDom
  repeat' first
    | (with_reducible first | assumption | apply ite_keep | apply kp.slewOff | apply kp.changeDomain
                            | apply kp.enterAcquire | apply kp.stepBase | apply kp.setBit)
    | intro _ | dsimp only | split | with_reducible apply kp.rest

theorem Keep.opRevwait {P : State → Prop} (kp : Keep P) {b : Nat} {s : State} (h_s : P s) :
    P (opRevwait b s) := by
  unfold Sys2Proof.Machine.opRevwait
  repeat' first
    | (with_reducible first | assumption | apply ite_keep | apply kp.switchDomain)
    | intro _ | dsimp only | split | with_reducible apply kp.rest

theorem Keep.opFabricTimeSend {P : State → Prop} (kp : Keep P) {b : Nat} {dst : Nat} {s : State} (h_s : P s) :
    P (opFabricTimeSend b dst s) := by
  unfold Sys2Proof.Machine.opFabricTimeSend
  repeat' first
    | (with_reducible first | assumption | apply ite_keep | apply kp.sendOn | apply kp.emit)
    | intro _ | dsimp only | split | with_reducible apply kp.rest

theorem Keep.opFabricTimeMsg {P : State → Prop} (kp : Keep P) {b : Nat} {srcMode : Nat} {off : Int} {ppt : Int} {s : State} (h_s : P s) :
    P (opFabricTimeMsg b srcMode off ppt s) := by
  unfold Sys2Proof.Machine.opFabricTimeMsg
  repeat' first
    | (with_reducible first | assumption | apply ite_keep | apply kp.steerFreq | apply kp.judge | apply kp.correct
                            | apply kp.sourceLost | apply kp.enterAcquire)
    | intro _ | dsimp only | split | with_reducible apply kp.rest

theorem Keep.opSrclost {P : State → Prop} (kp : Keep P) {b : Nat} {s : State} (h_s : P s) :
    P (opSrclost b s) := by
  unfold Sys2Proof.Machine.opSrclost
  repeat' first
    | (with_reducible first | assumption | apply ite_keep | apply kp.sourceLost)
    | intro _ | dsimp only | split | with_reducible apply kp.rest

theorem Keep.timeArmBody {P : State → Prop} (kp : Keep P) {t : Nat} {e : Entry} {id : Nat} {s : State} (h_s : P s) :
    P (timeArmBody t e id s) := by
  unfold Sys2Proof.Machine.timeArmBody
  repeat' first
    | (with_reducible first | assumption | apply ite_keep | apply kp.disarm | apply kp.rearm | apply kp.checked
                            | apply kp.complete)
    | intro _ | dsimp only | split | with_reducible apply kp.rest

theorem Keep.startPulse {P : State → Prop} (kp : Keep P) {s : State} {k : Nat} (h_s : P s) :
    P (State.startPulse s k) := by
  unfold Sys2Proof.Machine.State.startPulse
  repeat' first
    | (with_reducible first | assumption | apply ite_keep | apply kp.setTpo)
    | intro _ | dsimp only | split | with_reducible apply kp.rest

theorem Keep.opPulseEnd {P : State → Prop} (kp : Keep P) {k : Nat} {s : State} (h_s : P s) :
    P (opPulseEnd k s) := by
  unfold Sys2Proof.Machine.opPulseEnd
  repeat' first
    | (with_reducible first | assumption | apply ite_keep | apply kp.setTpo | apply kp.complete)
    | intro _ | dsimp only | split | with_reducible apply kp.rest

theorem Keep.opExpressLaunch {P : State → Prop} (kp : Keep P) {ready : Bool} {s : State} (h_s : P s) :
    P (opExpressLaunch ready s) := by
  unfold Sys2Proof.Machine.opExpressLaunch
  repeat' first
    | (with_reducible first | assumption | apply ite_keep | apply kp.inc)
    | intro _ | dsimp only | split | with_reducible apply kp.rest

theorem Keep.opTimClrcnt {P : State → Prop} (kp : Keep P) {s : State} (h_s : P s) :
    P (opTimClrcnt s) := by
  unfold Sys2Proof.Machine.opTimClrcnt
  repeat' first
    | (with_reducible first | assumption | apply ite_keep | apply kp.clearAll)
    | intro _ | dsimp only | split | with_reducible apply kp.rest

end Sys2Proof.Machine
end

