-- ==== Sys2Proof/Laws/KeepRedundancy.lean ====
section
/-! SUPPORT. The operations of Machine/Redundancy.lean keep every property that single writes keep. -/

namespace Sys2Proof.Machine

open Sys2Proof

theorem Keep.refreshCovered {P : State → Prop} (kp : Keep P) {s : State} (h_s : P s) :
    P (State.refreshCovered s) := by
  unfold Sys2Proof.Machine.State.refreshCovered
  repeat' first
    | (with_reducible first | assumption | apply ite_keep | apply kp.setBit)
    | intro _ | dsimp only | split | with_reducible apply kp.rest

theorem Keep.endLease {P : State → Prop} (kp : Keep P) {s : State} (h_s : P s) :
    P (State.endLease s) := by
  unfold Sys2Proof.Machine.State.endLease
  repeat' first
    | (with_reducible first | assumption | apply ite_keep | apply kp.refreshCovered | apply kp.setFld)
    | intro _ | dsimp only | split | with_reducible apply kp.rest

theorem Keep.startLease {P : State → Prop} (kp : Keep P) {s : State} {kind : Nat} {ms : Nat} {covered : Bool} (h_s : P s) :
    P (State.startLease s kind ms covered) := by
  unfold Sys2Proof.Machine.State.startLease
  repeat' first
    | (with_reducible first | assumption | apply ite_keep | apply kp.refreshCovered | apply kp.setFld)
    | intro _ | dsimp only | split | with_reducible apply kp.rest

theorem Keep.askSnapshot {P : State → Prop} (kp : Keep P) {s : State} (h_s : P s) :
    P (State.askSnapshot s) := by
  unfold Sys2Proof.Machine.State.askSnapshot
  repeat' first
    | (with_reducible first | assumption | apply ite_keep | apply kp.emit)
    | intro _ | dsimp only | split | with_reducible apply kp.rest

theorem Keep.enterSync {P : State → Prop} (kp : Keep P) {s : State} (h_s : P s) :
    P (State.enterSync s) := by
  unfold Sys2Proof.Machine.State.enterSync
  repeat' first
    | (with_reducible first | assumption | apply ite_keep | apply kp.askSnapshot | apply kp.endLease | apply kp.setFov)
    | intro _ | dsimp only | split | with_reducible apply kp.rest

theorem Keep.enterClaiming {P : State → Prop} (kp : Keep P) {s : State} (h_s : P s) :
    P (State.enterClaiming s) := by
  unfold Sys2Proof.Machine.State.enterClaiming
  repeat' first
    | (with_reducible first | assumption | apply ite_keep | apply kp.setFov)
    | intro _ | dsimp only | split | with_reducible apply kp.rest

theorem Keep.fovRefuse {P : State → Prop} (kp : Keep P) {s : State} (h_s : P s) :
    P (State.fovRefuse s) := by
  unfold Sys2Proof.Machine.State.fovRefuse
  repeat' first
    | (with_reducible first | assumption | apply ite_keep | apply kp.setBit)
    | intro _ | dsimp only | split | with_reducible apply kp.rest

theorem Keep.grantRefuse {P : State → Prop} (kp : Keep P) {s : State} (h_s : P s) :
    P (State.grantRefuse s) := by
  unfold Sys2Proof.Machine.State.grantRefuse
  repeat' first
    | (with_reducible first | assumption | apply ite_keep | apply kp.raise | apply kp.setBit)
    | intro _ | dsimp only | split | with_reducible apply kp.rest

theorem Keep.grantCtl {P : State → Prop} (kp : Keep P) {s : State} {kind : Nat} {covered : Bool} {force : Bool} {lease : Nat} (h_s : P s) :
    P (State.grantCtl s kind covered force lease) := by
  unfold Sys2Proof.Machine.State.grantCtl
  repeat' first
    | (with_reducible first | assumption | apply ite_keep | apply kp.setBit | apply kp.setFld)
    | intro _ | dsimp only | split | with_reducible apply kp.rest

theorem Keep.grantTake {P : State → Prop} (kp : Keep P) {s : State} (h_s : P s) :
    P (State.grantTake s) := by
  unfold Sys2Proof.Machine.State.grantTake
  repeat' first
    | (with_reducible first | assumption | apply ite_keep | apply kp.grantRefuse | apply kp.startLease
                            | apply kp.endLease | apply kp.setFov | apply kp.setFld)
    | intro _ | dsimp only | split | with_reducible apply kp.rest

theorem Keep.opGrant {P : State → Prop} (kp : Keep P) {kind : Nat} {covered : Bool} {force : Bool} {lease : Nat} {s : State} (h_s : P s) :
    P (opGrant kind covered force lease s) := by
  unfold Sys2Proof.Machine.opGrant
  repeat' first
    | (with_reducible first | assumption | apply ite_keep | apply kp.grantTake | apply kp.grantCtl)
    | intro _ | dsimp only | split | with_reducible apply kp.rest

theorem Keep.opClaim {P : State → Prop} (kp : Keep P) {s : State} (h_s : P s) :
    P (opClaim s) := by
  unfold Sys2Proof.Machine.opClaim
  repeat' first
    | (with_reducible first | assumption | apply ite_keep | apply kp.fovRefuse | apply kp.enterClaiming)
    | intro _ | dsimp only | split | with_reducible apply kp.rest

theorem Keep.opRelease {P : State → Prop} (kp : Keep P) {s : State} (h_s : P s) :
    P (opRelease s) := by
  unfold Sys2Proof.Machine.opRelease
  repeat' first
    | (with_reducible first | assumption | apply ite_keep | apply kp.fovRefuse | apply kp.setFov)
    | intro _ | dsimp only | split | with_reducible apply kp.rest

theorem Keep.opResync {P : State → Prop} (kp : Keep P) {s : State} (h_s : P s) :
    P (opResync s) := by
  unfold Sys2Proof.Machine.opResync
  repeat' first
    | (with_reducible first | assumption | apply ite_keep | apply kp.fovRefuse | apply kp.enterSync)
    | intro _ | dsimp only | split | with_reducible apply kp.rest

theorem Keep.opRecover {P : State → Prop} (kp : Keep P) {s : State} (h_s : P s) :
    P (opRecover s) := by
  unfold Sys2Proof.Machine.opRecover
  repeat' first
    | (with_reducible first | assumption | apply ite_keep | apply kp.fovRefuse | apply kp.endLease | apply kp.setFov)
    | intro _ | dsimp only | split | with_reducible apply kp.rest

theorem Keep.opYield {P : State → Prop} (kp : Keep P) {tb : Nat} {s : State} (h_s : P s) :
    P (opYield tb s) := by
  unfold Sys2Proof.Machine.opYield
  repeat' first
    | (with_reducible first | assumption | apply ite_keep | apply kp.fovRefuse)
    | intro _ | dsimp only | split | with_reducible apply kp.rest

theorem Keep.leaveActive {P : State → Prop} (kp : Keep P) {s : State} (h_s : P s) :
    P (State.leaveActive s) := by
  unfold Sys2Proof.Machine.State.leaveActive
  repeat' first
    | (with_reducible first | assumption | apply ite_keep | apply kp.endLease | apply kp.setFov)
    | intro _ | dsimp only | split | with_reducible apply kp.rest

theorem Keep.opYieldInstant {P : State → Prop} (kp : Keep P) {s : State} (h_s : P s) :
    P (opYieldInstant s) := by
  unfold Sys2Proof.Machine.opYieldInstant
  repeat' first
    | (with_reducible first | assumption | apply ite_keep | apply kp.leaveActive | apply kp.raise | apply kp.inc
                            | apply kp.setBit)
    | intro _ | dsimp only | split | with_reducible apply kp.rest

theorem Keep.opFovClrcnt {P : State → Prop} (kp : Keep P) {s : State} (h_s : P s) :
    P (opFovClrcnt s) := by
  unfold Sys2Proof.Machine.opFovClrcnt
  repeat' first
    | (with_reducible first | assumption | apply ite_keep | apply kp.fovRefuse | apply kp.clearAll)
    | intro _ | dsimp only | split | with_reducible apply kp.rest

theorem Keep.takeover {P : State → Prop} (kp : Keep P) {s : State} (h_s : P s) :
    P (State.takeover s) := by
  unfold Sys2Proof.Machine.State.takeover
  repeat' first
    | (with_reducible first | assumption | apply ite_keep | apply kp.refreshCovered | apply kp.raise | apply kp.setFov
                            | apply kp.signal | apply kp.inc | apply kp.setBit | apply kp.setFld)
    | intro _ | dsimp only | split | with_reducible apply kp.rest

theorem Keep.opIlkFall {P : State → Prop} (kp : Keep P) {s : State} (h_s : P s) :
    P (opIlkFall s) := by
  unfold Sys2Proof.Machine.opIlkFall
  repeat' first
    | (with_reducible first | assumption | apply ite_keep | apply kp.takeover | apply kp.setFov | apply kp.setBit)
    | intro _ | dsimp only | split | with_reducible apply kp.rest

theorem Keep.opIlkRise {P : State → Prop} (kp : Keep P) {s : State} (h_s : P s) :
    P (opIlkRise s) := by
  unfold Sys2Proof.Machine.opIlkRise
  repeat' first
    | (with_reducible first | assumption | apply ite_keep | apply kp.raise | apply kp.setFov | apply kp.setBit)
    | intro _ | dsimp only | split | with_reducible apply kp.rest

theorem Keep.opIlkConf {P : State → Prop} (kp : Keep P) {s : State} (h_s : P s) :
    P (opIlkConf s) := by
  unfold Sys2Proof.Machine.opIlkConf
  repeat' first
    | (with_reducible first | assumption | apply ite_keep | apply kp.opIlkRise)
    | intro _ | dsimp only | split | with_reducible apply kp.rest

theorem Keep.opClaimDelay {P : State → Prop} (kp : Keep P) {s : State} (h_s : P s) :
    P (opClaimDelay s) := by
  unfold Sys2Proof.Machine.opClaimDelay
  repeat' first
    | (with_reducible first | assumption | apply ite_keep | apply kp.enterClaiming)
    | intro _ | dsimp only | split | with_reducible apply kp.rest

theorem Keep.claimStall {P : State → Prop} (kp : Keep P) {s : State} (h_s : P s) :
    P (State.claimStall s) := by
  unfold Sys2Proof.Machine.State.claimStall
  repeat' first
    | (with_reducible first | assumption | apply ite_keep | apply kp.raise | apply kp.setBit)
    | intro _ | dsimp only | split | with_reducible apply kp.rest

theorem Keep.opClaimWindowEnd {P : State → Prop} (kp : Keep P) {s : State} (h_s : P s) :
    P (opClaimWindowEnd s) := by
  unfold Sys2Proof.Machine.opClaimWindowEnd
  repeat' first
    | (with_reducible first | assumption | apply ite_keep | apply kp.claimStall | apply kp.setFov)
    | intro _ | dsimp only | split | with_reducible apply kp.rest

theorem Keep.opLeaseExpiry {P : State → Prop} (kp : Keep P) {s : State} (h_s : P s) :
    P (opLeaseExpiry s) := by
  unfold Sys2Proof.Machine.opLeaseExpiry
  repeat' first
    | (with_reducible first | assumption | apply ite_keep | apply kp.endLease | apply kp.raise | apply kp.setFov
                            | apply kp.setBit)
    | intro _ | dsimp only | split | with_reducible apply kp.rest

theorem Keep.opPlaneLoss {P : State → Prop} (kp : Keep P) {n : Nat} {s : State} (h_s : P s) :
    P (opPlaneLoss n s) := by
  unfold Sys2Proof.Machine.opPlaneLoss
  repeat' first
    | (with_reducible first | assumption | apply ite_keep | apply kp.leaveActive | apply kp.raise | apply kp.inc
                            | apply kp.setBit)
    | intro _ | dsimp only | split | with_reducible apply kp.rest

theorem Keep.autoSync {P : State → Prop} (kp : Keep P) {s : State} (h_s : P s) :
    P (State.autoSync s) := by
  unfold Sys2Proof.Machine.State.autoSync
  repeat' first
    | (with_reducible first | assumption | apply ite_keep | apply kp.enterSync)
    | intro _ | dsimp only | split | with_reducible apply kp.rest

theorem Keep.sendSnapshot {P : State → Prop} (kp : Keep P) {s : State} {partner : Nat} (h_s : P s) :
    P (State.sendSnapshot s partner) := by
  unfold Sys2Proof.Machine.State.sendSnapshot
  repeat' first
    | (with_reducible first | assumption | apply ite_keep | apply kp.emit)
    | intro _ | dsimp only | split | with_reducible apply kp.rest

theorem Keep.opMirrorUp {P : State → Prop} (kp : Keep P) {partner : Nat} {s : State} (h_s : P s) :
    P (opMirrorUp partner s) := by
  unfold Sys2Proof.Machine.opMirrorUp
  repeat' first
    | (with_reducible first | assumption | apply ite_keep | apply kp.sendSnapshot | apply kp.autoSync
                            | apply kp.refreshCovered | apply kp.setBit)
    | intro _ | dsimp only | split | with_reducible apply kp.rest

theorem Keep.opMirloss {P : State → Prop} (kp : Keep P) {s : State} (h_s : P s) :
    P (opMirloss s) := by
  unfold Sys2Proof.Machine.opMirloss
  repeat' first
    | (with_reducible first | assumption | apply ite_keep | apply kp.enterSync | apply kp.refreshCovered
                            | apply kp.raise | apply kp.setBit)
    | intro _ | dsimp only | split | with_reducible apply kp.rest

theorem Keep.opDigest {P : State → Prop} (kp : Keep P) {theirs : Word} {ours : Word} {s : State} (h_s : P s) :
    P (opDigest theirs ours s) := by
  unfold Sys2Proof.Machine.opDigest
  repeat' first
    | (with_reducible first | assumption | apply ite_keep | apply kp.enterSync | apply kp.raise | apply kp.setFov
                            | apply kp.inc | apply kp.setBit)
    | intro _ | dsimp only | split | with_reducible apply kp.rest

theorem Keep.opSyncfail {P : State → Prop} (kp : Keep P) {s : State} (h_s : P s) :
    P (opSyncfail s) := by
  unfold Sys2Proof.Machine.opSyncfail
  repeat' first
    | (with_reducible first | assumption | apply ite_keep | apply kp.askSnapshot | apply kp.raise)
    | intro _ | dsimp only | split | with_reducible apply kp.rest

theorem Keep.fovReady {P : State → Prop} (kp : Keep P) {s : State} (h_s : P s) :
    P (State.fovReady s) := by
  unfold Sys2Proof.Machine.State.fovReady
  repeat' first
    | (with_reducible first | assumption | apply ite_keep | apply kp.autoSync | apply kp.enterClaiming
                            | apply kp.setFov)
    | intro _ | dsimp only | split | with_reducible apply kp.rest

end Sys2Proof.Machine
end

