-- ==== Sys2Proof/Laws/KeepPlanes.lean ====
section
/-! SUPPORT. The operations of Machine/Planes.lean keep every property that single writes keep. -/

namespace Sys2Proof.Machine

open Sys2Proof

theorem Keep.setPlanes {P : State → Prop} (kp : Keep P) {s : State} {p : Planes} (h_s : P s) :
    P (State.setPlanes s p) := by
  unfold Sys2Proof.Machine.State.setPlanes
  repeat' first
    | (with_reducible first | assumption | apply ite_keep)
    | intro _ | dsimp only | split | with_reducible apply kp.rest

theorem Keep.enterTest {P : State → Prop} (kp : Keep P) {s : State} {n : Nat} (h_s : P s) :
    P (State.enterTest s n) := by
  unfold Sys2Proof.Machine.State.enterTest
  repeat' first
    | (with_reducible first | assumption | apply ite_keep | apply kp.when | apply kp.setBit | apply kp.setFld)
    | intro _ | dsimp only | split | with_reducible apply kp.rest

theorem Keep.erase {P : State → Prop} (kp : Keep P) {s : State} {n : Nat} (h_s : P s) :
    P (State.erase s n) := by
  unfold Sys2Proof.Machine.State.erase
  repeat' first
    | (with_reducible first | assumption | apply ite_keep | apply kp.setFld)
    | intro _ | dsimp only | split | with_reducible apply kp.rest

theorem Keep.startRotation {P : State → Prop} (kp : Keep P) {s : State} {out : Nat} {retire : Bool} (h_s : P s) :
    P (State.startRotation s out retire) := by
  unfold Sys2Proof.Machine.State.startRotation
  repeat' first
    | (with_reducible first | assumption | apply ite_keep | apply kp.setPlanes)
    | intro _ | dsimp only | split | with_reducible apply kp.rest

theorem Keep.rotateNow {P : State → Prop} (kp : Keep P) {s : State} (h_s : P s) :
    P (State.rotateNow s) := by
  unfold Sys2Proof.Machine.State.rotateNow
  repeat' first
    | (with_reducible first | assumption | apply ite_keep | apply kp.startRotation)
    | intro _ | dsimp only | split | with_reducible apply kp.rest

theorem Keep.countRetired {P : State → Prop} (kp : Keep P) {s : State} {n : Nat} (h_s : P s) :
    P (State.countRetired s n) := by
  unfold Sys2Proof.Machine.State.countRetired
  repeat' first
    | (with_reducible first | assumption | apply ite_keep | apply kp.promote | apply kp.raise | apply kp.setFld)
    | intro _ | dsimp only | split | with_reducible apply kp.rest

theorem Keep.replacePlane {P : State → Prop} (kp : Keep P) {s : State} {n : Nat} (h_s : P s) :
    P (State.replacePlane s n) := by
  unfold Sys2Proof.Machine.State.replacePlane
  repeat' first
    | (with_reducible first | assumption | apply ite_keep | apply kp.startRotation | apply kp.erase
                            | apply kp.setPlanes)
    | intro _ | dsimp only | split | with_reducible apply kp.rest

theorem Keep.serveFailing {P : State → Prop} (kp : Keep P) {s : State} (h_s : P s) :
    P (State.serveFailing s) := by
  unfold Sys2Proof.Machine.State.serveFailing
  repeat' first
    | (with_reducible first | assumption | apply ite_keep | apply kp.startRotation | apply kp.erase
                            | apply kp.setPlanes | apply kp.each)
    | intro _ | dsimp only | split | with_reducible apply kp.rest

theorem Keep.endPlaneWait {P : State → Prop} (kp : Keep P) {s : State} {n : Nat} {st : Status} {result : Nat} (h_s : P s) :
    P (State.endPlaneWait s n st result) := by
  unfold Sys2Proof.Machine.State.endPlaneWait
  repeat' first
    | (with_reducible first | assumption | apply ite_keep | apply kp.complete)
    | intro _ | dsimp only | split | with_reducible apply kp.rest

theorem Keep.retirePlane {P : State → Prop} (kp : Keep P) {s : State} {n : Nat} (h_s : P s) :
    P (State.retirePlane s n) := by
  unfold Sys2Proof.Machine.State.retirePlane
  repeat' first
    | (with_reducible first | assumption | apply ite_keep | apply kp.endPlaneWait | apply kp.serveFailing
                            | apply kp.replacePlane | apply kp.countRetired | apply kp.enterTest | apply kp.setPlanes)
    | intro _ | dsimp only | split | with_reducible apply kp.rest

theorem Keep.planeTested {P : State → Prop} (kp : Keep P) {s : State} {n : Nat} {pass : Bool} (h_s : P s) :
    P (State.planeTested s n pass) := by
  unfold Sys2Proof.Machine.State.planeTested
  repeat' first
    | (with_reducible first | assumption | apply ite_keep | apply kp.when | apply kp.setBit)
    | intro _ | dsimp only | split | with_reducible apply kp.rest

theorem Keep.opPlaneTestDone {P : State → Prop} (kp : Keep P) {pass : Bool} {s : State} (h_s : P s) :
    P (opPlaneTestDone pass s) := by
  unfold Sys2Proof.Machine.opPlaneTestDone
  repeat' first
    | (with_reducible first | assumption | apply ite_keep | apply kp.planeTested | apply kp.retirePlane
                            | apply kp.endPlaneWait | apply kp.serveFailing | apply kp.rotateNow | apply kp.setPlanes
                            | apply kp.raise | apply kp.setBit)
    | intro _ | dsimp only | split | with_reducible apply kp.rest

theorem Keep.opRotationTimer {P : State → Prop} (kp : Keep P) {s : State} (h_s : P s) :
    P (opRotationTimer s) := by
  unfold Sys2Proof.Machine.opRotationTimer
  repeat' first
    | (with_reducible first | assumption | apply ite_keep | apply kp.rotateNow | apply kp.setPlanes)
    | intro _ | dsimp only | split | with_reducible apply kp.rest

theorem Keep.opRotationCopy {P : State → Prop} (kp : Keep P) {s : State} (h_s : P s) :
    P (opRotationCopy s) := by
  unfold Sys2Proof.Machine.opRotationCopy
  repeat' first
    | (with_reducible first | assumption | apply ite_keep | apply kp.setPlanes)
    | intro _ | dsimp only | split | with_reducible apply kp.rest

theorem Keep.opRotationReads {P : State → Prop} (kp : Keep P) {s : State} (h_s : P s) :
    P (opRotationReads s) := by
  unfold Sys2Proof.Machine.opRotationReads
  repeat' first
    | (with_reducible first | assumption | apply ite_keep | apply kp.setPlanes | apply kp.setFld)
    | intro _ | dsimp only | split | with_reducible apply kp.rest

theorem Keep.opRotationComplete {P : State → Prop} (kp : Keep P) {s : State} (h_s : P s) :
    P (opRotationComplete s) := by
  unfold Sys2Proof.Machine.opRotationComplete
  repeat' first
    | (with_reducible first | assumption | apply ite_keep | apply kp.serveFailing | apply kp.enterTest
                            | apply kp.setPlanes | apply kp.inc)
    | intro _ | dsimp only | split | with_reducible apply kp.rest

theorem Keep.opForceRot {P : State → Prop} (kp : Keep P) {s : State} (h_s : P s) :
    P (opForceRot s) := by
  unfold Sys2Proof.Machine.opForceRot
  repeat' first
    | (with_reducible first | assumption | apply ite_keep | apply kp.rotateNow | apply kp.setPlanes)
    | intro _ | dsimp only | split | with_reducible apply kp.rest

theorem Keep.opRetireCmd {P : State → Prop} (kp : Keep P) {p : Nat} {s : State} (h_s : P s) :
    P (opRetireCmd p s) := by
  unfold Sys2Proof.Machine.opRetireCmd
  repeat' first
    | (with_reducible first | assumption | apply ite_keep | apply kp.retirePlane | apply kp.setBit | apply kp.setFld)
    | intro _ | dsimp only | split | with_reducible apply kp.rest

theorem Keep.withAutoRetire {P : State → Prop} (kp : Keep P) {ev : State → Nat → State} {s : State} {n : Nat} (h_ev : ∀ (y0 : State) (y1 : Nat), P y0 → P (ev y0 y1)) (h_s : P s) :
    P (State.withAutoRetire ev s n) := by
  unfold Sys2Proof.Machine.State.withAutoRetire
  repeat' first
    | (with_reducible first | assumption | apply ite_keep | apply kp.retirePlane | apply h_ev)
    | intro _ | dsimp only | split | with_reducible apply kp.rest

theorem Keep.plerr {P : State → Prop} (kp : Keep P) {s : State} {n : Nat} {count : Nat} (h_s : P s) :
    P (State.plerr s n count) := by
  unfold Sys2Proof.Machine.State.plerr
  repeat' first
    | (with_reducible first | assumption | apply ite_keep | apply kp.withAutoRetire | apply kp.raise | apply kp.incBy)
    | intro _ | dsimp only | split | with_reducible apply kp.rest

theorem Keep.opXptClrcnt {P : State → Prop} (kp : Keep P) {s : State} (h_s : P s) :
    P (opXptClrcnt s) := by
  unfold Sys2Proof.Machine.opXptClrcnt
  repeat' first
    | (with_reducible first | assumption | apply ite_keep | apply kp.clearAll)
    | intro _ | dsimp only | split | with_reducible apply kp.rest

end Sys2Proof.Machine
end

