-- ==== Sys2Proof/Laws/KeepTenants.lean ====
section
/-! SUPPORT. The operations of Machine/Tenants.lean keep every property that single writes keep. -/

namespace Sys2Proof.Machine

open Sys2Proof

theorem Keep.setOwner {P : State → Prop} (kp : Keep P) {s : State} {kind : Nat} {i : Nat} {t : Nat} (h_s : P s) :
    P (State.setOwner s kind i t) := by
  unfold Sys2Proof.Machine.State.setOwner
  repeat' first
    | (with_reducible first | assumption | apply ite_keep)
    | intro _ | dsimp only | split | with_reducible apply kp.rest

theorem Keep.tenRefuse {P : State → Prop} (kp : Keep P) {s : State} (h_s : P s) :
    P (State.tenRefuse s) := by
  unfold Sys2Proof.Machine.State.tenRefuse
  repeat' first
    | (with_reducible first | assumption | apply ite_keep | apply kp.setBit)
    | intro _ | dsimp only | split | with_reducible apply kp.rest

theorem Keep.opTenCfg {P : State → Prop} (kp : Keep P) {n : Nat} {v : Word} {s : State} (h_s : P s) :
    P (opTenCfg n v s) := by
  unfold Sys2Proof.Machine.opTenCfg
  repeat' first
    | (with_reducible first | assumption | apply ite_keep | apply kp.tenRefuse | apply kp.mirror | apply kp.fieldWrite
                            | apply kp.setBit)
    | intro _ | dsimp only | split | with_reducible apply kp.rest

theorem Keep.opReservation {P : State → Prop} (kp : Keep P) {n : Nat} {code : Nat} {v : Word} {s : State} (h_s : P s) :
    P (opReservation n code v s) := by
  unfold Sys2Proof.Machine.opReservation
  repeat' first
    | (with_reducible first | assumption | apply ite_keep | apply kp.tenRefuse | apply kp.mirror | apply kp.fieldWrite
                            | apply kp.setBit)
    | intro _ | dsimp only | split | with_reducible apply kp.rest

theorem Keep.moveCharges {P : State → Prop} (kp : Keep P) {s : State} {kind : Nat} {first : Nat} {count : Nat} (h_s : P s) :
    P (State.moveCharges s kind first count) := by
  unfold Sys2Proof.Machine.State.moveCharges
  repeat' first
    | (with_reducible first | assumption | apply ite_keep | apply kp.setAllocs)
    | intro _ | dsimp only | split | with_reducible apply kp.rest

theorem Keep.moveObjects {P : State → Prop} (kp : Keep P) {s : State} {g : GrantOp} (h_s : P s) :
    P (State.moveObjects s g) := by
  unfold Sys2Proof.Machine.State.moveObjects
  repeat' first
    | (with_reducible first | assumption | apply ite_keep | apply kp.moveCharges | apply kp.setOwner | apply kp.disarm
                            | apply kp.mirror | apply kp.each)
    | intro _ | dsimp only | split | with_reducible apply kp.rest

theorem Keep.opObjGrant {P : State → Prop} (kp : Keep P) {revoke : Bool} {kind : Nat} {tenant : Nat} {s : State} (h_s : P s) :
    P (opObjGrant revoke kind tenant s) := by
  unfold Sys2Proof.Machine.opObjGrant
  repeat' first
    | (with_reducible first | assumption | apply ite_keep | apply kp.tenRefuse | apply kp.setBit | apply kp.setFld)
    | intro _ | dsimp only | split | with_reducible apply kp.rest

theorem Keep.opGrantDone {P : State → Prop} (kp : Keep P) {s : State} (h_s : P s) :
    P (opGrantDone s) := by
  unfold Sys2Proof.Machine.opGrantDone
  repeat' first
    | (with_reducible first | assumption | apply ite_keep | apply kp.moveObjects | apply kp.setBit | apply kp.setFld)
    | intro _ | dsimp only | split | with_reducible apply kp.rest

end Sys2Proof.Machine
end

