-- ==== Sys2Proof/Laws/KeepFrameStore.lean ====
section
/-! SUPPORT. The operations of Machine/FrameStore.lean keep every property that single writes keep. -/

namespace Sys2Proof.Machine

open Sys2Proof

theorem Keep.setAligner {P : State → Prop} (kp : Keep P) {s : State} {src : Nat} {a : Aligner} (h_s : P s) :
    P (State.setAligner s src a) := by
  unfold Sys2Proof.Machine.State.setAligner
  repeat' first
    | (with_reducible first | assumption | apply ite_keep)
    | intro _ | dsimp only | split | with_reducible apply kp.rest

theorem Keep.setSync {P : State → Prop} (kp : Keep P) {s : State} {src : Nat} {u : SyncUnit} (h_s : P s) :
    P (State.setSync s src u) := by
  unfold Sys2Proof.Machine.State.setSync
  repeat' first
    | (with_reducible first | assumption | apply ite_keep)
    | intro _ | dsimp only | split | with_reducible apply kp.rest

theorem Keep.syncEvent {P : State → Prop} (kp : Keep P) {s : State} {on : Bool} {t : Nat} {d : Nat} {index : Nat} {src : Nat} (h_s : P s) :
    P (State.syncEvent s on t d index src) := by
  unfold Sys2Proof.Machine.State.syncEvent
  repeat' first
    | (with_reducible first | assumption | apply ite_keep | apply kp.event)
    | intro _ | dsimp only | split | with_reducible apply kp.rest

theorem Keep.pickSync {P : State → Prop} (kp : Keep P) {s : State} (h_s : P s) :
    P (State.pickSync s).2 := by
  unfold Sys2Proof.Machine.State.pickSync
  repeat' first
    | (with_reducible first | assumption | apply ite_keep | apply kp.freshPick)
    | intro _ | dsimp only | split | with_reducible apply kp.rest

theorem Keep.setModes {P : State → Prop} (kp : Keep P) {s : State} {tracks : List Nat} {mode : Nat} (h_s : P s) :
    P (State.setModes s tracks mode) := by
  unfold Sys2Proof.Machine.State.setModes
  repeat' first
    | (with_reducible first | assumption | apply ite_keep | apply kp.setAligner | apply kp.each)
    | intro _ | dsimp only | split | with_reducible apply kp.rest

theorem Keep.hopsFor {P : State → Prop} (kp : Keep P) {s : State} {src : Nat} (h_s : P s) :
    P (State.hopsFor s src) := by
  unfold Sys2Proof.Machine.State.hopsFor
  repeat' first
    | (with_reducible first | assumption | apply ite_keep | apply kp.setAligner | apply kp.freshPick)
    | intro _ | dsimp only | split | with_reducible apply kp.rest

theorem Keep.attachSync {P : State → Prop} (kp : Keep P) {s : State} {src : Nat} {t : Nat} {d : Nat} {q : SyncReq} {blank : Bool} (h_s : P s) :
    P (State.attachSync s src t d q blank) := by
  unfold Sys2Proof.Machine.State.attachSync
  repeat' first
    | (with_reducible first | assumption | apply ite_keep | apply kp.hopsFor | apply kp.setModes | apply kp.pickSync
                            | apply kp.syncEvent | apply kp.setSync | apply kp.raise | apply kp.alloc | apply kp.each
                            | apply kp.inc)
    | intro _ | dsimp only | split | with_reducible apply kp.rest

theorem Keep.dropSync {P : State → Prop} (kp : Keep P) {s : State} {src : Nat} (h_s : P s) :
    P (State.dropSync s src) := by
  unfold Sys2Proof.Machine.State.dropSync
  repeat' first
    | (with_reducible first | assumption | apply ite_keep | apply kp.setAligner | apply kp.release | apply kp.each)
    | intro _ | dsimp only | split | with_reducible apply kp.rest

theorem Keep.releaseSync {P : State → Prop} (kp : Keep P) {s : State} {src : Nat} (h_s : P s) :
    P (State.releaseSync s src) := by
  unfold Sys2Proof.Machine.State.releaseSync
  repeat' first
    | (with_reducible first | assumption | apply ite_keep | apply kp.dropSync | apply kp.syncEvent)
    | intro _ | dsimp only | split | with_reducible apply kp.rest

theorem Keep.passSync {P : State → Prop} (kp : Keep P) {s : State} {src : Nat} {t : Nat} {d : Nat} {units : Nat} (h_s : P s) :
    P (State.passSync s src t d units) := by
  unfold Sys2Proof.Machine.State.passSync
  repeat' first
    | (with_reducible first | assumption | apply ite_keep | apply kp.setAllocs)
    | intro _ | dsimp only | split | with_reducible apply kp.rest

theorem Keep.giveSync {P : State → Prop} (kp : Keep P) {s : State} {src : Nat} {t : Nat} {d : Nat} {units : Nat} (h_s : P s) :
    P (State.giveSync s src t d units) := by
  unfold Sys2Proof.Machine.State.giveSync
  repeat' first
    | (with_reducible first | assumption | apply ite_keep | apply kp.passSync | apply kp.syncEvent | apply kp.setSync)
    | intro _ | dsimp only | split | with_reducible apply kp.rest

theorem Keep.handOver {P : State → Prop} (kp : Keep P) {s : State} {src : Nat} {units : Nat} (h_s : P s) :
    P (State.handOver s src units) := by
  unfold Sys2Proof.Machine.State.handOver
  repeat' first
    | (with_reducible first | assumption | apply ite_keep | apply kp.giveSync | apply kp.releaseSync | apply kp.raise)
    | intro _ | dsimp only | split | with_reducible apply kp.rest

theorem Keep.reviewSync {P : State → Prop} (kp : Keep P) {s : State} {src : Nat} (h_s : P s) :
    P (State.reviewSync s src) := by
  unfold Sys2Proof.Machine.State.reviewSync
  repeat' first
    | (with_reducible first | assumption | apply ite_keep | apply kp.handOver | apply kp.passSync
                            | apply kp.releaseSync)
    | intro _ | dsimp only | split | with_reducible apply kp.rest

theorem Keep.setOutwin {P : State → Prop} (kp : Keep P) {s : State} {src : Nat} (h_s : P s) :
    P (State.setOutwin s src) := by
  unfold Sys2Proof.Machine.State.setOutwin
  repeat' first
    | (with_reducible first | assumption | apply ite_keep | apply kp.setAligner)
    | intro _ | dsimp only | split | with_reducible apply kp.rest

theorem Keep.autoPromote {P : State → Prop} (kp : Keep P) {s : State} {src : Nat} {blank : Bool} (h_s : P s) :
    P (State.autoPromote s src blank) := by
  unfold Sys2Proof.Machine.State.autoPromote
  repeat' first
    | (with_reducible first | assumption | apply ite_keep | apply kp.setOutwin | apply kp.attachSync
                            | apply kp.setModes | apply kp.raise)
    | intro _ | dsimp only | split | with_reducible apply kp.rest

theorem Keep.recount {P : State → Prop} (kp : Keep P) {s : State} {src : Nat} {units : Nat} (h_s : P s) :
    P (State.recount s src units) := by
  unfold Sys2Proof.Machine.State.recount
  repeat' first
    | (with_reducible first | assumption | apply ite_keep | apply kp.handOver | apply kp.passSync)
    | intro _ | dsimp only | split | with_reducible apply kp.rest

theorem Keep.reacquire {P : State → Prop} (kp : Keep P) {s : State} {src : Nat} {home : Nat} {high : Nat} {u : SyncUnit} (h_s : P s) :
    P (State.reacquire s src home high u) := by
  unfold Sys2Proof.Machine.State.reacquire
  repeat' first
    | (with_reducible first | assumption | apply ite_keep | apply kp.recount | apply kp.setSync | apply kp.setAligner
                            | apply kp.each)
    | intro _ | dsimp only | split | with_reducible apply kp.rest

theorem Keep.reportFormat {P : State → Prop} (kp : Keep P) {s : State} {src : Nat} {high : Nat} (h_s : P s) :
    P (State.reportFormat s src high) := by
  unfold Sys2Proof.Machine.State.reportFormat
  repeat' first
    | (with_reducible first | assumption | apply ite_keep | apply kp.reacquire | apply kp.setSync
                            | apply kp.setAligner)
    | intro _ | dsimp only | split | with_reducible apply kp.rest

theorem Keep.reportPid {P : State → Prop} (kp : Keep P) {s : State} {src : Nat} {pid : Nat} (h_s : P s) :
    P (State.reportPid s src pid) := by
  unfold Sys2Proof.Machine.State.reportPid
  repeat' first
    | (with_reducible first | assumption | apply ite_keep | apply kp.setAligner)
    | intro _ | dsimp only | split | with_reducible apply kp.rest

theorem Keep.reportAligned {P : State → Prop} (kp : Keep P) {s : State} {src : Nat} {high : Nat} {delay : Nat} (h_s : P s) :
    P (State.reportAligned s src high delay) := by
  unfold Sys2Proof.Machine.State.reportAligned
  repeat' first
    | (with_reducible first | assumption | apply ite_keep | apply kp.reportFormat | apply kp.setAligner)
    | intro _ | dsimp only | split | with_reducible apply kp.rest

theorem Keep.opAlignerAcquired {P : State → Prop} (kp : Keep P) {src : Nat} {off : Int} {s : State} (h_s : P s) :
    P (opAlignerAcquired src off s) := by
  unfold Sys2Proof.Machine.opAlignerAcquired
  repeat' first
    | (with_reducible first | assumption | apply ite_keep | apply kp.autoPromote | apply kp.setAligner | apply kp.when)
    | intro _ | dsimp only | split | with_reducible apply kp.rest

theorem Keep.opLeavesWindow {P : State → Prop} (kp : Keep P) {src : Nat} {off : Int} {jump : Bool} {s : State} (h_s : P s) :
    P (opLeavesWindow src off jump s) := by
  unfold Sys2Proof.Machine.opLeavesWindow
  repeat' first
    | (with_reducible first | assumption | apply ite_keep | apply kp.autoPromote | apply kp.setAligner)
    | intro _ | dsimp only | split | with_reducible apply kp.rest

theorem Keep.place {P : State → Prop} (kp : Keep P) {s : State} {src : Nat} {off : Int} (h_s : P s) :
    P (State.place s src off) := by
  unfold Sys2Proof.Machine.State.place
  repeat' first
    | (with_reducible first | assumption | apply ite_keep | apply kp.autoPromote | apply kp.setAligner | apply kp.when)
    | intro _ | dsimp only | split | with_reducible apply kp.rest

theorem Keep.realignAll {P : State → Prop} (kp : Keep P) {s : State} (h_s : P s) :
    P (State.realignAll s) := by
  unfold Sys2Proof.Machine.State.realignAll
  repeat' first
    | (with_reducible first | assumption | apply ite_keep | apply kp.place | apply kp.each)
    | intro _ | dsimp only | split | with_reducible apply kp.rest

theorem Keep.opSyncFrameStart {P : State → Prop} (kp : Keep P) {src : Nat} {newest : Nat} {s : State} (h_s : P s) :
    P (opSyncFrameStart src newest s) := by
  unfold Sys2Proof.Machine.opSyncFrameStart
  repeat' first
    | (with_reducible first | assumption | apply ite_keep | apply kp.setSync | apply kp.setAligner | apply kp.when
                            | apply kp.each | apply kp.inc | apply kp.incBy)
    | intro _ | dsimp only | split | with_reducible apply kp.rest

theorem Keep.substituteLine {P : State → Prop} (kp : Keep P) {s : State} {src : Nat} {line : Nat} (h_s : P s) :
    P (State.substituteLine s src line) := by
  unfold Sys2Proof.Machine.State.substituteLine
  repeat' first
    | (with_reducible first | assumption | apply ite_keep | apply kp.setAligner)
    | intro _ | dsimp only | split | with_reducible apply kp.rest

theorem Keep.opErroredLine {P : State → Prop} (kp : Keep P) {src : Nat} {line : Nat} {s : State} (h_s : P s) :
    P (opErroredLine src line s) := by
  unfold Sys2Proof.Machine.opErroredLine
  repeat' first
    | (with_reducible first | assumption | apply ite_keep | apply kp.substituteLine | apply kp.setAligner
                            | apply kp.raise | apply kp.inc)
    | intro _ | dsimp only | split | with_reducible apply kp.rest

theorem Keep.opEccFix {P : State → Prop} (kp : Keep P) {s : State} (h_s : P s) :
    P (opEccFix s) := by
  unfold Sys2Proof.Machine.opEccFix
  repeat' first
    | (with_reducible first | assumption | apply ite_keep | apply kp.raise | apply kp.inc)
    | intro _ | dsimp only | split | with_reducible apply kp.rest

theorem Keep.opBackgroundAged {P : State → Prop} (kp : Keep P) {ctl : Nat} {req : Nat} {age : Nat} {cycles : List (List Nat)} {s : State} (h_s : P s) :
    P (opBackgroundAged ctl req age cycles s) := by
  unfold Sys2Proof.Machine.opBackgroundAged
  repeat' first
    | (with_reducible first | assumption | apply ite_keep | apply kp.incBy | apply foldl_keep | apply foldl_keep_fst
                            | apply foldl_keep_snd)
    | intro _ | dsimp only | split | with_reducible apply kp.rest

theorem Keep.opLspar {P : State → Prop} (kp : Keep P) {s : State} (h_s : P s) :
    P (opLspar s) := by
  unfold Sys2Proof.Machine.opLspar
  repeat' first
    | (with_reducible first | assumption | apply ite_keep | apply kp.raise)
    | intro _ | dsimp only | split | with_reducible apply kp.rest

theorem Keep.opAlIdx {P : State → Prop} (kp : Keep P) {v : Word} {s : State} (h_s : P s) :
    P (opAlIdx v s) := by
  unfold Sys2Proof.Machine.opAlIdx
  repeat' first
    | (with_reducible first | assumption | apply ite_keep | apply kp.fieldWrite | apply kp.setBit | apply kp.setFld)
    | intro _ | dsimp only | split | with_reducible apply kp.rest

theorem Keep.opDlData {P : State → Prop} (kp : Keep P) {v : Word} {s : State} (h_s : P s) :
    P (opDlData v s) := by
  unfold Sys2Proof.Machine.opDlData
  repeat' first
    | (with_reducible first | assumption | apply ite_keep | apply kp.fieldWrite)
    | intro _ | dsimp only | split | with_reducible apply kp.rest

theorem Keep.opFsaClrcnt {P : State → Prop} (kp : Keep P) {s : State} (h_s : P s) :
    P (opFsaClrcnt s) := by
  unfold Sys2Proof.Machine.opFsaClrcnt
  repeat' first
    | (with_reducible first | assumption | apply ite_keep | apply kp.clearAll)
    | intro _ | dsimp only | split | with_reducible apply kp.rest

end Sys2Proof.Machine
end

