-- ==== Sys2Proof/Laws/KeepLineStore.lean ====
section
/-! SUPPORT. The operations of Machine/LineStore.lean keep every property that single writes keep. -/

namespace Sys2Proof.Machine

open Sys2Proof

theorem Keep.alignWords {P : State → Prop} (kp : Keep P) {s : State} {k : Nat} {words : List (BitVec 20)} (h_s : P s) :
    P (State.alignWords s k words).2 := by
  unfold Sys2Proof.Machine.State.alignWords
  repeat' first
    | (with_reducible first | assumption | apply ite_keep)
    | intro _ | dsimp only | split | with_reducible apply kp.rest

theorem Keep.retime {P : State → Prop} (kp : Keep P) {s : State} {d : Nat} (h_s : P s) :
    P (State.retime s d) := by
  unfold Sys2Proof.Machine.State.retime
  repeat' first
    | (with_reducible first | assumption | apply ite_keep)
    | intro _ | dsimp only | split | with_reducible apply kp.rest

end Sys2Proof.Machine
end

