-- ==== Sys2Proof/Laws/KeepCrosspoint.lean ====
section
/-! SUPPORT. The operations of Machine/Crosspoint.lean keep every property that single writes keep. -/

namespace Sys2Proof.Machine

open Sys2Proof

theorem Keep.setXpt {P : State → Prop} (kp : Keep P) {s : State} {x : Xpt} (h_s : P s) :
    P (State.setXpt s x) := by
  unfold Sys2Proof.Machine.State.setXpt
  repeat' first
    | (with_reducible first | assumption | apply ite_keep)
    | intro _ | dsimp only | split | with_reducible apply kp.rest

theorem Keep.tally {P : State → Prop} (kp : Keep P) {s : State} {old : State} (h_s : P s) (h_old : P old) :
    P (State.tally s old) := by
  unfold Sys2Proof.Machine.State.tally
  repeat' first
    | (with_reducible first | assumption | apply ite_keep | apply kp.event | apply kp.each | apply kp.freshWord)
    | intro _ | dsimp only | split | with_reducible apply kp.rest

theorem Keep.setSlot {P : State → Prop} (kp : Keep P) {s : State} {k : Nat} {x : Salvo} (h_s : P s) :
    P (State.setSlot s k x) := by
  unfold Sys2Proof.Machine.State.setSlot
  repeat' first
    | (with_reducible first | assumption | apply ite_keep)
    | intro _ | dsimp only | split | with_reducible apply kp.rest

theorem Keep.stage {P : State → Prop} (kp : Keep P) {s : State} {t : Nat} {k : Nat} {key : Nat} {i : SalvoItem} (h_s : P s) :
    P (State.stage s t k key i).1 := by
  unfold Sys2Proof.Machine.State.stage
  repeat' first
    | (with_reducible first | assumption | apply ite_keep | apply kp.setSlot)
    | intro _ | dsimp only | split | with_reducible apply kp.rest

theorem Keep.displaceAt {P : State → Prop} (kp : Keep P) {s : State} {d : Nat} (h_s : P s) :
    P (State.displaceAt s d) := by
  unfold Sys2Proof.Machine.State.displaceAt
  repeat' first
    | (with_reducible first | assumption | apply ite_keep | apply kp.setXpt | apply kp.reviewSync | apply kp.complete
                            | apply kp.release)
    | intro _ | dsimp only | split | with_reducible apply kp.rest

theorem Keep.displace {P : State → Prop} (kp : Keep P) {s : State} {d : Nat} {w : Nat} (h_s : P s) :
    P (State.displace s d w) := by
  unfold Sys2Proof.Machine.State.displace
  repeat' first
    | (with_reducible first | assumption | apply ite_keep | apply kp.displaceAt | apply kp.each)
    | intro _ | dsimp only | split | with_reducible apply kp.rest

theorem Keep.schedule {P : State → Prop} (kp : Keep P) {s : State} {t : Nat} {d : Nat} {id : Nat} {c : Change} (h_s : P s) :
    P (State.schedule s t d id c) := by
  unfold Sys2Proof.Machine.State.schedule
  repeat' first
    | (with_reducible first | assumption | apply ite_keep | apply kp.displace | apply kp.setXpt | apply kp.attachSync
                            | apply kp.alloc)
    | intro _ | dsimp only | split | with_reducible apply kp.rest

theorem Keep.routeBody {P : State → Prop} (kp : Keep P) {t : Nat} {e : Entry} {id : Nat} {s : State} (h_s : P s) :
    P (routeBody t e id s) := by
  unfold Sys2Proof.Machine.routeBody
  repeat' first
    | (with_reducible first | assumption | apply ite_keep | apply kp.schedule | apply kp.stage | apply kp.checked
                            | apply kp.complete | apply kp.release | apply kp.alloc)
    | intro _ | dsimp only | split | with_reducible apply kp.rest

theorem Keep.unrouteBody {P : State → Prop} (kp : Keep P) {t : Nat} {e : Entry} {id : Nat} {s : State} (h_s : P s) :
    P (unrouteBody t e id s) := by
  unfold Sys2Proof.Machine.unrouteBody
  repeat' first
    | (with_reducible first | assumption | apply ite_keep | apply kp.schedule | apply kp.stage | apply kp.checked
                            | apply kp.complete | apply kp.release)
    | intro _ | dsimp only | split | with_reducible apply kp.rest

theorem Keep.writeTxfmt {P : State → Prop} (kp : Keep P) {s : State} {d : Nat} {f : Fmt} (h_s : P s) :
    P (State.writeTxfmt s d f) := by
  unfold Sys2Proof.Machine.State.writeTxfmt
  repeat' first
    | (with_reducible first | assumption | apply ite_keep | apply kp.when | apply kp.emit | apply kp.wr)
    | intro _ | dsimp only | split | with_reducible apply kp.rest

theorem Keep.turnTracks {P : State → Prop} (kp : Keep P) {s : State} {d : Nat} {w : Nat} {slot : Nat} (h_s : P s) :
    P (State.turnTracks s d w slot) := by
  unfold Sys2Proof.Machine.State.turnTracks
  repeat' first
    | (with_reducible first | assumption | apply ite_keep | apply kp.setXpt | apply kp.each)
    | intro _ | dsimp only | split | with_reducible apply kp.rest

theorem Keep.removeRoute {P : State → Prop} (kp : Keep P) {s : State} {d : Nat} (h_s : P s) :
    P (State.removeRoute s d) := by
  unfold Sys2Proof.Machine.State.removeRoute
  repeat' first
    | (with_reducible first | assumption | apply ite_keep | apply kp.setXpt | apply kp.reviewSync | apply kp.release)
    | intro _ | dsimp only | split | with_reducible apply kp.rest

theorem Keep.clearPar {P : State → Prop} (kp : Keep P) {s : State} {d : Nat} {w : Nat} (h_s : P s) :
    P (State.clearPar s d w) := by
  unfold Sys2Proof.Machine.State.clearPar
  repeat' first
    | (with_reducible first | assumption | apply ite_keep | apply kp.setXpt)
    | intro _ | dsimp only | split | with_reducible apply kp.rest

theorem Keep.claimCharge {P : State → Prop} (kp : Keep P) {s : State} {d : Nat} {h : Holding} {c : Charge} (h_s : P s) :
    P (State.claimCharge s d h c) := by
  unfold Sys2Proof.Machine.State.claimCharge
  repeat' first
    | (with_reducible first | assumption | apply ite_keep | apply kp.setAllocs)
    | intro _ | dsimp only | split | with_reducible apply kp.rest

theorem Keep.newSurface {P : State → Prop} (kp : Keep P) {s : State} {d : Nat} {f : Fmt} (h_s : P s) :
    P (State.newSurface s d f) := by
  unfold Sys2Proof.Machine.State.newSurface
  repeat' first
    | (with_reducible first | assumption | apply ite_keep)
    | intro _ | dsimp only | split | with_reducible apply kp.rest

theorem Keep.settleSync {P : State → Prop} (kp : Keep P) {s : State} {t : Nat} {d : Nat} {c : Change} (h_s : P s) :
    P (State.settleSync s t d c) := by
  unfold Sys2Proof.Machine.State.settleSync
  repeat' first
    | (with_reducible first | assumption | apply ite_keep | apply kp.giveSync | apply kp.attachSync | apply kp.setSync)
    | intro _ | dsimp only | split | with_reducible apply kp.rest

theorem Keep.clearOverlap {P : State → Prop} (kp : Keep P) {s : State} {d : Nat} {w : Nat} (h_s : P s) :
    P (State.clearOverlap s d w) := by
  unfold Sys2Proof.Machine.State.clearOverlap
  repeat' first
    | (with_reducible first | assumption | apply ite_keep | apply kp.removeRoute | apply foldl_keep
                            | apply foldl_keep_fst | apply foldl_keep_snd)
    | intro _ | dsimp only | split | with_reducible apply kp.rest

theorem Keep.applyChange {P : State → Prop} (kp : Keep P) {s : State} {t : Nat} {d : Nat} {slot : Nat} {stale : Nat} {c : Change} {h : Holding} {ep : Option Nat} (h_s : P s) :
    P (State.applyChange s t d slot stale c h ep).1 := by
  unfold Sys2Proof.Machine.State.applyChange
  repeat' first
    | (with_reducible first | assumption | apply ite_keep | apply kp.clearOverlap | apply kp.settleSync
                            | apply kp.newSurface | apply kp.claimCharge | apply kp.clearPar | apply kp.removeRoute
                            | apply kp.turnTracks | apply kp.writeTxfmt | apply kp.setXpt | apply kp.reviewSync
                            | apply kp.release | apply kp.when | apply kp.each | apply kp.incBy)
    | intro _ | dsimp only | split | with_reducible apply kp.rest

theorem Keep.awaitSeq {P : State → Prop} (kp : Keep P) {s : State} {d : Nat} {id : Nat} {result : Nat} {epoch : Nat} (h_s : P s) :
    P (State.awaitSeq s d id result epoch) := by
  unfold Sys2Proof.Machine.State.awaitSeq
  repeat' first
    | (with_reducible first | assumption | apply ite_keep | apply kp.setXpt)
    | intro _ | dsimp only | split | with_reducible apply kp.rest

theorem Keep.switchImmediate {P : State → Prop} (kp : Keep P) {s : State} {d : Nat} {line : Nat} {slot : Nat} {stale : Nat} (h_s : P s) :
    P (State.switchImmediate s d line slot stale) := by
  unfold Sys2Proof.Machine.State.switchImmediate
  repeat' first
    | (with_reducible first | assumption | apply ite_keep | apply kp.awaitSeq | apply kp.applyChange | apply kp.tally
                            | apply kp.setXpt | apply kp.complete)
    | intro _ | dsimp only | split | with_reducible apply kp.rest

theorem Keep.opFormatBoundary {P : State → Prop} (kp : Keep P) {d : Nat} {s : State} (h_s : P s) :
    P (opFormatBoundary d s) := by
  unfold Sys2Proof.Machine.opFormatBoundary
  repeat' first
    | (with_reducible first | assumption | apply ite_keep | apply kp.writeTxfmt | apply kp.setXpt | apply kp.complete
                            | apply kp.each)
    | intro _ | dsimp only | split | with_reducible apply kp.rest

theorem Keep.destFrame {P : State → Prop} (kp : Keep P) {s : State} {d : Nat} {data : List Byte} (h_s : P s) :
    P (State.destFrame s d data) := by
  unfold Sys2Proof.Machine.State.destFrame
  repeat' first
    | (with_reducible first | assumption | apply ite_keep | apply kp.setXpt | apply kp.event | apply kp.raise
                            | apply kp.when | apply kp.inc)
    | intro _ | dsimp only | split | with_reducible apply kp.rest

theorem Keep.freeCell {P : State → Prop} (kp : Keep P) {s : State} (h_s : P s) :
    P (State.freeCell s).2 := by
  unfold Sys2Proof.Machine.State.freeCell
  repeat' first
    | (with_reducible first | assumption | apply ite_keep | apply kp.freshWord)
    | intro _ | dsimp only | split | with_reducible apply kp.rest

theorem Keep.deliver {P : State → Prop} (kp : Keep P) {s : State} {d : Nat} {cell : BitVec 84} (h_s : P s) :
    P (State.deliver s d cell) := by
  unfold Sys2Proof.Machine.State.deliver
  repeat' first
    | (with_reducible first | assumption | apply ite_keep | apply kp.setXpt)
    | intro _ | dsimp only | split | with_reducible apply kp.rest

theorem Keep.readCell {P : State → Prop} (kp : Keep P) {s : State} {fate : Nat} {bad : List (Nat × Sym)} {d : Nat} {k : Option Nat} (h_s : P s) :
    P (State.readCell s fate bad d k) := by
  unfold Sys2Proof.Machine.State.readCell
  repeat' first
    | (with_reducible first | assumption | apply ite_keep | apply kp.deliver | apply kp.freeCell)
    | intro _ | dsimp only | split | with_reducible apply kp.rest

theorem Keep.countSymbols {P : State → Prop} (kp : Keep P) {s : State} {errs : List (Nat × List (Nat × Sym))} (h_s : P s) :
    P (State.countSymbols s errs) := by
  unfold Sys2Proof.Machine.State.countSymbols
  repeat' first
    | (with_reducible first | assumption | apply ite_keep | apply kp.plerr | apply kp.each)
    | intro _ | dsimp only | split | with_reducible apply kp.rest

theorem Keep.writeCell {P : State → Prop} (kp : Keep P) {s : State} {k : Nat} {words : List (BitVec 20)} (h_s : P s) :
    P (State.writeCell s k words) := by
  unfold Sys2Proof.Machine.State.writeCell
  repeat' first
    | (with_reducible first | assumption | apply ite_keep | apply kp.setXpt | apply kp.alignWords | apply kp.take)
    | intro _ | dsimp only | split | with_reducible apply kp.rest

theorem Keep.opSchedulePeriod {P : State → Prop} (kp : Keep P) {words : List (Nat × List (BitVec 20))} {errs : List (Nat × List (Nat × Sym))} {stale : Nat} {s : State} (h_s : P s) :
    P (opSchedulePeriod words errs stale s) := by
  unfold Sys2Proof.Machine.opSchedulePeriod
  repeat' first
    | (with_reducible first | assumption | apply ite_keep | apply kp.writeCell | apply kp.countSymbols
                            | apply kp.readCell | apply kp.setXpt | apply kp.retime | apply kp.raise | apply kp.when
                            | apply kp.each | apply kp.incBy)
    | intro _ | dsimp only | split | with_reducible apply kp.rest

theorem Keep.opRtpar {P : State → Prop} (kp : Keep P) {d : Nat} {both : Bool} {s : State} (h_s : P s) :
    P (opRtpar d both s) := by
  unfold Sys2Proof.Machine.opRtpar
  repeat' first
    | (with_reducible first | assumption | apply ite_keep | apply kp.tally | apply kp.setXpt | apply kp.raise
                            | apply kp.inc | apply foldl_keep | apply foldl_keep_fst | apply foldl_keep_snd)
    | intro _ | dsimp only | split | with_reducible apply kp.rest

theorem Keep.opRtIdx {P : State → Prop} (kp : Keep P) {v : Word} {s : State} (h_s : P s) :
    P (opRtIdx v s) := by
  unfold Sys2Proof.Machine.opRtIdx
  repeat' first
    | (with_reducible first | assumption | apply ite_keep | apply kp.fieldWrite | apply kp.setFld | apply kp.wr)
    | intro _ | dsimp only | split | with_reducible apply kp.rest

theorem Keep.opSuIdx {P : State → Prop} (kp : Keep P) {v : Word} {s : State} (h_s : P s) :
    P (opSuIdx v s) := by
  unfold Sys2Proof.Machine.opSuIdx
  repeat' first
    | (with_reducible first | assumption | apply ite_keep | apply kp.fieldWrite | apply kp.setFld)
    | intro _ | dsimp only | split | with_reducible apply kp.rest

end Sys2Proof.Machine
end

