-- ==== Sys2Proof/Laws/KeepUnits.lean ====
section
/-! SUPPORT. The operations of Machine/Units.lean keep every property that single writes keep. -/

namespace Sys2Proof.Machine

open Sys2Proof

theorem Keep.setBst {P : State → Prop} (kp : Keep P) {s : State} {b : Bst} (h_s : P s) :
    P (State.setBst s b) := by
  unfold Sys2Proof.Machine.State.setBst
  repeat' first
    | (with_reducible first | assumption | apply ite_keep)
    | intro _ | dsimp only | split | with_reducible apply kp.rest

theorem Keep.abandonSlice {P : State → Prop} (kp : Keep P) {s : State} {u : Nat} (h_s : P s) :
    P (State.abandonSlice s u) := by
  unfold Sys2Proof.Machine.State.abandonSlice
  repeat' first
    | (with_reducible first | assumption | apply ite_keep | apply kp.setBst | apply kp.raise | apply kp.inc)
    | intro _ | dsimp only | split | with_reducible apply kp.rest

theorem Keep.startDomain {P : State → Prop} (kp : Keep P) {s : State} {b : Nat} (h_s : P s) :
    P (State.startDomain s b) := by
  unfold Sys2Proof.Machine.State.startDomain
  repeat' first
    | (with_reducible first | assumption | apply ite_keep | apply kp.setBit)
    | intro _ | dsimp only | split | with_reducible apply kp.rest

end Sys2Proof.Machine
end

