-- ==== Sys2Proof/Laws/KeepCompositor.lean ====
section
/-! SUPPORT. The operations of Machine/Compositor.lean keep every property that single writes keep. -/

namespace Sys2Proof.Machine

open Sys2Proof

theorem Keep.setCmp {P : State → Prop} (kp : Keep P) {s : State} {c : Cmp} (h_s : P s) :
    P (State.setCmp s c) := by
  unfold Sys2Proof.Machine.State.setCmp
  repeat' first
    | (with_reducible first | assumption | apply ite_keep)
    | intro _ | dsimp only | split | with_reducible apply kp.rest

theorem Keep.plan {P : State → Prop} (kp : Keep P) {s : State} {t : Nat} {c : Nat} {op : CanvasOp} {id : Nat} (h_s : P s) :
    P (State.plan s t c op id) := by
  unfold Sys2Proof.Machine.State.plan
  repeat' first
    | (with_reducible first | assumption | apply ite_keep | apply kp.recharge | apply kp.rechargeTo
                            | apply kp.setCanvas | apply kp.each)
    | intro _ | dsimp only | split | with_reducible apply kp.rest

theorem Keep.canvasDefBody {P : State → Prop} (kp : Keep P) {t : Nat} {e : Entry} {id : Nat} {s : State} (h_s : P s) :
    P (canvasDefBody t e id s) := by
  unfold Sys2Proof.Machine.canvasDefBody
  repeat' first
    | (with_reducible first | assumption | apply ite_keep | apply kp.plan | apply kp.startDomain
                            | apply kp.abandonSlice | apply kp.checked | apply kp.complete)
    | intro _ | dsimp only | split | with_reducible apply kp.rest

theorem Keep.layerBody {P : State → Prop} (kp : Keep P) {t : Nat} {e : Entry} {id : Nat} {s : State} (h_s : P s) :
    P (layerBody t e id s) := by
  unfold Sys2Proof.Machine.layerBody
  repeat' first
    | (with_reducible first | assumption | apply ite_keep | apply kp.plan | apply kp.stage | apply kp.checked
                            | apply kp.complete | apply kp.recharge)
    | intro _ | dsimp only | split | with_reducible apply kp.rest

theorem Keep.stillLoadBody {P : State → Prop} (kp : Keep P) {t : Nat} {e : Entry} {id : Nat} {s : State} (h_s : P s) :
    P (stillLoadBody t e id s) := by
  unfold Sys2Proof.Machine.stillLoadBody
  repeat' first
    | (with_reducible first | assumption | apply ite_keep | apply kp.setCmp | apply kp.checked | apply kp.alloc)
    | intro _ | dsimp only | split | with_reducible apply kp.rest

theorem Keep.countBytes {P : State → Prop} (kp : Keep P) {s : State} {ch : Nat} {n : Nat} (h_s : P s) :
    P (State.countBytes s ch n) := by
  unfold Sys2Proof.Machine.State.countBytes
  repeat' first
    | (with_reducible first | assumption | apply ite_keep | apply kp.wr)
    | intro _ | dsimp only | split | with_reducible apply kp.rest

theorem Keep.countCommand {P : State → Prop} (kp : Keep P) {s : State} {id : Nat} {n : Nat} (h_s : P s) :
    P (State.countCommand s id n) := by
  unfold Sys2Proof.Machine.State.countCommand
  repeat' first
    | (with_reducible first | assumption | apply ite_keep | apply kp.countBytes)
    | intro _ | dsimp only | split | with_reducible apply kp.rest

theorem Keep.opStillStored {P : State → Prop} (kp : Keep P) {n : Nat} {data : List Byte} {s : State} (h_s : P s) :
    P (opStillStored n data s) := by
  unfold Sys2Proof.Machine.opStillStored
  repeat' first
    | (with_reducible first | assumption | apply ite_keep | apply kp.countCommand | apply kp.setCmp | apply kp.mirror
                            | apply kp.take | apply kp.complete | apply kp.release | apply kp.setAllocs)
    | intro _ | dsimp only | split | with_reducible apply kp.rest

theorem Keep.frameGrabBody {P : State → Prop} (kp : Keep P) {t : Nat} {e : Entry} {id : Nat} {s : State} (h_s : P s) :
    P (frameGrabBody t e id s) := by
  unfold Sys2Proof.Machine.frameGrabBody
  repeat' first
    | (with_reducible first | assumption | apply ite_keep | apply kp.setCmp | apply kp.checked)
    | intro _ | dsimp only | split | with_reducible apply kp.rest

theorem Keep.capture {P : State → Prop} (kp : Keep P) {s : State} {t : Nat} {r : Nat} {c : Capture} (h_s : P s) :
    P (State.capture s t r c) := by
  unfold Sys2Proof.Machine.State.capture
  repeat' first
    | (with_reducible first | assumption | apply ite_keep | apply kp.raise | apply kp.writeCapture)
    | intro _ | dsimp only | split | with_reducible apply kp.rest

theorem Keep.opFrameCaptured {P : State → Prop} (kp : Keep P) {ch : Nat} {data : List Byte} {ago : Nat} {s : State} (h_s : P s) :
    P (opFrameCaptured ch data ago s) := by
  unfold Sys2Proof.Machine.opFrameCaptured
  repeat' first
    | (with_reducible first | assumption | apply ite_keep | apply kp.countBytes | apply kp.setCmp | apply kp.grabEntry
                            | apply kp.emit)
    | intro _ | dsimp only | split | with_reducible apply kp.rest

theorem Keep.failChannel {P : State → Prop} (kp : Keep P) {s : State} {ch : Nat} {st : Status} (h_s : P s) :
    P (State.failChannel s ch st) := by
  unfold Sys2Proof.Machine.State.failChannel
  repeat' first
    | (with_reducible first | assumption | apply ite_keep | apply kp.capture | apply kp.setCmp | apply kp.complete
                            | apply kp.release)
    | intro _ | dsimp only | split | with_reducible apply kp.rest

theorem Keep.setRegion {P : State → Prop} (kp : Keep P) {s : State} {r : Nat} {x : Region} (h_s : P s) :
    P (State.setRegion s r x) := by
  unfold Sys2Proof.Machine.State.setRegion
  repeat' first
    | (with_reducible first | assumption | apply ite_keep | apply kp.setCmp)
    | intro _ | dsimp only | split | with_reducible apply kp.rest

theorem Keep.srSet {P : State → Prop} (kp : Keep P) {s : State} {r : Nat} {st : Nat} {run : Nat} (h_s : P s) :
    P (State.srSet s r st run) := by
  unfold Sys2Proof.Machine.State.srSet
  repeat' first
    | (with_reducible first | assumption | apply ite_keep | apply kp.setFld)
    | intro _ | dsimp only | split | with_reducible apply kp.rest

theorem Keep.tellOwner {P : State → Prop} (kp : Keep P) {s : State} {t : Nat} {r : Nat} {type : Nat} {kind : Nat} {obj : Nat} {epoch : Nat} {data : List Nat} (h_s : P s) :
    P (State.tellOwner s t r type kind obj epoch data) := by
  unfold Sys2Proof.Machine.State.tellOwner
  repeat' first
    | (with_reducible first | assumption | apply ite_keep | apply kp.event | apply kp.when)
    | intro _ | dsimp only | split | with_reducible apply kp.rest

theorem Keep.sigFail {P : State → Prop} (kp : Keep P) {s : State} {c : Nat} {r : Nat} {safe : Bool} (h_s : P s) :
    P (State.sigFail s c r safe) := by
  unfold Sys2Proof.Machine.State.sigFail
  repeat' first
    | (with_reducible first | assumption | apply ite_keep | apply kp.tellOwner)
    | intro _ | dsimp only | split | with_reducible apply kp.rest

theorem Keep.regionBegin {P : State → Prop} (kp : Keep P) {s : State} {c : Nat} {r : Nat} (h_s : P s) :
    P (State.regionBegin s c r) := by
  unfold Sys2Proof.Machine.State.regionBegin
  repeat' first
    | (with_reducible first | assumption | apply ite_keep | apply kp.sigFail | apply kp.srSet | apply kp.setRegion
                            | apply kp.disarm | apply kp.promote | apply kp.raise | apply kp.when | apply kp.inc)
    | intro _ | dsimp only | split | with_reducible apply kp.rest

theorem Keep.regionJudge {P : State → Prop} (kp : Keep P) {s : State} {c : Nat} {r : Nat} {crc : Nat} {cfg : List Word} (h_s : P s) :
    P (State.regionJudge s c r crc cfg) := by
  unfold Sys2Proof.Machine.State.regionJudge
  repeat' first
    | (with_reducible first | assumption | apply ite_keep | apply kp.sigFail | apply kp.srSet | apply kp.setRegion
                            | apply kp.raise | apply kp.when | apply kp.inc | apply kp.wr)
    | intro _ | dsimp only | split | with_reducible apply kp.rest

theorem Keep.regionsBegin {P : State → Prop} (kp : Keep P) {s : State} {c : Nat} (h_s : P s) :
    P (State.regionsBegin s c) := by
  unfold Sys2Proof.Machine.State.regionsBegin
  repeat' first
    | (with_reducible first | assumption | apply ite_keep | apply kp.regionBegin | apply kp.each)
    | intro _ | dsimp only | split | with_reducible apply kp.rest

theorem Keep.regionsJudge {P : State → Prop} (kp : Keep P) {s : State} {c : Nat} {sigs : List (Nat × Nat × List Word)} (h_s : P s) :
    P (State.regionsJudge s c sigs) := by
  unfold Sys2Proof.Machine.State.regionsJudge
  repeat' first
    | (with_reducible first | assumption | apply ite_keep | apply kp.regionJudge | apply kp.each)
    | intro _ | dsimp only | split | with_reducible apply kp.rest

theorem Keep.loseRegions {P : State → Prop} (kp : Keep P) {s : State} {c : Nat} {size : Option (Nat × Nat)} (h_s : P s) :
    P (State.loseRegions s c size) := by
  unfold Sys2Proof.Machine.State.loseRegions
  repeat' first
    | (with_reducible first | assumption | apply ite_keep | apply kp.srSet | apply kp.setRegion | apply kp.raise
                            | apply kp.each | apply kp.setBit)
    | intro _ | dsimp only | split | with_reducible apply kp.rest

theorem Keep.srWrite {P : State → Prop} (kp : Keep P) {s : State} {r : Nat} {k : Nat} {v : Word} (h_s : P s) :
    P (State.srWrite s r k v) := by
  unfold Sys2Proof.Machine.State.srWrite
  repeat' first
    | (with_reducible first | assumption | apply ite_keep | apply kp.srSet | apply kp.mirror | apply kp.fieldWrite
                            | apply kp.raise | apply kp.when)
    | intro _ | dsimp only | split | with_reducible apply kp.rest

theorem Keep.opSrCfg {P : State → Prop} (kp : Keep P) {k : Nat} {v : Word} {s : State} (h_s : P s) :
    P (opSrCfg k v s) := by
  unfold Sys2Proof.Machine.opSrCfg
  repeat' first
    | (with_reducible first | assumption | apply ite_keep | apply kp.srWrite)
    | intro _ | dsimp only | split | with_reducible apply kp.rest

theorem Keep.srLearn {P : State → Prop} (kp : Keep P) {s : State} {r : Nat} {k : Nat} (h_s : P s) :
    P (State.srLearn s r k) := by
  unfold Sys2Proof.Machine.State.srLearn
  repeat' first
    | (with_reducible first | assumption | apply ite_keep | apply kp.setRegion)
    | intro _ | dsimp only | split | with_reducible apply kp.rest

theorem Keep.srClear {P : State → Prop} (kp : Keep P) {s : State} {r : Nat} (h_s : P s) :
    P (State.srClear s r) := by
  unfold Sys2Proof.Machine.State.srClear
  repeat' first
    | (with_reducible first | assumption | apply ite_keep | apply kp.setRegion | apply kp.disarm)
    | intro _ | dsimp only | split | with_reducible apply kp.rest

theorem Keep.opEnIdx {P : State → Prop} (kp : Keep P) {v : Word} {s : State} (h_s : P s) :
    P (opEnIdx v s) := by
  unfold Sys2Proof.Machine.opEnIdx
  repeat' first
    | (with_reducible first | assumption | apply ite_keep | apply kp.fieldWrite | apply kp.setFld)
    | intro _ | dsimp only | split | with_reducible apply kp.rest

theorem Keep.opCvIdx {P : State → Prop} (kp : Keep P) {v : Word} {s : State} (h_s : P s) :
    P (opCvIdx v s) := by
  unfold Sys2Proof.Machine.opCvIdx
  repeat' first
    | (with_reducible first | assumption | apply ite_keep | apply kp.fieldWrite | apply kp.setBit | apply kp.setFld)
    | intro _ | dsimp only | split | with_reducible apply kp.rest

theorem Keep.opLtpar {P : State → Prop} (kp : Keep P) {c : Nat} {i : Nat} {s : State} (h_s : P s) :
    P (opLtpar c i s) := by
  unfold Sys2Proof.Machine.opLtpar
  repeat' first
    | (with_reducible first | assumption | apply ite_keep | apply kp.raise | apply kp.setCanvas)
    | intro _ | dsimp only | split | with_reducible apply kp.rest

theorem Keep.opCmpClrcnt {P : State → Prop} (kp : Keep P) {s : State} (h_s : P s) :
    P (opCmpClrcnt s) := by
  unfold Sys2Proof.Machine.opCmpClrcnt
  repeat' first
    | (with_reducible first | assumption | apply ite_keep | apply kp.clearAll)
    | intro _ | dsimp only | split | with_reducible apply kp.rest

end Sys2Proof.Machine
end

