-- ==== Sys2Proof/Laws/KeepCompose.lean ====
section
/-! SUPPORT. The operations of Machine/Compose.lean keep every property that single writes keep. -/

namespace Sys2Proof.Machine

open Sys2Proof

theorem Keep.makeFrame {P : State → Prop} (kp : Keep P) {s : State} {c : Nat} {d : CanvasDef} (h_s : P s) :
    P (State.makeFrame s c d) := by
  unfold Sys2Proof.Machine.State.makeFrame
  repeat' first
    | (with_reducible first | assumption | apply ite_keep | apply kp.setCanvas)
    | intro _ | dsimp only | split | with_reducible apply kp.rest

theorem Keep.composeFrame {P : State → Prop} (kp : Keep P) {s : State} {c : Nat} {d : CanvasDef} (h_s : P s) :
    P (State.composeFrame s c d) := by
  unfold Sys2Proof.Machine.State.composeFrame
  repeat' first
    | (with_reducible first | assumption | apply ite_keep | apply kp.makeFrame | apply kp.raise | apply kp.each
                            | apply kp.incBy)
    | intro _ | dsimp only | split | with_reducible apply kp.rest

end Sys2Proof.Machine
end

