-- ==== Sys2Proof/Laws/KeepSalvos.lean ====
section
/-! SUPPORT. The operations of Machine/Salvos.lean keep every property that single writes keep. -/

namespace Sys2Proof.Machine

open Sys2Proof

theorem Keep.delSlot {P : State → Prop} (kp : Keep P) {s : State} {k : Nat} (h_s : P s) :
    P (State.delSlot s k) := by
  unfold Sys2Proof.Machine.State.delSlot
  repeat' first
    | (with_reducible first | assumption | apply ite_keep)
    | intro _ | dsimp only | split | with_reducible apply kp.rest

theorem Keep.updSlot {P : State → Prop} (kp : Keep P) {s : State} {k : Nat} {f : Salvo → Salvo} (h_s : P s) :
    P (State.updSlot s k f) := by
  unfold Sys2Proof.Machine.State.updSlot
  repeat' first
    | (with_reducible first | assumption | apply ite_keep | apply kp.setSlot)
    | intro _ | dsimp only | split | with_reducible apply kp.rest

theorem Keep.closeSlot {P : State → Prop} (kp : Keep P) {s : State} {k : Nat} {x : Salvo} (h_s : P s) :
    P (State.closeSlot s k x) := by
  unfold Sys2Proof.Machine.State.closeSlot
  repeat' first
    | (with_reducible first | assumption | apply ite_keep | apply kp.delSlot | apply kp.recharge | apply kp.release
                            | apply kp.each)
    | intro _ | dsimp only | split | with_reducible apply kp.rest

theorem Keep.failSalvo {P : State → Prop} (kp : Keep P) {s : State} {k : Nat} {st : Status} (h_s : P s) :
    P (State.failSalvo s k st) := by
  unfold Sys2Proof.Machine.State.failSalvo
  repeat' first
    | (with_reducible first | assumption | apply ite_keep | apply kp.closeSlot | apply kp.raise | apply kp.complete)
    | intro _ | dsimp only | split | with_reducible apply kp.rest

theorem Keep.sendDecision {P : State → Prop} (kp : Keep P) {s : State} {nodes : Nat} {m : Msg} (h_s : P s) :
    P (State.sendDecision s nodes m) := by
  unfold Sys2Proof.Machine.State.sendDecision
  repeat' first
    | (with_reducible first | assumption | apply ite_keep | apply kp.sendOn | apply kp.each | apply kp.emit)
    | intro _ | dsimp only | split | with_reducible apply kp.rest

theorem Keep.cancelSalvo {P : State → Prop} (kp : Keep P) {s : State} {k : Nat} {r : SalvoReason} (h_s : P s) :
    P (State.cancelSalvo s k r) := by
  unfold Sys2Proof.Machine.State.cancelSalvo
  repeat' first
    | (with_reducible first | assumption | apply ite_keep | apply kp.sendDecision | apply kp.failSalvo)
    | intro _ | dsimp only | split | with_reducible apply kp.rest

theorem Keep.undoEntries {P : State → Prop} (kp : Keep P) {s : State} {k : Nat} (h_s : P s) :
    P (State.undoEntries s k) := by
  unfold Sys2Proof.Machine.State.undoEntries
  repeat' first
    | (with_reducible first | assumption | apply ite_keep | apply kp.makeFrame | apply kp.recharge
                            | apply kp.setCanvas | apply kp.each)
    | intro _ | dsimp only | split | with_reducible apply kp.rest

theorem Keep.shedSalvo {P : State → Prop} (kp : Keep P) {s : State} {k : Nat} (h_s : P s) :
    P (State.shedSalvo s k) := by
  unfold Sys2Proof.Machine.State.shedSalvo
  repeat' first
    | (with_reducible first | assumption | apply ite_keep | apply kp.undoEntries | apply kp.sendDecision
                            | apply kp.failSalvo | apply kp.stage | apply kp.setSlot | apply kp.send)
    | intro _ | dsimp only | split | with_reducible apply kp.rest

theorem Keep.setHeld {P : State → Prop} (kp : Keep P) {s : State} {l : List HeldPrepare} (h_s : P s) :
    P (State.setHeld s l) := by
  unfold Sys2Proof.Machine.State.setHeld
  repeat' first
    | (with_reducible first | assumption | apply ite_keep)
    | intro _ | dsimp only | split | with_reducible apply kp.rest

theorem Keep.salvoDone {P : State → Prop} (kp : Keep P) {s : State} {k : Nat} (h_s : P s) :
    P (State.salvoDone s k) := by
  unfold Sys2Proof.Machine.State.salvoDone
  repeat' first
    | (with_reducible first | assumption | apply ite_keep | apply kp.closeSlot | apply kp.stage | apply kp.raise
                            | apply kp.complete | apply kp.when)
    | intro _ | dsimp only | split | with_reducible apply kp.rest

theorem Keep.arm {P : State → Prop} (kp : Keep P) {s : State} {k : Nat} {f : Nat} (h_s : P s) :
    P (State.arm s k f) := by
  unfold Sys2Proof.Machine.State.arm
  repeat' first
    | (with_reducible first | assumption | apply ite_keep | apply kp.salvoDone | apply kp.updSlot | apply kp.stage)
    | intro _ | dsimp only | split | with_reducible apply kp.rest

theorem Keep.salvoOpenBody {P : State → Prop} (kp : Keep P) {t : Nat} {e : Entry} {id : Nat} {s : State} (h_s : P s) :
    P (salvoOpenBody t e id s) := by
  unfold Sys2Proof.Machine.salvoOpenBody
  repeat' first
    | (with_reducible first | assumption | apply ite_keep | apply kp.setSlot | apply kp.checked | apply kp.complete)
    | intro _ | dsimp only | split | with_reducible apply kp.rest

theorem Keep.refuseSalvo {P : State → Prop} (kp : Keep P) {s : State} {k : Nat} {src : Nat} {g : Word} {r : SalvoReason} (h_s : P s) :
    P (State.refuseSalvo s k src g r) := by
  unfold Sys2Proof.Machine.State.refuseSalvo
  repeat' first
    | (with_reducible first | assumption | apply ite_keep | apply kp.updSlot | apply kp.send)
    | intro _ | dsimp only | split | with_reducible apply kp.rest

theorem Keep.sendReady {P : State → Prop} (kp : Keep P) {s : State} {k : Nat} {src : Nat} (h_s : P s) :
    P (State.sendReady s k src) := by
  unfold Sys2Proof.Machine.State.sendReady
  repeat' first
    | (with_reducible first | assumption | apply ite_keep | apply kp.send)
    | intro _ | dsimp only | split | with_reducible apply kp.rest

theorem Keep.meetPrepare {P : State → Prop} (kp : Keep P) {s : State} {k : Nat} {p : HeldPrepare} (h_s : P s) :
    P (State.meetPrepare s k p) := by
  unfold Sys2Proof.Machine.State.meetPrepare
  repeat' first
    | (with_reducible first | assumption | apply ite_keep | apply kp.sendReady | apply kp.refuseSalvo | apply kp.stage
                            | apply kp.setSlot)
    | intro _ | dsimp only | split | with_reducible apply kp.rest

theorem Keep.refuseHeld {P : State → Prop} (kp : Keep P) {s : State} {h : Option HeldPrepare} {r : SalvoReason} (h_s : P s) :
    P (State.refuseHeld s h r) := by
  unfold Sys2Proof.Machine.State.refuseHeld
  repeat' first
    | (with_reducible first | assumption | apply ite_keep | apply kp.send)
    | intro _ | dsimp only | split | with_reducible apply kp.rest

theorem Keep.salvoCommitBody {P : State → Prop} (kp : Keep P) {t : Nat} {e : Entry} {id : Nat} {s : State} (h_s : P s) :
    P (salvoCommitBody t e id s) := by
  unfold Sys2Proof.Machine.salvoCommitBody
  repeat' first
    | (with_reducible first | assumption | apply ite_keep | apply kp.refuseHeld | apply kp.meetPrepare
                            | apply kp.setHeld | apply kp.shedSalvo | apply kp.cancelSalvo | apply kp.failSalvo
                            | apply kp.updSlot | apply kp.stage | apply kp.setSlot | apply kp.checked)
    | intro _ | dsimp only | split | with_reducible apply kp.rest

theorem Keep.salvoAbortBody {P : State → Prop} (kp : Keep P) {t : Nat} {e : Entry} {id : Nat} {s : State} (h_s : P s) :
    P (salvoAbortBody t e id s) := by
  unfold Sys2Proof.Machine.salvoAbortBody
  repeat' first
    | (with_reducible first | assumption | apply ite_keep | apply kp.refuseSalvo | apply kp.cancelSalvo
                            | apply kp.failSalvo | apply kp.closeSlot | apply kp.stage | apply kp.setSlot
                            | apply kp.checked | apply kp.complete)
    | intro _ | dsimp only | split | with_reducible apply kp.rest

theorem Keep.decideSalvo {P : State → Prop} (kp : Keep P) {s : State} {k : Nat} (h_s : P s) :
    P (State.decideSalvo s k) := by
  unfold Sys2Proof.Machine.State.decideSalvo
  repeat' first
    | (with_reducible first | assumption | apply ite_keep | apply kp.arm | apply kp.cancelSalvo
                            | apply kp.sendDecision)
    | intro _ | dsimp only | split | with_reducible apply kp.rest

theorem Keep.lateFor {P : State → Prop} (kp : Keep P) {s : State} {x : Salvo} {c : Nat} (h_s : P s) :
    P (State.lateFor s x c).2 := by
  unfold Sys2Proof.Machine.State.lateFor
  repeat' first
    | (with_reducible first | assumption | apply ite_keep | apply kp.freshPick)
    | intro _ | dsimp only | split | with_reducible apply kp.rest

theorem Keep.prepareLate {P : State → Prop} (kp : Keep P) {s : State} {x : Salvo} (h_s : P s) :
    P (State.prepareLate s x).2 := by
  unfold Sys2Proof.Machine.State.prepareLate
  repeat' first
    | (with_reducible first | assumption | apply ite_keep | apply kp.lateFor | apply foldl_keep | apply foldl_keep_fst
                            | apply foldl_keep_snd)
    | intro _ | dsimp only | split | with_reducible apply kp.rest

theorem Keep.opPrepareDone {P : State → Prop} (kp : Keep P) {k : Nat} {s : State} (h_s : P s) :
    P (opPrepareDone k s) := by
  unfold Sys2Proof.Machine.opPrepareDone
  repeat' first
    | (with_reducible first | assumption | apply ite_keep | apply kp.prepareLate | apply kp.decideSalvo
                            | apply kp.sendReady | apply kp.refuseSalvo | apply kp.arm | apply kp.shedSalvo
                            | apply kp.cancelSalvo | apply kp.failSalvo | apply kp.stage | apply kp.setSlot
                            | apply kp.send | apply kp.each)
    | intro _ | dsimp only | split | with_reducible apply kp.rest

theorem Keep.opLocalDeadline {P : State → Prop} (kp : Keep P) {k : Nat} {s : State} (h_s : P s) :
    P (opLocalDeadline k s) := by
  unfold Sys2Proof.Machine.opLocalDeadline
  repeat' first
    | (with_reducible first | assumption | apply ite_keep | apply kp.failSalvo | apply kp.stage)
    | intro _ | dsimp only | split | with_reducible apply kp.rest

theorem Keep.holdPrepare {P : State → Prop} (kp : Keep P) {s : State} {p : HeldPrepare} (h_s : P s) :
    P (State.holdPrepare s p) := by
  unfold Sys2Proof.Machine.State.holdPrepare
  repeat' first
    | (with_reducible first | assumption | apply ite_keep | apply kp.setHeld)
    | intro _ | dsimp only | split | with_reducible apply kp.rest

theorem Keep.opPrepare {P : State → Prop} (kp : Keep P) {p : HeldPrepare} {s : State} (h_s : P s) :
    P (opPrepare p s) := by
  unfold Sys2Proof.Machine.opPrepare
  repeat' first
    | (with_reducible first | assumption | apply ite_keep | apply kp.holdPrepare | apply kp.meetPrepare
                            | apply kp.cancelSalvo | apply kp.stage | apply kp.send)
    | intro _ | dsimp only | split | with_reducible apply kp.rest

theorem Keep.opReady {P : State → Prop} (kp : Keep P) {src : Nat} {g : Word} {f : Nat} {s : State} (h_s : P s) :
    P (opReady src g f s) := by
  unfold Sys2Proof.Machine.opReady
  repeat' first
    | (with_reducible first | assumption | apply ite_keep | apply kp.decideSalvo | apply kp.stage | apply kp.setSlot)
    | intro _ | dsimp only | split | with_reducible apply kp.rest

theorem Keep.opRefuse {P : State → Prop} (kp : Keep P) {g : Word} {r : SalvoReason} {s : State} (h_s : P s) :
    P (opRefuse g r s) := by
  unfold Sys2Proof.Machine.opRefuse
  repeat' first
    | (with_reducible first | assumption | apply ite_keep | apply kp.cancelSalvo | apply kp.stage)
    | intro _ | dsimp only | split | with_reducible apply kp.rest

theorem Keep.opCommit {P : State → Prop} (kp : Keep P) {g : Word} {f : Nat} {s : State} (h_s : P s) :
    P (opCommit g f s) := by
  unfold Sys2Proof.Machine.opCommit
  repeat' first
    | (with_reducible first | assumption | apply ite_keep | apply kp.arm | apply kp.failSalvo | apply kp.stage)
    | intro _ | dsimp only | split | with_reducible apply kp.rest

theorem Keep.opCancel {P : State → Prop} (kp : Keep P) {src : Nat} {g : Word} {r : SalvoReason} {s : State} (h_s : P s) :
    P (opCancel src g r s) := by
  unfold Sys2Proof.Machine.opCancel
  repeat' first
    | (with_reducible first | assumption | apply ite_keep | apply kp.setHeld | apply kp.failSalvo | apply kp.stage)
    | intro _ | dsimp only | split | with_reducible apply kp.rest

theorem Keep.opDecisionDeadline {P : State → Prop} (kp : Keep P) {g : Word} {s : State} (h_s : P s) :
    P (opDecisionDeadline g s) := by
  unfold Sys2Proof.Machine.opDecisionDeadline
  repeat' first
    | (with_reducible first | assumption | apply ite_keep | apply kp.refuseHeld | apply kp.refuseSalvo
                            | apply kp.setHeld | apply kp.cancelSalvo | apply kp.failSalvo | apply kp.stage)
    | intro _ | dsimp only | split | with_reducible apply kp.rest

theorem Keep.opApplyDeadline {P : State → Prop} (kp : Keep P) {g : Word} {acked : Nat} {s : State} (h_s : P s) :
    P (opApplyDeadline g acked s) := by
  unfold Sys2Proof.Machine.opApplyDeadline
  repeat' first
    | (with_reducible first | assumption | apply ite_keep | apply kp.salvoDone | apply kp.failSalvo | apply kp.updSlot
                            | apply kp.stage)
    | intro _ | dsimp only | split | with_reducible apply kp.rest

theorem Keep.salvoPaths {P : State → Prop} (kp : Keep P) {s : State} (h_s : P s) :
    P (State.salvoPaths s) := by
  unfold Sys2Proof.Machine.State.salvoPaths
  repeat' first
    | (with_reducible first | assumption | apply ite_keep | apply kp.cancelSalvo | apply kp.stage | apply kp.each)
    | intro _ | dsimp only | split | with_reducible apply kp.rest

theorem Keep.salvoEpoch {P : State → Prop} (kp : Keep P) {s : State} {k : Nat} {x : Salvo} (h_s : P s) :
    P (State.salvoEpoch s k x).2 := by
  unfold Sys2Proof.Machine.State.salvoEpoch
  repeat' first
    | (with_reducible first | assumption | apply ite_keep | apply kp.updSlot | apply foldl_keep | apply foldl_keep_fst
                            | apply foldl_keep_snd)
    | intro _ | dsimp only | split | with_reducible apply kp.rest

theorem Keep.switchEntry {P : State → Prop} (kp : Keep P) {s : State} {d : Nat} {line : Nat} {slot : Nat} {stale : Nat} {k : Nat} (h_s : P s) :
    P (State.switchEntry s d line slot stale k) := by
  unfold Sys2Proof.Machine.State.switchEntry
  repeat' first
    | (with_reducible first | assumption | apply ite_keep | apply kp.salvoEpoch | apply kp.salvoDone
                            | apply kp.updSlot | apply kp.applyChange | apply kp.tally)
    | intro _ | dsimp only | split | with_reducible apply kp.rest

theorem Keep.opSwitchPoint {P : State → Prop} (kp : Keep P) {d : Nat} {line : Nat} {slot : Nat} {stale : Nat} {s : State} (h_s : P s) :
    P (opSwitchPoint d line slot stale s) := by
  unfold Sys2Proof.Machine.opSwitchPoint
  repeat' first
    | (with_reducible first | assumption | apply ite_keep | apply kp.switchEntry | apply kp.switchImmediate
                            | apply kp.each)
    | intro _ | dsimp only | split | with_reducible apply kp.rest

end Sys2Proof.Machine
end

