-- ==== Sys2Proof/Laws/KeepFrames.lean ====
section
/-! SUPPORT. The operations of Machine/Frames.lean keep every property that single writes keep. -/

namespace Sys2Proof.Machine

open Sys2Proof

theorem Keep.reportCanvas {P : State → Prop} (kp : Keep P) {s : State} {c : Nat} {d : CanvasDef} {on : Bool} (h_s : P s) :
    P (State.reportCanvas s c d on) := by
  unfold Sys2Proof.Machine.State.reportCanvas
  repeat' first
    | (with_reducible first | assumption | apply ite_keep | apply kp.reportAligned | apply kp.reportPid
                            | apply kp.reportFormat | apply kp.each)
    | intro _ | dsimp only | split | with_reducible apply kp.rest

theorem Keep.applyCanvas {P : State → Prop} (kp : Keep P) {s : State} {c : Nat} {op : CanvasOp} (h_s : P s) :
    P (State.applyCanvas s c op) := by
  unfold Sys2Proof.Machine.State.applyCanvas
  repeat' first
    | (with_reducible first | assumption | apply ite_keep | apply kp.loseRegions | apply kp.place | apply kp.setCanvas)
    | intro _ | dsimp only | split | with_reducible apply kp.rest

theorem Keep.leaveSlices {P : State → Prop} (kp : Keep P) {s : State} {c : Nat} {op : CanvasOp} (h_s : P s) :
    P (State.leaveSlices s c op) := by
  unfold Sys2Proof.Machine.State.leaveSlices
  repeat' first
    | (with_reducible first | assumption | apply ite_keep | apply kp.setCmp | apply kp.recharge)
    | intro _ | dsimp only | split | with_reducible apply kp.rest

theorem Keep.leaveTrack {P : State → Prop} (kp : Keep P) {s : State} {c : Nat} (h_s : P s) :
    P (State.leaveTrack s c) := by
  unfold Sys2Proof.Machine.State.leaveTrack
  repeat' first
    | (with_reducible first | assumption | apply ite_keep | apply kp.reportCanvas | apply kp.setCanvas)
    | intro _ | dsimp only | split | with_reducible apply kp.rest

theorem Keep.takeCanvas {P : State → Prop} (kp : Keep P) {s : State} {c : Nat} (h_s : P s) :
    P (State.takeCanvas s c) := by
  unfold Sys2Proof.Machine.State.takeCanvas
  repeat' first
    | (with_reducible first | assumption | apply ite_keep | apply kp.applyCanvas | apply kp.recharge
                            | apply kp.setCanvas | apply kp.each)
    | intro _ | dsimp only | split | with_reducible apply kp.rest

theorem Keep.salvoCanvasEpoch {P : State → Prop} (kp : Keep P) {s : State} {k : Nat} {x : Salvo} (h_s : P s) :
    P (State.salvoCanvasEpoch s k x).2 := by
  unfold Sys2Proof.Machine.State.salvoCanvasEpoch
  repeat' first
    | (with_reducible first | assumption | apply ite_keep | apply kp.updSlot | apply foldl_keep | apply foldl_keep_fst
                            | apply foldl_keep_snd)
    | intro _ | dsimp only | split | with_reducible apply kp.rest

theorem Keep.takeSalvo {P : State → Prop} (kp : Keep P) {s : State} {c : Nat} {k : Nat} (h_s : P s) :
    P (State.takeSalvo s c k) := by
  unfold Sys2Proof.Machine.State.takeSalvo
  repeat' first
    | (with_reducible first | assumption | apply ite_keep | apply kp.salvoCanvasEpoch | apply kp.applyCanvas
                            | apply kp.updSlot | apply kp.stage | apply kp.recharge | apply kp.setCanvas
                            | apply kp.each)
    | intro _ | dsimp only | split | with_reducible apply kp.rest

theorem Keep.takeChanges {P : State → Prop} (kp : Keep P) {s : State} {c : Nat} (h_s : P s) :
    P (State.takeChanges s c) := by
  unfold Sys2Proof.Machine.State.takeChanges
  repeat' first
    | (with_reducible first | assumption | apply ite_keep | apply kp.takeSalvo | apply kp.takeCanvas | apply kp.each)
    | intro _ | dsimp only | split | with_reducible apply kp.rest

theorem Keep.opComposeStart {P : State → Prop} (kp : Keep P) {c : Nat} {s : State} (h_s : P s) :
    P (opComposeStart c s) := by
  unfold Sys2Proof.Machine.opComposeStart
  repeat' first
    | (with_reducible first | assumption | apply ite_keep | apply kp.takeChanges | apply kp.composeFrame
                            | apply kp.regionsBegin | apply kp.setCanvas)
    | intro _ | dsimp only | split | with_reducible apply kp.rest

theorem Keep.acceptFrame {P : State → Prop} (kp : Keep P) {s : State} {c : Nat} (h_s : P s) :
    P (State.acceptFrame s c) := by
  unfold Sys2Proof.Machine.State.acceptFrame
  repeat' first
    | (with_reducible first | assumption | apply ite_keep | apply kp.regionsJudge | apply kp.setCanvas)
    | intro _ | dsimp only | split | with_reducible apply kp.rest

theorem Keep.frameOut {P : State → Prop} (kp : Keep P) {s : State} {c : Nat} {finished : Bool} (h_s : P s) :
    P (State.frameOut s c finished) := by
  unfold Sys2Proof.Machine.State.frameOut
  repeat' first
    | (with_reducible first | assumption | apply ite_keep | apply kp.acceptFrame | apply kp.leaveTrack
                            | apply kp.leaveSlices | apply kp.salvoDone | apply kp.raise | apply kp.complete
                            | apply kp.recharge | apply kp.setCanvas | apply kp.when | apply kp.each | apply kp.inc)
    | intro _ | dsimp only | split | with_reducible apply kp.rest

end Sys2Proof.Machine
end

