-- ==== Sys2Proof/Laws/KeepMediaLanes.lean ====
section
/-! SUPPORT. The operations of Machine/MediaLanes.lean keep every property that single writes keep. -/

namespace Sys2Proof.Machine

open Sys2Proof

theorem Keep.setMln {P : State → Prop} (kp : Keep P) {s : State} {m : Mln} (h_s : P s) :
    P (State.setMln s m) := by
  unfold Sys2Proof.Machine.State.setMln
  repeat' first
    | (with_reducible first | assumption | apply ite_keep)
    | intro _ | dsimp only | split | with_reducible apply kp.rest

theorem Keep.setLane {P : State → Prop} (kp : Keep P) {s : State} {n : Nat} {x : LaneCtl} (h_s : P s) :
    P (State.setLane s n x) := by
  unfold Sys2Proof.Machine.State.setLane
  repeat' first
    | (with_reducible first | assumption | apply ite_keep | apply kp.setMln)
    | intro _ | dsimp only | split | with_reducible apply kp.rest

theorem Keep.mlnHist {P : State → Prop} (kp : Keep P) {s : State} {n : Nat} {k : Nat} (h_s : P s) :
    P (State.mlnHist s n k) := by
  unfold Sys2Proof.Machine.State.mlnHist
  repeat' first
    | (with_reducible first | assumption | apply ite_keep | apply kp.raise | apply kp.when | apply kp.setBit)
    | intro _ | dsimp only | split | with_reducible apply kp.rest

theorem Keep.setDet {P : State → Prop} (kp : Keep P) {s : State} {n : Nat} {high : Nat} {pid : Word} (h_s : P s) :
    P (State.setDet s n high pid) := by
  unfold Sys2Proof.Machine.State.setDet
  repeat' first
    | (with_reducible first | assumption | apply ite_keep | apply kp.mlnHist | apply kp.reportPid
                            | apply kp.reportFormat | apply kp.setAligner | apply kp.when | apply kp.each
                            | apply kp.setFld | apply kp.wr)
    | intro _ | dsimp only | split | with_reducible apply kp.rest

theorem Keep.dropDet {P : State → Prop} (kp : Keep P) {s : State} {n : Nat} (h_s : P s) :
    P (State.dropDet s n) := by
  unfold Sys2Proof.Machine.State.dropDet
  repeat' first
    | (with_reducible first | assumption | apply ite_keep | apply kp.setDet)
    | intro _ | dsimp only | split | with_reducible apply kp.rest

theorem Keep.restartRx {P : State → Prop} (kp : Keep P) {s : State} {n : Nat} (h_s : P s) :
    P (State.restartRx s n) := by
  unfold Sys2Proof.Machine.State.restartRx
  repeat' first
    | (with_reducible first | assumption | apply ite_keep | apply kp.setDet | apply kp.setLane | apply kp.when
                            | apply kp.resetReg | apply kp.setBit | apply kp.setFld | apply kp.wr)
    | intro _ | dsimp only | split | with_reducible apply kp.rest

theorem Keep.pidBad {P : State → Prop} (kp : Keep P) {s : State} {n : Nat} (h_s : P s) :
    P (State.pidBad s n) := by
  unfold Sys2Proof.Machine.State.pidBad
  repeat' first
    | (with_reducible first | assumption | apply ite_keep | apply kp.setLane | apply kp.setBit)
    | intro _ | dsimp only | split | with_reducible apply kp.rest

theorem Keep.longLoss {P : State → Prop} (kp : Keep P) {s : State} {n : Nat} (h_s : P s) :
    P (State.longLoss s n) := by
  unfold Sys2Proof.Machine.State.longLoss
  repeat' first
    | (with_reducible first | assumption | apply ite_keep | apply kp.pidBad | apply kp.dropDet | apply kp.mlnHist
                            | apply kp.when | apply kp.setBit | apply kp.setFld)
    | intro _ | dsimp only | split | with_reducible apply kp.rest

theorem Keep.beginLoss {P : State → Prop} (kp : Keep P) {s : State} {n : Nat} {byLos : Bool} {long : Bool} (h_s : P s) :
    P (State.beginLoss s n byLos long) := by
  unfold Sys2Proof.Machine.State.beginLoss
  repeat' first
    | (with_reducible first | assumption | apply ite_keep | apply kp.longLoss | apply kp.dropDet | apply kp.setLane
                            | apply kp.when | apply kp.inc | apply kp.setBit)
    | intro _ | dsimp only | split | with_reducible apply kp.rest

theorem Keep.opLosSet {P : State → Prop} (kp : Keep P) {n : Nat} {s : State} (h_s : P s) :
    P (opLosSet n s) := by
  unfold Sys2Proof.Machine.opLosSet
  repeat' first
    | (with_reducible first | assumption | apply ite_keep | apply kp.beginLoss | apply kp.dropDet | apply kp.mlnHist
                            | apply kp.inc | apply kp.setBit)
    | intro _ | dsimp only | split | with_reducible apply kp.rest

theorem Keep.opLosClear {P : State → Prop} (kp : Keep P) {n : Nat} {s : State} (h_s : P s) :
    P (opLosClear n s) := by
  unfold Sys2Proof.Machine.opLosClear
  repeat' first
    | (with_reducible first | assumption | apply ite_keep | apply kp.setLane | apply kp.freshPick | apply kp.setBit
                            | apply kp.setFld)
    | intro _ | dsimp only | split | with_reducible apply kp.rest

theorem Keep.opCdrLock {P : State → Prop} (kp : Keep P) {n : Nat} {code : Nat} {s : State} (h_s : P s) :
    P (opCdrLock n code s) := by
  unfold Sys2Proof.Machine.opCdrLock
  repeat' first
    | (with_reducible first | assumption | apply ite_keep | apply kp.setBit | apply kp.setFld)
    | intro _ | dsimp only | split | with_reducible apply kp.rest

theorem Keep.opFramed {P : State → Prop} (kp : Keep P) {n : Nat} {s : State} (h_s : P s) :
    P (opFramed n s) := by
  unfold Sys2Proof.Machine.opFramed
  repeat' first
    | (with_reducible first | assumption | apply ite_keep | apply kp.setBit)
    | intro _ | dsimp only | split | with_reducible apply kp.rest

theorem Keep.opLossOfLock {P : State → Prop} (kp : Keep P) {n : Nat} {c : LockLoss} {s : State} (h_s : P s) :
    P (opLossOfLock n c s) := by
  unfold Sys2Proof.Machine.opLossOfLock
  repeat' first
    | (with_reducible first | assumption | apply ite_keep | apply kp.beginLoss | apply kp.longLoss | apply kp.when
                            | apply kp.incBy | apply kp.setBit | apply kp.setFld)
    | intro _ | dsimp only | split | with_reducible apply kp.rest

theorem Keep.opLolhold {P : State → Prop} (kp : Keep P) {n : Nat} {lines : Nat} {s : State} (h_s : P s) :
    P (opLolhold n lines s) := by
  unfold Sys2Proof.Machine.opLolhold
  repeat' first
    | (with_reducible first | assumption | apply ite_keep | apply kp.longLoss | apply kp.incBy)
    | intro _ | dsimp only | split | with_reducible apply kp.rest

theorem Keep.opLolshort {P : State → Prop} (kp : Keep P) {n : Nat} {lines : Nat} {frames : Nat} {s : State} (h_s : P s) :
    P (opLolshort n lines frames s) := by
  unfold Sys2Proof.Machine.opLolshort
  repeat' first
    | (with_reducible first | assumption | apply ite_keep | apply kp.mlnHist | apply kp.when | apply kp.incBy
                            | apply kp.setBit)
    | intro _ | dsimp only | split | with_reducible apply kp.rest

theorem Keep.opPublish {P : State → Prop} (kp : Keep P) {n : Nat} {raster : Nat} {rate : Nat} {levelB : Bool} {s : State} (h_s : P s) :
    P (opPublish n raster rate levelB s) := by
  unfold Sys2Proof.Machine.opPublish
  repeat' first
    | (with_reducible first | assumption | apply ite_keep | apply kp.setDet | apply kp.setBit)
    | intro _ | dsimp only | split | with_reducible apply kp.rest

theorem Keep.pidMiss {P : State → Prop} (kp : Keep P) {s : State} {n : Nat} (h_s : P s) :
    P (State.pidMiss s n) := by
  unfold Sys2Proof.Machine.State.pidMiss
  repeat' first
    | (with_reducible first | assumption | apply ite_keep | apply kp.mlnHist | apply kp.inc)
    | intro _ | dsimp only | split | with_reducible apply kp.rest

theorem Keep.pidLink {P : State → Prop} (kp : Keep P) {s : State} {m : Nat} {k : Nat} {o : PidOutcome} (h_s : P s) :
    P (State.pidLink s m k o) := by
  unfold Sys2Proof.Machine.State.pidLink
  repeat' first
    | (with_reducible first | assumption | apply ite_keep | apply kp.pidMiss | apply kp.pidBad | apply kp.setDet
                            | apply kp.mlnHist | apply kp.setLane | apply kp.when | apply kp.setBit)
    | intro _ | dsimp only | split | with_reducible apply kp.rest

theorem Keep.opPidCheck {P : State → Prop} (kp : Keep P) {n : Nat} {o : PidOutcome} {s : State} (h_s : P s) :
    P (opPidCheck n o s) := by
  unfold Sys2Proof.Machine.opPidCheck
  repeat' first
    | (with_reducible first | assumption | apply ite_keep | apply kp.pidLink | apply kp.when | apply kp.wr)
    | intro _ | dsimp only | split | with_reducible apply kp.rest

theorem Keep.opLineCrc {P : State → Prop} (kp : Keep P) {n : Nat} {s : State} (h_s : P s) :
    P (opLineCrc n s) := by
  unfold Sys2Proof.Machine.opLineCrc
  repeat' first
    | (with_reducible first | assumption | apply ite_keep | apply kp.mlnHist | apply kp.inc)
    | intro _ | dsimp only | split | with_reducible apply kp.rest

theorem Keep.opEdh {P : State → Prop} (kp : Keep P) {n : Nat} {packet : Bool} {agree : Bool} {s : State} (h_s : P s) :
    P (opEdh n packet agree s) := by
  unfold Sys2Proof.Machine.opEdh
  repeat' first
    | (with_reducible first | assumption | apply ite_keep | apply kp.mlnHist | apply kp.inc)
    | intro _ | dsimp only | split | with_reducible apply kp.rest

theorem Keep.opBondSkew {P : State → Prop} (kp : Keep P) {n : Nat} {ns : Nat} {s : State} (h_s : P s) :
    P (opBondSkew n ns s) := by
  unfold Sys2Proof.Machine.opBondSkew
  repeat' first
    | (with_reducible first | assumption | apply ite_keep | apply kp.setDet | apply kp.mlnHist | apply kp.setLane
                            | apply kp.when | apply kp.setFld)
    | intro _ | dsimp only | split | with_reducible apply kp.rest

theorem Keep.opEqlimit {P : State → Prop} (kp : Keep P) {n : Nat} {top : Bool} {s : State} (h_s : P s) :
    P (opEqlimit n top s) := by
  unfold Sys2Proof.Machine.opEqlimit
  repeat' first
    | (with_reducible first | assumption | apply ite_keep | apply kp.mlnHist | apply kp.when | apply kp.setFld)
    | intro _ | dsimp only | split | with_reducible apply kp.rest

theorem Keep.opTxfifo {P : State → Prop} (kp : Keep P) {n : Nat} {s : State} (h_s : P s) :
    P (opTxfifo n s) := by
  unfold Sys2Proof.Machine.opTxfifo
  repeat' first
    | (with_reducible first | assumption | apply ite_keep | apply kp.mlnHist)
    | intro _ | dsimp only | split | with_reducible apply kp.rest

theorem Keep.markPartner {P : State → Prop} (kp : Keep P) {s : State} {k : Nat} (h_s : P s) :
    P (State.markPartner s k) := by
  unfold Sys2Proof.Machine.State.markPartner
  repeat' first
    | (with_reducible first | assumption | apply ite_keep | apply kp.setDet | apply kp.setBit)
    | intro _ | dsimp only | split | with_reducible apply kp.rest

theorem Keep.settleTx {P : State → Prop} (kp : Keep P) {s : State} {fresh : Bool} {k : Nat} (h_s : P s) :
    P (State.settleTx s fresh k) := by
  unfold Sys2Proof.Machine.State.settleTx
  repeat' first
    | (with_reducible first | assumption | apply ite_keep | apply kp.when | apply kp.setBit)
    | intro _ | dsimp only | split | with_reducible apply kp.rest

theorem Keep.opMlnCtrl {P : State → Prop} (kp : Keep P) {n : Nat} {v : Word} {s : State} (h_s : P s) :
    P (opMlnCtrl n v s) := by
  unfold Sys2Proof.Machine.opMlnCtrl
  repeat' first
    | (with_reducible first | assumption | apply ite_keep | apply kp.settleTx | apply kp.markPartner
                            | apply kp.restartRx | apply kp.mlnHist | apply kp.startDomain | apply kp.abandonSlice
                            | apply kp.fieldWrite | apply kp.when | apply kp.each)
    | intro _ | dsimp only | split | with_reducible apply kp.rest

theorem Keep.opTxfmt {P : State → Prop} (kp : Keep P) {n : Nat} {v : Word} {s : State} (h_s : P s) :
    P (opTxfmt n v s) := by
  unfold Sys2Proof.Machine.opTxfmt
  repeat' first
    | (with_reducible first | assumption | apply ite_keep | apply kp.mlnHist | apply kp.setMln | apply kp.fieldWrite)
    | intro _ | dsimp only | split | with_reducible apply kp.rest

theorem Keep.opOutputFrame {P : State → Prop} (kp : Keep P) {n : Nat} {s : State} (h_s : P s) :
    P (opOutputFrame n s) := by
  unfold Sys2Proof.Machine.opOutputFrame
  repeat' first
    | (with_reducible first | assumption | apply ite_keep | apply kp.setMln | apply kp.when | apply kp.each
                            | apply kp.emit | apply kp.setBit)
    | intro _ | dsimp only | split | with_reducible apply kp.rest

theorem Keep.reportTogether {P : State → Prop} (kp : Keep P) {s : State} {l : List Nat} {f : State → State} (h_s : P s) (h_f : ∀ (y0 : State), P y0 → P (f y0)) :
    P (State.reportTogether s l f) := by
  unfold Sys2Proof.Machine.State.reportTogether
  repeat' first
    | (with_reducible first | assumption | apply ite_keep | apply kp.raise | apply kp.each | apply kp.wr | apply h_f)
    | intro _ | dsimp only | split | with_reducible apply kp.rest

theorem Keep.opGrppll {P : State → Prop} (kp : Keep P) {g : Nat} {s : State} (h_s : P s) :
    P (opGrppll g s) := by
  unfold Sys2Proof.Machine.opGrppll
  repeat' first
    | (with_reducible first | assumption | apply ite_keep | apply kp.reportTogether | apply kp.beginLoss
                            | apply kp.raise | apply kp.each | apply kp.setBit)
    | intro _ | dsimp only | split | with_reducible apply kp.rest

theorem Keep.opPllRelock {P : State → Prop} (kp : Keep P) {g : Nat} {s : State} (h_s : P s) :
    P (opPllRelock g s) := by
  unfold Sys2Proof.Machine.opPllRelock
  repeat' first
    | (with_reducible first | assumption | apply ite_keep | apply kp.settleTx | apply kp.each | apply kp.setBit)
    | intro _ | dsimp only | split | with_reducible apply kp.rest

theorem Keep.opMlnClrcnt {P : State → Prop} (kp : Keep P) {s : State} (h_s : P s) :
    P (opMlnClrcnt s) := by
  unfold Sys2Proof.Machine.opMlnClrcnt
  repeat' first
    | (with_reducible first | assumption | apply ite_keep | apply kp.resetRegs)
    | intro _ | dsimp only | split | with_reducible apply kp.rest

end Sys2Proof.Machine
end

