-- ==== Sys2Proof/Laws/KeepMacs.lean ====
section
/-! SUPPORT. The operations of Machine/Macs.lean keep every property that single writes keep. -/

namespace Sys2Proof.Machine

open Sys2Proof

theorem Keep.setPort {P : State → Prop} (kp : Keep P) {s : State} {p : Nat} {x : MacPort} (h_s : P s) :
    P (State.setPort s p x) := by
  unfold Sys2Proof.Machine.State.setPort
  repeat' first
    | (with_reducible first | assumption | apply ite_keep)
    | intro _ | dsimp only | split | with_reducible apply kp.rest

theorem Keep.macCount {P : State → Prop} (kp : Keep P) {s : State} {p : Nat} {reg : Nat} {n : Nat} (h_s : P s) :
    P (State.macCount s p reg n) := by
  unfold Sys2Proof.Machine.State.macCount
  repeat' first
    | (with_reducible first | assumption | apply ite_keep | apply kp.setPort)
    | intro _ | dsimp only | split | with_reducible apply kp.rest

theorem Keep.macHist {P : State → Prop} (kp : Keep P) {s : State} {p : Nat} {k : Nat} (h_s : P s) :
    P (State.macHist s p k) := by
  unfold Sys2Proof.Machine.State.macHist
  repeat' first
    | (with_reducible first | assumption | apply ite_keep | apply kp.raise | apply kp.setBit)
    | intro _ | dsimp only | split | with_reducible apply kp.rest

theorem Keep.portDown {P : State → Prop} (kp : Keep P) {s : State} {p : Nat} (h_s : P s) :
    P (State.portDown s p) := by
  unfold Sys2Proof.Machine.State.portDown
  repeat' first
    | (with_reducible first | assumption | apply ite_keep | apply kp.macCount | apply kp.setPort | apply kp.resetReg
                            | apply kp.setFld)
    | intro _ | dsimp only | split | with_reducible apply kp.rest

theorem Keep.advertise {P : State → Prop} (kp : Keep P) {s : State} {p : Nat} (h_s : P s) :
    P (State.advertise s p) := by
  unfold Sys2Proof.Machine.State.advertise
  repeat' first
    | (with_reducible first | assumption | apply ite_keep | apply kp.when | apply kp.emit)
    | intro _ | dsimp only | split | with_reducible apply kp.rest

theorem Keep.opMppCfg {P : State → Prop} (kp : Keep P) {p : Nat} {v : Word} {s : State} (h_s : P s) :
    P (opMppCfg p v s) := by
  unfold Sys2Proof.Machine.opMppCfg
  repeat' first
    | (with_reducible first | assumption | apply ite_keep | apply kp.advertise | apply kp.portDown | apply kp.macHist
                            | apply kp.abandonSlice | apply kp.fieldWrite | apply kp.resetReg)
    | intro _ | dsimp only | split | with_reducible apply kp.rest

theorem Keep.opMaxLen {P : State → Prop} (kp : Keep P) {p : Nat} {v : Word} {s : State} (h_s : P s) :
    P (opMaxLen p v s) := by
  unfold Sys2Proof.Machine.opMaxLen
  repeat' first
    | (with_reducible first | assumption | apply ite_keep | apply kp.fieldWrite | apply kp.setFld)
    | intro _ | dsimp only | split | with_reducible apply kp.rest

theorem Keep.opLinkUp {P : State → Prop} (kp : Keep P) {p : Nat} {s : State} (h_s : P s) :
    P (opLinkUp p s) := by
  unfold Sys2Proof.Machine.opLinkUp
  repeat' first
    | (with_reducible first | assumption | apply ite_keep | apply kp.setPort | apply kp.setBit | apply kp.setFld)
    | intro _ | dsimp only | split | with_reducible apply kp.rest

theorem Keep.opVerify {P : State → Prop} (kp : Keep P) {p : Nat} {ok : Bool} {s : State} (h_s : P s) :
    P (opVerify p ok s) := by
  unfold Sys2Proof.Machine.opVerify
  repeat' first
    | (with_reducible first | assumption | apply ite_keep | apply kp.macHist | apply kp.setPort | apply kp.setFld)
    | intro _ | dsimp only | split | with_reducible apply kp.rest

theorem Keep.opAutoNeg {P : State → Prop} (kp : Keep P) {p : Nat} {fec : Nat} {s : State} (h_s : P s) :
    P (opAutoNeg p fec s) := by
  unfold Sys2Proof.Machine.opAutoNeg
  repeat' first
    | (with_reducible first | assumption | apply ite_keep | apply kp.setFld)
    | intro _ | dsimp only | split | with_reducible apply kp.rest

theorem Keep.opLinkDown {P : State → Prop} (kp : Keep P) {p : Nat} {s : State} (h_s : P s) :
    P (opLinkDown p s) := by
  unfold Sys2Proof.Machine.opLinkDown
  repeat' first
    | (with_reducible first | assumption | apply ite_keep | apply kp.advertise | apply kp.portDown | apply kp.macHist
                            | apply kp.macCount | apply kp.when)
    | intro _ | dsimp only | split | with_reducible apply kp.rest

theorem Keep.portStamp {P : State → Prop} (kp : Keep P) {s : State} {p : Nat} {ago : Nat} {cor : Field} (h_s : P s) :
    P (State.portStamp s p ago cor).2 := by
  unfold Sys2Proof.Machine.State.portStamp
  repeat' first
    | (with_reducible first | assumption | apply ite_keep | apply kp.freshPick)
    | intro _ | dsimp only | split | with_reducible apply kp.rest

theorem Keep.stampRx {P : State → Prop} (kp : Keep P) {s : State} {p : Nat} {ago : Nat} (h_s : P s) :
    P (State.stampRx s p ago) := by
  unfold Sys2Proof.Machine.State.stampRx
  repeat' first
    | (with_reducible first | assumption | apply ite_keep | apply kp.portStamp | apply kp.setPort)
    | intro _ | dsimp only | split | with_reducible apply kp.rest

theorem Keep.stampTx {P : State → Prop} (kp : Keep P) {s : State} {p : Nat} {wait : Nat} (h_s : P s) :
    P (State.stampTx s p wait) := by
  unfold Sys2Proof.Machine.State.stampTx
  repeat' first
    | (with_reducible first | assumption | apply ite_keep | apply kp.portStamp | apply kp.setPort)
    | intro _ | dsimp only | split | with_reducible apply kp.rest

theorem Keep.reasmFails {P : State → Prop} (kp : Keep P) {s : State} {p : Nat} (h_s : P s) :
    P (State.reasmFails s p) := by
  unfold Sys2Proof.Machine.State.reasmFails
  repeat' first
    | (with_reducible first | assumption | apply ite_keep | apply kp.macHist | apply kp.macCount | apply kp.setPort)
    | intro _ | dsimp only | split | with_reducible apply kp.rest

theorem Keep.reassemble {P : State → Prop} (kp : Keep P) {s : State} {p : Nat} {f : RxFrame} (h_s : P s) :
    P (State.reassemble s p f).1 := by
  unfold Sys2Proof.Machine.State.reassemble
  repeat' first
    | (with_reducible first | assumption | apply ite_keep | apply kp.reasmFails | apply kp.setPort | apply kp.when)
    | intro _ | dsimp only | split | with_reducible apply kp.rest

theorem Keep.opFrameReceived {P : State → Prop} (kp : Keep P) {p : Nat} {f : RxFrame} {s : State} (h_s : P s) :
    P (opFrameReceived p f s) := by
  unfold Sys2Proof.Machine.opFrameReceived
  repeat' first
    | (with_reducible first | assumption | apply ite_keep | apply kp.reassemble | apply kp.stampRx | apply kp.macHist
                            | apply kp.macCount | apply kp.when)
    | intro _ | dsimp only | split | with_reducible apply kp.rest

theorem Keep.opFecUnc {P : State → Prop} (kp : Keep P) {p : Nat} {s : State} (h_s : P s) :
    P (opFecUnc p s) := by
  unfold Sys2Proof.Machine.opFecUnc
  repeat' first
    | (with_reducible first | assumption | apply ite_keep | apply kp.macHist | apply kp.macCount)
    | intro _ | dsimp only | split | with_reducible apply kp.rest

theorem Keep.frameSent {P : State → Prop} (kp : Keep P) {s : State} {p : Nat} {len : Nat} {express : Bool} (h_s : P s) :
    P (State.frameSent s p len express) := by
  unfold Sys2Proof.Machine.State.frameSent
  repeat' first
    | (with_reducible first | assumption | apply ite_keep | apply kp.macCount | apply kp.when)
    | intro _ | dsimp only | split | with_reducible apply kp.rest

theorem Keep.emitRest {P : State → Prop} (kp : Keep P) {s : State} {p : Nat} {f : TxFrame} (h_s : P s) :
    P (State.emitRest s p f) := by
  unfold Sys2Proof.Machine.State.emitRest
  repeat' first
    | (with_reducible first | assumption | apply ite_keep | apply kp.when | apply kp.emit)
    | intro _ | dsimp only | split | with_reducible apply kp.rest

theorem Keep.endTx {P : State → Prop} (kp : Keep P) {s : State} {p : Nat} (h_s : P s) :
    P (State.endTx s p) := by
  unfold Sys2Proof.Machine.State.endTx
  repeat' first
    | (with_reducible first | assumption | apply ite_keep | apply kp.emitRest | apply kp.frameSent | apply kp.setPort)
    | intro _ | dsimp only | split | with_reducible apply kp.rest

theorem Keep.interrupt {P : State → Prop} (kp : Keep P) {s : State} {p : Nat} {sent : Nat} (h_s : P s) :
    P (State.interrupt s p sent) := by
  unfold Sys2Proof.Machine.State.interrupt
  repeat' first
    | (with_reducible first | assumption | apply ite_keep | apply kp.endTx | apply kp.macCount | apply kp.setPort
                            | apply kp.take | apply kp.when | apply kp.emit)
    | intro _ | dsimp only | split | with_reducible apply kp.rest

theorem Keep.sendExpress {P : State → Prop} (kp : Keep P) {s : State} {p : Nat} {data : List Byte} {sent : Nat} (h_s : P s) :
    P (State.sendExpress s p data sent) := by
  unfold Sys2Proof.Machine.State.sendExpress
  repeat' first
    | (with_reducible first | assumption | apply ite_keep | apply kp.interrupt | apply kp.frameSent | apply kp.emit)
    | intro _ | dsimp only | split | with_reducible apply kp.rest

theorem Keep.startFrame {P : State → Prop} (kp : Keep P) {s : State} {p : Nat} {i : Nat} (h_s : P s) :
    P (State.startFrame s p i) := by
  unfold Sys2Proof.Machine.State.startFrame
  repeat' first
    | (with_reducible first | assumption | apply ite_keep | apply kp.sendExpress | apply kp.endTx | apply kp.emitRest
                            | apply kp.frameSent | apply kp.stampTx | apply kp.setPort | apply kp.when)
    | intro _ | dsimp only | split | with_reducible apply kp.rest

theorem Keep.pump {P : State → Prop} (kp : Keep P) {s : State} {p : Nat} (h_s : P s) :
    P (State.pump s p) := by
  unfold Sys2Proof.Machine.State.pump
  repeat' first
    | (with_reducible first | assumption | apply ite_keep | apply kp.startFrame | apply kp.each)
    | intro _ | dsimp only | split | with_reducible apply kp.rest

theorem Keep.queueFrame {P : State → Prop} (kp : Keep P) {s : State} {p : Nat} {q : Offered} (h_s : P s) :
    P (State.queueFrame s p q) := by
  unfold Sys2Proof.Machine.State.queueFrame
  repeat' first
    | (with_reducible first | assumption | apply ite_keep | apply kp.frameSent | apply kp.setPort | apply kp.when)
    | intro _ | dsimp only | split | with_reducible apply kp.rest

theorem Keep.opFrameOffered {P : State → Prop} (kp : Keep P) {p : Nat} {q : Offered} {s : State} (h_s : P s) :
    P (opFrameOffered p q s) := by
  unfold Sys2Proof.Machine.opFrameOffered
  repeat' first
    | (with_reducible first | assumption | apply ite_keep | apply kp.queueFrame | apply kp.pump | apply kp.macCount)
    | intro _ | dsimp only | split | with_reducible apply kp.rest

theorem Keep.opExpressReady {P : State → Prop} (kp : Keep P) {p : Nat} {data : List Byte} {sent : Nat} {mark : Option Nat} {s : State} (h_s : P s) :
    P (opExpressReady p data sent mark s) := by
  unfold Sys2Proof.Machine.opExpressReady
  repeat' first
    | (with_reducible first | assumption | apply ite_keep | apply kp.sendExpress | apply kp.stampTx
                            | apply kp.macCount)
    | intro _ | dsimp only | split | with_reducible apply kp.rest

theorem Keep.opHoldAdvance {P : State → Prop} (kp : Keep P) {p : Nat} {launch : Nat} {sent : Nat} {s : State} (h_s : P s) :
    P (opHoldAdvance p launch sent s) := by
  unfold Sys2Proof.Machine.opHoldAdvance
  repeat' first
    | (with_reducible first | assumption | apply ite_keep | apply kp.interrupt | apply kp.when | apply kp.setBit)
    | intro _ | dsimp only | split | with_reducible apply kp.rest

theorem Keep.opExpress {P : State → Prop} (kp : Keep P) {p : Nat} {data : List Byte} {sent : Nat} {ready : Bool} {s : State} (h_s : P s) :
    P (opExpress p data sent ready s) := by
  unfold Sys2Proof.Machine.opExpress
  repeat' first
    | (with_reducible first | assumption | apply ite_keep | apply kp.pump | apply kp.sendExpress | apply kp.macCount
                            | apply kp.opExpressLaunch | apply kp.setBit)
    | intro _ | dsimp only | split | with_reducible apply kp.rest

theorem Keep.opUnderrun {P : State → Prop} (kp : Keep P) {p : Nat} {sent : Nat} {s : State} (h_s : P s) :
    P (opUnderrun p sent s) := by
  unfold Sys2Proof.Machine.opUnderrun
  repeat' first
    | (with_reducible first | assumption | apply ite_keep | apply kp.pump | apply kp.macHist | apply kp.macCount
                            | apply kp.setPort | apply kp.take | apply kp.emit | apply kp.setFld)
    | intro _ | dsimp only | split | with_reducible apply kp.rest

theorem Keep.leaveFallow {P : State → Prop} (kp : Keep P) {s : State} (h_s : P s) :
    P (State.leaveFallow s) := by
  unfold Sys2Proof.Machine.State.leaveFallow
  repeat' first
    | (with_reducible first | assumption | apply ite_keep | apply kp.setFld)
    | intro _ | dsimp only | split | with_reducible apply kp.rest

theorem Keep.opMacWake {P : State → Prop} (kp : Keep P) {p : Nat} {dst : Nat} {etherType : Nat} {id : Nat} {fcsOk : Bool} {s : State} (h_s : P s) :
    P (opMacWake p dst etherType id fcsOk s) := by
  unfold Sys2Proof.Machine.opMacWake
  repeat' first
    | (with_reducible first | assumption | apply ite_keep | apply kp.leaveFallow | apply kp.macHist | apply kp.when
                            | apply kp.emit | apply kp.setBit | apply kp.setFld)
    | intro _ | dsimp only | split | with_reducible apply kp.rest

theorem Keep.opMacSnap {P : State → Prop} (kp : Keep P) {v : Word} {s : State} (h_s : P s) :
    P (opMacSnap v s) := by
  unfold Sys2Proof.Machine.opMacSnap
  repeat' first
    | (with_reducible first | assumption | apply ite_keep | apply kp.fieldWrite | apply kp.each | apply kp.wr)
    | intro _ | dsimp only | split | with_reducible apply kp.rest

theorem Keep.opMacClrcnt {P : State → Prop} (kp : Keep P) {s : State} (h_s : P s) :
    P (opMacClrcnt s) := by
  unfold Sys2Proof.Machine.opMacClrcnt
  repeat' first
    | (with_reducible first | assumption | apply ite_keep)
    | intro _ | dsimp only | split | with_reducible apply kp.rest

end Sys2Proof.Machine
end

