-- ==== Sys2Proof/Laws/KeepEssence.lean ====
section
/-! SUPPORT. The operations of Machine/Essence.lean keep every property that single writes keep. -/

namespace Sys2Proof.Machine

open Sys2Proof

theorem Keep.setRx {P : State → Prop} (kp : Keep P) {s : State} {k : Nat} {x : FlowRx} (h_s : P s) :
    P (State.setRx s k x) := by
  unfold Sys2Proof.Machine.State.setRx
  repeat' first
    | (with_reducible first | assumption | apply ite_keep)
    | intro _ | dsimp only | split | with_reducible apply kp.rest

theorem Keep.setTx {P : State → Prop} (kp : Keep P) {s : State} {k : Nat} {x : FlowTx} (h_s : P s) :
    P (State.setTx s k x) := by
  unfold Sys2Proof.Machine.State.setTx
  repeat' first
    | (with_reducible first | assumption | apply ite_keep)
    | intro _ | dsimp only | split | with_reducible apply kp.rest

theorem Keep.refreshRx {P : State → Prop} (kp : Keep P) {s : State} (h_s : P s) :
    P (State.refreshRx s) := by
  unfold Sys2Proof.Machine.State.refreshRx
  repeat' first
    | (with_reducible first | assumption | apply ite_keep | apply kp.setFld)
    | intro _ | dsimp only | split | with_reducible apply kp.rest

theorem Keep.blockRead {P : State → Prop} (kp : Keep P) {s : State} {id : Nat} {a : Nat} {pb : BlockRead} (h_s : P s) :
    P (State.blockRead s id a pb) := by
  unfold Sys2Proof.Machine.State.blockRead
  repeat' first
    | (with_reducible first | assumption | apply ite_keep | apply kp.countBytes | apply kp.raise | apply kp.noteAddr
                            | apply kp.when | apply kp.each | apply kp.setFld)
    | intro _ | dsimp only | split | with_reducible apply kp.rest

theorem Keep.flowChecked {P : State → Prop} (kp : Keep P) {s : State} {id : Nat} {e : Entry} {pb : BlockRead} {own : Bool} {checks : List (Bool × Status × Nat)} {go : State → State} (h_s : P s) (h_go : ∀ (y0 : State), P y0 → P (go y0)) :
    P (State.flowChecked s id e pb own checks go) := by
  unfold Sys2Proof.Machine.State.flowChecked
  repeat' first
    | (with_reducible first | assumption | apply ite_keep | apply kp.blockRead | apply kp.checked | apply kp.when
                            | apply h_go)
    | intro _ | dsimp only | split | with_reducible apply kp.rest

theorem Keep.rxGone {P : State → Prop} (kp : Keep P) {s : State} {f : Flow} (h_s : P s) :
    P (State.rxGone s f) := by
  unfold Sys2Proof.Machine.State.rxGone
  repeat' first
    | (with_reducible first | assumption | apply ite_keep | apply kp.reportFormat | apply kp.each)
    | intro _ | dsimp only | split | with_reducible apply kp.rest

theorem Keep.leaveGroups {P : State → Prop} (kp : Keep P) {s : State} {k : Nat} {g : Flow} {next : Option Flow} (h_s : P s) :
    P (State.leaveGroups s k g next) := by
  unfold Sys2Proof.Machine.State.leaveGroups
  repeat' first
    | (with_reducible first | assumption | apply ite_keep | apply kp.each | apply kp.emit)
    | intro _ | dsimp only | split | with_reducible apply kp.rest

theorem Keep.rxBoundary {P : State → Prop} (kp : Keep P) {s : State} {k : Nat} (h_s : P s) :
    P (State.rxBoundary s k) := by
  unfold Sys2Proof.Machine.State.rxBoundary
  repeat' first
    | (with_reducible first | assumption | apply ite_keep | apply kp.leaveGroups | apply kp.rxGone | apply kp.setRx)
    | intro _ | dsimp only | split | with_reducible apply kp.rest

theorem Keep.rxAccept {P : State → Prop} (kp : Keep P) {s : State} {k : Nat} {id : Nat} {f : Option Flow} (h_s : P s) :
    P (State.rxAccept s k id f) := by
  unfold Sys2Proof.Machine.State.rxAccept
  repeat' first
    | (with_reducible first | assumption | apply ite_keep | apply kp.rxBoundary | apply kp.refreshRx | apply kp.setRx
                            | apply kp.complete | apply kp.when)
    | intro _ | dsimp only | split | with_reducible apply kp.rest

theorem Keep.flowRxBody {P : State → Prop} (kp : Keep P) {t : Nat} {e : Entry} {pb : BlockRead} {id : Nat} {s : State} (h_s : P s) :
    P (flowRxBody t e pb id s) := by
  unfold Sys2Proof.Machine.flowRxBody
  repeat' first
    | (with_reducible first | assumption | apply ite_keep | apply kp.rxAccept | apply kp.flowChecked
                            | apply kp.complete)
    | intro _ | dsimp only | split | with_reducible apply kp.rest

theorem Keep.txBoundary {P : State → Prop} (kp : Keep P) {s : State} {k : Nat} (h_s : P s) :
    P (State.txBoundary s k) := by
  unfold Sys2Proof.Machine.State.txBoundary
  repeat' first
    | (with_reducible first | assumption | apply ite_keep | apply kp.setTx)
    | intro _ | dsimp only | split | with_reducible apply kp.rest

theorem Keep.txTurn {P : State → Prop} (kp : Keep P) {s : State} {k : Nat} (h_s : P s) :
    P (State.txTurn s k) := by
  unfold Sys2Proof.Machine.State.txTurn
  repeat' first
    | (with_reducible first | assumption | apply ite_keep | apply kp.txBoundary)
    | intro _ | dsimp only | split | with_reducible apply kp.rest

theorem Keep.txAccept {P : State → Prop} (kp : Keep P) {s : State} {k : Nat} {id : Nat} {f : Option Flow} (h_s : P s) :
    P (State.txAccept s k id f) := by
  unfold Sys2Proof.Machine.State.txAccept
  repeat' first
    | (with_reducible first | assumption | apply ite_keep | apply kp.txBoundary | apply kp.setTx | apply kp.complete
                            | apply kp.when)
    | intro _ | dsimp only | split | with_reducible apply kp.rest

theorem Keep.flowTxBody {P : State → Prop} (kp : Keep P) {t : Nat} {e : Entry} {pb : BlockRead} {id : Nat} {s : State} (h_s : P s) :
    P (flowTxBody t e pb id s) := by
  unfold Sys2Proof.Machine.flowTxBody
  repeat' first
    | (with_reducible first | assumption | apply ite_keep | apply kp.txAccept | apply kp.flowChecked
                            | apply kp.complete)
    | intro _ | dsimp only | split | with_reducible apply kp.rest

theorem Keep.sliceBody {P : State → Prop} (kp : Keep P) {t : Nat} {e : Entry} {id : Nat} {s : State} (h_s : P s) :
    P (sliceBody t e id s) := by
  unfold Sys2Proof.Machine.sliceBody
  repeat' first
    | (with_reducible first | assumption | apply ite_keep | apply kp.plan | apply kp.checked | apply kp.complete)
    | intro _ | dsimp only | split | with_reducible apply kp.rest

theorem Keep.rxPublish {P : State → Prop} (kp : Keep P) {s : State} {k : Nat} {f : Flow} {ts : Word} (h_s : P s) :
    P (State.rxPublish s k f ts) := by
  unfold Sys2Proof.Machine.State.rxPublish
  repeat' first
    | (with_reducible first | assumption | apply ite_keep | apply kp.setRx | apply kp.reportPid
                            | apply kp.reportFormat | apply kp.setAligner | apply kp.each)
    | intro _ | dsimp only | split | with_reducible apply kp.rest

theorem Keep.phaseJump {P : State → Prop} (kp : Keep P) {s : State} {track : Nat} {clock : Nat} {r : Nat} {n : Int} (h_s : P s) :
    P (State.phaseJump s track clock r n) := by
  unfold Sys2Proof.Machine.State.phaseJump
  repeat' first
    | (with_reducible first | assumption | apply ite_keep | apply kp.opLeavesWindow | apply kp.setAligner)
    | intro _ | dsimp only | split | with_reducible apply kp.rest

theorem Keep.rxPhase {P : State → Prop} (kp : Keep P) {s : State} {k : Nat} {f : Flow} {ts : Nat} (h_s : P s) :
    P (State.rxPhase s k f ts) := by
  unfold Sys2Proof.Machine.State.rxPhase
  repeat' first
    | (with_reducible first | assumption | apply ite_keep | apply kp.phaseJump | apply kp.setRx | apply kp.each)
    | intro _ | dsimp only | split | with_reducible apply kp.rest

theorem Keep.nextPacket {P : State → Prop} (kp : Keep P) {s : State} {k : Nat} {f : Flow} {second : Bool} {data : List Byte} {anc : List AncPacket} (h_s : P s) :
    P (State.nextPacket s k f second data anc).2 := by
  unfold Sys2Proof.Machine.State.nextPacket
  repeat' first
    | (with_reducible first | assumption | apply ite_keep | apply kp.take | apply kp.freshPick)
    | intro _ | dsimp only | split | with_reducible apply kp.rest

theorem Keep.sendPacket {P : State → Prop} (kp : Keep P) {s : State} {k : Nat} {f : Flow} {p : SentPacket} (h_s : P s) :
    P (State.sendPacket s k f p) := by
  unfold Sys2Proof.Machine.State.sendPacket
  repeat' first
    | (with_reducible first | assumption | apply ite_keep | apply kp.setTx | apply kp.macCount | apply kp.each
                            | apply kp.emit)
    | intro _ | dsimp only | split | with_reducible apply kp.rest

theorem Keep.relayOf {P : State → Prop} (kp : Keep P) {s : State} {k : Nat} {q : EssPacket} (h_s : P s) :
    P (State.relayOf s k q) := by
  unfold Sys2Proof.Machine.State.relayOf
  repeat' first
    | (with_reducible first | assumption | apply ite_keep | apply kp.sendPacket | apply kp.each)
    | intro _ | dsimp only | split | with_reducible apply kp.rest

theorem Keep.rxUsed {P : State → Prop} (kp : Keep P) {s : State} {k : Nat} {f : Flow} {q : EssPacket} (h_s : P s) :
    P (State.rxUsed s k f q) := by
  unfold Sys2Proof.Machine.State.rxUsed
  repeat' first
    | (with_reducible first | assumption | apply ite_keep | apply kp.relayOf | apply kp.rxPhase | apply kp.rxPublish
                            | apply kp.rxBoundary | apply kp.setRx | apply kp.when)
    | intro _ | dsimp only | split | with_reducible apply kp.rest

theorem Keep.insertAnc {P : State → Prop} (kp : Keep P) {s : State} {n : Nat} {f : Flow} {k : EssPacket} (h_s : P s) :
    P (State.insertAnc s n f k) := by
  unfold Sys2Proof.Machine.State.insertAnc
  repeat' first
    | (with_reducible first | assumption | apply ite_keep | apply kp.setRx | apply kp.incBy)
    | intro _ | dsimp only | split | with_reducible apply kp.rest

theorem Keep.storeData {P : State → Prop} (kp : Keep P) {s : State} {n : Nat} {f : Flow} {k : EssPacket} (h_s : P s) :
    P (State.storeData s n f k) := by
  unfold Sys2Proof.Machine.State.storeData
  repeat' first
    | (with_reducible first | assumption | apply ite_keep | apply kp.setRx | apply kp.take)
    | intro _ | dsimp only | split | with_reducible apply kp.rest

theorem Keep.takeData {P : State → Prop} (kp : Keep P) {s : State} {n : Nat} {f : Flow} {k : EssPacket} (h_s : P s) :
    P (State.takeData s n f k) := by
  unfold Sys2Proof.Machine.State.takeData
  repeat' first
    | (with_reducible first | assumption | apply ite_keep | apply kp.storeData | apply kp.insertAnc)
    | intro _ | dsimp only | split | with_reducible apply kp.rest

theorem Keep.secondCopy {P : State → Prop} (kp : Keep P) {s : State} {n : Nat} {leg : Nat} {f : Flow} {c : RxCopy} {k : EssPacket} (h_s : P s) :
    P (State.secondCopy s n leg f c k) := by
  unfold Sys2Proof.Machine.State.secondCopy
  repeat' first
    | (with_reducible first | assumption | apply ite_keep | apply kp.takeData | apply kp.setRx | apply kp.raise
                            | apply kp.when | apply kp.inc)
    | intro _ | dsimp only | split | with_reducible apply kp.rest

theorem Keep.legUp {P : State → Prop} (kp : Keep P) {s : State} {n : Nat} {leg : Nat} (h_s : P s) :
    P (State.legUp s n leg) := by
  unfold Sys2Proof.Machine.State.legUp
  repeat' first
    | (with_reducible first | assumption | apply ite_keep | apply kp.setRx)
    | intro _ | dsimp only | split | with_reducible apply kp.rest

theorem Keep.firstCopy {P : State → Prop} (kp : Keep P) {s : State} {n : Nat} {f : Flow} {k : EssPacket} (h_s : P s) :
    P (State.firstCopy s n f k) := by
  unfold Sys2Proof.Machine.State.firstCopy
  repeat' first
    | (with_reducible first | assumption | apply ite_keep | apply kp.takeData | apply kp.rxUsed | apply kp.inc)
    | intro _ | dsimp only | split | with_reducible apply kp.rest

theorem Keep.rxAccepted {P : State → Prop} (kp : Keep P) {s : State} {n : Nat} {leg : Nat} {f : Flow} {k : EssPacket} (h_s : P s) :
    P (State.rxAccepted s n leg f k) := by
  unfold Sys2Proof.Machine.State.rxAccepted
  repeat' first
    | (with_reducible first | assumption | apply ite_keep | apply kp.firstCopy | apply kp.legUp | apply kp.secondCopy
                            | apply kp.setRx | apply kp.take)
    | intro _ | dsimp only | split | with_reducible apply kp.rest

theorem Keep.opEssPacket {P : State → Prop} (kp : Keep P) {p : Nat} {k : EssPacket} {s : State} (h_s : P s) :
    P (opEssPacket p k s) := by
  unfold Sys2Proof.Machine.opEssPacket
  repeat' first
    | (with_reducible first | assumption | apply ite_keep | apply kp.rxAccepted | apply kp.raise | apply kp.inc)
    | intro _ | dsimp only | split | with_reducible apply kp.rest

theorem Keep.essLate {P : State → Prop} (kp : Keep P) {s : State} (h_s : P s) :
    P (State.essLate s) := by
  unfold Sys2Proof.Machine.State.essLate
  repeat' first
    | (with_reducible first | assumption | apply ite_keep | apply kp.raise | apply kp.inc)
    | intro _ | dsimp only | split | with_reducible apply kp.rest

theorem Keep.playLine {P : State → Prop} (kp : Keep P) {s : State} {n : Nat} {f : Flow} {line : Nat} {complete : Bool} (h_s : P s) :
    P (State.playLine s n f line complete) := by
  unfold Sys2Proof.Machine.State.playLine
  repeat' first
    | (with_reducible first | assumption | apply ite_keep | apply kp.essLate | apply kp.setRx | apply kp.opErroredLine
                            | apply kp.complete)
    | intro _ | dsimp only | split | with_reducible apply kp.rest

theorem Keep.playAudio {P : State → Prop} (kp : Keep P) {s : State} {n : Nat} {f : Flow} (h_s : P s) :
    P (State.playAudio s n f) := by
  unfold Sys2Proof.Machine.State.playAudio
  repeat' first
    | (with_reducible first | assumption | apply ite_keep | apply kp.essLate | apply kp.rxBoundary | apply kp.setRx)
    | intro _ | dsimp only | split | with_reducible apply kp.rest

theorem Keep.opPlayout {P : State → Prop} (kp : Keep P) {n : Nat} {line : Nat} {complete : Bool} {s : State} (h_s : P s) :
    P (opPlayout n line complete s) := by
  unfold Sys2Proof.Machine.opPlayout
  repeat' first
    | (with_reducible first | assumption | apply ite_keep | apply kp.playAudio | apply kp.playLine | apply kp.complete)
    | intro _ | dsimp only | split | with_reducible apply kp.rest

theorem Keep.rxLose {P : State → Prop} (kp : Keep P) {s : State} {n : Nat} {f : Flow} (h_s : P s) :
    P (State.rxLose s n f) := by
  unfold Sys2Proof.Machine.State.rxLose
  repeat' first
    | (with_reducible first | assumption | apply ite_keep | apply kp.rxGone | apply kp.setRx | apply kp.raise)
    | intro _ | dsimp only | split | with_reducible apply kp.rest

theorem Keep.opRxLost {P : State → Prop} (kp : Keep P) {n : Nat} {s : State} (h_s : P s) :
    P (opRxLost n s) := by
  unfold Sys2Proof.Machine.opRxLost
  repeat' first
    | (with_reducible first | assumption | apply ite_keep | apply kp.rxLose | apply kp.rxBoundary)
    | intro _ | dsimp only | split | with_reducible apply kp.rest

theorem Keep.opLegLoss {P : State → Prop} (kp : Keep P) {n : Nat} {legB : Bool} {s : State} (h_s : P s) :
    P (opLegLoss n legB s) := by
  unfold Sys2Proof.Machine.opLegLoss
  repeat' first
    | (with_reducible first | assumption | apply ite_keep | apply kp.setRx | apply kp.event | apply kp.raise)
    | intro _ | dsimp only | split | with_reducible apply kp.rest

theorem Keep.opReport {P : State → Prop} (kp : Keep P) {n : Nat} {legB : Bool} {s : State} (h_s : P s) :
    P (opReport n legB s) := by
  unfold Sys2Proof.Machine.opReport
  repeat' first
    | (with_reducible first | assumption | apply ite_keep | apply kp.setRx | apply kp.emit)
    | intro _ | dsimp only | split | with_reducible apply kp.rest

theorem Keep.opQuery {P : State → Prop} (kp : Keep P) {p : Nat} {mld : Bool} {s : State} (h_s : P s) :
    P (opQuery p mld s) := by
  unfold Sys2Proof.Machine.opQuery
  repeat' first
    | (with_reducible first | assumption | apply ite_keep | apply kp.setRx | apply kp.each | apply kp.emit)
    | intro _ | dsimp only | split | with_reducible apply kp.rest

theorem Keep.opTxPacket {P : State → Prop} (kp : Keep P) {k : Nat} {ready : Bool} {second : Bool} {data : List Byte} {anc : List AncPacket} {s : State} (h_s : P s) :
    P (opTxPacket k ready second data anc s) := by
  unfold Sys2Proof.Machine.opTxPacket
  repeat' first
    | (with_reducible first | assumption | apply ite_keep | apply kp.sendPacket | apply kp.nextPacket
                            | apply kp.txTurn | apply kp.raise | apply kp.when | apply kp.inc)
    | intro _ | dsimp only | split | with_reducible apply kp.rest

theorem Keep.txFrame {P : State → Prop} (kp : Keep P) {s : State} {d : Nat} (h_s : P s) :
    P (State.txFrame s d) := by
  unfold Sys2Proof.Machine.State.txFrame
  repeat' first
    | (with_reducible first | assumption | apply ite_keep | apply kp.txTurn | apply kp.setTx | apply kp.raise
                            | apply kp.when | apply kp.each | apply kp.inc)
    | intro _ | dsimp only | split | with_reducible apply kp.rest

theorem Keep.opDestFrame {P : State → Prop} (kp : Keep P) {d : Nat} {data : List Byte} {s : State} (h_s : P s) :
    P (opDestFrame d data s) := by
  unfold Sys2Proof.Machine.opDestFrame
  repeat' first
    | (with_reducible first | assumption | apply ite_keep | apply kp.txFrame | apply kp.destFrame)
    | intro _ | dsimp only | split | with_reducible apply kp.rest

theorem Keep.sliceFrame {P : State → Prop} (kp : Keep P) {s : State} {c : Nat} (h_s : P s) :
    P (State.sliceFrame s c) := by
  unfold Sys2Proof.Machine.State.sliceFrame
  repeat' first
    | (with_reducible first | assumption | apply ite_keep | apply kp.txTurn | apply kp.setTx | apply kp.when
                            | apply kp.each)
    | intro _ | dsimp only | split | with_reducible apply kp.rest

theorem Keep.putAhead {P : State → Prop} (kp : Keep P) {s : State} {k : Nat} {p : Nat} (h_s : P s) :
    P (State.putAhead s k p) := by
  unfold Sys2Proof.Machine.State.putAhead
  repeat' first
    | (with_reducible first | assumption | apply ite_keep | apply kp.setPort)
    | intro _ | dsimp only | split | with_reducible apply kp.rest

theorem Keep.countLate {P : State → Prop} (kp : Keep P) {s : State} {n : Nat} (h_s : P s) :
    P (State.countLate s n) := by
  unfold Sys2Proof.Machine.State.countLate
  repeat' first
    | (with_reducible first | assumption | apply ite_keep | apply kp.raise | apply kp.when | apply kp.incBy)
    | intro _ | dsimp only | split | with_reducible apply kp.rest

theorem Keep.sendFirst {P : State → Prop} (kp : Keep P) {s : State} {c : Nat} {missed : List Nat} (h_s : P s) :
    P (State.sendFirst s c missed) := by
  unfold Sys2Proof.Machine.State.sendFirst
  refine kp.countLate (kp.each h_s (fun s x h => ?_))
  have hs := kp.sendPacket (k := x.2.1) (f := x.2.2.1) (p := x.2.2.2) h
  exact ite_keep hs (kp.each hs (fun s g h => kp.putAhead h))

theorem Keep.opFrameOut {P : State → Prop} (kp : Keep P) {c : Nat} {finished : Bool} {missed : List Nat} {s : State} (h_s : P s) :
    P (opFrameOut c finished missed s) := by
  unfold Sys2Proof.Machine.opFrameOut
  repeat' first
    | (with_reducible first | assumption | apply ite_keep | apply kp.sendFirst | apply kp.sliceFrame
                            | apply kp.frameOut)
    | intro _ | dsimp only | split | with_reducible apply kp.rest

theorem Keep.opFtpar {P : State → Prop} (kp : Keep P) {isTx : Bool} {k : Nat} {s : State} (h_s : P s) :
    P (opFtpar isTx k s) := by
  unfold Sys2Proof.Machine.opFtpar
  repeat' first
    | (with_reducible first | assumption | apply ite_keep | apply kp.rxLose | apply kp.setTx | apply kp.setRx
                            | apply kp.raise)
    | intro _ | dsimp only | split | with_reducible apply kp.rest

theorem Keep.opFrIdx {P : State → Prop} (kp : Keep P) {v : Word} {s : State} (h_s : P s) :
    P (opFrIdx v s) := by
  unfold Sys2Proof.Machine.opFrIdx
  repeat' first
    | (with_reducible first | assumption | apply ite_keep | apply kp.fieldWrite | apply kp.setBit | apply kp.setFld
                            | apply kp.wr)
    | intro _ | dsimp only | split | with_reducible apply kp.rest

theorem Keep.opFtIdx {P : State → Prop} (kp : Keep P) {v : Word} {s : State} (h_s : P s) :
    P (opFtIdx v s) := by
  unfold Sys2Proof.Machine.opFtIdx
  repeat' first
    | (with_reducible first | assumption | apply ite_keep | apply kp.fieldWrite | apply kp.setBit | apply kp.setFld
                            | apply kp.wr)
    | intro _ | dsimp only | split | with_reducible apply kp.rest

theorem Keep.opEssClrcnt {P : State → Prop} (kp : Keep P) {s : State} (h_s : P s) :
    P (opEssClrcnt s) := by
  unfold Sys2Proof.Machine.opEssClrcnt
  repeat' first
    | (with_reducible first | assumption | apply ite_keep | apply kp.clearAll)
    | intro _ | dsimp only | split | with_reducible apply kp.rest

end Sys2Proof.Machine
end

