-- ==== Sys2Proof/Laws/KeepMigrate.lean ====
section
/-! SUPPORT. The operations of Machine/Migrate.lean keep every property that single writes keep. -/

namespace Sys2Proof.Machine

open Sys2Proof

theorem Keep.setMigs {P : State → Prop} (kp : Keep P) {s : State} {l : Tbl Mig} (h_s : P s) :
    P (State.setMigs s l) := by
  unfold Sys2Proof.Machine.State.setMigs
  repeat' first
    | (with_reducible first | assumption | apply ite_keep)
    | intro _ | dsimp only | split | with_reducible apply kp.rest

theorem Keep.migLate {P : State → Prop} (kp : Keep P) {s : State} {kind : Nat} {i : Nat} {tb : Nat} {t : Nat} (h_s : P s) :
    P (State.migLate s kind i tb t).2 := by
  unfold Sys2Proof.Machine.State.migLate
  repeat' first
    | (with_reducible first | assumption | apply ite_keep | apply kp.freshPick)
    | intro _ | dsimp only | split | with_reducible apply kp.rest

theorem Keep.migrateBody {P : State → Prop} (kp : Keep P) {t : Nat} {e : Entry} {id : Nat} {s : State} (h_s : P s) :
    P (migrateBody t e id s) := by
  unfold Sys2Proof.Machine.migrateBody
  repeat' first
    | (with_reducible first | assumption | apply ite_keep | apply kp.migLate | apply kp.setMigs | apply kp.startDomain
                            | apply kp.abandonSlice | apply kp.checked | apply kp.complete | apply kp.when)
    | intro _ | dsimp only | split | with_reducible apply kp.rest

theorem Keep.opMigStart {P : State → Prop} (kp : Keep P) {kind : Nat} {i : Nat} {s : State} (h_s : P s) :
    P (opMigStart kind i s) := by
  unfold Sys2Proof.Machine.opMigStart
  repeat' first
    | (with_reducible first | assumption | apply ite_keep | apply kp.setMigs | apply kp.emit)
    | intro _ | dsimp only | split | with_reducible apply kp.rest

theorem Keep.opMigCommit {P : State → Prop} (kp : Keep P) {kind : Nat} {i : Nat} {late : Nat} {s : State} (h_s : P s) :
    P (opMigCommit kind i late s) := by
  unfold Sys2Proof.Machine.opMigCommit
  repeat' first
    | (with_reducible first | assumption | apply ite_keep | apply kp.setMigs | apply kp.leaveGroups | apply kp.setTx
                            | apply kp.setRx | apply kp.complete | apply kp.recharge | apply kp.setCanvas
                            | apply kp.inc | apply kp.incBy)
    | intro _ | dsimp only | split | with_reducible apply kp.rest

theorem Keep.endMig {P : State → Prop} (kp : Keep P) {s : State} {key : Nat} {st : Status} (h_s : P s) :
    P (State.endMig s key st) := by
  unfold Sys2Proof.Machine.State.endMig
  repeat' first
    | (with_reducible first | assumption | apply ite_keep | apply kp.setMigs | apply kp.complete)
    | intro _ | dsimp only | split | with_reducible apply kp.rest

theorem Keep.faultTarget {P : State → Prop} (kp : Keep P) {s : State} {u : Nat} (h_s : P s) :
    P (State.faultTarget s u) := by
  unfold Sys2Proof.Machine.State.faultTarget
  repeat' first
    | (with_reducible first | assumption | apply ite_keep | apply kp.endMig | apply kp.each)
    | intro _ | dsimp only | split | with_reducible apply kp.rest

end Sys2Proof.Machine
end

