-- ==== Sys2Proof/Laws/KeepShed.lean ====
section
/-! SUPPORT. The operations of Machine/Shed.lean keep every property that single writes keep. -/

namespace Sys2Proof.Machine

open Sys2Proof

theorem Keep.shedEvent {P : State → Prop} (kp : Keep P) {s : State} {t : Nat} {code : Nat} {kind : Nat} {obj : Nat} (h_s : P s) :
    P (State.shedEvent s t code kind obj) := by
  unfold Sys2Proof.Machine.State.shedEvent
  repeat' first
    | (with_reducible first | assumption | apply ite_keep | apply kp.tellOwner)
    | intro _ | dsimp only | split | with_reducible apply kp.rest

theorem Keep.shedRoute {P : State → Prop} (kp : Keep P) {s : State} {d : Nat} (h_s : P s) :
    P (State.shedRoute s d) := by
  unfold Sys2Proof.Machine.State.shedRoute
  repeat' first
    | (with_reducible first | assumption | apply ite_keep | apply kp.removeRoute | apply kp.tally | apply kp.setXpt
                            | apply kp.complete | apply kp.each)
    | intro _ | dsimp only | split | with_reducible apply kp.rest

theorem Keep.shedPending {P : State → Prop} (kp : Keep P) {s : State} {d : Nat} (h_s : P s) :
    P (State.shedPending s d) := by
  unfold Sys2Proof.Machine.State.shedPending
  repeat' first
    | (with_reducible first | assumption | apply ite_keep | apply kp.setXpt | apply kp.reviewSync | apply kp.complete
                            | apply kp.release)
    | intro _ | dsimp only | split | with_reducible apply kp.rest

theorem Keep.shedCanvas {P : State → Prop} (kp : Keep P) {s : State} {c : Nat} (h_s : P s) :
    P (State.shedCanvas s c) := by
  unfold Sys2Proof.Machine.State.shedCanvas
  repeat' first
    | (with_reducible first | assumption | apply ite_keep | apply kp.endMig | apply kp.leaveTrack
                            | apply kp.leaveSlices | apply kp.applyCanvas | apply kp.shedSalvo | apply kp.complete
                            | apply kp.setCanvas | apply kp.release | apply kp.each)
    | intro _ | dsimp only | split | with_reducible apply kp.rest

theorem Keep.shedStill {P : State → Prop} (kp : Keep P) {s : State} {i : Nat} (h_s : P s) :
    P (State.shedStill s i) := by
  unfold Sys2Proof.Machine.State.shedStill
  repeat' first
    | (with_reducible first | assumption | apply ite_keep | apply kp.setCmp | apply kp.promote | apply kp.release
                            | apply kp.when)
    | intro _ | dsimp only | split | with_reducible apply kp.rest

theorem Keep.shedLoad {P : State → Prop} (kp : Keep P) {s : State} {i : Nat} (h_s : P s) :
    P (State.shedLoad s i) := by
  unfold Sys2Proof.Machine.State.shedLoad
  repeat' first
    | (with_reducible first | assumption | apply ite_keep | apply kp.setCmp | apply kp.complete | apply kp.release)
    | intro _ | dsimp only | split | with_reducible apply kp.rest

theorem Keep.shedSync {P : State → Prop} (kp : Keep P) {s : State} {k : Nat} {d : Nat} (h_s : P s) :
    P (State.shedSync s k d) := by
  unfold Sys2Proof.Machine.State.shedSync
  repeat' first
    | (with_reducible first | assumption | apply ite_keep | apply kp.shedPending | apply kp.shedRoute)
    | intro _ | dsimp only | split | with_reducible apply kp.rest

theorem Keep.shedOne {P : State → Prop} (kp : Keep P) {s : State} {a : Alloc} {code : Nat} (h_s : P s) :
    P (State.shedOne s a code) := by
  unfold Sys2Proof.Machine.State.shedOne
  repeat' first
    | (with_reducible first | assumption | apply ite_keep | apply kp.shedSync | apply kp.shedLoad | apply kp.shedStill
                            | apply kp.shedCanvas | apply kp.shedPending | apply kp.shedRoute | apply kp.shedEvent
                            | apply kp.shedSalvo | apply kp.release)
    | intro _ | dsimp only | split | with_reducible apply kp.rest

theorem Keep.shedBudget {P : State → Prop} (kp : Keep P) {x0 : Nat} {x1 : State} {x2 : Nat} {x3 : Nat} (h_x1 : P x1) :
    P (State.shedBudget x0 x1 x2 x3) := by
  induction x0 generalizing x1 with
  | zero => exact h_x1
  | succ n ih =>
    unfold Sys2Proof.Machine.State.shedBudget
    repeat' first
      | (with_reducible first | assumption | apply ite_keep | apply ih | apply kp.shedOne | apply kp.promote
                              | apply kp.when)
      | intro _ | dsimp only | split

theorem Keep.changeTotal {P : State → Prop} (kp : Keep P) {s : State} {code : Nat} {v : Nat} {src : Nat} (h_s : P s) :
    P (State.changeTotal s code v src) := by
  unfold Sys2Proof.Machine.State.changeTotal
  repeat' first
    | (with_reducible first | assumption | apply ite_keep | apply kp.shedBudget | apply kp.setTotal)
    | intro _ | dsimp only | split | with_reducible apply kp.rest

theorem Keep.shedFlow {P : State → Prop} (kp : Keep P) {s : State} {k : Nat} (h_s : P s) :
    P (State.shedFlow s k) := by
  unfold Sys2Proof.Machine.State.shedFlow
  repeat' first
    | (with_reducible first | assumption | apply ite_keep | apply kp.shedEvent | apply kp.endMig
                            | apply kp.leaveGroups | apply kp.rxGone | apply kp.refreshRx | apply kp.setRx
                            | apply kp.raise)
    | intro _ | dsimp only | split | with_reducible apply kp.rest

theorem Keep.shedFlows {P : State → Prop} (kp : Keep P) {x0 : Nat} {x1 : State} (h_x1 : P x1) :
    P (State.shedFlows x0 x1) := by
  induction x0 generalizing x1 with
  | zero => exact h_x1
  | succ n ih =>
    unfold Sys2Proof.Machine.State.shedFlows
    repeat' first
      | (with_reducible first | assumption | apply ite_keep | apply ih | apply kp.shedFlow)
      | intro _ | dsimp only | split

theorem Keep.rehome {P : State → Prop} (kp : Keep P) {s : State} (h_s : P s) :
    P (State.rehome s) := by
  unfold Sys2Proof.Machine.State.rehome
  repeat' first
    | (with_reducible first | assumption | apply ite_keep | apply kp.setCmp)
    | intro _ | dsimp only | split | with_reducible apply kp.rest

theorem Keep.opStackFail {P : State → Prop} (kp : Keep P) {k : Nat} {s : State} (h_s : P s) :
    P (opStackFail k s) := by
  unfold Sys2Proof.Machine.opStackFail
  repeat' first
    | (with_reducible first | assumption | apply ite_keep | apply kp.rehome | apply kp.shedFlows
                            | apply kp.changeTotal | apply kp.shedOne | apply kp.raise | apply kp.each
                            | apply kp.setBit | apply kp.setFld)
    | intro _ | dsimp only | split | with_reducible apply kp.rest

end Sys2Proof.Machine
end

