-- ==== Sys2Proof/Laws/KeepFabric.lean ====
section
/-! SUPPORT. The operations of Machine/Fabric.lean keep every property that single writes keep. -/

namespace Sys2Proof.Machine

open Sys2Proof

theorem Keep.setBlane {P : State → Prop} (kp : Keep P) {s : State} {j : Nat} {x : BLaneCtl} (h_s : P s) :
    P (State.setBlane s j x) := by
  unfold Sys2Proof.Machine.State.setBlane
  repeat' first
    | (with_reducible first | assumption | apply ite_keep | apply kp.setBlk)
    | intro _ | dsimp only | split | with_reducible apply kp.rest

theorem Keep.setTrunk {P : State → Prop} (kp : Keep P) {s : State} {t : Nat} {x : TrunkCtl} (h_s : P s) :
    P (State.setTrunk s t x) := by
  unfold Sys2Proof.Machine.State.setTrunk
  repeat' first
    | (with_reducible first | assumption | apply ite_keep | apply kp.setBlk)
    | intro _ | dsimp only | split | with_reducible apply kp.rest

theorem Keep.blkRefuse {P : State → Prop} (kp : Keep P) {s : State} (h_s : P s) :
    P (State.blkRefuse s) := by
  unfold Sys2Proof.Machine.State.blkRefuse
  repeat' first
    | (with_reducible first | assumption | apply ite_keep | apply kp.raise | apply kp.setBit)
    | intro _ | dsimp only | split | with_reducible apply kp.rest

theorem Keep.refreshLanes {P : State → Prop} (kp : Keep P) {s : State} (h_s : P s) :
    P (State.refreshLanes s) := by
  unfold Sys2Proof.Machine.State.refreshLanes
  repeat' first
    | (with_reducible first | assumption | apply ite_keep | apply kp.each | apply kp.setFld)
    | intro _ | dsimp only | split | with_reducible apply kp.rest

theorem Keep.retotal {P : State → Prop} (kp : Keep P) {s : State} {n : Nat} (h_s : P s) :
    P (State.retotal s n) := by
  unfold Sys2Proof.Machine.State.retotal
  repeat' first
    | (with_reducible first | assumption | apply ite_keep | apply kp.changeTotal | apply kp.when)
    | intro _ | dsimp only | split | with_reducible apply kp.rest

theorem Keep.releaseHeld {P : State → Prop} (kp : Keep P) {s : State} {a : Alloc} (h_s : P s) :
    P (State.releaseHeld s a) := by
  unfold Sys2Proof.Machine.State.releaseHeld
  repeat' first
    | (with_reducible first | assumption | apply ite_keep | apply kp.shedOne)
    | intro _ | dsimp only | split | with_reducible apply kp.rest

theorem Keep.emptyTrack {P : State → Prop} (kp : Keep P) {s : State} {k : Nat} (h_s : P s) :
    P (State.emptyTrack s k) := by
  unfold Sys2Proof.Machine.State.emptyTrack
  repeat' first
    | (with_reducible first | assumption | apply ite_keep | apply kp.reportFormat)
    | intro _ | dsimp only | split | with_reducible apply kp.rest

theorem Keep.trunkDown {P : State → Prop} (kp : Keep P) {s : State} {t : Nat} (h_s : P s) :
    P (State.trunkDown s t) := by
  unfold Sys2Proof.Machine.State.trunkDown
  repeat' first
    | (with_reducible first | assumption | apply ite_keep | apply kp.emptyTrack | apply kp.releaseHeld
                            | apply kp.changeTotal | apply kp.each | apply kp.setBit)
    | intro _ | dsimp only | split | with_reducible apply kp.rest

theorem Keep.dropRelays {P : State → Prop} (kp : Keep P) {s : State} {k : Nat} (h_s : P s) :
    P (State.dropRelays s k) := by
  unfold Sys2Proof.Machine.State.dropRelays
  repeat' first
    | (with_reducible first | assumption | apply ite_keep | apply kp.setBlk)
    | intro _ | dsimp only | split | with_reducible apply kp.rest

theorem Keep.countLost {P : State → Prop} (kp : Keep P) {s : State} {n : Nat} (h_s : P s) :
    P (State.countLost s n) := by
  unfold Sys2Proof.Machine.State.countLost
  repeat' first
    | (with_reducible first | assumption | apply ite_keep | apply kp.raise | apply kp.incBy)
    | intro _ | dsimp only | split | with_reducible apply kp.rest

theorem Keep.settleRr {P : State → Prop} (kp : Keep P) {s : State} (h_s : P s) :
    P (State.settleRr s) := by
  unfold Sys2Proof.Machine.State.settleRr
  repeat' first
    | (with_reducible first | assumption | apply ite_keep | apply kp.setBlk | apply kp.setBit)
    | intro _ | dsimp only | split | with_reducible apply kp.rest

theorem Keep.unsync {P : State → Prop} (kp : Keep P) {s : State} {k : Nat} (h_s : P s) :
    P (State.unsync s k) := by
  unfold Sys2Proof.Machine.State.unsync
  repeat' first
    | (with_reducible first | assumption | apply ite_keep | apply kp.setBlane | apply kp.each)
    | intro _ | dsimp only | split | with_reducible apply kp.rest

theorem Keep.forgetGone {P : State → Prop} (kp : Keep P) {s : State} (h_s : P s) :
    P (State.forgetGone s) := by
  unfold Sys2Proof.Machine.State.forgetGone
  repeat' first
    | (with_reducible first | assumption | apply ite_keep | apply kp.setBlk)
    | intro _ | dsimp only | split | with_reducible apply kp.rest

theorem Keep.linkLeaves {P : State → Prop} (kp : Keep P) {s : State} {k : Nat} {st : Nat} (h_s : P s) :
    P (State.linkLeaves s k st) := by
  unfold Sys2Proof.Machine.State.linkLeaves
  repeat' first
    | (with_reducible first | assumption | apply ite_keep | apply kp.forgetGone | apply kp.unsync | apply kp.settleRr
                            | apply kp.countLost | apply kp.dropRelays | apply kp.trunkDown | apply kp.setTrunk
                            | apply kp.salvoPaths | apply kp.blkHist | apply kp.setLink | apply kp.setBlk
                            | apply kp.setBit | apply kp.setFld)
    | intro _ | dsimp only | split | with_reducible apply kp.rest

theorem Keep.badLine {P : State → Prop} (kp : Keep P) {s : State} {t : Nat} {x : Nat × Nat} (h_s : P s) :
    P (State.badLine s t x) := by
  unfold Sys2Proof.Machine.State.badLine
  repeat' first
    | (with_reducible first | assumption | apply ite_keep | apply kp.opErroredLine | apply kp.setBlk | apply kp.inc)
    | intro _ | dsimp only | split | with_reducible apply kp.rest

theorem Keep.badLines {P : State → Prop} (kp : Keep P) {s : State} {k : Nat} {lines : List (Nat × Nat)} (h_s : P s) :
    P (State.badLines s k lines) := by
  unfold Sys2Proof.Machine.State.badLines
  repeat' first
    | (with_reducible first | assumption | apply ite_keep | apply kp.badLine | apply kp.each)
    | intro _ | dsimp only | split | with_reducible apply kp.rest

theorem Keep.opBlockLock {P : State → Prop} (kp : Keep P) {j : Nat} {lines : List (Nat × Nat)} {s : State} (h_s : P s) :
    P (opBlockLock j lines s) := by
  unfold Sys2Proof.Machine.opBlockLock
  repeat' first
    | (with_reducible first | assumption | apply ite_keep | apply kp.badLines | apply kp.setBlane | apply kp.sendNak
                            | apply kp.blkHist | apply kp.setBlk | apply kp.when | apply kp.incBy | apply kp.setBit)
    | intro _ | dsimp only | split | with_reducible apply kp.rest

theorem Keep.opBlockLockLoss {P : State → Prop} (kp : Keep P) {j : Nat} {los : Bool} {s : State} (h_s : P s) :
    P (opBlockLockLoss j los s) := by
  unfold Sys2Proof.Machine.opBlockLockLoss
  repeat' first
    | (with_reducible first | assumption | apply ite_keep | apply kp.linkLeaves | apply kp.setBlk | apply kp.when
                            | apply kp.setBit)
    | intro _ | dsimp only | split | with_reducible apply kp.rest

theorem Keep.opLockTimeout {P : State → Prop} (kp : Keep P) {j : Nat} {s : State} (h_s : P s) :
    P (opLockTimeout j s) := by
  unfold Sys2Proof.Machine.opLockTimeout
  repeat' first
    | (with_reducible first | assumption | apply ite_keep | apply kp.linkLeaves)
    | intro _ | dsimp only | split | with_reducible apply kp.rest

theorem Keep.reportInbound {P : State → Prop} (kp : Keep P) {s : State} {t : Nat} {x : Nat × Nat} (h_s : P s) :
    P (State.reportInbound s t x) := by
  unfold Sys2Proof.Machine.State.reportInbound
  repeat' first
    | (with_reducible first | assumption | apply ite_keep | apply kp.reportPid | apply kp.reportFormat)
    | intro _ | dsimp only | split | with_reducible apply kp.rest

theorem Keep.ownTaps {P : State → Prop} (kp : Keep P) {s : State} {j : Nat} {t : Nat × Nat} {a : TapAnswer} (h_s : P s) :
    P (State.ownTaps s j t a) := by
  unfold Sys2Proof.Machine.State.ownTaps
  repeat' first
    | (with_reducible first | assumption | apply ite_keep | apply kp.setBlane | apply kp.emit)
    | intro _ | dsimp only | split | with_reducible apply kp.rest

theorem Keep.setTaps {P : State → Prop} (kp : Keep P) {s : State} {j : Nat} {t : Nat × Nat} (h_s : P s) :
    P (State.setTaps s j t) := by
  unfold Sys2Proof.Machine.State.setTaps
  repeat' first
    | (with_reducible first | assumption | apply ite_keep | apply kp.setFld)
    | intro _ | dsimp only | split | with_reducible apply kp.rest

theorem Keep.defaultTaps {P : State → Prop} (kp : Keep P) {s : State} {k : Nat} (h_s : P s) :
    P (State.defaultTaps s k) := by
  unfold Sys2Proof.Machine.State.defaultTaps
  repeat' first
    | (with_reducible first | assumption | apply ite_keep | apply kp.setTaps | apply kp.ownTaps | apply kp.each)
    | intro _ | dsimp only | split | with_reducible apply kp.rest

theorem Keep.trainFail {P : State → Prop} (kp : Keep P) {s : State} {k : Nat} (h_s : P s) :
    P (State.trainFail s k) := by
  unfold Sys2Proof.Machine.State.trainFail
  repeat' first
    | (with_reducible first | assumption | apply ite_keep | apply kp.defaultTaps | apply kp.unsync | apply kp.blkHist
                            | apply kp.setLink | apply kp.inc | apply kp.setFld)
    | intro _ | dsimp only | split | with_reducible apply kp.rest

theorem Keep.sendJoin {P : State → Prop} (kp : Keep P) {s : State} {k : Nat} {t : Nat × BitVec 64} (h_s : P s) :
    P (State.sendJoin s k t) := by
  unfold Sys2Proof.Machine.State.sendJoin
  repeat' first
    | (with_reducible first | assumption | apply ite_keep | apply kp.sendOn | apply kp.emit)
    | intro _ | dsimp only | split | with_reducible apply kp.rest

theorem Keep.startElection {P : State → Prop} (kp : Keep P) {s : State} {k : Nat} (h_s : P s) :
    P (State.startElection s k) := by
  unfold Sys2Proof.Machine.State.startElection
  repeat' first
    | (with_reducible first | assumption | apply ite_keep | apply kp.sendJoin | apply kp.setBlk | apply kp.when
                            | apply kp.each | apply kp.setFld)
    | intro _ | dsimp only | split | with_reducible apply kp.rest

theorem Keep.offerTrunk {P : State → Prop} (kp : Keep P) {s : State} {t : Nat} (h_s : P s) :
    P (State.offerTrunk s t) := by
  unfold Sys2Proof.Machine.State.offerTrunk
  repeat' first
    | (with_reducible first | assumption | apply ite_keep | apply kp.sendOn | apply kp.blkHist | apply kp.each
                            | apply kp.emit)
    | intro _ | dsimp only | split | with_reducible apply kp.rest

theorem Keep.settleTrunk {P : State → Prop} (kp : Keep P) {s : State} {t : Nat} (h_s : P s) :
    P (State.settleTrunk s t) := by
  unfold Sys2Proof.Machine.State.settleTrunk
  repeat' first
    | (with_reducible first | assumption | apply ite_keep | apply kp.trunkDown | apply kp.setTrunk
                            | apply kp.changeTotal | apply kp.setBit)
    | intro _ | dsimp only | split | with_reducible apply kp.rest

theorem Keep.seeFar {P : State → Prop} (kp : Keep P) {s : State} {k : Nat} {far : FarEnd} (h_s : P s) :
    P (State.seeFar s k far) := by
  unfold Sys2Proof.Machine.State.seeFar
  repeat' first
    | (with_reducible first | assumption | apply ite_keep | apply kp.setLink | apply kp.signal | apply kp.when
                            | apply kp.each | apply kp.setBit)
    | intro _ | dsimp only | split | with_reducible apply kp.rest

theorem Keep.numberPeer {P : State → Prop} (kp : Keep P) {s : State} {k : Nat} (h_s : P s) :
    P (State.numberPeer s k) := by
  unfold Sys2Proof.Machine.State.numberPeer
  repeat' first
    | (with_reducible first | assumption | apply ite_keep | apply kp.setBit | apply kp.setFld)
    | intro _ | dsimp only | split | with_reducible apply kp.rest

theorem Keep.opTrainingAdvance {P : State → Prop} (kp : Keep P) {k : Nat} {far : FarEnd} {s : State} (h_s : P s) :
    P (opTrainingAdvance k far s) := by
  unfold Sys2Proof.Machine.opTrainingAdvance
  repeat' first
    | (with_reducible first | assumption | apply ite_keep | apply kp.numberPeer | apply kp.seeFar
                            | apply kp.offerTrunk | apply kp.startElection | apply kp.trainFail | apply kp.blkHist
                            | apply kp.setLink | apply kp.when | apply kp.setFld | apply kp.wr)
    | intro _ | dsimp only | split | with_reducible apply kp.rest

theorem Keep.opTapRequest {P : State → Prop} (kp : Keep P) {j : Nat} {q : TapReq} {far : Bool} {s : State} (h_s : P s) :
    P (opTapRequest j q far s) := by
  unfold Sys2Proof.Machine.opTapRequest
  repeat' first
    | (with_reducible first | assumption | apply ite_keep | apply kp.trainFail | apply kp.setTaps | apply kp.ownTaps
                            | apply kp.setBlane | apply kp.blkHist | apply kp.setLink | apply kp.setFld)
    | intro _ | dsimp only | split | with_reducible apply kp.rest

theorem Keep.opPhaseTimeout {P : State → Prop} (kp : Keep P) {k : Nat} {s : State} (h_s : P s) :
    P (opPhaseTimeout k s) := by
  unfold Sys2Proof.Machine.opPhaseTimeout
  repeat' first
    | (with_reducible first | assumption | apply ite_keep | apply kp.trainFail)
    | intro _ | dsimp only | split | with_reducible apply kp.rest

theorem Keep.opBackoffExpiry {P : State → Prop} (kp : Keep P) {k : Nat} {s : State} (h_s : P s) :
    P (opBackoffExpiry k s) := by
  unfold Sys2Proof.Machine.opBackoffExpiry
  repeat' first
    | (with_reducible first | assumption | apply ite_keep | apply kp.setLink)
    | intro _ | dsimp only | split | with_reducible apply kp.rest

theorem Keep.opLinkCfg {P : State → Prop} (kp : Keep P) {k : Nat} {v : Word} {s : State} (h_s : P s) :
    P (opLinkCfg k v s) := by
  unfold Sys2Proof.Machine.opLinkCfg
  repeat' first
    | (with_reducible first | assumption | apply ite_keep | apply kp.defaultTaps | apply kp.linkLeaves
                            | apply kp.unsync | apply kp.retotal | apply kp.refreshLanes | apply kp.blkRefuse
                            | apply kp.startDomain | apply kp.abandonSlice | apply kp.setLink | apply kp.fieldWrite
                            | apply kp.each | apply kp.setFld)
    | intro _ | dsimp only | split | with_reducible apply kp.rest

theorem Keep.opLaneCfg {P : State → Prop} (kp : Keep P) {j : Nat} {v : Word} {s : State} (h_s : P s) :
    P (opLaneCfg j v s) := by
  unfold Sys2Proof.Machine.opLaneCfg
  repeat' first
    | (with_reducible first | assumption | apply ite_keep | apply kp.retotal | apply kp.refreshLanes
                            | apply kp.blkRefuse | apply kp.fieldWrite)
    | intro _ | dsimp only | split | with_reducible apply kp.rest

theorem Keep.opTrunkSlot {P : State → Prop} (kp : Keep P) {t : Nat} {inbound : Bool} {v : Word} {s : State} (h_s : P s) :
    P (opTrunkSlot t inbound v s) := by
  unfold Sys2Proof.Machine.opTrunkSlot
  repeat' first
    | (with_reducible first | assumption | apply ite_keep | apply kp.settleTrunk | apply kp.offerTrunk
                            | apply kp.blkRefuse | apply kp.fieldWrite)
    | intro _ | dsimp only | split | with_reducible apply kp.rest

theorem Keep.opTrunkup {P : State → Prop} (kp : Keep P) {t : Nat} {cnt : Nat} {back : Bool} {s : State} (h_s : P s) :
    P (opTrunkup t cnt back s) := by
  unfold Sys2Proof.Machine.opTrunkup
  repeat' first
    | (with_reducible first | assumption | apply ite_keep | apply kp.settleTrunk | apply kp.setTrunk
                            | apply kp.blkHist | apply kp.each)
    | intro _ | dsimp only | split | with_reducible apply kp.rest

theorem Keep.ownFlit {P : State → Prop} (kp : Keep P) {s : State} {k : Nat} {vc : Nat} {first : Bool} {last : Bool} {pay : BitVec 96} (h_s : P s) :
    P (State.ownFlit s k vc first last pay) := by
  unfold Sys2Proof.Machine.State.ownFlit
  repeat' first
    | (with_reducible first | assumption | apply ite_keep | apply kp.setLink | apply kp.when | apply kp.inc)
    | intro _ | dsimp only | split | with_reducible apply kp.rest

theorem Keep.setRelay {P : State → Prop} (kp : Keep P) {s : State} {k : Nat} {vc : Nat} {m : Nat} {last : Bool} (h_s : P s) :
    P (State.setRelay s k vc m last) := by
  unfold Sys2Proof.Machine.State.setRelay
  repeat' first
    | (with_reducible first | assumption | apply ite_keep | apply kp.setLink)
    | intro _ | dsimp only | split | with_reducible apply kp.rest

theorem Keep.relayFirst {P : State → Prop} (kp : Keep P) {s : State} {k : Nat} {vc : Nat} {dst : Nat} {last : Bool} {pay : BitVec 96} (h_s : P s) :
    P (State.relayFirst s k vc dst last pay) := by
  unfold Sys2Proof.Machine.State.relayFirst
  repeat' first
    | (with_reducible first | assumption | apply ite_keep | apply kp.setRelay | apply kp.countLost
                            | apply kp.queueFlits | apply kp.when | apply kp.inc)
    | intro _ | dsimp only | split | with_reducible apply kp.rest

theorem Keep.takeFlit {P : State → Prop} (kp : Keep P) {s : State} {k : Nat} {f : BitVec 128} (h_s : P s) :
    P (State.takeFlit s k f) := by
  unfold Sys2Proof.Machine.State.takeFlit
  repeat' first
    | (with_reducible first | assumption | apply ite_keep | apply kp.relayFirst | apply kp.setRelay | apply kp.ownFlit
                            | apply kp.queueFlits)
    | intro _ | dsimp only | split | with_reducible apply kp.rest

theorem Keep.opFlit {P : State → Prop} (kp : Keep P) {k : Nat} {f : BitVec 128} {s : State} (h_s : P s) :
    P (opFlit k f s) := by
  unfold Sys2Proof.Machine.opFlit
  repeat' first
    | (with_reducible first | assumption | apply ite_keep | apply kp.takeFlit | apply kp.settleRr | apply kp.pumpLink
                            | apply kp.replay | apply kp.sendNak | apply kp.setLink | apply kp.when)
    | intro _ | dsimp only | split | with_reducible apply kp.rest

theorem Keep.opFlitTimeout {P : State → Prop} (kp : Keep P) {k : Nat} {s : State} (h_s : P s) :
    P (opFlitTimeout k s) := by
  unfold Sys2Proof.Machine.opFlitTimeout
  repeat' first
    | (with_reducible first | assumption | apply ite_keep | apply kp.replay)
    | intro _ | dsimp only | split | with_reducible apply kp.rest

theorem Keep.opReplayfail {P : State → Prop} (kp : Keep P) {k : Nat} {s : State} (h_s : P s) :
    P (opReplayfail k s) := by
  unfold Sys2Proof.Machine.opReplayfail
  repeat' first
    | (with_reducible first | assumption | apply ite_keep | apply kp.linkLeaves | apply kp.blkHist)
    | intro _ | dsimp only | split | with_reducible apply kp.rest

theorem Keep.opStreamParity {P : State → Prop} (kp : Keep P) {k : Nat} {s : State} (h_s : P s) :
    P (opStreamParity k s) := by
  unfold Sys2Proof.Machine.opStreamParity
  repeat' first
    | (with_reducible first | assumption | apply ite_keep | apply kp.linkLeaves)
    | intro _ | dsimp only | split | with_reducible apply kp.rest

theorem Keep.drawFields {P : State → Prop} (kp : Keep P) {s : State} {k : Nat} (h_s : P s) :
    P (State.drawFields s k) := by
  unfold Sys2Proof.Machine.State.drawFields
  repeat' first
    | (with_reducible first | assumption | apply ite_keep | apply kp.idleFlit | apply kp.setLink | apply kp.take
                            | apply kp.each)
    | intro _ | dsimp only | split | with_reducible apply kp.rest

theorem Keep.nextField {P : State → Prop} (kp : Keep P) {s : State} {k : Nat} {p : Nat} (h_s : P s) :
    P (State.nextField s k p).2 := by
  unfold Sys2Proof.Machine.State.nextField
  repeat' first
    | (with_reducible first | assumption | apply ite_keep | apply kp.drawFields | apply kp.setLink)
    | intro _ | dsimp only | split | with_reducible apply kp.rest

theorem Keep.sendLane {P : State → Prop} (kp : Keep P) {s : State} {k : Nat} {j : Nat} {out : BitVec 1536} (h_s : P s) :
    P (State.sendLane s k j out) := by
  unfold Sys2Proof.Machine.State.sendLane
  repeat' first
    | (with_reducible first | assumption | apply ite_keep | apply kp.nextField | apply kp.setBlane | apply kp.when
                            | apply kp.emit | apply kp.inc)
    | intro _ | dsimp only | split | with_reducible apply kp.rest

theorem Keep.ctrlField {P : State → Prop} (kp : Keep P) {s : State} {k : Nat} {n : Nat} {p : Nat} {c : Option (BitVec 16)} (h_s : P s) :
    P (State.ctrlField s k n p c).2 := by
  unfold Sys2Proof.Machine.State.ctrlField
  repeat' first
    | (with_reducible first | assumption | apply ite_keep | apply kp.setLink)
    | intro _ | dsimp only | split | with_reducible apply kp.rest

theorem Keep.blockBad {P : State → Prop} (kp : Keep P) {s : State} {k : Nat} {j : Nat} {lines : List (Nat × Nat)} (h_s : P s) :
    P (State.blockBad s k j lines).2 := by
  unfold Sys2Proof.Machine.State.blockBad
  repeat' first
    | (with_reducible first | assumption | apply ite_keep | apply kp.ctrlField | apply kp.badLines | apply kp.sendNak
                            | apply kp.blkHist | apply kp.setLink | apply kp.inc)
    | intro _ | dsimp only | split | with_reducible apply kp.rest

theorem Keep.blockGood {P : State → Prop} (kp : Keep P) {s : State} {k : Nat} {j : Nat} {hdr : BitVec 13} {ctrl : BitVec 16} {formats : List (Nat × Nat)} (h_s : P s) :
    P (State.blockGood s k j hdr ctrl formats).2 := by
  unfold Sys2Proof.Machine.State.blockGood
  repeat' first
    | (with_reducible first | assumption | apply ite_keep | apply kp.ctrlField | apply kp.reportInbound
                            | apply kp.setLink | apply kp.each | apply kp.setFld)
    | intro _ | dsimp only | split | with_reducible apply kp.rest

theorem Keep.takeBlock {P : State → Prop} (kp : Keep P) {s : State} {k : Nat} {j : Nat} {line : List Bool} {lines : List (Nat × Nat)} {formats : List (Nat × Nat)} (h_s : P s) :
    P (State.takeBlock s k j line lines formats).2 := by
  unfold Sys2Proof.Machine.State.takeBlock
  repeat' first
    | (with_reducible first | assumption | apply ite_keep | apply kp.blockGood | apply kp.blockBad | apply kp.setBlane)
    | intro _ | dsimp only | split | with_reducible apply kp.rest

theorem Keep.opBlockReceived {P : State → Prop} (kp : Keep P) {j : Nat} {line : BitVec 1600} {out : BitVec 1536} {lines : List (Nat × Nat)} {formats : List (Nat × Nat)} {s : State} (h_s : P s) :
    P (opBlockReceived j line out lines formats s).2 := by
  unfold Sys2Proof.Machine.opBlockReceived
  repeat' first
    | (with_reducible first | assumption | apply ite_keep | apply kp.takeBlock | apply kp.sendLane)
    | intro _ | dsimp only | split | with_reducible apply kp.rest

theorem Keep.setNodes {P : State → Prop} (kp : Keep P) {s : State} {order : List (Nat × BitVec 64)} (h_s : P s) :
    P (State.setNodes s order) := by
  unfold Sys2Proof.Machine.State.setNodes
  repeat' first
    | (with_reducible first | assumption | apply ite_keep | apply kp.setBlk | apply foldl_keep | apply foldl_keep_fst
                            | apply foldl_keep_snd)
    | intro _ | dsimp only | split | with_reducible apply kp.rest

theorem Keep.assignNodes {P : State → Prop} (kp : Keep P) {s : State} {order : List (Nat × BitVec 64)} {ftime : Nat} (h_s : P s) :
    P (State.assignNodes s order ftime) := by
  unfold Sys2Proof.Machine.State.assignNodes
  repeat' first
    | (with_reducible first | assumption | apply ite_keep | apply kp.setNodes | apply kp.numberPeer
                            | apply kp.settleTrunk | apply kp.offerTrunk | apply kp.setBlk | apply kp.take
                            | apply kp.raise | apply kp.when | apply kp.each | apply kp.setBit | apply kp.setFld)
    | intro _ | dsimp only | split | with_reducible apply kp.rest

theorem Keep.assignAll {P : State → Prop} (kp : Keep P) {s : State} {order : List (Nat × BitVec 64)} (h_s : P s) :
    P (State.assignAll s order) := by
  unfold Sys2Proof.Machine.State.assignAll
  repeat' first
    | (with_reducible first | assumption | apply ite_keep | apply kp.assignNodes | apply kp.sendOn | apply kp.each
                            | apply kp.emit)
    | intro _ | dsimp only | split | with_reducible apply kp.rest

theorem Keep.sendAssign {P : State → Prop} (kp : Keep P) {s : State} (h_s : P s) :
    P (State.sendAssign s) := by
  unfold Sys2Proof.Machine.State.sendAssign
  repeat' first
    | (with_reducible first | assumption | apply ite_keep | apply kp.assignAll | apply kp.take)
    | intro _ | dsimp only | split | with_reducible apply kp.rest

theorem Keep.numberLate {P : State → Prop} (kp : Keep P) {s : State} {t : Nat × BitVec 64} (h_s : P s) :
    P (State.numberLate s t) := by
  unfold Sys2Proof.Machine.State.numberLate
  repeat' first
    | (with_reducible first | assumption | apply ite_keep | apply kp.assignAll)
    | intro _ | dsimp only | split | with_reducible apply kp.rest

theorem Keep.opJoin {P : State → Prop} (kp : Keep P) {k : Nat} {prio : Nat} {chip : BitVec 64} {s : State} (h_s : P s) :
    P (opJoin k prio chip s) := by
  unfold Sys2Proof.Machine.opJoin
  repeat' first
    | (with_reducible first | assumption | apply ite_keep | apply kp.numberLate | apply kp.sendAssign
                            | apply kp.sendJoin | apply kp.setBlk | apply kp.each)
    | intro _ | dsimp only | split | with_reducible apply kp.rest

theorem Keep.opAssign {P : State → Prop} (kp : Keep P) {order : List (Nat × BitVec 64)} {ftime : Nat} {s : State} (h_s : P s) :
    P (opAssign order ftime s) := by
  unfold Sys2Proof.Machine.opAssign
  repeat' first
    | (with_reducible first | assumption | apply ite_keep | apply kp.assignNodes)
    | intro _ | dsimp only | split | with_reducible apply kp.rest

theorem Keep.opElectionTimeout {P : State → Prop} (kp : Keep P) {s : State} (h_s : P s) :
    P (opElectionTimeout s) := by
  unfold Sys2Proof.Machine.opElectionTimeout
  repeat' first
    | (with_reducible first | assumption | apply ite_keep | apply kp.sendAssign)
    | intro _ | dsimp only | split | with_reducible apply kp.rest

theorem Keep.opRootchg {P : State → Prop} (kp : Keep P) {reach : List (Nat × BitVec 64)} {s : State} (h_s : P s) :
    P (opRootchg reach s) := by
  unfold Sys2Proof.Machine.opRootchg
  repeat' first
    | (with_reducible first | assumption | apply ite_keep | apply kp.raise | apply kp.setBit)
    | intro _ | dsimp only | split | with_reducible apply kp.rest

theorem Keep.opFtimeSnap {P : State → Prop} (kp : Keep P) {s : State} (h_s : P s) :
    P (opFtimeSnap s) := by
  unfold Sys2Proof.Machine.opFtimeSnap
  repeat' first
    | (with_reducible first | assumption | apply ite_keep | apply kp.wr)
    | intro _ | dsimp only | split | with_reducible apply kp.rest

theorem Keep.opBlkClrcnt {P : State → Prop} (kp : Keep P) {s : State} (h_s : P s) :
    P (opBlkClrcnt s) := by
  unfold Sys2Proof.Machine.opBlkClrcnt
  repeat' first
    | (with_reducible first | assumption | apply ite_keep | apply kp.clearAll)
    | intro _ | dsimp only | split | with_reducible apply kp.rest

end Sys2Proof.Machine
end

