-- ==== Sys2Proof/Laws/KeepDma.lean ====
section
/-! SUPPORT. The operations of Machine/Dma.lean keep every property that single writes keep. -/

namespace Sys2Proof.Machine

open Sys2Proof

theorem Keep.writeBack {P : State → Prop} (kp : Keep P) {s : State} {n : Nat} {i : Nat} {status : Nat} (h_s : P s) :
    P (State.writeBack s n i status) := by
  unfold Sys2Proof.Machine.State.writeBack
  repeat' first
    | (with_reducible first | assumption | apply ite_keep | apply kp.emit)
    | intro _ | dsimp only | split | with_reducible apply kp.rest

theorem Keep.chanHalt {P : State → Prop} (kp : Keep P) {s : State} {n : Nat} {cause : Nat} (h_s : P s) :
    P (State.chanHalt s n cause) := by
  unfold Sys2Proof.Machine.State.chanHalt
  repeat' first
    | (with_reducible first | assumption | apply ite_keep | apply kp.raise | apply kp.haltChannel)
    | intro _ | dsimp only | split | with_reducible apply kp.rest

theorem Keep.request {P : State → Prop} (kp : Keep P) {s : State} {r : Req} {m : Nat → Msg} (h_s : P s) :
    P (State.request s r m) := by
  unfold Sys2Proof.Machine.State.request
  repeat' first
    | (with_reducible first | assumption | apply ite_keep | apply kp.sendRemote | apply kp.setBlk)
    | intro _ | dsimp only | split | with_reducible apply kp.rest

theorem Keep.posted {P : State → Prop} (kp : Keep P) {s : State} {node : Nat} {m : Msg} (h_s : P s) :
    P (State.posted s node m) := by
  unfold Sys2Proof.Machine.State.posted
  repeat' first
    | (with_reducible first | assumption | apply ite_keep | apply kp.countLost | apply kp.sendRemote)
    | intro _ | dsimp only | split | with_reducible apply kp.rest

theorem Keep.rrLost {P : State → Prop} (kp : Keep P) {s : State} (h_s : P s) :
    P (State.rrLost s) := by
  unfold Sys2Proof.Machine.State.rrLost
  repeat' first
    | (with_reducible first | assumption | apply ite_keep | apply kp.setBit | apply kp.setFld | apply kp.wr)
    | intro _ | dsimp only | split | with_reducible apply kp.rest

theorem Keep.pumpRead {P : State → Prop} (kp : Keep P) {s : State} (h_s : P s) :
    P (State.pumpRead s) := by
  unfold Sys2Proof.Machine.State.pumpRead
  repeat' first
    | (with_reducible first | assumption | apply ite_keep | apply kp.rrLost | apply kp.request)
    | intro _ | dsimp only | split | with_reducible apply kp.rest

theorem Keep.beginBurst {P : State → Prop} (kp : Keep P) {s : State} {n : Nat} {b : Nat} (h_s : P s) :
    P (State.beginBurst s n b) := by
  unfold Sys2Proof.Machine.State.beginBurst
  repeat' first
    | (with_reducible first | assumption | apply ite_keep | apply kp.setChan | apply kp.setFld)
    | intro _ | dsimp only | split | with_reducible apply kp.rest

theorem Keep.pumpChan {P : State → Prop} (kp : Keep P) {s : State} {n : Nat} (h_s : P s) :
    P (State.pumpChan s n) := by
  unfold Sys2Proof.Machine.State.pumpChan
  repeat' first
    | (with_reducible first | assumption | apply ite_keep | apply kp.beginBurst | apply kp.request | apply kp.chanHalt
                            | apply kp.each)
    | intro _ | dsimp only | split | with_reducible apply kp.rest

theorem Keep.pumpAll {P : State → Prop} (kp : Keep P) {s : State} (h_s : P s) :
    P (State.pumpAll s) := by
  unfold Sys2Proof.Machine.State.pumpAll
  repeat' first
    | (with_reducible first | assumption | apply ite_keep | apply kp.pumpChan | apply kp.pumpRead | apply kp.each)
    | intro _ | dsimp only | split | with_reducible apply kp.rest

theorem Keep.chanStart {P : State → Prop} (kp : Keep P) {s : State} {n : Nat} (h_s : P s) :
    P (State.chanStart s n) := by
  unfold Sys2Proof.Machine.State.chanStart
  repeat' first
    | (with_reducible first | assumption | apply ite_keep | apply kp.setFld)
    | intro _ | dsimp only | split | with_reducible apply kp.rest

theorem Keep.endDesc {P : State → Prop} (kp : Keep P) {s : State} {n : Nat} {d : Desc} (h_s : P s) :
    P (State.endDesc s n d) := by
  unfold Sys2Proof.Machine.State.endDesc
  repeat' first
    | (with_reducible first | assumption | apply ite_keep | apply kp.writeBack | apply kp.setChan | apply kp.when
                            | apply kp.setBit | apply kp.setFld)
    | intro _ | dsimp only | split | with_reducible apply kp.rest

theorem Keep.endBurst {P : State → Prop} (kp : Keep P) {s : State} {n : Nat} {d : Desc} (h_s : P s) :
    P (State.endBurst s n d) := by
  unfold Sys2Proof.Machine.State.endBurst
  repeat' first
    | (with_reducible first | assumption | apply ite_keep | apply kp.endDesc | apply kp.pumpChan | apply kp.setChan
                            | apply kp.setFld | apply kp.wr)
    | intro _ | dsimp only | split | with_reducible apply kp.rest

theorem Keep.chanResume {P : State → Prop} (kp : Keep P) {s : State} {n : Nat} (h_s : P s) :
    P (State.chanResume s n) := by
  unfold Sys2Proof.Machine.State.chanResume
  repeat' first
    | (with_reducible first | assumption | apply ite_keep | apply kp.pumpChan | apply kp.setChan | apply kp.dropReqs
                            | apply kp.setFld)
    | intro _ | dsimp only | split | with_reducible apply kp.rest

theorem Keep.chanAbort {P : State → Prop} (kp : Keep P) {s : State} {n : Nat} (h_s : P s) :
    P (State.chanAbort s n) := by
  unfold Sys2Proof.Machine.State.chanAbort
  repeat' first
    | (with_reducible first | assumption | apply ite_keep | apply kp.writeBack | apply kp.setChan | apply kp.dropReqs
                            | apply kp.each | apply kp.setFld)
    | intro _ | dsimp only | split | with_reducible apply kp.rest

theorem Keep.opDmaCtrl {P : State → Prop} (kp : Keep P) {n : Nat} {v : Word} {s : State} (h_s : P s) :
    P (opDmaCtrl n v s) := by
  unfold Sys2Proof.Machine.opDmaCtrl
  repeat' first
    | (with_reducible first | assumption | apply ite_keep | apply kp.chanAbort | apply kp.chanResume
                            | apply kp.chanStart | apply kp.pumpChan | apply kp.fieldWrite | apply kp.raise
                            | apply kp.setChan | apply kp.dropReqs | apply kp.setFld)
    | intro _ | dsimp only | split | with_reducible apply kp.rest

theorem Keep.opDmaPidx {P : State → Prop} (kp : Keep P) {n : Nat} {v : Word} {s : State} (h_s : P s) :
    P (opDmaPidx n v s) := by
  unfold Sys2Proof.Machine.opDmaPidx
  repeat' first
    | (with_reducible first | assumption | apply ite_keep | apply kp.chanStart | apply kp.fieldWrite)
    | intro _ | dsimp only | split | with_reducible apply kp.rest

theorem Keep.opDmaRbase {P : State → Prop} (kp : Keep P) {n : Nat} {a : Nat} {v : Word} {s : State} (h_s : P s) :
    P (opDmaRbase n a v s) := by
  unfold Sys2Proof.Machine.opDmaRbase
  repeat' first
    | (with_reducible first | assumption | apply ite_keep | apply kp.fieldWrite | apply kp.raise)
    | intro _ | dsimp only | split | with_reducible apply kp.rest

theorem Keep.opDescFetch {P : State → Prop} (kp : Keep P) {n : Nat} {e : BitVec 256} {s : State} (h_s : P s) :
    P (opDescFetch n e s) := by
  unfold Sys2Proof.Machine.opDescFetch
  repeat' first
    | (with_reducible first | assumption | apply ite_keep | apply kp.pumpChan | apply kp.chanHalt | apply kp.writeBack
                            | apply kp.raise | apply kp.setChan)
    | intro _ | dsimp only | split | with_reducible apply kp.rest

theorem Keep.opDmaRequest {P : State → Prop} (kp : Keep P) {line : Nat} {s : State} (h_s : P s) :
    P (opDmaRequest line s) := by
  unfold Sys2Proof.Machine.opDmaRequest
  repeat' first
    | (with_reducible first | assumption | apply ite_keep | apply kp.pumpChan | apply kp.each | apply kp.inc
                            | apply kp.setBit)
    | intro _ | dsimp only | split | with_reducible apply kp.rest

theorem KeepAll.opBurstDone {P : State → Prop} (kp : KeepAll P) {n : Nat} {data : List Byte} {s : State} (h_s : P s) :
    P (opBurstDone n data s) := by
  unfold Sys2Proof.Machine.opBurstDone
  repeat' first
    | (with_reducible first | assumption | apply ite_keep | apply kp.mem | apply kp.toKeep.endBurst
                            | apply kp.toKeep.posted | apply kp.toKeep.take | apply kp.toKeep.each
                            | apply kp.toKeep.emit)
    | intro _ | dsimp only | split | with_reducible apply kp.toKeep.rest

theorem Keep.opCommandBurstFail {P : State → Prop} (kp : Keep P) {n : Nat} {moved : Nat} {s : State} (h_s : P s) :
    P (opCommandBurstFail n moved s) := by
  unfold Sys2Proof.Machine.opCommandBurstFail
  repeat' first
    | (with_reducible first | assumption | apply ite_keep | apply kp.failChannel | apply kp.countBytes
                            | apply kp.raise | apply kp.svcAborted | apply kp.noteAddr | apply kp.setChan
                            | apply kp.setFld)
    | intro _ | dsimp only | split | with_reducible apply kp.rest

theorem Keep.opBurstFail {P : State → Prop} (kp : Keep P) {n : Nat} {moved : Nat} {s : State} (h_s : P s) :
    P (opBurstFail n moved s) := by
  unfold Sys2Proof.Machine.opBurstFail
  repeat' first
    | (with_reducible first | assumption | apply ite_keep | apply kp.opCommandBurstFail | apply kp.chanHalt
                            | apply kp.raise | apply kp.setChan | apply kp.setFld)
    | intro _ | dsimp only | split | with_reducible apply kp.rest

theorem Keep.opRetryTimer {P : State → Prop} (kp : Keep P) {n : Nat} {s : State} (h_s : P s) :
    P (opRetryTimer n s) := by
  unfold Sys2Proof.Machine.opRetryTimer
  repeat' first
    | (with_reducible first | assumption | apply ite_keep | apply kp.setChan)
    | intro _ | dsimp only | split | with_reducible apply kp.rest

theorem Keep.eccCommand {P : State → Prop} (kp : Keep P) {s : State} {n : Nat} (h_s : P s) :
    P (State.eccCommand s n) := by
  unfold Sys2Proof.Machine.State.eccCommand
  repeat' first
    | (with_reducible first | assumption | apply ite_keep | apply kp.failChannel | apply kp.svcAborted
                            | apply kp.noteAddr | apply kp.setFld)
    | intro _ | dsimp only | split | with_reducible apply kp.rest

theorem Keep.opEccunc {P : State → Prop} (kp : Keep P) {r : EccReader} {s : State} (h_s : P s) :
    P (opEccunc r s) := by
  unfold Sys2Proof.Machine.opEccunc
  repeat' first
    | (with_reducible first | assumption | apply ite_keep | apply kp.eccCommand | apply kp.chanHalt
                            | apply kp.substituteLine | apply kp.raise | apply kp.setCanvas | apply kp.inc)
    | intro _ | dsimp only | split | with_reducible apply kp.rest

theorem Keep.opPulseStart {P : State → Prop} (kp : Keep P) {k : Nat} {s : State} (h_s : P s) :
    P (opPulseStart k s) := by
  unfold Sys2Proof.Machine.opPulseStart
  repeat' first
    | (with_reducible first | assumption | apply ite_keep | apply kp.opDmaRequest | apply kp.startPulse)
    | intro _ | dsimp only | split | with_reducible apply kp.rest

theorem Keep.opRemoteRead {P : State → Prop} (kp : Keep P) {s : State} (h_s : P s) :
    P (opRemoteRead s) := by
  unfold Sys2Proof.Machine.opRemoteRead
  repeat' first
    | (with_reducible first | assumption | apply ite_keep | apply kp.pumpRead | apply kp.setBit)
    | intro _ | dsimp only | split | with_reducible apply kp.rest

theorem Keep.opRemoteWrite {P : State → Prop} (kp : Keep P) {s : State} (h_s : P s) :
    P (opRemoteWrite s) := by
  unfold Sys2Proof.Machine.opRemoteWrite
  repeat' first
    | (with_reducible first | assumption | apply ite_keep | apply kp.settleRr | apply kp.countLost | apply kp.sendVia
                            | apply kp.setBlk | apply kp.setBit | apply kp.setFld)
    | intro _ | dsimp only | split | with_reducible apply kp.rest

theorem Keep.opCpl {P : State → Prop} (kp : Keep P) {src : Nat} {tag : Nat} {rejected : Bool} {data : List Byte} {s : State} (h_s : P s) :
    P (opCpl src tag rejected data s) := by
  unfold Sys2Proof.Machine.opCpl
  repeat' first
    | (with_reducible first | assumption | apply ite_keep | apply kp.endBurst | apply kp.endDesc | apply kp.pumpAll
                            | apply kp.setBlk | apply kp.take | apply kp.emit | apply kp.inc | apply kp.setBit
                            | apply kp.setFld | apply kp.wr)
    | intro _ | dsimp only | split | with_reducible apply kp.rest

theorem Keep.opRtimeout {P : State → Prop} (kp : Keep P) {tag : Nat} {s : State} (h_s : P s) :
    P (opRtimeout tag s) := by
  unfold Sys2Proof.Machine.opRtimeout
  repeat' first
    | (with_reducible first | assumption | apply ite_keep | apply kp.pumpAll | apply kp.rrLost | apply kp.chanHalt
                            | apply kp.setBlk | apply kp.raise | apply kp.inc)
    | intro _ | dsimp only | split | with_reducible apply kp.rest

theorem KeepAll.opRdmaWr {P : State → Prop} (kp : KeepAll P) {off : Nat} {data : List Byte} {s : State} (h_s : P s) :
    P (opRdmaWr off data s) := by
  unfold Sys2Proof.Machine.opRdmaWr
  repeat' first
    | (with_reducible first | assumption | apply ite_keep | apply kp.mem)
    | intro _ | dsimp only | split | with_reducible apply kp.toKeep.rest

theorem Keep.answer {P : State → Prop} (kp : Keep P) {s : State} {src : Nat} {tag : Nat} {rejected : Bool} {data : List Byte} (h_s : P s) :
    P (State.answer s src tag rejected data) := by
  unfold Sys2Proof.Machine.State.answer
  repeat' first
    | (with_reducible first | assumption | apply ite_keep | apply kp.sendRemote)
    | intro _ | dsimp only | split | with_reducible apply kp.rest

end Sys2Proof.Machine
end

