-- ==== Sys2Proof/Laws/KeepAudio.lean ====
section
/-! SUPPORT. The operations of Machine/Audio.lean keep every property that single writes keep. -/

namespace Sys2Proof.Machine

open Sys2Proof

theorem Keep.setAud {P : State → Prop} (kp : Keep P) {s : State} {a : Aud} (h_s : P s) :
    P (State.setAud s a) := by
  unfold Sys2Proof.Machine.State.setAud
  repeat' first
    | (with_reducible first | assumption | apply ite_keep)
    | intro _ | dsimp only | split | with_reducible apply kp.rest

theorem Keep.audApply {P : State → Prop} (kp : Keep P) {s : State} {d : Nat} {how : Nat} (h_s : P s) :
    P (State.audApply s d how) := by
  unfold Sys2Proof.Machine.State.audApply
  repeat' first
    | (with_reducible first | assumption | apply ite_keep | apply kp.setAud | apply kp.complete)
    | intro _ | dsimp only | split | with_reducible apply kp.rest

theorem Keep.opMapChange {P : State → Prop} (kp : Keep P) {d : Nat} {prev : Int} {cur : Int} {new : Int} {oldNonPcm : Bool} {newNonPcm : Bool} {blockStart : Bool} {s : State} (h_s : P s) :
    P (opMapChange d prev cur new oldNonPcm newNonPcm blockStart s) := by
  unfold Sys2Proof.Machine.opMapChange
  repeat' first
    | (with_reducible first | assumption | apply ite_keep | apply kp.audApply)
    | intro _ | dsimp only | split | with_reducible apply kp.rest

theorem Keep.opZcto {P : State → Prop} (kp : Keep P) {d : Nat} {s : State} (h_s : P s) :
    P (opZcto d s) := by
  unfold Sys2Proof.Machine.opZcto
  repeat' first
    | (with_reducible first | assumption | apply ite_keep | apply kp.audApply | apply kp.raise | apply kp.inc)
    | intro _ | dsimp only | split | with_reducible apply kp.rest

theorem Keep.opMapPar {P : State → Prop} (kp : Keep P) {d : Nat} {s : State} (h_s : P s) :
    P (opMapPar d s) := by
  unfold Sys2Proof.Machine.opMapPar
  repeat' first
    | (with_reducible first | assumption | apply ite_keep | apply kp.setAud | apply kp.raise)
    | intro _ | dsimp only | split | with_reducible apply kp.rest

theorem Keep.audMapBody {P : State → Prop} (kp : Keep P) {t : Nat} {e : Entry} {id : Nat} {s : State} (h_s : P s) :
    P (audMapBody t e id s) := by
  unfold Sys2Proof.Machine.audMapBody
  repeat' first
    | (with_reducible first | assumption | apply ite_keep | apply kp.setAud | apply kp.checked | apply kp.complete)
    | intro _ | dsimp only | split | with_reducible apply kp.rest

theorem Keep.drivePort {P : State → Prop} (kp : Keep P) {s : State} {p : Nat} (h_s : P s) :
    P (State.drivePort s p) := by
  unfold Sys2Proof.Machine.State.drivePort
  repeat' first
    | (with_reducible first | assumption | apply ite_keep | apply kp.rampPort | apply kp.when | apply kp.emit)
    | intro _ | dsimp only | split | with_reducible apply kp.rest

theorem Keep.portStart {P : State → Prop} (kp : Keep P) {s : State} {p : Nat} {on : Bool} {master : Bool} {c : TdmCfg} (h_s : P s) :
    P (State.portStart s p on master c) := by
  unfold Sys2Proof.Machine.State.portStart
  repeat' first
    | (with_reducible first | assumption | apply ite_keep | apply kp.drivePort | apply kp.setAud
                            | apply kp.startDomain | apply kp.rampPort | apply kp.when | apply kp.setBit
                            | apply kp.setFld)
    | intro _ | dsimp only | split | with_reducible apply kp.rest

theorem Keep.audPortBody {P : State → Prop} (kp : Keep P) {t : Nat} {e : Entry} {id : Nat} {s : State} (h_s : P s) :
    P (audPortBody t e id s) := by
  unfold Sys2Proof.Machine.audPortBody
  repeat' first
    | (with_reducible first | assumption | apply ite_keep | apply kp.portStart | apply kp.checked | apply kp.rampPort
                            | apply kp.complete | apply kp.when | apply kp.setBit)
    | intro _ | dsimp only | split | with_reducible apply kp.rest

theorem Keep.opTdmLock {P : State → Prop} (kp : Keep P) {p : Nat} {ppm : BitVec 16} {s : State} (h_s : P s) :
    P (opTdmLock p ppm s) := by
  unfold Sys2Proof.Machine.opTdmLock
  repeat' first
    | (with_reducible first | assumption | apply ite_keep | apply kp.rampPort | apply kp.when | apply kp.setBit
                            | apply kp.setFld)
    | intro _ | dsimp only | split | with_reducible apply kp.rest

theorem Keep.opTdmUnlock {P : State → Prop} (kp : Keep P) {p : Nat} {s : State} (h_s : P s) :
    P (opTdmUnlock p s) := by
  unfold Sys2Proof.Machine.opTdmUnlock
  repeat' first
    | (with_reducible first | assumption | apply ite_keep | apply kp.raise | apply kp.rampPort | apply kp.when
                            | apply kp.setBit)
    | intro _ | dsimp only | split | with_reducible apply kp.rest

theorem Keep.opAmpFlt {P : State → Prop} (kp : Keep P) {p : Nat} {high : Bool} {s : State} (h_s : P s) :
    P (opAmpFlt p high s) := by
  unfold Sys2Proof.Machine.opAmpFlt
  repeat' first
    | (with_reducible first | assumption | apply ite_keep | apply kp.tellOwner | apply kp.raise | apply kp.rampPort
                            | apply kp.when | apply kp.inc | apply kp.setBit)
    | intro _ | dsimp only | split | with_reducible apply kp.rest

theorem Keep.opPdmCfg {P : State → Prop} (kp : Keep P) {i : Nat} {v : Word} {s : State} (h_s : P s) :
    P (opPdmCfg i v s) := by
  unfold Sys2Proof.Machine.opPdmCfg
  repeat' first
    | (with_reducible first | assumption | apply ite_keep | apply kp.fieldWrite | apply kp.when | apply kp.emit)
    | intro _ | dsimp only | split | with_reducible apply kp.rest

theorem Keep.opSlip {P : State → Prop} (kp : Keep P) {n : Nat} {s : State} (h_s : P s) :
    P (opSlip n s) := by
  unfold Sys2Proof.Machine.opSlip
  repeat' first
    | (with_reducible first | assumption | apply ite_keep | apply kp.raise | apply kp.inc)
    | intro _ | dsimp only | split | with_reducible apply kp.rest

theorem Keep.opDeErr {P : State → Prop} (kp : Keep P) {n : Nat} {s : State} (h_s : P s) :
    P (opDeErr n s) := by
  unfold Sys2Proof.Machine.opDeErr
  repeat' first
    | (with_reducible first | assumption | apply ite_keep | apply kp.raise | apply kp.inc)
    | intro _ | dsimp only | split | with_reducible apply kp.rest

theorem Keep.opDeIdx {P : State → Prop} (kp : Keep P) {v : Word} {s : State} (h_s : P s) :
    P (opDeIdx v s) := by
  unfold Sys2Proof.Machine.opDeIdx
  repeat' first
    | (with_reducible first | assumption | apply ite_keep | apply kp.fieldWrite | apply kp.freshWord | apply kp.setBit
                            | apply kp.setFld)
    | intro _ | dsimp only | split | with_reducible apply kp.rest

theorem Keep.opMapIdx {P : State → Prop} (kp : Keep P) {v : Word} {s : State} (h_s : P s) :
    P (opMapIdx v s) := by
  unfold Sys2Proof.Machine.opMapIdx
  repeat' first
    | (with_reducible first | assumption | apply ite_keep | apply kp.fieldWrite | apply kp.setBit | apply kp.setFld)
    | intro _ | dsimp only | split | with_reducible apply kp.rest

theorem Keep.opAudClrcnt {P : State → Prop} (kp : Keep P) {s : State} (h_s : P s) :
    P (opAudClrcnt s) := by
  unfold Sys2Proof.Machine.opAudClrcnt
  repeat' first
    | (with_reducible first | assumption | apply ite_keep | apply kp.clearAll)
    | intro _ | dsimp only | split | with_reducible apply kp.rest

end Sys2Proof.Machine
end

