-- ==== Sys2Proof/Laws/KeepRefClock.lean ====
section
/-! SUPPORT. The operations of Machine/RefClock.lean keep every property that single writes keep. -/

namespace Sys2Proof.Machine

open Sys2Proof

theorem Keep.setClk {P : State → Prop} (kp : Keep P) {s : State} {c : Clk} (h_s : P s) :
    P (State.setClk s c) := by
  unfold Sys2Proof.Machine.State.setClk
  repeat' first
    | (with_reducible first | assumption | apply ite_keep)
    | intro _ | dsimp only | split | with_reducible apply kp.rest

theorem Keep.clkHist {P : State → Prop} (kp : Keep P) {s : State} {b : Nat} (h_s : P s) :
    P (State.clkHist s b) := by
  unfold Sys2Proof.Machine.State.clkHist
  repeat' first
    | (with_reducible first | assumption | apply ite_keep | apply kp.raise | apply kp.setBit)
    | intro _ | dsimp only | split | with_reducible apply kp.rest

theorem Keep.clkRefuse {P : State → Prop} (kp : Keep P) {s : State} (h_s : P s) :
    P (State.clkRefuse s) := by
  unfold Sys2Proof.Machine.State.clkRefuse
  repeat' first
    | (with_reducible first | assumption | apply ite_keep | apply kp.raise | apply kp.setBit)
    | intro _ | dsimp only | split | with_reducible apply kp.rest

theorem Keep.selectPri {P : State → Prop} (kp : Keep P) {s : State} {k : Nat} (h_s : P s) :
    P (State.selectPri s k) := by
  unfold Sys2Proof.Machine.State.selectPri
  repeat' first
    | (with_reducible first | assumption | apply ite_keep | apply kp.setFld)
    | intro _ | dsimp only | split | with_reducible apply kp.rest

theorem Keep.switchTo {P : State → Prop} (kp : Keep P) {s : State} {k : Nat} (h_s : P s) :
    P (State.switchTo s k) := by
  unfold Sys2Proof.Machine.State.switchTo
  repeat' first
    | (with_reducible first | assumption | apply ite_keep | apply kp.selectPri | apply kp.clkHist | apply kp.inc)
    | intro _ | dsimp only | split | with_reducible apply kp.rest

theorem Keep.freerun {P : State → Prop} (kp : Keep P) {s : State} (h_s : P s) :
    P (State.freerun s) := by
  unfold Sys2Proof.Machine.State.freerun
  repeat' first
    | (with_reducible first | assumption | apply ite_keep | apply kp.clkHist | apply kp.wr)
    | intro _ | dsimp only | split | with_reducible apply kp.rest

theorem Keep.evaluate {P : State → Prop} (kp : Keep P) {s : State} {lost : Bool} (h_s : P s) :
    P (State.evaluate s lost) := by
  unfold Sys2Proof.Machine.State.evaluate
  repeat' first
    | (with_reducible first | assumption | apply ite_keep | apply kp.freerun | apply kp.switchTo | apply kp.selectPri
                            | apply kp.clkHist | apply kp.when | apply kp.setBit)
    | intro _ | dsimp only | split | with_reducible apply kp.rest

theorem Keep.setQual {P : State → Prop} (kp : Keep P) {s : State} {c : Nat} {b : Bool} (h_s : P s) :
    P (State.setQual s c b) := by
  unfold Sys2Proof.Machine.State.setQual
  repeat' first
    | (with_reducible first | assumption | apply ite_keep | apply kp.setBit)
    | intro _ | dsimp only | split | with_reducible apply kp.rest

theorem Keep.opRefQualified {P : State → Prop} (kp : Keep P) {c : Nat} {s : State} (h_s : P s) :
    P (opRefQualified c s) := by
  unfold Sys2Proof.Machine.opRefQualified
  repeat' first
    | (with_reducible first | assumption | apply ite_keep | apply kp.setQual | apply kp.evaluate)
    | intro _ | dsimp only | split | with_reducible apply kp.rest

theorem Keep.opRefLoss {P : State → Prop} (kp : Keep P) {c : Nat} {s : State} (h_s : P s) :
    P (opRefLoss c s) := by
  unfold Sys2Proof.Machine.opRefLoss
  repeat' first
    | (with_reducible first | assumption | apply ite_keep | apply kp.setQual | apply kp.evaluate | apply kp.inc
                            | apply kp.setBit)
    | intro _ | dsimp only | split | with_reducible apply kp.rest

theorem Keep.opEvaluation {P : State → Prop} (kp : Keep P) {s : State} (h_s : P s) :
    P (opEvaluation s) := by
  unfold Sys2Proof.Machine.opEvaluation
  repeat' first
    | (with_reducible first | assumption | apply ite_keep | apply kp.opRefLoss | apply kp.evaluate | apply kp.each)
    | intro _ | dsimp only | split | with_reducible apply kp.rest

theorem Keep.opWtr {P : State → Prop} (kp : Keep P) {s : State} (h_s : P s) :
    P (opWtr s) := by
  unfold Sys2Proof.Machine.opWtr
  repeat' first
    | (with_reducible first | assumption | apply ite_keep | apply kp.switchTo)
    | intro _ | dsimp only | split | with_reducible apply kp.rest

theorem Keep.opPriWrite {P : State → Prop} (kp : Keep P) {k : Nat} {v : Word} {s : State} (h_s : P s) :
    P (opPriWrite k v s) := by
  unfold Sys2Proof.Machine.opPriWrite
  repeat' first
    | (with_reducible first | assumption | apply ite_keep | apply kp.evaluate | apply kp.fieldWrite)
    | intro _ | dsimp only | split | with_reducible apply kp.rest

theorem Keep.opDpllLocked {P : State → Prop} (kp : Keep P) {s : State} (h_s : P s) :
    P (opDpllLocked s) := by
  unfold Sys2Proof.Machine.opDpllLocked
  repeat' first
    | (with_reducible first | assumption | apply ite_keep | apply kp.setFld)
    | intro _ | dsimp only | split | with_reducible apply kp.rest

theorem Keep.opDpllUnlock {P : State → Prop} (kp : Keep P) {s : State} (h_s : P s) :
    P (opDpllUnlock s) := by
  unfold Sys2Proof.Machine.opDpllUnlock
  repeat' first
    | (with_reducible first | assumption | apply ite_keep | apply kp.clkHist | apply kp.setFld)
    | intro _ | dsimp only | split | with_reducible apply kp.rest

theorem Keep.opRealign {P : State → Prop} (kp : Keep P) {ralSrc : Bool} {tb : Nat} {s : State} (h_s : P s) :
    P (opRealign ralSrc tb s) := by
  unfold Sys2Proof.Machine.opRealign
  repeat' first
    | (with_reducible first | assumption | apply ite_keep | apply kp.clkRefuse | apply kp.setClk)
    | intro _ | dsimp only | split | with_reducible apply kp.rest

theorem Keep.remeasure {P : State → Prop} (kp : Keep P) {s : State} {raster : Nat} {rate : Nat} {shift : Option Int} (h_s : P s) :
    P (State.remeasure s raster rate shift) := by
  unfold Sys2Proof.Machine.State.remeasure
  repeat' first
    | (with_reducible first | assumption | apply ite_keep | apply kp.place | apply kp.setAligner | apply kp.each
                            | apply kp.freshPick)
    | intro _ | dsimp only | split | with_reducible apply kp.rest

theorem Keep.opTimingJump {P : State → Prop} (kp : Keep P) {raster : Nat} {rate : Nat} {ago : Nat} {s : State} (h_s : P s) :
    P (opTimingJump raster rate ago s) := by
  unfold Sys2Proof.Machine.opTimingJump
  repeat' first
    | (with_reducible first | assumption | apply ite_keep | apply kp.remeasure | apply kp.clkHist | apply kp.setClk
                            | apply kp.when | apply kp.inc)
    | intro _ | dsimp only | split | with_reducible apply kp.rest

theorem Keep.opAlignEdge {P : State → Prop} (kp : Keep P) {err : Int} {s : State} (h_s : P s) :
    P (opAlignEdge err s) := by
  unfold Sys2Proof.Machine.opAlignEdge
  repeat' first
    | (with_reducible first | assumption | apply ite_keep | apply kp.setClk)
    | intro _ | dsimp only | split | with_reducible apply kp.rest

theorem Keep.opAlignLoss {P : State → Prop} (kp : Keep P) {s : State} (h_s : P s) :
    P (opAlignLoss s) := by
  unfold Sys2Proof.Machine.opAlignLoss
  repeat' first
    | (with_reducible first | assumption | apply ite_keep | apply kp.clkHist)
    | intro _ | dsimp only | split | with_reducible apply kp.rest

theorem Keep.opClkAlign {P : State → Prop} (kp : Keep P) {v : Word} {s : State} (h_s : P s) :
    P (opClkAlign v s) := by
  unfold Sys2Proof.Machine.opClkAlign
  repeat' first
    | (with_reducible first | assumption | apply ite_keep | apply kp.clkRefuse | apply kp.fieldWrite
                            | apply kp.countLock)
    | intro _ | dsimp only | split | with_reducible apply kp.rest

theorem Keep.emitGen {P : State → Prop} (kp : Keep P) {s : State} {k : Nat} (h_s : P s) :
    P (State.emitGen s k) := by
  unfold Sys2Proof.Machine.State.emitGen
  repeat' first
    | (with_reducible first | assumption | apply ite_keep | apply kp.emit)
    | intro _ | dsimp only | split | with_reducible apply kp.rest

theorem Keep.emitGens {P : State → Prop} (kp : Keep P) {s : State} (h_s : P s) :
    P (State.emitGens s) := by
  unfold Sys2Proof.Machine.State.emitGens
  repeat' first
    | (with_reducible first | assumption | apply ite_keep | apply kp.emitGen | apply kp.each)
    | intro _ | dsimp only | split | with_reducible apply kp.rest

theorem Keep.opGenout {P : State → Prop} (kp : Keep P) {k : Nat} {a : Nat} {v : Word} {s : State} (h_s : P s) :
    P (opGenout k a v s) := by
  unfold Sys2Proof.Machine.opGenout
  repeat' first
    | (with_reducible first | assumption | apply ite_keep | apply kp.emitGen | apply kp.fieldWrite)
    | intro _ | dsimp only | split | with_reducible apply kp.rest

theorem Keep.opClkClrcnt {P : State → Prop} (kp : Keep P) {s : State} (h_s : P s) :
    P (opClkClrcnt s) := by
  unfold Sys2Proof.Machine.opClkClrcnt
  repeat' first
    | (with_reducible first | assumption | apply ite_keep | apply kp.clearAll)
    | intro _ | dsimp only | split | with_reducible apply kp.rest

end Sys2Proof.Machine
end

