-- ==== Sys2Proof/Laws/KeepSelfTest.lean ====
section
/-! SUPPORT. The operations of Machine/SelfTest.lean keep every property that single writes keep. -/

namespace Sys2Proof.Machine

open Sys2Proof

theorem Keep.startUnit {P : State → Prop} (kp : Keep P) {s : State} {u : Nat} (h_s : P s) :
    P (State.startUnit s u) := by
  unfold Sys2Proof.Machine.State.startUnit
  repeat' first
    | (with_reducible first | assumption | apply ite_keep | apply kp.startDomain)
    | intro _ | dsimp only | split | with_reducible apply kp.rest

theorem Keep.setFailed {P : State → Prop} (kp : Keep P) {s : State} {u : Nat} {v : Bool} (h_s : P s) :
    P (State.setFailed s u v) := by
  unfold Sys2Proof.Machine.State.setFailed
  repeat' first
    | (with_reducible first | assumption | apply ite_keep | apply kp.wr)
    | intro _ | dsimp only | split | with_reducible apply kp.rest

theorem Keep.setPassed {P : State → Prop} (kp : Keep P) {s : State} {u : Nat} {v : Bool} (h_s : P s) :
    P (State.setPassed s u v) := by
  unfold Sys2Proof.Machine.State.setPassed
  repeat' first
    | (with_reducible first | assumption | apply ite_keep | apply kp.setBst)
    | intro _ | dsimp only | split | with_reducible apply kp.rest

theorem Keep.failUnit {P : State → Prop} (kp : Keep P) {s : State} {u : Nat} (h_s : P s) :
    P (State.failUnit s u) := by
  unfold Sys2Proof.Machine.State.failUnit
  repeat' first
    | (with_reducible first | assumption | apply ite_keep | apply kp.setPassed | apply kp.setFailed
                            | apply kp.faultTarget | apply kp.retirePlane | apply kp.raise)
    | intro _ | dsimp only | split | with_reducible apply kp.rest

theorem Keep.endWait {P : State → Prop} (kp : Keep P) {s : State} {u : Nat} {st : Status} {result : Nat} (h_s : P s) :
    P (State.endWait s u st result) := by
  unfold Sys2Proof.Machine.State.endWait
  repeat' first
    | (with_reducible first | assumption | apply ite_keep | apply kp.endPlaneWait)
    | intro _ | dsimp only | split | with_reducible apply kp.rest

theorem Keep.abortWaits {P : State → Prop} (kp : Keep P) {s : State} (h_s : P s) :
    P (State.abortWaits s) := by
  unfold Sys2Proof.Machine.State.abortWaits
  repeat' first
    | (with_reducible first | assumption | apply ite_keep | apply kp.endWait | apply kp.each)
    | intro _ | dsimp only | split | with_reducible apply kp.rest

theorem Keep.startSlice {P : State → Prop} (kp : Keep P) {s : State} {u : Nat} (h_s : P s) :
    P (State.startSlice s u) := by
  unfold Sys2Proof.Machine.State.startSlice
  repeat' first
    | (with_reducible first | assumption | apply ite_keep | apply kp.startUnit | apply kp.setBst)
    | intro _ | dsimp only | split | with_reducible apply kp.rest

theorem Keep.opSliceStart {P : State → Prop} (kp : Keep P) {s : State} (h_s : P s) :
    P (opSliceStart s) := by
  unfold Sys2Proof.Machine.opSliceStart
  repeat' first
    | (with_reducible first | assumption | apply ite_keep | apply kp.startSlice | apply kp.setBst | apply kp.each)
    | intro _ | dsimp only | split | with_reducible apply kp.rest

theorem Keep.rowFailed {P : State → Prop} (kp : Keep P) {s : State} {r : Nat} (h_s : P s) :
    P (State.rowFailed s r) := by
  unfold Sys2Proof.Machine.State.rowFailed
  repeat' first
    | (with_reducible first | assumption | apply ite_keep | apply kp.setBst | apply kp.raise | apply kp.inc
                            | apply kp.setFld)
    | intro _ | dsimp only | split | with_reducible apply kp.rest

theorem Keep.turnRow {P : State → Prop} (kp : Keep P) {s : State} (h_s : P s) :
    P (State.turnRow s) := by
  unfold Sys2Proof.Machine.State.turnRow
  repeat' first
    | (with_reducible first | assumption | apply ite_keep | apply kp.setBst)
    | intro _ | dsimp only | split | with_reducible apply kp.rest

theorem Keep.opSliceEnd {P : State → Prop} (kp : Keep P) {u : Nat} {pass : Bool} {s : State} (h_s : P s) :
    P (opSliceEnd u pass s) := by
  unfold Sys2Proof.Machine.opSliceEnd
  repeat' first
    | (with_reducible first | assumption | apply ite_keep | apply kp.turnRow | apply kp.rowFailed | apply kp.endWait
                            | apply kp.failUnit | apply kp.setPassed | apply kp.setBst | apply kp.when | apply kp.inc)
    | intro _ | dsimp only | split | with_reducible apply kp.rest

theorem Keep.opPatrol {P : State → Prop} (kp : Keep P) {k : Nat} {corrected : Nat} {uncorrectable : Nat} {s : State} (h_s : P s) :
    P (opPatrol k corrected uncorrectable s) := by
  unfold Sys2Proof.Machine.opPatrol
  repeat' first
    | (with_reducible first | assumption | apply ite_keep | apply kp.raise | apply kp.each | apply kp.incBy)
    | intro _ | dsimp only | split | with_reducible apply kp.rest

theorem Keep.opFullTestEnd {P : State → Prop} (kp : Keep P) {u : Nat} {pass : Bool} {s : State} (h_s : P s) :
    P (opFullTestEnd u pass s) := by
  unfold Sys2Proof.Machine.opFullTestEnd
  repeat' first
    | (with_reducible first | assumption | apply ite_keep | apply kp.endWait | apply kp.failUnit | apply kp.setPassed
                            | apply kp.setFailed)
    | intro _ | dsimp only | split | with_reducible apply kp.rest

theorem Keep.bistReqBody {P : State → Prop} (kp : Keep P) {t : Nat} {e : Entry} {id : Nat} {s : State} (h_s : P s) :
    P (bistReqBody t e id s) := by
  unfold Sys2Proof.Machine.bistReqBody
  repeat' first
    | (with_reducible first | assumption | apply ite_keep | apply kp.startUnit | apply kp.setBst | apply kp.checked)
    | intro _ | dsimp only | split | with_reducible apply kp.rest

theorem Keep.opOosWrite {P : State → Prop} (kp : Keep P) {i : Nat} {v : Word} {s : State} (h_s : P s) :
    P (opOosWrite i v s) := by
  unfold Sys2Proof.Machine.opOosWrite
  repeat' first
    | (with_reducible first | assumption | apply ite_keep | apply kp.fieldWrite | apply kp.raise | apply kp.setBit)
    | intro _ | dsimp only | split | with_reducible apply kp.rest

theorem Keep.opUnitIdx {P : State → Prop} (kp : Keep P) {v : Word} {s : State} (h_s : P s) :
    P (opUnitIdx v s) := by
  unfold Sys2Proof.Machine.opUnitIdx
  repeat' first
    | (with_reducible first | assumption | apply ite_keep | apply kp.fieldWrite | apply kp.setBit | apply kp.setFld)
    | intro _ | dsimp only | split | with_reducible apply kp.rest

theorem Keep.opBstClrcnt {P : State → Prop} (kp : Keep P) {s : State} (h_s : P s) :
    P (opBstClrcnt s) := by
  unfold Sys2Proof.Machine.opBstClrcnt
  repeat' first
    | (with_reducible first | assumption | apply ite_keep | apply kp.clearAll)
    | intro _ | dsimp only | split | with_reducible apply kp.rest

end Sys2Proof.Machine
end

