-- ==== Sys2Proof/Laws/KeepFirmware.lean ====
section
/-! SUPPORT. The operations of Machine/Firmware.lean keep every property that single writes keep. -/

namespace Sys2Proof.Machine

open Sys2Proof

theorem KeepAll.setFlash {P : State → Prop} (kp : KeepAll P) {s : State} {x : Flash} (h_s : P s) :
    P (State.setFlash s x) := by
  unfold Sys2Proof.Machine.State.setFlash
  repeat' first
    | (with_reducible first | assumption | apply ite_keep | apply kp.flash)
    | intro _ | dsimp only | split | with_reducible apply kp.toKeep.rest

theorem KeepAll.setOtp {P : State → Prop} (kp : KeepAll P) {s : State} {x : Otp} (h_s : P s) :
    P (State.setOtp s x) := by
  unfold Sys2Proof.Machine.State.setOtp
  repeat' first
    | (with_reducible first | assumption | apply ite_keep | apply kp.otp)
    | intro _ | dsimp only | split | with_reducible apply kp.toKeep.rest

theorem Keep.countFail {P : State → Prop} (kp : Keep P) {s : State} {f : ImgFail} (h_s : P s) :
    P (State.countFail s f) := by
  unfold Sys2Proof.Machine.State.countFail
  repeat' first
    | (with_reducible first | assumption | apply ite_keep | apply kp.raise | apply kp.inc)
    | intro _ | dsimp only | split | with_reducible apply kp.rest

theorem Keep.svcGo {P : State → Prop} (kp : Keep P) {s : State} {body : State → State} (h_s : P s) (h_body : ∀ (y0 : State), P y0 → P (body y0)) :
    P (State.svcGo s body) := by
  unfold Sys2Proof.Machine.State.svcGo
  repeat' first
    | (with_reducible first | assumption | apply ite_keep | apply h_body)
    | intro _ | dsimp only | split | with_reducible apply kp.rest

theorem Keep.svcBegin {P : State → Prop} (kp : Keep P) {s : State} {op : Nat} {reads : Bool} (h_s : P s) :
    P (State.svcBegin s op reads) := by
  unfold Sys2Proof.Machine.State.svcBegin
  repeat' first
    | (with_reducible first | assumption | apply ite_keep | apply kp.setHif | apply kp.svcStart | apply kp.setSvc)
    | intro _ | dsimp only | split | with_reducible apply kp.rest

theorem Keep.svcRead {P : State → Prop} (kp : Keep P) {s : State} {op : Nat} (h_s : P s) :
    P (State.svcRead s op) := by
  unfold Sys2Proof.Machine.State.svcRead
  repeat' first
    | (with_reducible first | assumption | apply ite_keep | apply kp.svcBegin | apply kp.svcGo | apply kp.raise
                            | apply kp.svcEnd)
    | intro _ | dsimp only | split | with_reducible apply kp.rest

theorem Keep.svcData {P : State → Prop} (kp : Keep P) {s : State} {op : Nat} {body : State → State} (h_s : P s) (h_body : ∀ (y0 : State), P y0 → P (body y0)) :
    P (State.svcData s op body) := by
  unfold Sys2Proof.Machine.State.svcData
  repeat' first
    | (with_reducible first | assumption | apply ite_keep | apply kp.svcRead | apply kp.countBytes | apply kp.setSvc
                            | apply h_body)
    | intro _ | dsimp only | split | with_reducible apply kp.rest

theorem Keep.svcAnswer {P : State → Prop} (kp : Keep P) {s : State} {op : Nat} {body : State → State} (h_s : P s) (h_body : ∀ (y0 : State), P y0 → P (body y0)) :
    P (State.svcAnswer s op body) := by
  unfold Sys2Proof.Machine.State.svcAnswer
  repeat' first
    | (with_reducible first | assumption | apply ite_keep | apply kp.svcBegin | apply kp.svcGo | apply kp.setSvc
                            | apply h_body)
    | intro _ | dsimp only | split | with_reducible apply kp.rest

theorem Keep.setUpd {P : State → Prop} (kp : Keep P) {s : State} {n : Nat} (h_s : P s) :
    P (State.setUpd s n) := by
  unfold Sys2Proof.Machine.State.setUpd
  repeat' first
    | (with_reducible first | assumption | apply ite_keep | apply kp.setFld)
    | intro _ | dsimp only | split | with_reducible apply kp.rest

theorem KeepAll.pointSlot {P : State → Prop} (kp : KeepAll P) {s : State} {k : Nat} (h_s : P s) :
    P (State.pointSlot s k) := by
  unfold Sys2Proof.Machine.State.pointSlot
  repeat' first
    | (with_reducible first | assumption | apply ite_keep | apply kp.setFlash | apply kp.toKeep.emit)
    | intro _ | dsimp only | split | with_reducible apply kp.toKeep.rest

theorem KeepAll.program {P : State → Prop} (kp : KeepAll P) {s : State} {k : Nat} {i : Image} (h_s : P s) :
    P (State.program s k i) := by
  unfold Sys2Proof.Machine.State.program
  repeat' first
    | (with_reducible first | assumption | apply ite_keep | apply kp.setFlash | apply kp.toKeep.setSlot
                            | apply kp.toKeep.setSvc | apply kp.toKeep.when | apply kp.toKeep.setBit
                            | apply kp.toKeep.wr)
    | intro _ | dsimp only | split | with_reducible apply kp.toKeep.rest

theorem KeepAll.stage_ {P : State → Prop} (kp : KeepAll P) {s : State} {i : Image} (h_s : P s) :
    P (State.stage_ s i) := by
  unfold Sys2Proof.Machine.State.stage_
  repeat' first
    | (with_reducible first | assumption | apply ite_keep | apply kp.program | apply kp.toKeep.setUpd
                            | apply kp.toKeep.setSvc)
    | intro _ | dsimp only | split | with_reducible apply kp.toKeep.rest

theorem KeepAll.opLoadImg {P : State → Prop} (kp : KeepAll P) {i : Image} {s : State} (h_s : P s) :
    P (opLoadImg i s) := by
  unfold Sys2Proof.Machine.opLoadImg
  repeat' first
    | (with_reducible first | assumption | apply ite_keep | apply kp.stage_ | apply kp.program
                            | apply kp.toKeep.svcData | apply kp.toKeep.countFail | apply kp.toKeep.svcEnd
                            | apply kp.toKeep.setSvc)
    | intro _ | dsimp only | split | with_reducible apply kp.toKeep.rest

theorem KeepAll.opSlotDone {P : State → Prop} (kp : KeepAll P) {ok : Bool} {s : State} (h_s : P s) :
    P (opSlotDone ok s) := by
  unfold Sys2Proof.Machine.opSlotDone
  repeat' first
    | (with_reducible first | assumption | apply ite_keep | apply kp.toKeep.setUpd | apply kp.setFlash
                            | apply kp.toKeep.setSlot | apply kp.toKeep.raise | apply kp.toKeep.svcEnd
                            | apply kp.toKeep.setSvc | apply kp.toKeep.setBit | apply kp.toKeep.wr)
    | intro _ | dsimp only | split | with_reducible apply kp.toKeep.rest

theorem Keep.sendImage {P : State → Prop} (kp : Keep P) {s : State} {i : Image} {l : List Nat} (h_s : P s) :
    P (State.sendImage s i l) := by
  unfold Sys2Proof.Machine.State.sendImage
  repeat' first
    | (with_reducible first | assumption | apply ite_keep | apply kp.send)
    | intro _ | dsimp only | split | with_reducible apply kp.rest

theorem Keep.opDistrib {P : State → Prop} (kp : Keep P) {answer : Nat} {s : State} (h_s : P s) :
    P (opDistrib answer s) := by
  unfold Sys2Proof.Machine.opDistrib
  repeat' first
    | (with_reducible first | assumption | apply ite_keep | apply kp.sendImage | apply kp.svcAnswer | apply kp.answer
                            | apply kp.svcEnd)
    | intro _ | dsimp only | split | with_reducible apply kp.rest

theorem KeepAll.opImageReceived {P : State → Prop} (kp : KeepAll P) {src : Nat} {i : Image} {onward : Nat} {retry : Bool} {s : State} (h_s : P s) :
    P (opImageReceived src i onward retry s) := by
  unfold Sys2Proof.Machine.opImageReceived
  repeat' first
    | (with_reducible first | assumption | apply ite_keep | apply kp.toKeep.sendImage | apply kp.stage_
                            | apply kp.toKeep.countFail | apply kp.toKeep.send | apply kp.toKeep.raise
                            | apply kp.toKeep.setSvc | apply kp.toKeep.setBit)
    | intro _ | dsimp only | split | with_reducible apply kp.toKeep.rest

theorem Keep.opHandover {P : State → Prop} (kp : Keep P) {peer : Word} {s : State} (h_s : P s) :
    P (opHandover peer s) := by
  unfold Sys2Proof.Machine.opHandover
  repeat' first
    | (with_reducible first | assumption | apply ite_keep | apply kp.setUpd | apply kp.svcAnswer | apply kp.svcStart
                            | apply kp.svcEnd)
    | intro _ | dsimp only | split | with_reducible apply kp.rest

theorem KeepAll.convertBank {P : State → Prop} (kp : KeepAll P) {s : State} {fmt : BitVec 16} (h_s : P s) :
    P (State.convertBank s fmt) := by
  unfold Sys2Proof.Machine.State.convertBank
  repeat' first
    | (with_reducible first | assumption | apply ite_keep | apply kp.setFlash | apply kp.toKeep.setBit
                            | apply kp.toKeep.setFld | apply kp.toKeep.wr)
    | intro _ | dsimp only | split | with_reducible apply kp.toKeep.rest

theorem KeepAll.takeOver {P : State → Prop} (kp : KeepAll P) {s : State} {i : Image} (h_s : P s) :
    P (State.takeOver s i) := by
  unfold Sys2Proof.Machine.State.takeOver
  repeat' first
    | (with_reducible first | assumption | apply ite_keep | apply kp.convertBank | apply kp.toKeep.setUpd
                            | apply kp.toKeep.setSvc | apply kp.toKeep.setBit | apply kp.toKeep.setFld
                            | apply kp.toKeep.wr)
    | intro _ | dsimp only | split | with_reducible apply kp.toKeep.rest

theorem Keep.handBack {P : State → Prop} (kp : Keep P) {s : State} (h_s : P s) :
    P (State.handBack s) := by
  unfold Sys2Proof.Machine.State.handBack
  repeat' first
    | (with_reducible first | assumption | apply ite_keep | apply kp.setUpd | apply kp.raise | apply kp.svcEnd
                            | apply kp.setSvc | apply kp.setBit | apply kp.setFld | apply kp.wr)
    | intro _ | dsimp only | split | with_reducible apply kp.rest

theorem KeepAll.opShadowEnd {P : State → Prop} (kp : KeepAll P) {s : State} (h_s : P s) :
    P (opShadowEnd s) := by
  unfold Sys2Proof.Machine.opShadowEnd
  repeat' first
    | (with_reducible first | assumption | apply ite_keep | apply kp.toKeep.handBack | apply kp.takeOver
                            | apply kp.toKeep.svcEnd)
    | intro _ | dsimp only | split | with_reducible apply kp.toKeep.rest

theorem Keep.opUpdFail {P : State → Prop} (kp : Keep P) {s : State} (h_s : P s) :
    P (opUpdFail s) := by
  unfold Sys2Proof.Machine.opUpdFail
  repeat' first
    | (with_reducible first | assumption | apply ite_keep | apply kp.setUpd | apply kp.raise | apply kp.svcEnd
                            | apply kp.setSvc | apply kp.setBit)
    | intro _ | dsimp only | split | with_reducible apply kp.rest

theorem KeepAll.opConfirm {P : State → Prop} (kp : KeepAll P) {s : State} (h_s : P s) :
    P (opConfirm s) := by
  unfold Sys2Proof.Machine.opConfirm
  repeat' first
    | (with_reducible first | assumption | apply ite_keep | apply kp.pointSlot | apply kp.toKeep.setUpd
                            | apply kp.toKeep.svcGo | apply kp.setOtp | apply kp.toKeep.svcEnd
                            | apply kp.toKeep.setSvc | apply kp.toKeep.setBit | apply kp.toKeep.setFld)
    | intro _ | dsimp only | split | with_reducible apply kp.toKeep.rest

theorem Keep.opRevert {P : State → Prop} (kp : Keep P) {s : State} (h_s : P s) :
    P (opRevert s) := by
  unfold Sys2Proof.Machine.opRevert
  repeat' first
    | (with_reducible first | assumption | apply ite_keep | apply kp.svcGo | apply kp.svcStart | apply kp.svcEnd
                            | apply kp.setSvc)
    | intro _ | dsimp only | split | with_reducible apply kp.rest

theorem Keep.opConfto {P : State → Prop} (kp : Keep P) {s : State} (h_s : P s) :
    P (opConfto s) := by
  unfold Sys2Proof.Machine.opConfto
  repeat' first
    | (with_reducible first | assumption | apply ite_keep | apply kp.setSvc)
    | intro _ | dsimp only | split | with_reducible apply kp.rest

theorem KeepAll.opSaveCfg {P : State → Prop} (kp : KeepAll P) {b : Bank} {programOk : Bool} {s : State} (h_s : P s) :
    P (opSaveCfg b programOk s) := by
  unfold Sys2Proof.Machine.opSaveCfg
  repeat' first
    | (with_reducible first | assumption | apply ite_keep | apply kp.toKeep.svcData | apply kp.setFlash
                            | apply kp.toKeep.raise | apply kp.toKeep.svcEnd | apply kp.toKeep.setBit)
    | intro _ | dsimp only | split | with_reducible apply kp.toKeep.rest

theorem KeepAll.opLcadv {P : State → Prop} (kp : KeepAll P) {k : Token} {missed : Word} {missedState : Byte} {s : State} (h_s : P s) :
    P (opLcadv k missed missedState s) := by
  unfold Sys2Proof.Machine.opLcadv
  repeat' first
    | (with_reducible first | assumption | apply ite_keep | apply kp.program | apply kp.toKeep.svcData
                            | apply kp.setOtp | apply kp.toKeep.raise | apply kp.toKeep.svcEnd
                            | apply kp.toKeep.setBit)
    | intro _ | dsimp only | split | with_reducible apply kp.toKeep.rest

theorem KeepAll.opKeyrev {P : State → Prop} (kp : KeepAll P) {k : Token} {s : State} (h_s : P s) :
    P (opKeyrev k s) := by
  unfold Sys2Proof.Machine.opKeyrev
  repeat' first
    | (with_reducible first | assumption | apply ite_keep | apply kp.toKeep.svcData | apply kp.setOtp
                            | apply kp.toKeep.raise | apply kp.toKeep.svcEnd)
    | intro _ | dsimp only | split | with_reducible apply kp.toKeep.rest

theorem Keep.opReserved {P : State → Prop} (kp : Keep P) {op : Nat} {s : State} (h_s : P s) :
    P (opReserved op s) := by
  unfold Sys2Proof.Machine.opReserved
  repeat' first
    | (with_reducible first | assumption | apply ite_keep | apply kp.svcGo | apply kp.svcEnd)
    | intro _ | dsimp only | split | with_reducible apply kp.rest

theorem KeepAll.opSvcGo {P : State → Prop} (kp : KeepAll P) {op : Nat} {s : State} (h_s : P s) :
    P (opSvcGo op s) := by
  unfold Sys2Proof.Machine.opSvcGo
  repeat' first
    | (with_reducible first | assumption | apply ite_keep | apply kp.toKeep.opReserved | apply kp.toKeep.opRevert
                            | apply kp.opConfirm | apply kp.toKeep.svcRead | apply kp.toKeep.svcBegin
                            | apply kp.toKeep.svcGo)
    | intro _ | dsimp only | split | with_reducible apply kp.toKeep.rest

theorem Keep.opServiceMove {P : State → Prop} (kp : Keep P) {svc : Nat} {s : State} (h_s : P s) :
    P (opServiceMove svc s) := by
  unfold Sys2Proof.Machine.opServiceMove
  repeat' first
    | (with_reducible first | assumption | apply ite_keep | apply kp.setFld | apply foldl_keep | apply foldl_keep_fst
                            | apply foldl_keep_snd)
    | intro _ | dsimp only | split | with_reducible apply kp.rest

theorem Keep.opWdog {P : State → Prop} (kp : Keep P) {c : Nat} {s : State} (h_s : P s) :
    P (opWdog c s) := by
  unfold Sys2Proof.Machine.opWdog
  repeat' first
    | (with_reducible first | assumption | apply ite_keep | apply kp.setFailed | apply kp.promote | apply kp.raise
                            | apply kp.setSvc | apply kp.when | apply kp.setBit)
    | intro _ | dsimp only | split | with_reducible apply kp.rest

end Sys2Proof.Machine
end

