-- ==== Sys2Proof/Laws/KeepPower.lean ====
section
/-! SUPPORT. The operations of Machine/Power.lean keep every property that single writes keep. -/

namespace Sys2Proof.Machine

open Sys2Proof

theorem Keep.setPwr {P : State → Prop} (kp : Keep P) {s : State} {x : Pwr} (h_s : P s) :
    P (State.setPwr s x) := by
  unfold Sys2Proof.Machine.State.setPwr
  repeat' first
    | (with_reducible first | assumption | apply ite_keep)
    | intro _ | dsimp only | split | with_reducible apply kp.rest

theorem Keep.setPwrState {P : State → Prop} (kp : Keep P) {s : State} {n : Nat} (h_s : P s) :
    P (State.setPwrState s n) := by
  unfold Sys2Proof.Machine.State.setPwrState
  repeat' first
    | (with_reducible first | assumption | apply ite_keep | apply kp.setFld)
    | intro _ | dsimp only | split | with_reducible apply kp.rest

theorem Keep.pwrRefuse {P : State → Prop} (kp : Keep P) {s : State} (h_s : P s) :
    P (State.pwrRefuse s) := by
  unfold Sys2Proof.Machine.State.pwrRefuse
  repeat' first
    | (with_reducible first | assumption | apply ite_keep | apply kp.raise | apply kp.setBit)
    | intro _ | dsimp only | split | with_reducible apply kp.rest

theorem Keep.opFallow {P : State → Prop} (kp : Keep P) {s : State} (h_s : P s) :
    P (opFallow s) := by
  unfold Sys2Proof.Machine.opFallow
  repeat' first
    | (with_reducible first | assumption | apply ite_keep | apply kp.pwrRefuse | apply kp.setPwrState
                            | apply kp.setPwr | apply kp.abortWaits | apply kp.muffle)
    | intro _ | dsimp only | split | with_reducible apply kp.rest

theorem Keep.stopLink {P : State → Prop} (kp : Keep P) {s : State} {k : Nat} (h_s : P s) :
    P (State.stopLink s k) := by
  unfold Sys2Proof.Machine.State.stopLink
  repeat' first
    | (with_reducible first | assumption | apply ite_keep | apply kp.linkLeaves | apply kp.unsync | apply kp.setLink
                            | apply kp.setFld)
    | intro _ | dsimp only | split | with_reducible apply kp.rest

theorem Keep.stopOutputs {P : State → Prop} (kp : Keep P) {s : State} (h_s : P s) :
    P (State.stopOutputs s) := by
  unfold Sys2Proof.Machine.State.stopOutputs
  repeat' first
    | (with_reducible first | assumption | apply ite_keep | apply kp.stopLink | apply kp.each | apply kp.setBit)
    | intro _ | dsimp only | split | with_reducible apply kp.rest

theorem Keep.stopLanes {P : State → Prop} (kp : Keep P) {s : State} (h_s : P s) :
    P (State.stopLanes s) := by
  unfold Sys2Proof.Machine.State.stopLanes
  repeat' first
    | (with_reducible first | assumption | apply ite_keep | apply kp.portDown | apply kp.restartRx | apply kp.each
                            | apply kp.setBit | apply kp.wr)
    | intro _ | dsimp only | split | with_reducible apply kp.rest

theorem Keep.holdBase {P : State → Prop} (kp : Keep P) {s : State} {b : Nat} (h_s : P s) :
    P (State.holdBase s b) := by
  unfold Sys2Proof.Machine.State.holdBase
  repeat' first
    | (with_reducible first | assumption | apply ite_keep | apply kp.enterHoldover)
    | intro _ | dsimp only | split | with_reducible apply kp.rest

theorem Keep.latchedExit {P : State → Prop} (kp : Keep P) {s : State} (h_s : P s) :
    P (State.latchedExit s) := by
  unfold Sys2Proof.Machine.State.latchedExit
  repeat' first
    | (with_reducible first | assumption | apply ite_keep | apply kp.setPwrState | apply kp.setPwr)
    | intro _ | dsimp only | split | with_reducible apply kp.rest

theorem Keep.opFallowReached {P : State → Prop} (kp : Keep P) {s : State} (h_s : P s) :
    P (opFallowReached s) := by
  unfold Sys2Proof.Machine.opFallowReached
  repeat' first
    | (with_reducible first | assumption | apply ite_keep | apply kp.latchedExit | apply kp.holdBase
                            | apply kp.stopLanes | apply kp.stopOutputs | apply kp.setPwrState | apply kp.emitGens
                            | apply kp.floatAudio | apply kp.each)
    | intro _ | dsimp only | split | with_reducible apply kp.rest

theorem Keep.opActive {P : State → Prop} (kp : Keep P) {s : State} (h_s : P s) :
    P (opActive s) := by
  unfold Sys2Proof.Machine.opActive
  repeat' first
    | (with_reducible first | assumption | apply ite_keep | apply kp.pwrRefuse | apply kp.leaveFallow)
    | intro _ | dsimp only | split | with_reducible apply kp.rest

theorem Keep.startUsed {P : State → Prop} (kp : Keep P) {s : State} (h_s : P s) :
    P (State.startUsed s) := by
  unfold Sys2Proof.Machine.State.startUsed
  repeat' first
    | (with_reducible first | assumption | apply ite_keep | apply kp.startUnit | apply kp.startDomain | apply kp.when
                            | apply kp.each)
    | intro _ | dsimp only | split | with_reducible apply kp.rest

theorem Keep.opActiveReached {P : State → Prop} (kp : Keep P) {s : State} (h_s : P s) :
    P (opActiveReached s) := by
  unfold Sys2Proof.Machine.opActiveReached
  repeat' first
    | (with_reducible first | assumption | apply ite_keep | apply kp.startUsed | apply kp.setPwrState
                            | apply kp.emitGens | apply kp.drivePort | apply kp.enterSync | apply kp.when
                            | apply kp.each | apply kp.emit)
    | intro _ | dsimp only | split | with_reducible apply kp.rest

theorem Keep.opShutdown {P : State → Prop} (kp : Keep P) {skipBst : Bool} {s : State} (h_s : P s) :
    P (opShutdown skipBst s) := by
  unfold Sys2Proof.Machine.opShutdown
  repeat' first
    | (with_reducible first | assumption | apply ite_keep | apply kp.stopOutputs | apply kp.pwrRefuse
                            | apply kp.setPwrState | apply kp.abortWaits | apply kp.floatAudio | apply kp.muffle
                            | apply kp.when | apply kp.setBit)
    | intro _ | dsimp only | split | with_reducible apply kp.rest

theorem KeepAll.opOffready {P : State → Prop} (kp : KeepAll P) {s : State} (h_s : P s) :
    P (opOffready s) := by
  unfold Sys2Proof.Machine.opOffready
  repeat' first
    | (with_reducible first | assumption | apply ite_keep | apply kp.toKeep.setPwrState | apply kp.setFlash
                            | apply kp.toKeep.emit | apply kp.toKeep.setBit)
    | intro _ | dsimp only | split | with_reducible apply kp.toKeep.rest

theorem Keep.releasePins {P : State → Prop} (kp : Keep P) {s : State} (h_s : P s) :
    P (State.releasePins s) := by
  unfold Sys2Proof.Machine.State.releasePins
  repeat' first
    | (with_reducible first | assumption | apply ite_keep | apply kp.fovPins | apply kp.floatAudio
                            | apply kp.driveFault | apply kp.when | apply kp.each | apply kp.emit)
    | intro _ | dsimp only | split | with_reducible apply kp.rest

theorem Keep.bootFabric {P : State → Prop} (kp : Keep P) {s : State} (h_s : P s) :
    P (State.bootFabric s) := by
  unfold Sys2Proof.Machine.State.bootFabric
  repeat' first
    | (with_reducible first | assumption | apply ite_keep | apply kp.refreshLanes | apply kp.startDomain
                            | apply kp.each | apply kp.setBit | apply kp.setFld)
    | intro _ | dsimp only | split | with_reducible apply kp.rest

theorem KeepAll.opWarm {P : State → Prop} (kp : KeepAll P) {s : State} (h_s : P s) :
    P (opWarm s) := by
  unfold Sys2Proof.Machine.opWarm
  repeat' first
    | (with_reducible first | assumption | apply ite_keep | apply kp.warmReset | apply kp.toKeep.pwrRefuse)
    | intro _ | dsimp only | split | with_reducible apply kp.toKeep.rest

theorem KeepAll.opPorLow {P : State → Prop} (kp : KeepAll P) {s : State} (h_s : P s) :
    P (opPorLow s) := by
  unfold Sys2Proof.Machine.opPorLow
  repeat' first
    | (with_reducible first | assumption | apply ite_keep | apply kp.coldReset | apply kp.toKeep.setPwr
                            | apply kp.toKeep.setBit)
    | intro _ | dsimp only | split | with_reducible apply kp.toKeep.rest

theorem KeepAll.resolveLife {P : State → Prop} (kp : KeepAll P) {s : State} (h_s : P s) :
    P (State.resolveLife s) := by
  unfold Sys2Proof.Machine.State.resolveLife
  repeat' first
    | (with_reducible first | assumption | apply ite_keep | apply kp.program | apply kp.setOtp
                            | apply kp.toKeep.setBit | apply foldl_keep | apply foldl_keep_fst | apply foldl_keep_snd)
    | intro _ | dsimp only | split | with_reducible apply kp.toKeep.rest

theorem Keep.wakeCounted {P : State → Prop} (kp : Keep P) {s : State} (h_s : P s) :
    P (State.wakeCounted s) := by
  unfold Sys2Proof.Machine.State.wakeCounted
  repeat' first
    | (with_reducible first | assumption | apply ite_keep | apply kp.wr)
    | intro _ | dsimp only | split | with_reducible apply kp.rest

theorem KeepAll.opPorRise {P : State → Prop} (kp : KeepAll P) {raw : Nat} {s : State} (h_s : P s) :
    P (opPorRise raw s) := by
  unfold Sys2Proof.Machine.opPorRise
  repeat' first
    | (with_reducible first | assumption | apply ite_keep | apply kp.toKeep.wakeCounted | apply kp.resolveLife
                            | apply kp.toKeep.bootFabric | apply kp.toKeep.setPwr | apply kp.toKeep.when
                            | apply kp.toKeep.emit | apply kp.toKeep.setBit | apply kp.toKeep.setFld)
    | intro _ | dsimp only | split | with_reducible apply kp.toKeep.rest

theorem KeepAll.opRailFail {P : State → Prop} (kp : KeepAll P) {s : State} (h_s : P s) :
    P (opRailFail s) := by
  unfold Sys2Proof.Machine.opRailFail
  repeat' first
    | (with_reducible first | assumption | apply ite_keep | apply kp.coldReset | apply kp.toKeep.setPwr)
    | intro _ | dsimp only | split | with_reducible apply kp.toKeep.rest

theorem Keep.opVaonLoss {P : State → Prop} (kp : Keep P) {s : State} (h_s : P s) :
    P (opVaonLoss s) := by
  unfold Sys2Proof.Machine.opVaonLoss
  repeat' first
    | (with_reducible first | assumption | apply ite_keep | apply kp.setPwr | apply kp.when | apply kp.emit
                            | apply kp.resetRegs)
    | intro _ | dsimp only | split | with_reducible apply kp.rest

theorem Keep.opWakeTimer {P : State → Prop} (kp : Keep P) {s : State} (h_s : P s) :
    P (opWakeTimer s) := by
  unfold Sys2Proof.Machine.opWakeTimer
  repeat' first
    | (with_reducible first | assumption | apply ite_keep | apply kp.setPwr | apply kp.emit | apply kp.wr)
    | intro _ | dsimp only | split | with_reducible apply kp.rest

theorem KeepAll.opThermsd {P : State → Prop} (kp : KeepAll P) {s : State} (h_s : P s) :
    P (opThermsd s) := by
  unfold Sys2Proof.Machine.opThermsd
  repeat' first
    | (with_reducible first | assumption | apply ite_keep | apply kp.coldReset | apply kp.toKeep.setPwr
                            | apply kp.toKeep.driveFault | apply kp.toKeep.setBit)
    | intro _ | dsimp only | split | with_reducible apply kp.toKeep.rest

theorem KeepAll.opTemperature {P : State → Prop} (kp : KeepAll P) {tj : Nat} {s : State} (h_s : P s) :
    P (opTemperature tj s) := by
  unfold Sys2Proof.Machine.opTemperature
  repeat' first
    | (with_reducible first | assumption | apply ite_keep | apply kp.opThermsd | apply kp.toKeep.setPwr
                            | apply kp.toKeep.raise | apply kp.toKeep.when | apply kp.toKeep.emit
                            | apply kp.toKeep.setBit | apply kp.toKeep.setFld)
    | intro _ | dsimp only | split | with_reducible apply kp.toKeep.rest

theorem Keep.opDomainStop {P : State → Prop} (kp : Keep P) {d : StopDomain} {s : State} (h_s : P s) :
    P (opDomainStop d s) := by
  unfold Sys2Proof.Machine.opDomainStop
  repeat' first
    | (with_reducible first | assumption | apply ite_keep | apply kp.setBit)
    | intro _ | dsimp only | split | with_reducible apply kp.rest

end Sys2Proof.Machine
end

