-- ==== Sys2Proof/Laws/KeepCommands.lean ====
section
/-! SUPPORT. The operations of Machine/Commands.lean keep every property that single writes keep. -/

namespace Sys2Proof.Machine

open Sys2Proof

theorem Keep.nopBody {P : State → Prop} (kp : Keep P) {e : Entry} {id : Nat} {s : State} (h_s : P s) :
    P (nopBody e id s) := by
  unfold Sys2Proof.Machine.nopBody
  repeat' first
    | (with_reducible first | assumption | apply ite_keep | apply kp.checked | apply kp.complete)
    | intro _ | dsimp only | split | with_reducible apply kp.rest

theorem Keep.queryBody {P : State → Prop} (kp : Keep P) {t : Nat} {e : Entry} {id : Nat} {s : State} (h_s : P s) :
    P (queryBody t e id s) := by
  unfold Sys2Proof.Machine.queryBody
  repeat' first
    | (with_reducible first | assumption | apply ite_keep | apply kp.checked | apply kp.complete)
    | intro _ | dsimp only | split | with_reducible apply kp.rest

theorem Keep.commandBody {P : State → Prop} (kp : Keep P) {t : Nat} {e : Entry} {pb : BlockRead} {id : Nat} {s : State} (h_s : P s) :
    P (commandBody t e pb id s) := by
  unfold Sys2Proof.Machine.commandBody
  repeat' first
    | (with_reducible first | assumption | apply ite_keep | apply kp.queryBody | apply kp.nopBody
                            | apply kp.bistReqBody | apply kp.audPortBody | apply kp.audMapBody | apply kp.migrateBody
                            | apply kp.sliceBody | apply kp.flowTxBody | apply kp.flowRxBody | apply kp.salvoAbortBody
                            | apply kp.salvoCommitBody | apply kp.salvoOpenBody | apply kp.frameGrabBody
                            | apply kp.stillLoadBody | apply kp.layerBody | apply kp.canvasDefBody
                            | apply kp.unrouteBody | apply kp.routeBody | apply kp.timeArmBody | apply kp.complete)
    | intro _ | dsimp only | split | with_reducible apply kp.rest

theorem Keep.opCommandDispatch {P : State → Prop} (kp : Keep P) {pb : BlockRead} {s : State} (h_s : P s) :
    P (opCommandDispatch pb s) := by
  unfold Sys2Proof.Machine.opCommandDispatch
  repeat' first
    | (with_reducible first | assumption | apply ite_keep | apply kp.commandBody | apply kp.dispatch
                            | apply kp.arbitrate)
    | intro _ | dsimp only | split | with_reducible apply kp.rest

theorem Keep.asMirror {P : State → Prop} (kp : Keep P) {s : State} {f : State → State} (h_s : P s) (h_f : ∀ (y0 : State), P y0 → P (f y0)) :
    P (State.asMirror s f) := by
  unfold Sys2Proof.Machine.State.asMirror
  repeat' first
    | (with_reducible first | assumption | apply ite_keep | apply kp.setFld | apply h_f)
    | intro _ | dsimp only | split | with_reducible apply kp.rest

theorem Keep.ghostId {P : State → Prop} (kp : Keep P) {s : State} (h_s : P s) :
    P (State.ghostId s) := by
  unfold Sys2Proof.Machine.State.ghostId
  repeat' first
    | (with_reducible first | assumption | apply ite_keep | apply kp.setHif)
    | intro _ | dsimp only | split | with_reducible apply kp.rest

theorem Keep.mirrorOwner {P : State → Prop} (kp : Keep P) {s : State} {kind : Nat} {i : Nat} {t : Nat} (h_s : P s) :
    P (State.mirrorOwner s kind i t) := by
  unfold Sys2Proof.Machine.State.mirrorOwner
  repeat' first
    | (with_reducible first | assumption | apply ite_keep | apply kp.moveCharges | apply kp.setOwner | apply kp.disarm
                            | apply kp.when)
    | intro _ | dsimp only | split | with_reducible apply kp.rest

theorem Keep.mirrorStill {P : State → Prop} (kp : Keep P) {s : State} {n : Nat} {x : Still} (h_s : P s) :
    P (State.mirrorStill s n x) := by
  unfold Sys2Proof.Machine.State.mirrorStill
  repeat' first
    | (with_reducible first | assumption | apply ite_keep | apply kp.setCmp | apply kp.release | apply kp.alloc)
    | intro _ | dsimp only | split | with_reducible apply kp.rest

theorem Keep.applyMirror {P : State → Prop} (kp : Keep P) {s : State} {x0 : MirrorRecord} (h_s : P s) :
    P (State.applyMirror s x0) := by
  unfold Sys2Proof.Machine.State.applyMirror
  repeat' first
    | (with_reducible first | assumption | apply ite_keep | apply kp.mirrorStill | apply kp.mirrorOwner
                            | apply kp.ghostId | apply kp.asMirror | apply kp.commandBody | apply kp.setTx
                            | apply kp.srWrite | apply kp.command | apply kp.fieldWrite)
    | intro _ | dsimp only | split | with_reducible apply kp.rest

theorem Keep.opMirrorRecord {P : State → Prop} (kp : Keep P) {m : MirrorRecord} {late : Bool} {s : State} (h_s : P s) :
    P (opMirrorRecord m late s) := by
  unfold Sys2Proof.Machine.opMirrorRecord
  repeat' first
    | (with_reducible first | assumption | apply ite_keep | apply kp.applyMirror | apply kp.when | apply kp.inc)
    | intro _ | dsimp only | split | with_reducible apply kp.rest

end Sys2Proof.Machine
end

