-- ==== Sys2Proof/Laws/KeepRegWrite.lean ====
section
/-! SUPPORT. The operations of Machine/RegWrite.lean keep every property that single writes keep. -/

namespace Sys2Proof.Machine

open Sys2Proof

theorem Keep.opVectorControl {P : State → Prop} (kp : Keep P) {t : Nat} {v : Nat} {a : Nat} {w : Word} {s : State} (h_s : P s) :
    P (opVectorControl t v a w s) := by
  unfold Sys2Proof.Machine.opVectorControl
  repeat' first
    | (with_reducible first | assumption | apply ite_keep | apply kp.fieldWrite | apply kp.unmask)
    | intro _ | dsimp only | split | with_reducible apply kp.rest

theorem Keep.opSrcCfg {P : State → Prop} (kp : Keep P) {n : Nat} {v : Word} {s : State} (h_s : P s) :
    P (opSrcCfg n v s) := by
  unfold Sys2Proof.Machine.opSrcCfg
  repeat' first
    | (with_reducible first | assumption | apply ite_keep | apply kp.hdgToClear | apply kp.fieldWrite)
    | intro _ | dsimp only | split | with_reducible apply kp.rest

theorem Keep.opRxCfg {P : State → Prop} (kp : Keep P) {n : Nat} {v : Word} {s : State} (h_s : P s) :
    P (opRxCfg n v s) := by
  unfold Sys2Proof.Machine.opRxCfg
  repeat' first
    | (with_reducible first | assumption | apply ite_keep | apply kp.fieldWrite | apply kp.when | apply kp.setFld)
    | intro _ | dsimp only | split | with_reducible apply kp.rest

theorem Keep.opGrantCmd {P : State → Prop} (kp : Keep P) {v : Word} {s : State} (h_s : P s) :
    P (opGrantCmd v s) := by
  unfold Sys2Proof.Machine.opGrantCmd
  repeat' first
    | (with_reducible first | assumption | apply ite_keep | apply kp.opObjGrant | apply kp.tenRefuse
                            | apply kp.fieldWrite)
    | intro _ | dsimp only | split | with_reducible apply kp.rest

theorem Keep.opGrantCtl {P : State → Prop} (kp : Keep P) {v : Word} {s : State} (h_s : P s) :
    P (opGrantCtl v s) := by
  unfold Sys2Proof.Machine.opGrantCtl
  repeat' first
    | (with_reducible first | assumption | apply ite_keep | apply kp.grantTake | apply kp.grantCtl | apply kp.when)
    | intro _ | dsimp only | split | with_reducible apply kp.rest

theorem Keep.opFovCmd {P : State → Prop} (kp : Keep P) {v : Word} {s : State} (h_s : P s) :
    P (opFovCmd v s) := by
  unfold Sys2Proof.Machine.opFovCmd
  repeat' first
    | (with_reducible first | assumption | apply ite_keep | apply kp.opFovClrcnt | apply kp.opYield
                            | apply kp.opRecover | apply kp.opResync | apply kp.opRelease | apply kp.opClaim
                            | apply kp.when)
    | intro _ | dsimp only | split | with_reducible apply kp.rest

theorem KeepAll.opPwrCmd {P : State → Prop} (kp : KeepAll P) {v : Word} {s : State} (h_s : P s) :
    P (opPwrCmd v s) := by
  unfold Sys2Proof.Machine.opPwrCmd
  repeat' first
    | (with_reducible first | assumption | apply ite_keep | apply kp.opWarm | apply kp.toKeep.opShutdown
                            | apply kp.toKeep.opActive | apply kp.toKeep.opFallow | apply kp.toKeep.pwrRefuse
                            | apply kp.toKeep.when)
    | intro _ | dsimp only | split | with_reducible apply kp.toKeep.rest

theorem KeepAll.opSvcCmd {P : State → Prop} (kp : KeepAll P) {v : Word} {s : State} (h_s : P s) :
    P (opSvcCmd v s) := by
  unfold Sys2Proof.Machine.opSvcCmd
  repeat' first
    | (with_reducible first | assumption | apply ite_keep | apply kp.opSvcGo)
    | intro _ | dsimp only | split | with_reducible apply kp.toKeep.rest

theorem Keep.opTbCmd {P : State → Prop} (kp : Keep P) {b : Nat} {v : Word} {s : State} (h_s : P s) :
    P (opTbCmd b v s) := by
  unfold Sys2Proof.Machine.opTbCmd
  repeat' first
    | (with_reducible first | assumption | apply ite_keep | apply kp.opForceDom | apply kp.opSnap | apply kp.opLoad
                            | apply kp.when)
    | intro _ | dsimp only | split | with_reducible apply kp.rest

theorem Keep.opSrCmd {P : State → Prop} (kp : Keep P) {r : Nat} {v : Word} {s : State} (h_s : P s) :
    P (opSrCmd r v s) := by
  unfold Sys2Proof.Machine.opSrCmd
  repeat' first
    | (with_reducible first | assumption | apply ite_keep | apply kp.srClear | apply kp.srLearn | apply kp.when)
    | intro _ | dsimp only | split | with_reducible apply kp.rest

theorem Keep.opRrCmd {P : State → Prop} (kp : Keep P) {v : Word} {s : State} (h_s : P s) :
    P (opRrCmd v s) := by
  unfold Sys2Proof.Machine.opRrCmd
  repeat' first
    | (with_reducible first | assumption | apply ite_keep | apply kp.opRemoteWrite | apply kp.opRemoteRead)
    | intro _ | dsimp only | split | with_reducible apply kp.rest

theorem Keep.clampAt {P : State → Prop} (kp : Keep P) {s : State} {base : Nat} {a : Nat} (h_s : P s) :
    P (State.clampAt s base a) := by
  unfold Sys2Proof.Machine.State.clampAt
  repeat' first
    | (with_reducible first | assumption | apply ite_keep | apply kp.each | apply kp.setFld)
    | intro _ | dsimp only | split | with_reducible apply kp.rest

theorem Keep.opCtrl {P : State → Prop} (kp : Keep P) {a : Nat} {f : Field} {v : Word} {clr : State → State} {s : State} (h_clr : ∀ (y0 : State), P y0 → P (clr y0)) (h_s : P s) :
    P (opCtrl a f v clr s) := by
  unfold Sys2Proof.Machine.opCtrl
  repeat' first
    | (with_reducible first | assumption | apply ite_keep | apply kp.fieldWrite | apply kp.when | apply h_clr)
    | intro _ | dsimp only | split | with_reducible apply kp.rest

theorem Keep.writePage {P : State → Prop} (kp : Keep P) {s : State} {base : Nat} {t : Nat} {r : Nat} {a : Nat} {v : Word} (h_s : P s) :
    P (State.writePage s base t r a v) := by
  unfold Sys2Proof.Machine.State.writePage
  repeat' first
    | (with_reducible first | assumption | apply ite_keep | apply kp.opVectorControl | apply kp.opRingStat
                            | apply kp.opRingBase | apply kp.opRingCtrl | apply kp.opDoorbell | apply kp.fieldWrite)
    | intro _ | dsimp only | split | with_reducible apply kp.rest

theorem Keep.writeHif {P : State → Prop} (kp : Keep P) {s : State} {base : Nat} {n : Nat} {a : Nat} {v : Word} (h_s : P s) :
    P (State.writeHif s base n a v) := by
  unfold Sys2Proof.Machine.State.writeHif
  repeat' first
    | (with_reducible first | assumption | apply ite_keep | apply kp.opDmaRbase | apply kp.opDmaPidx
                            | apply kp.opDmaCtrl | apply kp.fieldWrite)
    | intro _ | dsimp only | split | with_reducible apply kp.rest

theorem Keep.writeTen {P : State → Prop} (kp : Keep P) {s : State} {base : Nat} {i : Nat} {j : Nat} {a : Nat} {v : Word} (h_s : P s) :
    P (State.writeTen s base i j a v) := by
  unfold Sys2Proof.Machine.State.writeTen
  repeat' first
    | (with_reducible first | assumption | apply ite_keep | apply kp.opGrantCmd | apply kp.opReservation
                            | apply kp.opTenCfg | apply kp.tenRefuse | apply kp.fieldWrite)
    | intro _ | dsimp only | split | with_reducible apply kp.rest

theorem Keep.opXptCtrl {P : State → Prop} (kp : Keep P) {v : Word} {s : State} (h_s : P s) :
    P (opXptCtrl v s) := by
  unfold Sys2Proof.Machine.opXptCtrl
  repeat' first
    | (with_reducible first | assumption | apply ite_keep | apply kp.opCtrl | apply kp.opXptClrcnt
                            | apply kp.opForceRot | apply kp.setPlanes | apply kp.when)
    | intro _ | dsimp only | split | with_reducible apply kp.rest

theorem Keep.writeXptFsa {P : State → Prop} (kp : Keep P) {s : State} {base : Nat} {a : Nat} {v : Word} (h_s : P s) :
    P (State.writeXptFsa s base a v) := by
  unfold Sys2Proof.Machine.State.writeXptFsa
  repeat' first
    | (with_reducible first | assumption | apply ite_keep | apply kp.opXptCtrl | apply kp.opCtrl | apply kp.clampAt
                            | apply kp.opSuIdx | apply kp.opRtIdx | apply kp.opFsaClrcnt | apply kp.opDlData
                            | apply kp.opAlIdx | apply kp.realignAll | apply kp.opRetireCmd | apply kp.fieldWrite)
    | intro _ | dsimp only | split | with_reducible apply kp.rest

theorem Keep.writeCmp {P : State → Prop} (kp : Keep P) {s : State} {base : Nat} {i : Nat} {a : Nat} {v : Word} (h_s : P s) :
    P (State.writeCmp s base i a v) := by
  unfold Sys2Proof.Machine.State.writeCmp
  repeat' first
    | (with_reducible first | assumption | apply ite_keep | apply kp.opCtrl | apply kp.clampAt | apply kp.opSrCmd
                            | apply kp.opCmpClrcnt | apply kp.opCvIdx | apply kp.opEnIdx | apply kp.opSrCfg
                            | apply kp.fieldWrite)
    | intro _ | dsimp only | split | with_reducible apply kp.rest

theorem Keep.writeMlnMac {P : State → Prop} (kp : Keep P) {s : State} {base : Nat} {n : Nat} {a : Nat} {v : Word} (h_s : P s) :
    P (State.writeMlnMac s base n a v) := by
  unfold Sys2Proof.Machine.State.writeMlnMac
  repeat' first
    | (with_reducible first | assumption | apply ite_keep | apply kp.opCtrl | apply kp.opRxCfg | apply kp.opMacClrcnt
                            | apply kp.opMacSnap | apply kp.opMaxLen | apply kp.opMppCfg | apply kp.opMlnClrcnt
                            | apply kp.opTxfmt | apply kp.opMlnCtrl | apply kp.fieldWrite)
    | intro _ | dsimp only | split | with_reducible apply kp.rest

theorem Keep.writeEssBlk {P : State → Prop} (kp : Keep P) {s : State} {base : Nat} {n : Nat} {a : Nat} {v : Word} (h_s : P s) :
    P (State.writeEssBlk s base n a v) := by
  unfold Sys2Proof.Machine.State.writeEssBlk
  repeat' first
    | (with_reducible first | assumption | apply ite_keep | apply kp.opCtrl | apply kp.opRrCmd | apply kp.opBlkClrcnt
                            | apply kp.opFtimeSnap | apply kp.opTrunkSlot | apply kp.opLaneCfg | apply kp.opLinkCfg
                            | apply kp.opEssClrcnt | apply kp.opFtIdx | apply kp.opFrIdx | apply kp.fieldWrite
                            | apply kp.when)
    | intro _ | dsimp only | split | with_reducible apply kp.rest

theorem Keep.writeAudTimClk {P : State → Prop} (kp : Keep P) {s : State} {base : Nat} {n : Nat} {a : Nat} {v : Word} (h_s : P s) :
    P (State.writeAudTimClk s base n a v) := by
  unfold Sys2Proof.Machine.State.writeAudTimClk
  repeat' first
    | (with_reducible first | assumption | apply ite_keep | apply kp.opCtrl | apply kp.clampAt | apply kp.opTbCmd
                            | apply kp.opClkClrcnt | apply kp.opGenout | apply kp.opClkAlign | apply kp.opRealign
                            | apply kp.opPriWrite | apply kp.opAudClrcnt | apply kp.opMapIdx | apply kp.opDeIdx
                            | apply kp.opPdmCfg | apply kp.opTimClrcnt | apply kp.opTbCtrl | apply kp.opFreq
                            | apply kp.opTbGuarded | apply kp.opAdjWrite | apply kp.opSnapAll | apply kp.opTpoCfg
                            | apply kp.fieldWrite | apply kp.when)
    | intro _ | dsimp only | split | with_reducible apply kp.rest

theorem Keep.writeHdgBst {P : State → Prop} (kp : Keep P) {s : State} {base : Nat} {n : Nat} {a : Nat} {v : Word} (h_s : P s) :
    P (State.writeHdgBst s base n a v) := by
  unfold Sys2Proof.Machine.State.writeHdgBst
  repeat' first
    | (with_reducible first | assumption | apply ite_keep | apply kp.opCtrl | apply kp.opSrcCfg | apply kp.opBstClrcnt
                            | apply kp.opUnitIdx | apply kp.opOosWrite | apply kp.withAutoRetire
                            | apply kp.opHdgClrcnt | apply kp.opHdgFirstclr | apply kp.opHdgClr | apply kp.opHdgAck
                            | apply kp.fieldWrite | apply kp.raiseForced | apply kp.when)
    | intro _ | dsimp only | split | with_reducible apply kp.rest

theorem Keep.writeRegion {P : State → Prop} (kp : Keep P) {s : State} {r : Nat} {o : Nat} {a : Nat} {v : Word} (h_s : P s) :
    P (State.writeRegion s r o a v) := by
  unfold Sys2Proof.Machine.State.writeRegion
  repeat' first
    | (with_reducible first | assumption | apply ite_keep | apply kp.opSrCmd | apply kp.srWrite | apply kp.fieldWrite)
    | intro _ | dsimp only | split | with_reducible apply kp.rest

theorem KeepAll.hostWrite {P : State → Prop} (kp : KeepAll P) {s : State} {a : Nat} {v : Word} (h_s : P s) :
    P (State.hostWrite s a v) := by
  unfold Sys2Proof.Machine.State.hostWrite
  repeat' first
    | (with_reducible first | assumption | apply ite_keep | apply kp.toKeep.writeRegion | apply kp.toKeep.writeHdgBst
                            | apply kp.toKeep.writeAudTimClk | apply kp.toKeep.writeEssBlk
                            | apply kp.toKeep.writeMlnMac | apply kp.toKeep.writeCmp | apply kp.toKeep.writeXptFsa
                            | apply kp.toKeep.writeTen | apply kp.toKeep.writeHif | apply kp.toKeep.writePage
                            | apply kp.toKeep.clampAt | apply kp.opSvcCmd | apply kp.opPwrCmd
                            | apply kp.toKeep.opFovCmd | apply kp.toKeep.opGrantCtl | apply kp.toKeep.fieldWrite)
    | intro _ | dsimp only | split | with_reducible apply kp.toKeep.rest

theorem KeepAll.opRegisterWrite {P : State → Prop} (kp : KeepAll P) {sp : RegSpace} {off : Nat} {v : Word} {hi : Option Word} {s : State} (h_s : P s) :
    P (opRegisterWrite sp off v hi s) := by
  unfold Sys2Proof.Machine.opRegisterWrite
  repeat' first
    | (with_reducible first | assumption | apply ite_keep | apply kp.hostWrite | apply kp.toKeep.raise)
    | intro _ | dsimp only | split | with_reducible apply kp.toKeep.rest

theorem Keep.countAccess {P : State → Prop} (kp : Keep P) {s : State} {off : Nat} (h_s : P s) :
    P (State.countAccess s off) := by
  unfold Sys2Proof.Machine.State.countAccess
  repeat' first
    | (with_reducible first | assumption | apply ite_keep | apply kp.raise | apply kp.when)
    | intro _ | dsimp only | split | with_reducible apply kp.rest

theorem KeepAll.opRregWr {P : State → Prop} (kp : KeepAll P) {off : Nat} {v : Word} {s : State} (h_s : P s) :
    P (opRregWr off v s) := by
  unfold Sys2Proof.Machine.opRregWr
  repeat' first
    | (with_reducible first | assumption | apply ite_keep | apply kp.toKeep.countAccess | apply kp.hostWrite)
    | intro _ | dsimp only | split | with_reducible apply kp.toKeep.rest

theorem Keep.opRregRd {P : State → Prop} (kp : Keep P) {src : Nat} {tag : Nat} {off : Nat} {s : State} (h_s : P s) :
    P (opRregRd src tag off s) := by
  unfold Sys2Proof.Machine.opRregRd
  repeat' first
    | (with_reducible first | assumption | apply ite_keep | apply kp.countAccess | apply kp.answer)
    | intro _ | dsimp only | split | with_reducible apply kp.rest

end Sys2Proof.Machine
end

