-- ==== Sys2Proof/Laws/KeepBoot.lean ====
section
/-! SUPPORT. The operations of Machine/Boot.lean keep every property that single writes keep. -/

namespace Sys2Proof.Machine

open Sys2Proof

theorem KeepAll.boardSlot {P : State → Prop} (kp : KeepAll P) {s : State} {board : List (Fin 3 × Image)} {k : Nat} (h_s : P s) :
    P (State.boardSlot s board k) := by
  unfold Sys2Proof.Machine.State.boardSlot
  repeat' first
    | (with_reducible first | assumption | apply ite_keep | apply kp.setFlash)
    | intro _ | dsimp only | split | with_reducible apply kp.toKeep.rest

theorem KeepAll.readFlash {P : State → Prop} (kp : KeepAll P) {s : State} {board : List (Fin 3 × Image)} (h_s : P s) :
    P (State.readFlash s board) := by
  unfold Sys2Proof.Machine.State.readFlash
  repeat' first
    | (with_reducible first | assumption | apply ite_keep | apply kp.boardSlot | apply kp.toKeep.each)
    | intro _ | dsimp only | split | with_reducible apply kp.toKeep.rest

theorem Keep.slotFails {P : State → Prop} (kp : Keep P) {s : State} {k : Nat} (h_s : P s) :
    P (State.slotFails s k) := by
  unfold Sys2Proof.Machine.State.slotFails
  repeat' first
    | (with_reducible first | assumption | apply ite_keep | apply kp.countFail | apply kp.setBit)
    | intro _ | dsimp only | split | with_reducible apply kp.rest

theorem Keep.tryslots {P : State → Prop} (kp : Keep P) {s : State} {x0 : List Nat} (h_s : P s) :
    P (State.tryslots s x0).1 := by
  induction x0 generalizing s with
  | nil => exact h_s
  | cons a t ih =>
    unfold Sys2Proof.Machine.State.tryslots
    split
    · exact h_s
    · exact ih (kp.slotFails h_s)

theorem Keep.bootImage {P : State → Prop} (kp : Keep P) {s : State} (h_s : P s) :
    P (State.bootImage s).1 := by
  unfold Sys2Proof.Machine.State.bootImage
  repeat' first
    | (with_reducible first | assumption | apply ite_keep | apply kp.tryslots)
    | intro _ | dsimp only | split | with_reducible apply kp.rest

theorem Keep.nameImage {P : State → Prop} (kp : Keep P) {s : State} {slot : Option Nat} {i : Image} (h_s : P s) :
    P (State.nameImage s slot i) := by
  unfold Sys2Proof.Machine.State.nameImage
  repeat' first
    | (with_reducible first | assumption | apply ite_keep | apply kp.setSvc | apply kp.setBit | apply kp.setFld
                            | apply kp.wr)
    | intro _ | dsimp only | split | with_reducible apply kp.rest

theorem Keep.holdFailures {P : State → Prop} (kp : Keep P) {s : State} {l : List Nat} (h_s : P s) :
    P (State.holdFailures s l) := by
  unfold Sys2Proof.Machine.State.holdFailures
  repeat' first
    | (with_reducible first | assumption | apply ite_keep | apply kp.setFailed | apply kp.each)
    | intro _ | dsimp only | split | with_reducible apply kp.rest

theorem Keep.reportFailures {P : State → Prop} (kp : Keep P) {s : State} {l : List Nat} (h_s : P s) :
    P (State.reportFailures s l) := by
  unfold Sys2Proof.Machine.State.reportFailures
  repeat' first
    | (with_reducible first | assumption | apply ite_keep | apply kp.failUnit | apply kp.opStackFail | apply kp.each)
    | intro _ | dsimp only | split | with_reducible apply kp.rest

theorem KeepAll.consumeRecord {P : State → Prop} (kp : KeepAll P) {s : State} (h_s : P s) :
    P (State.consumeRecord s) := by
  unfold Sys2Proof.Machine.State.consumeRecord
  repeat' first
    | (with_reducible first | assumption | apply ite_keep | apply kp.setFlash | apply kp.toKeep.emit)
    | intro _ | dsimp only | split | with_reducible apply kp.toKeep.rest

theorem Keep.loadRows {P : State → Prop} (kp : Keep P) {s : State} {rows : List Nat} (h_s : P s) :
    P (State.loadRows s rows) := by
  unfold Sys2Proof.Machine.State.loadRows
  repeat' first
    | (with_reducible first | assumption | apply ite_keep | apply kp.setBst | apply kp.setFld)
    | intro _ | dsimp only | split | with_reducible apply kp.rest

theorem KeepAll.startTest {P : State → Prop} (kp : KeepAll P) {s : State} {i : Image} {found : List Nat} (h_s : P s) :
    P (State.startTest s i found).1 := by
  unfold Sys2Proof.Machine.State.startTest
  repeat' first
    | (with_reducible first | assumption | apply ite_keep | apply kp.toKeep.loadRows | apply kp.consumeRecord
                            | apply kp.toKeep.holdFailures | apply kp.toKeep.setBst | apply kp.toKeep.when
                            | apply kp.toKeep.setBit)
    | intro _ | dsimp only | split | with_reducible apply kp.toKeep.rest

theorem KeepAll.applyRecord {P : State → Prop} (kp : KeepAll P) {s : State} {r : BankRecord} (h_s : P s) :
    P (State.applyRecord s r) := by
  unfold Sys2Proof.Machine.State.applyRecord
  repeat' first
    | (with_reducible first | assumption | apply ite_keep | apply kp.hostWrite | apply kp.toKeep.setFld)
    | intro _ | dsimp only | split | with_reducible apply kp.toKeep.rest

theorem KeepAll.applyBank {P : State → Prop} (kp : KeepAll P) {s : State} {inB : Bool} {b : Bank} (h_s : P s) :
    P (State.applyBank s inB b) := by
  unfold Sys2Proof.Machine.State.applyBank
  repeat' first
    | (with_reducible first | assumption | apply ite_keep | apply kp.applyRecord | apply kp.toKeep.each
                            | apply kp.toKeep.setBit | apply kp.toKeep.wr)
    | intro _ | dsimp only | split | with_reducible apply kp.toKeep.rest

theorem KeepAll.chooseBank {P : State → Prop} (kp : KeepAll P) {s : State} {i : Image} (h_s : P s) :
    P (State.chooseBank s i) := by
  unfold Sys2Proof.Machine.State.chooseBank
  repeat' first
    | (with_reducible first | assumption | apply ite_keep | apply kp.applyBank | apply kp.toKeep.promote
                            | apply kp.toKeep.raise | apply kp.toKeep.setBit)
    | intro _ | dsimp only | split | with_reducible apply kp.toKeep.rest

theorem Keep.reportStart {P : State → Prop} (kp : Keep P) {s : State} {failed : List Nat} {rows : List Nat} {fastMiss : Bool} (h_s : P s) :
    P (State.reportStart s failed rows fastMiss) := by
  unfold Sys2Proof.Machine.State.reportStart
  repeat' first
    | (with_reducible first | assumption | apply ite_keep | apply kp.reportFailures | apply kp.setPwr
                            | apply kp.rowFailed | apply kp.raise | apply kp.when | apply kp.each)
    | intro _ | dsimp only | split | with_reducible apply kp.rest

theorem KeepAll.opStartUp {P : State → Prop} (kp : KeepAll P) {r : StartReport} {s : State} (h_s : P s) :
    P (opStartUp r s) := by
  unfold Sys2Proof.Machine.opStartUp
  repeat' first
    | (with_reducible first | assumption | apply ite_keep | apply kp.toKeep.reportStart | apply kp.chooseBank
                            | apply kp.startTest | apply kp.toKeep.nameImage | apply kp.toKeep.bootImage
                            | apply kp.readFlash | apply kp.toKeep.setPwr | apply kp.toKeep.fovReady
                            | apply kp.toKeep.complete | apply kp.toKeep.setBit)
    | intro _ | dsimp only | split | with_reducible apply kp.toKeep.rest

end Sys2Proof.Machine
end

