-- ==== Sys2Proof/Laws/Sedge.lean ====
section
/-! SUPPORT. Sedge tile coding is lossless (R256-R259): mapping, values, runs and whole coded tiles read back as they were
written. -/

namespace Sys2Proof.Machine

open Sys2Proof

@[simp] theorem lsbBits_length (w n : Nat) : (lsbBits w n).length = w := by
  induction w generalizing n with
  | zero => rfl
  | succ w ih => simp [lsbBits, ih]

theorem ofLsb_lsbBits (w n : Nat) : ofLsb (lsbBits w n) = n % 2 ^ w := by
  induction w generalizing n with
  | zero => simp [lsbBits, ofLsb, Nat.mod_one]
  | succ w ih =>
    have h : n % 2 ^ (w + 1) = n % 2 + 2 * (n / 2 % 2 ^ w) := by rw [Nat.pow_succ', Nat.mod_mul]
    have h2 : (if (n % 2 == 1) = true then 1 else 0) = n % 2 := by
      rcases Nat.mod_two_eq_zero_or_one n with h | h <;> simp [h]
    simp only [lsbBits, ofLsb, ih, h, h2]

/-- A field of `w` bits reads back. -/
theorem takeBits_lsbBits (w n : Nat) (l : List Bool) : takeBits w (lsbBits w n ++ l) = some (n % 2 ^ w, l) := by
  have h1 : (lsbBits w n ++ l).take w = lsbBits w n := by
    rw [List.take_append_of_le_length (by simp)]; simp [List.take_of_length_le]
  have h2 : (lsbBits w n ++ l).drop w = l := by simp
  simp [takeBits, h1, h2, ofLsb_lsbBits]

theorem takeOnes_replicate (n q : Nat) (l : List Bool) (h : q < n) :
    takeOnes n (List.replicate q true ++ false :: l) = (q, false :: l) := by
  induction q generalizing n with
  | zero => cases n with
    | zero => omega
    | succ n => rfl
  | succ q ih => cases n with
    | zero => omega
    | succ n => simp [List.replicate_succ, takeOnes, ih n (by omega)]

theorem takeOnes_full (n : Nat) (l : List Bool) : takeOnes n (List.replicate n true ++ l) = (n, l) := by
  induction n with
  | zero => rfl
  | succ n ih => simp [List.replicate_succ, takeOnes, ih]

/-- R258: a mapped value reads back under the parameter it was written with. -/
theorem sedgeReadValue_value (b k m : Nat) (l : List Bool) (hm : m < 2 ^ b) :
    sedgeReadValue b k (sedgeValue b k m ++ l) = some (m, l) := by
  unfold sedgeReadValue sedgeValue
  by_cases h : m / 2 ^ k < 16
  · simp only [h, if_true, List.append_assoc, List.cons_append]
    rw [takeOnes_replicate 16 _ _ h]
    have hne : m / 2 ^ k ≠ 16 := by omega
    simp only [hne, if_false, takeBits_lsbBits, Option.map_some]
    have := Nat.div_add_mod m (2 ^ k)
    rw [Nat.mul_comm] at this
    simp [this]
  · simp only [h, if_false, List.append_assoc]
    rw [takeOnes_full 16]
    simp only [if_true, takeBits_lsbBits, Nat.mod_eq_of_lt hm]

theorem sedgeReadValues_values (b k : Nat) (ms : List Nat) (l : List Bool) (hm : ∀ m ∈ ms, m < 2 ^ b) :
    sedgeReadValues b k ms.length (ms.flatMap (sedgeValue b k) ++ l) = some (ms, l) := by
  induction ms with
  | nil => rfl
  | cons m ms ih =>
    have h1 : m < 2 ^ b := hm m (by simp)
    have h2 : ∀ x ∈ ms, x < 2 ^ b := fun x hx => hm x (by simp [hx])
    simp only [List.length_cons, List.flatMap_cons, List.append_assoc, sedgeReadValues,
      sedgeReadValue_value b k m _ h1, ih h2, Option.map_some]

theorem sedgeBest_le (b : Nat) (l : List Nat) (k : Nat) : sedgeBest b l k ≤ k := by
  induction k with
  | zero => simp [sedgeBest]
  | succ k ih => simp only [sedgeBest]; split <;> omega

/-- R258: no parameter from 0 to 12 gives fewer bits than the one the writer takes. -/
theorem sedgeBest_least (b : Nat) (l : List Nat) (k j : Nat) (hj : j ≤ k) :
    sedgeCost b (sedgeBest b l k) l ≤ sedgeCost b j l := by
  induction k with
  | zero => simp [Nat.le_zero.mp hj, sedgeBest]
  | succ k ih =>
    simp only [sedgeBest]
    rcases Nat.lt_or_ge j (k + 1) with h | h
    · have := ih (by omega)
      split <;> omega
    · have : j = k + 1 := by omega
      subst this
      split <;> omega

theorem sedgeReadRuns_runs (b n : Nat) (ms : List Nat) (l : List Bool) (hl : ms.length = 8 * n)
    (hm : ∀ m ∈ ms, m < 2 ^ b) : sedgeReadRuns b n (sedgeRuns b n ms ++ l) = some (ms, l) := by
  induction n generalizing ms with
  | zero => simp at hl; simp [hl, sedgeReadRuns, sedgeRuns]
  | succ n ih =>
    have hk : sedgeParam b (ms.take 8) ≤ 12 := sedgeBest_le b _ 12
    have h8 : (ms.take 8).length = 8 := by simp; omega
    have hv := sedgeReadValues_values b (sedgeParam b (ms.take 8)) (ms.take 8) (sedgeRuns b n (ms.drop 8) ++ l)
      (fun m h => hm m (List.mem_of_mem_take h))
    rw [h8] at hv
    have hr := ih (ms.drop 8) (by simp; omega) (fun m h => hm m (List.mem_of_mem_drop h))
    have h16 : sedgeParam b (ms.take 8) % 2 ^ 4 = sedgeParam b (ms.take 8) := Nat.mod_eq_of_lt (by omega)
    simp only [sedgeReadRuns, sedgeRuns, sedgeRun, List.append_assoc, takeBits_lsbBits, h16, Nat.not_lt.mpr hk, if_false,
      hv, hr, Option.map_some, List.take_append_drop]

/-- The arithmetic of R257 with half range `H`. -/
theorem wrap_unwrap (H x p d : Nat) (hx : x < 2 * H) (hp : p < 2 * H) (hd : d = (x + 2 * H - p) % (2 * H)) :
    (if (if d < H then 2 * d else 2 * (2 * H - d) - 1) % 2 = 0
      then (p + (if d < H then 2 * d else 2 * (2 * H - d) - 1) / 2) % (2 * H)
      else (p + 2 * H - ((if d < H then 2 * d else 2 * (2 * H - d) - 1) + 1) / 2) % (2 * H)) = x := by
  have hd' : d + p = x ∨ d + p = x + 2 * H := by
    rcases Nat.le_total p x with h | h
    · left
      rw [hd, show x + 2 * H - p = (x - p) + 2 * H by omega, Nat.add_mod_right, Nat.mod_eq_of_lt (by omega)]
      omega
    · rcases Nat.eq_or_lt_of_le h with h | h
      · left; subst h; rw [hd]; simp
      · right; rw [hd, Nat.mod_eq_of_lt (by omega)]; omega
  have hlt : d < 2 * H := by rw [hd]; exact Nat.mod_lt _ (by omega)
  have fin : ∀ y, (y = x ∨ y = x + 2 * H) → y % (2 * H) = x := by
    rintro y (rfl | rfl)
    · exact Nat.mod_eq_of_lt hx
    · rw [Nat.add_mod_right, Nat.mod_eq_of_lt hx]
  by_cases h : d < H
  · simp only [h, if_true, Nat.mul_mod_right]; exact fin _ (by omega)
  · have h1 : ¬ (2 * (2 * H - d) - 1) % 2 = 0 := by omega
    simp only [h, if_false, h1]; exact fin _ (by omega)

/-- R257: a sample reads back from its mapped value and the same prediction. -/
theorem sedgeUnmap_map (b x pred : Nat) (hb : 0 < b) (hx : x < 2 ^ b) (hp : pred < 2 ^ b) :
    sedgeUnmap b (sedgeMap b x pred) pred = x := by
  obtain ⟨c, rfl⟩ : ∃ c, b = c + 1 := ⟨b - 1, by omega⟩
  rw [Nat.pow_succ'] at hx hp
  simp only [sedgeMap, sedgeUnmap, Nat.add_sub_cancel, Nat.pow_succ']
  exact wrap_unwrap _ _ _ _ hx hp rfl

theorem sedgeMap_lt (b x pred : Nat) (hb : 0 < b) : sedgeMap b x pred < 2 ^ b := by
  obtain ⟨c, rfl⟩ : ∃ c, b = c + 1 := ⟨b - 1, by omega⟩
  have h2 : 2 ^ (c + 1) = 2 * 2 ^ c := Nat.pow_succ'
  have h1 : 0 < 2 ^ (c + 1) := Nat.two_pow_pos _
  have h3 := Nat.mod_lt (x + 2 ^ (c + 1) - pred) h1
  simp only [sedgeMap, Nat.add_sub_cancel]
  split <;> omega

theorem getD_lt (l : List Nat) (i n : Nat) (h : ∀ x ∈ l, x < n) (hn : 0 < n) : l.getD i 0 < n := by
  rw [List.getD_eq_getElem?_getD]
  rcases hi : l[i]? with _ | x
  · simpa using hn
  · simpa using h x (List.mem_of_getElem? hi)

theorem sedgePredict_lt (b w : Nat) (done : List Nat) (hb : 0 < b) (h : ∀ x ∈ done, x < 2 ^ b) :
    sedgePredict b w done < 2 ^ b := by
  have hp : 0 < 2 ^ b := Nat.two_pow_pos _
  have h0 := getD_lt done 0 _ h hp
  have h1 := getD_lt done (w - 1) _ h hp
  have h2 := getD_lt done w _ h hp
  have h3 : 2 ^ (b - 1) < 2 ^ b := Nat.pow_lt_pow_right (by omega) (by omega)
  simp only [sedgePredict, sedgeMed]
  repeat' split
  all_goals omega

theorem sedgeMaps_length (b w : Nat) (l done : List Nat) : (sedgeMaps b w l done).length = l.length := by
  induction l generalizing done with
  | nil => rfl
  | cons x t ih => simp [sedgeMaps, ih]

theorem sedgeMaps_lt (b w : Nat) (l done : List Nat) (hb : 0 < b) : ∀ m ∈ sedgeMaps b w l done, m < 2 ^ b := by
  induction l generalizing done with
  | nil => simp [sedgeMaps]
  | cons x t ih =>
    intro m hm
    simp only [sedgeMaps, List.mem_cons] at hm
    rcases hm with rfl | hm
    · exact sedgeMap_lt b x _ hb
    · exact ih _ m hm

/-- R257: the samples of a component read back from their mapped values. -/
theorem sedgeUnmaps_maps (b w : Nat) (l done : List Nat) (hb : 0 < b) (hl : ∀ x ∈ l, x < 2 ^ b)
    (hd : ∀ x ∈ done, x < 2 ^ b) : sedgeUnmaps b w (sedgeMaps b w l done) done = l := by
  induction l generalizing done with
  | nil => rfl
  | cons x t ih =>
    have hx : x < 2 ^ b := hl x (by simp)
    have h1 := sedgeUnmap_map b x (sedgePredict b w done) hb hx (sedgePredict_lt b w done hb hd)
    simp only [sedgeMaps, sedgeUnmaps, h1]
    rw [ih (x :: done) (fun y hy => hl y (by simp [hy]))]
    intro y hy
    rcases List.mem_cons.mp hy with rfl | hy
    · exact hx
    · exact hd y hy

/-- R257, R258: a coded tile reads back as the samples that were written, whatever follows it in its slot. -/
theorem sedgeReadCode_code (b : Nat) (hb : 0 < b) (comps : List (Nat × List Nat)) (l : List Bool)
    (h : ∀ c ∈ comps, c.2.length = 8 * c.1 ∧ ∀ x ∈ c.2, x < 2 ^ b) :
    sedgeReadCode b (comps.map Prod.fst) (sedgeCode b comps ++ l) = some (comps.map Prod.snd) := by
  induction comps with
  | nil => rfl
  | cons c t ih =>
    have hc := h c (by simp)
    have hr := sedgeReadRuns_runs b c.1 (sedgeMaps b c.1 c.2 []) (sedgeCode b t ++ l)
      (by rw [sedgeMaps_length]; exact hc.1) (sedgeMaps_lt b c.1 c.2 [] hb)
    have ht := ih (fun d hd => h d (by simp [hd]))
    have hu := sedgeUnmaps_maps b c.1 c.2 [] hb hc.2 (by simp)
    simp only [sedgeCode, List.flatMap_cons, List.append_assoc, List.map_cons, sedgeReadCode] at hr ht ⊢
    simp [hr, ht, hu]

/-! ## Bytes -/

theorem ofLsb_lt (l : List Bool) : ofLsb l < 2 ^ l.length := by
  induction l with
  | nil => simp [ofLsb]
  | cons b t ih => simp only [ofLsb, List.length_cons, Nat.pow_succ]; split <;> omega

theorem lsbBits_ofLsb (l : List Bool) (w : Nat) (h : l.length ≤ w) :
    lsbBits w (ofLsb l) = l ++ List.replicate (w - l.length) false := by
  induction w generalizing l with
  | zero => simp at h; simp [h, lsbBits]
  | succ w ih =>
    cases l with
    | nil =>
      have := ih [] (by simp)
      simp [ofLsb, lsbBits, List.replicate_succ] at this ⊢
      exact this
    | cons b t =>
      have h1 : ((if b then 1 else 0) + 2 * ofLsb t) / 2 = ofLsb t := by cases b <;> (simp; try omega)
      have h2 : (((if b then 1 else 0) + 2 * ofLsb t) % 2 == 1) = b := by cases b <;> simp [Nat.add_mod]
      simp only [ofLsb, lsbBits, h1, h2, ih t (by simpa using h), List.length_cons, Nat.add_sub_add_right,
        List.cons_append]

/-- R256: a bit stream that fits reads back from its bytes, followed by the padding zeros. -/
theorem unpackBits_packBits (n : Nat) (l : List Bool) (h : l.length ≤ 8 * n) :
    unpackBits (packBits n l) = l ++ List.replicate (8 * n - l.length) false := by
  induction n generalizing l with
  | zero => simp at h; simp [h, unpackBits, packBits]
  | succ n ih =>
    have h8 : ofLsb (l.take 8) % 2 ^ 8 = ofLsb (l.take 8) :=
      Nat.mod_eq_of_lt (Nat.lt_of_lt_of_le (ofLsb_lt _) (Nat.pow_le_pow_right (by omega) (by simp)))
    have hd := ih (l.drop 8) (by simp; omega)
    have ht := lsbBits_ofLsb (l.take 8) 8 (by simp)
    simp only [unpackBits] at hd
    simp only [unpackBits, packBits, List.flatMap_cons, BitVec.toNat_ofNat, h8, ht, hd, List.length_take,
      List.length_drop]
    rcases Nat.lt_or_ge l.length 8 with hlt | hge
    · rw [List.take_of_length_le (by omega), List.drop_eq_nil_of_le (by omega), Nat.min_eq_right (by omega)]
      simp [List.replicate_append_replicate]
      omega
    · rw [Nat.min_eq_left hge]
      simp [← List.append_assoc]
      omega

@[simp] theorem packBits_length (n : Nat) (l : List Bool) : (packBits n l).length = n := by
  induction n generalizing l with
  | zero => rfl
  | succ n ih => simp [packBits, ih]

/-! ## A stored tile -/

theorem flatMap_lsbBits_length (b : Nat) (l : List Nat) : (l.flatMap (lsbBits b)).length = b * l.length := by
  induction l with
  | nil => simp
  | cons x t ih => simp [ih, Nat.mul_add]; omega

/-- R256: sample `i` of a raw component is the `i`-th group of `b` bits. -/
theorem raw_sample (b : Nat) (l : List Nat) (r : List Bool) (i : Nat) (hi : i < l.length) :
    ofLsb (((l.flatMap (lsbBits b) ++ r).drop (b * i)).take b) = l[i] % 2 ^ b := by
  induction l generalizing i with
  | nil => simp at hi
  | cons x t ih =>
    cases i with
    | zero =>
      simp only [Nat.mul_zero, List.drop_zero, List.flatMap_cons, List.append_assoc, List.getElem_cons_zero]
      rw [List.take_append_of_le_length (by simp), List.take_of_length_le (by simp), ofLsb_lsbBits]
    | succ i =>
      have := ih i (by simpa using hi)
      simp only [List.flatMap_cons, List.append_assoc, List.getElem_cons_succ, Nat.mul_succ]
      have hd : ∀ m : List Bool, (lsbBits b x ++ m).drop (b * i + b) = m.drop (b * i) := by
        intro m
        rw [Nat.add_comm, ← List.drop_drop]
        simp
      rw [hd, this]

/-- R256: a raw tile reads back as the samples that were written. -/
theorem sedgeReadRaw_raw (b : Nat) (comps : List (Nat × List Nat)) (l : List Bool)
    (h : ∀ c ∈ comps, c.2.length = 8 * c.1 ∧ ∀ x ∈ c.2, x < 2 ^ b) :
    sedgeReadRaw b (comps.map Prod.fst) (sedgeRawBits b comps ++ l) = comps.map Prod.snd := by
  induction comps with
  | nil => rfl
  | cons c t ih =>
    have hc := h c (by simp)
    have ht := ih (fun d hd => h d (by simp [hd]))
    have hlen : (c.2.flatMap (lsbBits b)).length = b * sedgeCount c.1 := by
      rw [flatMap_lsbBits_length, hc.1, sedgeCount]
    simp only [sedgeRawBits, List.flatMap_cons, List.append_assoc, List.map_cons, sedgeReadRaw] at ht ⊢
    rw [← hlen, List.drop_append_of_le_length (Nat.le_refl _), List.drop_length, List.nil_append, ht]
    congr 1
    apply List.ext_getElem
    · simp [sedgeCount, hc.1]
    · intro i h1 h2
      simp only [List.getElem_map, List.getElem_range]
      rw [raw_sample b c.2 _ i h2, Nat.mod_eq_of_lt (hc.2 _ (List.getElem_mem h2))]

/-- R254, R256-R258: the writer's directory byte and slot read back as the samples of the tile, in every sampling. -/
theorem sedgeRead_store (sampling : Nat) (samples : List (List Nat)) (hs : sampling < 4)
    (hn : (sedgeWidths sampling).length = samples.length)
    (h : ∀ c ∈ sedgeComps sampling samples, c.2.length = 8 * c.1 ∧ ∀ x ∈ c.2, x < 2 ^ sedgeBits sampling) :
    sedgeRead sampling (sedgeStore sampling samples).1 (sedgeStore sampling samples).2 = some samples := by
  have hb : 0 < sedgeBits sampling := by unfold sedgeBits; split <;> omega
  have hraw : tileRaw sampling / 64 ≤ 18 := by
    unfold tileRaw; repeat' split
    all_goals omega
  have h1 : (sedgeComps sampling samples).map Prod.fst = sedgeWidths sampling := by
    simp only [sedgeComps]; exact List.map_fst_zip (Nat.le_of_eq hn)
  have h2 : (sedgeComps sampling samples).map Prod.snd = samples := by
    simp only [sedgeComps]; exact List.map_snd_zip (Nat.le_of_eq hn.symm)
  simp only [sedgeStore]
  split
  · rename_i hu
    have hlen : (sedgeCode (sedgeBits sampling) (sedgeComps sampling samples)).length ≤
        8 * (64 * ceilDiv (sedgeCode (sedgeBits sampling) (sedgeComps sampling samples)).length 512) := by
      simp only [ceilDiv]; omega
    generalize hbits : sedgeCode (sedgeBits sampling) (sedgeComps sampling samples) = bits at *
    generalize ceilDiv bits.length 512 = u at *
    have hbyte : (BitVec.ofNat 8 (128 + u)).toNat = 128 + u := by
      simp only [BitVec.toNat_ofNat]; exact Nat.mod_eq_of_lt (by omega)
    have hmod : (128 + u) % 32 = u := by omega
    have hbit : (128 + u).testBit 7 = true := by
      simp only [Nat.testBit_eq_decide_div_mod_eq]
      simp; omega
    have hc := sedgeReadCode_code _ hb _ (List.replicate (8 * (64 * u) - bits.length) false) h
    simp only [sedgeRead, hbyte, hmod, hbit, if_true, Nat.not_lt.mpr (Nat.le_of_lt hu), if_false]
    rw [List.take_of_length_le (by simp), unpackBits_packBits _ _ hlen, ← hbits] at *
    rw [h1, h2] at hc
    exact hc
  · have hbyte : (BitVec.ofNat 8 (tileRaw sampling / 64)).toNat = tileRaw sampling / 64 := by
      simp only [BitVec.toNat_ofNat]; exact Nat.mod_eq_of_lt (by omega)
    have hmod : tileRaw sampling / 64 % 32 = tileRaw sampling / 64 := by omega
    have hbit : (tileRaw sampling / 64).testBit 7 = false := by
      simp only [Nat.testBit_eq_decide_div_mod_eq]
      simp; omega
    have hall : sedgeBits sampling * (sedgeWidths sampling).sum * 8 ≤ 8 * (64 * (tileRaw sampling / 64)) := by
      match sampling, hs with
      | 0, _ => decide
      | 1, _ => decide
      | 2, _ => decide
      | 3, _ => decide
    have hsum : ∀ l : List (Nat × List Nat), (∀ c ∈ l, c.2.length = 8 * c.1) →
        (sedgeRawBits (sedgeBits sampling) l).length = sedgeBits sampling * (l.map Prod.fst).sum * 8 := by
      intro l hl
      induction l with
      | nil => simp [sedgeRawBits]
      | cons c t ih =>
        have := ih (fun d hd => hl d (by simp [hd]))
        simp only [sedgeRawBits, List.flatMap_cons, List.length_append, List.map_cons, List.sum_cons] at this ⊢
        rw [this, flatMap_lsbBits_length, hl c (by simp)]
        ring
    have hlen : (sedgeRawBits (sedgeBits sampling) (sedgeComps sampling samples)).length ≤
        8 * (64 * (tileRaw sampling / 64)) := by
      rw [hsum _ (fun c hc => (h c hc).1), h1]; exact hall
    have hc := sedgeReadRaw_raw _ _ (List.replicate (8 * (64 * (tileRaw sampling / 64)) -
      (sedgeRawBits (sedgeBits sampling) (sedgeComps sampling samples)).length) false) h
    simp only [sedgeRead, hbyte, hmod, hbit, Nat.lt_irrefl, if_false, Bool.false_eq_true]
    rw [unpackBits_packBits _ _ hlen]
    rw [h1, h2] at hc
    rw [hc]

end Sys2Proof.Machine
end

