-- ==== Sys2Proof/Laws/LineCode.lean ====
section
/-! SUPPORT. Laws of the fabric's line code (R383-R385, R388): scrambling twice is no change, stuffing is undone by the
receiver and bounds every run, a block is 1,600 bits, and the multiplex word of a position belongs to that position. -/

namespace Sys2Proof.Machine

open Sys2Proof

theorem scramble_cons (r : Nat) (b : Bool) (t : List Bool) :
    scramble r (b :: t) = (b != scramblerBit r) :: scramble (scramblerStep r) t := by
  simp only [scramble, withNat]
  cases scramblerStep r <;> rfl

@[simp] theorem scramble_length (r : Nat) (l : List Bool) : (scramble r l).length = l.length := by
  induction l generalizing r with
  | nil => rfl
  | cons b t ih => simp [scramble_cons, ih]

/-- R383: an additive scrambler undoes itself. -/
theorem scramble_scramble (r : Nat) (l : List Bool) : scramble r (scramble r l) = l := by
  induction l generalizing r with
  | nil => rfl
  | cons b t ih => cases b <;> cases h : scramblerBit r <;> simp [scramble_cons, h, ih]

/-- The next run length: at most one more than the present one. -/
def nextRun (last : Bool) (run : Nat) (b : Bool) : Nat := if b = last then run + 1 else 1

theorem nextRun_le (last : Bool) (run : Nat) (b : Bool) (h : run < 31) : nextRun last run b ≤ 31 := by
  unfold nextRun; split <;> omega

theorem stuff_cons (last : Bool) (run : Nat) (b : Bool) (t : List Bool) :
    stuff last run (b :: t) =
      if nextRun last run b = 31 then b :: (!b) :: stuff (!b) 1 t else b :: stuff b (nextRun last run b) t := rfl

theorem unstuff_cons (last : Bool) (run : Nat) (b : Bool) (t : List Bool) :
    unstuff last run (b :: t) = if run = 31 then unstuff b 1 t else b :: unstuff b (nextRun last run b) t := rfl

/-- R384: the receiver's removal undoes the insertion. -/
theorem unstuff_stuff (last : Bool) (run : Nat) (l : List Bool) (h : run < 31) :
    unstuff last run (stuff last run l) = l := by
  induction l generalizing last run with
  | nil => rfl
  | cons b t ih =>
    have hr : run ≠ 31 := by omega
    have hle := nextRun_le last run b h
    rw [stuff_cons]
    split
    · rename_i hn
      rw [unstuff_cons, if_neg hr, hn, unstuff_cons, if_pos rfl, ih _ _ (by omega)]
    · rename_i hn
      rw [unstuff_cons, if_neg hr, ih _ _ (by omega)]

/-- The line holds no run of more than `n` equal bits, `run` bits equal to `last` standing before it. -/
def runsWithin (n : Nat) : Bool → Nat → List Bool → Bool
  | _, _, [] => true
  | last, run, b :: t =>
    let k := if b = last then run + 1 else 1
    decide (k ≤ n) && runsWithin n b k t

theorem runsWithin_cons (n : Nat) (last : Bool) (run : Nat) (b : Bool) (t : List Bool) :
    runsWithin n last run (b :: t) = (decide (nextRun last run b ≤ n) && runsWithin n b (nextRun last run b) t) := rfl

/-- R384: no run on the line exceeds 31 bits. -/
theorem stuff_runs (last : Bool) (run : Nat) (l : List Bool) (h : run < 31) :
    runsWithin 31 last run (stuff last run l) = true := by
  induction l generalizing last run with
  | nil => rfl
  | cons b t ih =>
    have hle := nextRun_le last run b h
    rw [stuff_cons]
    split
    · have hb : nextRun b (nextRun last run b) (!b) = 1 := by cases b <;> rfl
      rw [runsWithin_cons, runsWithin_cons, hb, ih _ _ (by omega)]
      simp [hle]
    · rw [runsWithin_cons, ih _ _ (by omega)]
      simp [hle]

theorem stuff_length (last : Bool) (run : Nat) (l : List Bool) : l.length ≤ (stuff last run l).length := by
  induction l generalizing last run with
  | nil => simp
  | cons b t ih =>
    rw [stuff_cons]
    split
    · have := ih (!b) 1; simp; omega
    · simpa using ih b _

@[simp] theorem alternate_length (n : Nat) (last : Bool) : (alternate n last).length = n := by
  induction n generalizing last with
  | zero => rfl
  | succ n ih => simp [alternate, ih]

theorem fillBlock_length (l : List Bool) (h : l.length ≤ 1600) : (fillBlock l).length = 1600 := by
  simp [fillBlock]; omega

/-- R381, R382: a block, void or not, is 1,600 line bits. -/
theorem sendBlock_length (reg : Nat) (blk pos : Nat) (payload : BitVec 1536) (ctrl : BitVec 16) :
    (sendBlock reg blk pos payload ctrl).length = 1600 := by
  simp only [sendBlock]
  split
  · rename_i h
    apply fillBlock_length
    have := stuff_length false 0 (scramble reg (blockContent (blockHeader blk pos false) payload ctrl))
    simp only [stuffCount, scramble_length] at h this
    have hc : (blockContent (blockHeader blk pos false) payload ctrl).length = 1581 := by simp [blockContent]
    simp only [List.length_append, lsbBits_length]
    omega
  · apply fillBlock_length
    simp

/-- R388: word j of a position is owned by that position, and lies within the words in use. -/
theorem muxOwner_muxWord (cnt j p : Nat) (hj : j < 528) (hp : p < cnt) : muxOwner cnt (muxWord cnt j p) = some (p, j) := by
  have h1 : j * cnt + p < 528 * cnt := by
    have := Nat.mul_le_mul_right cnt (show j + 1 ≤ 528 by omega)
    rw [Nat.succ_mul] at this; omega
  have h2 : (j * cnt + p) % cnt = p := by rw [Nat.mul_comm, Nat.mul_add_mod]; exact Nat.mod_eq_of_lt hp
  have h3 : (j * cnt + p) / cnt = j := by
    rw [Nat.mul_comm, Nat.mul_add_div (by omega), Nat.div_eq_of_lt hp, Nat.add_zero]
  simp only [muxOwner, muxWord, h1, if_true, h2, h3]

end Sys2Proof.Machine
end

