-- ==== Sys2Proof/Laws/Picture.lean ====
section
/-! SUPPORT. Laws of the picture arithmetic: an opaque layer shows exactly and a transparent one leaves what is below
(R277, R278), the alpha plane's range (R278), the tone map below its knee (R283) and the writer's range (R274). -/

namespace Sys2Proof.Machine

open Sys2Proof

/-- A whole multiple rounds to itself. -/
theorem roundDiv_mul (x : Int) : roundDiv (65536 * x) 65536 = x := by unfold roundDiv; omega

/-- R277: a layer of alpha 1 shows exactly. -/
theorem blend_opaque (layer below : Int) : blend 65536 layer below = layer := by simp [blend, roundDiv_mul]

/-- R278: a layer of alpha 0 leaves what is below. -/
theorem blend_transparent (layer below : Int) : blend 0 layer below = below := by simp [blend, roundDiv_mul]

/-- R278: full ALPHA and no key give a layer alpha of 1. -/
theorem layerAlpha_full : layerAlpha 1023 (16 * 1023) = 65536 := by decide

/-- R278: the alpha plane stays within 0-1. -/
theorem alphaOver_range (a b : Int) (ha : 0 ≤ a ∧ a ≤ 65536) (hb : 0 ≤ b ∧ b ≤ 65536) :
    0 ≤ alphaOver a b ∧ alphaOver a b ≤ 65536 := by
  have h1 : 0 ≤ b * (65536 - a) := mul_nonneg hb.1 (by omega)
  have h2 : b * (65536 - a) ≤ 65536 * (65536 - a) := mul_le_mul_of_nonneg_right hb.2 (by omega)
  unfold alphaOver roundDiv
  generalize b * (65536 - a) = p at *
  omega

/-- R283: up to the knee the tone map changes nothing. -/
theorem toneMap_below (k lw m : Int) (h : m ≤ k) : toneMap k lw m = m := by simp [toneMap, h]

/-- R274: the writer never gives a code outside its range. -/
theorem writerCode_range (bits : Nat) (x : Int) :
    codeMin bits ≤ writerCode bits x ∧ (writerCode bits x : Int) ≤ codeMax bits := by
  have h : 0 ≤ codeMin bits ∧ codeMin bits ≤ codeMax bits := by unfold codeMin codeMax; split <;> omega
  unfold writerCode
  omega

end Sys2Proof.Machine
end

