-- ==== Sys2Proof/WellFormed.lean ====
section
/-! DEFINITION. Which commands can reach the block: the limits that the spec sets on what a row carries, beyond the
index ranges that the types of Syntax.lean already hold. The meanings are total and do not rest on it. -/

namespace Sys2Proof

/-- No element stands twice. -/
def noRepeat {α : Type} [DecidableEq α] : List α → Bool
  | [] => true
  | a :: t => !t.contains a && noRepeat t

/-- Tuples in ascending order by priority and then chip ID (R414). -/
def ascending : List (Byte × BitVec 64) → Bool
  | [] => true
  | [_] => true
  | a :: b :: t =>
    (decide (a.1.toNat < b.1.toNat) || (a.1 == b.1 && decide (a.2.toNat < b.2.toNat))) && ascending (b :: t)

/-- The 32-bit fields of an image header (R582). -/
def imageFields (i : Image) : Bool := decide (i.svn < 2 ^ 32 ∧ i.length < 2 ^ 32)

/-- A fetch brings 1-16 entries (R72); tenant 0 has no VF (R58); a burst stays within 4 KiB (R96); a track and an error are
reported once, a track with at most the four words of a cell (R166); a frame has a header, and buffers no more than it has
(R333, R341); the end of a search is no request of the far end (R402); message bodies keep the limits of R407; the tuples of R414
stand once, and in order where they elect; an object index is below 65,536 (R116); a partner's state is one of R562; an image
header's fields keep their width (R582). -/
def Instr.wf : Instr → Bool
  | .registerWrite .. | .glbLockSetup .. | .barAccessUnsupported .. | .doorbell .. => true
  | .commandFetch _ _ es => decide (1 ≤ es.length ∧ es.length ≤ 16)
  | .commandDispatch .. | .commandAged .. | .ringModTimerExpiry .. | .msixUnmask ..
  | .ringCtrlWrite .. | .ringBaseWrite .. | .ringStatWrite .. => true
  | .flrVf n => n != 0
  | .pfFlr .. | .dmaEnable .. | .dmaResume .. | .dmaAbort ..
  | .dmaPidxWrite .. | .dmaDescriptorFetch .. | .dmaRequest .. => true
  | .dmaBurstDone _ data => decide (data.length ≤ 4096)
  | .dmaBurstFail .. | .dmaRetryTimer .. | .nop .. | .route ..
  | .unroute .. | .salvoOpen .. | .salvoCommit .. | .salvoAbort ..
  | .canvasDef .. | .layerSet .. | .sliceSet .. | .stillLoad ..
  | .stillStored .. | .audMap .. | .audPort .. | .flowRxDef ..
  | .flowTxDef .. | .frameGrab .. | .frameCaptured .. | .migrate ..
  | .timeArm .. | .bistReq .. | .query .. | .tenCfgWrite ..
  | .grant .. | .revoke .. | .grantDone | .reservationWrite ..
  | .switchPoint .. | .formatChangeBoundary .. | .destFrameStart .. | .salvoPrepareDone ..
  | .salvoLocalDeadline .. | .prepare .. | .ready .. | .refuse ..
  | .commit .. | .cancel .. | .salvoDecisionDeadline .. | .salvoApplyDeadline ..
  | .migrateOverlapStart .. | .migrateCommitBoundary .. => true
  | .schedulePeriod cells errs _ => noRepeat (cells.map (fun e => e.1)) && noRepeat (errs.map (fun e => e.1))
      && errs.all (fun e => noRepeat (e.2.map (fun x => x.1)))
      && cells.all (fun e => decide (e.2.length ≤ 4))
  | .rotationTimer | .planeTestDone .. | .rotationCopyStart | .rotationReadsMove
  | .rotationComplete | .forceRot | .xptClrcnt | .xptRetireCmd ..
  | .xptRtpar .. | .xptRtIdx .. | .xptSuIdx .. | .alignerAcquired ..
  | .streamLeavesWindow .. | .syncFrameStart .. | .erroredLine .. | .memoryStackFail ..
  | .fsaEccunc .. | .fsaEccfix | .backgroundRequestAged .. | .fsaLspar
  | .fsaAlIdx .. | .fsaDlData .. | .fsaClrcnt | .canvasComposeStart ..
  | .canvasFrameOut .. | .cmpLtpar .. | .cmpSrCfgWrite .. | .learn ..
  | .clear | .cmpEnIdx .. | .cmpCvIdx .. | .cmpClrcnt
  | .mlnCtrlWrite .. | .txfmtWrite .. | .mediaOutputFrameStart .. | .losSet ..
  | .losClear .. | .cdrLock .. | .framed .. | .lossOfLock ..
  | .lolholdExpiry .. | .lolshort .. | .descriptorPublish .. | .payloadIdCheck ..
  | .lineCrcError .. | .edhCheck .. | .bondSkew .. | .eqlimit ..
  | .txfifo .. | .mlnGrppll .. | .groupPllRelock .. | .mlnClrcnt
  | .mppCfgWrite .. | .macLinkUp .. | .verifyAttempt .. | .autoNegotiationDone ..
  | .macLinkdn .. | .macFrameReceived .. => true
  | .macFrameOffered _ _ data buffered _ => decide (14 ≤ data.length ∧ buffered ≤ data.length)
  | .expressFrameReady .. | .holdAdvance .. | .macUnderrun .. | .macFecunc ..
  | .macWake .. | .macSnap .. | .macClrcnt | .essPacketReceived ..
  | .playoutRelease .. | .essRxlost .. | .legloss .. | .membershipReport ..
  | .membershipQuery .. | .txPacketInstant .. | .essFtpar .. | .essFrIdx ..
  | .essFtIdx .. | .essClrcnt | .blockLock .. | .blockLockLoss ..
  | .blockLockLossTimeout .. | .blockReceived .. | .trainingAdvance .. => true
  | .tapRequest _ q far => !far || !q.endsSearch
  | .trainingPhaseTimeout .. | .trainingBackoffExpiry .. | .blkLinkCfgWrite .. | .blkTrunkSlotWrite ..
  | .trunkup .. | .flitReceived .. | .flitAckTimeout .. | .replayfail ..
  | .rregWr .. => true
  | .rdmaWr _ _ data => decide (8 ≤ data.length ∧ data.length ≤ 256)
  | .rregRd .. => true
  | .rdmaRd _ _ _ n => decide (1 ≤ n.toNat ∧ n.toNat ≤ 32)
  | .flush .. => true
  | .cpl _ _ _ data => decide (data.length ≤ 264)
  | .fw _ _ body => decide (body.length ≤ 264)
  | .blkRtimeout .. | .remoteRegRead | .remoteRegWrite | .join .. => true
  | .assign order _ => decide (1 ≤ order.length ∧ order.length ≤ 4) && noRepeat (order.filter (fun t => t != (0, 0)))
  | .electionTimeout => true
  | .blkRootchg reach => decide (1 ≤ reach.length ∧ reach.length ≤ 4) && ascending reach
  | .blkFtimeSnap | .blkClrcnt | .fabricTimeSend .. | .fabricTimeMsg ..
  | .srclost .. | .audMapChange .. | .audZcto .. | .audSlip ..
  | .audDeerr .. | .tdmLock .. | .audTdmunl .. | .audAmpflt ..
  | .audMappar .. | .audDeIdx .. | .audMapIdx .. | .audClrcnt
  | .load .. | .snap .. | .snapAll | .forceDom ..
  | .timAdjWrite .. | .timFreqWrite .. | .timTbCtrlWrite .. | .slewDone ..
  | .servoUpdate .. | .timDomloss .. | .domainQualified .. | .revwaitExpiry ..
  | .pulseStart .. | .pulseEnd .. | .expressLaunch .. | .timClrcnt
  | .referenceEvaluation | .referenceActivityLoss .. | .referenceQualified .. | .wtrExpiry
  | .dpllLocked | .dpllUnlock | .realign .. | .frameTimingJump ..
  | .alignPulseEdge .. | .alignloss | .clkPriWrite .. | .clkClrcnt
  | .fallow | .fallowReached | .active | .activeReached
  | .shutdown .. | .offready | .warm | .powerOn
  | .porNLow | .porNRise .. | .trstN | .wakeTimerExpiry
  | .temperatureUpdate .. | .pwrThermsd | .coreRailFail | .domainStop ..
  | .hdgEvent .. | .hdgWindowClose .. | .hdgReactionExpiry .. | .hdgSelfpar
  | .hdgAck .. | .hdgClr .. | .hdgFirstclr | .force ..
  | .hdgClrcnt | .sliceStart | .sliceEnd .. | .patrolRead ..
  | .fullTestEnd .. | .bstOosWrite .. | .bstUnitIdx .. | .bstClrcnt
  | .grantActive .. | .grantReserve .. | .grantRevoke | .claim
  | .release | .yield .. | .yieldInstant | .resync
  | .recover | .fovClrcnt | .ilkInFall | .fovIlkconf
  | .claimDelayExpiry | .claimWindowEnd | .fovLeaseexp | .fovPlaneloss .. => true
  | .mirrorRecord m _ => match m with
    | .owner _ i _ => decide (i < 65536)
    | _ => true
  | .digestCompare .. | .fovMirloss | .fovSyncfail => true
  | .loadimg i => imageFields i
  | .slotProgramDone .. | .distrib .. => true
  | .distribImageReceived _ i _ _ => imageFields i
  | .handover .. | .shadowEnd | .svcUpdfail | .confirm
  | .revert | .conftoExpiry | .savecfg .. | .lcadv ..
  | .keyrev .. | .svcCmdReserved .. | .svcWdog .. | .serviceMoveDone ..
  | .startUpComplete .. | .ilkInRise => true
  | .mirrorUp p => decide (p.toNat ≤ 8)
  | .vaonLoss | .controlStreamParity .. | .hifAerunc => true

end Sys2Proof
end

