-- ==== Sys2Proof/Tests/Slice0.lean ====
section
/-! SUPPORT. Tests: an ill-formed command for each limit of WellFormed.lean, the worked examples and figures of spec/ on
single steps, and for each statement that has hypotheses a witness that meets them. -/

namespace Sys2Proof.Tests

set_option Elab.async false

open Sys2Proof Sys2Proof.Machine

/-- Tenant 1 is enabled; its ring r has 256 entries and is enabled. -/
def ringed (r : Nat) : State :=
  ((State.reset.setFld (TEN_CFG 1) TEN_CFG_STATE 1).setFld (RING_BASE_LO 1 r) RING_BASE_LO_LOG2SIZE 8).setBit
    (RING_CTRL 1 r) RING_CTRL_EN true

/-- Host channel 48 in state st with a descriptor queued. -/
def dma (st : Nat) : State :=
  (((State.reset.setFld (HIF_DMA_RBASE_LO 48) HIF_DMA_RBASE_LO_LOG2SIZE 6).setFld (HIF_DMA_PIDX 48) HIF_DMA_PIDX_IDX 1).setFld
    (HIF_DMA_STAT 48) HIF_DMA_STAT_STATE st)

/-- Lane 0 in link 0, which is enabled and in training state st. -/
def linked (st : Nat) : State :=
  ((State.reset.setFld (BLK_LANE_CFG 0) BLK_LANE_CFG_LINK 0).setBit (BLK_L_CFG 0) BLK_L_CFG_EN true).setFld
    (BLK_L_STAT 0) BLK_L_STAT_STATE st

def locked_ (st : Nat) : State := (linked st).setBit (BLK_LANE_STAT 0) BLK_LANE_STAT_BLOCK true

/-- That link ACTIVE to node 1 of a two-chip frame. -/
def peered : State :=
  (((linked 7).setFld (BLK_L_STAT 0) BLK_L_STAT_PEER 1).setBit (BLK_L_STAT 0) BLK_L_STAT_PEERVALID true).setFld BLK_NODE
    BLK_NODE_EXPNODES 1

/-- The redundancy state x. -/
def fov (x : Nat) : State := State.reset.setFld FOV_STAT FOV_STAT_STATE x

/-- The power state x. -/
def pwr (x : Nat) : State := State.reset.setFld PWR_STAT PWR_STAT_STATE x

/-- Source n in Hedgerow state x. -/
def hdg (n x : Nat) : State := State.reset.setFld (HDG_SRC_STAT n) HDG_SRC_STAT_STATE x

/-- Update state x with the start-up complete. -/
def upd (x : Nat) : State :=
  ((State.reset.setFld SVC_UPD SVC_UPD_STATE x).setBit PWR_STAT PWR_STAT_READY true).wr SVC_XLEN 64

/-- A firmware image that every check passes before any life cycle state. -/
def img : Image := ⟨0x4657494D, 1, 7, 1, 1, 1, 0, 64, 0, false, true, true, true⟩

/-- Update state x with that image running, staged and kept. -/
def held (x : Nat) : State :=
  (upd x).setSvc { (upd x).svc with running := some img, staged := some img, old := some img }

/-- Time base 0 in MODE m and state st. -/
def tb (m st : Nat) : State :=
  (State.reset.setFld (TIM_TB_CTRL 0) TIM_TB_CTRL_MODE m).setFld (TIM_TB_STAT 0) TIM_TB_STAT_STATE st

/-- A one-shot arming of base 0 at instant n, and a periodic one. -/
def oneShot (n : Nat) : Arming := ⟨0, false, n, 0, 100, none, none, false⟩
def every (n : Nat) : Arming := ⟨0, true, n, 1000, 100, none, none, false⟩

/-- Output 0 with an arming and perhaps a pulse in progress. -/
def pulsed (a : Arming) (p : Option (Nat × Nat)) : State := State.reset.setTpo 0 ⟨some a, p, none⟩

/-- Plane 16 under test with position p of plane p, and a rotation in stage n. -/
def rotating (n : Nat) : State := State.reset.setPlanes { State.reset.planes with rotation := some ⟨0, 0, 16, n, false⟩ }

/-- Media lane 1 with ML_CTRL c and ML_STAT st, raising nothing. -/
def ml (c st : Word) : State := ((State.reset.wr (ML_HDGEN 1) 0).wr (ML_CTRL 1) c).wr (ML_STAT 1) st

/-- MAC port 0 with MP_CFG c and MP_STAT st. -/
def mp (c st : Word) : State := (State.reset.wr (MP_CFG 0) c).wr (MP_STAT 0) st

/-- The reference clock in state x on entry 0, which names source 1, qualified where q. -/
def clk (x : Nat) (q : Bool) : State :=
  ((State.reset.setFld CLK_STAT CLK_STAT_STATE x).wr (CLK_PRI 0) 0x11).wr CLK_QUAL (if q then 2 else 0)

/-- The redundancy state x of a chip in a four-chip frame. -/
def four : State := State.reset.setFld BLK_NODE BLK_NODE_EXPNODES 2

/-- Tenant t may dispatch: one entry stands in its ring 0, and its first completion ring has room. -/
def taking (t : Nat) : State :=
  (State.reset.setFld (TEN_CFG t) TEN_CFG_STATE 1).each [0, 8] (fun s r =>
    ((s.setFld (RING_BASE_LO t r) RING_BASE_LO_LOG2SIZE 8).setBit (RING_CTRL t r) RING_CTRL_EN true).setFld
      (RING_HOST_IDX t r) RING_HOST_IDX_IDX (if r = 0 then 1 else 0))

/-- A command entry with values at byte offsets. -/
def ent (l : List (Nat × Nat)) : Entry := BitVec.ofNat 512 (l.foldl (fun m x => m + x.2 * 2 ^ (8 * x.1)) 0)

/-- 1080p25 on one track, as bytes 0-7 of a descriptor. -/
def p25 : Nat := 0x30500000000
def f25 : Fmt := ⟨0, 5, 3, 0, 0, 0, 0, 0, 0⟩

/-- A route of source track 0 in that format. -/
def path : Route := ⟨0, 1, f25, 0, false, false, false⟩

/-- An immediate change to that route, dispatched at time 0 by command 0. -/
def change : Pend := ⟨⟨some path, ⟨0, 1, 0, 0, 0⟩, none⟩, 0, 0⟩

/-- The command in flight as number 0, of tenant 0. -/
def flown (ch : Option Nat) : Cmd := ⟨0, 0, 0, 0, 0, false, false, ch, 0, ⟨none, 0⟩⟩

/-- Destination track 0 carries that route. -/
def routed : State := (taking 0).setXpt { (taking 0).xpt with routes := [(0, path)] }

/-- Source track 1 in aligner mode m, and with a synchroniser. -/
def aligned (m : Nat) : State := State.reset.setAligner 1 { Aligner.idle with mode := m, high := 0x305, inside := true }
def synced (u : SyncUnit) : State := (aligned 3).setSync 1 u
def unit : SyncUnit := ⟨0, 1, 3, false, none, none, false⟩

/-- A salvo in a stage, over nodes, coordinated here or not. -/
def salvo (stage nodes : Nat) (coord : Bool) : Salvo :=
  ⟨nodes, 0, stage, [⟨0, .route ⟨none, Charge.zero, none⟩⟩], false, 0, coord, 0, 0, 10000000, 0, 0, 0, 1, [], 0, none,
    none, none, none⟩
def inSlot (k : Nat) (x : Salvo) : State := (taking 0).setSlot k x

/-- A parameter block: port 0, MAXPAY 1,000, two channels, the rest zero. -/
def pbk : ParamBlock := BitVec.ofNat 2048 (1000 * 2 ^ 1088 + 2 * 2 ^ 1104)

/-- Tenant 0 with port 0 up at 25 Gb/s. -/
def netted : State := ((taking 0).wr (MP_CFG 0) 1).setFld (ML_CTRL 0) ML_CTRL_MODE 3

/-- A receive or transmit flow of a TYPE on a track. -/
def flow (type track : Nat) (dual : Bool) (fmt : Fmt) (b : ParamBlock) : Flow := ⟨dual, false, false, type, track, fmt, b⟩
def receiving (x : FlowRx) : State := State.reset.setRx 0 x
def transmitting (x : FlowTx) : State := State.reset.setTx 0 x

/-- A well-formed essence packet for the block pbk. -/
def packet : EssPacket :=
  ⟨.essence, false, 0, 0, none, 0, 0, 2, 0, 0, 0, false, [], [], [], false, false, none⟩

/-- A FRAME_GRAB of source track 0 for tenant 1 into capture ring 14, and the entry it owes. -/
def shot : Capture := ⟨0, 0, .ok, false, true, 0, 4096, 0, 0, 0, 0, true⟩
def grabbed : Grab := ⟨0, 1, 14, 0, false, 1, 0, 0, false, 0, f25, 0, some shot⟩

/-- Tenant 0 may dispatch and has reservations of every resource. -/
def roomy : State := (taking 0).each (List.range 5) (fun s k => s.setFld (TEN_RSV 0 k) TEN_RSV_VALUE 9000)

/-- A canvas of 320 by 80 at 25 Hz, and a state that has it. -/
def small : CanvasDef := ⟨0, 320, 80, 3, 0, 0, 0, 0, Fmt.zero⟩
def canvassed (x : CanvasState) : State := roomy.setCanvas 0 { x with now := some small }

/-- A layer of a canvas, and its still of 32 by 8. -/
def layer : LayerDef := ⟨1, 1, ⟨0, 0, 32, 8⟩, ⟨0, 0, 32, 8⟩, 0, 0, 0⟩
def still : Still := ⟨32, 8, 0, 0, 0, []⟩

/-- A parameter block whose first leg is multicast, to 224.0.0.0. -/
def groupBlock : ParamBlock := pbk + BitVec.ofNat 2048 (224 * 2 ^ 128)

/-- TDM port 0 feeds destination channel 0, which waits to change to source 1. -/
def crossing : State :=
  ((State.reset.setBit (AUD_TDM_STAT 0) AUD_TDM_STAT_ENABLED true).setBit (AUD_TDM_STAT 0) AUD_TDM_STAT_LOCKED true).setAud
    { State.reset.aud with pend := [(0, ⟨1, false, 5, 0, 0⟩)], maps := [(0, 7936)] }

/-- A slice of that canvas that transmit flow 5 carries from port 0, which is up, in the active state. -/
def sliceFlow : Flow := { flow 0 0 false Fmt.zero pbk with slice := true }
def sliced : State :=
  let s := (canvassed { CanvasState.idle with sent := some small }).setTx 5 { FlowTx.idle with now := some sliceFlow }
  ((s.setCmp { s.cmp with slices := [(0, ⟨0, ⟨0, 0, 32, 8⟩, 5⟩)] }).setFld PWR_STAT PWR_STAT_STATE 0).wr (MP_STAT 0) 1

/-- A preemptable frame of 128 bytes. -/
def txf : TxFrame := ⟨List.replicate 128 0, false, true, false, 0⟩

/-- Two slices of a canvas on transmit flows 5 and 6, the second defined on time base 0; and a definition of flow 5 on time
base 1. -/
def twoSlices : State :=
  let s := netted.setTx 6 { FlowTx.idle with now := some sliceFlow }
  let s := s.setCanvas 0 { CanvasState.idle with now := some small }
  s.setCmp { s.cmp with slices := [(0, ⟨0, ⟨0, 0, 32, 8⟩, 5⟩), (1, ⟨0, ⟨0, 8, 32, 8⟩, 6⟩)] }
def otherBase : BlockRead := ⟨some (pbk + BitVec.ofNat 2048 (2 ^ 1040)), 0⟩

/-! ## Ill-formed commands are refused, one for each limit of WellFormed.lean -/

theorem test_wf_fetch_empty : (Instr.commandFetch 0 0 []).wf = false := by decide
theorem test_wf_fetch_seventeen : (Instr.commandFetch 0 0 (List.replicate 17 0)).wf = false := by decide
theorem test_wf_no_vf_of_tenant_0 : (Instr.flrVf 0).wf = false := by decide
theorem test_wf_burst_above_4k : (Instr.dmaBurstDone 0 (List.replicate 4097 0)).wf = false := by decide +kernel
theorem test_wf_cell_twice : (Instr.schedulePeriod [(3, []), (3, [])] [] 0).wf = false := by decide
theorem test_wf_errors_twice : (Instr.schedulePeriod [] [(3, [(1, 1)]), (3, [(2, 1)])] 0).wf = false := by decide
theorem test_wf_symbol_twice : (Instr.schedulePeriod [] [(3, [(1, 1), (1, 2)])] 0).wf = false := by decide
theorem test_wf_five_words : (Instr.schedulePeriod [(3, [0, 0, 0, 0, 0])] [] 0).wf = false := by decide
theorem test_wf_frame_short : (Instr.macFrameOffered 0 .other (List.replicate 13 0) 0 false).wf = false := by decide
theorem test_wf_frame_overfull : (Instr.macFrameOffered 0 .other (List.replicate 14 0) 15 false).wf = false := by decide
theorem test_wf_write_short : (Instr.rdmaWr 0 0 (List.replicate 7 0)).wf = false := by decide
theorem test_wf_write_long : (Instr.rdmaWr 0 0 (List.replicate 257 0)).wf = false := by decide +kernel
theorem test_wf_read_empty : (Instr.rdmaRd 0 0 0 0).wf = false := by decide
theorem test_wf_read_long : (Instr.rdmaRd 0 0 0 33).wf = false := by decide
theorem test_wf_completion_long : (Instr.cpl 0 0 false (List.replicate 265 0)).wf = false := by decide +kernel
theorem test_wf_message_long : (Instr.fw 0 0 (List.replicate 265 0)).wf = false := by decide +kernel
theorem test_wf_assign_twice : (Instr.assign [(2, 0), (2, 0)] 0).wf = false := by decide
theorem test_wf_far_search : (Instr.tapRequest 0 (.searchEnd 0) true).wf = false := by decide
theorem test_wf_assign_empty : (Instr.assign [] 0).wf = false := by decide
theorem test_wf_reach_five : (Instr.blkRootchg [(0, 0), (1, 0), (2, 0), (3, 0), (4, 0)]).wf = false := by decide
theorem test_wf_owner_index : (Instr.mirrorRecord (.owner 0 65536 0) false).wf = false := by decide
theorem test_wf_image_svn : (Instr.loadimg { img with svn := 4294967296 }).wf = false := by decide
theorem test_wf_image_received : (Instr.distribImageReceived 0 { img with length := 4294967296 } 0 false).wf = false := by
  decide
theorem test_wf_partner_state : (Instr.mirrorUp 9).wf = false := by decide

/-! ## Arithmetic of the worked examples -/

/-- The check value of R286: CRC-32C of the ASCII string 123456789. -/
theorem test_crc32c_check : crc32c [49, 50, 51, 52, 53, 54, 55, 56, 57] = 0xE3069283 := by decide +kernel

/-- The arena canvas of the compositor's worked example: 15,360 by 4,320 at 50 Hz. -/
def arena : CanvasDef := ⟨0, 15360, 4320, 6, 0, 0, 0, 0, Fmt.zero⟩

theorem test_arena_cmppix : arena.pix = 3318 := by decide +kernel
theorem test_arena_planes :
    planeSize 15360 4320 (tileRaw arena.sampling) = 249094144 ∧ planeSize 15360 4320 alphaRaw = 83206144 := by
  decide +kernel
theorem test_arena_surf : ((taking 0).canvasCharge 0 arena).surf = 951 := by decide +kernel
/-- Layers 0, 2 and 3 of the same example. -/
theorem test_arena_work :
    (LayerDef.work ⟨0, 3840, ⟨0, 0, 3840, 2160⟩, ⟨0, 0, 7680, 4320⟩, 0, 0, 0⟩ arena,
     LayerDef.work ⟨0, 3844, ⟨0, 0, 1920, 1080⟩, ⟨5760, 0, 3840, 2160⟩, 0, 0, 0⟩ arena,
     LayerDef.work ⟨1, 0, ⟨0, 0, 2048, 512⟩, ⟨6656, 3808, 2048, 512⟩, 0, 0, 0⟩ arena) = (1659, 415, 53) := by
  decide +kernel
/-- One chip's budgets: surfaces of 1080p50 and 2160p50. -/
theorem test_surface_charges :
    surfaceCharge ⟨0, 5, 6, 0, 0, 0, 0, 0, 0⟩ = ⟨0, 0, 1, 0, 15⟩
      ∧ surfaceCharge ⟨0, 7, 6, 2, 0, 0, 0, 0, 0⟩ = ⟨0, 0, 2, 0, 60⟩ := by decide +kernel
/-- Slice flows of the arena canvas: bytes, packets and packets with two SRDs in a frame. -/
theorem test_slice_packets : framePackets [144] 1440 1200 = (207360, 173, 115) := by decide +kernel
/-- The two-chip salvo: F at 59.94 Hz, and E. -/
theorem test_salvo_times :
    framePeriodNs 7 = 16683334
      ∧ ({ salvo 1 3 true with due := 140000000, f := 16683334 } : Salvo).earliest = 123316666 := by decide +kernel
/-- Addresses worked in the register index: HDG_SRC149_CFG. -/
theorem test_hdg_address : HDG_SRC_CFG 149 = 0x1201950 := by decide
/-- AUD: with ZCTHR 30, a sample at -36 dBFS qualifies and one at -12 dBFS does not. -/
theorem test_audio_threshold : belowThreshold 30 132951 = true ∧ belowThreshold 30 2107107 = false := by decide +kernel

/-! ## One step of a command -/

/-- The state a command answers, s itself where it stops. -/
def after (c : Instr) (s : State) : State :=
  match exec c s with
  | .next t => t
  | .fault _ => s
  | .refused _ => s

/-- A completion with this tag, status and RESULT has been written. -/
def completed (s : State) (tag : Word) (st : Status) (res : Nat) : Bool :=
  s.out.any (fun e => match e with
    | .ringEntry _ _ _ (.completion c) _ => c.tag == tag && c.status == st && c.result == res
    | _ => false)

/-- R10: under GLB_LOCK.SETUP a write does not reach an RW-L field. -/
theorem test_lock_refuses :
    let s := after (.glbLockSetup 1) State.reset
    (after (.registerWrite .bar0 0x1201950 0x101 none) s).rd (HDG_SRC_CFG 149) = State.reset.rd (HDG_SRC_CFG 149) := by
  decide +kernel
/-- R59: a read of the wrong size completes with Unsupported Request. -/
theorem test_bad_read : (after (.barAccessUnsupported 3 false) State.reset).out = [.unsupported 3] := by decide +kernel
/-- R71: an index outside the ring is ignored. -/
theorem test_doorbell_range :
    (after (.doorbell 1 0 256) (ringed 0)).rd (RING_HOST_IDX 1 0) = 0
      ∧ (after (.doorbell 1 0 255) (ringed 0)).rd (RING_HOST_IDX 1 0) = 255 := by decide +kernel
/-- R80, R135: NOP completes OK with its TAG. -/
theorem test_nop : completed (after (.nop 0 0 (ent [(4, 0xABCD)])) (taking 0)) 0xABCD .ok 0 = true := by decide +kernel
/-- R135: an opcode that is not listed completes with REJ_FORMAT. -/
theorem test_unlisted_opcode :
    completed (after (.commandDispatch ⟨none, 0⟩) ((((taking 0).setBit (RING_CTRL 0 0) RING_CTRL_EN true).setFld
      (RING_BASE_LO 0 0) RING_BASE_LO_LOG2SIZE 8).setRing 0 0 { Ring.idle with fetched := [0xFF] })) 0 .rejFormat 0
      = true := by decide +kernel
/-- R136: a reserved bit that is set completes with REJ_FORMAT. -/
theorem test_reserved_bit : completed (after (.nop 0 0 (ent [(20, 1)])) (taking 0)) 0 .rejFormat 0 = true := by
  decide +kernel
/-- R175: an unlocked source with FORMAT zero carries no format: RESULT 1. -/
theorem test_route_no_format : completed (after (.route 0 0 (ent [(0, 1)])) (taking 0)) 0 .rejFormat 1 = true := by decide +kernel
/-- R141, R172, R203: on an output of the same format the route stands after the switch line, and the command completes
with RESULT 0xFFFF, as the route has no synchroniser. -/
theorem test_route_switches :
    let s := after (.route 0 0 (ent [(0, 1), (4, 7), (16, p25)])) ((taking 0).wr (ML_TXFMT 0) 0x305)
    let t := after (.switchPoint 0 7 0 0) { s with now := 80000000 }
    s.route? 0 = none ∧ (t.route? 0).map (fun r => (r.src, r.width, r.fmt)) = some (0, 1, f25)
      ∧ completed t 7 .ok 0xFFFF = true := by decide +kernel
/-- R120, R121: ten canvases move to TN5. -/
theorem test_grant :
    let s := State.reset.wr TEN_GRANT_OBJ 0xA0008
    let t := after .grantDone (after (.grant 1 5) s)
    (t.ownerOf 1 7, t.ownerOf 1 8, t.ownerOf 1 17, t.ownerOf 1 18) = (0, 5, 5, 0) := by decide +kernel

/-- The memory-loss example before the failure: allocations oldest first, with the tenants' classes. -/
def loaded : State :=
  let c := fun (t k : Nat) (s : State) => s.setFld (TEN_CFG t) TEN_CFG_CLASS k
  let a := fun (t i n : Nat) (s : State) => s.alloc t (.route (3840 + 4 * i)) ⟨0, 0, n, 0, 0⟩
  State.reset |> c 5 1 |> c 9 1 |> c 12 2 |> c 40 3 |> a 0 0 400 |> a 5 1 300 |> a 9 2 120 |> a 9 3 80 |> a 12 4 250
    |> a 40 5 60 |> a 40 6 40

/-- Memory channel loss: TN40, TN12 and TN9's later allocation are shed, and 820 GB/s remain in use. -/
theorem test_memory_loss :
    let s := after (.memoryStackFail 1) loaded
    s.ten.allocs.map (fun a => (a.owner, a.charge.membw)) = [(0, 400), (5, 300), (9, 120)] ∧ s.cap 2 = 888 := by
  decide +kernel
/-- The same example: 70 GB/s more for TN5 exceed the total (budget 2). -/
theorem test_memory_loss_rejects :
    let s := after (.memoryStackFail 1) (loaded.setFld (TEN_RSV 5 2) TEN_RSV_VALUE 500)
    s.overBudget 5 ⟨0, 0, 70, 0, 0⟩ (fun _ => false) = some 2
      ∧ s.overBudget 5 ⟨0, 0, 68, 0, 0⟩ (fun _ => false) = none := by decide +kernel
/-- The mains transient: five filled lines and one frame in error when a loss ends as a short one. -/
theorem test_short_loss :
    let s := (((State.reset.wr (ML_HDGEN 37) 0).wr (ML_CTRL 37) 9).wr (ML_STAT 37) 0x584)
    let t := after (.lolshort 37 5 1) s
    (t.rd (ML_FILLLN 37), t.rd (ML_ERRFRM 37), t.bit (ML_HIST 37) ⟨2, 1⟩, t.bit (ML_STAT 37) ML_STAT_HOLD)
      = (5, 1, true, false) := by decide +kernel
/-- A loss of lock counts at MLn_LOLCNT, and a changed structure makes it long: HIST.LOL. -/
theorem test_long_loss :
    let s := (((State.reset.wr (ML_HDGEN 37) 0).wr (ML_CTRL 37) 9).wr (ML_STAT 37) 0x506)
    let t := after (.lossOfLock 37 (.changed 3)) s
    (t.rd (ML_LOLCNT 37), t.bit (ML_HIST 37) ⟨1, 1⟩) = (1, true) := by decide +kernel
/-- A group PLL loss: source 11 with N 1 and ACTION 1 becomes SEVERE, is latched, and its timer runs until HDG_ACK. -/
theorem test_group_pll :
    let s := after (.mlnGrppll 5) ((State.reset.wr (HDG_SRC_CFG 11) 0x119).wr MLN_GRPSTAT 0xFFFF)
    (s.fld (HDG_SRC_STAT 11) HDG_SRC_STAT_STATE, s.fld HDG_FIRSTSEV HDG_FIRSTSEV_SRC, s.fld HDG_FIRSTSEV HDG_FIRSTSEV_SEV)
        = (2, 11, 2)
      ∧ s.hdg.timers ≠ [] ∧ (after (.hdgAck 11) s).hdg.timers = [] := by decide +kernel
/-- Locating a word: a trunk of 96 lanes carries 1,745 tracks, and one of 95 carries 1,727. -/
theorem test_trunk_capacity :
    let s := State.reset.each (List.range 96) (fun s j => s.setFld (BLK_LANE_CFG j) BLK_LANE_CFG_LINK 0)
    let s := s.setFld (BLK_L_CFG 0) BLK_L_CFG_TRUNK 0
    s.trunkCap 0 = 1745 ∧ (s.setFld (BLK_LANE_CFG 45) BLK_LANE_CFG_LINK 15).trunkCap 0 = 1727 := by decide +kernel
/-- R412: a posted write stores its bytes; beyond 48 GiB the address does not exist. -/
theorem test_remote_write :
    let s := after (.rdmaWr 1 0x1000 [1, 2, 3, 4, 5, 6, 7, 8]) State.reset
    (Memory.read s.mem 0x1000, Memory.read s.mem 0x1007, Memory.read s.mem 0x1008) = (1, 8, 0) := by decide +kernel
/-- R335: a frame of 63 bytes is a runt. -/
theorem test_runt :
    (after (.macFrameReceived 0 ⟨63, true, false, .whole, false, false, true, 0, 0⟩) (mp 1 1)).port 0
      = { MacPort.idle with counts := [(MAC_RXRUNT, 1)] } := by decide +kernel
/-- R358: a packet with an SRD outside the raster counts at ESS_BADPKT. -/
theorem test_bad_packet :
    (after (.essPacketReceived 0 { packet with srds := [⟨false, 1080, 0, 5⟩] })
      (receiving { FlowRx.idle with now := some (flow 0 0 false f25 pbk) })).rd ESS_BADPKT = 1 := by decide +kernel
/-- The map change of port 3: a crossing while the new source is at -36 dBFS completes with RESULT 0, and a CLRMUTE
while AMPFLT is high is BUSY. -/
theorem test_clrmute_busy :
    completed (after (.audPort 0 0 (ent [(0, 0x21), (8, 3), (9, 4), (12, 48000)]))
      ((taking 0).setBit (AUD_TDM_STAT 3) AUD_TDM_STAT_AMPFLT true)) 0 .busy 0 = true := by decide +kernel
/-- R446: a snapshot of 1.5 s and of the timestamp. -/
theorem test_time_snapshot :
    let s := after (.snap 0) (State.reset.setBase 0 { TimeBase.start with time := 1500000000 * 4294967296 })
    (s.rd (TIM_TB_SNAPSEC_LO 0), s.rd (TIM_TB_SNAPNS 0), s.rd (TIM_TB_SNAPTS 0)) = (1, 500000000, 1500000000) := by
  decide +kernel
/-- Loss of a REFIN: the next entry that is qualified is selected, and REFLOSS and SWITCH are set. -/
theorem test_reference_loss :
    let s := ((clk 2 true).wr (CLK_PRI 1) 0x15).wr CLK_QUAL 0x22
    let t := after (.referenceActivityLoss 1) s
    (t.fld CLK_STAT CLK_STAT_ACTPRI, t.bit CLK_HIST CLK_HIST_REFLOSS, t.bit CLK_HIST CLK_HIST_SWITCH) = (1, true, true) := by
  decide +kernel
/-- Spare engines: a CANVAS_DEF on CE7 abandons its slice. -/
theorem test_abandon :
    let s := (taking 0).setFld (TEN_RSV 0 3) TEN_RSV_VALUE 9000 |>.setFld (TEN_RSV 0 4) TEN_RSV_VALUE 9000
      |>.setFld (TEN_RSV 0 2) TEN_RSV_VALUE 900
    let t := after (.canvasDef 0 0 (ent [(0, 0x10), (8, 4), (9, 7), (10, 320), (12, 80), (14, 3)]))
      (s.setBst { s.bst with slicing := [unitEngine 7] })
    t.rd BST_ABANDON = 1 ∧ t.bst.slicing = [] := by decide +kernel
/-- R583: an image whose signature fails is counted, and nothing is staged. -/
theorem test_bad_signature :
    let t := after (.loadimg { img with sigOk := false }) (upd 0)
    t.rd SEC_SIGFAIL = 1 ∧ t.svc.staged = none := by decide +kernel
/-- An idle step counts one cycle of 4 ns (log entry 2). -/
theorem test_idle_counts : (State.tick State.reset).now = 4 := by decide +kernel
/-- R388: words 1,000 and 2,745 of a trunk of 96 lanes: lane 13 from PAYLOAD bit 32, lane 35 from bit 1,140. -/
theorem test_word_place :
    muxWordBit 96 (muxWord 1745 0 1000) 0 = (0, 13, 32) ∧ muxWordBit 96 (muxWord 1745 1 1000) 0 = (0, 35, 1140)
      ∧ muxOwner 1745 921360 = none ∧ muxOwner 1745 921359 = some (1744, 527) := by decide +kernel
/-- R388, R392: the same word found from destination track T2024: block 0, L0, BL13. -/
theorem test_word_of_track :
    let s := State.reset.each (List.range 96) (fun s j => s.setFld (BLK_LANE_CFG j) BLK_LANE_CFG_LINK (j / 32))
    let s := s.each [0, 1, 2] (fun s k => s.setFld (BLK_L_CFG k) BLK_L_CFG_TRUNK 0)
    (s.setFld (BLK_TR_OSLOT 0) BLK_TR_OSLOT_CNT 1745).wordPlace 0 2024 0 = some (0, 0, 13, 32) := by decide +kernel
/-- R382: the marker in line order, least significant bit first, is 1101 0010 0111. -/
theorem test_marker :
    lsbBits 12 marker = [true, true, false, true, false, false, true, false, false, true, true, true] := by decide +kernel
/-- R384: 31 ones are followed by a stuffed zero, which the receiver removes. -/
theorem test_stuff :
    stuff false 0 (List.replicate 33 true) = List.replicate 31 true ++ [false, true, true]
      ∧ unstuff false 0 (List.replicate 31 true ++ [false, true, true]) = List.replicate 33 true := by decide +kernel
/-- R385: an unscrambled run of 1,536 zeros would need 49 stuff bits, so the block is sent void. -/
theorem test_void : blockVoid 0 0 0 0 0 = true := by decide +kernel
/-- R257: left 600, above 520, above-left 700 predict 520; above-left 500 predicts 600; above-left 550 predicts 570. A
residual of -1 maps to 1. -/
theorem test_sedge_predict :
    (sedgeMed 600 520 700, sedgeMed 600 520 500, sedgeMed 600 520 550, sedgeMap 10 511 512) = (520, 600, 570, 1) := by
  decide +kernel
/-- R258: a flat run of eight zero values costs 8 bits under k 0; the value 37 under k 1 is 16 ones and 10 bits. -/
theorem test_sedge_values :
    (sedgeParam 10 (List.replicate 8 0), (sedgeRun 10 (List.replicate 8 0)).length, (sedgeValue 10 1 37).length)
      = (0, 12, 26) := by decide +kernel
/-- R259: LEN above the raw size of a 4:2:2 10-bit tile is an error. -/
theorem test_sedge_len : sedgeRead 0 0x8B [] = none := by decide +kernel
/-- R281: the fourth bar is green, and a canvas of 1,921 columns leaves its last column to the last bar. -/
theorem test_bars : (barColour 3, barOf 1921 719, barOf 1921 1920) = ((false, true, false), 2, 7) := by decide +kernel

/-! ## The hypotheses of every statement can be met -/

/-- States and operands that meet the hypotheses of StepKeepsCanonical, clause by clause. -/
theorem witness_StepKeepsCanonical :
    ∃ s : State, ∃ t : State, s.Canonical ∧ step s = .next t :=
  ⟨State.reset, State.tick State.reset, ⟨by decide, by decide⟩, rfl⟩

/-- States and operands that meet the hypotheses of CommandsKeepQueueTimeAndStores, clause by clause. -/
theorem witness_CommandsKeepQueueTimeAndStores :
    (∃ c : Instr, ∃ s : State, ∃ t : State, exec c s = .next t)
    ∧ (∃ c : Instr, ∃ s : State, ∃ t : State, c.writesStores = false ∧ exec c s = .next t) :=
  ⟨⟨.commandDispatch ⟨none, 0⟩, State.reset, { opCommandDispatch ⟨none, 0⟩ State.reset with pending := [] }, rfl⟩,
   ⟨.commandDispatch ⟨none, 0⟩, State.reset, { opCommandDispatch ⟨none, 0⟩ State.reset with pending := [] },
    by decide, rfl⟩⟩

/-- States and operands that meet the hypotheses of EveryCommandAnswers, clause by clause. -/
theorem witness_EveryCommandAnswers :
    (∃ c : Instr, c.inMemory = true)
    ∧ (∃ off : BitVec 36, ∃ data : List Byte, Memory.size < off.toNat + data.length)
    ∧ (∃ off : BitVec 36, ∃ n : Byte, Memory.size < off.toNat + 8 * n.toNat) :=
  ⟨⟨.nop 0 0 0, by decide +kernel⟩,
   ⟨0xBFFFFFFFF, [1, 2], by decide +kernel⟩,
   ⟨0xBFFFFFFF8, 2, by decide +kernel⟩⟩

/-- States and operands that meet the hypotheses of FieldWriteTypes, clause by clause. -/
theorem witness_FieldWriteTypes :
    (∃ f : Field, ∃ g : Field, f.lo + f.width ≤ 32 ∧ (f.lo + f.width ≤ g.lo ∨ g.lo + g.width ≤ f.lo))
    ∧ (∃ f : Field, f.lo + f.width ≤ 32)
    ∧ (∃ locked : Bool, ∃ f : Field, f.lo + f.width ≤ 32 ∧ locked = false)
    ∧ (∃ locked : Bool, ∃ f : Field, f.lo + f.width ≤ 32 ∧ locked = true)
    ∧ (∃ old : Word, ∃ f : Field, f.lo + f.width ≤ 32 ∧ f.get old = 0)
    ∧ (∃ old : Word, ∃ f : Field, f.lo + f.width ≤ 32 ∧ f.get old ≠ 0) :=
  ⟨⟨⟨0, 1⟩, ⟨1, 31⟩, by decide +kernel⟩,
   ⟨⟨0, 1⟩, by decide +kernel⟩,
   ⟨false, ⟨31, 1⟩, by decide +kernel⟩,
   ⟨true, ⟨31, 1⟩, by decide +kernel⟩,
   ⟨0, ⟨0, 32⟩, by decide +kernel⟩,
   ⟨1, ⟨0, 32⟩, by decide +kernel⟩⟩

/-- States and operands that meet the hypotheses of RegisterWriteReaches, clause by clause. -/
theorem witness_RegisterWriteReaches :
    (∃ off : BitVec 26, off.toNat % 4 = 0)
    ∧ (∃ off : BitVec 26, off.toNat % 8 = 0)
    ∧ (∃ off : BitVec 26, off.toNat % 4 = 0 ∧ off.toNat < 0x10000)
    ∧ (∃ off : BitVec 26, off.toNat % 8 = 0 ∧ off.toNat < 0x10000)
    ∧ (∃ off : BitVec 26, off.toNat % 4 = 0 ∧ 0x10000 ≤ off.toNat)
    ∧ (∃ off : BitVec 26, off.toNat % 4 = 0 ∧ findReg off.toNat = none)
    ∧ (∃ s : State, ∃ off : BitVec 26, off.toNat % 4 = 0 ∧ s.pwr.barred = true ∧ (off.toNat < 0x1380000 ∨ 0x1500000 ≤
      off.toNat))
    ∧ (∃ off : BitVec 26, off.toNat % 4 ≠ 0)
    ∧ (∃ off : BitVec 26, off.toNat % 8 ≠ 0)
    ∧ (∃ s : State, s.pwr.barred = false) :=
  ⟨⟨0, by decide +kernel⟩,
   ⟨0, by decide +kernel⟩,
   ⟨0xFFFC, by decide +kernel⟩,
   ⟨0xFFF8, by decide +kernel⟩,
   ⟨0x10000, by decide +kernel⟩,
   ⟨0x3FFFFFC, by decide +kernel⟩,
   ⟨{ State.reset with pwr := { State.reset.pwr with barred := true } }, 0x1500000, by decide +kernel⟩,
   ⟨1, by decide +kernel⟩,
   ⟨1, by decide +kernel⟩,
   ⟨State.reset, by decide +kernel⟩⟩

/-- States and operands that meet the hypotheses of DoorbellsAndFetch, clause by clause. -/
theorem witness_DoorbellsAndFetch :
    (∃ t : Tenant, ∃ r : RingIx, ∃ i : BitVec 16, ∃ s : State, let bad : Prop := (s.ringSizeOk t r = true ∧ s.ringSize
      t r ≤ i.toNat); s.tenOn t = true ∧ s.ringOn t r = true ∧ (¬bad) ∧ (r.val < 14 ∨ (∀ e, e ∈ s.cmp.grabs → e.2.owed
      = none)))
    ∧ (∃ t : Tenant, ∃ r : RingIx, ∃ i : BitVec 16, ∃ s : State, ∃ ch : Nat, ∃ g : Grab, ∃ c : Capture, let bad : Prop
      := (s.ringSizeOk t r = true ∧ s.ringSize t r ≤ i.toNat); let w := (s.setFld (RING_HOST_IDX t r)
      RING_HOST_IDX_IDX i.toNat); s.tenOn t = true ∧ s.ringOn t r = true ∧ (¬bad) ∧ 14 ≤ r.val ∧ s.cmp.grabs = [(ch,
      g)] ∧ g.owed = some c ∧ g.tenant = t.val ∧ g.ring = r.val ∧ w.ringFull t r = false)
    ∧ (∃ t : Tenant, ∃ s : State, s.tenOn t = false)
    ∧ (∃ t : Tenant, ∃ r : RingIx, ∃ i : BitVec 16, ∃ s : State, let bad : Prop := (s.ringSizeOk t r = true ∧
      s.ringSize t r ≤ i.toNat); s.tenOn t = true ∧ bad)
    ∧ (∃ t : Tenant, ∃ r : RingIx, ∃ i : BitVec 16, ∃ s : State, let bad : Prop := (s.ringSizeOk t r = true ∧
      s.ringSize t r ≤ i.toNat); s.tenOn t = true ∧ (¬bad) ∧ s.ringOn t r = false)
    ∧ (∃ t : Tenant, ∃ s : State, ∃ r : CmdRing, s.tenOn t = true ∧ s.ringOn t r = true)
    ∧ (∃ t : Tenant, ∃ s : State, ∃ r : CmdRing, (s.tenOn t = false ∨ s.ringOn t r = false))
    ∧ (∃ t : Tenant, ∃ s : State, ∃ r : CmdRing, (s.ring t r).fetched ≠ [] ∧ (s.ring t r).aged = false)
    ∧ (∃ t : Tenant, ∃ s : State, ∃ r : CmdRing, ((s.ring t r).fetched = [] ∨ (s.ring t r).aged = true))
    ∧ (∃ t : Tenant, ∃ s : State, ∃ r : RingIx, 8 ≤ r.val ∧ s.bit (RING_CTRL t r) RING_CTRL_IEN = true ∧ s.fld
      (RING_MOD t r) RING_MOD_TIME ≠ 0 ∧ (s.ring t r).unsignalled ≠ 0)
    ∧ (∃ t : Tenant, ∃ s : State, ∃ r : RingIx, (r.val < 8 ∨ s.bit (RING_CTRL t r) RING_CTRL_IEN = false ∨ s.fld
      (RING_MOD t r) RING_MOD_TIME = 0 ∨ (s.ring t r).unsignalled = 0)) :=
  ⟨⟨1, 8, 255, ringed 8, by dsimp only; decide +kernel⟩,
   ⟨1, 14, 255, (ringed 14).setCmp { State.reset.cmp with grabs := [(0, grabbed)] }, 0, grabbed, shot,
    by dsimp only; decide +kernel⟩,
   ⟨1, State.reset, by decide +kernel⟩,
   ⟨1, 8, 256, ringed 8, by dsimp only; decide +kernel⟩,
   ⟨1, 8, 0, State.reset.setFld (TEN_CFG 1) TEN_CFG_STATE 1, by dsimp only; decide +kernel⟩,
   ⟨1, ringed 0, 0, by decide +kernel⟩,
   ⟨1, State.reset, 0, by decide +kernel⟩,
   ⟨1, State.reset.setRing 1 0 { Ring.idle with fetched := [0] }, 0, by decide +kernel⟩,
   ⟨1, State.reset, 0, by decide +kernel⟩,
   ⟨1,
    (((ringed 8).setBit (RING_CTRL 1 8) RING_CTRL_IEN true).setFld (RING_MOD 1 8) RING_MOD_TIME 1).setRing 1 8 { Ring.idle with unsignalled := 1 },
    8, by decide +kernel⟩,
   ⟨1, State.reset, 8, by decide +kernel⟩⟩

/-- States and operands that meet the hypotheses of MsixUnmaskSendsPending, clause by clause. -/
theorem witness_MsixUnmaskSendsPending :
    (∃ s : State, ∃ t : Nat, ∃ v : Nat, s.vecMasked t v = true)
    ∧ (∃ s : State, ∃ t : Nat, ∃ v : Nat, s.vecMasked t v = false)
    ∧ (∃ s : State, ∃ t : Tenant, ∃ v : BitVec 6, v.toNat < vectorsOf t ∧ 64 * t.val + v.toNat ∈ s.hif.msixPending)
    ∧ (∃ s : State, ∃ t : Tenant, ∃ v : BitVec 6, v.toNat < vectorsOf t ∧ 64 * t.val + v.toNat ∉ s.hif.msixPending) :=
  ⟨⟨State.reset, 0, 0, by decide +kernel⟩,
   ⟨State.reset.wr (MSIX_VCTRL 0 0) 0, 0, 0, by decide +kernel⟩,
   ⟨State.reset.setHif { State.reset.hif with msixPending := [79] }, 1, 15, by decide +kernel⟩,
   ⟨State.reset, 1, 15, by decide +kernel⟩⟩

/-- States and operands that meet the hypotheses of RingConfiguration, clause by clause. -/
theorem witness_RingConfiguration :
    (∃ t : Tenant, ∃ r : RingIx, ∃ v : Word, ∃ s : State, RING_CTRL_EN.get v = 1 ∧ s.ringOn t r = false ∧ s.ringSizeOk
      t r = false)
    ∧ (∃ t : Tenant, ∃ r : RingIx, ∃ s : State, s.ringOn t r = true)
    ∧ (∃ t : Tenant, ∃ r : RingIx, ∃ s : State, s.ringOn t r = false)
    ∧ (∃ t : Tenant, ∃ r : RingIx, ∃ v : Word, ∃ s : State, RING_CTRL_EN.get v = (if s.ringOn t r then 1 else 0))
    ∧ (∃ t : Tenant, ∃ r : RingIx, ∃ v : Word, ∃ s : State, RING_CTRL_EN.get v = 1 ∧ s.ringOn t r = false ∧
      s.ringSizeOk t r = true ∧ (s.ring t r).deferred = [] ∧ (∀ e, e ∈ s.cmp.grabs → e.2.owed = none))
    ∧ (∃ t : Tenant, ∃ r : RingIx, ∃ v : Word, ∃ s : State, ∃ c : Completion, RING_CTRL_EN.get v = 1 ∧ s.ringOn t r =
      false ∧ s.ringSizeOk t r = true ∧ (8 ≤ r.val ∧ r.val < 12) ∧ (s.ring t r).deferred = [c] ∧ c.sq < 8)
    ∧ (∃ t : Tenant, ∃ r : RingIx, ∃ v : Word, ∃ s : State, RING_CTRL_EN.get v = 0 ∧ s.ringOn t r = true) :=
  ⟨⟨1, 8, 1, State.reset.setFld (RING_BASE_LO 1 8) RING_BASE_LO_LOG2SIZE 17, by decide +kernel⟩,
   ⟨1, 8, ringed 8, by decide +kernel⟩,
   ⟨1, 8, State.reset, by decide +kernel⟩,
   ⟨1, 8, 0, State.reset, by decide +kernel⟩,
   ⟨1, 7, 1, State.reset.setFld (RING_BASE_LO 1 7) RING_BASE_LO_LOG2SIZE 16, by decide +kernel⟩,
   ⟨1, 8, 1,
    (State.reset.setFld (RING_BASE_LO 1 8) RING_BASE_LO_LOG2SIZE 8).setRing 1 8 { Ring.idle with deferred := [⟨0, 0, 0, .ok, 0, 0, true⟩] },
    ⟨0, 0, 0, .ok, 0, 0, true⟩, by decide +kernel⟩,
   ⟨1, 8, 0, ringed 8, by decide +kernel⟩⟩

/-- States and operands that meet the hypotheses of FunctionResets, clause by clause. -/
theorem witness_FunctionResets :
    (∃ n : Tenant, ∃ s : State, n.val ≠ 0 ∧ (∀ e ∈ s.cmp.grabs, e.1 < 48))
    ∧ (∃ s : State, (∀ e ∈ s.cmp.grabs, e.1 < 48))
    ∧ (∃ s : State, ∃ t : Nat, ∃ r : Nat, (∀ e ∈ s.cmp.grabs, e.1 < 48) ∧ t < 1024 ∧ r < 16)
    ∧ (∃ s : State, ∃ t : Tenant, ∃ a : Nat, (∀ e ∈ s.cmp.grabs, e.1 < 48) ∧ inPage t a = true ∧ a ≠ TPG_FLR t)
    ∧ (∃ s : State, ∃ c : HostCh, ∃ a : _, (∀ e ∈ s.cmp.grabs, e.1 < 48) ∧ HIF_DMA_CTRL (48 + c.val) ≤ a ∧ a <
      HIF_DMA_CTRL (48 + c.val) + 0x40 ∧ a ≠ HIF_DMA_STAT (48 + c.val)) :=
  ⟨⟨1, State.reset, by decide +kernel⟩,
   ⟨State.reset, by decide +kernel⟩,
   ⟨State.reset, 0, 0, by decide +kernel⟩,
   ⟨State.reset, 1, TPG_FLR 1 + 4, by decide +kernel⟩,
   ⟨State.reset, 0, HIF_DMA_CTRL 48, by decide +kernel⟩⟩

/-- States and operands that meet the hypotheses of DmaChannelControl, clause by clause. -/
theorem witness_DmaChannelControl :
    (∃ n : HostCh, ∃ v : Word, ∃ s : State, let k := (48 + n.val); let size := (s.fld (HIF_DMA_RBASE_LO k)
      HIF_DMA_RBASE_LO_LOG2SIZE); s.pwr.barred = false ∧ HIF_DMA_CTRL_EN.get v = 1 ∧ s.chanEn k = false ∧ (¬(6 ≤ size
      ∧ size ≤ 16)))
    ∧ (∃ n : HostCh, ∃ v : Word, ∃ s : State, let k := (48 + n.val); let x := (s.chan k); let size := (s.fld
      (HIF_DMA_RBASE_LO k) HIF_DMA_RBASE_LO_LOG2SIZE); let plain : Prop := (HIF_DMA_CTRL_RESUME.get v = 0 ∧
      HIF_DMA_CTRL_ABORT.get v = 0); s.pwr.barred = false ∧ HIF_DMA_CTRL_EN.get v = 1 ∧ plain ∧ ((6 ≤ size ∧ size ≤
      16) ∨ s.chanEn k = true) ∧ x.desc = none)
    ∧ (∃ n : HostCh, ∃ v : Word, ∃ s : State, let k := (48 + n.val); let plain : Prop := (HIF_DMA_CTRL_RESUME.get v =
      0 ∧ HIF_DMA_CTRL_ABORT.get v = 0); s.pwr.barred = false ∧ HIF_DMA_CTRL_EN.get v = 0 ∧ plain ∧ (s.chanEn k =
      false ∨ s.chanState k ≠ 1))
    ∧ (∃ n : HostCh, ∃ v : Word, ∃ s : State, let k := (48 + n.val); let x := (s.chan k); let plain : Prop :=
      (HIF_DMA_CTRL_RESUME.get v = 0 ∧ HIF_DMA_CTRL_ABORT.get v = 0); s.pwr.barred = false ∧ HIF_DMA_CTRL_EN.get v = 0
      ∧ plain ∧ s.chanEn k = true ∧ s.chanState k = 1 ∧ x.burst = 0)
    ∧ (∃ s : State, s.pwr.barred = false)
    ∧ (∃ n : HostCh, ∃ v : Word, ∃ s : State, let k := (48 + n.val); let t := (s.fieldWrite (HIF_DMA_PIDX k) v); let
      go : Prop := (t.chanEn k = true ∧ t.chanState k = 0 ∧ t.reqsel k ≤ 18 ∧ t.chanQueued k ≠ 0); s.pwr.barred =
      false ∧ go)
    ∧ (∃ n : HostCh, ∃ v : Word, ∃ s : State, let k := (48 + n.val); let t := (s.fieldWrite (HIF_DMA_PIDX k) v); let
      go : Prop := (t.chanEn k = true ∧ t.chanState k = 0 ∧ t.reqsel k ≤ 18 ∧ t.chanQueued k ≠ 0); s.pwr.barred =
      false ∧ (¬go))
    ∧ (∃ n : HostCh, ∃ s : State, let k := (48 + n.val); s.pwr.barred = false ∧ (s.chanState k ≠ 2 ∨ 18 < s.reqsel k))
    ∧ (∃ n : HostCh, ∃ s : State, let k := (48 + n.val); let x := (s.chan k); s.pwr.barred = false ∧ s.chanState k = 2
      ∧ s.reqsel k ≤ 18 ∧ s.chanEn k = true ∧ x.desc = none)
    ∧ (∃ n : HostCh, ∃ s : State, ∃ d : Desc, let k := (48 + n.val); let x := (s.chan k); s.pwr.barred = false ∧
      s.chanState k = 2 ∧ s.reqsel k = 0 ∧ s.chanEn k = true ∧ x.desc = some d ∧ d.remote = false)
    ∧ (∃ n : HostCh, ∃ s : State, let k := (48 + n.val); let x := (s.chan k); s.pwr.barred = false ∧ s.chanState k = 2
      ∧ s.reqsel k ≤ 18 ∧ s.chanEn k = false ∧ x.desc = none) :=
  ⟨⟨0, 1, State.reset.setFld (HIF_DMA_RBASE_LO 48) HIF_DMA_RBASE_LO_LOG2SIZE 17, by decide +kernel⟩,
   ⟨0, 1, (dma 0).setBit (HIF_DMA_CTRL 48) HIF_DMA_CTRL_EN true, by dsimp only; decide +kernel⟩,
   ⟨0, 0, State.reset, by dsimp only; decide +kernel⟩,
   ⟨0, 0, (dma 1).setBit (HIF_DMA_CTRL 48) HIF_DMA_CTRL_EN true, by dsimp only; decide +kernel⟩,
   ⟨State.reset, by decide +kernel⟩,
   ⟨0, 1, (dma 0).setBit (HIF_DMA_CTRL 48) HIF_DMA_CTRL_EN true, by dsimp only; decide +kernel⟩,
   ⟨0, 0, State.reset, by dsimp only; decide +kernel⟩,
   ⟨0, State.reset, by decide +kernel⟩,
   ⟨0, (dma 2).setBit (HIF_DMA_CTRL 48) HIF_DMA_CTRL_EN true, by decide +kernel⟩,
   ⟨0,
    ((dma 2).setBit (HIF_DMA_CTRL 48) HIF_DMA_CTRL_EN true).setChan 48 { Chan.idle with desc := some ⟨0, 0, 0, false, 128, false, false, 0⟩ },
    ⟨0, 0, 0, false, 128, false, false, 0⟩, by decide +kernel⟩,
   ⟨0, dma 2, by decide +kernel⟩⟩

/-- States and operands that meet the hypotheses of DmaTransfers, clause by clause. -/
theorem witness_DmaTransfers :
    (∃ n : HostCh, ∃ s : State, ∃ e : BitVec 256, let k := (48 + n.val); let x := (s.chan k); let d := (descOf e);
      s.chanState k = 1 ∧ x.desc = none ∧ s.chanQueued k ≠ 0 ∧ d.aligned = false)
    ∧ (∃ n : HostCh, ∃ s : State, ∃ e : BitVec 256, let k := (48 + n.val); let x := (s.chan k); let d := (descOf e);
      s.chanState k = 1 ∧ x.desc = none ∧ s.chanQueued k ≠ 0 ∧ d.aligned = true ∧ Memory.size < d.offset + d.len)
    ∧ (∃ n : HostCh, ∃ s : State, ∃ e : BitVec 256, let k := (48 + n.val); let x := (s.chan k); let d := (descOf e);
      s.chanState k = 1 ∧ x.desc = none ∧ s.chanQueued k ≠ 0 ∧ d.aligned = true ∧ d.offset + d.len ≤ Memory.size ∧
      d.remote = false ∧ s.reqsel k = 0)
    ∧ (∃ n : HostCh, ∃ s : State, ∃ e : BitVec 256, let k := (48 + n.val); let x := (s.chan k); let stat :=
      (HIF_DMA_STAT k); let d := (descOf e); s.chanState k = 1 ∧ x.desc = none ∧ s.chanQueued k ≠ 0 ∧ d.aligned = true
      ∧ d.offset + d.len ≤ Memory.size ∧ d.remote = false ∧ s.reqsel k ≠ 0 ∧ s.fld stat HIF_DMA_STAT_PENDREQ = 0)
    ∧ (∃ n : HostCh, ∃ s : State, let k := (48 + n.val); let x := (s.chan k); (s.chanState k ≠ 1 ∨ x.desc ≠ none ∨
      s.chanQueued k = 0))
    ∧ (∃ n : HostCh, ∃ s : State, ∃ d : Desc, let k := (48 + n.val); let x := (s.chan k); s.chanState k = 1 ∧ x.desc =
      some d ∧ x.burst ≠ 0 ∧ x.waiting = false ∧ x.stopping = false ∧ d.remote = false ∧ x.moved + x.burst < d.len ∧
      d.toHost = false)
    ∧ (∃ n : HostCh, ∃ s : State, ∃ d : Desc, let k := (48 + n.val); let x := (s.chan k); s.chanState k = 1 ∧ x.desc =
      some d ∧ x.burst ≠ 0 ∧ x.waiting = false ∧ x.stopping = false ∧ d.remote = false ∧ x.moved + x.burst < d.len ∧
      d.toHost = true)
    ∧ (∃ n : HostCh, ∃ s : State, ∃ d : Desc, let k := (48 + n.val); let x := (s.chan k); s.chanState k = 1 ∧ x.desc =
      some d ∧ x.burst ≠ 0 ∧ x.waiting = false ∧ d.remote = false ∧ d.toHost = false ∧ x.moved + x.burst = d.len)
    ∧ (∃ n : HostCh, ∃ s : State, ∃ d : Desc, let k := (48 + n.val); let x := (s.chan k); s.chanState k = 1 ∧ x.desc =
      some d ∧ x.burst ≠ 0 ∧ x.waiting = false ∧ d.toHost = true)
    ∧ (∃ n : HostCh, ∃ s : State, ∃ d : Desc, let k := (48 + n.val); let x := (s.chan k); s.chanState k = 1 ∧ x.desc =
      some d ∧ x.burst ≠ 0 ∧ x.waiting = false ∧ d.toHost = false ∧ x.tries < s.fld (HIF_DMA_CTRL k)
      HIF_DMA_CTRL_RETRY)
    ∧ (∃ n : HostCh, ∃ s : State, ∃ d : Desc, let k := (48 + n.val); let x := (s.chan k); s.chanState k = 1 ∧ x.desc =
      some d ∧ x.burst ≠ 0 ∧ x.waiting = false ∧ d.toHost = false ∧ s.fld (HIF_DMA_CTRL k) HIF_DMA_CTRL_RETRY ≤
      x.tries)
    ∧ (∃ line : BitVec 7, (line.toNat = 0 ∨ 18 < line.toNat))
    ∧ (∃ line : BitVec 7, ∃ s : State, 1 ≤ line.toNat ∧ line.toNat ≤ 18 ∧ (∀ c : HostCh, s.reqsel (48 + c.val) =
      line.toNat → (s.chan (48 + c.val)).desc = none))
    ∧ (∃ c : Fin 48, ∃ s : State, s.commandReads c = none)
    ∧ (∃ c : Fin 48, ∃ mv : Word, ∃ s : State, ∃ a : Nat, let x := (s.chan c); let tries := (if x.moved = mv.toNat
      then x.tries else 0); s.commandReads c = some a ∧ x.waiting = false ∧ tries < s.fld (HIF_DMA_CTRL c)
      HIF_DMA_CTRL_RETRY)
    ∧ (∃ c : Fin 48, ∃ mv : Word, ∃ s : State, ∃ a : Nat, let x := (s.chan c); let tries := (if x.moved = mv.toNat
      then x.tries else 0); s.commandReads c = some a ∧ x.waiting = false ∧ s.fld (HIF_DMA_CTRL c) HIF_DMA_CTRL_RETRY
      ≤ tries ∧ s.svc.channel ≠ some c.val) :=
  ⟨⟨0, dma 1, 1, by decide +kernel⟩,
   ⟨0, dma 1, BitVec.ofNat 256 (2 ^ 134 + (48 * 2 ^ 30) * 2 ^ 64), by decide +kernel⟩,
   ⟨0, dma 1, BitVec.ofNat 256 (2 ^ 134 + 0 * 2 ^ 64), by decide +kernel⟩,
   ⟨0, (dma 1).setFld (HIF_DMA_CTRL 48) HIF_DMA_CTRL_REQSEL 1, BitVec.ofNat 256 (2 ^ 134 + 0 * 2 ^ 64),
    by decide +kernel⟩,
   ⟨0, State.reset, by decide +kernel⟩,
   ⟨0, (dma 1).setChan 48 { Chan.idle with desc := some ⟨0, 0, 0, false, 128, false, false, 0⟩, burst := 64 },
    ⟨0, 0, 0, false, 128, false, false, 0⟩, by decide +kernel⟩,
   ⟨0, (dma 1).setChan 48 { Chan.idle with desc := some ⟨0, 0, 0, false, 128, true, false, 0⟩, burst := 64 },
    ⟨0, 0, 0, false, 128, true, false, 0⟩, by decide +kernel⟩,
   ⟨0, (dma 1).setChan 48 { Chan.idle with desc := some ⟨0, 0, 0, false, 128, false, false, 0⟩, burst := 128 },
    ⟨0, 0, 0, false, 128, false, false, 0⟩, by decide +kernel⟩,
   ⟨0, (dma 1).setChan 48 { Chan.idle with desc := some ⟨0, 0, 0, false, 128, true, false, 0⟩, burst := 64 },
    ⟨0, 0, 0, false, 128, true, false, 0⟩, by decide +kernel⟩,
   ⟨0,
    ((dma 1).setFld (HIF_DMA_CTRL 48) HIF_DMA_CTRL_RETRY 1).setChan 48 { Chan.idle with desc := some ⟨0, 0, 0, false, 128, false, false, 0⟩, burst := 64 },
    ⟨0, 0, 0, false, 128, false, false, 0⟩, by decide +kernel⟩,
   ⟨0,
    ((dma 1).setFld (HIF_DMA_CTRL 48) HIF_DMA_CTRL_RETRY 1).setChan 48 { Chan.idle with desc := some ⟨0, 0, 0, false, 128, false, false, 0⟩, burst := 64, tries := 1 },
    ⟨0, 0, 0, false, 128, false, false, 0⟩, by decide +kernel⟩,
   ⟨0, by decide +kernel⟩,
   ⟨18, State.reset, by decide +kernel⟩,
   ⟨0, State.reset, by decide +kernel⟩,
   ⟨0, 0,
    (State.reset.setCmp { State.reset.cmp with loads := [(5, ⟨⟨0, 0, 0, 0, 0, []⟩, false, 0, 4096, 128⟩)] } |>.setHif { State.reset.hif with inflight := [flown (some 0)] }).setFld (HIF_DMA_CTRL 0) HIF_DMA_CTRL_RETRY 3,
    4096, by dsimp only; decide +kernel⟩,
   ⟨0, 0,
    (State.reset.setCmp { State.reset.cmp with loads := [(5, ⟨⟨0, 0, 0, 0, 0, []⟩, false, 0, 4096, 128⟩)] } |>.setHif { State.reset.hif with inflight := [flown (some 0)] }).setFld (HIF_DMA_CTRL 0) HIF_DMA_CTRL_RETRY 0,
    4096, by dsimp only; decide +kernel⟩⟩

/-- States and operands that meet the hypotheses of PackageMemoryErrors, clause by clause. -/
theorem witness_PackageMemoryErrors :
    (∃ s : State, ∃ k : Track, ∃ l : BitVec 11, let t := ((s.inc FSA_ECCUNC FSA_ECCUNC_COUNT).raise 167); (t.aligner
      k).substituted.contains l.toNat = false)
    ∧ (∃ s : State, ∃ c : Fin 64, c.val < 48 ∧ s.channelsBusy.contains c.val = false)
    ∧ (∃ s : State, ∃ c : Fin 64, c.val < 48 ∧ s.channelsBusy.contains c.val = true)
    ∧ (∃ s : State, ∃ c : Fin 64, ∃ d : Desc, let t := ((s.inc FSA_ECCUNC FSA_ECCUNC_COUNT).raise 167); 48 ≤ c.val ∧
      (t.chan c.val).desc = some d ∧ t.chanState c.val = 1 ∧ d.toHost = true ∧ d.remote = false)
    ∧ (∃ s : State, ∃ c : Fin 64, let t := ((s.inc FSA_ECCUNC FSA_ECCUNC_COUNT).raise 167); 48 ≤ c.val ∧ (t.chan
      c.val).desc = none) :=
  ⟨⟨State.reset, 1, 0, by decide +kernel⟩,
   ⟨State.reset, 47, by decide +kernel⟩,
   ⟨State.reset.setHif { State.reset.hif with inflight := [flown (some 47)] }, 47, by decide +kernel⟩,
   ⟨(dma 1).setChan 48 { Chan.idle with desc := some ⟨0, 0, 0, false, 128, true, false, 0⟩, burst := 64 }, 48,
    ⟨0, 0, 0, false, 128, true, false, 0⟩, by decide +kernel⟩,
   ⟨dma 1, 48, by decide +kernel⟩⟩

/-- States and operands that meet the hypotheses of RemoteDmaAndMessages, clause by clause. -/
theorem witness_RemoteDmaAndMessages :
    (∃ off : BitVec 36, ∃ data : List Byte, off.toNat + data.length ≤ Memory.size)
    ∧ (∃ off : BitVec 36, ∃ n : Byte, off.toNat + 8 * n.toNat ≤ Memory.size)
    ∧ (∃ s : State, s.sal.slots = []) :=
  ⟨⟨0xBFFFFFFFF, [1], by decide +kernel⟩,
   ⟨0xBFFFFFFF8, 1, by decide +kernel⟩,
   ⟨State.reset, by decide +kernel⟩⟩

/-- States and operands that meet the hypotheses of RemoteRegisterAccess, clause by clause. -/
theorem witness_RemoteRegisterAccess :
    (∃ s : State, s.pwr.barred = false ∧ s.bit BLK_RR_STAT BLK_RR_STAT_BUSY = true)
    ∧ (∃ s : State, let node := (s.fld BLK_RR_ADDR BLK_RR_ADDR_NODE); s.pwr.barred = false ∧ s.bit BLK_RR_STAT
      BLK_RR_STAT_BUSY = false ∧ s.blk.reqs.any (fun e => e.2.kind == 0) = false ∧ s.blk.rrWrite = false ∧ s.reach
      node = true ∧ s.freeReqs ≠ 0)
    ∧ (∃ s : State, let node := (s.fld BLK_RR_ADDR BLK_RR_ADDR_NODE); s.pwr.barred = false ∧ s.bit BLK_RR_STAT
      BLK_RR_STAT_BUSY = false ∧ s.blk.reqs.any (fun e => e.2.kind == 0) = false ∧ s.blk.rrWrite = false ∧ s.reach
      node = false)
    ∧ (∃ s : State, let node := (s.fld BLK_RR_ADDR BLK_RR_ADDR_NODE); s.pwr.barred = false ∧ s.bit BLK_RR_STAT
      BLK_RR_STAT_BUSY = false ∧ s.reach node = true)
    ∧ (∃ s : State, let node := (s.fld BLK_RR_ADDR BLK_RR_ADDR_NODE); s.pwr.barred = false ∧ s.bit BLK_RR_STAT
      BLK_RR_STAT_BUSY = false ∧ s.reach node = false)
    ∧ (∃ s : State, ∃ src : Node, ∃ tag : Byte, (∀ r, Tbl.find? s.blk.reqs tag.toNat = some r → r.node ≠ src.val))
    ∧ (∃ s : State, ∃ src : Node, ∃ tag : Byte, ∃ r : Req, Tbl.find? s.blk.reqs tag.toNat = some r ∧ r.node = src.val
      ∧ r.kind = 0 ∧ (∀ c : HostCh, s.chanState (48 + c.val) ≠ 1))
    ∧ (∃ s : State, ∃ tag : Byte, Tbl.find? s.blk.reqs tag.toNat = none)
    ∧ (∃ s : State, ∃ tag : Byte, ∃ r : Req, Tbl.find? s.blk.reqs tag.toNat = some r ∧ r.kind = 0)
    ∧ (∃ s : State, ∃ off : BitVec 26, s.remoteOk off.toNat = true)
    ∧ (∃ s : State, ∃ off : BitVec 26, s.remoteOk off.toNat = false) :=
  ⟨⟨State.reset.setBit BLK_RR_STAT BLK_RR_STAT_BUSY true, by decide +kernel⟩,
   ⟨peered.setFld BLK_RR_ADDR BLK_RR_ADDR_NODE 1, by decide +kernel⟩,
   ⟨State.reset, by decide +kernel⟩,
   ⟨peered.setFld BLK_RR_ADDR BLK_RR_ADDR_NODE 1, by decide +kernel⟩,
   ⟨State.reset, by decide +kernel⟩,
   ⟨State.reset, 1, 0, fun _ h => nomatch h⟩,
   ⟨{ State.reset with blk := { State.reset.blk with reqs := [(0, ⟨0, 1, 0, 0, 4⟩)] } }, 1, 0, ⟨0, 1, 0, 0, 4⟩,
    by decide +kernel⟩,
   ⟨State.reset, 0, by decide +kernel⟩,
   ⟨{ State.reset with blk := { State.reset.blk with reqs := [(0, ⟨0, 1, 0, 0, 4⟩)] } }, 0, ⟨0, 1, 0, 0, 4⟩,
    by decide +kernel⟩,
   ⟨State.reset, 0, by decide +kernel⟩,
   ⟨State.reset, 1, by decide +kernel⟩⟩

/-- States and operands that meet the hypotheses of BolbenLinkConfiguration, clause by clause. -/
theorem witness_BolbenLinkConfiguration :
    (∃ s : State, ∃ k : Link, ∃ v : Word, let cfg := (BLK_L_CFG k.val); s.pwr.barred = false ∧ s.linkEn k.val = true ∧
      BLK_L_CFG_TRUNK.get v ≠ s.fld cfg BLK_L_CFG_TRUNK)
    ∧ (∃ s : State, ∃ k : Link, ∃ v : Word, let lanes := (s.linkLanes k.val); s.pwr.barred = false ∧ s.linkEn k.val =
      false ∧ BLK_L_CFG_EN.get v = 1 ∧ (lanes = [] ∨ 32 < lanes.length ∨ (∃ j, j ∈ lanes ∧ s.fenced (unitFlg (flgOf
      j)) = true)))
    ∧ (∃ s : State, ∃ k : Link, ∃ v : Word, let lanes := (s.linkLanes k.val); s.pwr.barred = false ∧ s.linkEn k.val =
      false ∧ BLK_L_CFG_EN.get v = 1 ∧ lanes ≠ [] ∧ lanes.length ≤ 32 ∧ (∀ j, j ∈ lanes → s.fenced (unitFlg (flgOf j))
      = false ∧ unitFlg (flgOf j) ∉ s.bst.slicing))
    ∧ (∃ s : State, ∃ k : Link, ∃ v : Word, let cfg := (BLK_L_CFG k.val); s.pwr.barred = false ∧ s.linkEn k.val = true
      ∧ BLK_L_CFG_EN.get v = 0 ∧ BLK_L_CFG_TRUNK.get v = s.fld cfg BLK_L_CFG_TRUNK ∧ s.linkActive k.val = false)
    ∧ (∃ s : State, ∃ k : Link, ∃ v : Word, let cfg := (BLK_L_CFG k.val); s.pwr.barred = false ∧ BLK_L_CFG_EN.get v =
      (if s.linkEn k.val then 1 else 0) ∧ (s.linkEn k.val = true → BLK_L_CFG_TRUNK.get v = s.fld cfg BLK_L_CFG_TRUNK))
    ∧ (∃ s : State, ∃ w : State, ∃ n : Nat, s.pwr.barred = false ∧ w.fabricTotal = n)
    ∧ (∃ s : State, ∃ w : State, ∃ n : Nat, s.pwr.barred = false ∧ w.fabricTotal ≠ n)
    ∧ (∃ s : State, ∃ t : Trunk, ∃ inb : Bool, ∃ v : Word, let reg := (fun (u : Nat) => if inb then BLK_TR_ISLOT u
      else BLK_TR_OSLOT u); let b := (BLK_TR_OSLOT_BASE.get v); let n := (BLK_TR_OSLOT_CNT.get v); let meetsOne : Prop
      := (∃ u : Nat, u < 4 ∧ u ≠ t.val ∧ meets b n (s.fld (reg u) BLK_TR_OSLOT_BASE) (s.fld (reg u) BLK_TR_OSLOT_CNT)
      = true); let bad : Prop := (1792 < b + n ∨ s.trunkCap t.val < n ∨ s.trunkUp t.val = true ∨ meetsOne);
      s.pwr.barred = false ∧ bad)
    ∧ (∃ s : State, ∃ t : Trunk, ∃ inb : Bool, ∃ v : Word, let reg := (fun (u : Nat) => if inb then BLK_TR_ISLOT u
      else BLK_TR_OSLOT u); let b := (BLK_TR_OSLOT_BASE.get v); let n := (BLK_TR_OSLOT_CNT.get v); let meetsOne : Prop
      := (∃ u : Nat, u < 4 ∧ u ≠ t.val ∧ meets b n (s.fld (reg u) BLK_TR_OSLOT_BASE) (s.fld (reg u) BLK_TR_OSLOT_CNT)
      = true); let bad : Prop := (1792 < b + n ∨ s.trunkCap t.val < n ∨ s.trunkUp t.val = true ∨ meetsOne);
      s.pwr.barred = false ∧ (¬bad))
    ∧ (∃ s : State, ∃ t : Trunk, ∃ inb : Bool, ∃ v : Word, let reg := (fun (u : Nat) => if inb then BLK_TR_ISLOT u
      else BLK_TR_OSLOT u); let b := (BLK_TR_OSLOT_BASE.get v); let n := (BLK_TR_OSLOT_CNT.get v); let meetsOne : Prop
      := (∃ u : Nat, u < 4 ∧ u ≠ t.val ∧ meets b n (s.fld (reg u) BLK_TR_OSLOT_BASE) (s.fld (reg u) BLK_TR_OSLOT_CNT)
      = true); let bad : Prop := (1792 < b + n ∨ s.trunkCap t.val < n ∨ s.trunkUp t.val = true ∨ meetsOne);
      s.pwr.barred = false ∧ (¬bad) ∧ s.trunkReady t.val = false)
    ∧ (∃ s : State, s.pwr.barred = false) :=
  ⟨⟨linked 1, 0, 7, by decide +kernel⟩,
   ⟨State.reset, 0, 1, by decide +kernel⟩,
   ⟨State.reset.setFld (BLK_LANE_CFG 0) BLK_LANE_CFG_LINK 0, 0, 1, by decide +kernel⟩,
   ⟨linked 1, 0, 0xE, by decide +kernel⟩,
   ⟨State.reset, 0, 0, by decide +kernel⟩,
   ⟨State.reset, State.reset, 0, by decide +kernel⟩,
   ⟨State.reset, State.reset, 5, by decide +kernel⟩,
   ⟨State.reset, 0, true, 0x7FF07FF, by dsimp only; decide +kernel⟩,
   ⟨State.reset, 0, true, 0, by dsimp only; decide +kernel⟩,
   ⟨State.reset, 0, true, 0, by dsimp only; decide +kernel⟩,
   ⟨State.reset, by decide +kernel⟩⟩

/-- States and operands that meet the hypotheses of BlockLockAndBlocks, clause by clause. -/
theorem witness_BlockLockAndBlocks :
    (∃ j : BLane, ∃ s : State, (s.laneLink j.val = none ∨ (∃ k, s.laneLink j.val = some k ∧ s.linkEn k = false)))
    ∧ (∃ j : BLane, ∃ s : State, ∃ k : Nat, s.laneLink j.val = some k ∧ s.linkEn k = true ∧ Tbl.find? s.blk.lockLost
      j.val = none)
    ∧ (∃ j : BLane, ∃ s : State, ∃ k : Nat, ∃ a : Nat, let n := ((s.now - a) * 9 / 256); s.laneLink j.val = some k ∧
      s.linkEn k = true ∧ Tbl.find? s.blk.lockLost j.val = some a ∧ n = 0)
    ∧ (∃ j : BLane, ∃ s : State, ∃ k : Nat, ∃ a : Nat, let n := ((s.now - a) * 9 / 256); s.laneLink j.val = some k ∧
      s.linkEn k = true ∧ Tbl.find? s.blk.lockLost j.val = some a ∧ n ≠ 0)
    ∧ (∃ j : BLane, ∃ s : State, ∃ k : Nat, let st := (BLK_LANE_STAT j.val); s.laneLink j.val = some k ∧ s.bit st
      BLK_LANE_STAT_BLOCK = false)
    ∧ (∃ j : BLane, ∃ s : State, ∃ k : Nat, ∃ los : Bool, let st := (BLK_LANE_STAT j.val); s.laneLink j.val = some k ∧
      (los = true ∨ s.bit st BLK_LANE_STAT_BLOCK = true) ∧ s.linkActive k = false)
    ∧ (∃ j : BLane, ∃ s : State, ∃ k : Nat, ∃ los : Bool, let st := (BLK_LANE_STAT j.val); s.laneLink j.val = some k ∧
      (los = true ∨ s.bit st BLK_LANE_STAT_BLOCK = true) ∧ s.linkActive k = true ∧ los = false)
    ∧ (∃ j : BLane, ∃ s : State, ∃ k : Nat, ∃ los : Bool, let st := (BLK_LANE_STAT j.val); s.laneLink j.val = some k ∧
      (los = true ∨ s.bit st BLK_LANE_STAT_BLOCK = true) ∧ s.linkActive k = true ∧ los = true)
    ∧ (∃ j : BLane, ∃ s : State, ∃ k : Nat, let st := (BLK_LANE_STAT j.val); s.laneLink j.val = some k ∧ s.bit st
      BLK_LANE_STAT_BLOCK = true)
    ∧ (∃ j : BLane, ∃ s : State, ∃ k : Nat, let st := (BLK_LANE_STAT j.val); s.laneLink j.val = some k ∧ s.linkEn k =
      true ∧ s.bit st BLK_LANE_STAT_BLOCK = false)
    ∧ (∃ j : BLane, ∃ s : State, ∃ k : Nat, let st := (BLK_LANE_STAT j.val); s.laneLink j.val = some k ∧ s.linkEn k =
      true ∧ s.bit st BLK_LANE_STAT_BLOCK = true ∧ (s.blane j.val).rxScr = none ∧ s.linkState k = 2)
    ∧ (∃ j : BLane, ∃ s : State, ∃ k : Nat, let st := (BLK_LANE_STAT j.val); s.laneLink j.val = some k ∧ s.linkEn k =
      true ∧ s.bit st BLK_LANE_STAT_BLOCK = true ∧ (s.blane j.val).rxScr = none ∧ s.linkState k ≠ 2)
    ∧ (∃ j : BLane, ∃ s : State, ∃ k : Nat, ∃ line : BitVec 1600, ∃ r : Nat, let st := (BLK_LANE_STAT j.val); let b :=
      (receiveBlock r (lsbBits 1600 line.toNat)); let fails := (b.1.getLsbD 12 = true ∨ blockCrc b.1 b.2.1 b.2.2.1 ≠
      b.2.2.2.toNat); s.laneLink j.val = some k ∧ s.linkEn k = true ∧ s.bit st BLK_LANE_STAT_BLOCK = true ∧ (s.blane
      j.val).rxScr = some r ∧ fails ∧ s.linkActive k = false)
    ∧ (∃ j : BLane, ∃ s : State, ∃ k : Nat, ∃ line : BitVec 1600, ∃ r : Nat, let st := (BLK_LANE_STAT j.val); let b :=
      (receiveBlock r (lsbBits 1600 line.toNat)); let fails := (b.1.getLsbD 12 = true ∨ blockCrc b.1 b.2.1 b.2.2.1 ≠
      b.2.2.2.toNat); s.laneLink j.val = some k ∧ s.linkEn k = true ∧ s.bit st BLK_LANE_STAT_BLOCK = true ∧ (s.blane
      j.val).rxScr = some r ∧ fails ∧ s.linkActive k = true)
    ∧ (∃ j : BLane, ∃ s : State, ∃ k : Nat, ∃ line : BitVec 1600, ∃ r : Nat, let st := (BLK_LANE_STAT j.val); let b :=
      (receiveBlock r (lsbBits 1600 line.toNat)); let fails := (b.1.getLsbD 12 = true ∨ blockCrc b.1 b.2.1 b.2.2.1 ≠
      b.2.2.2.toNat); s.laneLink j.val = some k ∧ s.linkEn k = true ∧ s.bit st BLK_LANE_STAT_BLOCK = true ∧ (s.blane
      j.val).rxScr = some r ∧ (¬fails) ∧ s.linkActive k = false)
    ∧ (∃ j : BLane, ∃ s : State, ∃ k : Nat, ∃ line : BitVec 1600, ∃ r : Nat, let st := (BLK_LANE_STAT j.val); let
      trunk := (s.fld (BLK_L_CFG k) BLK_L_CFG_TRUNK); let b := (receiveBlock r (lsbBits 1600 line.toNat)); let fails
      := (b.1.getLsbD 12 = true ∨ blockCrc b.1 b.2.1 b.2.2.1 ≠ b.2.2.2.toNat); s.laneLink j.val = some k ∧ s.linkEn k
      = true ∧ s.bit st BLK_LANE_STAT_BLOCK = true ∧ (s.blane j.val).rxScr = some r ∧ (¬fails) ∧ s.linkActive k = true
      ∧ 4 ≤ trunk)
    ∧ (∃ j : BLane, ∃ s : State, ∃ k : Nat, ∃ line : BitVec 1600, ∃ r : Nat, let st := (BLK_LANE_STAT j.val); let
      trunk := (s.fld (BLK_L_CFG k) BLK_L_CFG_TRUNK); let b := (receiveBlock r (lsbBits 1600 line.toNat)); let fails
      := (b.1.getLsbD 12 = true ∨ blockCrc b.1 b.2.1 b.2.2.1 ≠ b.2.2.2.toNat); s.laneLink j.val = some k ∧ s.linkEn k
      = true ∧ s.bit st BLK_LANE_STAT_BLOCK = true ∧ (s.blane j.val).rxScr = some r ∧ (¬fails) ∧ s.linkActive k = true
      ∧ trunk < 4)
    ∧ (∃ r : Nat, ∃ blk : Nat, ∃ pos : Nat, ∃ pay : BitVec 1536, ∃ ctrl : BitVec 16, blockVoid r blk pos pay ctrl =
      false)
    ∧ (∃ r : Nat, ∃ blk : Nat, ∃ pos : Nat, ∃ t : BitVec 768, blockVoid r blk pos (t ++ 0#768) 0 = false) :=
  ⟨⟨0, State.reset, by decide +kernel⟩,
   ⟨0, linked 2, 0, by decide +kernel⟩,
   ⟨0, (linked 7).setBlk { State.reset.blk with lockLost := [(0, 0)] }, 0, 0, by decide +kernel⟩,
   ⟨0, ((linked 2).setBlk { State.reset.blk with lockLost := [(0, 0)] } |> fun s => { s with now := 1000 }), 0, 0,
    by decide +kernel⟩,
   ⟨0, linked 2, 0, by decide +kernel⟩,
   ⟨0, linked 2, 0, true, by decide +kernel⟩,
   ⟨0, locked_ 7, 0, false, by decide +kernel⟩,
   ⟨0, linked 7, 0, true, by decide +kernel⟩,
   ⟨0, locked_ 2, 0, by decide +kernel⟩,
   ⟨0, linked 2, 0, by decide +kernel⟩,
   ⟨0, locked_ 2, 0, by decide +kernel⟩,
   ⟨0, locked_ 7, 0, by decide +kernel⟩,
   ⟨0, (locked_ 2).setBlane 0 { (locked_ 2).blane 0 with rxScr := some 2147483647 }, 0, 0, 2147483647,
    by dsimp only; decide +kernel⟩,
   ⟨0, (locked_ 7).setBlane 0 { (locked_ 7).blane 0 with rxScr := some 2147483647 }, 0, 0, 2147483647,
    by dsimp only; decide +kernel⟩,
   ⟨0, (locked_ 2).setBlane 0 { (locked_ 2).blane 0 with rxScr := some 2147483647 }, 0,
    BitVec.ofNat 1600 (ofLsb (sendBlock 2147483647 0 0 0 0)), 2147483647, by dsimp only; decide +kernel⟩,
   ⟨0, (locked_ 7).setBlane 0 { (locked_ 7).blane 0 with rxScr := some 2147483647 }, 0,
    BitVec.ofNat 1600 (ofLsb (sendBlock 2147483647 0 0 0 0)), 2147483647, by dsimp only; decide +kernel⟩,
   ⟨0,
    ((locked_ 7).setBlane 0 { (locked_ 7).blane 0 with rxScr := some 2147483647 }).setFld (BLK_L_CFG 0) BLK_L_CFG_TRUNK 0,
    0, BitVec.ofNat 1600 (ofLsb (sendBlock 2147483647 0 0 0 0)), 2147483647, by dsimp only; decide +kernel⟩,
   ⟨2147483647, 0, 0, 0, 0, by decide +kernel⟩,
   ⟨2147483647, 0, 0, 0, by decide +kernel⟩⟩

/-- States and operands that meet the hypotheses of LinkTraining, clause by clause. -/
theorem witness_LinkTraining :
    (∃ k : Link, ∃ far : FarEnd, ∃ s : State, s.linkState k.val = 1 ∧ ((far.signal = true ∧ (s.link k.val).backoff =
      false) ∨ far.phase.val = 2))
    ∧ (∃ k : Link, ∃ far : FarEnd, ∃ s : State, s.linkState k.val = 1 ∧ (¬((far.signal = true ∧ (s.link k.val).backoff
      = false) ∨ far.phase.val = 2)))
    ∧ (∃ k : Link, ∃ far : FarEnd, ∃ s : State, let lanes := (s.linkLanes k.val); let calm : Prop := (¬(2 ≤ (s.link
      k.val).farPhase ∧ far.phase.val = 1)); let met : Prop := (far.rxLock = true ∧ ∀ j, j ∈ lanes → s.bit
      (BLK_LANE_STAT j) BLK_LANE_STAT_BLOCK = true ∧ s.bit (BLK_LANE_STAT j) BLK_LANE_STAT_CDR = true ∧ (s.blane
      j).rxScr ≠ none); s.linkState k.val = 2 ∧ calm ∧ met)
    ∧ (∃ k : Link, ∃ far : FarEnd, ∃ s : State, let lanes := (s.linkLanes k.val); let calm : Prop := (¬(2 ≤ (s.link
      k.val).farPhase ∧ far.phase.val = 1)); let met : Prop := (far.rxLock = true ∧ ∀ j, j ∈ lanes → s.bit
      (BLK_LANE_STAT j) BLK_LANE_STAT_BLOCK = true ∧ s.bit (BLK_LANE_STAT j) BLK_LANE_STAT_CDR = true ∧ (s.blane
      j).rxScr ≠ none); s.linkState k.val = 2 ∧ calm ∧ (¬met))
    ∧ (∃ k : Link, ∃ far : FarEnd, ∃ s : State, let lanes := (s.linkLanes k.val); let calm : Prop := (¬(2 ≤ (s.link
      k.val).farPhase ∧ far.phase.val = 1)); let met : Prop := (far.done = true ∧ ∀ j, j ∈ lanes → j ∈ (s.link
      k.val).doneLanes); s.linkState k.val = 3 ∧ calm ∧ met)
    ∧ (∃ k : Link, ∃ far : FarEnd, ∃ s : State, let lanes := (s.linkLanes k.val); let calm : Prop := (¬(2 ≤ (s.link
      k.val).farPhase ∧ far.phase.val = 1)); let met : Prop := (far.done = true ∧ ∀ j, j ∈ lanes → j ∈ (s.link
      k.val).doneLanes); s.linkState k.val = 3 ∧ calm ∧ (¬met))
    ∧ (∃ k : Link, ∃ far : FarEnd, ∃ s : State, let lanes := (s.linkLanes k.val); let calm : Prop := (¬(2 ≤ (s.link
      k.val).farPhase ∧ far.phase.val = 1)); let met : Prop := (∀ j, j ∈ lanes → s.fld (BLK_LANE_STAT j)
      BLK_LANE_STAT_POS = s.lanePosition k.val j); s.linkState k.val = 4 ∧ calm ∧ far.skewPs.toNat ≤ 4000 ∧ met)
    ∧ (∃ k : Link, ∃ far : FarEnd, ∃ s : State, let lanes := (s.linkLanes k.val); let calm : Prop := (¬(2 ≤ (s.link
      k.val).farPhase ∧ far.phase.val = 1)); let met : Prop := (∀ j, j ∈ lanes → s.fld (BLK_LANE_STAT j)
      BLK_LANE_STAT_POS = s.lanePosition k.val j); s.linkState k.val = 4 ∧ calm ∧ far.skewPs.toNat ≤ 4000 ∧ (¬met))
    ∧ (∃ k : Link, ∃ far : FarEnd, ∃ s : State, let calm : Prop := (¬(2 ≤ (s.link k.val).farPhase ∧ far.phase.val =
      1)); s.linkState k.val = 4 ∧ calm ∧ 4000 < far.skewPs.toNat)
    ∧ (∃ k : Link, ∃ far : FarEnd, ∃ s : State, let calm : Prop := (¬(2 ≤ (s.link k.val).farPhase ∧ far.phase.val =
      1)); let same : Prop := (expCode far.expNodes.toNat = expCode (s.fld BLK_NODE BLK_NODE_EXPNODES)); s.linkState
      k.val = 5 ∧ calm ∧ far.chipId ≠ s.chipId ∧ same)
    ∧ (∃ k : Link, ∃ far : FarEnd, ∃ s : State, let calm : Prop := (¬(2 ≤ (s.link k.val).farPhase ∧ far.phase.val =
      1)); s.linkState k.val = 5 ∧ calm ∧ far.chipId = s.chipId)
    ∧ (∃ k : Link, ∃ far : FarEnd, ∃ s : State, let calm : Prop := (¬(2 ≤ (s.link k.val).farPhase ∧ far.phase.val =
      1)); let same : Prop := (expCode far.expNodes.toNat = expCode (s.fld BLK_NODE BLK_NODE_EXPNODES)); s.linkState
      k.val = 5 ∧ calm ∧ far.chipId ≠ s.chipId ∧ (¬same))
    ∧ (∃ k : Link, ∃ far : FarEnd, ∃ s : State, let calm : Prop := (¬(2 ≤ (s.link k.val).farPhase ∧ far.phase.val =
      1)); s.linkState k.val = 6 ∧ calm ∧ (far.good = false ∨ (s.link k.val).good < 1000))
    ∧ (∃ k : Link, ∃ far : FarEnd, ∃ s : State, let calm : Prop := (¬(2 ≤ (s.link k.val).farPhase ∧ far.phase.val =
      1)); s.linkState k.val = 6 ∧ calm ∧ far.good = true ∧ 1000 ≤ (s.link k.val).good)
    ∧ (∃ k : Link, ∃ far : FarEnd, ∃ s : State, let calm : Prop := (¬(2 ≤ (s.link k.val).farPhase ∧ far.phase.val =
      1)); let trunk := (s.fld (BLK_L_CFG k.val) BLK_L_CFG_TRUNK); s.linkState k.val = 6 ∧ calm ∧ far.good = true ∧
      1000 ≤ (s.link k.val).good ∧ far.trunkSkewPs.toNat ≤ 4000 ∧ 4 ≤ trunk ∧ s.fld BLK_NODE BLK_NODE_EXPNODES = 0)
    ∧ (∃ k : Link, ∃ far : FarEnd, ∃ s : State, let calm : Prop := (¬(2 ≤ (s.link k.val).farPhase ∧ far.phase.val =
      1)); let trunk := (s.fld (BLK_L_CFG k.val) BLK_L_CFG_TRUNK); s.linkState k.val = 6 ∧ calm ∧ far.good = true ∧
      1000 ≤ (s.link k.val).good ∧ far.trunkSkewPs.toNat ≤ 4000 ∧ 4 ≤ trunk ∧ s.fld BLK_NODE BLK_NODE_EXPNODES ≠ 0 ∧
      s.fld BLK_NODE BLK_NODE_FSTATE = 0)
    ∧ (∃ k : Link, ∃ s : State, ∃ j : BLane, s.laneLink j.val = some k.val ∧ s.linkState k.val ≠ 3)
    ∧ (∃ k : Link, ∃ s : State, ∃ j : BLane, s.laneLink j.val = some k.val ∧ s.linkState k.val = 3)
    ∧ (∃ k : Link, ∃ s : State, ∃ j : BLane, ∃ e : Byte, s.laneLink j.val = some k.val ∧ s.linkState k.val = 3 ∧ s.fld
      BLK_CTRL BLK_CTRL_EYEMIN ≤ e.toNat)
    ∧ (∃ k : Link, ∃ s : State, ∃ j : BLane, ∃ e : Byte, s.laneLink j.val = some k.val ∧ s.linkState k.val = 3 ∧
      e.toNat < s.fld BLK_CTRL BLK_CTRL_EYEMIN)
    ∧ (∃ k : Link, ∃ s : State, (2 ≤ s.linkState k.val ∧ s.linkState k.val ≤ 6))
    ∧ (∃ k : Link, ∃ s : State, (¬(2 ≤ s.linkState k.val ∧ s.linkState k.val ≤ 6))) :=
  ⟨⟨0, ⟨1, 1, 0, 0, 0, true, true, true, true, 0, 0⟩, linked 1, by decide +kernel⟩,
   ⟨0, ⟨1, 1, 0, 0, 0, false, true, true, true, 0, 0⟩, linked 1, by decide +kernel⟩,
   ⟨0, ⟨1, 1, 0, 0, 0, true, true, true, true, 0, 0⟩,
    ((locked_ 2).setBit (BLK_LANE_STAT 0) BLK_LANE_STAT_CDR true).setBlane 0 { (locked_ 2).blane 0 with rxScr := some 1 },
    by dsimp only; decide +kernel⟩,
   ⟨0, ⟨1, 1, 0, 0, 0, true, true, true, true, 0, 0⟩, linked 2, by dsimp only; decide +kernel⟩,
   ⟨0, ⟨1, 1, 0, 0, 0, true, true, true, true, 0, 0⟩, (linked 3).setLink 0 { LinkCtl.idle with doneLanes := [0] },
    by dsimp only; decide +kernel⟩,
   ⟨0, ⟨1, 1, 0, 0, 0, true, true, true, true, 0, 0⟩, linked 3, by dsimp only; decide +kernel⟩,
   ⟨0, ⟨1, 1, 0, 0, 0, true, true, true, true, 0, 0⟩, linked 4, by dsimp only; decide +kernel⟩,
   ⟨0, ⟨1, 1, 0, 0, 0, true, true, true, true, 0, 0⟩, (linked 4).setFld (BLK_LANE_STAT 0) BLK_LANE_STAT_POS 5,
    by dsimp only; decide +kernel⟩,
   ⟨0, ⟨1, 1, 0, 0, 0, true, true, true, true, 4001, 0⟩, linked 4, by dsimp only; decide +kernel⟩,
   ⟨0, ⟨1, 1, 0, 0, 0, true, true, true, true, 0, 0⟩, linked 5, by dsimp only; decide +kernel⟩,
   ⟨0, ⟨0, 1, 0, 0, 0, true, true, true, true, 0, 0⟩, linked 5, by dsimp only; decide +kernel⟩,
   ⟨0, ⟨1, 1, 1, 0, 0, true, true, true, true, 0, 0⟩, linked 5, by dsimp only; decide +kernel⟩,
   ⟨0, ⟨1, 1, 0, 0, 0, true, true, true, false, 0, 0⟩, linked 6, by dsimp only; decide +kernel⟩,
   ⟨0, ⟨1, 1, 0, 0, 0, true, true, true, true, 0, 0⟩, (linked 6).setLink 0 { LinkCtl.idle with good := 1000 },
    by dsimp only; decide +kernel⟩,
   ⟨0, ⟨1, 1, 0, 0, 0, true, true, true, true, 0, 0⟩, (linked 6).setLink 0 { LinkCtl.idle with good := 1000 },
    by dsimp only; decide +kernel⟩,
   ⟨0, ⟨1, 1, 0, 0, 0, true, true, true, true, 0, 0⟩,
    ((linked 6).setFld BLK_NODE BLK_NODE_EXPNODES 1).setLink 0 { LinkCtl.idle with good := 1000 },
    by dsimp only; decide +kernel⟩,
   ⟨0, linked 2, 0, by decide +kernel⟩,
   ⟨0, linked 3, 0, by decide +kernel⟩,
   ⟨0, linked 3, 0, 0xFF, by decide +kernel⟩,
   ⟨0, linked 3, 0, 0, by decide +kernel⟩,
   ⟨0, linked 3, by decide +kernel⟩,
   ⟨0, linked 7, by decide +kernel⟩⟩

/-- States and operands that meet the hypotheses of FlitsAndRetry, clause by clause. -/
theorem witness_FlitsAndRetry :
    (∃ k : Link, ∃ s : State, s.linkActive k.val = false)
    ∧ (∃ k : Link, ∃ s : State, ∃ f : BitVec 128, let x := (s.link k.val); s.linkActive k.val = true ∧ x.waiting = []
      ∧ f.getLsbD 6 = false ∧ s.blk.rrWrite = false ∧ f.getLsbD 0 = false)
    ∧ (∃ k : Link, ∃ s : State, ∃ f : BitVec 128, let x := (s.link k.val); s.linkActive k.val = true ∧ x.waiting = []
      ∧ f.getLsbD 6 = false ∧ s.blk.rrWrite = false ∧ f.getLsbD 0 = true ∧ flitSeq f ≠ (x.rxSeq + 1) % 256)
    ∧ (∃ k : Link, ∃ s : State, ∃ f : BitVec 128, let x := (s.link k.val); let n := f.toNat; let head := (n / 2 ^ 32);
      s.linkActive k.val = true ∧ x.waiting = [] ∧ f.getLsbD 6 = false ∧ s.blk.rrWrite = false ∧ f.getLsbD 0 = true ∧
      flitSeq f = (x.rxSeq + 1) % 256 ∧ f.getLsbD 4 = true ∧ f.getLsbD 5 = true ∧ head % 4 = s.ownNode ∧ head / 16 %
      16 < 7)
    ∧ (∃ k : Link, ∃ s : State, ∃ f : BitVec 128, let x := (s.link k.val); let n := f.toNat; let head := (n / 2 ^ 32);
      s.linkActive k.val = true ∧ x.waiting = [] ∧ f.getLsbD 6 = false ∧ s.blk.rrWrite = false ∧ f.getLsbD 0 = true ∧
      flitSeq f = (x.rxSeq + 1) % 256 ∧ f.getLsbD 4 = true ∧ f.getLsbD 5 = true ∧ head % 4 = s.ownNode ∧ head / 16 %
      16 = 6)
    ∧ (∃ k : Link, ∃ s : State, ∃ f : BitVec 128, let x := (s.link k.val); let n := f.toNat; let head := (n / 2 ^ 32);
      s.linkActive k.val = true ∧ x.waiting = [] ∧ f.getLsbD 6 = false ∧ s.blk.rrWrite = false ∧ f.getLsbD 0 = true ∧
      flitSeq f = (x.rxSeq + 1) % 256 ∧ f.getLsbD 4 = true ∧ f.getLsbD 5 = true ∧ head % 4 = s.ownNode ∧ 7 ≤ head / 16
      % 16)
    ∧ (∃ k : Link, ∃ s : State, let x := (s.link k.val); s.linkActive k.val = true ∧ x.unacked = [])
    ∧ (∃ k : Link, ∃ s : State, let x := (s.link k.val); s.linkActive k.val = true ∧ x.unacked ≠ [])
    ∧ (∃ k : Link, ∃ s : State, s.linkActive k.val = true)
    ∧ (∃ m : RxMsg, m.src < 4 ∧ m.kind = 0)
    ∧ (∃ m : RxMsg, m.src < 4 ∧ m.kind = 1)
    ∧ (∃ m : RxMsg, m.src < 4 ∧ m.kind = 2)
    ∧ (∃ m : RxMsg, m.src < 4 ∧ m.kind = 3)
    ∧ (∃ m : RxMsg, m.src < 4 ∧ m.kind = 4)
    ∧ (∃ m : RxMsg, m.src < 4 ∧ m.kind = 5)
    ∧ (∃ m : RxMsg, m.src < 4 ∧ m.kind = 6) :=
  ⟨⟨0, State.reset, by decide +kernel⟩,
   ⟨0, linked 7, 0, by decide +kernel⟩,
   ⟨0, linked 7, 0x101, by decide +kernel⟩,
   ⟨0, linked 7, 0x31, by decide +kernel⟩,
   ⟨0, linked 7, 0x6000000031, by decide +kernel⟩,
   ⟨0, linked 7, 0x7000000031, by decide +kernel⟩,
   ⟨0, linked 7, by decide +kernel⟩,
   ⟨0, (linked 7).setLink 0 { LinkCtl.idle with unacked := [1] }, by decide +kernel⟩,
   ⟨0, linked 7, by decide +kernel⟩,
   ⟨⟨0, 0, 0, 0, []⟩, by decide +kernel⟩,
   ⟨⟨0, 1, 0, 0, []⟩, by decide +kernel⟩,
   ⟨⟨0, 2, 0, 0, []⟩, by decide +kernel⟩,
   ⟨⟨0, 3, 0, 0, []⟩, by decide +kernel⟩,
   ⟨⟨0, 4, 0, 0, []⟩, by decide +kernel⟩,
   ⟨⟨0, 5, 0, 0, []⟩, by decide +kernel⟩,
   ⟨⟨0, 6, 0, 0, []⟩, by decide +kernel⟩⟩

/-- States and operands that meet the hypotheses of TrunksAndElection, clause by clause. -/
theorem witness_TrunksAndElection :
    (∃ s : State, ∃ t : Trunk, (s.trunkLinks t.val = [] ∨ (s.trunkLinks t.val).all s.linkActive = false ∨ s.fld
      BLK_NODE BLK_NODE_EXPNODES = 0))
    ∧ (∃ s : State, ∃ t : Trunk, s.trunkReady t.val = true ∧ s.fld BLK_NODE BLK_NODE_EXPNODES ≠ 0 ∧ s.samePeer t.val =
      false)
    ∧ (∃ s : State, ∃ t : Trunk, ∃ cnt : BitVec 11, ∃ k : Nat, k ∈ s.trunkLinks t.val ∧ (∀ m, m ∈ s.trunkLinks t.val →
      s.linkActive m = true ∧ s.rd (BLK_L_PEERID_LO m) = s.rd (BLK_L_PEERID_LO k) ∧ s.rd (BLK_L_PEERID_HI m) = s.rd
      (BLK_L_PEERID_HI k)) ∧ s.fld BLK_NODE BLK_NODE_EXPNODES ≠ 0 ∧ s.fld (BLK_TR_OSLOT t.val) BLK_TR_OSLOT_CNT =
      cnt.toNat ∧ s.trunkUp t.val = false)
    ∧ (∃ s : State, ∃ t : Trunk, ∃ cnt : BitVec 11, ∃ k : Nat, k ∈ s.trunkLinks t.val ∧ (∀ m, m ∈ s.trunkLinks t.val →
      s.linkActive m = true ∧ s.rd (BLK_L_PEERID_LO m) = s.rd (BLK_L_PEERID_LO k) ∧ s.rd (BLK_L_PEERID_HI m) = s.rd
      (BLK_L_PEERID_HI k)) ∧ s.fld BLK_NODE BLK_NODE_EXPNODES ≠ 0 ∧ s.fld (BLK_TR_OSLOT t.val) BLK_TR_OSLOT_CNT =
      cnt.toNat ∧ s.trunkUp t.val = true)
    ∧ (∃ s : State, ∃ t : Trunk, ∃ cnt : BitVec 11, ∃ k : Nat, k ∈ s.trunkLinks t.val ∧ (∀ m, m ∈ s.trunkLinks t.val →
      s.linkActive m = true ∧ s.rd (BLK_L_PEERID_LO m) = s.rd (BLK_L_PEERID_LO k) ∧ s.rd (BLK_L_PEERID_HI m) = s.rd
      (BLK_L_PEERID_HI k)) ∧ s.fld BLK_NODE BLK_NODE_EXPNODES ≠ 0 ∧ s.fld (BLK_TR_OSLOT t.val) BLK_TR_OSLOT_CNT =
      cnt.toNat ∧ s.trunkUp t.val = true ∧ s.trunkBarred t.val = false)
    ∧ (∃ s : State, ∃ t : Trunk, ∃ cnt : BitVec 11, ∃ k : Nat, k ∈ s.trunkLinks t.val ∧ (∀ m, m ∈ s.trunkLinks t.val →
      s.linkActive m = true ∧ s.rd (BLK_L_PEERID_LO m) = s.rd (BLK_L_PEERID_LO k) ∧ s.rd (BLK_L_PEERID_HI m) = s.rd
      (BLK_L_PEERID_HI k)) ∧ s.fld BLK_NODE BLK_NODE_EXPNODES ≠ 0 ∧ s.fld (BLK_TR_OSLOT t.val) BLK_TR_OSLOT_CNT =
      cnt.toNat ∧ s.trunkUp t.val = false ∧ s.trunkBarred t.val = false)
    ∧ (∃ s : State, ∃ t : Trunk, ∃ cnt : BitVec 11, ∃ k : Nat, k ∈ s.trunkLinks t.val ∧ (∀ m, m ∈ s.trunkLinks t.val →
      s.linkActive m = true ∧ s.rd (BLK_L_PEERID_LO m) = s.rd (BLK_L_PEERID_LO k) ∧ s.rd (BLK_L_PEERID_HI m) = s.rd
      (BLK_L_PEERID_HI k)) ∧ s.fld BLK_NODE BLK_NODE_EXPNODES ≠ 0 ∧ s.fld (BLK_TR_OSLOT t.val) BLK_TR_OSLOT_CNT ≠
      cnt.toNat ∧ s.trunkUp t.val = false)
    ∧ (∃ s : State, ∃ p : Byte, ∃ c : BitVec 64, (s.fld BLK_NODE BLK_NODE_EXPNODES = 0 ∨ (p.toNat, c) ∈ s.blk.joins))
    ∧ (∃ s : State, s.fld BLK_NODE BLK_NODE_EXPNODES = 0)
    ∧ (∃ s : State, ∃ p : Byte, ∃ c : BitVec 64, s.fld BLK_NODE BLK_NODE_EXPNODES ≠ 0 ∧ s.fld BLK_NODE BLK_NODE_FSTATE
      = 1 ∧ (p.toNat, c) ∉ s.blk.joins ∧ (insertTuple (p.toNat, c) s.blk.joins).length < s.expected)
    ∧ (∃ s : State, s.fld BLK_NODE BLK_NODE_FSTATE ≠ 1)
    ∧ (∃ s : State, ∃ rest : _, let calm : Prop := (∀ t : Nat, t < 4 → s.trunkReady t = false ∧ s.trunkUp t = false);
      s.fld BLK_NODE BLK_NODE_FSTATE = 1 ∧ s.blk.joins = s.ownTuple :: rest ∧ rest.length + 1 = s.expected ∧ (0, 0) ∉
      s.blk.joins ∧ s.blk.nodes = [] ∧ calm)
    ∧ (∃ s : State, ∃ l : List (Byte × BitVec 64), ∃ i : Nat, let calm : Prop := (∀ t : Nat, t < 4 → s.trunkReady t =
      false ∧ s.trunkUp t = false); s.fld BLK_NODE BLK_NODE_EXPNODES ≠ 0 ∧ s.fld BLK_NODE BLK_NODE_FSTATE = 1 ∧
      s.blk.nodes = [] ∧ l.length = s.expected ∧ (0, 0) ∉ l ∧ calm ∧ (l.map (fun t => (t.1.toNat, t.2))).findIdx? (fun
      t => t == s.ownTuple) = some i)
    ∧ (∃ s : State, ∃ l : List (Byte × BitVec 64), (∀ t, t ∈ l → (t.1.toNat, t.2) ≠ s.ownTuple))
    ∧ (∃ s : State, 2 ≤ s.fld BLK_NODE BLK_NODE_FSTATE)
    ∧ (∃ s : State, s.fld BLK_NODE BLK_NODE_FSTATE < 2) :=
  ⟨⟨State.reset, 0, by decide +kernel⟩,
   ⟨(((((linked 7).setFld (BLK_L_CFG 0) BLK_L_CFG_TRUNK 0).setFld BLK_NODE BLK_NODE_EXPNODES 1).setFld (BLK_L_CFG 1) BLK_L_CFG_TRUNK 0).setFld (BLK_L_STAT 1) BLK_L_STAT_STATE 7).wr (BLK_L_PEERID_LO 1) 5,
    0, by decide +kernel⟩,
   ⟨((linked 7).setFld (BLK_L_CFG 0) BLK_L_CFG_TRUNK 0).setFld BLK_NODE BLK_NODE_EXPNODES 1, 0, 0, 0,
    by decide +kernel⟩,
   ⟨(((linked 7).setFld (BLK_L_CFG 0) BLK_L_CFG_TRUNK 0).setFld BLK_NODE BLK_NODE_EXPNODES 1).setBit (BLK_TR_STAT 0) BLK_TR_STAT_UP true,
    0, 0, 0, by decide +kernel⟩,
   ⟨(((linked 7).setFld (BLK_L_CFG 0) BLK_L_CFG_TRUNK 0).setFld BLK_NODE BLK_NODE_EXPNODES 1).setBit (BLK_TR_STAT 0) BLK_TR_STAT_UP true,
    0, 0, 0, by decide +kernel⟩,
   ⟨((linked 7).setFld (BLK_L_CFG 0) BLK_L_CFG_TRUNK 0).setFld BLK_NODE BLK_NODE_EXPNODES 1, 0, 0, 0,
    by decide +kernel⟩,
   ⟨((linked 7).setFld (BLK_L_CFG 0) BLK_L_CFG_TRUNK 0).setFld BLK_NODE BLK_NODE_EXPNODES 1, 0, 5, 0,
    by decide +kernel⟩,
   ⟨State.reset, 0, 0, by decide +kernel⟩,
   ⟨State.reset, by decide +kernel⟩,
   ⟨(State.reset.setFld BLK_NODE BLK_NODE_FSTATE 1).setFld BLK_NODE BLK_NODE_EXPNODES 1, 1, 5, by decide +kernel⟩,
   ⟨(((linked 7).setFld (BLK_L_CFG 0) BLK_L_CFG_TRUNK 0).setFld BLK_NODE BLK_NODE_FSTATE 2).setFld BLK_NODE BLK_NODE_EXPNODES 1,
    by decide +kernel⟩,
   ⟨((State.reset.setFld BLK_NODE BLK_NODE_FSTATE 1).setFld BLK_NODE BLK_NODE_EXPNODES 1).setBlk { State.reset.blk with joins := [State.reset.ownTuple, (1, 1)] },
    [(1, 1)], by dsimp only; decide +kernel⟩,
   ⟨(State.reset.setFld BLK_NODE BLK_NODE_FSTATE 1).setFld BLK_NODE BLK_NODE_EXPNODES 1, [(0x80, 0), (0x81, 1)], 0,
    by dsimp only; decide +kernel⟩,
   ⟨(State.reset.setFld BLK_NODE BLK_NODE_FSTATE 1).setFld BLK_NODE BLK_NODE_EXPNODES 1, [(0x80, 5)],
    by intro t h; rw [List.mem_singleton] at h; subst h; decide +kernel⟩,
   ⟨((State.reset.setFld BLK_NODE BLK_NODE_FSTATE 2).setFld BLK_NODE BLK_NODE_EXPNODES 0), by decide +kernel⟩,
   ⟨State.reset, by decide +kernel⟩⟩

/-- States and operands that meet the hypotheses of HedgerowEvents, clause by clause. -/
theorem witness_HedgerowEvents :
    (∃ n : HdgSrc, hdgSourceUsed n.val = false)
    ∧ (∃ n : HdgSrc, ∃ s : State, hdgSourceUsed n.val = true ∧ (s.hdgEn n.val = false ∨ s.held n.val = true ∨ 2 ≤
      s.hdgState n.val))
    ∧ (∃ n : HdgSrc, ∃ s : State, let live : Prop := (hdgSourceUsed n.val = true ∧ s.hdgEn n.val = true ∧ s.held n.val
      = false); live ∧ s.hdgState n.val = 0 ∧ 1 < s.hdgN n.val)
    ∧ (∃ n : HdgSrc, ∃ s : State, let st := (HDG_SRC_STAT n.val); let wc := (min (s.fld st HDG_SRC_STAT_WCOUNT + 1) (2
      ^ HDG_SRC_STAT_WCOUNT.width - 1)); let live : Prop := (hdgSourceUsed n.val = true ∧ s.hdgEn n.val = true ∧
      s.held n.val = false); live ∧ s.hdgState n.val = 1 ∧ wc < s.hdgN n.val)
    ∧ (∃ n : HdgSrc, ∃ s : State, let st := (HDG_SRC_STAT n.val); let wc := (min (s.fld st HDG_SRC_STAT_WCOUNT + 1) (2
      ^ HDG_SRC_STAT_WCOUNT.width - 1)); let live : Prop := (hdgSourceUsed n.val = true ∧ s.hdgEn n.val = true ∧
      s.held n.val = false); live ∧ ((s.hdgState n.val = 0 ∧ s.hdgN n.val ≤ 1) ∨ (s.hdgState n.val = 1 ∧ s.hdgN n.val
      ≤ wc)) ∧ (n.val < 128 ∨ 144 < n.val ∨ s.bit XPT_CTRL XPT_CTRL_AUTORETIRE = false) ∧ (s.hdgAction n.val = 0 ∨
      s.hdgReaction n.val ≠ 0))
    ∧ (∃ s : State, s.pwr.barred = false) :=
  ⟨⟨13, by decide +kernel⟩,
   ⟨12, State.reset.wr (HDG_SRC_CFG 12) 0, by decide +kernel⟩,
   ⟨0, (State.reset.setFld (HDG_SRC_CFG 0) HDG_SRC_CFG_N 2).setBit (HDG_SRC_CFG 0) HDG_SRC_CFG_EN true,
    by dsimp only; decide +kernel⟩,
   ⟨0, ((hdg 0 1).setFld (HDG_SRC_CFG 0) HDG_SRC_CFG_N 9).setBit (HDG_SRC_CFG 0) HDG_SRC_CFG_EN true,
    by dsimp only; decide +kernel⟩,
   ⟨0,
    ((State.reset.setFld (HDG_SRC_CFG 0) HDG_SRC_CFG_N 1).setBit (HDG_SRC_CFG 0) HDG_SRC_CFG_EN true).setFld (HDG_SRC_CFG 0) HDG_SRC_CFG_ACTION 0,
    by dsimp only; decide +kernel⟩,
   ⟨State.reset, by decide +kernel⟩⟩

/-- States and operands that meet the hypotheses of HedgerowHandling, clause by clause. -/
theorem witness_HedgerowHandling :
    (∃ n : HdgSrc, ∃ s : State, s.hdgState n.val = 1 ∧ s.fld (HDG_SRC_CFG n.val) HDG_SRC_CFG_WINDOW ≠ 0 ∧ s.held n.val
      = false)
    ∧ (∃ n : HdgSrc, ∃ s : State, (s.hdgState n.val ≠ 1 ∨ s.fld (HDG_SRC_CFG n.val) HDG_SRC_CFG_WINDOW = 0 ∨ s.held
      n.val = true))
    ∧ (∃ n : HdgSrc, ∃ s : State, s.pwr.barred = false ∧ s.hdgState n.val = 2)
    ∧ (∃ n : HdgSrc, ∃ s : State, s.pwr.barred = false ∧ s.hdgState n.val ≠ 2)
    ∧ (∃ n : HdgSrc, ∃ s : State, let st := (HDG_SRC_STAT n.val); s.pwr.barred = false ∧ (s.hdgState n.val = 1 ∨
      (s.hdgState n.val = 2 ∧ s.bit st HDG_SRC_STAT_ACKED = true) ∨ (s.hdgState n.val = 3 ∧ Tbl.getD s.hdg.escalated
      n.val 2 ≤ 1)))
    ∧ (∃ n : HdgSrc, ∃ s : State, let st := (HDG_SRC_STAT n.val); s.pwr.barred = false ∧ (s.hdgState n.val = 0 ∨
      (s.hdgState n.val = 2 ∧ s.bit st HDG_SRC_STAT_ACKED = false) ∨ (s.hdgState n.val = 3 ∧ Tbl.getD s.hdg.escalated
      n.val 2 = 2)))
    ∧ (∃ n : HdgSrc, ∃ s : State, Tbl.find? s.hdg.timers n.val = none)
    ∧ (∃ n : HdgSrc, ∃ s : State, ∃ p : Bool, Tbl.find? s.hdg.timers n.val = some p ∧ s.hdgState n.val = 2 ∧ (p = true
      ∨ s.held n.val = false) ∧ s.hdgEn 384 = false ∧ (s.hdgAction n.val = 1 ∨ (s.hdgAction n.val ≠ 0 ∧ s.safe =
      true))) :=
  ⟨⟨0, (hdg 0 1).setFld (HDG_SRC_CFG 0) HDG_SRC_CFG_WINDOW 1, by decide +kernel⟩,
   ⟨0, (hdg 0 1).setFld (HDG_SRC_CFG 0) HDG_SRC_CFG_WINDOW 0, by decide +kernel⟩,
   ⟨0, hdg 0 2, by decide +kernel⟩,
   ⟨0, hdg 0 3, by decide +kernel⟩,
   ⟨0, hdg 0 1, by decide +kernel⟩,
   ⟨0, hdg 0 3, by decide +kernel⟩,
   ⟨0, State.reset, by decide +kernel⟩,
   ⟨0,
    (((hdg 0 2).setFld (HDG_SRC_CFG 0) HDG_SRC_CFG_ACTION 1).setBit (HDG_SRC_CFG 384) HDG_SRC_CFG_EN false).setHdgTimers [(0, true)],
    true, by decide +kernel⟩⟩

/-- States and operands that meet the hypotheses of SafeStateIsEntered, clause by clause. -/
theorem witness_SafeStateIsEntered :
    ∃ s : State, s.safe = false ∧ s.hdgState 511 = 0 :=
  ⟨State.reset, by decide +kernel⟩

/-- States and operands that meet the hypotheses of InterlockTransitions, clause by clause. -/
theorem witness_InterlockTransitions :
    (∃ s : State, let x := s.fovState; s.pwr.barred = false ∧ x = 1 ∧ s.ilkIn = false)
    ∧ (∃ s : State, let x := s.fovState; s.pwr.barred = false ∧ (x ≠ 1 ∨ s.ilkIn = true))
    ∧ (∃ s : State, let x := s.fovState; s.pwr.barred = false ∧ x = 3)
    ∧ (∃ s : State, let x := s.fovState; s.pwr.barred = false ∧ x ≠ 3)
    ∧ (∃ s : State, let x := s.fovState; s.pwr.barred = false ∧ x = 1)
    ∧ (∃ s : State, let x := s.fovState; s.pwr.barred = false ∧ x ≠ 1)
    ∧ (∃ s : State, let x := s.fovState; s.pwr.barred = false ∧ (x = 4 ∨ x = 5))
    ∧ (∃ s : State, let x := s.fovState; s.pwr.barred = false ∧ (x = 6 ∨ x = 3))
    ∧ (∃ s : State, let x := s.fovState; s.pwr.barred = false ∧ (x = 0 ∨ x = 1 ∨ x = 2 ∨ x = 7 ∨ x = 8))
    ∧ (∃ s : State, let x := s.fovState; s.pwr.barred = false ∧ x = 7)
    ∧ (∃ s : State, let x := s.fovState; s.pwr.barred = false ∧ x ≠ 7)
    ∧ (∃ s : State, let x := s.fovState; x = 1 ∧ s.fovRole = true ∧ s.bit FOV_CFG FOV_CFG_AUTOCLAIM = true ∧
      s.fov.autoStopped = false ∧ s.ilkIn = false)
    ∧ (∃ s : State, let x := s.fovState; (x ≠ 1 ∨ s.fovRole = false ∨ s.bit FOV_CFG FOV_CFG_AUTOCLAIM = false ∨
      s.fov.autoStopped = true ∨ s.ilkIn = true))
    ∧ (∃ s : State, let x := s.fovState; x = 2 ∧ s.ilkIn = false)
    ∧ (∃ s : State, let x := s.fovState; x ≠ 2)
    ∧ (∃ s : State, let x := s.fovState; x = 2 ∧ s.ilkIn = true ∧ s.fovRole = true ∧ s.fov.withdrawals ≠ 2)
    ∧ (∃ s : State, let x := s.fovState; x = 2 ∧ s.ilkIn = true ∧ s.fovRole = true ∧ s.fov.withdrawals = 2)
    ∧ (∃ s : State, let x := s.fovState; x = 2 ∧ s.ilkIn = true ∧ s.fovRole = false ∧ s.fov.windows ≠ 9)
    ∧ (∃ s : State, let x := s.fovState; x = 2 ∧ s.ilkIn = true ∧ s.fovRole = false ∧ s.fov.windows = 9)
    ∧ (∃ s : State, s.ilkIn = true)
    ∧ (∃ s : State, let x := s.fovState; s.ilkIn = false ∧ x = 3 ∧ s.fovRole = true)
    ∧ (∃ s : State, let x := s.fovState; s.ilkIn = false ∧ x ≠ 6 ∧ (¬(x = 3 ∧ s.fovRole = true)))
    ∧ (∃ s : State, let x := s.fovState; s.ilkIn = false ∧ x = 6)
    ∧ (∃ s : State, let x := s.fovState; x ≠ 6)
    ∧ (∃ s : State, s.ilkIn = false)
    ∧ (∃ s : State, let x := s.fovState; s.ilkIn = true ∧ x = 2 ∧ s.fov.windows ≠ 0)
    ∧ (∃ s : State, let x := s.fovState; s.ilkIn = true ∧ (¬(x = 2 ∧ s.fov.windows ≠ 0)) ∧ (¬(x = 5 ∧ s.fovLease =
      2)))
    ∧ (∃ s : State, let x := s.fovState; s.ilkIn = true ∧ x = 5 ∧ s.fovLease = 2) :=
  ⟨⟨((fov 1).setBit FOV_STAT FOV_STAT_ILKIN false), by decide +kernel⟩,
   ⟨((fov 1).setBit FOV_STAT FOV_STAT_ILKIN true), by decide +kernel⟩,
   ⟨((fov 3).setBit FOV_STAT FOV_STAT_ILKIN false), by decide +kernel⟩,
   ⟨State.reset, by decide +kernel⟩,
   ⟨((fov 1).setBit FOV_STAT FOV_STAT_ILKIN false), by decide +kernel⟩,
   ⟨State.reset, by decide +kernel⟩,
   ⟨((fov 4).setBit FOV_STAT FOV_STAT_ILKIN false), by decide +kernel⟩,
   ⟨((fov 6).setBit FOV_STAT FOV_STAT_ILKIN false), by decide +kernel⟩,
   ⟨(fov 8), by decide +kernel⟩,
   ⟨fov 7, by decide +kernel⟩,
   ⟨State.reset, by decide +kernel⟩,
   ⟨(((fov 1).setBit FOV_STAT FOV_STAT_ILKIN false).setBit FOV_CFG FOV_CFG_ROLE true).setBit FOV_CFG FOV_CFG_AUTOCLAIM true,
    by decide +kernel⟩,
   ⟨State.reset, by decide +kernel⟩,
   ⟨((fov 2).setBit FOV_STAT FOV_STAT_ILKIN false), by decide +kernel⟩,
   ⟨State.reset, by decide +kernel⟩,
   ⟨(((fov 2).setBit FOV_STAT FOV_STAT_ILKIN true).setBit FOV_CFG FOV_CFG_ROLE true), by decide +kernel⟩,
   ⟨{ (((fov 2).setBit FOV_STAT FOV_STAT_ILKIN true).setBit FOV_CFG FOV_CFG_ROLE true) with fov := { State.reset.fov with withdrawals := 2 } },
    by decide +kernel⟩,
   ⟨{ ((fov 2).setBit FOV_STAT FOV_STAT_ILKIN true) with fov := { State.reset.fov with windows := 1 } },
    by decide +kernel⟩,
   ⟨(((fov 2).setBit FOV_STAT FOV_STAT_ILKIN true).setBit FOV_CFG FOV_CFG_ROLE false) |> fun s => { s with fov := { State.reset.fov with windows := 9 } },
    by decide +kernel⟩,
   ⟨((fov 1).setBit FOV_STAT FOV_STAT_ILKIN true), by decide +kernel⟩,
   ⟨(((fov 3).setBit FOV_STAT FOV_STAT_ILKIN false).setBit FOV_CFG FOV_CFG_ROLE true), by decide +kernel⟩,
   ⟨State.reset, by decide +kernel⟩,
   ⟨((fov 6).setBit FOV_STAT FOV_STAT_ILKIN false), by decide +kernel⟩,
   ⟨State.reset, by decide +kernel⟩,
   ⟨State.reset, by decide +kernel⟩,
   ⟨{ ((fov 2).setBit FOV_STAT FOV_STAT_ILKIN true) with fov := { State.reset.fov with windows := 1 } },
    by decide +kernel⟩,
   ⟨((fov 1).setBit FOV_STAT FOV_STAT_ILKIN true), by decide +kernel⟩,
   ⟨(((fov 5).setBit FOV_STAT FOV_STAT_ILKIN true)).setFld FOV_STAT FOV_STAT_LEASE 2, by decide +kernel⟩⟩

/-- States and operands that meet the hypotheses of LeasesAndYield, clause by clause. -/
theorem witness_LeasesAndYield :
    (∃ s : State, ∃ force : Bool, let x := s.fovState; let seq := (s.fld FOV_GRANT_SEQ FOV_GRANT_SEQ_SEQ); let fresh :
      Prop := (s.fld FOV_LASTSEQ FOV_LASTSEQ_SEQ < seq); let may : Prop := (x = 3 ∨ x = 6 ∨ (x = 5 ∧ (s.ilkIn = false
      ∨ force = true))); s.pwr.barred = false ∧ fresh ∧ may)
    ∧ (∃ s : State, ∃ force : Bool, let x := s.fovState; let seq := (s.fld FOV_GRANT_SEQ FOV_GRANT_SEQ_SEQ); let fresh
      : Prop := (s.fld FOV_LASTSEQ FOV_LASTSEQ_SEQ < seq); let may : Prop := (x = 3 ∨ x = 6 ∨ (x = 5 ∧ (s.ilkIn =
      false ∨ force = true))); s.pwr.barred = false ∧ (¬fresh ∨ ¬may))
    ∧ (∃ s : State, let x := s.fovState; let seq := (s.fld FOV_GRANT_SEQ FOV_GRANT_SEQ_SEQ); let fresh : Prop :=
      (s.fld FOV_LASTSEQ FOV_LASTSEQ_SEQ < seq); s.pwr.barred = false ∧ fresh ∧ x = 5)
    ∧ (∃ s : State, let x := s.fovState; let seq := (s.fld FOV_GRANT_SEQ FOV_GRANT_SEQ_SEQ); let fresh : Prop :=
      (s.fld FOV_LASTSEQ FOV_LASTSEQ_SEQ < seq); s.pwr.barred = false ∧ (¬fresh ∨ x ≠ 5))
    ∧ (∃ s : State, let x := s.fovState; let seq := (s.fld FOV_GRANT_SEQ FOV_GRANT_SEQ_SEQ); let fresh : Prop :=
      (s.fld FOV_LASTSEQ FOV_LASTSEQ_SEQ < seq); s.pwr.barred = false ∧ fresh ∧ x ≠ 7 ∧ s.fovLease ≠ 0)
    ∧ (∃ s : State, let x := s.fovState; let seq := (s.fld FOV_GRANT_SEQ FOV_GRANT_SEQ_SEQ); let fresh : Prop :=
      (s.fld FOV_LASTSEQ FOV_LASTSEQ_SEQ < seq); s.pwr.barred = false ∧ (¬fresh ∨ x = 7 ∨ s.fovLease = 0))
    ∧ (∃ s : State, let x := s.fovState; s.pwr.barred = false ∧ x = 6)
    ∧ (∃ s : State, let x := s.fovState; s.pwr.barred = false ∧ x ≠ 6)
    ∧ (∃ s : State, s.fov.yieldAt = none)
    ∧ (∃ s : State, ∃ tb : Nat, ∃ t : Nat, let x := s.fovState; s.fov.yieldAt = some (tb, t) ∧ x = 6 ∧ t ≤ s.fullTime
      tb)
    ∧ (∃ s : State, s.fovLease = 0)
    ∧ (∃ s : State, s.fovLease ≠ 0) :=
  ⟨⟨(fov 3).setFld FOV_GRANT_SEQ FOV_GRANT_SEQ_SEQ 1, true, by dsimp only; decide +kernel⟩,
   ⟨State.reset, true, by dsimp only; decide +kernel⟩,
   ⟨(fov 5).setFld FOV_GRANT_SEQ FOV_GRANT_SEQ_SEQ 1, by dsimp only; decide +kernel⟩,
   ⟨State.reset, by dsimp only; decide +kernel⟩,
   ⟨((fov 6).setFld FOV_GRANT_SEQ FOV_GRANT_SEQ_SEQ 1).setFld FOV_STAT FOV_STAT_LEASE 1,
    by dsimp only; decide +kernel⟩,
   ⟨State.reset, by dsimp only; decide +kernel⟩,
   ⟨(fov 6), by decide +kernel⟩,
   ⟨State.reset, by decide +kernel⟩,
   ⟨State.reset, by decide +kernel⟩,
   ⟨{ fov 6 with fov := { State.reset.fov with yieldAt := some (0, 0) } }, 0, 0, by decide +kernel⟩,
   ⟨State.reset, by decide +kernel⟩,
   ⟨(fov 6).setFld FOV_STAT FOV_STAT_LEASE 1, by decide +kernel⟩⟩

/-- States and operands that meet the hypotheses of MirrorAndPlaneLoss, clause by clause. -/
theorem witness_MirrorAndPlaneLoss :
    (∃ s : State, (s.bit FOV_CFG FOV_CFG_PROT = false ∨ s.mirrorPath = false))
    ∧ (∃ s : State, s.bit FOV_CFG FOV_CFG_PROT = true ∧ s.mirrorPath = true)
    ∧ (∃ s : State, s.bit FOV_STAT FOV_STAT_MIRUP = false)
    ∧ (∃ s : State, s.bit FOV_STAT FOV_STAT_MIRUP = true)
    ∧ (∃ s : State, ∃ a : Word, ∃ b : Word, let x := s.fovState; x = 4 ∧ s.fov.snapshot = true ∧ a = b)
    ∧ (∃ s : State, ∃ a : Word, ∃ b : Word, let x := s.fovState; x = 4 ∧ (s.fov.snapshot = false ∨ a ≠ b))
    ∧ (∃ s : State, ∃ a : Word, ∃ b : Word, let x := s.fovState; x = 5 ∧ a ≠ b)
    ∧ (∃ s : State, ∃ a : Word, ∃ b : Word, let x := s.fovState; x = 5 ∧ a = b)
    ∧ (∃ s : State, let x := s.fovState; x ≠ 4 ∧ x ≠ 5)
    ∧ (∃ s : State, let x := s.fovState; x ≠ 4)
    ∧ (∃ s : State, let x := s.fovState; x = 4)
    ∧ (∃ s : State, ∃ n : Node, let x := s.fovState; let yields : Prop := (x = 6 ∧ s.bit FOV_CFG FOV_CFG_PLANEYIELD =
      true ∧ s.bit FOV_STAT FOV_STAT_COVERED = true ∧ s.bit FOV_STAT FOV_STAT_MIRUP = true ∧ s.fld BLK_NODE
      BLK_NODE_EXPNODES ≠ 0 ∧ s.planeLost n.val = true); (¬yields))
    ∧ (∃ s : State, ∃ n : Node, let x := s.fovState; let yields : Prop := (x = 6 ∧ s.bit FOV_CFG FOV_CFG_PLANEYIELD =
      true ∧ s.bit FOV_STAT FOV_STAT_COVERED = true ∧ s.bit FOV_STAT FOV_STAT_MIRUP = true ∧ s.fld BLK_NODE
      BLK_NODE_EXPNODES ≠ 0 ∧ s.planeLost n.val = true); yields) :=
  ⟨⟨State.reset, by decide +kernel⟩,
   ⟨((fov 5).setBit FOV_CFG FOV_CFG_PROT true).setBit (MP_STAT 0) MP_STAT_LINK true, by decide +kernel⟩,
   ⟨State.reset, by decide +kernel⟩,
   ⟨(fov 5).setBit FOV_STAT FOV_STAT_MIRUP true, by decide +kernel⟩,
   ⟨{ fov 4 with fov := { State.reset.fov with snapshot := true } }, 0, 0, by decide +kernel⟩,
   ⟨fov 4, 0, 0, by decide +kernel⟩,
   ⟨fov 5, 0, 1, by decide +kernel⟩,
   ⟨fov 5, 0, 0, by decide +kernel⟩,
   ⟨State.reset, by decide +kernel⟩,
   ⟨State.reset, by decide +kernel⟩,
   ⟨fov 4, by decide +kernel⟩,
   ⟨State.reset, 1, by dsimp only; decide +kernel⟩,
   ⟨((((((((linked 7).setFld FOV_STAT FOV_STAT_STATE 6).setBit FOV_CFG FOV_CFG_PLANEYIELD true).setBit FOV_STAT FOV_STAT_COVERED true).setBit FOV_STAT FOV_STAT_MIRUP true).setFld BLK_NODE BLK_NODE_EXPNODES 1).setFld (BLK_L_STAT 0) BLK_L_STAT_PEER 1)).setBit (BLK_L_STAT 0) BLK_L_STAT_PEERVALID true,
    1, by dsimp only; decide +kernel⟩⟩

/-- States and operands that meet the hypotheses of PowerStates, clause by clause. -/
theorem witness_PowerStates :
    (∃ s : State, s.fallowRefused = true)
    ∧ (∃ s : State, s.fallowRefused = false ∧ s.bst.waits = [])
    ∧ (∃ s : State, (s.pwrState ≠ 1 ∨ s.quietForFallow = false))
    ∧ (∃ s : State, s.pwrState = 1 ∧ s.quietForFallow = true)
    ∧ (∃ s : State, 4 ≤ s.pwrState)
    ∧ (∃ s : State, s.pwrState = 2)
    ∧ (∃ s : State, s.pwrState = 1)
    ∧ (∃ s : State, (s.pwrState = 0 ∨ s.pwrState = 3))
    ∧ (∃ s : State, s.pwrState ≠ 3)
    ∧ (∃ s : State, s.pwrState = 3 ∧ s.fovState ≠ 5)
    ∧ (∃ s : State, s.pwrState ≠ 0 ∧ s.pwrState ≠ 2)
    ∧ (∃ s : State, (s.pwrState = 0 ∨ s.pwrState = 2))
    ∧ (∃ s : State, s.pwrState ≠ 4)
    ∧ (∃ s : State, s.pwrState = 4) :=
  ⟨⟨pwr 5, by decide +kernel⟩,
   ⟨State.reset, by decide +kernel⟩,
   ⟨State.reset, by decide +kernel⟩,
   ⟨pwr 1, by decide +kernel⟩,
   ⟨pwr 4, by decide +kernel⟩,
   ⟨pwr 2, by decide +kernel⟩,
   ⟨pwr 1, by decide +kernel⟩,
   ⟨pwr 3, by decide +kernel⟩,
   ⟨pwr 2, by decide +kernel⟩,
   ⟨pwr 3, by decide +kernel⟩,
   ⟨pwr 1, by decide +kernel⟩,
   ⟨pwr 2, by decide +kernel⟩,
   ⟨pwr 5, by decide +kernel⟩,
   ⟨pwr 4, by decide +kernel⟩⟩

/-- States and operands that meet the hypotheses of ResetScopes, clause by clause. -/
theorem witness_ResetScopes :
    (∃ s : State, s.pwr.porLow = false)
    ∧ (∃ s : State, s.pwr.porLow = true)
    ∧ (∃ s : State, s.shutting = true)
    ∧ (∃ s : State, s.shutting = false ∧ s.bootCode ≠ 3 ∧ Regs.wf s.regs = true) :=
  ⟨⟨{ State.reset with pwr := { State.reset.pwr with porLow := false } }, by decide +kernel⟩,
   ⟨State.reset, by decide +kernel⟩,
   ⟨pwr 4, by decide +kernel⟩,
   ⟨pwr 3, by decide +kernel⟩⟩

/-- States and operands that meet the hypotheses of StrapsTimerAndTemperature, clause by clause. -/
theorem witness_StrapsTimerAndTemperature :
    (∃ s : State, s.pwr.porLow = false)
    ∧ (∃ s : State, s.pwr.porLow = true)
    ∧ (∃ s : State, (s.pwr.core = true ∨ s.rd PWR_WAKETMR = 0))
    ∧ (∃ s : State, s.pwr.core = false ∧ s.rd PWR_WAKETMR ≠ 0)
    ∧ (∃ s : State, ∃ tj : BitVec 12, let x := (signed 12 tj.toNat); let warn : Int := (8 * s.thermWarn : Nat); x <
      warn ∧ (s.pwr.thermN = false ∨ warn - 40 ≤ x))
    ∧ (∃ s : State, ∃ tj : BitVec 12, let x := (signed 12 tj.toNat); let warn : Int := (8 * s.thermWarn : Nat); x <
      warn - 40 ∧ s.pwr.thermN = true)
    ∧ (∃ s : State, ∃ tj : BitVec 12, let x := (signed 12 tj.toNat); let warn : Int := (8 * s.thermWarn : Nat); x <
      1080 ∧ warn ≤ x ∧ s.bit PWR_STAT PWR_STAT_HOT = true)
    ∧ (∃ s : State, ∃ tj : BitVec 12, let x := (signed 12 tj.toNat); let warn : Int := (8 * s.thermWarn : Nat); x <
      1080 ∧ warn ≤ x ∧ s.bit PWR_STAT PWR_STAT_HOT = false)
    ∧ (∃ tj : BitVec 12, let x := (signed 12 tj.toNat); 1080 ≤ x)
    ∧ (∃ s : State, ∃ d : StopDomain, (s.domainUse d).2 = true)
    ∧ (∃ s : State, ∃ d : StopDomain, (s.domainUse d).2 = false) :=
  ⟨⟨{ State.reset with pwr := { State.reset.pwr with porLow := false } }, by decide +kernel⟩,
   ⟨State.reset, by decide +kernel⟩,
   ⟨State.reset, by decide +kernel⟩,
   ⟨({ State.reset with pwr := { State.reset.pwr with core := false } } : State).wr PWR_WAKETMR 1, by decide +kernel⟩,
   ⟨State.reset, 0, by decide +kernel⟩,
   ⟨State.reset.setPwr { State.reset.pwr with thermN := true }, 0, by decide +kernel⟩,
   ⟨State.reset.setBit PWR_STAT PWR_STAT_HOT true, 1079, by decide +kernel⟩,
   ⟨State.reset, 1079, by decide +kernel⟩,
   ⟨1080, by decide +kernel⟩,
   ⟨State.reset.setBit (AUD_TDM_STAT 7) AUD_TDM_STAT_ENABLED true, .audm 7, by decide +kernel⟩,
   ⟨State.reset, .audm 7, by decide +kernel⟩⟩

/-- States and operands that meet the hypotheses of SelfTestSlices, clause by clause. -/
theorem witness_SelfTestSlices :
    (∃ s : State, (s.bit BST_CTRL BST_CTRL_SLICEEN = false ∨ s.powerActive = false))
    ∧ (∃ s : State, s.bit BST_CTRL BST_CTRL_SLICEEN = true ∧ s.powerActive = true)
    ∧ (∃ s : State, ∃ u : Byte, u.toNat ∉ s.bst.slicing)
    ∧ (∃ s : State, 0x70 ∈ s.bst.slicing)
    ∧ (∃ s : State, 0x70 ∈ s.bst.slicing ∧ s.fld BST_STAT BST_STAT_LSSPARE = 0)
    ∧ (∃ s : State, 0x70 ∈ s.bst.slicing ∧ s.fld BST_STAT BST_STAT_LSSPARE ≠ 0)
    ∧ (∃ s : State, ∃ u : Byte, ∃ c : Nat × Nat × Nat × Nat, u.toNat ∈ s.bst.slicing ∧ sliceClass u.toNat = some c ∧
      Tbl.getD s.bst.slices u.toNat 0 + 1 < c.2.2.1)
    ∧ (∃ s : State, ∃ k : Fin 2, s.bit FSA_MEMSTAT (if k = 0 then FSA_MEMSTAT_STK0 else FSA_MEMSTAT_STK1) = false)
    ∧ (∃ s : State, ∃ k : Fin 2, s.bit FSA_MEMSTAT (if k = 0 then FSA_MEMSTAT_STK0 else FSA_MEMSTAT_STK1) = true)
    ∧ (∃ s : State, ∃ u : Byte, (unitValid u.toNat = false ∨ (s.fullTesting u.toNat = false ∧ s.bit BST_STAT
      BST_STAT_FULLRUN = false)))
    ∧ (∃ s : State, ∃ u : Byte, unitValid u.toNat = true ∧ s.fullTesting u.toNat = false ∧ s.bit BST_STAT
      BST_STAT_FULLRUN = true)
    ∧ (∃ s : State, ∃ i : Fin 8, ∃ v : Word, s.pwr.barred = false ∧ s.oosRefuses i.val v = true)
    ∧ (∃ s : State, ∃ i : Fin 8, ∃ v : Word, s.pwr.barred = false ∧ s.oosRefuses i.val v = false)
    ∧ (∃ s : State, s.pwr.barred = false) :=
  ⟨⟨pwr 1, by decide +kernel⟩,
   ⟨State.reset, by decide +kernel⟩,
   ⟨State.reset, 0, by decide +kernel⟩,
   ⟨State.reset.setBst { State.reset.bst with slicing := [112] }, by decide +kernel⟩,
   ⟨(State.reset.setBst { State.reset.bst with slicing := [112] }).setFld BST_STAT BST_STAT_LSSPARE 0,
    by decide +kernel⟩,
   ⟨(State.reset.setBst { State.reset.bst with slicing := [112] }).setFld BST_STAT BST_STAT_LSSPARE 1,
    by decide +kernel⟩,
   ⟨State.reset.setBst { State.reset.bst with slicing := [0x20] }, 0x20, (0x20, 16, 400, 400), by decide +kernel⟩,
   ⟨State.reset.setBit FSA_MEMSTAT FSA_MEMSTAT_STK1 false, 1, by decide +kernel⟩,
   ⟨State.reset, 1, by decide +kernel⟩,
   ⟨State.reset, 0, by decide +kernel⟩,
   ⟨State.reset.setBit BST_STAT BST_STAT_FULLRUN true, 0, by decide +kernel⟩,
   ⟨State.reset, 0, 1, by decide +kernel⟩,
   ⟨State.reset, 0, 0, by decide +kernel⟩,
   ⟨State.reset, by decide +kernel⟩⟩

/-- States and operands that meet the hypotheses of ImagesAndSlots, clause by clause. -/
theorem witness_ImagesAndSlots :
    (∃ s : State, s.svcBusy = true ∧ s.svc.started ≠ some 1)
    ∧ (∃ s : State, s.svcBusy = true ∧ s.svc.started ≠ some 2)
    ∧ (∃ s : State, let ok : Prop := (hostOk s.svcAddr s.svcLen = true); s.svcBusy = false ∧ s.svc.started ≠ some 1 ∧
      (¬ok))
    ∧ (∃ s : State, let ok : Prop := (hostOk s.svcAddr s.svcLen = true); s.svcBusy = false ∧ s.svc.started ≠ some 1 ∧
      ok ∧ s.channelIn (decide (s.svcLen ≤ 4096)) = none)
    ∧ (∃ s : State, ∃ i : Image, ∃ ch : Nat, let ok : Prop := (hostOk s.svcAddr s.svcLen = true); let goes := (fun (op
      ch : Nat) => ch < 48 ∧ ((s.svc.started = some op ∧ s.svcChannel = some ch) ∨ (s.svc.started ≠ some op ∧
      s.svcBusy = false ∧ ok ∧ s.channelIn (decide (s.svcLen ≤ 4096)) = some ch))); let idle : Prop := (s.updState = 0
      ∧ s.svc.programming = none); goes 1 ch ∧ idle ∧ s.imageFail i = none ∧ s.ready = true ∧ s.arg % 2 = 0)
    ∧ (∃ s : State, ∃ i : Image, ∃ ch : Nat, let ok : Prop := (hostOk s.svcAddr s.svcLen = true); let goes := (fun (op
      ch : Nat) => ch < 48 ∧ ((s.svc.started = some op ∧ s.svcChannel = some ch) ∨ (s.svc.started ≠ some op ∧
      s.svcBusy = false ∧ ok ∧ s.channelIn (decide (s.svcLen ≤ 4096)) = some ch))); let idle : Prop := (s.updState = 0
      ∧ s.svc.programming = none); goes 1 ch ∧ idle ∧ s.imageFail i = none ∧ s.ready = true ∧ s.arg % 2 = 1)
    ∧ (∃ s : State, ∃ i : Image, ∃ ch : Nat, let ok : Prop := (hostOk s.svcAddr s.svcLen = true); let goes := (fun (op
      ch : Nat) => ch < 48 ∧ ((s.svc.started = some op ∧ s.svcChannel = some ch) ∨ (s.svc.started ≠ some op ∧
      s.svcBusy = false ∧ ok ∧ s.channelIn (decide (s.svcLen ≤ 4096)) = some ch))); let idle : Prop := (s.updState = 0
      ∧ s.svc.programming = none); goes 1 ch ∧ idle ∧ s.imageFail i = some .signature)
    ∧ (∃ s : State, ∃ ch : Nat, let ok : Prop := (hostOk s.svcAddr s.svcLen = true); let goes := (fun (op ch : Nat) =>
      ch < 48 ∧ ((s.svc.started = some op ∧ s.svcChannel = some ch) ∨ (s.svc.started ≠ some op ∧ s.svcBusy = false ∧
      ok ∧ s.channelIn (decide (s.svcLen ≤ 4096)) = some ch))); let idle : Prop := (s.updState = 0 ∧ s.svc.programming
      = none); goes 1 ch ∧ (¬idle))
    ∧ (∃ s : State, s.svc.programming = none)
    ∧ (∃ s : State, ∃ k : Nat, ∃ i : Image, s.svc.programming = some (k, i) ∧ k < 2)
    ∧ (∃ s : State, ∃ k : Nat, ∃ i : Image, s.svc.programming = some (k, i) ∧ 2 ≤ k)
    ∧ (∃ s : State, ∃ k : Nat, ∃ i : Image, s.svc.programming = some (k, i))
    ∧ (∃ s : State, let answers := (fun (op : Nat) => s.svc.started = some op ∨ s.svcBusy = false); answers 2 ∧
      (s.svc.staged = none ∨ s.updState ≠ 1))
    ∧ (∃ s : State, ∃ i : Image, ∃ n : _, ∃ rest : _, let answers := (fun (op : Nat) => s.svc.started = some op ∨
      s.svcBusy = false); answers 2 ∧ s.svc.staged = some i ∧ s.updState = 1 ∧ (∀ n, n ∈ s.maskNodes (s.arg % 16) →
      s.hasPath n = true) ∧ s.maskNodes (s.arg % 16) = n :: rest)
    ∧ (∃ s : State, ∃ i : Image, let answers := (fun (op : Nat) => s.svc.started = some op ∨ s.svcBusy = false);
      answers 2 ∧ s.svc.staged = some i ∧ s.updState = 1 ∧ (∀ n, n ∈ s.maskNodes (s.arg % 16) → s.hasPath n = true) ∧
      s.maskNodes (s.arg % 16) = [])
    ∧ (∃ s : State, ∃ n : _, let answers := (fun (op : Nat) => s.svc.started = some op ∨ s.svcBusy = false); answers 2
      ∧ s.svc.staged ≠ none ∧ s.updState = 1 ∧ n ∈ s.maskNodes (s.arg % 16) ∧ s.hasPath n = false)
    ∧ (∃ s : State, let idle : Prop := (s.updState = 0 ∧ s.svc.programming = none); (¬idle))
    ∧ (∃ s : State, ∃ i : Image, let idle : Prop := (s.updState = 0 ∧ s.svc.programming = none); idle ∧ s.imageFail i
      = none ∧ s.ready = true)
    ∧ (∃ s : State, ∃ i : Image, ∃ r : Bool, let idle : Prop := (s.updState = 0 ∧ s.svc.programming = none); idle ∧
      s.imageFail i = some .signature ∧ r = false) :=
  ⟨⟨State.reset.setBit SVC_CMDSTAT SVC_CMDSTAT_BUSY true, by decide +kernel⟩,
   ⟨State.reset.setBit SVC_CMDSTAT SVC_CMDSTAT_BUSY true, by decide +kernel⟩,
   ⟨State.reset, by dsimp only; decide +kernel⟩,
   ⟨(upd 1).setHif { State.reset.hif with inflight := (List.range 48).map (fun n => flown (some n)) },
    by dsimp only; decide +kernel⟩,
   ⟨upd 0, img, 0, by dsimp only; decide +kernel⟩,
   ⟨(upd 0).wr SVC_ARG 1, img, 0, by dsimp only; decide +kernel⟩,
   ⟨upd 0, { img with sigOk := false }, 0, by dsimp only; decide +kernel⟩,
   ⟨upd 1, 0, by dsimp only; decide +kernel⟩,
   ⟨State.reset, by decide +kernel⟩,
   ⟨(upd 0).setSvc { (upd 0).svc with programming := some (1, img) }, 1, img, by decide +kernel⟩,
   ⟨(upd 0).setSvc { (upd 0).svc with programming := some (2, img) }, 2, img, by decide +kernel⟩,
   ⟨(upd 0).setSvc { (upd 0).svc with programming := some (1, img) }, 1, img, by decide +kernel⟩,
   ⟨State.reset, by dsimp only; decide +kernel⟩,
   ⟨(((peered.setFld SVC_UPD SVC_UPD_STATE 1).wr SVC_ARG 2).setBit PWR_STAT PWR_STAT_READY true).setSvc { State.reset.svc with staged := some img },
    img, 1, [], by dsimp only; decide +kernel⟩,
   ⟨(((peered.setFld SVC_UPD SVC_UPD_STATE 1).wr SVC_ARG 0).setBit PWR_STAT PWR_STAT_READY true).setSvc { State.reset.svc with staged := some img },
    img, by dsimp only; decide +kernel⟩,
   ⟨(((peered.setFld SVC_UPD SVC_UPD_STATE 1).wr SVC_ARG 4).setBit PWR_STAT PWR_STAT_READY true).setSvc { State.reset.svc with staged := some img },
    2, by dsimp only; decide +kernel⟩,
   ⟨upd 1, by dsimp only; decide +kernel⟩,
   ⟨upd 0, img, by dsimp only; decide +kernel⟩,
   ⟨upd 0, { img with sigOk := false }, false, by dsimp only; decide +kernel⟩⟩

/-- States and operands that meet the hypotheses of HandoverAndConfirm, clause by clause. -/
theorem witness_HandoverAndConfirm :
    (∃ s : State, s.svcBusy = true ∧ s.svc.started ≠ some 3)
    ∧ (∃ s : State, s.svcBusy = true)
    ∧ (∃ s : State, let answers := (s.svc.started = some 3 ∨ s.svcBusy = false); answers ∧ s.svc.staged = none)
    ∧ (∃ s : State, ∃ p : Word, ∃ i : Image, let answers := (s.svc.started = some 3 ∨ s.svcBusy = false); let may :
      Prop := (s.updState = 1 ∧ i.minPeer.toNat ≤ p.toNat ∧ i.minPeer.toNat ≤ (s.rd SVC_FWVER).toNat); answers ∧
      s.svc.staged = some i ∧ may)
    ∧ (∃ s : State, ∃ p : Word, ∃ i : Image, let answers := (s.svc.started = some 3 ∨ s.svcBusy = false); let may :
      Prop := (s.updState = 1 ∧ i.minPeer.toNat ≤ p.toNat ∧ i.minPeer.toNat ≤ (s.rd SVC_FWVER).toNat); answers ∧
      s.svc.staged = some i ∧ (¬may))
    ∧ (∃ s : State, s.deferred = true)
    ∧ (∃ s : State, s.deferred = false ∧ s.svc.reverting = false ∧ (s.svc.staged = none ∨ s.updState ≠ 2))
    ∧ (∃ s : State, ∃ i : Image, s.deferred = false ∧ s.svc.reverting = false ∧ s.svc.staged = some i ∧ s.updState = 2
      ∧ s.fld SVC_CFGSTAT SVC_CFGSTAT_FMT = i.cfgFmt.toNat)
    ∧ (∃ s : State, s.deferred = false ∧ s.svc.reverting = true)
    ∧ (∃ s : State, ∃ i : Image, s.svcBusy = false ∧ s.updState = 3 ∧ s.svc.verified = true ∧ s.svc.reverting = false
      ∧ s.svc.running = some i)
    ∧ (∃ s : State, s.svcBusy = false ∧ s.updState = 3 ∧ (s.svc.verified = false ∨ s.svc.reverting = true))
    ∧ (∃ s : State, s.svcBusy = false ∧ s.updState ≠ 3)
    ∧ (∃ s : State, s.svcBusy = false ∧ s.updState = 3 ∧ s.svc.reverting = true)
    ∧ (∃ s : State, s.svcBusy = false ∧ s.updState = 3 ∧ s.svc.reverting = false)
    ∧ (∃ s : State, s.updState = 3 ∧ s.fld SVC_CTRL SVC_CTRL_CONFTO ≠ 0)
    ∧ (∃ s : State, (s.updState ≠ 3 ∨ s.fld SVC_CTRL SVC_CTRL_CONFTO = 0)) :=
  ⟨⟨State.reset.setBit SVC_CMDSTAT SVC_CMDSTAT_BUSY true, by decide +kernel⟩,
   ⟨State.reset.setBit SVC_CMDSTAT SVC_CMDSTAT_BUSY true, by decide +kernel⟩,
   ⟨State.reset, by dsimp only; decide +kernel⟩,
   ⟨(held 1).wr SVC_FWVER 7, 7, img, by dsimp only; decide +kernel⟩,
   ⟨held 0, 0, img, by dsimp only; decide +kernel⟩,
   ⟨fov 4, by decide +kernel⟩,
   ⟨held 0, by decide +kernel⟩,
   ⟨(held 2).setFld SVC_CFGSTAT SVC_CFGSTAT_FMT 1, img, by decide +kernel⟩,
   ⟨(held 0).setSvc { (held 3).svc with reverting := true }, by decide +kernel⟩,
   ⟨(held 3).setSvc { (held 3).svc with verified := true }, img, by decide +kernel⟩,
   ⟨held 3, by decide +kernel⟩,
   ⟨State.reset, by decide +kernel⟩,
   ⟨(held 3).setSvc { (held 3).svc with reverting := true }, by decide +kernel⟩,
   ⟨held 3, by decide +kernel⟩,
   ⟨(upd 3).setFld SVC_CTRL SVC_CTRL_CONFTO 5, by decide +kernel⟩,
   ⟨State.reset, by decide +kernel⟩⟩

/-- States and operands that meet the hypotheses of ShadowFailure, clause by clause. -/
theorem witness_ShadowFailure :
    (∃ s : State, s.svc.reverting = false ∧ s.updState = 2)
    ∧ (∃ s : State, s.svc.reverting = false ∧ s.updState ≠ 2) :=
  ⟨⟨upd 2, by decide +kernel⟩,
   ⟨State.reset, by decide +kernel⟩⟩

/-- States and operands that meet the hypotheses of ConfigurationAndLifeCycle, clause by clause. -/
theorem witness_ConfigurationAndLifeCycle :
    (∃ s : State, ∃ op : BitVec 4, (op.toNat = 0 ∨ 8 < op.toNat) ∧ s.svcBusy = false)
    ∧ (∃ s : State, ∃ op : BitVec 4, (op.toNat = 0 ∨ 8 < op.toNat) ∧ s.svcBusy = true)
    ∧ (∃ s : State, ∃ ch : Nat, let ok : Prop := (hostOk s.svcAddr s.svcLen = true); let goes := (fun (op ch : Nat) =>
      ch < 48 ∧ ((s.svc.started = some op ∧ s.svcChannel = some ch) ∨ (s.svc.started ≠ some op ∧ s.svcBusy = false ∧
      ok ∧ s.channelIn (decide (s.svcLen ≤ 4096)) = some ch))); goes 6 ch ∧ s.updState = 3)
    ∧ (∃ s : State, ∃ b : Bank, ∃ i : Image, ∃ ch : Nat, let ok : Prop := (hostOk s.svcAddr s.svcLen = true); let goes
      := (fun (op ch : Nat) => ch < 48 ∧ ((s.svc.started = some op ∧ s.svcChannel = some ch) ∨ (s.svc.started ≠ some
      op ∧ s.svcBusy = false ∧ ok ∧ s.channelIn (decide (s.svcLen ≤ 4096)) = some ch))); goes 6 ch ∧ s.updState ≠ 3 ∧
      s.svc.running = some i ∧ s.bankOk b i.cfgRead.toNat i.cfgFmt.toNat = false)
    ∧ (∃ s : State, ∃ b : Bank, ∃ p : Bool, ∃ i : Image, ∃ ch : Nat, let ok : Prop := (hostOk s.svcAddr s.svcLen =
      true); let goes := (fun (op ch : Nat) => ch < 48 ∧ ((s.svc.started = some op ∧ s.svcChannel = some ch) ∨
      (s.svc.started ≠ some op ∧ s.svcBusy = false ∧ ok ∧ s.channelIn (decide (s.svcLen ≤ 4096)) = some ch))); goes 6
      ch ∧ s.updState ≠ 3 ∧ s.svc.running = some i ∧ s.bankOk b i.cfgRead.toNat i.cfgFmt.toNat = true ∧ p = true)
    ∧ (∃ s : State, ∃ b : Bank, ∃ p : Bool, ∃ i : Image, ∃ ch : Nat, let ok : Prop := (hostOk s.svcAddr s.svcLen =
      true); let goes := (fun (op ch : Nat) => ch < 48 ∧ ((s.svc.started = some op ∧ s.svcChannel = some ch) ∨
      (s.svc.started ≠ some op ∧ s.svcBusy = false ∧ ok ∧ s.channelIn (decide (s.svcLen ≤ 4096)) = some ch))); goes 6
      ch ∧ s.updState ≠ 3 ∧ s.svc.running = some i ∧ s.bankOk b i.cfgRead.toNat i.cfgFmt.toNat = true ∧ p = false)
    ∧ (∃ s : State, ∃ k : Token, ∃ ch : Nat, let ok : Prop := (hostOk s.svcAddr s.svcLen = true); let goes := (fun (op
      ch : Nat) => ch < 48 ∧ ((s.svc.started = some op ∧ s.svcChannel = some ch) ∨ (s.svc.started ≠ some op ∧
      s.svcBusy = false ∧ ok ∧ s.channelIn (decide (s.svcLen ≤ 4096)) = some ch))); let target := (s.arg % 8); goes 7
      ch ∧ s.tokenOk k 7 target = false)
    ∧ (∃ s : State, ∃ k : Token, ∃ ch : Nat, let ok : Prop := (hostOk s.svcAddr s.svcLen = true); let goes := (fun (op
      ch : Nat) => ch < 48 ∧ ((s.svc.started = some op ∧ s.svcChannel = some ch) ∨ (s.svc.started ≠ some op ∧
      s.svcBusy = false ∧ ok ∧ s.channelIn (decide (s.svcLen ≤ 4096)) = some ch))); let target := (s.arg % 8); goes 7
      ch ∧ s.tokenOk k 7 target = true ∧ (target ≤ s.lifeReached ∨ 4 < target))
    ∧ (∃ s : State, ∃ k : Token, ∃ m : Word, ∃ ms : Byte, ∃ ch : Nat, let ok : Prop := (hostOk s.svcAddr s.svcLen =
      true); let goes := (fun (op ch : Nat) => ch < 48 ∧ ((s.svc.started = some op ∧ s.svcChannel = some ch) ∨
      (s.svc.started ≠ some op ∧ s.svcBusy = false ∧ ok ∧ s.channelIn (decide (s.svcLen ≤ 4096)) = some ch))); let
      target := (s.arg % 8); let o := (s.otp.intend target m); goes 7 ch ∧ s.tokenOk k 7 target = true ∧ s.lifeReached
      < target ∧ target ≤ 4 ∧ Tbl.getD o.intents target 0 = intentWord s.otp.chipId target ∧ (o.program target
      ms).word = BitVec.ofNat 8 (lifeCode target))
    ∧ (∃ s : State, ∃ k : Token, ∃ m : Word, ∃ ch : Nat, let ok : Prop := (hostOk s.svcAddr s.svcLen = true); let goes
      := (fun (op ch : Nat) => ch < 48 ∧ ((s.svc.started = some op ∧ s.svcChannel = some ch) ∨ (s.svc.started ≠ some
      op ∧ s.svcBusy = false ∧ ok ∧ s.channelIn (decide (s.svcLen ≤ 4096)) = some ch))); let target := (s.arg % 8);
      let o := (s.otp.intend target m); goes 7 ch ∧ s.tokenOk k 7 target = true ∧ s.lifeReached < target ∧ target ≤ 4
      ∧ Tbl.getD o.intents target 0 ≠ intentWord s.otp.chipId target)
    ∧ (∃ s : State, ∃ k : Token, ∃ ch : Nat, let ok : Prop := (hostOk s.svcAddr s.svcLen = true); let goes := (fun (op
      ch : Nat) => ch < 48 ∧ ((s.svc.started = some op ∧ s.svcChannel = some ch) ∨ (s.svc.started ≠ some op ∧
      s.svcBusy = false ∧ ok ∧ s.channelIn (decide (s.svcLen ≤ 4096)) = some ch))); let slot := (s.arg % 4); goes 8 ch
      ∧ s.tokenOk k 8 slot = false)
    ∧ (∃ s : State, ∃ k : Token, ∃ ch : Nat, let ok : Prop := (hostOk s.svcAddr s.svcLen = true); let goes := (fun (op
      ch : Nat) => ch < 48 ∧ ((s.svc.started = some op ∧ s.svcChannel = some ch) ∨ (s.svc.started ≠ some op ∧
      s.svcBusy = false ∧ ok ∧ s.channelIn (decide (s.svcLen ≤ 4096)) = some ch))); let slot := (s.arg % 4); let
      others : Prop := (∃ j, j < 4 ∧ j ≠ slot ∧ s.keyValid j = true ∧ s.keyRevoked j = false); goes 8 ch ∧ s.tokenOk k
      8 slot = true ∧ (k.slot.toNat = slot ∨ ¬others))
    ∧ (∃ s : State, ∃ k : Token, ∃ ch : Nat, let ok : Prop := (hostOk s.svcAddr s.svcLen = true); let goes := (fun (op
      ch : Nat) => ch < 48 ∧ ((s.svc.started = some op ∧ s.svcChannel = some ch) ∨ (s.svc.started ≠ some op ∧
      s.svcBusy = false ∧ ok ∧ s.channelIn (decide (s.svcLen ≤ 4096)) = some ch))); let slot := (s.arg % 4); let
      others : Prop := (∃ j, j < 4 ∧ j ≠ slot ∧ s.keyValid j = true ∧ s.keyRevoked j = false); goes 8 ch ∧ s.tokenOk k
      8 slot = true ∧ k.slot.toNat ≠ slot ∧ others)
    ∧ (∃ s : State, s.starting = false)
    ∧ (∃ s : State, ∃ r : StartReport, s.starting = true ∧ ((s.readFlash r.board).bootImage.2 = none ∨ r.complete =
      false))
    ∧ (∃ s : State, ∃ r : StartReport, s.starting = true ∧ (s.readFlash r.board).bootImage.2 ≠ none ∧ r.complete =
      true) :=
  ⟨⟨State.reset, 0, by decide +kernel⟩,
   ⟨State.reset.setBit SVC_CMDSTAT SVC_CMDSTAT_BUSY true, 0, by decide +kernel⟩,
   ⟨upd 3, 0, by dsimp only; decide +kernel⟩,
   ⟨held 0, ⟨0, 1, 5, 0, 0, true, []⟩, img, 0, by dsimp only; decide +kernel⟩,
   ⟨held 0, ⟨0x43464742, 1, 5, 0, 0, true, []⟩, true, img, 0, by dsimp only; decide +kernel⟩,
   ⟨held 0, ⟨0x43464742, 1, 5, 64, 0, true, []⟩, false, img, 0, by dsimp only; decide +kernel⟩,
   ⟨upd 0, ⟨0, 7, 0, 0, false, true⟩, 0, by dsimp only; decide +kernel⟩,
   ⟨upd 0, ⟨0, 7, 0, 0, true, true⟩, 0, by dsimp only; decide +kernel⟩,
   ⟨(upd 0).wr SVC_ARG 2, ⟨0, 7, 2, 0, true, true⟩, 0, 0, 0, by dsimp only; decide +kernel⟩,
   ⟨(upd 0).wr SVC_ARG 2, ⟨0, 7, 2, 0, true, true⟩, 0xFFFFFFFF, 0, by dsimp only; decide +kernel⟩,
   ⟨upd 0, ⟨0, 8, 0, 0, false, true⟩, 0, by dsimp only; decide +kernel⟩,
   ⟨upd 0, ⟨0, 8, 0, 0, true, true⟩, 0, by dsimp only; decide +kernel⟩,
   ⟨((upd 0).wr SVC_ARG 0).setOtp { State.reset.otp with keyValid := 3 }, ⟨0, 8, 0, 1, true, true⟩, 0,
    by dsimp only; decide +kernel⟩,
   ⟨State.reset, by decide +kernel⟩,
   ⟨State.reset.setPwr { State.reset.pwr with porLow := false }, ⟨[], [], true, []⟩, by decide +kernel⟩,
   ⟨State.reset.setPwr { State.reset.pwr with porLow := false }, ⟨[], [], true, [(0, img)]⟩, by decide +kernel⟩⟩

/-- States and operands that meet the hypotheses of PlaneRotation, clause by clause. -/
theorem witness_PlaneRotation :
    (∃ s : State, (s.testPl = 31 ∨ s.testDone = true ∨ s.planes.rotation ≠ none))
    ∧ (∃ s : State, s.testPl ≠ 31 ∧ s.testDone = false ∧ s.planes.rotation = none ∧ s.planes.failing = [] ∧
      s.planes.force = false ∧ s.planes.due = false ∧ Tbl.find? s.bst.waits s.testPl = none)
    ∧ (∃ s : State, s.testPl ≠ 31 ∧ s.testDone = false ∧ s.planes.rotation = none ∧ Tbl.find? s.bst.waits s.testPl =
      none)
    ∧ (∃ s : State, let idle : Prop := (s.planes.rotation = none ∧ s.testPl ≠ 31); (s.bit XPT_CTRL XPT_CTRL_ROTEN =
      false ∨ ¬idle))
    ∧ (∃ s : State, let idle : Prop := (s.planes.rotation = none ∧ s.testPl ≠ 31); s.pwr.barred = false ∧ (¬idle))
    ∧ (∃ s : State, let idle : Prop := (s.planes.rotation = none ∧ s.testPl ≠ 31); idle ∧ s.testPassed = false ∧ s.bit
      XPT_CTRL XPT_CTRL_ROTEN = true)
    ∧ (∃ s : State, let idle : Prop := (s.planes.rotation = none ∧ s.testPl ≠ 31); idle ∧ s.testPassed = false ∧
      s.pwr.barred = false)
    ∧ (∃ s : State, ∃ o : Nat, ∃ p : Nat, let idle : Prop := (s.planes.rotation = none ∧ s.testPl ≠ 31); idle ∧
      s.testPassed = true ∧ s.nextPlane = some o ∧ s.positionOf o = some p ∧ s.bit XPT_CTRL XPT_CTRL_ROTEN = true)
    ∧ (∃ s : State, ∃ o : Nat, ∃ p : Nat, let idle : Prop := (s.planes.rotation = none ∧ s.testPl ≠ 31); idle ∧
      s.testPassed = true ∧ s.nextPlane = some o ∧ s.positionOf o = some p ∧ s.pwr.barred = false)
    ∧ (∃ s : State, s.planes.rotation = none)
    ∧ (∃ s : State, ∃ r : Rotation, s.planes.rotation = some r ∧ r.stage ≠ 0)
    ∧ (∃ s : State, ∃ r : Rotation, s.planes.rotation = some r ∧ r.stage ≠ 1)
    ∧ (∃ s : State, ∃ r : Rotation, s.planes.rotation = some r ∧ r.stage ≠ 2)
    ∧ (∃ s : State, ∃ r : Rotation, s.planes.rotation = some r ∧ r.stage = 0)
    ∧ (∃ s : State, ∃ r : Rotation, s.planes.rotation = some r ∧ r.stage = 1 ∧ r.incoming < 32)
    ∧ (∃ s : State, ∃ r : Rotation, s.planes.rotation = some r ∧ r.stage = 2 ∧ r.out < 17 ∧ s.planes.failing = [])
    ∧ (∃ s : State, ∃ p : BitVec 5, let bad : Prop := (16 < p.toNat ∨ s.retired p.toNat = true ∨ s.healthy ≤ 14);
      s.pwr.barred = false ∧ bad)
    ∧ (∃ s : State, ∃ p : BitVec 5, let bad : Prop := (16 < p.toNat ∨ s.retired p.toNat = true ∨ s.healthy ≤ 14);
      s.pwr.barred = false ∧ (¬bad))
    ∧ (∃ s : State, s.pwr.barred = false) :=
  ⟨⟨rotating 0, by decide +kernel⟩,
   ⟨State.reset, by decide +kernel⟩,
   ⟨State.reset, by decide +kernel⟩,
   ⟨rotating 0, by dsimp only; decide +kernel⟩,
   ⟨rotating 0, by dsimp only; decide +kernel⟩,
   ⟨State.reset, by dsimp only; decide +kernel⟩,
   ⟨State.reset, by dsimp only; decide +kernel⟩,
   ⟨(((State.reset.setFld XPT_PLANE_STAT XPT_PLANE_STAT_TESTPL 16).setBit XPT_PLANE_STAT XPT_PLANE_STAT_TESTDONE true).setBit XPT_PLANE_STAT XPT_PLANE_STAT_TESTPASS true).setBit XPT_CTRL XPT_CTRL_ROTEN true,
    0, 0, by dsimp only; decide +kernel⟩,
   ⟨(((State.reset.setFld XPT_PLANE_STAT XPT_PLANE_STAT_TESTPL 16).setBit XPT_PLANE_STAT XPT_PLANE_STAT_TESTDONE true).setBit XPT_PLANE_STAT XPT_PLANE_STAT_TESTPASS true).setBit XPT_CTRL XPT_CTRL_ROTEN true,
    0, 0, by dsimp only; decide +kernel⟩,
   ⟨State.reset, by decide +kernel⟩,
   ⟨rotating 1, ⟨0, 0, 16, 1, false⟩, by decide +kernel⟩,
   ⟨rotating 0, ⟨0, 0, 16, 0, false⟩, by decide +kernel⟩,
   ⟨rotating 0, ⟨0, 0, 16, 0, false⟩, by decide +kernel⟩,
   ⟨rotating 0, ⟨0, 0, 16, 0, false⟩, by decide +kernel⟩,
   ⟨rotating 1, ⟨0, 0, 16, 1, false⟩, by decide +kernel⟩,
   ⟨rotating 2, ⟨0, 0, 16, 2, false⟩, by decide +kernel⟩,
   ⟨State.reset, 17, by dsimp only; decide +kernel⟩,
   ⟨State.reset, 0, by dsimp only; decide +kernel⟩,
   ⟨State.reset, by decide +kernel⟩⟩

/-- States and operands that meet the hypotheses of TimeBaseCommands, clause by clause. -/
theorem witness_TimeBaseCommands :
    (∃ b : Tb, ∃ s : State, s.pwr.barred = false ∧ 2 ≤ s.tbMode b.val)
    ∧ (∃ b : Tb, ∃ s : State, s.pwr.barred = false ∧ s.tbMode b.val < 2)
    ∧ (∃ s : State, s.pwr.barred = false)
    ∧ (∃ b : Tb, ∃ s : State, let other := (!s.inUse b.val); let may : Prop := (s.tbMode b.val = 2 ∧ s.domQual b.val
      other = true ∧ (other = false ∨ s.bit (TIM_TB_CTRL b.val) TIM_TB_CTRL_DOMBEN = true)); s.pwr.barred = false ∧
      (¬may))
    ∧ (∃ b : Tb, ∃ s : State, let other := (!s.inUse b.val); let may : Prop := (s.tbMode b.val = 2 ∧ s.domQual b.val
      other = true ∧ (other = false ∨ s.bit (TIM_TB_CTRL b.val) TIM_TB_CTRL_DOMBEN = true)); s.pwr.barred = false ∧
      may)
    ∧ (∃ b : Tb, ∃ s : State, let stat := (TIM_TB_STAT b.val); let slewing := (s.bit stat TIM_TB_STAT_SLEWING);
      slewing = true ∧ (s.base b.val).adj.natAbs < 4294967296000000)
    ∧ (∃ b : Tb, ∃ s : State, let stat := (TIM_TB_STAT b.val); let slewing := (s.bit stat TIM_TB_STAT_SLEWING);
      (slewing = false ∨ 4294967296000000 ≤ (s.base b.val).adj.natAbs))
    ∧ (∃ s : State, ∃ n : Node, (s.linkTo n.val).isSome = true)
    ∧ (∃ s : State, ∃ n : Node, s.linkTo n.val = none)
    ∧ (∃ s : State, let live : Prop := (s.fld PWR_STAT PWR_STAT_STATE ≠ 2); (¬live))
    ∧ (∃ s : State, ∃ p : Port, let live : Prop := (s.fld PWR_STAT PWR_STAT_STATE ≠ 2); live ∧ s.portUp p.val = false)
    ∧ (∃ s : State, ∃ p : Port, let live : Prop := (s.fld PWR_STAT PWR_STAT_STATE ≠ 2); live ∧ s.portUp p.val = true)
    ∧ (∃ s : State, ∃ p : Port, let live : Prop := (s.fld PWR_STAT PWR_STAT_STATE ≠ 2); let port := (s.port p.val);
      live ∧ s.portUp p.val = true ∧ port.tx = none ∧ port.queue = []) :=
  ⟨⟨0, tb 2 0, by decide +kernel⟩,
   ⟨0, State.reset, by decide +kernel⟩,
   ⟨State.reset, by decide +kernel⟩,
   ⟨0, State.reset, by dsimp only; decide +kernel⟩,
   ⟨0, ((tb 2 2).setBit (TIM_TB_STAT 0) TIM_TB_STAT_QUALA true).setBit (TIM_TB_STAT 0) TIM_TB_STAT_INUSE true,
    by dsimp only; decide +kernel⟩,
   ⟨0, State.reset.setBit (TIM_TB_STAT 0) TIM_TB_STAT_SLEWING true, by decide +kernel⟩,
   ⟨0, State.reset, by decide +kernel⟩,
   ⟨peered, 1, by decide +kernel⟩,
   ⟨State.reset, 1, by decide +kernel⟩,
   ⟨pwr 2, by dsimp only; decide +kernel⟩,
   ⟨State.reset, 0, by dsimp only; decide +kernel⟩,
   ⟨(mp 1 1).setFld PWR_STAT PWR_STAT_STATE 0, 0, by dsimp only; decide +kernel⟩,
   ⟨(mp 1 1).setFld PWR_STAT PWR_STAT_STATE 0, 0, by dsimp only; decide +kernel⟩⟩

/-- States and operands that meet the hypotheses of TimeBaseFollowing, clause by clause. -/
theorem witness_TimeBaseFollowing :
    (∃ b : Tb, ∃ s : State, ∃ v : Word, s.pwr.barred = false ∧ TIM_TB_CTRL_MODE.get v = s.tbMode b.val ∧ s.tbMode
      b.val ≠ 3)
    ∧ (∃ b : Tb, ∃ s : State, ∃ v : Word, s.pwr.barred = false ∧ s.tbMode b.val = 0 ∧ TIM_TB_CTRL_MODE.get v = 1)
    ∧ (∃ b : Tb, ∃ s : State, ∃ d : Bool, let ctrl := (TIM_TB_CTRL b.val); let domben := (s.bit ctrl
      TIM_TB_CTRL_DOMBEN); (s.tbMode b.val ≠ 2 ∨ (d = true ∧ domben = false)))
    ∧ (∃ b : Tb, ∃ s : State, let ctrl := (TIM_TB_CTRL b.val); let domben := (s.bit ctrl TIM_TB_CTRL_DOMBEN); let live
      : Prop := (s.inUse b.val = false ∧ (s.tbState b.val = 2 ∨ s.tbState b.val = 3)); s.tbMode b.val = 2 ∧ domben =
      false ∧ (¬live))
    ∧ (∃ b : Tb, ∃ s : State, ∃ off : Int, let ctrl := (TIM_TB_CTRL b.val); let small := (fun (off : Int) =>
      off.natAbs ≤ 1000 * s.fld (TIM_TB_SLEW b.val) TIM_TB_SLEW_STEPTHR); let domben := (s.bit ctrl
      TIM_TB_CTRL_DOMBEN); let live : Prop := (s.inUse b.val = false ∧ (s.tbState b.val = 2 ∨ s.tbState b.val = 3));
      s.tbMode b.val = 2 ∧ domben = false ∧ live ∧ small off)
    ∧ (∃ b : Tb, ∃ s : State, ∃ la : Bool, ∃ lb : Bool, (s.tbMode b.val ≠ 2 ∨ ((la && s.domQual b.val false) = false ∧
      (lb && s.domQual b.val true) = false)))
    ∧ (∃ b : Tb, ∃ s : State, s.tbMode b.val = 2 ∧ s.domQual b.val true = true)
    ∧ (∃ b : Tb, ∃ s : State, ∃ d : Bool, let ctrl := (TIM_TB_CTRL b.val); let domben := (s.bit ctrl
      TIM_TB_CTRL_DOMBEN); s.tbMode b.val = 2 ∧ (d = false ∨ domben = true) ∧ s.tbState b.val ≠ 4)
    ∧ (∃ b : Tb, ∃ s : State, ∃ d : Bool, let ctrl := (TIM_TB_CTRL b.val); let domben := (s.bit ctrl
      TIM_TB_CTRL_DOMBEN); s.tbMode b.val = 2 ∧ (d = false ∨ domben = true) ∧ s.tbState b.val = 4)
    ∧ (∃ b : Tb, ∃ s : State, let ctrl := (TIM_TB_CTRL b.val); let back : Prop := (s.tbMode b.val = 2 ∧ s.bit ctrl
      TIM_TB_CTRL_REVERT = true ∧ s.inUse b.val = true ∧ s.domQual b.val false = true ∧ (s.base b.val).agreed = true);
      (¬back))
    ∧ (∃ b : Tb, ∃ s : State, let ctrl := (TIM_TB_CTRL b.val); let back : Prop := (s.tbMode b.val = 2 ∧ s.bit ctrl
      TIM_TB_CTRL_REVERT = true ∧ s.inUse b.val = true ∧ s.domQual b.val false = true ∧ (s.base b.val).agreed = true);
      back)
    ∧ (∃ b : Tb, ∃ s : State, s.tbMode b.val ≠ 3)
    ∧ (∃ b : Tb, ∃ s : State, ∃ m : BitVec 2, let ctrl := (TIM_TB_CTRL b.val); let src := (s.fld ctrl
      TIM_TB_CTRL_SRCNODE); let loop : Prop := (src = s.ownNode ∨ m.toNat = 0 ∨ m.toNat = 3); s.tbMode b.val = 3 ∧
      loop ∧ s.tbState b.val = 4)
    ∧ (∃ b : Tb, ∃ s : State, ∃ m : BitVec 2, ∃ off : Int, let ctrl := (TIM_TB_CTRL b.val); let small := (fun (off :
      Int) => off.natAbs ≤ 1000 * s.fld (TIM_TB_SLEW b.val) TIM_TB_SLEW_STEPTHR); let src := (s.fld ctrl
      TIM_TB_CTRL_SRCNODE); let loop : Prop := (src = s.ownNode ∨ m.toNat = 0 ∨ m.toNat = 3); s.tbMode b.val = 3 ∧
      (¬loop) ∧ (s.linkTo src).isSome = true ∧ small off)
    ∧ (∃ b : Tb, ∃ s : State, (s.tbMode b.val ≠ 3 ∨ (s.tbState b.val ≠ 2 ∧ s.tbState b.val ≠ 3)))
    ∧ (∃ b : Tb, ∃ s : State, s.tbMode b.val = 3 ∧ (s.tbState b.val = 2 ∨ s.tbState b.val = 3)) :=
  ⟨⟨0, State.reset, 0, by decide +kernel⟩,
   ⟨0, tb 0 0, 1, by decide +kernel⟩,
   ⟨0, State.reset, true, by decide +kernel⟩,
   ⟨0, (tb 2 1).setBit (TIM_TB_STAT 0) TIM_TB_STAT_QUALB true, by dsimp only; decide +kernel⟩,
   ⟨0, tb 2 2, 0, by dsimp only; decide +kernel⟩,
   ⟨0, State.reset, true, true, by decide +kernel⟩,
   ⟨0, (tb 2 1).setBit (TIM_TB_STAT 0) TIM_TB_STAT_QUALB true, by decide +kernel⟩,
   ⟨0, tb 2 1, false, by decide +kernel⟩,
   ⟨0, tb 2 4, false, by decide +kernel⟩,
   ⟨0, State.reset, by dsimp only; decide +kernel⟩,
   ⟨0,
    (((tb 2 2).setBit (TIM_TB_CTRL 0) TIM_TB_CTRL_REVERT true).setBit (TIM_TB_STAT 0) TIM_TB_STAT_INUSE true |>.setBit (TIM_TB_STAT 0) TIM_TB_STAT_QUALA true).setBase 0 { TimeBase.start with agreed := true },
    by dsimp only; decide +kernel⟩,
   ⟨0, State.reset, by decide +kernel⟩,
   ⟨0, tb 3 4, 0, by dsimp only; decide +kernel⟩,
   ⟨0,
    ((peered.setFld (TIM_TB_CTRL 0) TIM_TB_CTRL_MODE 3).setFld (TIM_TB_STAT 0) TIM_TB_STAT_STATE 2).setFld (TIM_TB_CTRL 0) TIM_TB_CTRL_SRCNODE 1,
    1, 0, by dsimp only; decide +kernel⟩,
   ⟨0, State.reset, by decide +kernel⟩,
   ⟨0, tb 3 2, by decide +kernel⟩⟩

/-- States and operands that meet the hypotheses of PulseOutputs, clause by clause. -/
theorem witness_PulseOutputs :
    (∃ k : Tpo, ∃ s : State, s.pulseDue k.val = false)
    ∧ (∃ k : Tpo, ∃ s : State, ∃ a : Arming, let x := (s.tpo k.val); x.arming = some a ∧ x.pulse = none ∧ a.next ≤
      s.fullTime a.tb)
    ∧ (∃ k : Tpo, ∃ s : State, ∃ a : Arming, let x := (s.tpo k.val); x.arming = some a ∧ x.pulse = none ∧ a.next ≤
      s.fullTime a.tb ∧ (∀ c : HostCh, s.reqsel (48 + c.val) ≠ 3 + k.val))
    ∧ (∃ k : Tpo, ∃ s : State, let x := (s.tpo k.val); x.pulse = none)
    ∧ (∃ k : Tpo, ∃ s : State, ∃ tb : Nat, ∃ stop : Nat, let x := (s.tpo k.val); x.pulse = some (tb, stop) ∧
      s.fullTime tb < stop)
    ∧ (∃ k : Tpo, ∃ s : State, ∃ tb : Nat, ∃ stop : Nat, ∃ id : Nat, ∃ a : Arming, let x := (s.tpo k.val); x.pulse =
      some (tb, stop) ∧ stop ≤ s.fullTime tb ∧ x.arming = some a ∧ a.periodic = false ∧ a.cmd = some id ∧ x.next =
      none)
    ∧ (∃ k : Tpo, ∃ s : State, ∃ tb : Nat, ∃ stop : Nat, ∃ a : Arming, let x := (s.tpo k.val); x.pulse = some (tb,
      stop) ∧ stop ≤ s.fullTime tb ∧ x.arming = some a ∧ a.periodic = true ∧ a.cmd = none ∧ x.next = none)
    ∧ (∃ k : Tpo, ∃ s : State, ∃ tb : Nat, ∃ stop : Nat, ∃ a : Arming, ∃ q : Option Arming, let x := (s.tpo k.val);
      x.pulse = some (tb, stop) ∧ stop ≤ s.fullTime tb ∧ x.arming = some a ∧ a.cmd = none ∧ x.next = some q) :=
  ⟨⟨0, State.reset, by decide +kernel⟩,
   ⟨0, pulsed (oneShot 0) none, oneShot 0, by decide +kernel⟩,
   ⟨0, pulsed (oneShot 0) none, oneShot 0, by decide +kernel⟩,
   ⟨0, State.reset, by decide +kernel⟩,
   ⟨0, pulsed (oneShot 0) (some (0, 100)), 0, 100, by decide +kernel⟩,
   ⟨0, pulsed { oneShot 0 with cmd := some 3 } (some (0, 0)), 0, 0, 3, { oneShot 0 with cmd := some 3 },
    by decide +kernel⟩,
   ⟨0, pulsed (every 0) (some (0, 0)), 0, 0, every 0, by decide +kernel⟩,
   ⟨0, State.reset.setTpo 0 ⟨some (every 0), some (0, 0), some none⟩, 0, 0, every 0, none, by decide +kernel⟩⟩

/-- States and operands that meet the hypotheses of MediaLaneSignals, clause by clause. -/
theorem witness_MediaLaneSignals :
    (∃ n : Lane, ∃ s : State, let los := (s.statBit n.val ML_STAT_LOS); (los = true ∨ s.laneRx n.val = false))
    ∧ (∃ n : Lane, ∃ s : State, let lock := (s.statBit n.val ML_STAT_LOCK); let los := (s.statBit n.val ML_STAT_LOS);
      los = false ∧ s.laneRx n.val = true ∧ lock = false ∧ s.bondAt n.val = 0)
    ∧ (∃ n : Lane, ∃ s : State, let los := (s.statBit n.val ML_STAT_LOS); los = true ∧ s.laneRx n.val = true ∧ s.fld
      (ML_RXCFG n.val) ML_RXCFG_ADAPT = 0)
    ∧ (∃ n : Lane, ∃ s : State, let los := (s.statBit n.val ML_STAT_LOS); los = true ∧ s.laneRx n.val = true ∧ s.fld
      (ML_RXCFG n.val) ML_RXCFG_ADAPT ≠ 0)
    ∧ (∃ n : Lane, ∃ s : State, let los := (s.statBit n.val ML_STAT_LOS); (los = false ∨ s.laneRx n.val = false))
    ∧ (∃ n : Lane, ∃ s : State, ∃ r : Fin 12, let los := (s.statBit n.val ML_STAT_LOS); let may := (s.laneRx n.val &&
      !los && s.pllUp n.val && rateAllowed (s.laneMode n.val) (s.fld (ML_CTRL (s.bondFirst n.val)) ML_CTRL_RXRATE)
      r.val); may = true)
    ∧ (∃ n : Lane, ∃ s : State, ∃ r : Fin 12, let los := (s.statBit n.val ML_STAT_LOS); let may := (s.laneRx n.val &&
      !los && s.pllUp n.val && rateAllowed (s.laneMode n.val) (s.fld (ML_CTRL (s.bondFirst n.val)) ML_CTRL_RXRATE)
      r.val); may = false)
    ∧ (∃ n : Lane, ∃ s : State, let lock := (s.statBit n.val ML_STAT_LOCK); let hold := (s.statBit n.val
      ML_STAT_HOLD); let sdi : Prop := (s.laneMode n.val = 1); sdi ∧ lock = true ∧ hold = false)
    ∧ (∃ n : Lane, ∃ s : State, let lock := (s.statBit n.val ML_STAT_LOCK); let hold := (s.statBit n.val
      ML_STAT_HOLD); let sdi : Prop := (s.laneMode n.val = 1); (¬sdi ∨ lock = false ∨ hold = true))
    ∧ (∃ n : Lane, ∃ s : State, ∃ c : LockLoss, let lock := (s.statBit n.val ML_STAT_LOCK); let hold := (s.statBit
      n.val ML_STAT_HOLD); let sdi : Prop := (s.laneMode n.val = 1); ((lock = false ∧ hold = false) ∨ (¬sdi ∧ c ≠
      .cdr)))
    ∧ (∃ n : Lane, ∃ s : State, let lock := (s.statBit n.val ML_STAT_LOCK); let sdi : Prop := (s.laneMode n.val = 1);
      (¬sdi) ∧ lock = true)
    ∧ (∃ n : Lane, ∃ s : State, let hold := (s.statBit n.val ML_STAT_HOLD); let sdi : Prop := (s.laneMode n.val = 1);
      sdi ∧ hold = true)
    ∧ (∃ n : Lane, ∃ s : State, ∃ c : LockLoss, let lock := (s.statBit n.val ML_STAT_LOCK); let hold := (s.statBit
      n.val ML_STAT_HOLD); let sdi : Prop := (s.laneMode n.val = 1); (c = .cdr ∨ c = .eav) ∧ sdi ∧ lock = true ∧ hold
      = false ∧ s.statBit n.val ML_STAT_FRAMED = true ∧ s.bondAt n.val = 0 ∧ s.fld MLN_CTRL MLN_CTRL_LOLHOLD ≠ 0)
    ∧ (∃ n : Lane, ∃ s : State, let hold := (s.statBit n.val ML_STAT_HOLD); hold = false)
    ∧ (∃ n : Lane, ∃ s : State, let hold := (s.statBit n.val ML_STAT_HOLD); hold = true)
    ∧ (∃ n : Lane, ∃ s : State, let hold := (s.statBit n.val ML_STAT_HOLD); let los := (s.statBit n.val ML_STAT_LOS);
      hold = true ∧ los = false ∧ (s.lane n.val).byLos = true)
    ∧ (∃ n : Lane, ∃ s : State, let hold := (s.statBit n.val ML_STAT_HOLD); let los := (s.statBit n.val ML_STAT_LOS);
      hold = true ∧ los = false ∧ (s.lane n.val).byLos = false)
    ∧ (∃ n : Lane, ∃ s : State, let st := (ML_STAT n.val); let lock := (s.statBit n.val ML_STAT_LOCK); let sdi : Prop
      := (s.laneMode n.val = 1); sdi ∧ lock = true ∧ 2 ≤ s.fld st ML_STAT_RATE)
    ∧ (∃ n : Lane, ∃ s : State, let st := (ML_STAT n.val); let lock := (s.statBit n.val ML_STAT_LOCK); let sdi : Prop
      := (s.laneMode n.val = 1); (¬sdi ∨ lock = false ∨ s.fld st ML_STAT_RATE < 2))
    ∧ (∃ p : Bool, ∃ a : Bool, (p = false ∨ a = true))
    ∧ (∃ n : Lane, ∃ s : State, let st := (ML_STAT n.val); let lock := (s.statBit n.val ML_STAT_LOCK); let sdi : Prop
      := (s.laneMode n.val = 1); sdi ∧ lock = true ∧ s.fld st ML_STAT_RATE = 1)
    ∧ (∃ n : Lane, ∃ s : State, let lock := (s.statBit n.val ML_STAT_LOCK); let sdi : Prop := (s.laneMode n.val = 1);
      (¬sdi ∨ lock = false))
    ∧ (∃ n : Lane, ∃ s : State, let lock := (s.statBit n.val ML_STAT_LOCK); let sdi : Prop := (s.laneMode n.val = 1);
      sdi ∧ lock = true ∧ s.fld (ML_RXCFG n.val) ML_RXCFG_ADAPT = 2)
    ∧ (∃ n : Lane, ∃ s : State, let st := (ML_STAT n.val); let lock := (s.statBit n.val ML_STAT_LOCK); let sdi : Prop
      := (s.laneMode n.val = 1); let ends : Prop := (s.fld st ML_STAT_EQVAL = 0 ∨ s.fld st ML_STAT_EQVAL = 48); sdi ∧
      lock = true ∧ s.fld (ML_RXCFG n.val) ML_RXCFG_ADAPT ≠ 2 ∧ ends)
    ∧ (∃ n : Lane, ∃ s : State, let st := (ML_STAT n.val); let lock := (s.statBit n.val ML_STAT_LOCK); let sdi : Prop
      := (s.laneMode n.val = 1); let ends : Prop := (s.fld st ML_STAT_EQVAL = 0 ∨ s.fld st ML_STAT_EQVAL = 48); sdi ∧
      lock = true ∧ s.fld (ML_RXCFG n.val) ML_RXCFG_ADAPT ≠ 2 ∧ (¬ends))
    ∧ (∃ s : State, ∃ g : Fin 16, let up := (s.bit MLN_GRPSTAT ⟨g.val, 1⟩); up = false)
    ∧ (∃ s : State, ∃ g : Fin 16, let up := (s.bit MLN_GRPSTAT ⟨g.val, 1⟩); up = true)
    ∧ (∃ s : State, ∃ g : Fin 16, s.bit PWR_DOMSTAT ⟨g.val, 1⟩ = false)
    ∧ (∃ s : State, ∃ g : Fin 16, s.bit PWR_DOMSTAT ⟨g.val, 1⟩ = true)
    ∧ (∃ s : State, s.pwr.barred = false) :=
  ⟨⟨1, State.reset, by decide +kernel⟩,
   ⟨1, ml 9 0, by decide +kernel⟩,
   ⟨1, (ml 9 1).wr (ML_RXCFG 1) 0, by decide +kernel⟩,
   ⟨1, (ml 9 1).wr (ML_RXCFG 1) 0x40, by decide +kernel⟩,
   ⟨1, ml 9 0, by decide +kernel⟩,
   ⟨1, (ml 9 0).wr MLN_GRPSTAT 1, 1, by decide +kernel⟩,
   ⟨1, State.reset, 0, by decide +kernel⟩,
   ⟨1, ml 9 2, by dsimp only; decide +kernel⟩,
   ⟨1, State.reset, by dsimp only; decide +kernel⟩,
   ⟨1, State.reset, .cdr, by dsimp only; decide +kernel⟩,
   ⟨1, ml 0x0A 2, by dsimp only; decide +kernel⟩,
   ⟨1, ml 9 0x80, by dsimp only; decide +kernel⟩,
   ⟨1, ml 9 6, .cdr, by dsimp only; decide +kernel⟩,
   ⟨1, State.reset, by decide +kernel⟩,
   ⟨1, ml 9 0x80, by decide +kernel⟩,
   ⟨1, (ml 9 0x80).setLane 1 { (ml 9 0).lane 1 with byLos := true }, by decide +kernel⟩,
   ⟨1, ml 9 0x80, by decide +kernel⟩,
   ⟨1, ml 9 0x202, by dsimp only; decide +kernel⟩,
   ⟨1, State.reset, by dsimp only; decide +kernel⟩,
   ⟨true, true, by decide +kernel⟩,
   ⟨1, ml 9 0x102, by dsimp only; decide +kernel⟩,
   ⟨1, State.reset, by dsimp only; decide +kernel⟩,
   ⟨1, (ml 9 2).setFld (ML_RXCFG 1) ML_RXCFG_ADAPT 2, by dsimp only; decide +kernel⟩,
   ⟨1, ml 9 2, by dsimp only; decide +kernel⟩,
   ⟨1, ml 9 0x5002, by dsimp only; decide +kernel⟩,
   ⟨State.reset, 0, by decide +kernel⟩,
   ⟨State.reset.wr MLN_GRPSTAT 1, 0, by decide +kernel⟩,
   ⟨ml 9 258, 0, by decide +kernel⟩,
   ⟨State.reset.setBit PWR_DOMSTAT ⟨0, 1⟩ true, 0, by decide +kernel⟩,
   ⟨State.reset, by decide +kernel⟩⟩

/-- States and operands that meet the hypotheses of MediaLaneConfiguration, clause by clause. -/
theorem witness_MediaLaneConfiguration :
    (∃ n : Lane, ∃ s : State, ∃ v : Word, s.pwr.barred = false ∧ s.laneRefuses n.val v = true)
    ∧ (∃ n : Lane, ∃ s : State, ∃ v : Word, s.pwr.barred = false ∧ s.laneRefuses n.val v = false)
    ∧ (∃ n : Lane, ∃ s : State, ∃ v : Word, let own : Prop := (s.bondFirst n.val = n.val); let mode :=
      (ML_CTRL_MODE.get v); s.pwr.barred = false ∧ s.laneRefuses n.val v = false ∧ own ∧ s.bondAt n.val = 0 ∧
      ML_CTRL_BOND.get v = s.fld (ML_CTRL n.val) ML_CTRL_BOND ∧ s.statBit n.val ML_STAT_PARTNER = false ∧ mode = s.fld
      (ML_CTRL n.val) ML_CTRL_MODE ∧ ML_CTRL_RXEN.get v = s.fld (ML_CTRL n.val) ML_CTRL_RXEN ∧ s.statBit n.val
      ML_STAT_LOCK = false)
    ∧ (∃ n : Lane, ∃ s : State, ∃ v : Word, let own : Prop := (s.bondFirst n.val = n.val); let mode :=
      (ML_CTRL_MODE.get v); s.pwr.barred = false ∧ s.laneRefuses n.val v = false ∧ own ∧ s.bondAt n.val = 0 ∧
      ML_CTRL_BOND.get v = s.fld (ML_CTRL n.val) ML_CTRL_BOND ∧ s.statBit n.val ML_STAT_PARTNER = false ∧ mode = 1 ∧
      s.fld (ML_CTRL n.val) ML_CTRL_MODE = 0)
    ∧ (∃ n : Lane, ∃ s : State, ∃ v : Word, let own : Prop := (s.bondFirst n.val = n.val); let f := (highFmt v.toNat);
      s.pwr.barred = false ∧ (¬own) ∧ (f.none = true ∨ f.valid = true))
    ∧ (∃ n : Lane, ∃ s : State, ∃ v : Word, let own : Prop := (s.bondFirst n.val = n.val); let f := (highFmt v.toNat);
      s.pwr.barred = false ∧ (¬own) ∧ f.none = false ∧ f.valid = false)
    ∧ (∃ n : Lane, ∃ s : State, ∃ v : Word, let own : Prop := (s.bondFirst n.val = n.val); s.pwr.barred = false ∧ own
      ∧ s.txfmtRefuses n.val v = true)
    ∧ (∃ n : Lane, ∃ s : State, ∃ v : Word, let own : Prop := (s.bondFirst n.val = n.val); let sdi : Prop :=
      (s.laneMode n.val = 1); let old := (s.fld (ML_TXFMT n.val) ⟨0, 32⟩); let sends := (sdi ∧ s.laneTx n.val = true ∧
      old % 256 ≠ 0); s.pwr.barred = false ∧ own ∧ s.txfmtRefuses n.val v = false ∧ (¬sends))
    ∧ (∃ n : Lane, ∃ s : State, ∃ v : Word, let own : Prop := (s.bondFirst n.val = n.val); let sdi : Prop :=
      (s.laneMode n.val = 1); let old := (s.fld (ML_TXFMT n.val) ⟨0, 32⟩); let sends := (sdi ∧ s.laneTx n.val = true ∧
      old % 256 ≠ 0); s.pwr.barred = false ∧ own ∧ s.txfmtRefuses n.val v = false ∧ sends)
    ∧ (∃ n : Lane, ∃ s : State, let own : Prop := (s.bondFirst n.val = n.val); let sdi : Prop := (s.laneMode n.val =
      1); let framed := (s.statBit n.val ML_STAT_FRAMED); (¬own ∨ ¬sdi ∨ framed = false))
    ∧ (∃ n : Lane, ∃ s : State, let own : Prop := (s.bondFirst n.val = n.val); let sdi : Prop := (s.laneMode n.val =
      1); let framed := (s.statBit n.val ML_STAT_FRAMED); own ∧ sdi ∧ framed = true)
    ∧ (∃ n : Lane, ∃ s : State, let sdi : Prop := (s.laneMode n.val = 1); let framed := (s.statBit n.val
      ML_STAT_FRAMED); (¬sdi ∨ framed = false))
    ∧ (∃ n : Lane, ∃ s : State, let own : Prop := (s.bondFirst n.val = n.val); let sdi : Prop := (s.laneMode n.val =
      1); let framed := (s.statBit n.val ML_STAT_FRAMED); sdi ∧ framed = true ∧ own ∧ 1 ≤ (s.lane n.val).okRun)
    ∧ (∃ n : Lane, ∃ s : State, let own : Prop := (s.bondFirst n.val = n.val); let sdi : Prop := (s.laneMode n.val =
      1); let framed := (s.statBit n.val ML_STAT_FRAMED); sdi ∧ framed = true ∧ (¬own))
    ∧ (∃ n : Lane, ∃ s : State, let sdi : Prop := (s.laneMode n.val = 1); let framed := (s.statBit n.val
      ML_STAT_FRAMED); sdi ∧ framed = true)
    ∧ (∃ n : Lane, ∃ s : State, let own : Prop := (s.bondFirst n.val = n.val); let sdi : Prop := (s.laneMode n.val =
      1); let framed := (s.statBit n.val ML_STAT_FRAMED); sdi ∧ framed = true ∧ own ∧ 1 ≤ (s.lane n.val).noneRun)
    ∧ (∃ n : Lane, ∃ s : State, let own : Prop := (s.bondFirst n.val = n.val); (¬own ∨ s.bondAt n.val = 0))
    ∧ (∃ n : Lane, ∃ s : State, ∃ ns : BitVec 9, let own : Prop := (s.bondFirst n.val = n.val); own ∧ s.bondAt n.val ≠
      0 ∧ ns.toNat ≤ 400)
    ∧ (∃ n : Lane, ∃ s : State, ∃ ns : BitVec 9, let own : Prop := (s.bondFirst n.val = n.val); own ∧ s.bondAt n.val ≠
      0 ∧ 400 < ns.toNat)
    ∧ (∃ n : Lane, ∃ s : State, let own : Prop := (s.bondFirst n.val = n.val); let sdi : Prop := (s.laneMode n.val =
      1); (¬own ∨ ¬sdi))
    ∧ (∃ n : Lane, ∃ s : State, let own : Prop := (s.bondFirst n.val = n.val); let sdi : Prop := (s.laneMode n.val =
      1); let may : Prop := (s.laneTx n.val = true ∧ ((s.route? (4 * n.val)).isSome = true ∨ (s.laneFmt n.val).none =
      false) ∧ s.powerActive = true ∧ s.safe = false); own ∧ sdi ∧ (¬may))
    ∧ (∃ n : Lane, ∃ s : State, let own : Prop := (s.bondFirst n.val = n.val); let sdi : Prop := (s.laneMode n.val =
      1); let may : Prop := (s.laneTx n.val = true ∧ ((s.route? (4 * n.val)).isSome = true ∨ (s.laneFmt n.val).none =
      false) ∧ s.powerActive = true ∧ s.safe = false); own ∧ sdi ∧ may ∧ s.pllUp n.val = true ∧ Tbl.find? s.mln.fallow
      n.val = none) :=
  ⟨⟨1, State.reset, 0x20, by decide +kernel⟩,
   ⟨1, State.reset, 9, by decide +kernel⟩,
   ⟨1, State.reset, 0, by dsimp only; decide +kernel⟩,
   ⟨1, State.reset, 1, by dsimp only; decide +kernel⟩,
   ⟨1, (ml 0x21 0).wr (ML_CTRL 0) 0x21, 0, by dsimp only; decide +kernel⟩,
   ⟨1, (ml 0x21 0).wr (ML_CTRL 0) 0x21, 0xFF, by dsimp only; decide +kernel⟩,
   ⟨1, State.reset, 0x20, by dsimp only; decide +kernel⟩,
   ⟨1, State.reset, 0x305, by dsimp only; decide +kernel⟩,
   ⟨1, (ml 0x11 0).wr (ML_TXFMT 1) 0x305, 0x305, by dsimp only; decide +kernel⟩,
   ⟨1, State.reset, by dsimp only; decide +kernel⟩,
   ⟨1, ml 9 6, by dsimp only; decide +kernel⟩,
   ⟨1, State.reset, by dsimp only; decide +kernel⟩,
   ⟨1, (ml 9 6).setLane 1 { (ml 9 0).lane 1 with okRun := 1 }, by dsimp only; decide +kernel⟩,
   ⟨1, ((ml 0x29 6).wr (ML_CTRL 0) 0x29), by dsimp only; decide +kernel⟩,
   ⟨1, ml 9 6, by dsimp only; decide +kernel⟩,
   ⟨1, (ml 9 6).setLane 1 { (ml 9 0).lane 1 with noneRun := 1 }, by dsimp only; decide +kernel⟩,
   ⟨1, State.reset, by dsimp only; decide +kernel⟩,
   ⟨0, (ml 0x29 6).wr (ML_CTRL 0) 0x29, 0, by dsimp only; decide +kernel⟩,
   ⟨0, (ml 0x29 6).wr (ML_CTRL 0) 0x29, 401, by dsimp only; decide +kernel⟩,
   ⟨1, State.reset, by dsimp only; decide +kernel⟩,
   ⟨1, ml 9 6, by dsimp only; decide +kernel⟩,
   ⟨1, ((ml 0x11 0).wr (ML_TXFMT 1) 0x305).wr MLN_GRPSTAT 1, by dsimp only; decide +kernel⟩⟩

/-- States and operands that meet the hypotheses of PortLink, clause by clause. -/
theorem witness_PortLink :
    (∃ p : Port, ∃ s : State, ∃ v : Word, s.pwr.barred = false ∧ s.portRefuses p.val v = true)
    ∧ (∃ p : Port, ∃ s : State, ∃ v : Word, let on := (MP_CFG_EN.get v); s.pwr.barred = false ∧ s.portRefuses p.val v
      = false ∧ s.portOn p.val = false ∧ on = 0)
    ∧ (∃ p : Port, ∃ s : State, ∃ v : Word, let on := (MP_CFG_EN.get v); s.pwr.barred = false ∧ s.portRefuses p.val v
      = false ∧ s.portOn p.val = false ∧ on = 1 ∧ unitMac (p.val / 2) ∉ s.bst.slicing)
    ∧ (∃ p : Port, ∃ s : State, ∃ v : Word, let on := (MP_CFG_EN.get v); s.pwr.barred = false ∧ s.portRefuses p.val v
      = false ∧ s.portOn p.val = true ∧ on = 0)
    ∧ (∃ p : Port, ∃ s : State, let live : Prop := (s.fld PWR_STAT PWR_STAT_STATE ≠ 2); (s.portOn p.val = false ∨
      ¬live))
    ∧ (∃ p : Port, ∃ s : State, let live : Prop := (s.fld PWR_STAT PWR_STAT_STATE ≠ 2); s.portOn p.val = true ∧ live)
    ∧ (∃ p : Port, ∃ s : State, let st := (MP_STAT p.val); let live : Prop := (s.fld PWR_STAT PWR_STAT_STATE ≠ 2);
      (s.fld st MP_STAT_VERST ≠ 1 ∨ ¬live))
    ∧ (∃ p : Port, ∃ s : State, let st := (MP_STAT p.val); let live : Prop := (s.fld PWR_STAT PWR_STAT_STATE ≠ 2);
      s.fld st MP_STAT_VERST = 1 ∧ live)
    ∧ (∃ p : Port, ∃ s : State, let st := (MP_STAT p.val); let port := (s.port p.val); let live : Prop := (s.fld
      PWR_STAT PWR_STAT_STATE ≠ 2); s.fld st MP_STAT_VERST = 1 ∧ live ∧ port.attempts < 2)
    ∧ (∃ p : Port, ∃ s : State, let st := (MP_STAT p.val); let port := (s.port p.val); let live : Prop := (s.fld
      PWR_STAT PWR_STAT_STATE ≠ 2); s.fld st MP_STAT_VERST = 1 ∧ live ∧ 2 ≤ port.attempts)
    ∧ (∃ p : Port, ∃ s : State, let cfg := (MP_CFG p.val); let now := (s.rd cfg); let live : Prop := (s.fld PWR_STAT
      PWR_STAT_STATE ≠ 2); let asks : Prop := (s.portOn p.val = true ∧ live ∧ MP_CFG_AN.get now = 1 ∧ s.cfgSpeed p.val
      now = 2); (¬asks))
    ∧ (∃ p : Port, ∃ s : State, let cfg := (MP_CFG p.val); let now := (s.rd cfg); let live : Prop := (s.fld PWR_STAT
      PWR_STAT_STATE ≠ 2); let asks : Prop := (s.portOn p.val = true ∧ live ∧ MP_CFG_AN.get now = 1 ∧ s.cfgSpeed p.val
      now = 2); asks)
    ∧ (∃ p : Port, ∃ s : State, let live : Prop := (s.fld PWR_STAT PWR_STAT_STATE ≠ 2); (s.portUp p.val = false ∨
      ¬live))
    ∧ (∃ p : Port, ∃ s : State, let port := (s.port p.val); let live : Prop := (s.fld PWR_STAT PWR_STAT_STATE ≠ 2);
      s.portUp p.val = true ∧ live ∧ port.reasm = none)
    ∧ (∃ p : Port, ∃ s : State, let port := (s.port p.val); let live : Prop := (s.fld PWR_STAT PWR_STAT_STATE ≠ 2);
      s.portUp p.val = true ∧ live ∧ port.reasm ≠ none)
    ∧ (∃ p : Port, ∃ s : State, ∃ launch : BitVec 64, let cfg := (MP_CFG p.val); let now := (s.rd cfg); let live :
      Prop := (s.fld PWR_STAT PWR_STAT_STATE ≠ 2); let due : Prop := (launch.toNat ≤ s.fullTime (MP_CFG_TBSEL.get now)
      + s.fld (MP_HOLDADV p.val) MP_HOLDADV_NS); let asks : Prop := (live ∧ s.bit cfg MP_CFG_HOLDEN = true ∧ s.portUp
      p.val = true ∧ due); (¬asks))
    ∧ (∃ p : Port, ∃ s : State, ∃ launch : BitVec 64, let cfg := (MP_CFG p.val); let now := (s.rd cfg); let port :=
      (s.port p.val); let live : Prop := (s.fld PWR_STAT PWR_STAT_STATE ≠ 2); let due : Prop := (launch.toNat ≤
      s.fullTime (MP_CFG_TBSEL.get now) + s.fld (MP_HOLDADV p.val) MP_HOLDADV_NS); let asks : Prop := (live ∧ s.bit
      cfg MP_CFG_HOLDEN = true ∧ s.portUp p.val = true ∧ due); asks ∧ (port.tx = none ∨ s.preempting p.val = false))
    ∧ (∃ p : Port, ∃ s : State, ∃ launch : BitVec 64, let cfg := (MP_CFG p.val); let now := (s.rd cfg); let live :
      Prop := (s.fld PWR_STAT PWR_STAT_STATE ≠ 2); let due : Prop := (launch.toNat ≤ s.fullTime (MP_CFG_TBSEL.get now)
      + s.fld (MP_HOLDADV p.val) MP_HOLDADV_NS); let asks : Prop := (live ∧ s.bit cfg MP_CFG_HOLDEN = true ∧ s.portUp
      p.val = true ∧ due); asks ∧ s.preempting p.val = true ∧ s.heldBack p.val = false)
    ∧ (∃ p : Port, ∃ s : State, ∃ dst : BitVec 48, ∃ ty : BitVec 16, ∃ id : Word, ∃ ok : Bool, let wakes : Prop :=
      (s.portOn p.val = true ∧ s.isWake p.val dst.toNat ty.toNat id.toNat ok = true); (¬wakes))
    ∧ (∃ p : Port, ∃ s : State, ∃ dst : BitVec 48, ∃ ty : BitVec 16, ∃ id : Word, ∃ ok : Bool, let wakes : Prop :=
      (s.portOn p.val = true ∧ s.isWake p.val dst.toNat ty.toNat id.toNat ok = true); wakes ∧ s.inFallow = false)
    ∧ (∃ p : Port, ∃ s : State, ∃ dst : BitVec 48, ∃ ty : BitVec 16, ∃ id : Word, ∃ ok : Bool, let cfg := (MP_CFG
      p.val); let wakes : Prop := (s.portOn p.val = true ∧ s.isWake p.val dst.toNat ty.toNat id.toNat ok = true);
      wakes ∧ s.inFallow = true ∧ s.bit cfg MP_CFG_WAKEEN = true ∧ s.bit MAC_WAKESTAT MAC_WAKESTAT_VALID = false)
    ∧ (∃ s : State, s.pwr.barred = false) :=
  ⟨⟨0, State.reset, 1, by decide +kernel⟩,
   ⟨0, State.reset, 0, by decide +kernel⟩,
   ⟨0, State.reset.wr (ML_CTRL 0) 27, 1, by decide +kernel⟩,
   ⟨0, mp 1 0, 0, by decide +kernel⟩,
   ⟨0, State.reset, by dsimp only; decide +kernel⟩,
   ⟨0, mp 1 0, by dsimp only; decide +kernel⟩,
   ⟨0, State.reset, by dsimp only; decide +kernel⟩,
   ⟨0, mp 1 0x11, by dsimp only; decide +kernel⟩,
   ⟨0, mp 1 0x11, by dsimp only; decide +kernel⟩,
   ⟨0, (mp 1 0x11).setPort 0 { MacPort.idle with attempts := 2 }, by dsimp only; decide +kernel⟩,
   ⟨0, State.reset, by dsimp only; decide +kernel⟩,
   ⟨0, (mp 0x101 0).setFld (ML_CTRL 0) ML_CTRL_MODE 3, by dsimp only; decide +kernel⟩,
   ⟨0, State.reset, by dsimp only; decide +kernel⟩,
   ⟨0, mp 1 1, by dsimp only; decide +kernel⟩,
   ⟨0, ((mp 1 1).setFld PWR_STAT PWR_STAT_STATE 0).setPort 0 { MacPort.idle with reasm := some (0, 0, 64) },
    by dsimp only; decide +kernel⟩,
   ⟨0, State.reset, 0, by dsimp only; decide +kernel⟩,
   ⟨0, (mp 0x2001 1), 0, by dsimp only; decide +kernel⟩,
   ⟨0, (mp 0x2201 0x21).setPort 0 { MacPort.idle with tx := some txf }, 0, by dsimp only; decide +kernel⟩,
   ⟨0, State.reset, 0, 0, 0, true, by dsimp only; decide +kernel⟩,
   ⟨0, (mp 1 1).setFld (MP_WAKE 0) MP_WAKE_WAKEETYPE 0, 0, 0, 0, true, by dsimp only; decide +kernel⟩,
   ⟨0, ((mp 0x8001 1).setFld (MP_WAKE 0) MP_WAKE_WAKEETYPE 0).setFld PWR_STAT PWR_STAT_STATE 2, 0, 0, 0, true,
    by dsimp only; decide +kernel⟩,
   ⟨State.reset, by decide +kernel⟩⟩

/-- States and operands that meet the hypotheses of FramesOnAPort, clause by clause. -/
theorem witness_FramesOnAPort :
    (∃ p : Port, ∃ s : State, let live : Prop := (s.fld PWR_STAT PWR_STAT_STATE ≠ 2); let taken : Prop := (s.portOn
      p.val = true ∧ live); (¬taken))
    ∧ (∃ p : Port, ∃ s : State, ∃ f : RxFrame, ∃ c : Nat, ∃ h : Nat, let port := (s.port p.val); let live : Prop :=
      (s.fld PWR_STAT PWR_STAT_STATE ≠ 2); let taken : Prop := (s.portOn p.val = true ∧ live); taken ∧ (f.express =
      true ∨ (f.frag = .whole ∧ port.reasm = none)) ∧ s.verdict p.val f = some (c, h))
    ∧ (∃ p : Port, ∃ s : State, ∃ f : RxFrame, let port := (s.port p.val); let live : Prop := (s.fld PWR_STAT
      PWR_STAT_STATE ≠ 2); let taken : Prop := (s.portOn p.val = true ∧ live); taken ∧ (f.express = true ∨ (f.frag =
      .whole ∧ port.reasm = none)) ∧ s.verdict p.val f = none ∧ (f.control = true ∨ f.space = true))
    ∧ (∃ p : Port, ∃ s : State, ∃ f : RxFrame, ∃ n : _, let port := (s.port p.val); let live : Prop := (s.fld PWR_STAT
      PWR_STAT_STATE ≠ 2); let taken : Prop := (s.portOn p.val = true ∧ live); taken ∧ f.express = false ∧ f.frag =
      .first n ∧ port.reasm = none ∧ f.fcsOk = true)
    ∧ (∃ p : Port, ∃ s : State, ∃ f : RxFrame, ∃ n : _, let port := (s.port p.val); let live : Prop := (s.fld PWR_STAT
      PWR_STAT_STATE ≠ 2); let taken : Prop := (s.portOn p.val = true ∧ live); taken ∧ f.express = false ∧ f.frag =
      .first n ∧ port.reasm = none ∧ f.fcsOk = false)
    ∧ (∃ p : Port, ∃ s : State, ∃ f : RxFrame, ∃ n : _, let port := (s.port p.val); let live : Prop := (s.fld PWR_STAT
      PWR_STAT_STATE ≠ 2); let taken : Prop := (s.portOn p.val = true ∧ live); taken ∧ f.express = false ∧ (f.frag =
      .first n ∨ f.frag = .whole) ∧ port.reasm ≠ none)
    ∧ (∃ p : Port, ∃ s : State, ∃ f : RxFrame, ∃ n : _, ∃ c : _, ∃ l : _, let port := (s.port p.val); let live : Prop
      := (s.fld PWR_STAT PWR_STAT_STATE ≠ 2); let taken : Prop := (s.portOn p.val = true ∧ live); taken ∧ f.express =
      false ∧ f.frag = .next n c l ∧ port.reasm = none)
    ∧ (∃ p : Port, ∃ s : State, ∃ f : RxFrame, ∃ n : _, ∃ c : _, ∃ l : _, ∃ m : _, ∃ k : _, ∃ len : _, let port :=
      (s.port p.val); let live : Prop := (s.fld PWR_STAT PWR_STAT_STATE ≠ 2); let taken : Prop := (s.portOn p.val =
      true ∧ live); taken ∧ f.express = false ∧ f.frag = .next n c l ∧ port.reasm = some (m, k, len) ∧ (n.val ≠ m ∨
      c.val ≠ k))
    ∧ (∃ p : Port, ∃ s : State, ∃ f : RxFrame, ∃ n : _, ∃ c : _, ∃ l : _, ∃ m : _, ∃ k : _, ∃ len : _, let port :=
      (s.port p.val); let live : Prop := (s.fld PWR_STAT PWR_STAT_STATE ≠ 2); let taken : Prop := (s.portOn p.val =
      true ∧ live); taken ∧ f.express = false ∧ f.frag = .next n c l ∧ port.reasm = some (m, k, len) ∧ n.val = m ∧
      c.val = k ∧ l = false ∧ f.fcsOk = true)
    ∧ (∃ p : Port, ∃ s : State, ∃ f : RxFrame, ∃ n : _, ∃ c : _, ∃ l : _, ∃ m : _, ∃ k : _, ∃ len : _, let port :=
      (s.port p.val); let live : Prop := (s.fld PWR_STAT PWR_STAT_STATE ≠ 2); let taken : Prop := (s.portOn p.val =
      true ∧ live); taken ∧ f.express = false ∧ f.frag = .next n c l ∧ port.reasm = some (m, k, len) ∧ n.val = m ∧
      c.val = k ∧ l = false ∧ f.fcsOk = false)
    ∧ (∃ p : Port, ∃ s : State, ∃ f : RxFrame, ∃ n : _, ∃ c : _, ∃ l : _, ∃ m : _, ∃ k : _, ∃ len : _, let port :=
      (s.port p.val); let live : Prop := (s.fld PWR_STAT PWR_STAT_STATE ≠ 2); let taken : Prop := (s.portOn p.val =
      true ∧ live); taken ∧ f.express = false ∧ f.frag = .next n c l ∧ port.reasm = some (m, k, len) ∧ n.val = m ∧
      c.val = k ∧ l = true ∧ s.verdict p.val { f with len := len + f.len } = none ∧ (f.control = true ∨ f.space =
      true))
    ∧ (∃ s : State, let live : Prop := (s.fld PWR_STAT PWR_STAT_STATE ≠ 2); (¬live))
    ∧ (∃ p : Port, ∃ s : State, let live : Prop := (s.fld PWR_STAT PWR_STAT_STATE ≠ 2); live ∧ s.portUp p.val = false)
    ∧ (∃ p : Port, ∃ s : State, let live : Prop := (s.fld PWR_STAT PWR_STAT_STATE ≠ 2); live ∧ s.portUp p.val = true)
    ∧ (∃ p : Port, ∃ s : State, ∃ kind : FrameKind, ∃ d : List Byte, ∃ b : Nat, let port := (s.port p.val); let live :
      Prop := (s.fld PWR_STAT PWR_STAT_STATE ≠ 2); let e := (expressKind kind); let first : Prop := (port.ahead = [] ∨
      kindFlow kind = port.ahead.head?); let goes : Prop := (s.mayStart p.val d.length e b = true ∧ (e = true ∨ (s.bit
      (MP_STAT p.val) MP_STAT_HOLD = false ∧ first))); live ∧ s.portUp p.val = true ∧ port.tx = none ∧ port.queue = []
      ∧ (¬goes))
    ∧ (∃ p : Port, ∃ s : State, ∃ kind : FrameKind, ∃ d : List Byte, ∃ b : Nat, let port := (s.port p.val); let live :
      Prop := (s.fld PWR_STAT PWR_STAT_STATE ≠ 2); let e := (expressKind kind); let first : Prop := (port.ahead = [] ∨
      kindFlow kind = port.ahead.head?); let goes : Prop := (s.mayStart p.val d.length e b = true ∧ (e = true ∨ (s.bit
      (MP_STAT p.val) MP_STAT_HOLD = false ∧ first))); live ∧ s.portUp p.val = true ∧ port.tx = none ∧ port.queue = []
      ∧ goes ∧ e = true)
    ∧ (∃ p : Port, ∃ s : State, ∃ kind : FrameKind, ∃ d : List Byte, ∃ b : Nat, let port := (s.port p.val); let live :
      Prop := (s.fld PWR_STAT PWR_STAT_STATE ≠ 2); let e := (expressKind kind); let first : Prop := (port.ahead = [] ∨
      kindFlow kind = port.ahead.head?); let goes : Prop := (s.mayStart p.val d.length e b = true ∧ (e = true ∨ (s.bit
      (MP_STAT p.val) MP_STAT_HOLD = false ∧ first))); live ∧ s.portUp p.val = true ∧ port.tx = none ∧ port.queue = []
      ∧ goes ∧ e = false ∧ d.length ≤ b)
    ∧ (∃ p : Port, ∃ s : State, ∃ kind : FrameKind, ∃ d : List Byte, ∃ b : Nat, let port := (s.port p.val); let live :
      Prop := (s.fld PWR_STAT PWR_STAT_STATE ≠ 2); let e := (expressKind kind); let first : Prop := (port.ahead = [] ∨
      kindFlow kind = port.ahead.head?); let goes : Prop := (s.mayStart p.val d.length e b = true ∧ (e = true ∨ (s.bit
      (MP_STAT p.val) MP_STAT_HOLD = false ∧ first))); live ∧ s.portUp p.val = true ∧ port.tx = none ∧ port.queue = []
      ∧ goes ∧ e = false ∧ b < d.length)
    ∧ (∃ p : Port, ∃ s : State, let port := (s.port p.val); let live : Prop := (s.fld PWR_STAT PWR_STAT_STATE ≠ 2);
      live ∧ s.portUp p.val = true ∧ port.tx = none)
    ∧ (∃ p : Port, ∃ s : State, ∃ cut : Nat, ∃ f : TxFrame, let port := (s.port p.val); let live : Prop := (s.fld
      PWR_STAT PWR_STAT_STATE ≠ 2); let at_ := (max cut (f.sent + s.minFragment p.val)); let cuts : Prop :=
      (s.preempting p.val = true ∧ f.sent ≠ f.data.length ∧ at_ + 60 ≤ f.data.length); live ∧ s.portUp p.val = true ∧
      s.heldBack p.val = false ∧ port.tx = some f ∧ f.express = false ∧ cuts)
    ∧ (∃ p : Port, ∃ s : State, ∃ cut : Nat, ∃ f : TxFrame, let port := (s.port p.val); let live : Prop := (s.fld
      PWR_STAT PWR_STAT_STATE ≠ 2); let at_ := (max cut (f.sent + s.minFragment p.val)); let cuts : Prop :=
      (s.preempting p.val = true ∧ f.sent ≠ f.data.length ∧ at_ + 60 ≤ f.data.length); live ∧ s.portUp p.val = true ∧
      s.heldBack p.val = false ∧ port.tx = some f ∧ f.express = false ∧ (¬cuts))
    ∧ (∃ p : Port, ∃ s : State, let port := (s.port p.val); let live : Prop := (s.fld PWR_STAT PWR_STAT_STATE ≠ 2);
      (¬live ∨ (∀ f, port.tx = some f → f.whole = true)))
    ∧ (∃ p : Port, ∃ s : State, ∃ f : _, let port := (s.port p.val); let live : Prop := (s.fld PWR_STAT PWR_STAT_STATE
      ≠ 2); live ∧ port.tx = some f ∧ f.whole = false)
    ∧ (∃ p : Port, ∃ s : State, let live : Prop := (s.fld PWR_STAT PWR_STAT_STATE ≠ 2); let taken : Prop := (s.portOn
      p.val = true ∧ live); taken) :=
  ⟨⟨0, State.reset, by dsimp only; decide +kernel⟩,
   ⟨0, mp 1 1, ⟨63, true, false, .whole, false, true, true, 0, 0⟩, MAC_RXRUNT, 2, by dsimp only; decide +kernel⟩,
   ⟨0, mp 1 1, ⟨64, true, false, .whole, false, true, true, 0, 0⟩, by dsimp only; decide +kernel⟩,
   ⟨0, mp 1 1, ⟨64, true, false, .first 1, false, true, true, 0, 0⟩, 1, by dsimp only; decide +kernel⟩,
   ⟨0, mp 1 1, ⟨64, false, false, .first 1, false, true, true, 0, 0⟩, 1, by dsimp only; decide +kernel⟩,
   ⟨0, (mp 1 1).setPort 0 { MacPort.idle with reasm := some (1, 2, 64) },
    ⟨64, true, false, .first 1, false, true, true, 0, 0⟩, 1, by dsimp only; decide +kernel⟩,
   ⟨0, mp 1 1, ⟨64, true, false, .next 1 2 false, false, true, true, 0, 0⟩, 1, 2, false,
    by dsimp only; decide +kernel⟩,
   ⟨0, (mp 1 1).setPort 0 { MacPort.idle with reasm := some (1, 2, 64) },
    ⟨64, true, false, .next 1 1 false, false, true, true, 0, 0⟩, 1, 1, false, 1, 2, 64, by dsimp only; decide +kernel⟩,
   ⟨0, (mp 1 1).setPort 0 { MacPort.idle with reasm := some (1, 2, 64) },
    ⟨64, true, false, .next 1 2 false, false, true, true, 0, 0⟩, 1, 2, false, 1, 2, 64, by dsimp only; decide +kernel⟩,
   ⟨0, (mp 1 1).setPort 0 { MacPort.idle with reasm := some (1, 2, 64) },
    ⟨64, false, false, .next 1 2 false, false, true, true, 0, 0⟩, 1, 2, false, 1, 2, 64,
    by dsimp only; decide +kernel⟩,
   ⟨0, (mp 1 1).setPort 0 { MacPort.idle with reasm := some (1, 2, 64) },
    ⟨64, true, false, .next 1 2 true, false, true, true, 0, 0⟩, 1, 2, true, 1, 2, 64, by dsimp only; decide +kernel⟩,
   ⟨pwr 2, by dsimp only; decide +kernel⟩,
   ⟨0, mp 1 0, by dsimp only; decide +kernel⟩,
   ⟨0, mp 1 1, by dsimp only; decide +kernel⟩,
   ⟨0, mp 1 1, .other, List.replicate 64 0, 0, by dsimp only; decide +kernel⟩,
   ⟨0, mp 1 1, .ptpEvent, List.replicate 64 0, 64, by dsimp only; decide +kernel⟩,
   ⟨0, mp 1 1, .other, List.replicate 64 0, 64, by dsimp only; decide +kernel⟩,
   ⟨0, (mp 0x4001 1).setFld (MP_STARTTH 0) MP_STARTTH_STARTTH 32, .other, List.replicate 64 0, 40,
    by dsimp only; decide +kernel⟩,
   ⟨0, mp 1 1, by dsimp only; decide +kernel⟩,
   ⟨0, (mp 0x201 0x21).setPort 0 { MacPort.idle with tx := some ⟨List.replicate 400 0, false, true, false, 0⟩ }, 64,
    ⟨List.replicate 400 0, false, true, false, 0⟩, by dsimp only; decide +kernel⟩,
   ⟨0, (mp 1 1).setPort 0 { MacPort.idle with tx := some txf }, 64, txf, by dsimp only; decide +kernel⟩,
   ⟨0, State.reset, by dsimp only; decide +kernel⟩,
   ⟨0, (mp 1 1).setPort 0 { MacPort.idle with tx := some { txf with whole := false } }, { txf with whole := false },
    by dsimp only; decide +kernel⟩,
   ⟨0, mp 1 1, by dsimp only; decide +kernel⟩⟩

/-- States and operands that meet the hypotheses of ReferencesAndFrameTiming, clause by clause. -/
theorem witness_ReferencesAndFrameTiming :
    (∃ s : State, let free : Prop := (s.bit CLK_CTRL CLK_CTRL_FORCE = false); free ∧ (∀ c, c < 13 → s.srcQual c = true
      → s.refBarred c = false))
    ∧ (∃ s : State, ∃ c : _, let free : Prop := (s.bit CLK_CTRL CLK_CTRL_FORCE = false); c < 13 ∧ s.srcQual c = true ∧
      s.refBarred c = true ∧ (∀ d, d < 13 → d ≠ c → s.srcQual d = true → s.refBarred d = false) ∧ free)
    ∧ (∃ s : State, ∃ c : BitVec 4, (s.refBarred c.toNat = true ∨ s.srcQual c.toNat = true))
    ∧ (∃ s : State, ∃ c : BitVec 4, let free : Prop := (s.bit CLK_CTRL CLK_CTRL_FORCE = false); s.refBarred c.toNat =
      false ∧ s.srcQual c.toNat = false ∧ free)
    ∧ (∃ s : State, ∃ c : BitVec 4, s.srcQual c.toNat = false)
    ∧ (∃ s : State, ∃ c : BitVec 4, let free : Prop := (s.bit CLK_CTRL CLK_CTRL_FORCE = false); s.srcQual c.toNat =
      true ∧ free)
    ∧ (∃ s : State, (s.dpll = 0 ∨ s.bit CLK_CTRL CLK_CTRL_REVERT = false ∨ s.forcedPri ≠ none ∨ s.bestPri = none))
    ∧ (∃ s : State, ∃ k : _, let act := (fun (u : State) => u.fld CLK_STAT CLK_STAT_ACTPRI); s.dpll ≠ 0 ∧ s.bestPri =
      some k ∧ act s ≤ k)
    ∧ (∃ s : State, ∃ k : _, let act := (fun (u : State) => u.fld CLK_STAT CLK_STAT_ACTPRI); s.dpll ≠ 0 ∧ s.bestPri =
      some k ∧ s.bit CLK_CTRL CLK_CTRL_REVERT = true ∧ s.forcedPri = none ∧ k < act s)
    ∧ (∃ s : State, s.dpll = 1)
    ∧ (∃ s : State, s.dpll ≠ 1)
    ∧ (∃ s : State, s.dpll ≠ 2)
    ∧ (∃ s : State, s.dpll = 2)
    ∧ (∃ s : State, ∃ k : Fin 8, ∃ v : Word, s.pwr.barred = false ∧ (s.actPri ≠ some k.val ∨ (CLK_PRI_SRC.get v =
      s.priSrc k.val ∧ CLK_PRI_EN.get v = 1)))
    ∧ (∃ s : State, s.pwr.barred = false)
    ∧ (∃ s : State, ∃ r : Bool, ∃ b : Tb, let four : Prop := (2 ≤ s.fld BLK_NODE BLK_NODE_EXPNODES); let src := (s.fld
      CLK_STAT CLK_STAT_ACTSRC); let refin : Prop := (s.dpll ≠ 0 ∧ 1 ≤ src ∧ src ≤ 4); s.pwr.barred = false ∧ (four ∨
      (r = true ∧ s.tbMode b.val = 0) ∨ (r = false ∧ ¬refin)))
    ∧ (∃ s : State, ∃ r : Bool, ∃ b : Tb, let four : Prop := (2 ≤ s.fld BLK_NODE BLK_NODE_EXPNODES); s.pwr.barred =
      false ∧ (¬four) ∧ r = true ∧ s.tbMode b.val ≠ 0)
    ∧ (∃ s : State, ∃ r : Bool, let four : Prop := (2 ≤ s.fld BLK_NODE BLK_NODE_EXPNODES); let src := (s.fld CLK_STAT
      CLK_STAT_ACTSRC); let refin : Prop := (s.dpll ≠ 0 ∧ 1 ≤ src ∧ src ≤ 4); s.pwr.barred = false ∧ (¬four) ∧ r =
      false ∧ refin)
    ∧ (∃ s : State, s.clk.realign = none)
    ∧ (∃ s : State, ∃ ra : Byte, ∃ rt : Byte, ∃ r : Realign, let done : Prop := ((ra.toNat, rt.toNat) ∈ r.taken ∨
      (r.kind ≠ 2 ∧ s.now < r.at_ + 1000000)); s.clk.realign = some r ∧ done)
    ∧ (∃ s : State, ∃ ra : Byte, ∃ rt : Byte, ∃ ago : Word, ∃ r : Realign, let done : Prop := ((ra.toNat, rt.toNat) ∈
      r.taken ∨ (r.kind ≠ 2 ∧ s.now < r.at_ + 1000000)); let new := (r.origin.getD (s.edgeOrigin ago.toNat)); let
      still : Prop := (∃ o, r.before = some o ∧ (new - o).natAbs ≤ 6); s.clk.realign = some r ∧ (¬done) ∧ still)
    ∧ (∃ s : State, ∃ ra : Byte, ∃ rt : Byte, ∃ ago : Word, ∃ r : Realign, let done : Prop := ((ra.toNat, rt.toNat) ∈
      r.taken ∨ (r.kind ≠ 2 ∧ s.now < r.at_ + 1000000)); let new := (r.origin.getD (s.edgeOrigin ago.toNat)); let
      still : Prop := (∃ o, r.before = some o ∧ (new - o).natAbs ≤ 6); s.clk.realign = some r ∧ (¬done) ∧ (¬still) ∧
      r.taken ≠ [])
    ∧ (∃ s : State, ∃ ra : Byte, ∃ rt : Byte, ∃ ago : Word, ∃ r : Realign, let done : Prop := ((ra.toNat, rt.toNat) ∈
      r.taken ∨ (r.kind ≠ 2 ∧ s.now < r.at_ + 1000000)); let new := (r.origin.getD (s.edgeOrigin ago.toNat)); let
      still : Prop := (∃ o, r.before = some o ∧ (new - o).natAbs ≤ 6); s.clk.realign = some r ∧ (¬done) ∧ (¬still) ∧
      r.taken = [])
    ∧ (∃ s : State, let four : Prop := (2 ≤ s.fld BLK_NODE BLK_NODE_EXPNODES); (¬four))
    ∧ (∃ s : State, ∃ e : Int, let four : Prop := (2 ≤ s.fld BLK_NODE BLK_NODE_EXPNODES); four ∧ e.natAbs ≤ s.fld
      CLK_PULL CLK_PULL_PULLWIN)
    ∧ (∃ s : State, ∃ e : Int, let four : Prop := (2 ≤ s.fld BLK_NODE BLK_NODE_EXPNODES); four ∧ s.fld CLK_PULL
      CLK_PULL_PULLWIN < e.natAbs)
    ∧ (∃ s : State, let four : Prop := (2 ≤ s.fld BLK_NODE BLK_NODE_EXPNODES); four) :=
  ⟨⟨State.reset, by dsimp only; decide +kernel⟩,
   ⟨State.reset.wr CLK_QUAL 128, 7, by dsimp only; decide +kernel⟩,
   ⟨State.reset, 0, by decide +kernel⟩,
   ⟨State.reset, 1, by dsimp only; decide +kernel⟩,
   ⟨State.reset, 0, by decide +kernel⟩,
   ⟨State.reset.wr CLK_QUAL 2, 1, by dsimp only; decide +kernel⟩,
   ⟨State.reset, by decide +kernel⟩,
   ⟨(clk 1 true).setFld CLK_STAT CLK_STAT_ACTPRI 0, 0, by decide +kernel⟩,
   ⟨((clk 1 true).setFld CLK_STAT CLK_STAT_ACTPRI 1).setBit CLK_CTRL CLK_CTRL_REVERT true, 0, by decide +kernel⟩,
   ⟨clk 1 true, by decide +kernel⟩,
   ⟨State.reset, by decide +kernel⟩,
   ⟨State.reset, by decide +kernel⟩,
   ⟨clk 2 true, by decide +kernel⟩,
   ⟨State.reset, 0, 0, by decide +kernel⟩,
   ⟨State.reset, by decide +kernel⟩,
   ⟨State.reset, true, 0, by dsimp only; decide +kernel⟩,
   ⟨tb 2 3, true, 0, by dsimp only; decide +kernel⟩,
   ⟨clk 1 true |>.setFld CLK_STAT CLK_STAT_ACTSRC 1, false, by dsimp only; decide +kernel⟩,
   ⟨State.reset, by decide +kernel⟩,
   ⟨State.reset.setClk ⟨some ⟨0, some 5, none, 0, [(0, 0)]⟩, none⟩, 0, 0, ⟨0, some 5, none, 0, [(0, 0)]⟩,
    by dsimp only; decide +kernel⟩,
   ⟨State.reset.setClk ⟨some ⟨2, some 5, some 0, 0, []⟩, none⟩, 0, 0, 0, ⟨2, some 5, some 0, 0, []⟩,
    by dsimp only; decide +kernel⟩,
   ⟨State.reset.setClk ⟨some ⟨2, some 5, none, 0, [(1, 1)]⟩, none⟩, 0, 0, 0, ⟨2, some 5, none, 0, [(1, 1)]⟩,
    by dsimp only; decide +kernel⟩,
   ⟨State.reset.setClk ⟨some ⟨2, some 5, none, 0, []⟩, none⟩, 0, 0, 0, ⟨2, some 5, none, 0, []⟩,
    by dsimp only; decide +kernel⟩,
   ⟨State.reset, by dsimp only; decide +kernel⟩,
   ⟨State.reset.setFld BLK_NODE BLK_NODE_EXPNODES 2, 0, by dsimp only; decide +kernel⟩,
   ⟨four, 65536, by dsimp only; decide +kernel⟩,
   ⟨State.reset.setFld BLK_NODE BLK_NODE_EXPNODES 2, by dsimp only; decide +kernel⟩⟩

/-- States and operands that meet the hypotheses of RingCommandsAndSimpleEffects, clause by clause. -/
theorem witness_RingCommandsAndSimpleEffects :
    (∃ t : Tenant, ∃ r : CmdRing, ∃ e : Entry, ∃ pb : BlockRead, ∃ s : State, ∃ x : _, x ∈ ([(0x00, .nop t r e),
      (0x01, .route t r e), (0x02, .unroute t r e), (0x03, .salvoOpen t r e), (0x04, .salvoCommit t r e), (0x05,
      .salvoAbort t r e), (0x10, .canvasDef t r e), (0x11, .layerSet t r e), (0x12, .sliceSet t r e), (0x13,
      .stillLoad t r e), (0x20, .audMap t r e), (0x21, .audPort t r e), (0x30, .flowRxDef t r e pb), (0x31, .flowTxDef
      t r e pb), (0x40, .frameGrab t r e), (0x41, .migrate t r e), (0x50, .timeArm t r e), (0x60, .bistReq t r e),
      (0x70, .query t r e)] : List (Nat × Instr)) ∧ (¬s.Takes x.1 t r e))
    ∧ (∃ t : Tenant, ∃ r : CmdRing, ∃ s : State, s.ringSizeOk t r = true)
    ∧ (∃ x : State, ∃ id : Nat, ∃ c : Cmd, x.inflightOf id = some c ∧ c.discard = false)
    ∧ (∃ x : State, ∃ id : Nat, ∃ c : Cmd, ∃ st : Status, let q := (8 + c.cq); x.inflightOf id = some c ∧ c.discard =
      false ∧ x.ringOn c.tenant q = true ∧ x.ringSizeOk c.tenant q = true ∧ (c.nocomp = false ∨ st ≠ .ok))
    ∧ (∃ x : State, ∃ id : Nat, ∃ c : Cmd, ∃ st : Status, x.inflightOf id = some c ∧ c.discard = false ∧ c.nocomp =
      true ∧ st = .ok)
    ∧ (∃ t : Tenant, ∃ r : CmdRing, ∃ e : Entry, ∃ s : State, s.Takes 0x00 t r e ∧ onlyFields e [] = true)
    ∧ (∃ t : Tenant, ∃ r : CmdRing, ∃ e : Entry, ∃ s : State, s.Takes 0x00 t r e ∧ onlyFields e [] = false)
    ∧ (∃ t : Tenant, ∃ r : CmdRing, ∃ e : Entry, ∃ s : State, let what := (bitsAt e 8 0 8); let i := (bitsAt e 12 0
      32); let ok := (onlyFields e [(8, 0, 8), (12, 0, 32)] && queryRange what i); s.Takes 0x70 t r e ∧ ok = false)
    ∧ (∃ t : Tenant, ∃ r : CmdRing, ∃ e : Entry, ∃ s : State, let what := (bitsAt e 8 0 8); let i := (bitsAt e 12 0
      32); let ok := (onlyFields e [(8, 0, 8), (12, 0, 32)] && queryRange what i); s.Takes 0x70 t r e ∧ ok = true)
    ∧ (∃ t : Tenant, ∃ r : CmdRing, ∃ e : Entry, ∃ s : State, let what := (bitsAt e 8 0 8); let i := (bitsAt e 12 0
      32); let ok := (onlyFields e [(8, 0, 8), (12, 0, 32)] && queryRange what i); s.Takes 0x70 t r e ∧ ok = true ∧
      what = 2)
    ∧ (∃ t : Tenant, ∃ r : CmdRing, ∃ e : Entry, ∃ s : State, let what := (bitsAt e 8 0 8); let i := (bitsAt e 12 0
      32); let ok := (onlyFields e [(8, 0, 8), (12, 0, 32)] && queryRange what i); s.Takes 0x70 t r e ∧ ok = true ∧
      what = 3)
    ∧ (∃ t : Tenant, ∃ r : CmdRing, ∃ e : Entry, ∃ s : State, let what := (bitsAt e 8 0 8); let i := (bitsAt e 12 0
      32); let ok := (onlyFields e [(8, 0, 8), (12, 0, 32)] && queryRange what i); s.Takes 0x70 t r e ∧ ok = true ∧
      what = 4)
    ∧ (∃ t : Tenant, ∃ r : CmdRing, ∃ e : Entry, ∃ s : State, let ok := (onlyFields e [(8, 0, 4), (9, 0, 2), (10, 0,
      2), (12, 0, 32), (16, 0, 32), (20, 0, 32), (24, 0, 32)]); s.Takes 0x50 t r e ∧ ok = false)
    ∧ (∃ t : Tenant, ∃ r : CmdRing, ∃ e : Entry, ∃ s : State, let k := (bitsAt e 8 0 4); let ok := (onlyFields e [(8,
      0, 4), (9, 0, 2), (10, 0, 2), (12, 0, 32), (16, 0, 32), (20, 0, 32), (24, 0, 32)]); s.Takes 0x50 t r e ∧ ok =
      true ∧ bitsAt e 10 1 1 = 1 ∧ s.ownerOf 7 k ≠ t)
    ∧ (∃ t : Tenant, ∃ r : CmdRing, ∃ e : Entry, ∃ s : State, let k := (bitsAt e 8 0 4); let ok := (onlyFields e [(8,
      0, 4), (9, 0, 2), (10, 0, 2), (12, 0, 32), (16, 0, 32), (20, 0, 32), (24, 0, 32)]); s.Takes 0x50 t r e ∧ ok =
      true ∧ bitsAt e 10 1 1 = 1 ∧ s.ownerOf 7 k = t ∧ s.standby = false)
    ∧ (∃ t : Tenant, ∃ r : CmdRing, ∃ e : Entry, ∃ s : State, ∃ d : _, let k := (bitsAt e 8 0 4); let tb := (bitsAt e
      9 0 2); let width := (bitsAt e 20 0 32); let ok := (onlyFields e [(8, 0, 4), (9, 0, 2), (10, 0, 2), (12, 0, 32),
      (16, 0, 32), (20, 0, 32), (24, 0, 32)]); s.Takes 0x50 t r e ∧ ok = true ∧ bitsAt e 10 0 2 = 0 ∧ 8 ≤ width ∧
      s.ownerOf 7 k = t ∧ s.tbMode tb ≠ 0 ∧ s.standby = false ∧ s.dueTime tb (bitsAt e 12 0 32) = some d ∧ s.fullTime
      tb + 1000 ≤ d)
    ∧ (∃ t : Tenant, ∃ r : CmdRing, ∃ e : Entry, ∃ s : State, let k := (bitsAt e 8 0 4); let tb := (bitsAt e 9 0 2);
      let width := (bitsAt e 20 0 32); let ok := (onlyFields e [(8, 0, 4), (9, 0, 2), (10, 0, 2), (12, 0, 32), (16, 0,
      32), (20, 0, 32), (24, 0, 32)]); s.Takes 0x50 t r e ∧ ok = true ∧ bitsAt e 10 0 2 = 0 ∧ 8 ≤ width ∧ s.ownerOf 7
      k = t ∧ s.tbMode tb ≠ 0 ∧ s.standby = false ∧ s.dueTime tb (bitsAt e 12 0 32) = none)
    ∧ (∃ t : Tenant, ∃ r : CmdRing, ∃ e : Entry, ∃ s : State, let u := (bitsAt e 8 0 8); let ok := (onlyFields e
      bistFields && unitValid u); s.Takes 0x60 t r e ∧ ok = false)
    ∧ (∃ t : Tenant, ∃ r : CmdRing, ∃ e : Entry, ∃ s : State, let u := (bitsAt e 8 0 8); let ok := (onlyFields e
      bistFields && unitValid u); s.Takes 0x60 t r e ∧ ok = true ∧ t.val ≠ 0)
    ∧ (∃ t : Tenant, ∃ r : CmdRing, ∃ e : Entry, ∃ s : State, let u := (bitsAt e 8 0 8); let ok := (onlyFields e
      bistFields && unitValid u); s.Takes 0x60 t r e ∧ ok = true ∧ t.val = 0 ∧ Tbl.has s.bst.waits u = true)
    ∧ (∃ t : Tenant, ∃ r : CmdRing, ∃ e : Entry, ∃ s : State, let u := (bitsAt e 8 0 8); let ok := (onlyFields e
      bistFields && unitValid u); s.Takes 0x60 t r e ∧ ok = true ∧ t.val = 0 ∧ Tbl.has s.bst.waits u = false ∧ bitsAt
      e 9 0 1 = 0 ∧ s.bistServes u = true) :=
  ⟨⟨1, 0, 0, ⟨none, 0⟩, State.reset, ((0x00, Instr.nop 1 0 0) : Nat × Instr),
    by dsimp only [State.Takes]; decide +kernel⟩,
   ⟨1, 0, ringed 0, by decide +kernel⟩,
   ⟨(taking 0).setHif { (taking 0).hif with inflight := [flown none], nextId := 1 }, 0, flown none, by decide +kernel⟩,
   ⟨(taking 0).setHif { (taking 0).hif with inflight := [flown none], nextId := 1 }, 0, flown none, .ok,
    by decide +kernel⟩,
   ⟨(taking 0).setHif { (taking 0).hif with inflight := [{ flown none with nocomp := true }], nextId := 1 }, 0,
    { flown none with nocomp := true }, .ok, by decide +kernel⟩,
   ⟨0, 0, 0, taking 0, by dsimp only [State.Takes]; decide +kernel⟩,
   ⟨0, 0, ent [(2, 1)], taking 0, by dsimp only [State.Takes]; decide +kernel⟩,
   ⟨0, 0, ent [(0, 0x70), (8, 5)], taking 0, by dsimp only [State.Takes]; decide +kernel⟩,
   ⟨0, 0, ent [(0, 0x70)], taking 0, by dsimp only [State.Takes]; decide +kernel⟩,
   ⟨0, 0, ent [(0, 0x70), (8, 2)], taking 0, by dsimp only [State.Takes]; decide +kernel⟩,
   ⟨0, 0, ent [(0, 0x70), (8, 3)], taking 0, by dsimp only [State.Takes]; decide +kernel⟩,
   ⟨0, 0, ent [(0, 0x70), (8, 4)], taking 0, by dsimp only [State.Takes]; decide +kernel⟩,
   ⟨0, 0, ent [(0, 0x50), (8, 5), (9, 0xFF)], taking 0, by dsimp only [State.Takes]; decide +kernel⟩,
   ⟨1, 0, ent [(0, 0x50), (10, 2)], taking 1, by dsimp only [State.Takes]; decide +kernel⟩,
   ⟨0, 0, ent [(0, 0x50), (10, 2)], taking 0, by dsimp only [State.Takes]; decide +kernel⟩,
   ⟨0, 0, ent [(0, 0x50), (12, 5000), (20, 100)], (taking 0).setFld (TIM_TB_CTRL 0) TIM_TB_CTRL_MODE 1, 5000,
    by dsimp only [State.Takes]; decide +kernel⟩,
   ⟨0, 0, ent [(0, 0x50), (12, 0xF0000000), (20, 100)], (taking 0).setFld (TIM_TB_CTRL 0) TIM_TB_CTRL_MODE 1,
    by dsimp only [State.Takes]; decide +kernel⟩,
   ⟨0, 0, ent [(0, 0x60), (8, 255)], taking 0, by dsimp only [State.Takes]; decide +kernel⟩,
   ⟨1, 0, ent [(0, 0x60)], taking 1, by dsimp only [State.Takes]; decide +kernel⟩,
   ⟨0, 0, ent [(0, 0x60)], (taking 0).setBst { (taking 0).bst with waits := [(0, ⟨0, false, false⟩)] },
    by dsimp only [State.Takes]; decide +kernel⟩,
   ⟨0, 0, ent [(0, 0x60)], taking 0, by dsimp only [State.Takes]; decide +kernel⟩⟩

/-- States and operands that meet the hypotheses of DispatchSlot, clause by clause. -/
theorem witness_DispatchSlot :
    (∃ s : State, s.hif.rings = [])
    ∧ (∃ s : State, s.arbitrate.2 = none)
    ∧ (∃ s : State, ∃ t : Nat, ∃ r : Nat, ∃ e : Entry, s.arbitrate.2 = some (t, r) ∧ s.head t r = some e)
    ∧ (∃ s : State, ∃ t : Nat, ∃ r : Nat, ∃ e : Entry, s.arbitrate.2 = some (t, r) ∧ s.head t r = some e ∧
      s.ringSizeOk t r = true)
    ∧ (∃ s : State, let q := s.queueShort; q.agedHead = none ∧ (∃ t ∈ q.classOrder 0, ∃ r, q.turn t = .go r)) :=
  ⟨⟨State.reset, by decide +kernel⟩,
   ⟨State.reset, by decide +kernel⟩,
   ⟨(((taking 0).setRing 0 0 { Ring.idle with fetched := [0] }).setBit (RING_CTRL 0 0) RING_CTRL_EN true).setFld (RING_BASE_LO 0 0) RING_BASE_LO_LOG2SIZE 8,
    0, 0, 0, by decide +kernel⟩,
   ⟨(((taking 0).setRing 0 0 { Ring.idle with fetched := [0] }).setBit (RING_CTRL 0 0) RING_CTRL_EN true).setFld (RING_BASE_LO 0 0) RING_BASE_LO_LOG2SIZE 8,
    0, 0, 0, by decide +kernel⟩,
   ⟨(taking 0).setRing 0 0 { Ring.idle with fetched := [0] },
    ⟨by decide +kernel, 0, by decide +kernel, 0, by decide +kernel⟩⟩⟩

/-- States and operands that meet the hypotheses of IntakeStops, clause by clause. -/
theorem witness_IntakeStops :
    ∃ n : Tenant, ∃ v : Word, ∃ s : State, s.pwr.barred = false ∧ s.standby = false ∧ n.val ≠ 0 ∧ (TEN_CFG_STATE.get v
      = 0 ∨ TEN_CFG_STATE.get v = 2) ∧ (TEN_CFG_CLASS.get v = s.tenClass n ∨ s.tenState n = 0) :=
  ⟨1, 0, State.reset, by decide +kernel⟩

/-- States and operands that meet the hypotheses of TenantsGrantsAndReservations, clause by clause. -/
theorem witness_TenantsGrantsAndReservations :
    (∃ s : State, ∃ n : Tenant, s.pwr.barred = false ∧ s.standby = true ∧ n.val ≠ 0)
    ∧ (∃ s : State, s.pwr.barred = false ∧ s.standby = true)
    ∧ (∃ s : State, s.pwr.barred = false)
    ∧ (∃ s : State, ∃ n : Tenant, ∃ v : Word, s.pwr.barred = false ∧ s.standby = false ∧ n.val ≠ 0 ∧
      (TEN_CFG_STATE.get v = 3 ∨ (TEN_CFG_CLASS.get v ≠ s.tenClass n ∧ s.tenState n ≠ 0)))
    ∧ (∃ s : State, ∃ n : Tenant, ∃ v : Word, s.pwr.barred = false ∧ s.standby = false ∧ n.val ≠ 0 ∧ TEN_CFG_STATE.get
      v ≠ 3 ∧ (TEN_CFG_CLASS.get v = s.tenClass n ∨ s.tenState n = 0))
    ∧ (∃ s : State, s.pwr.barred = false ∧ s.standby = false ∧ s.ten.grant = none)
    ∧ (∃ s : State, s.pwr.barred = false ∧ s.standby = false ∧ s.ten.grant ≠ none)
    ∧ (∃ s : State, s.pwr.barred = false ∧ s.ten.grant = none)
    ∧ (∃ s : State, ∃ g : GrantOp, let inRange : Prop := (g.count ≠ 0 ∧ g.first + g.count ≤ kindSize g.kind ∧ g.tenant
      ≠ 0); let source := (if g.revoke then g.tenant else 0); let movable := (fun (i : Nat) => s.ownerOf g.kind i =
      source ∧ s.objectHeld g.kind i = false); s.pwr.barred = false ∧ s.ten.grant = some g ∧ inRange ∧ (∀ i, g.first ≤
      i → i < g.first + g.count → movable i))
    ∧ (∃ s : State, ∃ g : GrantOp, let inRange : Prop := (g.count ≠ 0 ∧ g.first + g.count ≤ kindSize g.kind ∧ g.tenant
      ≠ 0); s.pwr.barred = false ∧ s.ten.grant = some g ∧ (¬inRange))
    ∧ (∃ s : State, ∃ g : GrantOp, ∃ i : _, let inRange : Prop := (g.count ≠ 0 ∧ g.first + g.count ≤ kindSize g.kind ∧
      g.tenant ≠ 0); let source := (if g.revoke then g.tenant else 0); let movable := (fun (i : Nat) => s.ownerOf
      g.kind i = source ∧ s.objectHeld g.kind i = false); s.pwr.barred = false ∧ s.ten.grant = some g ∧ inRange ∧
      g.first ≤ i ∧ i < g.first + g.count ∧ (∀ j, g.first ≤ j → j < i → movable j) ∧ s.ownerOf g.kind i ≠ source)
    ∧ (∃ s : State, ∃ g : GrantOp, ∃ i : _, let inRange : Prop := (g.count ≠ 0 ∧ g.first + g.count ≤ kindSize g.kind ∧
      g.tenant ≠ 0); let source := (if g.revoke then g.tenant else 0); let movable := (fun (i : Nat) => s.ownerOf
      g.kind i = source ∧ s.objectHeld g.kind i = false); s.pwr.barred = false ∧ s.ten.grant = some g ∧ inRange ∧
      g.first ≤ i ∧ i < g.first + g.count ∧ (∀ j, g.first ≤ j → j < i → movable j) ∧ s.ownerOf g.kind i = source ∧
      s.objectHeld g.kind i = true)
    ∧ (∃ s : State, ∃ n : Tenant, ∃ b : Fin 5, ∃ v : Word, let new := (TEN_RSV_VALUE.get v); s.pwr.barred = false ∧
      s.standby = false ∧ new < s.use n b)
    ∧ (∃ s : State, ∃ n : Tenant, ∃ b : Fin 5, ∃ v : Word, let new := (TEN_RSV_VALUE.get v); s.pwr.barred = false ∧
      s.standby = false ∧ s.rsv n b < new ∧ s.cap b < s.rsvSum b - s.rsv n b + new)
    ∧ (∃ s : State, ∃ n : Tenant, ∃ b : Fin 5, ∃ v : Word, let new := (TEN_RSV_VALUE.get v); s.pwr.barred = false ∧
      s.standby = false ∧ s.use n b ≤ new ∧ (new ≤ s.rsv n b ∨ s.rsvSum b - s.rsv n b + new ≤ s.cap b)) :=
  ⟨⟨fov 5, 1, by decide +kernel⟩,
   ⟨fov 5, by decide +kernel⟩,
   ⟨State.reset, by decide +kernel⟩,
   ⟨State.reset, 1, TEN_CFG_STATE.set 0 3, by decide +kernel⟩,
   ⟨State.reset, 1, 0, by decide +kernel⟩,
   ⟨State.reset, by decide +kernel⟩,
   ⟨{ State.reset with ten := { State.reset.ten with grant := some ⟨false, 0, 1, 0, 1⟩ } }, by decide +kernel⟩,
   ⟨State.reset, by decide +kernel⟩,
   ⟨{ State.reset with ten := { State.reset.ten with grant := some ⟨false, 0, 1, 0, 1⟩ } }, ⟨false, 0, 1, 0, 1⟩,
    ⟨by decide +kernel, by decide +kernel, by decide +kernel, fun i _ h => by rw [show i = 0 from Nat.lt_one_iff.mp h]; decide +kernel⟩⟩,
   ⟨{ State.reset with ten := { State.reset.ten with grant := some ⟨false, 0, 1, 0, 0⟩ } }, ⟨false, 0, 1, 0, 0⟩,
    by dsimp only; decide +kernel⟩,
   ⟨{ State.reset with ten := { State.reset.ten with grant := some ⟨true, 0, 1, 0, 1⟩ } }, ⟨true, 0, 1, 0, 1⟩, 0,
    by exact ⟨by decide +kernel, by decide +kernel, by decide +kernel, by decide, by decide, (fun j _ h => absurd h (by omega)), by decide +kernel⟩⟩,
   ⟨{ inSlot 0 (salvo 1 1 true) with ten := { State.reset.ten with grant := some ⟨false, 0, 1, 0, 1⟩ } },
    ⟨false, 0, 1, 0, 1⟩, 0,
    by exact ⟨by decide +kernel, by decide +kernel, by decide +kernel, by decide, by decide, (fun j _ h => absurd h (by omega)), by decide +kernel, by decide +kernel⟩⟩,
   ⟨{ State.reset with ten := { State.reset.ten with allocs := [⟨1, .route 0, ⟨5, 5, 5, 5, 5⟩⟩] } }, 1, 0, 0,
    by decide +kernel⟩,
   ⟨State.reset, 1, 0, 0xFFFFFF, by decide +kernel⟩,
   ⟨{ State.reset with ten := { State.reset.ten with grant := some ⟨true, 0, 1, 0, 1⟩ } }, 1, 0, 0, by decide +kernel⟩⟩

/-- States and operands that meet the hypotheses of MirroredRecords, clause by clause. -/
theorem witness_MirroredRecords :
    (∃ s : State, s.standby = false)
    ∧ (∃ s : State, ∃ off : BitVec 26, s.standby = true ∧ regionWord off.toNat = none)
    ∧ (∃ s : State, ∃ off : BitVec 26, ∃ r : Nat, ∃ k : Nat, s.standby = true ∧ regionWord off.toNat = some (r, k))
    ∧ (∃ s : State, s.standby = true) :=
  ⟨⟨State.reset, by decide +kernel⟩,
   ⟨fov 5, 0, by decide +kernel⟩,
   ⟨fov 5, 0x2C00040, 1, 0, by decide +kernel⟩,
   ⟨fov 5, by decide +kernel⟩⟩

/-- States and operands that meet the hypotheses of RoutesAndSwitchPoints, clause by clause. -/
theorem witness_RoutesAndSwitchPoints :
    (∃ t : Tenant, ∃ r : CmdRing, ∃ e : Entry, ∃ s : State, s.Takes 0x01 t r e ∧ onlyFields e routeFields = false)
    ∧ (∃ t : Tenant, ∃ r : CmdRing, ∃ e : Entry, ∃ s : State, ∃ pre : List (Bool × Status × Nat), ∃ post : List (Bool
      × Status × Nat), ∃ st : Status, ∃ res : Nat, let w := (s.taken t r e ⟨none, 0⟩); let q := (routeReq e); s.Takes
      0x01 t r e ∧ onlyFields e routeFields = true ∧ w.routeFormatChecks q = pre ++ (true, st, res) :: post ∧ (∀ c ∈
      pre, c.1 = false))
    ∧ (∃ t : Tenant, ∃ r : CmdRing, ∃ e : Entry, ∃ s : State, let w := (s.taken t r e ⟨none, 0⟩); let q := (routeReq
      e); let f := (w.routeFmt q); let acted := (w.actedOn q.dst f.width); let ok : Prop := (onlyFields e routeFields
      = true ∧ (∀ c ∈ w.routeFormatChecks q, c.1 = false)); let owned : Prop := (∀ x ∈ acted, w.ownsAll t 0 x.1 x.2 =
      true); s.Takes 0x01 t r e ∧ ok ∧ (¬owned))
    ∧ (∃ t : Tenant, ∃ r : CmdRing, ∃ e : Entry, ∃ s : State, let w := (s.taken t r e ⟨none, 0⟩); let q := (routeReq
      e); let f := (w.routeFmt q); let acted := (w.actedOn q.dst f.width); let ok : Prop := (onlyFields e routeFields
      = true ∧ (∀ c ∈ w.routeFormatChecks q, c.1 = false)); let owned : Prop := (∀ x ∈ acted, w.ownsAll t 0 x.1 x.2 =
      true); let free := (fun (mine : Nat → Bool) => ∀ x ∈ acted, ∀ i < x.2, w.trackHeld (x.1 + i) mine = false);
      s.Takes 0x01 t r e ∧ ok ∧ owned ∧ stagedBit e = false ∧ (¬free (fun _ => true)))
    ∧ (∃ t : Tenant, ∃ r : CmdRing, ∃ e : Entry, ∃ s : State, let w := (s.taken t r e ⟨none, 0⟩); let q := (routeReq
      e); let f := (w.routeFmt q); let c := (w.routeChange q (stagedBit e)); let acted := (w.actedOn q.dst f.width);
      let ok : Prop := (onlyFields e routeFields = true ∧ (∀ c ∈ w.routeFormatChecks q, c.1 = false)); let owned :
      Prop := (∀ x ∈ acted, w.ownsAll t 0 x.1 x.2 = true); let free := (fun (mine : Nat → Bool) => ∀ x ∈ acted, ∀ i <
      x.2, w.trackHeld (x.1 + i) mine = false); s.Takes 0x01 t r e ∧ ok ∧ owned ∧ w.standby = false ∧ stagedBit e =
      false ∧ free (fun _ => true) ∧ w.routeOver t q false (fun a => a.holding == .pending q.dst) = none ∧ c.sync =
      none)
    ∧ (∃ t : Tenant, ∃ r : CmdRing, ∃ e : Entry, ∃ s : State, ∃ y : SyncReq, let w := (s.taken t r e ⟨none, 0⟩); let q
      := (routeReq e); let f := (w.routeFmt q); let c := (w.routeChange q (stagedBit e)); let acted := (w.actedOn
      q.dst f.width); let ok : Prop := (onlyFields e routeFields = true ∧ (∀ c ∈ w.routeFormatChecks q, c.1 = false));
      let owned : Prop := (∀ x ∈ acted, w.ownsAll t 0 x.1 x.2 = true); let free := (fun (mine : Nat → Bool) => ∀ x ∈
      acted, ∀ i < x.2, w.trackHeld (x.1 + i) mine = false); let meeting := (w.xpt.pending.filter (fun x => meets
      q.dst f.width x.1 (w.changeWidth x.1 x.2.change))); s.Takes 0x01 t r e ∧ ok ∧ owned ∧ w.standby = false ∧
      stagedBit e = false ∧ free (fun _ => true) ∧ w.routeOver t q false (fun a => a.holding == .pending q.dst) = none
      ∧ c.sync = some y ∧ w.sync? q.src = none ∧ meeting = [])
    ∧ (∃ t : Tenant, ∃ r : CmdRing, ∃ e : Entry, ∃ s : State, let w := (s.taken t r e ⟨none, 0⟩); let q := (routeReq
      e); let f := (w.routeFmt q); let k := (salvoOf e); let acted := (w.actedOn q.dst f.width); let ok : Prop :=
      (onlyFields e routeFields = true ∧ (∀ c ∈ w.routeFormatChecks q, c.1 = false)); let owned : Prop := (∀ x ∈
      acted, w.ownsAll t 0 x.1 x.2 = true); let free := (fun (mine : Nat → Bool) => ∀ x ∈ acted, ∀ i < x.2,
      w.trackHeld (x.1 + i) mine = false); s.Takes 0x01 t r e ∧ ok ∧ owned ∧ w.standby = false ∧ stagedBit e = true ∧
      w.slotOpen t k = true ∧ w.slotFull t k q.dst = false ∧ free (fun x => x != 4 * t + k) ∧ w.routeOver t q true
      (isStaged t k q.dst) = none)
    ∧ (∃ t : Tenant, ∃ r : CmdRing, ∃ e : Entry, ∃ s : State, s.Takes 0x02 t r e ∧ onlyFields e unrouteFields = false)
    ∧ (∃ t : Tenant, ∃ r : CmdRing, ∃ e : Entry, ∃ s : State, ∃ x : _, let w := (s.taken t r e ⟨none, 0⟩); let d :=
      (bitsAt e 8 0 12); s.Takes 0x02 t r e ∧ onlyFields e unrouteFields = true ∧ w.streamAt d = some x ∧ x.1 ≠ d)
    ∧ (∃ t : Tenant, ∃ r : CmdRing, ∃ e : Entry, ∃ s : State, let w := (s.taken t r e ⟨none, 0⟩); let d := (bitsAt e 8
      0 12); s.Takes 0x02 t r e ∧ onlyFields e unrouteFields = true ∧ w.streamAt d = none ∧ w.route? d = none ∧
      w.touched d 1 = [] ∧ w.ownerOf 0 d ≠ t)
    ∧ (∃ t : Tenant, ∃ r : CmdRing, ∃ e : Entry, ∃ s : State, let w := (s.taken t r e ⟨none, 0⟩); let d := (bitsAt e 8
      0 12); s.Takes 0x02 t r e ∧ onlyFields e unrouteFields = true ∧ w.streamAt d = none ∧ w.route? d = none ∧
      w.touched d 1 = [] ∧ w.ownerOf 0 d = t ∧ stagedBit e = false ∧ w.lostEntry d = false ∧ w.trackHeld d (fun _ =>
      true) = false ∧ w.standby = false)
    ∧ (∃ t : Tenant, ∃ r : CmdRing, ∃ e : Entry, ∃ s : State, ∃ x : Route, let w := (s.taken t r e ⟨none, 0⟩); let d
      := (bitsAt e 8 0 12); s.Takes 0x02 t r e ∧ onlyFields e unrouteFields = true ∧ w.route? d = some x ∧ w.streamAt
      d = some (d, x) ∧ w.touched d x.width = [(d, x.width)] ∧ w.ownsAll t 0 d x.width = true ∧ (∀ i < x.width,
      w.trackHeld (d + i) (fun _ => true) = false) ∧ stagedBit e = false ∧ w.standby = false)
    ∧ (∃ d : Track, ∃ s : State, s.sal.slots = [] ∧ s.pend? d = none)
    ∧ (∃ d : Track, ∃ line : BitVec 11, ∃ s : State, ∃ p : Pend, let f := (s.lineFmt d p.change); s.sal.slots = [] ∧
      s.pend? d = some p ∧ (atSwitchLine f line.toNat = false ∨ lineFrom f s.now (p.at_ + 2000) = false))
    ∧ (∃ d : Track, ∃ line : BitVec 11, ∃ s : State, ∃ p : Pend, ∃ n : Route, let f := (s.lineFmt d p.change);
      s.sal.slots = [] ∧ s.pend? d = some p ∧ atSwitchLine f line.toNat = true ∧ lineFrom f s.now (p.at_ + 2000) =
      true ∧ p.change.route = some n)
    ∧ (∃ d : Track, ∃ line : BitVec 11, ∃ s : State, ∃ p : Pend, let f := (s.lineFmt d p.change); s.sal.slots = [] ∧
      s.pend? d = some p ∧ atSwitchLine f line.toNat = true ∧ lineFrom f s.now (p.at_ + 2000) = true ∧ p.change.route
      = none)
    ∧ (∃ d : Track, ∃ s : State, Tbl.find? s.xpt.seqs d = none)
    ∧ (∃ d : Track, ∃ s : State, ∃ q : FmtSeq, Tbl.find? s.xpt.seqs d = some q)
    ∧ (∃ d : Track, ∃ s : State, essDst d = false ∧ s.route? d = none)
    ∧ (∃ d : Track, ∃ s : State, ∃ r : Route, essDst d = false ∧ s.route? d = some r ∧ Tbl.find? s.xpt.seqs d = none ∧
      s.misfit d r = (false, false)) :=
  ⟨⟨0, 0, ent [(0, 0x01), (2, 1)], taking 0, by dsimp only [State.Takes]; decide +kernel⟩,
   ⟨0, 0, ent [(0, 1), (20, 0xFF)], taking 0, [],
    ((taking 0).taken 0 0 (ent [(0, 1), (20, 0xFF)]) ⟨none, 0⟩).routeFormatChecks (routeReq (ent [(0, 1), (20, 0xFF)])) |>.tail,
    .rejFormat, 0, by dsimp only [State.Takes]; decide +kernel⟩,
   ⟨1, 0, ent [(0, 0x01), (16, p25)], taking 1, by dsimp only [State.Takes]; decide +kernel⟩,
   ⟨0, 0, ent [(0, 0x01), (16, p25)], inSlot 0 (salvo 0 0 true), by dsimp only [State.Takes]; decide +kernel⟩,
   ⟨0, 0, ent [(0, 0x01), (16, p25)], taking 0, by dsimp only [State.Takes]; decide +kernel⟩,
   ⟨0, 0, ent [(0, 0x01), (13, 1), (16, p25)], roomy, ⟨1, 3, true⟩, by dsimp only [State.Takes]; decide +kernel⟩,
   ⟨0, 0, ent [(0, 0x01), (12, 0x80), (16, p25)], inSlot 0 { salvo 0 0 true with entries := [] },
    by dsimp only [State.Takes]; decide +kernel⟩,
   ⟨0, 0, ent [(0, 0x02), (2, 1)], taking 0, by dsimp only [State.Takes]; decide +kernel⟩,
   ⟨0, 0, ent [(0, 0x02), (8, 1)],
    (taking 0).setXpt { (taking 0).xpt with routes := [(0, { path with width := 4 })] },
    (0, { path with width := 4 }), by dsimp only [State.Takes]; decide +kernel⟩,
   ⟨1, 0, ent [(0, 0x02)], taking 1, by dsimp only [State.Takes]; decide +kernel⟩,
   ⟨0, 0, ent [(0, 0x02)], taking 0, by dsimp only [State.Takes]; decide +kernel⟩,
   ⟨0, 0, ent [(0, 0x02)], routed, path, by dsimp only [State.Takes]; decide +kernel⟩,
   ⟨1, State.reset, by decide +kernel⟩,
   ⟨0, 0, (taking 0).setXpt { (taking 0).xpt with pending := [(0, change)] }, change, by decide +kernel⟩,
   ⟨0, 7, ({ (taking 0).setXpt { (taking 0).xpt with pending := [(0, change)] } with now := 80000000 } : State),
    change, path, by decide +kernel⟩,
   ⟨0, 7,
    ({ (taking 0).setXpt { (taking 0).xpt with pending := [(0, ⟨⟨none, Charge.zero, none⟩, 0, 0⟩)] } with now := 80000000 } : State),
    ⟨⟨none, Charge.zero, none⟩, 0, 0⟩, by decide +kernel⟩,
   ⟨1, State.reset, by decide +kernel⟩,
   ⟨1, State.reset.setXpt { State.reset.xpt with seqs := [(1, ⟨f25, [(0, 0, 0)]⟩)] }, ⟨f25, [(0, 0, 0)]⟩,
    by decide +kernel⟩,
   ⟨0, State.reset, by decide +kernel⟩,
   ⟨0, ((aligned 2).setAligner 0 ((aligned 2).aligner 1)).setXpt routed.xpt, path, by decide +kernel⟩⟩

/-- States and operands that meet the hypotheses of CrosspointReadsAndViews, clause by clause. -/
theorem witness_CrosspointReadsAndViews :
    (∃ s : State, s.erased ≤ 2 ∧ s.xpt.turns = [])
    ∧ (∃ s : State, 2 < s.erased ∧ s.xpt.turns = [] ∧ s.cellReads ≠ [])
    ∧ (∃ s : State, ∃ d : Track, ∃ k : Nat, ∃ n : Nat, ∃ p : Fin 16, ∃ v : BitVec 6, s.erased = 0 ∧ s.xpt.turns = [] ∧
      s.cellReads = [(d.val, k)] ∧ v ≠ 0 ∧ s.planeAt p = n ∧ n < 17 ∧ s.retired n = false)
    ∧ (∃ s : State, s.pwr.barred = false)
    ∧ (∃ x : LineUse, ∃ y : LineUse, ∃ n : Nat, ∃ m : Nat, n < x.users ∧ m < y.users)
    ∧ (∃ x : LineUse, ∃ y : LineUse, ∃ n : Nat, ∃ m : Nat, n < x.users ∧ m < y.users ∧ (x, n) ≠ (y, m)) :=
  ⟨⟨State.reset, by decide +kernel⟩,
   ⟨((State.reset.wr (XPT_PMAP 0) 31).wr (XPT_PMAP 1) 31).wr (XPT_PMAP 2) 31 |>.setXpt routed.xpt, by decide +kernel⟩,
   ⟨routed, 0, 0, 0, 0, 1, by decide +kernel⟩,
   ⟨State.reset, by decide +kernel⟩,
   ⟨.media, .media, 0, 0, by decide +kernel⟩,
   ⟨.media, .media, 1, 0, by decide +kernel⟩⟩

/-- States and operands that meet the hypotheses of AlignersAndSynchronisers, clause by clause. -/
theorem witness_AlignersAndSynchronisers :
    (∃ s : State, ∃ k : Track, ((s.aligner k).mode = 0 ∨ (s.aligner k).mode = 2 ∨ canvasSource k = true))
    ∧ (∃ s : State, ∃ k : Track, ∃ at_ : Int, ∃ h : _, ∃ d : _, let a := (s.aligner k); let off := (if essSource k
      then a.off.getD at_ else at_); let w := (s.window k (highFmt a.high) off); (s.aligner k).mode ≠ 0 ∧ (s.aligner
      k).mode ≠ 2 ∧ canvasSource k = false ∧ w = some (h, d))
    ∧ (∃ s : State, ∃ k : Track, ∃ at_ : Int, let a := (s.aligner k); let off := (if essSource k then a.off.getD at_
      else at_); let w := (s.window k (highFmt a.high) off); (s.aligner k).mode ≠ 0 ∧ (s.aligner k).mode ≠ 2 ∧
      canvasSource k = false ∧ w = none ∧ a.mode = 3)
    ∧ (∃ s : State, ∃ k : Track, ∃ at_ : Int, let a := (s.aligner k); let off := (if essSource k then a.off.getD at_
      else at_); let w := (s.window k (highFmt a.high) off); (s.aligner k).mode ≠ 0 ∧ (s.aligner k).mode ≠ 2 ∧
      canvasSource k = false ∧ w = none ∧ a.mode = 1 ∧ s.sync? (s.syncHome k) ≠ none)
    ∧ (∃ s : State, ∃ k : Track, ∃ at_ : Int, let auto := (s.bit FSA_CTRL FSA_CTRL_AUTOPROMO); let a := (s.aligner k);
      let off := (if essSource k then a.off.getD at_ else at_); let w := (s.window k (highFmt a.high) off); (s.aligner
      k).mode ≠ 0 ∧ (s.aligner k).mode ≠ 2 ∧ canvasSource k = false ∧ w = none ∧ a.mode ≠ 3 ∧ (a.mode ≠ 1 ∨ (s.sync?
      (s.syncHome k) = none ∧ (auto = false ∨ s.readers (s.syncHome k) = []))))
    ∧ (∃ s : State, ∃ k : Track, ∃ at_ : Int, let a := (s.aligner k); let off := (if essSource k then a.off.getD at_
      else at_); let w := (s.window k (highFmt a.high) off); (s.aligner k).mode ≠ 0 ∧ (s.aligner k).mode ≠ 2 ∧
      canvasSource k = false ∧ w = none ∧ a.mode = 1)
    ∧ (∃ s : State, ∃ k : Track, ∃ off : Int, let w := (s.window k (highFmt (s.aligner k).high) off); ((s.aligner
      k).mode ≠ 2 ∨ canvasSource k = true ∨ w ≠ none))
    ∧ (∃ s : State, ∃ k : Track, ∃ off : Int, let w := (s.window k (highFmt (s.aligner k).high) off); (s.aligner
      k).mode = 2 ∧ canvasSource k = false ∧ w = none ∧ s.sync? (s.syncHome k) ≠ none)
    ∧ (∃ s : State, ∃ k : Track, ∃ off : Int, let auto := (s.bit FSA_CTRL FSA_CTRL_AUTOPROMO); let w := (s.window k
      (highFmt (s.aligner k).high) off); (s.aligner k).mode = 2 ∧ canvasSource k = false ∧ w = none ∧ s.sync?
      (s.syncHome k) = none ∧ (auto = false ∨ s.readers (s.syncHome k) = []))
    ∧ (∃ s : State, ∃ k : Track, ∃ off : Int, let w := (s.window k (highFmt (s.aligner k).high) off); (s.aligner
      k).mode = 2 ∧ canvasSource k = false ∧ w = none)
    ∧ (∃ s : State, ∃ k : Track, ∃ off : Int, ∃ j : Bool, ∃ x : _, let auto := (s.bit FSA_CTRL FSA_CTRL_AUTOPROMO);
      let unitsOf := (fun (k : Nat) => syncUnits (highFmt (s.aligner k).high)); let w := (s.window k (highFmt
      (s.aligner k).high) off); (s.aligner k).mode = 2 ∧ canvasSource k = false ∧ w = none ∧ auto = true ∧ s.syncHome
      k = k ∧ s.sync? k = none ∧ s.readers k ≠ [] ∧ s.findHolder k (unitsOf k) = some x ∧ j = false ∧ (s.aligner
      k).hops ≠ 0 ∧ (s.aligner k).hops ≠ 3)
    ∧ (∃ s : State, ∃ k : Track, s.sync? k = none)
    ∧ (∃ s : State, ∃ k : Track, ∃ x : SyncUnit, ∃ i : _, s.sync? k = some x ∧ x.lost = some i)
    ∧ (∃ s : State, ∃ k : Track, ∃ x : SyncUnit, s.sync? k = some x ∧ x.lost = none ∧ x.last = none)
    ∧ (∃ s : State, ∃ k : Track, ∃ n : Nat, ∃ x : SyncUnit, s.sync? k = some x ∧ x.lost = none ∧ x.last = some n)
    ∧ (∃ s : State, ∃ k : Track, ∃ n : Nat, ∃ x : SyncUnit, ∃ l : _, s.sync? k = some x ∧ x.lost = none ∧ x.last =
      some l ∧ l ≠ n)
    ∧ (∃ s : State, ∃ k : Track, let a := (s.aligner k); let raster := ((highFmt a.high).raster); let acts : Prop :=
      (a.mode = 3 ∧ s.bit FSA_CTRL FSA_CTRL_CONCEAL = true ∧ raster ≠ 1 ∧ raster ≠ 2); (¬acts))
    ∧ (∃ s : State, ∃ k : Track, ∃ n : Nat, let a := (s.aligner k); let raster := ((highFmt a.high).raster); let acts
      : Prop := (a.mode = 3 ∧ s.bit FSA_CTRL FSA_CTRL_CONCEAL = true ∧ raster ≠ 1 ∧ raster ≠ 2); let run := (if n =
      a.errLine + 1 ∧ a.errRun ≠ 0 then a.errRun + 1 else 1); let lim := (min 8 (s.fld FSA_CTRL FSA_CTRL_CONCMAX));
      acts ∧ run ≤ lim)
    ∧ (∃ s : State, ∃ k : Track, ∃ n : Nat, let a := (s.aligner k); let raster := ((highFmt a.high).raster); let acts
      : Prop := (a.mode = 3 ∧ s.bit FSA_CTRL FSA_CTRL_CONCEAL = true ∧ raster ≠ 1 ∧ raster ≠ 2); let run := (if n =
      a.errLine + 1 ∧ a.errRun ≠ 0 then a.errRun + 1 else 1); let lim := (min 8 (s.fld FSA_CTRL FSA_CTRL_CONCMAX));
      acts ∧ run = lim + 1)
    ∧ (∃ s : State, ∃ k : Track, ∃ n : Nat, let a := (s.aligner k); let raster := ((highFmt a.high).raster); let acts
      : Prop := (a.mode = 3 ∧ s.bit FSA_CTRL FSA_CTRL_CONCEAL = true ∧ raster ≠ 1 ∧ raster ≠ 2); let run := (if n =
      a.errLine + 1 ∧ a.errRun ≠ 0 then a.errRun + 1 else 1); let lim := (min 8 (s.fld FSA_CTRL FSA_CTRL_CONCMAX));
      acts ∧ lim + 1 < run)
    ∧ (∃ m : MemCtl, ∃ r : _, ∃ q : _, m.cycle = 31 ∧ m.aged = r :: q)
    ∧ (∃ m : MemCtl, (m.cycle ≠ 31 ∨ m.aged = []))
    ∧ (∃ m : MemCtl, ∃ l : List Nat, (m.cycle ≠ 31 ∨ m.aged = []) ∧ l = [])
    ∧ (∃ m : MemCtl, ∃ l : List Nat, (m.cycle ≠ 31 ∨ m.aged = []) ∧ l ≠ [])
    ∧ (∃ m : MemCtl, ∃ l : List Nat, ∃ r : _, (m.cycle ≠ 31 ∨ m.aged = []) ∧ l ≠ [] ∧ r ∈ l ∧ m.last < r)
    ∧ (∃ m : MemCtl, ∃ l : List Nat, ∃ r : _, let n := (m.turn l); (m.cycle ≠ 31 ∨ m.aged = []) ∧ l ≠ [] ∧ r ∈ l ∧
      n.last ≤ m.last)
    ∧ (∃ s : State, s.pwr.barred = false) :=
  ⟨⟨State.reset, 1, by decide +kernel⟩,
   ⟨(State.reset.setAligner 1 { Aligner.idle with mode := 1, high := 0x305, inside := true }), 1, 0, 0, 84480,
    by decide +kernel⟩,
   ⟨aligned 3, 1, -20000000000, by decide +kernel⟩,
   ⟨(aligned 1).setSync 1 unit, 1, -20000000000, by decide +kernel⟩,
   ⟨aligned 1, 1, -20000000000, by decide +kernel⟩,
   ⟨aligned 1, 1, -20000000000, by decide +kernel⟩,
   ⟨aligned 1, 1, 0, by decide +kernel⟩,
   ⟨(aligned 2).setSync 1 unit, 1, -20000000000, by decide +kernel⟩,
   ⟨(State.reset.setAligner 1 { Aligner.idle with mode := 2, high := 0x305, inside := true }), 1, -20000000000,
    by decide +kernel⟩,
   ⟨(State.reset.setAligner 1 { Aligner.idle with mode := 2, high := 0x305, inside := true }), 1, -20000000000,
    by decide +kernel⟩,
   ⟨((State.reset.setAligner 1024 { Aligner.idle with mode := 2, high := 0x305, inside := true, hops := 1 }).setXpt { State.reset.xpt with routes := [(0, { path with src := 1024 })] }).setFld (TEN_RSV 0 0) TEN_RSV_VALUE 100,
    1024, -20000000000, false, (0, 0), by decide +kernel⟩,
   ⟨State.reset, 1, by decide +kernel⟩,
   ⟨synced { unit with lost := some 0 }, 1, { unit with lost := some 0 }, 0, by decide +kernel⟩,
   ⟨synced unit, 1, unit, by decide +kernel⟩,
   ⟨synced { unit with last := some 0 }, 1, 0, { unit with last := some 0 }, by decide +kernel⟩,
   ⟨synced { unit with last := some 0 }, 1, 1, { unit with last := some 0 }, 0, by decide +kernel⟩,
   ⟨aligned 1, 1, by dsimp only; decide +kernel⟩,
   ⟨(aligned 3).setFld FSA_CTRL FSA_CTRL_CONCEAL 1, 1, 5, by dsimp only; decide +kernel⟩,
   ⟨((State.reset.setAligner 1 { Aligner.idle with mode := 3, high := 0x305, errLine := 4, errRun := 2 }).setFld FSA_CTRL FSA_CTRL_CONCEAL 1).setFld FSA_CTRL FSA_CTRL_CONCMAX 2,
    1, 5, by dsimp only; decide +kernel⟩,
   ⟨((State.reset.setAligner 1 { Aligner.idle with mode := 3, high := 0x305, errLine := 4, errRun := 3 }).setFld FSA_CTRL FSA_CTRL_CONCEAL 1).setFld FSA_CTRL FSA_CTRL_CONCMAX 2,
    1, 5, by dsimp only; decide +kernel⟩,
   ⟨⟨[1], 31, 0⟩, 1, [], by decide +kernel⟩,
   ⟨⟨[], 0, 0⟩, by decide +kernel⟩,
   ⟨⟨[], 0, 0⟩, [], by decide +kernel⟩,
   ⟨⟨[], 0, 0⟩, [1], by decide +kernel⟩,
   ⟨⟨[], 0, 0⟩, [1], 1, by decide +kernel⟩,
   ⟨⟨[], 0, 5⟩, [1], 1, by decide +kernel⟩,
   ⟨State.reset, by decide +kernel⟩⟩

/-- States and operands that meet the hypotheses of MemoryStackFailure, clause by clause. -/
theorem witness_MemoryStackFailure :
    (∃ k : Fin 2, ∃ s : State, s.bit FSA_MEMSTAT (if k.val = 0 then FSA_MEMSTAT_STK0 else FSA_MEMSTAT_STK1) = false)
    ∧ (∃ k : Fin 2, ∃ s : State, let f := (if k.val = 0 then FSA_MEMSTAT_STK0 else FSA_MEMSTAT_STK1); s.bit
      FSA_MEMSTAT f = true)
    ∧ (∃ s : State, ∃ code : Nat, s.totalUse code ≤ s.cap code)
    ∧ (∃ s : State, ∃ code : Nat, ∃ a : Alloc, s.nextShed code = some a)
    ∧ (∃ s : State, ∃ code : Nat, ∃ a : Alloc, ∃ b : _, s.nextShed code = some a ∧ b ∈ s.ten.allocs ∧ b.charge.get
      code ≠ 0)
    ∧ (∃ s : State, ∃ code : Nat, ∃ a : Alloc, ∃ b : _, s.nextShed code = some a ∧ b ∈ s.ten.allocs ∧ b.charge.get
      code ≠ 0 ∧ s.tenClass b.owner = s.tenClass a.owner) :=
  ⟨⟨0, State.reset.setBit FSA_MEMSTAT FSA_MEMSTAT_STK0 false, by decide +kernel⟩,
   ⟨0, State.reset, by dsimp only; decide +kernel⟩,
   ⟨State.reset, 0, by decide +kernel⟩,
   ⟨State.reset.alloc 0 (.route 0) ⟨0, 3, 0, 0, 0⟩, 1, ⟨0, .route 0, ⟨0, 3, 0, 0, 0⟩⟩, by decide +kernel⟩,
   ⟨State.reset.alloc 0 (.route 0) ⟨0, 3, 0, 0, 0⟩, 1, ⟨0, .route 0, ⟨0, 3, 0, 0, 0⟩⟩,
    ⟨0, .route 0, ⟨0, 3, 0, 0, 0⟩⟩, by decide +kernel⟩,
   ⟨State.reset.alloc 0 (.route 0) ⟨0, 3, 0, 0, 0⟩, 1, ⟨0, .route 0, ⟨0, 3, 0, 0, 0⟩⟩,
    ⟨0, .route 0, ⟨0, 3, 0, 0, 0⟩⟩, by decide +kernel⟩⟩

/-- States and operands that meet the hypotheses of CanvasAndStillCommands, clause by clause. -/
theorem witness_CanvasAndStillCommands :
    (∃ t : Tenant, ∃ r : CmdRing, ∃ e : Entry, ∃ s : State, let w := (s.taken t r e ⟨none, 0⟩); let c := (bitsAt e 8 0
      6); let out := ((canvasDefOf e).out); let plain : Prop := (out.bits = 0 ∨ out.valid = true); s.Takes 0x10 t r e
      ∧ onlyFields e canvasFields = true ∧ w.standby = false ∧ w.canvasMigrating c = false ∧ w.canvasHeld c = false ∧
      bitsAt e 9 7 1 = 1 ∧ (¬plain))
    ∧ (∃ t : Tenant, ∃ r : CmdRing, ∃ e : Entry, ∃ s : State, let w := (s.taken t r e ⟨none, 0⟩); let c := (bitsAt e 8
      0 6); let out := ((canvasDefOf e).out); let plain : Prop := (out.bits = 0 ∨ out.valid = true); s.Takes 0x10 t r
      e ∧ onlyFields e canvasFields = true ∧ w.standby = false ∧ w.canvasMigrating c = false ∧ w.canvasHeld c = false
      ∧ bitsAt e 9 7 1 = 1 ∧ plain ∧ s.ownerOf 1 c = t ∧ (w.canvas c).planned = none)
    ∧ (∃ t : Tenant, ∃ r : CmdRing, ∃ e : Entry, ∃ s : State, let w := (s.taken t r e ⟨none, 0⟩); let c := (bitsAt e 8
      0 6); let out := ((canvasDefOf e).out); let plain : Prop := (out.bits = 0 ∨ out.valid = true); s.Takes 0x10 t r
      e ∧ onlyFields e canvasFields = true ∧ w.standby = false ∧ w.canvasMigrating c = false ∧ w.canvasHeld c = false
      ∧ bitsAt e 9 7 1 = 1 ∧ plain ∧ s.ownerOf 1 c = t ∧ (w.canvas c).planned ≠ none)
    ∧ (∃ t : Tenant, ∃ r : CmdRing, ∃ e : Entry, ∃ s : State, let w := (s.taken t r e ⟨none, 0⟩); let c := (bitsAt e 8
      0 6); let d := (canvasDefOf e); s.Takes 0x10 t r e ∧ onlyFields e canvasFields = true ∧ w.standby = false ∧
      w.canvasMigrating c = false ∧ w.canvasHeld c = false ∧ bitsAt e 9 7 1 = 0 ∧ canvasFormatBad c d = false ∧
      d.out.raster ≠ 8 ∧ (∀ x, (w.canvas c).planned = some x → x.engine = d.engine) ∧ s.ownerOf 1 c ≠ t)
    ∧ (∃ t : Tenant, ∃ r : CmdRing, ∃ e : Entry, ∃ s : State, ∃ x : _, let w := (s.taken t r e ⟨none, 0⟩); let id :=
      s.hif.nextId; let c := (bitsAt e 8 0 6); let d := (canvasDefOf e); s.Takes 0x10 t r e ∧ onlyFields e
      canvasFields = true ∧ w.standby = false ∧ w.canvasMigrating c = false ∧ w.canvasHeld c = false ∧ bitsAt e 9 7 1
      = 0 ∧ canvasFormatBad c d = false ∧ d.out.raster ≠ 8 ∧ (∀ x, (w.canvas c).planned = some x → x.engine =
      d.engine) ∧ s.ownerOf 1 c = t ∧ w.fenced (unitEngine d.engine) = false ∧ w.canvasTaken c = false ∧ w.canvasOver
      t c true (w.plan t c (.define d) id) = some x)
    ∧ (∃ t : Tenant, ∃ r : CmdRing, ∃ e : Entry, ∃ s : State, let w := (s.taken t r e ⟨none, 0⟩); let id :=
      s.hif.nextId; let c := (bitsAt e 8 0 6); let d := (canvasDefOf e); s.Takes 0x10 t r e ∧ onlyFields e
      canvasFields = true ∧ w.standby = false ∧ w.canvasMigrating c = false ∧ w.canvasHeld c = false ∧ bitsAt e 9 7 1
      = 0 ∧ canvasFormatBad c d = false ∧ d.out.raster ≠ 8 ∧ (∀ x, (w.canvas c).planned = some x → x.engine =
      d.engine) ∧ s.ownerOf 1 c = t ∧ w.fenced (unitEngine d.engine) = false ∧ w.canvasTaken c = false ∧ w.canvasOver
      t c true (w.plan t c (.define d) id) = none ∧ unitEngine d.engine ∉ s.bst.slicing)
    ∧ (∃ t : Tenant, ∃ r : CmdRing, ∃ e : Entry, ∃ s : State, let w := (s.taken t r e ⟨none, 0⟩); let c := (bitsAt e 8
      0 6); let i := (bitsAt e 9 0 5); s.Takes 0x11 t r e ∧ onlyFields e layerFields = true ∧ w.standby = false ∧
      w.canvasMigrating c = false ∧ w.canvasDefined c = true ∧ s.ownerOf 1 c = t ∧ w.layerHeld c i (fun _ => true) =
      false ∧ bitsAt e 10 7 1 = 0 ∧ bitsAt e 11 0 1 = 0 ∧ (w.canvas c).plannedLayer i = none)
    ∧ (∃ t : Tenant, ∃ r : CmdRing, ∃ e : Entry, ∃ s : State, let w := (s.taken t r e ⟨none, 0⟩); let c := (bitsAt e 8
      0 6); let i := (bitsAt e 9 0 5); s.Takes 0x11 t r e ∧ onlyFields e layerFields = true ∧ w.standby = false ∧
      w.canvasMigrating c = false ∧ w.canvasDefined c = true ∧ s.ownerOf 1 c = t ∧ w.layerHeld c i (fun _ => true) =
      false ∧ bitsAt e 10 7 1 = 0 ∧ bitsAt e 11 0 1 = 0 ∧ (w.canvas c).plannedLayer i ≠ none)
    ∧ (∃ t : Tenant, ∃ r : CmdRing, ∃ e : Entry, ∃ s : State, let w := (s.taken t r e ⟨none, 0⟩); let c := (bitsAt e 8
      0 6); let i := (bitsAt e 9 0 5); let l := (layerOf e); s.Takes 0x11 t r e ∧ onlyFields e layerFields = true ∧
      w.standby = false ∧ w.canvasMigrating c = false ∧ w.canvasDefined c = true ∧ s.ownerOf 1 c = t ∧ w.layerHeld c i
      (fun _ => true) = false ∧ bitsAt e 10 7 1 = 0 ∧ bitsAt e 11 0 1 = 1 ∧ w.layerFormatBad c l = true)
    ∧ (∃ t : Tenant, ∃ r : CmdRing, ∃ e : Entry, ∃ s : State, let w := (s.taken t r e ⟨none, 0⟩); let id :=
      s.hif.nextId; let m := (w.mirrorCommand id); let c := (bitsAt e 8 0 6); let i := (bitsAt e 9 0 5); let l :=
      (layerOf e); let next := (w.plan t c (.layer i (some l)) id); s.Takes 0x11 t r e ∧ onlyFields e layerFields =
      true ∧ w.standby = false ∧ w.canvasMigrating c = false ∧ w.canvasDefined c = true ∧ s.ownerOf 1 c = t ∧
      w.layerHeld c i (fun _ => true) = false ∧ bitsAt e 10 7 1 = 0 ∧ bitsAt e 11 0 1 = 1 ∧ w.layerFormatBad c l =
      false ∧ w.layerSourceOwned t l = true ∧ next.layerCount ≤ 1024 ∧ (∀ m < 64, next.chainDepth 6 m ≤ 4) ∧
      w.canvasOver t c false next = none)
    ∧ (∃ t : Tenant, ∃ r : CmdRing, ∃ e : Entry, ∃ s : State, let w := (s.taken t r e ⟨none, 0⟩); let n := (bitsAt e 8
      0 12); let k := (bitsAt e 10 0 6); let old := (w.allSlices.find? (fun y => y.1 == n)); let quiet := (fun (k :
      Nat) => w.canvasMigrating k = false ∧ w.canvasHeld k = false); s.Takes 0x12 t r e ∧ onlyFields e sliceFields =
      true ∧ w.standby = false ∧ s.ownerOf 5 n = t ∧ bitsAt e 11 0 1 = 0 ∧ old = none ∧ (w.canvas k).planned ≠ none ∧
      s.ownerOf 1 k = t ∧ quiet k)
    ∧ (∃ t : Tenant, ∃ r : CmdRing, ∃ e : Entry, ∃ s : State, ∃ y : _, let w := (s.taken t r e ⟨none, 0⟩); let n :=
      (bitsAt e 8 0 12); let k := y.2.canvas; let old := (w.allSlices.find? (fun y => y.1 == n)); let quiet := (fun (k
      : Nat) => w.canvasMigrating k = false ∧ w.canvasHeld k = false); s.Takes 0x12 t r e ∧ onlyFields e sliceFields =
      true ∧ w.standby = false ∧ s.ownerOf 5 n = t ∧ bitsAt e 11 0 1 = 0 ∧ old = some y ∧ (w.canvas k).planned ≠ none
      ∧ s.ownerOf 1 k = t ∧ s.ownerOf 3 y.2.flow = t ∧ quiet k)
    ∧ (∃ t : Tenant, ∃ r : CmdRing, ∃ e : Entry, ∃ s : State, ∃ d : CanvasDef, ∃ f : Flow, let w := (s.taken t r e
      ⟨none, 0⟩); let id := s.hif.nextId; let n := (bitsAt e 8 0 12); let k := (bitsAt e 10 0 6); let old :=
      (w.allSlices.find? (fun y => y.1 == n)); let quiet := (fun (k : Nat) => w.canvasMigrating k = false ∧
      w.canvasHeld k = false); let g := (bitsAt e 20 0 12); let x := (rectOf e 12 false); s.Takes 0x12 t r e ∧
      onlyFields e sliceFields = true ∧ w.standby = false ∧ s.ownerOf 5 n = t ∧ bitsAt e 11 0 1 = 1 ∧ old = none ∧
      (w.canvas k).planned = some d ∧ (w.tx g).planned = some f ∧ f.slice = true ∧ 8 ≤ x.w ∧ 8 ≤ x.h ∧ x.inside
      d.width d.height = true ∧ (1 < d.sampling ∨ (x.x % 2 = 0 ∧ x.w % 2 = 0)) ∧ (∀ y ∈ w.allSlices ++ w.cmp.slices,
      y.1 ≠ n → y.2.flow ≠ g) ∧ (∀ y ∈ w.plannedSlices k, y.1 ≠ n → w.sliceTb y.2.flow = w.sliceTb g) ∧ s.ownerOf 1 k
      = t ∧ s.ownerOf 3 g = t ∧ quiet k ∧ w.canvasOver t k false (w.plan t k (.slice n (some ⟨k, x, g⟩)) id) = none)
    ∧ (∃ t : Tenant, ∃ r : CmdRing, ∃ e : Entry, ∃ s : State, let w := (s.taken t r e ⟨none, 0⟩); let n := (bitsAt e 8
      0 12); let x : Still := (⟨bitsAt e 10 0 16, bitsAt e 12 0 16, bitsAt e 14 0 2, bitsAt e 14 2 2, bitsAt e 14 4 1,
      []⟩); s.Takes 0x13 t r e ∧ onlyFields e stillFields = true ∧ w.standby = false ∧ x.transfer ≠ 3 ∧ x.width ≠ 0 ∧
      x.height ≠ 0 ∧ s.ownerOf 8 n = t ∧ hostOk (bitsAt e 16 0 64) (bitsAt e 24 0 32) = true ∧ w.stillShown n = false
      ∧ w.stillSafe n = false ∧ w.overBudget t x.charge (fun _ => false) = none ∧ Tbl.has s.cmp.loads n = false)
    ∧ (∃ t : Tenant, ∃ r : CmdRing, ∃ e : Entry, ∃ s : State, ∃ size : Nat, ∃ f : Fmt, let w := (s.taken t r e ⟨none,
      0⟩); let n := (bitsAt e 8 0 12); let k := (bitsAt e 12 0 16); let cv := (bitsAt e 10 0 1 == 1); s.Takes 0x40 t r
      e ∧ onlyFields e grabFields = true ∧ w.grabSource cv n = some (size, f) ∧ k ≠ 0 ∧ (cv = true → s.ownerOf 1 n =
      t) ∧ hostOk (bitsAt e 16 0 64) (bitsAt e 24 0 32) = true ∧ bitsAt e 24 0 32 < k * size)
    ∧ (∃ t : Tenant, ∃ r : CmdRing, ∃ e : Entry, ∃ s : State, ∃ size : Nat, ∃ f : Fmt, let w := (s.taken t r e ⟨none,
      0⟩); let n := (bitsAt e 8 0 12); let k := (bitsAt e 12 0 16); let cv := (bitsAt e 10 0 1 == 1); let q := (14 +
      bitsAt e 11 0 1); s.Takes 0x40 t r e ∧ onlyFields e grabFields = true ∧ w.grabSource cv n = some (size, f) ∧ k ≠
      0 ∧ (cv = true → s.ownerOf 1 n = t) ∧ hostOk (bitsAt e 16 0 64) (bitsAt e 24 0 32) = true ∧ k * size ≤ bitsAt e
      24 0 32 ∧ s.ringOn t q = false)
    ∧ (∃ t : Tenant, ∃ r : CmdRing, ∃ e : Entry, ∃ s : State, ∃ size : Nat, ∃ f : Fmt, ∃ x : Cmd, ∃ ch : Nat, let w :=
      (s.taken t r e ⟨none, 0⟩); let id := s.hif.nextId; let n := (bitsAt e 8 0 12); let k := (bitsAt e 12 0 16); let
      cv := (bitsAt e 10 0 1 == 1); let q := (14 + bitsAt e 11 0 1); s.Takes 0x40 t r e ∧ onlyFields e grabFields =
      true ∧ w.grabSource cv n = some (size, f) ∧ k ≠ 0 ∧ (cv = true → s.ownerOf 1 n = t) ∧ hostOk (bitsAt e 16 0 64)
      (bitsAt e 24 0 32) = true ∧ k * size ≤ bitsAt e 24 0 32 ∧ s.ringOn t q = true ∧ w.inflightOf id = some x ∧
      x.channel = some ch)
    ∧ (∃ n : Fin 4096, ∃ s : State, Tbl.find? s.cmp.loads n = none)
    ∧ (∃ n : Fin 4096, ∃ data : List Byte, ∃ s : State, ∃ x : StillLoad, ∃ c : Cmd, ∃ ch : Nat, let fails : Bool :=
      (x.coded && dirBad x.still.sampling (data.take (tilesOf x.still.width x.still.height))); Tbl.find? s.cmp.loads n
      = some x ∧ s.inflightOf x.cmd = some c ∧ c.channel = some ch ∧ fails = true)
    ∧ (∃ n : Fin 4096, ∃ data : List Byte, ∃ s : State, ∃ x : StillLoad, ∃ c : Cmd, ∃ ch : Nat, let fails : Bool :=
      (x.coded && dirBad x.still.sampling (data.take (tilesOf x.still.width x.still.height))); Tbl.find? s.cmp.loads n
      = some x ∧ s.inflightOf x.cmd = some c ∧ c.channel = some ch ∧ fails = false)
    ∧ (∃ ch : Fin 48, ∃ s : State, Tbl.find? s.cmp.grabs ch = none)
    ∧ (∃ ch : Fin 48, ∃ s : State, ∃ g : Grab, Tbl.find? s.cmp.grabs ch = some g ∧ g.owed ≠ none)
    ∧ (∃ ch : Fin 48, ∃ s : State, ∃ g : Grab, Tbl.find? s.cmp.grabs ch = some g ∧ g.owed = none ∧ s.ringOn g.tenant
      g.ring = true ∧ s.ringFull g.tenant g.ring = false)
    ∧ (∃ ch : Fin 48, ∃ s : State, ∃ g : Grab, Tbl.find? s.cmp.grabs ch = some g ∧ g.owed = none ∧ s.ringOn g.tenant
      g.ring = true ∧ s.ringFull g.tenant g.ring = true) :=
  ⟨⟨0, 0, ent [(0, 0x10), (9, 0x80), (24, 1)], taking 0, by dsimp only [State.Takes]; decide +kernel⟩,
   ⟨0, 0, ent [(0, 0x10), (9, 0x80)], taking 0, by dsimp only [State.Takes]; decide +kernel⟩,
   ⟨0, 0, ent [(0, 0x10), (9, 0x80)],
    (taking 0).setCanvas 0 { CanvasState.idle with now := some ⟨0, 320, 80, 3, 0, 0, 0, 0, Fmt.zero⟩ },
    by dsimp only [State.Takes]; decide +kernel⟩,
   ⟨1, 0, ent [(0, 0x10), (10, 320), (12, 80), (14, 3)], taking 1, by dsimp only [State.Takes]; decide +kernel⟩,
   ⟨0, 0, ent [(0, 0x10), (10, 320), (12, 80), (14, 3)], taking 0, 2, by dsimp only [State.Takes]; decide +kernel⟩,
   ⟨0, 0, ent [(0, 0x10), (10, 320), (12, 80), (14, 3)], roomy, by dsimp only [State.Takes]; decide +kernel⟩,
   ⟨0, 0, ent [(0, 0x11)],
    (taking 0).setCanvas 0 { CanvasState.idle with now := some ⟨0, 320, 80, 3, 0, 0, 0, 0, Fmt.zero⟩ },
    by dsimp only [State.Takes]; decide +kernel⟩,
   ⟨0, 0, ent [(0, 0x11)], canvassed { CanvasState.idle with layers := [(0, layer)] },
    by dsimp only [State.Takes]; decide +kernel⟩,
   ⟨0, 0, ent [(0, 0x11), (11, 0x31)],
    (taking 0).setCanvas 0 { CanvasState.idle with now := some ⟨0, 320, 80, 3, 0, 0, 0, 0, Fmt.zero⟩ },
    by dsimp only [State.Takes]; decide +kernel⟩,
   ⟨0, 0, ent [(0, 0x11), (11, 0x11), (12, 1), (20, 32), (22, 8), (28, 32), (30, 8)],
    (canvassed CanvasState.idle).setCmp { (canvassed CanvasState.idle).cmp with stills := [(1, still)] },
    by dsimp only [State.Takes]; decide +kernel⟩,
   ⟨0, 0, ent [(0, 0x12)],
    (taking 0).setCanvas 0 { CanvasState.idle with now := some ⟨0, 320, 80, 3, 0, 0, 0, 0, Fmt.zero⟩ },
    by dsimp only [State.Takes]; decide +kernel⟩,
   ⟨0, 0, ent [(0, 0x12)],
    (canvassed CanvasState.idle).setCmp { (canvassed CanvasState.idle).cmp with slices := [(0, ⟨0, ⟨0, 0, 32, 8⟩, 0⟩)] },
    (0, ⟨0, ⟨0, 0, 32, 8⟩, 0⟩), by dsimp only [State.Takes]; decide +kernel⟩,
   ⟨0, 0, ent [(0, 0x12), (11, 1), (16, 32), (18, 8), (20, 5)],
    (canvassed CanvasState.idle).setTx 5 { FlowTx.idle with now := some { flow 0 0 false Fmt.zero pbk with slice := true } },
    small, { flow 0 0 false Fmt.zero pbk with slice := true }, by dsimp only [State.Takes]; decide +kernel⟩,
   ⟨0, 0, ent [(0, 0x13), (10, 32), (12, 8), (24, 640)],
    (((taking 0).setFld (TEN_RSV 0 2) TEN_RSV_VALUE 9000).setFld (TEN_RSV 0 3) TEN_RSV_VALUE 9000).setFld (TEN_RSV 0 4) TEN_RSV_VALUE 9000,
    by dsimp only [State.Takes]; decide +kernel⟩,
   ⟨0, 0, ent [(0, 0x40), (10, 1), (12, 1), (24, 64)], canvassed CanvasState.idle, planeSize 320 80 (tileRaw 2),
    Fmt.zero, by dsimp only [State.Takes]; decide +kernel⟩,
   ⟨0, 0, ent [(0, 0x40), (10, 1), (12, 1), (24, 0x100000)], canvassed CanvasState.idle,
    planeSize 320 80 (tileRaw 2), Fmt.zero, by dsimp only [State.Takes]; decide +kernel⟩,
   ⟨0, 0, ent [(0, 0x40), (10, 1), (12, 1), (24, 0x100000)],
    (canvassed CanvasState.idle).setBit (RING_CTRL 0 14) RING_CTRL_EN true, planeSize 320 80 (tileRaw 2), Fmt.zero,
    ⟨0, 0, 0, 0, 0, false, false, some 0, ent [(0, 0x40), (10, 1), (12, 1), (24, 0x100000)], ⟨none, 0⟩⟩, 0,
    by dsimp only [State.Takes]; decide +kernel⟩,
   ⟨0, State.reset, by decide +kernel⟩,
   ⟨0, [255],
    (State.reset.setCmp { State.reset.cmp with loads := [(0, ⟨still, true, 0, 4096, 128⟩)] }).setHif { State.reset.hif with inflight := [flown (some 0)] },
    ⟨still, true, 0, 4096, 128⟩, flown (some 0), 0, by decide +kernel⟩,
   ⟨0, [],
    (State.reset.setCmp { State.reset.cmp with loads := [(0, ⟨still, false, 0, 4096, 128⟩)] }).setHif { State.reset.hif with inflight := [flown (some 0)] },
    ⟨still, false, 0, 4096, 128⟩, flown (some 0), 0, by decide +kernel⟩,
   ⟨0, State.reset, by decide +kernel⟩,
   ⟨0, (ringed 14).setCmp { State.reset.cmp with grabs := [(0, grabbed)] }, grabbed, by decide +kernel⟩,
   ⟨0, (ringed 14).setCmp { State.reset.cmp with grabs := [(0, { grabbed with owed := none })] },
    { grabbed with owed := none }, by decide +kernel⟩,
   ⟨0,
    ((ringed 14).setFld (RING_DEV_IDX 1 14) RING_DEV_IDX_IDX 255).setCmp { State.reset.cmp with grabs := [(0, { grabbed with owed := none })] },
    { grabbed with owed := none }, by decide +kernel⟩⟩

/-- States and operands that meet the hypotheses of CanvasFramesAndRegions, clause by clause. -/
theorem witness_CanvasFramesAndRegions :
    (∃ s : State, ∃ c : Canvas, let x := (s.canvas c); x.outAt ≠ none)
    ∧ (∃ s : State, ∃ c : Canvas, ∃ d : CanvasDef, let x := (s.canvas c); let w := (s.takeChanges c); let y :=
      (w.canvas c); x.outAt = none ∧ y.now = some d ∧ s.canvasPoint d = false)
    ∧ (∃ s : State, ∃ c : Canvas, ∃ d : CanvasDef, let x := (s.canvas c); let w := (s.takeChanges c); let y :=
      (w.canvas c); x.outAt = none ∧ y.now = some d ∧ s.canvasPoint d = true)
    ∧ (∃ s : State, ∃ c : Canvas, ∃ d : CanvasDef, let x := (s.canvas c); let w := (s.takeChanges c); let y :=
      (w.canvas c); x.outAt = none ∧ y.now = none ∧ x.now = some d)
    ∧ (∃ s : State, ∃ c : Canvas, let x := (s.canvas c); let w := (s.takeChanges c); let y := (w.canvas c); x.outAt =
      none ∧ y.now = none ∧ x.now = none)
    ∧ (∃ s : State, ∃ c : Canvas, let quiet := (fun (c : Nat) => s.sal.slots = [] ∧ ∀ r < 256, s.fld (CMP_SRW_CFG r)
      CMP_SR_CFG_CANVAS = c → s.bit (CMP_SRW_CFG r) CMP_SR_CFG_EN = false ∧ s.srState r = 0); let x := (s.canvas c);
      x.outAt = none ∧ quiet c ∧ x.now = none ∧ x.pend = [])
    ∧ (∃ s : State, ∃ c : Canvas, ∃ d : CanvasDef, let quiet := (fun (c : Nat) => s.sal.slots = [] ∧ ∀ r < 256, s.fld
      (CMP_SRW_CFG r) CMP_SR_CFG_CANVAS = c → s.bit (CMP_SRW_CFG r) CMP_SR_CFG_EN = false ∧ s.srState r = 0); let x :=
      (s.canvas c); x.outAt = none ∧ quiet c ∧ s.canvasPoint d = true ∧ x.now = some d ∧ x.layers = [] ∧ (∀ p ∈
      x.pend, p.taken = true ∨ s.now < p.at_ + 2000))
    ∧ (∃ s : State, ∃ c : Canvas, ∃ d : CanvasDef, ∃ i : Nat, ∃ id : Nat, ∃ t0 : Nat, ∃ l : Option LayerDef, let quiet
      := (fun (c : Nat) => s.sal.slots = [] ∧ ∀ r < 256, s.fld (CMP_SRW_CFG r) CMP_SR_CFG_CANVAS = c → s.bit
      (CMP_SRW_CFG r) CMP_SR_CFG_EN = false ∧ s.srState r = 0); let x := (s.canvas c); x.outAt = none ∧ quiet c ∧
      s.canvasPoint d = true ∧ x.now = some d ∧ x.pend = [⟨.layer i l, id, t0, false, none, none, 0⟩] ∧ t0 + 2000 ≤
      s.now)
    ∧ (∃ s : State, ∃ c : Canvas, ∃ d : CanvasDef, ∃ id : Nat, ∃ t0 : Nat, let quiet := (fun (c : Nat) => s.sal.slots
      = [] ∧ ∀ r < 256, s.fld (CMP_SRW_CFG r) CMP_SR_CFG_CANVAS = c → s.bit (CMP_SRW_CFG r) CMP_SR_CFG_EN = false ∧
      s.srState r = 0); let x := (s.canvas c); x.outAt = none ∧ quiet c ∧ s.canvasPoint d = true ∧ x.now = none ∧
      x.pend = [⟨.define d, id, t0, false, none, none, 0⟩] ∧ t0 + 2000 ≤ s.now)
    ∧ (∃ s : State, ∃ c : Canvas, s.frameDue c = false)
    ∧ (∃ s : State, ∃ c : Canvas, s.frameDue c = true)
    ∧ (∃ s : State, ∃ c : Canvas, ∃ d : CanvasDef, let x := (s.canvas c); x.now = some d ∧ d.out.raster = 0 ∧ x.sent =
      some d ∧ x.seq = none ∧ x.pend = [] ∧ x.sigs = [] ∧ x.making = true)
    ∧ (∃ s : State, ∃ c : Canvas, ∃ d : CanvasDef, let x := (s.canvas c); x.now = some d ∧ d.out.raster = 0 ∧ x.sent =
      some d ∧ x.seq = none ∧ x.pend = [] ∧ x.sigs = [])
    ∧ (∃ s : State, ∃ r : Nat, ∃ crc : Nat, ∃ cfg : List Word, let n := (min 4 (CMP_SR_STILL_EXPN.get (cfgWord cfg
      3))); let found : Prop := (∃ k, k < n ∧ (cfgWord cfg (4 + k)).toNat = crc); r < 256 ∧ crc < 2 ^ 32 ∧ (s.region
      r).learn = none ∧ s.srState r = 1 ∧ (n = 0 ∨ found))
    ∧ (∃ s : State, ∃ r : Nat, ∃ crc : Nat, ∃ cfg : List Word, let n := (min 4 (CMP_SR_STILL_EXPN.get (cfgWord cfg
      3))); let found : Prop := (∃ k, k < n ∧ (cfgWord cfg (4 + k)).toNat = crc); r < 256 ∧ crc < 2 ^ 32 ∧ (s.region
      r).learn = none ∧ s.srState r = 1 ∧ n ≠ 0 ∧ (¬found))
    ∧ (∃ s : State, ∃ r : Nat, ∃ crc : Nat, ∃ cfg : List Word, let n := (min 4 (CMP_SR_STILL_EXPN.get (cfgWord cfg
      3))); let found : Prop := (∃ k, k < n ∧ (cfgWord cfg (4 + k)).toNat = crc); r < 256 ∧ crc < 2 ^ 32 ∧ (s.region
      r).learn = none ∧ s.srState r = 1 ∧ n ≠ 0 ∧ (¬found) ∧ max 1 (CMP_SR_CFG_MISS.get (cfgWord cfg 0)) ≤ s.srRun r +
      1)
    ∧ (∃ s : State, ∃ r : Nat, r < 256 ∧ s.bit (CMP_SRW_CFG r) CMP_SR_CFG_EN = true ∧ (s.region r).arm = true)
    ∧ (∃ s : State, let r := s.srIdx; let locked := (s.bit (CMP_SRW_CFG r) CMP_SR_CFG_LOCK); let on := (s.bit
      (CMP_SRW_CFG r) CMP_SR_CFG_EN); s.pwr.barred = false ∧ locked = false ∧ on = false)
    ∧ (∃ s : State, let r := s.srIdx; let locked := (s.bit (CMP_SRW_CFG r) CMP_SR_CFG_LOCK); let on := (s.bit
      (CMP_SRW_CFG r) CMP_SR_CFG_EN); s.pwr.barred = false ∧ locked = false ∧ on = true)
    ∧ (∃ s : State, ∃ k : Fin 8, ∃ v : Word, let r := s.srIdx; let a := (srWord r k); let locked := (s.bit
      (CMP_SRW_CFG r) CMP_SR_CFG_LOCK); let new := ((writeFields false ((findReg a).elim [] (fun d => d.1.fields.map
      (fun f => (f.1, Access.rw)))) (s.rd a) v).1); s.pwr.barred = false ∧ locked = true ∧ new = s.rd a)
    ∧ (∃ s : State, ∃ k : Fin 8, ∃ v : Word, let r := s.srIdx; let a := (srWord r k); let locked := (s.bit
      (CMP_SRW_CFG r) CMP_SR_CFG_LOCK); let new := ((writeFields false ((findReg a).elim [] (fun d => d.1.fields.map
      (fun f => (f.1, Access.rw)))) (s.rd a) v).1); s.pwr.barred = false ∧ locked = true ∧ new ≠ s.rd a)
    ∧ (∃ s : State, ∃ k : Fin 8, let r := s.srIdx; let locked := (s.bit (CMP_SRW_CFG r) CMP_SR_CFG_LOCK); s.pwr.barred
      = false ∧ locked = true ∧ 3 < k.val)
    ∧ (∃ s : State, s.pwr.barred = false)
    ∧ (∃ s : State, s.pwr.barred = false ∧ s.srState s.srIdx = 3)
    ∧ (∃ s : State, s.pwr.barred = false ∧ s.srState s.srIdx ≠ 3) :=
  ⟨⟨canvassed { CanvasState.idle with outAt := some 0 }, 0, by decide +kernel⟩,
   ⟨{ canvassed CanvasState.idle with now := 100000, clk := { State.reset.clk with origin := some 0 } }, 0, small,
    by decide +kernel⟩,
   ⟨canvassed CanvasState.idle, 0, small, by decide +kernel⟩,
   ⟨{ canvassed { CanvasState.idle with pend := [⟨.delete, 0, 0, false, none, none, 0⟩] } with now := 2000 }, 0,
    small, by decide +kernel⟩,
   ⟨State.reset, 0, by decide +kernel⟩,
   ⟨State.reset, 0, by dsimp only; decide +kernel⟩,
   ⟨canvassed CanvasState.idle, 0, small, by dsimp only; decide +kernel⟩,
   ⟨{ canvassed { CanvasState.idle with pend := [⟨.layer 0 none, 0, 0, false, none, none, 0⟩] } with now := 2000 },
    0, small, 0, 0, 0, none, by dsimp only; decide +kernel⟩,
   ⟨{ State.reset.setCanvas 0 { CanvasState.idle with pend := [⟨.define small, 0, 0, false, none, none, 0⟩] } with now := 2000 },
    0, small, 0, 0, by dsimp only; decide +kernel⟩,
   ⟨State.reset, 0, by decide +kernel⟩,
   ⟨canvassed { CanvasState.idle with outAt := some 0 }, 0, by decide +kernel⟩,
   ⟨canvassed { CanvasState.idle with sent := some small, making := true }, 0, small, by decide +kernel⟩,
   ⟨canvassed { CanvasState.idle with sent := some small }, 0, small, by decide +kernel⟩,
   ⟨State.reset.setFld (CMP_SRW_STAT 0) CMP_SR_STAT_STATE 1, 0, 5, [0, 0, 0, 0], by dsimp only; decide +kernel⟩,
   ⟨State.reset.setFld (CMP_SRW_STAT 0) CMP_SR_STAT_STATE 1, 0, 5, [0, 0, 0, CMP_SR_STILL_EXPN.set 0 1, 7],
    by dsimp only; decide +kernel⟩,
   ⟨State.reset.setFld (CMP_SRW_STAT 0) CMP_SR_STAT_STATE 1, 0, 5, [0, 0, 0, CMP_SR_STILL_EXPN.set 0 1, 7],
    by dsimp only; decide +kernel⟩,
   ⟨(State.reset.setBit (CMP_SRW_CFG 0) CMP_SR_CFG_EN true).setRegion 0 { State.reset.region 0 with arm := true }, 0,
    by decide +kernel⟩,
   ⟨State.reset, by decide +kernel⟩,
   ⟨State.reset.setBit (CMP_SRW_CFG 0) CMP_SR_CFG_EN true, by decide +kernel⟩,
   ⟨State.reset.setBit (CMP_SRW_CFG 0) CMP_SR_CFG_LOCK true, 1, 0, by decide +kernel⟩,
   ⟨State.reset.setBit (CMP_SRW_CFG 0) CMP_SR_CFG_LOCK true, 1, 1, by decide +kernel⟩,
   ⟨State.reset.setBit (CMP_SRW_CFG 0) CMP_SR_CFG_LOCK true, 7, by decide +kernel⟩,
   ⟨State.reset, by decide +kernel⟩,
   ⟨State.reset.setFld (CMP_SRW_STAT 0) CMP_SR_STAT_STATE 3, by decide +kernel⟩,
   ⟨State.reset.setFld (CMP_SRW_STAT 0) CMP_SR_STAT_STATE 1, by decide +kernel⟩⟩

/-- States and operands that meet the hypotheses of FlowDefinitions, clause by clause. -/
theorem witness_FlowDefinitions :
    (∃ t : Tenant, ∃ r : CmdRing, ∃ e : Entry, ∃ s : State, let k := (bitsAt e 8 0 12); s.Takes 0x30 t r e ∧
      (onlyFields e flowFields = false ∨ 2048 ≤ k))
    ∧ (∃ t : Tenant, ∃ r : CmdRing, ∃ e : Entry, ∃ s : State, let k := (bitsAt e 8 0 12); let on := (bitsAt e 10 0 1);
      s.Takes 0x30 t r e ∧ onlyFields e flowFields = true ∧ k < 2048 ∧ on = 0 ∧ stopFormatBad e = true)
    ∧ (∃ t : Tenant, ∃ r : CmdRing, ∃ e : Entry, ∃ s : State, let k := (bitsAt e 8 0 12); let on := (bitsAt e 10 0 1);
      s.Takes 0x30 t r e ∧ onlyFields e flowFields = true ∧ k < 2048 ∧ on = 0 ∧ stopFormatBad e = false ∧ s.ownerOf 2
      k ≠ t)
    ∧ (∃ t : Tenant, ∃ r : CmdRing, ∃ e : Entry, ∃ s : State, let k := (bitsAt e 8 0 12); let on := (bitsAt e 10 0 1);
      let x := (s.rx k); s.Takes 0x30 t r e ∧ onlyFields e flowFields = true ∧ k < 2048 ∧ on = 0 ∧ stopFormatBad e =
      false ∧ s.ownerOf 2 k = t ∧ s.migOf 2 k = none ∧ s.standby = false ∧ x.planned = none)
    ∧ (∃ t : Tenant, ∃ r : CmdRing, ∃ e : Entry, ∃ s : State, ∃ g : _, let k := (bitsAt e 8 0 12); let on := (bitsAt e
      10 0 1); let x := (s.rx k); s.Takes 0x30 t r e ∧ onlyFields e flowFields = true ∧ k < 2048 ∧ on = 0 ∧
      stopFormatBad e = false ∧ s.ownerOf 2 k = t ∧ s.migOf 2 k = none ∧ s.standby = false ∧ x.now = some g ∧ x.next =
      none ∧ x.lost = false ∧ x.par = false)
    ∧ (∃ t : Tenant, ∃ r : CmdRing, ∃ e : Entry, ∃ pb : BlockRead, ∃ s : State, let w := (s.taken t r e pb); let k :=
      (bitsAt e 8 0 12); let on := (bitsAt e 10 0 1); let g0 := (flowOf e 0); let aligned : Prop := (bitsAt e 24 0 64
      % 64 = 0); s.Takes 0x30 t r e ∧ onlyFields e flowFields = true ∧ k < 2048 ∧ on = 1 ∧ (¬aligned) ∧ g0.slice =
      false ∧ (∀ c ∈ w.flowFormatChecks true k g0 none, c.1 = false) ∧ s.ownerOf 2 k = t)
    ∧ (∃ t : Tenant, ∃ r : CmdRing, ∃ e : Entry, ∃ pb : BlockRead, ∃ s : State, let k := (bitsAt e 8 0 12); let on :=
      (bitsAt e 10 0 1); let aligned : Prop := (bitsAt e 24 0 64 % 64 = 0); s.Takes 0x30 t r e ∧ onlyFields e
      flowFields = true ∧ k < 2048 ∧ on = 1 ∧ aligned ∧ pb.block = none)
    ∧ (∃ t : Tenant, ∃ r : CmdRing, ∃ e : Entry, ∃ pb : BlockRead, ∃ s : State, let k := (bitsAt e 8 0 12); let on :=
      (bitsAt e 10 0 1); let f := (flowOf e (pb.block.getD 0)); let aligned : Prop := (bitsAt e 24 0 64 % 64 = 0);
      s.Takes 0x30 t r e ∧ onlyFields e flowFields = true ∧ k < 2048 ∧ on = 1 ∧ aligned ∧ pb.block ≠ none ∧ f.slice =
      true)
    ∧ (∃ t : Tenant, ∃ r : CmdRing, ∃ e : Entry, ∃ pb : BlockRead, ∃ s : State, ∃ pre : List (Bool × Status × Nat), ∃
      post : List (Bool × Status × Nat), ∃ st : Status, ∃ res : Nat, let w := (s.taken t r e pb); let k := (bitsAt e 8
      0 12); let on := (bitsAt e 10 0 1); let f := (flowOf e (pb.block.getD 0)); let aligned : Prop := (bitsAt e 24 0
      64 % 64 = 0); let checks := (w.flowFormatChecks true k f pb.block); s.Takes 0x30 t r e ∧ onlyFields e flowFields
      = true ∧ k < 2048 ∧ on = 1 ∧ aligned ∧ pb.block ≠ none ∧ f.slice = false ∧ checks = pre ++ (true, st, res) ::
      post ∧ (∀ c ∈ pre, c.1 = false))
    ∧ (∃ t : Tenant, ∃ r : CmdRing, ∃ e : Entry, ∃ pb : BlockRead, ∃ s : State, let w := (s.taken t r e pb); let k :=
      (bitsAt e 8 0 12); let on := (bitsAt e 10 0 1); let f := (flowOf e (pb.block.getD 0)); let aligned : Prop :=
      (bitsAt e 24 0 64 % 64 = 0); let x := (s.rx k); let l := (w.rxFlows.filter (fun x => x.1 != k) ++ [(k, f)]); let
      checks := (w.flowFormatChecks true k f pb.block); s.Takes 0x30 t r e ∧ onlyFields e flowFields = true ∧ k < 2048
      ∧ on = 1 ∧ aligned ∧ pb.block ≠ none ∧ f.slice = false ∧ (∀ c ∈ checks, c.1 = false) ∧ s.ownerOf 2 k = t ∧
      s.migOf 2 k = none ∧ w.rxOver l = true)
    ∧ (∃ t : Tenant, ∃ r : CmdRing, ∃ e : Entry, ∃ pb : BlockRead, ∃ s : State, let w := (s.taken t r e pb); let k :=
      (bitsAt e 8 0 12); let on := (bitsAt e 10 0 1); let f := (flowOf e (pb.block.getD 0)); let aligned : Prop :=
      (bitsAt e 24 0 64 % 64 = 0); let x := (s.rx k); let l := (w.rxFlows.filter (fun x => x.1 != k) ++ [(k, f)]); let
      checks := (w.flowFormatChecks true k f pb.block); s.Takes 0x30 t r e ∧ onlyFields e flowFields = true ∧ k < 2048
      ∧ on = 1 ∧ aligned ∧ pb.block ≠ none ∧ f.slice = false ∧ (∀ c ∈ checks, c.1 = false) ∧ s.ownerOf 2 k = t ∧
      s.migOf 2 k = none ∧ w.rxOver l = false ∧ w.portOver true l f = false ∧ w.rxHolder k f = none ∧ w.keyHolder k f
      = none ∧ s.standby = false)
    ∧ (∃ t : Tenant, ∃ r : CmdRing, ∃ e : Entry, ∃ s : State, s.Takes 0x31 t r e ∧ onlyFields e flowFields = false)
    ∧ (∃ t : Tenant, ∃ r : CmdRing, ∃ e : Entry, ∃ s : State, let on := (bitsAt e 10 0 1); s.Takes 0x31 t r e ∧
      onlyFields e flowFields = true ∧ on = 0 ∧ stopFormatBad e = true)
    ∧ (∃ t : Tenant, ∃ r : CmdRing, ∃ e : Entry, ∃ s : State, let k := (bitsAt e 8 0 12); let on := (bitsAt e 10 0 1);
      s.Takes 0x31 t r e ∧ onlyFields e flowFields = true ∧ on = 0 ∧ stopFormatBad e = false ∧ s.ownerOf 3 k ≠ t)
    ∧ (∃ t : Tenant, ∃ r : CmdRing, ∃ e : Entry, ∃ s : State, let k := (bitsAt e 8 0 12); let on := (bitsAt e 10 0 1);
      let x := (s.tx k); s.Takes 0x31 t r e ∧ onlyFields e flowFields = true ∧ on = 0 ∧ stopFormatBad e = false ∧
      s.ownerOf 3 k = t ∧ s.migOf 1 k = none ∧ s.standby = false ∧ x.planned = none)
    ∧ (∃ t : Tenant, ∃ r : CmdRing, ∃ e : Entry, ∃ s : State, ∃ g : _, let k := (bitsAt e 8 0 12); let on := (bitsAt e
      10 0 1); let x := (s.tx k); s.Takes 0x31 t r e ∧ onlyFields e flowFields = true ∧ on = 0 ∧ stopFormatBad e =
      false ∧ s.ownerOf 3 k = t ∧ s.migOf 1 k = none ∧ s.standby = false ∧ x.now = some g ∧ x.next = none ∧ x.par =
      false)
    ∧ (∃ t : Tenant, ∃ r : CmdRing, ∃ e : Entry, ∃ pb : BlockRead, ∃ s : State, let w := (s.taken t r e pb); let k :=
      (bitsAt e 8 0 12); let on := (bitsAt e 10 0 1); let g0 := (flowOf e 0); let aligned : Prop := (bitsAt e 24 0 64
      % 64 = 0); s.Takes 0x31 t r e ∧ onlyFields e flowFields = true ∧ on = 1 ∧ (¬aligned) ∧ (∀ c ∈ w.flowFormatChecks
      false k g0 none, c.1 = false) ∧ g0.slice = false ∧ s.ownerOf 3 k = t ∧ s.ownsAll t 0 g0.tracks.1 g0.tracks.2 =
      true)
    ∧ (∃ t : Tenant, ∃ r : CmdRing, ∃ e : Entry, ∃ pb : BlockRead, ∃ s : State, let on := (bitsAt e 10 0 1); let
      aligned : Prop := (bitsAt e 24 0 64 % 64 = 0); s.Takes 0x31 t r e ∧ onlyFields e flowFields = true ∧ on = 1 ∧
      aligned ∧ pb.block = none)
    ∧ (∃ t : Tenant, ∃ r : CmdRing, ∃ e : Entry, ∃ pb : BlockRead, ∃ s : State, ∃ pre : List (Bool × Status × Nat), ∃
      post : List (Bool × Status × Nat), ∃ st : Status, ∃ res : Nat, let w := (s.taken t r e pb); let k := (bitsAt e 8
      0 12); let on := (bitsAt e 10 0 1); let f := (flowOf e (pb.block.getD 0)); let aligned : Prop := (bitsAt e 24 0
      64 % 64 = 0); let checks := (w.flowFormatChecks false k f pb.block); s.Takes 0x31 t r e ∧ onlyFields e
      flowFields = true ∧ on = 1 ∧ aligned ∧ pb.block ≠ none ∧ checks = pre ++ (true, st, res) :: post ∧ (∀ c ∈ pre,
      c.1 = false))
    ∧ (∃ t : Tenant, ∃ r : CmdRing, ∃ e : Entry, ∃ pb : BlockRead, ∃ s : State, let w := (s.taken t r e pb); let k :=
      (bitsAt e 8 0 12); let on := (bitsAt e 10 0 1); let f := (flowOf e (pb.block.getD 0)); let aligned : Prop :=
      (bitsAt e 24 0 64 % 64 = 0); let checks := (w.flowFormatChecks false k f pb.block); let sameBase : Prop :=
      (f.slice = true → ∀ y, w.allSlices.find? (fun y => y.2.flow == k) = some y → ∀ z ∈ w.plannedSlices y.2.canvas,
      z.2.flow ≠ k → w.sliceTb z.2.flow = some (blkTb f.block)); s.Takes 0x31 t r e ∧ onlyFields e flowFields = true ∧
      on = 1 ∧ aligned ∧ pb.block ≠ none ∧ (∀ c ∈ checks, c.1 = false) ∧ (¬sameBase))
    ∧ (∃ t : Tenant, ∃ r : CmdRing, ∃ e : Entry, ∃ pb : BlockRead, ∃ s : State, let w := (s.taken t r e pb); let k :=
      (bitsAt e 8 0 12); let on := (bitsAt e 10 0 1); let f := (flowOf e (pb.block.getD 0)); let aligned : Prop :=
      (bitsAt e 24 0 64 % 64 = 0); let x := (s.tx k); let checks := (w.flowFormatChecks false k f pb.block); let
      sameBase : Prop := (f.slice = true → ∀ y, w.allSlices.find? (fun y => y.2.flow == k) = some y → ∀ z ∈
      w.plannedSlices y.2.canvas, z.2.flow ≠ k → w.sliceTb z.2.flow = some (blkTb f.block)); s.Takes 0x31 t r e ∧
      onlyFields e flowFields = true ∧ on = 1 ∧ aligned ∧ pb.block ≠ none ∧ (∀ c ∈ checks, c.1 = false) ∧ sameBase ∧
      s.ownerOf 3 k = t ∧ s.ownsAll t 0 f.tracks.1 f.tracks.2 = true ∧ s.migOf 1 k = none ∧ w.txCrowded k f = false ∧
      w.portOver false (w.txFlows.filter (fun x => x.1 != k) ++ [(k, f)]) f = false ∧ s.standby = false) :=
  ⟨⟨0, 0, ent [(0, 0x30), (2, 1)], taking 0, by dsimp only [State.Takes]; decide +kernel⟩,
   ⟨0, 0, ent [(0, 0x30), (16, 1)], netted, by dsimp only [State.Takes]; decide +kernel⟩,
   ⟨1, 0, ent [(0, 0x30)], taking 1, by dsimp only [State.Takes]; decide +kernel⟩,
   ⟨0, 0, ent [(0, 0x30)], netted, by dsimp only [State.Takes]; decide +kernel⟩,
   ⟨0, 0, ent [(0, 0x30)], (taking 0).setRx 0 { FlowRx.idle with now := some (flow 0 2816 false f25 pbk) },
    flow 0 2816 false f25 pbk, by dsimp only [State.Takes]; decide +kernel⟩,
   ⟨0, 0, ent [(0, 0x30), (10, 1), (11, 2), (12, 4096), (24, 1)], ⟨some pbk, 0⟩, netted,
    by dsimp only [State.Takes]; decide +kernel⟩,
   ⟨0, 0, ent [(0, 0x30), (10, 1), (11, 2), (12, 4096)], ⟨none, 0⟩, netted,
    by dsimp only [State.Takes]; decide +kernel⟩,
   ⟨0, 0, ent [(0, 0x30), (10, 9)], ⟨some pbk, 0⟩, netted, by dsimp only [State.Takes]; decide +kernel⟩,
   ⟨0, 0, ent [(0, 0x30), (10, 1), (11, 6)], ⟨some pbk, 0⟩, taking 0, [],
    ((taking 0).taken 0 0 (ent [(0, 0x30), (10, 1), (11, 6)]) ⟨some pbk, 0⟩).flowFormatChecks true 0 (flowOf (ent [(0, 0x30), (10, 1), (11, 6)]) pbk) (some pbk) |>.tail,
    .rejFormat, 0, by dsimp only [State.Takes]; decide +kernel⟩,
   ⟨0, 0, ent [(0, 0x30), (10, 1), (11, 2), (12, 4096)], ⟨some pbk, 0⟩, netted.setFld ESS_RXBUF ESS_RXBUF_TOTAL 0,
    by dsimp only [State.Takes]; decide +kernel⟩,
   ⟨0, 0, ent [(0, 0x30), (10, 1), (11, 2), (12, 4096)], ⟨some pbk, 0⟩, netted,
    by dsimp only [State.Takes]; decide +kernel⟩,
   ⟨0, 0, ent [(0, 0x31), (2, 1)], taking 0, by dsimp only [State.Takes]; decide +kernel⟩,
   ⟨0, 0, ent [(0, 0x31), (16, 1)], netted, by dsimp only [State.Takes]; decide +kernel⟩,
   ⟨1, 0, ent [(0, 0x31)], taking 1, by dsimp only [State.Takes]; decide +kernel⟩,
   ⟨0, 0, ent [(0, 0x31)], netted, by dsimp only [State.Takes]; decide +kernel⟩,
   ⟨0, 0, ent [(0, 0x31)], (taking 0).setTx 0 { FlowTx.idle with now := some (flow 0 2816 false f25 pbk) },
    flow 0 2816 false f25 pbk, by dsimp only [State.Takes]; decide +kernel⟩,
   ⟨0, 0, ent [(0, 0x31), (10, 1), (11, 2), (12, 4096), (24, 1)], ⟨some pbk, 0⟩, netted,
    by dsimp only [State.Takes]; decide +kernel⟩,
   ⟨0, 0, ent [(0, 0x31), (10, 1), (11, 2), (12, 4096)], ⟨none, 0⟩, netted,
    by dsimp only [State.Takes]; decide +kernel⟩,
   ⟨0, 0, ent [(0, 0x31), (10, 1), (11, 6)], ⟨some pbk, 0⟩, taking 0, [],
    ((taking 0).taken 0 0 (ent [(0, 0x31), (10, 1), (11, 6)]) ⟨some pbk, 0⟩).flowFormatChecks false 0 (flowOf (ent [(0, 0x31), (10, 1), (11, 6)]) pbk) (some pbk) |>.tail,
    .rejFormat, 0, by dsimp only [State.Takes]; decide +kernel⟩,
   ⟨0, 0, ent [(0, 0x31), (8, 5), (10, 9)], otherBase, twoSlices,
    by dsimp only [State.Takes]; refine ⟨by decide +kernel, by decide +kernel, by decide +kernel, by decide +kernel, by decide +kernel, by decide +kernel, ?_⟩; intro h; have hs : (flowOf (ent [(0, 0x31), (8, 5), (10, 9)]) (otherBase.block.getD 0)).slice = true := (by decide +kernel); have hb := h hs (0, ⟨0, ⟨0, 0, 32, 8⟩, 5⟩) (by decide +kernel) (1, ⟨0, ⟨0, 8, 32, 8⟩, 6⟩) (by decide +kernel) (by decide +kernel); revert hb; decide +kernel⟩,
   ⟨0, 0, ent [(0, 0x31), (10, 1), (11, 2), (12, 4096)], ⟨some pbk, 0⟩, netted,
    by dsimp only [State.Takes]; exact ⟨by decide +kernel, by decide +kernel, by decide +kernel, by decide +kernel, by decide +kernel, by decide +kernel, fun h => absurd h (by decide +kernel), by decide +kernel⟩⟩⟩

/-- States and operands that meet the hypotheses of FlowPacketsAndLoss, clause by clause. -/
theorem witness_FlowPacketsAndLoss :
    (∃ s : State, ∃ p : Port, ∃ k : EssPacket, let counts : Prop := (s.matchMoved p k = false ∧ (k.kind = .essence ∨
      k.kind = .other)); s.matchRx p k = none ∧ counts)
    ∧ (∃ s : State, ∃ p : Port, ∃ k : EssPacket, let counts : Prop := (s.matchMoved p k = false ∧ (k.kind = .essence ∨
      k.kind = .other)); s.matchRx p k = none ∧ (¬counts))
    ∧ (∃ s : State, ∃ p : Port, ∃ k : EssPacket, ∃ n : Nat, ∃ leg : Nat, ∃ f : Flow, s.matchRx p k = some (n, leg, f)
      ∧ badPacket f k = true)
    ∧ (∃ s : State, ∃ p : Port, ∃ k : EssPacket, ∃ n : Nat, ∃ leg : Nat, ∃ f : Flow, s.matchRx p k = some (n, leg, f)
      ∧ badPacket f k = false)
    ∧ (∃ s : State, ∃ p : Port, ∃ k : EssPacket, ∃ n : Nat, ∃ leg : Nat, ∃ f : Flow, s.matchRx p k = some (n, leg, f)
      ∧ badPacket f k = false ∧ f.dual = false ∧ f.type ≠ 1 ∧ f.type ≠ 4 ∧ k.endsFrame = false ∧ leg = 0)
    ∧ (∃ s : State, ∃ p : Port, ∃ k : EssPacket, ∃ n : Nat, ∃ leg : Nat, ∃ f : Flow, let x := (s.rx n); s.matchRx p k
      = some (n, leg, f) ∧ badPacket f k = false ∧ f.dual = false ∧ f.type = 0 ∧ f.fmt.high % 256 ≠ 0 ∧ k.endsFrame =
      true ∧ x.frames = 1 ∧ x.phase = none ∧ x.next = none ∧ s.aligner f.track = Aligner.idle ∧ s.fsa.syncs = [])
    ∧ (∃ s : State, ∃ p : Port, ∃ k : EssPacket, ∃ n : Nat, ∃ leg : Nat, ∃ f : Flow, let x := (s.rx n); let first :=
      (x.copies.find? (fun c => c.seq == k.seq)); s.matchRx p k = some (n, leg, f) ∧ badPacket f k = false ∧ f.dual =
      true ∧ f.type ≠ 1 ∧ f.type ≠ 4 ∧ first = none ∧ k.endsFrame = false)
    ∧ (∃ s : State, ∃ p : Port, ∃ k : EssPacket, ∃ n : Nat, ∃ leg : Nat, ∃ f : Flow, ∃ c : _, let x := (s.rx n); let
      first := (x.copies.find? (fun c => c.seq == k.seq)); s.matchRx p k = some (n, leg, f) ∧ badPacket f k = false ∧
      f.dual = true ∧ f.type ≠ 1 ∧ f.type ≠ 4 ∧ first = some c ∧ c.legB ≠ (leg == 1) ∧ c.at_ + 1000 * blkSkewMax
      f.block < s.now)
    ∧ (∃ s : State, ∃ p : Port, ∃ k : EssPacket, ∃ n : Nat, ∃ leg : Nat, ∃ f : Flow, ∃ c : _, let x := (s.rx n); let
      first := (x.copies.find? (fun c => c.seq == k.seq)); s.matchRx p k = some (n, leg, f) ∧ badPacket f k = false ∧
      f.dual = true ∧ f.type ≠ 1 ∧ f.type ≠ 4 ∧ first = some c ∧ c.legB ≠ (leg == 1) ∧ s.now ≤ c.at_ + 1000 *
      blkSkewMax f.block ∧ c.crc = packetCrc k)
    ∧ (∃ s : State, ∃ p : Port, ∃ k : EssPacket, ∃ n : Nat, ∃ leg : Nat, ∃ f : Flow, ∃ c : _, let x := (s.rx n); let
      first := (x.copies.find? (fun c => c.seq == k.seq)); s.matchRx p k = some (n, leg, f) ∧ badPacket f k = false ∧
      f.dual = true ∧ f.type ≠ 1 ∧ f.type ≠ 4 ∧ first = some c ∧ c.legB ≠ (leg == 1) ∧ s.now ≤ c.at_ + 1000 *
      blkSkewMax f.block ∧ c.crc ≠ packetCrc k)
    ∧ (∃ s : State, ∃ n : Fin 2048, (s.rx n).now = none)
    ∧ (∃ s : State, ∃ n : Fin 2048, ∃ f : Flow, let x := (s.rx n); (s.rx n).now = some f ∧ (x.lost = true ∨ x.par =
      true))
    ∧ (∃ s : State, ∃ n : Fin 2048, ∃ f : Flow, ∃ whole : Bool, let x := (s.rx n); (s.rx n).now = some f ∧ x.lost =
      false ∧ x.par = false ∧ f.video = true ∧ f.audio = false ∧ whole = true)
    ∧ (∃ s : State, ∃ n : Fin 2048, ∃ f : Flow, ∃ whole : Bool, let x := (s.rx n); (s.rx n).now = some f ∧ x.lost =
      false ∧ x.par = false ∧ f.video = true ∧ f.audio = false ∧ whole = false)
    ∧ (∃ s : State, ∃ n : Fin 2048, ∃ f : Flow, let x := (s.rx n); (s.rx n).now = some f ∧ x.lost = false ∧ x.par =
      false ∧ f.video = false ∧ f.audio = false)
    ∧ (∃ s : State, ∃ n : Fin 2048, ∃ f : Flow, let x := (s.rx n); (s.rx n).now = some f ∧ x.lost = false ∧ x.par =
      false ∧ f.audio = true)
    ∧ (∃ s : State, ∃ n : Fin 2048, ∃ f : Flow, let x := (s.rx n); (s.rx n).now = some f ∧ x.lost = false ∧ x.par =
      false ∧ f.audio = true ∧ x.due = none)
    ∧ (∃ s : State, ∃ n : Fin 2048, ∃ f : Flow, ∃ ts : _, let x := (s.rx n); let leaves := (s.tickInstant f ts +
      blkPlayDly f.block); (s.rx n).now = some f ∧ x.lost = false ∧ x.par = false ∧ f.audio = true ∧ x.due = some ts ∧
      s.fullTime (blkTb f.block) < leaves)
    ∧ (∃ s : State, ∃ n : Fin 2048, ∃ f : Flow, ∃ ts : _, let x := (s.rx n); let leaves := (s.tickInstant f ts +
      blkPlayDly f.block); (s.rx n).now = some f ∧ x.lost = false ∧ x.par = false ∧ f.audio = true ∧ x.due = some ts ∧
      leaves ≤ s.fullTime (blkTb f.block) ∧ x.next = none ∧ x.data.any (fun d => d.ts == ts) = true)
    ∧ (∃ s : State, ∃ n : Fin 2048, ∃ f : Flow, ∃ ts : _, let x := (s.rx n); let leaves := (s.tickInstant f ts +
      blkPlayDly f.block); (s.rx n).now = some f ∧ x.lost = false ∧ x.par = false ∧ f.audio = true ∧ x.due = some ts ∧
      leaves ≤ s.fullTime (blkTb f.block) ∧ x.next = none ∧ x.data.any (fun d => d.ts == ts) = false)
    ∧ (∃ s : State, ∃ n : Fin 2048, ∃ f : Flow, let x := (s.rx n); (s.rx n).now = some f ∧ (x.lost = true ∨ s.silent n
      f = false))
    ∧ (∃ s : State, ∃ n : Fin 2048, ∃ f : Flow, let x := (s.rx n); (s.rx n).now = some f ∧ x.lost = false ∧ s.silent n
      f = true)
    ∧ (∃ s : State, ∃ n : Fin 2048, ∃ f : Flow, ∃ b : Bool, let x := (s.rx n); let heard := (if b then x.heardB else
      x.heardA); let up := (if b then x.legB else x.legA); let waited : Prop := (∀ a, heard = some a → a + 1000000 *
      (if blkLegTo f.block = 0 then 10 else blkLegTo f.block) ≤ s.now); (s.rx n).now = some f ∧ (f.dual = false ∨ up =
      false ∨ ¬waited))
    ∧ (∃ s : State, ∃ n : Fin 2048, ∃ f : Flow, ∃ b : Bool, let x := (s.rx n); let heard := (if b then x.heardB else
      x.heardA); let up := (if b then x.legB else x.legA); let waited : Prop := (∀ a, heard = some a → a + 1000000 *
      (if blkLegTo f.block = 0 then 10 else blkLegTo f.block) ≤ s.now); (s.rx n).now = some f ∧ f.dual = true ∧ up =
      true ∧ waited)
    ∧ (∃ s : State, ∃ n : Fin 2048, ∃ f : Flow, ∃ b : Bool, ∃ g : _, let x := (s.rx n); let leg := (if b then 1 else
      0); let sent := (if b then x.reportsB else x.reportsA); (s.rx n).now = some f ∧ leg ∈ f.legs ∧ f.group leg =
      some g ∧ sent < 2)
    ∧ (∃ s : State, ∃ n : Fin 2048, ∃ f : Flow, ∃ b : Bool, let x := (s.rx n); let leg := (if b then 1 else 0); let
      sent := (if b then x.reportsB else x.reportsA); (s.rx n).now = some f ∧ (leg ∉ f.legs ∨ f.group leg = none ∨ 2 ≤
      sent))
    ∧ (∃ s : State, ∃ n : Fin 2048, ∃ f : Flow, ∃ p : Port, ∃ g : McGroup, (s.rx n).now = some f ∧ (p.val, g) ∈
      f.groups)
    ∧ (∃ s : State, ∃ k : Fin 4096, (s.rx k).now = none)
    ∧ (∃ s : State, ∃ k : Fin 4096, (s.rx k).now ≠ none)
    ∧ (∃ s : State, ∃ k : Fin 4096, (s.tx k).now = none)
    ∧ (∃ s : State, ∃ k : Fin 4096, (s.tx k).now ≠ none)
    ∧ (∃ s : State, ∃ k : Fin 4096, let x := (s.tx k); x.now = none)
    ∧ (∃ s : State, ∃ k : Fin 4096, ∃ second : Bool, ∃ data : List Byte, ∃ anc : List AncPacket, ∃ f : Flow, let x :=
      (s.tx k); let fed : Bool := (if f.slice then s.hasSlice k && x.sent != 0 else if f.video then x.match_ else
      f.type != 1); let p := (s.nextPacket k f second data anc); x.now = some f ∧ (f.audio = false ∨ x.next = none) ∧
      (x.par = true ∨ fed = false ∨ s.sending = false ∨ p.1 = none))
    ∧ (∃ s : State, ∃ k : Fin 4096, ∃ second : Bool, ∃ data : List Byte, ∃ anc : List AncPacket, ∃ f : Flow, ∃ q : _,
      let x := (s.tx k); let fed : Bool := (if f.slice then s.hasSlice k && x.sent != 0 else if f.video then x.match_
      else f.type != 1); let p := (s.nextPacket k f second data anc); x.now = some f ∧ (f.audio = false ∨ x.next =
      none) ∧ x.par = false ∧ fed = true ∧ s.sending = true ∧ p.1 = some q ∧ f.type = 0)
    ∧ (∃ s : State, ∃ k : Fin 4096, ∃ second : Bool, ∃ data : List Byte, ∃ anc : List AncPacket, ∃ f : Flow, ∃ q : _,
      let x := (s.tx k); let fed : Bool := (if f.slice then s.hasSlice k && x.sent != 0 else if f.video then x.match_
      else f.type != 1); let p := (s.nextPacket k f second data anc); x.now = some f ∧ (f.audio = false ∨ x.next =
      none) ∧ x.par = false ∧ fed = true ∧ s.sending = true ∧ p.1 = some q ∧ f.type = 0 ∧ f.slice = false)
    ∧ (∃ s : State, ∃ k : Fin 4096, ∃ second : Bool, ∃ data : List Byte, ∃ anc : List AncPacket, ∃ f : Flow, ∃ q : _,
      let x := (s.tx k); let fed : Bool := (if f.slice then s.hasSlice k && x.sent != 0 else if f.video then x.match_
      else f.type != 1); let p := (s.nextPacket k f second data anc); x.now = some f ∧ (f.audio = false ∨ x.next =
      none) ∧ x.par = false ∧ fed = true ∧ s.sending = true ∧ p.1 = some q ∧ f.type = 0 ∧ x.sent = 0)
    ∧ (∃ s : State, ∃ k : Fin 4096, ∃ second : Bool, ∃ data : List Byte, ∃ anc : List AncPacket, ∃ f : Flow, ∃ q : _,
      let x := (s.tx k); let fed : Bool := (if f.slice then s.hasSlice k && x.sent != 0 else if f.video then x.match_
      else f.type != 1); let p := (s.nextPacket k f second data anc); x.now = some f ∧ (f.audio = false ∨ x.next =
      none) ∧ x.par = false ∧ fed = true ∧ s.sending = true ∧ p.1 = some q ∧ f.audio = true ∧ f.slice = false)
    ∧ (∃ s : State, ∃ k : Fin 4096, ∃ second : Bool, ∃ data : List Byte, ∃ anc : List AncPacket, ∃ f : Flow, ∃ q : _,
      let x := (s.tx k); let fed : Bool := (if f.slice then s.hasSlice k && x.sent != 0 else if f.video then x.match_
      else f.type != 1); let p := (s.nextPacket k f second data anc); x.now = some f ∧ (f.audio = false ∨ x.next =
      none) ∧ x.par = false ∧ fed = true ∧ s.sending = true ∧ p.1 = some q)
    ∧ (∃ s : State, ∃ c : Nat, ∃ i : Nat, ∃ k : Nat, ∃ f : Flow, ∃ q : SentPacket, s.firstPackets c = [(i, k, f, q)] ∧
      f.dual = false ∧ s.standby = false ∧ s.portUp (f.port 0) = true)
    ∧ (∃ s : State, ∃ c : Nat, ∃ i : Nat, ∃ k : Nat, ∃ f : Flow, ∃ q : SentPacket, ∃ missed : List Nat, s.firstPackets
      c = [(i, k, f, q)] ∧ f.dual = false ∧ s.standby = false ∧ s.portUp (f.port 0) = true ∧ (i ∉ missed ∨ s.windowMet
      [(i, k, f, q)] (f.port 0) = true))
    ∧ (∃ s : State, ∃ c : Nat, ∃ i : Nat, ∃ k : Nat, ∃ f : Flow, ∃ q : SentPacket, ∃ missed : List Nat, s.firstPackets
      c = [(i, k, f, q)] ∧ f.dual = false ∧ s.standby = false ∧ s.portUp (f.port 0) = true ∧ i ∈ missed ∧ s.windowMet
      [(i, k, f, q)] (f.port 0) = false)
    ∧ (∃ s : State, s.pwr.barred = false) :=
  ⟨⟨State.reset, 0, packet, by dsimp only; decide +kernel⟩,
   ⟨State.reset, 0, { packet with kind := .ptp }, by dsimp only; decide +kernel⟩,
   ⟨receiving { FlowRx.idle with now := some (flow 0 0 false f25 pbk) }, 0,
    { packet with srds := [⟨false, 32767, 0, 0⟩] }, 0, 0, flow 0 0 false f25 pbk, by decide +kernel⟩,
   ⟨receiving { FlowRx.idle with now := some (flow 0 0 false f25 pbk) }, 0, packet, 0, 0, flow 0 0 false f25 pbk,
    by decide +kernel⟩,
   ⟨receiving { FlowRx.idle with now := some (flow 0 0 false f25 pbk) }, 0, packet, 0, 0, flow 0 0 false f25 pbk,
    by decide +kernel⟩,
   ⟨receiving { FlowRx.idle with now := some (flow 0 2816 false f25 pbk), frames := 1 }, 0,
    { packet with endsFrame := true }, 0, 0, flow 0 2816 false f25 pbk, by decide +kernel⟩,
   ⟨receiving { FlowRx.idle with now := some (flow 0 0 true f25 pbk) }, 0, packet, 0, 0, flow 0 0 true f25 pbk,
    by decide +kernel⟩,
   ⟨{ receiving { FlowRx.idle with now := some (flow 0 0 true f25 pbk), copies := [⟨0, 0, true, 0⟩] } with now := 1000000000 },
    0, packet, 0, 0, flow 0 0 true f25 pbk, ⟨0, 0, true, 0⟩, by decide +kernel⟩,
   ⟨receiving { FlowRx.idle with now := some (flow 0 0 true f25 pbk), copies := [⟨0, 0, true, 0⟩] }, 0, packet, 0, 0,
    flow 0 0 true f25 pbk, ⟨0, 0, true, 0⟩, by decide +kernel⟩,
   ⟨receiving { FlowRx.idle with now := some (flow 0 0 true f25 pbk), copies := [⟨0, 1, true, 0⟩] }, 0, packet, 0, 0,
    flow 0 0 true f25 pbk, ⟨0, 1, true, 0⟩, by decide +kernel⟩,
   ⟨State.reset, 0, by decide +kernel⟩,
   ⟨receiving { FlowRx.idle with now := some (flow 0 0 false f25 pbk), lost := true }, 0, flow 0 0 false f25 pbk,
    by decide +kernel⟩,
   ⟨receiving { FlowRx.idle with now := some (flow 0 0 false f25 pbk) }, 0, flow 0 0 false f25 pbk, true,
    by decide +kernel⟩,
   ⟨receiving { FlowRx.idle with now := some (flow 0 0 false f25 pbk) }, 0, flow 0 0 false f25 pbk, false,
    by decide +kernel⟩,
   ⟨receiving { FlowRx.idle with now := some (flow 1 0 false Fmt.zero pbk) }, 0, flow 1 0 false Fmt.zero pbk,
    by decide +kernel⟩,
   ⟨receiving { FlowRx.idle with now := some (flow 2 4096 false Fmt.zero pbk), next := some none }, 0,
    flow 2 4096 false Fmt.zero pbk, by decide +kernel⟩,
   ⟨receiving { FlowRx.idle with now := some (flow 2 4096 false Fmt.zero pbk), next := some none }, 0,
    flow 2 4096 false Fmt.zero pbk, by decide +kernel⟩,
   ⟨receiving { FlowRx.idle with now := some (flow 2 4096 false Fmt.zero (pbk + BitVec.ofNat 2048 (1000000000 * 2 ^ 1152))), due := some 0 },
    0, flow 2 4096 false Fmt.zero (pbk + BitVec.ofNat 2048 (1000000000 * 2 ^ 1152)), 0, by decide +kernel⟩,
   ⟨receiving { FlowRx.idle with now := some (flow 2 4096 false Fmt.zero pbk), due := some 0, data := [⟨0, 0, []⟩] },
    0, flow 2 4096 false Fmt.zero pbk, 0, by decide +kernel⟩,
   ⟨receiving { FlowRx.idle with now := some (flow 2 4096 false Fmt.zero pbk), due := some 0 }, 0,
    flow 2 4096 false Fmt.zero pbk, 0, by decide +kernel⟩,
   ⟨receiving { FlowRx.idle with now := some (flow 0 0 false f25 pbk), lost := true }, 0, flow 0 0 false f25 pbk,
    by decide +kernel⟩,
   ⟨receiving { FlowRx.idle with now := some (flow 0 0 false f25 pbk) }, 0, flow 0 0 false f25 pbk, by decide +kernel⟩,
   ⟨receiving { FlowRx.idle with now := some (flow 0 0 false f25 pbk), lost := true }, 0, flow 0 0 false f25 pbk,
    true, by dsimp only; decide +kernel⟩,
   ⟨receiving { FlowRx.idle with now := some (flow 0 0 true f25 pbk), legB := true }, 0, flow 0 0 true f25 pbk, true,
    by dsimp only; decide +kernel⟩,
   ⟨receiving { FlowRx.idle with now := some (flow 0 0 false f25 groupBlock) }, 0, flow 0 0 false f25 groupBlock,
    false, ((flow 0 0 false f25 groupBlock).group 0).getD ⟨false, 0, none⟩, by decide +kernel⟩,
   ⟨receiving { FlowRx.idle with now := some (flow 0 0 false f25 pbk), lost := true }, 0, flow 0 0 false f25 pbk,
    true, by decide +kernel⟩,
   ⟨receiving { FlowRx.idle with now := some (flow 0 0 false f25 groupBlock), lost := true }, 0,
    flow 0 0 false f25 groupBlock, 0, ((flow 0 0 false f25 groupBlock).group 0).getD ⟨false, 0, none⟩,
    by decide +kernel⟩,
   ⟨State.reset, 0, by decide +kernel⟩,
   ⟨receiving { FlowRx.idle with now := some (flow 0 0 false f25 pbk) }, 0, by decide +kernel⟩,
   ⟨State.reset, 0, by decide +kernel⟩,
   ⟨transmitting { FlowTx.idle with now := some (flow 0 2816 false f25 pbk) }, 0, by decide +kernel⟩,
   ⟨receiving { FlowRx.idle with now := some (flow 0 0 true f25 pbk), legB := true }, 0, by decide +kernel⟩,
   ⟨(transmitting { FlowTx.idle with now := some (flow 0 0 false f25 pbk) }).setFld PWR_STAT PWR_STAT_STATE 1, 0,
    true, [], [], flow 0 0 false f25 pbk, by decide +kernel⟩,
   ⟨((transmitting { FlowTx.idle with now := some (flow 0 2816 false f25 pbk), match_ := true }).setFld PWR_STAT PWR_STAT_STATE 0),
    0, true, [], [], flow 0 2816 false f25 pbk,
    (((transmitting { FlowTx.idle with now := some (flow 0 2816 false f25 pbk), match_ := true }).setFld PWR_STAT PWR_STAT_STATE 0).nextPacket 0 (flow 0 2816 false f25 pbk) true [] []).1.getD ⟨0, 0, 0, 0, 0, false, [], none, [], []⟩,
    by decide +kernel⟩,
   ⟨((transmitting { FlowTx.idle with now := some (flow 0 2816 false f25 pbk), match_ := true }).setFld PWR_STAT PWR_STAT_STATE 0),
    0, true, [], [], flow 0 2816 false f25 pbk,
    (((transmitting { FlowTx.idle with now := some (flow 0 2816 false f25 pbk), match_ := true }).setFld PWR_STAT PWR_STAT_STATE 0).nextPacket 0 (flow 0 2816 false f25 pbk) true [] []).1.getD ⟨0, 0, 0, 0, 0, false, [], none, [], []⟩,
    by decide +kernel⟩,
   ⟨((transmitting { FlowTx.idle with now := some (flow 0 2816 false f25 pbk), match_ := true }).setFld PWR_STAT PWR_STAT_STATE 0),
    0, true, [], [], flow 0 2816 false f25 pbk,
    (((transmitting { FlowTx.idle with now := some (flow 0 2816 false f25 pbk), match_ := true }).setFld PWR_STAT PWR_STAT_STATE 0).nextPacket 0 (flow 0 2816 false f25 pbk) true [] []).1.getD ⟨0, 0, 0, 0, 0, false, [], none, [], []⟩,
    by decide +kernel⟩,
   ⟨((transmitting { FlowTx.idle with now := some (flow 2 4096 false Fmt.zero pbk) }).setFld PWR_STAT PWR_STAT_STATE 0),
    0, true, [], [], flow 2 4096 false Fmt.zero pbk,
    (((transmitting { FlowTx.idle with now := some (flow 2 4096 false Fmt.zero pbk) }).setFld PWR_STAT PWR_STAT_STATE 0).nextPacket 0 (flow 2 4096 false Fmt.zero pbk) true [] []).1.getD ⟨0, 0, 0, 0, 0, false, [], none, [], []⟩,
    by decide +kernel⟩,
   ⟨((transmitting { FlowTx.idle with now := some (flow 0 2816 false f25 pbk), match_ := true }).setFld PWR_STAT PWR_STAT_STATE 0),
    0, true, [], [], flow 0 2816 false f25 pbk,
    (((transmitting { FlowTx.idle with now := some (flow 0 2816 false f25 pbk), match_ := true }).setFld PWR_STAT PWR_STAT_STATE 0).nextPacket 0 (flow 0 2816 false f25 pbk) true [] []).1.getD ⟨0, 0, 0, 0, 0, false, [], none, [], []⟩,
    by decide +kernel⟩,
   ⟨sliced, 0, 0, 5, sliceFlow,
    (sliced.nextPacket 5 sliceFlow false [] []).1.getD ⟨0, 0, 0, 0, 0, false, [], none, [], []⟩, by decide +kernel⟩,
   ⟨sliced, 0, 0, 5, sliceFlow,
    (sliced.nextPacket 5 sliceFlow false [] []).1.getD ⟨0, 0, 0, 0, 0, false, [], none, [], []⟩, [],
    by decide +kernel⟩,
   ⟨sliced.setBit (MP_STAT 0) MP_STAT_HOLD true, 0, 0, 5, sliceFlow,
    (sliced.nextPacket 5 sliceFlow false [] []).1.getD ⟨0, 0, 0, 0, 0, false, [], none, [], []⟩, [0],
    by decide +kernel⟩,
   ⟨receiving { FlowRx.idle with now := some (flow 0 0 false f25 pbk) }, by decide +kernel⟩⟩

/-- States and operands that meet the hypotheses of AudioMapsAndPorts, clause by clause. -/
theorem witness_AudioMapsAndPorts :
    (∃ t : Tenant, ∃ r : CmdRing, ∃ e : Entry, ∃ s : State, let d := (bitsAt e 8 0 13); let src := (if bitsAt e 12 0 1
      = 1 then silence else bitsAt e 10 0 13); s.Takes 0x20 t r e ∧ (onlyFields e mapFields = false ∨ 8064 ≤ d ∨ (8072
      ≤ src ∧ src ≤ 8189)))
    ∧ (∃ t : Tenant, ∃ r : CmdRing, ∃ e : Entry, ∃ s : State, let d := (bitsAt e 8 0 13); let src := (if bitsAt e 12 0
      1 = 1 then silence else bitsAt e 10 0 13); s.Takes 0x20 t r e ∧ onlyFields e mapFields = true ∧ d < 8064 ∧ (src
      < 8072 ∨ 8189 < src) ∧ s.ownerOf 4 d ≠ t)
    ∧ (∃ t : Tenant, ∃ r : CmdRing, ∃ e : Entry, ∃ s : State, let d := (bitsAt e 8 0 13); let src := (if bitsAt e 12 0
      1 = 1 then silence else bitsAt e 10 0 13); s.Takes 0x20 t r e ∧ onlyFields e mapFields = true ∧ d < 8064 ∧ (src
      < 8072 ∨ 8189 < src) ∧ s.ownerOf 4 d = t ∧ s.standby = false ∧ Tbl.find? s.aud.pend d = none ∧ s.mapOf d = src ∧
      d ∉ s.aud.par)
    ∧ (∃ t : Tenant, ∃ r : CmdRing, ∃ e : Entry, ∃ s : State, ∃ x : _, let d := (bitsAt e 8 0 13); let src := (if
      bitsAt e 12 0 1 = 1 then silence else bitsAt e 10 0 13); s.Takes 0x20 t r e ∧ onlyFields e mapFields = true ∧ d
      < 8064 ∧ (src < 8072 ∨ 8189 < src) ∧ s.ownerOf 4 d = t ∧ s.standby = false ∧ Tbl.find? s.aud.pend d = some x ∧
      s.mapOf d = src ∧ d ∉ s.aud.par)
    ∧ (∃ t : Tenant, ∃ r : CmdRing, ∃ e : Entry, ∃ s : State, let d := (bitsAt e 8 0 13); let src := (if bitsAt e 12 0
      1 = 1 then silence else bitsAt e 10 0 13); s.Takes 0x20 t r e ∧ onlyFields e mapFields = true ∧ d < 8064 ∧ (src
      < 8072 ∨ 8189 < src) ∧ s.ownerOf 4 d = t ∧ s.standby = false ∧ (s.mapOf d ≠ src ∨ d ∈ s.aud.par))
    ∧ (∃ t : Tenant, ∃ r : CmdRing, ∃ e : Entry, ∃ s : State, let fs := (bitsAt e 12 0 32); let good : Prop :=
      (onlyFields e portFields = true ∧ bitsAt e 10 0 2 ≠ 3 ∧ (fs = 48000 ∨ fs = 96000)); s.Takes 0x21 t r e ∧
      (¬good))
    ∧ (∃ t : Tenant, ∃ r : CmdRing, ∃ e : Entry, ∃ s : State, let p := (bitsAt e 8 0 3); let fs := (bitsAt e 12 0 32);
      let good : Prop := (onlyFields e portFields = true ∧ bitsAt e 10 0 2 ≠ 3 ∧ (fs = 48000 ∨ fs = 96000)); s.Takes
      0x21 t r e ∧ good ∧ s.ownerOf 6 p ≠ t)
    ∧ (∃ t : Tenant, ∃ r : CmdRing, ∃ e : Entry, ∃ s : State, let p := (bitsAt e 8 0 3); let fs := (bitsAt e 12 0 32);
      let st := (AUD_TDM_STAT p); let good : Prop := (onlyFields e portFields = true ∧ bitsAt e 10 0 2 ≠ 3 ∧ (fs =
      48000 ∨ fs = 96000)); s.Takes 0x21 t r e ∧ good ∧ s.ownerOf 6 p = t ∧ bitsAt e 9 2 1 = 1 ∧ s.bit st
      AUD_TDM_STAT_AMPFLT = true)
    ∧ (∃ t : Tenant, ∃ r : CmdRing, ∃ e : Entry, ∃ s : State, let p := (bitsAt e 8 0 3); let fs := (bitsAt e 12 0 32);
      let st := (AUD_TDM_STAT p); let good : Prop := (onlyFields e portFields = true ∧ bitsAt e 10 0 2 ≠ 3 ∧ (fs =
      48000 ∨ fs = 96000)); s.Takes 0x21 t r e ∧ good ∧ s.ownerOf 6 p = t ∧ (bitsAt e 9 2 1 = 0 ∨ s.bit st
      AUD_TDM_STAT_AMPFLT = false) ∧ s.standby = false)
    ∧ (∃ s : State, ∃ d : AudDst, Tbl.find? s.aud.pend d = none)
    ∧ (∃ s : State, ∃ d : AudDst, ∃ x : AudPend, Tbl.find? s.aud.pend d = some x ∧ x.nowait = true)
    ∧ (∃ s : State, ∃ d : AudDst, ∃ x : AudPend, ∃ i : Bool, ∃ j : Bool, ∃ k : Bool, let oldLive := (s.audLive
      (s.audSource d)); let newLive := (s.audLive x.src); let data : Prop := ((oldLive = true ∧ i = true) ∨ (newLive =
      true ∧ j = true)); Tbl.find? s.aud.pend d = some x ∧ x.nowait = false ∧ data ∧ k = true)
    ∧ (∃ s : State, ∃ d : AudDst, ∃ x : AudPend, ∃ i : Bool, ∃ j : Bool, ∃ k : Bool, let oldLive := (s.audLive
      (s.audSource d)); let newLive := (s.audLive x.src); let data : Prop := ((oldLive = true ∧ i = true) ∨ (newLive =
      true ∧ j = true)); Tbl.find? s.aud.pend d = some x ∧ x.nowait = false ∧ data ∧ k = false)
    ∧ (∃ s : State, ∃ d : AudDst, ∃ x : AudPend, ∃ a : BitVec 24, ∃ b : BitVec 24, ∃ c : BitVec 24, ∃ i : Bool, ∃ j :
      Bool, let oldLive := (s.audLive (s.audSource d)); let newLive := (s.audLive x.src); let data : Prop := ((oldLive
      = true ∧ i = true) ∨ (newLive = true ∧ j = true)); let good : Bool := ((!oldLive || crosses a.toInt b.toInt) &&
      (!newLive || belowThreshold (s.fld AUD_CTRL AUD_CTRL_ZCTHR) c.toInt)); Tbl.find? s.aud.pend d = some x ∧
      x.nowait = false ∧ (¬data) ∧ good = false)
    ∧ (∃ s : State, ∃ d : AudDst, ∃ x : AudPend, ∃ a : BitVec 24, ∃ b : BitVec 24, ∃ c : BitVec 24, ∃ i : Bool, ∃ j :
      Bool, let oldLive := (s.audLive (s.audSource d)); let newLive := (s.audLive x.src); let data : Prop := ((oldLive
      = true ∧ i = true) ∨ (newLive = true ∧ j = true)); let good : Bool := ((!oldLive || crosses a.toInt b.toInt) &&
      (!newLive || belowThreshold (s.fld AUD_CTRL AUD_CTRL_ZCTHR) c.toInt)); Tbl.find? s.aud.pend d = some x ∧
      x.nowait = false ∧ (¬data) ∧ good = true)
    ∧ (∃ s : State, ∃ d : AudDst, ∃ x : AudPend, Tbl.find? s.aud.pend d = some x ∧ x.nowait = false)
    ∧ (∃ s : State, ∃ n : DeEmb, s.deOn n = false)
    ∧ (∃ s : State, ∃ n : DeEmb, s.deOn n = true ∧ (s.aligner (s.fld (AUD_DEW_CFG n) AUD_DE_CFG_SRC)).mode = 3)
    ∧ (∃ s : State, ∃ n : DeEmb, s.deOn n = true ∧ (s.aligner (s.fld (AUD_DEW_CFG n) AUD_DE_CFG_SRC)).mode ≠ 3)
    ∧ (∃ s : State, ∃ n : DeEmb, s.deOn n = true)
    ∧ (∃ s : State, ∃ p : TdmPort, s.follower p = false)
    ∧ (∃ q : BitVec 16, 500 < q.toInt.natAbs)
    ∧ (∃ s : State, ∃ p : TdmPort, ∃ q : BitVec 16, s.follower p = true ∧ q.toInt.natAbs ≤ 500)
    ∧ (∃ s : State, ∃ p : TdmPort, let st := (AUD_TDM_STAT p); s.follower p = true ∧ s.bit st AUD_TDM_STAT_LOCKED =
      false)
    ∧ (∃ s : State, ∃ p : TdmPort, let st := (AUD_TDM_STAT p); s.follower p = true ∧ s.bit st AUD_TDM_STAT_LOCKED =
      true)
    ∧ (∃ s : State, ∃ p : TdmPort, s.ampMuted p = true)
    ∧ (∃ s : State, ∃ p : TdmPort, s.ampMuted p = false)
    ∧ (∃ s : State, s.pwr.barred = false) :=
  ⟨⟨0, 0, ent [(0, 0x20), (8, 8064)], taking 0, by dsimp only [State.Takes]; decide +kernel⟩,
   ⟨1, 0, ent [(0, 0x20)], taking 1, by dsimp only [State.Takes]; decide +kernel⟩,
   ⟨0, 0, ent [(0, 0x20), (12, 1)], taking 0, by dsimp only [State.Takes]; decide +kernel⟩,
   ⟨0, 0, ent [(0, 0x20), (12, 1)], (taking 0).setAud { (taking 0).aud with pend := [(0, ⟨1, false, 5, 0, 0⟩)] },
    ⟨1, false, 5, 0, 0⟩, by dsimp only [State.Takes]; decide +kernel⟩,
   ⟨0, 0, ent [(0, 0x20)], taking 0, by dsimp only [State.Takes]; decide +kernel⟩,
   ⟨0, 0, ent [(0, 0x21)], taking 0, by dsimp only [State.Takes]; decide +kernel⟩,
   ⟨1, 0, ent [(0, 0x21), (12, 48000)], taking 1, by dsimp only [State.Takes]; decide +kernel⟩,
   ⟨0, 0, ent [(0, 0x21), (9, 4), (12, 48000)], (taking 0).setBit (AUD_TDM_STAT 0) AUD_TDM_STAT_AMPFLT true,
    by dsimp only [State.Takes]; decide +kernel⟩,
   ⟨0, 0, ent [(0, 0x21), (12, 48000)], taking 0, by dsimp only [State.Takes]; decide +kernel⟩,
   ⟨taking 0, 0, by decide +kernel⟩,
   ⟨State.reset.setAud { State.reset.aud with pend := [(0, ⟨1, true, 5, 0, 0⟩)] }, 0, ⟨1, true, 5, 0, 0⟩,
    by decide +kernel⟩,
   ⟨crossing, 0, ⟨1, false, 5, 0, 0⟩, true, true, true, by dsimp only; decide +kernel⟩,
   ⟨crossing, 0, ⟨1, false, 5, 0, 0⟩, true, true, false, by dsimp only; decide +kernel⟩,
   ⟨crossing, 0, ⟨1, false, 5, 0, 0⟩, 5, 5, 0, false, false, by dsimp only; decide +kernel⟩,
   ⟨crossing, 0, ⟨1, false, 5, 0, 0⟩, -5, 5, 0, false, false, by dsimp only; decide +kernel⟩,
   ⟨State.reset.setAud { State.reset.aud with pend := [(0, ⟨1, false, 5, 0, 0⟩)] }, 0, ⟨1, false, 5, 0, 0⟩,
    by decide +kernel⟩,
   ⟨State.reset.setBit (AUD_DEW_CFG 0) AUD_DE_CFG_EN false, 0, by decide +kernel⟩,
   ⟨(State.reset.setBit (AUD_DEW_CFG 0) AUD_DE_CFG_EN true).setAligner 0 { Aligner.idle with mode := 3 }, 0,
    by decide +kernel⟩,
   ⟨(State.reset.setBit (AUD_DEW_CFG 0) AUD_DE_CFG_EN true).setAligner 0 { Aligner.idle with mode := 2 }, 0,
    by decide +kernel⟩,
   ⟨State.reset.setBit (AUD_DEW_CFG 0) AUD_DE_CFG_EN true, 0, by decide +kernel⟩,
   ⟨State.reset.setBit (AUD_DEW_CFG 0) AUD_DE_CFG_EN true, 0, by decide +kernel⟩,
   ⟨501, by decide +kernel⟩,
   ⟨((State.reset.setBit (AUD_TDM_STAT 0) AUD_TDM_STAT_ENABLED true).setBit (AUD_TDM_STAT 0) AUD_TDM_STAT_MASTER false),
    0, 0, by decide +kernel⟩,
   ⟨(State.reset.setBit (AUD_TDM_STAT 0) AUD_TDM_STAT_ENABLED true).setBit (AUD_TDM_STAT 0) AUD_TDM_STAT_MASTER false,
    0, by decide +kernel⟩,
   ⟨((State.reset.setBit (AUD_TDM_STAT 0) AUD_TDM_STAT_ENABLED true).setBit (AUD_TDM_STAT 0) AUD_TDM_STAT_MASTER false).setBit (AUD_TDM_STAT 0) AUD_TDM_STAT_LOCKED true,
    0, by decide +kernel⟩,
   ⟨State.reset.setBit (AUD_TDM_STAT 0) AUD_TDM_STAT_MUTED true, 0, by decide +kernel⟩,
   ⟨State.reset, 0, by decide +kernel⟩,
   ⟨State.reset, by decide +kernel⟩⟩

/-- States and operands that meet the hypotheses of SalvosOfOneChip, clause by clause. -/
theorem witness_SalvosOfOneChip :
    (∃ t : Tenant, ∃ r : CmdRing, ∃ e : Entry, ∃ s : State, let openFields : List (Nat × Nat × Nat) := ([(8, 0, 2),
      (9, 0, 4), (12, 0, 32)]); s.Takes 0x03 t r e ∧ onlyFields e openFields = false)
    ∧ (∃ t : Tenant, ∃ r : CmdRing, ∃ e : Entry, ∃ s : State, let openFields : List (Nat × Nat × Nat) := ([(8, 0, 2),
      (9, 0, 4), (12, 0, 32)]); s.Takes 0x03 t r e ∧ onlyFields e openFields = true ∧ bitsAt e 9 0 4 = 0 ∧ 64 ≤
      s.sal.slots.length)
    ∧ (∃ t : Tenant, ∃ r : CmdRing, ∃ e : Entry, ∃ s : State, let k := (4 * t.val + bitsAt e 8 0 2); let g :=
      (BitVec.ofNat 32 (bitsAt e 12 0 32)); let slot := (Tbl.find? s.sal.slots k); let openFields : List (Nat × Nat ×
      Nat) := ([(8, 0, 2), (9, 0, 4), (12, 0, 32)]); s.Takes 0x03 t r e ∧ onlyFields e openFields = true ∧ bitsAt e 9
      0 4 = 0 ∧ s.sal.slots.length < 64 ∧ (slot ≠ none ∨ s.groupSlot g ≠ none))
    ∧ (∃ t : Tenant, ∃ r : CmdRing, ∃ e : Entry, ∃ s : State, let k := (4 * t.val + bitsAt e 8 0 2); let g :=
      (BitVec.ofNat 32 (bitsAt e 12 0 32)); let slot := (Tbl.find? s.sal.slots k); let openFields : List (Nat × Nat ×
      Nat) := ([(8, 0, 2), (9, 0, 4), (12, 0, 32)]); s.Takes 0x03 t r e ∧ onlyFields e openFields = true ∧ bitsAt e 9
      0 4 = 0 ∧ s.sal.slots.length < 64 ∧ slot = none ∧ s.groupSlot g = none ∧ s.standby = false)
    ∧ (∃ t : Tenant, ∃ r : CmdRing, ∃ e : Entry, ∃ s : State, let commitFields : List (Nat × Nat × Nat) := ([(8, 0,
      2), (8, 4, 1), (9, 0, 2), (12, 0, 32)]); s.Takes 0x04 t r e ∧ onlyFields e commitFields = false)
    ∧ (∃ t : Tenant, ∃ r : CmdRing, ∃ e : Entry, ∃ s : State, let k := (4 * t.val + bitsAt e 8 0 2); let slot :=
      (Tbl.find? s.sal.slots k); let commitFields : List (Nat × Nat × Nat) := ([(8, 0, 2), (8, 4, 1), (9, 0, 2), (12,
      0, 32)]); s.Takes 0x04 t r e ∧ onlyFields e commitFields = true ∧ slot = none)
    ∧ (∃ t : Tenant, ∃ r : CmdRing, ∃ e : Entry, ∃ s : State, ∃ x : Salvo, let w := (s.taken t r e ⟨none, 0⟩); let k
      := (4 * t.val + bitsAt e 8 0 2); let slot := (Tbl.find? s.sal.slots k); let commitFields : List (Nat × Nat ×
      Nat) := ([(8, 0, 2), (8, 4, 1), (9, 0, 2), (12, 0, 32)]); s.Takes 0x04 t r e ∧ onlyFields e commitFields = true
      ∧ slot = some x ∧ w.ownsSalvo t x = false)
    ∧ (∃ t : Tenant, ∃ r : CmdRing, ∃ e : Entry, ∃ s : State, ∃ x : Salvo, let w := (s.taken t r e ⟨none, 0⟩); let k
      := (4 * t.val + bitsAt e 8 0 2); let slot := (Tbl.find? s.sal.slots k); let commitFields : List (Nat × Nat ×
      Nat) := ([(8, 0, 2), (8, 4, 1), (9, 0, 2), (12, 0, 32)]); s.Takes 0x04 t r e ∧ onlyFields e commitFields = true
      ∧ slot = some x ∧ w.ownsSalvo t x = true ∧ x.stage ≠ 0)
    ∧ (∃ t : Tenant, ∃ r : CmdRing, ∃ e : Entry, ∃ s : State, ∃ x : Salvo, ∃ due : _, let w := (s.taken t r e ⟨none,
      0⟩); let k := (4 * t.val + bitsAt e 8 0 2); let slot := (Tbl.find? s.sal.slots k); let commitFields : List (Nat
      × Nat × Nat) := ([(8, 0, 2), (8, 4, 1), (9, 0, 2), (12, 0, 32)]); s.Takes 0x04 t r e ∧ onlyFields e commitFields
      = true ∧ slot = some x ∧ w.ownsSalvo t x = true ∧ x.stage = 0 ∧ s.standby = false ∧ x.shed = false ∧ x.nodes = 0
      ∧ s.sal.held = [] ∧ s.dueTime (bitsAt e 9 0 2) (bitsAt e 12 0 32) = some due)
    ∧ (∃ t : Tenant, ∃ r : CmdRing, ∃ e : Entry, ∃ s : State, ∃ x : Salvo, let w := (s.taken t r e ⟨none, 0⟩); let k
      := (4 * t.val + bitsAt e 8 0 2); let slot := (Tbl.find? s.sal.slots k); let commitFields : List (Nat × Nat ×
      Nat) := ([(8, 0, 2), (8, 4, 1), (9, 0, 2), (12, 0, 32)]); s.Takes 0x04 t r e ∧ onlyFields e commitFields = true
      ∧ slot = some x ∧ w.ownsSalvo t x = true ∧ x.stage = 0 ∧ s.standby = false ∧ x.shed = false ∧ x.nodes = 0 ∧
      s.sal.held = [] ∧ s.dueTime (bitsAt e 9 0 2) (bitsAt e 12 0 32) = none)
    ∧ (∃ t : Tenant, ∃ r : CmdRing, ∃ e : Entry, ∃ s : State, s.Takes 0x05 t r e ∧ onlyFields e [(8, 0, 2)] = false)
    ∧ (∃ t : Tenant, ∃ r : CmdRing, ∃ e : Entry, ∃ s : State, let k := (4 * t.val + bitsAt e 8 0 2); let slot :=
      (Tbl.find? s.sal.slots k); s.Takes 0x05 t r e ∧ onlyFields e [(8, 0, 2)] = true ∧ s.standby = false ∧ slot =
      none)
    ∧ (∃ t : Tenant, ∃ r : CmdRing, ∃ e : Entry, ∃ s : State, ∃ x : Salvo, let k := (4 * t.val + bitsAt e 8 0 2); let
      slot := (Tbl.find? s.sal.slots k); s.Takes 0x05 t r e ∧ onlyFields e [(8, 0, 2)] = true ∧ s.standby = false ∧
      slot = some x ∧ x.stage = 3)
    ∧ (∃ t : Tenant, ∃ r : CmdRing, ∃ e : Entry, ∃ s : State, ∃ x : Salvo, let k := (4 * t.val + bitsAt e 8 0 2); let
      slot := (Tbl.find? s.sal.slots k); s.Takes 0x05 t r e ∧ onlyFields e [(8, 0, 2)] = true ∧ s.standby = false ∧
      slot = some x ∧ x.stage = 0)
    ∧ (∃ t : Tenant, ∃ r : CmdRing, ∃ e : Entry, ∃ s : State, ∃ x : Salvo, let k := (4 * t.val + bitsAt e 8 0 2); let
      slot := (Tbl.find? s.sal.slots k); s.Takes 0x05 t r e ∧ onlyFields e [(8, 0, 2)] = true ∧ s.standby = false ∧
      slot = some x ∧ x.stage = 1 ∧ x.nodes = 0)
    ∧ (∃ t : Tenant, ∃ j : Fin 4, ∃ s : State, let k := (4 * t.val + j.val); Tbl.find? s.sal.slots k = none)
    ∧ (∃ t : Tenant, ∃ j : Fin 4, ∃ s : State, ∃ x : Salvo, let k := (4 * t.val + j.val); Tbl.find? s.sal.slots k =
      some x ∧ x.stage ≠ 1)
    ∧ (∃ t : Tenant, ∃ j : Fin 4, ∃ s : State, ∃ x : Salvo, let k := (4 * t.val + j.val); Tbl.find? s.sal.slots k =
      some x ∧ x.stage = 1 ∧ x.nodes ≠ 0)
    ∧ (∃ t : Tenant, ∃ j : Fin 4, ∃ s : State, ∃ x : Salvo, let k := (4 * t.val + j.val); Tbl.find? s.sal.slots k =
      some x ∧ x.stage = 1 ∧ x.shed = true)
    ∧ (∃ t : Tenant, ∃ j : Fin 4, ∃ s : State, ∃ x : Salvo, let k := (4 * t.val + j.val); Tbl.find? s.sal.slots k =
      some x ∧ x.stage = 1 ∧ x.nodes = 0)
    ∧ (∃ t : Tenant, ∃ j : Fin 4, ∃ s : State, ∃ x : Salvo, let k := (4 * t.val + j.val); Tbl.find? s.sal.slots k =
      some x ∧ x.stage = 1 ∧ x.nodes = 0 ∧ x.shed = false ∧ s.before x 10000 = true ∧ x.entries ≠ [] ∧ x.canvases =
      [])
    ∧ (∃ t : Tenant, ∃ j : Fin 4, ∃ s : State, ∃ x : Salvo, let k := (4 * t.val + j.val); Tbl.find? s.sal.slots k =
      some x ∧ x.stage = 1 ∧ x.nodes = 0 ∧ x.shed = false ∧ s.before x 10000 = false)
    ∧ (∃ k : Nat, ∃ x : Salvo, ∃ s : State, Tbl.find? s.sal.slots k = some x)
    ∧ (∃ g : Word, ∃ s : State, s.groupSlot g = none) :=
  ⟨⟨0, 0, ent [(0, 0x03), (2, 1)], taking 0, by dsimp only [State.Takes]; decide +kernel⟩,
   ⟨0, 0, ent [(0, 0x03)], (taking 0).each (List.range 64) (fun s k => s.setSlot k (salvo 0 0 true)),
    by dsimp only [State.Takes]; decide +kernel⟩,
   ⟨0, 0, ent [(0, 0x03)], inSlot 0 (salvo 0 0 true), by dsimp only [State.Takes]; decide +kernel⟩,
   ⟨0, 0, ent [(0, 0x03)], taking 0, by dsimp only [State.Takes]; decide +kernel⟩,
   ⟨0, 0, ent [(0, 0x04), (2, 1)], taking 0, by dsimp only [State.Takes]; decide +kernel⟩,
   ⟨0, 0, ent [(0, 0x04)], taking 0, by dsimp only [State.Takes]; decide +kernel⟩,
   ⟨1, 0, ent [(0, 0x04)], (taking 1).setSlot 4 (salvo 0 0 true), salvo 0 0 true,
    by dsimp only [State.Takes]; decide +kernel⟩,
   ⟨0, 0, ent [(0, 0x04)], inSlot 0 (salvo 1 0 true), salvo 1 0 true, by dsimp only [State.Takes]; decide +kernel⟩,
   ⟨0, 0, ent [(0, 0x04)], inSlot 0 (salvo 0 0 true), salvo 0 0 true, 0, by dsimp only [State.Takes]; decide +kernel⟩,
   ⟨0, 0, ent [(0, 0x04), (12, 0xF0000000)], inSlot 0 (salvo 0 0 true), salvo 0 0 true,
    by dsimp only [State.Takes]; decide +kernel⟩,
   ⟨0, 0, ent [(0, 0x05), (2, 1)], taking 0, by dsimp only [State.Takes]; decide +kernel⟩,
   ⟨0, 0, ent [(0, 0x05)], taking 0, by dsimp only [State.Takes]; decide +kernel⟩,
   ⟨0, 0, ent [(0, 0x05)], inSlot 0 (salvo 3 0 true), salvo 3 0 true, by dsimp only [State.Takes]; decide +kernel⟩,
   ⟨0, 0, ent [(0, 0x05)], inSlot 0 (salvo 0 0 true), salvo 0 0 true, by dsimp only [State.Takes]; decide +kernel⟩,
   ⟨0, 0, ent [(0, 0x05)], inSlot 0 (salvo 1 0 true), salvo 1 0 true, by dsimp only [State.Takes]; decide +kernel⟩,
   ⟨0, 0, State.reset, by decide +kernel⟩,
   ⟨0, 0, inSlot 0 (salvo 0 0 true), salvo 0 0 true, by decide +kernel⟩,
   ⟨0, 0, inSlot 0 (salvo 1 2 true), salvo 1 2 true, by decide +kernel⟩,
   ⟨0, 0, inSlot 0 { salvo 1 0 true with shed := true }, { salvo 1 0 true with shed := true }, by decide +kernel⟩,
   ⟨0, 0, inSlot 0 (salvo 1 0 true), salvo 1 0 true, by decide +kernel⟩,
   ⟨0, 0, inSlot 0 (salvo 1 0 true), salvo 1 0 true, by decide +kernel⟩,
   ⟨0, 0, inSlot 0 ({ salvo 1 0 true with due := 0 }), { salvo 1 0 true with due := 0 }, by decide +kernel⟩,
   ⟨0, salvo 0 0 true, inSlot 0 (salvo 0 0 true), by decide +kernel⟩,
   ⟨0, State.reset, by decide +kernel⟩⟩

/-- States and operands that meet the hypotheses of SalvosAcrossNodesAndMigration, clause by clause. -/
theorem witness_SalvosAcrossNodesAndMigration :
    (∃ g : Word, ∃ s : State, let open_ := (s.sal.held.filter (fun q => (s.groupSlot q.group).isNone)); s.groupSlot g
      = none ∧ open_.length < 64)
    ∧ (∃ g : Word, ∃ s : State, let open_ := (s.sal.held.filter (fun q => (s.groupSlot q.group).isNone)); s.groupSlot
      g = none ∧ 64 ≤ open_.length)
    ∧ (∃ g : Word, ∃ s : State, s.groupSlot g = none)
    ∧ (∃ g : Word, ∃ k : Nat, ∃ x : Salvo, ∃ s : State, ∃ n : Node, s.groupSlot g = some (k, x) ∧ Tbl.find?
      s.sal.slots k = some x ∧ (x.coord = false ∨ x.stage ≠ 2 ∨ x.nodes.testBit n = false))
    ∧ (∃ g : Word, ∃ k : Nat, ∃ x : Salvo, ∃ s : State, ∃ n : Node, s.groupSlot g = some (k, x) ∧ Tbl.find?
      s.sal.slots k = some x ∧ x.coord = true ∧ x.stage = 2 ∧ x.nodes.testBit n = true ∧ (∃ m, m ∈ s.peersOf x.nodes ∧
      m ∉ x.readyFrom ∧ m ≠ n))
    ∧ (∃ g : Word, ∃ k : Nat, ∃ x : Salvo, ∃ s : State, ∃ n : Node, ∃ f : Word, s.groupSlot g = some (k, x) ∧
      Tbl.find? s.sal.slots k = some x ∧ x.coord = true ∧ x.stage = 2 ∧ x.nodes.testBit n = true ∧ n.val ∉ x.readyFrom
      ∧ (∀ m ∈ s.peersOf x.nodes, m ∈ x.readyFrom ∨ m = n) ∧ s.before { x with f := max x.f f.toNat } 1000000 = true ∧
      x.entries ≠ [])
    ∧ (∃ g : Word, ∃ k : Nat, ∃ x : Salvo, ∃ s : State, s.groupSlot g = some (k, x) ∧ Tbl.find? s.sal.slots k = some x
      ∧ (x.coord = false ∨ x.stage = 0 ∨ 3 ≤ x.stage))
    ∧ (∃ g : Word, ∃ k : Nat, ∃ x : Salvo, ∃ s : State, s.groupSlot g = some (k, x) ∧ Tbl.find? s.sal.slots k = some x
      ∧ x.coord = true ∧ (x.stage = 1 ∨ x.stage = 2))
    ∧ (∃ g : Word, ∃ k : Nat, ∃ x : Salvo, ∃ s : State, s.groupSlot g = some (k, x) ∧ Tbl.find? s.sal.slots k = some x
      ∧ x.coord = false ∧ x.nodes ≠ 0 ∧ (x.stage = 1 ∨ x.stage = 2))
    ∧ (∃ g : Word, ∃ k : Nat, ∃ x : Salvo, ∃ s : State, s.groupSlot g = some (k, x) ∧ Tbl.find? s.sal.slots k = some x
      ∧ x.stage = 3)
    ∧ (∃ g : Word, ∃ k : Nat, ∃ x : Salvo, ∃ s : State, s.groupSlot g = some (k, x) ∧ Tbl.find? s.sal.slots k = some x
      ∧ (x.coord = true ∨ x.nodes = 0 ∨ x.stage ≠ 2 ∨ x.refused ≠ none))
    ∧ (∃ g : Word, ∃ k : Nat, ∃ x : Salvo, ∃ s : State, ∃ f : Word, s.groupSlot g = some (k, x) ∧ Tbl.find?
      s.sal.slots k = some x ∧ x.coord = false ∧ x.nodes ≠ 0 ∧ x.stage = 2 ∧ x.refused = none ∧ s.before { x with f :=
      f.toNat } 10000 = false)
    ∧ (∃ g : Word, ∃ k : Nat, ∃ x : Salvo, ∃ s : State, ∃ f : Word, s.groupSlot g = some (k, x) ∧ Tbl.find?
      s.sal.slots k = some x ∧ x.coord = false ∧ x.nodes ≠ 0 ∧ x.stage = 2 ∧ x.refused = none ∧ s.before { x with f :=
      f.toNat } 10000 = true ∧ x.entries ≠ [])
    ∧ (∃ g : Word, ∃ k : Nat, ∃ x : Salvo, ∃ s : State, s.groupSlot g = some (k, x) ∧ Tbl.find? s.sal.slots k = some x
      ∧ x.coord = false ∧ x.nodes ≠ 0 ∧ x.stage = 2 ∧ x.refused = none)
    ∧ (∃ g : Word, ∃ k : Nat, ∃ x : Salvo, ∃ s : State, s.groupSlot g = some (k, x) ∧ Tbl.find? s.sal.slots k = some x
      ∧ x.coord = true ∧ x.nodes ≠ 0 ∧ x.stage = 3 ∧ x.missing = none ∧ x.entries ≠ [])
    ∧ (∃ g : Word, ∃ k : Nat, ∃ x : Salvo, ∃ s : State, s.groupSlot g = some (k, x) ∧ Tbl.find? s.sal.slots k = some x
      ∧ x.coord = true ∧ (x.stage = 1 ∨ x.stage = 2) ∧ x.nodes ≠ 0 ∧ (∀ p ∈ s.sal.held, p.group ≠ g))
    ∧ (∃ t : Tenant, ∃ r : CmdRing, ∃ e : Entry, ∃ s : State, let kind := (bitsAt e 8 0 2); s.Takes 0x41 t r e ∧
      (onlyFields e migrateFields = false ∨ kind = 3))
    ∧ (∃ t : Tenant, ∃ r : CmdRing, ∃ e : Entry, ∃ s : State, let w := (s.taken t r e ⟨none, 0⟩); let kind := (bitsAt
      e 8 0 2); let target := (bitsAt e 9 0 5); let i := (bitsAt e 10 0 12); s.Takes 0x41 t r e ∧ onlyFields e
      migrateFields = true ∧ kind = 0 ∧ target < 16 ∧ w.migExists 0 i = true ∧ s.ownerOf 1 i ≠ t)
    ∧ (∃ t : Tenant, ∃ r : CmdRing, ∃ e : Entry, ∃ s : State, let w := (s.taken t r e ⟨none, 0⟩); let kind := (bitsAt
      e 8 0 2); let target := (bitsAt e 9 0 5); let i := (bitsAt e 10 0 12); s.Takes 0x41 t r e ∧ onlyFields e
      migrateFields = true ∧ kind = 0 ∧ target < 16 ∧ w.migExists 0 i = true ∧ s.ownerOf 1 i = t ∧ (s.migOf 0 i ≠ none
      ∨ w.canvasHeld i = true))
    ∧ (∃ t : Tenant, ∃ r : CmdRing, ∃ e : Entry, ∃ s : State, let w := (s.taken t r e ⟨none, 0⟩); let kind := (bitsAt
      e 8 0 2); let target := (bitsAt e 9 0 5); let i := (bitsAt e 10 0 12); s.Takes 0x41 t r e ∧ onlyFields e
      migrateFields = true ∧ kind = 0 ∧ target < 16 ∧ w.migExists 0 i = true ∧ s.ownerOf 1 i = t ∧ s.migOf 0 i = none
      ∧ w.canvasHeld i = false ∧ w.migHome 0 i = target ∧ s.standby = false)
    ∧ (∃ t : Tenant, ∃ r : CmdRing, ∃ e : Entry, ∃ s : State, ∃ x : _, let w := (s.taken t r e ⟨none, 0⟩); let kind :=
      (bitsAt e 8 0 2); let target := (bitsAt e 9 0 5); let i := (bitsAt e 10 0 12); s.Takes 0x41 t r e ∧ onlyFields e
      migrateFields = true ∧ kind = 0 ∧ target < 16 ∧ w.migExists 0 i = true ∧ s.ownerOf 1 i = t ∧ s.migOf 0 i = none
      ∧ w.canvasHeld i = false ∧ w.migHome 0 i ≠ target ∧ w.fenced (unitEngine target) = false ∧ w.migOver 0 i target
      = some x)
    ∧ (∃ t : Tenant, ∃ r : CmdRing, ∃ e : Entry, ∃ s : State, let w := (s.taken t r e ⟨none, 0⟩); let kind := (bitsAt
      e 8 0 2); let target := (bitsAt e 9 0 5); let i := (bitsAt e 10 0 12); let time := (bitsAt e 16 0 32); s.Takes
      0x41 t r e ∧ onlyFields e migrateFields = true ∧ kind = 0 ∧ target < 16 ∧ w.migExists 0 i = true ∧ s.ownerOf 1 i
      = t ∧ s.migOf 0 i = none ∧ w.canvasHeld i = false ∧ w.migHome 0 i ≠ target ∧ w.fenced (unitEngine target) =
      false ∧ w.migOver 0 i target = none ∧ unitEngine target ∉ s.bst.slicing ∧ s.standby = false ∧ time = 0)
    ∧ (∃ t : Tenant, ∃ r : CmdRing, ∃ e : Entry, ∃ s : State, let w := (s.taken t r e ⟨none, 0⟩); let kind := (bitsAt
      e 8 0 2); let target := (bitsAt e 9 0 5); let i := (bitsAt e 10 0 12); let time := (bitsAt e 16 0 32); s.Takes
      0x41 t r e ∧ onlyFields e migrateFields = true ∧ kind = 0 ∧ target < 16 ∧ w.migExists 0 i = true ∧ s.ownerOf 1 i
      = t ∧ s.migOf 0 i = none ∧ w.canvasHeld i = false ∧ w.migHome 0 i ≠ target ∧ w.fenced (unitEngine target) =
      false ∧ w.migOver 0 i target = none ∧ unitEngine target ∉ s.bst.slicing ∧ s.standby = false ∧ time ≠ 0 ∧
      s.dueTime (bitsAt e 12 0 2) time = none)
    ∧ (∃ kind : Fin 3, ∃ i : Fin 4096, ∃ s : State, s.migOf kind i = none)
    ∧ (∃ kind : Fin 3, ∃ i : Fin 4096, ∃ s : State, ∃ m : Mig, s.migOf kind i = some m ∧ (m.started = true ∨
      s.migStarts kind i m = false))
    ∧ (∃ kind : Fin 3, ∃ i : Fin 4096, ∃ s : State, ∃ m : Mig, s.migOf kind i = some m ∧ m.started = false ∧
      s.migStarts kind i m = true)
    ∧ (∃ kind : Fin 3, ∃ i : Fin 4096, ∃ s : State, ∃ m : Mig, s.migOf kind i = some m ∧ (m.started = false ∨
      s.migReached m = false))
    ∧ (∃ kind : Fin 3, ∃ i : Fin 4096, ∃ s : State, ∃ m : Mig, s.migOf kind i = some m ∧ m.started = true ∧
      s.migReached m = true ∧ kind.val = 0)
    ∧ (∃ kind : Fin 3, ∃ i : Fin 4096, ∃ s : State, ∃ m : Mig, ∃ f : _, s.migOf kind i = some m ∧ m.started = true ∧
      s.migReached m = true ∧ kind.val = 1 ∧ (s.tx i).now = some f)
    ∧ (∃ kind : Fin 3, ∃ i : Fin 4096, ∃ s : State, ∃ m : Mig, ∃ f : _, s.migOf kind i = some m ∧ m.started = true ∧
      s.migReached m = true ∧ kind.val = 2 ∧ (s.rx i).now = some f) :=
  ⟨⟨0, State.reset, by decide +kernel⟩,
   ⟨0, State.reset.setHeld ((List.range 64).map (fun n => ⟨0, BitVec.ofNat 32 (n + 1), 0, 0, 0, 0, none⟩)),
    by decide +kernel⟩,
   ⟨0, State.reset, by decide +kernel⟩,
   ⟨0, 0, salvo 2 2 false, inSlot 0 (salvo 2 2 false), 1, by decide +kernel⟩,
   ⟨0, 0, salvo 2 6 true, inSlot 0 (salvo 2 6 true), 1, by decide +kernel⟩,
   ⟨0, 0, salvo 2 2 true, inSlot 0 (salvo 2 2 true), 1, 0, by decide +kernel⟩,
   ⟨0, 0, salvo 2 2 false, inSlot 0 (salvo 2 2 false), by decide +kernel⟩,
   ⟨0, 0, salvo 2 2 true, inSlot 0 (salvo 2 2 true), by decide +kernel⟩,
   ⟨0, 0, salvo 2 2 false, inSlot 0 (salvo 2 2 false), by decide +kernel⟩,
   ⟨0, 0, salvo 3 2 false, inSlot 0 (salvo 3 2 false), by decide +kernel⟩,
   ⟨0, 0, salvo 0 0 true, inSlot 0 (salvo 0 0 true), by decide +kernel⟩,
   ⟨0, 0, { salvo 2 2 false with due := 0 }, inSlot 0 ({ salvo 2 2 false with due := 0 }), 0, by decide +kernel⟩,
   ⟨0, 0, salvo 2 2 false, inSlot 0 (salvo 2 2 false), 0, by decide +kernel⟩,
   ⟨0, 0, salvo 2 2 false, inSlot 0 (salvo 2 2 false), by decide +kernel⟩,
   ⟨0, 0, salvo 3 2 true, inSlot 0 (salvo 3 2 true), by decide +kernel⟩,
   ⟨0, 0, salvo 2 2 true, inSlot 0 (salvo 2 2 true), by decide +kernel⟩,
   ⟨0, 0, ent [(0, 0x41), (8, 3)], taking 0, by dsimp only [State.Takes]; decide +kernel⟩,
   ⟨1, 0, ent [(0, 0x41)], (taking 1).setCanvas 0 { CanvasState.idle with now := some small },
    by dsimp only [State.Takes]; decide +kernel⟩,
   ⟨0, 0, ent [(0, 0x41)], (canvassed CanvasState.idle).setMigs [(0, ⟨0, 0, 1, 0, none, false⟩)],
    by dsimp only [State.Takes]; decide +kernel⟩,
   ⟨0, 0, ent [(0, 0x41)],
    (taking 0).setCanvas 0 { CanvasState.idle with now := some ⟨0, 320, 80, 3, 0, 0, 0, 0, Fmt.zero⟩ },
    by dsimp only [State.Takes]; decide +kernel⟩,
   ⟨0, 0, ent [(0, 0x41), (9, 1)],
    (canvassed CanvasState.idle).setCanvas 1 { CanvasState.idle with now := some ⟨1, 65536, 65536, 6, 0, 0, 0, 0, Fmt.zero⟩ },
    9, by dsimp only [State.Takes]; decide +kernel⟩,
   ⟨0, 0, ent [(0, 0x41), (9, 1)],
    (taking 0).setCanvas 0 { CanvasState.idle with now := some ⟨0, 320, 80, 3, 0, 0, 0, 0, Fmt.zero⟩ },
    by dsimp only [State.Takes]; decide +kernel⟩,
   ⟨0, 0, ent [(0, 0x41), (9, 1), (16, 0xF0000000)], canvassed CanvasState.idle,
    by dsimp only [State.Takes]; decide +kernel⟩,
   ⟨0, 0, State.reset, by decide +kernel⟩,
   ⟨0, 0, State.reset.setMigs [(0, ⟨0, 0, 1, 0, none, true⟩)], ⟨0, 0, 1, 0, none, true⟩, by decide +kernel⟩,
   ⟨0, 0, State.reset.setMigs [(0, ⟨0, 0, 1, 0, none, false⟩)], ⟨0, 0, 1, 0, none, false⟩, by decide +kernel⟩,
   ⟨0, 0, State.reset.setMigs [(0, ⟨0, 0, 1, 0, none, false⟩)], ⟨0, 0, 1, 0, none, false⟩, by decide +kernel⟩,
   ⟨0, 0, State.reset.setMigs [(0, ⟨0, 0, 1, 0, none, true⟩)], ⟨0, 0, 1, 0, none, true⟩, by decide +kernel⟩,
   ⟨1, 0,
    (transmitting { FlowTx.idle with now := some (flow 0 0 false f25 pbk) }).setMigs [(4096, ⟨0, 0, 1, 0, none, true⟩)],
    ⟨0, 0, 1, 0, none, true⟩, flow 0 0 false f25 pbk, by decide +kernel⟩,
   ⟨2, 0,
    (receiving { FlowRx.idle with now := some (flow 0 0 false f25 pbk) }).setMigs [(8192, ⟨0, 0, 1, 0, none, true⟩)],
    ⟨0, 0, 1, 0, none, true⟩, flow 0 0 false f25 pbk, by decide +kernel⟩⟩

end Sys2Proof.Tests
end

section
/-! PROOFS. What a host write does to one field of a register under each access type (R9, R10). -/

namespace Sys2Proof.Machine

open Sys2Proof

/-- A number that fits a field reads back whole. -/
theorem Field.get_set_of_lt (f : Field) (w : Word) {n : Nat} (h : f.lo + f.width ≤ 32) (hn : n < 2 ^ f.width) :
    f.get (f.set w n) = n := by
  rw [Field.get_set f w n h, Nat.mod_eq_of_lt hn]

section writeField

variable (locked : Bool) (v old : Word) (r : Bool) (f : Field)

/-- Whatever the access type, a write either leaves the register or sets this one field of it. -/
theorem writeField_reg (k : Access) :
    (writeField locked v (old, r) (f, k)).1 = old ∨ ∃ n, (writeField locked v (old, r) (f, k)).1 = f.set old n := by
  cases k with
  | rw | w1c | w1s => exact .inr ⟨_, rfl⟩
  | ro | wo => exact .inl rfl
  | rwL =>
    simp only [writeField]
    split_ifs
    · exact .inl rfl
    · exact .inl rfl
    · exact .inr ⟨_, rfl⟩
  | wonce =>
    simp only [writeField]
    split_ifs
    · exact .inl rfl
    · exact .inr ⟨_, rfl⟩
    · exact .inl rfl

/-- No other field of the register changes (R10). -/
theorem writeField_get_apart (k : Access) (g : Field) (h : f.lo + f.width ≤ 32) (hg : fieldsApart f g) :
    g.get (writeField locked v (old, r) (f, k)).1 = g.get old := by
  obtain hold | ⟨n, hset⟩ := writeField_reg locked v old r f k
  · rw [hold]
  · rw [hset, Field.get_set_apart f g old n h hg]

theorem writeField_rw (h : f.lo + f.width ≤ 32) :
    f.get (writeField locked v (old, r) (f, .rw)).1 = f.get v ∧ (writeField locked v (old, r) (f, .rw)).2 = r :=
  ⟨Field.get_set_of_lt f old h (Field.get_lt f v), rfl⟩

theorem writeField_w1c (h : f.lo + f.width ≤ 32) :
    f.get (writeField locked v (old, r) (f, .w1c)).1 = f.get old &&& (2 ^ f.width - 1 - f.get v)
      ∧ (writeField locked v (old, r) (f, .w1c)).2 = r :=
  ⟨Field.get_set_of_lt f old h (Nat.and_le_left.trans_lt (Field.get_lt f old)), rfl⟩

theorem writeField_w1s (h : f.lo + f.width ≤ 32) :
    f.get (writeField locked v (old, r) (f, .w1s)).1 = f.get old ||| f.get v
      ∧ (writeField locked v (old, r) (f, .w1s)).2 = r :=
  ⟨Field.get_set_of_lt f old h (Nat.or_lt_two_pow (Field.get_lt f old) (Field.get_lt f v)), rfl⟩

theorem writeField_rwL_unlocked (h : f.lo + f.width ≤ 32) :
    f.get (writeField false v (old, r) (f, .rwL)).1 = f.get v ∧ (writeField false v (old, r) (f, .rwL)).2 = r := by
  by_cases same : f.get v = f.get old
  · simp [writeField, same]
  · simp [writeField, same, Field.get_set_of_lt f old h (Field.get_lt f v)]

/-- Under SETUP the field keeps its value, and a write that would change it is refused. -/
theorem writeField_rwL_locked :
    writeField true v (old, r) (f, .rwL) = (old, r || f.get v != f.get old) := by
  by_cases same : f.get v = f.get old <;> simp [writeField, same]

theorem writeField_wonce_unset (h : f.lo + f.width ≤ 32) (unset : f.get old = 0) :
    f.get (writeField locked v (old, r) (f, .wonce)).1 = f.get v
      ∧ (writeField locked v (old, r) (f, .wonce)).2 = r := by
  by_cases same : f.get v = 0
  · simp [writeField, same, unset]
  · simp [writeField, same, unset, Field.get_set_of_lt f old h (Field.get_lt f v)]

/-- Once a non-zero value is set the field keeps it, and a write that would change it is refused. -/
theorem writeField_wonce_set (hset : f.get old ≠ 0) :
    writeField locked v (old, r) (f, .wonce) = (old, r || f.get v != f.get old) := by
  by_cases same : f.get v = f.get old <;> simp [writeField, same, hset]

end writeField

/-- Settles O6: the rule of each access type, and the frame of the one field a write can set. -/
theorem fieldWriteTypes : Obligations.FieldWriteTypes := by
  intro locked v old r f h
  refine ⟨fun k g hg => writeField_get_apart locked v old r f k g h hg, writeField_rw locked v old r f h, ⟨rfl, rfl⟩,
    writeField_w1c locked v old r f h, writeField_w1s locked v old r f h, ?unlocked, ?locked,
    writeField_wonce_unset locked v old r f h, ?once⟩
  case unlocked =>
    rintro rfl
    exact writeField_rwL_unlocked v old r f h
  case locked =>
    rintro rfl
    simp only [writeField_rwL_locked, and_self]
  case once =>
    intro hset
    simp only [writeField_wonce_set locked v old r f hset, and_self]

end Sys2Proof.Machine
end

section
/-! PROOFS. Frames of single updates compose; and what a command gives is read through the interrupt messages that end
it (R89-R92). -/

namespace Sys2Proof.Machine

open Sys2Proof

/-! ## Frames compose -/

theorem Part.Same.refl (s : State) (p : Part) : p.Same s s := by cases p <;> simp [Part.Same]

theorem Part.Same.trans {p : Part} {s t u : State} (h : p.Same s t) (g : p.Same t u) : p.Same s u := by
  cases p
  case sched =>
    obtain ⟨h1, h2, h3, h4, h5, h6, h7, h8⟩ := h
    obtain ⟨g1, g2, g3, g4, g5, g6, g7, g8⟩ := g
    exact ⟨g1.trans h1, g2.trans h2, g3.trans h3, g4.trans h4, g5.trans h5, g6.trans h6, g7.trans h7, g8.trans h8⟩
  all_goals exact Eq.trans g h

theorem SameParts.refl (p : List Part) (s : State) : SameParts p s s := fun q _ => Part.Same.refl s q

theorem SameParts.trans {p : List Part} {s t u : State} (h : SameParts p s t) (g : SameParts p t u) :
    SameParts p s u := fun q hq => (h q hq).trans (g q hq)

section frames

variable {l : List Nat} {p : List Part} {s t u : State}

theorem Frame.refl : Frame l p s s := ⟨fun _ _ => rfl, fun _ => rfl, SameParts.refl p s⟩

theorem Frame.trans (h : Frame l p s t) (g : Frame l p t u) : Frame l p s u :=
  ⟨fun a ha => (g.1 a ha).trans (h.1 a ha), fun a => (g.2.1 a).trans (h.2.1 a), h.2.2.trans g.2.2⟩

/-- An update that leaves every register and package memory, and every part outside the frame. -/
theorem Frame.update (h : Frame l p s t) (hr : u.regs = t.regs) (hm : u.mem = t.mem) (hp : SameParts p t u) :
    Frame l p s u :=
  h.trans ⟨fun a _ => by simp [State.rd, hr], fun a => by rw [hm], hp⟩

theorem Frame.wr (h : Frame l p s t) {a : Nat} (v : Word) (ha : a ∈ l) : Frame l p s (t.wr a v) :=
  h.trans ⟨fun b hb => State.rd_wr_other t v (fun e => hb (e ▸ ha)), fun _ => rfl,
    fun q _ => by cases q <;> simp [Part.Same]⟩

theorem Frame.setFld (h : Frame l p s t) {a : Nat} (f : Field) (n : Nat) (ha : a ∈ l) :
    Frame l p s (t.setFld a f n) := h.wr _ ha

theorem Frame.setBit (h : Frame l p s t) {a : Nat} (f : Field) (b : Bool) (ha : a ∈ l) :
    Frame l p s (t.setBit a f b) := h.wr _ ha

theorem Frame.incBy (h : Frame l p s t) {a : Nat} (f : Field) (n : Nat) (ha : a ∈ l) :
    Frame l p s (t.incBy a f n) := h.wr _ ha

theorem Frame.inc (h : Frame l p s t) {a : Nat} (f : Field) (ha : a ∈ l) : Frame l p s (t.inc a f) := h.wr _ ha

theorem Frame.emit (h : Frame l p s t) (e : Emission) : Frame l p s (t.emit e) :=
  h.update rfl rfl (fun q _ => by cases q <;> simp [Part.Same])

theorem Frame.setRing (h : Frame l p s t) (n r : Nat) (x : Ring) (hp : .rings ∈ p) : Frame l p s (t.setRing n r x) :=
  h.update rfl rfl (fun q hq => by
    cases q
    case rings => exact absurd hp hq
    all_goals simp [Part.Same])

theorem Frame.setChan (h : Frame l p s t) (n : Nat) (x : Chan) (hp : .chans ∈ p) : Frame l p s (t.setChan n x) :=
  h.update rfl rfl (fun q hq => by
    cases q
    case chans => exact absurd hp hq
    all_goals simp [Part.Same])

theorem Frame.setSvc (h : Frame l p s t) (x : Svc) (hp : .svc ∈ p) : Frame l p s (t.setSvc x) :=
  h.update rfl rfl (fun q hq => by
    cases q
    case svc => exact absurd hp hq
    all_goals simp [Part.Same])

theorem Frame.dropReqs (h : Frame l p s t) (n : Nat) (hp : .blk ∈ p) : Frame l p s (t.dropReqs n) :=
  h.update rfl rfl (fun q hq => by
    cases q
    case blk => exact absurd hp hq
    all_goals simp [Part.Same, State.dropReqs])

theorem Frame.when (h : Frame l p s t) (b : Bool) {f : State → State} (hf : Frame l p t (f t)) :
    Frame l p s (t.when b f) := by
  unfold State.when
  split
  · exact h.trans hf
  · exact h

theorem Frame.each {α : Type} {f : State → α → State} (k : List α) (hf : ∀ u, ∀ x ∈ k, Frame l p u (f u x))
    (h : Frame l p s t) : Frame l p s (t.each k f) := by
  induction k generalizing t with
  | nil => exact h
  | cons x k ih =>
    exact ih (fun u y hy => hf u y (List.mem_cons_of_mem _ hy)) (h.trans (hf t x List.mem_cons_self))

theorem Signalled.frame (h : Signalled t u) : Frame l p t u := by
  obtain ⟨o, m, rfl⟩ := h
  exact Frame.refl.update rfl rfl (fun q _ => by cases q <;> simp [Part.Same])

theorem Frame.signal (h : Frame l p s t) (n v : Nat) : Frame l p s (t.signal n v) :=
  h.trans (Signalled.signal t n v).frame

end frames

/-! ## What is read through the interrupt messages -/

/-- `u` is `t` after its interrupt messages: nothing that had left the device is taken back. -/
structure Told (t u : State) : Prop where
  signalled : Signalled t u
  sent : ∀ e ∈ t.out, e ∈ u.out

theorem Told.refl (s : State) : Told s s := ⟨Signalled.refl s, fun _ h => h⟩

theorem Told.trans {s t u : State} (h : Told s t) (g : Told t u) : Told s u :=
  ⟨h.signalled.trans g.signalled, fun e he => g.sent e (h.sent e he)⟩

theorem Told.emit (s : State) (e : Emission) : Told s (s.emit e) :=
  ⟨Signalled.emit s e, fun _ h => List.mem_cons_of_mem _ h⟩

theorem Told.signal (s : State) (t v : Nat) : Told s (s.signal t v) := by
  refine ⟨Signalled.signal s t v, ?_⟩
  unfold State.signal
  split
  · split
    · exact fun _ h => h
    · exact fun _ h => h
  · exact fun _ h => List.mem_cons_of_mem _ h

theorem Told.when {s t : State} (h : Told s t) (b : Bool) {f : State → State} (hf : ∀ u, Told u (f u)) :
    Told s (t.when b f) := by
  unfold State.when
  split
  · exact h.trans (hf t)
  · exact h

theorem signalEdges_told (old s : State) : Told s (State.signalEdges old s) := by
  unfold State.signalEdges
  extract_lets rise timRise s1 s2 s3 s4 s5
  have hs : ∀ v u, Told u (State.signal u 0 v) := fun v u => Told.signal u 0 v
  have h3 : Told s s3 := (((Told.refl s).when _ (hs 17)).when _ (hs 18)).when _ (hs 19)
  exact ((h3.when _ (hs 20)).when _ (hs 21)).when _ (fun u => Told.emit u _)

theorem gives_told {c : Instr} {s t : State} {P : State → Prop} (h : exec c s = done s t)
    (hP : ∀ u, Told t u → P u) : Gives c s P := ⟨_, h, hP _ (signalEdges_told s t)⟩

theorem gives_told_bar {c : Instr} {s t : State} {P : State → Prop} (hb : s.pwr.barred = false)
    (h : exec c s = doneBar s t) (hP : ∀ u, Told t u → P u) : Gives c s P := by
  refine gives_told (t := t) ?_ hP
  rw [h]
  simp [doneBar, hb]

/-- A command whose effect changes nothing. -/
theorem gives_nothing {c : Instr} {s : State} (h : exec c s = done s s) : Gives c s (OnlyRegs [] s) :=
  gives_told h (fun _ hu => hu.signalled.onlyRegs)

section told

variable {t u : State} (h : Told t u)

include h

theorem Told.frame {l : List Nat} {p : List Part} {s : State} (hf : Frame l p s t) : Frame l p s u :=
  hf.trans h.signalled.frame

theorem Told.rd (a : Nat) : u.rd a = t.rd a := h.signalled.rd a
theorem Told.fld (a : Nat) (f : Field) : u.fld a f = t.fld a f := by simp [State.fld, h.rd]
theorem Told.bit (a : Nat) (f : Field) : u.bit a f = t.bit a f := by simp [State.bit, h.fld]

theorem Told.hif : ∃ m, u.hif = { t.hif with msixPending := m } := by
  obtain ⟨o, m, rfl⟩ := h.signalled
  exact ⟨m, rfl⟩

theorem Told.rings : u.hif.rings = t.hif.rings := by
  obtain ⟨m, hm⟩ := h.hif
  simp [hm]

theorem Told.chans : u.hif.chans = t.hif.chans := by
  obtain ⟨m, hm⟩ := h.hif
  simp [hm]

theorem Told.ring (n r : Nat) : u.ring n r = t.ring n r := by simp [State.ring, h.rings]
theorem Told.chan (n : Nat) : u.chan n = t.chan n := by simp [State.chan, h.chans]

theorem Told.mem : u.mem = t.mem := by
  obtain ⟨o, m, rfl⟩ := h.signalled
  rfl

theorem Told.cmp : u.cmp = t.cmp := by
  obtain ⟨o, m, rfl⟩ := h.signalled
  rfl

end told

/-! ## Rings and channels after an update -/

@[simp] theorem State.ring_setRing (s : State) (t r : Nat) (x : Ring) : (s.setRing t r x).ring t r = x := by
  simp [State.ring]

theorem State.ring_setRing_other (s : State) {t r t' r' : Nat} (x : Ring) (h : 16 * t' + r' ≠ 16 * t + r) :
    (s.setRing t r x).ring t' r' = s.ring t' r' := by
  simp [State.ring, Tbl.getD_put_other _ _ _ h]

theorem State.find?_setRing_other (s : State) {t r k : Nat} (x : Ring) (h : k ≠ 16 * t + r) :
    Tbl.find? (s.setRing t r x).hif.rings k = Tbl.find? s.hif.rings k := by
  simp [Tbl.find?_put_other _ _ h]

@[simp] theorem State.ring_wr (s : State) (a : Nat) (v : Word) (t r : Nat) : (s.wr a v).ring t r = s.ring t r := rfl
@[simp] theorem State.ring_setFld (s : State) (a : Nat) (f : Field) (n t r : Nat) :
    (s.setFld a f n).ring t r = s.ring t r := rfl

@[simp] theorem State.rd_setRing (s : State) (t r : Nat) (x : Ring) (a : Nat) : (s.setRing t r x).rd a = s.rd a := rfl
@[simp] theorem State.fld_setRing (s : State) (t r : Nat) (x : Ring) (a : Nat) (f : Field) :
    (s.setRing t r x).fld a f = s.fld a f := rfl
@[simp] theorem State.rd_emit (s : State) (e : Emission) (a : Nat) : (s.emit e).rd a = s.rd a := rfl
@[simp] theorem State.fld_emit (s : State) (e : Emission) (a : Nat) (f : Field) : (s.emit e).fld a f = s.fld a f := rfl

end Sys2Proof.Machine
end

section
/-! PROOFS. What a host write to a register with no locked field does: it sets the register alone (R9, R10), and which
registers of the tenant pages and of the host channels are such. -/

namespace Sys2Proof.Machine

open Sys2Proof

/-! ## Registers without locked fields -/

/-- The access type never refuses a write. -/
def Access.open_ : Access → Bool
  | .rwL | .wonce => false
  | _ => true

/-- The fields lie in the register, do not overlap, and none refuses a write. -/
def openFields : List (Field × Access) → Bool
  | [] => true
  | fa :: l => decide (fa.1.lo + fa.1.width ≤ 32) && fa.2.open_
      && l.all (fun g => decide (fa.1.lo + fa.1.width ≤ g.1.lo ∨ g.1.lo + g.1.width ≤ fa.1.lo)) && openFields l

theorem openFields_cons {fa : Field × Access} {l : List (Field × Access)} (h : openFields (fa :: l) = true) :
    fa.1.lo + fa.1.width ≤ 32 ∧ fa.2.open_ = true ∧ (∀ g ∈ l, fieldsApart fa.1 g.1) ∧ openFields l = true := by
  simpa [openFields, and_assoc, fieldsApart] using h

theorem writeField_open (locked : Bool) (v : Word) (acc : Word × Bool) {fa : Field × Access}
    (h : fa.2.open_ = true) : (writeField locked v acc fa).2 = acc.2 := by
  obtain ⟨f, k⟩ := fa
  cases k with
  | rwL | wonce => simp [Access.open_] at h
  | rw | w1c | w1s | ro | wo => rfl

/-- A write never refused leaves the refusal flag. -/
theorem foldl_writeField_open (locked : Bool) (v : Word) {l : List (Field × Access)} (h : openFields l = true)
    (acc : Word × Bool) : (l.foldl (writeField locked v) acc).2 = acc.2 := by
  induction l generalizing acc with
  | nil => rfl
  | cons fa l ih =>
    obtain ⟨-, hk, -, hl⟩ := openFields_cons h
    rw [List.foldl_cons, ih hl, writeField_open locked v acc hk]

/-- Writes of fields apart from `g` leave `g`. -/
theorem foldl_writeField_get_apart (locked : Bool) (v : Word) (g : Field) {l : List (Field × Access)}
    (h : openFields l = true) (hg : ∀ fa ∈ l, fieldsApart fa.1 g) (acc : Word × Bool) :
    g.get (l.foldl (writeField locked v) acc).1 = g.get acc.1 := by
  induction l generalizing acc with
  | nil => rfl
  | cons fa l ih =>
    obtain ⟨hw, -, -, hl⟩ := openFields_cons h
    rw [List.foldl_cons, ih hl (fun x hx => hg x (List.mem_cons_of_mem _ hx))]
    exact writeField_get_apart locked v acc.1 acc.2 fa.1 fa.2 g hw (hg fa List.mem_cons_self)

/-- What a write of `v` makes of a field that held `x`, under an access type that refuses nothing. -/
def Access.after (k : Access) (f : Field) (v : Word) (x : Nat) : Nat :=
  match k with
  | .rw => f.get v
  | .w1c => x &&& (2 ^ f.width - 1 - f.get v)
  | .w1s => x ||| f.get v
  | _ => x

theorem writeField_get (locked : Bool) (v : Word) (acc : Word × Bool) {f : Field} {k : Access}
    (hw : f.lo + f.width ≤ 32) (hk : k.open_ = true) :
    f.get (writeField locked v acc (f, k)).1 = k.after f v (f.get acc.1) := by
  obtain ⟨old, r⟩ := acc
  cases k with
  | rw => exact (writeField_rw locked v old r f hw).1
  | w1c => exact (writeField_w1c locked v old r f hw).1
  | w1s => exact (writeField_w1s locked v old r f hw).1
  | ro | wo => rfl
  | rwL | wonce => simp [Access.open_] at hk

/-- Each field of the register goes by its own access type. -/
theorem foldl_writeField_get (locked : Bool) (v : Word) {l : List (Field × Access)} (h : openFields l = true)
    {f : Field} {k : Access} (hf : (f, k) ∈ l) (acc : Word × Bool) :
    f.get (l.foldl (writeField locked v) acc).1 = k.after f v (f.get acc.1) := by
  induction l generalizing acc with
  | nil => simp at hf
  | cons fa l ih =>
    obtain ⟨hw, hk, happ, hl⟩ := openFields_cons h
    rw [List.foldl_cons]
    rcases List.mem_cons.1 hf with rfl | hf
    · rw [foldl_writeField_get_apart locked v f hl (fun x hx => (happ x hx).symm), writeField_get locked v acc hw hk]
    · rw [ih hl hf, writeField_get_apart locked v acc.1 acc.2 fa.1 fa.2 f hw (happ (f, k) hf)]

/-- The register at `a` stands in the map with fields `fs`, none of which refuses a write. -/
def OpenReg (a : Nat) (fs : List (Field × Access)) : Prop :=
  openFields fs = true ∧ (findReg a).map (fun x => x.1.fields) = some fs

section open_

variable {a : Nat} {fs : List (Field × Access)} (h : OpenReg a fs) (s : State) (v : Word)

include h

theorem OpenReg.written : s.written a v = writeFields s.locked fs (s.rd a) v := by
  obtain ⟨⟨d, i, j⟩, hd, rfl⟩ := Option.map_eq_some_iff.1 h.2
  simp [State.written, hd]

/-- A write to such a register sets it and does nothing else. -/
theorem OpenReg.fieldWrite : s.fieldWrite a v = s.wr a (s.written a v).1 := by
  have hr : (s.written a v).2 = false := by simp [h.written, writeFields, foldl_writeField_open _ _ h.1]
  simp [State.fieldWrite, hr, State.when]

theorem OpenReg.fld {f : Field} {k : Access} (hf : (f, k) ∈ fs) :
    (s.fieldWrite a v).fld a f = k.after f v (s.fld a f) := by
  rw [h.fieldWrite s v]
  simp [State.fld, h.written, writeFields, foldl_writeField_get _ _ h.1 hf]

theorem OpenReg.fld_other {b : Nat} (f : Field) (hb : b ≠ a) : (s.fieldWrite a v).fld b f = s.fld b f := by
  rw [h.fieldWrite s v, State.fld, State.rd_wr_other s _ hb, State.fld]

theorem OpenReg.frame {l : List Nat} {p : List Part} {s0 : State} (hf : Frame l p s0 s) (ha : a ∈ l) :
    Frame l p s0 (s.fieldWrite a v) := by
  rw [h.fieldWrite s v]
  exact hf.wr _ ha

theorem OpenReg.hif : (s.fieldWrite a v).hif = s.hif := by rw [h.fieldWrite s v]; rfl
theorem OpenReg.cmp : (s.fieldWrite a v).cmp = s.cmp := by rw [h.fieldWrite s v]; rfl
theorem OpenReg.out : (s.fieldWrite a v).out = s.out := by rw [h.fieldWrite s v]; rfl

theorem OpenReg.ring (t r : Nat) : (s.fieldWrite a v).ring t r = s.ring t r := by rw [State.ring, h.hif]; rfl
theorem OpenReg.chan (n : Nat) : (s.fieldWrite a v).chan n = s.chan n := by rw [State.chan, h.hif]; rfl

end open_

/-! ## Where the registers stand -/

theorem findIn_cons_none {a : Nat} {d : RegDesc} {ds : List RegDesc} (h : d.index a = none) :
    findIn a (d :: ds) = findIn a ds := by simp [findIn, h]

theorem findIn_cons_some {a : Nat} {d : RegDesc} {ds : List RegDesc} {i j : Nat} (h : d.index a = some (i, j)) :
    findIn a (d :: ds) = some (d, i, j) := by simp [findIn, h]

theorem blockRegs_page {a : Nat} (h1 : 0x100000000 ≤ a) (h2 : a < 0x200000000) : blockRegs a = regsPAGE := by
  unfold blockRegs
  simp [show ∀ n, n ≤ 0x100000000 → ¬a < n from fun n hn => by omega, h2]

/-- The fields of RING_BASE_LO, RING_BASE_HI, RING_CTRL and RING_STAT (R73, R74, R76). -/
def ringBaseLoFields : List (Field × Access) := [(RING_BASE_LO_LOG2SIZE, .rw), (RING_BASE_LO_BASE_LO, .rw)]
def ringBaseHiFields : List (Field × Access) := [(RING_BASE_HI_BASE_HI, .rw)]
def ringCtrlFields : List (Field × Access) := [(RING_CTRL_EN, .rw), (RING_CTRL_VEC, .rw), (RING_CTRL_IEN, .rw)]
def ringStatFields : List (Field × Access) :=
  [(RING_STAT_BADIDX, .w1c), (RING_STAT_CFGREJ, .w1c), (RING_STAT_FULL, .ro), (RING_STAT_DROP, .w1c),
   (RING_STAT_DROPCNT, .ro)]

theorem index_page_none {a b s c : Nat} (fs : List (Field × Access)) (z : Nat → Nat → Word)
    (h : ¬(b ≤ a ∧ (a - b) % 0x10000 % s = 0 ∧ (a - b) % 0x10000 / s < c)) :
    RegDesc.index ⟨b, 0x10000, 1024, s, c, fs, z⟩ a = none := by
  unfold RegDesc.index
  split_ifs with hb
  · rfl
  · exact if_neg (fun ⟨_, e⟩ => h ⟨Nat.le_of_not_lt hb, e⟩)

/-- Element (i, j) of a family of the tenant pages stands at its base plus i pages and j strides. -/
theorem index_page_some {b s c i j : Nat} (fs : List (Field × Access)) (z : Nat → Nat → Word) (hs : 0 < s)
    (hc : s * c ≤ 0x10000) (hi : i < 1024) (hj : j < c) :
    RegDesc.index ⟨b, 0x10000, 1024, s, c, fs, z⟩ (b + 0x10000 * i + s * j) = some (i, j) := by
  have hq : s * j < 0x10000 := Nat.lt_of_lt_of_le (Nat.mul_lt_mul_of_pos_left hj hs) hc
  have h0 : b + 0x10000 * i + s * j - b = 0x10000 * i + s * j := by omega
  have h1 : (0x10000 * i + s * j) / 0x10000 = i := by omega
  have h2 : (0x10000 * i + s * j) % 0x10000 = s * j := by omega
  unfold RegDesc.index
  simp [h0, h1, h2, hs, hi, hj, show ¬b + 0x10000 * i + s * j < b by omega]

section page

variable (t : Tenant) (r : RingIx)

theorem openReg_ring : OpenReg (RING_BASE_LO t r) ringBaseLoFields ∧ OpenReg (RING_BASE_HI t r) ringBaseHiFields
    ∧ OpenReg (RING_CTRL t r) ringCtrlFields ∧ OpenReg (RING_STAT t r) ringStatFields := by
  unfold OpenReg findReg RING_BASE_LO RING_BASE_HI RING_CTRL RING_STAT
  refine ⟨⟨by decide, ?_⟩, ⟨by decide, ?_⟩, ⟨by decide, ?_⟩, ⟨by decide, ?_⟩⟩ <;>
  · rw [blockRegs_page (by omega) (by omega), regsPAGE]
    repeat rw [findIn_cons_none (index_page_none _ _ (by omega))]
    rw [findIn_cons_some (index_page_some _ _ (by decide) (by decide) t.isLt r.isLt)]
    rfl

theorem openReg_ringBaseLo : OpenReg (RING_BASE_LO t r) ringBaseLoFields := (openReg_ring t r).1
theorem openReg_ringBaseHi : OpenReg (RING_BASE_HI t r) ringBaseHiFields := (openReg_ring t r).2.1
theorem openReg_ringCtrl : OpenReg (RING_CTRL t r) ringCtrlFields := (openReg_ring t r).2.2.1
theorem openReg_ringStat : OpenReg (RING_STAT t r) ringStatFields := (openReg_ring t r).2.2.2

end page

/-- The fields of HIF_DMAn_CTRL (R102). -/
def dmaCtrlFields : List (Field × Access) :=
  [(HIF_DMA_CTRL_EN, .rw), (HIF_DMA_CTRL_RESUME, .wo), (HIF_DMA_CTRL_ABORT, .wo), (HIF_DMA_CTRL_BURST, .rw),
   (HIF_DMA_CTRL_REQSEL, .rw), (HIF_DMA_CTRL_RETRY, .rw), (HIF_DMA_CTRL_IENHALT, .rw)]

theorem openReg_dmaCtrl (n : HostCh) : OpenReg (HIF_DMA_CTRL (48 + n.val)) dmaCtrlFields :=
  ⟨by decide, (by decide : ∀ n : HostCh, (findReg (HIF_DMA_CTRL (48 + n.val))).map (fun x => x.1.fields) =
    some dmaCtrlFields) n⟩

theorem openReg_dmaPidx (n : HostCh) : OpenReg (HIF_DMA_PIDX (48 + n.val)) [(HIF_DMA_PIDX_IDX, .rw)] :=
  ⟨by decide, (by decide : ∀ n : HostCh, (findReg (HIF_DMA_PIDX (48 + n.val))).map (fun x => x.1.fields) =
    some [(HIF_DMA_PIDX_IDX, .rw)]) n⟩

theorem openReg_glbLock : OpenReg GLB_LOCK [(GLB_LOCK_SETUP, .w1s)] := ⟨by decide, by decide⟩

end Sys2Proof.Machine
end

section
/-! PROOFS. Host register writes and MSI-X messages: O7 and O9 (R59, R62, R64, R91). -/

namespace Sys2Proof.Machine

open Sys2Proof

/-! ## What a register write reaches -/

section opRegisterWrite

variable (sp : RegSpace) (off a : Nat) (v w : Word) (s : State)

theorem opRegisterWrite_word (h : off % 4 = 0) (ha : spaceAddr sp off = some a) :
    opRegisterWrite sp off v none s = s.hostWrite a v := by simp [opRegisterWrite, h, ha]

theorem opRegisterWrite_wide (h : off % 8 = 0) (ha : spaceAddr sp off = some a) :
    opRegisterWrite sp off v (some w) s = (s.hostWrite a v).hostWrite (a + 4) w := by
  simp [opRegisterWrite, h, ha]

theorem opRegisterWrite_beyond (h : off % 4 = 0) (ha : spaceAddr sp off = none) :
    opRegisterWrite sp off v none s = s := by simp [opRegisterWrite, h, ha]

theorem opRegisterWrite_misaligned (h : off % 4 ≠ 0) : opRegisterWrite sp off v none s = s.raise 326 := by
  simp [opRegisterWrite, h]

theorem opRegisterWrite_misaligned_wide (h : off % 8 ≠ 0) : opRegisterWrite sp off v (some w) s = s.raise 326 := by
  simp [opRegisterWrite, h]

end opRegisterWrite

theorem hostWrite_unnamed (s : State) {a : Nat} (v : Word) (h : findReg a = none) : s.hostWrite a v = s := by
  simp [State.hostWrite, h]

theorem hostWrite_barred (s : State) {a : Nat} (v : Word) (h : s.barredAt a = true) : s.hostWrite a v = s := by
  simp [State.hostWrite, h]

theorem spaceAddr_page (t : Tenant) {off : Nat} (h : off < 0x10000) :
    spaceAddr (.page t) off = some (0x100000000 + 0x10000 * t.val + off) := if_pos h

/-- While only PWR, SVC and SEC answer, an address of BAR0 outside them does not (R496). -/
theorem barredAt_outside {s : State} (hb : s.pwr.barred = true) (off : BitVec 26)
    (h : off.toNat < 0x1380000 ∨ 0x1500000 ≤ off.toNat) : s.barredAt off.toNat = true := by
  have := off.isLt
  simp only [State.barredAt, hb, Bool.true_and, Bool.and_eq_true, decide_eq_true_eq, Bool.not_eq_true',
    decide_eq_false_iff_not]
  omega

/-- GLB_LOCK.SETUP is set by a write with a 1 and never cleared by one (R9, R501). -/
theorem locked_fieldWrite (s : State) (v : Word) :
    (s.fieldWrite GLB_LOCK v).locked = (s.locked || v.getLsbD 0) := by
  have hset : (s.fieldWrite GLB_LOCK v).fld GLB_LOCK GLB_LOCK_SETUP
      = s.fld GLB_LOCK GLB_LOCK_SETUP ||| GLB_LOCK_SETUP.get v := openReg_glbLock.fld s v (k := .w1s) (by decide)
  have hv : v.getLsbD 0 = (GLB_LOCK_SETUP.get v != 0) := by
    simp only [Field.get, GLB_LOCK_SETUP, BitVec.getLsbD, Nat.testBit_zero]
    rcases Nat.mod_two_eq_zero_or_one v.toNat with e | e <;> simp [e]
  rw [State.locked, State.bit, hset, hv, State.locked, State.bit, Bool.eq_iff_iff]
  simp only [bne_iff_ne, ne_eq, Nat.or_eq_zero_iff, Bool.or_eq_true]
  exact not_and_or

/-- Settles O7: the write is decided by the alignment and the address alone. -/
theorem registerWriteReaches : Obligations.RegisterWriteReaches := by
  intro s v
  have whole : ∀ {c : Instr} {t : State}, exec c s = done s t → t = s → Gives c s (OnlyRegs [] s) := by
    rintro c _ h rfl
    exact gives_nothing h
  refine ⟨fun off h => ?word, fun off w h => ?wide, fun t off h hp => ?page, fun t off w h hp => ?pageWide,
    fun t off h hp => ?beyond, fun off h hf => ?unnamed, fun off h hb ho => ?barred, fun sp off h => ?odd,
    fun sp off w h => ?oddWide, fun hb => ?lock⟩
  case word => exact congrArg (done s) (opRegisterWrite_word .bar0 _ _ v s h rfl)
  case wide => exact congrArg (done s) (opRegisterWrite_wide .bar0 _ _ v w s h rfl)
  case page => exact congrArg (done s) (opRegisterWrite_word (.page t) _ _ v s h (spaceAddr_page t hp))
  case pageWide => exact congrArg (done s) (opRegisterWrite_wide (.page t) _ _ v w s h (spaceAddr_page t hp))
  case beyond => exact whole rfl (opRegisterWrite_beyond _ _ v s h (if_neg (Nat.not_lt.2 hp)))
  case unnamed => exact whole rfl ((opRegisterWrite_word .bar0 _ _ v s h rfl).trans (hostWrite_unnamed s v hf))
  case barred =>
    exact whole rfl ((opRegisterWrite_word .bar0 _ _ v s h rfl).trans
      (hostWrite_barred s v (barredAt_outside hb off ho)))
  case odd => exact congrArg (done s) (opRegisterWrite_misaligned sp _ v s h)
  case oddWide => exact congrArg (done s) (opRegisterWrite_misaligned_wide sp _ v w s h)
  case lock =>
    refine gives_told_bar hb rfl (fun u hu => ⟨?_, hu.frame (openReg_glbLock.frame s v Frame.refl (by simp))⟩)
    rw [← locked_fieldWrite, State.locked, hu.bit, State.locked]

/-! ## MSI-X -/

theorem signal_masked {s : State} {t v : Nat} (h : s.vecMasked t v = true) :
    (s.signal t v).out = s.out ∧ (s.signal t v).vecMasked t v = true
      ∧ 64 * t + v ∈ (s.signal t v).hif.msixPending := by
  by_cases hp : 64 * t + v ∈ s.hif.msixPending
  · simp [State.signal, h, hp]
  · simp only [State.signal, h, hp, List.contains_eq_mem, decide_false, if_true]
    exact ⟨rfl, h, by simp⟩

theorem signal_pending {s : State} {t v : Nat} (h : s.vecMasked t v = true)
    (hp : 64 * t + v ∈ s.hif.msixPending) : s.signal t v = s := by simp [State.signal, h, hp]

theorem signal_unmasked {s : State} {t v : Nat} (h : s.vecMasked t v = false) :
    s.signal t v = s.emit (s.vecMessage t v) := by simp [State.signal, h]

/-- The message of a vector does not depend on its mask. -/
theorem vecMessage_unmasked (s : State) (t v : Nat) :
    (s.setBit (MSIX_VCTRL t v) MSIX_VCTRL_MASK false).vecMessage t v = s.vecMessage t v := by
  unfold State.vecMessage
  rw [State.rd_setBit_other, State.rd_setBit_other, State.rd_setBit_other] <;>
    unfold MSIX_VCTRL <;> simp only [MSIX_ADDR_HI, MSIX_ADDR_LO, MSIX_DATA] <;> omega

theorem vecMasked_setBit (s : State) (t v : Nat) :
    (s.setBit (MSIX_VCTRL t v) MSIX_VCTRL_MASK false).vecMasked t v = false :=
  State.bit_setBit s _ _ false (by decide) (by decide)

theorem unmask_pending {s : State} {t v : Nat} (h : 64 * t + v ∈ s.hif.msixPending) :
    s.unmask t v = ((s.setBit (MSIX_VCTRL t v) MSIX_VCTRL_MASK false).setPending
      (s.hif.msixPending.filter (· != 64 * t + v))).emit (s.vecMessage t v) := by
  simp [State.unmask, h, vecMessage_unmasked]

theorem unmask_idle {s : State} {t v : Nat} (h : 64 * t + v ∉ s.hif.msixPending) :
    s.unmask t v = s.setBit (MSIX_VCTRL t v) MSIX_VCTRL_MASK false := by simp [State.unmask, h]

theorem opMsixUnmask_of_lt {t v : Nat} (s : State) (h : v < vectorsOf t) : opMsixUnmask t v s = s.unmask t v :=
  if_pos h

/-- Settles O9: the pending bit holds one message, and the unmasking sends it. -/
theorem msixUnmaskSendsPending : Obligations.MsixUnmaskSendsPending := by
  refine ⟨fun s t v h => ?masked, fun s t v h => ?sent, fun s t v hv h => ?pending, fun s t v hv h => ?idle⟩
  case masked =>
    obtain ⟨hout, hmask, hpend⟩ := signal_masked h
    exact ⟨hout, hpend, signal_pending hmask hpend⟩
  case sent => exact signal_unmasked h ▸ ⟨rfl, rfl⟩
  case pending =>
    refine ⟨_, congrArg (done s) ((opMsixUnmask_of_lt s hv).trans (unmask_pending h)), vecMasked_setBit s t v.toNat,
      rfl, rfl, fun a ha => ?_⟩
    exact State.rd_setBit_other s _ false (by simpa using ha)
  case idle =>
    refine gives_told (congrArg (done s) ((opMsixUnmask_of_lt s hv).trans (unmask_idle h))) (fun u hu => ⟨?_, ?_⟩)
    · rw [State.vecMasked, hu.bit]
      exact vecMasked_setBit s t v.toNat
    · exact (hu.frame (p := []) (Frame.refl.setBit _ false (by simp))).1

end Sys2Proof.Machine
end

section
/-! PROOFS. Doorbells, command fetch, ageing and the moderation timer: O8 (R68-R72, R78, R87, R90, R115). -/

namespace Sys2Proof.Machine

open Sys2Proof

/-! ## Grabs that wait for space (R611) -/

/-- Steps that each leave the state leave it together. -/
theorem State.each_fixed {α : Type} {s : State} {l : List α} {f : State → α → State} (h : ∀ x ∈ l, f s x = s) :
    s.each l f = s := by
  induction l with
  | nil => rfl
  | cons x l ih =>
    change (f s x).each l f = s
    rw [h x List.mem_cons_self]
    exact ih (fun y hy => h y (List.mem_cons_of_mem _ hy))

theorem serveGrabs_none_owed {s : State} (t r : Nat) (h : ∀ e, e ∈ s.cmp.grabs → e.2.owed = none) :
    s.serveGrabs t r = s := State.each_fixed (fun e he => by simp [h e he])

/-- The one grab there is goes on when its ring has space. -/
theorem serveGrabs_one {s : State} {t r ch : Nat} {g : Grab} {c : Capture} (hg : s.cmp.grabs = [(ch, g)])
    (hc : g.owed = some c) (ht : g.tenant = t) (hr : g.ring = r) (hfull : s.ringFull t r = false) :
    s.serveGrabs t r = s.grabEntry ch g c := by
  simp [State.serveGrabs, State.each, hg, hc, ht, hr, State.captureSpace, hfull]

/-! ## Doorbells -/

section doorbell

variable {t r i : Nat} {s : State}

theorem opDoorbell_off (h : s.tenOn t = false) : opDoorbell t r i s = s.raise 320 := by simp [opDoorbell, h]

theorem opDoorbell_bad (h : s.tenOn t = true) (hb : s.ringSizeOk t r = true ∧ s.ringSize t r ≤ i) :
    opDoorbell t r i s = (s.setBit (RING_STAT t r) RING_STAT_BADIDX true).raise 320 := by
  simp [opDoorbell, h, hb]

theorem opDoorbell_ringOff (h : s.tenOn t = true) (hb : ¬(s.ringSizeOk t r = true ∧ s.ringSize t r ≤ i))
    (hr : s.ringOn t r = false) : opDoorbell t r i s = s.raise 320 := by
  simp [opDoorbell, h, hr, show (s.ringSizeOk t r && decide (s.ringSize t r ≤ i)) = false by simpa using hb]

theorem opDoorbell_taken (h : s.tenOn t = true) (hb : ¬(s.ringSizeOk t r = true ∧ s.ringSize t r ≤ i))
    (hr : s.ringOn t r = true) :
    opDoorbell t r i s = (s.setFld (RING_HOST_IDX t r) RING_HOST_IDX_IDX i).when (decide (14 ≤ r))
      (fun s => s.serveGrabs t r) := by
  simp [opDoorbell, h, hr, show (s.ringSizeOk t r && decide (s.ringSize t r ≤ i)) = false by simpa using hb]

end doorbell

theorem State.hostIdx_setFld (s : State) (t r : Nat) {i : Nat} (h : i < 65536) :
    (s.setFld (RING_HOST_IDX t r) RING_HOST_IDX_IDX i).hostIdx t r = i := by
  rw [State.hostIdx, State.fld_setFld _ _ _ _ (by decide)]
  exact Nat.mod_eq_of_lt h

/-- Without a grab that waits on the ring an accepted doorbell takes the index and no more. -/
theorem opDoorbell_plain {t r i : Nat} {s : State} (h : s.tenOn t = true) (hr : s.ringOn t r = true)
    (hb : ¬(s.ringSizeOk t r = true ∧ s.ringSize t r ≤ i))
    (hg : r < 14 ∨ ∀ e, e ∈ s.cmp.grabs → e.2.owed = none) :
    opDoorbell t r i s = s.setFld (RING_HOST_IDX t r) RING_HOST_IDX_IDX i := by
  rw [opDoorbell_taken h hb hr]
  rcases hg with hg | hg
  · simp [State.when, Nat.not_le.2 hg]
  · simp only [State.when, serveGrabs_none_owed t r (s := s.setFld _ _ _) hg, ite_self]

/-! ## Fetch, ageing and the moderation timer -/

section rings

variable {t r : Nat} {s : State}

theorem opCommandFetch_on (es : List Entry) (h : s.tenOn t = true) (hr : s.ringOn t r = true) :
    opCommandFetch t r es s
      = s.setRing t r { s.ring t r with fetched := (s.ring t r).fetched ++ es.take (min 16 (s.toFetch t r)) } := by
  simp [opCommandFetch, h, hr]

theorem opCommandFetch_off (es : List Entry) (h : s.tenOn t = false ∨ s.ringOn t r = false) :
    opCommandFetch t r es s = s := by
  rcases h with h | h <;> simp [opCommandFetch, h]

/-- Ring `r` of tenant `t` goes behind the rings that have aged before it. -/
def State.pushAged (s : State) (t r : Nat) : State :=
  { s with hif := { s.hif with agedOrder := s.hif.agedOrder ++ [16 * t + r] } }

theorem opCommandAged_first (h : (s.ring t r).fetched ≠ []) (ha : (s.ring t r).aged = false) :
    opCommandAged t r s = (s.setRing t r { s.ring t r with aged := true }).pushAged t r := by
  simp [opCommandAged, h, ha, State.pushAged]

theorem opCommandAged_again (h : (s.ring t r).fetched = [] ∨ (s.ring t r).aged = true) : opCommandAged t r s = s := by
  rcases h with h | h <;> simp [opCommandAged, h]

theorem Frame.pushAged {l : List Nat} {p : List Part} {s0 : State} (h : Frame l p s0 s) (t r : Nat)
    (hp : .sched ∈ p) : Frame l p s0 (s.pushAged t r) :=
  h.update rfl rfl (fun q hq => by
    cases q
    case sched => exact absurd hp hq
    all_goals simp [Part.Same, State.pushAged])

theorem opRingTimer_fires (h8 : 8 ≤ r) (hi : s.bit (RING_CTRL t r) RING_CTRL_IEN = true)
    (ht : s.fld (RING_MOD t r) RING_MOD_TIME ≠ 0) (hu : (s.ring t r).unsignalled ≠ 0) :
    opRingTimer t r s
      = (s.setRing t r { s.ring t r with unsignalled := 0 }).signal t (s.fld (RING_CTRL t r) RING_CTRL_VEC) :=
  if_pos ⟨h8, hi, ht, hu⟩

theorem opRingTimer_idle (h : r < 8 ∨ s.bit (RING_CTRL t r) RING_CTRL_IEN = false
    ∨ s.fld (RING_MOD t r) RING_MOD_TIME = 0 ∨ (s.ring t r).unsignalled = 0) : opRingTimer t r s = s := by
  refine if_neg ?_
  rintro ⟨h8, hi, ht, hu⟩
  rcases h with h | h | h | h
  · omega
  · simp [h] at hi
  · exact ht h
  · exact hu h

end rings

/-- Settles O8: an accepted doorbell sets the index register, and each of the others updates its own ring. -/
theorem doorbellsAndFetch : Obligations.DoorbellsAndFetch := by
  refine ⟨fun t r i s => ⟨fun ht hr hb hg => ?taken, fun ch g c ht hr hb h14 hg hc hgt hgr hw => ?grab,
    fun ht => congrArg (done s) (opDoorbell_off ht), fun ht hb => congrArg (done s) (opDoorbell_bad ht hb),
    fun ht hb hr => congrArg (done s) (opDoorbell_ringOff ht hb hr)⟩,
    fun t s => ⟨fun r es ht hr => ?fetch, fun r es h => ?noFetch, fun r hf ha => ?aged, fun r h => ?noAged,
      fun r h8 hi ht hu => congrArg (done s) (opRingTimer_fires h8 hi ht hu), fun r h => ?noTimer⟩⟩
  case taken =>
    refine gives_told (congrArg (done s) (opDoorbell_plain ht hr hb hg)) (fun u hu =>
      ⟨?_, hu.frame (Frame.refl.setFld _ _ (by simp))⟩)
    rw [State.hostIdx, hu.fld]
    exact s.hostIdx_setFld t r i.isLt
  case grab =>
    refine congrArg (done s) ((opDoorbell_taken ht hb hr).trans ?_)
    simp only [State.when, h14, decide_true, if_true]
    exact serveGrabs_one hg hc hgt hgr hw
  case fetch =>
    refine gives_told (congrArg (done s) (opCommandFetch_on es ht hr)) (fun u hu =>
      ⟨(hu.ring _ _).trans (State.ring_setRing ..), fun k hk => ?_, hu.frame (Frame.refl.setRing _ _ _ (by simp))⟩)
    rw [hu.rings]
    exact s.find?_setRing_other _ hk
  case noFetch =>
    exact gives_nothing (congrArg (done s) (opCommandFetch_off es h))
  case aged =>
    refine gives_told (congrArg (done s) (opCommandAged_first hf ha)) (fun u hu => ?_)
    obtain ⟨m, hm⟩ := hu.hif
    refine ⟨(hu.ring _ _).trans (State.ring_setRing ..), by rw [hm]; rfl, by rw [hm]; rfl, by rw [hm]; rfl,
      fun k hk => ?_, hu.frame ((Frame.refl.setRing _ _ _ (by simp)).pushAged _ _ (by simp))⟩
    rw [hu.rings]
    exact s.find?_setRing_other _ hk
  case noAged => exact gives_nothing (congrArg (done s) (opCommandAged_again h))
  case noTimer => exact gives_nothing (congrArg (done s) (opRingTimer_idle h))

end Sys2Proof.Machine
end

section
/-! PROOFS. Ring configuration: O10 (R69, R73-R78, R80). -/

namespace Sys2Proof.Machine

open Sys2Proof

/-! ## Reading through a frame -/

theorem Frame.fld {l : List Nat} {p : List Part} {s t : State} (h : Frame l p s t) {a : Nat} (f : Field)
    (ha : a ∉ l) : t.fld a f = s.fld a f := by rw [State.fld, h.1 a ha, State.fld]

theorem Frame.mono {l l' : List Nat} {p p' : List Part} {s t : State} (h : Frame l p s t) (hl : l ⊆ l')
    (hp : p ⊆ p') : Frame l' p' s t :=
  ⟨fun a ha => h.1 a (fun e => ha (hl e)), h.2.1, fun q hq => h.2.2 q (fun e => hq (hp e))⟩

/-! ## A ring is set anew -/

theorem Tbl.put_put {α : Type} (t : Tbl α) (k : Nat) (v w : α) : Tbl.put (Tbl.put t k v) k w = Tbl.put t k w := by
  induction t with
  | nil => simp [Tbl.put]
  | cons a t ih =>
    simp only [Tbl.put]
    split
    · simp [Tbl.put]
    · split
      · simp [Tbl.put]
      · rename_i h1 h2
        simp [Tbl.put, h1, h2, ih]

theorem State.setRing_setRing (s : State) (t r : Nat) (x y : Ring) :
    (s.setRing t r x).setRing t r y = s.setRing t r y := by
  simp [State.setRing, Tbl.put_put]

/-! ## Writing an entry (R69, R90) -/

/-- The entry is sent, the index and the PHASE have advanced, and `n` entries are not yet signalled. -/
def State.entryWritten (s : State) (t r : Nat) (mk : Bool → RingEntry) (n : Nat) : State :=
  let x := s.ring t r
  let j := (s.devIdx t r + 1) % s.ringSize t r
  ((s.emit (.ringEntry t r (s.entryAddr t r (s.devIdx t r)) (mk x.phase) (mk x.phase).bytes)).setFld
    (RING_DEV_IDX t r) RING_DEV_IDX_IDX j).setRing t r
    { x with phase := if j = 0 then !x.phase else x.phase, unsignalled := n }

theorem ringWrite_told (s : State) (t r : Nat) (mk : Bool → RingEntry) :
    ∃ n, Told (s.entryWritten t r mk n) (s.ringWrite t r mk) :=
  ⟨_, (Told.refl _).when _ (fun u => Told.signal u t _)⟩

section entryWritten

variable (s : State) (t r : Nat) (mk : Bool → RingEntry) (n : Nat)

theorem entryWritten_frame : Frame [RING_DEV_IDX t r] [.rings] s (s.entryWritten t r mk n) :=
  ((Frame.refl.emit _).setFld _ _ (by simp)).setRing _ _ _ (by simp)

theorem entryWritten_devIdx :
    (s.entryWritten t r mk n).devIdx t r = (s.devIdx t r + 1) % s.ringSize t r % 65536 := by
  rw [State.devIdx, State.entryWritten, State.fld_setRing, State.fld_setFld _ _ _ _ (by decide)]
  rfl

theorem entryWritten_sent :
    .ringEntry t r (s.entryAddr t r (s.devIdx t r)) (mk (s.ring t r).phase) (mk (s.ring t r).phase).bytes
      ∈ (s.entryWritten t r mk n).out := by simp [State.entryWritten]

theorem entryWritten_find?_other {k : Nat} (hk : k ≠ 16 * t + r) :
    Tbl.find? (s.entryWritten t r mk n).hif.rings k = Tbl.find? s.hif.rings k :=
  State.find?_setRing_other _ _ hk

theorem entryWritten_ring : (s.entryWritten t r mk n).ring t r = { s.ring t r with
    phase := if (s.devIdx t r + 1) % s.ringSize t r = 0 then !(s.ring t r).phase else (s.ring t r).phase
    unsignalled := n } := State.ring_setRing ..

end entryWritten

theorem writeCompletion_on {s : State} {t cq : Nat} (c : Completion) (h : s.ringOn t (8 + cq) = true) :
    s.writeCompletion t cq c = (s.setRing t (8 + cq) { s.ring t (8 + cq) with
      reserved := (s.ring t (8 + cq)).reserved - 1 }).ringWrite t (8 + cq)
        (fun p => .completion { c with phase := p, sqHead := s.devIdx t c.sq }) := by
  simp [State.writeCompletion, h]

/-! ## Enabling and disabling a ring (R77, R78) -/

/-- Both indices of the ring stand at 0, its PHASE at 1, and it has fetched nothing. -/
def State.freshRing (s : State) (t r : Nat) : State :=
  ((s.setFld (RING_HOST_IDX t r) RING_HOST_IDX_IDX 0).setFld (RING_DEV_IDX t r) RING_DEV_IDX_IDX 0).setRing t r
    { s.ring t r with phase := true, unsignalled := 0, fetched := [], aged := false }

section freshRing

variable (s : State) (t r : Nat)

theorem ringEnable_eq : s.ringEnable t r =
    if 8 ≤ r ∧ r < 12 then (s.freshRing t r).writeDeferred t r
    else if 14 ≤ r then (s.freshRing t r).serveGrabs t r else s.freshRing t r := rfl

theorem freshRing_ring : (s.freshRing t r).ring t r =
    { s.ring t r with phase := true, unsignalled := 0, fetched := [], aged := false } := State.ring_setRing ..

theorem freshRing_frame : Frame [RING_HOST_IDX t r, RING_DEV_IDX t r] [.rings] s (s.freshRing t r) :=
  ((Frame.refl.setFld _ _ (by simp)).setFld _ _ (by simp)).setRing _ _ _ (by simp)

theorem freshRing_hostIdx : (s.freshRing t r).hostIdx t r = 0 := by
  rw [State.hostIdx, State.freshRing, State.fld_setRing,
    State.fld_setFld_other _ _ _ _ (by simp [RING_HOST_IDX, RING_DEV_IDX]), State.fld_setFld _ _ _ _ (by decide)]
  rfl

theorem freshRing_devIdx : (s.freshRing t r).devIdx t r = 0 := by
  rw [State.devIdx, State.freshRing, State.fld_setRing, State.fld_setFld _ _ _ _ (by decide)]
  rfl

theorem freshRing_find?_other {k : Nat} (hk : k ≠ 16 * t + r) :
    Tbl.find? (s.freshRing t r).hif.rings k = Tbl.find? s.hif.rings k := State.find?_setRing_other _ _ hk

variable {s t r}

/-- Where nothing waits for the ring, enabling it does no more. -/
theorem ringEnable_quiet (hd : (s.ring t r).deferred = []) (hg : ∀ e, e ∈ s.cmp.grabs → e.2.owed = none) :
    s.ringEnable t r = s.freshRing t r := by
  have empty : (s.freshRing t r).writeDeferred t r = s.freshRing t r := by
    have same : ({ (s.freshRing t r).ring t r with deferred := [] } : Ring) = (s.freshRing t r).ring t r := by
      rw [freshRing_ring]
      simp [hd]
    unfold State.writeDeferred
    simp only [same, show ((s.freshRing t r).ring t r).deferred = [] by rw [freshRing_ring, hd]]
    rw [freshRing_ring]
    exact State.setRing_setRing ..
  rw [ringEnable_eq, empty, serveGrabs_none_owed t r (s := s.freshRing t r) hg]
  simp only [ite_self]

/-- The one completion that waits for the ring is written first (R78). -/
theorem ringEnable_deferred {c : Completion} (h : 8 ≤ r ∧ r < 12) (hd : (s.ring t r).deferred = [c])
    (hon : s.ringOn t r = true) : ∃ mk n,
    mk = (fun p => RingEntry.completion { c with phase := p, sqHead := (s.freshRing t r).devIdx t c.sq })
    ∧ Told (((s.freshRing t r).setRing t r { (s.freshRing t r).ring t r with
        deferred := [], reserved := (s.ring t r).reserved - 1 }).entryWritten t r mk n) (s.ringEnable t r) := by
  let f := s.freshRing t r
  have hfon : (f.setRing t r { f.ring t r with deferred := [] }).ringOn t r = true := by
    rw [← hon]
    exact congrArg (· != 0) ((freshRing_frame s t r).fld RING_CTRL_EN (by simp [RING_CTRL, RING_HOST_IDX, RING_DEV_IDX]))
  have hr : 8 + (r - 8) = r := by omega
  obtain ⟨n, hn⟩ := ringWrite_told (f.setRing t r { f.ring t r with deferred := [], reserved := (s.ring t r).reserved - 1 })
    t r (fun p => .completion { c with phase := p, sqHead := f.devIdx t c.sq })
  refine ⟨_, n, rfl, ?_⟩
  have key : s.ringEnable t r = (f.setRing t r { f.ring t r with deferred := [], reserved := (s.ring t r).reserved - 1 }
      ).ringWrite t r (fun p => .completion { c with phase := p, sqHead := f.devIdx t c.sq }) := by
    rw [ringEnable_eq, if_pos h]
    have hdf : (f.ring t r).deferred = [c] := by rw [freshRing_ring, hd]
    change (f.setRing t r { f.ring t r with deferred := [] }).each (f.ring t r).deferred _ = _
    rw [hdf]
    change (f.setRing t r { f.ring t r with deferred := [] }).writeCompletion t (r - 8) c = _
    rw [writeCompletion_on c (by rw [hr]; exact hfon), hr, State.ring_setRing, State.setRing_setRing, freshRing_ring]
    rfl
  rw [key]
  exact hn

end freshRing

theorem ringDisable_frame {l : List Nat} {p : List Part} {s0 s : State} (h : Frame l p s0 s) (t r : Nat)
    (hr : .rings ∈ p) (hs : .sched ∈ p) : Frame l p s0 (s.ringDisable t r) :=
  (h.setRing t r { s.ring t r with fetched := [], aged := false } hr).update rfl rfl (fun q hq => by
    cases q
    case sched => exact absurd hs hq
    case rings => exact absurd hr hq
    all_goals simp [Part.Same, State.ringDisable])

/-! ## A write of RING_CTRL -/

section opRingCtrl

variable {t r : Nat} {v : Word} {s : State}

theorem opRingCtrl_refused (hv : RING_CTRL_EN.get v = 1) (hon : s.ringOn t r = false)
    (hok : s.ringSizeOk t r = false) : opRingCtrl t r v s = s.ringRefuse t r := by
  simp [opRingCtrl, hv, hon, hok]

theorem opRingCtrl_enable (hv : RING_CTRL_EN.get v = 1) (hon : s.ringOn t r = false)
    (hok : s.ringSizeOk t r = true) : opRingCtrl t r v s = (s.fieldWrite (RING_CTRL t r) v).ringEnable t r := by
  simp [opRingCtrl, hv, hon, hok]

theorem opRingCtrl_disable (hv : RING_CTRL_EN.get v = 0) (hon : s.ringOn t r = true) :
    opRingCtrl t r v s = (s.fieldWrite (RING_CTRL t r) v).ringDisable t r := by
  simp [opRingCtrl, hv, hon]

theorem opRingCtrl_keep (hv : RING_CTRL_EN.get v = if s.ringOn t r then 1 else 0) :
    opRingCtrl t r v s = s.fieldWrite (RING_CTRL t r) v := by
  cases hon : s.ringOn t r <;> simp_all [opRingCtrl]

end opRingCtrl

/-- A one-bit flag under W1C. -/
theorem OpenReg.bit_w1c {a : Nat} {fs : List (Field × Access)} (h : OpenReg a fs) (s : State) (v : Word) {f : Field}
    (hf : (f, Access.w1c) ∈ fs) (hw : f.width = 1) :
    (s.fieldWrite a v).bit a f = (s.bit a f && f.get v == 0) := by
  have hx : s.fld a f < 2 := by have := Field.get_lt f (s.rd a); rwa [hw] at this
  have hg : f.get v < 2 := by have := Field.get_lt f v; rwa [hw] at this
  rw [State.bit, State.bit, h.fld s v hf, Access.after, hw]
  generalize s.fld a f = x at hx
  generalize f.get v = g at hg
  revert x g
  decide

/-- A ring of a valid size has room after entry 0. -/
theorem State.one_mod_ringSize {s : State} {t r : Nat} (h : s.ringSizeOk t r = true) :
    (0 + 1) % s.ringSize t r % 65536 = 1 := by
  have hn : 6 ≤ s.fld (RING_BASE_LO t r) RING_BASE_LO_LOG2SIZE := (of_decide_eq_true h).1
  have hsize : 1 < s.ringSize t r := Nat.one_lt_two_pow (by omega)
  rw [Nat.mod_eq_of_lt hsize]

section ringWrites

variable (t : Tenant) (r : RingIx) (v : Word) (s : State)

theorem ringOn_fieldWrite : (s.fieldWrite (RING_CTRL t r) v).ringOn t r = (RING_CTRL_EN.get v != 0) :=
  congrArg (· != 0) ((openReg_ringCtrl t r).fld s v (k := .rw) (by decide))

/-- What the flags of RING_STAT become (R76). -/
theorem opRingStat_spec : let u := opRingStat t r v s
    (∀ f ∈ [RING_STAT_BADIDX, RING_STAT_CFGREJ, RING_STAT_DROP],
      u.bit (RING_STAT t r) f = (s.bit (RING_STAT t r) f && f.get v == 0))
    ∧ u.fld (RING_STAT t r) RING_STAT_DROPCNT =
      (if RING_STAT_DROP.get v = 1 then 0 else s.fld (RING_STAT t r) RING_STAT_DROPCNT)
    ∧ OnlyRegs [RING_STAT t r] s u := by
  have hreg := openReg_ringStat t r
  have hbit : ∀ f ∈ [RING_STAT_BADIDX, RING_STAT_CFGREJ, RING_STAT_DROP],
      (s.fieldWrite (RING_STAT t r) v).bit (RING_STAT t r) f = (s.bit (RING_STAT t r) f && f.get v == 0) := by
    intro f hf
    exact hreg.bit_w1c s v ((by decide : ∀ f ∈ [RING_STAT_BADIDX, RING_STAT_CFGREJ, RING_STAT_DROP],
      (f, Access.w1c) ∈ ringStatFields) f hf) ((by decide : ∀ f ∈ [RING_STAT_BADIDX, RING_STAT_CFGREJ,
        RING_STAT_DROP], f.width = 1) f hf)
  have hframe : Frame [RING_STAT t r] [] s (s.fieldWrite (RING_STAT t r) v) := hreg.frame s v Frame.refl (by simp)
  have hlt : RING_STAT_DROP.get v < 2 := Field.get_lt RING_STAT_DROP v
  unfold opRingStat
  by_cases hd : RING_STAT_DROP.get v = 0
  · simp only [hd, if_true]
    exact ⟨hbit, hreg.fld s v (k := .ro) (by decide), hframe⟩
  · have h1 : RING_STAT_DROP.get v = 1 := by omega
    simp only [h1, if_false, if_true, Nat.one_ne_zero]
    refine ⟨fun f hf => ?_, State.fld_setFld _ _ RING_STAT_DROPCNT _ (by decide), hframe.setFld _ _ (by simp)⟩
    rw [← hbit f hf, State.bit, State.fld_setFld_apart _ _ _ _ _ (by decide)]
    · rfl
    · exact .inr ((by decide : ∀ f ∈ [RING_STAT_BADIDX, RING_STAT_CFGREJ, RING_STAT_DROP],
        f.lo + f.width ≤ RING_STAT_DROPCNT.lo) f hf)

end ringWrites

/-- Settles O10: the fields go by their access types, and EN's two changes are the enabling and the disabling of R77 and
R78. -/
theorem ringConfiguration : Obligations.RingConfiguration := by
  intro t r v s
  have hctrl := openReg_ringCtrl t r
  let w := s.fieldWrite (RING_CTRL t r) v
  have hwrite : Frame [RING_CTRL t r] [] s w := hctrl.frame s v Frame.refl (by simp)
  have hon1 : RING_CTRL_EN.get v = 1 → w.ringOn t r = true := fun hv => (ringOn_fieldWrite t r v s).trans (by simp [hv])
  have hapart : RING_CTRL t r ∉ [RING_HOST_IDX t r, RING_DEV_IDX t r] := by
    simp [RING_CTRL, RING_HOST_IDX, RING_DEV_IDX]
  refine ⟨fun hv hon hok => congrArg (done s) (opRingCtrl_refused hv hon hok), fun hi hon => ?baseRefused,
    fun hi hon => ?base, fun hv => ?keep, fun hv hon hok hd hg => ?enable, fun c hv hon hok hr hd hc => ?deferred,
    fun hv hon => ?disable, ?stat⟩
  case baseRefused => exact congrArg (done s) (if_pos hon)
  case base =>
    refine gives_told (congrArg (done s) (if_neg (by simp [hon]))) (fun u hu => ?_)
    cases hi with
    | true =>
      have h := openReg_ringBaseHi t r
      exact ⟨fun _ => (hu.fld _ _).trans (h.fld s v (k := .rw) (by decide)), by simp,
        hu.frame (h.frame s v Frame.refl (by simp))⟩
    | false =>
      have h := openReg_ringBaseLo t r
      exact ⟨by simp, fun _ => ⟨(hu.fld _ _).trans (h.fld s v (k := .rw) (by decide)),
        (hu.fld _ _).trans (h.fld s v (k := .rw) (by decide))⟩, hu.frame (h.frame s v Frame.refl (by simp))⟩
  case keep =>
    refine gives_told (congrArg (done s) (opRingCtrl_keep hv)) (fun u hu => ⟨hu.rd _, ?_, ?_, hu.frame hwrite⟩)
    · exact (hu.fld _ _).trans (hctrl.fld s v (k := .rw) (by decide))
    · exact (hu.bit _ _).trans (congrArg (· != 0) (hctrl.fld s v (k := .rw) (by decide)))
  case enable =>
    have hfresh := freshRing_frame w t r
    refine gives_told (congrArg (done s) ((opRingCtrl_enable hv hon hok).trans
      (ringEnable_quiet (by rw [hctrl.ring]; exact hd) (by rw [hctrl.cmp]; exact hg)))) (fun u hu =>
      ⟨(hu.rd _).trans (hfresh.1 _ hapart), ?_, (hu.fld _ _).trans (freshRing_hostIdx w t r),
        (hu.fld _ _).trans (freshRing_devIdx w t r), ?_, fun k hk => ?_,
        hu.frame ((hwrite.mono (by simp) (by simp)).trans (hfresh.mono (by simp) (by simp)))⟩)
    · exact (hu.bit _ _).trans ((congrArg (· != 0) (hfresh.fld RING_CTRL_EN hapart)).trans
        (by rw [← hon1 hv]; rfl))
    · rw [hu.ring, freshRing_ring, hctrl.ring]
    · rw [hu.rings, freshRing_find?_other w t r hk, hctrl.hif]
  case deferred =>
    have hfresh := freshRing_frame w t r
    obtain ⟨mk, n, hmk, hg⟩ := ringEnable_deferred hr (by rw [hctrl.ring]; exact hd) (hon1 hv)
    let f := (w.freshRing t r).setRing t r { (w.freshRing t r).ring t r with
      deferred := [], reserved := (w.ring t r).reserved - 1 }
    have hall : Frame [RING_CTRL t r, RING_HOST_IDX t r, RING_DEV_IDX t r] [.rings] s f :=
      (((hwrite.mono (by simp) (by simp)).trans (hfresh.mono (by simp) (by simp)))).setRing _ _ _ (by simp)
    have hwritten := entryWritten_frame f t r mk n
    have hdev0 : f.devIdx t r = 0 := freshRing_devIdx w t r
    refine gives_told (congrArg (done s) (opRingCtrl_enable hv hon hok)) (fun u hu' => ?_)
    have hu := hg.trans hu'
    have hring : f.ring t r = { (w.freshRing t r).ring t r with
        deferred := [], reserved := (w.ring t r).reserved - 1 } := State.ring_setRing ..
    refine ⟨(hu.rd _).trans ((hwritten.1 _ ?_).trans (hfresh.1 _ hapart)), ?_, ?_, hu.sent _ ?_, ?_, ?_,
      fun k hk => ?_, hu.frame (hall.trans (hwritten.mono (by simp) (by simp)))⟩
    · simp [RING_CTRL, RING_DEV_IDX]
    · rw [State.hostIdx, hu.fld, hwritten.fld _ (by simp [RING_HOST_IDX, RING_DEV_IDX])]
      exact freshRing_hostIdx w t r
    · rw [State.devIdx, hu.fld]
      have hsize : f.ringSize t r = s.ringSize t r := congrArg (2 ^ ·) (hall.fld _ (by
        simp [RING_BASE_LO, RING_CTRL, RING_HOST_IDX, RING_DEV_IDX]))
      exact (entryWritten_devIdx f t r mk n).trans (by rw [hdev0, hsize, State.one_mod_ringSize hok])
    · have hsent := entryWritten_sent f t r mk n
      have hphase : (f.ring t r).phase = true := by rw [hring, freshRing_ring]
      have haddr : f.entryAddr t r 0 = s.entryAddr t r 0 := by
        simp only [State.entryAddr]
        rw [hall.fld, hall.fld] <;> simp [RING_BASE_LO, RING_BASE_HI, RING_CTRL, RING_HOST_IDX, RING_DEV_IDX]
      have hsq : (w.freshRing t r).devIdx t c.sq = s.devIdx t c.sq := hall.fld _ (by
        simp [RING_CTRL, RING_HOST_IDX, RING_DEV_IDX]
        omega)
      have hentry : mk true = .completion { c with phase := true, sqHead := s.devIdx t c.sq } := by rw [hmk, ← hsq]
      rw [hdev0, hphase, haddr, hentry] at hsent
      exact hsent
    · rw [hu.ring, entryWritten_ring, hring]
    · rw [hu.ring, entryWritten_ring, hring, hctrl.ring]
    · rw [hu.rings, entryWritten_find?_other f t r mk n hk, State.find?_setRing_other _ _ hk,
        freshRing_find?_other w t r hk, hctrl.hif]
  case disable =>
    refine gives_told (congrArg (done s) (opRingCtrl_disable hv hon)) (fun u hu => ?_)
    obtain ⟨m, hm⟩ := hu.hif
    refine ⟨hu.rd _, ?_, ?_, fun k hk => ?_, ?_, hu.frame (ringDisable_frame (hwrite.mono (by simp) (by simp)) t r
      (by simp) (by simp))⟩
    · exact (hu.bit _ _).trans ((ringOn_fieldWrite t r v s).trans (by simp [hv]))
    · rw [hu.ring, ← hctrl.ring s v]
      exact State.ring_setRing ..
    · rw [hu.rings, ← hctrl.hif s v]
      exact State.find?_setRing_other _ _ hk
    · rw [hm, ← hctrl.hif s v]
      exact ⟨rfl, rfl, rfl, rfl⟩
  case stat =>
    refine gives_told rfl (fun u hu => ?_)
    obtain ⟨hbit, hcnt, hframe⟩ := opRingStat_spec t r v s
    exact ⟨(hu.bit _ _).trans (hbit _ (by simp)), (hu.bit _ _).trans (hbit _ (by simp)),
      (hu.bit _ _).trans (hbit _ (by simp)), (hu.fld _ _).trans hcnt, hu.frame hframe⟩

end Sys2Proof.Machine
end

section
/-! PROOFS. The resets of functions: O11 (R59, R65, R109, R111). -/

namespace Sys2Proof.Machine

open Sys2Proof

/-! ## A step for each number below a bound -/

/-- Step `k` makes `Q k` of a state that it finds with `P k`, and the other steps keep both. -/
theorem State.each_range {f : State → Nat → State} {I : State → Prop} {P Q : Nat → State → Prop}
    (hI : ∀ u k, I u → I (f u k)) (hstep : ∀ u k, I u → P k u → Q k (f u k))
    (hP : ∀ u j k, j ≠ k → I u → P k u → P k (f u j)) (hQ : ∀ u j k, j ≠ k → I u → Q k u → Q k (f u j))
    {s : State} (h0 : I s) (hP0 : ∀ k, P k s) (m : Nat) :
    I (s.each (List.range m) f) ∧ (∀ k, k < m → Q k (s.each (List.range m) f))
      ∧ ∀ k, m ≤ k → P k (s.each (List.range m) f) := by
  induction m with
  | zero => exact ⟨h0, fun k hk => absurd hk (Nat.not_lt_zero k), fun k _ => hP0 k⟩
  | succ m ih =>
    obtain ⟨hi, hq, hp⟩ := ih
    have hs : s.each (List.range (m + 1)) f = f (s.each (List.range m) f) m := by
      simp [State.each, List.range_succ]
    rw [hs]
    refine ⟨hI _ _ hi, fun k hk => ?_, fun k hk => hP _ _ _ (by omega) hi (hp k (by omega))⟩
    rcases Nat.lt_succ_iff_lt_or_eq.1 hk with h | rfl
    · exact hQ _ _ _ (by omega) hi (hq k h)
    · exact hstep _ _ hi (hp k (Nat.le_refl k))

/-! ## The captures of a tenant end (R103) -/

/-- CAUSE of the channels of these captures is ABORTED. -/
def State.endGrabs (s : State) (l : List (Nat × Grab)) : State :=
  s.each l (fun s e => s.setFld (HIF_DMA_STAT e.1) HIF_DMA_STAT_CAUSE 5)

theorem endGrabs_regs (s : State) (l : List (Nat × Grab)) : ∃ g, s.endGrabs l = { s with regs := g } := by
  induction l generalizing s with
  | nil => exact ⟨s.regs, rfl⟩
  | cons e l ih => exact ih (s.setFld (HIF_DMA_STAT e.1) HIF_DMA_STAT_CAUSE 5)

theorem endGrabs_rd_other (s : State) (l : List (Nat × Grab)) {a : Nat} (h : ∀ e ∈ l, a ≠ HIF_DMA_STAT e.1) :
    (s.endGrabs l).rd a = s.rd a := by
  induction l generalizing s with
  | nil => rfl
  | cons e l ih =>
    exact (ih _ (fun x hx => h x (List.mem_cons_of_mem _ hx))).trans (State.rd_setFld_other s _ _ (h e List.mem_cons_self))

theorem endGrabs_cause_kept (s : State) (l : List (Nat × Grab)) {n : Nat}
    (h : s.fld (HIF_DMA_STAT n) HIF_DMA_STAT_CAUSE = 5) :
    (s.endGrabs l).fld (HIF_DMA_STAT n) HIF_DMA_STAT_CAUSE = 5 := by
  induction l generalizing s with
  | nil => exact h
  | cons e l ih =>
    refine ih _ ?_
    by_cases he : HIF_DMA_STAT n = HIF_DMA_STAT e.1
    · rw [he, State.fld_setFld _ _ _ _ (by decide)]
      rfl
    · rw [State.fld_setFld_other _ _ _ _ he, h]

theorem endGrabs_cause (s : State) (l : List (Nat × Grab)) {e : Nat × Grab} (he : e ∈ l) :
    (s.endGrabs l).fld (HIF_DMA_STAT e.1) HIF_DMA_STAT_CAUSE = 5 := by
  induction l generalizing s with
  | nil => simp at he
  | cons x l ih =>
    rcases List.mem_cons.1 he with rfl | he
    · exact endGrabs_cause_kept _ l (State.fld_setFld _ _ HIF_DMA_STAT_CAUSE 5 (by decide))
    · exact ih _ he

/-! ## The reset of one function (R109) -/

theorem inPage_iff {t a : Nat} : inPage t a = true ↔ 0x100000000 + 0x10000 * t ≤ a ∧ a < 0x100000000 + 0x10000 * (t + 1) :=
  decide_eq_true_iff

theorem inPage_other {t t' a : Nat} (h : inPage t a = true) (ht : t' ≠ t) : inPage t' a = false := by
  rw [inPage_iff] at h
  rw [← Bool.not_eq_true, inPage_iff]
  omega

theorem inPage_flr (t : Nat) : inPage t (TPG_FLR t) = true := inPage_iff.2 (by unfold TPG_FLR; omega)

/-- The registers of a DMA channel stand in no page. -/
theorem ne_dmaStat_of_inPage {t a n : Nat} (h : inPage t a = true) (hn : n < 64) : a ≠ HIF_DMA_STAT n := by
  rw [inPage_iff] at h
  unfold HIF_DMA_STAT
  omega

section functionReset

variable (s : State) (t : Nat)

/-- The registers after the reset of function `t`, before the rings and commands are dropped. -/
def State.pageReset : State :=
  ((s.resetRegs (fun a => inPage t a && a != TPG_FLR t)).inc (TPG_FLR t) TPG_FLR_FLRCNT).endGrabs
    (s.cmp.grabs.filter (fun e => e.2.tenant == t))

theorem pageReset_regs : ∃ g, s.pageReset t = { s with regs := g } := endGrabs_regs _ _

theorem functionReset_eq : s.functionReset t = { s.pageReset t with
    hif := { (s.pageReset t).hif with
      rings := (s.pageReset t).hif.rings.filter (fun e => e.1 / 16 != t)
      agedOrder := (s.pageReset t).hif.agedOrder.filter (fun k => k / 16 != t)
      shortWait := (s.pageReset t).hif.shortWait.filter (fun k => k / 16 != t)
      fences := (s.pageReset t).hif.fences.filter (fun k => k / 16 != t)
      msixPending := (s.pageReset t).hif.msixPending.filter (fun k => k / 64 != t)
      inflight := ((s.pageReset t).hif.inflight.filter
        (fun c => !(c.tenant == t && (s.cmp.grabs.map (fun e => e.2.cmd)).contains c.id))).map
        (fun c => if c.tenant = t then { c with discard := true } else c) }
    cmp := { (s.pageReset t).cmp with grabs := (s.pageReset t).cmp.grabs.filter (fun e => e.2.tenant != t) } } := rfl

theorem functionReset_rd (a : Nat) : (s.functionReset t).rd a = (s.pageReset t).rd a := rfl

theorem functionReset_cmp : (s.functionReset t).cmp
    = { s.cmp with grabs := s.cmp.grabs.filter (fun e => e.2.tenant != t) } := by
  obtain ⟨g, hg⟩ := pageReset_regs s t
  rw [functionReset_eq, hg]

theorem functionReset_numVfs : (s.functionReset t).hif.numVfs = s.hif.numVfs := by
  obtain ⟨g, hg⟩ := pageReset_regs s t
  rw [functionReset_eq, hg]

theorem functionReset_ring (t' : Nat) {r : Nat} (hr : r < 16) :
    (s.functionReset t).ring t' r = if t' = t then Ring.idle else s.ring t' r := by
  obtain ⟨g, hg⟩ := pageReset_regs s t
  rw [functionReset_eq, hg]
  have hk : (16 * t' + r) / 16 = t' := by omega
  simp only [State.ring, Tbl.getD, Tbl.find?_filter s.hif.rings (fun k => k / 16 != t), hk]
  by_cases h : t' = t <;> simp [h]

/-- Commands that are still in flight are marked where they are the tenant's, and as before where they are not. -/
theorem functionReset_inflight {c : Cmd} (hc : c ∈ (s.functionReset t).hif.inflight) :
    ∃ d ∈ s.hif.inflight, c.tenant = d.tenant ∧ (d.tenant = t → c.discard = true)
      ∧ (d.discard = true → c.discard = true) := by
  obtain ⟨g, hg⟩ := pageReset_regs s t
  rw [functionReset_eq, hg] at hc
  obtain ⟨d, hd, rfl⟩ := List.mem_map.1 hc
  refine ⟨d, (List.mem_filter.1 hd).1, ?_⟩
  by_cases h : d.tenant = t <;> simp [h]

theorem functionReset_parts : SameParts [.rings, .sched, .inflight, .cmp] s (s.functionReset t) := by
  obtain ⟨g, hg⟩ := pageReset_regs s t
  rw [functionReset_eq, hg]
  intro q hq
  cases q
  case rings | sched | inflight | cmp => exact absurd (by decide) hq
  all_goals simp [Part.Same]

variable {s t}

theorem functionReset_page (hg : ∀ e ∈ s.cmp.grabs, e.1 < 48) {a : Nat} (ha : inPage t a = true)
    (hf : a ≠ TPG_FLR t) : (s.functionReset t).rd a = resetAt a := by
  rw [functionReset_rd, State.pageReset, endGrabs_rd_other, State.rd_inc_other _ _ hf, State.rd_resetRegs]
  · simp [ha, hf]
  · exact fun e he => ne_dmaStat_of_inPage ha (by have := hg e (List.mem_filter.1 he).1; omega)

theorem functionReset_flrcnt (hg : ∀ e ∈ s.cmp.grabs, e.1 < 48) :
    (s.functionReset t).fld (TPG_FLR t) TPG_FLR_FLRCNT = min (s.fld (TPG_FLR t) TPG_FLR_FLRCNT + 1) 65535 := by
  have hother : (s.functionReset t).rd (TPG_FLR t)
      = ((s.resetRegs (fun a => inPage t a && a != TPG_FLR t)).inc (TPG_FLR t) TPG_FLR_FLRCNT).rd (TPG_FLR t) :=
    endGrabs_rd_other _ _ (fun e he => ne_dmaStat_of_inPage (inPage_flr t)
      (by have := hg e (List.mem_filter.1 he).1; omega))
  rw [State.fld, hother]
  refine (State.fld_incBy _ _ TPG_FLR_FLRCNT 1 (by decide)).trans ?_
  rw [State.fld, State.rd_resetRegs, State.fld]
  simp [TPG_FLR_FLRCNT]

theorem functionReset_other {a : Nat} (ha : inPage t a = false)
    (hg : ∀ e ∈ s.cmp.grabs, e.2.tenant = t → a ≠ HIF_DMA_STAT e.1) : (s.functionReset t).rd a = s.rd a := by
  rw [functionReset_rd, State.pageReset, endGrabs_rd_other, State.rd_inc_other, State.rd_resetRegs]
  · simp [ha]
  · rintro rfl
    simp [inPage_flr] at ha
  · intro e he
    obtain ⟨hmem, ht⟩ := List.mem_filter.1 he
    exact hg e hmem (by simpa using ht)

theorem functionReset_cause {e : Nat × Grab} (he : e ∈ s.cmp.grabs) (ht : e.2.tenant = t) :
    (s.functionReset t).fld (HIF_DMA_STAT e.1) HIF_DMA_STAT_CAUSE = 5 :=
  endGrabs_cause _ _ (List.mem_filter.2 ⟨he, by simp [ht]⟩)

/-- The page of another tenant stands. -/
theorem functionReset_otherPage (hg : ∀ e ∈ s.cmp.grabs, e.1 < 48) {t' a : Nat} (ha : inPage t' a = true)
    (ht : t ≠ t') : (s.functionReset t).rd a = s.rd a :=
  functionReset_other (inPage_other ha ht) (fun e he _ => ne_dmaStat_of_inPage ha (by have := hg e he; omega))

end functionReset

/-! ## The reset of every function (R109) -/

/-- Function `t` has been reset, its FLRCNT once on from `n`. -/
structure FunctionDown (n t : Nat) (u : State) : Prop where
  page : ∀ a, inPage t a = true → a ≠ TPG_FLR t → u.rd a = resetAt a
  count : u.fld (TPG_FLR t) TPG_FLR_FLRCNT = min (n + 1) 65535
  rings : ∀ r, r < 16 → u.ring t r = Ring.idle
  inflight : ∀ c ∈ u.hif.inflight, c.tenant = t → c.discard = true
  grabs : ∀ e ∈ u.cmp.grabs, e.2.tenant ≠ t

theorem functionReset_down {u : State} {t n : Nat} (hg : ∀ e ∈ u.cmp.grabs, e.1 < 48)
    (hn : u.fld (TPG_FLR t) TPG_FLR_FLRCNT = n) : FunctionDown n t (u.functionReset t) where
  page _ ha hf := functionReset_page hg ha hf
  count := by rw [functionReset_flrcnt hg, hn]
  rings r hr := by simp [functionReset_ring u t t hr]
  inflight c hc ht := by
    obtain ⟨d, -, hd, h, -⟩ := functionReset_inflight u t hc
    exact h (hd ▸ ht)
  grabs e he := by
    rw [functionReset_cmp] at he
    simpa using (List.mem_filter.1 he).2

theorem FunctionDown.other {u : State} {t t' n : Nat} (hg : ∀ e ∈ u.cmp.grabs, e.1 < 48) (ht : t' ≠ t)
    (h : FunctionDown n t u) : FunctionDown n t (u.functionReset t') where
  page a ha hf := (functionReset_otherPage hg ha ht).trans (h.page a ha hf)
  count := by rw [State.fld, functionReset_otherPage hg (inPage_flr t) ht]; exact h.count
  rings r hr := by rw [functionReset_ring u t' t hr, if_neg (Ne.symm ht), h.rings r hr]
  inflight c hc hct := by
    obtain ⟨d, hmem, hd, -, hkeep⟩ := functionReset_inflight u t' hc
    exact hkeep (h.inflight d hmem (hd ▸ hct))
  grabs e he := by
    rw [functionReset_cmp] at he
    exact h.grabs e (List.mem_filter.1 he).1

theorem functionResets_down {s : State} (hg : ∀ e ∈ s.cmp.grabs, e.1 < 48) {t : Nat} (ht : t < 1024) :
    FunctionDown (s.fld (TPG_FLR t) TPG_FLR_FLRCNT) t (s.each (List.range 1024) State.functionReset) := by
  refine (State.each_range (I := fun u => ∀ e ∈ u.cmp.grabs, e.1 < 48)
    (P := fun t u => u.fld (TPG_FLR t) TPG_FLR_FLRCNT = s.fld (TPG_FLR t) TPG_FLR_FLRCNT)
    (Q := fun t => FunctionDown (s.fld (TPG_FLR t) TPG_FLR_FLRCNT) t) ?_ ?_ ?_ ?_ hg (fun _ => rfl) 1024).2.1 t ht
  · intro u k hu e he
    rw [functionReset_cmp] at he
    exact hu e (List.mem_filter.1 he).1
  · exact fun u k hu hn => functionReset_down hu hn
  · intro u j k hjk hu hn
    rw [State.fld, functionReset_otherPage hu (inPage_flr k) hjk]
    exact hn
  · exact fun u j k hjk hu hd => hd.other hu hjk

theorem SameParts.each {α : Type} {p : List Part} {f : State → α → State} (hf : ∀ u x, SameParts p u (f u x))
    (s : State) (l : List α) : SameParts p s (s.each l f) := by
  induction l generalizing s with
  | nil => exact SameParts.refl p s
  | cons x l ih => exact (hf s x).trans (ih (f s x))

theorem SameParts.mono {p p' : List Part} {s t : State} (h : SameParts p s t) (hp : p ⊆ p') : SameParts p' s t :=
  fun q hq => h q (fun e => hq (hp e))

/-! ## The host channels go down (R109) -/

/-- The registers of channel `n`. -/
def inChannel (n a : Nat) : Bool := decide (HIF_DMA_CTRL n ≤ a ∧ a < HIF_DMA_CTRL n + 0x40)

theorem inChannel_iff {n a : Nat} : inChannel n a = true ↔ 0x101000 + 0x40 * n ≤ a ∧ a < 0x101000 + 0x40 * n + 0x40 :=
  decide_eq_true_iff

theorem inChannel_stat (n : Nat) : inChannel n (HIF_DMA_STAT n) = true :=
  inChannel_iff.2 (by unfold HIF_DMA_STAT; omega)

section channelDown

variable (s : State) {n : Nat}

theorem channelDown_hif : (s.channelDown n).hif = s.hif := rfl
theorem channelDown_cmp : (s.channelDown n).cmp = s.cmp := rfl

theorem channelDown_parts : SameParts [.blk] s (s.channelDown n) := by
  intro q hq
  cases q
  case blk => exact absurd (by decide) hq
  all_goals simp [Part.Same, State.channelDown, State.dropReqs]

/-- STAT of a channel that goes down. -/
def State.statDown (s : State) (n : Nat) : State :=
  ((s.dropReqs n).setFld (HIF_DMA_STAT n) HIF_DMA_STAT_STATE 0).setFld (HIF_DMA_STAT n) HIF_DMA_STAT_CAUSE 6

theorem channelDown_rd (a : Nat) : (s.channelDown n).rd a =
    if inChannel n a && a != HIF_DMA_STAT n then resetAt a else (s.statDown n).rd a :=
  State.rd_resetRegs (s.statDown n) (fun a => inChannel n a && a != HIF_DMA_STAT n) a

theorem channelDown_other {a : Nat} (ha : inChannel n a = false) : (s.channelDown n).rd a = s.rd a := by
  have hst : a ≠ HIF_DMA_STAT n := by
    rintro rfl
    simp [inChannel_stat] at ha
  rw [channelDown_rd, ha, State.statDown, State.rd_setFld_other _ _ _ hst, State.rd_setFld_other _ _ _ hst]
  rfl

end channelDown

/-- Host channel `n` is idle with CAUSE PCIE_DOWN, its other registers at their reset values. -/
structure ChannelDown (n : Nat) (u : State) : Prop where
  state : u.chanState n = 0
  cause : u.fld (HIF_DMA_STAT n) HIF_DMA_STAT_CAUSE = 6
  regs : ∀ a, inChannel n a = true → a ≠ HIF_DMA_STAT n → u.rd a = resetAt a

theorem channelDown_down (s : State) (n : Nat) : ChannelDown n (s.channelDown n) where
  state := by
    rw [State.chanState, State.fld, channelDown_rd, if_neg (by simp), ← State.fld, State.statDown,
      State.fld_setFld_apart _ _ _ _ _ (by decide) (.inr (by decide)), State.fld_setFld _ _ _ _ (by decide)]
    rfl
  cause := by
    rw [State.fld, channelDown_rd, if_neg (by simp), ← State.fld, State.statDown, State.fld_setFld _ _ _ _ (by decide)]
    rfl
  regs a ha hs := by simp [channelDown_rd, ha, hs]

/-- What leaves the registers of the channel leaves it down. -/
theorem ChannelDown.of_rd {n : Nat} {u w : State} (h : ChannelDown n u)
    (hw : ∀ a, inChannel n a = true → w.rd a = u.rd a) : ChannelDown n w := by
  have hst := hw _ (inChannel_stat n)
  exact ⟨by rw [State.chanState, State.fld, hst]; exact h.state, by rw [State.fld, hst]; exact h.cause,
    fun a ha hs => (hw a ha).trans (h.regs a ha hs)⟩

theorem inChannel_other {n m a : Nat} (h : inChannel n a = true) (hm : m ≠ n) : inChannel m a = false := by
  rw [inChannel_iff] at h
  rw [← Bool.not_eq_true, inChannel_iff]
  omega

theorem inChannel_of_inPage {n t a : Nat} (h : inPage t a = true) (hn : n < 64) : inChannel n a = false := by
  rw [inPage_iff] at h
  rw [← Bool.not_eq_true, inChannel_iff]
  omega

/-! ## The reset of the physical function -/

/-- Every function has been reset. -/
@[irreducible] def State.functionsDown (s : State) : State := s.each (List.range 1024) State.functionReset

/-- Every host channel is down. -/
def State.channelsDown (s : State) : State := s.each (List.range 16) (fun s k => s.channelDown (48 + k))

/-- A register of a command channel other than its STAT. -/
def isCommandReg (a : Nat) : Bool := decide (HIF_DMA_CTRL 0 ≤ a ∧ a < HIF_DMA_CTRL 48) && a % 0x40 != 4

/-- The command channels at their reset values, no virtual function, no host channel in use. -/
def State.channelsClear (s : State) : State :=
  let s := s.resetRegs isCommandReg
  { s with hif := { s.hif with numVfs := 0, chans := s.hif.chans.filter (fun e => decide (e.1 < 48)) } }

theorem pfReset_eq (s : State) : s.pfReset = s.functionsDown.channelsDown.channelsClear := by
  unfold State.pfReset State.functionsDown State.channelsDown
  generalize List.range 1024 = l
  rfl

section pfReset

variable (s : State)

theorem functionsDown_down (hg : ∀ e ∈ s.cmp.grabs, e.1 < 48) {t : Nat} (ht : t < 1024) :
    FunctionDown (s.fld (TPG_FLR t) TPG_FLR_FLRCNT) t s.functionsDown := by
  unfold State.functionsDown
  exact functionResets_down hg ht

theorem functionsDown_parts : SameParts [.rings, .sched, .inflight, .cmp] s s.functionsDown := by
  unfold State.functionsDown
  exact SameParts.each functionReset_parts s (List.range 1024)

theorem channelsDown_down {k : Nat} (hk : k < 16) : ChannelDown (48 + k) s.channelsDown :=
  (State.each_range (I := fun _ => True) (P := fun _ _ => True) (Q := fun k => ChannelDown (48 + k))
    (fun _ _ _ => trivial) (fun u k _ _ => channelDown_down u (48 + k)) (fun _ _ _ _ _ _ => trivial)
    (fun u _ _ hjk _ h => h.of_rd (fun _ ha => channelDown_other u (inChannel_other ha (by omega))))
    trivial (fun _ => trivial) 16).2.1 k hk

theorem channelsDown_parts : SameParts [.blk] s s.channelsDown :=
  SameParts.each (fun u k => channelDown_parts u (n := 48 + k)) s (List.range 16)

/-- An address outside the channels stands. -/
theorem channelsDown_page {t a : Nat} (ha : inPage t a = true) : s.channelsDown.rd a = s.rd a := by
  have all : ∀ l : List Nat, (∀ k ∈ l, k < 16) → ∀ u : State,
      (u.each l (fun s k => s.channelDown (48 + k))).rd a = u.rd a := by
    intro l
    induction l with
    | nil => exact fun _ _ => rfl
    | cons k l ih =>
      intro hl u
      have hk := hl k List.mem_cons_self
      exact (ih (fun j hj => hl j (List.mem_cons_of_mem _ hj)) _).trans
        (channelDown_other u (inChannel_of_inPage ha (by omega)))
  exact all (List.range 16) (fun _ => List.mem_range.1) s

theorem channelsDown_hif : s.channelsDown.hif = s.hif := by
  have all : ∀ (l : List Nat) (u : State), (u.each l (fun s k => s.channelDown (48 + k))).hif = u.hif := by
    intro l
    induction l with
    | nil => exact fun _ => rfl
    | cons k l ih => exact fun u => ih (u.channelDown (48 + k))
  exact all (List.range 16) s

theorem channelsClear_rd {a : Nat} (ha : isCommandReg a = false) : s.channelsClear.rd a = s.rd a :=
  (State.rd_resetRegs s isCommandReg a).trans (by simp [ha])

theorem channelsClear_hif : s.channelsClear.hif =
    { s.hif with numVfs := 0, chans := s.hif.chans.filter (fun e => decide (e.1 < 48)) } := rfl

theorem channelsClear_cmp : s.channelsClear.cmp = s.cmp := rfl

theorem channelsClear_parts : SameParts [.sched, .chans] s s.channelsClear := by
  intro q hq
  cases q
  case sched | chans => exact absurd (by decide) hq
  all_goals simp [Part.Same, State.channelsClear]

theorem channelsDown_cmp : s.channelsDown.cmp = s.cmp := channelsDown_parts s .cmp (by decide)

theorem isCommandReg_page {t a : Nat} (ha : inPage t a = true) : isCommandReg a = false := by
  rw [inPage_iff] at ha
  have : ¬a < HIF_DMA_CTRL 48 := by unfold HIF_DMA_CTRL; omega
  simp [isCommandReg, this]

theorem isCommandReg_host {n a : Nat} (hn : 48 ≤ n) (ha : inChannel n a = true) : isCommandReg a = false := by
  rw [inChannel_iff] at ha
  have : ¬a < HIF_DMA_CTRL 48 := by unfold HIF_DMA_CTRL; omega
  simp [isCommandReg, this]

theorem pfReset_parts : SameParts [.rings, .sched, .chans, .inflight, .cmp, .blk] s s.pfReset := by
  rw [pfReset_eq]
  exact ((functionsDown_parts s).mono (by simp)).trans (((channelsDown_parts _).mono (by simp)).trans
    ((channelsClear_parts _).mono (by simp)))

theorem keep_mem (m : List Host.Cell) : Keep (fun u => u.mem = m) := ⟨fun h => h, fun h => h, fun h => h, fun h => h⟩

theorem pfReset_mem : s.pfReset.mem = s.mem := (keep_mem s.mem).pfReset rfl

theorem functionReset_mem (t : Nat) : (s.functionReset t).mem = s.mem := (keep_mem s.mem).functionReset rfl

theorem pfReset_page {t a : Nat} (ha : inPage t a = true) : s.pfReset.rd a = s.functionsDown.rd a := by
  rw [pfReset_eq, channelsClear_rd _ (isCommandReg_page ha), channelsDown_page _ ha]

theorem pfReset_hif : s.pfReset.hif = { s.functionsDown.hif with
    numVfs := 0, chans := s.functionsDown.hif.chans.filter (fun e => decide (e.1 < 48)) } := by
  rw [pfReset_eq, channelsClear_hif, channelsDown_hif]

theorem pfReset_cmp : s.pfReset.cmp = s.functionsDown.cmp := by
  rw [pfReset_eq, channelsClear_cmp, channelsDown_cmp]

theorem pfReset_functions (hg : ∀ e ∈ s.cmp.grabs, e.1 < 48) {t : Nat} (ht : t < 1024) :
    FunctionDown (s.fld (TPG_FLR t) TPG_FLR_FLRCNT) t s.pfReset := by
  have h := functionsDown_down s hg ht
  refine ⟨fun a ha hf => (pfReset_page s ha).trans (h.page a ha hf), ?_, fun r hr => ?_, ?_, ?_⟩
  · rw [State.fld, pfReset_page s (inPage_flr t)]
    exact h.count
  · rw [← h.rings r hr, State.ring, pfReset_hif]
    rfl
  · rw [pfReset_hif]
    exact h.inflight
  · rw [pfReset_cmp]
    exact h.grabs

theorem pfReset_channels {k : Nat} (hk : k < 16) : ChannelDown (48 + k) s.pfReset := by
  rw [pfReset_eq]
  exact (channelsDown_down s.functionsDown hk).of_rd
    (fun a ha => channelsClear_rd _ (isCommandReg_host (by omega) ha))

theorem pfReset_chan {n : Nat} (hn : 48 ≤ n) : s.pfReset.chan n = Chan.idle := by
  rw [State.chan, pfReset_hif, Tbl.getD, Tbl.find?_filter _ (fun k => decide (k < 48)), if_neg (by simp [hn])]
  rfl

end pfReset

theorem opPfFlr_up {k : PfReset} {s : State} (h : k ≠ .linkDown) : opPfFlr k s = s.pfReset := if_neg h

theorem opPfFlr_linkDown (s : State) : opPfFlr .linkDown s = s.pfReset.raise 327 := by
  simp [opPfFlr]

/-- Settles O11: a function's reset clears its own page and rings, and the physical function's is that of each function
and then of the host channels. -/
theorem functionResets : Obligations.FunctionResets := by
  refine ⟨fun n s hn hg => ?vf, fun s => gives_nothing rfl, fun s hg => ?pf, fun s => rfl, fun t s => rfl,
    fun t s => rfl⟩
  case vf =>
    refine gives_told (congrArg (done s) (if_neg hn)) (fun u hu => ?_)
    obtain ⟨m, hm⟩ := hu.hif
    refine ⟨fun a ha hf => (hu.rd a).trans (functionReset_page hg ha hf), (hu.fld _ _).trans (functionReset_flrcnt hg),
      fun e he ht => (hu.fld _ _).trans (functionReset_cause he ht),
      fun a ha hne => (hu.rd a).trans (functionReset_other ha hne),
      fun t r hr => (hu.ring t r).trans (functionReset_ring s n t hr), fun c hc ht => ?_,
      hu.cmp.trans (functionReset_cmp s n), by rw [hm]; exact functionReset_numVfs s n,
      fun a => by rw [hu.mem, functionReset_mem],
      (functionReset_parts s n).trans (hu.signalled.frame (l := [])).2.2⟩
    rw [hm] at hc
    obtain ⟨d, -, hd, h, -⟩ := functionReset_inflight s n hc
    exact h (hd ▸ ht)
  case pf =>
    have hfun := fun {t : Nat} (ht : t < 1024) => pfReset_functions s hg ht
    have hhif := pfReset_hif s
    refine ⟨congrArg (done s) (opPfFlr_up (by decide)), congrArg (done s) (opPfFlr_up (by decide)),
      congrArg (done s) (opPfFlr_linkDown s), by rw [hhif], fun t r ht hr => (hfun ht).rings r hr,
      fun t a ha hf => (hfun t.isLt).page a ha hf,
      fun t => (hfun t.isLt).count, fun c => ?chan, ?inflight, ?grabs, fun a => by rw [pfReset_mem], pfReset_parts s⟩
    case chan =>
      have h := pfReset_channels s c.isLt
      exact ⟨pfReset_chan s (by omega), h.state, h.cause, fun a h1 h2 hs =>
        h.regs a (inChannel_iff.2 ⟨h1, h2⟩) hs⟩
    case inflight =>
      refine List.all_eq_true.2 (fun c hc => ?_)
      by_cases ht : c.tenant < 1024
      · simp [(hfun ht).inflight c hc rfl]
      · simp [Nat.le_of_not_lt ht]
    case grabs =>
      refine List.all_eq_true.2 (fun e he => decide_eq_true (Nat.le_of_not_lt (fun ht => ?_)))
      exact (hfun ht).grabs e he rfl

end Sys2Proof.Machine
end

section
/-! PROOFS. The host channels: how their parts are read back, what pumping, halting and aborting one does, and the
writes of its registers: O12 (R77, R96-R98, R102-R104, R108). -/

namespace Sys2Proof.Machine

open Sys2Proof

/-! ## A channel is read back -/

@[simp] theorem State.chan_setChan (s : State) (n : Nat) (x : Chan) : (s.setChan n x).chan n = x := by
  simp [State.chan, State.setChan]

theorem State.chan_setChan_other (s : State) {n m : Nat} (x : Chan) (h : m ≠ n) :
    (s.setChan n x).chan m = s.chan m := by
  simp [State.chan, State.setChan, Tbl.getD_putD_other _ _ _ _ h]

@[simp] theorem State.chan_wr (s : State) (a : Nat) (v : Word) (n : Nat) : (s.wr a v).chan n = s.chan n := rfl
@[simp] theorem State.chan_setFld (s : State) (a : Nat) (f : Field) (v n : Nat) :
    (s.setFld a f v).chan n = s.chan n := rfl
@[simp] theorem State.chan_emit (s : State) (e : Emission) (n : Nat) : (s.emit e).chan n = s.chan n := rfl
@[simp] theorem State.chan_dropReqs (s : State) (m n : Nat) : (s.dropReqs m).chan n = s.chan n := rfl
@[simp] theorem State.rd_setChan (s : State) (n : Nat) (x : Chan) (a : Nat) : (s.setChan n x).rd a = s.rd a := rfl
@[simp] theorem State.fld_setChan (s : State) (n : Nat) (x : Chan) (a : Nat) (f : Field) :
    (s.setChan n x).fld a f = s.fld a f := rfl
@[simp] theorem State.rd_dropReqs (s : State) (n a : Nat) : (s.dropReqs n).rd a = s.rd a := rfl
@[simp] theorem State.fld_dropReqs (s : State) (n a : Nat) (f : Field) : (s.dropReqs n).fld a f = s.fld a f := rfl

/-- STATE after it is written. -/
theorem State.chanState_setFld (s : State) (n : Nat) {x : Nat} (h : x < 4) :
    (s.setFld (HIF_DMA_STAT n) HIF_DMA_STAT_STATE x).chanState n = x :=
  (State.fld_setFld _ _ _ _ (by decide)).trans (Nat.mod_eq_of_lt h)

/-- A field of STAT beside STATE stands when STATE is written. -/
theorem State.stat_setState (s : State) (n x : Nat) {f : Field} (h : 2 ≤ f.lo) :
    (s.setFld (HIF_DMA_STAT n) HIF_DMA_STAT_STATE x).fld (HIF_DMA_STAT n) f = s.fld (HIF_DMA_STAT n) f :=
  State.fld_setFld_apart _ _ _ _ _ (by decide) (.inl h)

/-- The registers of channel `n` that a write of STAT leaves. -/
theorem dma_ne_stat (n : Nat) : HIF_DMA_CTRL n ≠ HIF_DMA_STAT n ∧ HIF_DMA_PIDX n ≠ HIF_DMA_STAT n
    ∧ HIF_DMA_CIDX n ≠ HIF_DMA_STAT n ∧ HIF_DMA_RBASE_LO n ≠ HIF_DMA_STAT n ∧ HIF_DMA_RBASE_HI n ≠ HIF_DMA_STAT n
    ∧ HIF_DMA_BYTES n ≠ HIF_DMA_STAT n := by
  unfold HIF_DMA_CTRL HIF_DMA_STAT HIF_DMA_PIDX HIF_DMA_CIDX HIF_DMA_RBASE_LO HIF_DMA_RBASE_HI HIF_DMA_BYTES
  omega

/-! ## Pumping a channel (R96-R98) -/

section pump

variable {s : State} {n : Nat}

theorem pumpChan_none (h : (s.chan n).desc = none) : s.pumpChan n = s := by
  simp [State.pumpChan, h]

/-- A running channel with a local descriptor and no burst on its way begins one where it may. -/
theorem pumpChan_local {d : Desc} (hs : s.chanState n = 1) (hb : (s.chan n).burst = 0)
    (hp : (s.chan n).stopping = false) (hd : (s.chan n).desc = some d) (hr : d.remote = false) :
    s.pumpChan n = if s.mayBurst n then s.beginBurst n (s.nextBurst n d (s.chan n).moved) else s := by
  cases hm : s.mayBurst n <;> simp [State.pumpChan, hs, hb, hp, hd, hr, hm]

theorem mayBurst_unpaced (h : s.reqsel n = 0) : s.mayBurst n = true := by simp [State.mayBurst, h]

theorem mayBurst_waits (h : s.reqsel n ≠ 0) (hp : (s.chan n).paid = false)
    (hq : s.fld (HIF_DMA_STAT n) HIF_DMA_STAT_PENDREQ = 0) : s.mayBurst n = false := by
  simp [State.mayBurst, h, hp, hq]

theorem beginBurst_unpaced (h : s.reqsel n = 0) (b : Nat) :
    s.beginBurst n b = s.setChan n { s.chan n with burst := b, paid := true, tries := 0 } := by
  simp [State.beginBurst, h]

theorem beginBurst_chan (b : Nat) :
    (s.beginBurst n b).chan n = { s.chan n with burst := b, paid := true, tries := 0 } := by
  simp [State.beginBurst]

theorem beginBurst_frame (b : Nat) : Frame [HIF_DMA_STAT n] [.chans] s (s.beginBurst n b) := by
  refine Frame.setChan ?_ _ _ (by simp)
  split
  · exact Frame.refl
  · exact Frame.refl.setFld _ _ (by simp)

/-- A channel runs where EN is 1, it is IDLE, its REQSEL is a line and descriptors are queued. -/
theorem chanStart_runs (h : s.chanEn n = true ∧ s.chanState n = 0 ∧ s.reqsel n ≤ 18 ∧ s.chanQueued n ≠ 0) :
    s.chanStart n = s.setFld (HIF_DMA_STAT n) HIF_DMA_STAT_STATE 1 := by
  obtain ⟨h1, h2, h3, h4⟩ := h
  simp [State.chanStart, h1, h2, h3, h4]

theorem chanStart_stays (h : ¬(s.chanEn n = true ∧ s.chanState n = 0 ∧ s.reqsel n ≤ 18 ∧ s.chanQueued n ≠ 0)) :
    s.chanStart n = s := if_neg (by simpa [and_assoc] using h)

theorem chanStart_hif : (s.chanStart n).hif = s.hif := by
  unfold State.chanStart
  split <;> rfl

theorem chanStart_frame : Frame [HIF_DMA_STAT n] [] s (s.chanStart n) := by
  unfold State.chanStart
  split
  · exact Frame.refl.setFld _ _ (by simp)
  · exact Frame.refl

theorem chanStart_chanState : (s.chanStart n).chanState n =
    if s.chanEn n = true ∧ s.chanState n = 0 ∧ s.reqsel n ≤ 18 ∧ s.chanQueued n ≠ 0 then 1 else s.chanState n := by
  split
  · next h => rw [chanStart_runs h, State.chanState_setFld s n (by decide)]
  · next h => rw [chanStart_stays h]

end pump

/-! ## A channel that is enabled or stopped -/

section enable

variable {s t : State} {n : Nat}

theorem chanQueued_same (h : Frame [HIF_DMA_CTRL n] [] s t) : t.chanQueued n = s.chanQueued n := by
  have hp : HIF_DMA_PIDX n ∉ [HIF_DMA_CTRL n] := by simp [HIF_DMA_PIDX, HIF_DMA_CTRL]
  have hc : HIF_DMA_CIDX n ∉ [HIF_DMA_CTRL n] := by simp [HIF_DMA_CIDX, HIF_DMA_CTRL]
  have hr : HIF_DMA_RBASE_LO n ∉ [HIF_DMA_CTRL n] := by simp [HIF_DMA_RBASE_LO, HIF_DMA_CTRL]
  simp only [State.chanQueued, h.fld _ hp, h.fld _ hc, h.fld _ hr]

/-- The channel is not to stop any more, and starts where it can. -/
def State.chanGoes (s : State) (n : Nat) : State := (s.setChan n { s.chan n with stopping := false }).chanStart n

theorem chanGoes_chan : (s.chanGoes n).chan n = { s.chan n with stopping := false } := by
  rw [State.chanGoes, State.chan, chanStart_hif]
  exact State.chan_setChan s n _

theorem chanGoes_frame : Frame [HIF_DMA_STAT n] [.chans] s (s.chanGoes n) :=
  (Frame.refl.setChan n _ (by simp)).trans (chanStart_frame.mono (by simp) (by simp))

theorem chanGoes_chanState (hen : s.chanEn n = true) : (s.chanGoes n).chanState n =
    if s.chanState n = 0 ∧ s.reqsel n ≤ 18 ∧ s.chanQueued n ≠ 0 then 1 else s.chanState n := by
  have h := chanStart_chanState (s := s.setChan n { s.chan n with stopping := false }) (n := n)
  have he : (s.setChan n { s.chan n with stopping := false }).chanEn n = true := hen
  simp only [he, true_and] at h
  exact h

/-- Nothing is on its way, nothing in execution, and the channel is IDLE. -/
def State.chanStopped (s : State) (n : Nat) : State :=
  ((s.dropReqs n).setChan n Chan.idle).setFld (HIF_DMA_STAT n) HIF_DMA_STAT_STATE 0

theorem chanStopped_chanState : (s.chanStopped n).chanState n = 0 := State.chanState_setFld _ n (by decide)
theorem chanStopped_chan : (s.chanStopped n).chan n = Chan.idle := State.chan_setChan _ n _

theorem chanStopped_stat {f : Field} (h : 2 ≤ f.lo) :
    (s.chanStopped n).fld (HIF_DMA_STAT n) f = s.fld (HIF_DMA_STAT n) f := State.stat_setState _ n 0 h

theorem chanStopped_frame : Frame [HIF_DMA_STAT n] [.chans, .blk] s (s.chanStopped n) :=
  ((Frame.refl.dropReqs n (by simp)).setChan n _ (by simp)).setFld _ _ (by simp)

end enable

/-! ## CTRL and PIDX (R102, R104) -/

section ctrl

variable {n : Nat} {v : Word} {s : State}

theorem opDmaCtrl_refused (hv : HIF_DMA_CTRL_EN.get v = 1) (hen : s.chanEn n = false)
    (h : ¬(6 ≤ s.fld (HIF_DMA_RBASE_LO n) HIF_DMA_RBASE_LO_LOG2SIZE
      ∧ s.fld (HIF_DMA_RBASE_LO n) HIF_DMA_RBASE_LO_LOG2SIZE ≤ 16)) : opDmaCtrl n v s = s.raise 321 :=
  if_pos (by simp [hv, hen]; omega)

/-- A write that sets or keeps EN. -/
theorem opDmaCtrl_on (hv : HIF_DMA_CTRL_EN.get v = 1)
    (hp : HIF_DMA_CTRL_RESUME.get v = 0 ∧ HIF_DMA_CTRL_ABORT.get v = 0)
    (h : (6 ≤ s.fld (HIF_DMA_RBASE_LO n) HIF_DMA_RBASE_LO_LOG2SIZE
      ∧ s.fld (HIF_DMA_RBASE_LO n) HIF_DMA_RBASE_LO_LOG2SIZE ≤ 16) ∨ s.chanEn n = true) :
    opDmaCtrl n v s =
      ((s.fieldWrite (HIF_DMA_CTRL n) v).chanGoes n).pumpChan n := by
  rcases h with h | h <;> simp [opDmaCtrl, State.chanGoes, hv, hp, h]

/-- A write that clears EN where no burst can be on its way. -/
theorem opDmaCtrl_off (hv : HIF_DMA_CTRL_EN.get v = 0)
    (hp : HIF_DMA_CTRL_RESUME.get v = 0 ∧ HIF_DMA_CTRL_ABORT.get v = 0)
    (h : s.chanEn n = false ∨ (s.fieldWrite (HIF_DMA_CTRL n) v).chanState n ≠ 1) :
    opDmaCtrl n v s = s.fieldWrite (HIF_DMA_CTRL n) v := by
  rcases h with h | h <;> simp [opDmaCtrl, hv, hp, h]

/-- A write that clears EN of a running channel between bursts. -/
theorem opDmaCtrl_stops (hv : HIF_DMA_CTRL_EN.get v = 0)
    (hp : HIF_DMA_CTRL_RESUME.get v = 0 ∧ HIF_DMA_CTRL_ABORT.get v = 0) (hen : s.chanEn n = true)
    (hs : (s.fieldWrite (HIF_DMA_CTRL n) v).chanState n = 1) (hb : ((s.fieldWrite (HIF_DMA_CTRL n) v).chan n).burst = 0) :
    opDmaCtrl n v s = (s.fieldWrite (HIF_DMA_CTRL n) v).chanStopped n := by
  simp [opDmaCtrl, State.chanStopped, hv, hp, hen, hs, hb]

end ctrl

/-! ## RESUME and ABORT (R103, R108) -/

section resume

variable {s : State} {n : Nat}

/-- The channel that RESUME finds halted, as it runs again. -/
def State.resumed (s : State) (n : Nat) : State :=
  ((s.setFld (HIF_DMA_STAT n) HIF_DMA_STAT_TRIES 0).setChan n
    { s.chan n with burst := 0, waiting := false, stopping := false, tries := 0 }).setFld
      (HIF_DMA_STAT n) HIF_DMA_STAT_STATE 1

theorem resumed_chan : (s.resumed n).chan n =
    { s.chan n with burst := 0, waiting := false, stopping := false, tries := 0 } := State.chan_setChan _ n _

theorem resumed_chanState : (s.resumed n).chanState n = 1 := State.chanState_setFld _ n (by decide)

theorem resumed_tries : (s.resumed n).fld (HIF_DMA_STAT n) HIF_DMA_STAT_TRIES = 0 := by
  rw [State.resumed, State.stat_setState _ n _ (by decide), State.fld_setChan, State.fld_setFld _ _ _ _ (by decide)]
  rfl

theorem resumed_frame : Frame [HIF_DMA_STAT n] [.chans] s (s.resumed n) :=
  ((Frame.refl.setFld _ _ (by simp)).setChan _ _ (by simp)).setFld _ _ (by simp)

theorem resumed_fld {a : Nat} (f : Field) (h : a ≠ HIF_DMA_STAT n) : (s.resumed n).fld a f = s.fld a f :=
  resumed_frame.fld f (by simpa using h)

theorem resumed_chanEn : (s.resumed n).chanEn n = s.chanEn n :=
  congrArg (· != 0) (resumed_fld _ (dma_ne_stat n).1)

theorem resumed_reqsel : (s.resumed n).reqsel n = s.reqsel n := resumed_fld _ (dma_ne_stat n).1

theorem resumed_nextBurst (d : Desc) (m : Nat) : (s.resumed n).nextBurst n d m = s.nextBurst n d m := by
  simp only [State.nextBurst, resumed_fld HIF_DMA_CTRL_BURST (dma_ne_stat n).1]

theorem chanResume_nothing (h : s.chanState n ≠ 2 ∨ 18 < s.reqsel n) : s.chanResume n = s := if_pos h

theorem chanResume_eq (h2 : s.chanState n = 2) (hr : s.reqsel n ≤ 18) : s.chanResume n =
    let t := (s.resumed n).pumpChan n
    if t.chanEn n || t.chanState n != 1 then t
    else if (t.chan n).burst = 0 then
      t.chanStopped n
    else t.setChan n { t.chan n with stopping := true } :=
  if_neg (by omega)

/-- Without a descriptor the halted channel runs again, or is IDLE with EN 0. -/
theorem chanResume_none (h2 : s.chanState n = 2) (hr : s.reqsel n ≤ 18) (hd : (s.chan n).desc = none) :
    s.chanResume n = if s.chanEn n then s.resumed n
      else (s.resumed n).chanStopped n := by
  have hp : (s.resumed n).pumpChan n = s.resumed n := pumpChan_none (by rw [resumed_chan]; exact hd)
  rw [chanResume_eq h2 hr, hp]
  simp only [resumed_chanEn, resumed_chanState, resumed_chan]
  cases s.chanEn n <;> simp

/-- An unpaced transfer with package memory goes on where it stood. -/
theorem chanResume_local {d : Desc} (h2 : s.chanState n = 2) (hr : s.reqsel n = 0) (hen : s.chanEn n = true)
    (hd : (s.chan n).desc = some d) (hl : d.remote = false) :
    s.chanResume n = (s.resumed n).setChan n { s.chan n with
      burst := s.nextBurst n d (s.chan n).moved, waiting := false, stopping := false, paid := true, tries := 0 } := by
  have hq : (s.resumed n).reqsel n = 0 := resumed_reqsel.trans hr
  have hp : (s.resumed n).pumpChan n = (s.resumed n).setChan n { s.chan n with
      burst := s.nextBurst n d (s.chan n).moved, waiting := false, stopping := false, paid := true, tries := 0 } := by
    rw [pumpChan_local (d := d) resumed_chanState (by rw [resumed_chan]) (by rw [resumed_chan])
      (by rw [resumed_chan]; exact hd) hl, if_pos (mayBurst_unpaced hq), beginBurst_unpaced hq, resumed_nextBurst,
      resumed_chan]
  rw [chanResume_eq (n := n) h2 (by omega), hp]
  exact if_pos (Bool.or_eq_true_iff.2 (.inl (resumed_chanEn.trans hen)))

/-- The write-backs of ABORT leave the device, in order, and change nothing else. -/
theorem writeBacks_spec (s : State) (n i m st : Nat) :
    ∃ o, s.each (List.range m) (fun s k => s.writeBack n (i + k) st) = { s with out := o }
      ∧ ∀ k, k < m → .hostWrite (s.descAddr n (i + k) + 28) [BitVec.ofNat 8 st, 0, 0, 0x80] ∈ o := by
  induction m with
  | zero => exact ⟨s.out, rfl, fun k hk => absurd hk (Nat.not_lt_zero k)⟩
  | succ m ih =>
    obtain ⟨o, ho, hm⟩ := ih
    refine ⟨.hostWrite (s.descAddr n (i + m) + 28) [BitVec.ofNat 8 st, 0, 0, 0x80] :: o, ?_, fun k hk => ?_⟩
    · have hlast : s.each (List.range (m + 1)) (fun s k => s.writeBack n (i + k) st)
          = (s.each (List.range m) (fun s k => s.writeBack n (i + k) st)).writeBack n (i + m) st := by
        simp [State.each, List.range_succ]
      rw [hlast, ho]
      rfl
    · rcases Nat.lt_succ_iff_lt_or_eq.1 hk with h | rfl
      · exact List.mem_cons_of_mem _ (hm k h)
      · exact List.mem_cons_self

/-- What ABORT makes of the channel itself. -/
def State.abortedChan (s : State) (n : Nat) : State :=
  ((((s.setFld (HIF_DMA_CIDX n) HIF_DMA_CIDX_IDX (s.fld (HIF_DMA_PIDX n) HIF_DMA_PIDX_IDX)).setFld (HIF_DMA_STAT n)
    HIF_DMA_STAT_STATE 0).setFld (HIF_DMA_STAT n) HIF_DMA_STAT_CAUSE 5).dropReqs n).setChan n Chan.idle

theorem abortedChan_chanState : (s.abortedChan n).chanState n = 0 := by
  rw [State.chanState, State.abortedChan, State.fld_setChan, State.fld_dropReqs,
    State.fld_setFld_apart _ _ _ _ _ (by decide) (.inr (by decide)), State.fld_setFld _ _ _ _ (by decide)]
  exact Nat.zero_mod _

theorem abortedChan_cause : (s.abortedChan n).fld (HIF_DMA_STAT n) HIF_DMA_STAT_CAUSE = 5 := by
  rw [State.abortedChan, State.fld_setChan, State.fld_dropReqs, State.fld_setFld _ _ _ _ (by decide)]
  exact Nat.mod_eq_of_lt (by decide)

theorem abortedChan_cidx : (s.abortedChan n).fld (HIF_DMA_CIDX n) HIF_DMA_CIDX_IDX
    = s.fld (HIF_DMA_PIDX n) HIF_DMA_PIDX_IDX := by
  have hne : HIF_DMA_CIDX n ≠ HIF_DMA_STAT n := (dma_ne_stat n).2.2.1
  have hlt : s.fld (HIF_DMA_PIDX n) HIF_DMA_PIDX_IDX < 2 ^ 16 := Field.get_lt HIF_DMA_PIDX_IDX _
  rw [State.abortedChan, State.fld_setChan, State.fld_dropReqs, State.fld_setFld_other _ _ _ _ hne,
    State.fld_setFld_other _ _ _ _ hne, State.fld_setFld _ _ _ _ (by decide)]
  exact Nat.mod_eq_of_lt hlt

theorem abortedChan_frame : Frame [HIF_DMA_STAT n, HIF_DMA_CIDX n] [.chans, .blk] s (s.abortedChan n) :=
  (((((Frame.refl.setFld _ _ (by simp)).setFld _ _ (by simp)).setFld _ _ (by simp)).dropReqs n (by simp)).setChan n _
    (by simp))

/-- ABORT writes the queued descriptors back and then ends the channel's work. -/
theorem chanAbort_eq : ∃ o, s.chanAbort n = ({ s with out := o } : State).abortedChan n
    ∧ ∀ i, i < s.chanQueued n →
      .hostWrite (s.descAddr n (s.fld (HIF_DMA_CIDX n) HIF_DMA_CIDX_IDX + i) + 28) [5, 0, 0, 0x80] ∈ o := by
  obtain ⟨o, ho, hsent⟩ := writeBacks_spec s n (s.fld (HIF_DMA_CIDX n) HIF_DMA_CIDX_IDX) (s.chanQueued n) 5
  refine ⟨o, ?_, hsent⟩
  rw [← ho]
  rfl

end resume

theorem answers_bar {c : Instr} {s t : State} (hb : s.pwr.barred = false) (h : exec c s = doneBar s t) : Answers c s t := by
  rw [Answers, h]
  simp [doneBar, done, hb]

/-- Settles O12: one equation of the model per kind of write, read back field by field. -/
theorem dmaChannelControl : Obligations.DmaChannelControl := by
  intro n v s hb k ctrl stat x size plain taken
  have hreg := openReg_dmaCtrl n
  have hpidx := openReg_dmaPidx n
  have hframe : Frame [ctrl] [] s (s.fieldWrite ctrl v) := hreg.frame s v Frame.refl (by simp [ctrl, k])
  have hstate : (s.fieldWrite ctrl v).chanState k = s.chanState k := hreg.fld_other s v _ (dma_ne_stat k).1.symm
  refine ⟨fun hv hen hsize => answers_bar hb (congrArg (doneBar s) (opDmaCtrl_refused hv hen hsize)),
    fun hv hp hsize hd => ?on, fun hv hp hoff => ?off, fun hv hp hen hrun hburst => ?stops,
    ⟨hpidx.fld s v (k := .rw) (by decide), hpidx.frame s v Frame.refl (by simp [k]),
      fun hgo => answers_bar hb (congrArg (doneBar s) (chanStart_runs hgo)),
      fun hgo => answers_bar hb (congrArg (doneBar s) (chanStart_stays hgo))⟩,
    fun h => gives_told_bar hb (congrArg (doneBar s) (chanResume_nothing h)) (fun u hu => hu.signalled.onlyRegs),
    fun h2 hr hen hd => ?resumeIdle, fun d h2 hr hen hd hl => ?resumeBurst, fun h2 hr hen hd => ?resumeStops, ?abort⟩
  case on =>
    let t := s.fieldWrite ctrl v
    have hchan : (t.chanGoes k).chan k = { x with stopping := false } := by
      rw [chanGoes_chan]
      exact congrArg (fun y : Chan => { y with stopping := false }) (hreg.chan s v k)
    have heq : opDmaCtrl k v s = t.chanGoes k :=
      (opDmaCtrl_on hv hp hsize).trans (pumpChan_none (by rw [hchan]; exact hd))
    have hen : t.chanEn k = true := by
      have h : t.fld ctrl HIF_DMA_CTRL_EN = HIF_DMA_CTRL_EN.get v := hreg.fld s v (k := .rw) (by decide)
      rw [State.chanEn, State.bit, h, hv]
      rfl
    have hsel : t.reqsel k = HIF_DMA_CTRL_REQSEL.get v := hreg.fld s v (k := .rw) (by decide)
    refine gives_told_bar hb (congrArg (doneBar s) heq) (fun u hu => ⟨?_, ?_, (hu.chan k).trans hchan, ?_⟩)
    · exact (hu.rd _).trans (chanGoes_frame.1 _ (by simpa using (dma_ne_stat k).1))
    · rw [← hsel, ← hstate, ← chanQueued_same hframe]
      exact (hu.fld _ _).trans (chanGoes_chanState hen)
    · exact hu.frame ((hframe.mono (by simp) (by simp)).trans (chanGoes_frame.mono (by simp [stat]) (by simp)))
  case off =>
    have heq : opDmaCtrl k v s = s.fieldWrite ctrl v := opDmaCtrl_off hv hp (by rw [hstate]; exact hoff)
    exact gives_told_bar hb (congrArg (doneBar s) heq) (fun u hu => ⟨hu.rd _, hu.frame hframe⟩)
  case stops =>
    have heq := opDmaCtrl_stops hv hp hen (hstate.trans hrun) ((congrArg Chan.burst (hreg.chan s v k)).trans hburst)
    refine gives_told_bar hb (congrArg (doneBar s) heq) (fun u hu => ?_)
    refine ⟨(hu.rd _).trans (chanStopped_frame.1 _ (by simpa using (dma_ne_stat k).1)),
      (hu.fld _ _).trans chanStopped_chanState, (hu.chan k).trans chanStopped_chan, ?_⟩
    exact hu.frame ((hframe.mono (by simp) (by simp)).trans (chanStopped_frame.mono (by simp [stat]) (by simp)))
  case resumeIdle =>
    have heq : s.chanResume k = s.resumed k := (chanResume_none h2 hr hd).trans (if_pos hen)
    refine gives_told_bar hb (congrArg (doneBar s) heq) (fun u hu => ?_)
    exact ⟨(hu.fld _ _).trans resumed_chanState, (hu.fld _ _).trans resumed_tries, by rw [hu.chan, resumed_chan]; exact hd,
      by rw [hu.chan, resumed_chan], hu.frame resumed_frame⟩
  case resumeBurst =>
    refine gives_told_bar hb (congrArg (doneBar s) (chanResume_local h2 hr hen hd hl)) (fun u hu => ?_)
    have hstat : ∀ f, u.fld stat f = (s.resumed k).fld stat f := fun f => by rw [hu.fld, State.fld_setChan]
    refine ⟨(hstat _).trans resumed_chanState, (hstat _).trans resumed_tries, ?_, ?_, ?_, ?_,
      hu.frame (resumed_frame.setChan k _ (by simp))⟩
    all_goals rw [hu.chan, State.chan_setChan]
    exact hd
  case resumeStops =>
    have heq : s.chanResume k = (s.resumed k).chanStopped k :=
      (chanResume_none h2 hr hd).trans (if_neg (by simp [hen]))
    refine gives_told_bar hb (congrArg (doneBar s) heq) (fun u hu => ?_)
    exact ⟨(hu.fld _ _).trans chanStopped_chanState,
      (hu.fld _ _).trans ((chanStopped_stat (by decide)).trans resumed_tries), (hu.chan k).trans chanStopped_chan,
      hu.frame ((resumed_frame.mono (by simp [stat]) (by simp)).trans chanStopped_frame)⟩
  case abort =>
    obtain ⟨o, heq, hsent⟩ := chanAbort_eq (s := s) (n := k)
    have hout : Frame [stat, HIF_DMA_CIDX k] [.chans, .blk] s { s with out := o } :=
      Frame.refl.update rfl rfl (fun q _ => by cases q <;> simp [Part.Same])
    refine gives_told_bar hb (congrArg (doneBar s) heq) (fun u hu => ?_)
    exact ⟨(hu.fld _ _).trans abortedChan_chanState, (hu.fld _ _).trans abortedChan_cause,
      (hu.fld _ _).trans abortedChan_cidx, (hu.chan k).trans (State.chan_setChan _ k _),
      fun i hi => hu.sent _ (hsent i hi), hu.frame (hout.trans abortedChan_frame)⟩

end Sys2Proof.Machine
end

section
/-! PROOFS. Descriptors, bursts and requests: O13 (R95-R101, R104-R107). -/

namespace Sys2Proof.Machine

open Sys2Proof

theorem dmaBytes_ne (n : Nat) : HIF_DMA_CTRL n ≠ HIF_DMA_BYTES n ∧ HIF_DMA_STAT n ≠ HIF_DMA_BYTES n
    ∧ HIF_DMA_CIDX n ≠ HIF_DMA_BYTES n ∧ HIF_DMA_RBASE_LO n ≠ HIF_DMA_BYTES n ∧ HIF_DMA_RBASE_HI n ≠ HIF_DMA_BYTES n
    ∧ HIF_DMA_ERRADDR_LO n ≠ HIF_DMA_BYTES n ∧ HIF_DMA_ERRADDR_LO n ≠ HIF_DMA_STAT n
    ∧ HIF_DMA_ERRADDR_HI n ≠ HIF_DMA_STAT n ∧ HIF_DMA_ERRADDR_LO n ≠ HIF_DMA_ERRADDR_HI n := by
  unfold HIF_DMA_CTRL HIF_DMA_STAT HIF_DMA_CIDX HIF_DMA_RBASE_LO HIF_DMA_RBASE_HI HIF_DMA_BYTES HIF_DMA_ERRADDR_LO
    HIF_DMA_ERRADDR_HI
  omega

/-! ## A fetched descriptor (R95, R99-R101) -/

section fetch

variable {s : State} {n : Nat} {e : BitVec 256}

theorem opDescFetch_nothing (h : s.chanState n ≠ 1 ∨ (s.chan n).desc ≠ none ∨ s.chanQueued n = 0) :
    opDescFetch n e s = s := if_pos (by simpa [Option.isSome_iff_ne_none, or_assoc] using h)

variable (hs : s.chanState n = 1) (hd : (s.chan n).desc = none) (hq : s.chanQueued n ≠ 0)

include hs hd hq

theorem opDescFetch_misaligned (h : (descOf e).aligned = false) : opDescFetch n e s =
    ((s.writeBack n (s.fld (HIF_DMA_CIDX n) HIF_DMA_CIDX_IDX) 1).raise 323).chanHalt n 1 := by
  simp [opDescFetch, hs, hd, hq, h]

theorem opDescFetch_beyond (h : (descOf e).aligned = true) (hr : Memory.size < (descOf e).offset + (descOf e).len) :
    opDescFetch n e s = ((s.writeBack n (s.fld (HIF_DMA_CIDX n) HIF_DMA_CIDX_IDX) 2).raise 323).chanHalt n 2 := by
  simp [opDescFetch, hs, hd, hq, h, hr]

theorem opDescFetch_good (h : (descOf e).aligned = true) (hr : (descOf e).offset + (descOf e).len ≤ Memory.size) :
    opDescFetch n e s = (s.setChan n { Chan.idle with desc := some (descOf e) }).pumpChan n := by
  simp [opDescFetch, hs, hd, hq, h, Nat.not_lt.2 hr]

/-- A good local descriptor of an unpaced channel is taken and its first burst begins. -/
theorem opDescFetch_unpaced (h : (descOf e).aligned = true) (hr : (descOf e).offset + (descOf e).len ≤ Memory.size)
    (hl : (descOf e).remote = false) (hsel : s.reqsel n = 0) :
    let t := s.setChan n { Chan.idle with desc := some (descOf e) }
    opDescFetch n e s = t.setChan n { Chan.idle with
      desc := some (descOf e), burst := s.nextBurst n (descOf e) 0, paid := true } := by
  intro t
  have hchan : t.chan n = { Chan.idle with desc := some (descOf e) } := State.chan_setChan s n _
  rw [opDescFetch_good hs hd hq h hr, pumpChan_local (s := t) (d := descOf e) hs (by rw [hchan]; rfl) (by rw [hchan]; rfl)
    (by rw [hchan]) hl, if_pos (mayBurst_unpaced (s := t) hsel), beginBurst_unpaced (s := t) hsel, hchan]
  rfl

/-- A good local descriptor of a paced channel is taken and waits for a request. -/
theorem opDescFetch_paced (h : (descOf e).aligned = true) (hr : (descOf e).offset + (descOf e).len ≤ Memory.size)
    (hl : (descOf e).remote = false) (hsel : s.reqsel n ≠ 0)
    (hp : s.fld (HIF_DMA_STAT n) HIF_DMA_STAT_PENDREQ = 0) :
    opDescFetch n e s = s.setChan n { Chan.idle with desc := some (descOf e) } := by
  let t := s.setChan n { Chan.idle with desc := some (descOf e) }
  have hchan : t.chan n = { Chan.idle with desc := some (descOf e) } := State.chan_setChan s n _
  have hmay : t.mayBurst n = false := mayBurst_waits hsel (by rw [hchan]; rfl) hp
  rw [opDescFetch_good hs hd hq h hr, pumpChan_local (s := t) (d := descOf e) hs (by rw [hchan]; rfl) (by rw [hchan]; rfl)
    (by rw [hchan]) hl, hmay]
  rfl

end fetch

/-! ## The end of a burst (R96, R99, R104) -/

section burst

variable {s : State} {n : Nat} {d : Desc}

theorem countBytes_rd (k : Nat) : (s.countBytes n k).rd (HIF_DMA_BYTES n) = s.rd (HIF_DMA_BYTES n) + BitVec.ofNat 32 k :=
  State.rd_wr s _ _

theorem countBytes_frame (k : Nat) : Frame [HIF_DMA_BYTES n] [] s (s.countBytes n k) := Frame.refl.wr _ (by simp)

theorem countBytes_fld {a : Nat} (f : Field) (k : Nat) (h : a ≠ HIF_DMA_BYTES n) :
    (s.countBytes n k).fld a f = s.fld a f := (countBytes_frame k).fld f (by simpa using h)

/-- A local burst that is not the descriptor's last. -/
theorem endBurst_more (hl : d.remote = false) (hp : (s.chan n).stopping = false)
    (hlt : (s.chan n).moved + (s.chan n).burst < d.len) : s.endBurst n d =
      ((s.countBytes n (s.chan n).burst).setChan n { s.chan n with
        moved := (s.chan n).moved + (s.chan n).burst, burst := 0, paid := false, tries := 0 }).pumpChan n := by
  simp [State.endBurst, State.countBytes, hl, hp, Nat.ne_of_lt hlt]

theorem beginBurst_out (b : Nat) : (s.beginBurst n b).out = s.out := by
  simp only [State.beginBurst, State.setChan_out]
  split <;> rfl

/-- Pumping a local transfer leaves what it moves and how far it is. -/
theorem pumpChan_local_spec (hs : s.chanState n = 1) (hb : (s.chan n).burst = 0) (hp : (s.chan n).stopping = false)
    (hd : (s.chan n).desc = some d) (hl : d.remote = false) :
    ((s.pumpChan n).chan n).moved = (s.chan n).moved ∧ ((s.pumpChan n).chan n).desc = some d
      ∧ (s.pumpChan n).out = s.out ∧ Frame [HIF_DMA_STAT n] [.chans] s (s.pumpChan n) := by
  rw [pumpChan_local hs hb hp hd hl]
  split
  · rw [beginBurst_chan]
    exact ⟨rfl, hd, beginBurst_out _, beginBurst_frame _⟩
  · exact ⟨rfl, hd, rfl, Frame.refl⟩

theorem endBurst_more_spec (hs : s.chanState n = 1) (hd : (s.chan n).desc = some d) (hl : d.remote = false)
    (hp : (s.chan n).stopping = false) (hlt : (s.chan n).moved + (s.chan n).burst < d.len) :
    (s.endBurst n d).rd (HIF_DMA_BYTES n) = s.rd (HIF_DMA_BYTES n) + BitVec.ofNat 32 (s.chan n).burst
      ∧ ((s.endBurst n d).chan n).moved = (s.chan n).moved + (s.chan n).burst
      ∧ ((s.endBurst n d).chan n).desc = some d ∧ (s.endBurst n d).out = s.out
      ∧ Frame [HIF_DMA_BYTES n, HIF_DMA_STAT n] [.chans] s (s.endBurst n d) := by
  rw [endBurst_more hl hp hlt]
  let t := (s.countBytes n (s.chan n).burst).setChan n { s.chan n with
    moved := (s.chan n).moved + (s.chan n).burst, burst := 0, paid := false, tries := 0 }
  have hchan : t.chan n = { s.chan n with
    moved := (s.chan n).moved + (s.chan n).burst, burst := 0, paid := false, tries := 0 } := State.chan_setChan _ n _
  have hstat : t.chanState n = 1 := (countBytes_fld _ _ (dmaBytes_ne n).2.1).trans hs
  have ht : Frame [HIF_DMA_BYTES n, HIF_DMA_STAT n] [.chans] s t :=
    ((countBytes_frame _).mono (by simp) (by simp)).setChan n _ (by simp)
  obtain ⟨hmoved, hdesc, hout, hframe⟩ := pumpChan_local_spec (s := t) hstat (by rw [hchan]) (by rw [hchan]; exact hp)
    (by rw [hchan]; exact hd) hl
  refine ⟨?_, by rw [hmoved, hchan], hdesc, hout.trans (State.setChan_out _ _ _),
    ht.trans (hframe.mono (by simp) (by simp))⟩
  rw [hframe.1 _ (by simpa using (dmaBytes_ne n).2.1.symm), State.rd_setChan, countBytes_rd]

/-- The descriptor has ended well: it is written back, CIDX has gone on and nothing is in execution. -/
structure DescEnded (n : Nat) (d : Desc) (s u : State) : Prop where
  cidx : u.fld (HIF_DMA_CIDX n) HIF_DMA_CIDX_IDX =
    (s.fld (HIF_DMA_CIDX n) HIF_DMA_CIDX_IDX + 1) % 2 ^ s.fld (HIF_DMA_RBASE_LO n) HIF_DMA_RBASE_LO_LOG2SIZE % 65536
  chan : u.chan n = Chan.idle
  done : d.irq = true → u.bit (HIF_DMA_STAT n) HIF_DMA_STAT_DONE = true
  sent : .hostWrite (s.descAddr n (s.fld (HIF_DMA_CIDX n) HIF_DMA_CIDX_IDX) + 28) [0, 0, 0, 0x80] ∈ u.out
  frame : Frame [HIF_DMA_CIDX n, HIF_DMA_STAT n] [.chans] s u

/-- Whether the channel then runs or is IDLE does not matter to that. -/
theorem DescEnded.setState {u : State} (h : DescEnded n d s u) (x : Nat) :
    DescEnded n d s (u.setFld (HIF_DMA_STAT n) HIF_DMA_STAT_STATE x) where
  cidx := (State.fld_setFld_other _ _ _ _ (dma_ne_stat n).2.2.1).trans h.cidx
  chan := h.chan
  done hi := (congrArg (· != 0) (State.stat_setState u n x (by decide))).trans (h.done hi)
  sent := h.sent
  frame := h.frame.setFld _ _ (by simp)

/-- The descriptor is written back, and DONE is set where it asks for an interrupt. -/
def State.descDone (s : State) (n : Nat) (d : Desc) : State :=
  (s.writeBack n (s.fld (HIF_DMA_CIDX n) HIF_DMA_CIDX_IDX) 0).when d.irq
    (fun s => s.setBit (HIF_DMA_STAT n) HIF_DMA_STAT_DONE true)

theorem descDone_frame : Frame [HIF_DMA_STAT n] [] s (s.descDone n d) :=
  (Frame.refl.emit _).when _ (Frame.refl.setBit _ _ (by simp))

theorem descDone_out : (s.descDone n d).out =
    .hostWrite (s.descAddr n (s.fld (HIF_DMA_CIDX n) HIF_DMA_CIDX_IDX) + 28) [0, 0, 0, 0x80] :: s.out := by
  unfold State.descDone State.when
  split <;> rfl

theorem descDone_done (h : d.irq = true) : (s.descDone n d).bit (HIF_DMA_STAT n) HIF_DMA_STAT_DONE = true := by
  rw [State.descDone, State.when, if_pos h]
  exact State.bit_setBit _ _ _ _ (by decide) (by decide)

/-- What `endDesc` does before it looks whether another descriptor is queued. -/
def State.descEnded (s : State) (n : Nat) (d : Desc) : State :=
  ((s.descDone n d).setFld (HIF_DMA_CIDX n) HIF_DMA_CIDX_IDX ((s.fld (HIF_DMA_CIDX n) HIF_DMA_CIDX_IDX + 1)
    % 2 ^ (s.descDone n d).fld (HIF_DMA_RBASE_LO n) HIF_DMA_RBASE_LO_LOG2SIZE)).setChan n Chan.idle

theorem descEnded_spec : DescEnded n d s (s.descEnded n d) where
  cidx := by
    rw [State.descEnded, State.fld_setChan, State.fld_setFld _ _ _ _ (by decide),
      descDone_frame.fld _ (by simpa using (dma_ne_stat n).2.2.2.1)]
    rfl
  chan := State.chan_setChan _ n _
  done h := by
    rw [State.bit, State.descEnded, State.fld_setChan, State.fld_setFld_other _ _ _ _ (dma_ne_stat n).2.2.1.symm]
    exact descDone_done h
  sent := by
    change _ ∈ (s.descDone n d).out
    rw [descDone_out]
    exact List.mem_cons_self
  frame := ((descDone_frame.mono (by simp) (by simp)).setFld _ _ (by simp)).setChan n _ (by simp)

theorem endDesc_spec : DescEnded n d s (s.endDesc n d) := by
  have heq : s.endDesc n d = if (s.descEnded n d).chanQueued n = 0 then
      (s.descEnded n d).setFld (HIF_DMA_STAT n) HIF_DMA_STAT_STATE 0 else s.descEnded n d := rfl
  rw [heq]
  split
  · exact descEnded_spec.setState 0
  · exact descEnded_spec

/-- The last burst of a local descriptor. -/
theorem endBurst_last (hl : d.remote = false) (hm : (s.chan n).moved + (s.chan n).burst = d.len) :
    DescEnded n d (s.countBytes n (s.chan n).burst) (s.endBurst n d) := by
  have heq : s.endBurst n d = if (s.chan n).stopping then
      ((s.countBytes n (s.chan n).burst).endDesc n d).setFld (HIF_DMA_STAT n) HIF_DMA_STAT_STATE 0
      else (s.countBytes n (s.chan n).burst).endDesc n d := by
    simp [State.endBurst, State.countBytes, hl, hm]
  rw [heq]
  split
  · exact endDesc_spec.setState 0
  · exact endDesc_spec

theorem endBurst_mem : (s.endBurst n d).mem = s.mem := (keep_mem s.mem).endBurst rfl

theorem descAddr_countBytes (i k : Nat) : (s.countBytes n k).descAddr n i = s.descAddr n i := by
  obtain ⟨-, -, -, hlo, hhi, -⟩ := dmaBytes_ne n
  simp only [State.descAddr, countBytes_fld _ k hlo, countBytes_fld _ k hhi]

section done

variable {data : List Byte} (hs : s.chanState n = 1) (hd : (s.chan n).desc = some d) (hb : (s.chan n).burst ≠ 0)
  (hw : (s.chan n).waiting = false) (hl : d.remote = false)

include hs hd hb hw hl

theorem opBurstDone_toHost (ht : d.toHost = true) : opBurstDone n data s =
    (s.emit (.hostWrite (d.haddr + (s.chan n).moved)
      (Memory.reads s.mem (d.offset + (s.chan n).moved) (s.chan n).burst))).endBurst n d := by
  simp [opBurstDone, hs, hd, hb, hw, hl, ht]

theorem opBurstDone_fromHost (ht : d.toHost = false) : opBurstDone n data s =
    ({ s with mem := Memory.writes s.mem (d.offset + (s.chan n).moved) (data.take (s.chan n).burst) } : State).endBurst n d := by
  simp [opBurstDone, hs, hd, hb, hw, hl, ht]

end done

/-- Package memory is none of the parts. -/
theorem SameParts.of_mem {p : List Part} {u : State} {m : List Host.Cell} (h : SameParts p { s with mem := m } u) :
    SameParts p s u := by
  intro q hq
  have hsame := h q hq
  cases q <;> exact hsame

end burst

/-! ## Requests (R97, R98) -/

/-- What a request on `line` does for one channel. -/
def State.requested (line : Nat) (s : State) (n : Nat) : State :=
  if line = 0 ∨ 18 < line ∨ s.reqsel n ≠ line then s
  else if s.fld (HIF_DMA_STAT n) HIF_DMA_STAT_PENDREQ = 255 then s.setBit (HIF_DMA_STAT n) HIF_DMA_STAT_REQOVF true
  else (s.inc (HIF_DMA_STAT n) HIF_DMA_STAT_PENDREQ).pumpChan n

/-- The channel has taken the request: PENDREQ counts it or REQOVF says that it was lost. -/
structure Requested (line n : Nat) (s u : State) : Prop where
  counted : s.reqsel n = line → u.fld (HIF_DMA_STAT n) HIF_DMA_STAT_PENDREQ
    = min 255 (s.fld (HIF_DMA_STAT n) HIF_DMA_STAT_PENDREQ + 1)
  lost : s.reqsel n = line → s.fld (HIF_DMA_STAT n) HIF_DMA_STAT_PENDREQ = 255 →
    u.bit (HIF_DMA_STAT n) HIF_DMA_STAT_REQOVF = true
  other : s.reqsel n ≠ line → u.rd (HIF_DMA_STAT n) = s.rd (HIF_DMA_STAT n)

/-- It is a matter of the channel's STAT and REQSEL alone. -/
theorem Requested.congr {line n : Nat} {s s' u u' : State} (h : Requested line n s u)
    (hr : s'.reqsel n = s.reqsel n) (hs : s'.rd (HIF_DMA_STAT n) = s.rd (HIF_DMA_STAT n))
    (hu : u'.rd (HIF_DMA_STAT n) = u.rd (HIF_DMA_STAT n)) : Requested line n s' u' := by
  obtain ⟨h1, h2, h3⟩ := h
  constructor
  · simpa only [State.fld, hr, hs, hu] using h1
  · simpa only [State.bit, State.fld, hr, hs, hu] using h2
  · simpa only [hr, hs, hu] using h3

section request

variable {line : Nat} {s : State}

theorem requested_off (h : line = 0 ∨ 18 < line) (n : Nat) : s.requested line n = s :=
  if_pos (h.imp id .inl)

/-- One channel takes the request. -/
theorem requested_spec {n : Nat} (h1 : 1 ≤ line) (h2 : line ≤ 18)
    (hd : s.reqsel n = line → (s.chan n).desc = none) :
    Requested line n s (s.requested line n) ∧ OnlyRegs [HIF_DMA_STAT n] s (s.requested line n) := by
  unfold State.requested
  split_ifs with hoff hfull
  · have hne : s.reqsel n ≠ line := by omega
    exact ⟨⟨fun h => absurd h hne, fun h => absurd h hne, fun _ => rfl⟩, Frame.refl⟩
  · have hsel : s.reqsel n = line := by omega
    refine ⟨⟨fun _ => ?_, fun _ _ => State.bit_setBit _ _ _ _ (by decide) (by decide), fun h => absurd hsel h⟩,
      Frame.refl.setBit _ _ (by simp)⟩
    rw [State.setBit, State.fld_setFld_apart _ _ _ _ _ (by decide) (.inr (by decide)), hfull]
    rfl
  · have hsel : s.reqsel n = line := by omega
    rw [pumpChan_none (s := s.inc (HIF_DMA_STAT n) HIF_DMA_STAT_PENDREQ) (hd hsel)]
    refine ⟨⟨fun _ => ?_, fun _ h => absurd h hfull, fun h => absurd hsel h⟩, Frame.refl.inc _ (by simp)⟩
    rw [State.inc, State.fld_incBy _ _ _ _ (by decide), Nat.min_comm]
    rfl

theorem dmaStat_injective : Function.Injective HIF_DMA_STAT := by
  intro n m h
  unfold HIF_DMA_STAT at h
  omega

theorem dmaCtrl_ne_stat (n m : Nat) : HIF_DMA_CTRL n ≠ HIF_DMA_STAT m := by
  unfold HIF_DMA_CTRL HIF_DMA_STAT
  omega

/-- Each channel of a list takes the request by itself. -/
theorem requests_spec {l : List Nat} (h1 : 1 ≤ line) (h2 : line ≤ 18) (hl : l.Nodup)
    (hd : ∀ n ∈ l, s.reqsel n = line → (s.chan n).desc = none) :
    (∀ n ∈ l, Requested line n s (s.each l (State.requested line)))
      ∧ OnlyRegs (l.map HIF_DMA_STAT) s (s.each l (State.requested line)) := by
  induction l generalizing s with
  | nil => exact ⟨fun n hn => absurd hn (by simp), Frame.refl⟩
  | cons n l ih =>
    obtain ⟨hnl, hl⟩ := List.nodup_cons.1 hl
    obtain ⟨hreq, hone⟩ := requested_spec h1 h2 (hd n List.mem_cons_self)
    have hsel : ∀ m, (s.requested line n).reqsel m = s.reqsel m := fun m =>
      hone.fld _ (by simpa using dmaCtrl_ne_stat m n)
    have hchan : ∀ m, (s.requested line n).chan m = s.chan m := fun m =>
      congrArg (fun t => Tbl.getD t m Chan.idle) (hone.2.2 .chans (by decide))
    have hstat : ∀ m ∈ l, (s.requested line n).rd (HIF_DMA_STAT m) = s.rd (HIF_DMA_STAT m) := fun m hm =>
      
      hone.1 _ (by simpa using fun e : HIF_DMA_STAT m = HIF_DMA_STAT n => hnl (dmaStat_injective e ▸ hm))
    obtain ⟨hrest, hframe⟩ := ih (s := s.requested line n) hl (fun m hm => by
      rw [hsel, hchan]; exact hd m (List.mem_cons_of_mem _ hm))
    have heq : s.each (n :: l) (State.requested line) = (s.requested line n).each l (State.requested line) := rfl
    rw [heq]
    refine ⟨fun m hm => ?_, (hone.mono (by simp) (by simp)).trans (hframe.mono (by simp) (by simp))⟩
    rcases List.mem_cons.1 hm with rfl | hm
    · exact hreq.congr rfl rfl (hframe.1 _ (fun h => hnl ((List.mem_map_of_injective dmaStat_injective).1 h)))
    · exact (hrest m hm).congr (hsel m).symm (hstat m hm).symm rfl

end request

/-! ## A channel halts, and a burst that fails (R103, R105-R107) -/

section fail

variable {s : State} {n : Nat} {d : Desc}

theorem noteAddr_lo (a : Nat) : (s.noteAddr n a).rd (HIF_DMA_ERRADDR_LO n) = BitVec.ofNat 32 a :=
  (State.rd_wr_other _ _ (dmaBytes_ne n).2.2.2.2.2.2.2.2).trans (State.rd_wr _ _ _)

theorem noteAddr_hi (a : Nat) : (s.noteAddr n a).rd (HIF_DMA_ERRADDR_HI n) = BitVec.ofNat 32 (a / 2 ^ 32) :=
  State.rd_wr _ _ _

theorem noteAddr_frame (a : Nat) : Frame [HIF_DMA_ERRADDR_LO n, HIF_DMA_ERRADDR_HI n] [] s (s.noteAddr n a) :=
  (Frame.refl.wr _ (by simp)).wr _ (by simp)

/-- The halted channel before its vector fires. -/
def State.haltedAt (s : State) (n a cause : Nat) : State :=
  ((((s.noteAddr n a).dropReqs n).setFld (HIF_DMA_STAT n) HIF_DMA_STAT_STATE 2).setFld (HIF_DMA_STAT n)
    HIF_DMA_STAT_CAUSE cause)

theorem haltChannel_told (hd : (s.chan n).desc = some d) (cause : Nat) :
    Told (s.haltedAt n (d.haddr + (s.chan n).moved) cause) (s.haltChannel n cause) := by
  unfold State.haltChannel
  rw [hd]
  exact (Told.refl _).when _ (fun u => Told.signal u 0 _)

theorem haltedAt_chanState (a cause : Nat) : (s.haltedAt n a cause).chanState n = 2 := by
  rw [State.chanState, State.haltedAt, State.fld_setFld_apart _ _ _ _ _ (by decide) (.inr (by decide)),
    State.fld_setFld _ _ _ _ (by decide)]
  rfl

theorem haltedAt_cause (a : Nat) {cause : Nat} (h : cause < 8) :
    (s.haltedAt n a cause).fld (HIF_DMA_STAT n) HIF_DMA_STAT_CAUSE = cause :=
  (State.fld_setFld _ _ _ _ (by decide)).trans (Nat.mod_eq_of_lt h)

theorem haltedAt_rd {a cause b : Nat} (h : b ≠ HIF_DMA_STAT n) :
    (s.haltedAt n a cause).rd b = (s.noteAddr n a).rd b :=
  (State.rd_setFld_other _ _ _ h).trans ((State.rd_setFld_other _ _ _ h).trans (State.rd_dropReqs _ _ _))

theorem haltedAt_frame (a cause : Nat) :
    Frame [HIF_DMA_STAT n, HIF_DMA_ERRADDR_LO n, HIF_DMA_ERRADDR_HI n] [.blk] s (s.haltedAt n a cause) :=
  ((((noteAddr_frame a).mono (by simp) (by simp)).dropReqs n (by simp)).setFld _ _ (by simp)).setFld _ _ (by simp)

section host

variable {mv : Nat} (h48 : 48 ≤ n) (hs : s.chanState n = 1) (hd : (s.chan n).desc = some d)
  (hb : (s.chan n).burst ≠ 0) (hw : (s.chan n).waiting = false)

include h48 hd

theorem opBurstFail_toHost (ht : d.toHost = true) : opBurstFail n mv s = s := by
  simp [opBurstFail, Nat.not_lt.2 h48, hd, ht]

include hs hb hw

theorem opBurstFail_retry (ht : d.toHost = false) (h : (s.chan n).tries < s.fld (HIF_DMA_CTRL n) HIF_DMA_CTRL_RETRY) :
    opBurstFail n mv s = ((s.setChan n { s.chan n with waiting := true, tries := (s.chan n).tries + 1 }).setFld
      (HIF_DMA_STAT n) HIF_DMA_STAT_TRIES ((s.chan n).tries + 1)).raise 324 := by
  simp [opBurstFail, Nat.not_lt.2 h48, hd, hs, hb, hw, ht, h]

theorem opBurstFail_halt (ht : d.toHost = false) (h : s.fld (HIF_DMA_CTRL n) HIF_DMA_CTRL_RETRY ≤ (s.chan n).tries) :
    opBurstFail n mv s =
      (((s.setFld (HIF_DMA_STAT n) HIF_DMA_STAT_TRIES (s.chan n).tries).haltChannel n 3).raise 325) := by
  simp [opBurstFail, Nat.not_lt.2 h48, hd, hs, hb, hw, ht, Nat.not_lt.2 h, State.chanHalt]

end host

section command

variable {mv : Nat}

theorem opBurstFail_command (h : n < 48) : opBurstFail n mv s = opCommandBurstFail n mv s := if_pos h

theorem opCommandBurstFail_nothing (h : s.commandReads n = none) : opCommandBurstFail n mv s = s := by
  simp [opCommandBurstFail, h]

/-- The failed reissues of the burst at `mv` so far. -/
def State.triesAt (s : State) (n mv : Nat) : Nat := if (s.chan n).moved = mv then (s.chan n).tries else 0

/-- The channel of a command whose read has failed for good, before the command ends. -/
def State.readFailed (s : State) (n mv a : Nat) : State :=
  (((((s.setFld (HIF_DMA_STAT n) HIF_DMA_STAT_TRIES (s.triesAt n mv)).setFld (HIF_DMA_STAT n) HIF_DMA_STAT_CAUSE 3).noteAddr n
    (a + mv)).setChan n Chan.idle).countBytes n mv)

variable {a : Nat} (ha : s.commandReads n = some a) (hw : (s.chan n).waiting = false)

include ha hw

theorem opCommandBurstFail_retry (h : s.triesAt n mv < s.fld (HIF_DMA_CTRL n) HIF_DMA_CTRL_RETRY) :
    opCommandBurstFail n mv s =
      ((s.setChan n { Chan.idle with moved := mv, waiting := true, tries := s.triesAt n mv + 1 }).setFld
        (HIF_DMA_STAT n) HIF_DMA_STAT_TRIES (s.triesAt n mv + 1)).raise 324 := by
  have h' : (if (s.chan n).moved = mv then (s.chan n).tries else 0) < s.fld (HIF_DMA_CTRL n) HIF_DMA_CTRL_RETRY := h
  simp only [opCommandBurstFail, ha, hw, Bool.false_eq_true, if_false, if_pos h']
  rfl

theorem opCommandBurstFail_ends (h : s.fld (HIF_DMA_CTRL n) HIF_DMA_CTRL_RETRY ≤ s.triesAt n mv)
    (hsvc : s.svc.channel ≠ some n) : opCommandBurstFail n mv s = (s.readFailed n mv a).failChannel n .aborted := by
  have h' : ¬(if (s.chan n).moved = mv then (s.chan n).tries else 0) < s.fld (HIF_DMA_CTRL n) HIF_DMA_CTRL_RETRY :=
    Nat.not_lt.2 h
  simp only [opCommandBurstFail, ha, hw, Bool.false_eq_true, if_false, if_neg h']
  exact if_neg hsvc

end command

section readFailed

variable (mv a : Nat)

theorem readFailed_stat (f : Field) : (s.readFailed n mv a).fld (HIF_DMA_STAT n) f =
    ((s.setFld (HIF_DMA_STAT n) HIF_DMA_STAT_TRIES (s.triesAt n mv)).setFld (HIF_DMA_STAT n) HIF_DMA_STAT_CAUSE 3).fld
      (HIF_DMA_STAT n) f := by
  obtain ⟨-, hbytes, -, -, -, -, hlo, hhi, -⟩ := dmaBytes_ne n
  rw [State.readFailed, countBytes_fld _ _ hbytes, State.fld_setChan,
    (noteAddr_frame _).fld _ (by simp [hlo.symm, hhi.symm])]

theorem readFailed_cause : (s.readFailed n mv a).fld (HIF_DMA_STAT n) HIF_DMA_STAT_CAUSE = 3 :=
  (readFailed_stat mv a _).trans (State.fld_setFld _ _ _ _ (by decide))

theorem readFailed_tries :
    (s.readFailed n mv a).fld (HIF_DMA_STAT n) HIF_DMA_STAT_TRIES = s.triesAt n mv % 16 := by
  rw [readFailed_stat, State.fld_setFld_apart _ _ _ _ _ (by decide) (.inl (by decide)),
    State.fld_setFld _ _ _ _ (by decide)]
  rfl

theorem readFailed_errAddr : (s.readFailed n mv a).rd (HIF_DMA_ERRADDR_LO n) = BitVec.ofNat 32 (a + mv) := by
  rw [State.readFailed, (countBytes_frame _).1 _ (by simpa using (dmaBytes_ne n).2.2.2.2.2.1), State.rd_setChan,
    noteAddr_lo]

theorem readFailed_bytes :
    (s.readFailed n mv a).rd (HIF_DMA_BYTES n) = s.rd (HIF_DMA_BYTES n) + BitVec.ofNat 32 mv := by
  have hne : HIF_DMA_BYTES n ∉ [HIF_DMA_STAT n, HIF_DMA_ERRADDR_LO n, HIF_DMA_ERRADDR_HI n] := by
    simp [HIF_DMA_BYTES, HIF_DMA_STAT, HIF_DMA_ERRADDR_LO, HIF_DMA_ERRADDR_HI]
  have hframe : Frame [HIF_DMA_STAT n, HIF_DMA_ERRADDR_LO n, HIF_DMA_ERRADDR_HI n] [] s
      (((s.setFld (HIF_DMA_STAT n) HIF_DMA_STAT_TRIES (s.triesAt n mv)).setFld (HIF_DMA_STAT n) HIF_DMA_STAT_CAUSE
        3).noteAddr n (a + mv)) :=
    ((Frame.refl.setFld _ _ (by simp)).setFld _ _ (by simp)).trans ((noteAddr_frame _).mono (by simp) (by simp))
  rw [State.readFailed, countBytes_rd, State.rd_setChan, hframe.1 _ hne]

theorem readFailed_chan : (s.readFailed n mv a).chan n = Chan.idle := State.chan_setChan _ n _

theorem readFailed_frame : Frame [HIF_DMA_STAT n, HIF_DMA_ERRADDR_LO n, HIF_DMA_ERRADDR_HI n, HIF_DMA_BYTES n] [.chans] s
    (s.readFailed n mv a) := by
  have hnote := (noteAddr_frame (s := (s.setFld (HIF_DMA_STAT n) HIF_DMA_STAT_TRIES (s.triesAt n mv)).setFld
    (HIF_DMA_STAT n) HIF_DMA_STAT_CAUSE 3) (n := n) (a + mv))
  exact ((((Frame.refl.setFld _ _ (by simp)).setFld _ _ (by simp)).trans (hnote.mono (by simp) (by simp))).setChan n _
    (by simp)).wr _ (by simp)

end readFailed

end fail

end Sys2Proof.Machine
end

section
/-! PROOFS. O13, assembled from what descriptors, bursts and requests do (R95-R101, R104-R107). -/

namespace Sys2Proof.Machine

open Sys2Proof

section burst

variable {n : HostCh} {k : Nat} {s : State} {d : Desc} {data : List Byte} {mv : Word} (hk : 48 + n.val = k)
  (hs : s.chanState k = 1) (hd : (s.chan k).desc = some d) (hb : (s.chan k).burst ≠ 0)
  (hw : (s.chan k).waiting = false)

include hk hs hd hb hw

/-- A local burst that is not the last, read from the host into package memory. -/
theorem gives_burstRead (hp : (s.chan k).stopping = false) (hl : d.remote = false)
    (hlt : (s.chan k).moved + (s.chan k).burst < d.len) (ht : d.toHost = false) :
    Gives (.dmaBurstDone n data) s (fun u =>
      (u.rd (HIF_DMA_BYTES k) = s.rd (HIF_DMA_BYTES k) + BitVec.ofNat 32 (s.chan k).burst
        ∧ (u.chan k).moved = (s.chan k).moved + (s.chan k).burst ∧ (u.chan k).desc = some d)
      ∧ u.mem = Memory.writes s.mem (d.offset + (s.chan k).moved) (data.take (s.chan k).burst)
      ∧ SameRegs [HIF_DMA_BYTES k, HIF_DMA_STAT k] s u ∧ SameParts [.chans] s u) := by
  subst hk
  obtain ⟨hbytes, hmoved, hdesc, -, hframe⟩ := endBurst_more_spec (s := { s with
    mem := Memory.writes s.mem (d.offset + (s.chan _).moved) (data.take (s.chan _).burst) }) hs hd hl hp hlt
  refine gives_told (congrArg (done s) (opBurstDone_fromHost hs hd hb hw hl ht)) (fun u hu => ?_)
  have hf := hu.frame hframe
  refine ⟨⟨(hu.rd _).trans hbytes, ?_, ?_⟩, hu.mem.trans endBurst_mem, fun a ha => hf.1 a ha, hf.2.2.of_mem⟩
  · rw [hu.chan]; exact hmoved
  · rw [hu.chan]; exact hdesc

/-- The same, written to the host. -/
theorem gives_burstWrite (hp : (s.chan k).stopping = false) (hl : d.remote = false)
    (hlt : (s.chan k).moved + (s.chan k).burst < d.len) (ht : d.toHost = true) :
    Gives (.dmaBurstDone n data) s (fun u =>
      (u.rd (HIF_DMA_BYTES k) = s.rd (HIF_DMA_BYTES k) + BitVec.ofNat 32 (s.chan k).burst
        ∧ (u.chan k).moved = (s.chan k).moved + (s.chan k).burst ∧ (u.chan k).desc = some d)
      ∧ .hostWrite (d.haddr + (s.chan k).moved)
          (Memory.reads s.mem (d.offset + (s.chan k).moved) (s.chan k).burst) ∈ u.out
      ∧ Frame [HIF_DMA_BYTES k, HIF_DMA_STAT k] [.chans] s u) := by
  subst hk
  obtain ⟨hbytes, hmoved, hdesc, hout, hframe⟩ := endBurst_more_spec (s := s.emit (.hostWrite
    (d.haddr + (s.chan _).moved) (Memory.reads s.mem (d.offset + (s.chan _).moved) (s.chan _).burst))) hs hd hl hp hlt
  refine gives_told (congrArg (done s) (opBurstDone_toHost hs hd hb hw hl ht)) (fun u hu => ?_)
  refine ⟨⟨(hu.rd _).trans hbytes, ?_, ?_⟩, hu.sent _ ?_, hu.frame ((Frame.refl.emit _).trans hframe)⟩
  · rw [hu.chan]; exact hmoved
  · rw [hu.chan]; exact hdesc
  · rw [hout]; exact List.mem_cons_self

/-- The last burst of a local descriptor, read from the host. -/
theorem gives_burstLast (hl : d.remote = false) (ht : d.toHost = false)
    (hm : (s.chan k).moved + (s.chan k).burst = d.len) :
    Gives (.dmaBurstDone n data) s (fun u =>
      u.mem = Memory.writes s.mem (d.offset + (s.chan k).moved) (data.take (s.chan k).burst)
      ∧ u.rd (HIF_DMA_BYTES k) = s.rd (HIF_DMA_BYTES k) + BitVec.ofNat 32 (s.chan k).burst
      ∧ .hostWrite (s.descAddr k (s.fld (HIF_DMA_CIDX k) HIF_DMA_CIDX_IDX) + 28) [0, 0, 0, 0x80] ∈ u.out
      ∧ u.fld (HIF_DMA_CIDX k) HIF_DMA_CIDX_IDX = (s.fld (HIF_DMA_CIDX k) HIF_DMA_CIDX_IDX + 1)
          % 2 ^ s.fld (HIF_DMA_RBASE_LO k) HIF_DMA_RBASE_LO_LOG2SIZE % 65536
      ∧ u.chan k = Chan.idle ∧ (d.irq = true → u.bit (HIF_DMA_STAT k) HIF_DMA_STAT_DONE = true)
      ∧ SameRegs [HIF_DMA_BYTES k, HIF_DMA_CIDX k, HIF_DMA_STAT k] s u ∧ SameParts [.chans] s u) := by
  subst hk
  have hend := endBurst_last (s := { s with
    mem := Memory.writes s.mem (d.offset + (s.chan (48 + n.val)).moved) (data.take (s.chan (48 + n.val)).burst) }) (n := 48 + n.val) hl hm
  obtain ⟨-, hstat, hcidx, hlo, -⟩ := dmaBytes_ne (48 + n.val)
  have hsent := hend.sent
  have hidx := hend.cidx
  rw [descAddr_countBytes, countBytes_fld _ _ hcidx] at hsent
  rw [countBytes_fld _ _ hcidx, countBytes_fld _ _ hlo] at hidx
  have hbytes := (hend.frame.1 (HIF_DMA_BYTES (48 + n.val)) (by simp [hcidx.symm, hstat.symm])).trans (countBytes_rd _)
  refine gives_told (congrArg (done s) (opBurstDone_fromHost hs hd hb hw hl ht)) (fun u hu => ?_)
  have hf : Frame [HIF_DMA_BYTES (48 + n.val), HIF_DMA_CIDX (48 + n.val), HIF_DMA_STAT (48 + n.val)] [.chans] _ u :=
    hu.frame (((countBytes_frame _).mono (by simp) (by simp)).trans (hend.frame.mono (by simp) (by simp)))
  exact ⟨hu.mem.trans endBurst_mem, (hu.rd _).trans hbytes, hu.sent _ hsent, (hu.fld _ _).trans hidx,
    (hu.chan _).trans hend.chan, fun hi => (hu.bit _ _).trans (hend.done hi), fun a ha => hf.1 a ha, hf.2.2.of_mem⟩

/-- Past RETRY the channel halts with BUS_ERROR at the address where the transfer stands. -/
theorem answers_burstHalt (ht : d.toHost = false) (h : s.fld (HIF_DMA_CTRL k) HIF_DMA_CTRL_RETRY ≤ (s.chan k).tries) :
    ∃ t, Answers (.dmaBurstFail ⟨k, by omega⟩ mv) s (t.raise 325)
      ∧ t.chanState k = 2 ∧ t.fld (HIF_DMA_STAT k) HIF_DMA_STAT_CAUSE = 3
      ∧ t.rd (HIF_DMA_ERRADDR_LO k) = BitVec.ofNat 32 (d.haddr + (s.chan k).moved)
      ∧ t.rd (HIF_DMA_ERRADDR_HI k) = BitVec.ofNat 32 ((d.haddr + (s.chan k).moved) / 2 ^ 32)
      ∧ Frame [HIF_DMA_STAT k, HIF_DMA_ERRADDR_LO k, HIF_DMA_ERRADDR_HI k] [.blk] s t := by
  have h48 : 48 ≤ k := by omega
  let r := s.setFld (HIF_DMA_STAT k) HIF_DMA_STAT_TRIES (s.chan k).tries
  have hu := haltChannel_told (s := r) hd 3
  obtain ⟨-, -, -, -, -, -, hlo, hhi, -⟩ := dmaBytes_ne k
  refine ⟨r.haltChannel k 3, congrArg (done s) (opBurstFail_halt h48 hs hd hb hw ht h),
    (hu.fld _ _).trans (haltedAt_chanState _ _), (hu.fld _ _).trans (haltedAt_cause _ (by decide)),
    (hu.rd _).trans ((haltedAt_rd hlo).trans (noteAddr_lo _)),
    (hu.rd _).trans ((haltedAt_rd hhi).trans (noteAddr_hi _)), ?_⟩
  exact (Frame.refl.setFld _ _ (by simp)).trans (hu.frame (haltedAt_frame _ _))

end burst

/-- A request reaches every host channel that selects its line. -/
theorem gives_requests {line : BitVec 7} {s : State} (h1 : 1 ≤ line.toNat) (h2 : line.toNat ≤ 18)
    (hd : ∀ c : HostCh, s.reqsel (48 + c.val) = line.toNat → (s.chan (48 + c.val)).desc = none) :
    Gives (.dmaRequest line) s (fun u => (∀ c : HostCh, Requested line.toNat (48 + c.val) s u)
      ∧ OnlyRegs ((List.range 16).map (fun c => HIF_DMA_STAT (48 + c))) s u) := by
  have hmem : ∀ m, m ∈ (List.range 16).map (48 + ·) → ∃ c : HostCh, 48 + c.val = m := by
    intro m hm
    obtain ⟨c, hc, rfl⟩ := List.mem_map.1 hm
    exact ⟨⟨c, List.mem_range.1 hc⟩, rfl⟩
  obtain ⟨hreq, hframe⟩ := requests_spec (s := s) (l := (List.range 16).map (48 + ·)) h1 h2 (by decide) (fun m hm => by
    obtain ⟨c, rfl⟩ := hmem m hm
    exact hd c)
  rw [List.map_map] at hframe
  refine gives_told (t := s.each ((List.range 16).map (48 + ·)) (State.requested line.toNat)) rfl
    (fun u hu => ⟨fun c => ?_, hu.frame hframe⟩)
  exact (hreq _ (List.mem_map.2 ⟨c.val, List.mem_range.2 c.isLt, rfl⟩)).congr rfl rfl (hu.rd _)

/-- Settles O13: each event is one equation of the model, and what it leaves is read from the lemma about its last
operation. -/
theorem dmaTransfers : Obligations.DmaTransfers := by
  refine ⟨?_, ?_, ?_, ?_⟩
  · intro n s k x stat i next a
    refine ⟨?_, ?_, ?_, ?_, ?_, ?_⟩
    · intro e hs hd hq d
      refine ⟨?_, ?_, ?_, ?_⟩
      · exact fun h => congrArg (done s) (opDescFetch_misaligned hs hd hq h)
      · exact fun h hr => congrArg (done s) (opDescFetch_beyond hs hd hq h hr)
      · intro h hr hl hsel
        refine gives_told (congrArg (done s) (opDescFetch_unpaced hs hd hq h hr hl hsel)) (fun u hu => ?_)
        exact ⟨(hu.chan k).trans (State.chan_setChan _ k _),
          hu.frame ((Frame.refl.setChan k _ (by simp)).setChan k _ (by simp))⟩
      · intro h hr hl hsel hp
        refine gives_told (congrArg (done s) (opDescFetch_paced hs hd hq h hr hl hsel hp)) (fun u hu => ?_)
        exact ⟨(hu.chan k).trans (State.chan_setChan _ k _), hu.frame (Frame.refl.setChan k _ (by simp))⟩
    · exact fun e h => gives_nothing (congrArg (done s) (opDescFetch_nothing h))
    · exact fun d data hs hd hb hw hp hl hlt =>
        ⟨gives_burstRead rfl hs hd hb hw hp hl hlt, gives_burstWrite rfl hs hd hb hw hp hl hlt⟩
    · exact fun d data hs hd hb hw hl ht hm => gives_burstLast rfl hs hd hb hw hl ht hm
    · intro d mv hs hd hb hw
      have hk : 48 ≤ k := Nat.le_add_right 48 n.val
      exact ⟨fun ht => gives_nothing (congrArg (done s) (opBurstFail_toHost hk hd ht)),
        fun ht h => congrArg (done s) (opBurstFail_retry hk hs hd hb hw ht h), answers_burstHalt rfl hs hd hb hw⟩
    · refine gives_told (t := s.setChan k { x with waiting := false }) rfl (fun u hu => ⟨?_, fun m hm => ?_, ?_⟩)
      · exact (hu.chan k).trans (State.chan_setChan _ k _)
      · exact (hu.chan m).trans (State.chan_setChan_other _ _ hm)
      · exact hu.frame (Frame.refl.setChan k _ (by simp))
  · exact fun line s h => gives_nothing (congrArg (done s) (State.each_fixed (fun n _ => requested_off h n)))
  · intro line s h1 h2 hd
    obtain ⟨u, hu, hreq, hframe⟩ := gives_requests h1 h2 hd
    exact ⟨u, hu, fun c hc => ⟨(hreq c).counted hc, (hreq c).lost hc⟩, fun c => (hreq c).other, hframe⟩
  · intro c mv s n x tries
    have hop : opBurstFail c.val mv.toNat s = opCommandBurstFail c.val mv.toNat s := opBurstFail_command c.isLt
    refine ⟨fun h => gives_nothing (congrArg (done s) (hop.trans (opCommandBurstFail_nothing h))), fun a ha hw => ⟨?_, ?_⟩⟩
    · exact fun h => congrArg (done s) (hop.trans (opCommandBurstFail_retry ha hw h))
    · intro h hsvc
      refine ⟨s.readFailed c.val mv.toNat a, congrArg (done s) (hop.trans (opCommandBurstFail_ends ha hw h hsvc)),
        readFailed_cause _ _, readFailed_tries _ _, readFailed_chan _ _, ?_, readFailed_errAddr _ _, readFailed_frame _ _⟩
      rw [readFailed_bytes, BitVec.ofNat_toNat, BitVec.setWidth_eq]

end Sys2Proof.Machine
end

section
/-! PROOFS. Four statements that fail, each with a state that shows it: O14, O32, O45 and O46. -/

namespace Sys2Proof.Machine

open Sys2Proof

/-- Two states that a command can be said to answer agree in their registers. -/
theorem Answers.rd {c : Instr} {s t w : State} (h : exec c s = done s t) (hw : Answers c s w) (a : Nat) :
    w.rd a = t.rd a := by
  have heq : State.signalEdges s w = State.signalEdges s t := by
    have := hw.symm.trans h
    simpa [done] using this
  rw [← (signalEdges_signalled s w).rd a, heq, (signalEdges_signalled s t).rd a]

theorem OnlyRegs.inflight {l : List Nat} {s t : State} (h : OnlyRegs l s t) : t.hif.inflight = s.hif.inflight :=
  h.2.2 .inflight (by decide)

theorem OnlyRegs.svc {l : List Nat} {s t : State} (h : OnlyRegs l s t) : t.svc = s.svc := h.2.2 .svc (by decide)

/-! ## An uncorrectable word that puts the device in the safe state (R107, R252, R536) -/

/-- A command of tenant 0 that holds command channel 0 is in flight, and the first event on FSA_ECCUNC (167) puts the
device in the safe state. -/
def safeOnEccunc : State :=
  (State.reset.wr (HDG_SRC_CFG 167) 0x121).setHif { State.reset.hif with
    inflight := [⟨0, 0, 0, 0, 0, true, false, some 0, 0x13, ⟨none, 0⟩⟩] }

/-- That state once the word has been counted and raised. -/
def safeAfterEccunc : State := (safeOnEccunc.inc FSA_ECCUNC FSA_ECCUNC_COUNT).raise 167

/-- The entry into the safe state has ended the command and left CAUSE at ABORTED. -/
theorem safeAfterEccunc_spec : safeAfterEccunc.hif.inflight = [] ∧ safeAfterEccunc.svc.channel = none
    ∧ safeAfterEccunc.fld (HIF_DMA_STAT 0) HIF_DMA_STAT_CAUSE = 5 := by decide +kernel

theorem failChannel_idle {s : State} (ch : Nat) (st : Status) (h : s.hif.inflight = []) : s.failChannel ch st = s := by
  simp [State.failChannel, h]

theorem eccCommand_idle {s : State} (n : Nat) (h : s.hif.inflight = []) (hc : s.svc.channel = none) :
    s.eccCommand n = s := by
  simp [State.eccCommand, State.channelsBusy, h, hc]

theorem opEccunc_command {ch : Fin 64} (h : ch.val < 48) (s : State) :
    opEccunc (.dma ch) s = ((s.inc FSA_ECCUNC FSA_ECCUNC_COUNT).raise 167).eccCommand ch.val :=
  if_pos h

theorem exec_fsaEccunc_command {ch : Fin 64} (h : ch.val < 48) (s : State) :
    exec (.fsaEccunc (.dma ch)) s = done s (((s.inc FSA_ECCUNC FSA_ECCUNC_COUNT).raise 167).eccCommand ch.val) := by
  have hexec : exec (.fsaEccunc (.dma ch)) s = done s (opEccunc (.dma ch) s) := rfl
  rw [hexec, opEccunc_command h]

/-- Refutes O14: where the event on FSA_ECCUNC itself puts the device in the safe state, the command has ended before its
channel is looked at, and CAUSE stays ABORTED. -/
theorem not_packageMemoryErrors : ¬ Obligations.PackageMemoryErrors := by
  intro h
  obtain ⟨-, -, hdma, -⟩ := h safeOnEccunc
  obtain ⟨w, hw, hcause, -, hframe⟩ := (hdma 0 (by decide)).2 (by decide +kernel)
  obtain ⟨hnone, hsvc, hfive⟩ := safeAfterEccunc_spec
  have hexec := exec_fsaEccunc_command (ch := 0) (by decide) safeOnEccunc
  rw [← safeAfterEccunc, eccCommand_idle _ hnone hsvc] at hexec
  rw [← safeAfterEccunc] at hframe
  have hw0 : w.hif.inflight = [] := by rw [hframe.inflight, hnone]
  have hw1 : w.svc.channel = none := by rw [hframe.svc, hsvc]
  rw [if_neg (by simp [hw1]), failChannel_idle _ _ hw0] at hw
  have hsame : w.fld (HIF_DMA_STAT 0) HIF_DMA_STAT_CAUSE = safeAfterEccunc.fld (HIF_DMA_STAT 0) HIF_DMA_STAT_CAUSE :=
    congrArg HIF_DMA_STAT_CAUSE.get (Answers.rd hexec hw _)
  have hthree : w.fld (HIF_DMA_STAT 0) HIF_DMA_STAT_CAUSE = 3 := hcause
  omega

/-! ## A channel that an earlier transfer left waiting (R105) -/

/-- The transfer that had command channel 0 last ended while its burst waited for the reissue. -/
def staleChannel : State := State.reset.setChan 0 { Chan.idle with waiting := true }

/-- Refutes O45: taking a command that moves data clears what an earlier transfer left on its channel, which the frame of
the second clause does not allow. -/
theorem not_ringCommandsAndSimpleEffects : ¬ Obligations.RingCommandsAndSimpleEffects := by
  rintro ⟨⟨-, htaken, -⟩, -⟩
  obtain ⟨-, -, -, -, -, hframe⟩ := htaken 0 0 0x13 ⟨none, 0⟩ staleChannel
  have hcleared : (staleChannel.taken 0 0 0x13 ⟨none, 0⟩).hif.chans ≠ staleChannel.hif.chans := by decide +kernel
  exact hcleared (hframe.2.2 .chans (by decide))

/-- That channel is free, LOADIMG asks for 64 bytes and an image is staged already. -/
def staleLoad : State := (staleChannel.wr SVC_XLEN 64).wr SVC_UPD 1

theorem exec_loadimg (img : Image) (s : State) : exec (.loadimg img) s = done s (opLoadImg img s) := rfl

/-- What LOADIMG finds in host memory does not matter there. -/
def anyImage : Image := ⟨0, 0, 0, 0, 0, 0, 0, 0, 0, false, false, false, false⟩

/-- Refutes O32: LOADIMG outside IDLE takes the channel and clears what an earlier transfer left on it, which the frame
of its BUSY clause does not allow. -/
theorem not_imagesAndSlots : ¬ Obligations.ImagesAndSlots := by
  intro h
  obtain ⟨-, -, -, -, hbusy, -⟩ := h staleLoad
  obtain ⟨u, hu, -, -, hframe⟩ := hbusy anyImage 0
    ⟨by decide, .inr (by decide +kernel)⟩ (by decide +kernel)
  have hcleared : (opLoadImg anyImage staleLoad).hif.chans ≠ staleLoad.hif.chans := by decide +kernel
  have heq : u = State.signalEdges staleLoad (opLoadImg anyImage staleLoad) := by
    rw [exec_loadimg] at hu
    exact (Host.Outcome.next.inj hu).symm
  refine hcleared ?_
  rw [← (signalEdges_told staleLoad (opLoadImg anyImage staleLoad)).chans, ← heq]
  exact hframe.2.2 .chans (by decide)

/-! ## A short transfer whose turn moves while the tenants are asked (R83, R86, R618) -/

/-- Two Protected tenants. Tenant 0 has a NOP with FENCE at the head of ring 0 and a short transfer in ring 1; tenant 1
has a short transfer with FENCE in ring 0 and a NOP in ring 1. Both have a command in flight, and the channel that is
free goes to tenant 0's short transfer first. -/
def fencedShorts : State :=
  let regs : List (Nat × Word) := [(TEN_CFG 1, 1), (RING_CTRL 0 0, 1), (RING_CTRL 0 1, 1), (RING_CTRL 0 8, 1),
    (RING_BASE_LO 0 8, 6), (RING_CTRL 1 0, 1), (RING_CTRL 1 1, 1), (RING_CTRL 1 8, 1), (RING_BASE_LO 1 8, 6)]
  (State.reset.each regs (fun s r => s.wr r.1 r.2)).setHif { State.reset.hif with
    rings := [(0, { Ring.idle with fetched := [0x400] }), (1, { Ring.idle with fetched := [0x30] }),
      (16, { Ring.idle with fetched := [0x430] }), (17, { Ring.idle with fetched := [0] })]
    shortWait := [1, 16]
    inflight := [⟨0, 0, 0, 0, 0, true, false, none, 0, ⟨none, 0⟩⟩, ⟨1, 1, 0, 0, 0, true, false, none, 0, ⟨none, 0⟩⟩] }

/-- Refutes O46: tenant 0's fenced head withdraws its waiting short transfer, the free channel falls to tenant 1's
fenced one, and tenant 1, whose NOP was ready, is held too. -/
theorem not_dispatchSlot : ¬ Obligations.DispatchSlot := by
  intro h
  obtain ⟨-, -, -, hclass⟩ := h ⟨none, 0⟩ fencedShorts
  obtain ⟨x, hx, -⟩ := hclass (by decide +kernel) ⟨1, by decide +kernel, 1, by decide +kernel⟩
  have hnone : fencedShorts.arbitrate.2 = none := by decide +kernel
  rw [hnone] at hx
  cases hx

end Sys2Proof.Machine
end

section
/-! PROOFS. A command that is taken, its checks, what its completion can change, and frames of updates of one part (R82-R84,
R94, R162, R571). -/

namespace Sys2Proof.Machine

open Sys2Proof

/-! ## What an answer says -/

/-- What a command gives holds of the state it answers. -/
theorem Gives.of_done {c : Instr} {s t : State} {P : State → Prop} (h : exec c s = done s t) (g : Gives c s P) :
    P (State.signalEdges s t) := by
  obtain ⟨w, hw, hp⟩ := g
  rw [h] at hw
  cases hw
  exact hp

section told

variable {t u : State}

theorem Told.same (h : Told t u) (q : Part) : q.Same t u := h.signalled.onlyRegs.2.2 q (by simp)

theorem Told.mirror (s : State) (m : MirrorRecord) : Told s (s.mirror m) := by
  unfold State.mirror
  split
  · exact Told.emit s _
  · exact Told.refl s

theorem Told.mirrorCommand (s : State) (id : Nat) : Told s (s.mirrorCommand id) := by
  unfold State.mirrorCommand
  split
  · split
    · exact Told.mirror s _
    · exact Told.refl s
  · exact Told.refl s

end told

/-! ## Frames of updates of one part -/

section frames

variable {l : List Nat} {p : List Part} {s t : State}

theorem Frame.setTen (h : Frame l p s t) (x : Ten) (hp : .ten ∈ p) : Frame l p s { t with ten := x } :=
  h.update rfl rfl (fun q hq => by
    cases q
    case ten => exact absurd hp hq
    all_goals simp [Part.Same])

theorem Frame.setCmp (h : Frame l p s t) (x : Cmp) (hp : .cmp ∈ p) : Frame l p s { t with cmp := x } :=
  h.update rfl rfl (fun q hq => by
    cases q
    case cmp => exact absurd hp hq
    all_goals simp [Part.Same])

theorem Frame.setAud (h : Frame l p s t) (x : Aud) (hp : .aud ∈ p) : Frame l p s { t with aud := x } :=
  h.update rfl rfl (fun q hq => by
    cases q
    case aud => exact absurd hp hq
    all_goals simp [Part.Same])

theorem Frame.setSal (h : Frame l p s t) (x : Sal) (hp : .sal ∈ p) : Frame l p s { t with sal := x } :=
  h.update rfl rfl (fun q hq => by
    cases q
    case sal => exact absurd hp hq
    all_goals simp [Part.Same])

theorem Frame.setBlk (h : Frame l p s t) (x : Blk) (hp : .blk ∈ p) : Frame l p s { t with blk := x } :=
  h.update rfl rfl (fun q hq => by
    cases q
    case blk => exact absurd hp hq
    all_goals simp [Part.Same])

/-- What lies outside a frame is read through it. -/
theorem Frame.same (h : Frame l p s t) {q : Part} (hq : q ∉ p) : q.Same s t := h.2.2 q hq

theorem Frame.bit (h : Frame l p s t) {a : Nat} (f : Field) (ha : a ∉ l) : t.bit a f = s.bit a f := by
  rw [State.bit, h.fld f ha, State.bit]

end frames

/-! ## The checks of a command (R162) -/

section checked

variable {s : State} {id : Nat} {l : List (Bool × Status × Nat)} {go : State → State}

@[simp] theorem firstReject_nil : firstReject [] = none := rfl

@[simp] theorem firstReject_cons (b : Bool) (st : Status) (r : Nat) (l : List (Bool × Status × Nat)) :
    firstReject ((b, st, r) :: l) = if b then some (st, r) else firstReject l := rfl

/-- A rejected command completes with the first condition that holds, and has no other effect. -/
theorem checked_rejected {st : Status} {r : Nat} (h : firstReject l = some (st, r)) (hst : (st == .misaligned) = false) :
    s.checked id l go = s.complete id st r 0 := by
  simp [State.checked, h, hst, State.when]

theorem checked_accepted (h : firstReject l = none) : s.checked id l go = go (s.mirrorCommand id) := by
  simp [State.checked, h]

end checked

/-! ## A command that is taken (R82-R84, R94) -/

/-- `t` is `s` but for its host interface, and gives the next command the same number. -/
def Scheduled (s t : State) : Prop := ∃ h : Hif, t = s.setHif h ∧ h.nextId = s.hif.nextId

theorem Scheduled.refl (s : State) : Scheduled s s := ⟨s.hif, rfl, rfl⟩

theorem Scheduled.trans {s t u : State} (h : Scheduled s t) (g : Scheduled t u) : Scheduled s u := by
  obtain ⟨x, rfl, hx⟩ := h
  obtain ⟨y, rfl, hy⟩ := g
  exact ⟨y, rfl, hy.trans hx⟩

theorem serve_scheduled (s : State) (l : List Nat) : Scheduled s (s.serve l).1 := by
  induction l generalizing s with
  | nil => exact Scheduled.refl s
  | cons t l ih =>
    unfold State.serve
    cases s.turn t with
    | none => exact ih s
    | go r => exact Scheduled.refl s
    | hold r => exact Scheduled.trans ⟨_, rfl, rfl⟩ (ih _)

theorem queueShort_scheduled (s : State) : Scheduled s s.queueShort := by
  unfold State.queueShort
  split_ifs
  · exact Scheduled.refl s
  · exact ⟨_, rfl, rfl⟩

theorem arbitrate_scheduled (s : State) : Scheduled s s.arbitrate.1 := by
  unfold State.arbitrate
  dsimp only
  split
  · exact queueShort_scheduled s
  · exact (queueShort_scheduled s).trans (serve_scheduled _ _)

theorem offer_scheduled {s w : State} {t r : Nat} {e : Entry} (h : s.offer t r e = some w) : Scheduled s w := by
  unfold State.offer at h
  split at h
  · split_ifs at h
    cases h
    exact Scheduled.refl s
  · split_ifs at h
    cases h
    exact ⟨_, rfl, rfl⟩

theorem slot_scheduled (s : State) (t r : Nat) (e : Entry) : Scheduled s (s.slot t r e) := by
  unfold State.slot
  cases h : s.offer t r e with
  | none => exact arbitrate_scheduled s
  | some w => exact (offer_scheduled h).trans (arbitrate_scheduled w)

section taken

variable (s : State) (t r : Nat) (e : Entry) (pb : BlockRead)

/-- Taking a command moves the consumer index of its ring, and otherwise changes the host interface alone. -/
theorem taken_eq : ∃ v h, s.taken t r e pb = (s.wr (RING_DEV_IDX t r) v).setHif h := by
  obtain ⟨h, hslot, -⟩ := slot_scheduled s t r e
  unfold State.taken
  rw [hslot]
  exact ⟨_, _, rfl⟩

theorem taken_rd {a : Nat} (ha : a ≠ RING_DEV_IDX t r) : (s.taken t r e pb).rd a = s.rd a := by
  obtain ⟨v, h, heq⟩ := taken_eq s t r e pb
  rw [heq]
  exact State.rd_wr_other s v ha

theorem taken_fld {a : Nat} (f : Field) (ha : a ≠ RING_DEV_IDX t r) : (s.taken t r e pb).fld a f = s.fld a f := by
  rw [State.fld, taken_rd s t r e pb ha, State.fld]

theorem taken_bit {a : Nat} (f : Field) (ha : a ≠ RING_DEV_IDX t r) : (s.taken t r e pb).bit a f = s.bit a f := by
  rw [State.bit, taken_fld s t r e pb f ha, State.bit]

/-- Every part outside the host interface is as before. -/
theorem taken_parts : SameParts [.rings, .sched, .chans, .inflight] s (s.taken t r e pb) := by
  obtain ⟨v, h, heq⟩ := taken_eq s t r e pb
  rw [heq]
  intro q hq
  cases q
  case rings | sched | chans | inflight => simp at hq
  all_goals rfl

theorem taken_same {q : Part} (hq : q ∉ [.rings, .sched, .chans, .inflight]) : q.Same s (s.taken t r e pb) :=
  taken_parts s t r e pb q hq

variable {s t r e} {op : Nat} (h : s.Takes op t r e)

include h

/-- A command that the slot serves has its effect on the state in which it has been taken. -/
theorem commandWith_taken (body : Nat → State → State) :
    s.commandWith op t r e pb body = body s.hif.nextId (s.taken t r e pb) := by
  obtain ⟨hop, w, hw, harb⟩ := h
  have hslot : s.slot t r e = w.arbitrate.1 := by simp [State.slot, hw]
  obtain ⟨x, hx, hid⟩ := slot_scheduled s t r e
  have hnext : w.arbitrate.1.hif.nextId = s.hif.nextId := by
    rw [← hslot, hx]
    exact hid
  simp only [State.commandWith, hop, hw, harb, ne_eq, not_true_eq_false, if_false, if_true, State.dispatch, hnext,
    State.taken, hslot]

theorem command_taken (body : Nat → State → State) :
    s.command op t r e body = body s.hif.nextId (s.taken t r e ⟨none, 0⟩) := commandWith_taken _ h body

variable {c : Instr} {body : Nat → State → State} (hc : exec c s = done s (s.command op t r e body))

include hc

theorem exec_taken {u : State} (hu : body s.hif.nextId (s.taken t r e ⟨none, 0⟩) = u) : exec c s = done s u := by
  rw [hc, command_taken h, hu]

/-- The command completes with the first of its checks that fails (R162). -/
theorem answers_rejected {l : List (Bool × Status × Nat)} {go : State → State} {st : Status} {n : Nat}
    (hb : body s.hif.nextId (s.taken t r e ⟨none, 0⟩) = (s.taken t r e ⟨none, 0⟩).checked s.hif.nextId l go)
    (hl : firstReject l = some (st, n)) (hst : (st == .misaligned) = false) :
    Answers c s ((s.taken t r e ⟨none, 0⟩).complete s.hif.nextId st n 0) :=
  exec_taken h hc (hb.trans (checked_rejected hl hst))

/-- The command meets no rejection and goes on. -/
theorem exec_accepted {l : List (Bool × Status × Nat)} {go : State → State} {u : State}
    (hb : body s.hif.nextId (s.taken t r e ⟨none, 0⟩) = (s.taken t r e ⟨none, 0⟩).checked s.hif.nextId l go)
    (hl : firstReject l = none) (hu : go ((s.taken t r e ⟨none, 0⟩).mirrorCommand s.hif.nextId) = u) :
    exec c s = done s u :=
  exec_taken h hc (hb.trans ((checked_accepted hl).trans hu))

end taken

/-! ## What a completion changes (R80-R84, R94) -/

/-- What every completion leaves: all but its rings, the commands in flight and the registers of the tenant pages, with
nothing that had left the device taken back. -/
structure AfterCompletion (s t : State) : Prop where
  parts : SameParts [.rings, .inflight] s t
  rd : ∀ {a : Nat}, a < 0x100000000 → t.rd a = s.rd a
  sent : ∀ {e : Emission}, e ∈ s.out → e ∈ t.out

theorem AfterCompletion.refl (s : State) : AfterCompletion s s := ⟨SameParts.refl _ s, fun _ => rfl, fun h => h⟩

theorem AfterCompletion.trans {s t u : State} (h : AfterCompletion s t) (g : AfterCompletion t u) :
    AfterCompletion s u :=
  ⟨h.parts.trans g.parts, fun ha => (g.rd ha).trans (h.rd ha), fun he => g.sent (h.sent he)⟩

theorem Told.afterCompletion {s t : State} (h : Told s t) : AfterCompletion s t :=
  ⟨fun q _ => h.same q, fun _ => h.rd _, fun he => h.sent _ he⟩

theorem afterCompletion_setRing (s : State) (t r : Nat) (x : Ring) : AfterCompletion s (s.setRing t r x) :=
  ⟨(Frame.refl (l := []).setRing t r x (by simp)).2.2, fun _ => rfl, fun h => h⟩

theorem afterCompletion_ringWrite (s : State) (t r : Nat) (mk : Bool → RingEntry) :
    AfterCompletion s (s.ringWrite t r mk) := by
  obtain ⟨n, h⟩ := ringWrite_told s t r mk
  refine AfterCompletion.trans ⟨?_, fun ha => ?_, fun he => List.mem_cons_of_mem _ he⟩ h.afterCompletion
  · exact (entryWritten_frame s t r mk n).2.2.mono (by simp)
  · exact (entryWritten_frame s t r mk n).1 _ (by simp [RING_DEV_IDX]; omega)

theorem afterCompletion_writeCompletion (s : State) (t cq : Nat) (c : Completion) :
    AfterCompletion s (s.writeCompletion t cq c) := by
  unfold State.writeCompletion
  split_ifs
  · exact (afterCompletion_setRing ..).trans (afterCompletion_ringWrite ..)
  · exact afterCompletion_setRing ..

theorem ringWrite_inflight (s : State) (t r : Nat) (mk : Bool → RingEntry) :
    (s.ringWrite t r mk).hif.inflight = s.hif.inflight := by
  obtain ⟨n, h⟩ := ringWrite_told s t r mk
  exact ((entryWritten_frame s t r mk n).same (q := .inflight) (by simp)).trans (h.same .inflight)

theorem writeCompletion_inflight (s : State) (t cq : Nat) (c : Completion) :
    (s.writeCompletion t cq c).hif.inflight = s.hif.inflight := by
  unfold State.writeCompletion
  split_ifs
  · exact ringWrite_inflight ..
  · rfl

section complete

variable (s : State) (id : Nat) (st : Status) (r ep : Nat)

theorem afterCompletion_complete : AfterCompletion s (s.complete id st r ep) := by
  have hleave : AfterCompletion s { s with hif := { s.hif with
      inflight := s.hif.inflight.filter (fun d => d.id != id) } } :=
    ⟨fun q hq => by cases q <;> simp [Part.Same] at hq ⊢, fun _ => rfl, fun h => h⟩
  unfold State.complete
  split
  · exact AfterCompletion.refl s
  · dsimp only
    split_ifs
    · exact hleave
    · exact hleave.trans (afterCompletion_setRing ..)
    · exact hleave.trans (afterCompletion_writeCompletion ..)

/-- The command leaves flight (R94). -/
theorem complete_inflight :
    (s.complete id st r ep).hif.inflight = s.hif.inflight.filter (fun d => d.id != id) := by
  unfold State.complete
  split
  · next h => exact (List.filter_eq_self.2 (by simpa using h)).symm
  · dsimp only
    split_ifs
    · rfl
    · rfl
    · exact writeCompletion_inflight ..

theorem complete_inflightOf : (s.complete id st r ep).inflightOf id = none := by
  rw [State.inflightOf, complete_inflight]
  simp

end complete

end Sys2Proof.Machine
end

section
/-! PROOFS. A tenant's configuration register, and the intake of its commands: O47 (R58, R72, R82-R87, R112-R115). -/

namespace Sys2Proof.Machine

open Sys2Proof

/-! ## The registers of the tenant table -/

theorem blockRegs_ten {a : Nat} (h1 : 0x200000 ≤ a) (h2 : a < 0x400000) : blockRegs a = regsTEN := by
  unfold blockRegs
  simp [show ¬a < 0x100000 by omega, show ¬a < 0x200000 by omega, h2]

/-- A family that ends below the address does not hold it. -/
theorem index_none {a : Nat} {d : RegDesc} (h : a < d.base ∨ d.count1 ≤ (a - d.base) / d.stride1) :
    d.index a = none := by
  unfold RegDesc.index
  by_cases hb : a < d.base
  · exact if_pos hb
  · rw [if_neg hb]
    exact if_neg (fun hi => by omega)

/-- Element (i, j) of a family stands at its base plus i of the first strides and j of the second. -/
theorem index_some {d : RegDesc} {a i j : Nat} (ha : a = d.base + d.stride1 * i + d.stride2 * j) (h2 : 0 < d.stride2)
    (hj : d.stride2 * j < d.stride1) (hi : i < d.count1) (hc : j < d.count2) : d.index a = some (i, j) := by
  subst ha
  have hsub : d.base + d.stride1 * i + d.stride2 * j - d.base = d.stride2 * j + d.stride1 * i := by omega
  have hdiv : (d.stride2 * j + d.stride1 * i) / d.stride1 = i := by
    rw [Nat.add_mul_div_left _ _ (by omega), Nat.div_eq_of_lt hj, Nat.zero_add]
  have hmod : (d.stride2 * j + d.stride1 * i) % d.stride1 = d.stride2 * j := by
    rw [Nat.add_mul_mod_self_left, Nat.mod_eq_of_lt hj]
  simp [RegDesc.index, hsub, hdiv, hmod, h2, hi, hc, show ¬d.base + d.stride1 * i + d.stride2 * j < d.base by omega]

/-- The fields of TEN_CFGn (R112). -/
def tenCfgFields : List (Field × Access) := [(TEN_CFG_STATE, .rw), (TEN_CFG_CLASS, .rw)]

theorem openReg_tenCfg (n : Tenant) : OpenReg (TEN_CFG n) tenCfgFields := by
  have hn := n.isLt
  refine ⟨by decide, ?_⟩
  rw [findReg, blockRegs_ten (by unfold TEN_CFG; omega) (by unfold TEN_CFG; omega), regsTEN,
    findIn_cons_some (i := n) (j := 0) (index_some (by rfl) (by decide) (by decide) hn (by decide))]
  rfl

theorem openReg_tenRsv (n : Tenant) (b : Fin 5) : OpenReg (TEN_RSV n b) [(TEN_RSV_VALUE, .rw)] := by
  have hn := n.isLt
  have hb := b.isLt
  refine ⟨by decide, ?_⟩
  rw [findReg, blockRegs_ten (by unfold TEN_RSV; omega) (by unfold TEN_RSV; omega), regsTEN]
  repeat rw [findIn_cons_none (index_none (by dsimp only [TEN_RSV]; omega))]
  rw [findIn_cons_some (i := n) (j := b) (index_some (by rfl) (by decide) (by dsimp only; omega) hn hb)]
  rfl

/-! ## TEN_CFGn (R113, R114) -/

section opTenCfg

variable {n : Nat} {v : Word} {s : State}

theorem opTenCfg_system : opTenCfg 0 v s = s := rfl

theorem opTenCfg_standby (hn : n ≠ 0) (hs : s.standby = true) : opTenCfg n v s = s.tenRefuse := by
  simp [opTenCfg, hn, hs]

theorem opTenCfg_refused (hn : n ≠ 0) (hs : s.standby = false)
    (h : TEN_CFG_STATE.get v = 3 ∨ (TEN_CFG_CLASS.get v ≠ s.tenClass n ∧ s.tenState n ≠ 0)) :
    opTenCfg n v s = s.tenRefuse := by
  simp [opTenCfg, State.tenRefuse, hn, hs, h]

theorem opTenCfg_accepted (hn : n ≠ 0) (hs : s.standby = false) (h3 : TEN_CFG_STATE.get v ≠ 3)
    (hc : TEN_CFG_CLASS.get v = s.tenClass n ∨ s.tenState n = 0) :
    Told (s.fieldWrite (TEN_CFG n) v) (opTenCfg n v s) := by
  have hgood : ¬(TEN_CFG_STATE.get v = 3 ∨ (TEN_CFG_CLASS.get v ≠ s.tenClass n ∧ s.tenState n ≠ 0)) := by tauto
  simpa [opTenCfg, hn, hs, hgood] using Told.mirror (s.fieldWrite (TEN_CFG n) v) _

end opTenCfg

/-- What an accepted write of TEN_CFGn leaves. -/
theorem gives_tenCfg {n : Tenant} {v : Word} {s : State} (hb : s.pwr.barred = false) (hs : s.standby = false)
    (hn : n.val ≠ 0) (h3 : TEN_CFG_STATE.get v ≠ 3) (hc : TEN_CFG_CLASS.get v = s.tenClass n ∨ s.tenState n = 0)
    {P : State → Prop} (hP : ∀ u, u.tenState n = TEN_CFG_STATE.get v → u.tenClass n = TEN_CFG_CLASS.get v →
      OnlyRegs [TEN_CFG n] s u → P u) : Gives (.tenCfgWrite n v) s P := by
  have hreg := openReg_tenCfg n
  refine gives_told_bar hb (t := opTenCfg n v s) rfl (fun u hu => ?_)
  replace hu := (opTenCfg_accepted hn hs h3 hc).trans hu
  exact hP u ((hu.fld _ _).trans (hreg.fld s v (k := .rw) (by decide)))
    ((hu.fld _ _).trans (hreg.fld s v (k := .rw) (by decide))) (hu.frame (hreg.frame s v Frame.refl (by simp)))

/-! ## Only an enabled tenant's command is served (R83-R87, R115) -/

theorem tenOn_of_headReady {s : State} {t r : Nat} (h : s.headReady t r = true) : s.tenOn t = true := by
  unfold State.headReady State.considers at h
  cases hh : s.head t r with
  | none => simp [hh] at h
  | some e =>
    simp only [hh, State.admits, State.mayDispatch, Bool.and_eq_true] at h
    exact h.1.1.1.1.1.1

theorem headReady_of_turn {s : State} {t r : Nat} (h : s.turn t = .go r) : s.headReady t r = true := by
  unfold State.turn at h
  split at h
  · split_ifs at h with hr
    cases h
    exact hr
  · split at h
    · cases h
    · split_ifs at h with hr
      cases h
      exact hr

theorem tenOn_of_serve {s : State} {l : List Nat} {t r : Nat} (h : (s.serve l).2 = some (t, r)) : s.tenOn t = true := by
  induction l generalizing s with
  | nil => cases h
  | cons x l ih =>
    unfold State.serve at h
    cases hx : s.turn x with
    | none => exact ih (by simpa [hx] using h)
    | go k =>
      simp only [hx, Option.some.injEq, Prod.mk.injEq] at h
      obtain ⟨rfl, rfl⟩ := h
      exact tenOn_of_headReady (headReady_of_turn hx)
    | hold k => exact ih (s := s.setHif { s.hif with fences := s.hif.fences ++ [16 * x + k] }) (by simpa [hx] using h)

theorem tenOn_of_agedHead {s : State} {t r : Nat} (h : s.agedHead = some (t, r)) : s.tenOn t = true := by
  unfold State.agedHead at h
  split_ifs at h
  obtain ⟨k, hk, hkt⟩ := Option.map_eq_some_iff.1 h
  cases hkt
  have hready := List.find?_some hk
  simp only [Bool.and_eq_true] at hready
  exact tenOn_of_headReady hready.1

theorem tenOn_scheduled {s w : State} (h : Scheduled s w) (t : Nat) : w.tenOn t = s.tenOn t := by
  obtain ⟨x, rfl, -⟩ := h
  rfl

theorem tenOn_of_arbitrate {s : State} {t r : Nat} (h : s.arbitrate.2 = some (t, r)) : s.tenOn t = true := by
  rw [← tenOn_scheduled (queueShort_scheduled s)]
  unfold State.arbitrate at h
  dsimp only at h
  split at h
  · next x hx =>
    cases h
    exact tenOn_of_agedHead hx
  · exact tenOn_of_serve h

theorem not_takes_of_off {s : State} {op t r : Nat} {e : Entry} (h : s.tenOn t = false) : ¬s.Takes op t r e := by
  rintro ⟨-, w, hw, harb⟩
  have hon := tenOn_of_arbitrate harb
  rw [tenOn_scheduled (offer_scheduled hw), h] at hon
  cases hon

/-- Settles O47: the write sets TEN_CFGn alone, and both the dispatch and the fetch ask whether the tenant is enabled. -/
theorem intakeStops : Obligations.IntakeStops := by
  intro n v s hb hs hn hstate hclass
  have h3 : TEN_CFG_STATE.get v ≠ 3 := by omega
  refine gives_tenCfg hb hs hn h3 hclass (fun u hu _ hframe => ?_)
  have hoff : u.tenOn n = false := by
    rw [State.tenOn, hu, beq_eq_false_iff_ne]
    omega
  exact ⟨hu, hoff, fun _ _ _ => not_takes_of_off hoff,
    fun r es => gives_nothing (congrArg (done u) (opCommandFetch_off es (.inl hoff))), hframe⟩

end Sys2Proof.Machine
end

section
/-! PROOFS. Two statements that fail: mirrored records (O49) and routes (O50). -/

namespace Sys2Proof.Machine

open Sys2Proof

/-! ## Mirrored records (R571, R572) -/

/-- A chip in STANDBY, with nothing else set. -/
def freshStandby : State := State.reset.setFld FOV_STAT FOV_STAT_STATE 5

/-- The pulse output whose NEXT register would stand at the address of FOV_LATEMIR. -/
def strayOutput : Nat := 0x1FE0A

theorem strayOutput_next : TIM_TPO_NEXT strayOutput = FOV_LATEMIR := rfl

theorem strayOutput_latemir :
    (opMirrorRecord (.owner 7 strayOutput 0) true freshStandby).fld FOV_LATEMIR FOV_LATEMIR_COUNT = 0 := by
  decide +kernel

/-- Refutes O49: the statement bounds no index. A late owner record of the pulse output 0x1FE0A disarms it, and writes
its NEXT of 0 where the count of late records had just been taken. -/
theorem not_mirroredRecords : ¬ Obligations.MirroredRecords := by
  intro h
  obtain ⟨-, hstandby⟩ := h freshStandby .snapshotEnd
  obtain ⟨-, -, howner, -⟩ := hstandby (by decide +kernel)
  obtain ⟨-, hup, -⟩ := Gives.of_done rfl (howner 7 strayOutput 0).2
  rw [(signalEdges_told ..).fld, strayOutput_latemir] at hup
  exact absurd hup (by decide +kernel)

/-! ## Routes and switch points (R138, R178, R207) -/

/-- A route to destination 0 with FSYNC from source 0, which no other route reads: 1080p25 on one track. -/
def fsyncRoute : Entry := BitVec.ofNat 512 (1 + 2 ^ 104 + 0x305 * 2 ^ 160)

/-- Tenant 0 has that entry in ring 0 and an FSYNC unit reserved; FSA_PROMO (161) is enabled with ACTION 2 and a
reaction time of 0, so that the first promotion puts the device in the safe state. -/
def safeOnPromo : State :=
  let regs : List (Nat × Word) := [(RING_BASE_LO 0 0, 8), (RING_CTRL 0 0, 1), (RING_HOST_IDX 0 0, 1),
    (RING_BASE_LO 0 8, 8), (RING_CTRL 0 8, 1), (TEN_RSV 0 0, 1), (HDG_RTIME 0, 0), (HDG_SRC_CFG 161, 0x21)]
  State.reset.each regs (fun s r => s.wr r.1 r.2)

theorem safeOnPromo_takes : safeOnPromo.Takes 0x01 0 0 fsyncRoute := by
  dsimp only [State.Takes]
  decide +kernel

theorem fsyncRoute_leaves_noSync :
    (safeOnPromo.command 0x01 0 0 fsyncRoute (routeBody 0 fsyncRoute)).sync? (routeReq fsyncRoute).src = none := by
  decide +kernel

/-- Refutes O50: a ROUTE that meets no rejection and asks for a synchroniser raises FSA_PROMO, whose source may put the
device in the safe state; the pending change is then dropped, and with it the synchroniser that no route reads yet. -/
theorem not_routesAndSwitchPoints : ¬ Obligations.RoutesAndSwitchPoints := by
  rintro ⟨hroute, -⟩
  obtain ⟨-, -, -, -, himmediate, -⟩ := hroute 0 0 fsyncRoute safeOnPromo safeOnPromo_takes
  obtain ⟨-, hsync⟩ := himmediate (by decide +kernel) (by decide +kernel) (by decide +kernel) (by decide +kernel)
    (by decide +kernel) (by decide +kernel)
  obtain ⟨-, -, ⟨x, hx, -⟩, -⟩ :=
    Gives.of_done rfl (hsync ⟨1, 3, true⟩ (by decide +kernel) (by decide +kernel) (by decide +kernel))
  rw [State.sync?, (signalEdges_told ..).same .fsa, ← State.sync?] at hx
  exact absurd (fsyncRoute_leaves_noSync.symm.trans hx) (by simp)

end Sys2Proof.Machine
end

section
/-! PROOFS. The tenant table, grants, revokes and reservations: O48 (R113, R114, R119-R126, R574). -/

namespace Sys2Proof.Machine

open Sys2Proof

/-! ## Folds over the state, and bits of a register -/

/-- A relation that every step keeps holds across all of them. -/
theorem State.each_rel {α : Type} {R : State → State → Prop} {f : State → α → State} (hrefl : ∀ u, R u u)
    (htrans : ∀ u v w, R u v → R v w → R u w) (hf : ∀ u x, R u (f u x)) (s : State) (l : List α) : R s (s.each l f) := by
  induction l generalizing s with
  | nil => exact hrefl s
  | cons x l ih => exact htrans _ _ _ (hf s x) (ih _)

theorem State.bit_setFld_apart (s : State) (a : Nat) {f g : Field} (n : Nat) (h : f.lo + f.width ≤ 32)
    (hg : f.lo + f.width ≤ g.lo ∨ g.lo + g.width ≤ f.lo) : (s.setFld a f n).bit a g = s.bit a g := by
  rw [State.bit, State.fld_setFld_apart _ _ _ _ _ h hg, State.bit]

theorem firstSome_append {α β : Type} (f : α → Option β) (l m : List α) :
    firstSome f (l ++ m) = (firstSome f l).or (firstSome f m) := by
  induction l with
  | nil => rfl
  | cons x l ih =>
    simp only [List.cons_append, firstSome]
    cases f x with
    | none => exact ih
    | some y => rfl

theorem firstSome_none {α β : Type} {f : α → Option β} {l : List α} (h : ∀ x ∈ l, f x = none) : firstSome f l = none := by
  induction l with
  | nil => rfl
  | cons x l ih => simp [firstSome, h x, ih (fun y hy => h y (by simp [hy]))]

/-- The first index of a range at which the function answers. -/
theorem firstSome_range {β : Type} {f : Nat → Option β} {n k : Nat} {y : β} (hk : k < n) (hlow : ∀ j < k, f j = none)
    (hy : f k = some y) : firstSome f (List.range n) = some y := by
  obtain ⟨d, rfl⟩ := Nat.exists_eq_add_of_le hk
  rw [List.range_add, firstSome_append, List.range_succ, firstSome_append,
    firstSome_none (fun j hj => hlow j (List.mem_range.1 hj))]
  simp [firstSome, hy]

/-! ## Refusals and reservations (R126, R574) -/

section refused

variable {c : Instr} {s : State} (hb : s.pwr.barred = false)

include hb

/-- A refused write sets its bit of TEN_ERR alone. -/
theorem gives_tenErr {f : Field} (hc : exec c s = doneBar s (s.setBit TEN_ERR f true)) (hf : f.lo + f.width ≤ 32)
    (hw : 0 < f.width) : Gives c s (fun u => u.bit TEN_ERR f = true ∧ OnlyRegs [TEN_ERR] s u) :=
  gives_told_bar hb hc (fun _ hu =>
    ⟨(hu.bit _ _).trans (State.bit_setBit _ _ _ _ hf hw), hu.frame (Frame.refl.setBit _ _ (by simp))⟩)

end refused

section opReservation

variable {n b : Nat} {v : Word} {s : State}

theorem opReservation_standby (hs : s.standby = true) : opReservation n b v s = s.tenRefuse := by
  simp [opReservation, hs]

theorem opReservation_refused (hs : s.standby = false)
    (h : TEN_RSV_VALUE.get v < s.use n b
      ∨ (s.rsv n b < TEN_RSV_VALUE.get v ∧ s.cap b < s.rsvSum b - s.rsv n b + TEN_RSV_VALUE.get v)) :
    opReservation n b v s = s.setBit TEN_ERR TEN_ERR_RSVREJ true := by
  simp only [opReservation, hs, Bool.false_eq_true, if_false]
  refine if_pos ?_
  rcases h with h | ⟨h1, h2⟩
  · simp [h]
  · simp [h1, h2]

theorem opReservation_accepted (hs : s.standby = false) (huse : s.use n b ≤ TEN_RSV_VALUE.get v)
    (h : TEN_RSV_VALUE.get v ≤ s.rsv n b ∨ s.rsvSum b - s.rsv n b + TEN_RSV_VALUE.get v ≤ s.cap b) :
    Told (s.fieldWrite (TEN_RSV n b) v) (opReservation n b v s) := by
  have hfit : ¬(s.rsv n b < TEN_RSV_VALUE.get v ∧ s.cap b < s.rsvSum b - s.rsv n b + TEN_RSV_VALUE.get v) := by omega
  have huse' : ¬TEN_RSV_VALUE.get v < s.use n b := by omega
  simp only [opReservation, hs, Bool.false_eq_true, if_false, ← Bool.decide_and, ← Bool.decide_or, decide_eq_true_eq]
  rw [if_neg (by tauto)]
  exact Told.mirror _ _

end opReservation

theorem gives_reservation {n : Tenant} {b : Fin 5} {v : Word} {s : State} (hb : s.pwr.barred = false)
    (hs : s.standby = false) (huse : s.use n b ≤ TEN_RSV_VALUE.get v)
    (h : TEN_RSV_VALUE.get v ≤ s.rsv n b ∨ s.rsvSum b - s.rsv n b + TEN_RSV_VALUE.get v ≤ s.cap b) :
    Gives (.reservationWrite n b v) s (fun u => u.rsv n b = TEN_RSV_VALUE.get v ∧ OnlyRegs [TEN_RSV n b] s u) := by
  have hreg := openReg_tenRsv n b
  refine gives_told_bar hb (t := opReservation n b v s) rfl (fun u hu => ?_)
  replace hu := (opReservation_accepted hs huse h).trans hu
  exact ⟨(hu.fld _ _).trans (hreg.fld s v (k := .rw) (by decide)), hu.frame (hreg.frame s v Frame.refl (by simp))⟩

/-! ## A grant or a revoke starts, or is an overrun (R119) -/

/-- TEN_GRANT_CMD as GO leaves it. -/
def State.grantAsked (s : State) (revoke : Bool) (kind tenant : Nat) : State :=
  ((s.setFld TEN_GRANT_CMD TEN_GRANT_CMD_KIND kind).setBit TEN_GRANT_CMD TEN_GRANT_CMD_OP revoke).setFld TEN_GRANT_CMD
    TEN_GRANT_CMD_TENANT tenant

section opObjGrant

variable {s : State} (revoke : Bool) (kind tenant : Nat)

theorem grantAsked_frame {l : List Nat} {p : List Part} (h : TEN_GRANT_CMD ∈ l) :
    Frame l p s (s.grantAsked revoke kind tenant) :=
  ((Frame.refl.setFld _ _ h).setBit _ _ h).setFld _ _ h

/-- TEN_GRANT_CMD and TEN_GRANT_STAT once the operation has started. -/
def State.grantNoted (s : State) (revoke : Bool) (kind tenant : Nat) : State :=
  ((s.grantAsked revoke kind tenant).setBit TEN_GRANT_STAT TEN_GRANT_STAT_BUSY true).setBit TEN_GRANT_STAT
    TEN_GRANT_STAT_OVR false

/-- The operation on the range in TEN_GRANT_OBJ. -/
def State.grantOp (s : State) (revoke : Bool) (kind tenant : Nat) : GrantOp :=
  ⟨revoke, kind, tenant, s.fld TEN_GRANT_OBJ TEN_GRANT_OBJ_FIRST, s.fld TEN_GRANT_OBJ TEN_GRANT_OBJ_COUNT⟩

theorem grantNoted_frame (s : State) (revoke : Bool) (kind tenant : Nat) :
    OnlyRegs [TEN_GRANT_CMD, TEN_GRANT_STAT] s (s.grantNoted revoke kind tenant) :=
  ((grantAsked_frame _ _ _ (by simp)).setBit _ _ (by simp)).setBit _ _ (by simp)

theorem opObjGrant_standby (hs : s.standby = true) : opObjGrant revoke kind tenant s = s.tenRefuse := by
  simp [opObjGrant, hs]

theorem opObjGrant_free (hs : s.standby = false) (hg : s.ten.grant = none) :
    opObjGrant revoke kind tenant s =
      { s.grantNoted revoke kind tenant with ten := { s.ten with grant := some (s.grantOp revoke kind tenant) } } := by
  have hasked := grantAsked_frame (s := s) (p := []) revoke kind tenant (List.mem_singleton_self TEN_GRANT_CMD)
  have hten : (s.grantAsked revoke kind tenant).ten = s.ten := hasked.same (q := .ten) (by simp)
  have hnoted := grantNoted_frame s revoke kind tenant
  have hop : (s.grantNoted revoke kind tenant).grantOp revoke kind tenant = s.grantOp revoke kind tenant := by
    rw [State.grantOp, hnoted.fld _ (by decide), hnoted.fld _ (by decide), State.grantOp]
  rw [← hop]
  unfold opObjGrant
  rw [if_neg (by simp [hs])]
  change (match (s.grantAsked revoke kind tenant).ten.grant with | some _ => _ | none => _) = _
  rw [hten, hg]
  rfl

theorem opObjGrant_busy (hs : s.standby = false) (hg : s.ten.grant ≠ none) :
    opObjGrant revoke kind tenant s = ((s.grantAsked revoke kind tenant).setBit TEN_GRANT_STAT TEN_GRANT_STAT_OVR
      true).setFld TEN_GRANT_STAT TEN_GRANT_STAT_RESULT 4 := by
  have hten : (s.grantAsked revoke kind tenant).ten = s.ten :=
    (grantAsked_frame (p := []) revoke kind tenant (List.mem_singleton_self _)).same (q := .ten) (by simp)
  obtain ⟨g, hg⟩ := Option.ne_none_iff_exists'.1 hg
  unfold opObjGrant
  rw [if_neg (by simp [hs])]
  change (match (s.grantAsked revoke kind tenant).ten.grant with | some _ => _ | none => _) = _
  rw [hten, hg]
  rfl

variable {revoke kind tenant} {c : Instr} (hb : s.pwr.barred = false) (hs : s.standby = false)
  (hc : exec c s = doneBar s (opObjGrant revoke kind tenant s))

include hb hs hc

theorem gives_grantStarts (hg : s.ten.grant = none) : Gives c s (fun u =>
    u.ten.grant = some ⟨revoke, kind, tenant, s.fld TEN_GRANT_OBJ TEN_GRANT_OBJ_FIRST,
        s.fld TEN_GRANT_OBJ TEN_GRANT_OBJ_COUNT⟩
      ∧ u.bit TEN_GRANT_STAT TEN_GRANT_STAT_BUSY = true ∧ u.bit TEN_GRANT_STAT TEN_GRANT_STAT_OVR = false
      ∧ u.ten.owner = s.ten.owner ∧ u.ten.allocs = s.ten.allocs ∧ Frame [TEN_GRANT_CMD, TEN_GRANT_STAT] [.ten] s u) := by
  rw [opObjGrant_free _ _ _ hs hg] at hc
  refine gives_told_bar hb hc (fun u hu => ?_)
  have hten : u.ten = { s.ten with grant := some (s.grantOp revoke kind tenant) } := hu.same .ten
  refine ⟨congrArg Ten.grant hten, (hu.bit _ _).trans ?_, (hu.bit _ _).trans ?_, by rw [hten],
    by rw [hten], hu.frame (Frame.setTen ((grantNoted_frame ..).mono (by simp) (by simp)) _ (by simp))⟩
  · change (s.grantNoted revoke kind tenant).bit _ _ = _
    exact (State.bit_setFld_apart _ _ _ (by decide) (.inr (by decide))).trans
      (State.bit_setBit _ _ _ _ (by decide) (by decide))
  · change (s.grantNoted revoke kind tenant).bit _ _ = _
    exact State.bit_setBit _ _ _ _ (by decide) (by decide)

theorem gives_grantOverruns (hg : s.ten.grant ≠ none) : Gives c s (fun u =>
    u.bit TEN_GRANT_STAT TEN_GRANT_STAT_OVR = true ∧ u.fld TEN_GRANT_STAT TEN_GRANT_STAT_RESULT = 4
      ∧ OnlyRegs [TEN_GRANT_CMD, TEN_GRANT_STAT] s u) := by
  rw [opObjGrant_busy _ _ _ hs hg] at hc
  refine gives_told_bar hb hc (fun u hu => ⟨(hu.bit _ _).trans ?_, (hu.fld _ _).trans ?_, hu.frame ?_⟩)
  · exact (State.bit_setFld_apart _ _ _ (by decide) (.inr (by decide))).trans (State.bit_setBit _ _ _ _ (by decide) (by decide))
  · exact State.fld_setFld _ _ _ _ (by decide)
  · exact ((grantAsked_frame _ _ _ (by simp)).setBit _ _ (by simp)).setFld _ _ (by simp)

end opObjGrant

/-! ## What a stopped pulse output changes (R463) -/

theorem setTpo_frame (s : State) (k : Nat) (x : TpoState) :
    Frame [TIM_TPO_STAT k, TIM_TPO_NEXT k, TIM_TPO_LEFT k] [.tim] s (s.setTpo k x) := by
  have hwatch : Frame [TIM_TPO_STAT k, TIM_TPO_NEXT k, TIM_TPO_LEFT k] [.tim] s
      (s.watchTpo k (fun s => { s with tim := { s.tim with tpos := Tbl.put s.tim.tpos k x } })) := by
    have hset : Frame [TIM_TPO_STAT k, TIM_TPO_NEXT k, TIM_TPO_LEFT k] [.tim] s { s with tim := { s.tim with tpos := Tbl.put s.tim.tpos k x } } :=
      Frame.refl.update rfl rfl (fun q hq => by
        cases q
        case tim => simp at hq
        all_goals simp [Part.Same])
    exact hset.when _ (Frame.refl.emit _)
  unfold State.setTpo
  dsimp only
  split
  · exact ((hwatch.wr _ (by simp)).wr _ (by simp)).wr _ (by simp)
  · exact ((((hwatch.setBit _ _ (by simp)).setBit _ _ (by simp)).setFld _ _ (by simp)).setFld _ _ (by simp)).setFld _ _
      (by simp)

theorem abortArming_parts (s : State) (a : Option Arming) : SameParts [.rings, .inflight] s (s.abortArming a) := by
  unfold State.abortArming
  split
  · split
    · exact (afterCompletion_complete _ _ _ _ _).parts
    · exact SameParts.refl _ _
  · exact SameParts.refl _ _

theorem disarm_parts (s : State) (k : Nat) : SameParts [.rings, .inflight, .tim] s (s.disarm k) := by
  have habort : ∀ a, SameParts [.rings, .inflight, .tim] s (s.abortArming a) :=
    fun a => (abortArming_parts s a).mono (by simp)
  unfold State.disarm State.rearm
  dsimp only
  split
  · exact (habort _).trans ((setTpo_frame _ _ _).2.2.mono (by simp))
  · refine SameParts.trans ?_ ((setTpo_frame _ _ _).2.2.mono (by simp))
    split
    · exact habort _
    · exact SameParts.refl _ _

/-! ## The objects of a range change owner (R120, R123) -/

/-- The tenant that a grant or a revoke gives its objects to. -/
def GrantOp.dest (g : GrantOp) : Nat := if g.revoke then 0 else g.tenant

/-- One object of the range changes owner; a pulse output that is revoked stops. -/
def State.moveObject (g : GrantOp) (s : State) (i : Nat) : State :=
  let t := (s.setOwner g.kind (g.first + i) g.dest).mirror
    (.owner (BitVec.ofNat 4 g.kind) (g.first + i) ⟨g.dest % 1024, Nat.mod_lt _ (by decide)⟩)
  if g.revoke ∧ g.kind = 7 then t.disarm (g.first + i) else t

theorem moveObjects_eq (s : State) (g : GrantOp) : s.moveObjects g =
    if g.revoke then (s.each (List.range g.count) (State.moveObject g)).moveCharges g.kind g.first g.count
    else s.each (List.range g.count) (State.moveObject g) := rfl

/-- What moving objects keeps: the charges and the operation, and every part but the tenants, the pulse outputs and what
their completions change. -/
def OwnersMoved (s t : State) : Prop :=
  SameParts [.rings, .inflight, .tim, .ten] s t ∧ t.ten.allocs = s.ten.allocs ∧ t.ten.grant = s.ten.grant

theorem OwnersMoved.refl (s : State) : OwnersMoved s s := ⟨SameParts.refl _ s, rfl, rfl⟩

theorem OwnersMoved.trans {s t u : State} (h : OwnersMoved s t) (g : OwnersMoved t u) : OwnersMoved s u :=
  ⟨h.1.trans g.1, g.2.1.trans h.2.1, g.2.2.trans h.2.2⟩

section moveObject

variable (g : GrantOp) (s : State)

/-- After the owner has changed, moving the object changes no more of the tenant table. -/
theorem moveObject_setOwner (i : Nat) :
    SameParts [.rings, .inflight, .tim] (s.setOwner g.kind (g.first + i) g.dest) (s.moveObject g i) := by
  have hmirror : SameParts [.rings, .inflight, .tim] (s.setOwner g.kind (g.first + i) g.dest) _ :=
    fun q _ => (Told.mirror (s.setOwner g.kind (g.first + i) g.dest)
      (.owner (BitVec.ofNat 4 g.kind) (g.first + i) ⟨g.dest % 1024, Nat.mod_lt _ (by decide)⟩)).same q
  unfold State.moveObject
  dsimp only
  split_ifs
  · exact hmirror.trans (disarm_parts _ _)
  · exact hmirror

theorem moveObject_moved (i : Nat) : OwnersMoved s (s.moveObject g i) := by
  have hown := moveObject_setOwner g s i
  have hten := hown .ten (by simp)
  refine ⟨SameParts.trans (fun q hq => ?_) (hown.mono (by simp)), by rw [hten]; rfl, by rw [hten]; rfl⟩
  cases q
  case ten => simp at hq
  all_goals simp [Part.Same, State.setOwner]

theorem ownerOf_moveObject {i k j : Nat} (hi : g.first + i < 65536) (hj : j < 65536) :
    (s.moveObject g i).ownerOf k j = if k = g.kind ∧ j = g.first + i then g.dest else s.ownerOf k j := by
  have hten := moveObject_setOwner g s i .ten (by simp)
  rw [State.ownerOf, hten]
  split_ifs with h
  · rw [h.1, h.2]
    exact Tbl.getD_putD_same ..
  · exact Tbl.getD_putD_other _ _ _ _ (by omega)

theorem each_moveObject_moved (l : List Nat) : OwnersMoved s (s.each l (State.moveObject g)) :=
  State.each_rel OwnersMoved.refl (fun _ _ _ => OwnersMoved.trans) (moveObject_moved g) s l

theorem ownerOf_each_moveObject {m k j : Nat} (hm : g.first + m ≤ 65536) (hj : j < 65536) :
    (s.each (List.range m) (State.moveObject g)).ownerOf k j =
      if k = g.kind ∧ g.first ≤ j ∧ j < g.first + m then g.dest else s.ownerOf k j := by
  induction m with
  | zero => exact (if_neg (by omega)).symm
  | succ m ih =>
    rw [State.each, List.range_succ, List.foldl_append]
    refine (ownerOf_moveObject g _ (by omega) hj).trans ?_
    rw [← State.each, ih (by omega)]
    split_ifs <;> omega

theorem moveObject_frame (h : g.revoke = false ∨ g.kind ≠ 7) (i : Nat) : Frame [] [.ten] s (s.moveObject g i) := by
  have hstays : ¬(g.revoke = true ∧ g.kind = 7) := by rintro ⟨hr, hk⟩; simp [hr, hk] at h
  unfold State.moveObject
  dsimp only
  rw [if_neg hstays]
  exact (Told.mirror _ _).frame (Frame.refl.setTen _ (by simp))

end moveObject

/-- Whether an allocation is charged on a range rests on the routes, the pending changes and the salvos. -/
theorem chargedOn_congr {s t : State} (hx : t.xpt = s.xpt) (hs : t.sal = s.sal) (kind first count : Nat) (h : Holding) :
    t.chargedOn kind first count h = s.chargedOn kind first count h := by
  unfold State.chargedOn State.planWidth State.routedWidth State.stagedChange
  rw [hx, hs]

/-- Charges that change owner keep every budget's total. -/
theorem totalUse_moveCharges (s : State) (kind first count code : Nat) :
    (s.moveCharges kind first count).totalUse code = s.totalUse code := by
  have hcharge : ∀ a : Alloc,
      (if s.chargedOn kind first count a.holding then { a with owner := 0 } else a).charge = a.charge :=
    fun a => by split_ifs <;> rfl
  simp [State.totalUse, State.chargeSum, State.moveCharges, State.setAllocs, List.foldl_map, hcharge]

theorem totalUse_of_allocs {s t : State} (h : t.ten.allocs = s.ten.allocs) (code : Nat) :
    t.totalUse code = s.totalUse code := by simp [State.totalUse, State.chargeSum, h]

section moveObjects

variable (s : State) (g : GrantOp)

theorem ownerOf_moveObjects {k j : Nat} (hm : g.first + g.count ≤ 65536) (hj : j < 65536) :
    (s.moveObjects g).ownerOf k j =
      if k = g.kind ∧ g.first ≤ j ∧ j < g.first + g.count then g.dest else s.ownerOf k j := by
  rw [← ownerOf_each_moveObject g s hm hj, moveObjects_eq]
  split_ifs <;> rfl

theorem allocs_moveObjects_grant (h : g.revoke = false) : (s.moveObjects g).ten.allocs = s.ten.allocs := by
  rw [moveObjects_eq, h]
  exact (each_moveObject_moved g s _).2.1

theorem allocs_moveObjects_revoke (h : g.revoke = true) : (s.moveObjects g).ten.allocs =
    s.ten.allocs.map (fun a => if s.chargedOn g.kind g.first g.count a.holding then { a with owner := 0 } else a) := by
  obtain ⟨hparts, hallocs, -⟩ := each_moveObject_moved g s (List.range g.count)
  rw [moveObjects_eq, h, if_pos rfl, State.moveCharges, State.setAllocs, hallocs]
  simp only [chargedOn_congr (hparts .xpt (by simp)) (hparts .sal (by simp))]

theorem totalUse_moveObjects (code : Nat) : (s.moveObjects g).totalUse code = s.totalUse code := by
  have hmoved := totalUse_of_allocs (each_moveObject_moved g s (List.range g.count)).2.1 code
  rw [moveObjects_eq]
  split_ifs
  · exact (totalUse_moveCharges ..).trans hmoved
  · exact hmoved

theorem grant_moveObjects : (s.moveObjects g).ten.grant = s.ten.grant := by
  rw [moveObjects_eq, ← (each_moveObject_moved g s (List.range g.count)).2.2]
  split_ifs <;> rfl

theorem moveObjects_frame (h : g.revoke = false ∨ g.kind ≠ 7) : Frame [] [.ten] s (s.moveObjects g) := by
  have heach : Frame [] [.ten] s (s.each (List.range g.count) (State.moveObject g)) :=
    Frame.refl.each _ (fun u i _ => moveObject_frame g u h i)
  rw [moveObjects_eq]
  split_ifs
  · exact heach.setTen _ (by simp)
  · exact heach

end moveObjects

/-! ## The outcome of a grant or a revoke (R119-R122) -/

/-- A grant names objects of a kind, at least one, within the kind, and a tenant other than TN0. -/
def GrantOp.InRange (g : GrantOp) : Prop := g.count ≠ 0 ∧ g.first + g.count ≤ kindSize g.kind ∧ g.tenant ≠ 0

/-- The tenant that every object must belong to. -/
def GrantOp.source (g : GrantOp) : Nat := if g.revoke then g.tenant else 0

theorem kindSize_le (k : Nat) : kindSize k ≤ 65536 := by
  unfold kindSize
  split_ifs <;> decide

section outcome

variable {s : State} {g : GrantOp}

theorem grantOutcome_bad (h : ¬g.InRange) : s.grantOutcome g = (1, g.first) :=
  if_pos (by unfold GrantOp.InRange at h; omega)

/-- What object `i` of the range answers. -/
def State.grantFault (s : State) (g : GrantOp) (i : Nat) : Option (Nat × Nat) :=
  if s.ownerOf g.kind (g.first + i) ≠ g.source then some (2, g.first + i)
  else if s.objectHeld g.kind (g.first + i) then some (3, g.first + i) else none

theorem grantOutcome_good (h : g.InRange) :
    s.grantOutcome g = (firstSome (s.grantFault g) (List.range g.count)).getD (0, 0) := by
  obtain ⟨hc, hr, ht⟩ := h
  refine (if_neg (by omega)).trans ?_
  change (match firstSome (s.grantFault g) (List.range g.count) with | some x => x | none => (0, 0)) = _
  cases firstSome (s.grantFault g) (List.range g.count) <;> rfl

/-- The object belongs to the source of the move and nothing holds it. -/
def State.movable (s : State) (g : GrantOp) (i : Nat) : Prop :=
  s.ownerOf g.kind i = g.source ∧ s.objectHeld g.kind i = false

theorem grantFault_none {i : Nat} (h : s.movable g (g.first + i)) : s.grantFault g i = none := by
  simp [State.grantFault, h.1, h.2]

theorem grantFault_foreign {i : Nat} (hi : g.first ≤ i) (h : s.ownerOf g.kind i ≠ g.source) :
    s.grantFault g (i - g.first) = some (2, i) := by
  rw [State.grantFault, Nat.add_sub_cancel' hi, if_pos h]

theorem grantFault_held {i : Nat} (hi : g.first ≤ i) (h : s.ownerOf g.kind i = g.source)
    (hh : s.objectHeld g.kind i = true) : s.grantFault g (i - g.first) = some (3, i) := by
  rw [State.grantFault, Nat.add_sub_cancel' hi, if_neg (not_not.2 h), if_pos hh]

theorem grantOutcome_moves (h : g.InRange) (hm : ∀ i, g.first ≤ i → i < g.first + g.count → s.movable g i) :
    s.grantOutcome g = (0, 0) := by
  rw [grantOutcome_good h, firstSome_none (fun i hi => grantFault_none (hm _ (by omega) ?_))]
  · rfl
  · have := List.mem_range.1 hi
    omega

theorem grantOutcome_fails (h : g.InRange) {i : Nat} (h1 : g.first ≤ i) (h2 : i < g.first + g.count)
    (hm : ∀ j, g.first ≤ j → j < i → s.movable g j) {r : Nat × Nat} (hr : s.grantFault g (i - g.first) = some r) :
    s.grantOutcome g = r := by
  rw [grantOutcome_good h, firstSome_range (f := s.grantFault g) (by omega)
    (fun j hj => grantFault_none (hm _ (by omega) (by omega))) hr]
  rfl

end outcome

/-! ## GRANT_DONE (R120-R122) -/

/-- TEN_GRANT_STAT as the operation ends. -/
def State.grantEnded (s : State) (r : Nat × Nat) : State :=
  ((s.setBit TEN_GRANT_STAT TEN_GRANT_STAT_BUSY false).setFld TEN_GRANT_STAT TEN_GRANT_STAT_RESULT r.1).setFld
    TEN_GRANT_STAT TEN_GRANT_STAT_FAIL r.2

theorem opGrantDone_some {s : State} {g : GrantOp} (hg : s.ten.grant = some g) : opGrantDone s =
    (let t : State := { s with ten := { s.ten with grant := none } }
      if (s.grantOutcome g).1 = 0 then t.moveObjects g else t).grantEnded (s.grantOutcome g) := by
  unfold opGrantDone
  rw [hg]
  rfl

section grantEnded

variable {t u : State} {r : Nat × Nat} (h : Told (t.grantEnded r) u)

theorem grantEnded_frame (t : State) (r : Nat × Nat) : OnlyRegs [TEN_GRANT_STAT] t (t.grantEnded r) :=
  ((Frame.refl.setBit _ _ (by simp)).setFld _ _ (by simp)).setFld _ _ (by simp)

include h

/-- What GRANT_DONE shows once it has ended. -/
theorem grantEnded_shows (hr : r.1 < 16) : u.bit TEN_GRANT_STAT TEN_GRANT_STAT_BUSY = false
    ∧ u.fld TEN_GRANT_STAT TEN_GRANT_STAT_RESULT = r.1 ∧ u.fld TEN_GRANT_STAT TEN_GRANT_STAT_FAIL = r.2 % 65536 := by
  refine ⟨(h.bit _ _).trans ?_, (h.fld _ _).trans ?_, (h.fld _ _).trans (State.fld_setFld _ _ _ _ (by decide))⟩
  · exact (State.bit_setFld_apart _ _ _ (by decide) (.inr (by decide))).trans ((State.bit_setFld_apart _ _ _ (by decide)
      (.inr (by decide))).trans (State.bit_setBit _ _ _ _ (by decide) (by decide)))
  · refine (State.fld_setFld_apart _ _ _ _ _ (by decide) (.inr (by decide))).trans ((State.fld_setFld _ _ _ _ (by decide)).trans ?_)
    exact Nat.mod_eq_of_lt hr

theorem grantEnded_ten : u.ten = t.ten := (h.frame (grantEnded_frame t r)).same (q := .ten) (by simp)

end grantEnded

section grantDone

variable {s : State} {g : GrantOp} (hg : s.ten.grant = some g)

include hg

/-- An operation that fails changes no owner and no charge. -/
theorem gives_grantFails {res fail : Nat} (ho : s.grantOutcome g = (res, fail)) (h0 : res ≠ 0) (hres : res < 16) :
    Gives .grantDone s (fun u => (u.ten.grant = none ∧ u.bit TEN_GRANT_STAT TEN_GRANT_STAT_BUSY = false
      ∧ u.fld TEN_GRANT_STAT TEN_GRANT_STAT_RESULT = res ∧ u.fld TEN_GRANT_STAT TEN_GRANT_STAT_FAIL = fail % 65536)
      ∧ u.ten.owner = s.ten.owner ∧ u.ten.allocs = s.ten.allocs ∧ Frame [TEN_GRANT_STAT] [.ten] s u) := by
  refine gives_told (t := opGrantDone s) rfl (fun u hu => ?_)
  rw [opGrantDone_some hg, ho] at hu
  simp only [h0, if_false] at hu
  have hten := grantEnded_ten hu
  refine ⟨⟨by rw [hten], grantEnded_shows hu hres⟩, by rw [hten], by rw [hten], hu.frame ?_⟩
  exact Frame.trans (Frame.refl.setTen _ (by simp)) ((grantEnded_frame _ _).mono (by simp) (by simp))

/-- An operation that succeeds moves the range. -/
theorem gives_grantMoves (ho : s.grantOutcome g = (0, 0)) {P : State → Prop}
    (hP : ∀ u, let t : State := { s with ten := { s.ten with grant := none } }
      u.ten = (t.moveObjects g).ten → (g.revoke = false ∨ g.kind ≠ 7 → Frame [TEN_GRANT_STAT] [.ten] s u) →
      (u.bit TEN_GRANT_STAT TEN_GRANT_STAT_BUSY = false ∧ u.fld TEN_GRANT_STAT TEN_GRANT_STAT_RESULT = 0
        ∧ u.fld TEN_GRANT_STAT TEN_GRANT_STAT_FAIL = 0 % 65536) → P u) : Gives .grantDone s P := by
  refine gives_told (t := opGrantDone s) rfl (fun u hu => ?_)
  rw [opGrantDone_some hg, ho] at hu
  simp only [if_true] at hu
  refine hP u (grantEnded_ten hu) (fun hk => hu.frame ?_) (grantEnded_shows hu (by decide))
  exact Frame.trans (Frame.refl.setTen _ (by simp))
    (((moveObjects_frame _ _ hk).mono (by simp) (by simp)).trans ((grantEnded_frame _ _).mono (by simp) (by simp)))

end grantDone

/-- Settles O48: each register write by its checks, and GRANT_DONE by its outcome and by what moving one object does. -/
theorem tenantsGrantsAndReservations : Obligations.TenantsGrantsAndReservations := by
  intro s hb
  refine ⟨fun hs n k b v => ⟨fun hn => ?_, ?_, ?_, ?_⟩, fun v => ?_, fun hs n v hn => ⟨fun h => ?_, fun h3 hc => ?_⟩,
    fun hs hg k n => ⟨gives_grantStarts hb hs rfl hg, gives_grantStarts hb hs rfl hg⟩,
    fun hs hg k n => ⟨gives_grantOverruns hb hs rfl hg, gives_grantOverruns hb hs rfl hg⟩,
    fun hg => ?_, fun g hg => ⟨fun hr hm => ?_, fun hr => ?_, fun i hr h1 h2 hm => ⟨fun ho => ?_, fun ho hh => ?_⟩⟩,
    fun hs n b v => ⟨fun h => ?_, fun h1 h2 => ?_, fun h1 h2 => gives_reservation hb hs h1 h2⟩⟩
  · exact gives_tenErr hb (congrArg (doneBar s) (opTenCfg_standby hn hs)) (by decide) (by decide)
  · exact gives_tenErr hb (congrArg (doneBar s) (opObjGrant_standby false k.toNat n hs)) (by decide) (by decide)
  · exact gives_tenErr hb (congrArg (doneBar s) (opObjGrant_standby true k.toNat n hs)) (by decide) (by decide)
  · exact gives_tenErr hb (congrArg (doneBar s) (opReservation_standby hs)) (by decide) (by decide)
  · exact gives_told_bar hb (congrArg (doneBar s) opTenCfg_system) (fun u hu => hu.frame Frame.refl)
  · exact gives_tenErr hb (congrArg (doneBar s) (opTenCfg_refused hn hs h)) (by decide) (by decide)
  · exact gives_tenCfg hb hs hn h3 hc (fun u hstate hclass hframe => ⟨hstate, hclass, hframe⟩)
  · refine gives_nothing (congrArg (done s) ?_)
    rw [opGrantDone, hg]
  · refine gives_grantMoves hg (grantOutcome_moves hr hm) (fun u hten hframe hshows => ?_)
    have hrange := hr.2.1.trans (kindSize_le g.kind)
    refine ⟨⟨by rw [hten, grant_moveObjects], hshows⟩, fun k i hi => ?_, fun code => ?_, fun h => ?_, fun h => ?_, hframe⟩
    · rw [State.ownerOf, hten]
      exact ownerOf_moveObjects _ g hrange hi
    · exact (totalUse_of_allocs (congrArg Ten.allocs hten) code).trans (totalUse_moveObjects ..)
    · rw [hten]
      exact allocs_moveObjects_grant _ g h
    · rw [hten]
      exact allocs_moveObjects_revoke _ g h
  · exact gives_grantFails hg (grantOutcome_bad hr) (by decide) (by decide)
  · exact gives_grantFails hg (grantOutcome_fails hr h1 h2 hm (grantFault_foreign h1 ho)) (by decide) (by decide)
  · exact gives_grantFails hg (grantOutcome_fails hr h1 h2 hm (grantFault_held h1 ho hh)) (by decide) (by decide)
  · exact gives_tenErr hb (congrArg (doneBar s) (opReservation_refused hs (.inl h))) (by decide) (by decide)
  · exact gives_tenErr hb (congrArg (doneBar s) (opReservation_refused hs (.inr ⟨h1, h2⟩))) (by decide) (by decide)

end Sys2Proof.Machine
end

section
/-! PROOFS. The failure of a memory stack and the order of shedding: O53 (R128, R130, R134, R248, R251). -/

namespace Sys2Proof.Machine

open Sys2Proof

/-! ## FSA_STACK_FAIL (R248) -/

/-- The bit of FSA_MEMSTAT that says that a stack is in service. -/
def stackBit (k : Nat) : Field := if k = 0 then FSA_MEMSTAT_STK0 else FSA_MEMSTAT_STK1

/-- The stack marked out of service. -/
def State.stackGone (s : State) (k : Nat) : State :=
  (s.setBit FSA_MEMSTAT (stackBit k) false).setBit FSA_MEMSTAT FSA_MEMSTAT_DEGRADED true

theorem opStackFail_gone {k : Nat} {s : State} (h : s.bit FSA_MEMSTAT (stackBit k) = false) : opStackFail k s = s :=
  if_pos (by rw [← stackBit, h]; rfl)

theorem stackGone_bit (s : State) (k : Nat) : (s.stackGone k).bit FSA_MEMSTAT (stackBit k) = false := by
  unfold State.stackGone stackBit
  split_ifs
  · exact (State.bit_setFld_apart _ _ _ (by decide) (.inr (by decide))).trans
      (State.bit_setBit _ _ _ _ (by decide) (by decide))
  · exact (State.bit_setFld_apart _ _ _ (by decide) (.inr (by decide))).trans
      (State.bit_setBit _ _ _ _ (by decide) (by decide))

theorem stackGone_degraded (s : State) (k : Nat) : (s.stackGone k).bit FSA_MEMSTAT FSA_MEMSTAT_DEGRADED = true :=
  State.bit_setBit _ _ _ _ (by decide) (by decide)

theorem stackGone_frame (s : State) (k : Nat) : OnlyRegs [FSA_MEMSTAT] s (s.stackGone k) :=
  (Frame.refl.setBit _ _ (by simp)).setBit _ _ (by simp)

/-! ## The order of shedding (R130, R131) -/

theorem shedBudget_within {s : State} {code : Nat} (src n : Nat) (h : s.totalUse code ≤ s.cap code) :
    s.shedBudget n code src = s := by
  cases n with
  | zero => rfl
  | succ n => exact if_pos h

/-- The next to be shed, after one more allocation has been looked at. -/
def State.shedChoice (s : State) (code : Nat) (best : Option Alloc) (a : Alloc) : Option Alloc :=
  if a.charge.get code = 0 then best
  else match best with
    | none => some a
    | some b => if s.shedBefore b.owner a.owner then best else some a

theorem nextShed_eq (s : State) (code : Nat) : s.nextShed code = s.ten.allocs.foldl (s.shedChoice code) none := rfl

/-- `a` is shed first of the list: of the lowest class, in it of the highest-numbered tenant, in it the newest. -/
structure ShedFirst (s : State) (code : Nat) (l : List Alloc) (a : Alloc) : Prop where
  charged : a.charge.get code ≠ 0
  most : ∀ b ∈ l, b.charge.get code ≠ 0 →
    s.tenClass b.owner ≤ s.tenClass a.owner ∧ (s.tenClass b.owner = s.tenClass a.owner → b.owner ≤ a.owner)
  newest : ∃ pre post, l = pre ++ a :: post ∧ ∀ b ∈ post, b.charge.get code ≠ 0 →
    s.tenClass b.owner ≠ s.tenClass a.owner ∨ b.owner ≠ a.owner

section shedFirst

variable {s : State} {code : Nat} {l : List Alloc} {a b : Alloc}

theorem shedBefore_iff {t u : Nat} : s.shedBefore t u = true ↔
    s.tenClass u < s.tenClass t ∨ (s.tenClass t = s.tenClass u ∧ u < t) := by simp [State.shedBefore]

/-- A newer allocation that is not charged, or that is shed later, changes nothing. -/
theorem ShedFirst.skip (h : ShedFirst s code l b) (ha : a.charge.get code = 0 ∨ s.shedBefore b.owner a.owner = true) :
    ShedFirst s code (l ++ [a]) b := by
  rw [shedBefore_iff] at ha
  obtain ⟨pre, post, rfl, hpost⟩ := h.newest
  refine ⟨h.charged, fun c hc hcharge => ?_, pre, post ++ [a], by simp, fun c hc hcharge => ?_⟩
  · rcases List.mem_append.1 hc with hc | hc
    · exact h.most c hc hcharge
    · cases List.mem_singleton.1 hc
      omega
  · rcases List.mem_append.1 hc with hc | hc
    · exact hpost c hc hcharge
    · cases List.mem_singleton.1 hc
      omega

/-- A newer allocation that is not shed later is shed before. -/
theorem ShedFirst.replace (h : ShedFirst s code l b) (hcharge : a.charge.get code ≠ 0)
    (ha : s.shedBefore b.owner a.owner = false) : ShedFirst s code (l ++ [a]) a := by
  rw [← Bool.not_eq_true, shedBefore_iff] at ha
  refine ⟨hcharge, fun c hc hcc => ?_, l, [], rfl, by simp⟩
  rcases List.mem_append.1 hc with hc | hc
  · have := h.most c hc hcc
    omega
  · cases List.mem_singleton.1 hc
    simp

end shedFirst

/-- What the choice has found in the allocations looked at. -/
def ShedFound (s : State) (code : Nat) (l : List Alloc) : Option Alloc → Prop
  | none => ∀ b ∈ l, b.charge.get code = 0
  | some a => ShedFirst s code l a

theorem shedFound_step {s : State} {code : Nat} {l : List Alloc} {best : Option Alloc} (a : Alloc)
    (h : ShedFound s code l best) : ShedFound s code (l ++ [a]) (s.shedChoice code best a) := by
  unfold State.shedChoice
  cases best with
  | none =>
    split_ifs with ha
    · intro b hb
      rcases List.mem_append.1 hb with hb | hb
      · exact h b hb
      · cases List.mem_singleton.1 hb
        exact ha
    · refine ⟨ha, fun b hb hc => ?_, l, [], rfl, by simp⟩
      rcases List.mem_append.1 hb with hb | hb
      · exact absurd (h b hb) hc
      · cases List.mem_singleton.1 hb
        simp
  | some b =>
    dsimp only
    split_ifs with ha hbefore
    · exact ShedFirst.skip h (.inl ha)
    · exact ShedFirst.skip h (.inr hbefore)
    · exact ShedFirst.replace h ha (Bool.eq_false_iff.2 hbefore)

theorem shedFound_foldl (s : State) (code : Nat) (l : List Alloc) :
    ShedFound s code l (l.foldl (s.shedChoice code) none) := by
  induction l using List.reverseRecOn with
  | nil => exact fun b hb => absurd hb List.not_mem_nil
  | append_singleton l a ih =>
    rw [List.foldl_append]
    exact shedFound_step a ih

theorem shedFirst_of_nextShed {s : State} {code : Nat} {a : Alloc} (h : s.nextShed code = some a) :
    ShedFirst s code s.ten.allocs a := by
  have hfound := shedFound_foldl s code s.ten.allocs
  rw [← nextShed_eq, h] at hfound
  exact hfound

/-- Settles O53: the failure is the model's own sequence after the two bits, and the choice of what is shed keeps the first of
the allocations it has looked at. -/
theorem memoryStackFailure : Obligations.MemoryStackFailure := by
  refine ⟨fun k s h => gives_nothing (congrArg (done s) (opStackFail_gone h)), ?_,
    fun s code src n h => shedBudget_within src n h, fun s code a h => ?_⟩
  · intro k s f h
    refine ⟨s.stackGone k, stackGone_bit s k, stackGone_degraded s k, stackGone_frame s k, ?_⟩
    intro w n y z x
    have hin : s.bit FSA_MEMSTAT (stackBit k) = true := h
    have hgo : opStackFail k s = (x.shedFlows x.rxFlows.length).rehome :=
      (if_neg (by rw [← stackBit, hin]; decide)).trans rfl
    exact answers_of_done (congrArg (done s) hgo)
  · obtain ⟨hcharged, hmost, pre, post, heq, hpost⟩ := shedFirst_of_nextShed h
    exact ⟨by rw [heq]; simp, hcharged, hmost, pre, post, heq, hpost⟩

end Sys2Proof.Machine
end

section
/-! PROOFS. Salvos of one chip: opening, committing, aborting, and the deadlines: O59 (R143-R148, R208-R225). -/

namespace Sys2Proof.Machine

open Sys2Proof

/-! ## What the state in which a command has been taken reads -/

/-- The consumer index of a ring stands in the tenant pages. -/
theorem ne_devIdx {a : Nat} (t r : Nat) (ha : a < 0x100000000) : a ≠ RING_DEV_IDX t r := by
  unfold RING_DEV_IDX
  omega

section takenParts

variable (s : State) (t r : Nat) (e : Entry) (pb : BlockRead)

theorem taken_sal : (s.taken t r e pb).sal = s.sal := taken_same s t r e pb (q := .sal) (by simp)

theorem taken_tim : (s.taken t r e pb).tim = s.tim := taken_same s t r e pb (q := .tim) (by simp)

theorem taken_now : (s.taken t r e pb).now = s.now := taken_same s t r e pb (q := .time) (by simp)

theorem taken_ten : (s.taken t r e pb).ten = s.ten := taken_same s t r e pb (q := .ten) (by simp)

theorem taken_cmp : (s.taken t r e pb).cmp = s.cmp := taken_same s t r e pb (q := .cmp) (by simp)

theorem taken_aud : (s.taken t r e pb).aud = s.aud := taken_same s t r e pb (q := .aud) (by simp)

end takenParts

theorem taken_ownerOf (s : State) (t r : Nat) (e : Entry) (pb : BlockRead) (kind i : Nat) :
    (s.taken t r e pb).ownerOf kind i = s.ownerOf kind i := by
  rw [State.ownerOf, taken_ten, State.ownerOf]

theorem taken_standby (s : State) (t r : Nat) (e : Entry) (pb : BlockRead) : (s.taken t r e pb).standby = s.standby := by
  rw [State.standby, taken_fld _ _ _ _ _ _ (ne_devIdx t r (by decide)), State.standby]

theorem Told.standby {t u : State} (h : Told t u) : u.standby = t.standby := by
  rw [State.standby, h.fld, State.standby]

/-- The due instant of a commit time rests on the time base and its mode. -/
theorem dueTime_congr {s t : State} {b : Nat} (time : Nat) (ht : t.tim = s.tim)
    (hc : t.fld (TIM_TB_CTRL b) TIM_TB_CTRL_MODE = s.fld (TIM_TB_CTRL b) TIM_TB_CTRL_MODE) :
    t.dueTime b time = s.dueTime b time := by
  have hbase : t.base b = s.base b := by rw [State.base, ht, State.base]
  unfold State.dueTime State.stamp State.fullTime
  rw [hbase, hc]

theorem bitsAt_lt (e : Entry) (b o n : Nat) : bitsAt e b o n < 2 ^ n := Nat.mod_lt _ (Nat.two_pow_pos n)

/-! ## Charges, and the closing of a slot (R147) -/

theorem Frame.setAllocs {l : List Nat} {p : List Part} {s t : State} (h : Frame l p s t) (x : List Alloc) (hp : .ten ∈ p) :
    Frame l p s (t.setAllocs x) := h.setTen _ hp

theorem Frame.release {l : List Nat} {p : List Part} {s t : State} (h : Frame l p s t) (q : Holding → Bool)
    (hp : .ten ∈ p) : Frame l p s (t.release q) := h.setAllocs _ hp

theorem Frame.alloc {l : List Nat} {p : List Part} {s t : State} (h : Frame l p s t) (own : Nat) (g : Holding)
    (c : Charge) (hp : .ten ∈ p) : Frame l p s (t.alloc own g c) := by
  unfold State.alloc
  split_ifs
  · exact h
  · exact h.setAllocs _ hp

theorem Frame.rechargeTo {l : List Nat} {p : List Part} {s t : State} (h : Frame l p s t) (c : Nat) (own : Option Nat)
    (hp : .ten ∈ p) : Frame l p s (t.rechargeTo c own) := by
  unfold State.rechargeTo
  split
  · exact h.release _ hp
  · split
    · exact h.setAllocs _ hp
    · exact h.alloc _ _ _ hp

section closeSlot

variable (s : State) (k : Nat) (x : Salvo)

/-- Once the slot is gone, only charges move. -/
theorem closeSlot_delSlot : Frame [] [.ten] (s.delSlot k) (s.closeSlot k x) :=
  Frame.each _ (fun _ c _ => Frame.refl.rechargeTo c none (by simp)) (Frame.refl.release _ (by simp))

theorem closeSlot_frame : Frame [] [.sal, .ten] s (s.closeSlot k x) :=
  Frame.trans (Frame.refl.setSal _ (by simp)) ((closeSlot_delSlot s k x).mono (by simp) (by simp))

theorem closeSlot_sal : (s.closeSlot k x).sal = { s.sal with slots := Tbl.del s.sal.slots k } :=
  (closeSlot_delSlot s k x).same (q := .sal) (by simp)

theorem closeSlot_gone : Tbl.find? (s.closeSlot k x).sal.slots k = none := by
  rw [closeSlot_sal]
  exact Tbl.find?_del_same _ _

theorem closeSlot_other {j : Nat} (h : j ≠ k) :
    Tbl.find? (s.closeSlot k x).sal.slots j = Tbl.find? s.sal.slots j := by
  rw [closeSlot_sal]
  exact Tbl.find?_del_other _ h

variable {s k x}

theorem failSalvo_some (h : Tbl.find? s.sal.slots k = some x) (st : Status) :
    s.failSalvo k st = ((s.closeSlot k x).complete x.cmd st 0 0).raise 352 := by
  rw [State.failSalvo, h]

end closeSlot

/-! ## SALVO_OPEN (R143, R144, R208) -/

/-- A salvo as it is opened. -/
def Salvo.opened (nodes : Nat) (g : Word) : Salvo :=
  ⟨nodes, g, 0, [], false, 0, false, 0, 0, 0, 0, 0, 0, 0, [], 0, none, none, none, none⟩

section open_

variable {t : Tenant} {r : CmdRing} {e : Entry} {s : State} (h : s.Takes 0x03 t r e)

include h

theorem salvoOpen_fields (hf : onlyFields e [(8, 0, 2), (9, 0, 4), (12, 0, 32)] = false) :
    Answers (.salvoOpen t r e) s ((s.taken t r e ⟨none, 0⟩).complete s.hif.nextId .rejFormat 0 0) := by
  refine answers_rejected h rfl (by unfold salvoOpenBody; rfl) ?_ rfl
  simp [hf]

variable (hf : onlyFields e [(8, 0, 2), (9, 0, 4), (12, 0, 32)] = true) (hn : bitsAt e 9 0 4 = 0)

include hf hn

theorem salvoOpen_capacity (hc : 64 ≤ s.sal.slots.length) :
    Answers (.salvoOpen t r e) s ((s.taken t r e ⟨none, 0⟩).complete s.hif.nextId .rejCapacity 5 0) := by
  have hsal := taken_sal s t r e ⟨none, 0⟩
  refine answers_rejected h rfl (by unfold salvoOpenBody; rfl) ?_ rfl
  simp [hf, hn, hsal, hc]

theorem salvoOpen_busy (hc : s.sal.slots.length < 64) (hbusy : Tbl.find? s.sal.slots (4 * t.val + bitsAt e 8 0 2) ≠ none
      ∨ s.groupSlot (BitVec.ofNat 32 (bitsAt e 12 0 32)) ≠ none) :
    Answers (.salvoOpen t r e) s ((s.taken t r e ⟨none, 0⟩).complete s.hif.nextId .busy 0 0) := by
  have hsal := taken_sal s t r e ⟨none, 0⟩
  refine answers_rejected h rfl (by unfold salvoOpenBody; rfl) ?_ rfl
  simp only [State.groupSlot] at hbusy
  rcases hbusy with hbusy | hbusy <;>
    simp [hf, hn, State.slot?, State.groupSlot, hsal, Nat.not_le.2 hc, Option.isSome_iff_ne_none, hbusy]

theorem salvoOpen_accepted (hc : s.sal.slots.length < 64) (hslot : Tbl.find? s.sal.slots (4 * t.val + bitsAt e 8 0 2) = none)
    (hgroup : s.groupSlot (BitVec.ofNat 32 (bitsAt e 12 0 32)) = none) (hs : s.standby = false) :
    Answers (.salvoOpen t r e) s ((((s.taken t r e ⟨none, 0⟩).mirrorCommand s.hif.nextId).setSlot
      (4 * t.val + bitsAt e 8 0 2) (Salvo.opened (bitsAt e 9 0 4) (BitVec.ofNat 32 (bitsAt e 12 0 32)))).complete
        s.hif.nextId .ok 0 0) := by
  have hsal := taken_sal s t r e ⟨none, 0⟩
  have hslot' : (s.taken t r e ⟨none, 0⟩).slot? t (bitsAt e 8 0 2) = none := by rw [State.slot?, hsal, hslot]
  have hgroup' : (s.taken t r e ⟨none, 0⟩).groupSlot (BitVec.ofNat 32 (bitsAt e 12 0 32)) = none := by
    rw [State.groupSlot, hsal, ← State.groupSlot, hgroup]
  refine answers_of_done (exec_accepted h rfl (by unfold salvoOpenBody; rfl) ?_ (by rfl))
  simp [hf, hn, hsal, Nat.not_le.2 hc, hslot', hgroup', State.standbyBusy, taken_standby, hs]

end open_

/-! ## SALVO_COMMIT (R147, R209-R213) -/

/-- A salvo as its commit leaves it in the state `s`. -/
def Salvo.committed (x : Salvo) (s : State) (e : Entry) (id : Nat) : Salvo :=
  let tb := bitsAt e 9 0 2
  let time := BitVec.ofNat 32 (bitsAt e 12 0 32)
  { x with stage := 1, cmd := id, coord := x.nodes != 0 && bitsAt e 8 4 1 == 1, tb := tb, time := time,
           due := (s.dueTime tb time.toNat).getD (s.fullTime tb), accepted := s.fullTime tb, f := s.salvoF x,
           own := s.salvoF x, count := x.entries.length }

section commit

variable {t : Tenant} {r : CmdRing} {e : Entry} {s : State} (h : s.Takes 0x04 t r e)

include h

theorem salvoCommit_fields (hf : onlyFields e [(8, 0, 2), (8, 4, 1), (9, 0, 2), (12, 0, 32)] = false) :
    Answers (.salvoCommit t r e) s ((s.taken t r e ⟨none, 0⟩).complete s.hif.nextId .rejFormat 0 0) := by
  cases hslot : Tbl.find? (s.taken t r e ⟨none, 0⟩).sal.slots (4 * t.val + bitsAt e 8 0 2) with
  | none =>
    refine answers_rejected h rfl (by unfold salvoCommitBody; dsimp only; rw [hslot]) ?_ rfl
    simp [hf]
  | some x =>
    refine answers_rejected h rfl (by unfold salvoCommitBody; dsimp only; rw [hslot]) ?_ rfl
    simp [hf]

variable (hf : onlyFields e [(8, 0, 2), (8, 4, 1), (9, 0, 2), (12, 0, 32)] = true)

include hf

theorem salvoCommit_absent (hslot : Tbl.find? s.sal.slots (4 * t.val + bitsAt e 8 0 2) = none) :
    Answers (.salvoCommit t r e) s ((s.taken t r e ⟨none, 0⟩).complete s.hif.nextId .busy 0 0) := by
  rw [← taken_sal s t r e ⟨none, 0⟩] at hslot
  refine answers_rejected h rfl (by unfold salvoCommitBody; dsimp only; rw [hslot]) ?_ rfl
  simp [hf]

variable {x : Salvo} (hslot : Tbl.find? s.sal.slots (4 * t.val + bitsAt e 8 0 2) = some x)

include hslot

theorem salvoCommit_foreign (ho : (s.taken t r e ⟨none, 0⟩).ownsSalvo t x = false) :
    Answers (.salvoCommit t r e) s ((s.taken t r e ⟨none, 0⟩).complete s.hif.nextId .rejOwner 0 0) := by
  rw [← taken_sal s t r e ⟨none, 0⟩] at hslot
  refine answers_rejected h rfl (by unfold salvoCommitBody; dsimp only; rw [hslot]) ?_ rfl
  simp [hf, ho]

variable (ho : (s.taken t r e ⟨none, 0⟩).ownsSalvo t x = true)

include ho

theorem salvoCommit_busy (hx : x.stage ≠ 0) :
    Answers (.salvoCommit t r e) s ((s.taken t r e ⟨none, 0⟩).complete s.hif.nextId .busy 0 0) := by
  rw [← taken_sal s t r e ⟨none, 0⟩] at hslot
  refine answers_rejected h rfl (by unfold salvoCommitBody; dsimp only; rw [hslot]) ?_ rfl
  simp [hf, ho, hx]

variable (hx : x.stage = 0) (hs : s.standby = false) (hshed : x.shed = false) (hnodes : x.nodes = 0)
  (hheld : s.sal.held = [])

include hx hs hshed hnodes hheld

/-- The commit of a salvo of this chip alone puts it in its slot, or fails it where the time has passed. -/
theorem salvoCommit_accepted :
    exec (.salvoCommit t r e) s = done s
      (let m := (s.taken t r e ⟨none, 0⟩).mirrorCommand s.hif.nextId
       let k := 4 * t.val + bitsAt e 8 0 2
       let u := (m.setSlot k (x.committed m e s.hif.nextId)).setHeld []
       if (m.dueTime (bitsAt e 9 0 2) (BitVec.ofNat 32 (bitsAt e 12 0 32)).toNat).isNone then u.failSalvo k .late else u) := by
  have hsal := taken_sal s t r e ⟨none, 0⟩
  rw [← hsal] at hslot hheld
  refine exec_accepted h rfl (by unfold salvoCommitBody; dsimp only; rw [hslot]) ?_ ?_
  · simp [hf, ho, hx, State.standbyBusy, taken_standby, hs]
  · have hm : ((s.taken t r e ⟨none, 0⟩).mirrorCommand s.hif.nextId).sal.held = [] := by
      rw [(Told.mirrorCommand _ _).same .sal, hheld]
    dsimp only
    rw [if_neg (by simp [hshed]), if_pos hnodes]
    simp only [State.setSlot, hm]
    rfl

end commit

/-! ## SALVO_ABORT (R148) -/

section abort

variable {t : Tenant} {r : CmdRing} {e : Entry} {s : State} (h : s.Takes 0x05 t r e)

include h

theorem salvoAbort_fields (hf : onlyFields e [(8, 0, 2)] = false) :
    Answers (.salvoAbort t r e) s ((s.taken t r e ⟨none, 0⟩).complete s.hif.nextId .rejFormat 0 0) := by
  refine answers_rejected h rfl (by unfold salvoAbortBody; rfl) ?_ rfl
  simp [hf]

variable (hf : onlyFields e [(8, 0, 2)] = true)

include hf

theorem salvoAbort_armed {x : Salvo} (hslot : Tbl.find? s.sal.slots (4 * t.val + bitsAt e 8 0 2) = some x)
    (hx : x.stage = 3) :
    Answers (.salvoAbort t r e) s ((s.taken t r e ⟨none, 0⟩).complete s.hif.nextId .busy 0 0) := by
  refine answers_rejected h rfl (by unfold salvoAbortBody; rfl) ?_ rfl
  simp [hf, taken_sal, hslot, hx]

variable (hs : s.standby = false)

include hs

theorem salvoAbort_absent (hslot : Tbl.find? s.sal.slots (4 * t.val + bitsAt e 8 0 2) = none) :
    Answers (.salvoAbort t r e) s
      (((s.taken t r e ⟨none, 0⟩).mirrorCommand s.hif.nextId).complete s.hif.nextId .ok 0 0) := by
  refine answers_of_done (exec_accepted h rfl (by unfold salvoAbortBody; rfl) ?_ ?_)
  · simp [hf, taken_sal, hslot, State.standbyBusy, taken_standby, hs]
  · dsimp only
    rw [(Told.mirrorCommand _ _).same .sal, taken_sal, hslot]

variable {x : Salvo} (hslot : Tbl.find? s.sal.slots (4 * t.val + bitsAt e 8 0 2) = some x)

include hslot

theorem salvoAbort_open (hx : x.stage = 0) : Answers (.salvoAbort t r e) s
    ((((s.taken t r e ⟨none, 0⟩).mirrorCommand s.hif.nextId).closeSlot (4 * t.val + bitsAt e 8 0 2) x).complete
      s.hif.nextId .ok 0 0) := by
  refine answers_of_done (exec_accepted h rfl (by unfold salvoAbortBody; rfl) ?_ ?_)
  · simp [hf, taken_sal, hslot, hx, State.standbyBusy, taken_standby, hs]
  · dsimp only
    rw [(Told.mirrorCommand _ _).same .sal, taken_sal, hslot]
    exact congrArg (State.complete · _ _ _ _) (if_pos hx)

theorem salvoAbort_preparing (hx : x.stage = 1) (hnodes : x.nodes = 0) : Answers (.salvoAbort t r e) s
    ((((s.taken t r e ⟨none, 0⟩).mirrorCommand s.hif.nextId).failSalvo (4 * t.val + bitsAt e 8 0 2) .aborted).complete
      s.hif.nextId .ok 0 0) := by
  refine answers_of_done (exec_accepted h rfl (by unfold salvoAbortBody; rfl) ?_ ?_)
  · simp [hf, taken_sal, hslot, hx, State.standbyBusy, taken_standby, hs]
  · dsimp only
    rw [(Told.mirrorCommand _ _).same .sal, taken_sal, hslot]
    exact congrArg (State.complete · _ _ _ _) ((if_neg (by omega)).trans (if_pos hnodes))

end abort

/-! ## The end of preparation, and the local deadline (R212-R214) -/

section prepared

variable {k : Nat} {x : Salvo} {s : State}

theorem opPrepareDone_absent (h : Tbl.find? s.sal.slots k = none) : opPrepareDone k s = s := by
  rw [opPrepareDone, h]

theorem opLocalDeadline_absent (h : Tbl.find? s.sal.slots k = none) : opLocalDeadline k s = s := by
  rw [opLocalDeadline, h]

variable (h : Tbl.find? s.sal.slots k = some x)

include h

theorem opPrepareDone_other (hx : x.stage ≠ 1) : opPrepareDone k s = s := by
  rw [opPrepareDone, h]
  exact if_pos hx

theorem opLocalDeadline_other (hx : ¬(x.stage = 1 ∧ x.nodes = 0)) : opLocalDeadline k s = s := by
  rw [opLocalDeadline, h]
  exact if_neg hx

theorem opLocalDeadline_late (hx : x.stage = 1) (hn : x.nodes = 0) : opLocalDeadline k s = s.failSalvo k .late := by
  rw [opLocalDeadline, h]
  exact if_pos ⟨hx, hn⟩

theorem opPrepareDone_shed (hx : x.stage = 1) (hshed : x.shed = true) : opPrepareDone k s = s.shedSalvo k := by
  rw [opPrepareDone, h]
  exact (if_neg (not_not.2 hx)).trans (if_pos hshed)

variable (hx : x.stage = 1) (hn : x.nodes = 0) (hshed : x.shed = false)

include hx hn hshed

theorem opPrepareDone_local : opPrepareDone k s =
    if (s.prepareLate x).1 then (s.prepareLate x).2.failSalvo k .late else (s.prepareLate x).2.arm k x.f := by
  rw [opPrepareDone, h]
  exact (if_neg (not_not.2 hx)).trans ((if_neg (by simp [hshed])).trans (if_pos hn))

theorem opPrepareDone_late (hb : s.before x 10000 = false) : opPrepareDone k s = s.failSalvo k .late := by
  have hlate : s.prepareLate x = (true, s) := if_pos (by rw [hb]; rfl)
  rw [opPrepareDone_local h hx hn hshed, hlate]
  rfl

/-- The entries of a salvo without layer entries are armed. -/
theorem opPrepareDone_armed (hb : s.before x 10000 = true) (he : x.entries ≠ []) (hc : x.canvases = []) :
    opPrepareDone k s = s.setSlot k { x with stage := 3 } := by
  have hontime : s.prepareLate x = (false, s) := by
    rw [State.prepareLate, hb, hc]
    rfl
  have hstill : ∀ y : Salvo, y.entries = x.entries → (s.setSlot k y).salvoDone k = s.setSlot k y := by
    intro y hy
    have hfind : Tbl.find? (s.setSlot k y).sal.slots k = some y := Tbl.find?_put_same _ _ _
    rw [State.salvoDone, hfind]
    refine if_neg (fun hdone => he ?_)
    rw [← hy]
    exact List.isEmpty_iff.1 hdone.2.1
  rw [opPrepareDone_local h hx hn hshed, hontime]
  change s.arm k x.f = _
  rw [State.arm, State.updSlot, h]
  exact hstill _ rfl

end prepared

/-! ## Messages on the fabric (R395-R399) -/

/-- `t` is `s` with more sent on the links: the blocks of the fabric alone have changed, and nothing sent is taken back. -/
structure FlitsSent (s t : State) : Prop where
  frame : Frame [] [.blk] s t
  sent : ∀ {e : Emission}, e ∈ s.out → e ∈ t.out

theorem FlitsSent.refl (s : State) : FlitsSent s s := ⟨Frame.refl, fun h => h⟩

theorem FlitsSent.trans {s t u : State} (h : FlitsSent s t) (g : FlitsSent t u) : FlitsSent s u :=
  ⟨h.frame.trans g.frame, fun he => g.sent (h.sent he)⟩

theorem setLink_flitsSent (s : State) (k : Nat) (x : LinkCtl) : FlitsSent s (s.setLink k x) :=
  ⟨Frame.refl.setBlk _ (by simp), fun h => h⟩

theorem emit_flitsSent (s : State) (e : Emission) : FlitsSent s (s.emit e) :=
  ⟨Frame.refl.emit e, fun h => (Told.emit s e).sent _ h⟩

theorem putFlit_flitsSent (s : State) (k : Nat) (valid : Bool) (f : OutFlit) (nak : Bool) :
    FlitsSent s (s.putFlit k valid f nak) :=
  ((setLink_flitsSent ..).trans (setLink_flitsSent ..)).trans (emit_flitsSent ..)

theorem pumpFlits_flitsSent (k : Nat) (l : List OutFlit) (shut : List Nat) (s : State) :
    FlitsSent s (pumpFlits k l shut s).2 := by
  induction l generalizing shut s with
  | nil => exact FlitsSent.refl s
  | cons f l ih =>
    unfold pumpFlits
    dsimp only
    split_ifs
    · exact ih _ s
    · exact (putFlit_flitsSent ..).trans (ih _ _)

theorem queueFlits_flitsSent (s : State) (k : Nat) (l : List OutFlit) : FlitsSent s (s.queueFlits k l) :=
  (setLink_flitsSent ..).trans ((pumpFlits_flitsSent ..).trans (setLink_flitsSent ..))

theorem send_flitsSent (s : State) (n : Nat) (m : Msg) : FlitsSent s (s.send n m) := by
  unfold State.send State.sendVia
  split
  · exact (emit_flitsSent ..).trans (queueFlits_flitsSent ..)
  · exact FlitsSent.refl s

/-- A message to a node with a path leaves. -/
theorem msg_mem_send {s : State} {n : Nat} (h : s.hasPath n = true) (m : Msg) : .msg n m ∈ (s.send n m).out := by
  obtain ⟨k, hk⟩ := Option.isSome_iff_exists.1 h
  rw [State.send, State.sendVia, hk]
  exact (queueFlits_flitsSent ..).sent List.mem_cons_self

theorem refuseHeld_flitsSent (s : State) (p : Option HeldPrepare) (r : SalvoReason) : FlitsSent s (s.refuseHeld p r) := by
  cases p with
  | none => exact FlitsSent.refl s
  | some p => exact send_flitsSent ..

/-! ## The deadlines of a group that no slot uses (R219-R223) -/

section deadlines

variable {g : Word} {s : State} (h : s.groupSlot g = none)

include h

theorem opDecisionDeadline_free : opDecisionDeadline g s =
    let u := s.refuseHeld (s.sal.held.find? (fun p => p.group == g && p.cancel.isNone)) .late
    u.setHeld (u.sal.held.filter (fun p => p.group != g)) := by
  rw [opDecisionDeadline, h]

theorem opApplyDeadline_free (a : Nat) : opApplyDeadline g a s = s := by
  rw [opApplyDeadline, h]

theorem gives_decisionDeadline : Gives (.salvoDecisionDeadline g) s (fun u =>
    u.sal.held = s.sal.held.filter (fun p => p.group != g) ∧ u.sal.slots = s.sal.slots ∧ Frame [] [.sal, .blk] s u
      ∧ (∀ p, s.sal.held = [p] → p.group = g → p.cancel = none → s.hasPath p.src = true →
        .msg p.src (.refuse g .late) ∈ u.out)) := by
  refine gives_told (t := opDecisionDeadline g s) rfl (fun u hu => ?_)
  rw [opDecisionDeadline_free h] at hu
  have hsent := refuseHeld_flitsSent s (s.sal.held.find? (fun p => p.group == g && p.cancel.isNone)) .late
  have hsal : Sal.slots _ = s.sal.slots ∧ Sal.held _ = s.sal.held :=
    ⟨congrArg Sal.slots (hsent.frame.same (q := .sal) (by simp)), congrArg Sal.held (hsent.frame.same (q := .sal) (by simp))⟩
  have husal := hu.same .sal
  refine ⟨(congrArg Sal.held husal).trans ?_, (congrArg Sal.slots husal).trans hsal.1,
    hu.frame ((hsent.frame.mono (by simp) (by simp)).setSal _ (by simp)), fun p hp hg hc hpath => ?_⟩
  · exact congrArg (List.filter _) hsal.2
  · refine hu.sent _ ?_
    have hfind : s.sal.held.find? (fun p => p.group == g && p.cancel.isNone) = some p := by simp [hp, hg, hc]
    rw [hfind, State.refuseHeld, hg]
    exact msg_mem_send hpath _

end deadlines

/-! ## Commits with their due time (R209-R212) -/

section commitDue

variable {t : Tenant} {r : CmdRing} {e : Entry} {s : State}

/-- The due time that the commit finds is that of the state before the command was taken. -/
theorem dueTime_commit (id : Nat) :
    ((s.taken t r e ⟨none, 0⟩).mirrorCommand id).dueTime (bitsAt e 9 0 2) (BitVec.ofNat 32 (bitsAt e 12 0 32)).toNat =
      s.dueTime (bitsAt e 9 0 2) (bitsAt e 12 0 32) := by
  have htb := bitsAt_lt e 9 0 2
  have hmirror := Told.mirrorCommand (s.taken t r e ⟨none, 0⟩) id
  rw [BitVec.toNat_ofNat, Nat.mod_eq_of_lt (bitsAt_lt e 12 0 32)]
  refine dueTime_congr _ (Eq.trans (hmirror.same .tim) (taken_tim ..)) ((hmirror.fld _ _).trans ?_)
  exact taken_fld _ _ _ _ _ _ (ne_devIdx t r (by unfold TIM_TB_CTRL; omega))

variable (h : s.Takes 0x04 t r e) (hf : onlyFields e [(8, 0, 2), (8, 4, 1), (9, 0, 2), (12, 0, 32)] = true)
  {x : Salvo} (hslot : Tbl.find? s.sal.slots (4 * t.val + bitsAt e 8 0 2) = some x)
  (ho : (s.taken t r e ⟨none, 0⟩).ownsSalvo t x = true) (hx : x.stage = 0) (hs : s.standby = false)
  (hshed : x.shed = false) (hnodes : x.nodes = 0) (hheld : s.sal.held = [])

include h hf hslot ho hx hs hshed hnodes hheld

theorem gives_commit {due : Nat} (hdue : s.dueTime (bitsAt e 9 0 2) (bitsAt e 12 0 32) = some due) :
    Gives (.salvoCommit t r e) s (fun u =>
      ∃ y, Tbl.find? u.sal.slots (4 * t.val + bitsAt e 8 0 2) = some y ∧ y.stage = 1 ∧ y.cmd = s.hif.nextId ∧ y.due = due
        ∧ y.tb = bitsAt e 9 0 2 ∧ y.entries = x.entries ∧ y.count = x.entries.length
        ∧ Frame [] [.sal] (s.taken t r e ⟨none, 0⟩) u) := by
  have hgo := salvoCommit_accepted h hf hslot ho hx hs hshed hnodes hheld
  simp only [dueTime_commit, hdue, Option.isNone_some, Bool.false_eq_true, if_false] at hgo
  refine gives_told hgo (fun u hu => ?_)
  have hmirror := Told.mirrorCommand (s.taken t r e ⟨none, 0⟩) s.hif.nextId
  refine ⟨x.committed ((s.taken t r e ⟨none, 0⟩).mirrorCommand s.hif.nextId) e s.hif.nextId, ?_, rfl, rfl, ?_, rfl, rfl, rfl,
    hu.frame (((hmirror.frame Frame.refl).setSal _ (by simp)).setSal _ (by simp))⟩
  · exact (congrArg (fun y : Sal => Tbl.find? y.slots _) (hu.same .sal)).trans (Tbl.find?_put_same _ _ _)
  · simp only [Salvo.committed, dueTime_commit, hdue, Option.getD_some]

theorem commit_fails (hdue : s.dueTime (bitsAt e 9 0 2) (bitsAt e 12 0 32) = none) :
    ∃ u, Answers (.salvoCommit t r e) s (u.failSalvo (4 * t.val + bitsAt e 8 0 2) .late)
      ∧ Frame [] [.sal] (s.taken t r e ⟨none, 0⟩) u := by
  have hgo := salvoCommit_accepted h hf hslot ho hx hs hshed hnodes hheld
  simp only [dueTime_commit, hdue, Option.isNone_none, if_true] at hgo
  have hmirror := Told.mirrorCommand (s.taken t r e ⟨none, 0⟩) s.hif.nextId
  exact ⟨_, answers_of_done hgo, ((hmirror.frame Frame.refl).setSal _ (by simp)).setSal _ (by simp)⟩

end commitDue

/-- Settles O59: each command by its checks and by what it does once it is accepted, each deadline by the state of the slot. -/
theorem salvosOfOneChip : Obligations.SalvosOfOneChip := by
  refine ⟨?_, ?_, fun k x st s h => ⟨s.closeSlot k x, failSalvo_some h st, closeSlot_gone s k x,
    fun j hj => closeSlot_other s k x hj, closeSlot_frame s k x⟩,
    fun g a s h => ⟨gives_decisionDeadline h, gives_nothing (congrArg (done s) (opApplyDeadline_free h a.toNat))⟩⟩
  · intro t r e s w id m k g slot openFields commitFields
    refine ⟨fun h => ⟨salvoOpen_fields h, fun hf hn => ⟨salvoOpen_capacity h hf hn, salvoOpen_busy h hf hn, ?_⟩⟩,
      fun h => ⟨salvoCommit_fields h, salvoCommit_absent h, fun hf x hslot => ⟨salvoCommit_foreign h hf hslot,
        salvoCommit_busy h hf hslot, fun ho hx hs hshed hnodes hheld =>
          ⟨fun due => gives_commit h hf hslot ho hx hs hshed hnodes hheld,
            commit_fails h hf hslot ho hx hs hshed hnodes hheld⟩⟩⟩,
      fun h => ⟨salvoAbort_fields h, fun hf hs => ⟨salvoAbort_absent h hf hs, fun x hslot => ⟨salvoAbort_armed h hf hslot,
        fun hx => ⟨salvoAbort_open h hf hs hslot hx, closeSlot_gone m k x⟩, salvoAbort_preparing h hf hs hslot⟩⟩⟩⟩
    intro hc hslot hgroup hs
    refine ⟨m.setSlot k (Salvo.opened (bitsAt e 9 0 4) g), salvoOpen_accepted h hf hn hc hslot hgroup hs,
      ⟨Salvo.opened (bitsAt e 9 0 4) g, Tbl.find?_put_same _ _ _, rfl, rfl, rfl, hn⟩, fun j hj => ?_, ?_⟩
    · have hm : m.sal = s.sal := Eq.trans ((Told.mirrorCommand _ _).same .sal) (taken_sal ..)
      exact (Tbl.find?_put_other _ _ hj).trans (by rw [hm])
    · exact ((Told.mirrorCommand w id).frame Frame.refl).setSal _ (by simp)
  · intro t j s k prepared deadline
    refine ⟨fun h => ⟨gives_nothing (congrArg (done s) (opPrepareDone_absent h)), gives_nothing (congrArg (done s) (opLocalDeadline_absent h))⟩,
      fun x h => ⟨fun hx => ⟨gives_nothing (congrArg (done s) (opPrepareDone_other h hx)),
          gives_nothing (congrArg (done s) (opLocalDeadline_other h (fun hl => hx hl.1)))⟩,
        fun _ hn => gives_nothing (congrArg (done s) (opLocalDeadline_other h (fun hl => hn hl.2))),
        fun hx hshed => answers_of_done (congrArg (done s) (opPrepareDone_shed h hx hshed)),
        fun hx hn => ⟨answers_of_done (congrArg (done s) (opLocalDeadline_late h hx hn)), fun hshed =>
          ⟨fun hb he hc => gives_told (congrArg (done s) (opPrepareDone_armed h hx hn hshed hb he hc)) (fun u hu => ?_),
            fun hb => answers_of_done (congrArg (done s) (opPrepareDone_late h hx hn hshed hb))⟩⟩⟩⟩
    exact ⟨(congrArg (fun y : Sal => Tbl.find? y.slots _) (hu.same .sal)).trans (Tbl.find?_put_same _ _ _),
      hu.frame (Frame.refl.setSal _ (by simp))⟩

end Sys2Proof.Machine
end

section
/-! PROOFS. Audio maps, ports, faults, views and counters: O58 (R153, R154, R426-R441). -/

namespace Sys2Proof.Machine

open Sys2Proof

/-! ## AUD_MAP (R153, R426-R429) -/

/-- The source that an AUD_MAP names. -/
def mapSource (e : Entry) : Nat := if bitsAt e 12 0 1 = 1 then silence else bitsAt e 10 0 13

/-- The checks of AUD_MAP. -/
def mapChecks (t : Nat) (e : Entry) (s : State) : List (Bool × Status × Nat) :=
  [ (!onlyFields e mapFields, .rejFormat, 0), (decide (8064 ≤ bitsAt e 8 0 13), .rejFormat, 0),
    (decide (8072 ≤ mapSource e ∧ mapSource e ≤ 8189), .rejFormat, 0), (s.ownerOf 4 (bitsAt e 8 0 13) != t, .rejOwner, 0),
    s.standbyBusy ]

/-- A change that waits for destination `d` is aborted. -/
def State.dropMap (s : State) (d : Nat) : State :=
  match Tbl.find? s.aud.pend d with
  | some p => (s.setAud { s.aud with pend := Tbl.del s.aud.pend d }).complete p.cmd .aborted 0 0
  | none => s

/-- The change is there already, or waits. -/
def State.askMap (s : State) (d id : Nat) (p : AudPend) : State :=
  if s.mapOf d = p.src ∧ !s.aud.par.contains d then s.complete id .ok 2 0
  else s.setAud { s.aud with pend := Tbl.put s.aud.pend d p }

/-- The change as it waits; `zcto` is the timeout where the command names none. -/
def mapPend (e : Entry) (zcto id now : Nat) : AudPend :=
  ⟨mapSource e, bitsAt e 12 1 1 == 1, if bitsAt e 14 0 16 = 0 then zcto else bitsAt e 14 0 16, id, now⟩

section dropMap

variable {s : State} {d : Nat}

theorem dropMap_none (h : Tbl.find? s.aud.pend d = none) : s.dropMap d = s := by rw [State.dropMap, h]

theorem dropMap_some {x : AudPend} (h : Tbl.find? s.aud.pend d = some x) :
    s.dropMap d = (s.setAud { s.aud with pend := Tbl.del s.aud.pend d }).complete x.cmd .aborted 0 0 := by
  rw [State.dropMap, h]

theorem dropMap_aud (s : State) (d : Nat) : Tbl.find? (s.dropMap d).aud.pend d = none
    ∧ (s.dropMap d).aud.maps = s.aud.maps ∧ (s.dropMap d).aud.par = s.aud.par := by
  cases h : Tbl.find? s.aud.pend d with
  | none => rw [dropMap_none h]; exact ⟨h, rfl, rfl⟩
  | some x =>
    have haud : (s.dropMap d).aud = { s.aud with pend := Tbl.del s.aud.pend d } := by
      rw [dropMap_some h]
      exact (afterCompletion_complete _ _ _ _ _).parts .aud (by simp)
    rw [haud]
    exact ⟨Tbl.find?_del_same _ _, rfl, rfl⟩

theorem dropMap_mapOf (s : State) (d j : Nat) : (s.dropMap d).mapOf j = s.mapOf j := by
  rw [State.mapOf, (dropMap_aud s d).2.1, State.mapOf]

theorem dropMap_aborted {x : AudPend} (h : Tbl.find? s.aud.pend d = some x) : (s.dropMap d).inflightOf x.cmd = none := by
  rw [dropMap_some h]
  exact complete_inflightOf ..

theorem dropMap_now (s : State) (d : Nat) : (s.dropMap d).now = s.now := by
  cases h : Tbl.find? s.aud.pend d with
  | none => rw [dropMap_none h]
  | some x =>
    rw [dropMap_some h]
    exact (afterCompletion_complete _ _ _ _ _).parts .time (by simp)

end dropMap

theorem askMap_there {s : State} {d id : Nat} {p : AudPend} (h : s.mapOf d = p.src) (hpar : d ∉ s.aud.par) :
    s.askMap d id p = s.complete id .ok 2 0 := if_pos ⟨h, by simp [hpar]⟩

theorem askMap_waits {s : State} {d id : Nat} {p : AudPend} (h : s.mapOf d ≠ p.src ∨ d ∈ s.aud.par) :
    s.askMap d id p = s.setAud { s.aud with pend := Tbl.put s.aud.pend d p } := by
  refine if_neg ?_
  rintro ⟨h1, h2⟩
  rcases h with h | h
  · exact h h1
  · simp [h] at h2

section audMap

variable {t : Tenant} {r : CmdRing} {e : Entry} {s : State}

theorem audMapBody_eq (t : Nat) (e : Entry) (id : Nat) (s : State) : audMapBody t e id s =
    s.checked id (mapChecks t e s) (fun u => (u.dropMap (bitsAt e 8 0 13)).askMap (bitsAt e 8 0 13) id
      (mapPend e (max 1 (s.fld AUD_CTRL AUD_CTRL_ZCTO)) id (u.dropMap (bitsAt e 8 0 13)).now)) := by
  unfold audMapBody mapChecks mapPend mapSource
  simp only [beq_iff_eq]
  rfl

variable (h : s.Takes 0x20 t r e)

include h

theorem audMap_format (hbad : onlyFields e mapFields = false ∨ 8064 ≤ bitsAt e 8 0 13
      ∨ (8072 ≤ mapSource e ∧ mapSource e ≤ 8189)) :
    Answers (.audMap t r e) s ((s.taken t r e ⟨none, 0⟩).complete s.hif.nextId .rejFormat 0 0) := by
  refine answers_rejected h rfl (audMapBody_eq ..) ?_ rfl
  unfold mapChecks
  rcases hbad with hf | hd | hsrc
  · simp [hf]
  · simp [hd]
  · simp [hsrc]

variable (hf : onlyFields e mapFields = true) (hd : bitsAt e 8 0 13 < 8064) (hsrc : mapSource e < 8072 ∨ 8189 < mapSource e)

include hf hd hsrc

theorem audMap_foreign (ho : s.ownerOf 4 (bitsAt e 8 0 13) ≠ t) :
    Answers (.audMap t r e) s ((s.taken t r e ⟨none, 0⟩).complete s.hif.nextId .rejOwner 0 0) := by
  have hrange : ¬(8072 ≤ mapSource e ∧ mapSource e ≤ 8189) := by omega
  refine answers_rejected h rfl (audMapBody_eq ..) ?_ rfl
  simp [mapChecks, hf, Nat.not_le.2 hd, hrange, taken_ownerOf, ho]

variable (ho : s.ownerOf 4 (bitsAt e 8 0 13) = t) (hs : s.standby = false)

include ho hs

theorem audMap_accepted : exec (.audMap t r e) s = done s
    (let u := ((s.taken t r e ⟨none, 0⟩).mirrorCommand s.hif.nextId).dropMap (bitsAt e 8 0 13)
     u.askMap (bitsAt e 8 0 13) s.hif.nextId
        (mapPend e (max 1 (s.fld AUD_CTRL AUD_CTRL_ZCTO)) s.hif.nextId s.now)) := by
  have hrange : ¬(8072 ≤ mapSource e ∧ mapSource e ≤ 8189) := by omega
  have hnow : (((s.taken t r e ⟨none, 0⟩).mirrorCommand s.hif.nextId).dropMap (bitsAt e 8 0 13)).now = s.now :=
    (dropMap_now ..).trans (Eq.trans ((Told.mirrorCommand _ _).same .time) (taken_now ..))
  refine exec_accepted h rfl (audMapBody_eq ..) ?_ ?_
  · simp [mapChecks, hf, Nat.not_le.2 hd, hrange, taken_ownerOf, ho, State.standbyBusy, taken_standby, hs]
  · dsimp only
    rw [hnow, taken_fld _ _ _ _ _ _ (ne_devIdx t r (by decide))]

end audMap

/-! ## A waiting change takes effect (R428, R429) -/

/-- The maps once the change `x` of destination `d` has taken effect. -/
def State.mapApplied (s : State) (d : Nat) (x : AudPend) : State :=
  s.setAud { s.aud with
    maps := Tbl.putD s.aud.maps d x.src silence, pend := Tbl.del s.aud.pend d, par := s.aud.par.filter (· != d) }

theorem mapApplied_applied (s : State) (d : Nat) (x : AudPend) : (s.mapApplied d x).mapOf d = x.src
    ∧ Tbl.find? (s.mapApplied d x).aud.pend d = none ∧ (∀ j, j ≠ d → (s.mapApplied d x).mapOf j = s.mapOf j)
    ∧ Frame [] [.aud] s (s.mapApplied d x) :=
  ⟨Tbl.getD_putD_same .., Tbl.find?_del_same .., fun _ hj => Tbl.getD_putD_other _ _ _ _ hj,
    Frame.refl.setAud _ (by simp)⟩

section mapChange

variable {s : State} {d : Nat} {a b c : Int} {i j k : Bool}

theorem opMapChange_none (h : Tbl.find? s.aud.pend d = none) : opMapChange d a b c i j k s = s := by
  rw [opMapChange, h]

theorem opZcto_none (h : Tbl.find? s.aud.pend d = none) : opZcto d s = s := by rw [opZcto, h]

variable {x : AudPend} (h : Tbl.find? s.aud.pend d = some x)

include h

theorem audApply_some (how : Nat) : s.audApply d how = (s.mapApplied d x).complete x.cmd .ok how 0 := by
  rw [State.audApply, h]
  rfl

theorem opMapChange_nowait (hn : x.nowait = true) :
    opMapChange d a b c i j k s = (s.mapApplied d x).complete x.cmd .ok 2 0 := by
  rw [← audApply_some h, opMapChange, h]
  exact if_pos hn

theorem opZcto_nowait (hn : x.nowait = true) : opZcto d s = s := by
  rw [opZcto, h]
  exact if_pos hn

variable (hn : x.nowait = false)

include hn

theorem opZcto_timeout : opZcto d s =
    (((s.mapApplied d x).complete x.cmd .ok 3 0).inc AUD_ZCTO AUD_ZCTO_COUNT).raise 225 := by
  rw [← audApply_some h, opZcto, h]
  exact if_neg (by simp [hn])

/-- With a non-PCM source the change waits for the start of a block. -/
theorem opMapChange_data (hdata : (s.audLive (s.audSource d) = true ∧ i = true) ∨ (s.audLive x.src = true ∧ j = true)) :
    opMapChange d a b c i j k s = if k then (s.mapApplied d x).complete x.cmd .ok 1 0 else s := by
  rw [← audApply_some h, opMapChange, h]
  refine (if_neg (by simp [hn])).trans ((if_pos ?_).trans rfl)
  simpa using hdata

/-- Between PCM sources it waits for a crossing with the new source quiet. -/
theorem opMapChange_samples
    (hdata : ¬((s.audLive (s.audSource d) = true ∧ i = true) ∨ (s.audLive x.src = true ∧ j = true))) :
    opMapChange d a b c i j k s =
      if (!s.audLive (s.audSource d) || crosses a b)
        && (!s.audLive x.src || belowThreshold (s.fld AUD_CTRL AUD_CTRL_ZCTHR) c)
      then (s.mapApplied d x).complete x.cmd .ok 0 0 else s := by
  rw [← audApply_some h, opMapChange, h]
  refine (if_neg (by simp [hn])).trans ((if_neg ?_).trans rfl)
  simpa using hdata

end mapChange

/-! ## AUD_PORT (R154, R434-R437, R441) -/

/-- AUD_TDM_STAT of a port as it restarts. -/
def State.portStat (s : State) (p : Nat) (on master : Bool) : State :=
  (((s.setBit (AUD_TDM_STAT p) AUD_TDM_STAT_ENABLED on).setBit (AUD_TDM_STAT p) AUD_TDM_STAT_MASTER master).setBit
    (AUD_TDM_STAT p) AUD_TDM_STAT_LOCKED (on && master)).setFld (AUD_TDM_STAT p) AUD_TDM_STAT_PPM 0

/-- The settings of a port as it restarts. -/
def State.portSettings (s : State) (p : Nat) (on master : Bool) (c : TdmCfg) : State :=
  let u := s.portStat p on master
  u.setAud { u.aud with ports := Tbl.put u.aud.ports p c }

/-- The settings, after what the ramp of a port in use shows, and with the clock domain of an enabled port. -/
def State.portSet (s : State) (p : Nat) (on master : Bool) (c : TdmCfg) : State :=
  ((s.when (s.bit (AUD_TDM_STAT p) AUD_TDM_STAT_ENABLED && !s.ampMuted p) (fun s => s.rampPort p false 0)).portSettings p on
    master c).when on (fun s => s.startDomain (domAudm p))

theorem portStart_eq (s : State) (p : Nat) (on master : Bool) (c : TdmCfg) :
    s.portStart p on master c = (s.portSet p on master c).drivePort p := rfl

theorem when_ramp_told (s : State) (b : Bool) (p : Nat) (up : Bool) (frame : Nat) :
    Told s (s.when b (fun s => s.rampPort p up frame)) := (Told.refl s).when _ (fun u => Told.emit u _)

section portStat

variable (s : State) (p : Nat) (on master : Bool)

theorem portStat_enabled : (s.portStat p on master).bit (AUD_TDM_STAT p) AUD_TDM_STAT_ENABLED = on := by
  unfold State.portStat State.setBit
  rw [State.bit_setFld_apart _ _ _ (by decide) (.inr (by decide)), State.bit_setFld_apart _ _ _ (by decide) (.inr (by decide)),
    State.bit_setFld_apart _ _ _ (by decide) (.inr (by decide))]
  exact State.bit_setBit _ _ _ _ (by decide) (by decide)

theorem portStat_master : (s.portStat p on master).bit (AUD_TDM_STAT p) AUD_TDM_STAT_MASTER = master := by
  unfold State.portStat State.setBit
  rw [State.bit_setFld_apart _ _ _ (by decide) (.inr (by decide)), State.bit_setFld_apart _ _ _ (by decide) (.inr (by decide))]
  exact State.bit_setBit _ _ _ _ (by decide) (by decide)

theorem portStat_locked : (s.portStat p on master).bit (AUD_TDM_STAT p) AUD_TDM_STAT_LOCKED = (on && master) := by
  unfold State.portStat
  rw [State.bit_setFld_apart _ _ _ (by decide) (.inr (by decide))]
  exact State.bit_setBit _ _ _ _ (by decide) (by decide)

theorem portStat_muted : (s.portStat p on master).bit (AUD_TDM_STAT p) AUD_TDM_STAT_MUTED =
    s.bit (AUD_TDM_STAT p) AUD_TDM_STAT_MUTED := by
  unfold State.portStat State.setBit
  rw [State.bit_setFld_apart _ _ _ (by decide) (.inr (by decide)), State.bit_setFld_apart _ _ _ (by decide) (.inl (by decide)),
    State.bit_setFld_apart _ _ _ (by decide) (.inl (by decide)), State.bit_setFld_apart _ _ _ (by decide) (.inl (by decide))]

theorem portSettings_frame (c : TdmCfg) : Frame [AUD_TDM_STAT p] [.aud] s (s.portSettings p on master c) :=
  Frame.setAud ((((Frame.refl.setBit _ _ (by simp)).setBit _ _ (by simp)).setBit _ _ (by simp)).setFld _ _ (by simp)) _
    (by simp)

theorem portSettings_bit (c : TdmCfg) (f : Field) :
    (s.portSettings p on master c).bit (AUD_TDM_STAT p) f = (s.portStat p on master).bit (AUD_TDM_STAT p) f := rfl

end portStat

section portSet

variable (s : State) (p : Nat) (on master : Bool) (c : TdmCfg)

/-- Starting the domain of a port leaves the settings. -/
theorem portSet_domain : OnlyRegs [PWR_DOMSTAT]
    ((s.when (s.bit (AUD_TDM_STAT p) AUD_TDM_STAT_ENABLED && !s.ampMuted p) (fun s => s.rampPort p false 0)).portSettings p on
      master c) (s.portSet p on master c) := Frame.refl.when _ (Frame.refl.setBit _ _ (by simp))

theorem portSet_frame : Frame [AUD_TDM_STAT p, PWR_DOMSTAT] [.aud] s (s.portSet p on master c) :=
  (((when_ramp_told ..).frame Frame.refl).trans ((portSettings_frame ..).mono (by simp) (by simp))).trans
    ((portSet_domain ..).mono (by simp) (by simp))

theorem portSet_aud : (s.portSet p on master c).aud = { s.aud with ports := Tbl.put s.aud.ports p c } :=
  Eq.trans ((portSet_domain s p on master c).same (q := .aud) (by simp))
    (congrArg (fun x : Aud => { x with ports := Tbl.put x.ports p c }) ((when_ramp_told s _ p false 0).same .aud))

variable {p} (hp : p < 8)

include hp

theorem tdmStat_ne_domStat : AUD_TDM_STAT p ≠ PWR_DOMSTAT := by
  unfold AUD_TDM_STAT PWR_DOMSTAT
  omega

theorem portSet_bits : (s.portSet p on master c).bit (AUD_TDM_STAT p) AUD_TDM_STAT_ENABLED = on
    ∧ (s.portSet p on master c).bit (AUD_TDM_STAT p) AUD_TDM_STAT_MASTER = master
    ∧ (s.portSet p on master c).bit (AUD_TDM_STAT p) AUD_TDM_STAT_LOCKED = (on && master)
    ∧ (s.portSet p on master c).bit (AUD_TDM_STAT p) AUD_TDM_STAT_MUTED = s.bit (AUD_TDM_STAT p) AUD_TDM_STAT_MUTED := by
  have hdom := fun f : Field => ((portSet_domain s p on master c).bit f (by simpa using tdmStat_ne_domStat hp)).trans
    (portSettings_bit _ p on master c f)
  exact ⟨(hdom _).trans (portStat_enabled ..), (hdom _).trans (portStat_master ..), (hdom _).trans (portStat_locked ..),
    (hdom _).trans ((portStat_muted ..).trans ((when_ramp_told ..).bit _ _))⟩

end portSet

section drivePort

variable (s : State) (p : Nat)

theorem drivePort_told : Told s (s.drivePort p) := by
  unfold State.drivePort
  dsimp only
  split_ifs
  · exact Told.emit s _
  · exact ((Told.refl s).when _ (fun u => Told.emit u _)).trans (when_ramp_told ..)

variable {s p}

theorem floats_mem_drivePort (h : s.bit (AUD_TDM_STAT p) AUD_TDM_STAT_ENABLED = false) :
    .tdm p .floats ∈ (s.drivePort p).out := by
  have hgo : s.drivePort p = s.emit (.tdm p .floats) := if_pos (by rw [h]; rfl)
  rw [hgo]
  exact List.mem_cons_self

theorem clocks_mem_drivePort (h : s.bit (AUD_TDM_STAT p) AUD_TDM_STAT_ENABLED = true)
    (hm : s.bit (AUD_TDM_STAT p) AUD_TDM_STAT_MASTER = true) :
    .tdm p (.clocks (s.portCfg p).bck (s.portCfg p).slots) ∈ (s.drivePort p).out := by
  unfold State.drivePort
  dsimp only
  rw [h, if_neg (by simp), hm]
  exact (when_ramp_told ..).sent _ List.mem_cons_self

end drivePort

/-- The port once AUD_PORT has been accepted, before it completes. -/
def State.portAsked (s : State) (p : Nat) (on master clr : Bool) (c : TdmCfg) : State :=
  let u := (s.portStart p on master c).when clr (fun s => s.setBit (AUD_TDM_STAT p) AUD_TDM_STAT_MUTED false)
  u.when (clr && s.ampMuted p && u.portLive p) (fun s => s.rampPort p true 0)

/-- The checks of AUD_PORT. -/
def portChecks (t : Nat) (e : Entry) (s : State) : List (Bool × Status × Nat) :=
  [ (!onlyFields e portFields, .rejFormat, 0),
    (bitsAt e 10 0 2 == 3 || (bitsAt e 12 0 32 != 48000 && bitsAt e 12 0 32 != 96000), .rejFormat, 0),
    (s.ownerOf 6 (bitsAt e 8 0 3) != t, .rejOwner, 0),
    (bitsAt e 9 2 1 == 1 && s.bit (AUD_TDM_STAT (bitsAt e 8 0 3)) AUD_TDM_STAT_AMPFLT, .busy, 0), s.standbyBusy ]

theorem audPortBody_eq (t : Nat) (e : Entry) (id : Nat) (s : State) : audPortBody t e id s =
    s.checked id (portChecks t e s) (fun u => (u.portAsked (bitsAt e 8 0 3) (bitsAt e 9 0 1 == 1) (bitsAt e 9 1 1 == 1)
      (bitsAt e 9 2 1 == 1) ⟨bitsAt e 10 0 2, bitsAt e 12 0 32⟩).complete id .ok 0 0) := rfl

section portAsked

variable (s : State) {p : Nat} (on master clr : Bool) (c : TdmCfg)

/-- What the last step of AUD_PORT changes of the port: its mute. -/
theorem portAsked_unmuted : ∃ u, Told (s.portSet p on master c) u ∧
    Told (u.when clr (fun s => s.setBit (AUD_TDM_STAT p) AUD_TDM_STAT_MUTED false)) (s.portAsked p on master clr c) :=
  ⟨_, drivePort_told _ p, when_ramp_told ..⟩

theorem unmuted_bit (u : State) (p : Nat) (f : Field) (h : AUD_TDM_STAT_MUTED.lo + AUD_TDM_STAT_MUTED.width ≤ f.lo
      ∨ f.lo + f.width ≤ AUD_TDM_STAT_MUTED.lo) :
    (u.when clr (fun s => s.setBit (AUD_TDM_STAT p) AUD_TDM_STAT_MUTED false)).bit (AUD_TDM_STAT p) f =
      u.bit (AUD_TDM_STAT p) f := by
  cases clr
  · rfl
  · exact State.bit_setFld_apart _ _ _ (by decide) h

theorem unmuted_muted (u : State) (p : Nat) :
    (u.when clr (fun s => s.setBit (AUD_TDM_STAT p) AUD_TDM_STAT_MUTED false)).bit (AUD_TDM_STAT p) AUD_TDM_STAT_MUTED =
      (!clr && u.bit (AUD_TDM_STAT p) AUD_TDM_STAT_MUTED) := by
  cases clr
  · rfl
  · exact State.bit_setBit _ _ _ _ (by decide) (by decide)

theorem portAsked_frame : Frame [AUD_TDM_STAT p, PWR_DOMSTAT] [.aud] s (s.portAsked p on master clr c) := by
  obtain ⟨u, hu, hv⟩ := portAsked_unmuted s (p := p) on master clr c
  exact hv.frame (Frame.when (hu.frame (portSet_frame ..)) _ (Frame.refl.setBit _ _ (by simp)))

theorem portAsked_aud : (s.portAsked p on master clr c).aud = { s.aud with ports := Tbl.put s.aud.ports p c } := by
  obtain ⟨u, hu, hv⟩ := portAsked_unmuted s (p := p) on master clr c
  have hclear : OnlyRegs [AUD_TDM_STAT p] u
      (u.when clr (fun s => s.setBit (AUD_TDM_STAT p) AUD_TDM_STAT_MUTED false)) :=
    Frame.refl.when _ (Frame.refl.setBit _ _ (by simp))
  exact Eq.trans (hv.same .aud) (Eq.trans (hclear.same (q := .aud) (by simp)) (Eq.trans (hu.same .aud) (portSet_aud ..)))

/-- What has left by the time the balls of the port are driven has left. -/
theorem portAsked_sent {e : Emission} (h : e ∈ ((s.portSet p on master c).drivePort p).out) :
    e ∈ (s.portAsked p on master clr c).out := by
  refine (when_ramp_told ..).sent _ ?_
  cases clr
  · exact h
  · exact h

variable (hp : p < 8)

include hp

theorem portAsked_bits : (s.portAsked p on master clr c).bit (AUD_TDM_STAT p) AUD_TDM_STAT_ENABLED = on
    ∧ (s.portAsked p on master clr c).bit (AUD_TDM_STAT p) AUD_TDM_STAT_MASTER = master
    ∧ (s.portAsked p on master clr c).bit (AUD_TDM_STAT p) AUD_TDM_STAT_LOCKED = (on && master)
    ∧ (s.portAsked p on master clr c).bit (AUD_TDM_STAT p) AUD_TDM_STAT_MUTED =
      (!clr && s.bit (AUD_TDM_STAT p) AUD_TDM_STAT_MUTED) := by
  obtain ⟨u, hu, hv⟩ := portAsked_unmuted s (p := p) on master clr c
  obtain ⟨hen, hma, hlo, hmu⟩ := portSet_bits s on master c hp
  refine ⟨?_, ?_, ?_, ?_⟩
  · rw [hv.bit, unmuted_bit _ _ _ _ (.inr (by decide)), hu.bit, hen]
  · rw [hv.bit, unmuted_bit _ _ _ _ (.inr (by decide)), hu.bit, hma]
  · rw [hv.bit, unmuted_bit _ _ _ _ (.inr (by decide)), hu.bit, hlo]
  · rw [hv.bit, unmuted_muted, hu.bit, hmu]

theorem floats_mem_portAsked (h : on = false) : .tdm p .floats ∈ (s.portAsked p on master clr c).out :=
  portAsked_sent _ _ _ _ _ (floats_mem_drivePort ((portSet_bits s on master c hp).1.trans h))

theorem clocks_mem_portAsked (h : on = true) (hm : master = true) :
    .tdm p (.clocks c.bck c.slots) ∈ (s.portAsked p on master clr c).out := by
  obtain ⟨hen, hma, -, -⟩ := portSet_bits s on master c hp
  have hcfg : (s.portSet p on master c).portCfg p = c := by
    rw [State.portCfg, portSet_aud]
    exact Tbl.getD_put_same ..
  have hout := clocks_mem_drivePort (hen.trans h) (hma.trans hm)
  rw [hcfg] at hout
  exact portAsked_sent _ _ _ _ _ hout

end portAsked

section audPort

variable {t : Tenant} {r : CmdRing} {e : Entry} {s : State} (h : s.Takes 0x21 t r e)

/-- The format that AUD_PORT asks for is one there is. -/
def PortGood (e : Entry) : Prop :=
  onlyFields e portFields = true ∧ bitsAt e 10 0 2 ≠ 3 ∧ (bitsAt e 12 0 32 = 48000 ∨ bitsAt e 12 0 32 = 96000)

theorem portGood_checks (hg : PortGood e) (s : State) : firstReject (portChecks t e s) = firstReject
    [ (s.ownerOf 6 (bitsAt e 8 0 3) != t, .rejOwner, 0),
      (bitsAt e 9 2 1 == 1 && s.bit (AUD_TDM_STAT (bitsAt e 8 0 3)) AUD_TDM_STAT_AMPFLT, .busy, 0), s.standbyBusy ] := by
  obtain ⟨hf, hw, hfs⟩ := hg
  have hrate : (bitsAt e 10 0 2 == 3 || (bitsAt e 12 0 32 != 48000 && bitsAt e 12 0 32 != 96000)) = false := by
    rcases hfs with hfs | hfs <;> simp [hw, hfs]
  rw [portChecks, hf, hrate]
  rfl

theorem taken_tdmStat (f : Field) : (s.taken t r e ⟨none, 0⟩).bit (AUD_TDM_STAT (bitsAt e 8 0 3)) f =
    s.bit (AUD_TDM_STAT (bitsAt e 8 0 3)) f := by
  have hp := bitsAt_lt e 8 0 3
  exact taken_bit _ _ _ _ _ _ (ne_devIdx t r (by unfold AUD_TDM_STAT; omega))

include h

theorem audPort_format (hbad : ¬PortGood e) :
    Answers (.audPort t r e) s ((s.taken t r e ⟨none, 0⟩).complete s.hif.nextId .rejFormat 0 0) := by
  refine answers_rejected h rfl (audPortBody_eq ..) ?_ rfl
  unfold portChecks
  by_cases hf : onlyFields e portFields = true
  · have hrate : (bitsAt e 10 0 2 == 3 || (bitsAt e 12 0 32 != 48000 && bitsAt e 12 0 32 != 96000)) = true := by
      simp only [PortGood, hf, true_and] at hbad
      simp only [Bool.or_eq_true, Bool.and_eq_true, beq_iff_eq, bne_iff_ne]
      tauto
    simp [hf, hrate]
  · simp [hf]

variable (hg : PortGood e)

include hg

theorem audPort_foreign (ho : s.ownerOf 6 (bitsAt e 8 0 3) ≠ t) :
    Answers (.audPort t r e) s ((s.taken t r e ⟨none, 0⟩).complete s.hif.nextId .rejOwner 0 0) := by
  refine answers_rejected h rfl (audPortBody_eq ..) ((portGood_checks hg _).trans ?_) rfl
  simp [taken_ownerOf, ho]

variable (ho : s.ownerOf 6 (bitsAt e 8 0 3) = t)

include ho

theorem audPort_fault (hclr : bitsAt e 9 2 1 = 1) (hflt : s.bit (AUD_TDM_STAT (bitsAt e 8 0 3)) AUD_TDM_STAT_AMPFLT = true) :
    Answers (.audPort t r e) s ((s.taken t r e ⟨none, 0⟩).complete s.hif.nextId .busy 0 0) := by
  refine answers_rejected h rfl (audPortBody_eq ..) ((portGood_checks hg _).trans ?_) rfl
  simp [taken_ownerOf, ho, hclr, taken_tdmStat, hflt]

theorem audPort_accepted (hclr : bitsAt e 9 2 1 = 0 ∨ s.bit (AUD_TDM_STAT (bitsAt e 8 0 3)) AUD_TDM_STAT_AMPFLT = false)
    (hs : s.standby = false) : Answers (.audPort t r e) s
    ((((s.taken t r e ⟨none, 0⟩).mirrorCommand s.hif.nextId).portAsked (bitsAt e 8 0 3) (bitsAt e 9 0 1 == 1)
      (bitsAt e 9 1 1 == 1) (bitsAt e 9 2 1 == 1) ⟨bitsAt e 10 0 2, bitsAt e 12 0 32⟩).complete s.hif.nextId .ok 0 0) := by
  refine answers_of_done (exec_accepted h rfl (audPortBody_eq ..) ((portGood_checks hg _).trans ?_) (by rfl))
  rcases hclr with hclr | hclr <;>
    simp [taken_ownerOf, ho, hclr, taken_tdmStat, State.standbyBusy, taken_standby, hs]

end audPort

/-! ## Slips, de-embedder errors, locks, faults and parity (R430, R432, R436, R440, R441) -/

section faults

variable {s : State}

theorem opSlip_counts {n : Nat} (hon : s.deOn n = true)
    (h : (s.aligner (s.fld (AUD_DEW_CFG n) AUD_DE_CFG_SRC)).mode = 3) :
    opSlip n s = (s.inc AUD_SLIP AUD_SLIP_COUNT).raise 226 := if_pos (by simp [hon, h])

theorem opSlip_nothing {n : Nat} (h : s.deOn n = false ∨ (s.aligner (s.fld (AUD_DEW_CFG n) AUD_DE_CFG_SRC)).mode ≠ 3) :
    opSlip n s = s := by
  refine if_neg ?_
  rcases h with h | h <;> simp [h]

theorem opDeErr_counts {n : Nat} (hon : s.deOn n = true) :
    opDeErr n s = (s.inc AUD_DEERR AUD_DEERR_COUNT).raise 227 := if_pos hon

theorem opDeErr_nothing {n : Nat} (h : s.deOn n = false) : opDeErr n s = s := if_neg (by simp [h])

/-- A count of 32 bits goes up by one. -/
theorem fld_inc32 (s : State) (a : Nat) (f : Field) (hlo : f.lo = 0) (hw : f.width = 32) :
    (s.inc a f).fld a f = min (s.fld a f + 1) (2 ^ 32 - 1) := by
  rw [State.inc, State.fld_incBy _ _ _ _ (by omega), hw]

theorem opTdmLock_nothing {p : Nat} {q : BitVec 16} (h : s.follower p = false ∨ 500 < q.toInt.natAbs) : opTdmLock p q s = s := by
  refine if_neg ?_
  rcases h with h | h
  · simp [h]
  · simp [Nat.not_le.2 h]

theorem opTdmLock_locks {p : Nat} {q : BitVec 16} (h : s.follower p = true) (hq : q.toInt.natAbs ≤ 500) :
    Told ((s.setBit (AUD_TDM_STAT p) AUD_TDM_STAT_LOCKED true).setFld (AUD_TDM_STAT p) AUD_TDM_STAT_PPM q.toNat)
      (opTdmLock p q s) := by
  unfold opTdmLock
  rw [if_pos (by simp [h, hq])]
  exact when_ramp_told ..

theorem opTdmUnlock_nothing {p : Nat} (h : s.follower p = false ∨ s.bit (AUD_TDM_STAT p) AUD_TDM_STAT_LOCKED = false) :
    opTdmUnlock p s = s := by
  refine if_neg ?_
  rcases h with h | h <;> simp [h]

/-- The follower has lost its lock, with what its balls show. -/
def State.tdmUnlocked (s : State) (p : Nat) : State :=
  (s.setBit (AUD_TDM_STAT p) AUD_TDM_STAT_LOCKED false).when (!s.ampMuted p) (fun s => s.rampPort p false 0)

theorem opTdmUnlock_unlocks {p : Nat} (h : s.follower p = true) (hl : s.bit (AUD_TDM_STAT p) AUD_TDM_STAT_LOCKED = true) :
    opTdmUnlock p s = (s.tdmUnlocked p).raise 228 := if_pos (by simp [h, hl])

theorem opAmpFlt_shows {p : Nat} {high : Bool} (h : high = false ∨ s.ampMuted p = true) :
    opAmpFlt p high s = s.setBit (AUD_TDM_STAT p) AUD_TDM_STAT_AMPFLT high := by
  refine if_pos ?_
  rcases h with h | h
  · simp [h]
  · have hm : (s.setBit (AUD_TDM_STAT p) AUD_TDM_STAT_AMPFLT high).ampMuted p = true :=
      (State.bit_setFld_apart _ _ _ (by decide) (.inr (by decide))).trans h
    simp [hm]

/-- The port as the amplifier's fault mutes it. -/
def State.ampMutes (s : State) (p : Nat) : State :=
  let u := s.setBit (AUD_TDM_STAT p) AUD_TDM_STAT_AMPFLT true
  ((u.when (u.portLive p) (fun s => s.rampPort p false 0)).setBit (AUD_TDM_STAT p) AUD_TDM_STAT_MUTED true).inc AUD_AMPCNT
    AUD_AMPCNT_COUNT

theorem ampMutes_frame (s : State) (p : Nat) : OnlyRegs [AUD_TDM_STAT p, AUD_AMPCNT] s (s.ampMutes p) :=
  (((when_ramp_told ..).frame (Frame.refl.setBit _ _ (by simp))).setBit _ _ (by simp)).inc _ (by simp)

theorem opAmpFlt_mutes {p : Nat} (h : s.ampMuted p = false) : opAmpFlt p true s =
    ((s.ampMutes p).tellOwner (s.ownerOf 6 p) 12 3 6 p 0 [p, 0, 0, 0]).raise 224 := by
  have hm : (s.setBit (AUD_TDM_STAT p) AUD_TDM_STAT_AMPFLT true).ampMuted p = false :=
    (State.bit_setFld_apart _ _ _ (by decide) (.inr (by decide))).trans h
  have hown : (s.ampMutes p).ownerOf 6 p = s.ownerOf 6 p := by
    rw [State.ownerOf, (ampMutes_frame s p).same (q := .ten) (by simp), State.ownerOf]
  rw [← hown]
  exact if_neg (by simp [hm])

theorem ampMutes_shows {p : Nat} (hp : p < 8) : (s.ampMutes p).bit (AUD_TDM_STAT p) AUD_TDM_STAT_MUTED = true
    ∧ (s.ampMutes p).bit (AUD_TDM_STAT p) AUD_TDM_STAT_AMPFLT = true
    ∧ (s.ampMutes p).fld AUD_AMPCNT AUD_AMPCNT_COUNT = min (s.fld AUD_AMPCNT AUD_AMPCNT_COUNT + 1) (2 ^ 32 - 1) := by
  have hne : AUD_TDM_STAT p ≠ AUD_AMPCNT := by
    unfold AUD_TDM_STAT AUD_AMPCNT
    omega
  let u := s.setBit (AUD_TDM_STAT p) AUD_TDM_STAT_AMPFLT true
  have hramp := when_ramp_told u (u.portLive p) p false 0
  have hcount : ∀ (v : State) (f : Field), (v.inc AUD_AMPCNT AUD_AMPCNT_COUNT).bit (AUD_TDM_STAT p) f =
      v.bit (AUD_TDM_STAT p) f := fun v f => Frame.bit (l := [AUD_AMPCNT]) (p := []) (Frame.refl.inc _ (by simp)) f (by simpa using hne)
  refine ⟨(hcount _ _).trans (State.bit_setBit _ _ _ _ (by decide) (by decide)), (hcount _ _).trans ?_,
    (fld_inc32 _ _ _ rfl rfl).trans ?_⟩
  · exact (State.bit_setFld_apart _ _ _ (by decide) (.inl (by decide))).trans
      ((hramp.bit _ _).trans (State.bit_setBit _ _ _ _ (by decide) (by decide)))
  · have hsame : OnlyRegs [AUD_TDM_STAT p] s ((u.when (u.portLive p) (fun s => s.rampPort p false 0)).setBit (AUD_TDM_STAT p)
        AUD_TDM_STAT_MUTED true) := (hramp.frame (Frame.refl.setBit _ _ (by simp))).setBit _ _ (by simp)
    rw [hsame.fld _ (by simpa using hne.symm)]

end faults

/-! ## The views and the counters (R431, R442, R444) -/

theorem openReg_audMapIdx : OpenReg AUD_MAP_IDX [(AUD_MAP_IDX_DST, .rw)] := ⟨by decide, by decide⟩

theorem openReg_audDeIdx : OpenReg AUD_DE_IDX [(AUD_DE_IDX_DE, .rw)] := ⟨by decide, by decide⟩

/-- AUD_MAP_DATA of destination `d`. -/
def State.mapShown (s : State) (d : Nat) : State :=
  (((s.setFld AUD_MAP_DATA AUD_MAP_DATA_SRC (s.mapOf d)).setBit AUD_MAP_DATA AUD_MAP_DATA_MAPPED (s.mapOf d != silence)).setBit
    AUD_MAP_DATA AUD_MAP_DATA_PEND (Tbl.find? s.aud.pend d).isSome).setFld AUD_MAP_DATA AUD_MAP_DATA_PSRC
      ((Tbl.find? s.aud.pend d).elim 0 (fun x => x.src))

theorem mapShown_shows (s : State) (d : Nat) : (s.mapShown d).fld AUD_MAP_DATA AUD_MAP_DATA_SRC = s.mapOf d % 8192
    ∧ (s.mapShown d).bit AUD_MAP_DATA AUD_MAP_DATA_MAPPED = (s.mapOf d != silence)
    ∧ (s.mapShown d).bit AUD_MAP_DATA AUD_MAP_DATA_PEND = (Tbl.find? s.aud.pend d).isSome
    ∧ (s.mapShown d).fld AUD_MAP_DATA AUD_MAP_DATA_PSRC = ((Tbl.find? s.aud.pend d).elim 0 (fun x => x.src)) % 8192 := by
  refine ⟨?_, ?_, ?_, State.fld_setFld _ _ _ _ (by decide)⟩
  · unfold State.mapShown State.setBit
    rw [State.fld_setFld_apart _ _ _ _ _ (by decide) (.inr (by decide)), State.fld_setFld_apart _ _ _ _ _ (by decide) (.inr (by decide)),
      State.fld_setFld_apart _ _ _ _ _ (by decide) (.inr (by decide))]
    exact State.fld_setFld _ _ _ _ (by decide)
  · unfold State.mapShown
    rw [State.bit_setFld_apart _ _ _ (by decide) (.inr (by decide))]
    exact (State.bit_setFld_apart _ _ _ (by decide) (.inr (by decide))).trans
      (State.bit_setBit _ _ _ _ (by decide) (by decide))
  · unfold State.mapShown
    rw [State.bit_setFld_apart _ _ _ (by decide) (.inr (by decide))]
    exact State.bit_setBit _ _ _ _ (by decide) (by decide)

theorem mapShown_frame (s : State) (d : Nat) : OnlyRegs [AUD_MAP_DATA] s (s.mapShown d) :=
  (((Frame.refl.setFld _ _ (by simp)).setBit _ _ (by simp)).setBit _ _ (by simp)).setFld _ _ (by simp)

theorem opMapIdx_eq (v : Word) (s : State) :
    opMapIdx v s = (s.fieldWrite AUD_MAP_IDX v).mapShown (AUD_MAP_IDX_DST.get v) := by
  rw [← show (s.fieldWrite AUD_MAP_IDX v).fld AUD_MAP_IDX AUD_MAP_IDX_DST = AUD_MAP_IDX_DST.get v from
    openReg_audMapIdx.fld s v (k := .rw) (by decide)]
  unfold opMapIdx State.mapShown
  dsimp only
  cases Tbl.find? (s.fieldWrite AUD_MAP_IDX v).aud.pend ((s.fieldWrite AUD_MAP_IDX v).fld AUD_MAP_IDX AUD_MAP_IDX_DST) <;> rfl

/-- AUD_DE_STAT of de-embedder `n`, with what its packets declare in `x`. -/
def State.deShown (s : State) (n : Nat) (live : Bool) (x : Word) : State :=
  let u := (s.setFld AUD_DE_STAT AUD_DE_STAT_GROUPS (if live then x.toNat % 16 else 0)).setBit AUD_DE_STAT AUD_DE_STAT_ASYNC
    (live && x.getLsbD 4)
  u.setBit AUD_DE_STAT AUD_DE_STAT_NOAUD (u.deNoAud n)

/-- What a track carries rests on the frame store and on FSA_CTRL. -/
theorem detected_congr {s t : State} (hf : t.fsa = s.fsa) (hc : t.holdFr = s.holdFr) (k : Nat) : t.detected k = s.detected k := by
  unfold State.detected State.syncOf State.sync? State.syncHome State.aligner
  rw [hf, hc]

section deView

variable {s t : State} (h : OnlyRegs [AUD_DE_IDX, AUD_DE_STAT] s t) (n : Nat)

include h

/-- The view's own registers change nothing of what a de-embedder finds. -/
theorem deNoAud_view : t.deNoAud n = s.deNoAud n := by
  have hcfg : t.fld (AUD_DEW_CFG n) AUD_DE_CFG_SRC = s.fld (AUD_DEW_CFG n) AUD_DE_CFG_SRC :=
    h.fld _ (by simp [AUD_DEW_CFG, AUD_DE_IDX, AUD_DE_STAT]; omega)
  have hdet := detected_congr (h.same (q := .fsa) (by simp)) (h.fld FSA_CTRL_HOLDFR (by decide))
  simp only [State.deNoAud, State.streamOf, hcfg, hdet]

theorem audLive_view (hn : n < 256) : t.audLive (16 * n) = s.audLive (16 * n) := by
  have hcfg : ∀ f, t.fld (AUD_DEW_CFG n) f = s.fld (AUD_DEW_CFG n) f :=
    fun f => h.fld f (by simp [AUD_DEW_CFG, AUD_DE_IDX, AUD_DE_STAT]; omega)
  have hdet := detected_congr (h.same (q := .fsa) (by simp)) (h.fld FSA_CTRL_HOLDFR (by decide))
  have hlow : 16 * n < 4096 := by omega
  have hdiv : 16 * n / 16 = n := by omega
  simp only [State.audLive, hlow, if_true, hdiv, State.deOn, State.bit, hcfg, State.streamOf, hdet, deNoAud_view h]

end deView

theorem opDeIdx_eq (v : Word) (s : State) : ∃ (u : State) (x : Word), OnlyRegs [AUD_DE_IDX] s u ∧
    opDeIdx v s = u.deShown (AUD_DE_IDX_DE.get v) ((s.fieldWrite AUD_DE_IDX v).audLive (16 * AUD_DE_IDX_DE.get v)) x := by
  have hsel : (s.fieldWrite AUD_DE_IDX v).fld AUD_DE_IDX AUD_DE_IDX_DE = AUD_DE_IDX_DE.get v :=
    openReg_audDeIdx.fld s v (k := .rw) (by decide)
  have hframe := openReg_audDeIdx.frame s v (l := [AUD_DE_IDX]) (p := []) Frame.refl (by simp)
  rw [← hsel]
  cases hlive : (s.fieldWrite AUD_DE_IDX v).audLive (16 * (s.fieldWrite AUD_DE_IDX v).fld AUD_DE_IDX AUD_DE_IDX_DE) with
  | false =>
    refine ⟨s.fieldWrite AUD_DE_IDX v, (s.fieldWrite AUD_DE_IDX v).freshWord.1, hframe, ?_⟩
    unfold opDeIdx
    dsimp only
    rw [hlive]
    rfl
  | true =>
    refine ⟨(s.fieldWrite AUD_DE_IDX v).freshWord.2, (s.fieldWrite AUD_DE_IDX v).freshWord.1, hframe, ?_⟩
    unfold opDeIdx
    dsimp only
    rw [hlive]
    rfl

theorem deShown_shows (s : State) (n : Nat) (live : Bool) (x : Word) :
    (s.deShown n live x).bit AUD_DE_STAT AUD_DE_STAT_NOAUD = s.deNoAud n
      ∧ (live = false → (s.deShown n live x).fld AUD_DE_STAT AUD_DE_STAT_GROUPS = 0
        ∧ (s.deShown n live x).bit AUD_DE_STAT AUD_DE_STAT_ASYNC = false) := by
  refine ⟨(State.bit_setBit _ _ _ _ (by decide) (by decide)).trans (deNoAud_view ?_ n), fun h => ?_⟩
  · exact (Frame.refl.setFld _ _ (by simp)).setBit _ _ (by simp)
  subst h
  constructor
  · unfold State.deShown State.setBit
    rw [State.fld_setFld_apart _ _ _ _ _ (by decide) (.inr (by decide)), State.fld_setFld_apart _ _ _ _ _ (by decide) (.inr (by decide))]
    exact State.fld_setFld _ _ _ _ (by decide)
  · unfold State.deShown
    exact (State.bit_setFld_apart _ _ _ (by decide) (.inr (by decide))).trans
      (State.bit_setBit _ _ _ _ (by decide) (by decide))

theorem deShown_frame (s : State) (n : Nat) (live : Bool) (x : Word) : OnlyRegs [AUD_DE_STAT] s (s.deShown n live x) :=
  ((Frame.refl.setFld _ _ (by simp)).setBit _ _ (by simp)).setBit _ _ (by simp)

theorem clearAll_frame (s : State) (l : List Nat) : OnlyRegs l s (s.clearAll l) :=
  Frame.each (f := fun s a => s.wr a 0) l (fun _ _ ha => Frame.refl.wr _ ha) Frame.refl

theorem clearAll_rd (s : State) {l : List Nat} {a : Nat} (h : a ∈ l) : (s.clearAll l).rd a = 0 := by
  induction l generalizing s with
  | nil => exact absurd h List.not_mem_nil
  | cons b l ih =>
    by_cases hl : a ∈ l
    · exact ih (s.wr b 0) hl
    · obtain rfl | h := List.mem_cons.1 h
      · exact ((clearAll_frame (s.wr a 0) l).1 a hl).trans (State.rd_wr ..)
      · exact absurd h hl

section gives

variable {s : State}

theorem gives_tdmLock {p : TdmPort} {q : BitVec 16} (h : s.follower p = true) (hq : q.toInt.natAbs ≤ 500) :
    Gives (.tdmLock p q) s (fun u => u.bit (AUD_TDM_STAT p) AUD_TDM_STAT_LOCKED = true
      ∧ u.fld (AUD_TDM_STAT p) AUD_TDM_STAT_PPM = q.toNat ∧ OnlyRegs [AUD_TDM_STAT p] s u) := by
  refine gives_told (t := opTdmLock p q s) rfl (fun u hu => ?_)
  replace hu := (opTdmLock_locks h hq).trans hu
  refine ⟨(hu.bit _ _).trans ?_, (hu.fld _ _).trans ((State.fld_setFld _ _ _ _ (by decide)).trans ?_),
    hu.frame ((Frame.refl.setBit _ _ (by simp)).setFld _ _ (by simp))⟩
  · exact (State.bit_setFld_apart _ _ _ (by decide) (.inr (by decide))).trans
      (State.bit_setBit _ _ _ _ (by decide) (by decide))
  · exact Nat.mod_eq_of_lt q.isLt

theorem gives_ampShows {p : TdmPort} {high : Bool} (h : high = false ∨ s.ampMuted p = true) :
    Gives (.audAmpflt p high) s (fun u => u.bit (AUD_TDM_STAT p) AUD_TDM_STAT_AMPFLT = high
      ∧ u.bit (AUD_TDM_STAT p) AUD_TDM_STAT_MUTED = s.bit (AUD_TDM_STAT p) AUD_TDM_STAT_MUTED
      ∧ OnlyRegs [AUD_TDM_STAT p] s u) := by
  refine gives_told (congrArg (done s) (opAmpFlt_shows h)) (fun u hu => ⟨(hu.bit _ _).trans ?_, (hu.bit _ _).trans ?_,
    hu.frame (Frame.refl.setBit _ _ (by simp))⟩)
  · exact State.bit_setBit _ _ _ _ (by decide) (by decide)
  · exact State.bit_setFld_apart _ _ _ (by decide) (.inr (by decide))

theorem tdmUnlocked_shows (s : State) (p : Nat) : (s.tdmUnlocked p).bit (AUD_TDM_STAT p) AUD_TDM_STAT_LOCKED = false
    ∧ OnlyRegs [AUD_TDM_STAT p] s (s.tdmUnlocked p) :=
  ⟨((when_ramp_told ..).bit _ _).trans (State.bit_setBit _ _ _ _ (by decide) (by decide)),
    (when_ramp_told ..).frame (Frame.refl.setBit _ _ (by simp))⟩

/-- A destination whose map entry failed parity carries silence; its map stands. -/
theorem mapPar_silent (s : State) (d : Nat) : ∃ t : State, opMapPar d s = t.raise 229 ∧ t.audSource d = silence
    ∧ t.mapOf d = s.mapOf d ∧ Frame [] [.aud] s t := by
  refine ⟨_, rfl, if_pos ?_, rfl, Frame.refl.setAud _ (by simp)⟩
  simp only [State.setAud, List.contains_eq_mem, decide_eq_true_eq]
  split_ifs with h <;> simp [h]

theorem gives_mapIdx (hb : s.pwr.barred = false) (v : Word) : Gives (.audMapIdx v) s (fun u =>
    u.fld AUD_MAP_DATA AUD_MAP_DATA_SRC = s.mapOf (AUD_MAP_IDX_DST.get v) % 8192
      ∧ u.bit AUD_MAP_DATA AUD_MAP_DATA_MAPPED = (s.mapOf (AUD_MAP_IDX_DST.get v) != silence)
      ∧ u.bit AUD_MAP_DATA AUD_MAP_DATA_PEND = (Tbl.find? s.aud.pend (AUD_MAP_IDX_DST.get v)).isSome
      ∧ u.fld AUD_MAP_DATA AUD_MAP_DATA_PSRC =
        ((Tbl.find? s.aud.pend (AUD_MAP_IDX_DST.get v)).elim 0 (fun x => x.src)) % 8192
      ∧ OnlyRegs [AUD_MAP_IDX, AUD_MAP_DATA] s u) := by
  refine gives_told_bar hb (congrArg (doneBar s) (opMapIdx_eq v s)) (fun u hu => ?_)
  have hframe := openReg_audMapIdx.frame s v (l := [AUD_MAP_IDX]) (p := []) Frame.refl (by simp)
  have haud : (s.fieldWrite AUD_MAP_IDX v).aud = s.aud := hframe.same (q := .aud) (by simp)
  obtain ⟨h1, h2, h3, h4⟩ := mapShown_shows (s.fieldWrite AUD_MAP_IDX v) (AUD_MAP_IDX_DST.get v)
  rw [State.mapOf, haud, ← State.mapOf] at h1 h2
  rw [haud] at h3 h4
  exact ⟨(hu.fld _ _).trans h1, (hu.bit _ _).trans h2, (hu.bit _ _).trans h3, (hu.fld _ _).trans h4,
    hu.frame ((hframe.mono (by simp) (by simp)).trans ((mapShown_frame ..).mono (by simp) (by simp)))⟩

theorem gives_deIdx (hb : s.pwr.barred = false) (v : Word) : Gives (.audDeIdx v) s (fun u =>
    u.bit AUD_DE_STAT AUD_DE_STAT_NOAUD = s.deNoAud (AUD_DE_IDX_DE.get v)
      ∧ (s.audLive (16 * AUD_DE_IDX_DE.get v) = false → u.fld AUD_DE_STAT AUD_DE_STAT_GROUPS = 0
        ∧ u.bit AUD_DE_STAT AUD_DE_STAT_ASYNC = false)
      ∧ OnlyRegs [AUD_DE_IDX, AUD_DE_STAT] s u) := by
  obtain ⟨w, x, hw, heq⟩ := opDeIdx_eq v s
  have hn : AUD_DE_IDX_DE.get v < 256 := Nat.mod_lt _ (by decide)
  have hwrite := openReg_audDeIdx.frame s v (l := [AUD_DE_IDX, AUD_DE_STAT]) (p := []) Frame.refl (by simp)
  rw [audLive_view hwrite _ hn] at heq
  refine gives_told_bar hb (congrArg (doneBar s) heq) (fun u hu => ?_)
  have hw' : OnlyRegs [AUD_DE_IDX, AUD_DE_STAT] s w := hw.mono (by simp) (by simp)
  obtain ⟨h1, h2⟩ := deShown_shows w (AUD_DE_IDX_DE.get v) (s.audLive (16 * AUD_DE_IDX_DE.get v)) x
  rw [← hu.fld, ← hu.bit] at h2
  exact ⟨(hu.bit _ _).trans (h1.trans (deNoAud_view hw' _)), h2,
    hu.frame (hw'.trans ((deShown_frame ..).mono (by simp) (by simp)))⟩

end gives

/-! ## The obligation -/

section waits

variable {t : Tenant} {r : CmdRing} {e : Entry} {s : State} (h : s.Takes 0x20 t r e) (hf : onlyFields e mapFields = true)
  (hd : bitsAt e 8 0 13 < 8064) (hsrc : mapSource e < 8072 ∨ 8189 < mapSource e)
  (ho : s.ownerOf 4 (bitsAt e 8 0 13) = t) (hs : s.standby = false)

theorem Told.inflightOf {t u : State} (h : Told t u) (id : Nat) : u.inflightOf id = t.inflightOf id := by
  rw [State.inflightOf, h.same .inflight, State.inflightOf]

theorem Told.mapOf {t u : State} (h : Told t u) (d : Nat) : u.mapOf d = t.mapOf d := by
  rw [State.mapOf, h.same .aud, State.mapOf]

theorem setPend_mapOf (s : State) (x : Tbl AudPend) (d : Nat) :
    (s.setAud { s.aud with pend := x }).mapOf d = s.mapOf d := rfl

theorem setAud_inflightOf (s : State) (a : Aud) (id : Nat) : (s.setAud a).inflightOf id = s.inflightOf id := rfl

theorem mirrored_aud (id : Nat) : ((s.taken t r e ⟨none, 0⟩).mirrorCommand id).aud = s.aud :=
  Eq.trans ((Told.mirrorCommand _ _).same .aud) (taken_aud ..)

theorem mirrored_mapOf (id d : Nat) : ((s.taken t r e ⟨none, 0⟩).mirrorCommand id).mapOf d = s.mapOf d := by
  rw [State.mapOf, mirrored_aud, State.mapOf]

include h hf hd hsrc ho hs

theorem audMap_there (hmap : s.mapOf (bitsAt e 8 0 13) = mapSource e) (hpar : bitsAt e 8 0 13 ∉ s.aud.par) :
    Answers (.audMap t r e) s ((((s.taken t r e ⟨none, 0⟩).mirrorCommand s.hif.nextId).dropMap (bitsAt e 8 0 13)).complete
      s.hif.nextId .ok 2 0) := by
  refine answers_of_done ((audMap_accepted h hf hd hsrc ho hs).trans (congrArg (done s) (askMap_there ?_ ?_)))
  · rw [dropMap_mapOf, mirrored_mapOf]
    exact hmap
  · rw [(dropMap_aud _ _).2.2, mirrored_aud]
    exact hpar

theorem gives_mapWaits (hnew : s.mapOf (bitsAt e 8 0 13) ≠ mapSource e ∨ bitsAt e 8 0 13 ∈ s.aud.par) :
    Gives (.audMap t r e) s (fun u =>
      Tbl.find? u.aud.pend (bitsAt e 8 0 13) = some (mapPend e (max 1 (s.fld AUD_CTRL AUD_CTRL_ZCTO)) s.hif.nextId s.now)
        ∧ u.mapOf (bitsAt e 8 0 13) = s.mapOf (bitsAt e 8 0 13)
        ∧ (∀ x, Tbl.find? s.aud.pend (bitsAt e 8 0 13) = some x → u.inflightOf x.cmd = none)
        ∧ (Tbl.find? s.aud.pend (bitsAt e 8 0 13) = none → Frame [] [.aud] (s.taken t r e ⟨none, 0⟩) u)) := by
  have hmirror := Told.mirrorCommand (s.taken t r e ⟨none, 0⟩) s.hif.nextId
  have hask := askMap_waits (s := ((s.taken t r e ⟨none, 0⟩).mirrorCommand s.hif.nextId).dropMap (bitsAt e 8 0 13))
    (id := s.hif.nextId) (p := mapPend e (max 1 (s.fld AUD_CTRL AUD_CTRL_ZCTO)) s.hif.nextId s.now) (by
      rw [dropMap_mapOf, mirrored_mapOf, (dropMap_aud _ _).2.2, mirrored_aud]
      exact hnew)
  refine gives_told ((audMap_accepted h hf hd hsrc ho hs).trans (congrArg (done s) hask)) (fun u hu => ?_)
  have haud := hu.same .aud
  refine ⟨(congrArg (fun a : Aud => Tbl.find? a.pend _) haud).trans (Tbl.find?_put_same _ _ _), ?_, fun x hx => ?_,
    fun hnone => hu.frame ?_⟩
  · rw [hu.mapOf, setPend_mapOf, dropMap_mapOf, mirrored_mapOf]
  · rw [← mirrored_aud (t := t) (r := r) (e := e) s.hif.nextId] at hx
    rw [hu.inflightOf, setAud_inflightOf]
    exact dropMap_aborted hx
  · rw [← mirrored_aud (t := t) (r := r) (e := e) s.hif.nextId] at hnone
    rw [dropMap_none hnone]
    exact (hmirror.frame Frame.refl).setAud _ (by simp)

end waits

/-- Settles O58: commands by their checks and by what is accepted, every event by its branches. -/
theorem audioMapsAndPorts : Obligations.AudioMapsAndPorts := by
  refine ⟨?_, ?_⟩
  · intro t r e s w id m map port d src wait p
    refine ⟨fun h => ⟨audMap_format h, fun hf hd hsrc => ⟨audMap_foreign h hf hd hsrc, fun ho hs =>
      ⟨fun hnone hmap hpar => ?_, fun x hx hmap hpar => ?_, fun hnew => ?_⟩⟩⟩, ?_⟩
    · have hgo := audMap_there h hf hd hsrc ho hs hmap hpar
      rwa [dropMap_none (by rw [mirrored_aud]; exact hnone)] at hgo
    · refine ⟨m.dropMap d, audMap_there h hf hd hsrc ho hs hmap hpar, (dropMap_aud m d).1, dropMap_aborted ?_, ?_⟩
      · rw [mirrored_aud]
        exact hx
      · exact (dropMap_mapOf m d d).trans ((mirrored_mapOf ..).trans hmap)
    · exact gives_mapWaits h hf hd hsrc ho hs hnew
    · intro h fs st good
      refine ⟨audPort_format h, audPort_foreign h, audPort_fault h, fun hg ho hclr hs => ?_⟩
      have hp : p < 8 := bitsAt_lt e 8 0 3
      have hmirror := Told.mirrorCommand w id
      obtain ⟨hen, hma, hlo, hmu⟩ := portAsked_bits m (bitsAt e 9 0 1 == 1) (bitsAt e 9 1 1 == 1) (bitsAt e 9 2 1 == 1)
        ⟨bitsAt e 10 0 2, fs⟩ hp
      have haud := portAsked_aud m (p := p) (bitsAt e 9 0 1 == 1) (bitsAt e 9 1 1 == 1) (bitsAt e 9 2 1 == 1)
        ⟨bitsAt e 10 0 2, fs⟩
      refine ⟨_, audPort_accepted h hg ho hclr hs, hen, hma, hlo, hmu.trans ?_, ?_, ?_, fun hoff => ?_, fun hon hmas => ?_,
        (hmirror.frame Frame.refl).trans (portAsked_frame ..)⟩
      · rw [hmirror.bit, taken_tdmStat]
        have hclr2 := bitsAt_lt e 9 2 1
        obtain hz | ho : bitsAt e 9 2 1 = 0 ∨ bitsAt e 9 2 1 = 1 := by omega
        · simp [hz, st, p]
        · simp [ho]
      · exact (congrArg (fun a : Aud => Tbl.find? a.ports p) haud).trans (Tbl.find?_put_same _ _ _)
      · have hmaps : m.aud.maps = s.aud.maps := congrArg Aud.maps (mirrored_aud id)
        exact (congrArg Aud.maps haud).trans hmaps
      · exact floats_mem_portAsked _ _ _ _ _ hp (by simp [hoff])
      · exact clocks_mem_portAsked _ _ _ _ ⟨bitsAt e 10 0 2, fs⟩ hp (by simp [hon]) (by simp [hmas])
  · intro s nothing inc applied
    refine ⟨fun d a b c x y z h => ⟨gives_nothing (congrArg (done s) (opMapChange_none h)),
        gives_nothing (congrArg (done s) (opZcto_none h))⟩,
      fun d x h => ⟨fun hn => ⟨gives_nothing (congrArg (done s) (opZcto_nowait h hn)), fun a b c i j k =>
          ⟨s.mapApplied d x, answers_of_done (congrArg (done s) (opMapChange_nowait h hn)), mapApplied_applied s d x⟩⟩,
        fun hn a b c i j k => ?_,
        fun hn => ⟨s.mapApplied d x, answers_of_done (congrArg (done s) (opZcto_timeout h hn)), mapApplied_applied s d x⟩⟩,
      fun n h => ⟨gives_nothing (congrArg (done s) (opSlip_nothing (.inl h))),
        gives_nothing (congrArg (done s) (opDeErr_nothing h))⟩,
      fun n h => ⟨fun hm => ⟨_, answers_of_done (congrArg (done s) (opSlip_counts h hm)), fld_inc32 _ _ _ rfl rfl,
          Frame.refl.inc _ (by simp)⟩,
        fun hm => gives_nothing (congrArg (done s) (opSlip_nothing (.inr hm))),
        _, answers_of_done (congrArg (done s) (opDeErr_counts h)), fld_inc32 _ _ _ rfl rfl, Frame.refl.inc _ (by simp)⟩,
      fun p q => ⟨fun h => ⟨gives_nothing (congrArg (done s) (opTdmLock_nothing (.inl h))),
          gives_nothing (congrArg (done s) (opTdmUnlock_nothing (.inl h)))⟩,
        fun hq => gives_nothing (congrArg (done s) (opTdmLock_nothing (.inr hq))), gives_tdmLock,
        fun h hl => gives_nothing (congrArg (done s) (opTdmUnlock_nothing (.inr hl))),
        fun h hl => ⟨_, answers_of_done (congrArg (done s) (opTdmUnlock_unlocks h hl)), tdmUnlocked_shows s p⟩,
        gives_ampShows (.inl rfl), fun hm => ?_, fun hm => ⟨s.ampMutes p, answers_of_done (congrArg (done s)
          (opAmpFlt_mutes hm)), (ampMutes_shows p.isLt).1, (ampMutes_shows p.isLt).2.1, (ampMutes_shows p.isLt).2.2,
          ampMutes_frame s p⟩⟩,
      fun d => ?_, fun hb v => ⟨gives_mapIdx hb v, gives_deIdx hb v⟩,
      fun hb => gives_told_bar hb (t := opAudClrcnt s) rfl (fun u hu => ⟨fun a ha => (hu.rd a).trans (clearAll_rd s ha),
        hu.frame (clearAll_frame s _)⟩)⟩
    · intro oldLive newLive data good change
      refine ⟨fun hdata hk => ⟨s.mapApplied d x, answers_of_done (congrArg (done s) ((opMapChange_data h hn hdata).trans
          (if_pos hk))), mapApplied_applied s d x⟩,
        fun hdata hk => gives_nothing (congrArg (done s) ((opMapChange_data h hn hdata).trans (if_neg (by simp [hk])))),
        fun hdata hg => gives_nothing (congrArg (done s) ((opMapChange_samples h hn hdata).trans (if_neg ?_))),
        fun hdata hg => ⟨s.mapApplied d x, answers_of_done (congrArg (done s) ((opMapChange_samples h hn hdata).trans
          (if_pos hg))), mapApplied_applied s d x⟩⟩
      exact Bool.eq_false_iff.1 hg
    · obtain ⟨u, hu, hflt, hmu, hframe⟩ := gives_ampShows (s := s) (p := p) (high := true) (.inr hm)
      exact ⟨u, hu, hflt, hmu.trans hm, hframe⟩
    · obtain ⟨u, hu, hrest⟩ := mapPar_silent s d
      exact ⟨u, answers_of_done (congrArg (done s) hu), hrest⟩

end Sys2Proof.Machine
end

section
/-! PROOFS. Canvases, layers, slices, stills and captures: O54 (R149-R152, R157, R165, R269-R292). -/

namespace Sys2Proof.Machine

open Sys2Proof

/-! ## A change waits for its canvas frame (R149-R151) -/

/-- In `u` a change of canvas `k` waits as the newest, and neither that canvas nor another, nor the slices, have changed. -/
def CanvasWaits (s : State) (k : Nat) (o : CanvasOp) (id : Nat) (u : State) : Prop :=
  (u.canvas k).pend = (s.canvas k).pend ++ [⟨o, id, s.now, false, none, none, 0⟩] ∧ (u.canvas k).now = (s.canvas k).now
    ∧ (u.canvas k).layers = (s.canvas k).layers ∧ (∀ j, j ≠ k → u.canvas j = s.canvas j) ∧ u.cmp.slices = s.cmp.slices

theorem canvas_congr {s t : State} (h : t.cmp = s.cmp) (k : Nat) : t.canvas k = s.canvas k := by
  rw [State.canvas, h, State.canvas]

section plan

variable (s : State) (t c : Nat) (op : CanvasOp) (id : Nat)

/-- The canvas with the change as its newest. -/
def State.planPut (s : State) (c : Nat) (op : CanvasOp) (id : Nat) : State :=
  s.setCanvas c { s.canvas c with pend := (s.canvas c).pend ++ [⟨op, id, s.now, false, none, none, 0⟩] }

/-- After the change has been put, only charges move. -/
theorem plan_planPut : Frame [] [.ten] (s.planPut c op id) (s.plan t c op id) := by
  have hcharge : ∀ own, Frame [] [.ten] (s.planPut c op id) ((s.planPut c op id).rechargeTo c own) :=
    fun own => Frame.refl.rechargeTo c own (by simp)
  unfold State.plan
  dsimp only
  split
  · exact Frame.each _ (fun _ k _ => Frame.refl.rechargeTo k none (by simp)) (hcharge (some t))
  · exact hcharge none

theorem plan_frame : Frame [] [.cmp, .ten] s (s.plan t c op id) :=
  Frame.trans (Frame.refl.setCmp _ (by simp)) ((plan_planPut s t c op id).mono (by simp) (by simp))

theorem planPut_waits : CanvasWaits s c op id (s.planPut c op id) := by
  have hself : (s.planPut c op id).canvas c =
      { s.canvas c with pend := (s.canvas c).pend ++ [⟨op, id, s.now, false, none, none, 0⟩] } := Tbl.getD_putD_same ..
  refine ⟨by rw [hself], by rw [hself], by rw [hself], fun j hj => Tbl.getD_putD_other _ _ _ _ hj, rfl⟩

variable {s t c op id}

theorem CanvasWaits.of_cmp {s' u u' : State} (h : CanvasWaits s c op id u) (hu : u'.cmp = u.cmp) (hs : s.cmp = s'.cmp)
    (hnow : s.now = s'.now) : CanvasWaits s' c op id u' := by
  obtain ⟨h1, h2, h3, h4, h5⟩ := h
  simp only [canvas_congr hs] at h1 h2 h3 h4
  refine ⟨?_, ?_, ?_, fun j hj => ?_, ?_⟩
  · rw [canvas_congr hu, h1, hnow]
  · rw [canvas_congr hu, h2]
  · rw [canvas_congr hu, h3]
  · rw [canvas_congr hu, h4 j hj]
  · rw [hu, h5, hs]

end plan

section taken

variable {t r : Nat} {e : Entry} {s : State}

theorem mirrored_cmp (id : Nat) : ((s.taken t r e ⟨none, 0⟩).mirrorCommand id).cmp = s.cmp :=
  Eq.trans ((Told.mirrorCommand _ _).same .cmp) (taken_cmp ..)

theorem mirrored_ten (id : Nat) : ((s.taken t r e ⟨none, 0⟩).mirrorCommand id).ten = s.ten :=
  Eq.trans ((Told.mirrorCommand _ _).same .ten) (taken_ten ..)

theorem mirrored_now (id : Nat) : ((s.taken t r e ⟨none, 0⟩).mirrorCommand id).now = s.now :=
  Eq.trans ((Told.mirrorCommand _ _).same .time) (taken_now ..)

/-- A command that plans a change of a canvas, in a state that differs from the one in which it was taken in registers
alone. -/
theorem gives_plan {i : Instr} {v : State} {id tn c : Nat} {op : CanvasOp} {l : List Nat}
    (hv : OnlyRegs l ((s.taken t r e ⟨none, 0⟩).mirrorCommand id) v) (hi : exec i s = done s (v.plan tn c op id)) :
    Gives i s (fun u => CanvasWaits s c op id u ∧ Frame l [.cmp, .ten] (s.taken t r e ⟨none, 0⟩) u) := by
  refine gives_told hi (fun u hu => ⟨?_, hu.frame ?_⟩)
  · have hplan : (v.plan tn c op id).cmp = (v.planPut c op id).cmp := (plan_planPut v tn c op id).same (q := .cmp) (by simp)
    have hcmp : v.cmp = s.cmp := Eq.trans (hv.same (q := .cmp) (by simp)) (mirrored_cmp id)
    have hnow : v.now = s.now := Eq.trans (hv.same (q := .time) (by simp)) (mirrored_now id)
    exact (planPut_waits v c op id).of_cmp (Eq.trans (hu.same .cmp) hplan) hcmp hnow
  · exact ((Told.mirrorCommand _ _).frame Frame.refl).trans
      ((hv.mono (by simp) (by simp)).trans ((plan_frame v tn c op id).mono (by simp) (by simp)))

end taken

theorem ownsAll_one (s : State) (t kind first : Nat) : s.ownsAll t kind first 1 = (s.ownerOf kind first == t) := by
  simp [State.ownsAll]

/-! ## CANVAS_DEF (R149, R269, R272) -/

/-- The OUTFMT of a definition is zero or valid where its format is not refused. -/
theorem plain_of_good {c : Nat} {d : CanvasDef} (h : canvasFormatBad c d = false) :
    d.out.bits = 0 ∨ d.out.valid = true := by
  simp only [canvasFormatBad, Bool.or_eq_false_iff, Bool.and_eq_false_iff] at h
  rcases h.2 with hbits | hout
  · exact .inl (by simpa using hbits)
  · obtain ⟨⟨⟨⟨⟨⟨⟨hvalid, -⟩, -⟩, -⟩, -⟩, -⟩, -⟩, -⟩ := hout
    exact .inr (by simpa using hvalid)

/-- The canvas as it is planned is on another engine than a definition asks for. -/
def State.otherEngine (s : State) (c : Nat) (d : CanvasDef) : Bool :=
  match (s.canvas c).planned with
  | some x => x.engine != d.engine
  | none => false

/-- The checks of CANVAS_DEF. -/
def canvasChecks (t : Nat) (e : Entry) (id : Nat) (s : State) : List (Bool × Status × Nat) :=
  let c := bitsAt e 8 0 6
  let del : Bool := bitsAt e 9 7 1 == 1
  let d := canvasDefOf e
  let big : Bool := d.out.raster == 8
  let excess := s.canvasOver t c true (s.plan t c (.define d) id)
  [ (!onlyFields e canvasFields, .rejFormat, 0), (!del && canvasFormatBad c d, .rejFormat, 0),
    (d.out.bits != 0 && !d.out.valid, .rejFormat, 0), (!del && s.otherEngine c d, .rejFormat, 0),
    (!s.ownsAll t 1 c (if !del && big then 4 else 1), .rejOwner, 0), (s.canvasMigrating c || s.canvasHeld c, .rejLocked, 0),
    (!del && s.fenced (unitEngine d.engine), .rejCapacity, 11),
    (!del && (s.canvasTaken c || (big && (List.range 3).any (fun i => s.canvasDefined (c + 1 + i)))), .rejCapacity, 5),
    (!del && excess.isSome, .rejCapacity, excess.getD 0), s.standbyBusy ]

theorem canvasDefBody_eq (t : Nat) (e : Entry) (id : Nat) (s : State) : canvasDefBody t e id s =
    s.checked id (canvasChecks t e id s) (fun u =>
      if bitsAt e 9 7 1 == 1 then
        (if (s.canvas (bitsAt e 8 0 6)).planned.isNone then u.complete id .ok 0 (u.canvas (bitsAt e 8 0 6)).epoch
         else u.plan t (bitsAt e 8 0 6) .delete id)
      else ((u.abandonSlice (unitEngine (canvasDefOf e).engine)).startDomain (domCmp ((canvasDefOf e).engine / 4))).plan t
        (bitsAt e 8 0 6) (.define (canvasDefOf e)) id) := rfl

section canvasChecks

variable {t : Nat} {e : Entry} {id : Nat} {s : State} (hf : onlyFields e canvasFields = true)

include hf

theorem canvasChecks_delete (hdel : bitsAt e 9 7 1 = 1) : firstReject (canvasChecks t e id s) = firstReject
    [ ((canvasDefOf e).out.bits != 0 && !(canvasDefOf e).out.valid, .rejFormat, 0),
      (s.ownerOf 1 (bitsAt e 8 0 6) != t, .rejOwner, 0),
      (s.canvasMigrating (bitsAt e 8 0 6) || s.canvasHeld (bitsAt e 8 0 6), .rejLocked, 0), s.standbyBusy ] := by
  rw [canvasChecks, hf, hdel]
  simp only [beq_self_eq_true, Bool.not_true, Bool.false_and, Bool.false_eq_true, if_false, ownsAll_one, firstReject_cons,
    bne]

/-- A definition that meets no format rejection. -/
theorem canvasChecks_define (hdef : bitsAt e 9 7 1 = 0)
    (hgood : canvasFormatBad (bitsAt e 8 0 6) (canvasDefOf e) = false) (hbig : (canvasDefOf e).out.raster ≠ 8)
    (heng : ∀ x, (s.canvas (bitsAt e 8 0 6)).planned = some x → x.engine = (canvasDefOf e).engine) :
    firstReject (canvasChecks t e id s) = firstReject
      [ (s.ownerOf 1 (bitsAt e 8 0 6) != t, .rejOwner, 0),
        (s.canvasMigrating (bitsAt e 8 0 6) || s.canvasHeld (bitsAt e 8 0 6), .rejLocked, 0),
        (s.fenced (unitEngine (canvasDefOf e).engine), .rejCapacity, 11), (s.canvasTaken (bitsAt e 8 0 6), .rejCapacity, 5),
        ((s.canvasOver t (bitsAt e 8 0 6) true (s.plan t (bitsAt e 8 0 6) (.define (canvasDefOf e)) id)).isSome, .rejCapacity,
          (s.canvasOver t (bitsAt e 8 0 6) true (s.plan t (bitsAt e 8 0 6) (.define (canvasDefOf e)) id)).getD 0),
        s.standbyBusy ] := by
  have hsame : s.otherEngine (bitsAt e 8 0 6) (canvasDefOf e) = false := by
    unfold State.otherEngine
    split
    · next x hx => simp [heng x hx]
    · rfl
  have hout : ((canvasDefOf e).out.bits != 0 && !(canvasDefOf e).out.valid) = false := by
    rcases plain_of_good hgood with hz | hv
    · rw [hz]; rfl
    · rw [hv]; exact Bool.and_false _
  have hsmall : ((canvasDefOf e).out.raster == 8) = false := by simpa using hbig
  rw [canvasChecks, hf, hdef, hgood, hout, hsame, hsmall]
  simp only [show ((0 : Nat) == 1) = false from rfl, Bool.not_true, Bool.not_false, Bool.true_and, Bool.false_and,
    Bool.or_false, Bool.and_false, Bool.false_eq_true, if_false, ownsAll_one, firstReject_cons, bne]

end canvasChecks

section canvasDef

variable {t : Tenant} {r : CmdRing} {e : Entry} {s : State} (h : s.Takes 0x10 t r e)

include h

theorem canvasDef_fields (hf : onlyFields e canvasFields = false) :
    Answers (.canvasDef t r e) s ((s.taken t r e ⟨none, 0⟩).complete s.hif.nextId .rejFormat 0 0) := by
  refine answers_rejected h rfl (canvasDefBody_eq ..) ?_ rfl
  simp [canvasChecks, hf]

variable (hf : onlyFields e canvasFields = true) (hs : (s.taken t r e ⟨none, 0⟩).standby = false)
  (hm : (s.taken t r e ⟨none, 0⟩).canvasMigrating (bitsAt e 8 0 6) = false)
  (hh : (s.taken t r e ⟨none, 0⟩).canvasHeld (bitsAt e 8 0 6) = false)

include hf

theorem canvasDelete_format (hdel : bitsAt e 9 7 1 = 1)
    (hbad : ¬((canvasDefOf e).out.bits = 0 ∨ (canvasDefOf e).out.valid = true)) :
    Answers (.canvasDef t r e) s ((s.taken t r e ⟨none, 0⟩).complete s.hif.nextId .rejFormat 0 0) := by
  have hout : ((canvasDefOf e).out.bits != 0 && !(canvasDefOf e).out.valid) = true := by simpa using hbad
  refine answers_rejected h rfl (canvasDefBody_eq ..) ((canvasChecks_delete hf hdel).trans ?_) rfl
  rw [hout]
  rfl

include hs hm hh

theorem canvasDelete_accepted (hdel : bitsAt e 9 7 1 = 1)
    (hplain : (canvasDefOf e).out.bits = 0 ∨ (canvasDefOf e).out.valid = true) (ho : s.ownerOf 1 (bitsAt e 8 0 6) = t) :
    exec (.canvasDef t r e) s = done s
      (let m := (s.taken t r e ⟨none, 0⟩).mirrorCommand s.hif.nextId
       if ((s.taken t r e ⟨none, 0⟩).canvas (bitsAt e 8 0 6)).planned.isNone then
         m.complete s.hif.nextId .ok 0 (m.canvas (bitsAt e 8 0 6)).epoch
       else m.plan t (bitsAt e 8 0 6) .delete s.hif.nextId) := by
  have hout : ((canvasDefOf e).out.bits != 0 && !(canvasDefOf e).out.valid) = false := by
    rcases hplain with hz | hv
    · rw [hz]; rfl
    · rw [hv]; exact Bool.and_false _
  refine exec_accepted h rfl (canvasDefBody_eq ..) ((canvasChecks_delete hf hdel).trans ?_) (if_pos (by simp [hdel]))
  rw [hout]
  simp [taken_ownerOf, ho, hm, hh, State.standbyBusy, hs]

variable (hdef : bitsAt e 9 7 1 = 0) (hgood : canvasFormatBad (bitsAt e 8 0 6) (canvasDefOf e) = false)
  (hbig : (canvasDefOf e).out.raster ≠ 8)
  (heng : ∀ x, ((s.taken t r e ⟨none, 0⟩).canvas (bitsAt e 8 0 6)).planned = some x → x.engine = (canvasDefOf e).engine)

omit hs hm hh

include hdef hgood hbig heng

theorem canvasDefine_foreign (ho : s.ownerOf 1 (bitsAt e 8 0 6) ≠ t) :
    Answers (.canvasDef t r e) s ((s.taken t r e ⟨none, 0⟩).complete s.hif.nextId .rejOwner 0 0) := by
  refine answers_rejected h rfl (canvasDefBody_eq ..) ((canvasChecks_define hf hdef hgood hbig heng).trans ?_) rfl
  simp [taken_ownerOf, ho]

variable (ho : s.ownerOf 1 (bitsAt e 8 0 6) = t)
  (hfence : (s.taken t r e ⟨none, 0⟩).fenced (unitEngine (canvasDefOf e).engine) = false)
  (hfree : (s.taken t r e ⟨none, 0⟩).canvasTaken (bitsAt e 8 0 6) = false)

include hm hh ho hfence hfree

theorem canvasDefine_over {x : Nat} (hover : (s.taken t r e ⟨none, 0⟩).canvasOver t (bitsAt e 8 0 6) true
      ((s.taken t r e ⟨none, 0⟩).plan t (bitsAt e 8 0 6) (.define (canvasDefOf e)) s.hif.nextId) = some x) :
    Answers (.canvasDef t r e) s ((s.taken t r e ⟨none, 0⟩).complete s.hif.nextId .rejCapacity x 0) := by
  refine answers_rejected h rfl (canvasDefBody_eq ..) ((canvasChecks_define hf hdef hgood hbig heng).trans ?_) rfl
  simp [taken_ownerOf, ho, hm, hh, hfence, hfree, hover]

include hs

theorem gives_canvasDefine (hover : (s.taken t r e ⟨none, 0⟩).canvasOver t (bitsAt e 8 0 6) true
      ((s.taken t r e ⟨none, 0⟩).plan t (bitsAt e 8 0 6) (.define (canvasDefOf e)) s.hif.nextId) = none)
    (hslice : unitEngine (canvasDefOf e).engine ∉ s.bst.slicing) :
    Gives (.canvasDef t r e) s (fun u => CanvasWaits s (bitsAt e 8 0 6) (.define (canvasDefOf e)) s.hif.nextId u
      ∧ Frame [PWR_DOMSTAT] [.cmp, .ten] (s.taken t r e ⟨none, 0⟩) u) := by
  have hbst : ((s.taken t r e ⟨none, 0⟩).mirrorCommand s.hif.nextId).bst = s.bst :=
    Eq.trans ((Told.mirrorCommand _ _).same .bst) (taken_same s t r e ⟨none, 0⟩ (q := .bst) (by simp))
  have hkeep : ((s.taken t r e ⟨none, 0⟩).mirrorCommand s.hif.nextId).abandonSlice (unitEngine (canvasDefOf e).engine) =
      (s.taken t r e ⟨none, 0⟩).mirrorCommand s.hif.nextId := if_neg (by simpa [hbst] using hslice)
  refine gives_plan (v := ((s.taken t r e ⟨none, 0⟩).mirrorCommand s.hif.nextId).startDomain
    (domCmp ((canvasDefOf e).engine / 4))) (Frame.refl.setBit _ _ (by simp)) (tn := t) ?_
  refine exec_accepted h rfl (canvasDefBody_eq ..) ((canvasChecks_define hf hdef hgood hbig heng).trans ?_) ?_
  · simp [taken_ownerOf, ho, hm, hh, hfence, hfree, hover, State.standbyBusy, hs]
  · rw [if_neg (by simp [hdef]), hkeep]

end canvasDef

/-! ## LAYER_SET (R150, R275) -/

/-- What a LAYER_SET makes of its layer. -/
def layerNew (e : Entry) : Option LayerDef := if bitsAt e 11 0 1 == 1 then some (layerOf e) else none

/-- The salvo slot of the tenant that a staged LAYER_SET names, and the key of its entry. -/
def layerSlot (e : Entry) : Nat := bitsAt e 10 0 2
def layerKey (e : Entry) : Nat := 4096 + 32 * bitsAt e 8 0 6 + bitsAt e 9 0 5

/-- The state after a LAYER_SET, staged or immediate, as its limits judge it. -/
def State.layerNext (s : State) (t : Nat) (e : Entry) (id : Nat) : State :=
  if bitsAt e 10 7 1 == 1 then
    (s.stage t (layerSlot e) (layerKey e) (.layer (bitsAt e 8 0 6) (bitsAt e 9 0 5) (layerNew e))).1
  else s.plan t (bitsAt e 8 0 6) (.layer (bitsAt e 9 0 5) (layerNew e)) id

/-- The checks of LAYER_SET. -/
def layerChecks (t : Nat) (e : Entry) (id : Nat) (s : State) : List (Bool × Status × Nat) :=
  let c := bitsAt e 8 0 6
  let st : Bool := bitsAt e 10 7 1 == 1
  let on : Bool := bitsAt e 11 0 1 == 1
  let next := s.layerNext t e id
  let excess := s.canvasOver t c false next
  [ (!onlyFields e layerFields, .rejFormat, 0), (!s.canvasDefined c, .rejFormat, 0),
    (on && s.layerFormatBad c (layerOf e), .rejFormat, 0),
    (s.ownerOf 1 c != t || (on && !s.layerSourceOwned t (layerOf e)), .rejOwner, 0), (s.canvasMigrating c, .rejLocked, 0),
    (s.layerHeld c (bitsAt e 9 0 5) (fun x => !(st && x == 4 * t + layerSlot e)), .rejLocked, 0),
    (st && s.slotFull t (layerSlot e) (layerKey e), .rejCapacity, 5), (on && decide (1024 < next.layerCount), .rejCapacity, 5),
    (on && (List.range 64).any (fun m => decide (4 < next.chainDepth 6 m)), .rejCapacity, 5),
    (on && excess.isSome, .rejCapacity, excess.getD 0), (st && !s.slotOpen t (layerSlot e), .busy, 0), s.standbyBusy ]

theorem layerBody_eq (t : Nat) (e : Entry) (id : Nat) (s : State) : layerBody t e id s =
    s.checked id (layerChecks t e id s) (fun u =>
      if bitsAt e 10 7 1 == 1 then
        let p := u.stage t (layerSlot e) (layerKey e) (.layer (bitsAt e 8 0 6) (bitsAt e 9 0 5) (layerNew e))
        (p.1.recharge (bitsAt e 8 0 6)).complete id .ok p.2 0
      else if !(bitsAt e 11 0 1 == 1) ∧ ((u.canvas (bitsAt e 8 0 6)).plannedLayer (bitsAt e 9 0 5)).isNone then
        u.complete id .ok 0 0
      else u.plan t (bitsAt e 8 0 6) (.layer (bitsAt e 9 0 5) (layerNew e)) id) := rfl

section layerSet

variable {t : Tenant} {r : CmdRing} {e : Entry} {s : State} (h : s.Takes 0x11 t r e)

include h

theorem layerSet_fields (hf : onlyFields e layerFields = false) :
    Answers (.layerSet t r e) s ((s.taken t r e ⟨none, 0⟩).complete s.hif.nextId .rejFormat 0 0) := by
  refine answers_rejected h rfl (layerBody_eq ..) ?_ rfl
  simp [layerChecks, hf]

theorem layerOn_format (hf : onlyFields e layerFields = true)
    (hd : (s.taken t r e ⟨none, 0⟩).canvasDefined (bitsAt e 8 0 6) = true) (hon : bitsAt e 11 0 1 = 1)
    (hbad : (s.taken t r e ⟨none, 0⟩).layerFormatBad (bitsAt e 8 0 6) (layerOf e) = true) :
    Answers (.layerSet t r e) s ((s.taken t r e ⟨none, 0⟩).complete s.hif.nextId .rejFormat 0 0) := by
  refine answers_rejected h rfl (layerBody_eq ..) ?_ rfl
  simp [layerChecks, hf, hd, hon, hbad]

variable (hf : onlyFields e layerFields = true) (hs : (s.taken t r e ⟨none, 0⟩).standby = false)
  (hm : (s.taken t r e ⟨none, 0⟩).canvasMigrating (bitsAt e 8 0 6) = false)
  (hd : (s.taken t r e ⟨none, 0⟩).canvasDefined (bitsAt e 8 0 6) = true) (ho : s.ownerOf 1 (bitsAt e 8 0 6) = t)
  (hh : (s.taken t r e ⟨none, 0⟩).layerHeld (bitsAt e 8 0 6) (bitsAt e 9 0 5) (fun _ => true) = false)
  (hst : bitsAt e 10 7 1 = 0)

include hf hs hm hd ho hh hst

theorem layerOff_accepted (hoff : bitsAt e 11 0 1 = 0) : exec (.layerSet t r e) s = done s
    (let m := (s.taken t r e ⟨none, 0⟩).mirrorCommand s.hif.nextId
     if ((m.canvas (bitsAt e 8 0 6)).plannedLayer (bitsAt e 9 0 5)).isNone then m.complete s.hif.nextId .ok 0 0
     else m.plan t (bitsAt e 8 0 6) (.layer (bitsAt e 9 0 5) none) s.hif.nextId) := by
  refine exec_accepted h rfl (layerBody_eq ..) ?_ ?_
  · simp [layerChecks, hf, hd, hoff, taken_ownerOf, ho, hm, hst, hh, State.standbyBusy, hs]
  · simp only [hst, hoff, layerNew, show ((0 : Nat) == 1) = false from rfl, Bool.false_eq_true, if_false, Bool.not_false,
      true_and]

variable (hon : bitsAt e 11 0 1 = 1)

include hon

theorem gives_layerOn (hgood : (s.taken t r e ⟨none, 0⟩).layerFormatBad (bitsAt e 8 0 6) (layerOf e) = false)
    (hsrc : (s.taken t r e ⟨none, 0⟩).layerSourceOwned t (layerOf e) = true) {next : State}
    (hnext : (s.taken t r e ⟨none, 0⟩).plan t (bitsAt e 8 0 6) (.layer (bitsAt e 9 0 5) (some (layerOf e))) s.hif.nextId =
      next)
    (hcount : next.layerCount ≤ 1024) (hdepth : ∀ m < 64, next.chainDepth 6 m ≤ 4)
    (hover : (s.taken t r e ⟨none, 0⟩).canvasOver t (bitsAt e 8 0 6) false next = none) :
    Gives (.layerSet t r e) s (fun u =>
      CanvasWaits s (bitsAt e 8 0 6) (.layer (bitsAt e 9 0 5) (some (layerOf e))) s.hif.nextId u
        ∧ Frame [] [.cmp, .ten] (s.taken t r e ⟨none, 0⟩) u) := by
  have hjudged : (s.taken t r e ⟨none, 0⟩).layerNext t e s.hif.nextId = next := by
    rw [State.layerNext, if_neg (by simp [hst]), layerNew, if_pos (by simp [hon]), hnext]
  refine gives_plan Frame.refl (tn := t) (exec_accepted h rfl (layerBody_eq ..) ?_ ?_)
  · simpa [layerChecks, hjudged, hf, hd, hon, hgood, hsrc, taken_ownerOf, ho, hm, hst, hh, Nat.not_lt.2 hcount, hover,
      State.standbyBusy, hs] using hdepth
  · simp only [hst, hon, layerNew, show ((0 : Nat) == 1) = false from rfl, beq_self_eq_true, Bool.false_eq_true, if_false,
      Bool.not_true, false_and, if_true]

end layerSet

/-! ## SLICE_SET (R151, R290) -/

/-- The slice that SLICE_SET asks for. -/
def sliceNew (e : Entry) : SliceDef := ⟨bitsAt e 10 0 6, rectOf e 12 false, bitsAt e 20 0 12⟩

/-- The slice as it is planned. -/
def State.sliceOld (s : State) (i : Nat) : Option SliceDef := (s.allSlices.find? (fun y => y.1 == i)).map Prod.snd

/-- The canvas that a SLICE_SET changes. -/
def State.sliceCanvas (s : State) (e : Entry) : Nat :=
  if bitsAt e 11 0 1 == 1 then bitsAt e 10 0 6 else ((s.sliceOld (bitsAt e 8 0 12)).map (fun y => y.canvas)).getD (bitsAt e 10 0 6)

/-- The RECT of a slice does not fit a canvas that is planned as `d` (R290). -/
def SliceDef.badRect (x : SliceDef) (d : Option CanvasDef) : Bool :=
  match d with
  | none => true
  | some d => decide (x.rect.w < 8) || decide (x.rect.h < 8) || !x.rect.inside d.width d.height
      || (decide (d.sampling ≤ 1) && (x.rect.x % 2 != 0 || x.rect.w % 2 != 0))

/-- The FLOW of slice `i` is no slice flow, or is another slice's (R290). -/
def State.badSliceFlow (s : State) (i k : Nat) : Bool :=
  (match (s.tx k).planned with
    | some f => !f.slice
    | none => true) || (s.allSlices ++ s.cmp.slices).any (fun y => y.1 != i && y.2.flow == k)

/-- The RECT of a slice fits its canvas where R290 says so. -/
theorem badRect_false {x : SliceDef} {d : CanvasDef} (hw : 8 ≤ x.rect.w) (hh : 8 ≤ x.rect.h)
    (hin : x.rect.inside d.width d.height = true) (heven : 1 < d.sampling ∨ (x.rect.x % 2 = 0 ∧ x.rect.w % 2 = 0)) :
    x.badRect (some d) = false := by
  have hs : (decide (d.sampling ≤ 1) && (x.rect.x % 2 != 0 || x.rect.w % 2 != 0)) = false := by
    rcases heven with hd | ⟨hx, hw2⟩
    · simp [Nat.not_le.2 hd]
    · simp [hx, hw2]
  simp only [SliceDef.badRect, hs, hin]
  simp [Nat.not_lt.2 hw, Nat.not_lt.2 hh]

theorem badSliceFlow_false {s : State} {i k : Nat} {f : Flow} (hf : (s.tx k).planned = some f) (hsl : f.slice = true)
    (hfree : ∀ y ∈ s.allSlices ++ s.cmp.slices, y.1 ≠ i → y.2.flow ≠ k) : s.badSliceFlow i k = false := by
  have hany : (s.allSlices ++ s.cmp.slices).any (fun y => y.1 != i && y.2.flow == k) = false := by
    rw [List.any_eq_false]
    intro y hy
    by_cases hi : y.1 = i
    · simp [hi]
    · simp [hfree y hy hi]
  rw [State.badSliceFlow, hf, hany]
  simp [hsl]

/-- The checks of SLICE_SET. -/
def sliceChecks (t : Nat) (e : Entry) (id : Nat) (s : State) : List (Bool × Status × Nat) :=
  let i := bitsAt e 8 0 12
  let on : Bool := bitsAt e 11 0 1 == 1
  let k := bitsAt e 20 0 12
  let c := s.sliceCanvas e
  let excess := s.canvasOver t c false (s.plan t c (.slice i (some (sliceNew e))) id)
  let canvases := c :: ((s.sliceOld i).map (fun y => y.canvas)).toList
  [ (!onlyFields e sliceFields, .rejFormat, 0), ((s.canvas c).planned.isNone, .rejFormat, 0),
    (on && ((sliceNew e).badRect (s.canvas c).planned || s.badSliceFlow i k), .rejFormat, 0),
    (on && (s.plannedSlices c).any (fun y => y.1 != i && s.sliceTb y.2.flow != s.sliceTb k), .rejFormat, 7),
    (s.ownerOf 5 i != t || s.ownerOf 1 c != t
      || ((if on then [k] else []) ++ ((s.sliceOld i).map (fun y => y.flow)).toList).any (fun k => s.ownerOf 3 k != t), .rejOwner, 0),
    (canvases.any s.canvasHeld || canvases.any s.canvasMigrating, .rejLocked, 0),
    (on && excess.isSome, .rejCapacity, excess.getD 0), s.standbyBusy ]

theorem sliceBody_eq (t : Nat) (e : Entry) (id : Nat) (s : State) : sliceBody t e id s =
    s.checked id (sliceChecks t e id s) (fun u =>
      if bitsAt e 11 0 1 == 1 then u.plan t (s.sliceCanvas e) (.slice (bitsAt e 8 0 12) (some (sliceNew e))) id
      else if (s.sliceOld (bitsAt e 8 0 12)).isSome then u.plan t (s.sliceCanvas e) (.slice (bitsAt e 8 0 12) none) id
      else u.complete id .ok 0 0) := rfl

section sliceSet

variable {t : Tenant} {r : CmdRing} {e : Entry} {s : State} (h : s.Takes 0x12 t r e)

include h

theorem sliceSet_fields (hf : onlyFields e sliceFields = false) :
    Answers (.sliceSet t r e) s ((s.taken t r e ⟨none, 0⟩).complete s.hif.nextId .rejFormat 0 0) := by
  refine answers_rejected h rfl (sliceBody_eq ..) ?_ rfl
  simp [sliceChecks, hf]

variable (hf : onlyFields e sliceFields = true) (hs : (s.taken t r e ⟨none, 0⟩).standby = false)
  (hslice : s.ownerOf 5 (bitsAt e 8 0 12) = t)

include hf hs hslice

section off

variable (hoff : bitsAt e 11 0 1 = 0)

include hoff

theorem sliceOff_absent (hold : (s.taken t r e ⟨none, 0⟩).allSlices.find? (fun y => y.1 == bitsAt e 8 0 12) = none)
    (hd : ((s.taken t r e ⟨none, 0⟩).canvas (bitsAt e 10 0 6)).planned ≠ none) (ho : s.ownerOf 1 (bitsAt e 10 0 6) = t)
    (hm : (s.taken t r e ⟨none, 0⟩).canvasMigrating (bitsAt e 10 0 6) = false)
    (hh : (s.taken t r e ⟨none, 0⟩).canvasHeld (bitsAt e 10 0 6) = false) :
    Answers (.sliceSet t r e) s (((s.taken t r e ⟨none, 0⟩).mirrorCommand s.hif.nextId).complete s.hif.nextId .ok 0 0) := by
  have hnone : (s.taken t r e ⟨none, 0⟩).sliceOld (bitsAt e 8 0 12) = none := by rw [State.sliceOld, hold, Option.map_none]
  have hcanvas : (s.taken t r e ⟨none, 0⟩).sliceCanvas e = bitsAt e 10 0 6 := by simp [State.sliceCanvas, hoff, hnone]
  refine answers_of_done (exec_accepted h rfl (sliceBody_eq ..) ?_ ?_)
  · simp [sliceChecks, hf, hcanvas, hnone, hd, hoff, taken_ownerOf, hslice, ho, hm, hh, State.standbyBusy, hs]
  · simp [hoff, hnone]

theorem gives_sliceOff {y : Nat × SliceDef}
    (hold : (s.taken t r e ⟨none, 0⟩).allSlices.find? (fun y => y.1 == bitsAt e 8 0 12) = some y)
    (hd : ((s.taken t r e ⟨none, 0⟩).canvas y.2.canvas).planned ≠ none) (ho : s.ownerOf 1 y.2.canvas = t)
    (hflow : s.ownerOf 3 y.2.flow = t)
    (hm : (s.taken t r e ⟨none, 0⟩).canvasMigrating y.2.canvas = false)
    (hh : (s.taken t r e ⟨none, 0⟩).canvasHeld y.2.canvas = false) :
    Gives (.sliceSet t r e) s (fun u => CanvasWaits s y.2.canvas (.slice (bitsAt e 8 0 12) none) s.hif.nextId u
      ∧ Frame [] [.cmp, .ten] (s.taken t r e ⟨none, 0⟩) u) := by
  have hsome : (s.taken t r e ⟨none, 0⟩).sliceOld (bitsAt e 8 0 12) = some y.2 := by rw [State.sliceOld, hold, Option.map_some]
  have hcanvas : (s.taken t r e ⟨none, 0⟩).sliceCanvas e = y.2.canvas := by simp [State.sliceCanvas, hoff, hsome]
  refine gives_plan Frame.refl (tn := t) (exec_accepted h rfl (sliceBody_eq ..) ?_ ?_)
  · simp [sliceChecks, hf, hcanvas, hsome, hd, hoff, taken_ownerOf, hslice, ho, hflow, hm, hh, State.standbyBusy, hs]
  · simp [hoff, hsome, hcanvas]

end off

theorem gives_sliceOn (hon : bitsAt e 11 0 1 = 1)
    (hold : (s.taken t r e ⟨none, 0⟩).allSlices.find? (fun y => y.1 == bitsAt e 8 0 12) = none)
    (hrect : (sliceNew e).badRect ((s.taken t r e ⟨none, 0⟩).canvas (bitsAt e 10 0 6)).planned = false)
    (hfl : (s.taken t r e ⟨none, 0⟩).badSliceFlow (bitsAt e 8 0 12) (bitsAt e 20 0 12) = false)
    (htb : ∀ y ∈ (s.taken t r e ⟨none, 0⟩).plannedSlices (bitsAt e 10 0 6), y.1 ≠ bitsAt e 8 0 12 →
      (s.taken t r e ⟨none, 0⟩).sliceTb y.2.flow = (s.taken t r e ⟨none, 0⟩).sliceTb (bitsAt e 20 0 12))
    (hd : ((s.taken t r e ⟨none, 0⟩).canvas (bitsAt e 10 0 6)).planned ≠ none) (ho : s.ownerOf 1 (bitsAt e 10 0 6) = t)
    (hflow : s.ownerOf 3 (bitsAt e 20 0 12) = t)
    (hm : (s.taken t r e ⟨none, 0⟩).canvasMigrating (bitsAt e 10 0 6) = false)
    (hh : (s.taken t r e ⟨none, 0⟩).canvasHeld (bitsAt e 10 0 6) = false)
    (hover : (s.taken t r e ⟨none, 0⟩).canvasOver t (bitsAt e 10 0 6) false ((s.taken t r e ⟨none, 0⟩).plan t
      (bitsAt e 10 0 6) (.slice (bitsAt e 8 0 12) (some (sliceNew e))) s.hif.nextId) = none) :
    Gives (.sliceSet t r e) s (fun u =>
      CanvasWaits s (bitsAt e 10 0 6) (.slice (bitsAt e 8 0 12) (some (sliceNew e))) s.hif.nextId u
        ∧ Frame [] [.cmp, .ten] (s.taken t r e ⟨none, 0⟩) u) := by
  have hnone : (s.taken t r e ⟨none, 0⟩).sliceOld (bitsAt e 8 0 12) = none := by rw [State.sliceOld, hold, Option.map_none]
  have hcanvas : (s.taken t r e ⟨none, 0⟩).sliceCanvas e = bitsAt e 10 0 6 := by simp [State.sliceCanvas, hon]
  refine gives_plan Frame.refl (tn := t) (exec_accepted h rfl (sliceBody_eq ..) ?_ ?_)
  · have hbase : ((s.taken t r e ⟨none, 0⟩).plannedSlices (bitsAt e 10 0 6)).any (fun y => y.1 != bitsAt e 8 0 12 &&
        (s.taken t r e ⟨none, 0⟩).sliceTb y.2.flow != (s.taken t r e ⟨none, 0⟩).sliceTb (bitsAt e 20 0 12)) = false := by
      rw [List.any_eq_false]
      intro y hy
      by_cases hi : y.1 = bitsAt e 8 0 12
      · simp [hi]
      · simp [htb y hy hi]
    simp only [sliceChecks, hcanvas, hrect, hfl, hbase, hnone]
    simp [hf, hd, hon, taken_ownerOf, hslice, ho, hflow, hm, hh, hover, State.standbyBusy, hs]
  · simp [hon, hcanvas]

end sliceSet

/-! ## STILL_LOAD (R152, R249, R259) -/

theorem setCmp_ten (s : State) (c : Cmp) : (s.setCmp c).ten = s.ten := rfl

theorem setCmp_cmp (s : State) (c : Cmp) : (s.setCmp c).cmp = c := rfl

theorem Told.ten {t u : State} (h : Told t u) : u.ten = t.ten := h.same .ten

theorem alloc_ten {s t : State} (h : t.ten = s.ten) (own : Nat) (g : Holding) (c : Charge) :
    (t.alloc own g c).ten = (s.alloc own g c).ten := by
  unfold State.alloc State.setAllocs
  split_ifs
  · exact h
  · simp only [h]

/-- The still that a STILL_LOAD asks for. -/
def stillNew (e : Entry) : Still := ⟨bitsAt e 10 0 16, bitsAt e 12 0 16, bitsAt e 14 0 2, bitsAt e 14 2 2, bitsAt e 14 4 1, []⟩

/-- Its transfer, as it is kept while it runs. -/
def stillPlanned (e : Entry) (id : Nat) : StillLoad :=
  ⟨stillNew e, bitsAt e 14 5 1 == 1, id, bitsAt e 16 0 64, bitsAt e 24 0 32⟩

/-- The checks of STILL_LOAD. -/
def stillChecks (t : Nat) (e : Entry) (s : State) : List (Bool × Status × Nat) :=
  let n := bitsAt e 8 0 12
  let x := stillNew e
  let excess := s.overBudget t x.charge (fun _ => false)
  [ (!onlyFields e stillFields, .rejFormat, 0), (x.transfer == 3 || x.width == 0 || x.height == 0, .rejFormat, 0),
    (s.ownerOf 8 n != t, .rejOwner, 0), (!hostOk (bitsAt e 16 0 64) (bitsAt e 24 0 32), .misaligned, 0),
    (s.stillShown n || s.stillSafe n, .rejLocked, 0), (excess.isSome, .rejCapacity, excess.getD 0),
    (Tbl.has s.cmp.loads n, .busy, 0), s.standbyBusy ]

theorem stillLoadBody_eq (t : Nat) (e : Entry) (id : Nat) (s : State) : stillLoadBody t e id s =
    s.checked id (stillChecks t e s) (fun u => (u.alloc t (.stillLoad (bitsAt e 8 0 12)) (stillNew e).charge).setCmp
      { u.cmp with loads := Tbl.put u.cmp.loads (bitsAt e 8 0 12) (stillPlanned e id) }) := rfl

section stillLoad

variable {t : Tenant} {r : CmdRing} {e : Entry} {s : State} (h : s.Takes 0x13 t r e)

include h

theorem stillLoad_fields (hf : onlyFields e stillFields = false) :
    Answers (.stillLoad t r e) s ((s.taken t r e ⟨none, 0⟩).complete s.hif.nextId .rejFormat 0 0) := by
  refine answers_rejected h rfl (stillLoadBody_eq ..) ?_ rfl
  simp [stillChecks, hf]

theorem gives_stillLoad (hf : onlyFields e stillFields = true) (hs : (s.taken t r e ⟨none, 0⟩).standby = false)
    (htr : (stillNew e).transfer ≠ 3) (hw : (stillNew e).width ≠ 0) (hht : (stillNew e).height ≠ 0)
    (ho : s.ownerOf 8 (bitsAt e 8 0 12) = t) (hhost : hostOk (bitsAt e 16 0 64) (bitsAt e 24 0 32) = true)
    (hshown : (s.taken t r e ⟨none, 0⟩).stillShown (bitsAt e 8 0 12) = false)
    (hsafe : (s.taken t r e ⟨none, 0⟩).stillSafe (bitsAt e 8 0 12) = false)
    (hover : (s.taken t r e ⟨none, 0⟩).overBudget t (stillNew e).charge (fun _ => false) = none)
    (hload : Tbl.has s.cmp.loads (bitsAt e 8 0 12) = false) :
    Gives (.stillLoad t r e) s (fun u =>
      Tbl.find? u.cmp.loads (bitsAt e 8 0 12) = some (stillPlanned e s.hif.nextId)
        ∧ u.ten.allocs = (s.alloc t (.stillLoad (bitsAt e 8 0 12)) (stillNew e).charge).ten.allocs
        ∧ u.cmp.stills = s.cmp.stills ∧ Frame [] [.cmp, .ten] (s.taken t r e ⟨none, 0⟩) u) := by
  have hmirror := Told.mirrorCommand (s.taken t r e ⟨none, 0⟩) s.hif.nextId
  refine gives_told (exec_accepted h rfl (stillLoadBody_eq ..) ?_ (by rfl)) (fun u hu => ?_)
  · simp [stillChecks, hf, htr, hw, hht, taken_ownerOf, ho, hhost, hshown, hsafe, hover, taken_cmp, hload,
      State.standbyBusy, hs]
  · have hcmp := hu.same .cmp
    refine ⟨(congrArg (fun x : Cmp => Tbl.find? x.loads _) hcmp).trans (Tbl.find?_put_same _ _ _),
      ?_, ?_, hu.frame (((hmirror.frame Frame.refl).alloc _ _ _ (by simp)).setCmp _ (by simp))⟩
    · rw [hu.ten, setCmp_ten, alloc_ten (mirrored_ten _)]
    · rw [hu.cmp, setCmp_cmp, mirrored_cmp]

end stillLoad

section stillStored

variable {s : State} {n : Nat} {data : List Byte}

theorem opStillStored_none (h : Tbl.find? s.cmp.loads n = none) : opStillStored n data s = s := by
  rw [opStillStored, h]

/-- The transfer has ended: its bytes count, and it is gone. -/
def State.loadEnded (s : State) (n : Nat) (x : StillLoad) : State :=
  let u := s.countCommand x.cmd x.len
  u.setCmp { u.cmp with loads := Tbl.del u.cmp.loads n }

/-- The still stands with its surface. -/
def State.stillStands (s : State) (n : Nat) (x : StillLoad) (data : List Byte) : State :=
  let u := s.release (fun h => h == .still n)
  let u := u.setAllocs (u.ten.allocs.map (fun a => if a.holding = .stillLoad n then { a with holding := .still n } else a))
  let u := u.setCmp { u.cmp with stills := Tbl.put u.cmp.stills n { x.still with data := x.surface data } }
  u.mirror (.still ⟨n % 4096, Nat.mod_lt _ (by decide)⟩ (BitVec.ofNat 16 x.still.width)
    (BitVec.ofNat 16 x.still.height) (BitVec.ofNat 2 x.still.sampling) (BitVec.ofNat 2 x.still.transfer)
    (x.still.colour == 1) (x.surface data))

/-- A coded still with a bad directory. -/
def StillLoad.bad (x : StillLoad) (data : List Byte) : Bool :=
  x.coded && dirBad x.still.sampling (data.take (tilesOf x.still.width x.still.height))

theorem opStillStored_some {x : StillLoad} (h : Tbl.find? s.cmp.loads n = some x) : opStillStored n data s =
    if x.bad data then ((s.loadEnded n x).release (fun h => h == .stillLoad n)).complete x.cmd .rejFormat 0 0
    else ((s.loadEnded n x).stillStands n x data).complete x.cmd .ok (ceilDiv x.still.size 1024) 0 := by
  rw [opStillStored, h]
  rfl

variable {x : StillLoad} {c : Cmd} {ch : Nat}

/-- What the end of a transfer leaves of it, and the bytes that its channel has counted. -/
def LoadMoved (s : State) (n ch len : Nat) (u : State) : Prop :=
  Tbl.find? u.cmp.loads n = none ∧ u.rd (HIF_DMA_BYTES ch) = s.rd (HIF_DMA_BYTES ch) + BitVec.ofNat 32 len
    ∧ Frame [HIF_DMA_BYTES ch] [.cmp, .ten] s u

section moved

variable (hc : s.inflightOf x.cmd = some c) (hch : c.channel = some ch)

include hc hch

theorem countCommand_eq (len : Nat) : s.countCommand x.cmd len = s.countBytes ch len := by
  rw [State.countCommand, hc]
  dsimp only
  rw [hch]

theorem loadEnded_moved (n : Nat) : LoadMoved s n ch x.len (s.loadEnded n x) := by
  have hcount := countCommand_eq hc hch x.len
  refine ⟨Tbl.find?_del_same _ _, ?_, ?_⟩
  · change (s.countCommand x.cmd x.len).rd _ = _
    rw [hcount]
    exact State.rd_wr _ _ _
  · refine Frame.setCmp ?_ _ (by simp)
    rw [hcount]
    exact Frame.refl.wr _ (by simp)

theorem loadEnded_stills (n : Nat) : (s.loadEnded n x).cmp.stills = s.cmp.stills := by
  change (s.countCommand x.cmd x.len).cmp.stills = _
  rw [countCommand_eq hc hch]
  rfl

end moved

/-- Charges and stills are no part of what a transfer leaves. -/
theorem LoadMoved.trans {v u : State} {len : Nat} (h : LoadMoved s n ch len v) (hu : Frame [] [.cmp, .ten] v u)
    (hl : u.cmp.loads = v.cmp.loads) : LoadMoved s n ch len u := by
  obtain ⟨h1, h2, h3⟩ := h
  exact ⟨by rw [hl, h1], (hu.1 _ (by simp)).trans h2, h3.trans (hu.mono (by simp) (by simp))⟩

theorem stillStands_frame (s : State) (n : Nat) (x : StillLoad) (data : List Byte) :
    Frame [] [.cmp, .ten] s (s.stillStands n x data) :=
  (Told.mirror _ _).frame (((Frame.refl.release _ (by simp)).setAllocs _ (by simp)).setCmp _ (by simp))

theorem stillStands_cmp (s : State) (n : Nat) (x : StillLoad) (data : List Byte) : (s.stillStands n x data).cmp =
    { s.cmp with stills := Tbl.put s.cmp.stills n { x.still with data := x.surface data } } :=
  (Told.mirror _ _).same .cmp

end stillStored

section stored

variable {s : State} {n : Fin 4096} {x : StillLoad} {data : List Byte} {c : Cmd} {ch : Nat}
  (h : Tbl.find? s.cmp.loads n = some x) (hc : s.inflightOf x.cmd = some c) (hch : c.channel = some ch)

include h hc hch

theorem stillStored_fails (hbad : x.bad data = true) : ∃ u,
    Answers (.stillStored n data) s (u.complete x.cmd .rejFormat 0 0) ∧ u.cmp.stills = s.cmp.stills
      ∧ LoadMoved s n ch x.len u := by
  refine ⟨(s.loadEnded n x).release (fun h => h == .stillLoad n),
    answers_of_done (congrArg (done s) ((opStillStored_some h).trans (if_pos hbad))), loadEnded_stills hc hch n, ?_⟩
  exact (loadEnded_moved hc hch n).trans (Frame.refl.release _ (by simp)) rfl

theorem stillStored_stands (hgood : x.bad data = false) : ∃ u,
    Answers (.stillStored n data) s (u.complete x.cmd .ok (ceilDiv x.still.size 1024) 0)
      ∧ Tbl.find? u.cmp.stills n = some { x.still with data := x.surface data } ∧ LoadMoved s n ch x.len u := by
  have hcmp := stillStands_cmp (s.loadEnded n x) n x data
  refine ⟨(s.loadEnded n x).stillStands n x data,
    answers_of_done (congrArg (done s) ((opStillStored_some h).trans (if_neg (by simp [hgood])))), ?_, ?_⟩
  · rw [hcmp]
    exact Tbl.find?_put_same _ _ _
  · exact (loadEnded_moved hc hch n).trans (stillStands_frame _ _ _ _) (by rw [hcmp])

end stored

/-! ## FRAME_GRAB (R157, R165) -/

/-- The checks of FRAME_GRAB. -/
def grabChecks (t : Nat) (e : Entry) (s : State) : List (Bool × Status × Nat) :=
  let canvas : Bool := bitsAt e 10 0 1 == 1
  let count := bitsAt e 12 0 16
  let src := s.grabSource canvas (bitsAt e 8 0 12)
  [ (!onlyFields e grabFields, .rejFormat, 0), (count == 0 || src.isNone, .rejFormat, 0),
    (canvas && s.ownerOf 1 (bitsAt e 8 0 12) != t, .rejOwner, 0),
    (!hostOk (bitsAt e 16 0 64) (bitsAt e 24 0 32), .misaligned, 0),
    (decide (bitsAt e 24 0 32 < count * (src.getD (0, Fmt.zero)).1), .rejCapacity, 10),
    (!s.ringOn t (14 + bitsAt e 11 0 1), .busy, 0) ]

/-- The grab as it begins. -/
def grabNew (t : Nat) (e : Entry) (id : Nat) (f : Fmt) (tb : Nat) : Grab :=
  ⟨id, t, 14 + bitsAt e 11 0 1, tagOf e, bitsAt e 10 1 1 == 1, bitsAt e 12 0 16, 0, bitsAt e 16 0 64, bitsAt e 10 0 1 == 1,
    bitsAt e 8 0 12, f, tb, none⟩

/-- The grab begins on the channel of its command. -/
def State.grabBegins (s : State) (id : Nat) (g : Grab) : State :=
  match s.inflightOf id with
  | some c => match c.channel with
    | some ch => s.setCmp { s.cmp with grabs := Tbl.put s.cmp.grabs ch g }
    | none => s
  | none => s

theorem frameGrabBody_eq (t : Nat) (e : Entry) (id : Nat) (s : State) : frameGrabBody t e id s =
    s.checked id (grabChecks t e s) (fun u => u.grabBegins id
      (grabNew t e id ((s.grabSource (bitsAt e 10 0 1 == 1) (bitsAt e 8 0 12)).getD (0, Fmt.zero)).2 u.eventTb)) := by
  unfold frameGrabBody
  rfl

section grabChecks

variable {t : Tenant} {r : CmdRing} {e : Entry} {s : State} (hf : onlyFields e grabFields = true) {size : Nat} {f : Fmt}
  (hsrc : (s.taken t r e ⟨none, 0⟩).grabSource (bitsAt e 10 0 1 == 1) (bitsAt e 8 0 12) = some (size, f))
  (hk : bitsAt e 12 0 16 ≠ 0) (ho : (bitsAt e 10 0 1 == 1) = true → s.ownerOf 1 (bitsAt e 8 0 12) = t)
  (hhost : hostOk (bitsAt e 16 0 64) (bitsAt e 24 0 32) = true)

include hf hsrc hk ho hhost

/-- What is left to check of a grab that has a source and a count. -/
theorem grabChecks_eq : firstReject (grabChecks t e (s.taken t r e ⟨none, 0⟩)) = firstReject
    [ (decide (bitsAt e 24 0 32 < bitsAt e 12 0 16 * size), .rejCapacity, 10),
      (!s.ringOn t (14 + bitsAt e 11 0 1), .busy, 0) ] := by
  have hring : (s.taken t r e ⟨none, 0⟩).ringOn t (14 + bitsAt e 11 0 1) = s.ringOn t (14 + bitsAt e 11 0 1) := by
    have hr := r.isLt
    have hb := bitsAt_lt e 11 0 1
    exact taken_bit _ _ _ _ _ _ (by unfold RING_CTRL RING_DEV_IDX; omega)
  have hown : ((bitsAt e 10 0 1 == 1) && (s.taken t r e ⟨none, 0⟩).ownerOf 1 (bitsAt e 8 0 12) != t) = false := by
    cases hc : (bitsAt e 10 0 1 == 1) with
    | false => rfl
    | true => simp [taken_ownerOf, ho hc]
  simp only [grabChecks, hf, hsrc, hown, hhost, hring]
  simp [hk]

end grabChecks

section frameGrab

variable {t : Tenant} {r : CmdRing} {e : Entry} {s : State} (h : s.Takes 0x40 t r e)

include h

theorem frameGrab_fields (hf : onlyFields e grabFields = false) :
    Answers (.frameGrab t r e) s ((s.taken t r e ⟨none, 0⟩).complete s.hif.nextId .rejFormat 0 0) := by
  refine answers_rejected h rfl (frameGrabBody_eq ..) ?_ rfl
  simp [grabChecks, hf]

variable (hf : onlyFields e grabFields = true) {size : Nat} {f : Fmt}
  (hsrc : (s.taken t r e ⟨none, 0⟩).grabSource (bitsAt e 10 0 1 == 1) (bitsAt e 8 0 12) = some (size, f))
  (hk : bitsAt e 12 0 16 ≠ 0) (ho : (bitsAt e 10 0 1 == 1) = true → s.ownerOf 1 (bitsAt e 8 0 12) = t)
  (hhost : hostOk (bitsAt e 16 0 64) (bitsAt e 24 0 32) = true)

include hf hsrc hk ho hhost

theorem frameGrab_short (hlen : bitsAt e 24 0 32 < bitsAt e 12 0 16 * size) :
    Answers (.frameGrab t r e) s ((s.taken t r e ⟨none, 0⟩).complete s.hif.nextId .rejCapacity 10 0) := by
  refine answers_rejected h rfl (frameGrabBody_eq ..) ((grabChecks_eq hf hsrc hk ho hhost).trans ?_) rfl
  simp [hlen]

variable (hlen : bitsAt e 12 0 16 * size ≤ bitsAt e 24 0 32)

include hlen

theorem frameGrab_busy (hring : s.ringOn t (14 + bitsAt e 11 0 1) = false) :
    Answers (.frameGrab t r e) s ((s.taken t r e ⟨none, 0⟩).complete s.hif.nextId .busy 0 0) := by
  refine answers_rejected h rfl (frameGrabBody_eq ..) ((grabChecks_eq hf hsrc hk ho hhost).trans ?_) rfl
  simp [Nat.not_lt.2 hlen, hring]

theorem gives_frameGrab (hring : s.ringOn t (14 + bitsAt e 11 0 1) = true) {x : Cmd} {ch : Nat}
    (hx : (s.taken t r e ⟨none, 0⟩).inflightOf s.hif.nextId = some x) (hch : x.channel = some ch) :
    Gives (.frameGrab t r e) s (fun u => Tbl.find? u.cmp.grabs ch = some (grabNew t e s.hif.nextId f s.eventTb)
      ∧ Frame [] [.cmp] (s.taken t r e ⟨none, 0⟩) u) := by
  have hmirror := Told.mirrorCommand (s.taken t r e ⟨none, 0⟩) s.hif.nextId
  have htb : ((s.taken t r e ⟨none, 0⟩).mirrorCommand s.hif.nextId).eventTb = s.eventTb :=
    (hmirror.fld _ _).trans (taken_fld _ _ _ _ _ _ (ne_devIdx t r (by decide)))
  have hgo : exec (.frameGrab t r e) s = done s (((s.taken t r e ⟨none, 0⟩).mirrorCommand s.hif.nextId).setCmp
      { ((s.taken t r e ⟨none, 0⟩).mirrorCommand s.hif.nextId).cmp with
        grabs := Tbl.put ((s.taken t r e ⟨none, 0⟩).mirrorCommand s.hif.nextId).cmp.grabs ch
          (grabNew t e s.hif.nextId f s.eventTb) }) := by
    refine exec_accepted h rfl (frameGrabBody_eq ..) ((grabChecks_eq hf hsrc hk ho hhost).trans ?_) ?_
    · simp [Nat.not_lt.2 hlen, hring]
    · dsimp only
      rw [hsrc, htb, State.grabBegins, hmirror.inflightOf, hx]
      dsimp only
      rw [hch]
      rfl
  refine gives_told hgo (fun u hu => ⟨?_, hu.frame ((hmirror.frame Frame.refl).setCmp _ (by simp))⟩)
  exact (congrArg (fun y : Cmp => Tbl.find? y.grabs ch) (hu.same .cmp)).trans (Tbl.find?_put_same _ _ _)

end frameGrab

/-! ## FRAME_CAPTURED (R165) -/

/-- The registers of rings stand in the tenant pages, so what changes no register there changes no ring register. -/
structure SameRing (s t : State) (tn r : Nat) : Prop where
  on : t.ringOn tn r = s.ringOn tn r
  full : t.ringFull tn r = s.ringFull tn r
  devIdx : t.devIdx tn r = s.devIdx tn r
  addr : ∀ i, t.entryAddr tn r i = s.entryAddr tn r i
  ring : t.ring tn r = s.ring tn r

theorem Frame.sameRing {l : List Nat} {p : List Part} {s t : State} (h : Frame l p s t) (hl : ∀ a ∈ l, a < 0x100000000)
    (hp : .rings ∉ p) (tn r : Nat) : SameRing s t tn r := by
  have hfld : ∀ {a : Nat} (f : Field), 0x100000000 ≤ a → t.fld a f = s.fld a f :=
    fun f ha => h.fld f (fun hm => absurd (hl _ hm) (by omega))
  have hlo := hfld (a := RING_BASE_LO tn r) RING_BASE_LO_LOG2SIZE (by unfold RING_BASE_LO; omega)
  have hbase := hfld (a := RING_BASE_LO tn r) RING_BASE_LO_BASE_LO (by unfold RING_BASE_LO; omega)
  have hhi := hfld (a := RING_BASE_HI tn r) RING_BASE_HI_BASE_HI (by unfold RING_BASE_HI; omega)
  have hdev := hfld (a := RING_DEV_IDX tn r) RING_DEV_IDX_IDX (by unfold RING_DEV_IDX; omega)
  have hhost := hfld (a := RING_HOST_IDX tn r) RING_HOST_IDX_IDX (by unfold RING_HOST_IDX; omega)
  have hen := hfld (a := RING_CTRL tn r) RING_CTRL_EN (by unfold RING_CTRL; omega)
  refine ⟨?_, ?_, hdev, fun i => ?_, ?_⟩
  · rw [State.ringOn, State.bit, hen, State.ringOn, State.bit]
  · unfold State.ringFull State.ringUsed State.ringSize State.devIdx State.hostIdx
    rw [hlo, hdev, hhost]
  · rw [State.entryAddr, hhi, hbase, State.entryAddr]
  · rw [State.ring, h.same hp, State.ring]

/-- The source of a grab rests on the canvases, on the frame store and on FSA_CTRL. -/
theorem grabSource_congr {s t : State} (hc : t.cmp = s.cmp) (hf : t.fsa = s.fsa) (hh : t.holdFr = s.holdFr) (cv : Bool)
    (i : Nat) : t.grabSource cv i = s.grabSource cv i := by
  have hdet : t.detected = s.detected := funext (detected_congr hf hh)
  unfold State.grabSource State.detectedAt State.streamOf
  rw [hdet, canvas_congr hc]

section captured

variable (s : State) (ch : Nat) (g : Grab) (data : List Byte) (ago : Nat)

/-- The bytes of the frame that a grab has captured. -/
def State.grabBytes (s : State) (g : Grab) (data : List Byte) : List Byte :=
  if g.canvas then (match (s.canvas g.src).shown with
    | some p => p.pic.colourPlane g.coded
    | none => data) else data

/-- Its entry, but for the PHASE. -/
def State.captureOf (s : State) (g : Grab) (bytes : List Byte) (ago : Nat) : Capture :=
  ⟨g.tag, g.frame, .ok, g.coded, decide (g.left ≤ 1), g.buffer, bytes.length, (s.fullTime g.tb - ago) % 2 ^ 32, g.tb,
    s.grabFmt g, crcOf bytes, false⟩

/-- The frame has gone to the host. -/
def State.grabSent (s : State) (ch : Nat) (g : Grab) (bytes : List Byte) : State :=
  (s.emit (.hostWrite g.buffer bytes)).countBytes ch bytes.length

theorem grabSent_frame (bytes : List Byte) : OnlyRegs [HIF_DMA_BYTES ch] s (s.grabSent ch g bytes) :=
  (Frame.refl.emit _).wr _ (by simp)

theorem hostWrite_mem_grabSent (bytes : List Byte) : .hostWrite g.buffer bytes ∈ (s.grabSent ch g bytes).out :=
  List.mem_cons_self

theorem captureOf_grabSent (hch : ch < 48) (bytes : List Byte) :
    (s.grabSent ch g bytes).captureOf g bytes ago = s.captureOf g bytes ago := by
  have hframe := grabSent_frame s ch g bytes
  have hhold : (s.grabSent ch g bytes).holdFr = s.holdFr :=
    hframe.fld _ (by simp only [List.mem_singleton, FSA_CTRL, HIF_DMA_BYTES]; omega)
  have hbase : (s.grabSent ch g bytes).fullTime g.tb = s.fullTime g.tb := by
    rw [State.fullTime, State.base, hframe.same (q := .tim) (by simp), State.fullTime, State.base]
  have hfmt : (s.grabSent ch g bytes).grabFmt g = s.grabFmt g := by
    rw [State.grabFmt, grabSource_congr (hframe.same (q := .cmp) (by simp)) (hframe.same (q := .fsa) (by simp)) hhold,
      State.grabFmt]
  rw [State.captureOf, hbase, hfmt, State.captureOf]

variable {s ch g}

theorem opFrameCaptured_none (h : Tbl.find? s.cmp.grabs ch = none) : opFrameCaptured ch data ago s = s := by
  rw [opFrameCaptured, h]

variable (h : Tbl.find? s.cmp.grabs ch = some g)

include h

theorem opFrameCaptured_owed (ho : g.owed ≠ none) : opFrameCaptured ch data ago s = s := by
  rw [opFrameCaptured, h]
  exact if_pos (Option.isSome_iff_ne_none.2 ho)

variable (ho : g.owed = none) (hch : ch < 48)

include ho hch

theorem opFrameCaptured_some : opFrameCaptured ch data ago s =
    (let b := s.grabBytes g data
     let v := s.grabSent ch g b
     let c := s.captureOf g b ago
     if s.captureSpace g.tenant g.ring then v.grabEntry ch g c
     else v.setCmp { v.cmp with grabs := Tbl.put v.cmp.grabs ch { g with owed := some c } }) := by
  have hring := (grabSent_frame s ch g (s.grabBytes g data)).sameRing (by simp [HIF_DMA_BYTES]; omega) (by simp) g.tenant g.ring
  have hspace : (s.grabSent ch g (s.grabBytes g data)).captureSpace g.tenant g.ring = s.captureSpace g.tenant g.ring := by
    rw [State.captureSpace, hring.on, hring.full, State.captureSpace]
  dsimp only
  rw [← hspace, ← captureOf_grabSent s ch g ago hch, opFrameCaptured, h]
  dsimp only
  rw [if_neg (by simp [ho])]
  rfl

/-- A grab whose entry has no space keeps it. -/
theorem gives_captureOwed (hspace : s.captureSpace g.tenant g.ring = false) {i : Instr}
    (hi : exec i s = done s (opFrameCaptured ch data ago s)) :
    Gives i s (fun u => .hostWrite g.buffer (s.grabBytes g data) ∈ u.out
      ∧ Tbl.find? u.cmp.grabs ch = some { g with owed := some (s.captureOf g (s.grabBytes g data) ago) }
      ∧ Frame [HIF_DMA_BYTES ch] [.cmp] s u) := by
  have hsent := grabSent_frame s ch g (s.grabBytes g data)
  rw [opFrameCaptured_some data ago h ho hch] at hi
  dsimp only at hi
  rw [if_neg (by simp [hspace])] at hi
  refine gives_told hi (fun u hu => ⟨hu.sent _ (hostWrite_mem_grabSent s ch g _), ?_, hu.frame ?_⟩)
  · exact (congrArg (fun y : Cmp => Tbl.find? y.grabs ch) (hu.same .cmp)).trans (Tbl.find?_put_same _ _ _)
  · exact Frame.setCmp (hsent.mono (by simp) (by simp)) _ (by simp)

end captured

section captureWritten

/-- The entry of a captured frame has been written. -/
def State.grabWritten (s : State) (g : Grab) (c : Capture) : State :=
  s.ringWrite g.tenant g.ring (fun p => .capture { c with phase := p })

/-- The grab with its frame behind it: the next one, or none after the last. -/
def Grab.advance (g : Grab) (len : Nat) : Grab :=
  { g with owed := none, left := g.left - 1, frame := g.frame + 1, buffer := g.buffer + len }

variable {s : State} {ch : Nat} {g : Grab} {c : Capture}

section written

variable (hon : s.ringOn g.tenant g.ring = true) (hfull : s.ringFull g.tenant g.ring = false)

include hon hfull

theorem grabEntry_written : s.grabEntry ch g c =
    (let w := s.grabWritten g c
     if c.last then (w.setCmp { w.cmp with grabs := Tbl.del w.cmp.grabs ch }).complete g.cmd .ok 0 0
     else w.setCmp { w.cmp with grabs := Tbl.put w.cmp.grabs ch (g.advance c.len) }) := by
  have hwrite : s.writeCapture g.tenant g.ring c (fun s => s.raise 322) = s.grabWritten g c := if_pos (by simp [hon, hfull])
  rw [State.grabEntry, hwrite]
  rfl

theorem grabEntry_cmp : Tbl.find? (s.grabEntry ch g c).cmp.grabs ch = if c.last then none else some (g.advance c.len) := by
  rw [grabEntry_written hon hfull]
  dsimp only
  split_ifs
  · have hcmp := (afterCompletion_complete ((s.grabWritten g c).setCmp { (s.grabWritten g c).cmp with
      grabs := Tbl.del (s.grabWritten g c).cmp.grabs ch }) g.cmd .ok 0 0).parts .cmp (by simp)
    exact (congrArg (fun y : Cmp => Tbl.find? y.grabs ch) hcmp).trans (Tbl.find?_del_same _ _)
  · exact Tbl.find?_put_same _ _ _

theorem grabEntry_inflightOf (hlast : c.last = true) : (s.grabEntry ch g c).inflightOf g.cmd = none := by
  rw [grabEntry_written hon hfull]
  dsimp only
  rw [if_pos hlast]
  exact complete_inflightOf ..

theorem grabEntry_sent {x : Emission} (hx : x ∈ (s.grabWritten g c).out) : x ∈ (s.grabEntry ch g c).out := by
  rw [grabEntry_written hon hfull]
  dsimp only
  split_ifs
  · exact (afterCompletion_complete _ _ _ _ _).sent hx
  · exact hx

end written

theorem ringEntry_mem_grabWritten : .ringEntry g.tenant g.ring (s.entryAddr g.tenant g.ring (s.devIdx g.tenant g.ring))
    (.capture { c with phase := (s.ring g.tenant g.ring).phase })
    { c with phase := (s.ring g.tenant g.ring).phase }.bytes ∈ (s.grabWritten g c).out := by
  obtain ⟨n, hn⟩ := ringWrite_told s g.tenant g.ring (fun p => .capture { c with phase := p })
  exact hn.sent _ (entryWritten_sent s g.tenant g.ring (fun p => .capture { c with phase := p }) n)

/-- A grab whose entry has space goes on, or ends with its last frame. -/
theorem frameCaptured_written {data : List Byte} {ago : Nat} (h : Tbl.find? s.cmp.grabs ch = some g) (ho : g.owed = none)
    (hch : ch < 48) (hon : s.ringOn g.tenant g.ring = true) (hfull : s.ringFull g.tenant g.ring = false) {x : Capture}
    (hx : x = { s.captureOf g (s.grabBytes g data) ago with phase := (s.ring g.tenant g.ring).phase }) :
    let u := opFrameCaptured ch data ago s
    .hostWrite g.buffer (s.grabBytes g data) ∈ u.out
      ∧ .ringEntry g.tenant g.ring (s.entryAddr g.tenant g.ring (s.devIdx g.tenant g.ring)) (.capture x) x.bytes ∈ u.out
      ∧ Tbl.find? u.cmp.grabs ch = (if g.left ≤ 1 then none else some (g.advance (s.grabBytes g data).length))
      ∧ (g.left ≤ 1 → u.inflightOf g.cmd = none) := by
  have hring := (grabSent_frame s ch g (s.grabBytes g data)).sameRing (by simp [HIF_DMA_BYTES]; omega) (by simp) g.tenant g.ring
  have hon' : (s.grabSent ch g (s.grabBytes g data)).ringOn g.tenant g.ring = true := hring.on.trans hon
  have hfull' : (s.grabSent ch g (s.grabBytes g data)).ringFull g.tenant g.ring = false := hring.full.trans hfull
  have hgo : opFrameCaptured ch data ago s =
      (s.grabSent ch g (s.grabBytes g data)).grabEntry ch g (s.captureOf g (s.grabBytes g data) ago) := by
    rw [opFrameCaptured_some data ago h ho hch]
    exact if_pos (by simp [State.captureSpace, hfull])
  dsimp only
  rw [hgo]
  refine ⟨grabEntry_sent hon' hfull' ?_, grabEntry_sent hon' hfull' ?_, ?_, fun hlast => ?_⟩
  · exact (afterCompletion_ringWrite _ _ _ _).sent (hostWrite_mem_grabSent s ch g _)
  · have hmem := ringEntry_mem_grabWritten (s := s.grabSent ch g (s.grabBytes g data)) (g := g)
      (c := s.captureOf g (s.grabBytes g data) ago)
    rwa [hring.addr, hring.devIdx, hring.ring, ← hx] at hmem
  · simpa [State.captureOf] using grabEntry_cmp (ch := ch) (c := s.captureOf g (s.grabBytes g data) ago) hon' hfull'
  · exact grabEntry_inflightOf hon' hfull' (by simpa [State.captureOf] using hlast)

end captureWritten

/-! ## The obligation -/

/-- Settles O54: each command by its checks and by what it leaves waiting, then the transfers of stills and captures. -/
theorem canvasAndStillCommands : Obligations.CanvasAndStillCommands := by
  refine ⟨?_, ?_, ?_⟩
  · intro t r e s w id m c i bad waits
    have hcanvas : ∀ k, m.canvas k = s.canvas k := canvas_congr (mirrored_cmp id)
    have htaken : ∀ k, w.canvas k = s.canvas k := canvas_congr (taken_cmp ..)
    refine ⟨canvasDef_fields, layerSet_fields, sliceSet_fields, stillLoad_fields, frameGrab_fields,
      fun h hf hs hm hh => ?_, fun h hf hs hm hd ho hh hst => ?_, fun h hf hs => ?_, fun h hf hs => ?_, fun h hf => ?_⟩
    · intro go out plain
      refine ⟨canvasDelete_format h hf, fun hdel hplain ho hnone => ?_, fun hdel hplain ho hsome => ?_,
        fun hdef hgood hbig heng => ⟨canvasDefine_foreign h hf hdef hgood hbig heng, fun ho hfence hfree =>
          ⟨fun x hover => canvasDefine_over h hf hm hh hdef hgood hbig heng ho hfence hfree hover,
            gives_canvasDefine h hf hs hm hh hdef hgood hbig heng ho hfence hfree⟩⟩⟩
      · have hgo := canvasDelete_accepted h hf hs hm hh hdel hplain ho
        rw [if_pos (by rw [hnone]; rfl), hcanvas] at hgo
        exact answers_of_done hgo
      · have hgo := canvasDelete_accepted h hf hs hm hh hdel hplain ho
        rw [if_neg (by simpa using hsome)] at hgo
        exact gives_plan Frame.refl hgo
    · refine ⟨fun hoff => ⟨fun hnone => ?_, fun hsome => ?_⟩, fun hon => ⟨layerOn_format h hf hd hon,
        fun hgood hsrc hcount hdepth hover => gives_layerOn h hf hs hm hd ho hh hst hon hgood hsrc rfl hcount hdepth hover⟩⟩
      · have hgo := layerOff_accepted h hf hs hm hd ho hh hst hoff
        rw [if_pos (by rw [hcanvas, ← htaken, hnone]; rfl)] at hgo
        exact answers_of_done hgo
      · have hgo := layerOff_accepted h hf hs hm hd ho hh hst hoff
        rw [if_neg (by rw [hcanvas, ← htaken]; simpa using hsome)] at hgo
        exact gives_plan Frame.refl hgo
    · intro n k old go quiet hn
      refine ⟨fun hoff hold hd ho hq => sliceOff_absent h hf hs hn hoff hold hd ho hq.1 hq.2,
        fun y hoff hold hd ho hfl hq => gives_sliceOff h hf hs hn hoff hold hd ho hfl hq.1 hq.2,
        fun hon hold d f hd hfl hsl hw hhh hin heven hfree htb ho hof hq hover => ?_⟩
      refine gives_sliceOn h hf hs hn hon hold ?_ (badSliceFlow_false hfl hsl hfree) htb (Option.ne_none_iff_exists'.2 ⟨d, hd⟩) ho hof hq.1 hq.2 hover
      rw [hd]
      exact badRect_false hw hhh hin heven
    · exact gives_stillLoad h hf hs
    · intro n k cv q go size f hsrc hk ho hhost
      exact ⟨frameGrab_short h hf hsrc hk ho hhost, frameGrab_busy h hf hsrc hk ho hhost,
        fun hlen hring x ch => gives_frameGrab h hf hsrc hk ho hhost hlen hring⟩
  · intro n data s
    exact ⟨fun h => gives_nothing (congrArg (done s) (opStillStored_none h)),
      fun x c ch h hc hch => ⟨stillStored_fails h hc hch, stillStored_stands h hc hch⟩⟩
  · intro ch data ago s go
    refine ⟨fun h => gives_nothing (congrArg (done s) (opFrameCaptured_none data ago.toNat h)), fun g h => ?_⟩
    intro bytes entry
    refine ⟨fun ho => gives_nothing (congrArg (done s) (opFrameCaptured_owed data ago.toNat h ho)),
      fun ho hon hfull => ⟨opFrameCaptured ch data ago.toNat s, answers_of_done rfl, ?_⟩,
      fun ho hon hfull => gives_captureOwed data ago.toNat h ho ch.isLt (by simp [State.captureSpace, hon, hfull]) rfl⟩
    obtain ⟨hhost, hring, hgrab, hcmd⟩ := frameCaptured_written (data := data) (ago := ago.toNat) h ho ch.isLt hon
      hfull rfl
    refine ⟨hhost, hring, hgrab.trans ?_, hcmd⟩
    rw [Grab.advance, ho]
    rfl

end Sys2Proof.Machine
end

section
/-! PROOFS. What an event leaves, whatever it escalates to: the registers of the blocks that neither Hedgerow nor the entry
into the safe state writes (R529-R537). -/

namespace Sys2Proof.Machine

open Sys2Proof

/-! ## The blocks that no event writes -/

/-- The register stands outside the blocks TEN, XPT, FSA and CMP (0x200000-0x9FFFFF). -/
def Outside (a : Nat) : Prop := a < 0x200000 ∨ 0xA00000 ≤ a

/-- Every register of the blocks TEN, XPT, FSA and CMP reads as before. -/
def SameBlocks (s t : State) : Prop := ∀ a, ¬Outside a → t.rd a = s.rd a

theorem not_outside {a : Nat} (h1 : 0x200000 ≤ a) (h2 : a < 0xA00000) : ¬Outside a := by
  unfold Outside
  omega

theorem outside_hdgStat (n : Nat) : Outside (HDG_SRC_STAT n) := .inr (by unfold HDG_SRC_STAT; omega)

theorem outside_dmaStat {n : Nat} (hn : n < 64) : Outside (HIF_DMA_STAT n) := .inl (by unfold HIF_DMA_STAT; omega)

section sameBlocks

variable {s t u : State}

theorem SameBlocks.refl (s : State) : SameBlocks s s := fun _ _ => rfl

theorem SameBlocks.trans (h : SameBlocks s t) (g : SameBlocks t u) : SameBlocks s u :=
  fun a ha => (g a ha).trans (h a ha)

theorem SameBlocks.fld (h : SameBlocks s t) {a : Nat} (ha : ¬Outside a) (f : Field) : t.fld a f = s.fld a f :=
  congrArg f.get (h a ha)

theorem SameBlocks.frame {l : List Nat} {p : List Part} (h : SameBlocks s t) (hf : Frame l p t u)
    (hl : ∀ a ∈ l, Outside a) : SameBlocks s u :=
  h.trans (fun a ha => hf.1 a (fun hm => ha (hl a hm)))

/-- An update of the parts beside the registers. -/
theorem SameBlocks.update (h : SameBlocks s t) (hr : u.regs = t.regs) : SameBlocks s u :=
  h.trans (fun _ _ => by simp [State.rd, hr])

theorem SameBlocks.wr (h : SameBlocks s t) {a : Nat} (ha : Outside a) (v : Word) : SameBlocks s (t.wr a v) :=
  h.trans (fun _ hb => State.rd_wr_other t v (fun e => hb (e ▸ ha)))

theorem SameBlocks.setFld (h : SameBlocks s t) {a : Nat} (ha : Outside a) (f : Field) (n : Nat) :
    SameBlocks s (t.setFld a f n) := h.wr ha _

theorem SameBlocks.setBit (h : SameBlocks s t) {a : Nat} (ha : Outside a) (f : Field) (b : Bool) :
    SameBlocks s (t.setBit a f b) := h.wr ha _

theorem SameBlocks.inc (h : SameBlocks s t) {a : Nat} (ha : Outside a) (f : Field) :
    SameBlocks s (t.inc a f) := h.wr ha _

theorem SameBlocks.signal (h : SameBlocks s t) (n v : Nat) : SameBlocks s (t.signal n v) :=
  h.trans (fun a _ => (Signalled.signal t n v).rd a)

theorem SameBlocks.emit (h : SameBlocks s t) (e : Emission) : SameBlocks s (t.emit e) := h.update rfl

theorem SameBlocks.when (h : SameBlocks s t) (b : Bool) {f : State → State} (hf : ∀ u, SameBlocks u (f u)) :
    SameBlocks s (t.when b f) := by
  unfold State.when
  split
  · exact h.trans (hf t)
  · exact h

theorem SameBlocks.each {α : Type} (l : List α) {f : State → α → State}
    (hf : ∀ u, ∀ x ∈ l, SameBlocks u (f u x)) (h : SameBlocks s t) : SameBlocks s (t.each l f) := by
  induction l generalizing t with
  | nil => exact h
  | cons x l ih =>
    exact ih (fun u y hy => hf u y (List.mem_cons_of_mem _ hy)) (h.trans (hf t x List.mem_cons_self))

theorem SameBlocks.ite {p : Prop} [Decidable p] (ht : SameBlocks s t) (hu : SameBlocks s u) :
    SameBlocks s (if p then t else u) := by
  split
  · exact ht
  · exact hu

theorem SameBlocks.complete (h : SameBlocks s t) (id : Nat) (st : Status) (r ep : Nat) :
    SameBlocks s (t.complete id st r ep) :=
  h.trans (fun a ha => (afterCompletion_complete t id st r ep).rd (by unfold Outside at ha; omega))

/-! ## Events (R529-R533) -/

theorem SameBlocks.record (h : SameBlocks s t) (n sev : Nat) (promoted : Bool) :
    SameBlocks s (t.record n sev promoted) := by
  have hout : ∀ a, 0x1200000 ≤ a → Outside a := fun _ ha => .inr (by omega)
  refine SameBlocks.when (SameBlocks.when h _ fun u => ?_) _ fun u => ?_
  · exact ((SameBlocks.refl u).wr (hout _ (by decide)) _).wr (hout _ (by decide)) _
  · exact ((SameBlocks.refl u).wr (hout _ (by decide)) _).wr (hout _ (by decide)) _

section event

variable {esc : State → Nat → State} (hesc : ∀ u n, SameBlocks u (esc u n))

include hesc

theorem SameBlocks.enterSevere (h : SameBlocks s t) (n : Nat) (promoted : Bool) :
    SameBlocks s (t.enterSevere esc n promoted) := by
  have hn := outside_hdgStat n
  unfold State.enterSevere
  extract_lets s1 s2 s3 s4 s5
  have h3 : SameBlocks s s3 := ((h.setFld hn _ _).setBit hn _ _).when _ (fun u => (SameBlocks.refl u).setBit hn _ _)
  have h5 : SameBlocks s s5 := (h3.record n 2 promoted).when _ (fun u => (SameBlocks.refl u).signal 0 16)
  exact .ite h5 (.ite (h5.trans (hesc _ n)) (h5.update rfl))

theorem SameBlocks.hdgEvent (h : SameBlocks s t) (n : Nat) (forced : Bool) :
    SameBlocks s (t.hdgEvent esc n forced) := by
  have hn := outside_hdgStat n
  have hcount : Outside (HDG_SRC_COUNT n) := .inr (by unfold HDG_SRC_COUNT; omega)
  have hcounted := ((h.inc hcount HDG_SRC_COUNT_COUNT).setBit hn HDG_SRC_STAT_STICKY true).setBit hn
    HDG_SRC_STAT_FORCED forced
  have hfirst := hcounted.setFld hn HDG_SRC_STAT_WCOUNT 1
  have hnext := hcounted.inc hn HDG_SRC_STAT_WCOUNT
  exact .ite h (.ite hcounted (.ite (.ite (hfirst.enterSevere hesc n false)
    ((hfirst.setFld hn HDG_SRC_STAT_STATE 1).record n 1 false))
    (.ite (.ite (hnext.enterSevere hesc n false) hnext) hcounted)))

end event

theorem SameBlocks.escQuiet (h : SameBlocks s t) (n : Nat) : SameBlocks s (t.escQuiet n) := by
  unfold State.escQuiet
  extract_lets s1 _ s2
  have h2 : SameBlocks s s2 := (h.setFld (outside_hdgStat n) HDG_SRC_STAT_STATE 3).update rfl
  exact h2.signal 0 16

theorem sameBlocks_escQuiet (s : State) (n : Nat) : SameBlocks s (s.escQuiet n) := (SameBlocks.refl s).escQuiet n

theorem sameBlocks_escSafe (s : State) (n : Nat) : SameBlocks s (s.escSafe n) :=
  .ite (sameBlocks_escQuiet s n) ((sameBlocks_escQuiet s n).hdgEvent sameBlocks_escQuiet 384 false)

/-- An event in the safe state (R537). -/
theorem SameBlocks.safeEvent (h : SameBlocks s t) (n : Nat) : SameBlocks s (t.hdgEvent State.escSafe n false) :=
  h.hdgEvent sameBlocks_escSafe n false

/-! ## The safe state (R536) -/

theorem SameBlocks.driveFault (h : SameBlocks s t) (b : Bool) : SameBlocks s (t.driveFault b) :=
  .ite h ((h.setBit (.inr (by decide)) HDG_STAT_FAULT b).update rfl)

theorem sameBlocks_idleOutputs (s : State) : SameBlocks s s.idleOutputs := by
  refine SameBlocks.when (.each _ (fun u e _ => ?port) (.each _ (fun u n _ => ?lane) (.refl s))) _
    fun u => (SameBlocks.refl u).safeEvent 69
  case lane => exact (SameBlocks.refl u).setBit (.inr (by unfold ML_STAT; omega)) _ _
  case port =>
    exact SameBlocks.setBit ((SameBlocks.refl u).update rfl) (.inr (by unfold MP_HIST; omega)) _ _

theorem SameBlocks.writeCapture (h : SameBlocks s t) (n r : Nat) (c : Capture) {dropped : State → State}
    (hd : ∀ u, SameBlocks u (dropped u)) : SameBlocks s (t.writeCapture n r c dropped) := by
  have hstat : Outside (RING_STAT n r) := .inr (by unfold RING_STAT; omega)
  refine .ite (h.trans fun a ha => ?_) (((h.setBit hstat RING_STAT_DROP true).inc hstat RING_STAT_DROPCNT).trans (hd _))
  exact (afterCompletion_ringWrite t n r _).rd (by unfold Outside at ha; omega)

theorem SameBlocks.recharge (h : SameBlocks s t) (c : Nat) : SameBlocks s (t.recharge c) :=
  h.frame (Frame.refl.rechargeTo c none (p := [.ten]) (l := []) (by simp)) (by simp)

theorem sameBlocks_dropChanges (s : State) : SameBlocks s s.dropChanges := (SameBlocks.refl s).update rfl

theorem sameBlocks_dropCanvasWork (s : State) : SameBlocks s s.dropCanvasWork := by
  unfold State.dropCanvasWork
  extract_lets _ s1 s2 s3 s4
  have h2 : SameBlocks s s2 := (SameBlocks.refl s).update rfl
  have h3 : SameBlocks s s3 := .each _ (fun u c _ => (SameBlocks.refl u).recharge c) h2
  have h4 : SameBlocks s s4 :=
    .each _ (fun u _ _ => (SameBlocks.refl u).writeCapture _ _ _ fun w => (SameBlocks.refl w).safeEvent 322) h3
  exact h4.update rfl

theorem sameBlocks_dropSalvos (s : State) : SameBlocks s s.dropSalvos := by
  unfold State.dropSalvos
  extract_lets l _ s1 s2 s3
  have h2 : SameBlocks s s2 := (SameBlocks.refl s).update rfl
  have h3 : SameBlocks s s3 := .each _ (fun u c _ => (SameBlocks.refl u).recharge c) h2
  exact h3.when _ fun u => (SameBlocks.refl u).safeEvent 352

theorem SameBlocks.svcAborted (h : SameBlocks s t) : SameBlocks s t.svcAborted := by
  have hstat : Outside SVC_CMDSTAT := .inr (by decide)
  unfold State.svcAborted State.svcEnd
  extract_lets p _ s1 s2 s3 s4
  have h1 : SameBlocks s s1 := h.update rfl
  exact (((h1.setBit hstat _ _).setFld hstat _ _).setFld hstat _ _).setBit (.inr (by decide)) _ _

theorem sameBlocks_abandonShadow (s : State) : SameBlocks s s.abandonShadow := by
  have hupd : Outside SVC_UPD := .inr (by decide)
  unfold State.abandonShadow
  exact .ite ((SameBlocks.refl s).setFld hupd _ _).svcAborted (.ite (SameBlocks.refl s).svcAborted (.refl s))

theorem sameBlocks_stopForSafe (s : State) : SameBlocks s s.stopForSafe := by
  have hmuffle : SameBlocks s s.muffle := .each _ (fun u _ _ => (SameBlocks.refl u).emit _) (.refl s)
  have hfloat : SameBlocks s s.muffle.floatAudio :=
    .each _ (fun u _ _ => (SameBlocks.refl u).emit _) (.each _ (fun u _ _ => (SameBlocks.refl u).emit _) hmuffle)
  have hidle := hfloat.trans (sameBlocks_idleOutputs _)
  have hchanges := hidle.trans (sameBlocks_dropChanges _)
  have hcanvas := hchanges.trans (sameBlocks_dropCanvasWork _)
  have hsalvos := hcanvas.trans (sameBlocks_dropSalvos _)
  unfold State.stopForSafe
  exact (hsalvos.trans (sameBlocks_abandonShadow _)).update rfl

theorem SameBlocks.setFov (h : SameBlocks s t) (x : Nat) : SameBlocks s (t.setFov x) := by
  have hstat : Outside FOV_STAT := .inr (by decide)
  unfold State.setFov
  extract_lets _ s1 s2 s3 s4
  have h1 : SameBlocks s s1 := h.update rfl
  have h2 : SameBlocks s s2 := (h1.when _ (fun u => (SameBlocks.refl u).emit _)).when _ (fun u => (SameBlocks.refl u).emit _)
  exact ((h2.setFld hstat _ _).setBit hstat _ _).setBit hstat _ _

theorem sameBlocks_abortCommands (s : State) : SameBlocks s s.abortCommands :=
  .each _ (fun u i _ => (SameBlocks.refl u).complete i _ _ _) (.refl s)

theorem sameBlocks_haltChannel (s : State) {n : Nat} (hn : n < 64) (cause : Nat) :
    SameBlocks s (s.haltChannel n cause) := by
  have hstat := outside_dmaStat hn
  unfold State.haltChannel
  extract_lets s1 s2 s3 s4
  have h1 : SameBlocks s s1 := by
    unfold s1
    split
    · exact ((SameBlocks.refl s).wr (.inl (by unfold HIF_DMA_ERRADDR_LO; omega)) _).wr
        (.inl (by unfold HIF_DMA_ERRADDR_HI; omega)) _
    · exact .refl s
  have h2 : SameBlocks s s2 := h1.update rfl
  exact ((h2.setFld hstat _ _).setFld hstat _ _).when _ (fun u => (SameBlocks.refl u).signal 0 _)

theorem SameBlocks.enterSafe (h : SameBlocks s t) (n : Nat) : SameBlocks s (t.enterSafe n) := by
  have hstat : Outside HDG_STAT := .inr (by decide)
  unfold State.enterSafe
  extract_lets s1 s2 s3 s4 s5 s6 s7 s8
  have h4 : SameBlocks s s4 := (((h.setBit hstat _ _).setFld hstat _ _).signal 0 16).driveFault true
  have h6 : SameBlocks s s6 := ((h4.setFov 7).trans (sameBlocks_stopForSafe _)).trans (sameBlocks_abortCommands _)
  have hcause : ∀ u, ∀ k ∈ List.range 48, SameBlocks u (u.setFld (HIF_DMA_STAT k) HIF_DMA_STAT_CAUSE 5) :=
    fun u k hk => (SameBlocks.refl u).setFld (outside_dmaStat (by simp at hk; omega)) _ _
  have hhalt : ∀ u, ∀ k ∈ List.range 16, SameBlocks u (State.haltChannel u (48 + k) 5) :=
    fun u k hk => sameBlocks_haltChannel u (by simp at hk; omega) 5
  have h7 : SameBlocks s s7 := .each _ hcause h6
  have h8 : SameBlocks s s8 := .each _ hhalt h7
  exact h8.safeEvent 325

/-! ## Events that escalate (R533) -/

theorem SameBlocks.takeAction (h : SameBlocks s t) (n : Nat) : SameBlocks s (t.takeAction n) :=
  .ite h (.ite (h.driveFault true) (.ite (h.enterSafe n) h))

theorem sameBlocks_escOwn (s : State) (n : Nat) : SameBlocks s (s.escOwn n) := (sameBlocks_escQuiet s n).takeAction n

theorem sameBlocks_escalate (s : State) (n : Nat) : SameBlocks s (s.escalate n) :=
  .ite (sameBlocks_escOwn s n) ((sameBlocks_escOwn s n).hdgEvent sameBlocks_escOwn 384 false)

theorem SameBlocks.raise (h : SameBlocks s t) (n : Nat) : SameBlocks s (t.raise n) :=
  h.hdgEvent sameBlocks_escalate n false

theorem SameBlocks.promote (h : SameBlocks s t) (n : Nat) : SameBlocks s (t.promote n) :=
  .ite h (h.enterSevere sameBlocks_escalate n true)

end sameBlocks

end Sys2Proof.Machine
end

section
/-! PROOFS. The planes: their test, the stages of a rotation, retirement and the commands: O36 (R168, R186-R195). -/

namespace Sys2Proof.Machine

open Sys2Proof

/-! ## Updates of the planes and of BST -/

@[simp] theorem State.rd_setPlanes (s : State) (x : Planes) (a : Nat) : (s.setPlanes x).rd a = s.rd a := rfl
@[simp] theorem State.fld_setPlanes (s : State) (x : Planes) (a : Nat) (f : Field) :
    (s.setPlanes x).fld a f = s.fld a f := rfl

theorem Frame.setPlanes {l : List Nat} {p : List Part} {s t : State} (h : Frame l p s t) (x : Planes) (hp : .planes ∈ p) :
    Frame l p s (t.setPlanes x) :=
  h.update rfl rfl (fun q hq => by
    cases q
    case planes => exact absurd hp hq
    all_goals simp [Part.Same])

theorem Frame.setBst {l : List Nat} {p : List Part} {s t : State} (h : Frame l p s t) (x : Bst) (hp : .bst ∈ p) :
    Frame l p s { t with bst := x } :=
  h.update rfl rfl (fun q hq => by
    cases q
    case bst => exact absurd hp hq
    all_goals simp [Part.Same])

theorem Told.planes {t u : State} (h : Told t u) : u.planes = t.planes := h.same .planes

theorem Told.bst {t u : State} (h : Told t u) : u.bst = t.bst := h.same .bst

/-- A set one-bit field is that bit of the register. -/
theorem testBit_of_bit {s : State} {a k : Nat} (h : s.bit a ⟨k, 1⟩ = true) : (s.rd a).toNat.testBit k = true := by
  have hmod : (s.rd a).toNat / 2 ^ k % 2 ^ 1 ≠ 0 := by simpa [State.bit, State.fld, Field.get] using h
  rw [Nat.testBit_eq_decide_div_mod_eq, decide_eq_true_eq]
  omega

theorem State.testPl_lt (s : State) : s.testPl < 32 := Field.get_lt XPT_PLANE_STAT_TESTPL _

theorem State.testPassed_of_not_done {s : State} (h : s.testDone = false) : s.testPassed = false := by
  simp [State.testPassed, h]

/-! ## A plane enters test (R188, R192) -/

section enterTest

variable (s : State) (n : Nat)

/-- The plane under test is set and its results are clear. -/
def State.testStarts : State :=
  ((s.setFld XPT_PLANE_STAT XPT_PLANE_STAT_TESTPL n).setBit XPT_PLANE_STAT XPT_PLANE_STAT_TESTDONE false).setBit
    XPT_PLANE_STAT XPT_PLANE_STAT_TESTPASS false

theorem enterTest_eq : s.enterTest n =
    (s.testStarts n).when (n == 31) (fun s => s.setBit XPT_PLANE_STAT XPT_PLANE_STAT_ROTSTOP true) := rfl

theorem enterTest_frame : OnlyRegs [XPT_PLANE_STAT] s (s.enterTest n) :=
  (((Frame.refl.setFld _ _ (by simp)).setBit _ _ (by simp)).setBit _ _ (by simp)).when _
    (Frame.refl.setBit _ _ (by simp))

/-- ROTSTOP is all that an end of testing sets beside what every test sets. -/
theorem enterTest_fld {f : Field} (hf : f.lo + f.width ≤ 13) :
    (s.enterTest n).fld XPT_PLANE_STAT f = (s.testStarts n).fld XPT_PLANE_STAT f := by
  rw [enterTest_eq]
  unfold State.when
  split
  · exact State.fld_setFld_apart _ _ _ _ _ (by decide) (.inr hf)
  · rfl

theorem enterTest_testPl : (s.enterTest n).testPl = n % 32 := by
  rw [State.testPl, enterTest_fld _ _ (by decide), State.testStarts]
  refine (State.fld_setFld_apart _ _ _ _ _ (by decide) (.inr (by decide))).trans ?_
  refine (State.fld_setFld_apart _ _ _ _ _ (by decide) (.inr (by decide))).trans ?_
  exact State.fld_setFld _ _ _ _ (by decide)

theorem enterTest_testDone : (s.enterTest n).testDone = false := by
  rw [State.testDone, State.bit, enterTest_fld _ _ (by decide), ← State.bit]
  refine (State.bit_setFld_apart _ _ _ (by decide) (.inr (by decide))).trans ?_
  exact State.bit_setBit _ _ _ _ (by decide) (by decide)

theorem enterTest_planes : (s.enterTest n).planes = s.planes := 
  (enterTest_frame s n).same (q := .planes) (by simp)

end enterTest

/-! ## The test of the plane under test ends (R186, R192) -/

section planeTest

variable {s : State}

theorem opPlaneTestDone_nothing (p : Bool) (h : s.testPl = 31 ∨ s.testDone = true ∨ s.planes.rotation ≠ none) :
    opPlaneTestDone p s = s :=
  if_pos (by simpa [Option.isSome_iff_ne_none] using h)

theorem endPlaneWait_none {n : Nat} (h : Tbl.find? s.bst.waits n = none) (st : Status) (r : Nat) :
    s.endPlaneWait n st r = s := by
  unfold State.endPlaneWait
  rw [h]

/-- BST remembers a pass, and TESTDONE and TESTPASS are set. -/
def State.testPasses (s : State) : State :=
  ((s.planeTested s.testPl true).setBit XPT_PLANE_STAT XPT_PLANE_STAT_TESTDONE true).setBit XPT_PLANE_STAT
    XPT_PLANE_STAT_TESTPASS true

theorem testPasses_frame (s : State) : Frame [XPT_PLANE_STAT] [.bst] s s.testPasses :=
  ((Frame.refl.setBst _ (by simp)).setBit _ _ (by simp)).setBit _ _ (by simp)

theorem testPasses_testPl (s : State) : s.testPasses.testPl = s.testPl :=
  (State.fld_setFld_apart _ _ _ _ _ (by decide) (.inr (by decide))).trans
    (State.fld_setFld_apart _ _ _ _ _ (by decide) (.inr (by decide)))

theorem testPasses_testDone (s : State) : s.testPasses.testDone = true :=
  (State.bit_setFld_apart _ _ _ (by decide) (.inr (by decide))).trans
    (State.bit_setBit _ _ _ _ (by decide) (by decide))

theorem testPasses_testPassed (s : State) : s.testPasses.testPassed = true := by
  rw [State.testPassed, testPasses_testDone, Bool.true_and]
  exact State.bit_setBit _ _ _ _ (by decide) (by decide)

theorem opPlaneTestDone_pass (ht : s.testPl ≠ 31) (hd : s.testDone = false) (hr : s.planes.rotation = none)
    (hf : s.planes.failing = []) (hforce : s.planes.force = false) (hdue : s.planes.due = false)
    (hw : Tbl.find? s.bst.waits s.testPl = none) : opPlaneTestDone true s = s.testPasses := by
  have hwait : s.testPasses.endPlaneWait s.testPasses.testPl .ok 1 = s.testPasses :=
    endPlaneWait_none (s := s.testPasses) ((congrArg (Tbl.find? s.bst.waits) (testPasses_testPl s)).trans hw) _ _
  have hp : s.testPasses.planes = s.planes := rfl
  have hstart : ¬(s.testPl = 31 ∨ s.testDone = true ∨ s.planes.rotation.isSome = true) := by simp [ht, hd, hr]
  unfold opPlaneTestDone
  rw [if_neg hstart, if_pos rfl]
  extract_lets s1 s2 s3
  have h3 : s3 = s.testPasses := hwait
  rw [h3, hp, hf, hforce, hdue]
  rfl

/-- The FAILED bit of the plane is set, BST no longer remembers a pass, and no rotation waits. -/
def State.testFails (s : State) : State :=
  (State.setBit { s with bst := { s.bst with passed := s.bst.passed.filter (· != s.testPl) } } (BST_FAILED 0)
    ⟨s.testPl, 1⟩ true).setPlanes { s.planes with force := false, due := false }

theorem testFails_frame (s : State) : Frame [BST_FAILED 0] [.bst, .planes] s s.testFails :=
  ((Frame.refl.setBst _ (by simp)).setBit _ _ (by simp)).setPlanes _ (by simp)

theorem testFails_testPl (s : State) : s.testFails.testPl = s.testPl := (testFails_frame s).fld _ (by decide)

theorem testFails_unitFailed (s : State) : s.testFails.unitFailed s.testPl = true := by
  have hlt := s.testPl_lt
  rw [State.unitFailed, Nat.div_eq_of_lt hlt, Nat.mod_eq_of_lt hlt, State.testFails, State.rd_setPlanes]
  exact testBit_of_bit (State.bit_setBit _ _ ⟨s.testPl, 1⟩ true (by dsimp only; omega) Nat.one_pos)

theorem opPlaneTestDone_fail (ht : s.testPl ≠ 31) (hd : s.testDone = false) (hr : s.planes.rotation = none)
    (hw : Tbl.find? s.bst.waits s.testPl = none) :
    opPlaneTestDone false s = (s.testFails.retirePlane s.testPl).raise 145 := by
  have hwait : s.testFails.endPlaneWait s.testFails.testPl .ok 0 = s.testFails :=
    endPlaneWait_none (s := s.testFails) ((congrArg (Tbl.find? s.bst.waits) (testFails_testPl s)).trans hw) _ _
  have hstart : ¬(s.testPl = 31 ∨ s.testDone = true ∨ s.planes.rotation.isSome = true) := by simp [ht, hd, hr]
  unfold opPlaneTestDone
  rw [if_neg hstart, if_neg Bool.false_ne_true]
  extract_lets _ s1 s2
  have h2 : s2 = s.testFails := hwait
  rw [h2, testFails_testPl]

theorem gives_planeTestDone_pass (ht : s.testPl ≠ 31) (hd : s.testDone = false) (hr : s.planes.rotation = none)
    (hf : s.planes.failing = []) (hforce : s.planes.force = false) (hdue : s.planes.due = false)
    (hw : Tbl.find? s.bst.waits s.testPl = none) :
    Gives (.planeTestDone true) s (fun u => u.testDone = true ∧ u.testPassed = true ∧ u.testPl = s.testPl
      ∧ u.bst = { s.bst with passed := s.bst.passed.filter (· != s.testPl) ++ [s.testPl] }
      ∧ Frame [XPT_PLANE_STAT] [.bst] s u) := by
  refine gives_told (congrArg (done s) (opPlaneTestDone_pass ht hd hr hf hforce hdue hw)) fun u hu => ?_
  have hdone : u.testDone = true := (hu.bit _ _).trans (testPasses_testDone s)
  have hpass : u.testPassed = true := by
    rw [State.testPassed, State.testDone, hu.bit, hu.bit]
    exact testPasses_testPassed s
  exact ⟨hdone, hpass, (hu.fld _ _).trans (testPasses_testPl s), hu.bst, hu.frame (testPasses_frame s)⟩

end planeTest

/-! ## The rotation begins or is remembered (R187, R195) -/

section rotates

variable {s : State}

/-- No rotation is under way and a plane is under test. -/
def State.MayRotate (s : State) : Prop := s.planes.rotation = none ∧ s.testPl ≠ 31

theorem rotateNow_eq {o p : Nat} (ho : s.nextPlane = some o) (hp : s.positionOf o = some p) :
    s.rotateNow = s.setPlanes { s.planes with
      rotation := some ⟨p, o, s.testPl, 0, false⟩, due := false, force := false } := by
  simp [State.rotateNow, State.startRotation, ho, hp]

theorem opRotationTimer_nothing (h : s.bit XPT_CTRL XPT_CTRL_ROTEN = false ∨ ¬s.MayRotate) : opRotationTimer s = s := by
  refine if_pos ?_
  simp only [State.MayRotate, not_and_or, Option.isSome_iff_ne_none, Bool.not_eq_eq_eq_not, Bool.not_true] at h ⊢
  tauto

theorem opRotationTimer_goes (hen : s.bit XPT_CTRL XPT_CTRL_ROTEN = true) (h : s.MayRotate) :
    opRotationTimer s = if s.testPassed then s.rotateNow else s.setPlanes { s.planes with due := true } := by
  obtain ⟨hr, ht⟩ := h
  exact if_neg (by simp [hen, hr, ht])

theorem opForceRot_nothing (h : ¬s.MayRotate) : opForceRot s = s := by
  refine if_pos ?_
  simp only [State.MayRotate, not_and_or, Option.isSome_iff_ne_none] at h ⊢
  tauto

theorem opForceRot_goes (h : s.MayRotate) :
    opForceRot s = if s.testPassed then s.rotateNow else s.setPlanes { s.planes with force := true } := by
  obtain ⟨hr, ht⟩ := h
  exact if_neg (by simp [hr, ht])

theorem Told.planesSet {x : Planes} {u : State} (h : Told (s.setPlanes x) u) :
    u.planes = x ∧ Frame [] [.planes] s u :=
  ⟨h.planes, h.frame (Frame.refl.setPlanes x (by simp))⟩

/-- A command whose effect is on the state of the planes alone. -/
theorem gives_planesSet {c : Instr} {t : State} {x : Planes} (he : exec c s = done s t) (ht : t = s.setPlanes x) :
    Gives c s (fun u => u.planes = x ∧ Frame [] [.planes] s u) :=
  gives_told he (fun _ hu => (ht ▸ hu).planesSet)

theorem gives_planesSet_bar {c : Instr} {t : State} {x : Planes} (hb : s.pwr.barred = false)
    (he : exec c s = doneBar s t) (ht : t = s.setPlanes x) :
    Gives c s (fun u => u.planes = x ∧ Frame [] [.planes] s u) :=
  gives_told_bar hb he (fun _ hu => (ht ▸ hu).planesSet)

end rotates

/-! ## The stages of a rotation (R188, R191, R195) -/

section stages

variable {s : State} {r : Rotation}

theorem opRotation_none (h : s.planes.rotation = none) :
    opRotationCopy s = s ∧ opRotationReads s = s ∧ opRotationComplete s = s := by
  simp [opRotationCopy, opRotationReads, opRotationComplete, h]

theorem opRotationCopy_eq (h : s.planes.rotation = some r) : opRotationCopy s =
    if r.stage = 0 then s.setPlanes { s.planes with rotation := some { r with stage := 1 } } else s := by
  simp [opRotationCopy, h]

theorem opRotationReads_eq (h : s.planes.rotation = some r) : opRotationReads s =
    if r.stage = 1 then (s.setPlanes { s.planes with rotation := some { r with stage := 2 } }).setFld
      (XPT_PMAP r.position) XPT_PMAP_PLANE r.incoming else s := by
  simp [opRotationReads, h]

theorem gives_rotationReadsMove (h : s.planes.rotation = some r) (hstage : r.stage = 1) (hin : r.incoming < 32) :
    Gives .rotationReadsMove s (fun u => u.planes = { s.planes with rotation := some { r with stage := 2 } }
      ∧ u.planeAt r.position = r.incoming ∧ Frame [XPT_PMAP r.position] [.planes] s u) := by
  refine gives_told (congrArg (done s) ((opRotationReads_eq h).trans (if_pos hstage))) fun u hu => ?_
  refine ⟨hu.planes, (hu.fld _ _).trans ?_, hu.frame ((Frame.refl.setPlanes _ (by simp)).setFld _ _ (by simp))⟩
  exact (State.fld_setFld _ _ _ _ (by decide)).trans (Nat.mod_eq_of_lt hin)

/-- The rotation has ended: the outgoing plane enters test, or none where it is retired, and ROTCNT counts. -/
def State.rotated (s : State) (r : Rotation) : State :=
  ((s.setPlanes { s.planes with rotation := none }).enterTest (if r.retire then 31 else r.out)).inc XPT_ROTCNT
    XPT_ROTCNT_COUNT

theorem opRotationComplete_eq (h : s.planes.rotation = some r) : opRotationComplete s =
    if r.stage = 2 then (s.rotated r).serveFailing else s := by
  simp [opRotationComplete, h, State.rotated]

theorem rotated_planes : (s.rotated r).planes = { s.planes with rotation := none } := enterTest_planes _ _

theorem rotated_frame : Frame [XPT_PLANE_STAT, XPT_ROTCNT] [.planes] s (s.rotated r) :=
  ((Frame.refl.setPlanes _ (by simp)).trans ((enterTest_frame _ _).mono (by simp) (by simp))).inc _ (by simp)

theorem rotated_planeStat : (s.rotated r).rd XPT_PLANE_STAT =
    ((s.setPlanes { s.planes with rotation := none }).enterTest (if r.retire then 31 else r.out)).rd XPT_PLANE_STAT :=
  State.rd_inc_other _ _ (by decide)

theorem rotated_testPl (hr : r.out < 17) : (s.rotated r).testPl = if r.retire then 31 else r.out := by
  refine (congrArg XPT_PLANE_STAT_TESTPL.get rotated_planeStat).trans ((enterTest_testPl _ _).trans ?_)
  split <;> omega

theorem rotated_testDone : (s.rotated r).testDone = false := by
  rw [State.testDone, State.bit, State.fld, rotated_planeStat]
  exact enterTest_testDone _ _

theorem rotated_rotcnt : (s.rotated r).fld XPT_ROTCNT XPT_ROTCNT_COUNT =
    min (s.fld XPT_ROTCNT XPT_ROTCNT_COUNT + 1) (2 ^ XPT_ROTCNT_COUNT.width - 1) := by
  refine (State.fld_incBy _ _ _ 1 (by decide)).trans ?_
  rw [(enterTest_frame _ _).fld _ (by decide), State.fld_setPlanes]

/-- With no retired plane waiting and no pass recorded there is nothing to take up. -/
theorem serveFailing_nothing (hr : s.planes.rotation = none) (hf : s.planes.failing = [])
    (hp : s.testPassed = false) : s.serveFailing = s := by
  have hsame : s.setPlanes { s.planes with failing := [] } = s := by
    rw [← hf]
    rfl
  unfold State.serveFailing
  rw [hf, hsame, hr, hp]
  simp [State.each]

theorem gives_rotationComplete (h : s.planes.rotation = some r) (hstage : r.stage = 2) (hout : r.out < 17)
    (hf : s.planes.failing = []) :
    Gives .rotationComplete s (fun u => u.planes = { s.planes with rotation := none }
      ∧ u.testPl = (if r.retire then 31 else r.out) ∧ u.testDone = false ∧ u.testPassed = false
      ∧ u.fld XPT_ROTCNT XPT_ROTCNT_COUNT =
        min (s.fld XPT_ROTCNT XPT_ROTCNT_COUNT + 1) (2 ^ XPT_ROTCNT_COUNT.width - 1)
      ∧ Frame [XPT_PLANE_STAT, XPT_ROTCNT] [.planes] s u) := by
  have hdone : opRotationComplete s = s.rotated r := by
    rw [opRotationComplete_eq h, if_pos hstage]
    exact serveFailing_nothing (by rw [rotated_planes]) (by rw [rotated_planes]; exact hf)
      (State.testPassed_of_not_done rotated_testDone)
  refine gives_told (congrArg (done s) hdone) fun u hu => ?_
  have htest : u.testDone = false := (hu.bit _ _).trans rotated_testDone
  exact ⟨hu.planes.trans rotated_planes, (hu.fld _ _).trans (rotated_testPl hout), htest,
    State.testPassed_of_not_done htest, (hu.fld _ _).trans rotated_rotcnt, hu.frame rotated_frame⟩

end stages

/-! ## A plane is retired (R190-R193, R195) -/

/-- What the decision to retire a plane has set stands: RETIRED, HEALTHY and PROT. -/
structure SameRetired (s t : State) : Prop where
  rd_retired : t.rd XPT_RETIRED = s.rd XPT_RETIRED
  healthy : t.healthy = s.healthy
  prot : t.fld XPT_PLANE_STAT XPT_PLANE_STAT_PROT = s.fld XPT_PLANE_STAT XPT_PLANE_STAT_PROT

section sameRetired

variable {s t u : State}

theorem SameRetired.refl (s : State) : SameRetired s s := ⟨rfl, rfl, rfl⟩

theorem SameRetired.trans (h : SameRetired s t) (g : SameRetired t u) : SameRetired s u :=
  ⟨g.rd_retired.trans h.rd_retired, g.healthy.trans h.healthy, g.prot.trans h.prot⟩

theorem SameRetired.retired (h : SameRetired s t) (n : Nat) : t.retired n = s.retired n := by
  rw [State.retired, State.fld, h.rd_retired, State.retired, State.fld]

theorem SameRetired.frame {l : List Nat} {p : List Part} (h : SameRetired s t) (hf : Frame l p t u)
    (h1 : XPT_RETIRED ∉ l) (h2 : XPT_PLANE_STAT ∉ l) : SameRetired s u :=
  h.trans ⟨hf.1 _ h1, hf.fld _ h2, hf.fld _ h2⟩

theorem SameRetired.blocks (h : SameRetired s t) (hb : SameBlocks t u) : SameRetired s u :=
  h.trans ⟨hb _ (not_outside (by decide) (by decide)), hb.fld (not_outside (by decide) (by decide)) _,
    hb.fld (not_outside (by decide) (by decide)) _⟩

theorem SameRetired.setPlanes (h : SameRetired s t) (x : Planes) : SameRetired s (t.setPlanes x) :=
  h.trans ⟨rfl, rfl, rfl⟩

/-- A field of XPT_PLANE_STAT beside HEALTHY and PROT is set. -/
theorem SameRetired.planeStat (h : SameRetired s t) (f : Field) (n : Nat) (hw : f.lo + f.width ≤ 32)
    (h1 : fieldsApart f XPT_PLANE_STAT_HEALTHY) (h2 : fieldsApart f XPT_PLANE_STAT_PROT) :
    SameRetired s (t.setFld XPT_PLANE_STAT f n) :=
  h.trans ⟨State.rd_setFld_other _ _ _ (by decide), State.fld_setFld_apart _ _ _ _ _ hw h1,
    State.fld_setFld_apart _ _ _ _ _ hw h2⟩

theorem SameRetired.enterTest (h : SameRetired s t) (n : Nat) : SameRetired s (t.enterTest n) := by
  have hstarts : SameRetired s (t.testStarts n) :=
    ((h.planeStat _ _ (by decide) (.inl (by decide)) (.inl (by decide))).planeStat _ _ (by decide) (.inl (by decide))
      (.inl (by decide))).planeStat _ _ (by decide) (.inl (by decide)) (.inl (by decide))
  rw [enterTest_eq, State.when]
  split
  · exact hstarts.planeStat _ _ (by decide) (.inr (by decide)) (.inl (by decide))
  · exact hstarts

theorem SameRetired.erase (h : SameRetired s t) (n : Nat) : SameRetired s (t.erase n) := by
  unfold State.erase
  split
  · next p _ =>
    refine h.frame (Frame.refl.setFld (l := [XPT_PMAP p]) (p := []) _ _ (by simp)) ?_ ?_ <;>
      simp [XPT_PMAP, XPT_RETIRED, XPT_PLANE_STAT] <;> omega
  · exact h

theorem SameRetired.startRotation (h : SameRetired s t) (o : Nat) (retire : Bool) :
    SameRetired s (t.startRotation o retire) := by
  unfold State.startRotation
  split
  · exact h.setPlanes _
  · exact h

theorem SameRetired.eraseAll (l : List Nat) (h : SameRetired s t) : SameRetired s (t.each l State.erase) := by
  induction l generalizing t with
  | nil => exact h
  | cons n l ih => exact ih (h.erase n)

theorem SameRetired.serveFailing (h : SameRetired s t) : SameRetired s t.serveFailing := by
  unfold State.serveFailing
  extract_lets l
  split_ifs
  · exact h
  · exact (h.setPlanes _).eraseAll l
  · split
    · exact h
    · exact (h.setPlanes _).startRotation _ _
  · exact h

theorem SameRetired.replacePlane (h : SameRetired s t) (n : Nat) : SameRetired s (t.replacePlane n) := by
  unfold State.replacePlane
  split
  · exact h.setPlanes _
  · split_ifs
    · exact h.erase n
    · exact h.startRotation n true
    · exact h.setPlanes _

theorem SameRetired.endPlaneWait (h : SameRetired s t) (n : Nat) (st : Status) (r : Nat) :
    SameRetired s (t.endPlaneWait n st r) := by
  unfold State.endPlaneWait
  split
  · exact h
  · next w _ =>
    have hwaits : SameBlocks t { t with bst := { t.bst with waits := Tbl.del t.bst.waits n } } :=
      (SameBlocks.refl t).update rfl
    exact h.blocks (hwaits.complete w.cmd st r 0)

end sameRetired

section retire

variable {s : State} {n : Nat}

theorem protFor_lt (n : Nat) : protFor n < 4 := by
  unfold protFor
  split_ifs <;> decide

/-- The registers as the decision to retire a plane writes them, before its sources are raised. -/
def State.retirement (s : State) (n : Nat) : State :=
  ((s.setFld XPT_RETIRED XPT_RETIRED_PLANES (s.fld XPT_RETIRED XPT_RETIRED_PLANES ||| 2 ^ n)).setFld XPT_PLANE_STAT
    XPT_PLANE_STAT_HEALTHY (s.healthy - 1)).setFld XPT_PLANE_STAT XPT_PLANE_STAT_PROT (protFor (s.healthy - 1))

theorem retirement_retired (hn : n ≤ 16) : (s.retirement n).retired n = true := by
  have hrd : (s.retirement n).rd XPT_RETIRED = (s.setFld XPT_RETIRED XPT_RETIRED_PLANES
      (s.fld XPT_RETIRED XPT_RETIRED_PLANES ||| 2 ^ n)).rd XPT_RETIRED :=
    (State.rd_setFld_other _ _ _ (by decide)).trans (State.rd_setFld_other _ _ _ (by decide))
  rw [State.retired, State.fld, hrd, ← State.fld, State.fld_setFld _ _ _ _ (by decide), Nat.testBit_mod_two_pow,
    Nat.testBit_or, Nat.testBit_two_pow_self]
  simp [XPT_RETIRED_PLANES, Nat.lt_succ_of_le hn]

theorem retirement_healthy : (s.retirement n).healthy = s.healthy - 1 := by
  have hlt : s.healthy < 2 ^ 5 := Field.get_lt XPT_PLANE_STAT_HEALTHY _
  refine (State.fld_setFld_apart _ _ _ _ _ (by decide) (.inr (by decide))).trans ?_
  exact (State.fld_setFld _ _ _ _ (by decide)).trans (Nat.mod_eq_of_lt (by change _ < 2 ^ 5; omega))

theorem retirement_prot : (s.retirement n).fld XPT_PLANE_STAT XPT_PLANE_STAT_PROT = protFor (s.healthy - 1) :=
  (State.fld_setFld _ _ _ _ (by decide)).trans (Nat.mod_eq_of_lt (protFor_lt _))

/-- The sources of R193 leave what the decision has written. -/
theorem countRetired_same : SameRetired (s.retirement n) (s.countRetired n) := by
  have hh : (s.setFld XPT_RETIRED XPT_RETIRED_PLANES (s.fld XPT_RETIRED XPT_RETIRED_PLANES ||| 2 ^ n)).healthy =
      s.healthy := State.fld_setFld_other _ _ _ _ (by decide)
  unfold State.countRetired
  extract_lets s1 h s2 s3 _ s4
  have h3 : SameBlocks (s.retirement n) s3 := by
    unfold s3 s2 h
    rw [hh]
    exact (SameBlocks.refl _).raise 146
  have h4 : SameBlocks (s.retirement n) s4 := .ite (h3.update rfl) h3
  exact (SameRetired.refl _).blocks
    (.ite (h4.raise 148) (.ite ((h4.raise 148).promote 148) (.ite (h4.raise 149) h4)))

theorem retirePlane_same (hn : n ≤ 16) (hr : s.retired n = false) :
    SameRetired (s.retirement n) (s.retirePlane n) := by
  have hgo : ¬(s.retired n = true ∨ 16 < n) := by simp [hr, hn]
  have hcount := countRetired_same (s := s) (n := n).endPlaneWait n .aborted 0
  unfold State.retirePlane
  rw [if_neg hgo]
  extract_lets s1
  split
  · extract_lets
    split_ifs
    · exact ((hcount.setPlanes _).enterTest 31).serveFailing
    · exact hcount.setPlanes _
    · exact hcount.replacePlane n
  · split_ifs
    · exact (hcount.enterTest 31).serveFailing
    · exact hcount.replacePlane n

end retire

/-! ## XPT_RETIRE_CMD (R190, R195) -/

section retireCmd

variable {s : State} {p : Nat}

/-- The register keeps the plane asked for. -/
def State.retireAsked (s : State) (p : Nat) : State := s.setFld XPT_RETIRE_CMD XPT_RETIRE_CMD_PLANE p

theorem retireAsked_frame : OnlyRegs [XPT_RETIRE_CMD] s (s.retireAsked p) := Frame.refl.setFld _ _ (by simp)

theorem retireAsked_retired (n : Nat) : (s.retireAsked p).retired n = s.retired n :=
  congrArg (Nat.testBit · n) (retireAsked_frame.fld _ (by decide))

theorem retireAsked_healthy : (s.retireAsked p).healthy = s.healthy := retireAsked_frame.fld _ (by decide)

theorem opRetireCmd_eq : opRetireCmd p s =
    if 16 < p ∨ s.retired p = true ∨ s.healthy ≤ 14 then (s.retireAsked p).setBit XPT_ERR XPT_ERR_RETREJ true
    else (s.retireAsked p).retirePlane p := by
  rw [← retireAsked_retired (s := s) (p := p) p, ← retireAsked_healthy (s := s) (p := p)]
  rfl

theorem gives_retireCmd_refused {p : BitVec 5} (hb : s.pwr.barred = false)
    (h : 16 < p.toNat ∨ s.retired p.toNat = true ∨ s.healthy ≤ 14) :
    Gives (.xptRetireCmd p) s (fun u => u.bit XPT_ERR XPT_ERR_RETREJ = true ∧ OnlyRegs [XPT_RETIRE_CMD, XPT_ERR] s u) := by
  refine gives_told_bar hb (congrArg (doneBar s) (opRetireCmd_eq.trans (if_pos h))) fun u hu => ⟨?_, hu.frame ?_⟩
  · exact (hu.bit _ _).trans (State.bit_setBit _ _ _ _ (by decide) (by decide))
  · exact (retireAsked_frame.mono (by simp) (by simp)).setBit _ _ (by simp)

theorem gives_retireCmd {p : BitVec 5} (hb : s.pwr.barred = false)
    (h : ¬(16 < p.toNat ∨ s.retired p.toNat = true ∨ s.healthy ≤ 14)) :
    Gives (.xptRetireCmd p) s (fun u => u.retired p.toNat = true ∧ u.healthy = s.healthy - 1
      ∧ u.fld XPT_PLANE_STAT XPT_PLANE_STAT_PROT = protFor (s.healthy - 1) ∧ SameMem s u) := by
  refine gives_told_bar hb (congrArg (doneBar s) (opRetireCmd_eq.trans (if_neg h))) fun u hu => ?_
  obtain ⟨hp, hr, -⟩ : p.toNat ≤ 16 ∧ s.retired p.toNat = false ∧ ¬s.healthy ≤ 14 := by simpa using h
  have hsame := (retirePlane_same hp ((retireAsked_retired (p := p.toNat) p.toNat).trans hr)).frame
    (hu.frame (l := []) (p := []) Frame.refl) (by simp) (by simp)
  have hmem : u.mem = s.mem := hu.mem.trans ((keep_mem s.mem).retirePlane (s := s.retireAsked p.toNat) rfl)
  refine ⟨(hsame.retired _).trans (retirement_retired hp), hsame.healthy.trans ?_, hsame.prot.trans ?_,
    fun a => by rw [hmem]⟩
  · rw [retirement_healthy, retireAsked_healthy]
  · rw [retirement_prot, retireAsked_healthy]

end retireCmd

/-! ## The obligation -/

/-- Settles O36: the end of a test, the stages in order, and the commands, each by the branches of its definition. -/
theorem planeRotation : Obligations.PlaneRotation := by
  intro s nothing idle
  have hnothing : ∀ {c : Instr} {t : State}, exec c s = done s t → t = s → nothing c :=
    fun he ht => gives_nothing (ht ▸ he)
  refine ⟨fun p h => hnothing rfl (opPlaneTestDone_nothing p h), gives_planeTestDone_pass, ?fails,
    fun h => hnothing rfl (opRotationTimer_nothing h),
    fun hb h => gives_told_bar hb rfl fun u hu => (opForceRot_nothing h ▸ hu).signalled.onlyRegs, ?waits, ?starts, ?none,
    ?stages, fun p hb => ⟨gives_retireCmd_refused hb, gives_retireCmd hb⟩, ?clear⟩
  case fails =>
    intro ht hd hr hw
    exact ⟨s.testFails, answers_of_done (congrArg (done s) (opPlaneTestDone_fail ht hd hr hw)), testFails_unitFailed s,
      rfl, rfl, testFails_frame s⟩
  case waits =>
    intro hidle hpass
    refine ⟨fun hen => gives_planesSet rfl ?_, fun hb => gives_planesSet_bar hb rfl ?_⟩
    · rw [opRotationTimer_goes hen hidle, hpass]; rfl
    · rw [opForceRot_goes hidle, hpass]; rfl
  case starts =>
    intro o p hidle hpass ho hp starts
    have hnow := rotateNow_eq ho hp
    refine ⟨fun hen => (gives_planesSet rfl (?_ : _ = s.setPlanes _)).imp fun _ h => ⟨h.1, h.2.symm⟩,
      fun hb => (gives_planesSet_bar hb rfl (?_ : _ = s.setPlanes _)).imp fun _ h => ⟨h.1, h.2.symm⟩⟩
    · rw [opRotationTimer_goes hen hidle, hpass, if_pos rfl, hnow]
    · rw [opForceRot_goes hidle, hpass, if_pos rfl, hnow]
  case none =>
    intro hr
    obtain ⟨hcopy, hreads, hcomplete⟩ := opRotation_none hr
    exact ⟨hnothing rfl hcopy, hnothing rfl hreads, hnothing rfl hcomplete⟩
  case stages =>
    intro r hr
    refine ⟨fun h => hnothing rfl ((opRotationCopy_eq hr).trans (if_neg h)),
      fun h => hnothing rfl ((opRotationReads_eq hr).trans (if_neg h)),
      fun h => hnothing rfl ((opRotationComplete_eq hr).trans (if_neg h)),
      fun h => gives_planesSet rfl ((opRotationCopy_eq hr).trans (if_pos h)),
      fun h hlt => gives_rotationReadsMove hr h hlt, fun h hlt hf => gives_rotationComplete hr h hlt hf⟩
  case clear =>
    intro hb l
    exact gives_told_bar hb rfl fun u hu =>
      ⟨fun a ha => (hu.rd a).trans (clearAll_rd s ha), hu.frame (clearAll_frame s l)⟩

end Sys2Proof.Machine
end


section
/-! PROOFS. Remote package memory access, FLUSH and FW: O15 (R220, R407, R408, R412). -/

namespace Sys2Proof.Machine

open Sys2Proof

/-! ## Messages that this chip sends, on any channel (R396, R407, R408) -/

theorem sendVia_flitsSent (s : State) (n vc : Nat) (m : Msg) (rr : Bool) : FlitsSent s (s.sendVia n vc m rr) := by
  unfold State.sendVia
  split
  · exact (emit_flitsSent ..).trans (queueFlits_flitsSent ..)
  · exact FlitsSent.refl s

theorem msg_mem_sendVia {s : State} {n k : Nat} (h : s.pathLink n = some k) (vc : Nat) (m : Msg) (rr : Bool) :
    .msg n m ∈ (s.sendVia n vc m rr).out := by
  rw [State.sendVia, h]
  exact (queueFlits_flitsSent ..).sent List.mem_cons_self

/-- A command that answers a request with CPL changes the control stream alone, and the CPL leaves where its node has a
path. -/
theorem gives_answer {c : Instr} {s : State} {n tag : Nat} {data : List Byte}
    (h : exec c s = done s (s.answer n tag false data)) : Gives c s (fun u =>
      Frame [] [.blk] s u ∧ ∀ k, s.pathLink n = some k → .msg n (.cpl tag false data) ∈ u.out) :=
  gives_told h (fun _ hu => ⟨hu.frame (sendVia_flitsSent ..).frame, fun _ hk => hu.sent _ (msg_mem_sendVia hk ..)⟩)

/-! ## Remote writes and reads of package memory (R407) -/

theorem exec_rdmaWr {off : BitVec 36} {data : List Byte} (h : off.toNat + data.length ≤ Memory.size) (src : Node)
    (s : State) : exec (.rdmaWr src off data) s = done s (opRdmaWr off.toNat data s) := if_neg (Nat.not_lt.2 h)

theorem exec_rdmaRd {off : BitVec 36} {n : Byte} (h : off.toNat + 8 * n.toNat ≤ Memory.size) (src : Node) (tag : Byte)
    (s : State) : exec (.rdmaRd src tag off n) s =
      done s (s.answer src.val tag.toNat false (Memory.reads s.mem off.toNat (8 * n.toNat))) := if_neg (Nat.not_lt.2 h)

theorem gives_rdmaWr {off : BitVec 36} {data : List Byte} (h : off.toNat + data.length ≤ Memory.size) (src : Node)
    (s : State) : Gives (.rdmaWr src off data) s (fun u =>
      (∀ i, i < data.length → Memory.read u.mem (off.toNat + i) = data.getD i 0)
        ∧ (∀ a, a < off.toNat ∨ off.toNat + data.length ≤ a → Memory.read u.mem a = Memory.read s.mem a)
        ∧ SameRegs [] s u ∧ SameParts [] s u) := by
  refine gives_told (exec_rdmaWr h src s) (fun u hu => ⟨fun i hi => ?_, fun a ha => ?_, fun a _ => hu.rd a, fun q hq => ?_⟩)
  · rw [hu.mem, List.getD_eq_getElem _ _ hi]
    exact Memory.read_writes_inside s.mem _ data hi h
  · rw [hu.mem]
    exact Memory.read_writes_outside s.mem _ data ha
  · have hop : q.Same s (opRdmaWr off.toNat data s) := by cases q <;> simp [Part.Same, opRdmaWr]
    exact hop.trans (hu.same q)

/-! ## FW (R220, R408, R415) -/

/-- Forgetting may shorten the JOIN list, after the election alone, and never by this node's own tuple (R415). -/
theorem forgetGone_spec (s : State) : ∃ l, s.forgetGone = s.setBlk { s.blk with joins := l }
    ∧ (s.fld BLK_NODE BLK_NODE_FSTATE < 2 → l = s.blk.joins)
    ∧ (∀ x ∈ s.blk.joins, (∃ e ∈ s.blk.nodes, e.2 = x ∧ e.1 = s.ownNode) → x ∈ l) ∧ ∀ x ∈ l, x ∈ s.blk.joins := by
  unfold State.forgetGone
  split_ifs with hstate
  · exact ⟨s.blk.joins, rfl, fun _ => rfl, fun _ hx _ => hx, fun _ hx => hx⟩
  · refine ⟨_, rfl, fun h => absurd h hstate, fun x hx ⟨e, he, htuple, hown⟩ => List.mem_filter.2 ⟨hx, ?_⟩,
      fun _ hx => List.mem_of_mem_filter hx⟩
    have hnode : s.blk.nodes.any (fun e => e.2 == x && (e.1 == s.ownNode || s.hasPath e.1)) = true :=
      List.any_eq_true.2 ⟨e, he, by simp [htuple, hown]⟩
    rw [hnode, Bool.true_or]

/-- Without a salvo no coordinator waits on a path. -/
theorem salvoPaths_idle {s : State} (h : s.sal.slots = []) : s.salvoPaths = s := by
  rw [State.salvoPaths, h]
  rfl

theorem gives_fw {s : State} (h : s.sal.slots = []) (src : Node) (links : BitVec 4) (body : List Byte) :
    Gives (.fw src links body) s (fun u => u.blk.peerLinks = Tbl.put s.blk.peerLinks src.val links.toNat
      ∧ { u.blk with peerLinks := [], joins := [] } = { s.blk with peerLinks := [], joins := [] }
      ∧ (s.fld BLK_NODE BLK_NODE_FSTATE < 2 → u.blk.joins = s.blk.joins)
      ∧ (∀ x, x ∈ s.blk.joins → (∃ e ∈ s.blk.nodes, e.2 = x ∧ e.1 = s.ownNode) → x ∈ u.blk.joins)
      ∧ (∀ x, x ∈ u.blk.joins → x ∈ s.blk.joins) ∧ Frame [] [.blk] s u) := by
  obtain ⟨l, hgone, hbefore, hown, hsub⟩ :=
    forgetGone_spec (s.setBlk { s.blk with peerLinks := Tbl.put s.blk.peerLinks src.val links.toNat })
  refine gives_told (t := State.forgetGone _) (congrArg (done s) (salvoPaths_idle ?_)) (fun u hu => ?_)
  · rw [hgone]
    exact h
  · rw [hgone] at hu
    have hblk : u.blk = { s.blk with peerLinks := Tbl.put s.blk.peerLinks src.val links.toNat, joins := l } := hu.same .blk
    rw [hblk]
    exact ⟨rfl, rfl, hbefore, hown, hsub, hu.frame ((Frame.refl.setBlk _ (by simp)).setBlk _ (by simp))⟩

/-- Settles O15: the written bytes by the two read rules of package memory, both answers by what sending a message changes,
and FW by what forgetting the tuples of gone nodes leaves. -/
theorem remoteDmaAndMessages : Obligations.RemoteDmaAndMessages :=
  fun src s => ⟨fun _ _ h => gives_rdmaWr h src s, fun tag _ _ h => gives_answer (exec_rdmaRd h src tag s),
    fun _ => gives_answer rfl, fun links body h => gives_fw h src links body⟩

end Sys2Proof.Machine
end

section
/-! PROOFS. A statement that fails: the messages of a cross-chip salvo (O60). -/

namespace Sys2Proof.Machine

open Sys2Proof

/-! ## COMMIT leaves on the direct link (R220, R221) -/

/-- Node 0 of a formed two-chip frame, with link 0 ACTIVE to node 1 and all its credits. -/
def twoChips : State :=
  ((((((State.reset.setBit (BLK_L_CFG 0) BLK_L_CFG_EN true).setFld (BLK_L_STAT 0) BLK_L_STAT_STATE 7).setFld
    (BLK_L_STAT 0) BLK_L_STAT_PEER 1).setBit (BLK_L_STAT 0) BLK_L_STAT_PEERVALID true).setFld BLK_NODE
      BLK_NODE_EXPNODES 1).setFld BLK_NODE BLK_NODE_FSTATE 2).setLink 0 { LinkCtl.idle with credits := fullCredits }

/-- A salvo of nodes 0 and 1 that node 0 coordinates: it has sent PREPARE, has one route entry, and is due in 10 ms. -/
def lastAwaited : Salvo :=
  { Salvo.opened 3 0 with
    stage := 2, coord := true, due := 10000000, count := 1, entries := [⟨0, .route ⟨none, Charge.zero, none⟩⟩] }

/-- That salvo in slot 0 of the coordinator; READY of node 1 is the last that it awaits. -/
def awaitsReady : State := twoChips.setSlot 0 lastAwaited

/-- READY of node 1 puts the COMMIT on link 0, which was idle: its flits now wait for their acknowledgement. -/
theorem awaitsReady_sends : (awaitsReady.link 0).unacked = [] ∧ ((opReady 1 0 0 awaitsReady).link 0).unacked ≠ [] := by
  decide +kernel

/-- Refutes O60: the coordinator that arms on the last READY sends COMMIT on the direct link to each participant (R221),
so that the control stream of that link changes, which the frame of the clause does not allow. -/
theorem not_salvosAcrossNodesAndMigration : ¬ Obligations.SalvosAcrossNodesAndMigration := by
  rintro ⟨-, hslot, -⟩
  obtain ⟨hready, -⟩ := hslot 0 0 lastAwaited awaitsReady (by decide +kernel) (by decide +kernel)
  obtain ⟨-, -, harms⟩ := hready 1 0 0
  obtain ⟨-, hframe⟩ := Gives.of_done rfl (harms rfl rfl (by decide) (by decide) (by decide +kernel) (by decide +kernel)
    (List.cons_ne_nil _ _))
  obtain ⟨hidle, hsent⟩ := awaitsReady_sends
  have hstands : (opReady 1 0 0 awaitsReady).blk = awaitsReady.blk :=
    Eq.trans ((signalEdges_told ..).same .blk).symm (hframe.same (q := .blk) (by simp))
  rw [State.link, hstands] at hsent
  exact hsent hidle

end Sys2Proof.Machine
end

section
/-! PROOFS. Two statements that fail: the lead of a destination under the lock (O52), and the run of a signature region (O55). -/

namespace Sys2Proof.Machine

open Sys2Proof

/-! ## FSA_DL_DATA under SETUP (R10, R238, R261) -/

/-- A device whose set-up has been locked, with nothing else set. -/
def lockedSetup : State := State.reset.setBit GLB_LOCK GLB_LOCK_SETUP true

/-- LEAD is RW-L: under SETUP a write that would change it is refused, and the lead of destination 0 stays 0. -/
theorem opDlData_lockedSetup : (opDlData 1 lockedSetup).fld (FSA_DLW 0) FSA_DL_DATA_LEAD = 0 := by decide +kernel

/-- Refutes O52: the clause of FSA_DL_DATA leaves the lock out. LEAD and OVR are RW-L, so that with SETUP set a write
that changes them is refused and the lead that DL_IDX names keeps its value. -/
theorem not_alignersAndSynchronisers : ¬ Obligations.AlignersAndSynchronisers := by
  intro h
  obtain ⟨-, -, -, -, -, -, -, -, -, -, hlead, -⟩ := h lockedSetup
  obtain ⟨hset, -⟩ := Gives.of_done rfl (hlead (by decide +kernel) 1)
  have hidx : lockedSetup.fld FSA_DL_IDX FSA_DL_IDX_DST = 0 := by decide +kernel
  rw [hidx, (signalEdges_told ..).fld, opDlData_lockedSetup] at hset
  exact absurd hset (by decide)

/-! ## A region whose first mismatch puts the device in the safe state (R287, R536) -/

/-- The port whose HIST register would stand at the address of the state of signature region 0. -/
def strayPort : Nat := 0x1FFF0

theorem strayPort_hist : MP_HIST strayPort = CMP_SRW_STAT 0 := rfl

/-- Region 0 is OK with RUN 0, the first event on 193 puts the device in the safe state, and the table of MAC ports
lists port 0x1FFF0 with a frame under way. -/
def safeOnMismatch : State :=
  { (State.reset.wr (HDG_SRC_CFG 193) 0x121).wr (CMP_SRW_STAT 0) 1 with
    mac := ⟨[(strayPort, ⟨0, some ⟨[], false, false, false, 0⟩, [], [], none, none, [], none⟩)]⟩ }

/-- A configuration with one expected CRC, which is 0. -/
def expectsZero : List Word := [0, 0, 0, 0x1000, 0]

theorem safeOnMismatch_run : (safeOnMismatch.regionJudge (0 : Canvas) 0 1 expectsZero).srRun 0 = 9 := by
  decide +kernel

/-- Refutes O55: the statement bounds no key of the state's tables. The mismatch raises CMP_SIGMISS (193), the safe state
ends the frame of port 0x1FFF0, and its UNDERRUN bit is bit 3 of the region's RUN, which then reads 9 and not 1. -/
theorem not_canvasFramesAndRegions : ¬ Obligations.CanvasFramesAndRegions := by
  intro h
  obtain ⟨-, -, hjudge, -⟩ := h safeOnMismatch
  obtain ⟨-, hmiss⟩ := hjudge 0 0 1 expectsZero (by decide) (by decide) (by decide +kernel) (by decide +kernel)
  obtain ⟨-, hrun, -⟩ := hmiss (by decide +kernel) (by decide +kernel)
  rw [safeOnMismatch_run] at hrun
  exact absurd hrun (by decide +kernel)

end Sys2Proof.Machine
end

section
/-! PROOFS. Blocks on the line are received as they were sent (R383-R385), and a training block synchronises the scrambler of
its receiver (R383, R401): part of O18. -/

namespace Sys2Proof.Machine

open Sys2Proof

/-! ## Bits -/

theorem ofLsb_append (l m : List Bool) : ofLsb (l ++ m) = ofLsb l + 2 ^ l.length * ofLsb m := by
  induction l with
  | nil => simp [ofLsb]
  | cons b t ih =>
    rw [List.cons_append, ofLsb, ih, ofLsb, List.length_cons, Nat.pow_succ']
    ring

theorem lsbBits_add (a b n : Nat) : lsbBits (a + b) n = lsbBits a n ++ lsbBits b (n / 2 ^ a) := by
  induction a generalizing n with
  | zero => simp [lsbBits]
  | succ a ih =>
    rw [Nat.succ_add, lsbBits, ih, Nat.div_div_eq_div_mul, ← Nat.pow_succ', lsbBits, List.cons_append]

theorem lsbBits_two_pow_mul (w x : Nat) : lsbBits w (2 ^ w * x) = List.replicate w false := by
  induction w with
  | zero => rfl
  | succ w ih =>
    have hdouble : 2 ^ (w + 1) * x = 2 * (2 ^ w * x) := by ring
    rw [lsbBits, hdouble, Nat.mul_mod_right, Nat.mul_div_cancel_left _ Nat.two_pos, ih, List.replicate_succ]
    rfl

/-! ## Scrambling (R383) -/

theorem scramblerAfter_succ (n r : Nat) : scramblerAfter (n + 1) r = scramblerAfter n (scramblerStep r) :=
  withNat_eq ..

theorem scramblerAfter_add (m n r : Nat) : scramblerAfter (m + n) r = scramblerAfter n (scramblerAfter m r) := by
  induction m generalizing r with
  | zero => rw [Nat.zero_add]; rfl
  | succ m ih => rw [Nat.succ_add, scramblerAfter_succ, ih, scramblerAfter_succ]

theorem scramble_append (r : Nat) (l m : List Bool) :
    scramble r (l ++ m) = scramble r l ++ scramble (scramblerAfter l.length r) m := by
  induction l generalizing r with
  | nil => rfl
  | cons b t ih =>
    rw [List.cons_append, scramble_cons, ih, scramble_cons, List.length_cons, scramblerAfter_succ, List.cons_append]

/-- Zero bits show the scrambler: those sent last, newest first, are its low bits. -/
theorem ofLsb_scramble_zeros (r : Nat) {n : Nat} (h : n ≤ 31) :
    ofLsb (scramble r (List.replicate n false)).reverse = scramblerAfter n r % 2 ^ n := by
  induction n with
  | zero => simp [scramble, ofLsb, Nat.mod_one]
  | succ n ih =>
    have hstep : scramblerAfter (n + 1) r = scramblerStep (scramblerAfter n r) :=
      (scramblerAfter_add n 1 r).trans (withNat_eq ..)
    have hdvd : 2 ^ (n + 1) ∣ 2 ^ 31 := Nat.pow_dvd_pow 2 h
    rw [List.replicate_succ', scramble_append, List.length_replicate, List.reverse_append, hstep, scramblerStep,
      Nat.mod_mod_of_dvd _ hdvd, Nat.pow_succ', Nat.mod_mul, scramble_cons]
    simp only [scramble, List.reverse_singleton, List.singleton_append, ofLsb, ih (Nat.le_of_succ_le h)]
    cases hbit : scramblerBit (scramblerAfter n r)
    · simp
    · simp [Nat.mul_add_div]

/-- 31 zero bits show all of it. -/
theorem ofLsb_scramble_register (r : Nat) :
    ofLsb (scramble r (List.replicate 31 false)).reverse = scramblerAfter 31 r := by
  rw [ofLsb_scramble_zeros r (Nat.le_refl 31), Nat.mod_eq_of_lt]
  have hlast : scramblerAfter 31 r = scramblerStep (scramblerAfter 30 r) :=
    (scramblerAfter_add 30 1 r).trans (withNat_eq ..)
  exact hlast ▸ Nat.mod_lt _ (Nat.two_pow_pos 31)

/-! ## A block that is not void (R384, R385) -/

/-- The receiver's removal undoes the insertion, whatever follows on the line. -/
theorem unstuff_stuff_append (last : Bool) (run : Nat) (l m : List Bool) (h : run < 31) :
    ∃ rest, unstuff last run (stuff last run l ++ m) = l ++ rest := by
  induction l generalizing last run with
  | nil => exact ⟨_, rfl⟩
  | cons b t ih =>
    have hr : run ≠ 31 := Nat.ne_of_lt h
    have hle := nextRun_le last run b h
    rw [stuff_cons]
    split
    · next hn =>
      obtain ⟨rest, hrest⟩ := ih (!b) 1 (by omega)
      refine ⟨rest, ?_⟩
      rw [List.cons_append, List.cons_append, unstuff_cons, if_neg hr, hn, unstuff_cons, if_pos rfl, hrest,
        List.cons_append]
    · next hn =>
      obtain ⟨rest, hrest⟩ := ih b (nextRun last run b) (by omega)
      refine ⟨rest, ?_⟩
      rw [List.cons_append, unstuff_cons, if_neg hr, hrest, List.cons_append]

section block

variable {r blk pos : Nat} {pay : BitVec 1536} {ctrl : BitVec 16}

/-- A block that is not sent void has its scrambled content on the line, between the marker and FILL. -/
theorem unstuff_sendBlock (h : blockVoid r blk pos pay ctrl = false) :
    ∃ rest, unstuff false 0 ((sendBlock r blk pos pay ctrl).drop 12)
      = scramble r (blockContent (blockHeader blk pos false) pay ctrl) ++ rest := by
  have hfits : stuffCount (scramble r (blockContent (blockHeader blk pos false) pay ctrl)) ≤ 7 := by
    simpa [blockVoid] using h
  unfold sendBlock fillBlock
  dsimp only
  rw [if_pos hfits, List.append_assoc, List.drop_left' (lsbBits_length 12 marker)]
  exact unstuff_stuff_append _ _ _ _ (by decide)

theorem blockContent_length (hdr : BitVec 13) : (blockContent hdr pay ctrl).length = 1581 := by simp [blockContent]

theorem receiveContent_sendBlock (h : blockVoid r blk pos pay ctrl = false) :
    receiveContent r (sendBlock r blk pos pay ctrl) = blockContent (blockHeader blk pos false) pay ctrl := by
  obtain ⟨rest, hrest⟩ := unstuff_sendBlock h
  rw [receiveContent, hrest, List.take_left' (by rw [scramble_length, blockContent_length]), scramble_scramble]

theorem crc16Bits_lt (l : List Bool) {c : Nat} (h : c < 2 ^ 16) : crc16Bits c l < 2 ^ 16 := by
  induction l generalizing c with
  | nil => exact h
  | cons b t ih =>
    rw [crc16Bits, withNat_eq]
    refine ih (Nat.xor_lt_two_pow ?_ (by omega))
    split <;> decide

theorem blockCrc_lt (hdr : BitVec 13) : blockCrc hdr pay ctrl < 2 ^ 16 := crc16Bits_lt _ (by decide)

/-- The content of a block as one number: its fields, each above the one before it. -/
theorem ofLsb_blockContent (hdr : BitVec 13) : ofLsb (blockContent hdr pay ctrl) =
    hdr.toNat + 2 ^ 13 * (pay.toNat + 2 ^ 1536 * (ctrl.toNat + 2 ^ 16 * blockCrc hdr pay ctrl)) := by
  simp only [blockContent, List.append_assoc, ofLsb_append, ofLsb_lsbBits, lsbBits_length, Nat.mod_eq_of_lt hdr.isLt,
    Nat.mod_eq_of_lt pay.isLt, Nat.mod_eq_of_lt ctrl.isLt, Nat.mod_eq_of_lt (blockCrc_lt hdr)]

/-- The lowest field of a number, and what stands above it. -/
theorem ofNat_low {n : Nat} (x : BitVec n) (y : Nat) :
    BitVec.ofNat n (x.toNat + 2 ^ n * y) = x ∧ (x.toNat + 2 ^ n * y) / 2 ^ n = y := by
  constructor
  · apply BitVec.eq_of_toNat_eq
    rw [BitVec.toNat_ofNat, Nat.add_mul_mod_self_left, Nat.mod_eq_of_lt x.isLt]
  · rw [Nat.add_mul_div_left _ _ (Nat.two_pow_pos n), Nat.div_eq_of_lt x.isLt, Nat.zero_add]

/-- The fields of a block are received as they were sent. -/
theorem receiveBlock_sendBlock (h : blockVoid r blk pos pay ctrl = false) :
    receiveBlock r (sendBlock r blk pos pay ctrl) = (blockHeader blk pos false, pay, ctrl,
      BitVec.ofNat 16 (blockCrc (blockHeader blk pos false) pay ctrl)) := by
  rw [receiveBlock, withNat_eq, receiveContent_sendBlock h, ofLsb_blockContent]
  generalize blockHeader blk pos false = hdr
  generalize blockCrc hdr pay ctrl = crc
  obtain ⟨h1, a1⟩ := ofNat_low hdr (pay.toNat + 2 ^ 1536 * (ctrl.toNat + 2 ^ 16 * crc))
  obtain ⟨h2, a2⟩ := ofNat_low pay (ctrl.toNat + 2 ^ 16 * crc)
  obtain ⟨h3, a3⟩ := ofNat_low ctrl crc
  rw [show 1549 = 13 + 1536 from rfl, show 1565 = 13 + 1536 + 16 from rfl, Nat.pow_add 2 (13 + 1536) 16,
    Nat.pow_add 2 13 1536]
  simp only [← Nat.div_div_eq_div_mul]
  rw [a1, a2, a3, h1, h2, h3]

theorem blockHeader_live (blk pos : Nat) : (blockHeader blk pos false).toNat.testBit 12 = false := by
  apply Nat.testBit_lt_two_pow
  rw [blockHeader, BitVec.toNat_ofNat]
  simp only [Bool.false_eq_true, if_false]
  omega

/-- Such a block does not fail (R391). -/
theorem blockFails_sent (blk pos : Nat) (pay : BitVec 1536) (ctrl : BitVec 16) :
    blockFails (blockHeader blk pos false) pay ctrl (BitVec.ofNat 16 (blockCrc (blockHeader blk pos false) pay ctrl))
      = false := by
  rw [blockFails, blockHeader_live, BitVec.toNat_ofNat, Nat.mod_eq_of_lt (blockCrc_lt _)]
  simp

end block

/-! ## A training block (R383, R401) -/

theorem lsbBits_trainingPayload (t : BitVec 768) : ∃ rest,
    lsbBits 1536 (t ++ 0#768).toNat = List.replicate 31 false ++ rest := by
  have hlow : (t ++ 0#768).toNat = 2 ^ 31 * (2 ^ 737 * t.toNat) := by
    rw [BitVec.toNat_append, BitVec.toNat_ofNat, Nat.zero_mod, Nat.or_zero, Nat.shiftLeft_eq, ← Nat.mul_assoc,
      ← Nat.pow_add, Nat.mul_comm]
  rw [show 1536 = 31 + 1505 from rfl, lsbBits_add, hlow, lsbBits_two_pow_mul]
  exact ⟨_, rfl⟩

/-- The receiver's scrambler after a training block is the sender's. -/
theorem syncScrambler_sendBlock {r blk pos : Nat} {t : BitVec 768} (h : blockVoid r blk pos (t ++ 0#768) 0 = false) :
    syncScrambler (sendBlock r blk pos (t ++ 0#768) 0) = scramblerAfter 1581 r := by
  obtain ⟨tail, htail⟩ := unstuff_sendBlock h
  obtain ⟨rest, hrest⟩ := lsbBits_trainingPayload t
  have hzeros : ((unstuff false 0 ((sendBlock r blk pos (t ++ 0#768) 0).drop 12)).drop 13).take 31
      = scramble (scramblerAfter 13 r) (List.replicate 31 false) := by
    rw [htail, blockContent, hrest]
    simp only [List.append_assoc, scramble_append, lsbBits_length, List.length_replicate]
    rw [List.drop_left' (by simp), List.take_left' (by simp)]
  rw [syncScrambler, hzeros, ofLsb_scramble_register, ← scramblerAfter_add, ← scramblerAfter_add]
  rfl

end Sys2Proof.Machine
end

section
/-! PROOFS. What an event leaves of the links of the fabric, whatever it escalates to: their configuration and state, their
lanes, and the fields that each has received (R379, R380, R529-R537): part of O18. -/

namespace Sys2Proof.Machine

open Sys2Proof

/-- The registers that say what a link is: L_CFG and L_STAT of each link, and LANE_CFG of each lane. -/
def LinkReg (a : Nat) : Prop :=
  (0xE01000 ≤ a ∧ a < 0xE01300 ∧ a % 0x40 < 8) ∨ (0xE02000 ≤ a ∧ a < 0xE02600 ∧ a % 0x10 = 0)

/-- The links are as before, and so are the fields that wait at each for the rest of their flit. -/
structure LinksKept (s t : State) : Prop where
  rd : ∀ {a : Nat}, LinkReg a → t.rd a = s.rd a
  inStream : ∀ k, (t.link k).inStream = (s.link k).inStream

theorem not_linkReg_below {a : Nat} (h : a < 0xE01000) : ¬LinkReg a := by
  unfold LinkReg
  omega

theorem not_linkReg_above {a : Nat} (h : 0xE02600 ≤ a) : ¬LinkReg a := by
  unfold LinkReg
  omega

theorem not_linkReg_hdgStat (n : Nat) : ¬LinkReg (HDG_SRC_STAT n) := not_linkReg_above (by unfold HDG_SRC_STAT; omega)

theorem not_linkReg_dmaStat {n : Nat} (hn : n < 64) : ¬LinkReg (HIF_DMA_STAT n) :=
  not_linkReg_below (by unfold HIF_DMA_STAT; omega)

theorem not_linkReg_ringStat (t r : Nat) : ¬LinkReg (RING_STAT t r) := not_linkReg_above (by unfold RING_STAT; omega)

/-- The table of ports has no bound, and a key of it names some register; it names none of a link's. -/
theorem not_linkReg_portHist (p : Nat) : ¬LinkReg (MP_HIST p) := by
  unfold LinkReg MP_HIST
  omega

section linksKept

variable {s t u : State}

theorem LinksKept.refl (s : State) : LinksKept s s := ⟨fun _ => rfl, fun _ => rfl⟩

theorem LinksKept.trans (h : LinksKept s t) (g : LinksKept t u) : LinksKept s u :=
  ⟨fun ha => (g.rd ha).trans (h.rd ha), fun k => (g.inStream k).trans (h.inStream k)⟩

/-- An update beside the registers and the links. -/
theorem LinksKept.update (h : LinksKept s t) (hr : u.regs = t.regs) (hl : u.blk.links = t.blk.links) : LinksKept s u :=
  h.trans ⟨fun _ => by simp [State.rd, hr], fun _ => by simp [State.link, hl]⟩

theorem LinksKept.frame (h : LinksKept s t) {l : List Nat} {p : List Part} (hf : Frame l p t u)
    (hl : ∀ a ∈ l, ¬LinkReg a) (hp : .blk ∉ p) : LinksKept s u := by
  have hblk : u.blk = t.blk := hf.same hp
  exact h.trans ⟨fun ha => hf.1 _ (fun hm => hl _ hm ha), fun k => by rw [State.link, hblk, State.link]⟩

theorem LinksKept.wr (h : LinksKept s t) {a : Nat} (ha : ¬LinkReg a) (v : Word) : LinksKept s (t.wr a v) :=
  h.trans ⟨fun hb => State.rd_wr_other t v (fun e => ha (e ▸ hb)), fun _ => rfl⟩

theorem LinksKept.setFld (h : LinksKept s t) {a : Nat} (ha : ¬LinkReg a) (f : Field) (n : Nat) :
    LinksKept s (t.setFld a f n) := h.wr ha _

theorem LinksKept.setBit (h : LinksKept s t) {a : Nat} (ha : ¬LinkReg a) (f : Field) (b : Bool) :
    LinksKept s (t.setBit a f b) := h.wr ha _

theorem LinksKept.inc (h : LinksKept s t) {a : Nat} (ha : ¬LinkReg a) (f : Field) :
    LinksKept s (t.inc a f) := h.wr ha _

/-- A link's control block is written, its received fields as they were. -/
theorem LinksKept.setLink (h : LinksKept s t) (k : Nat) {x : LinkCtl} (hx : x.inStream = (t.link k).inStream) :
    LinksKept s (t.setLink k x) := by
  refine h.trans ⟨fun _ => rfl, fun i => ?_⟩
  by_cases hi : i = k
  · subst hi
    exact (congrArg LinkCtl.inStream (Tbl.getD_putD_same ..)).trans hx
  · exact congrArg LinkCtl.inStream (Tbl.getD_putD_other _ _ _ _ hi)

theorem LinksKept.emit (h : LinksKept s t) (e : Emission) : LinksKept s (t.emit e) := h.update rfl rfl

theorem LinksKept.signal (h : LinksKept s t) (n v : Nat) : LinksKept s (t.signal n v) :=
  h.frame (p := []) ((Signalled.signal t n v).frame (l := [])) (by simp) (by simp)

theorem LinksKept.when (h : LinksKept s t) (b : Bool) {f : State → State} (hf : LinksKept s (f t)) :
    LinksKept s (t.when b f) := by
  unfold State.when
  exact ite_keep hf h

theorem LinksKept.each {α : Type} (l : List α) {f : State → α → State} (h : LinksKept s t)
    (hf : ∀ u, ∀ x ∈ l, LinksKept s u → LinksKept s (f u x)) : LinksKept s (t.each l f) := by
  induction l generalizing t with
  | nil => exact h
  | cons x l ih =>
    exact ih (hf t x List.mem_cons_self h) (fun u y hy => hf u y (List.mem_cons_of_mem _ hy))

theorem LinksKept.afterCompletion (h : LinksKept s t) (g : AfterCompletion t u) : LinksKept s u := by
  have hblk : u.blk = t.blk := g.parts .blk (by simp)
  refine h.trans ⟨fun ha => g.rd ?_, fun k => by rw [State.link, hblk, State.link]⟩
  unfold LinkReg at ha
  omega

/-! ## Events (R529-R533) -/

theorem LinksKept.record (h : LinksKept s t) (n sev : Nat) (promoted : Bool) : LinksKept s (t.record n sev promoted) := by
  have hhdg : ∀ a, 0x1200000 ≤ a → ¬LinkReg a := fun _ ha => not_linkReg_above (by omega)
  unfold State.record
  extract_lets _ _ _ live s1
  have h1 : LinksKept s s1 := h.when _ ((h.wr (hhdg _ (by decide)) _).wr (hhdg _ (by decide)) _)
  exact h1.when _ ((h1.wr (hhdg _ (by decide)) _).wr (hhdg _ (by decide)) _)

section event

variable {esc : State → Nat → State} (hesc : ∀ u n, LinksKept s u → LinksKept s (esc u n))

include hesc

theorem LinksKept.enterSevere (h : LinksKept s t) (n : Nat) (promoted : Bool) :
    LinksKept s (t.enterSevere esc n promoted) := by
  have hn := not_linkReg_hdgStat n
  unfold State.enterSevere
  extract_lets s1 s2 s3 s4 s5
  have h2 : LinksKept s s2 := (h.setFld hn _ _).setBit hn _ _
  have h4 : LinksKept s s4 := (h2.when _ (h2.setBit hn _ _)).record n 2 promoted
  have h5 : LinksKept s s5 := h4.when _ (h4.signal 0 16)
  exact ite_keep h5 (ite_keep (hesc _ n h5) (h5.update rfl rfl))

theorem LinksKept.hdgEvent (h : LinksKept s t) (n : Nat) (forced : Bool) : LinksKept s (t.hdgEvent esc n forced) := by
  have hn := not_linkReg_hdgStat n
  have hcount : ¬LinkReg (HDG_SRC_COUNT n) := not_linkReg_above (by unfold HDG_SRC_COUNT; omega)
  have hcounted := ((h.inc hcount HDG_SRC_COUNT_COUNT).setBit hn HDG_SRC_STAT_STICKY true).setBit hn
    HDG_SRC_STAT_FORCED forced
  have hfirst := hcounted.setFld hn HDG_SRC_STAT_WCOUNT 1
  have hnext := hcounted.inc hn HDG_SRC_STAT_WCOUNT
  have hwatched := (hfirst.setFld hn HDG_SRC_STAT_STATE 1).record n 1 false
  exact ite_keep h (ite_keep hcounted (ite_keep (ite_keep (hfirst.enterSevere hesc n false) hwatched)
    (ite_keep (ite_keep (hnext.enterSevere hesc n false) hnext) hcounted)))

end event

theorem LinksKept.escQuiet (h : LinksKept s t) (n : Nat) : LinksKept s (t.escQuiet n) := by
  unfold State.escQuiet
  extract_lets s1 _ s2
  have h2 : LinksKept s s2 := (h.setFld (not_linkReg_hdgStat n) HDG_SRC_STAT_STATE 3).update rfl rfl
  exact h2.signal 0 16

theorem LinksKept.escSafe (h : LinksKept s t) (n : Nat) : LinksKept s (t.escSafe n) :=
  ite_keep (h.escQuiet n) ((h.escQuiet n).hdgEvent (fun _ n g => g.escQuiet n) 384 false)

/-- An event in the safe state (R537). -/
theorem LinksKept.safeEvent (h : LinksKept s t) (n : Nat) : LinksKept s (t.hdgEvent State.escSafe n false) :=
  h.hdgEvent (fun _ n g => g.escSafe n) n false

/-! ## The safe state (R536) -/

theorem LinksKept.driveFault (h : LinksKept s t) (b : Bool) : LinksKept s (t.driveFault b) :=
  ite_keep h ((h.setBit (not_linkReg_above (by decide)) HDG_STAT_FAULT b).update rfl rfl)

theorem LinksKept.idleOutputs (h : LinksKept s t) : LinksKept s t.idleOutputs := by
  have hlane : ∀ n ∈ List.range 256, ¬LinkReg (ML_STAT n) := fun n hn =>
    not_linkReg_below (by unfold ML_STAT; have := List.mem_range.1 hn; omega)
  unfold State.idleOutputs
  extract_lets _ s1 s2
  have h1 : LinksKept s s1 := h.each _ fun _ n hn g => g.setBit (hlane n hn) _ _
  have h2 : LinksKept s s2 := h1.each _ fun _ e _ g => by
    refine LinksKept.wr ?_ (not_linkReg_portHist e.1) _
    exact g.update rfl rfl
  exact h2.when _ (h2.safeEvent 69)

theorem LinksKept.writeCapture (h : LinksKept s t) (n r : Nat) (c : Capture) {dropped : State → State}
    (hd : ∀ u, LinksKept s u → LinksKept s (dropped u)) : LinksKept s (t.writeCapture n r c dropped) := by
  have hstat := not_linkReg_ringStat n r
  exact ite_keep (h.afterCompletion (afterCompletion_ringWrite t n r _))
    (hd _ ((h.setBit hstat RING_STAT_DROP true).inc hstat RING_STAT_DROPCNT))

theorem LinksKept.recharge (h : LinksKept s t) (c : Nat) : LinksKept s (t.recharge c) :=
  h.frame (Frame.refl.rechargeTo c none (p := [.ten]) (l := []) (by simp)) (by simp) (by simp)

theorem LinksKept.rechargeAll (h : LinksKept s t) (l : List Nat) : LinksKept s (t.each l State.recharge) :=
  h.each l fun _ c _ g => g.recharge c

theorem LinksKept.dropChanges (h : LinksKept s t) : LinksKept s t.dropChanges := h.update rfl rfl

theorem LinksKept.dropCanvasWork (h : LinksKept s t) : LinksKept s t.dropCanvasWork := by
  unfold State.dropCanvasWork
  extract_lets _ s1 s2 s3 s4
  have h2 : LinksKept s s2 := h.update rfl rfl
  have h4 : LinksKept s s4 := (h2.rechargeAll _).each _
    fun _ _ _ g => g.writeCapture _ _ _ fun _ g => g.safeEvent 322
  exact h4.update rfl rfl

theorem LinksKept.dropSalvos (h : LinksKept s t) : LinksKept s t.dropSalvos := by
  unfold State.dropSalvos
  extract_lets l _ s1 s2 s3
  have h2 : LinksKept s s2 := h.update rfl rfl
  have h3 : LinksKept s s3 := h2.rechargeAll _
  exact h3.when _ (h3.safeEvent 352)

theorem LinksKept.svcAborted (h : LinksKept s t) : LinksKept s t.svcAborted := by
  have hstat : ¬LinkReg SVC_CMDSTAT := not_linkReg_above (by decide)
  have hhist : ¬LinkReg SVC_HIST := not_linkReg_above (by decide)
  unfold State.svcAborted State.svcEnd
  extract_lets p _ s1 s2 s3 s4
  have h1 : LinksKept s s1 := h.update rfl rfl
  exact (((h1.setBit hstat _ _).setFld hstat _ _).setFld hstat _ _).setBit hhist _ _

theorem LinksKept.abandonShadow (h : LinksKept s t) : LinksKept s t.abandonShadow := by
  have hupd : ¬LinkReg SVC_UPD := not_linkReg_above (by decide)
  exact ite_keep (h.setFld hupd _ _).svcAborted (ite_keep h.svcAborted h)

theorem LinksKept.floatAudio (h : LinksKept s t) : LinksKept s t.floatAudio := by
  have hport : LinksKept s (t.each ((List.range 8).filter (fun p => t.bit (AUD_TDM_STAT p) AUD_TDM_STAT_ENABLED))
      (fun u p => u.emit (.tdm p .floats))) := h.each _ fun _ _ _ g => g.emit _
  exact hport.each _ fun _ _ _ g => g.emit _

theorem LinksKept.stopForSafe (h : LinksKept s t) : LinksKept s t.stopForSafe := by
  have hmuffle : LinksKept s t.muffle := h.each _ fun _ _ _ g => g.emit _
  exact LinksKept.update
    hmuffle.floatAudio.idleOutputs.dropChanges.dropCanvasWork.dropSalvos.abandonShadow rfl rfl

theorem LinksKept.fovPins (h : LinksKept s t) (x y : Nat) : LinksKept s (t.fovPins x y) := by
  unfold State.fovPins
  extract_lets s1
  have h1 : LinksKept s s1 := h.when _ (h.emit _)
  exact h1.when _ (h1.emit _)

theorem LinksKept.setFov (h : LinksKept s t) (x : Nat) : LinksKept s (t.setFov x) := by
  have hstat : ¬LinkReg FOV_STAT := not_linkReg_above (by decide)
  unfold State.setFov
  extract_lets _ s1 s2 s3 s4
  have h1 : LinksKept s s1 := h.update rfl rfl
  exact (((h1.fovPins _ _).setFld hstat _ _).setBit hstat _ _).setBit hstat _ _

theorem LinksKept.abortCommands (h : LinksKept s t) : LinksKept s t.abortCommands :=
  h.each _ fun u i _ g => g.afterCompletion (afterCompletion_complete u i _ _ _)

theorem LinksKept.haltChannel (h : LinksKept s t) {n : Nat} (hn : n < 64) (cause : Nat) :
    LinksKept s (t.haltChannel n cause) := by
  have hstat := not_linkReg_dmaStat hn
  have hlo : ¬LinkReg (HIF_DMA_ERRADDR_LO n) := not_linkReg_below (by unfold HIF_DMA_ERRADDR_LO; omega)
  have hhi : ¬LinkReg (HIF_DMA_ERRADDR_HI n) := not_linkReg_below (by unfold HIF_DMA_ERRADDR_HI; omega)
  unfold State.haltChannel
  extract_lets s1 s2 s3 s4
  have h1 : LinksKept s s1 := by
    unfold s1
    split
    · exact (h.wr hlo _).wr hhi _
    · exact h
  have h2 : LinksKept s s2 := h1.update rfl rfl
  have h4 : LinksKept s s4 := (h2.setFld hstat _ _).setFld hstat _ _
  exact h4.when _ (h4.signal 0 _)

theorem LinksKept.enterSafe (h : LinksKept s t) (n : Nat) : LinksKept s (t.enterSafe n) := by
  have hstat : ¬LinkReg HDG_STAT := not_linkReg_above (by decide)
  unfold State.enterSafe
  extract_lets s1 s2 s3 s4 s5 s6 s7 s8
  have h4 : LinksKept s s4 := (((h.setBit hstat _ _).setFld hstat _ _).signal 0 16).driveFault true
  have h6 : LinksKept s s6 := (h4.setFov 7).stopForSafe.abortCommands
  have h7 : LinksKept s s7 := h6.each _ fun _ k hk g =>
    g.setFld (not_linkReg_dmaStat (by have := List.mem_range.1 hk; omega)) _ _
  have h8 : LinksKept s s8 := h7.each _ fun _ k hk g => g.haltChannel (by have := List.mem_range.1 hk; omega) 5
  exact h8.safeEvent 325

/-! ## Events that escalate (R533) -/

theorem LinksKept.escOwn (h : LinksKept s t) (n : Nat) : LinksKept s (t.escOwn n) := by
  have hq := h.escQuiet n
  exact ite_keep hq (ite_keep (hq.driveFault true) (ite_keep (hq.enterSafe n) hq))

theorem LinksKept.escalate (h : LinksKept s t) (n : Nat) : LinksKept s (t.escalate n) :=
  ite_keep (h.escOwn n) ((h.escOwn n).hdgEvent (fun _ n g => g.escOwn n) 384 false)

theorem LinksKept.raise (h : LinksKept s t) (n : Nat) : LinksKept s (t.raise n) :=
  h.hdgEvent (fun _ n g => g.escalate n) n false

theorem LinksKept.event (h : LinksKept s t) (n r type kind object epoch : Nat) (data : List Nat) :
    LinksKept s (t.event n r type kind object epoch data) := by
  have hstat := not_linkReg_ringStat n r
  have hset : ∀ x, LinksKept s (t.setRing n r x) := fun _ => h.update rfl rfl
  exact ite_keep ((hset _).afterCompletion (afterCompletion_ringWrite ..))
    ((((hset _).setBit hstat RING_STAT_DROP true).inc hstat RING_STAT_DROPCNT).raise 322)

/-! ## What is told to FSA (R235, R242, R246, R247) -/

theorem LinksKept.setAligner (h : LinksKept s t) (src : Nat) (a : Aligner) : LinksKept s (t.setAligner src a) :=
  h.update rfl rfl

theorem LinksKept.setSync (h : LinksKept s t) (src : Nat) (x : SyncUnit) : LinksKept s (t.setSync src x) :=
  h.update rfl rfl

theorem LinksKept.dropSync (h : LinksKept s t) (src : Nat) : LinksKept s (t.dropSync src) := by
  unfold State.dropSync
  split
  · exact h
  · exact LinksKept.update (h.each _ fun _ k _ g => g.setAligner k _) rfl rfl

theorem LinksKept.releaseSync (h : LinksKept s t) (src : Nat) : LinksKept s (t.releaseSync src) := by
  unfold State.releaseSync
  split
  · exact (h.dropSync src).event ..
  · exact h.dropSync src

theorem LinksKept.passSync (h : LinksKept s t) (src own d units : Nat) : LinksKept s (t.passSync src own d units) :=
  h.update rfl rfl

theorem LinksKept.giveSync (h : LinksKept s t) (src own d units : Nat) : LinksKept s (t.giveSync src own d units) := by
  have hpass := fun x => (h.passSync src own d units).setSync src x
  unfold State.giveSync
  split
  · exact ite_keep (hpass _) (((hpass _).event ..).event ..)
  · exact h

theorem LinksKept.handOver (h : LinksKept s t) (src units : Nat) : LinksKept s (t.handOver src units) := by
  unfold State.handOver
  split
  · exact h.giveSync ..
  · exact ite_keep ((h.releaseSync src).raise 160) h

theorem LinksKept.recount (h : LinksKept s t) (src units : Nat) : LinksKept s (t.recount src units) := by
  unfold State.recount
  split
  · exact h
  · split
    · exact h.passSync ..
    · exact h.handOver ..

theorem LinksKept.reacquire (h : LinksKept s t) (src home high : Nat) (x : SyncUnit) :
    LinksKept s (t.reacquire src home high x) := by
  unfold State.reacquire
  extract_lets a s2 f units gone s3
  have h2 : LinksKept s s2 := h.setAligner src _
  have h3 : LinksKept s s3 := h2.each _ fun _ k _ g => g.setAligner k _
  exact ite_keep ((h.setAligner src _).setSync home _) (ite_keep h2 ((h3.setSync home _).recount home units))

theorem LinksKept.reportFormat (h : LinksKept s t) (src high : Nat) : LinksKept s (t.reportFormat src high) := by
  unfold State.reportFormat
  extract_lets a home
  split
  · refine ite_keep (h.reacquire src home high _) ?_
    split
    · exact h
    · exact h.setSync home _
  · exact ite_keep (h.setAligner src _) (ite_keep h (h.setAligner src _))

theorem LinksKept.reportPid (h : LinksKept s t) (src pid : Nat) : LinksKept s (t.reportPid src pid) :=
  ite_keep h (h.setAligner src _)

theorem LinksKept.reportInbound (h : LinksKept s t) (n : Nat) (x : Nat × Nat) : LinksKept s (t.reportInbound n x) :=
  ite_keep ((h.reportFormat ..).reportPid ..) h

theorem LinksKept.opErroredLine (h : LinksKept s t) (src line : Nat) : LinksKept s (opErroredLine src line t) := by
  have hcount : ¬LinkReg FSA_CONCEAL := not_linkReg_below (by decide)
  have hsub : ∀ u, LinksKept s u → LinksKept s (u.substituteLine src line) := fun _ g => ite_keep g (g.setAligner src _)
  have hrun := fun x => h.setAligner src x
  exact ite_keep h (ite_keep ((hsub _ (hrun _)).inc hcount _) (ite_keep ((hrun _).raise 162) (hrun _)))

/-! ## What a link notes and sends (R391, R399, R420) -/

theorem LinksKept.blkHist (h : LinksKept s t) {k : Nat} (hk : k < 12) (b : Nat) : LinksKept s (t.blkHist k b) := by
  have hhist : ¬LinkReg (BLK_L_HIST k) := by
    unfold LinkReg BLK_L_HIST
    omega
  exact (h.setBit hhist _ _).raise _

theorem LinksKept.badLine (h : LinksKept s t) {n : Nat} (hn : n < 4) (x : Nat × Nat) : LinksKept s (t.badLine n x) := by
  have hlines : ¬LinkReg (BLK_TR_LINES n) := not_linkReg_below (by unfold BLK_TR_LINES; omega)
  unfold State.badLine
  extract_lets old _ s1
  have h1 : LinksKept s s1 := h.update rfl rfl
  exact ite_keep h ((h1.inc hlines _).opErroredLine ..)

theorem LinksKept.badLines (h : LinksKept s t) (k : Nat) (l : List (Nat × Nat)) : LinksKept s (t.badLines k l) := by
  unfold State.badLines
  extract_lets n
  split
  · exact h
  · next hn => exact h.each l fun _ x _ g => g.badLine (Nat.lt_of_not_le hn) x

theorem LinksKept.streamOut (h : LinksKept s t) (k : Nat) (f : BitVec 128) : LinksKept s (t.streamOut k f) := by
  refine LinksKept.emit ?_ _
  exact h.setLink k rfl

theorem LinksKept.putFlit (h : LinksKept s t) (k : Nat) (valid : Bool) (f : OutFlit) (nak : Bool) :
    LinksKept s (t.putFlit k valid f nak) := by
  refine LinksKept.streamOut ?_ k _
  exact h.setLink k (by cases valid <;> rfl)

theorem LinksKept.sendNak (h : LinksKept s t) (k : Nat) : LinksKept s (t.sendNak k) := by
  unfold State.sendNak
  split
  · exact h
  · refine LinksKept.putFlit ?_ k _ _ _
    exact h.setLink k rfl

/-! ## What it says of a link -/

variable (h : LinksKept s t) {k : Nat} (hk : k < 12)

include h

theorem LinksKept.linkLanes : t.linkLanes k = s.linkLanes k := by
  refine List.filter_congr fun j hj => ?_
  rw [State.fld, h.rd (.inr ?_), State.fld]
  have hj := List.mem_range.1 hj
  unfold BLK_LANE_CFG
  omega

theorem LinksKept.lanePosition (j : Nat) : t.lanePosition k j = s.lanePosition k j := by
  rw [State.lanePosition, h.linkLanes, State.lanePosition]

include hk

theorem LinksKept.linkState : t.linkState k = s.linkState k := by
  rw [State.linkState, State.fld, h.rd (.inl ?_), State.linkState, State.fld]
  unfold BLK_L_STAT
  omega

theorem LinksKept.linkActive : t.linkActive k = s.linkActive k := by
  rw [State.linkActive, h.linkState hk, State.linkActive]

theorem LinksKept.cfg : t.rd (BLK_L_CFG k) = s.rd (BLK_L_CFG k) := by
  refine h.rd (.inl ?_)
  unfold BLK_L_CFG
  omega

end linksKept

end Sys2Proof.Machine
end

section
/-! PROOFS. Block lock, its loss, and the blocks that a lane takes (R382, R386, R391, R395, R399, R404): part of O18. -/

namespace Sys2Proof.Machine

open Sys2Proof

theorem Field.set_get (f : Field) (w : Word) (h : f.lo + f.width ≤ 32) : f.set w (f.get w) = w := by
  apply BitVec.eq_of_toNat_eq
  have hfield : w.toNat / 2 ^ f.lo % 2 ^ f.width + 2 ^ f.width * (w.toNat / 2 ^ f.lo / 2 ^ f.width)
      = w.toNat / 2 ^ f.lo := Nat.mod_add_div ..
  rw [Field.set_toNat f w _ h, Field.get, Nat.mod_mod, Nat.pow_add, ← Nat.div_div_eq_div_mul, Nat.mul_assoc, Nat.add_assoc,
    ← Nat.mul_add, hfield, Nat.mod_add_div]

/-- A counter to which nothing is added reads as before. -/
theorem State.rd_incBy_zero (s : State) {a : Nat} {f : Field} (h : f.lo + f.width ≤ 32) (b : Nat) :
    (s.incBy a f 0).rd b = s.rd b := by
  have hsame : min (s.fld a f + 0) (2 ^ f.width - 1) = f.get (s.rd a) :=
    Nat.min_eq_left (Nat.le_sub_one_of_lt (Field.get_lt f _))
  by_cases hb : b = a
  · subst hb
    rw [State.incBy, State.setFld, State.rd_wr, hsame, Field.set_get f _ h]
  · exact State.rd_setFld_other s f _ hb

@[simp] theorem State.blane_setBlane (s : State) (j : Nat) (x : BLaneCtl) : (s.setBlane j x).blane j = x :=
  Tbl.getD_putD_same ..

/-- A lane's link, and that there is one of that number. -/
theorem State.laneLink_some {s : State} {j k : Nat} (h : s.laneLink j = some k) : k < 12 := by
  unfold State.laneLink at h
  dsimp only at h
  split at h
  · next hlt => exact Option.some.inj h ▸ hlt
  · cases h

theorem not_linkReg_laneStat (j : Nat) : ¬LinkReg (BLK_LANE_STAT j) := by
  unfold LinkReg BLK_LANE_STAT
  omega

theorem laneStat_ne_blkerr (j k : Nat) : BLK_L_BLKERR k ≠ BLK_LANE_STAT j := by
  unfold BLK_L_BLKERR BLK_LANE_STAT
  omega

/-! ## Lock (R386) -/

/-- LANE_STAT of a lane that has lock. -/
def State.laneLocked (s : State) (j : Nat) : State :=
  ((s.setBit (BLK_LANE_STAT j) BLK_LANE_STAT_LOS false).setBit (BLK_LANE_STAT j) BLK_LANE_STAT_CDR true).setBit
    (BLK_LANE_STAT j) BLK_LANE_STAT_BLOCK true

/-- A lane that has lock again after `n` blocks: the scrambler of its receiver has run on over them. -/
def State.laneRestored (s : State) (j n : Nat) : State :=
  let u := s.laneLocked j
  let u := u.setBlk { u.blk with lockLost := Tbl.del u.blk.lockLost j }
  u.setBlane j { u.blane j with rxScr := (u.blane j).rxScr.map (scramblerAfter (scrambledBits * n)) }

/-- The blocks that it missed are counted. -/
def State.laneRelocked (s : State) (j k n : Nat) : State :=
  (s.laneRestored j n).incBy (BLK_L_BLKERR k) BLK_L_BLKERR_COUNT n

/-- The lane has lock: its signal and its clock stand. -/
def HasLock (j : Nat) (u : State) : Prop := u.bit (BLK_LANE_STAT j) BLK_LANE_STAT_BLOCK = true
  ∧ u.bit (BLK_LANE_STAT j) BLK_LANE_STAT_CDR = true ∧ u.bit (BLK_LANE_STAT j) BLK_LANE_STAT_LOS = false

theorem HasLock.told {j : Nat} {t u : State} (h : HasLock j t) (hu : Told t u) : HasLock j u := by
  simpa only [HasLock, hu.bit] using h

section lock

variable {s : State} {j k : Nat} {l : List (Nat × Nat)}

theorem laneLocked_frame : Frame [BLK_LANE_STAT j] [] s (s.laneLocked j) :=
  ((Frame.refl.setBit _ _ (by simp)).setBit _ _ (by simp)).setBit _ _ (by simp)

theorem laneLocked_hasLock : HasLock j (s.laneLocked j) := by
  refine ⟨State.bit_setBit _ _ _ _ (by decide) (by decide), ?_, ?_⟩
  · exact (State.bit_setFld_apart _ _ _ (by decide) (by decide)).trans (State.bit_setBit _ _ _ _ (by decide) (by decide))
  · exact (State.bit_setFld_apart _ _ _ (by decide) (by decide)).trans
      ((State.bit_setFld_apart _ _ _ (by decide) (by decide)).trans (State.bit_setBit _ _ _ _ (by decide) (by decide)))

theorem laneRestored_frame (n : Nat) : Frame [BLK_LANE_STAT j] [.blk] s (s.laneRestored j n) :=
  ((laneLocked_frame.mono (by simp) (by simp)).setBlk _ (by simp)).setBlk _ (by simp)

theorem laneRelocked_frame (n : Nat) : Frame [BLK_LANE_STAT j, BLK_L_BLKERR k] [.blk] s (s.laneRelocked j k n) :=
  ((laneRestored_frame n).mono (by simp) (by simp)).incBy _ _ (by simp)

/-- Where no block was missed, the counter stands. -/
theorem laneRelocked_frame_zero : Frame [BLK_LANE_STAT j] [.blk] s (s.laneRelocked j k 0) := by
  obtain ⟨hregs, hmem, hparts⟩ := laneRestored_frame (s := s) (j := j) 0
  have hcount : ∀ b, (s.laneRelocked j k 0).rd b = (s.laneRestored j 0).rd b := fun b =>
    State.rd_incBy_zero (a := BLK_L_BLKERR k) (f := BLK_L_BLKERR_COUNT) _ (by decide) b
  exact ⟨fun a ha => (hcount a).trans (hregs a ha), hmem, hparts⟩

theorem laneRelocked_hasLock (n : Nat) : HasLock j (s.laneRelocked j k n) := by
  have hbit : ∀ f, (s.laneRelocked j k n).bit (BLK_LANE_STAT j) f = (s.laneLocked j).bit (BLK_LANE_STAT j) f :=
    fun _ => congrArg (· != 0) (State.fld_setFld_other _ _ _ _ (laneStat_ne_blkerr j k).symm)
  have hlocked : HasLock j (s.laneLocked j) := laneLocked_hasLock
  simpa only [HasLock, hbit] using hlocked

theorem laneRelocked_count (n : Nat) : (s.laneRelocked j k n).fld (BLK_L_BLKERR k) BLK_L_BLKERR_COUNT
    = min (s.fld (BLK_L_BLKERR k) BLK_L_BLKERR_COUNT + n) (2 ^ 32 - 1) := by
  rw [State.laneRelocked, State.fld_incBy _ _ _ _ (by decide)]
  rw [(laneRestored_frame n).fld _ (by simp [laneStat_ne_blkerr j k])]
  rfl

variable (hl : s.laneLink j = some k) (hen : s.linkEn k = true)

include hl hen

theorem opBlockLock_first (h : Tbl.find? s.blk.lockLost j = none) : opBlockLock j l s = s.laneLocked j := by
  have hfind : Tbl.find? (s.laneLocked j).blk.lockLost j = none := h
  unfold opBlockLock
  rw [hl]
  dsimp only
  rw [if_neg (by simp [hen])]
  unfold State.laneLocked at hfind ⊢
  rw [hfind]

theorem opBlockLock_again {a : Nat} (h : Tbl.find? s.blk.lockLost j = some a) : opBlockLock j l s =
    (s.laneRelocked j k ((s.now - a) * 9 / 256)).when ((s.now - a) * 9 / 256 != 0)
      (fun u => ((u.blkHist k 2).badLines k l).sendNak k) := by
  have hfind : Tbl.find? (s.laneLocked j).blk.lockLost j = some a := h
  unfold opBlockLock
  rw [hl]
  dsimp only
  rw [if_neg (by simp [hen])]
  unfold State.laneLocked at hfind
  rw [hfind]
  rfl

end lock

/-- A lane of no link, or of a disabled one. -/
theorem opBlockLock_unused {s : State} {j : Nat}
    (h : s.laneLink j = none ∨ ∃ k, s.laneLink j = some k ∧ s.linkEn k = false) (l : List (Nat × Nat)) :
    opBlockLock j l s = s := by
  unfold opBlockLock
  obtain h | ⟨k, hl, hen⟩ := h
  · rw [h]
  · rw [hl]
    exact if_pos (by simp [hen])

/-! ## Its loss (R386, R404) -/

/-- LANE_STAT of a lane that has lost lock, its signal with it where `los` holds. -/
def State.laneUnlocked (s : State) (j : Nat) (los : Bool) : State :=
  (s.setBit (BLK_LANE_STAT j) BLK_LANE_STAT_BLOCK false).when los (fun u =>
    (u.setBit (BLK_LANE_STAT j) BLK_LANE_STAT_LOS true).setBit (BLK_LANE_STAT j) BLK_LANE_STAT_CDR false)

/-- The lane has lost lock since `s`, its signal and its clock with it where `los` holds. -/
def HasLost (j : Nat) (los : Bool) (s u : State) : Prop := u.bit (BLK_LANE_STAT j) BLK_LANE_STAT_BLOCK = false
  ∧ u.bit (BLK_LANE_STAT j) BLK_LANE_STAT_LOS = (los || s.bit (BLK_LANE_STAT j) BLK_LANE_STAT_LOS)
  ∧ u.bit (BLK_LANE_STAT j) BLK_LANE_STAT_CDR = (!los && s.bit (BLK_LANE_STAT j) BLK_LANE_STAT_CDR)

theorem HasLost.told {j : Nat} {los : Bool} {s t u : State} (h : HasLost j los s t) (hu : Told t u) : HasLost j los s u := by
  simpa only [HasLost, hu.bit] using h

section loss

variable {s : State} {j k : Nat}

theorem laneUnlocked_frame (los : Bool) : Frame [BLK_LANE_STAT j] [] s (s.laneUnlocked j los) :=
  (Frame.refl.setBit _ _ (by simp)).when los ((Frame.refl.setBit _ _ (by simp)).setBit _ _ (by simp))

theorem laneUnlocked_hasLost (los : Bool) : HasLost j los s (s.laneUnlocked j los) := by
  have hblock : (s.setBit (BLK_LANE_STAT j) BLK_LANE_STAT_BLOCK false).bit (BLK_LANE_STAT j) BLK_LANE_STAT_BLOCK = false :=
    State.bit_setBit _ _ _ _ (by decide) (by decide)
  cases los with
  | false =>
    exact ⟨hblock, State.bit_setFld_apart _ _ _ (by decide) (by decide),
      State.bit_setFld_apart _ _ _ (by decide) (by decide)⟩
  | true =>
    refine ⟨?_, ?_, State.bit_setBit _ _ _ _ (by decide) (by decide)⟩
    · exact (State.bit_setFld_apart _ _ _ (by decide) (by decide)).trans
        ((State.bit_setFld_apart _ _ _ (by decide) (by decide)).trans hblock)
    · exact (State.bit_setFld_apart _ _ _ (by decide) (by decide)).trans
        (State.bit_setBit _ _ _ _ (by decide) (by decide))

theorem laneUnlocked_active (los : Bool) (hk : k < 12) : (s.laneUnlocked j los).linkActive k = s.linkActive k :=
  ((LinksKept.refl s).frame (laneUnlocked_frame los) (by simp [not_linkReg_laneStat]) (by simp)).linkActive hk

variable (hl : s.laneLink j = some k)

include hl

/-- A loss without signal loss on a lane that has no lock. -/
theorem opBlockLockLoss_none (h : s.bit (BLK_LANE_STAT j) BLK_LANE_STAT_BLOCK = false) : opBlockLockLoss j false s = s := by
  unfold opBlockLockLoss
  rw [hl]
  exact if_pos (by simp [h])

theorem opBlockLockLoss_some {los : Bool} (h : los = true ∨ s.bit (BLK_LANE_STAT j) BLK_LANE_STAT_BLOCK = true) :
    opBlockLockLoss j los s =
      let u := s.laneUnlocked j los
      if s.linkActive k = false then u
      else if los then u.linkLeaves k 1
      else u.setBlk { u.blk with lockLost := Tbl.put u.blk.lockLost j s.now } := by
  have hact := laneUnlocked_active (s := s) (j := j) los (State.laneLink_some hl)
  have hnow : (s.laneUnlocked j los).now = s.now := (laneUnlocked_frame los).same (q := .time) (by simp)
  unfold opBlockLockLoss
  rw [hl]
  dsimp only
  rw [if_neg (by obtain h | h := h <;> simp [h])]
  unfold State.laneUnlocked at hact hnow ⊢
  rw [hact, hnow]
  cases s.linkActive k <;> rfl

theorem opLockTimeout_locked (h : s.bit (BLK_LANE_STAT j) BLK_LANE_STAT_BLOCK = true) : opLockTimeout j s = s := by
  rw [opLockTimeout, hl]
  exact if_pos h

theorem opLockTimeout_lost (h : s.bit (BLK_LANE_STAT j) BLK_LANE_STAT_BLOCK = false) :
    opLockTimeout j s = s.linkLeaves k 1 := by
  rw [opLockTimeout, hl]
  exact if_neg (by simp [h])

end loss

/-! ## What a lane sends (R385, R395) -/

/-- CTRL fields are drawn: of the links' own state what they have received stands, and the lanes stand. -/
structure FieldsDrawn (s t : State) : Prop where
  frame : Frame [] [.blk] s t
  links : LinksKept s t
  lanes : t.blk.lanes = s.blk.lanes

section drawn

variable {s t : State}

theorem FieldsDrawn.refl (s : State) : FieldsDrawn s s := ⟨Frame.refl, LinksKept.refl s, rfl⟩

theorem FieldsDrawn.setLink (h : FieldsDrawn s t) (k : Nat) {x : LinkCtl} (hx : x.inStream = (t.link k).inStream) :
    FieldsDrawn s (t.setLink k x) :=
  ⟨h.frame.trans (setLink_flitsSent ..).frame, h.links.setLink k hx, h.lanes⟩

theorem FieldsDrawn.putFlit (h : FieldsDrawn s t) (k : Nat) (valid : Bool) (f : OutFlit) (nak : Bool) :
    FieldsDrawn s (t.putFlit k valid f nak) :=
  ⟨h.frame.trans (putFlit_flitsSent ..).frame, h.links.putFlit .., h.lanes⟩

theorem FieldsDrawn.drawFields (h : FieldsDrawn s t) (k : Nat) : FieldsDrawn s (t.drawFields k) := by
  unfold State.drawFields
  extract_lets n u x
  have hu : FieldsDrawn s u := foldl_keep (P := FieldsDrawn s) (fun _ _ g => g.putFlit ..) _ h
  exact hu.setLink k rfl

theorem FieldsDrawn.nextField (h : FieldsDrawn s t) (k p : Nat) : FieldsDrawn s (t.nextField k p).2 := by
  unfold State.nextField
  split
  · exact h
  · extract_lets u x
    have hu : FieldsDrawn s u := ite_keep h (h.drawFields k)
    exact hu.setLink k rfl

/-- A block sent on a lane leaves LANE_STAT and the receiver as they were, and what the links have received. -/
structure LaneSent (j : Nat) (s t : State) : Prop where
  links : LinksKept s t
  stat : t.rd (BLK_LANE_STAT j) = s.rd (BLK_LANE_STAT j)
  rxScr : (t.blane j).rxScr = (s.blane j).rxScr

theorem sendLane_laneSent (s : State) {k : Nat} (hk : k < 12) (j : Nat) (out : BitVec 1536) :
    LaneSent j s (s.sendLane k j out) := by
  have hvoid : ¬LinkReg (BLK_L_VOID k) := by
    unfold LinkReg BLK_L_VOID
    omega
  have hstat : BLK_LANE_STAT j ≠ BLK_L_VOID k := by
    unfold BLK_LANE_STAT BLK_L_VOID
    omega
  unfold State.sendLane
  split
  · exact ⟨LinksKept.refl s, rfl, rfl⟩
  · extract_lets p f pay s1 x s2 s3
    have h1 : FieldsDrawn s s1 := (FieldsDrawn.refl s).nextField k p
    have hx : x.rxScr = (s.blane j).rxScr :=
      congrArg (fun l => (Tbl.getD l j BLaneCtl.idle).rxScr) h1.lanes
    have h3 : LinksKept s s3 := h1.links.update rfl rfl
    have hlane : s3.blane j = _ := State.blane_setBlane s2 j _
    refine ⟨h3.when _ (h3.inc hvoid _), ?_, ?_⟩
    · exact (Frame.refl.when _ (Frame.refl.inc _ (by simp)) :
        Frame [BLK_L_VOID k] [] s3 _).1 _ (by simp [hstat]) |>.trans (h1.frame.1 _ (by simp))
    · refine Eq.trans ?_ ((congrArg BLaneCtl.rxScr hlane).trans hx)
      unfold State.when
      split <;> rfl

end drawn

/-! ## CTRL fields that arrive (R395) -/

/-- A block adds at most the fields of two blocks to the control stream. -/
theorem addField_short (x : LinkCtl) {n : Nat} (h : x.inStream.length + 2 * n < 8) (p : Nat) (c : Option (BitVec 16)) :
    (x.addField n p c).2 = [] := by
  unfold LinkCtl.addField
  extract_lets whole a t b l
  have hwhole : ∀ y, (whole y).length = n := fun y => by simp [whole]
  have ha : a.1.length ≤ n := by
    unfold a
    split
    · exact (hwhole _).le
    · exact Nat.zero_le n
  have hb : b.1.length ≤ 2 * n := by
    unfold b
    split
    · rw [List.length_append, hwhole]
      omega
    · exact ha.trans (by omega)
  have hl : l.length / 8 = 0 := by
    unfold l
    rw [List.length_append]
    omega
  rw [hl]
  rfl

theorem ctrlField_short {u : State} {k n : Nat} (h : (u.link k).inStream.length + 2 * n < 8) (p : Nat)
    (c : Option (BitVec 16)) : (u.ctrlField k n p c).1 = [] := by
  unfold State.ctrlField
  dsimp only
  rw [addField_short _ h]
  rfl

/-! ## A block received (R383, R391) -/

section received

variable {s : State} {j : BLane} {k : Nat} {line : BitVec 1600} {out : BitVec 1536} {l : List (Track × BitVec 11)}
  {fm : List (Track × BitVec 64)}

/-- Its flits take effect one after another. -/
theorem exec_blockReceived {r : List (BitVec 128) × State} (h : opBlockReceived j.val line out
      (l.map (fun x => (x.1.val, x.2.toNat))) (fm.map (fun x => (x.1.val, x.2.toNat))) s = r) :
    exec (.blockReceived j line out l fm) s = flitEffects ((s.laneLink j.val).getD 0) r.1 (State.signalEdges s r.2) := by
  have harm : exec (.blockReceived j line out l fm) s = execBlockReceived j line out l fm s := rfl
  rw [harm, execBlockReceived, h]

/-- On a lane of no link, or of a disabled one, nothing happens. -/
theorem exec_blockReceived_unused (h : s.laneLink j.val = none ∨ ∃ k, s.laneLink j.val = some k ∧ s.linkEn k = false) :
    exec (.blockReceived j line out l fm) s = done s s := by
  refine exec_blockReceived (r := ([], s)) ?_
  unfold opBlockReceived
  obtain h | ⟨k, hl, hen⟩ := h
  · rw [h]
  · rw [hl]
    exact if_pos (by simp [hen])

/-- A block that makes no flit whole. -/
theorem answers_noFlit {u : State} (h : opBlockReceived j.val line out (l.map (fun x => (x.1.val, x.2.toNat)))
      (fm.map (fun x => (x.1.val, x.2.toNat))) s = ([], u)) : Answers (.blockReceived j line out l fm) s u :=
  exec_blockReceived h

section enabled

variable {lines formats : List (Nat × Nat)} {j : Nat} (hl : s.laneLink j = some k) (hen : s.linkEn k = true)

include hl hen

/-- The lane sends one block with each that it receives, and takes the block where it has lock. -/
theorem opBlockReceived_lane : opBlockReceived j line out lines formats s =
    if s.bit (BLK_LANE_STAT j) BLK_LANE_STAT_BLOCK then
      (s.sendLane k j out).takeBlock k j (lsbBits 1600 line.toNat) lines formats
    else ([], s.sendLane k j out) := by
  have hbit : (s.sendLane k j out).bit (BLK_LANE_STAT j) BLK_LANE_STAT_BLOCK = s.bit (BLK_LANE_STAT j) BLK_LANE_STAT_BLOCK :=
    congrArg (BLK_LANE_STAT_BLOCK.get · != 0) (sendLane_laneSent s (State.laneLink_some hl) j out).stat
  unfold opBlockReceived
  rw [hl]
  dsimp only
  rw [if_neg (by simp [hen]), hbit]

end enabled

section taken

variable {t : State} {j : Nat} {bits : List Bool} {lines formats : List (Nat × Nat)}

theorem takeBlock_first (h : (t.blane j).rxScr = none) : t.takeBlock k j bits lines formats =
    ([], if t.linkState k = 2 then t.setBlane j { t.blane j with rxScr := some (syncScrambler bits) } else t) := by
  unfold State.takeBlock
  dsimp only
  rw [h]

theorem takeBlock_next {r : Nat} (h : (t.blane j).rxScr = some r) : t.takeBlock k j bits lines formats =
    let b := receiveBlock r bits
    let w := t.setBlane j { t.blane j with rxScr := some (scramblerAfter 1581 r) }
    if b.1.getLsbD 12 = true ∨ blockCrc b.1 b.2.1 b.2.2.1 ≠ b.2.2.2.toNat then w.blockBad k j lines
    else w.blockGood k j b.1 b.2.2.1 formats := by
  unfold State.takeBlock
  dsimp only
  rw [h]
  refine if_congr ?_ rfl rfl
  simp [blockFails, BitVec.getLsbD]

/-- The state of a link that a failed block leaves, before what it does in ACTIVE. -/
def State.blockFailed (s : State) (k : Nat) : State :=
  let u := (s.inc (BLK_L_BLKERR k) BLK_L_BLKERR_COUNT).blkHist k 2
  u.setLink k { u.link k with good := 0 }

/-- The state that a block which does not fail leaves, before what it does in ACTIVE. -/
def State.blockPassed (s : State) (k j : Nat) (hdr : BitVec 13) : State :=
  let u := s.setFld (BLK_LANE_STAT j) BLK_LANE_STAT_POS (hdr.toNat / 128 % 32)
  u.setLink k { u.link k with good := (u.link k).good + 1 }

/-- BLK reports the formats of a block's streams where the link bears a trunk (R235). -/
def State.formatsReported (s : State) (trunk : Nat) (formats : List (Nat × Nat)) : State :=
  if trunk < 4 then s.each formats (fun u x => u.reportInbound trunk x) else s

variable {w : State}

theorem blockBad_eq : w.blockBad k j lines =
    if !(w.blockFailed k).linkActive k then ([], w.blockFailed k)
    else (((w.blockFailed k).badLines k lines).sendNak k).ctrlField k ((w.blockFailed k).linkLanes k).length
      ((w.blockFailed k).lanePosition k j) none := rfl

theorem blockGood_eq (hdr : BitVec 13) (ctrl : BitVec 16) : w.blockGood k j hdr ctrl formats =
    if !(w.blockPassed k j hdr).linkActive k then ([], w.blockPassed k j hdr)
    else
      let u := (w.blockPassed k j hdr).formatsReported ((w.blockPassed k j hdr).fld (BLK_L_CFG k) BLK_L_CFG_TRUNK) formats
      u.ctrlField k (u.linkLanes k).length (u.lanePosition k j) (some ctrl) := rfl

variable (h : LinksKept s w)

include h

theorem LinksKept.blockPassed (hdr : BitVec 13) : LinksKept s (w.blockPassed k j hdr) :=
  (h.setFld (not_linkReg_laneStat j) _ _).setLink k rfl

theorem LinksKept.formatsReported (trunk : Nat) : LinksKept s (w.formatsReported trunk formats) :=
  ite_keep (h.each _ fun _ x _ g => g.reportInbound trunk x) h

variable (hk : k < 12)

include hk

theorem LinksKept.blockFailed : LinksKept s (w.blockFailed k) := by
  have herr : ¬LinkReg (BLK_L_BLKERR k) := by
    unfold LinkReg BLK_L_BLKERR
    omega
  exact ((h.inc herr _).blkHist hk 2).setLink k rfl

theorem blockBad_inactive (ha : s.linkActive k = false) : w.blockBad k j lines = ([], w.blockFailed k) := by
  rw [blockBad_eq, (h.blockFailed hk).linkActive hk, ha]
  rfl

/-- In ACTIVE the lines of a failed block are counted, a NAK goes out, and its CTRL field is lost. -/
theorem blockBad_active (ha : s.linkActive k = true) : w.blockBad k j lines =
    (((w.blockFailed k).badLines k lines).sendNak k).ctrlField k (s.linkLanes k).length (s.lanePosition k j) none := by
  have hfailed := h.blockFailed hk
  rw [blockBad_eq, hfailed.linkActive hk, ha, hfailed.linkLanes, hfailed.lanePosition]
  rfl

theorem blockGood_inactive (ha : s.linkActive k = false) (hdr : BitVec 13) (ctrl : BitVec 16) :
    w.blockGood k j hdr ctrl formats = ([], w.blockPassed k j hdr) := by
  rw [blockGood_eq, (h.blockPassed hdr).linkActive hk, ha]
  rfl

/-- In ACTIVE the formats of its streams are reported, and its CTRL field joins the control stream. -/
theorem blockGood_active (ha : s.linkActive k = true) (hdr : BitVec 13) (ctrl : BitVec 16) :
    w.blockGood k j hdr ctrl formats =
      ((w.blockPassed k j hdr).formatsReported (s.fld (BLK_L_CFG k) BLK_L_CFG_TRUNK) formats).ctrlField k
        (s.linkLanes k).length (s.lanePosition k j) (some ctrl) := by
  have hpassed : LinksKept s (w.blockPassed k j hdr) := h.blockPassed hdr
  have htrunk : (w.blockPassed k j hdr).fld (BLK_L_CFG k) BLK_L_CFG_TRUNK = s.fld (BLK_L_CFG k) BLK_L_CFG_TRUNK :=
    congrArg BLK_L_CFG_TRUNK.get (hpassed.cfg hk)
  have hformats := hpassed.formatsReported (formats := formats) (s.fld (BLK_L_CFG k) BLK_L_CFG_TRUNK)
  rw [blockGood_eq, hpassed.linkActive hk, ha, htrunk, ← hformats.linkLanes, ← hformats.lanePosition]
  rfl

end taken

/-! ## What it answers -/

/-- The block's CTRL field joins the control stream in state `u`, and the flits that it makes whole take effect. -/
theorem taken_blockReceived {u : State} {n p : Nat} {x : Option (BitVec 16)} (hl : s.laneLink j.val = some k)
    (hu : LinksKept s u) (h : opBlockReceived j.val line out (l.map (fun x => (x.1.val, x.2.toNat)))
      (fm.map (fun x => (x.1.val, x.2.toNat))) s = u.ctrlField k n p x) :
    exec (.blockReceived j line out l fm) s
        = flitEffects k (u.ctrlField k n p x).1 (State.signalEdges s (u.ctrlField k n p x).2)
      ∧ ((s.link k).inStream.length + 2 * n < 8 → Answers (.blockReceived j line out l fm) s (u.ctrlField k n p x).2) := by
  have hexec := exec_blockReceived h
  rw [hl, Option.getD_some] at hexec
  refine ⟨hexec, fun hshort => ?_⟩
  rw [Answers, hexec, ctrlField_short (by rw [hu.inStream]; exact hshort)]
  rfl

end received

end Sys2Proof.Machine
end

section
/-! PROOFS. Block lock, its loss, and what a block received does: O18 (R382-R386, R391, R395, R399, R404). -/

namespace Sys2Proof.Machine

open Sys2Proof

section lane

variable {j : BLane} {s : State} {k : Nat} (hl : s.laneLink j.val = some k)

include hl

/-! ## Lock and its loss -/

theorem gives_blockLock {l : List (Track × BitVec 11)} (hen : s.linkEn k = true) (h : Tbl.find? s.blk.lockLost j.val = none)
    {P : State → Prop} (hP : ∀ u, Told (s.laneLocked j.val) u → P u) : Gives (.blockLock j l) s P :=
  gives_told (congrArg (done s) (opBlockLock_first hl hen h)) hP

/-- Lock again before a block is missed. -/
theorem gives_blockLock_none {l : List (Track × BitVec 11)} {a : Nat} (hen : s.linkEn k = true)
    (h : Tbl.find? s.blk.lockLost j.val = some a) (hn : (s.now - a) * 9 / 256 = 0) :
    Gives (.blockLock j l) s (fun u => HasLock j.val u ∧ Tbl.find? u.blk.lockLost j.val = none
      ∧ Frame [BLK_LANE_STAT j.val] [.blk] s u) := by
  have hop : opBlockLock j.val (l.map (fun x => (x.1.val, x.2.toNat))) s = s.laneRelocked j.val k 0 :=
    (opBlockLock_again hl hen h).trans (by rw [hn]; exact if_neg (by decide))
  refine gives_told (congrArg (done s) hop) fun u hu =>
    ⟨(laneRelocked_hasLock 0).told hu, ?_, hu.frame laneRelocked_frame_zero⟩
  have hblk : u.blk = (s.laneRelocked j.val k 0).blk := hu.same .blk
  rw [hblk]
  exact Tbl.find?_del_same ..

/-- Lock again after `n` blocks: they are counted, and their flits are lost. -/
theorem answers_blockLock {l : List (Track × BitVec 11)} {a : Nat} (hen : s.linkEn k = true)
    (h : Tbl.find? s.blk.lockLost j.val = some a) (hn : (s.now - a) * 9 / 256 ≠ 0) : Answers (.blockLock j l) s
      ((((s.laneRelocked j.val k ((s.now - a) * 9 / 256)).blkHist k 2).badLines k
        (l.map (fun x => (x.1.val, x.2.toNat)))).sendNak k) := by
  refine answers_of_done (congrArg (done s) ((opBlockLock_again hl hen h).trans ?_))
  rw [State.when, if_pos (by simpa using hn)]

/-- The loss of lock, and of the signal with it where `los` holds. -/
theorem blockLockLoss_lost {los : Bool} (h : los = true ∨ s.bit (BLK_LANE_STAT j.val) BLK_LANE_STAT_BLOCK = true) :
    (s.linkActive k = false →
      Gives (.blockLockLoss j los) s (fun u => HasLost j.val los s u ∧ OnlyRegs [BLK_LANE_STAT j.val] s u))
    ∧ (s.linkActive k = true → los = false → Gives (.blockLockLoss j los) s (fun u => HasLost j.val los s u
      ∧ u.blk = { s.blk with lockLost := Tbl.put s.blk.lockLost j.val s.now } ∧ Frame [BLK_LANE_STAT j.val] [.blk] s u))
    ∧ (s.linkActive k = true → los = true → ∃ t, Answers (.blockLockLoss j los) s (t.linkLeaves k 1)
      ∧ HasLost j.val los s t ∧ OnlyRegs [BLK_LANE_STAT j.val] s t) := by
  have hop := opBlockLockLoss_some hl h
  have hlost := laneUnlocked_hasLost (s := s) (j := j.val) los
  have hframe := laneUnlocked_frame (s := s) (j := j.val) los
  dsimp only at hop
  refine ⟨fun ha => ?_, fun ha hlos => ?_, fun ha hlos => ⟨_, ?_, hlost, hframe⟩⟩
  · rw [if_pos ha] at hop
    exact gives_told (congrArg (done s) hop) fun u hu => ⟨hlost.told hu, hu.frame hframe⟩
  · rw [if_neg (by simp [ha]), if_neg (by simp [hlos])] at hop
    have hnoted : ∀ b, HasLost j.val los s ((s.laneUnlocked j.val los).setBlk b) := fun _ => hlost
    refine gives_told (congrArg (done s) hop) fun u hu => ⟨(hnoted _).told hu, ?_, ?_⟩
    · have hblk : (s.laneUnlocked j.val los).blk = s.blk := hframe.same (q := .blk) (by simp)
      have hu : u.blk = _ := hu.same .blk
      rw [hu, State.setBlk_blk, hblk]
    · exact hu.frame ((hframe.mono (by simp) (by simp)).setBlk _ (by simp))
  · rw [if_neg (by simp [ha]), if_pos hlos] at hop
    exact answers_of_done (congrArg (done s) hop)

/-! ## A block received -/

section received

variable (hen : s.linkEn k = true) {line : BitVec 1600} {out : BitVec 1536} {l : List (Track × BitVec 11)}
  {fm : List (Track × BitVec 64)}

include hen

theorem answers_blockReceived_unlocked (h : s.bit (BLK_LANE_STAT j.val) BLK_LANE_STAT_BLOCK = false) :
    Answers (.blockReceived j line out l fm) s (s.sendLane k j.val out) := by
  refine answers_noFlit ((opBlockReceived_lane hl hen).trans ?_)
  rw [if_neg (by simp [h])]

variable (hb : s.bit (BLK_LANE_STAT j.val) BLK_LANE_STAT_BLOCK = true)

include hb

/-- The first block, of a lane whose receiver is not synchronised. -/
theorem answers_blockReceived_first (h : (s.blane j.val).rxScr = none) :
    Answers (.blockReceived j line out l fm) s (if s.linkState k = 2 then
      (s.sendLane k j.val out).setBlane j.val { (s.sendLane k j.val out).blane j.val with
        rxScr := some (syncScrambler (lsbBits 1600 line.toNat)) }
      else s.sendLane k j.val out) := by
  have hk := State.laneLink_some hl
  have hsent := sendLane_laneSent s hk j.val out
  refine answers_noFlit ((opBlockReceived_lane hl hen).trans ?_)
  rw [if_pos hb, takeBlock_first (hsent.rxScr.trans h), hsent.links.linkState hk]

/-- A block that a synchronised receiver takes. -/
theorem opBlockReceived_taken {r : Nat} {lines formats : List (Nat × Nat)} (h : (s.blane j.val).rxScr = some r) :
    let b := receiveBlock r (lsbBits 1600 line.toNat)
    let w := (s.sendLane k j.val out).setBlane j.val { (s.sendLane k j.val out).blane j.val with
      rxScr := some (scramblerAfter 1581 r) }
    LinksKept s w ∧ opBlockReceived j.val line out lines formats s =
      if b.1.getLsbD 12 = true ∨ blockCrc b.1 b.2.1 b.2.2.1 ≠ b.2.2.2.toNat then w.blockBad k j.val lines
      else w.blockGood k j.val b.1 b.2.2.1 formats := by
  have hsent := sendLane_laneSent s (State.laneLink_some hl) j.val out
  refine ⟨hsent.links.update rfl rfl, (opBlockReceived_lane hl hen).trans ?_⟩
  rw [if_pos hb, takeBlock_next (hsent.rxScr.trans h)]

end received

end lane

/-- Settles O18: the line code undoes itself on what it sends, and no event that a block raises touches what says which link a
lane is of and how that link stands. -/
theorem blockLockAndBlocks : Obligations.BlockLockAndBlocks := by
  refine ⟨fun j s h => ⟨fun l => gives_nothing (congrArg (done s) (opBlockLock_unused h _)),
      fun line out l fm => gives_nothing (exec_blockReceived_unused h)⟩,
    fun j s k hl => ?_,
    fun r blk pos pay ctrl h => ⟨receiveBlock_sendBlock h, blockFails_sent ..⟩,
    fun r blk pos t h => syncScrambler_sendBlock h⟩
  have hk := State.laneLink_some hl
  refine ⟨fun l hen h => gives_blockLock hl hen h fun u hu =>
      ⟨laneLocked_hasLock.told hu, hu.frame laneLocked_frame⟩,
    fun l a hen h => ⟨gives_blockLock_none hl hen h, fun hn => ⟨_, answers_blockLock hl hen h hn, laneRelocked_hasLock _,
      laneRelocked_count _, rfl, State.blane_setBlane .., laneRelocked_frame _⟩⟩,
    fun h => gives_nothing (congrArg (done s) (opBlockLockLoss_none hl h)), fun los h => blockLockLoss_lost hl h,
    fun h => gives_nothing (congrArg (done s) (opLockTimeout_locked hl h)),
    fun h => answers_of_done (congrArg (done s) (opLockTimeout_lost hl h)), ?_⟩
  intro line out l fm hen
  refine ⟨answers_blockReceived_unlocked hl hen, fun hb hscr => ?_, fun r hb hscr => ?_⟩
  · have hfirst := answers_blockReceived_first (line := line) (out := out) (l := l) (fm := fm) hl hen hb hscr
    refine ⟨fun h2 => ?_, fun h2 => ?_⟩
    · rwa [if_pos h2] at hfirst
    · rwa [if_neg h2] at hfirst
  · intro b w bad' bad good' good taken fails
    obtain ⟨hw, hop⟩ := opBlockReceived_taken (line := line) (out := out)
      (lines := l.map (fun x => (x.1.val, x.2.toNat))) (formats := fm.map (fun x => (x.1.val, x.2.toNat))) hl hen hb hscr
    refine ⟨fun hf => ?_, fun hf => ?_⟩
    · rw [if_pos hf] at hop
      refine ⟨fun ha => answers_noFlit (hop.trans (blockBad_inactive hw hk ha)), fun ha => ?_⟩
      exact taken_blockReceived hl (((hw.blockFailed hk).badLines k _).sendNak k) (hop.trans (blockBad_active hw hk ha))
    · rw [if_neg hf] at hop
      have hpassed : LinksKept s good := hw.blockPassed _
      refine ⟨fun ha => answers_noFlit (hop.trans (blockGood_inactive hw hk ha _ _)), fun ha ht => ?_, fun ha ht => ?_⟩
      · have hgood := hop.trans (blockGood_active hw hk ha _ _)
        rw [State.formatsReported, if_neg (Nat.not_lt.2 ht)] at hgood
        exact taken_blockReceived hl hpassed hgood
      · have hgood := hop.trans (blockGood_active hw hk ha _ _)
        have hformats := hpassed.formatsReported (formats := fm.map (fun x => (x.1.val, x.2.toNat)))
          (s.fld (BLK_L_CFG k) BLK_L_CFG_TRUNK)
        rw [State.formatsReported, if_pos ht, State.each, List.foldl_map] at hgood hformats
        exact taken_blockReceived hl hformats hgood

end Sys2Proof.Machine
end

section
/-! PROOFS. A statement that fails: the configuration of a media lane (O41). -/

namespace Sys2Proof.Machine

open Sys2Proof

/-! ## The last frame of a Fallow format that names none (R318, R319) -/

/-- Lane 1 sends SDI with its group PLL up, its TXFMT is 1080p25, and the last frame of a Fallow-format change is due whose
old format is RASTER 0x00. -/
def lastOfNoFormat : State :=
  { ((State.reset.wr (ML_CTRL 1) 0x11).wr (ML_TXFMT 1) 0x305).wr MLN_GRPSTAT 1 with mln := ⟨[], [(1, (0, 1))]⟩ }

/-- Until that frame begins the output carries no format. -/
theorem lastOfNoFormat_carries_none :
    (lastOfNoFormat.route? (4 * 1)).isSome = false ∧ (lastOfNoFormat.laneFmt 1).none = true := by decide +kernel

/-- The frame begins in the format that TXFMT names, and the transmitter runs. -/
theorem lastOfNoFormat_sends : (opOutputFrame 1 lastOfNoFormat).statBit 1 ML_STAT_TXIDLE = false := by decide +kernel

/-- Refutes O41: the statement reads what the output carries before the frame is counted, the model after it. The old
format of a Fallow-format change may be RASTER 0x00 in a state, though no write of TXFMT leaves one so; with its last frame
the output of lane 1, which carried nothing, runs in the format of TXFMT. -/
theorem not_mediaLaneConfiguration : ¬ Obligations.MediaLaneConfiguration := by
  intro h
  obtain ⟨-, -, -, -, -, -, -, -, -, -, -, -, -, -, hframe⟩ := h 1 lastOfNoFormat
  obtain ⟨hroute, hnone⟩ := lastOfNoFormat_carries_none
  obtain ⟨hidle, -⟩ := hframe (by decide +kernel) (by decide +kernel)
  obtain ⟨hstands, -⟩ := Gives.of_done rfl (hidle (fun ⟨_, hcarries, _⟩ => by simp_all))
  have h1 := hstands 1 (by decide +kernel)
  rw [State.statBit, (signalEdges_told ..).bit] at h1
  exact absurd (lastOfNoFormat_sends.symm.trans h1) (by decide)

end Sys2Proof.Machine
end

section
/-! PROOFS. What an event leaves, whatever it escalates to, of every register that is neither the host interface's nor one of a
block from the MACs upward: all that it writes there is TXIDLE of a transmitter that the safe state idles (R529-R537). -/

namespace Sys2Proof.Machine

open Sys2Proof

/-- The register stands in HIF, or in MAC or beyond it (0xC00000): an event may write it. -/
def EventReg (a : Nat) : Prop := a < 0x200000 ∨ 0xC00000 ≤ a

/-- `P` sees of the registers only those that are no event's, and an idled transmitter keeps it. -/
structure EventKeep (P : State → Prop) : Prop where
  reads : ∀ {s t : State}, (∀ a, ¬EventReg a → t.rd a = s.rd a) → P s → P t
  idle : ∀ {s : State} {n : Nat}, n < 256 → P s → P (s.setBit (ML_STAT n) ML_STAT_TXIDLE true)

theorem eventReg_hdgStat (n : Nat) : EventReg (HDG_SRC_STAT n) := .inr (by unfold HDG_SRC_STAT; omega)

theorem eventReg_dmaStat {n : Nat} (hn : n < 64) : EventReg (HIF_DMA_STAT n) := .inl (by unfold HIF_DMA_STAT; omega)

theorem eventReg_ringStat (t r : Nat) : EventReg (RING_STAT t r) := .inr (by unfold RING_STAT; omega)

theorem when_keep (P : State → Prop) {s : State} (b : Bool) {f : State → State} (h : P s)
    (hf : ∀ u, P u → P (f u)) : P (s.when b f) := by
  unfold State.when
  exact ite_keep (hf s h) h

theorem each_keep (P : State → Prop) {α : Type} {s : State} (l : List α) {f : State → α → State} (h : P s)
    (hf : ∀ u, ∀ x ∈ l, P u → P (f u x)) : P (s.each l f) := by
  induction l generalizing s with
  | nil => exact h
  | cons x l ih => exact ih (hf s x List.mem_cons_self h) (fun u y hy => hf u y (List.mem_cons_of_mem _ hy))

section eventKeep

variable {P : State → Prop} (ek : EventKeep P) {s t : State}

include ek

/-- An update beside the registers. -/
theorem EventKeep.update (h : P s) (hr : t.regs = s.regs) : P t := ek.reads (fun _ _ => by simp [State.rd, hr]) h

theorem EventKeep.frame {l : List Nat} {p : List Part} (hf : Frame l p s t) (hl : ∀ a ∈ l, EventReg a) (h : P s) : P t :=
  ek.reads (fun a ha => hf.1 a (fun hm => ha (hl a hm))) h

theorem EventKeep.wr {a : Nat} (ha : EventReg a) (v : Word) (h : P s) : P (s.wr a v) :=
  ek.reads (fun _ hb => State.rd_wr_other s v (fun e => hb (e ▸ ha))) h

theorem EventKeep.setFld {a : Nat} (ha : EventReg a) (f : Field) (n : Nat) (h : P s) : P (s.setFld a f n) :=
  ek.wr ha _ h

theorem EventKeep.setBit {a : Nat} (ha : EventReg a) (f : Field) (b : Bool) (h : P s) : P (s.setBit a f b) :=
  ek.wr ha _ h

theorem EventKeep.inc {a : Nat} (ha : EventReg a) (f : Field) (h : P s) : P (s.inc a f) := ek.wr ha _ h

theorem EventKeep.emit (e : Emission) (h : P s) : P (s.emit e) := ek.update h rfl

theorem EventKeep.signal (n v : Nat) (h : P s) : P (s.signal n v) :=
  ek.reads (fun a _ => (Signalled.signal s n v).rd a) h

theorem EventKeep.afterCompletion (g : AfterCompletion s t) (h : P s) : P t :=
  ek.reads (fun a ha => g.rd (by unfold EventReg at ha; omega)) h

/-! ## Events (R529-R533) -/

theorem EventKeep.record (n sev : Nat) (promoted : Bool) (h : P s) : P (s.record n sev promoted) := by
  have hhdg : ∀ {a : Nat}, 0x1200000 ≤ a → EventReg a := fun ha => .inr (by omega)
  unfold State.record
  extract_lets _ _ _ _ s1
  have h1 : P s1 := when_keep P _ h fun _ g =>
    ek.wr (a := HDG_FIRSTTS) (hhdg (by decide)) _ (ek.wr (a := HDG_FIRST) (hhdg (by decide)) _ g)
  exact when_keep P _ h1 fun _ g =>
    ek.wr (a := HDG_FIRSTSEVTS) (hhdg (by decide)) _ (ek.wr (a := HDG_FIRSTSEV) (hhdg (by decide)) _ g)

section event

variable {esc : State → Nat → State} (hesc : ∀ {u : State} (n : Nat), P u → P (esc u n))

include hesc

theorem EventKeep.enterSevere (n : Nat) (promoted : Bool) (h : P s) : P (s.enterSevere esc n promoted) := by
  have hn := eventReg_hdgStat n
  unfold State.enterSevere
  extract_lets s1 s2 s3 s4 s5
  have h2 : P s2 := ek.setBit hn _ _ (ek.setFld hn _ _ h)
  have h4 : P s4 := ek.record n 2 promoted (when_keep P _ h2 fun _ => ek.setBit hn _ _)
  have h5 : P s5 := when_keep P _ h4 fun _ => ek.signal 0 16
  exact ite_keep (P := P) h5 (ite_keep (P := P) (hesc n h5) (ek.update h5 rfl))

theorem EventKeep.hdgEvent (n : Nat) (forced : Bool) (h : P s) : P (s.hdgEvent esc n forced) := by
  have hn := eventReg_hdgStat n
  have hcount : EventReg (HDG_SRC_COUNT n) := .inr (by unfold HDG_SRC_COUNT; omega)
  have hcounted := ek.setBit hn HDG_SRC_STAT_FORCED forced
    (ek.setBit hn HDG_SRC_STAT_STICKY true (ek.inc hcount HDG_SRC_COUNT_COUNT h))
  have hfirst := ek.setFld hn HDG_SRC_STAT_WCOUNT 1 hcounted
  have hnext := ek.inc hn HDG_SRC_STAT_WCOUNT hcounted
  have hwatched := ek.record n 1 false (ek.setFld hn HDG_SRC_STAT_STATE 1 hfirst)
  exact ite_keep (P := P) h (ite_keep (P := P) hcounted (ite_keep (P := P)
    (ite_keep (P := P) (ek.enterSevere hesc n false hfirst) hwatched)
    (ite_keep (P := P) (ite_keep (P := P) (ek.enterSevere hesc n false hnext) hnext) hcounted)))

end event

theorem EventKeep.escQuiet (n : Nat) (h : P s) : P (s.escQuiet n) := by
  unfold State.escQuiet
  extract_lets s1 _ s2
  have h2 : P s2 := ek.update (ek.setFld (eventReg_hdgStat n) HDG_SRC_STAT_STATE 3 h) rfl
  exact ek.signal 0 16 h2

theorem EventKeep.escSafe (n : Nat) (h : P s) : P (s.escSafe n) :=
  ite_keep (P := P) (ek.escQuiet n h) (ek.hdgEvent (fun n => ek.escQuiet n) 384 false (ek.escQuiet n h))

/-- An event in the safe state (R537). -/
theorem EventKeep.safeEvent (n : Nat) (h : P s) : P (s.hdgEvent State.escSafe n false) :=
  ek.hdgEvent (fun n => ek.escSafe n) n false h

/-! ## The safe state (R536) -/

theorem EventKeep.driveFault (b : Bool) (h : P s) : P (s.driveFault b) :=
  ite_keep (P := P) h (ek.update (ek.setBit (.inr (by decide)) HDG_STAT_FAULT b h) rfl)

theorem EventKeep.idleOutputs (h : P s) : P s.idleOutputs := by
  refine when_keep P _ (each_keep P _ (each_keep P _ h fun u n hn => ek.idle (List.mem_range.1 hn)) fun u e _ g => ?_)
    fun _ => ek.safeEvent 69
  have hport : EventReg (MP_HIST e.1) := .inr (by unfold MP_HIST; omega)
  exact ek.wr hport _ (ek.update g rfl)

theorem EventKeep.writeCapture (n r : Nat) (c : Capture) {dropped : State → State}
    (hd : ∀ {u : State}, P u → P (dropped u)) (h : P s) : P (s.writeCapture n r c dropped) := by
  have hstat := eventReg_ringStat n r
  exact ite_keep (P := P) (ek.afterCompletion (afterCompletion_ringWrite s n r _) h)
    (hd (ek.inc hstat RING_STAT_DROPCNT (ek.setBit hstat RING_STAT_DROP true h)))

theorem EventKeep.rechargeAll (l : List Nat) (h : P s) : P (s.each l State.recharge) :=
  each_keep P l h fun _ c _ g => ek.frame (Frame.refl.rechargeTo c none (p := [.ten]) (l := []) (by simp)) (by simp) g

theorem EventKeep.dropChanges (h : P s) : P s.dropChanges := ek.update h rfl

theorem EventKeep.dropCanvasWork (h : P s) : P s.dropCanvasWork := by
  unfold State.dropCanvasWork
  extract_lets _ s1 s2 s3 s4
  have h2 : P s2 := ek.update h rfl
  have h4 : P s4 := each_keep P _ (ek.rechargeAll _ h2) fun _ _ _ g => ek.writeCapture _ _ _ (ek.safeEvent 322) g
  exact ek.update h4 rfl

theorem EventKeep.dropSalvos (h : P s) : P s.dropSalvos := by
  unfold State.dropSalvos
  extract_lets l _ s1 s2 s3
  have h2 : P s2 := ek.update h rfl
  exact when_keep P _ (ek.rechargeAll _ h2) fun _ => ek.safeEvent 352

theorem EventKeep.svcAborted (h : P s) : P s.svcAborted := by
  have hstat : EventReg SVC_CMDSTAT := .inr (by decide)
  unfold State.svcAborted State.svcEnd
  extract_lets p _ s1 s2 s3 s4
  have h1 : P s1 := ek.update h rfl
  exact ek.setBit (.inr (by decide)) _ _ (ek.setFld hstat _ _ (ek.setFld hstat _ _ (ek.setBit hstat _ _ h1)))

theorem EventKeep.abandonShadow (h : P s) : P s.abandonShadow :=
  ite_keep (P := P) (ek.svcAborted (ek.setFld (.inr (by decide)) _ _ h)) (ite_keep (P := P) (ek.svcAborted h) h)

theorem EventKeep.muffle (h : P s) : P s.muffle := each_keep P _ h fun _ _ _ => ek.emit _

theorem EventKeep.floatAudio (h : P s) : P s.floatAudio := by
  unfold State.floatAudio
  extract_lets s1
  have h1 : P s1 := each_keep P _ h fun _ _ _ => ek.emit _
  exact each_keep P _ h1 fun _ _ _ => ek.emit _

theorem EventKeep.stopForSafe (h : P s) : P s.stopForSafe := by
  have hchanges := ek.dropChanges (ek.idleOutputs (ek.floatAudio (ek.muffle h)))
  unfold State.stopForSafe
  extract_lets s1
  have h1 : P s1 := ek.abandonShadow (ek.dropSalvos (ek.dropCanvasWork hchanges))
  exact ek.update h1 rfl

theorem EventKeep.setFov (x : Nat) (h : P s) : P (s.setFov x) := by
  have hstat : EventReg FOV_STAT := .inr (by decide)
  unfold State.setFov
  extract_lets _ s1 s2 s3 s4
  have h1 : P s1 := ek.update h rfl
  have h2 : P s2 := when_keep P _ (when_keep P _ h1 fun _ => ek.emit _) fun _ => ek.emit _
  exact ek.setBit hstat _ _ (ek.setBit hstat _ _ (ek.setFld hstat _ _ h2))

theorem EventKeep.haltChannel {n : Nat} (hn : n < 64) (cause : Nat) (h : P s) : P (s.haltChannel n cause) := by
  have hstat := eventReg_dmaStat hn
  unfold State.haltChannel
  extract_lets s1 s2 s3 s4
  have h1 : P s1 := by
    unfold s1
    split
    · exact ek.wr (.inl (by unfold HIF_DMA_ERRADDR_HI; omega)) _ (ek.wr (.inl (by unfold HIF_DMA_ERRADDR_LO; omega)) _ h)
    · exact h
  have h2 : P s2 := ek.update h1 rfl
  exact when_keep P _ (ek.setFld hstat _ _ (ek.setFld hstat _ _ h2)) fun _ => ek.signal 0 _

theorem EventKeep.enterSafe (n : Nat) (h : P s) : P (s.enterSafe n) := by
  have hstat : EventReg HDG_STAT := .inr (by decide)
  unfold State.enterSafe
  extract_lets s1 s2 s3 s4 s5 s6 s7 s8
  have h4 : P s4 := ek.driveFault true (ek.signal 0 16 (ek.setFld hstat _ _ (ek.setBit hstat _ _ h)))
  have h6 : P s6 := each_keep P _ (ek.stopForSafe (ek.setFov 7 h4)) fun u i _ =>
    ek.afterCompletion (afterCompletion_complete u i _ _ _)
  have h7 : P s7 := each_keep P _ h6 fun _ k hk =>
    ek.setFld (eventReg_dmaStat (by have := List.mem_range.1 hk; omega)) _ _
  have h8 : P s8 := each_keep P _ h7 fun _ k hk => ek.haltChannel (by have := List.mem_range.1 hk; omega) 5
  exact ek.safeEvent 325 h8

/-! ## Events that escalate (R533) -/

theorem EventKeep.escOwn (n : Nat) (h : P s) : P (s.escOwn n) := by
  have hq := ek.escQuiet n h
  exact ite_keep (P := P) hq (ite_keep (P := P) (ek.driveFault true hq) (ite_keep (P := P) (ek.enterSafe n hq) hq))

theorem EventKeep.escalate (n : Nat) (h : P s) : P (s.escalate n) :=
  ite_keep (P := P) (ek.escOwn n h) (ek.hdgEvent (fun n => ek.escOwn n) 384 false (ek.escOwn n h))

theorem EventKeep.raise (n : Nat) (h : P s) : P (s.raise n) := ek.hdgEvent (fun n => ek.escalate n) n false h

end eventKeep

end Sys2Proof.Machine
end

section
/-! PROOFS. How the registers of a lane are read after an update, what an event and the report of a lane leave of them, and what a
long loss does (R299, R306-R312, R326). -/

namespace Sys2Proof.Machine

open Sys2Proof

/-! ## STAT of a lane -/

section statBit

variable (s : State) (n : Nat) {f g : Field}

theorem State.statBit_setBit (b : Bool) (h : f.lo + f.width ≤ 32) (hw : 0 < f.width) :
    (s.setBit (ML_STAT n) f b).statBit n f = b := State.bit_setBit s _ f b h hw

theorem State.statBit_setFld_apart (x : Nat) (h : f.lo + f.width ≤ 32)
    (hg : f.lo + f.width ≤ g.lo ∨ g.lo + g.width ≤ f.lo) : (s.setFld (ML_STAT n) f x).statBit n g = s.statBit n g :=
  State.bit_setFld_apart s _ x h hg

theorem State.statBit_setBit_apart (b : Bool) (h : f.lo + f.width ≤ 32)
    (hg : f.lo + f.width ≤ g.lo ∨ g.lo + g.width ≤ f.lo) : (s.setBit (ML_STAT n) f b).statBit n g = s.statBit n g :=
  State.statBit_setFld_apart s n _ h hg

theorem State.bit_wr_other {a b : Nat} (v : Word) (h : b ≠ a) : (s.wr a v).bit b f = s.bit b f := by
  rw [State.bit, State.fld, State.rd_wr_other s v h, State.bit, State.fld]

end statBit

theorem Told.statBit {t u : State} (h : Told t u) (n : Nat) (f : Field) : u.statBit n f = t.statBit n f := h.bit _ f

theorem Frame.setMln {l : List Nat} {p : List Part} {s t : State} (h : Frame l p s t) (x : Mln) (hp : .mln ∈ p) :
    Frame l p s (t.setMln x) :=
  h.update rfl rfl (fun q hq => by
    cases q
    case mln => exact absurd hp hq
    all_goals simp [Part.Same, State.setMln])

theorem Frame.setLane {l : List Nat} {p : List Part} {s t : State} (h : Frame l p s t) (n : Nat) (x : LaneCtl)
    (hp : .mln ∈ p) : Frame l p s (t.setLane n x) := h.setMln _ hp

@[simp] theorem State.lane_setLane (s : State) (n : Nat) (x : LaneCtl) : (s.setLane n x).lane n = x :=
  Tbl.getD_putD_same ..

theorem Told.lane {t u : State} (h : Told t u) (n : Nat) : u.lane n = t.lane n := by
  have hmln : u.mln = t.mln := h.same .mln
  rw [State.lane, hmln, State.lane]

/-! ## The bond and the mode of a lane are read from CTRL alone (R297, R305) -/

/-- CTRL of every lane is as before. -/
def SameCtrl (s t : State) : Prop := ∀ k < 256, t.rd (ML_CTRL k) = s.rd (ML_CTRL k)

theorem bondFirst_le (s : State) (n : Nat) : s.bondFirst n ≤ n := by
  unfold State.bondFirst
  split_ifs <;> omega

section sameCtrl

variable {s t : State} (h : SameCtrl s t) {n : Nat} (hn : n < 256)

include h hn

theorem SameCtrl.fld (f : Field) : t.fld (ML_CTRL n) f = s.fld (ML_CTRL n) f := congrArg f.get (h n hn)

theorem SameCtrl.bondFirst : t.bondFirst n = s.bondFirst n := by
  unfold State.bondFirst State.bondField
  rw [h.fld (n := n / 4 * 4) (by omega), h.fld (n := n / 2 * 2) (by omega)]

theorem SameCtrl.bondAt : t.bondAt n = s.bondAt n := by
  have hle := bondFirst_le s n
  unfold State.bondAt State.bondField
  rw [h.bondFirst hn, h.fld (n := s.bondFirst n) (by omega)]

theorem SameCtrl.laneMode : t.laneMode n = s.laneMode n := by
  have hle := bondFirst_le s n
  unfold State.laneMode
  rw [h.bondFirst hn, h.fld (n := s.bondFirst n) (by omega)]

end sameCtrl

/-! ## What an event leaves of a lane -/

/-- The register is not STAT of a lane. -/
def NotStat (a : Nat) : Prop := ∀ k < 256, a ≠ ML_STAT k

/-- A field that no event writes: its register is no event's, and it is not TXIDLE. -/
theorem eventKeep_fld {a v : Nat} {f : Field} (ha : ¬EventReg a) (hf : NotStat a ∨ fieldsApart ML_STAT_TXIDLE f) :
    EventKeep (fun t => t.fld a f = v) where
  reads hr h := by rwa [State.fld, hr a ha, ← State.fld]
  idle {s n} hn h := by
    refine Eq.trans ?_ h
    by_cases hk : a = ML_STAT n
    · subst hk
      exact State.fld_setFld_apart _ _ _ _ _ (by decide) (hf.resolve_left fun h => h n hn rfl)
    · exact State.fld_setFld_other _ _ _ _ hk

theorem eventKeep_sameCtrl (s : State) : EventKeep (SameCtrl s) where
  reads hr h k hk := (hr _ (by unfold EventReg ML_CTRL; omega)).trans (h k hk)
  idle {t n} _ h k hk := (State.rd_setBit_other t _ _ (by unfold ML_CTRL ML_STAT; omega)).trans (h k hk)

/-! ## What the report of a lane leaves -/

/-- The registers in which a lane reports: HIST, HDGEN, DET, DETPID and SKEW (R326). -/
def ReportReg (a : Nat) : Prop := 0xA00000 ≤ a ∧ a < 0xA40000 ∧ 0x24 ≤ a % 0x400 ∧ a % 0x400 < 0x40

/-- `P` sees neither what an event writes nor what a lane reports. -/
structure LaneKeep (P : State → Prop) : Prop extends EventKeep P where
  report : ∀ {s : State} {a : Nat} (v : Word), ReportReg a → P s → P (s.wr a v)

section lane

variable {n : Nat} (hn : n < 256)

include hn

theorem reportReg_hist : ReportReg (ML_HIST n) := by unfold ReportReg ML_HIST; omega
theorem reportReg_hdgen : ReportReg (ML_HDGEN n) := by unfold ReportReg ML_HDGEN; omega
theorem reportReg_det : ReportReg (ML_DET n) := by unfold ReportReg ML_DET; omega
theorem reportReg_detpid : ReportReg (ML_DETPID n) := by unfold ReportReg ML_DETPID; omega

end lane

section reports

variable {P : State → Prop} {s : State} {n : Nat}

theorem EventKeep.mlnHist (ek : EventKeep P) (hw : ∀ u v, P u → P (u.wr (ML_HIST n) v)) (k : Nat) (h : P s) :
    P (s.mlnHist n k) :=
  when_keep P _ (hw _ _ h) fun _ => ek.raise _

/-- FSA is told of no format (R235). -/
theorem EventKeep.reportNoFormat (ek : EventKeep P) (src : Nat) (h : P s) : P (s.reportFormat src 0) := by
  refine ek.update h ?_
  unfold State.reportFormat
  extract_lets a home
  split
  · rw [if_neg (by decide)]
    split <;> rfl
  · rfl

/-- The descriptor of a lane goes to RASTER 0x00: beside DET and DETPID only HIST is written. -/
theorem EventKeep.setDet_zero (ek : EventKeep P) (hw : ∀ u v, P u → P (u.wr (ML_HIST n) v))
    (h : P ((s.setFld (ML_DET n) ML_DET_DESC 0).wr (ML_DETPID n) 0)) : P (s.setDet n 0 0) := by
  unfold State.setDet
  extract_lets old changed _ s2 quad before s3
  have h2 : P s2 := when_keep P _ h fun _ => ek.mlnHist hw 11
  have h3 : P s3 := ek.update (t := s3) (ek.reportNoFormat (4 * n) h2) (by
    simp only [s3, State.reportPid]
    split <;> rfl)
  refine when_keep P _ h3 fun u g => each_keep P _ g fun w k _ g => ?_
  dsimp only
  exact ite_keep g (ek.update g rfl)

theorem LaneKeep.mlnHist (lk : LaneKeep P) (hn : n < 256) (k : Nat) (h : P s) : P (s.mlnHist n k) :=
  lk.toEventKeep.mlnHist (fun _ v => lk.report v (reportReg_hist hn)) k h

theorem LaneKeep.dropDet (lk : LaneKeep P) (hn : n < 256) (h : P s) : P (s.dropDet n) := by
  have hm : s.bondFirst n < 256 := Nat.lt_of_le_of_lt (bondFirst_le s n) hn
  exact lk.toEventKeep.setDet_zero (fun _ v => lk.report v (reportReg_hist hm))
    (lk.report _ (reportReg_detpid hm) (lk.report _ (reportReg_det hm) h))

end reports

/-- The bond has no descriptor. -/
theorem dropDet_det (s : State) {n : Nat} (hn : n < 256) :
    (s.dropDet n).fld (ML_DET (s.bondFirst n)) ML_DET_DESC = 0 := by
  have hm : s.bondFirst n < 256 := Nat.lt_of_le_of_lt (bondFirst_le s n) hn
  generalize hb : s.bondFirst n = m at hm
  have hkeep : EventKeep (fun t => t.fld (ML_DET m) ML_DET_DESC = 0) :=
    eventKeep_fld (by unfold EventReg ML_DET; omega) (.inl (by unfold NotStat ML_DET ML_STAT; omega))
  have hhist : ∀ (u : State) (v : Word), u.fld (ML_DET m) ML_DET_DESC = 0 →
      (u.wr (ML_HIST m) v).fld (ML_DET m) ML_DET_DESC = 0 := fun u v h => by
    rwa [State.fld, State.rd_wr_other _ _ (by simp [ML_DET, ML_HIST]), ← State.fld]
  rw [State.dropDet, hb]
  refine hkeep.setDet_zero hhist ?_
  rw [State.fld, State.rd_wr_other _ _ (by simp [ML_DET, ML_DETPID]), ← State.fld]
  exact State.fld_setFld _ _ _ _ (by decide)

/-- A field of a register that no event and no report writes. -/
theorem laneKeep_fld {a v : Nat} {f : Field} (ha : ¬EventReg a) (hr : ¬ReportReg a)
    (hf : NotStat a ∨ fieldsApart ML_STAT_TXIDLE f) : LaneKeep (fun t => t.fld a f = v) where
  toEventKeep := eventKeep_fld ha hf
  report {s b} w hb h := by
    have hab : a ≠ b := fun e => hr (e ▸ hb)
    rwa [State.fld, State.rd_wr_other s w hab, ← State.fld]

theorem laneKeep_sameCtrl (s : State) : LaneKeep (SameCtrl s) where
  toEventKeep := eventKeep_sameCtrl s
  report {t b} w hb h k hk := by
    rw [State.rd_wr_other t w, h k hk]
    unfold ReportReg at hb
    unfold ML_CTRL
    omega

/-- A bit of STAT that is not TXIDLE. -/
theorem laneKeep_statBit {n : Nat} (hn : n < 256) {f : Field} (b : Bool)
    (hf : ML_STAT_TXIDLE.lo + ML_STAT_TXIDLE.width ≤ f.lo ∨ f.lo + f.width ≤ ML_STAT_TXIDLE.lo) :
    LaneKeep (fun t => t.statBit n f = b) := by
  have ha : ¬EventReg (ML_STAT n) := by unfold EventReg ML_STAT; omega
  have hr : ¬ReportReg (ML_STAT n) := by unfold ReportReg ML_STAT; omega
  have hfld := fun v => laneKeep_fld (v := v) ha hr (f := f) (.inr hf)
  refine ⟨⟨fun he h => ?_, fun hk h => ?_⟩, fun v hw h => ?_⟩
  · rw [← h, State.statBit, State.bit, (hfld _).reads he rfl, State.statBit, State.bit]
  · rw [← h, State.statBit, State.bit, (hfld _).idle hk rfl, State.statBit, State.bit]
  · rw [← h, State.statBit, State.bit, (hfld _).report v hw rfl, State.statBit, State.bit]

/-- A counter of a lane. -/
def CounterReg (a : Nat) : Prop := 0xA00000 ≤ a ∧ a < 0xA40000 ∧ 0x40 ≤ a % 0x400

theorem laneKeep_counter {a v : Nat} {f : Field} (ha : CounterReg a) : LaneKeep (fun t => t.fld a f = v) := by
  unfold CounterReg at ha
  exact laneKeep_fld (by unfold EventReg; omega) (by unfold ReportReg; omega)
    (.inl (by unfold NotStat ML_STAT; omega))

/-! ## A long loss (R299, R309-R311) -/

/-- The link, its payload ID and its level are gone. -/
def State.clearLink (s : State) (n : Nat) : State :=
  let s := s.setBit (ML_STAT n) ML_STAT_HOLD false
  let s := s.setBit (ML_STAT n) ML_STAT_FRAMED false
  let s := if s.statBit n ML_STAT_LOCK then s else s.setFld (ML_STAT n) ML_STAT_RATE 0
  (s.pidBad n).setBit (ML_STAT n) ML_STAT_LEVELBIN false

theorem longLoss_eq (s : State) (n : Nat) :
    s.longLoss n = ((s.clearLink n).when (!(s.lane n).byLos) (fun s => s.mlnHist n 1)).dropDet n := rfl

theorem LaneKeep.longLoss {P : State → Prop} (lk : LaneKeep P) {s : State} {n : Nat} (hn : n < 256)
    (h : P (s.clearLink n)) : P (s.longLoss n) := by
  rw [longLoss_eq]
  exact lk.dropDet hn (when_keep P _ h fun _ => lk.mlnHist hn 1)

theorem clearLink_frame (s : State) (n : Nat) : Frame [ML_STAT n] [.mln] s (s.clearLink n) := by
  have hst : ML_STAT n ∈ [ML_STAT n] := List.mem_singleton_self _
  unfold State.clearLink State.pidBad
  extract_lets s1 s2 s3 s4
  have h2 : Frame [ML_STAT n] [.mln] s s2 := (Frame.refl.setBit _ _ hst).setBit _ _ hst
  have h3 : Frame [ML_STAT n] [.mln] s s3 := ite_keep (P := Frame [ML_STAT n] [.mln] s) h2 (h2.setFld _ _ hst)
  exact ((h3.setBit _ _ hst).setLane _ _ (by simp)).setBit _ _ hst

/-- What the long loss of lane `n` makes of `s`. -/
structure LongLost (n : Nat) (s t : State) : Prop where
  hold : t.statBit n ML_STAT_HOLD = false
  framed : t.statBit n ML_STAT_FRAMED = false
  lock : t.statBit n ML_STAT_LOCK = s.statBit n ML_STAT_LOCK
  det : t.fld (ML_DET (s.bondFirst n)) ML_DET_DESC = 0
  counter : ∀ {a : Nat} (f : Field), CounterReg a → t.fld a f = s.fld a f

theorem clearLink_statBit (s : State) (n : Nat) : (s.clearLink n).statBit n ML_STAT_HOLD = false
    ∧ (s.clearLink n).statBit n ML_STAT_FRAMED = false
    ∧ (s.clearLink n).statBit n ML_STAT_LOCK = s.statBit n ML_STAT_LOCK := by
  have hlane : ∀ (u : State) (x : LaneCtl) (f : Field), (u.setLane n x).statBit n f = u.statBit n f := fun _ _ _ => rfl
  dsimp only [State.clearLink, State.pidBad]
  split_ifs <;>
    simp (disch := decide) only [State.statBit_setBit_apart, State.statBit_setFld_apart, State.statBit_setBit, hlane,
      and_self]

theorem longLost_longLoss (s : State) {n : Nat} (hn : n < 256) : LongLost n s (s.longLoss n) := by
  obtain ⟨hhold, hframed, hlock⟩ := clearLink_statBit s n
  have hframe := clearLink_frame s n
  refine ⟨(laneKeep_statBit hn _ (by decide)).longLoss hn hhold, (laneKeep_statBit hn _ (by decide)).longLoss hn hframed,
    (laneKeep_statBit hn _ (by decide)).longLoss hn hlock, ?_, fun f ha => ?_⟩
  · have hctrl : SameCtrl s (s.clearLink n) := fun k _ =>
      hframe.1 _ (by simp only [List.mem_singleton, ML_STAT, ML_CTRL]; omega)
    have hwhen := when_keep (SameCtrl s) (!(s.lane n).byLos) hctrl fun _ => (laneKeep_sameCtrl s).mlnHist hn 1
    rw [longLoss_eq, ← hwhen.bondFirst hn]
    exact dropDet_det _ hn
  · refine (laneKeep_counter ha).longLoss hn (hframe.fld f ?_)
    unfold CounterReg at ha
    simp only [List.mem_singleton, ML_STAT]
    omega

end Sys2Proof.Machine
end

section
/-! PROOFS. How the loss of lock of a lane begins, what its loss of signal and of lock do, and the return of its signal (R299, R307-R311):
part of O40. -/

namespace Sys2Proof.Machine

open Sys2Proof

/-! ## What a command gives -/

/-- The command sets bit `k` of HIST of lane `n`, raises its source where HDGEN has it, and `P` holds before that event. -/
def Marks (c : Instr) (n k : Nat) (s : State) (P : State → Prop) : Prop :=
  ∃ t, Answers c s (if s.bit (ML_HDGEN n) ⟨k, 1⟩ then t.raise (if k ≤ 10 then k else 12) else t)
    ∧ t.bit (ML_HIST n) ⟨k, 1⟩ = true ∧ P t

theorem marks_of_mlnHist {c : Instr} {n k : Nat} {s t : State} {P : State → Prop} (h : exec c s = done s (t.mlnHist n k))
    (hgen : t.rd (ML_HDGEN n) = s.rd (ML_HDGEN n)) (hk : k < 32) (hP : P (t.setBit (ML_HIST n) ⟨k, 1⟩ true)) :
    Marks c n k s P := by
  refine ⟨t.setBit (ML_HIST n) ⟨k, 1⟩ true, ?_, State.bit_setBit _ _ _ _ hk Nat.one_pos, hP⟩
  have hread : (t.setBit (ML_HIST n) ⟨k, 1⟩ true).bit (ML_HDGEN n) ⟨k, 1⟩ = s.bit (ML_HDGEN n) ⟨k, 1⟩ := by
    rw [State.setBit, State.setFld, State.bit_wr_other _ _ (by simp [ML_HDGEN, ML_HIST]), State.bit, State.fld, hgen,
      State.bit, State.fld]
  rw [Answers, h, State.mlnHist, State.when, hread]
  rfl

/-- The command changes nothing. -/
theorem gives_unchanged {c : Instr} {s t : State} (h : exec c s = done s t) (ht : t = s) : Gives c s (OnlyRegs [] s) :=
  gives_nothing (ht ▸ h)

theorem Frame.sameCtrl {l : List Nat} {p : List Part} {s t : State} (h : Frame l p s t) (hl : ∀ a ∈ l, a % 0x400 ≠ 0) :
    SameCtrl s t := fun k _ => h.1 _ fun hm => hl _ hm (by unfold ML_CTRL; omega)

theorem stat_not_ctrl (n : Nat) : ML_STAT n % 0x400 ≠ 0 := by unfold ML_STAT; omega

/-- An update of STAT alone leaves the mode. -/
theorem laneMode_setStat (s : State) {n : Nat} (hn : n < 256) (f : Field) (b : Bool) :
    (s.setBit (ML_STAT n) f b).laneMode n = s.laneMode n :=
  SameCtrl.laneMode ((Frame.refl (p := []).setBit f b (List.mem_singleton_self _)).sameCtrl
    (by simpa using stat_not_ctrl n)) hn

/-! ## A loss of lock begins (R310) -/

/-- The flywheel runs, and the loss counts. -/
def State.flywheel (s : State) (n : Nat) : State :=
  ((s.setLane n { s.lane n with byLos := false }).setBit (ML_STAT n) ML_STAT_HOLD true).inc (ML_LOLCNT n)
    ML_LOLCNT_COUNT

theorem flywheel_frame (s : State) (n : Nat) : Frame [ML_STAT n, ML_LOLCNT n] [.mln] s (s.flywheel n) :=
  ((Frame.refl.setLane _ _ (by simp)).setBit _ _ (by simp)).inc _ (by simp)

theorem flywheel_sameCtrl (s : State) (n : Nat) : SameCtrl s (s.flywheel n) :=
  (flywheel_frame s n).sameCtrl (by simpa [ML_LOLCNT] using stat_not_ctrl n)

theorem flywheel_statBit (s : State) (n : Nat) {f : Field} (hf : f.lo + f.width ≤ 7 ∨ 8 ≤ f.lo) :
    (s.flywheel n).statBit n f = s.statBit n f :=
  (State.bit_wr_other _ _ (by simp [ML_STAT, ML_LOLCNT])).trans
    (State.statBit_setBit_apart _ _ _ (by decide) hf.symm)

theorem flywheel_hold (s : State) (n : Nat) : (s.flywheel n).statBit n ML_STAT_HOLD = true :=
  (State.bit_wr_other _ _ (by simp [ML_STAT, ML_LOLCNT])).trans
    (State.statBit_setBit _ _ _ (by decide) (by decide))

theorem flywheel_count (s : State) (n : Nat) : (s.flywheel n).fld (ML_LOLCNT n) ML_LOLCNT_COUNT
    = min (s.fld (ML_LOLCNT n) ML_LOLCNT_COUNT + 1) (2 ^ 32 - 1) := by
  refine (State.fld_incBy _ _ _ _ (by decide)).trans ?_
  rw [State.setBit, State.fld_setFld_other _ _ _ _ (by simp [ML_LOLCNT, ML_STAT])]
  rfl

/-- The loss has begun; on a bond it takes the descriptor at once (R306). -/
def State.lossBegun (s : State) (n : Nat) : State :=
  (s.flywheel n).when ((s.flywheel n).bondAt n != 0) (fun s => s.dropDet n)

theorem beginLoss_eq (s : State) (n : Nat) (long : Bool) : s.beginLoss n false long =
    if long || !(s.lossBegun n).statBit n ML_STAT_FRAMED || (s.lossBegun n).fld MLN_CTRL MLN_CTRL_LOLHOLD == 0 then
      (s.lossBegun n).longLoss n else s.lossBegun n := rfl

theorem LaneKeep.lossBegun {P : State → Prop} (lk : LaneKeep P) {s : State} {n : Nat} (hn : n < 256)
    (h : P (s.flywheel n)) : P (s.lossBegun n) := when_keep P _ h fun _ => lk.dropDet hn

/-- The loss of a framed single lane only starts the flywheel. -/
theorem beginLoss_short {s : State} {n : Nat} (hn : n < 256) (hbond : s.bondAt n = 0)
    (hframed : s.statBit n ML_STAT_FRAMED = true) (hhold : s.fld MLN_CTRL MLN_CTRL_LOLHOLD ≠ 0) :
    s.beginLoss n false false = s.flywheel n := by
  have hbegun : s.lossBegun n = s.flywheel n := by
    rw [State.lossBegun, (flywheel_sameCtrl s n).bondAt hn, hbond]
    rfl
  have hfly : (s.flywheel n).fld MLN_CTRL MLN_CTRL_LOLHOLD ≠ 0 := by
    have hout : MLN_CTRL ∉ [ML_STAT n, ML_LOLCNT n] := by simp [MLN_CTRL, ML_STAT, ML_LOLCNT]; omega
    rwa [(flywheel_frame s n).fld _ hout]
  rw [beginLoss_eq, hbegun, flywheel_statBit s n (by decide), hframed]
  simp [hfly]

/-- A structure that has changed is a long loss at once. -/
theorem longLost_beginLoss (s : State) {n : Nat} (hn : n < 256) : LongLost n (s.flywheel n) (s.beginLoss n false true) := by
  obtain ⟨hhold, hframed, hlock, hdet, hcounter⟩ := longLost_longLoss (s.lossBegun n) hn
  have hctrl : SameCtrl (s.flywheel n) (s.lossBegun n) := (laneKeep_sameCtrl _).lossBegun hn fun _ _ => rfl
  rw [beginLoss_eq, Bool.true_or, Bool.true_or, if_pos rfl]
  exact ⟨hhold, hframed, hlock.trans ((laneKeep_statBit hn _ (by decide)).lossBegun hn rfl), hctrl.bondFirst hn ▸ hdet,
    fun f ha => (hcounter f ha).trans ((laneKeep_counter ha).lossBegun hn rfl)⟩

/-! ## Loss and return of the signal (R307, R308) -/

section los

variable {n : Lane} {s : State}

theorem gives_losSet_nothing (h : s.statBit n ML_STAT_LOS = true ∨ s.laneRx n = false) :
    Gives (.losSet n) s (OnlyRegs [] s) :=
  gives_unchanged (t := opLosSet n s) rfl (if_pos (by simpa using h))

/-- LOS is set, counted and reported. -/
def State.losSeen (s : State) (n : Nat) : State := (s.setBit (ML_STAT n) ML_STAT_LOS true).inc (ML_LOSCNT n) ML_LOSCNT_COUNT

theorem losSeen_frame (s : State) (n : Nat) : Frame [ML_STAT n, ML_LOSCNT n] [] s (s.losSeen n) :=
  (Frame.refl.setBit _ _ (by simp)).inc _ (by simp)

theorem losSeen_statBit (s : State) (n : Nat) {f : Field} (hf : 1 ≤ f.lo) :
    (s.losSeen n).statBit n f = s.statBit n f :=
  (State.bit_wr_other _ _ (by simp [ML_STAT, ML_LOSCNT])).trans (State.statBit_setBit_apart _ _ _ (by decide) (.inl hf))

/-- An unlocked single lane has nothing else to lose. -/
theorem opLosSet_unlocked (hlos : s.statBit n ML_STAT_LOS = false) (hrx : s.laneRx n = true)
    (hlock : s.statBit n ML_STAT_LOCK = false) (hbond : s.bondAt n = 0) :
    opLosSet n s = (s.losSeen n).mlnHist n 0 := by
  have hfree : ((s.losSeen n).mlnHist n 0).statBit n ML_STAT_LOCK = false :=
    (laneKeep_statBit n.isLt _ (by decide)).mlnHist n.isLt 0 ((losSeen_statBit s n (by decide)).trans hlock)
  have hctrl : SameCtrl s ((s.losSeen n).mlnHist n 0) := (laneKeep_sameCtrl s).mlnHist n.isLt 0
    ((losSeen_frame s n).sameCtrl (by simpa [ML_LOSCNT] using stat_not_ctrl n))
  have hsingle := (hctrl.bondAt n.isLt).trans hbond
  unfold opLosSet
  rw [if_neg (by simp [hlos, hrx])]
  extract_lets s1 s2
  have hs2 : s2 = (s.losSeen n).mlnHist n 0 := rfl
  rw [hs2, if_neg (by simp [hfree]), if_neg (by simp [hsingle])]

theorem marks_losSet (hlos : s.statBit n ML_STAT_LOS = false) (hrx : s.laneRx n = true)
    (hlock : s.statBit n ML_STAT_LOCK = false) (hbond : s.bondAt n = 0) :
    Marks (.losSet n) n 0 s (fun u => u.statBit n ML_STAT_LOS = true
      ∧ u.fld (ML_LOSCNT n) ⟨0, 32⟩ = min (s.fld (ML_LOSCNT n) ⟨0, 32⟩ + 1) (2 ^ 32 - 1)
      ∧ OnlyRegs [ML_STAT n, ML_LOSCNT n, ML_HIST n] s u) := by
  have hframe := losSeen_frame s n
  refine marks_of_mlnHist (t := s.losSeen n) (congrArg (done s) (opLosSet_unlocked hlos hrx hlock hbond))
    (hframe.1 _ (by simp [ML_HDGEN, ML_STAT, ML_LOSCNT])) (by decide) ⟨?_, ?_, ?_⟩
  · refine (State.bit_wr_other _ _ (by simp [ML_STAT, ML_HIST])).trans ?_
    exact (State.bit_wr_other _ _ (by simp [ML_STAT, ML_LOSCNT])).trans
      (State.statBit_setBit _ _ _ (by decide) (by decide))
  · rw [State.setBit, State.fld_setFld_other _ _ _ _ (by simp [ML_LOSCNT, ML_HIST])]
    refine (State.fld_incBy _ _ _ _ (by decide)).trans ?_
    rw [State.setBit, State.fld_setFld_other _ _ _ _ (by simp [ML_LOSCNT, ML_STAT])]
    rfl
  · exact (hframe.mono (by simp) (by simp)).setBit _ _ (by simp)

theorem gives_losClear_nothing (h : s.statBit n ML_STAT_LOS = false ∨ s.laneRx n = false) :
    Gives (.losClear n) s (OnlyRegs [] s) :=
  gives_unchanged (t := opLosClear n s) rfl (if_pos (by simpa using h))

/-- Clearing LOS does not touch how the equaliser adapts. -/
theorem losCleared_adapt (s : State) (n : Nat) : (s.setBit (ML_STAT n) ML_STAT_LOS false).fld (ML_RXCFG n) ML_RXCFG_ADAPT
    = s.fld (ML_RXCFG n) ML_RXCFG_ADAPT := State.fld_setFld_other _ _ _ _ (by simp [ML_RXCFG, ML_STAT])

/-- LOS is clear, and a code of the equaliser has been drawn (log entry 29). -/
def State.eqDrawn (s : State) (n : Nat) : Nat × State := (s.setBit (ML_STAT n) ML_STAT_LOS false).freshPick 49

theorem eqDrawn_lt (s : State) (n : Nat) : (s.eqDrawn n).1 < 49 := Nat.mod_lt _ (by decide)

theorem eqDrawn_los (s : State) (n : Nat) : (s.eqDrawn n).2.statBit n ML_STAT_LOS = false :=
  State.statBit_setBit s n _ (by decide) (by decide)

theorem eqDrawn_frame (s : State) (n : Nat) : Frame [ML_STAT n] [.mln] s (s.eqDrawn n).2 :=
  (Frame.refl.setBit ML_STAT_LOS false (by simp)).update rfl rfl fun q _ => by
    cases q <;> simp [Part.Same, State.eqDrawn, State.freshPick]

variable (hlos : s.statBit n ML_STAT_LOS = true) (hrx : s.laneRx n = true)

include hlos hrx

theorem gives_losClear_fixed (h : s.fld (ML_RXCFG n) ML_RXCFG_ADAPT = 0) :
    Gives (.losClear n) s (fun u => u.statBit n ML_STAT_LOS = false
      ∧ u.fld (ML_STAT n) ML_STAT_EQVAL = min 48 (s.fld (ML_RXCFG n) ML_RXCFG_PEAK) ∧ OnlyRegs [ML_STAT n] s u) := by
  have hop : opLosClear n s = (s.setBit (ML_STAT n) ML_STAT_LOS false).setFld (ML_STAT n) ML_STAT_EQVAL
      (min 48 (s.fld (ML_RXCFG n) ML_RXCFG_PEAK)) := by
    unfold opLosClear
    rw [if_neg (by simp [hlos, hrx])]
    dsimp only
    rw [if_pos ((losCleared_adapt s n).trans h), State.setBit,
      State.fld_setFld_other _ _ _ _ (by simp [ML_RXCFG, ML_STAT])]
  refine gives_told (congrArg (done s) hop) fun u hu => ⟨?_, ?_, hu.frame ?_⟩
  · rw [hu.statBit, State.statBit_setFld_apart _ _ _ (by decide) (by decide),
      State.statBit_setBit _ _ _ (by decide) (by decide)]
  · rw [hu.fld, State.fld_setFld _ _ _ _ (by decide)]
    exact Nat.mod_eq_of_lt (by simp only [ML_STAT_EQVAL]; omega)
  · exact (Frame.refl.setBit _ _ (by simp)).setFld _ _ (by simp)

theorem gives_losClear_adapting (h : s.fld (ML_RXCFG n) ML_RXCFG_ADAPT ≠ 0) :
    Gives (.losClear n) s (fun u => u.statBit n ML_STAT_LOS = false ∧ u.fld (ML_STAT n) ML_STAT_EQVAL ≤ 48
      ∧ u.lane n = { s.lane n with eqAt := s.now } ∧ Frame [ML_STAT n] [.mln] s u) := by
  have hop : opLosClear n s = ((s.eqDrawn n).2.setLane n { s.lane n with eqAt := s.now }).setFld (ML_STAT n)
      ML_STAT_EQVAL (s.eqDrawn n).1 := by
    unfold opLosClear
    rw [if_neg (by simp [hlos, hrx])]
    dsimp only
    rw [if_neg (fun e => h ((losCleared_adapt s n).symm.trans e))]
    rfl
  refine gives_told (congrArg (done s) hop) fun u hu => ⟨?_, ?_, ?_, hu.frame ?_⟩
  · rw [hu.statBit, State.statBit_setFld_apart _ _ _ (by decide) (by decide)]
    exact eqDrawn_los s n
  · rw [hu.fld, State.fld_setFld _ _ _ _ (by decide)]
    exact (Nat.mod_le _ _).trans (Nat.le_of_lt_succ (eqDrawn_lt s n))
  · rw [hu.lane]
    exact State.lane_setLane (s.eqDrawn n).2 n _
  · exact ((eqDrawn_frame s n).setLane _ _ (by simp)).setFld _ _ (by simp)

end los

end Sys2Proof.Machine
end

section
/-! PROOFS. The lock of a lane, its loss, and the end of the flywheel (R299, R300, R306, R309-R311): part of O40. -/

namespace Sys2Proof.Machine

open Sys2Proof

section lock

variable {n : Lane} {s : State}

/-! ## The CDR locks, and the lane is framed (R300, R309) -/

theorem gives_cdrLock_nothing {r : Fin 12} (h : (s.laneRx n && !s.statBit n ML_STAT_LOS && s.pllUp n
    && rateAllowed (s.laneMode n) (s.fld (ML_CTRL (s.bondFirst n)) ML_CTRL_RXRATE) r) = false) :
    Gives (.cdrLock n r) s (OnlyRegs [] s) :=
  gives_unchanged (t := opCdrLock n r s) rfl (if_neg (by simp [h]))

theorem gives_cdrLock {r : Fin 12} (h : (s.laneRx n && !s.statBit n ML_STAT_LOS && s.pllUp n
    && rateAllowed (s.laneMode n) (s.fld (ML_CTRL (s.bondFirst n)) ML_CTRL_RXRATE) r) = true) :
    Gives (.cdrLock n r) s (fun u => u.statBit n ML_STAT_LOCK = true ∧ u.fld (ML_STAT n) ML_STAT_RATE = r.val
      ∧ OnlyRegs [ML_STAT n] s u) := by
  refine gives_told (congrArg (done s) (if_pos h)) fun u hu => ⟨?_, ?_, hu.frame ?_⟩
  · rw [hu.statBit, State.statBit_setFld_apart _ _ _ (by decide) (by decide)]
    exact State.statBit_setBit _ _ _ (by decide) (by decide)
  · rw [hu.fld, State.fld_setFld _ _ _ _ (by decide)]
    exact Nat.mod_eq_of_lt (Nat.lt_of_lt_of_le r.isLt (by decide))
  · exact (Frame.refl.setBit _ _ (by simp)).setFld _ _ (by simp)

theorem gives_framed_nothing (h : s.laneMode n ≠ 1 ∨ s.statBit n ML_STAT_LOCK = false ∨ s.statBit n ML_STAT_HOLD = true) :
    Gives (.framed n) s (OnlyRegs [] s) :=
  gives_unchanged (t := opFramed n s) rfl (if_neg (by
    simp only [Bool.and_eq_true, decide_eq_true_eq, Bool.not_eq_true', not_and, Bool.not_eq_false]
    rintro ⟨hmode, hlock⟩
    simpa [hmode, hlock] using h))

theorem gives_framed (hmode : s.laneMode n = 1) (hlock : s.statBit n ML_STAT_LOCK = true)
    (hhold : s.statBit n ML_STAT_HOLD = false) :
    Gives (.framed n) s (fun u => u.statBit n ML_STAT_FRAMED = true ∧ OnlyRegs [ML_STAT n] s u) :=
  gives_told (congrArg (done s) (if_pos (by simp [hmode, hlock, hhold]))) fun u hu =>
    ⟨(hu.statBit ..).trans (State.statBit_setBit _ _ _ (by decide) (by decide)),
      hu.frame (Frame.refl.setBit _ _ (by simp))⟩

/-! ## Loss of lock (R309, R310) -/

/-- The CDR has lost lock. -/
def State.cdrLost (s : State) (n : Nat) : State := s.setBit (ML_STAT n) ML_STAT_LOCK false

theorem cdrLost_frame (s : State) (n : Nat) : Frame [ML_STAT n] [] s (s.cdrLost n) := Frame.refl.setBit _ _ (by simp)

theorem cdrLost_lock (s : State) (n : Nat) : (s.cdrLost n).statBit n ML_STAT_LOCK = false :=
  State.statBit_setBit _ _ _ (by decide) (by decide)

theorem cdrLost_statBit (s : State) (n : Nat) {f : Field} (hf : 2 ≤ f.lo) :
    (s.cdrLost n).statBit n f = s.statBit n f := State.statBit_setBit_apart _ _ _ (by decide) (.inl hf)

theorem cdrLost_sameCtrl (s : State) (n : Nat) : SameCtrl s (s.cdrLost n) :=
  (cdrLost_frame s n).sameCtrl (by simpa using stat_not_ctrl n)

theorem opLossOfLock_unlocked (c : LockLoss) (hlock : s.statBit n ML_STAT_LOCK = false)
    (hhold : s.statBit n ML_STAT_HOLD = false) : opLossOfLock n c s = s := if_pos (by simp [hlock, hhold])

/-- A lane that has lock, or whose flywheel runs, is not passed over. -/
theorem lossOfLock_matters (h : s.statBit n ML_STAT_LOCK = true ∨ s.statBit n ML_STAT_HOLD = true) :
    ¬(!s.statBit n ML_STAT_LOCK && !s.statBit n ML_STAT_HOLD) = true := by
  rcases h with h | h <;> simp [h]

/-- Outside SDI mode only the CDR counts (log entry 29). -/
theorem opLossOfLock_network {c : LockLoss} (hmode : s.laneMode n ≠ 1) (hc : c ≠ .cdr) : opLossOfLock n c s = s := by
  unfold opLossOfLock
  simp [beq_false_of_ne hc, State.when, hmode]

theorem opLossOfLock_network_cdr (hmode : s.laneMode n ≠ 1) (hlock : s.statBit n ML_STAT_LOCK = true) :
    opLossOfLock n .cdr s = (s.cdrLost n).setFld (ML_STAT n) ML_STAT_RATE 0 := by
  have hmode' : (s.cdrLost n).laneMode n ≠ 1 := by rwa [(cdrLost_sameCtrl s n).laneMode n.isLt]
  exact (if_neg (lossOfLock_matters (.inl hlock))).trans (if_pos hmode')

section sdi

variable (hmode : s.laneMode n = 1)

include hmode

/-- While the flywheel runs, a missing EAV is what it fills. -/
theorem opLossOfLock_held_eav (hhold : s.statBit n ML_STAT_HOLD = true) : opLossOfLock n .eav s = s :=
  (if_neg (lossOfLock_matters (.inr hhold))).trans ((if_neg (not_not_intro hmode)).trans (if_pos hhold))

theorem opLossOfLock_held_cdr (hhold : s.statBit n ML_STAT_HOLD = true) : opLossOfLock n .cdr s = s.cdrLost n := by
  have hmode' : ¬(s.cdrLost n).laneMode n ≠ 1 := by simp [(cdrLost_sameCtrl s n).laneMode n.isLt, hmode]
  exact (if_neg (lossOfLock_matters (.inr hhold))).trans ((if_neg hmode').trans (if_pos hhold))

theorem opLossOfLock_held_changed (l : Nat) (hhold : s.statBit n ML_STAT_HOLD = true) :
    opLossOfLock n (.changed l) s = (s.incBy (ML_FILLLN n) ML_FILLLN_COUNT l).longLoss n :=
  (if_neg (lossOfLock_matters (.inr hhold))).trans ((if_neg (not_not_intro hmode)).trans (if_pos hhold))

variable (hlock : s.statBit n ML_STAT_LOCK = true) (hhold : s.statBit n ML_STAT_HOLD = false)

include hlock hhold

theorem opLossOfLock_eav : opLossOfLock n .eav s = s.beginLoss n false false :=
  (if_neg (lossOfLock_matters (.inl hlock))).trans ((if_neg (not_not_intro hmode)).trans (if_neg (by simp [hhold])))

theorem opLossOfLock_cdr : opLossOfLock n .cdr s = (s.cdrLost n).beginLoss n false false := by
  have hmode' : ¬(s.cdrLost n).laneMode n ≠ 1 := by simp [(cdrLost_sameCtrl s n).laneMode n.isLt, hmode]
  exact (if_neg (lossOfLock_matters (.inl hlock))).trans ((if_neg hmode').trans (if_neg (by simp [hhold])))

theorem opLossOfLock_changed (l : Nat) : opLossOfLock n (.changed l) s = s.beginLoss n false true :=
  (if_neg (lossOfLock_matters (.inl hlock))).trans ((if_neg (not_not_intro hmode)).trans (if_neg (by simp [hhold])))

end sdi

theorem gives_lossOfLock_nothing {c : LockLoss} (h : (s.statBit n ML_STAT_LOCK = false ∧ s.statBit n ML_STAT_HOLD = false)
    ∨ (s.laneMode n ≠ 1 ∧ c ≠ .cdr)) : Gives (.lossOfLock n c) s (OnlyRegs [] s) := by
  refine gives_unchanged (t := opLossOfLock n c s) rfl ?_
  obtain ⟨hlock, hhold⟩ | ⟨hmode, hc⟩ := h
  · exact opLossOfLock_unlocked c hlock hhold
  · exact opLossOfLock_network hmode hc

theorem gives_lossOfLock_network (hmode : s.laneMode n ≠ 1) (hlock : s.statBit n ML_STAT_LOCK = true) :
    Gives (.lossOfLock n .cdr) s (fun u => u.statBit n ML_STAT_LOCK = false ∧ u.fld (ML_STAT n) ML_STAT_RATE = 0
      ∧ OnlyRegs [ML_STAT n] s u) := by
  refine gives_told (congrArg (done s) (opLossOfLock_network_cdr hmode hlock)) fun u hu =>
    ⟨?_, (hu.fld ..).trans (State.fld_setFld _ _ _ _ (by decide)), hu.frame ((cdrLost_frame s n).setFld _ _ (by simp))⟩
  rw [hu.statBit, State.statBit_setFld_apart _ _ _ (by decide) (by decide)]
  exact cdrLost_lock s n

theorem gives_lossOfLock_held_cdr (hmode : s.laneMode n = 1) (hhold : s.statBit n ML_STAT_HOLD = true) :
    Gives (.lossOfLock n .cdr) s (fun u => u.statBit n ML_STAT_LOCK = false ∧ u.statBit n ML_STAT_HOLD = true
      ∧ OnlyRegs [ML_STAT n] s u) :=
  gives_told (congrArg (done s) (opLossOfLock_held_cdr hmode hhold)) fun u hu =>
    ⟨(hu.statBit ..).trans (cdrLost_lock s n),
      (hu.statBit ..).trans ((cdrLost_statBit s n (by decide)).trans hhold), hu.frame (cdrLost_frame s n)⟩

/-! ## A long loss ends the flywheel (R310) -/

/-- The lines that the flywheel has filled are counted. -/
def State.filled (s : State) (n l : Nat) : State := s.incBy (ML_FILLLN n) ML_FILLLN_COUNT l

theorem filled_frame (s : State) (n l : Nat) : Frame [ML_FILLLN n] [] s (s.filled n l) := Frame.refl.incBy _ _ (by simp)

theorem filled_statBit (s : State) (n l : Nat) (f : Field) : (s.filled n l).statBit n f = s.statBit n f :=
  (filled_frame s n l).bit f (by simp [ML_STAT, ML_FILLLN])

theorem filled_bondFirst (s : State) {n : Nat} (hn : n < 256) (l : Nat) : (s.filled n l).bondFirst n = s.bondFirst n :=
  ((filled_frame s n l).sameCtrl (by simp [ML_FILLLN])).bondFirst hn

theorem filled_count (s : State) (n l : Nat) : (s.filled n l).fld (ML_FILLLN n) ML_FILLLN_COUNT
    = min (s.fld (ML_FILLLN n) ML_FILLLN_COUNT + l) (2 ^ ML_FILLLN_COUNT.width - 1) :=
  State.fld_incBy _ _ _ _ (by decide)

theorem counterReg_fillln {n : Nat} (hn : n < 256) : CounterReg (ML_FILLLN n) := by unfold CounterReg ML_FILLLN; omega

theorem counterReg_lolcnt {n : Nat} (hn : n < 256) : CounterReg (ML_LOLCNT n) := by unfold CounterReg ML_LOLCNT; omega

/-- A command that fills `l` lines and makes the loss a long one. -/
theorem gives_filledLoss {c : Instr} {l : Nat} (h : exec c s = done s ((s.filled n l).longLoss n)) :
    Gives c s (fun u => u.statBit n ML_STAT_HOLD = false ∧ u.statBit n ML_STAT_FRAMED = false
      ∧ u.statBit n ML_STAT_LOCK = s.statBit n ML_STAT_LOCK ∧ u.fld (ML_DET (s.bondFirst n)) ML_DET_DESC = 0
      ∧ u.fld (ML_FILLLN n) ML_FILLLN_COUNT
        = min (s.fld (ML_FILLLN n) ML_FILLLN_COUNT + l) (2 ^ ML_FILLLN_COUNT.width - 1)) := by
  obtain ⟨hhold, hframed, hlock, hdet, hcounter⟩ := longLost_longLoss (s.filled n l) n.isLt
  rw [filled_statBit] at hlock
  rw [filled_bondFirst s n.isLt] at hdet
  have hcount := (hcounter ML_FILLLN_COUNT (counterReg_fillln n.isLt)).trans (filled_count s n l)
  exact gives_told h fun u hu => ⟨(hu.statBit ..).trans hhold, (hu.statBit ..).trans hframed, (hu.statBit ..).trans hlock,
    (hu.fld ..).trans hdet, (hu.fld ..).trans hcount⟩

/-! ## The loss of a lane that had lock -/

/-- The flywheel starts. -/
theorem gives_lossOfLock_short {c : LockLoss} (hc : c = .cdr ∨ c = .eav) (hmode : s.laneMode n = 1)
    (hlock : s.statBit n ML_STAT_LOCK = true) (hhold : s.statBit n ML_STAT_HOLD = false)
    (hframed : s.statBit n ML_STAT_FRAMED = true) (hbond : s.bondAt n = 0) (hlol : s.fld MLN_CTRL MLN_CTRL_LOLHOLD ≠ 0) :
    Gives (.lossOfLock n c) s (fun u => u.statBit n ML_STAT_LOCK = (c == .eav) ∧ u.statBit n ML_STAT_HOLD = true
      ∧ u.statBit n ML_STAT_FRAMED = true
      ∧ u.fld (ML_LOLCNT n) ⟨0, 32⟩ = min (s.fld (ML_LOLCNT n) ⟨0, 32⟩ + 1) (2 ^ 32 - 1)
      ∧ u.lane n = { s.lane n with byLos := false } ∧ Frame [ML_STAT n, ML_LOLCNT n] [.mln] s u) := by
  obtain ⟨w, hw, hop, hwlock⟩ : ∃ w : State, Frame [ML_STAT n] [] s w ∧ opLossOfLock n c s = w.beginLoss n false false
      ∧ w.statBit n ML_STAT_LOCK = (c == .eav) ∧ w.statBit n ML_STAT_FRAMED = true ∧ w.lane n = s.lane n := by
    obtain rfl | rfl := hc
    · exact ⟨s.cdrLost n, cdrLost_frame s n, opLossOfLock_cdr hmode hlock hhold, cdrLost_lock s n,
        (cdrLost_statBit s n (by decide)).trans hframed, rfl⟩
    · exact ⟨s, Frame.refl, opLossOfLock_eav hmode hlock hhold, hlock, hframed, rfl⟩
  obtain ⟨hwlock, hwframed, hwlane⟩ := hwlock
  have hwbond : w.bondAt n = 0 := ((hw.sameCtrl (by simpa using stat_not_ctrl n)).bondAt n.isLt).trans hbond
  have hwlol : w.fld MLN_CTRL MLN_CTRL_LOLHOLD ≠ 0 := by
    rwa [hw.fld]
    simp [MLN_CTRL, ML_STAT]
    omega
  rw [beginLoss_short n.isLt hwbond hwframed hwlol] at hop
  refine gives_told (congrArg (done s) hop) fun u hu => ⟨?_, ?_, ?_, ?_, ?_, hu.frame ?_⟩
  · rw [hu.statBit, flywheel_statBit w n (by decide), hwlock]
  · rw [hu.statBit, flywheel_hold]
  · rw [hu.statBit, flywheel_statBit w n (by decide), hwframed]
  · rw [hu.fld, ← hw.fld (a := ML_LOLCNT n) _ (by simp [ML_LOLCNT, ML_STAT])]
    exact flywheel_count w n
  · rw [hu.lane, ← hwlane]
    exact State.lane_setLane ..
  · exact (hw.mono (by simp) (by simp)).trans (flywheel_frame w n)

/-- A structure that has changed counts as a loss and is a long one at once. -/
theorem gives_lossOfLock_changed (l : Nat) (hmode : s.laneMode n = 1) (hlock : s.statBit n ML_STAT_LOCK = true)
    (hhold : s.statBit n ML_STAT_HOLD = false) :
    Gives (.lossOfLock n (.changed l)) s (fun u => u.statBit n ML_STAT_LOCK = true ∧ u.statBit n ML_STAT_HOLD = false
      ∧ u.statBit n ML_STAT_FRAMED = false ∧ u.fld (ML_DET (s.bondFirst n)) ML_DET_DESC = 0
      ∧ u.fld (ML_LOLCNT n) ⟨0, 32⟩ = min (s.fld (ML_LOLCNT n) ⟨0, 32⟩ + 1) (2 ^ 32 - 1)) := by
  obtain ⟨hends, hframed, hkept, hdet, hcounter⟩ := longLost_beginLoss s n.isLt
  rw [(flywheel_sameCtrl s n).bondFirst n.isLt] at hdet
  have hcount := (hcounter ML_LOLCNT_COUNT (counterReg_lolcnt n.isLt)).trans (flywheel_count s n)
  refine gives_told (congrArg (done s) (opLossOfLock_changed hmode hlock hhold l)) fun u hu =>
    ⟨?_, (hu.statBit ..).trans hends, (hu.statBit ..).trans hframed, (hu.fld ..).trans hdet, (hu.fld ..).trans hcount⟩
  rw [hu.statBit, hkept, flywheel_statBit s n (by decide), hlock]

/-! ## LOLHOLD expires, or the EAV returns (R310) -/

theorem gives_lolhold_nothing (l : Nat) (h : s.statBit n ML_STAT_HOLD = false) :
    Gives (.lolholdExpiry n l) s (OnlyRegs [] s) :=
  gives_unchanged (t := opLolhold n l s) rfl (if_neg (by simp [h]))

theorem gives_lolshort_nothing (l f : Nat) (h : s.statBit n ML_STAT_HOLD = false) :
    Gives (.lolshort n l f) s (OnlyRegs [] s) :=
  gives_unchanged (t := opLolshort n l f s) rfl (if_neg (by simp [h]))

theorem exec_lolholdExpiry (l : Nat) (h : s.statBit n ML_STAT_HOLD = true) :
    exec (.lolholdExpiry n l) s = done s ((s.filled n l).longLoss n) := congrArg (done s) (if_pos h)

/-- The flywheel has met the EAV: the lane is locked and framed again. -/
def State.eavReturned (s : State) (n l : Nat) : State :=
  (((s.filled n l).setBit (ML_STAT n) ML_STAT_HOLD false).setBit (ML_STAT n) ML_STAT_LOCK true).setBit (ML_STAT n)
    ML_STAT_FRAMED true

theorem eavReturned_frame (s : State) (n l : Nat) : Frame [ML_STAT n, ML_FILLLN n] [] s (s.eavReturned n l) :=
  ((((filled_frame s n l).mono (by simp) (by simp)).setBit _ _ (by simp)).setBit _ _ (by simp)).setBit _ _ (by simp)

/-- What a short loss leaves of STAT and FILLLN. -/
def EavReturned (s : State) (n l : Nat) (u : State) : Prop :=
  u.statBit n ML_STAT_HOLD = false ∧ u.statBit n ML_STAT_LOCK = true ∧ u.statBit n ML_STAT_FRAMED = true
    ∧ u.fld (ML_FILLLN n) ML_FILLLN_COUNT
      = min (s.fld (ML_FILLLN n) ML_FILLLN_COUNT + l) (2 ^ ML_FILLLN_COUNT.width - 1)

theorem eavReturned_spec (s : State) (n l : Nat) : EavReturned s n l (s.eavReturned n l) := by
  unfold State.eavReturned
  refine ⟨?_, ?_, ?_, ?_⟩
  · simp (disch := decide) only [State.statBit_setBit_apart, State.statBit_setBit]
  · simp (disch := decide) only [State.statBit_setBit_apart, State.statBit_setBit]
  · simp (disch := decide) only [State.statBit_setBit]
  · simp only [State.setBit, State.fld_setFld_other _ _ _ _ (show ML_FILLLN n ≠ ML_STAT n by simp [ML_FILLLN, ML_STAT])]
    exact filled_count s n l

theorem EavReturned.read {l : Nat} {t u : State} (h : EavReturned s n l t) {k : List Nat} {p : List Part}
    (hf : Frame k p t u) (hst : ML_STAT n ∉ k) (hfill : ML_FILLLN n ∉ k) : EavReturned s n l u := by
  obtain ⟨hhold, hlock, hframed, hfilled⟩ := h
  exact ⟨(hf.bit _ hst).trans hhold, (hf.bit _ hst).trans hlock, (hf.bit _ hst).trans hframed, (hf.fld _ hfill).trans hfilled⟩

section returns

variable {l f : Nat} (hhold : s.statBit n ML_STAT_HOLD = true) (hlos : s.statBit n ML_STAT_LOS = false)

include hhold hlos

theorem opLolshort_eq : opLolshort n l f s = (s.eavReturned n l).when (!(s.lane n).byLos)
    (fun s => (s.incBy (ML_ERRFRM n) ML_ERRFRM_COUNT f).mlnHist n 2) := if_pos (by simp [hhold, hlos])

theorem gives_lolshort_byLos (h : (s.lane n).byLos = true) :
    Gives (.lolshort n l f) s (fun u => EavReturned s n l u ∧ OnlyRegs [ML_STAT n, ML_FILLLN n] s u) := by
  have hop : opLolshort n l f s = s.eavReturned n l := by
    rw [opLolshort_eq hhold hlos, h]
    rfl
  exact gives_told (congrArg (done s) hop) fun u hu =>
    ⟨(eavReturned_spec s n l).read (hu.signalled.frame (l := []) (p := [])) (by simp) (by simp),
      hu.frame (eavReturned_frame s n l)⟩

theorem marks_lolshort (h : (s.lane n).byLos = false) : Marks (.lolshort n l f) n 2 s (fun u => EavReturned s n l u
    ∧ u.fld (ML_ERRFRM n) ML_ERRFRM_COUNT
      = min (s.fld (ML_ERRFRM n) ML_ERRFRM_COUNT + f) (2 ^ ML_ERRFRM_COUNT.width - 1)
    ∧ OnlyRegs [ML_STAT n, ML_FILLLN n, ML_ERRFRM n, ML_HIST n] s u) := by
  have hop : opLolshort n l f s = ((s.eavReturned n l).incBy (ML_ERRFRM n) ML_ERRFRM_COUNT f).mlnHist n 2 := by
    rw [opLolshort_eq hhold hlos, h]
    rfl
  have hframe := eavReturned_frame s n l
  have hrest : Frame [ML_ERRFRM n, ML_HIST n] [] (s.eavReturned n l)
      (((s.eavReturned n l).incBy (ML_ERRFRM n) ML_ERRFRM_COUNT f).setBit (ML_HIST n) ⟨2, 1⟩ true) :=
    (Frame.refl.incBy _ _ (by simp)).setBit _ _ (by simp)
  refine marks_of_mlnHist (congrArg (done s) hop) ?_ (by decide) ⟨(eavReturned_spec s n l).read hrest ?_ ?_, ?_, ?_⟩
  · exact ((Frame.refl (p := [])).incBy _ _ (List.mem_singleton_self _)).1 _ (by simp [ML_HDGEN, ML_ERRFRM]) |>.trans
      (hframe.1 _ (by simp [ML_HDGEN, ML_STAT, ML_FILLLN]))
  · simp [ML_STAT, ML_ERRFRM, ML_HIST]
  · simp [ML_FILLLN, ML_ERRFRM, ML_HIST]
  · rw [State.setBit, State.fld_setFld_other _ _ _ _ (by simp [ML_ERRFRM, ML_HIST])]
    refine (State.fld_incBy _ _ _ _ (by decide)).trans ?_
    rw [hframe.fld _ (by simp [ML_ERRFRM, ML_STAT, ML_FILLLN])]
  · exact (hframe.mono (by simp) (by simp)).trans (hrest.mono (by simp) (by simp))

end returns

end lock

end Sys2Proof.Machine
end

section
/-! PROOFS. What a lane reports of its lines, its equaliser and its transmit FIFO, and the counters (R307, R314, R315, R323, R327): part
of O40. -/

namespace Sys2Proof.Machine

open Sys2Proof

/-! ## A counter and its HIST bit -/

/-- A command that adds one to a counter `a` of the lane and sets HIST bit `k`. -/
theorem marks_inc {c : Instr} {n k a : Nat} {s : State} (h : exec c s = done s ((s.inc a ⟨0, 32⟩).mlnHist n k))
    (hk : k < 32) (hhist : a ≠ ML_HIST n) (hgen : a ≠ ML_HDGEN n) :
    Marks c n k s (fun u => u.fld a ⟨0, 32⟩ = min (s.fld a ⟨0, 32⟩ + 1) (2 ^ 32 - 1) ∧ OnlyRegs [a, ML_HIST n] s u) := by
  refine marks_of_mlnHist h (State.rd_inc_other s _ hgen.symm) hk ⟨?_, ?_⟩
  · rw [State.setBit, State.fld_setFld_other _ _ _ _ hhist]
    exact State.fld_incBy _ _ _ _ (by decide)
  · exact (Frame.refl.inc _ (by simp)).setBit _ _ (by simp)

section errors

variable {n : Lane} {s : State}

/-! ## Lines and fields in error (R314, R315) -/

theorem gives_lineCrc_nothing
    (h : s.laneMode n ≠ 1 ∨ s.statBit n ML_STAT_LOCK = false ∨ s.fld (ML_STAT n) ML_STAT_RATE < 2) :
    Gives (.lineCrcError n) s (OnlyRegs [] s) := by
  refine gives_unchanged (t := opLineCrc n s) rfl (if_neg ?_)
  simp only [Bool.and_eq_true, decide_eq_true_eq, not_and, Nat.not_le]
  rintro ⟨hmode, hlock⟩
  simpa [hmode, hlock] using h

theorem exec_lineCrcError (hmode : s.laneMode n = 1) (hlock : s.statBit n ML_STAT_LOCK = true)
    (hrate : 2 ≤ s.fld (ML_STAT n) ML_STAT_RATE) :
    exec (.lineCrcError n) s = done s ((s.inc (ML_CRCLN n) ML_CRCLN_COUNT).mlnHist n 3) :=
  congrArg (done s) (if_pos (by simp [hmode, hlock, hrate]))

theorem gives_edhCheck_nothing {p a : Bool} (h : p = false ∨ a = true) : Gives (.edhCheck n p a) s (OnlyRegs [] s) := by
  refine gives_unchanged (t := opEdh n p a s) rfl (if_neg ?_)
  rcases h with rfl | rfl <;> simp

theorem exec_edhCheck (hmode : s.laneMode n = 1) (hlock : s.statBit n ML_STAT_LOCK = true)
    (hrate : s.fld (ML_STAT n) ML_STAT_RATE = 1) :
    exec (.edhCheck n true false) s = done s ((s.inc (ML_EDHFLD n) ML_EDHFLD_COUNT).mlnHist n 4) :=
  congrArg (done s) (if_pos (by simp [hmode, hlock, hrate]))

/-! ## The equaliser at an end of its range (R307) -/

theorem gives_eqlimit_nothing {top : Bool} (h : s.laneMode n ≠ 1 ∨ s.statBit n ML_STAT_LOCK = false) :
    Gives (.eqlimit n top) s (OnlyRegs [] s) :=
  gives_unchanged (t := opEqlimit n top s) rfl (if_pos (by simpa using h))

section eqlimit

variable {top : Bool} (hmode : s.laneMode n = 1) (hlock : s.statBit n ML_STAT_LOCK = true)

include hmode hlock

/-- An equaliser that stands by itself is judged by its code. -/
theorem opEqlimit_fixed (h : s.fld (ML_RXCFG n) ML_RXCFG_ADAPT ≠ 2) : opEqlimit n top s =
    s.when (s.fld (ML_STAT n) ML_STAT_EQVAL == 0 || s.fld (ML_STAT n) ML_STAT_EQVAL == 48) (fun s => s.mlnHist n 8) := by
  unfold opEqlimit
  rw [if_neg (by simp [hmode, hlock])]
  simp [State.when, h]

/-- An equaliser that tracks takes the code of the end at which it stands. -/
theorem opEqlimit_tracking (h : s.fld (ML_RXCFG n) ML_RXCFG_ADAPT = 2) : opEqlimit n top s =
    (s.setFld (ML_STAT n) ML_STAT_EQVAL (if top then 48 else 0)).mlnHist n 8 := by
  have hread : (s.setFld (ML_STAT n) ML_STAT_EQVAL (if top then 48 else 0)).fld (ML_STAT n) ML_STAT_EQVAL
      = if top then 48 else 0 := by
    rw [State.fld_setFld _ _ _ _ (by decide)]
    cases top <;> rfl
  unfold opEqlimit
  rw [if_neg (by simp [hmode, hlock])]
  cases top <;> simp_all [State.when]

theorem marks_eqlimit_tracking (h : s.fld (ML_RXCFG n) ML_RXCFG_ADAPT = 2) : Marks (.eqlimit n top) n 8 s (fun u =>
    u.fld (ML_STAT n) ML_STAT_EQVAL = (if top then 48 else 0) ∧ OnlyRegs [ML_STAT n, ML_HIST n] s u) := by
  refine marks_of_mlnHist (congrArg (done s) (opEqlimit_tracking hmode hlock h))
    (State.rd_setFld_other s _ _ (by simp [ML_HDGEN, ML_STAT])) (by decide) ⟨?_, ?_⟩
  · rw [State.setBit, State.fld_setFld_other _ _ _ _ (by simp [ML_STAT, ML_HIST]), State.fld_setFld _ _ _ _ (by decide)]
    cases top <;> rfl
  · exact (Frame.refl.setFld _ _ (by simp)).setBit _ _ (by simp)

variable (h : s.fld (ML_RXCFG n) ML_RXCFG_ADAPT ≠ 2)

include h

theorem marks_eqlimit_fixed (hend : s.fld (ML_STAT n) ML_STAT_EQVAL = 0 ∨ s.fld (ML_STAT n) ML_STAT_EQVAL = 48) :
    Marks (.eqlimit n top) n 8 s (fun u => OnlyRegs [ML_HIST n] s u) := by
  have hop : opEqlimit n top s = s.mlnHist n 8 := by
    rw [opEqlimit_fixed hmode hlock h]
    exact if_pos (by simpa using hend)
  exact marks_of_mlnHist (congrArg (done s) hop) rfl (by decide) (Frame.refl.setBit _ _ (by simp))

theorem gives_eqlimit_inside (hend : ¬(s.fld (ML_STAT n) ML_STAT_EQVAL = 0 ∨ s.fld (ML_STAT n) ML_STAT_EQVAL = 48)) :
    Gives (.eqlimit n top) s (OnlyRegs [] s) := by
  refine gives_unchanged (t := opEqlimit n top s) rfl ?_
  rw [opEqlimit_fixed hmode hlock h]
  exact if_neg (by simpa using hend)

end eqlimit

/-! ## The transmit FIFO (R323) -/

theorem marks_txfifo : Marks (.txfifo n) n 9 s (OnlyRegs [ML_HIST n] s) :=
  marks_of_mlnHist (t := s) rfl rfl (by decide) (Frame.refl.setBit _ _ (by simp))

/-! ## CLRCNT (R327) -/

/-- The registers of the lanes that CLRCNT returns to their reset values. -/
theorem rd_opMlnClrcnt (s : State) (a : Nat) : (opMlnClrcnt s).rd a =
    if 0xA00000 ≤ a ∧ a < 0xA40000 ∧ 0x40 ≤ (a - 0xA00000) % 0x400 then resetAt a else s.rd a := by
  rw [opMlnClrcnt, State.rd_resetRegs]
  simp [ML_CTRL, and_assoc]

theorem gives_mlnClrcnt (hb : s.pwr.barred = false) : Gives .mlnClrcnt s (fun u => (∀ m : Lane,
      u.rd (ML_LOSCNT m.val) = resetAt (ML_LOSCNT m.val) ∧ u.rd (ML_CRCLN m.val) = resetAt (ML_CRCLN m.val)
      ∧ u.rd (ML_FILLLN m.val) = resetAt (ML_FILLLN m.val)
      ∧ u.rd (ML_CTRL m.val) = s.rd (ML_CTRL m.val) ∧ u.rd (ML_STAT m.val) = s.rd (ML_STAT m.val))
      ∧ SameMem s u ∧ SameParts [] s u) := by
  refine gives_told_bar hb rfl fun u hu => ⟨fun m => ?_, fun a => ?_, fun q _ => ?_⟩
  · have hm : m.val < 256 := m.isLt
    simp only [hu.rd, rd_opMlnClrcnt]
    refine ⟨if_pos ?_, if_pos ?_, if_pos ?_, if_neg ?_, if_neg ?_⟩ <;>
    · simp only [ML_LOSCNT, ML_CRCLN, ML_FILLLN, ML_CTRL, ML_STAT]
      omega
  · rw [hu.mem]
    rfl
  · exact Part.Same.trans (by cases q <;> simp [Part.Same, opMlnClrcnt, State.resetRegs]) (hu.same q)

end errors

end Sys2Proof.Machine
end

section
/-! PROOFS. The PLL of a group of lanes is lost and relocks (R318, R324), and O40, assembled from what each report of a lane does. -/

namespace Sys2Proof.Machine

open Sys2Proof

/-! ## What the loss of the PLL leaves (R324) -/

/-- The transmitter of lane `k` idles and its receiver is out of lock. -/
def OffAir (k : Nat) (t : State) : Prop := t.statBit k ML_STAT_TXIDLE = true ∧ t.statBit k ML_STAT_LOCK = false

/-- A field of STAT that is neither LOCK nor TXIDLE. -/
def LinkField (f : Field) : Prop := f.lo + f.width ≤ 32 ∧ (2 ≤ f.lo ∧ f.lo + f.width ≤ 5 ∨ 6 ≤ f.lo)

/-- `P` sees nothing of what the lanes of a group change when its PLL is lost, but for a transmitter that runs again and a
receiver that locks. -/
structure PllKeep (P : State → Prop) : Prop extends LaneKeep P where
  link : ∀ {s : State} {k x : Nat} {f : Field}, k < 256 → LinkField f → P s → P (s.setFld (ML_STAT k) f x)
  unlock : ∀ {s : State} {k : Nat}, k < 256 → P s → P (s.setBit (ML_STAT k) ML_STAT_LOCK false)
  count : ∀ {s : State} {k : Nat} (v : Word), k < 256 → P s → P (s.wr (ML_LOLCNT k) v)

theorem pllKeep_offAir {j : Nat} (hj : j < 256) : PllKeep (OffAir j) where
  reads {s t} hr h := by
    have hread : ∀ f, t.statBit j f = s.statBit j f := fun f => by
      rw [State.statBit, State.bit, State.fld, hr _ (by unfold EventReg ML_STAT; omega)]
      rfl
    exact ⟨(hread _).trans h.1, (hread _).trans h.2⟩
  idle {s n} hn h := by
    by_cases hk : ML_STAT j = ML_STAT n
    · obtain rfl : j = n := by unfold ML_STAT at hk; omega
      exact ⟨State.statBit_setBit _ _ _ (by decide) (by decide),
        (State.statBit_setBit_apart _ _ _ (by decide) (by decide)).trans h.2⟩
    · exact ⟨(State.bit_wr_other _ _ hk).trans h.1, (State.bit_wr_other _ _ hk).trans h.2⟩
  report {s a} v ha h := by
    have hk : ML_STAT j ≠ a := by
      unfold ReportReg at ha
      unfold ML_STAT
      omega
    exact ⟨(State.bit_wr_other _ _ hk).trans h.1, (State.bit_wr_other _ _ hk).trans h.2⟩
  link {s k x f} hk hf h := by
    obtain ⟨hin, hf⟩ := hf
    by_cases hjk : ML_STAT j = ML_STAT k
    · obtain rfl : j = k := by unfold ML_STAT at hjk; omega
      refine ⟨(State.statBit_setFld_apart _ _ _ hin ?_).trans h.1, (State.statBit_setFld_apart _ _ _ hin ?_).trans h.2⟩
      · simp only [ML_STAT_TXIDLE]
        omega
      · simp only [ML_STAT_LOCK]
        omega
    · exact ⟨(State.bit_wr_other _ _ hjk).trans h.1, (State.bit_wr_other _ _ hjk).trans h.2⟩
  unlock {s k} hk h := by
    by_cases hjk : ML_STAT j = ML_STAT k
    · obtain rfl : j = k := by unfold ML_STAT at hjk; omega
      exact ⟨(State.statBit_setBit_apart _ _ _ (by decide) (by decide)).trans h.1,
        State.statBit_setBit _ _ _ (by decide) (by decide)⟩
    · exact ⟨(State.bit_wr_other _ _ hjk).trans h.1, (State.bit_wr_other _ _ hjk).trans h.2⟩
  count {s k} v hk h := by
    have hne : ML_STAT j ≠ ML_LOLCNT k := by unfold ML_STAT ML_LOLCNT; omega
    exact ⟨(State.bit_wr_other _ _ hne).trans h.1, (State.bit_wr_other _ _ hne).trans h.2⟩

/-- A bit of GRPSTAT. -/
theorem pllKeep_grpstat (f : Field) (b : Bool) : PllKeep (fun t => t.bit MLN_GRPSTAT f = b) where
  reads hr h := by rwa [State.bit, State.fld, hr _ (by unfold EventReg MLN_GRPSTAT; omega), ← State.fld, ← State.bit]
  idle {s n} hn h := (State.bit_wr_other _ _ (by unfold MLN_GRPSTAT ML_STAT; omega)).trans h
  report {s a} v ha h := by
    refine (State.bit_wr_other _ _ ?_).trans h
    unfold ReportReg at ha
    unfold MLN_GRPSTAT
    omega
  link hk _ h := (State.bit_wr_other _ _ (by unfold MLN_GRPSTAT ML_STAT; omega)).trans h
  unlock hk h := (State.bit_wr_other _ _ (by unfold MLN_GRPSTAT ML_STAT; omega)).trans h
  count v hk h := (State.bit_wr_other _ _ (by unfold MLN_GRPSTAT ML_LOLCNT; omega)).trans h

/-- What happens to lane `k` when the PLL of its group is lost. -/
def State.pllLost (s : State) (k : Nat) : State :=
  let s := s.setBit (ML_STAT k) ML_STAT_TXIDLE true
  if s.statBit k ML_STAT_LOCK then
    let s := s.setBit (ML_STAT k) ML_STAT_LOCK false
    if s.laneMode k = 1 && !s.statBit k ML_STAT_HOLD then s.beginLoss k false false else s
  else s

/-- The lanes of a group. -/
def groupLanes (g : Nat) : List Nat := (List.range 16).map (fun i => 16 * g + i)

theorem lt_of_mem_groupLanes {g k : Nat} (hg : g < 16) (hk : k ∈ groupLanes g) : k < 256 := by
  obtain ⟨i, hi, rfl⟩ := List.mem_map.1 hk
  have := List.mem_range.1 hi
  omega

section pllKeep

variable {P : State → Prop} (pk : PllKeep P) {s : State} {k : Nat}

include pk

theorem PllKeep.reportTogether {l : List Nat} (hl : ∀ n ∈ l, n < 256) {f : State → State}
    (h : P (f (s.each l (fun s n => (s.wr (ML_HIST n) 0).wr (ML_HDGEN n) 0)))) : P (s.reportTogether l f) := by
  unfold State.reportTogether
  extract_lets t told t1
  have h1 : P t1 := each_keep P l h fun u n hn g =>
    pk.report _ (reportReg_hdgen (hl n hn)) (pk.report _ (reportReg_hist (hl n hn)) g)
  exact each_keep P _ h1 fun u n _ => pk.raise _

theorem PllKeep.silenced {l : List Nat} (hl : ∀ n ∈ l, n < 256) (h : P s) :
    P (s.each l (fun s n => (s.wr (ML_HIST n) 0).wr (ML_HDGEN n) 0)) :=
  each_keep P l h fun _ n hn g => pk.report _ (reportReg_hdgen (hl n hn)) (pk.report _ (reportReg_hist (hl n hn)) g)

variable (hk : k < 256)

include hk

theorem PllKeep.clearLink (hlane : ∀ u x, P u → P (u.setLane k x)) (h : P s) : P (s.clearLink k) := by
  unfold State.clearLink State.pidBad
  extract_lets s1 s2 s3 s4
  have h2 : P s2 := pk.link hk (by unfold LinkField; decide) (pk.link hk (by unfold LinkField; decide) h)
  have h3 : P s3 := ite_keep (P := P) h2 (pk.link hk (by unfold LinkField; decide) h2)
  have h4 : P s4 := pk.link hk (by unfold LinkField; decide) h3
  exact pk.link hk (by unfold LinkField; decide) (hlane _ _ h4)

theorem PllKeep.beginLoss (h : P s) : P (s.beginLoss k false false) := by
  have hlane : ∀ u x, P u → P (u.setLane k x) := fun u x g => pk.update g rfl
  have hfly : P (s.flywheel k) := pk.count _ hk (pk.link hk (by unfold LinkField; decide) (hlane _ _ h))
  have hbegun := pk.lossBegun hk hfly
  rw [beginLoss_eq]
  exact ite_keep (P := P) (pk.longLoss hk (pk.clearLink hk hlane hbegun)) hbegun

theorem PllKeep.pllLost (h : P s) : P (s.pllLost k) := by
  have hidle := pk.idle hk h
  have hunlock := pk.unlock hk hidle
  exact ite_keep (P := P) (ite_keep (P := P) (pk.beginLoss hk hunlock) hunlock) hidle

end pllKeep

/-- The lanes of a list lose their PLL, and then tell of it. -/
theorem PllKeep.pllsLost {P : State → Prop} (pk : PllKeep P) {s : State} {l : List Nat} (hl : ∀ n ∈ l, n < 256) (h : P s) :
    P (s.reportTogether l (fun s => s.each l State.pllLost)) :=
  pk.reportTogether hl (each_keep P l (pk.silenced hl h) fun _ k hk g => pk.pllLost (hl k hk) g)

theorem offAir_pllLost (s : State) {k : Nat} (hk : k < 256) : OffAir k (s.pllLost k) := by
  have pk := pllKeep_offAir hk
  have hidle := State.statBit_setBit s k (f := ML_STAT_TXIDLE) true (by decide) (by decide)
  unfold State.pllLost
  extract_lets s1 s2
  split
  · have h2 : OffAir k s2 := ⟨(State.statBit_setBit_apart _ _ _ (by decide) (by decide)).trans hidle,
      State.statBit_setBit _ _ _ (by decide) (by decide)⟩
    exact ite_keep (P := OffAir k) (pk.beginLoss hk h2) h2
  · next hlock => exact ⟨hidle, by simpa using hlock⟩

theorem offAir_each (s : State) {l : List Nat} (hl : ∀ k ∈ l, k < 256) {k : Nat} (hk : k ∈ l) :
    OffAir k (s.each l State.pllLost) := by
  induction l generalizing s with
  | nil => simp at hk
  | cons x l ih =>
    have hrest : ∀ j ∈ l, j < 256 := fun j hj => hl j (List.mem_cons_of_mem _ hj)
    rcases List.mem_cons.1 hk with rfl | hk
    · exact each_keep (OffAir k) l (offAir_pllLost s (hl k List.mem_cons_self)) fun u j hj =>
        (pllKeep_offAir (hl k List.mem_cons_self)).pllLost (hrest j hj)
    · exact ih (s.pllLost x) hrest hk

theorem offAir_pllsLost (s : State) {l : List Nat} (hl : ∀ n ∈ l, n < 256) {k : Nat} (hk : k ∈ l) :
    OffAir k (s.reportTogether l (fun s => s.each l State.pllLost)) :=
  (pllKeep_offAir (hl k hk)).reportTogether hl (offAir_each _ hl hk)

theorem grpstat_pllsLost {s : State} {l : List Nat} (hl : ∀ n ∈ l, n < 256) {f : Field} {b : Bool}
    (h : s.bit MLN_GRPSTAT f = b) : (s.reportTogether l (fun s => s.each l State.pllLost)).bit MLN_GRPSTAT f = b :=
  (pllKeep_grpstat f b).pllsLost hl h

section group

variable {g : Fin 16} {s : State}

theorem gives_grppll_nothing (h : s.bit MLN_GRPSTAT ⟨g.val, 1⟩ = false) : Gives (.mlnGrppll g) s (OnlyRegs [] s) :=
  gives_unchanged (t := opGrppll g s) rfl (if_pos (by simp [h]))

theorem opGrppll_up (h : s.bit MLN_GRPSTAT ⟨g.val, 1⟩ = true) : opGrppll g s =
    ((s.setBit MLN_GRPSTAT ⟨g.val, 1⟩ false).raise 11).reportTogether (groupLanes g)
      (fun s => s.each (groupLanes g) State.pllLost) := if_neg (by simp [h])

/-- The bit of the group in GRPSTAT stays clear through the event on 11. -/
theorem grppllRaised_bit (g : Fin 16) (s : State) :
    ((s.setBit MLN_GRPSTAT ⟨g.val, 1⟩ false).raise 11).bit MLN_GRPSTAT ⟨g.val, 1⟩ = false := by
  have hdown : (s.setBit MLN_GRPSTAT ⟨g.val, 1⟩ false).bit MLN_GRPSTAT ⟨g.val, 1⟩ = false :=
    State.bit_setBit _ _ _ _ (show g.val + 1 ≤ 32 by omega) Nat.one_pos
  generalize s.setBit MLN_GRPSTAT ⟨g.val, 1⟩ false = w at hdown
  exact (pllKeep_grpstat ⟨g.val, 1⟩ false).raise 11 hdown

theorem gives_grppll (h : s.bit MLN_GRPSTAT ⟨g.val, 1⟩ = true) :
    Gives (.mlnGrppll g) s (fun u => u.bit MLN_GRPSTAT ⟨g.val, 1⟩ = false
      ∧ ∀ i, i < 16 → u.statBit (16 * g.val + i) ML_STAT_TXIDLE = true
        ∧ u.statBit (16 * g.val + i) ML_STAT_LOCK = false) := by
  have hl : ∀ k ∈ groupLanes g, k < 256 := fun k => lt_of_mem_groupLanes g.isLt
  have hop := opGrppll_up h
  have hraised := grppllRaised_bit g s
  generalize (s.setBit MLN_GRPSTAT ⟨g.val, 1⟩ false).raise 11 = w at hop hraised
  refine gives_told (congrArg (done s) hop) fun u hu => ⟨?_, fun i hi => ?_⟩
  · exact (hu.bit ..).trans (grpstat_pllsLost hl hraised)
  · have hmem : 16 * g.val + i ∈ groupLanes g := List.mem_map.2 ⟨i, List.mem_range.2 hi, rfl⟩
    obtain ⟨hidle, hlock⟩ := offAir_pllsLost w hl hmem
    exact ⟨(hu.statBit ..).trans hidle, (hu.statBit ..).trans hlock⟩

/-! ## The PLL relocks (R318, R324) -/

theorem settleTx_frame {l : List Nat} {p : List Part} (s : State) (fresh : Bool) (k : Nat) (hk : ML_STAT k ∈ l) :
    Frame l p s (s.settleTx fresh k) := by
  have hset : ∀ u b, Frame l p u (u.setBit (ML_STAT k) ML_STAT_TXIDLE b) := fun u b => Frame.refl.setBit _ _ hk
  exact ite_keep (P := Frame l p s) (hset s _) (ite_keep (P := Frame l p s) (Frame.refl.when _ (hset s _)) (hset s _))

theorem gives_relock_nothing (h : s.bit PWR_DOMSTAT ⟨g.val, 1⟩ = false) : Gives (.groupPllRelock g) s (OnlyRegs [] s) :=
  gives_unchanged (t := opPllRelock g s) rfl (if_neg (by simp [domMlg, h]))

theorem opPllRelock_running (h : s.bit PWR_DOMSTAT ⟨g.val, 1⟩ = true) : opPllRelock g s =
    (s.setBit MLN_GRPSTAT ⟨g.val, 1⟩ true).each (groupLanes g) (fun s k => s.settleTx false k) :=
  if_pos (by simp [domMlg, h])

theorem gives_relock (h : s.bit PWR_DOMSTAT ⟨g.val, 1⟩ = true) :
    Gives (.groupPllRelock g) s (fun u => u.bit MLN_GRPSTAT ⟨g.val, 1⟩ = true
      ∧ OnlyRegs (MLN_GRPSTAT :: (List.range 16).map (fun i => ML_STAT (16 * g.val + i))) s u) := by
  have hsettle : Frame ((List.range 16).map (fun i => ML_STAT (16 * g.val + i))) [] (s.setBit MLN_GRPSTAT ⟨g.val, 1⟩ true)
      ((s.setBit MLN_GRPSTAT ⟨g.val, 1⟩ true).each (groupLanes g) (fun s k => s.settleTx false k)) := by
    refine Frame.each _ (fun u k hk => settleTx_frame u false k ?_) Frame.refl
    obtain ⟨i, hi, rfl⟩ := List.mem_map.1 hk
    exact List.mem_map.2 ⟨i, hi, rfl⟩
  have hout : MLN_GRPSTAT ∉ (List.range 16).map (fun i => ML_STAT (16 * g.val + i)) := by
    intro hm
    obtain ⟨i, hi, he⟩ := List.mem_map.1 hm
    have := List.mem_range.1 hi
    unfold ML_STAT MLN_GRPSTAT at he
    omega
  refine gives_told (congrArg (done s) (opPllRelock_running h)) fun u hu => ⟨?_, hu.frame ?_⟩
  · exact (hu.bit ..).trans ((hsettle.bit _ hout).trans
      (State.bit_setBit _ _ _ _ (show g.val + 1 ≤ 32 by omega) Nat.one_pos))
  · exact (Frame.refl.setBit _ _ (by simp)).trans (hsettle.mono (by simp) (by simp))

end group

/-! ## The obligation -/

/-- Settles O40: each report of a lane by the branches of its definition; what an event leaves of the lanes carries each of them
past the events that it raises. -/
theorem mediaLaneSignals : Obligations.MediaLaneSignals := by
  intro n s st nothing marks counts lock hold los sdi
  refine ⟨gives_losSet_nothing, marks_losSet, gives_losClear_fixed, gives_losClear_adapting, gives_losClear_nothing,
    fun r => ⟨gives_cdrLock, gives_cdrLock_nothing⟩, gives_framed, gives_framed_nothing,
    fun c => gives_lossOfLock_nothing, gives_lossOfLock_network, ?held,
    fun c => gives_lossOfLock_short, gives_lossOfLock_changed,
    fun l f h => ⟨gives_lolhold_nothing l h, gives_lolshort_nothing l f h⟩, ?expiry, ?short, ?crc, gives_lineCrc_nothing,
    fun p a => gives_edhCheck_nothing, ?edh, fun top => gives_eqlimit_nothing, fun top => marks_eqlimit_tracking,
    fun top hm hl h => ⟨marks_eqlimit_fixed hm hl h, gives_eqlimit_inside hm hl h⟩, marks_txfifo,
    fun g => ⟨gives_grppll_nothing, gives_grppll, gives_relock_nothing, gives_relock⟩, gives_mlnClrcnt⟩
  case held =>
    exact fun hm h => ⟨gives_unchanged (t := opLossOfLock n .eav s) rfl (opLossOfLock_held_eav hm h),
      gives_lossOfLock_held_cdr hm h, fun l => gives_filledLoss (congrArg (done s) (opLossOfLock_held_changed hm l h))⟩
  case expiry =>
    intro l h
    obtain ⟨u, hu, hhold, hframed, -, hdet, hfill⟩ := gives_filledLoss (exec_lolholdExpiry l h)
    exact ⟨u, hu, hhold, hframed, hdet, hfill⟩
  case short => exact fun l f h hl => ⟨gives_lolshort_byLos h hl, marks_lolshort h hl⟩
  case crc =>
    exact fun hm hl hr => marks_inc (exec_lineCrcError hm hl hr) (by decide) (by simp [ML_CRCLN, ML_HIST])
      (by simp [ML_CRCLN, ML_HDGEN])
  case edh =>
    exact fun hm hl hr => marks_inc (exec_edhCheck hm hl hr) (by decide) (by simp [ML_EDHFLD, ML_HIST])
      (by simp [ML_EDHFLD, ML_HDGEN])

end Sys2Proof.Machine
end

section
/-! PROOFS. What an event can change, whatever it escalates to: the parts that it leaves, and the registers that it may write
(R529-R537). -/

namespace Sys2Proof.Machine

open Sys2Proof

/-- The registers that an event may write: those of HIF, STAT of a media lane, HIST of a MAC port (the table of ports bounds no
key), and those from HDG upward. -/
def EventWrites (a : Nat) : Prop :=
  a < 0x200000 ∨ (∃ n < 256, a = ML_STAT n) ∨ (∃ p, a = MP_HIST p) ∨ 0x1200000 ≤ a

/-- The parts of the state that no event changes. -/
def State.still (s : State) : List Instr × Nat × Tim × Planes × Ess × Mln × Clk × Pwr × Flash × Otp :=
  (s.pending, s.now, s.tim, s.planes, s.ess, s.mln, s.clk, s.pwr, s.flash, s.otp)

/-- What every event leaves. -/
structure AfterEvent (s t : State) : Prop where
  rd : ∀ {a : Nat}, ¬EventWrites a → t.rd a = s.rd a
  still : t.still = s.still

theorem eventWrites_below {a : Nat} (h : a < 0x200000) : EventWrites a := .inl h

theorem eventWrites_above {a : Nat} (h : 0x1200000 ≤ a) : EventWrites a := .inr (.inr (.inr h))

theorem eventWrites_hdgStat (n : Nat) : EventWrites (HDG_SRC_STAT n) := eventWrites_above (by unfold HDG_SRC_STAT; omega)

theorem eventWrites_dmaStat {n : Nat} (hn : n < 64) : EventWrites (HIF_DMA_STAT n) :=
  eventWrites_below (by unfold HIF_DMA_STAT; omega)

theorem eventWrites_ringStat (t r : Nat) : EventWrites (RING_STAT t r) := eventWrites_above (by unfold RING_STAT; omega)

theorem eventWrites_laneStat {n : Nat} (hn : n < 256) : EventWrites (ML_STAT n) := .inr (.inl ⟨n, hn, rfl⟩)

theorem eventWrites_portHist (p : Nat) : EventWrites (MP_HIST p) := .inr (.inr (.inl ⟨p, rfl⟩))

/-- The parts that a completion and the charge of a canvas change. -/
def eventParts : List Part := [.rings, .inflight, .ten]

section afterEvent

variable {s t u : State}

theorem AfterEvent.refl (s : State) : AfterEvent s s := ⟨fun _ => rfl, rfl⟩

theorem AfterEvent.trans (h : AfterEvent s t) (g : AfterEvent t u) : AfterEvent s u :=
  ⟨fun ha => (g.rd ha).trans (h.rd ha), g.still.trans h.still⟩

/-- An update beside the registers and the parts that stand. -/
theorem AfterEvent.update (h : AfterEvent s t) (hr : u.regs = t.regs) (hs : u.still = t.still) : AfterEvent s u :=
  h.trans ⟨fun _ => by simp [State.rd, hr], hs⟩

theorem still_of_sameParts (h : SameParts eventParts s t) : t.still = s.still := by
  have hq : ∀ q, q ∉ eventParts → q.Same s t := h
  simp only [State.still, Prod.mk.injEq]
  exact ⟨hq .queue (by decide), hq .time (by decide), hq .tim (by decide), hq .planes (by decide), hq .ess (by decide),
    hq .mln (by decide), hq .clk (by decide), hq .pwr (by decide), hq .flash (by decide), hq .otp (by decide)⟩

theorem AfterEvent.frame (h : AfterEvent s t) {l : List Nat} (hf : Frame l eventParts t u)
    (hl : ∀ a ∈ l, EventWrites a) : AfterEvent s u :=
  h.trans ⟨fun ha => hf.1 _ (fun hm => ha (hl _ hm)), still_of_sameParts hf.2.2⟩

theorem AfterEvent.wr (h : AfterEvent s t) {a : Nat} (ha : EventWrites a) (v : Word) : AfterEvent s (t.wr a v) :=
  h.trans ⟨fun hb => State.rd_wr_other t v (fun e => hb (e ▸ ha)), rfl⟩

theorem AfterEvent.setFld (h : AfterEvent s t) {a : Nat} (ha : EventWrites a) (f : Field) (n : Nat) :
    AfterEvent s (t.setFld a f n) := h.wr ha _

theorem AfterEvent.setBit (h : AfterEvent s t) {a : Nat} (ha : EventWrites a) (f : Field) (b : Bool) :
    AfterEvent s (t.setBit a f b) := h.wr ha _

theorem AfterEvent.inc (h : AfterEvent s t) {a : Nat} (ha : EventWrites a) (f : Field) : AfterEvent s (t.inc a f) := h.wr ha _

theorem AfterEvent.emit (h : AfterEvent s t) (e : Emission) : AfterEvent s (t.emit e) := h.update rfl rfl

theorem AfterEvent.signal (h : AfterEvent s t) (n v : Nat) : AfterEvent s (t.signal n v) :=
  h.frame ((Signalled.signal t n v).frame (l := [])) (by simp)

theorem AfterEvent.when (h : AfterEvent s t) (b : Bool) {f : State → State} (hf : AfterEvent s (f t)) :
    AfterEvent s (t.when b f) := by
  unfold State.when
  exact ite_keep hf h

theorem AfterEvent.afterCompletion (h : AfterEvent s t) (g : AfterCompletion t u) : AfterEvent s u := by
  refine h.trans ⟨fun ha => g.rd ?_, still_of_sameParts (g.parts.mono (by simp [eventParts]))⟩
  exact Nat.lt_of_not_le fun hle => ha (eventWrites_above (Nat.le_trans (by decide) hle))

/-! ## Events (R529-R533) -/

theorem AfterEvent.record (h : AfterEvent s t) (n sev : Nat) (promoted : Bool) : AfterEvent s (t.record n sev promoted) := by
  have hhdg : ∀ a, 0x1200000 ≤ a → EventWrites a := fun _ ha => eventWrites_above (by omega)
  unfold State.record
  extract_lets _ _ _ live s1
  have h1 : AfterEvent s s1 := h.when _ ((h.wr (hhdg _ (by decide)) _).wr (hhdg _ (by decide)) _)
  exact h1.when _ ((h1.wr (hhdg _ (by decide)) _).wr (hhdg _ (by decide)) _)

section event

variable {esc : State → Nat → State} (hesc : ∀ u n, AfterEvent s u → AfterEvent s (esc u n))

include hesc

theorem AfterEvent.enterSevere (h : AfterEvent s t) (n : Nat) (promoted : Bool) :
    AfterEvent s (t.enterSevere esc n promoted) := by
  have hn := eventWrites_hdgStat n
  unfold State.enterSevere
  extract_lets s1 s2 s3 s4 s5
  have h2 : AfterEvent s s2 := (h.setFld hn _ _).setBit hn _ _
  have h4 : AfterEvent s s4 := (h2.when _ (h2.setBit hn _ _)).record n 2 promoted
  have h5 : AfterEvent s s5 := h4.when _ (h4.signal 0 16)
  exact ite_keep h5 (ite_keep (hesc _ n h5) (h5.update rfl rfl))

theorem AfterEvent.hdgEvent (h : AfterEvent s t) (n : Nat) (forced : Bool) : AfterEvent s (t.hdgEvent esc n forced) := by
  have hn := eventWrites_hdgStat n
  have hcount : EventWrites (HDG_SRC_COUNT n) := eventWrites_above (by unfold HDG_SRC_COUNT; omega)
  have hcounted := ((h.inc hcount HDG_SRC_COUNT_COUNT).setBit hn HDG_SRC_STAT_STICKY true).setBit hn
    HDG_SRC_STAT_FORCED forced
  have hfirst := hcounted.setFld hn HDG_SRC_STAT_WCOUNT 1
  have hnext := hcounted.inc hn HDG_SRC_STAT_WCOUNT
  have hwatched := (hfirst.setFld hn HDG_SRC_STAT_STATE 1).record n 1 false
  exact ite_keep h (ite_keep hcounted (ite_keep (ite_keep (hfirst.enterSevere hesc n false) hwatched)
    (ite_keep (ite_keep (hnext.enterSevere hesc n false) hnext) hcounted)))

end event

theorem AfterEvent.escQuiet (h : AfterEvent s t) (n : Nat) : AfterEvent s (t.escQuiet n) := by
  unfold State.escQuiet
  extract_lets s1 _ s2
  have h2 : AfterEvent s s2 := (h.setFld (eventWrites_hdgStat n) HDG_SRC_STAT_STATE 3).update rfl rfl
  exact h2.signal 0 16

theorem AfterEvent.escSafe (h : AfterEvent s t) (n : Nat) : AfterEvent s (t.escSafe n) :=
  ite_keep (h.escQuiet n) ((h.escQuiet n).hdgEvent (fun _ n g => g.escQuiet n) 384 false)

/-- An event in the safe state (R537). -/
theorem AfterEvent.safeEvent (h : AfterEvent s t) (n : Nat) : AfterEvent s (t.hdgEvent State.escSafe n false) :=
  h.hdgEvent (fun _ n g => g.escSafe n) n false

/-! ## The safe state (R536) -/

theorem AfterEvent.driveFault (h : AfterEvent s t) (b : Bool) : AfterEvent s (t.driveFault b) :=
  ite_keep h ((h.setBit (eventWrites_above (by decide)) HDG_STAT_FAULT b).update rfl rfl)

theorem AfterEvent.idleOutputs (h : AfterEvent s t) : AfterEvent s t.idleOutputs := by
  unfold State.idleOutputs
  extract_lets _ s1 s2
  have h1 : AfterEvent s s1 := each_keep _ _ h fun _ n hn g => g.setBit (eventWrites_laneStat (List.mem_range.1 hn)) _ _
  have h2 : AfterEvent s s2 := each_keep _ _ h1 fun _ e _ g => by
    refine AfterEvent.wr ?_ (eventWrites_portHist e.1) _
    exact g.update rfl rfl
  exact h2.when _ (h2.safeEvent 69)

theorem AfterEvent.writeCapture (h : AfterEvent s t) (n r : Nat) (c : Capture) {dropped : State → State}
    (hd : ∀ u, AfterEvent s u → AfterEvent s (dropped u)) : AfterEvent s (t.writeCapture n r c dropped) := by
  have hstat := eventWrites_ringStat n r
  exact ite_keep (h.afterCompletion (afterCompletion_ringWrite t n r _))
    (hd _ ((h.setBit hstat RING_STAT_DROP true).inc hstat RING_STAT_DROPCNT))

theorem AfterEvent.rechargeAll (h : AfterEvent s t) (l : List Nat) : AfterEvent s (t.each l State.recharge) :=
  each_keep _ l h fun _ c _ g => g.frame (Frame.refl.rechargeTo c none (l := []) (by decide)) (by simp)

theorem AfterEvent.dropChanges (h : AfterEvent s t) : AfterEvent s t.dropChanges := h.update rfl rfl

theorem AfterEvent.dropCanvasWork (h : AfterEvent s t) : AfterEvent s t.dropCanvasWork := by
  unfold State.dropCanvasWork
  extract_lets _ s1 s2 s3 s4
  have h2 : AfterEvent s s2 := h.update rfl rfl
  have h4 : AfterEvent s s4 := each_keep _ _ (h2.rechargeAll _)
    fun _ _ _ g => g.writeCapture _ _ _ fun _ g => g.safeEvent 322
  exact h4.update rfl rfl

theorem AfterEvent.dropSalvos (h : AfterEvent s t) : AfterEvent s t.dropSalvos := by
  unfold State.dropSalvos
  extract_lets l _ s1 s2 s3
  have h2 : AfterEvent s s2 := h.update rfl rfl
  have h3 : AfterEvent s s3 := h2.rechargeAll _
  exact h3.when _ (h3.safeEvent 352)

theorem AfterEvent.svcAborted (h : AfterEvent s t) : AfterEvent s t.svcAborted := by
  have hstat : EventWrites SVC_CMDSTAT := eventWrites_above (by decide)
  have hhist : EventWrites SVC_HIST := eventWrites_above (by decide)
  unfold State.svcAborted State.svcEnd
  extract_lets p _ s1 s2 s3 s4
  have h1 : AfterEvent s s1 := h.update rfl rfl
  exact (((h1.setBit hstat _ _).setFld hstat _ _).setFld hstat _ _).setBit hhist _ _

theorem AfterEvent.abandonShadow (h : AfterEvent s t) : AfterEvent s t.abandonShadow := by
  have hupd : EventWrites SVC_UPD := eventWrites_above (by decide)
  exact ite_keep (h.setFld hupd _ _).svcAborted (ite_keep h.svcAborted h)

theorem AfterEvent.stopForSafe (h : AfterEvent s t) : AfterEvent s t.stopForSafe := by
  have hmuffle : AfterEvent s t.muffle := each_keep _ _ h fun _ _ _ g => g.emit _
  have hfloat : AfterEvent s t.muffle.floatAudio :=
    each_keep _ _ (each_keep _ _ hmuffle fun _ _ _ g => g.emit _) fun _ _ _ g => g.emit _
  exact AfterEvent.update hfloat.idleOutputs.dropChanges.dropCanvasWork.dropSalvos.abandonShadow rfl rfl

theorem AfterEvent.setFov (h : AfterEvent s t) (x : Nat) : AfterEvent s (t.setFov x) := by
  have hstat : EventWrites FOV_STAT := eventWrites_above (by decide)
  unfold State.setFov State.fovPins
  extract_lets _ s1 p1 s2 s3 s4
  have h1 : AfterEvent s s1 := h.update rfl rfl
  have hp : AfterEvent s p1 := h1.when _ (h1.emit _)
  exact (((hp.when _ (hp.emit _)).setFld hstat _ _).setBit hstat _ _).setBit hstat _ _

theorem AfterEvent.abortCommands (h : AfterEvent s t) : AfterEvent s t.abortCommands :=
  each_keep _ _ h fun u i _ g => g.afterCompletion (afterCompletion_complete u i _ _ _)

theorem AfterEvent.haltChannel (h : AfterEvent s t) {n : Nat} (hn : n < 64) (cause : Nat) :
    AfterEvent s (t.haltChannel n cause) := by
  have hstat := eventWrites_dmaStat hn
  have hlo : EventWrites (HIF_DMA_ERRADDR_LO n) := eventWrites_below (by unfold HIF_DMA_ERRADDR_LO; omega)
  have hhi : EventWrites (HIF_DMA_ERRADDR_HI n) := eventWrites_below (by unfold HIF_DMA_ERRADDR_HI; omega)
  unfold State.haltChannel
  extract_lets s1 s2 s3 s4
  have h1 : AfterEvent s s1 := by
    unfold s1
    split
    · exact (h.wr hlo _).wr hhi _
    · exact h
  have h2 : AfterEvent s s2 := h1.update rfl rfl
  have h4 : AfterEvent s s4 := (h2.setFld hstat _ _).setFld hstat _ _
  exact h4.when _ (h4.signal 0 _)

theorem AfterEvent.enterSafe (h : AfterEvent s t) (n : Nat) : AfterEvent s (t.enterSafe n) := by
  have hstat : EventWrites HDG_STAT := eventWrites_above (by decide)
  unfold State.enterSafe
  extract_lets s1 s2 s3 s4 s5 s6 s7 s8
  have h4 : AfterEvent s s4 := (((h.setBit hstat _ _).setFld hstat _ _).signal 0 16).driveFault true
  have h6 : AfterEvent s s6 := (h4.setFov 7).stopForSafe.abortCommands
  have h7 : AfterEvent s s7 := each_keep _ _ h6 fun _ k hk g =>
    g.setFld (eventWrites_dmaStat (by have := List.mem_range.1 hk; omega)) _ _
  have h8 : AfterEvent s s8 := each_keep _ _ h7 fun _ k hk g => g.haltChannel (by have := List.mem_range.1 hk; omega) 5
  exact h8.safeEvent 325

/-! ## Events that escalate (R533) -/

theorem AfterEvent.escOwn (h : AfterEvent s t) (n : Nat) : AfterEvent s (t.escOwn n) := by
  have hq := h.escQuiet n
  exact ite_keep hq (ite_keep (hq.driveFault true) (ite_keep (hq.enterSafe n) hq))

theorem AfterEvent.escalate (h : AfterEvent s t) (n : Nat) : AfterEvent s (t.escalate n) :=
  ite_keep (h.escOwn n) ((h.escOwn n).hdgEvent (fun _ n g => g.escOwn n) 384 false)

theorem AfterEvent.raise (h : AfterEvent s t) (n : Nat) : AfterEvent s (t.raise n) :=
  h.hdgEvent (fun _ n g => g.escalate n) n false

end afterEvent

end Sys2Proof.Machine
end

section
/-! PROOFS. The host's control of a time base: refusals, LOAD, ADJ, FREQ and the snapshots (R446, R448, R451-R454). -/

namespace Sys2Proof.Machine

open Sys2Proof

/-! ## Bases after an update -/

@[simp] theorem State.base_setBase (s : State) (b : Nat) (x : TimeBase) : (s.setBase b x).base b = x := by
  simp [State.base]

theorem base_congr {s t : State} (h : t.tim.bases = s.tim.bases) (b : Nat) : t.base b = s.base b := by
  rw [State.base, h, State.base]

theorem Frame.fullTime {l : List Nat} {p : List Part} {s t : State} (h : Frame l p s t) (hp : .tim ∉ p) (b : Nat) :
    t.fullTime b = s.fullTime b := by
  have htim : t.tim = s.tim := h.same hp
  rw [State.fullTime, base_congr (congrArg Tim.bases htim), State.fullTime]

theorem Frame.setBase {l : List Nat} {p : List Part} {s t : State} (h : Frame l p s t) (b : Nat) (x : TimeBase)
    (hp : .tim ∈ p) : Frame l p s (t.setBase b x) :=
  h.update rfl rfl (fun q hq => by
    cases q
    case tim => exact absurd hp hq
    all_goals simp [Part.Same])

/-! ## What neither an event nor a pulse changes -/

/-- TIM_SWITCHCNT, and the registers of the bases; those at 0x24 of a page, where HIST of a MAC port would stand, are left
out. -/
def BaseReg (a : Nat) : Prop := (a = TIM_SWITCHCNT ∨ (0x1100100 ≤ a ∧ a < 0x1100300)) ∧ a % 0x100 ≠ 0x24

/-- The time bases are as before. -/
structure BasesKept (s t : State) : Prop where
  rd : ∀ {a : Nat}, BaseReg a → t.rd a = s.rd a
  bases : t.tim.bases = s.tim.bases

theorem not_eventWrites_baseReg {a : Nat} (h : BaseReg a) : ¬EventWrites a := by
  unfold BaseReg TIM_SWITCHCNT at h
  rintro (hlow | ⟨n, hn, rfl⟩ | ⟨p, rfl⟩ | hhigh)
  · omega
  · unfold ML_STAT at h
    omega
  · unfold MP_HIST at h
    omega
  · omega

section basesKept

variable {s t u : State}

theorem BasesKept.refl (s : State) : BasesKept s s := ⟨fun _ => rfl, rfl⟩

theorem BasesKept.trans (h : BasesKept s t) (g : BasesKept t u) : BasesKept s u :=
  ⟨fun ha => (g.rd ha).trans (h.rd ha), g.bases.trans h.bases⟩

/-- An update beside the registers and the bases. -/
theorem BasesKept.update (h : BasesKept s t) (hr : u.regs = t.regs) (hb : u.tim.bases = t.tim.bases) : BasesKept s u :=
  h.trans ⟨fun _ => by simp [State.rd, hr], hb⟩

theorem BasesKept.wr (h : BasesKept s t) {a : Nat} (ha : ¬BaseReg a) (v : Word) : BasesKept s (t.wr a v) :=
  h.trans ⟨fun hb => State.rd_wr_other t v (fun e => ha (e ▸ hb)), rfl⟩

theorem BasesKept.afterEvent (h : BasesKept s t) (g : AfterEvent t u) : BasesKept s u := by
  have hstill := g.still
  simp only [State.still, Prod.mk.injEq] at hstill
  obtain ⟨-, -, htim, -⟩ := hstill
  exact h.trans ⟨fun ha => g.rd (not_eventWrites_baseReg ha), congrArg Tim.bases htim⟩

theorem BasesKept.raise (h : BasesKept s t) (n : Nat) : BasesKept s (t.raise n) :=
  h.afterEvent ((AfterEvent.refl t).raise n)

theorem BasesKept.base (h : BasesKept s t) (b : Nat) : t.base b = s.base b := base_congr h.bases b

theorem Told.basesKept (h : Told t u) : BasesKept t u :=
  (BasesKept.refl t).afterEvent ((AfterEvent.refl t).afterCompletion h.afterCompletion)

theorem Told.base (h : Told t u) (b : Nat) : u.base b = t.base b := h.basesKept.base b

end basesKept

/-! ## A base in MODE 2 or 3 refuses the host (R451) -/

/-- The command is refused: CFGREJ, and TIM_CFGREJ (263). -/
def TimRefused (c : Instr) (s : State) : Prop :=
  ∃ t, Answers c s (t.raise 263) ∧ t.bit TIM_ERR TIM_ERR_CFGREJ = true ∧ OnlyRegs [TIM_ERR] s t

section host

variable {c : Instr} {b : Nat} {s t : State}

theorem timRefused (hb : s.pwr.barred = false) (hm : 2 ≤ s.tbMode b)
    (h : exec c s = doneBar s (if s.tbHostLocked b then s.timRefuse else t)) : TimRefused c s := by
  refine ⟨s.setBit TIM_ERR TIM_ERR_CFGREJ true, answers_of_doneBar hb (h.trans ?_),
    State.bit_setBit _ _ _ _ (by decide) (by decide), Frame.refl.setBit _ _ (by simp)⟩
  rw [if_pos (by simpa [State.tbHostLocked] using hm)]
  rfl

/-- In MODE 0 or 1 the command has its effect. -/
theorem gives_unlocked {P : State → Prop} (hb : s.pwr.barred = false) (hm : s.tbMode b < 2)
    (h : exec c s = doneBar s (if s.tbHostLocked b then s.timRefuse else t)) (hP : ∀ u, Told t u → P u) : Gives c s P := by
  refine gives_told_bar hb (h.trans ?_) hP
  rw [if_neg (by simpa [State.tbHostLocked] using hm)]

end host

/-! ## A step, and the pulses it meets (R452, R453, R463) -/

section pulses

variable {s t : State}

theorem not_baseReg_above {a : Nat} (h : 0x1100300 ≤ a) : ¬BaseReg a := by
  unfold BaseReg TIM_SWITCHCNT
  omega

theorem BasesKept.setTpo (h : BasesKept s t) (k : Nat) (x : TpoState) : BasesKept s (t.setTpo k x) := by
  have hstat : ¬BaseReg (TIM_TPO_STAT k) := not_baseReg_above (by unfold TIM_TPO_STAT; omega)
  have hnext : ¬BaseReg (TIM_TPO_NEXT k) := not_baseReg_above (by unfold TIM_TPO_NEXT; omega)
  have hleft : ¬BaseReg (TIM_TPO_LEFT k) := not_baseReg_above (by unfold TIM_TPO_LEFT; omega)
  unfold State.setTpo State.watchTpo
  extract_lets n s1
  have hn : BasesKept s n := h.update rfl rfl
  have h1 : BasesKept s s1 := when_keep _ _ hn fun _ g => g.update rfl rfl
  split
  · exact ((h1.wr hstat _).wr hnext _).wr hleft _
  · exact ((((h1.wr hstat _).wr hstat _).wr hstat _).wr hnext _).wr hleft _

theorem BasesKept.skipPulses (h : BasesKept s t) (b new : Nat) : BasesKept s (t.skipPulses b new) := by
  unfold State.skipPulses
  extract_lets r
  have hr : BasesKept s r.1 := foldl_keep_fst (P := BasesKept s)
    (fun acc k hacc => by dsimp only; split <;> [exact hacc; exact hacc.setTpo k _]) _ h
  exact ite_keep hr ((hr.wr (by simp [BaseReg, TIM_TPOSKIP, TIM_SWITCHCNT]) _).raise 262)

end pulses

/-- The base as a step to full time `new` sets it, before what the step raises and skips. -/
def State.stepTo (s : State) (b new : Nat) : State :=
  ((s.setBase b { s.base b with time := new, adj := 0 }).setBit (TIM_TB_STAT b) TIM_TB_STAT_SLEWING false).setBit
    (TIM_TB_HIST b) TIM_TB_HIST_STEP true

theorem stepBase_basesKept (s : State) (b new : Nat) : BasesKept (s.stepTo b new) (s.stepBase b new) := by
  have hcnt : ¬BaseReg TIM_STEPCNT := by simp [BaseReg, TIM_STEPCNT, TIM_SWITCHCNT]
  unfold State.stepBase
  extract_lets old x s1 s2 s3 s4 _ s5
  have h4 : BasesKept (s.stepTo b new) s4 := ((BasesKept.refl s3).wr hcnt _).raise 259
  have h5 : BasesKept (s.stepTo b new) s5 := h4.update rfl rfl
  exact ite_keep (h5.skipPulses b _) h5

theorem stepBase_base (s : State) (b new : Nat) :
    (s.stepBase b new).base b = { s.base b with time := new, adj := 0 } :=
  ((stepBase_basesKept s b new).base b).trans (State.base_setBase s b _)

/-! ## LOAD, ADJ and FREQ (R452, R454) -/

/-- A correction is added to the one outstanding (R454). -/
theorem slewBy_spec (s : State) (b : Nat) (ns : Int) :
    (s.slewBy b ns).base b = { s.base b with adj := (s.base b).adj + ns * adjNs }
    ∧ (s.slewBy b ns).bit (TIM_TB_STAT b) TIM_TB_STAT_SLEWING = (((s.slewBy b ns).base b).adj != 0)
    ∧ Frame [TIM_TB_STAT b] [.tim] s (s.slewBy b ns) := by
  have hbase : (s.slewBy b ns).base b = { s.base b with adj := (s.base b).adj + ns * adjNs } :=
    State.base_setBase s b _
  refine ⟨hbase, ?_, (Frame.refl.setBase b _ (by simp)).setBit _ _ (by simp)⟩
  rw [hbase]
  exact State.bit_setBit _ _ _ _ (by decide) (by decide)

section host

variable {b : Tb} {s : State} (hb : s.pwr.barred = false)

include hb

theorem gives_load (hm : s.tbMode b.val < 2) : Gives (.load b) s (fun u => (u.base b.val).adj = 0
    ∧ (u.base b.val).time = ((s.fld (TIM_TB_SETSEC_LO b.val) TIM_TB_SETSEC_LO_SEC
        + 2 ^ 32 * s.fld (TIM_TB_SETSEC_HI b.val) TIM_TB_SETSEC_HI_SEC) * 1000000000
      + min 999999999 (s.fld (TIM_TB_SETNS b.val) TIM_TB_SETNS_NS)) * 2 ^ 32 ∧ SameMem s u) := by
  refine gives_unlocked hb hm rfl fun u hu => ?_
  rw [hu.base, stepBase_base]
  refine ⟨rfl, rfl, fun a => ?_⟩
  rw [hu.mem, (keep_mem s.mem).stepBase rfl]

theorem gives_timAdjWrite (v : Word) (hm : s.tbMode b.val < 2) : Gives (.timAdjWrite b v) s (fun u =>
    (u.base b.val).adj = (s.base b.val).adj + v.toInt * 4294967296000000
    ∧ (u.base b.val).time = (s.base b.val).time
    ∧ u.bit (TIM_TB_STAT b.val) TIM_TB_STAT_SLEWING = ((u.base b.val).adj != 0)
    ∧ Frame [TIM_TB_STAT b.val] [.tim] s u) := by
  refine gives_unlocked hb hm rfl fun u hu => ?_
  obtain ⟨hbase, hslew, hframe⟩ := slewBy_spec s b.val v.toInt
  rw [hu.base, hu.bit]
  refine ⟨?_, ?_, hslew, hu.frame hframe⟩ <;> rw [hbase]
  rfl

theorem gives_timFreqWrite (v : Word) (hm : s.tbMode b.val < 2) : Gives (.timFreqWrite b v) s (fun u =>
    u.rd (TIM_TB_FREQ b.val) = BitVec.ofInt 32 (max (-500000000) (min 500000000 v.toInt))
    ∧ OnlyRegs [TIM_TB_FREQ b.val] s u) :=
  gives_unlocked hb hm rfl fun _ hu =>
    ⟨(hu.rd _).trans (State.rd_wr s _ _), hu.frame (Frame.refl.wr _ (by simp))⟩

end host

/-! ## SNAP and SNAP_ALL (R448) -/

/-- The snapshot registers of base `k`. -/
def snapRegs (k : Nat) : List Nat := [TIM_TB_SNAPSEC_LO k, TIM_TB_SNAPSEC_HI k, TIM_TB_SNAPNS k, TIM_TB_SNAPTS k]

/-- The snapshot registers of base `k` read full time `t`. -/
def Snapped (k t : Nat) (u : State) : Prop :=
  u.fld (TIM_TB_SNAPSEC_LO k) TIM_TB_SNAPSEC_LO_SEC = t / 1000000000 % 2 ^ 32
  ∧ u.fld (TIM_TB_SNAPSEC_HI k) TIM_TB_SNAPSEC_HI_SEC = t / 1000000000 / 2 ^ 32 % 2 ^ TIM_TB_SNAPSEC_HI_SEC.width
  ∧ u.fld (TIM_TB_SNAPNS k) TIM_TB_SNAPNS_NS = t % 1000000000
  ∧ u.fld (TIM_TB_SNAPTS k) TIM_TB_SNAPTS_TS = t % 2 ^ 32

theorem snapRegs_apart {j k a : Nat} (hjk : j ≠ k) (ha : a ∈ snapRegs j) : a ∉ snapRegs k := by
  simp only [snapRegs, List.mem_cons, List.not_mem_nil, or_false, TIM_TB_SNAPSEC_LO, TIM_TB_SNAPSEC_HI, TIM_TB_SNAPNS,
    TIM_TB_SNAPTS] at ha ⊢
  omega

theorem Snapped.of_rd {k t : Nat} {s u : State} (h : Snapped k t s) (hr : ∀ a ∈ snapRegs k, u.rd a = s.rd a) :
    Snapped k t u := by
  have hfld : ∀ a ∈ snapRegs k, ∀ f, u.fld a f = s.fld a f := fun a ha f => congrArg f.get (hr a ha)
  obtain ⟨h1, h2, h3, h4⟩ := h
  exact ⟨(hfld _ (by simp [snapRegs]) _).trans h1, (hfld _ (by simp [snapRegs]) _).trans h2,
    (hfld _ (by simp [snapRegs]) _).trans h3, (hfld _ (by simp [snapRegs]) _).trans h4⟩

theorem opSnap_frame (b : Nat) (s : State) : Frame (snapRegs b) [] s (opSnap b s) :=
  (((Frame.refl.setFld _ _ (by simp [snapRegs])).setFld _ _ (by simp [snapRegs])).setFld _ _ (by simp [snapRegs])).setFld
    _ _ (by simp [snapRegs])

theorem opSnap_snapped (b : Nat) (s : State) : Snapped b (s.fullTime b) (opSnap b s) := by
  have hlo : TIM_TB_SNAPSEC_LO b + 4 = TIM_TB_SNAPSEC_HI b := by simp only [TIM_TB_SNAPSEC_LO, TIM_TB_SNAPSEC_HI]; omega
  have hhi : TIM_TB_SNAPSEC_HI b + 4 = TIM_TB_SNAPNS b := by simp only [TIM_TB_SNAPSEC_HI, TIM_TB_SNAPNS]; omega
  have hns : TIM_TB_SNAPNS b + 4 = TIM_TB_SNAPTS b := by simp only [TIM_TB_SNAPNS, TIM_TB_SNAPTS]; omega
  unfold opSnap
  extract_lets t sec s1 s2 s3
  refine ⟨?_, ?_, ?_, ?_⟩
  · rw [State.fld_setFld_other _ _ _ _ (by omega), State.fld_setFld_other _ _ _ _ (by omega),
      State.fld_setFld_other _ _ _ _ (by omega), State.fld_setFld _ _ _ _ (by decide)]
    rfl
  · rw [State.fld_setFld_other _ _ _ _ (by omega), State.fld_setFld_other _ _ _ _ (by omega),
      State.fld_setFld _ _ _ _ (by decide)]
  · rw [State.fld_setFld_other _ _ _ _ (by omega), State.fld_setFld _ _ _ _ (by decide)]
    have hsec : s.fullTime b % 1000000000 < 1000000000 := Nat.mod_lt _ (by decide)
    exact Nat.mod_eq_of_lt (Nat.lt_trans hsec (by decide))
  · rw [State.fld_setFld _ _ _ _ (by decide)]
    exact Nat.mod_mod _ _

/-- Bases snapped in turn: each reads its own full time. -/
theorem snapEach_spec (l : List Nat) (hl : l.Nodup) (s : State) :
    (∀ k ∈ l, Snapped k (s.fullTime k) (l.foldl (fun s b => opSnap b s) s))
    ∧ Frame (l.flatMap snapRegs) [] s (l.foldl (fun s b => opSnap b s) s) := by
  induction l generalizing s with
  | nil => exact ⟨fun _ hk => absurd hk List.not_mem_nil, Frame.refl⟩
  | cons b l ih =>
    obtain ⟨hb, hl⟩ := List.nodup_cons.1 hl
    obtain ⟨hrest, hframe⟩ := ih hl (opSnap b s)
    refine ⟨fun k hk => ?_, ((opSnap_frame b s).mono (by simp) (by simp)).trans (hframe.mono (by simp) (by simp))⟩
    rcases List.mem_cons.1 hk with rfl | hk
    · refine (opSnap_snapped k s).of_rd fun a ha => hframe.1 a fun hm => ?_
      obtain ⟨j, hj, haj⟩ := List.mem_flatMap.1 hm
      exact snapRegs_apart (fun e : j = k => hb (e ▸ hj)) haj ha
    · rw [← (opSnap_frame b s).fullTime (by simp)]
      exact hrest k hk

theorem Told.snapped {t u : State} (hu : Told t u) {k x : Nat} (h : Snapped k x t) : Snapped k x u :=
  h.of_rd fun a _ => hu.rd a

theorem gives_snap {s : State} (hb : s.pwr.barred = false) (b : Tb) : Gives (.snap b) s (fun u =>
    Snapped b.val (s.fullTime b.val) u ∧ OnlyRegs (snapRegs b.val) s u) :=
  gives_told_bar hb rfl fun _ hu => ⟨hu.snapped (opSnap_snapped b.val s), hu.frame (opSnap_frame b.val s)⟩

theorem gives_snapAll {s : State} (hb : s.pwr.barred = false) : Gives .snapAll s (fun u =>
    (∀ k : Tb, Snapped k.val (s.fullTime k.val) u) ∧ OnlyRegs ((List.range 4).flatMap snapRegs) s u) := by
  obtain ⟨hall, hframe⟩ := snapEach_spec [0, 1, 2, 3] (by decide) s
  refine gives_told_bar hb rfl fun u hu => ⟨fun k => hu.snapped (hall k.val ?_), hu.frame hframe⟩
  have hk := k.isLt
  simp only [List.mem_cons, List.not_mem_nil, or_false]
  omega

end Sys2Proof.Machine
end

section
/-! PROOFS. FORCEDOM, the end of a slew, fabric time messages and launches of express frames: O37 (R454-R456, R460, R465),
assembled with the host's control of a base. -/

namespace Sys2Proof.Machine

open Sys2Proof

/-! ## FORCEDOM (R455) -/

/-- Base `b` has changed to the domain `x`: INUSE, HIST.SWITCH and a count of switches of `n`. -/
structure Switched (b : Nat) (x : Bool) (n : Nat) (s : State) : Prop where
  inUse : s.inUse b = x
  hist : s.bit (TIM_TB_HIST b) TIM_TB_HIST_SWITCH = true
  count : s.fld TIM_SWITCHCNT TIM_SWITCHCNT_COUNT = n

section switched

variable {b n : Nat} {x : Bool} {s t : State} (h : Switched b x n s)

include h

theorem Switched.of_rd (hstat : t.bit (TIM_TB_STAT b) TIM_TB_STAT_INUSE = s.bit (TIM_TB_STAT b) TIM_TB_STAT_INUSE)
    (hhist : t.bit (TIM_TB_HIST b) TIM_TB_HIST_SWITCH = s.bit (TIM_TB_HIST b) TIM_TB_HIST_SWITCH)
    (hcount : t.rd TIM_SWITCHCNT = s.rd TIM_SWITCHCNT) : Switched b x n t :=
  ⟨hstat.trans h.inUse, hhist.trans h.hist, (congrArg _ hcount).trans h.count⟩

theorem Switched.basesKept (hb : b < 4) (hk : BasesKept s t) : Switched b x n t := by
  have hbit : ∀ {a : Nat} (f : Field), BaseReg a → t.bit a f = s.bit a f := fun f ha => by
    rw [State.bit, State.fld, hk.rd ha, State.bit, State.fld]
  refine h.of_rd (hbit _ ?_) (hbit _ ?_) (hk.rd ?_)
  · unfold BaseReg TIM_TB_STAT
    omega
  · unfold BaseReg TIM_TB_HIST
    omega
  · simp [BaseReg, TIM_SWITCHCNT]

/-- A field of STAT other than INUSE is set. -/
theorem Switched.setStat {f : Field} (hf : f.lo + f.width ≤ 32) (hg : f.lo + f.width ≤ TIM_TB_STAT_INUSE.lo ∨
    TIM_TB_STAT_INUSE.lo + TIM_TB_STAT_INUSE.width ≤ f.lo) (v : Nat) :
    Switched b x n (s.setFld (TIM_TB_STAT b) f v) :=
  h.of_rd (State.bit_setFld_apart s _ v hf hg) (State.bit_wr_other _ _ (by simp [TIM_TB_HIST, TIM_TB_STAT]))
    (State.rd_wr_other _ _ (by unfold TIM_SWITCHCNT TIM_TB_STAT; omega))

theorem Switched.setStep : Switched b x n (s.setBit (TIM_TB_HIST b) TIM_TB_HIST_STEP true) :=
  h.of_rd (State.bit_wr_other _ _ (by simp [TIM_TB_HIST, TIM_TB_STAT]))
    (State.bit_setFld_apart s _ _ (by decide) (by decide))
    (State.rd_wr_other _ _ (by unfold TIM_SWITCHCNT TIM_TB_HIST; omega))

/-- An update beside the registers. -/
theorem Switched.setBase (y : TimeBase) : Switched b x n (s.setBase b y) := h.of_rd rfl rfl rfl

theorem Switched.enterAcquire (fromHold : Bool) : Switched b x n (s.enterAcquire b fromHold) :=
  (h.setStat (f := TIM_TB_STAT_STATE) (by decide) (by decide) 2).setBase _

theorem Switched.slewOff : Switched b x n (s.slewOff b) :=
  ((h.setBase _).setBase _).setStat (f := TIM_TB_STAT_SLEWING) (by decide) (by decide) _

theorem Switched.stepBase (hb : b < 4) (new : Nat) : Switched b x n (s.stepBase b new) := by
  have hto : Switched b x n (s.stepTo b new) :=
    ((h.setBase _).setStat (f := TIM_TB_STAT_SLEWING) (by decide) (by decide) _).setStep
  exact hto.basesKept hb (stepBase_basesKept s b new)

end switched

/-- The count of switches after one more. -/
def State.nextSwitch (s : State) : Nat :=
  min (s.fld TIM_SWITCHCNT TIM_SWITCHCNT_COUNT + 1) (2 ^ TIM_SWITCHCNT_COUNT.width - 1)

theorem changeDomain_switched (s : State) {b : Nat} (hb : b < 4) :
    Switched b (!s.inUse b) s.nextSwitch (s.changeDomain b) := by
  have hstat : TIM_TB_STAT b ≠ TIM_SWITCHCNT := by unfold TIM_SWITCHCNT TIM_TB_STAT; omega
  have hhist : TIM_TB_HIST b ≠ TIM_SWITCHCNT := by unfold TIM_SWITCHCNT TIM_TB_HIST; omega
  have hapart : TIM_TB_STAT b ≠ TIM_TB_HIST b := by simp [TIM_TB_HIST, TIM_TB_STAT]
  unfold State.changeDomain
  extract_lets s1 s2
  have hset : Switched b (!s.inUse b) s.nextSwitch (s2.inc TIM_SWITCHCNT TIM_SWITCHCNT_COUNT) := by
    refine ⟨?_, ?_, ?_⟩
    · refine (State.bit_wr_other _ _ hstat).trans ((State.bit_wr_other _ _ hapart).trans ?_)
      exact State.bit_setBit _ _ _ _ (by decide) (by decide)
    · exact (State.bit_wr_other _ _ hhist).trans (State.bit_setBit _ _ _ _ (by decide) (by decide))
    · have hcount : s2.fld TIM_SWITCHCNT TIM_SWITCHCNT_COUNT = s.fld TIM_SWITCHCNT TIM_SWITCHCNT_COUNT :=
        (State.fld_setFld_other _ _ _ _ hhist.symm).trans (State.fld_setFld_other _ _ _ _ hstat.symm)
      rw [State.inc, State.fld_incBy _ _ _ _ (by decide), hcount, State.nextSwitch]
  exact hset.basesKept hb ((BasesKept.refl _).raise 257)

/-- FORCEDOM has another domain to go to. -/
def State.MayForce (s : State) (b : Nat) : Prop :=
  s.tbMode b = 2 ∧ s.domQual b (!s.inUse b) = true
    ∧ ((!s.inUse b) = false ∨ s.bit (TIM_TB_CTRL b) TIM_TB_CTRL_DOMBEN = true)

theorem mayForce_iff (s : State) (b : Nat) : (s.tbMode b = 2 ∧ s.domQual b (!s.inUse b)
    ∧ (!(!s.inUse b) ∨ s.bit (TIM_TB_CTRL b) TIM_TB_CTRL_DOMBEN)) ↔ s.MayForce b := by
  simp [State.MayForce]

theorem opForceDom_switched {s : State} {b : Nat} (hb : b < 4) (h : s.MayForce b) :
    Switched b (!s.inUse b) s.nextSwitch (opForceDom b s) := by
  have hchange := changeDomain_switched s hb
  unfold opForceDom
  extract_lets other s1 s2 off thr
  have h2 : Switched b other s.nextSwitch s2 := ite_keep (hchange.enterAcquire true) hchange
  rw [if_pos ((mayForce_iff s b).2 h)]
  exact ite_keep (h2.stepBase hb _) h2.slewOff

theorem opForceDom_refused {s : State} {b : Nat} (h : ¬s.MayForce b) :
    opForceDom b s = s.setBit TIM_ERR TIM_ERR_CFGREJ true := if_neg fun hm => h ((mayForce_iff s b).1 hm)

section forceDom

variable {b : Tb} {s : State} (hb : s.pwr.barred = false)

include hb

theorem gives_forceDom (h : s.MayForce b.val) : Gives (.forceDom b) s (fun u => u.inUse b.val = !s.inUse b.val
    ∧ u.bit (TIM_TB_HIST b.val) TIM_TB_HIST_SWITCH = true
    ∧ u.fld TIM_SWITCHCNT TIM_SWITCHCNT_COUNT = s.nextSwitch ∧ SameMem s u) := by
  refine gives_told_bar hb rfl fun u hu => ?_
  obtain ⟨hinUse, hhist, hcount⟩ := (opForceDom_switched b.isLt h).basesKept b.isLt hu.basesKept
  refine ⟨hinUse, hhist, hcount, fun a => ?_⟩
  rw [hu.mem, (keep_mem s.mem).opForceDom rfl]

theorem gives_forceDom_refused (h : ¬s.MayForce b.val) : Gives (.forceDom b) s (fun u =>
    u.bit TIM_ERR TIM_ERR_CFGREJ = true ∧ OnlyRegs [TIM_ERR] s u) := by
  refine gives_told_bar (t := s.setBit TIM_ERR TIM_ERR_CFGREJ true) hb
    (congrArg (doneBar s) (opForceDom_refused h)) fun u hu =>
      ⟨(hu.bit _ _).trans ?_, hu.frame (Frame.refl.setBit _ _ (by simp))⟩
  exact State.bit_setBit _ _ _ _ (by decide) (by decide)

end forceDom

/-! ## CLRCNT, and the end of a slew (R454, R465) -/

theorem gives_timClrcnt {s : State} (hb : s.pwr.barred = false) : Gives .timClrcnt s (fun u =>
    u.rd TIM_TPOSKIP = 0 ∧ u.rd TIM_SWITCHCNT = 0 ∧ u.rd TIM_STEPCNT = 0 ∧ u.rd TIM_LAUNCHLATE = 0
    ∧ OnlyRegs [TIM_TPOSKIP, TIM_SWITCHCNT, TIM_STEPCNT, TIM_LAUNCHLATE] s u) := by
  refine gives_told_bar hb rfl fun u hu => ?_
  have hzero : ∀ a ∈ [TIM_TPOSKIP, TIM_SWITCHCNT, TIM_STEPCNT, TIM_LAUNCHLATE], u.rd a = 0 :=
    fun a ha => (hu.rd a).trans (clearAll_rd s ha)
  exact ⟨hzero _ (by simp), hzero _ (by simp), hzero _ (by simp), hzero _ (by simp), hu.frame (clearAll_frame s _)⟩

section slewDone

variable {b : Tb} {s : State}

theorem gives_slewDone (hs : s.bit (TIM_TB_STAT b.val) TIM_TB_STAT_SLEWING = true)
    (hadj : (s.base b.val).adj.natAbs < 4294967296000000) : Gives (.slewDone b) s (fun u =>
      u.bit (TIM_TB_STAT b.val) TIM_TB_STAT_SLEWING = false ∧ u.base b.val = { s.base b.val with adj := 0 }
      ∧ Frame [TIM_TB_STAT b.val] [.tim] s u) := by
  have hends : opSlewDone b.val s = (s.setBase b.val { s.base b.val with adj := 0 }).setBit (TIM_TB_STAT b.val)
      TIM_TB_STAT_SLEWING false := if_pos (by rw [hs, Bool.true_and]; exact decide_eq_true hadj)
  refine gives_told (congrArg (done s) hends) fun u hu => ⟨(hu.bit _ _).trans ?_, (hu.base _).trans ?_, hu.frame ?_⟩
  · exact State.bit_setBit _ _ _ _ (by decide) (by decide)
  · exact State.base_setBase s _ _
  · exact (Frame.refl.setBase _ _ (by simp)).setBit _ _ (by simp)

theorem gives_slewDone_nothing (h : s.bit (TIM_TB_STAT b.val) TIM_TB_STAT_SLEWING = false
    ∨ 4294967296000000 ≤ (s.base b.val).adj.natAbs) : Gives (.slewDone b) s (OnlyRegs [] s) := by
  refine gives_unchanged rfl (if_neg fun hends => ?_)
  rw [Bool.and_eq_true, decide_eq_true_eq] at hends
  obtain ⟨hs, hadj⟩ := hends
  rcases h with h | h
  · exact absurd (hs.symm.trans h) (by decide)
  · exact absurd hadj (Nat.not_lt.2 h)

end slewDone

/-! ## Fabric time (R456) -/

section fabricTime

variable {b : Tb} {n : Node} {s : State}

/-- A message that leaves on a link. -/
theorem sendOn_spec (s : State) (k n : Nat) (m : Msg) : .msg n m ∈ ((s.emit (.msg n m)).sendOn k n m).out
    ∧ Frame [] [.blk] s ((s.emit (.msg n m)).sendOn k n m) :=
  have hflits := queueFlits_flitsSent (s.emit (.msg n m)) k ((s.emit (.msg n m)).messageFlits n 3 m false)
  ⟨hflits.sent List.mem_cons_self, (Frame.refl.emit _).trans hflits.frame⟩

theorem gives_fabricTimeSend (h : (s.linkTo n.val).isSome = true) : Gives (.fabricTimeSend b n) s (fun u =>
    .msg n.val (.time b.val (s.tbMode b.val) (s.fullTime b.val)) ∈ u.out ∧ Frame [] [.blk] s u) := by
  obtain ⟨k, hk⟩ := Option.isSome_iff_exists.1 h
  obtain ⟨hout, hframe⟩ := sendOn_spec s k n.val (.time b.val (s.tbMode b.val) (s.fullTime b.val))
  exact gives_told (congrArg (done s) (by rw [opFabricTimeSend, hk])) fun _ hu => ⟨hu.sent _ hout, hu.frame hframe⟩

theorem gives_fabricTimeSend_nothing (h : s.linkTo n.val = none) : Gives (.fabricTimeSend b n) s (OnlyRegs [] s) :=
  gives_unchanged rfl (by rw [opFabricTimeSend, h])

end fabricTime

/-! ## The counters and the express frames of a port (R338, R347) -/

theorem Told.port {t u : State} (h : Told t u) (p : Nat) : u.port p = t.port p := by
  have hmac : u.mac = t.mac := h.same .mac
  rw [State.port, hmac, State.port]

@[simp] theorem State.port_setPort (s : State) (p : Nat) (x : MacPort) : (s.setPort p x).port p = x :=
  Tbl.getD_putD_same ..

theorem Frame.setPort {l : List Nat} {q : List Part} {s t : State} (h : Frame l q s t) (p : Nat) (x : MacPort)
    (hq : .mac ∈ q) : Frame l q s (t.setPort p x) :=
  h.update rfl rfl (fun r hr => by
    cases r
    case mac => exact absurd hq hr
    all_goals simp [Part.Same])

theorem Frame.macCount {l : List Nat} {q : List Part} {s t : State} (h : Frame l q s t) (p reg n : Nat)
    (hq : .mac ∈ q) : Frame l q s (t.macCount p reg n) := h.setPort _ _ hq

theorem Frame.frameSent {l : List Nat} {q : List Part} {s t : State} (h : Frame l q s t) (p len : Nat) (e : Bool)
    (hq : .mac ∈ q) : Frame l q s (t.frameSent p len e) :=
  ((h.macCount _ _ _ hq).macCount _ _ _ hq).when _ (Frame.refl.macCount _ _ _ hq)

/-- A counter changes the counts of its port alone. -/
theorem port_macCount (s : State) (p reg n : Nat) :
    ∃ l, (s.macCount p reg n).port p = { s.port p with counts := l } := ⟨_, State.port_setPort ..⟩

/-- TXDISC counts one frame, below its largest value. -/
theorem macCount_txdisc (s : State) {p : Nat} (h : Tbl.getD (s.port p).counts MAC_TXDISC 0 < 2 ^ 32 - 1) :
    Tbl.getD ((s.macCount p MAC_TXDISC 1).port p).counts MAC_TXDISC 0 = Tbl.getD (s.port p).counts MAC_TXDISC 0 + 1 := by
  unfold State.macCount
  rw [State.port_setPort, Tbl.getD_putD_same, if_neg (by decide)]
  omega

theorem port_frameSent (s : State) (p len : Nat) (e : Bool) :
    ∃ l, (s.frameSent p len e).port p = { s.port p with counts := l } := by
  unfold State.frameSent State.when
  extract_lets s1
  obtain ⟨l1, h1⟩ := port_macCount s p MAC_TXFRM 1
  obtain ⟨l2, h2⟩ := port_macCount (s.macCount p MAC_TXFRM 1) p MAC_TXOCT_LO (len + 4)
  obtain ⟨l3, h3⟩ := port_macCount s1 p MAC_TXEXP 1
  split
  · exact ⟨l3, by rw [h3, h2, h1]⟩
  · exact ⟨l2, by rw [h2, h1]⟩

/-- With no frame being sent an express frame goes out whole. -/
theorem sendExpress_idle {s : State} {p : Nat} (h : (s.port p).tx = none) (d : List Byte) (n : Nat) :
    s.sendExpress p d n = (s.emit (.ether p (wireFrame d))).frameSent p (padded d).length true := by
  have hheld : s.heldBack p = false := by simp [State.heldBack, h]
  have hcut : s.interrupt p n = s := by simp only [State.interrupt, h]
  simp only [State.sendExpress, hheld, hcut, Bool.false_eq_true, if_false]

theorem pump_empty {s : State} {p : Nat} (h : (s.port p).queue = []) : s.pump p = s := by
  simp [State.pump, h, State.each]

/-! ## A launch (R339, R343, R460) -/

theorem expressLaunch_frame (ready : Bool) (s : State) : OnlyRegs [TIM_LAUNCHLATE] s (opExpressLaunch ready s) :=
  ite_keep (P := OnlyRegs [TIM_LAUNCHLATE] s) Frame.refl (Frame.refl.inc _ (by simp))

theorem expressLaunch_port (ready : Bool) (s : State) (p : Nat) : (opExpressLaunch ready s).port p = s.port p := by
  have hmac : (opExpressLaunch ready s).mac = s.mac := (expressLaunch_frame ready s).same (q := .mac) (by simp)
  rw [State.port, hmac, State.port]

theorem launchLate_ne_stat (p : Nat) (hp : p < 64) : MP_STAT p ≠ TIM_LAUNCHLATE := by
  unfold MP_STAT TIM_LAUNCHLATE
  omega

/-- The count of late frames after a launch. -/
def State.lateCount (s : State) (ready : Bool) : Nat :=
  if ready then s.fld TIM_LAUNCHLATE TIM_LAUNCHLATE_COUNT
  else min (s.fld TIM_LAUNCHLATE TIM_LAUNCHLATE_COUNT + 1) (2 ^ TIM_LAUNCHLATE_COUNT.width - 1)

theorem expressLaunch_late (ready : Bool) (s : State) :
    (opExpressLaunch ready s).fld TIM_LAUNCHLATE TIM_LAUNCHLATE_COUNT = s.lateCount ready := by
  cases ready
  · exact State.fld_incBy _ _ _ _ (by decide)
  · rfl

section launch

variable {p : Port} {s : State} (d : List Byte) (n : Nat) (ready : Bool)

theorem gives_launch_nothing (h : s.fld PWR_STAT PWR_STAT_STATE = 2) :
    Gives (.expressLaunch p d n ready) s (OnlyRegs [] s) :=
  gives_unchanged rfl (if_pos (by simp [State.macStopped, h]))

variable (h : s.fld PWR_STAT PWR_STAT_STATE ≠ 2)

include h

theorem opExpress_live : opExpress p.val d n ready s =
    if s.portUp p.val then
      (((opExpressLaunch ready s).sendExpress p.val d n).setBit (MP_STAT p.val) MP_STAT_HOLD false).pump p.val
    else (opExpressLaunch ready s).macCount p.val MAC_TXDISC 1 := by
  have hup : (opExpressLaunch ready s).portUp p.val = s.portUp p.val :=
    (expressLaunch_frame ready s).bit _ (by simpa using launchLate_ne_stat _ p.isLt)
  have hlive : s.macStopped = false := by simpa [State.macStopped] using h
  simp only [opExpress, hlive, hup, Bool.false_eq_true, if_false]
  cases s.portUp p.val <;> rfl

theorem gives_launch_down (hup : s.portUp p.val = false) : Gives (.expressLaunch p d n ready) s (fun u =>
    u.fld TIM_LAUNCHLATE TIM_LAUNCHLATE_COUNT = s.lateCount ready ∧ Frame [TIM_LAUNCHLATE] [.mac] s u
    ∧ (Tbl.getD (s.port p.val).counts MAC_TXDISC 0 < 2 ^ 32 - 1 →
      Tbl.getD (u.port p.val).counts MAC_TXDISC 0 = Tbl.getD (s.port p.val).counts MAC_TXDISC 0 + 1)) := by
  have hop : opExpress p.val d n ready s = (opExpressLaunch ready s).macCount p.val MAC_TXDISC 1 :=
    (opExpress_live d n ready h).trans (if_neg (by simp [hup]))
  have hlaunch : Frame [TIM_LAUNCHLATE] [.mac] s (opExpressLaunch ready s) :=
    (expressLaunch_frame ready s).mono (by simp) (by simp)
  refine gives_told (congrArg (done s) hop) fun u hu =>
    ⟨(hu.fld _ _).trans (expressLaunch_late ready s), hu.frame (hlaunch.macCount _ _ _ (by simp)), fun hlt => ?_⟩
  rw [← expressLaunch_port ready s] at hlt ⊢
  rw [hu.port, macCount_txdisc _ hlt]

theorem answers_launch_up (hup : s.portUp p.val = true) : Answers (.expressLaunch p d n ready) s
    ((((opExpressLaunch ready s).sendExpress p.val d n).setBit (MP_STAT p.val) MP_STAT_HOLD false).pump p.val) :=
  answers_of_done (congrArg (done s) ((opExpress_live d n ready h).trans (if_pos hup)))

/-- On an idle port with an empty queue the launch ends with the frame and the hold. -/
theorem opExpress_idle (hup : s.portUp p.val = true) (htx : (s.port p.val).tx = none)
    (hqueue : (s.port p.val).queue = []) : opExpress p.val d n ready s =
      (((opExpressLaunch ready s).emit (.ether p.val (wireFrame d))).frameSent p.val (padded d).length true).setBit
        (MP_STAT p.val) MP_STAT_HOLD false := by
  rw [← expressLaunch_port ready s] at htx hqueue
  rw [opExpress_live d n ready h, if_pos hup, sendExpress_idle htx, pump_empty]
  obtain ⟨l, hl⟩ := port_frameSent ((opExpressLaunch ready s).emit (.ether p.val (wireFrame d))) p.val (padded d).length true
  exact (congrArg MacPort.queue hl).trans hqueue

theorem gives_launch_idle (hup : s.portUp p.val = true) (htx : (s.port p.val).tx = none)
    (hqueue : (s.port p.val).queue = []) : Gives (.expressLaunch p d n ready) s (fun u =>
      u.fld TIM_LAUNCHLATE TIM_LAUNCHLATE_COUNT = s.lateCount ready ∧ .ether p.val (wireFrame d) ∈ u.out
      ∧ u.bit (MP_STAT p.val) MP_STAT_HOLD = false ∧ Frame [MP_STAT p.val, TIM_LAUNCHLATE] [.mac] s u) := by
  have hlaunch : Frame [MP_STAT p.val, TIM_LAUNCHLATE] [.mac] s (opExpressLaunch ready s) :=
    (expressLaunch_frame ready s).mono (by simp) (by simp)
  have hsent : Frame [MP_STAT p.val] [.mac] (opExpressLaunch ready s) (opExpress p.val d n ready s) := by
    rw [opExpress_idle d n ready h hup htx hqueue]
    exact ((Frame.refl.emit _).frameSent _ _ _ (by simp)).setBit _ _ (by simp)
  refine gives_told rfl fun u hu => ⟨?_, hu.sent _ ?_, ?_, hu.frame (hlaunch.trans (hsent.mono (by simp) (by simp)))⟩
  · rw [hu.fld, hsent.fld _ (by simpa using (launchLate_ne_stat _ p.isLt).symm), expressLaunch_late]
  · rw [opExpress_idle d n ready h hup htx hqueue]
    exact List.mem_cons_self
  · rw [hu.bit, opExpress_idle d n ready h hup htx hqueue]
    exact State.bit_setBit _ _ _ _ (by decide) (by decide)

end launch

/-! ## The obligation -/

/-- Settles O37: each command by the branches of its definition; the events of a step and of a switch leave the bases as they
were set. -/
theorem timeBaseCommands : Obligations.TimeBaseCommands := by
  intro b s
  refine ⟨fun hb => ⟨fun v hm => ⟨timRefused hb hm rfl, timRefused hb hm rfl, timRefused hb hm rfl⟩, gives_load hb,
      gives_timAdjWrite hb, gives_timFreqWrite hb, gives_snap hb b, gives_snapAll hb, gives_forceDom_refused hb,
      gives_forceDom hb, gives_timClrcnt hb⟩,
    gives_slewDone, gives_slewDone_nothing, fun n => gives_fabricTimeSend, fun n => gives_fabricTimeSend_nothing,
    fun p d n ready => ⟨fun h => gives_launch_nothing d n ready (not_not.1 h), gives_launch_down d n ready,
      fun h hup => ⟨answers_launch_up d n ready h hup, gives_launch_idle d n ready h hup⟩⟩⟩

end Sys2Proof.Machine
end

section
/-! PROOFS. Two statements that fail: the link of a MAC port (O42), and the frames on one (O43). -/

namespace Sys2Proof.Machine

open Sys2Proof

/-! ## A port that the table lists twice (R343, R536) -/

/-- Port 0 is receiving a frame in fragments, and its link is up; the first event on MAC_FCS (65) puts the device in the safe
state. The table of ports lists the port a second time, with a frame under way and a timestamp delivered. -/
def portListedTwice : State :=
  { (State.reset.wr (HDG_SRC_CFG 65) 0x121).wr (MP_STAT 0) 1 with
    mac := ⟨[(0, { MacPort.idle with reasm := some (0, 0, 0) }),
      (0, { MacPort.idle with tx := some ⟨[], false, true, false, 0⟩, rxStamp := some 1 })]⟩ }

theorem portListedTwice_linkDown : ((opLinkDown 0 portListedTwice).port 0).rxStamp = some 1 := by decide +kernel

/-- Refutes O42: the statement does not ask that the table of ports lists a port once. The frame in reassembly counts at RXFCS
and raises MAC_FCS (65); the safe state ends the frame of each entry of the table, and writes the second entry of the port over
the first, with a timestamp that the port had not delivered. -/
theorem not_portLink : ¬ Obligations.PortLink := by
  intro h
  obtain ⟨-, -, -, -, -, -, -, hdown, -⟩ := h 0 portListedTwice
  obtain ⟨-, hreasm⟩ := hdown (by decide +kernel) (by decide +kernel)
  obtain ⟨⟨-, hcleared, -⟩, -⟩ := Gives.of_done rfl (hreasm (by decide +kernel))
  rw [(signalEdges_told ..).port] at hcleared
  have hstamp := portListedTwice_linkDown.symm.trans (congrArg MacPort.rxStamp hcleared)
  exact absurd hstamp (by decide +kernel)

/-! ## A counter beyond 32 bits (R340, R347) -/

/-- Port 0 is enabled and reassembles a frame, and its RXREASM counter holds 2^32, which no count of 32 bits reaches. -/
def reasmBeyondWord : State :=
  { State.reset.wr (MP_CFG 0) 1 with
    mac := ⟨[(0, { MacPort.idle with counts := [(MAC_RXREASM, 2 ^ 32)], reasm := some (0, 0, 0) })]⟩ }

/-- A whole preemptable frame. -/
def wholeFrame : RxFrame := ⟨64, true, false, .whole, false, false, true, 0, 0⟩

theorem reasmBeyondWord_counts :
    Tbl.getD ((opFrameReceived 0 wholeFrame reasmBeyondWord).port 0).counts MAC_RXREASM 0 = 2 ^ 32 - 1 := by
  decide +kernel

/-- Refutes O43: where a new start ends a frame in reassembly, the statement does not bound the counter as its other clauses do.
The count saturates at 2^32 - 1, below the 2^32 that stood there. -/
theorem not_framesOnAPort : ¬ Obligations.FramesOnAPort := by
  intro h
  obtain ⟨hreceived, -⟩ := h 0 reasmBeyondWord
  obtain ⟨-, -, hfragment⟩ := hreceived wholeFrame
  obtain ⟨-, hrestart, -⟩ := hfragment (by decide +kernel) rfl
  obtain ⟨-, hcount, -⟩ := Gives.of_done rfl (hrestart 0 (.inr rfl) (by decide +kernel))
  dsimp only at hcount
  rw [(signalEdges_told ..).port] at hcount
  exact absurd (hcount.trans_eq reasmBeyondWord_counts) (by decide +kernel)

end Sys2Proof.Machine
end
